-- ==== Sys2Proof/Word.lean ====
section
/-! DEFINITION. Word.lean: the word types of the AGU7480's packets, registers and rings, and their plainest arithmetic.

Every multi-byte packet field, ring entry and register is little-endian (R9). -/

namespace Sys2Proof

/-- One byte of a packet, a register page or host memory. -/
abbrev Byte := BitVec 8

/-- A byte string, lowest offset first (R9). -/
abbrev Bytes := List (BitVec 8)

/-- A Sidereal time as a count of 1/65536 ns since the Sidereal epoch (R334). -/
abbrev Sid := Nat

end Sys2Proof
end

