-- ==== Sys2Proof/Syntax.lean ====
section
/-! DEFINITION. Syntax.lean: the commands of the AGU7480 block, one constructor of `Instr` per row of
spec/opcode_table.json, with the operands the spec gives the row.

Three kinds of row stand in the table. An ONARIX COMMAND carries the fields of its packet header and its payload
bytes (`Args`, R38). A REGISTER OR BUS OPERATION carries the link and the value written. An EVENT of the device or
of its surroundings carries what the surroundings supply: the Sidereal time of the occurrence and the measured
values that the spec names (what arrives at an aerial, a pin or a port is no state of the device). -/

namespace Sys2Proof

/-- The channel a command came by (R29): a command ring, the mailbox, or the generation-1 registers (R499). -/
inductive Origin where
  | ring (n : Nat)
  | mailbox
  | legacy
  | replay (n : Nat)
  deriving DecidableEq, Repr

/-- The link of a register access (Table 2-15 `VLOG_LINK`). -/
inductive Link where
  | i2c
  | pcie
  deriving DecidableEq, Repr

/-- The fields of one Onarix packet but its opcode, which the constructor gives (Table 2-1). `LEN` is the number of
payload bytes. `addr` is the host address of the packet's first byte when it came from a ring (Table 2-15). -/
structure Args where
  origin  : Origin
  addr    : BitVec 64
  tag     : BitVec 10
  flags   : BitVec 6
  target  : BitVec 16
  whn     : BitVec 64
  payload : Bytes
  deriving DecidableEq, Repr

/-- A complex sample, carrier or weight, in the integers of its stage. -/
structure Cx where
  re : Int
  im : Int
  deriving DecidableEq, Repr

/-- One tone of the calibration comb as a converter measures it (R127, R128): its frequency in kHz, the gain index and the
measured level in 0.01 dBFS. -/
structure ToneLevel where
  khz   : Nat
  g     : Int
  level : Int
  deriving DecidableEq, Repr

/-- What the sensors give at a tick boundary: the hottest junction in 0.1 °C (R428), the mean input current in mA
(R406), VIN in mV, and the composite power of the four inputs in 0.01 dBFS (R102). `ref` and `xo` are the mean deviations of
the selected reference and of the crystal from their nominal frequencies over the tick, in 10⁻¹² (R84, R85). `adc` holds, per input, the
converter samples that leave its delay line and have not been fed before, the last one sampled at this boundary (R137); where an
input has none, `composite` tells its power. `mismatch` holds, per receive converter, the residual gain, offset and skew error of
each of its eight sub-converters, in 0.0001 dB, 1/256 code and fs (R108). `faulty` names the commands in whose execution the device
finds an internal inconsistency at this tick (R487): channel and tag. `tsDenied` says that the memory controller denied the time-shift
store its bandwidth since the tick before (R27, R286). -/
structure TickIn where
  tj        : Int
  iin       : Nat
  vin       : Nat
  composite : List Int
  adc       : List (List Int)
  mismatch  : List (List (Int × Int × Int))
  ref       : Int
  xo        : Int
  faulty    : List (Origin × Nat)
  tsDenied  : Bool
  deriving DecidableEq, Repr

/-- The measures of one AM, FM or flake window (Tables 6-1 and 6-4), in the units of those tables. -/
structure Measures where
  level   : Int
  offset  : Int
  dev     : Nat
  pilot   : Nat
  usn     : Int
  mp      : Nat
  bler    : Nat
  adjUp   : Int
  adjLo   : Int
  uncal   : Bool
  invalid : Bool
  slew    : Bool
  deriving DecidableEq, Repr

/-- One RDS block as the demodulated bits give it: 26 bits, first received highest, the start of its first bit at ANTn, and
whether it was received in an Aurora slew or from samples that carry `BLANK` (R187–R189). -/
structure RdsBlock where
  word  : BitVec 26
  start : Sid
  slew  : Bool
  blank : Bool
  deriving DecidableEq, Repr

/-- One service of an ensemble's configuration as the fast information describes it (Table 7-10). -/
structure ServiceInfo where
  sid      : BitVec 32
  comp     : BitVec 8
  kind     : BitVec 8
  subch    : BitVec 8
  bitrate  : BitVec 16
  prot     : BitVec 8
  ca       : Bool
  announce : Bool
  label    : Bytes
  clusters : List Nat
  deriving DecidableEq, Repr

/-- A multiplex configuration: FIG 0/0, 0/1, 0/2 and labels for DAB, FAC and SDC for DRM (R228, R229). -/
structure MuxConfig where
  eid      : BitVec 16
  label    : Bytes
  nSubch   : Nat
  services : List ServiceInfo
  deriving DecidableEq, Repr

/-- A linkage or frequency entry received by broadcast (R259): its origin, set, standard, identifier, frequency,
extended country code and flags. -/
structure LinkInfo where
  origin : BitVec 8
  set    : Nat
  std    : BitVec 8
  ident  : BitVec 32
  freq   : BitVec 32
  ecc    : BitVec 8
  hard   : Bool
  active : Bool
  ils    : Bool
  deriving DecidableEq, Repr

/-- One OFDM symbol as a branch receives it: its carriers, those of the symbol before (DAB) or the pilot-based channel estimate
(DRM), and whether the symbol contains a sample flagged `BLANK`, `CLIP` or `SAT` (R132, R226). -/
structure SymbolRx where
  cells  : List Cx
  other  : List Cx
  marked : Bool
  deriving DecidableEq, Repr

/-- One branch over a transmission frame: its noise variance, from the null symbol or the unused cells; the power of its phase
reference symbol or time reference cells; its symbols (R132, R134). -/
structure BranchFrame where
  noise   : Nat
  ref     : Nat
  symbols : List SymbolRx
  deriving DecidableEq, Repr

/-- What one FIB says, as far as the device acts on it (R227, R228, R241, R244, R259). -/
structure FibInfo where
  crcOk    : Bool
  alFlag   : Option Bool
  alarm    : Option (Bool × BitVec 8)
  announce : Option (BitVec 16 × BitVec 8 × Bool)
  config   : Option MuxConfig
  /-- FIG 0/0 is carried, and the subchannels of FIG 0/1. -/
  fig00    : Bool
  subchs   : List Nat
  /-- The next configuration, and the CIF count of its occurrence change. -/
  next     : Option MuxConfig
  nextCif  : Nat
  links    : List LinkInfo
  cif      : Nat
  raw      : Bytes
  deriving DecidableEq, Repr

/-- What one DRM FAC or SDC block says (R229). -/
structure SdcInfo where
  isFac     : Bool
  crcOk     : Bool
  mode      : BitVec 3
  occupancy : BitVec 4
  config    : Option MuxConfig
  complete  : Bool
  next      : Option MuxConfig
  links     : List LinkInfo
  raw       : Bytes
  deriving DecidableEq, Repr

/-- The measures of one OFDM window (Table 7-6). -/
structure OfdmMeasures where
  level    : Int
  offset   : Int
  snr      : Int
  mer      : Nat
  merFast  : Nat
  wmer     : Nat
  fastBer  : Nat
  fastErr  : Nat
  spread   : Nat
  doppler  : Nat
  uncal    : Bool
  invalid  : Bool
  slew     : Bool
  erased   : Bool
  deriving DecidableEq, Repr

/-- The measures of one service in an OFDM window (Table 7-6). -/
structure ServiceMeasures where
  mscBer  : Nat
  auErr   : Nat
  rsFixed : Nat
  deriving DecidableEq, Repr

/-- One MSC unit: `R_KIND` 0x04 to 0x06, its subchannel or stream, CIF count, whether it was decoded without error, its bytes. -/
structure MscUnit where
  kind  : Nat
  subch : Nat
  cif   : Nat
  ok    : Bool
  data  : Bytes
  deriving DecidableEq, Repr

/-- One TII comb as measured over the frames of an average (R250, R251): power above that of the null symbol outside all combs, and
relative to the phase reference symbol, SNR, τ_t in 2⁻¹⁶ ns where it could be taken and whether a peak of the impulse response
lies near it, and its standard deviation. -/
structure TiiComb where
  main  : BitVec 8
  sub   : BitVec 8
  above : Int
  level : Int
  snr   : Int
  tau   : Option Int
  peak  : Bool
  sigma : Nat
  deriving DecidableEq, Repr

/-- One transmitter of a TII table (Table 7-12). -/
structure TiiEntry where
  main   : BitVec 8
  sub    : BitVec 8
  flags  : BitVec 8
  frames : BitVec 8
  level  : Int
  snr    : Int
  arrSec : Nat
  arrNs  : Nat
  arrFr  : Nat
  sigma  : Nat
  delay  : Int
  deriving DecidableEq, Repr

/-- One strong signal of an Aurora scan: frequency in kHz, level in 0.1 dBFS and width in kHz (R113). -/
structure StrongSignal where
  freq  : Nat
  level : Int
  width : Nat
  deriving DecidableEq, Repr

/-- One correlation of the linking engine (R267, R268): the lag of the first value in steps (16 samples coarse, one sample fine),
R(τ) in 0.0001 from there on, the rms of both signals in 0.01 dBFS, and the energy ratio in 0.01 dB (R272). -/
structure LagMeasure where
  first : Int
  r     : List Int
  rmsA  : Int
  rmsB  : Int
  gain  : Int
  deriving DecidableEq, Repr

/-- One frame as the supervisor of a port sees it (R304): its bit clocks, its shortest BCLK period, and its length. -/
structure FrameSeen where
  bits     : Nat
  shortest : Sid
  span     : Sid
  deriving DecidableEq, Repr

/-- What the monitor receiver measured in one window (R323), in the units of `TX_MON_GET` (R332). -/
structure MonitorIn where
  offset     : Int
  pTxmon     : Int
  adjacent   : Int
  devMer     : Nat
  content    : Nat
  quiet      : Bool
  fibDiffers : Nat
  clipping   : Bool
  deriving DecidableEq, Repr

/-- A message that the PTP port receives (R341, R464), times and corrections in 1/65536 ns: a Sync, with its origin time from itself
or from its Follow_Up; a Delay_Resp, with the time at which the master received; a Pdelay_Resp, with the responder's turnaround; an
Announce, which names the grandmaster and the UTC offset; or another, which may be an event message. -/
inductive PtpMsg where
  | sync (origin : Int) (correction : Int)
  | delayResp (received : Int) (correction : Int)
  | pdelayResp (turnaround : Int) (correction : Int)
  | announce (gm : BitVec 64) (utcOffset : BitVec 16)
  | other (event : Bool)
  deriving DecidableEq, Repr

/-- A message that the PTP port sends. -/
inductive PtpOut where
  | sync
  | delayReq
  | announce
  | other (event : Bool)
  deriving DecidableEq, Repr

/-- An IP datagram, or a fragment of one, for the UDP port of a stream (R466, R470): its source and destination addresses, an IPv4
one in the low 32 bits, its IP identification, the place of its bytes in the UDP payload, whether they are the last, and the bytes. -/
structure Datagram where
  stream : Nat
  source : BitVec 128
  dest   : BitVec 128
  ident  : Nat
  offset : Nat
  last   : Bool
  data   : Bytes
  deriving DecidableEq, Repr

/-- How a controller write of R452 ended on the bus (R453). -/
inductive CtrlResult where
  | done
  | nack
  | lost
  deriving DecidableEq, Repr

/-- The straps sampled at step 2 of bring-up (R505). -/
structure Straps where
  addr    : BitVec 3
  modeLeg : Bool
  xtalSel : Bool
  deriving DecidableEq, Repr

/-- The commands of the block: one constructor per row of spec/opcode_table.json. -/
inductive Instr where
  /-- `NOP` (R40). A NOP packet is taken from a command ring and skipped together with its payload, with no tag and no completion. -/
  | nop (a : Args)
  /-- `IDENTIFY` (R490). Returns the identity, protocol generation, firmware build, firmware slot and serial number of the device. -/
  | identify (a : Args)
  /-- `GET_STATUS` (R491). Returns one snapshot of the status mirror: main status, bring-up, power, in-flight commands, slots and time. -/
  | getStatus (a : Args)
  /-- `GET_CAPS` (R67). Returns the 64-byte capability record of one unit, or the records of all units for unit ID 0x00. -/
  | getCaps (a : Args)
  /-- `CMD_ABORT` (R48). Aborts a named Waiting, Held or abortable Executing command with ST_ABORTED_HOST, or completes with ST_BAD_STATE. -/
  | cmdAbort (a : Args)
  /-- `PWR_STATE_SET` (R530). Requests a power state; updates REQ_STATE and starts the transition to Frost, Permafrost, Active or Avalanche. -/
  | pwrStateSet (a : Args)
  /-- `PWR_GET` (R436). Returns the power, thermal, input-current, boost and brown-out record. -/
  | pwrGet (a : Args)
  /-- `PWR_LIMIT_SET` (R436). Sets the input current limit ILIM_IN. -/
  | pwrLimitSet (a : Args)
  /-- `RING_CREATE` (R49). Creates a ring with its status block, checking windows and pairing, and recovers INFLIGHT tags when RECOVER is set. -/
  | ringCreate (a : Args)
  /-- `RING_DESTROY` (R56). Destroys a ring, aborting its queued, held and waiting commands and completing after its executing commands. -/
  | ringDestroy (a : Args)
  /-- `RING_RESET` (R56). Returns a halted ring to running with both counts set to a new START_INDEX. -/
  | ringReset (a : Args)
  /-- `WIN_SET` (R57). Defines, changes or disables one host memory window. -/
  | winSet (a : Args)
  /-- `EVENT_WINDOW_SET` (R489). Sets the coalescing window in ticks for one event code or all coalescable codes. -/
  | eventWindowSet (a : Args)
  /-- `REF_SET` (R74). Changes the reference source, frequency, conditioners or qualification period as a reference loss and return. -/
  | refSet (a : Args)
  /-- `LOCK_SET` (R77). Sets the lock window and lock cycle count of one loop, applying from its next lock attempt. -/
  | lockSet (a : Args)
  /-- `MCLK_SET` (R92). Enables, disables or changes the frequency of one MCLK output at clean edges. -/
  | mclkSet (a : Args)
  /-- `REFOUT_SET` (R93). Enables, disables or changes the frequency of REFOUT. -/
  | refoutSet (a : Args)
  /-- `PPSOUT_SET` (R96). Sets the mode and pulse width of PPS_OUT. -/
  | ppsoutSet (a : Args)
  /-- `CLOCK_GET` (R83). Returns the reference state, loop lock, gating, counts, build-out values and SCLK rates. -/
  | clockGet (a : Args)
  /-- `AURORA_SET` (R118). Sets the Aurora planner mode and parameters, taking effect after any slew or re-lock in progress. -/
  | auroraSet (a : Args)
  /-- `AURORA_RUN` (R118). Runs an Aurora evaluation, optionally after a fresh scan, and optionally applies the pending plan. -/
  | auroraRun (a : Args)
  /-- `AURORA_GET` (R140). Returns the planner state and up to MAX_RECS collision records. -/
  | auroraGet (a : Args)
  /-- `ANT_SET` (R100). Sets the gain mode, manual gain, AGC parameters and power of one aerial input. -/
  | antSet (a : Args)
  /-- `BIAS_SET` (R105). Sets the active-aerial bias rail, current limit and retry policy of one input, checking the rail. -/
  | biasSet (a : Args)
  /-- `RF_CAL` (R127). Runs a foreground calibration, a spot calibration now, or configures background calibration. -/
  | rfCal (a : Args)
  /-- `RF_STATUS_GET` (R140). Returns the gain, bias, composite power, counts and calibration state of one input. -/
  | rfStatusGet (a : Args)
  /-- `BLANK_SET` (R138). Sets the coexistence blanking inputs, action, polarity and margins. -/
  | blankSet (a : Args)
  /-- `DIV_SET` (R136). Sets the diversity mode of a full lane, effective at the next frame or tick. -/
  | divSet (a : Args)
  /-- `ZONE_TUNE` (R164). Retunes, enables or disables a zone and its gang at one converter sample, with a synchronising reset. -/
  | zoneTune (a : Args)
  /-- `ZONE_GET` (R174). Returns the state, bindings, mark count, frequency and NCO word of a zone. -/
  | zoneGet (a : Args)
  /-- `LANE_SET` (R173). Configures or releases a full or survey lane, binding zones and deriving stage count and ratio. -/
  | laneSet (a : Args)
  /-- `LANE_TUNE` (R166). Retunes a lane, hitlessly or with a synchronising reset. -/
  | laneTune (a : Args)
  /-- `LANE_START` (R173). Starts a stopped lane with a synchronising reset, subject to rate budgets and shed holds. -/
  | laneStart (a : Args)
  /-- `LANE_STOP` (R173). Stops a lane, delivering its final block short. -/
  | laneStop (a : Args)
  /-- `LANE_SYNC` (R173). Makes a synchronising reset of a running or settling lane. -/
  | laneSync (a : Args)
  /-- `LANE_STREAM` (R175). Binds or unbinds a stream-out ring to a lane's blocks from the next block boundary. -/
  | laneStream (a : Args)
  /-- `LANE_GET` (R174). Returns the state, rate, ratio and counters of a lane. -/
  | laneGet (a : Args)
  /-- `AM_SET` (R214). Sets the programme path, detector, bandwidth and soft mute of an AM lane. -/
  | amSet (a : Args)
  /-- `FM_SET` (R214). Sets the programme path, filter, de-emphasis, RDS, blend, mute and quality parameters of an FM lane. -/
  | fmSet (a : Args)
  /-- `QUALITY_GET` (R214). Returns the analogue demodulator state and latest window measures of a lane. -/
  | qualityGet (a : Args)
  /-- `RDS_STREAM` (R191). Binds or unbinds a stream-out ring for the RDS group records of a lane or flakes. -/
  | rdsStream (a : Args)
  /-- `RDS_GET` (R190). Returns the accepted RDS service data or RadioText of a lane or flake. -/
  | rdsGet (a : Args)
  /-- `FLURRY_SET` (R199). Sets census, band, probing, RDS correction, flake filter and pool base of Flurry. -/
  | flurrySet (a : Args)
  /-- `TAP_SET` (R194). Places, moves or disables a Flurry tap, freeing flakes that leave its span. -/
  | tapSet (a : Args)
  /-- `FLAKE_ASSIGN` (R203). Assigns or retargets a flake to a carrier on a tap, taking it over from census or AF. -/
  | flakeAssign (a : Args)
  /-- `FLAKE_RELEASE` (R214). Frees a flake. -/
  | flakeRelease (a : Args)
  /-- `FLAKE_GET` (R198). Returns the state and measurements of a flake. -/
  | flakeGet (a : Args)
  /-- `CENSUS_GET` (R214). Returns census entries of a tap in ascending frequency. -/
  | censusGet (a : Args)
  /-- `AF_SET` (R207). Sets AF following of a playing FM lane, its spare and its switching parameters. -/
  | afSet (a : Args)
  /-- `OFDM_SET` (R252). Sets alert, announcement, measurement, acquisition, service timeout and DRM mode settings of an OFDM lane. -/
  | ofdmSet (a : Args)
  /-- `ENSEMBLE_GET` (R252). Returns the ensemble state, identity, label and frame times of an OFDM lane. -/
  | ensembleGet (a : Args)
  /-- `SERVICE_LIST_GET` (R252). Returns service list entries of the lane's configuration. -/
  | serviceListGet (a : Args)
  /-- `SERVICE_START` (R231). Starts a service into a programme path and completes at its first PCM sample or on failure. -/
  | serviceStart (a : Args)
  /-- `SERVICE_STOP` (R237). Stops the service feeding a programme path with a ramp down. -/
  | serviceStop (a : Args)
  /-- `OFDM_QUALITY_GET` (R252). Returns the OFDM quality measures of a lane and optionally of one service. -/
  | ofdmQualityGet (a : Args)
  /-- `FIC_STREAM` (R254). Binds or unbinds a ring for FIB, FAC and SDC records of a lane. -/
  | ficStream (a : Args)
  /-- `PAD_STREAM` (R254). Binds or unbinds a ring for PAD records of a lane's services. -/
  | padStream (a : Args)
  /-- `SUBCH_STREAM` (R254). Binds or unbinds a ring for subchannel or MSC stream records. -/
  | subchStream (a : Args)
  /-- `SURVEY_SET` (R247). Sets the analysis of a survey lane: spectrum, DAB impulse response and TII, or DRM impulse response. -/
  | surveySet (a : Args)
  /-- `TII_GET` (R251). Returns the TII entries of the latest completed average. -/
  | tiiGet (a : Args)
  /-- `LINK_ADD` (R260). Adds a host entry to the link table and returns its index. -/
  | linkAdd (a : Args)
  /-- `LINK_REMOVE` (R287). Removes a link table entry or a whole set. -/
  | linkRemove (a : Args)
  /-- `LINK_GET` (R287). Returns link table entries. -/
  | linkGet (a : Args)
  /-- `LINK_CONFIG` (R259). Sets which broadcast origins are collected and the entry age. -/
  | linkConfig (a : Args)
  /-- `BLEND_SET` (R287). Sets fade, law, reserve, delay slew, guard and level matching of a programme path. -/
  | blendSet (a : Args)
  /-- `FOLLOW_SET` (R274). Forms, changes or dissolves a follow group headed by a path. -/
  | followSet (a : Args)
  /-- `BLEND_NOW` (R276). Fades a group to a named member at the next tick boundary. -/
  | blendNow (a : Args)
  /-- `FOLLOW_GET` (R287). Returns the group header and member alignment records. -/
  | followGet (a : Args)
  /-- `EQ_LOAD` (R282). Loads sections and pre-gain into the equaliser bank not in use. -/
  | eqLoad (a : Args)
  /-- `EQ_SWAP_BANK` (R283). Requests a swap to a named equaliser bank, pending until its point of effect. -/
  | eqSwapBank (a : Args)
  /-- `TSHIFT_SET` (R286). Gives or frees time-shift store pages for a path. -/
  | tshiftSet (a : Args)
  /-- `TSHIFT_READ` (R286). Copies a held time-shift span to a stream-out ring as records. -/
  | tshiftRead (a : Args)
  /-- `SAP_SET` (R307). Enables, configures or disables a serial audio port. -/
  | sapSet (a : Args)
  /-- `SAP_ROUTE` (R302). Sets the output slot sources and internal feed of a port, double-buffered to a frame. -/
  | sapRoute (a : Args)
  /-- `SAP_MASK_SET` (R302). Sets the input and output slot masks of a port at one frame start. -/
  | sapMaskSet (a : Args)
  /-- `SAP_STREAM` (R308). Binds or unbinds capture and play rings of a port. -/
  | sapStream (a : Args)
  /-- `SAP_GET` (R307). Returns the state, masks, rate and counters of a port. -/
  | sapGet (a : Args)
  /-- `TX_TUNE` (R314). Tunes Lodestar to a regulatory entry, re-locking and calibrating the TX PLL. -/
  | txTune (a : Args)
  /-- `TX_START` (R315). Starts transmission, pending on TX PLL lock, coexistence grant and frame grid. -/
  | txStart (a : Args)
  /-- `TX_STOP` (R313). Stops transmission with an ordinary stop ramp, or aborts a pending start. -/
  | txStop (a : Args)
  /-- `TX_LEVEL_SET` (R313). Sets the transmit level, ramp and PA lead and lag times. -/
  | txLevelSet (a : Args)
  /-- `TX_FM_SET` (R311). Configures the FM multiplex and RDS of the exciter. -/
  | txFmSet (a : Args)
  /-- `TX_DAB_SET` (R311). Configures the DAB ensemble of the exciter. -/
  | txDabSet (a : Args)
  /-- `TX_BREAKIN_SET` (R328). Sets break-in triggers, sources, channel, level, fade and BRK_PROG. -/
  | txBreakinSet (a : Args)
  /-- `TX_BREAKIN` (R329). Starts or ends a host break-in from a named source. -/
  | txBreakin (a : Args)
  /-- `TX_GET` (R332). Returns the exciter state, entry, level, f_tx, delay, duty and SFN counters. -/
  | txGet (a : Args)
  /-- `REG_LOAD` (R332). Writes bytes into the staged regulatory table image. -/
  | regLoad (a : Args)
  /-- `REG_COMMIT` (R319). Commits the staged regulatory table to a one-time-programmable slot. -/
  | regCommit (a : Args)
  /-- `REG_LOCK` (R321). Writes the permanent regulatory lock marker. -/
  | regLock (a : Args)
  /-- `REG_GET` (R332). Returns the regulatory status or one entry of the table in force. -/
  | regGet (a : Args)
  /-- `COEX_SET` (R325). Enables coexistence and sets polarities, wait and lead. -/
  | coexSet (a : Args)
  /-- `TX_SFN_SET` (R326). Sets the SFN role, stream, offset, PA delay, coast and lead. -/
  | txSfnSet (a : Args)
  /-- `TX_MON_GET` (R332). Returns the latest self-monitoring window. -/
  | txMonGet (a : Args)
  /-- `TIME_SRC_SET` (R346). Selects the Sidereal disciplining source and servo parameters. -/
  | timeSrcSet (a : Args)
  /-- `PTP_SET` (R341). Configures or turns off the PTP ordinary clock. -/
  | ptpSet (a : Args)
  /-- `TIME_SET` (R357). Sets Sidereal time absolutely or steps it relatively at the next tick boundary. -/
  | timeSet (a : Args)
  /-- `TIME_ACCEPT_STEP` (R345). Accepts a refused offset by step or slew and returns Sidereal to Disciplined. -/
  | timeAcceptStep (a : Args)
  /-- `TIME_ADJUST` (R344). Supplies a host time offset sample to the servo. -/
  | timeAdjust (a : Args)
  /-- `TIME_GET` (R357). Returns the Sidereal state, offsets, rate, PTP data and time. -/
  | timeGet (a : Args)
  /-- `SCHED_ADD` (R351). Places an embedded command in a Meridian slot with periodic firing times. -/
  | schedAdd (a : Args)
  /-- `SCHED_CANCEL` (R356). Frees a SCHED_ADD slot at once. -/
  | schedCancel (a : Args)
  /-- `SCHED_GET` (R357). Returns the Meridian summary or one slot. -/
  | schedGet (a : Args)
  /-- `FIRN_ARM` (R372). Arms Firn with its sources, ring sizes and triggers, clearing the ring. -/
  | firnArm (a : Args)
  /-- `FIRN_TRIGGER` (R367). Triggers an armed Firn recording from the host. -/
  | firnTrigger (a : Args)
  /-- `FIRN_DISARM` (R372). Returns Firn to Off and releases its region. -/
  | firnDisarm (a : Args)
  /-- `FIRN_STREAM` (R374). Streams the frozen recording as a container to a stream-out ring. -/
  | firnStream (a : Args)
  /-- `FIRN_LOAD` (R375). Loads a container from a stream-in ring and verifies it. -/
  | firnLoad (a : Args)
  /-- `FIRN_REPLAY` (R376). Replays a loaded recording from a checkpoint through the lane fabric. -/
  | firnReplay (a : Args)
  /-- `FIRN_GET` (R379). Returns the Firn state, trigger and replay counters. -/
  | firnGet (a : Args)
  /-- `POLARIS_SET` (R382). Designates safety sources and sets alert latching and self-test period. -/
  | polarisSet (a : Args)
  /-- `POLARIS_GET` (R403). Returns the Polaris state, configuration CRC and counters. -/
  | polarisGet (a : Args)
  /-- `ALERT_CLEAR` (R385). Deasserts ALERT_N when no alert is open, or always in the safe state. -/
  | alertClear (a : Args)
  /-- `SAFE_RELEASE` (R390). Leaves the safe state or clears a refusal when the finding allows. -/
  | safeRelease (a : Args)
  /-- `SELFTEST_RUN` (R397). Runs the Polaris self-test, optionally including the safe-state path. -/
  | selftestRun (a : Args)
  /-- `PANEL_SET` (R484). Sets panel wake inputs, debounce, polarity, encoder division and IRQ options. -/
  | panelSet (a : Args)
  /-- `PANEL_GET` (R484). Returns the debounced panel state and counters. -/
  | panelGet (a : Args)
  /-- `ETH_SET` (R463). Sets the SGMII station address, IP configuration, VLAN and PHY latencies. -/
  | ethSet (a : Args)
  /-- `UDP_STREAM_SET` (R465). Configures or turns off one UDP stream. -/
  | udpStreamSet (a : Args)
  /-- `ETH_GET` (R471). Returns SGMII link state and counters. -/
  | ethGet (a : Args)
  /-- `PCIE_GET` (R471). Returns PCIe link state and counters. -/
  | pcieGet (a : Args)
  /-- `FW_BEGIN` (R425). Starts a firmware update by erasing the inactive slot. -/
  | fwBegin (a : Args)
  /-- `FW_WRITE` (R425). Programs firmware data at the next offset of the update. -/
  | fwWrite (a : Args)
  /-- `FW_FINISH` (R425). Verifies the written image and optionally writes its marker. -/
  | fwFinish (a : Args)
  /-- `FW_STATUS` (R436). Returns firmware slots, update state and builds. -/
  | fwStatus (a : Args)
  /-- `DEV_RESET` (R436). Completes and resets the device at the next tick boundary. -/
  | devReset (a : Args)
  /-- `G1_IDENTIFY` (R499). Generation-1 code 0x01 runs IDENTIFY on the legacy registers. -/
  | g1Identify
  /-- `G1_GET_STATUS` (R499). Generation-1 code 0x02 runs GET_STATUS. -/
  | g1GetStatus
  /-- `G1_GET_CAPS` (R499). Generation-1 code 0x03 runs GET_CAPS with L_ARG as payload. -/
  | g1GetCaps
  /-- `FM_TUNE` (R499). Generation-1 code tunes lane 0 or 1 to FM through a fixed Onarix sequence. -/
  | fmTune
  /-- `AM_TUNE` (R499). Generation-1 code tunes lane 0 or 1 to AM. -/
  | amTune
  /-- `DAB_TUNE` (R499). Generation-1 code tunes lane 0 or 1 to DAB. -/
  | dabTune
  /-- `DRM_TUNE` (R499). Generation-1 code tunes lane 0 or 1 to DRM A–D or E. -/
  | drmTune
  /-- `RX_STOP` (R499). Generation-1 code stops the selected lane. -/
  | rxStop
  /-- `FM_CONFIG` (R499). Generation-1 code runs FM_SET with L_ARG as payload. -/
  | fmConfig
  /-- `AM_CONFIG` (R499). Generation-1 code runs AM_SET. -/
  | amConfig
  /-- `SIGNAL_READ` (R499). Generation-1 code runs QUALITY_GET or OFDM_QUALITY_GET. -/
  | signalRead
  /-- `RDS_READ` (R499). Generation-1 code runs RDS_GET. -/
  | rdsRead
  /-- `ENSEMBLE_READ` (R499). Generation-1 code runs ENSEMBLE_GET. -/
  | ensembleRead
  /-- `SERVICE_LIST_READ` (R499). Generation-1 code runs SERVICE_LIST_GET. -/
  | serviceListRead
  /-- `SERVICE_PLAY` (R499). Generation-1 code runs SERVICE_START. -/
  | servicePlay
  /-- `SERVICE_HALT` (R499). Generation-1 code runs SERVICE_STOP. -/
  | serviceHalt
  /-- `G1_UNDEFINED_CODE` (R499). An L_CMD code not in the mapping sets ERR with L_ERR 0x10. -/
  | g1UndefinedCode
  /-- `GO` (R61). Writing 1 to GO submits the packet in MBX_CMD and sets CMD_BUSY. -/
  | go (link : Link)
  /-- `MAILBOX_COPY` (R61). The device copies a submitted mailbox packet once fewer than 32 mailbox commands count, clearing CMD_BUSY. -/
  | mailboxCopy
  /-- `CPL_POP` (R59). Writing 1 to CPL_POP discards the shown mailbox entry and shows the next. -/
  | cplPop (link : Link)
  /-- `OVERFLOW_CLEAR` (R59). Writing 1 to OVERFLOW clears the mailbox event overflow flag. -/
  | overflowClear (link : Link)
  /-- `OWNER` (R59). A write to OWNER claims or releases the mailbox for a link, or is ignored. -/
  | owner (link : Link) (value : BitVec 2)
  /-- `VLOG_CLEAR` (R64). Writing 1 to VLOG_CLEAR sets VLOG_FILL to 0, keeping entries and positions. -/
  | vlogClear (link : Link)
  /-- `PAGE_SEL` (R442). A write to PAGE_SEL selects the I2C register page at the end of the transfer. -/
  | pageSel (value : Byte)
  /-- `LEG_EN` (R70). A change of LEG_EN stops full lanes 0 and 1 and switches them between legacy and Onarix control. -/
  | legEn (link : Link) (value : Bool)
  /-- `CTRL_FAIL_CLEAR` (R453). Writing 1 to CTRL_FAIL clears it and resumes controller-write notification. -/
  | ctrlFailClear (link : Link)
  /-- `DOORBELL_WRITE` (R51). A write to a ring doorbell reports the host's count, or is a violation and ignored. `stores` are the bytes of host memory that the host wrote before it rang the doorbell. -/
  | doorbellWrite (offset : BitVec 16) (value : BitVec 32) (stores : List (Nat × BitVec 8))
  /-- `REGISTER_WRITE` (R60). A write to a register without a row of its own stores writable fields or is a violation. Over I²C the bytes are data bytes of the transfer in progress and page and offset come from the target (R440); over PCIe they are those of BAR0. -/
  | registerWrite (link : Link) (page : Byte) (offset : Byte) (data : Bytes)
  /-- `BAR0_INVALID_ACCESS` (R456). A BAR0 access to an unmapped offset or of a disallowed size is an Unsupported Request and a violation. -/
  | bar0InvalidAccess (write : Bool) (offset : BitVec 16) (size : Nat)
  /-- `I2C_START` (R447). A START condition moves the I2C target to address reception. -/
  | i2cStart
  /-- `I2C_ADDRESS` (R447). An address byte is matched and acknowledged, or ignored until STOP. -/
  | i2cAddress (b : Byte)
  /-- `I2C_STOP` (R441). A STOP applies pending page and multi-byte writes and returns the target to Idle. -/
  | i2cStop
  /-- `I2C_REPEATED_START` (R441). A repeated START applies pending writes and returns the target to address reception. -/
  | i2cRepeatedStart
  /-- `I2C_CONTROLLER_NACK` (R447). A controller NACK on a read byte releases SDA and ends the read. -/
  | i2cControllerNack
  /-- `I2C_WAKE_ADDRESS_MATCH` (R445). In Permafrost an address match is acknowledged, SCL held low and bring-up started. `tj` is the sensor in 0.1 °C that R428 polls. -/
  | i2cWakeAddressMatch (b : Byte) (tj : Int)
  /-- `EV_BUS_STUCK` (R447). After 30 ms of SDA driven low with no SCL edge the target releases SDA and resets. -/
  | evBusStuck (t : Sid)
  /-- `IN_BAND_REQUEST` (R450). After 20 µs of idle bus the device holds SDA low for IBR_HOLD to request attention. -/
  | inBandRequest
  /-- `IBR_COLLISION` (R451). An SCL falling edge during a request makes the device release SDA and count a collision. -/
  | ibrCollision
  /-- `CONTROLLER_WRITE` (R452). The device writes a notification to CTRL_ADDR as an I2C controller, retrying on NACK or lost arbitration. -/
  | controllerWrite (r : CtrlResult)
  /-- `TICK` (R21). At each tick boundary the command interpreter dispatches held commands and takes commands from ready rings. -/
  | tick (m : TickIn)
  /-- `COMPLETION_WRITE` (R23). An owning island reports an outcome and the completion is written to its ring. `internal` is set where the island found an internal inconsistency before the command took effect (R487). -/
  | completionWrite (o : Origin) (tag : BitVec 10) (internal : Bool) (t : Sid)
  /-- `COMPLETION_RING_SPACE` (R54). A held completion is written once the host frees completion ring space, resuming dispatch. -/
  | completionRingSpace (ring : Nat)
  /-- `EVENT_WINDOW_CLOSE` (R24). A coalescing window closes and its merged event is posted. -/
  | eventWindowClose
  /-- `URGENT_EVENT_POST` (R25). EV_ALERT, EV_FAULT or EV_BROWNOUT_WARN is posted within 50 µs without coalescing. -/
  | urgentEventPost
  /-- `MSIX_INTERRUPT` (R55). A ring vector is raised after its DEV_INDEX update when MOD_COUNT or MOD_TIME is reached. -/
  | msixInterrupt (ring : Nat)
  /-- `MOD_TIME_EXPIRY` (R55). MOD_TIME elapses since the first uncovered entry and the ring vector is raised. -/
  | modTimeExpiry (ring : Nat) (t : Sid)
  /-- `MAILBOX_VECTOR` (R461). The mailbox queue becomes non-empty or takes an urgent event and MBX_VECTOR is raised. -/
  | mailboxVector
  /-- `IRQ_N_UPDATE` (R483). IRQ_N asserts or releases as the mailbox or ring conditions change. -/
  | irqNUpdate
  /-- `STREAM_DESCRIPTOR_USE` (R58). The device fills or consumes a posted stream buffer, or halts the ring if it fails the window check. Of a stream-in ring the sink takes `taken` bytes; of a stream-out ring the buffer under way is returned. -/
  | streamDescriptorUse (ring : Nat) (taken : Nat)
  /-- `DMA_ERROR` (R460). A device read ending in timeout, UR or CA stops the ring and posts EV_HOSTLINK cause 0x03. -/
  | dmaError (ring : Nat) (t : Sid)
  /-- `PCIE_ISLAND_RESET` (R462). FLR, hot reset, PERST or link down discards rings and windows and cancels waiting commands. `linkDown` is false for a Function Level Reset, which leaves the link up. -/
  | pcieIslandReset (linkDown : Bool) (t : Sid)
  /-- `PCIE_LINK_UP` (R472). The PCIe link comes up and EV_HOSTLINK cause 0x01 is posted. -/
  | pcieLinkUp (speed : Byte) (width : Byte) (t : Sid)
  /-- `PCIE_D3HOT` (R462). The function enters or leaves D3hot, stopping or resuming DMA and messages. -/
  | pcieD3hot (enter : Bool)
  /-- `SGMII_LINK_CHANGE` (R463). The SGMII link goes up or down, or signals a wrong speed. -/
  | sgmiiLinkChange (up : Bool) (speedBad : Bool) (t : Sid)
  /-- `PTP_MESSAGE` (R464). A PTP event or general message is received and timestamped, feeding the PTP clock. -/
  | ptpMessage (m : PtpMsg) (t : Sid)
  /-- `PTP_BMCA_ROLE_CHANGE` (R342). The best master clock algorithm makes the port master or slave. -/
  | ptpBmcaRoleChange (master : Bool) (portState : Byte) (gm : BitVec 64) (t : Sid)
  /-- `UDP_DATAGRAM` (R466). A stream datagram or IP fragment is received for an audio-in or SFN-in stream. -/
  | udpDatagram (d : Datagram) (t : Sid)
  /-- `REASSEMBLY_TIMEOUT` (R470). An incomplete IP datagram is discarded 20 ms after its first fragment. -/
  | reassemblyTimeout (stream : Nat) (ident : Nat) (t : Sid)
  /-- `AUDIO_IN_STREAM_STOP` (R468). After 64 ticks with no datagram an audio-in stream stops and posts EV_HOSTLINK cause 0x13. -/
  | audioInStreamStop (stream : Nat)
  /-- `AUDIO_OUT_DATAGRAM` (R467). An audio-out stream sends a datagram of S_FRAMES samples. -/
  | audioOutDatagram (stream : Nat) (t : Sid)
  /-- `SFN_FRAME_PACKET_SEND` (R326). An SFN head sends a frame packet in two fragments ahead of emission. -/
  | sfnFramePacketSend (frame : Nat) (t : Sid)
  /-- `POWER_ON` (R408). VIN above 2.65 V for 10 ms releases the power-on reset and starts bring-up. `vioHigh` is the VIO level detected (R504). -/
  | powerOn (mv : Nat) (vioHigh : Bool)
  /-- `RESET_N` (R417). RESET_N low for 1 µs or more resets the device. -/
  | resetN (ns : Nat) (tj : Int)
  /-- `VIN_RESET` (R419). VIN falling below 2.35 V resets the device. -/
  | vinReset (mv : Nat) (ns : Nat)
  /-- `BRING_UP` (R414). From reset release the device runs the bring-up sequence to Active or a fault. `crystal` says whether a crystal is detected. -/
  | bringUp (straps : Straps) (crystal : Bool)
  /-- `BRINGUP_STEP_COMPLETE` (R414). A bring-up step completes after its wait and the next step starts. `ok` says whether the check that the step makes passed; `tones` are the comb tones that the calibration of step 9 measures, per input. -/
  | bringupStepComplete (ok : Bool) (tones : List (List ToneLevel))
  /-- `EV_BROWNOUT_WARN` (R420). VIN falling through 2.55 V raises the brown-out warning, muting Lodestar, suspending writes and leaving Avalanche. -/
  | evBrownoutWarn (mv : Nat) (ns : Nat) (t : Sid)
  /-- `BROWNOUT_RECOVERY` (R422). VIN above 2.65 V for 1 ms ends the warning and resumes writes, Lodestar and Avalanche. -/
  | brownoutRecovery (mv : Nat) (t : Sid)
  /-- `FROST_ENTRY_COMPLETE` (R411). Entry to Frost completes, pausing lanes and powering down units. -/
  | frostEntryComplete (t : Sid)
  /-- `FROST_EXIT` (R408). A request, wake source or due release returns the device from Frost to Active. -/
  | frostExit (t : Sid)
  /-- `PERMAFROST_ENTRY` (R408). The device enters Permafrost after its completion is written. -/
  | permafrostEntry
  /-- `WAKE_N` (R477). WAKE_N low for 1 ms wakes the device or posts EV_PANEL kind 0x4. -/
  | wakeN (us : Nat) (tj : Int) (t : Sid)
  /-- `WAKE_TIMER_EXPIRY` (R413). The wake timer expires after WAKE_S seconds and wakes the device. -/
  | wakeTimerExpiry
  /-- `AVALANCHE_ENTRY_COMPLETE` (R409). The decoder cluster reaches 1.2 GHz after CORE reaches 0.80 V, completing entry to Avalanche. -/
  | avalancheEntryComplete (t : Sid)
  /-- `AVALANCHE_EXIT_COMPLETE` (R409). Exit from Avalanche completes with the clock lowered and CORE back at 0.75 V. -/
  | avalancheExitComplete (t : Sid)
  /-- `BOOST_UNIT_BEGIN` (R435). A new 0.1 h boost unit begins and its OTP bit is programmed. -/
  | boostUnitBegin
  /-- `THERMAL_GOVERNOR_CHECK` (R431). The thermal governor sheds or restores one ladder action at its threshold or check interval. -/
  | thermalGovernorCheck
  /-- `POWER_LIMIT_CHECK` (R432). The power limit sheds or restores one ladder action by mean input current. -/
  | powerLimitCheck
  /-- `THERMAL_SHUTDOWN` (R428). A sensor at 135 °C forces PA_EN low, asserts FAULT_N and enters Permafrost. -/
  | thermalShutdown (tj : Int)
  /-- `FW_ERASE_COMPLETE` (R425). The last block of the inactive slot is erased and FW_BEGIN completes. -/
  | fwEraseComplete
  /-- `FW_PROGRAM_COMPLETE` (R425). Pages of a FW_WRITE are programmed and the command completes. -/
  | fwProgramComplete
  /-- `FW_VERIFY_COMPLETE` (R425). The slot read-back and header check finish, completing FW_FINISH or starting the marker write. -/
  | fwVerifyComplete (headerOk : Bool) (build : BitVec 32)
  /-- `FW_MARKER_COMPLETE` (R424). The new marker reads back valid and FW_FINISH completes. -/
  | fwMarkerComplete (t : Sid)
  /-- `REG_COMMIT_COMPLETE` (R319). The regulatory marker reads back correctly and the commit completes. -/
  | regCommitComplete (ok : Bool) (t : Sid)
  /-- `REG_TABLE_TAKES_EFFECT` (R320). At the tick after a commit the new table takes effect and Lodestar re-checks its entry. -/
  | regTableTakesEffect
  /-- `REFERENCE_LOSS` (R83). No reference edge for 8 periods puts all loops in holdover with EV_REF_LOST cause 0x1. -/
  | referenceLoss (t : Sid)
  /-- `REFERENCE_GLITCH` (R83). A short reference period is masked and counted in GLITCH_COUNT. -/
  | referenceGlitch (t : Sid)
  /-- `FREQUENCY_JUMP` (R83). A 1 ms reference frequency departing 20 ppm from its average puts loops in holdover with cause 0x2. `dev` is the deviation measured over that millisecond, in 10⁻¹². -/
  | frequencyJump (dev : Int) (t : Sid)
  /-- `REFERENCE_RETURN` (R85). Reference edges return in holdover and qualification starts. -/
  | referenceReturn
  /-- `QUALIFICATION_COMPLETE` (R85). The qualification period elapses and frequency acquisition starts. -/
  | qualificationComplete
  /-- `FREQUENCY_ACQUISITION_COMPLETE` (R85). Every powered loop's error falls below 0.005 ppm and phase build-out starts. -/
  | frequencyAcquisitionComplete (t : Sid)
  /-- `BUILD_OUT_LOCK` (R86). Build-out is loaded and every loop declares lock, posting EV_REF_BACK. `phases` are the phases measured by loops 0–4 over 256 cycles, before reduction to one period, in units of 10 ps. -/
  | buildOutLock (phases : List Int) (t : Sid)
  /-- `LOOP_LOCK` (R77). A loop's phase error stays within the lock window for N cycles and it declares lock. -/
  | loopLock (loop : Nat) (t : Sid)
  /-- `LOOP_UNLOCK` (R78). A locked loop's phase error exceeds four windows for 64 cycles and it declares unlock. -/
  | loopUnlock (loop : Nat) (t : Sid)
  /-- `AUDIO_CHANNEL_POWER_DOWN` (R76). An audio channel is powered down 64 ticks after its last user releases it. -/
  | audioChannelPowerDown (channel : Nat)
  /-- `MCLK_GATE` (R91). An MCLK output that cannot hold its bounds is gated low, and restarts at channel lock. -/
  | mclkGate (output : Nat) (gate : Bool) (t : Sid)
  /-- `PPS_OUT_PULSE` (R94). PPS_OUT rises at a Sidereal second and falls after PPS_WIDTH, or is skipped. -/
  | ppsOutPulse (rise : Bool) (t : Sid)
  /-- `AGC_OVERLOAD_WINDOW` (R101). A 256-sample window with enough overloaded samples lowers the gain. `xs` are the codes of the window that starts at converter sample `index`. -/
  | agcOverloadWindow (ant : Nat) (xs : List Int) (index : Nat)
  /-- `OVERLOAD_PERSISTS` (R104). Overload at minimum gain for 32 ticks posts EV_FRONT_END cause 0x06. -/
  | overloadPersists (ant : Nat)
  /-- `BIAS_FAULT` (R105). A bias supervision condition persists for its detection time and the switch opens or reports. -/
  | biasFault (ant : Nat) (cause : Nat) (current : Nat)
  /-- `BIAS_RETRY` (R105). The bias switch closes again after RETRY_TICKS. -/
  | biasRetry (ant : Nat)
  /-- `BIAS_RETRY_RESTORE` (R105). After 3200 fault-free ticks the retry count is restored. -/
  | biasRetryRestore (ant : Nat)
  /-- `COEX_BLANK_CHANGE` (R137). COEX_BLANK asserts or deasserts and samples are marked accordingly. -/
  | coexBlankChange (level : Bool) (t : Sid)
  /-- `COEX_BLANK_TIMEOUT` (R139). COEX_BLANK asserted for 32 ticks is treated as deasserted and EV_FRONT_END cause 0x07 posted. -/
  | coexBlankTimeout
  /-- `FOREGROUND_CAL_COMPLETE` (R127). A foreground calibration ends, resetting zones and rejoining branches. `tones` are the comb tones as measured at every gain index, `temp` the die temperature in 0.1 °C. -/
  | foregroundCalComplete (ant : Nat) (tones : List ToneLevel) (temp : Int) (t : Sid)
  /-- `SPOT_CAL_START` (R128). A background spot calibration starts by period, temperature change or request. -/
  | spotCalStart (ant : Nat) (temp : Int)
  /-- `SPOT_CAL_COMPLETE` (R128). A spot calibration ends after 32 ticks and its drift is applied to C_cal. `tones` are the tones as measured at the present gain. -/
  | spotCalComplete (ant : Nat) (tones : List ToneLevel) (temp : Int) (t : Sid)
  /-- `AURORA_SCAN` (R113). Every SCAN_TICKS each sample island computes a power spectrum and groups strong signals. `spectra` holds, per input, the 16 blocks averaged: bins with their power, 2³² being full scale. -/
  | auroraScan (spectra : List (List (List (Nat × Nat))))
  /-- `AURORA_EVALUATION` (R117). Aurora evaluates candidate plans after a trigger and adopts, holds or ignores the best. -/
  | auroraEvaluation
  /-- `SLEW_STEP` (R120). A slew step changes fs at a 4096-sample index and updates NCO and resampler words. -/
  | slewStep (index : Nat) (t : Sid)
  /-- `SLEW_COMPLETE` (R120). A hitless slew reaches its target rate and EV_PLAN kind 0x2 is posted. -/
  | slewComplete (t : Sid)
  /-- `RELOCK_START` (R123). A re-lock plan stops zones, lanes and flakes at a tick boundary and re-locks the SCLK PLL. -/
  | relockStart (t : Sid)
  /-- `RELOCK_COMPLETE` (R123). The SCLK PLL is locked at the new plan and zones and lanes make synchronising resets. -/
  | relockComplete (t : Sid)
  /-- `ZONE_SETTLED` (R158). A zone reaches its settle count and enters Running. -/
  | zoneSettled (zone : Nat) (t : Sid)
  /-- `LANE_POINT_OF_EFFECT` (R164). A lane command takes effect at its point of effect in the sample stream. -/
  | lanePointOfEffect (target : BitVec 16) (t : Sid)
  /-- `LANE_SETTLED` (R173). A settling lane reaches output sample S, delivers with SYNC and enters Running. -/
  | laneSettled (target : BitVec 16) (t : Sid)
  /-- `LANE_BLOCK` (R161). A lane block of BLK_LEN samples is formed and delivered. `xs` holds, per input, the converter samples that have not been fed before, the last one sampled at `t`. -/
  | laneBlock (target : BitVec 16) (xs : List (List Int)) (t : Sid)
  /-- `LANE_FIFO_FULL` (R13). A full FIFO towards a consumer discards samples and posts EV_LANE cause 0x03. -/
  | laneFifoFull (target : BitVec 16) (lost : Nat)
  /-- `ANALOGUE_WINDOW_END` (R184). A 32-tick measurement window ends for AM, FM, flake and monitor measures. -/
  | analogueWindowEnd (source : BitVec 16) (m : Measures) (t : Sid)
  /-- `AM_CARRIER_LOCK` (R178). The AM carrier PLL declares lock or unlock and the detector cross-fades. `errors` are the phase errors at the lane samples since the last of these rows, in 0.01°. -/
  | amCarrierLock (lane : Nat) (errors : List Int)
  /-- `PILOT_LOCK` (R182). The FM pilot PLL declares lock, or the pilot is lost for 20 ms, and stereo decoding cross-fades. `errors` are the phase errors in 0.01° and pilot deviations in Hz at the multiplex samples since the last of these rows. -/
  | pilotLock (lane : Nat) (errors : List (Int × Nat))
  /-- `RDS_SYNC_ACQUIRED` (R187). RDS block synchronisation is acquired on a lane or flake. `b0` and `b1` are the two blocks, 26 bits apart. -/
  | rdsSyncAcquired (source : BitVec 16) (b0 b1 : RdsBlock)
  /-- `RDS_SYNC_LOST` (R187). 20 uncorrectable blocks lose RDS synchronisation. -/
  | rdsSyncLost (source : BitVec 16)
  /-- `RDS_GROUP` (R189). An RDS group is completed into a group record and its service data judged. `blocks` are those received since the last of these rows. -/
  | rdsGroup (source : BitVec 16) (blocks : List RdsBlock) (t : Sid)
  /-- `CENSUS` (R199). Every CENSUS_TICKS a tap census finds occupied carriers and assigns census flakes. `spectra` holds the 8 blocks averaged, of samples without `BLANK`: bins of 7.125 kHz, 2048 at the tap centre, with their power, 2³² being full scale. -/
  | census (tap : Nat) (spectra : List (List (Nat × Nat))) (t : Sid)
  /-- `PROBE_TIMEOUT` (R201). A census flake without sync after PROBE_TICKS is freed and its carrier marked as no RDS. -/
  | probeTimeout (flake : Nat)
  /-- `AF_REQUEST` (R202). A candidate carrier is requested and served by a flake or reported unmonitored. -/
  | afRequest (lane : Nat) (khz : Nat)
  /-- `AF_FADE_START` (R208). Once the spare runs with pilot lock, the AF cross-fade starts at the next tick. -/
  | afFadeStart (lane : Nat)
  /-- `AF_SWITCH_COMPLETE` (R208). At the tick after the AF fade the roles exchange and EV_AF_SWITCH is posted. -/
  | afSwitchComplete (lane : Nat)
  /-- `AF_SWITCH_IN_PLACE` (R209). Without a spare the playing lane mutes, retunes and ramps up. -/
  | afSwitchInPlace (lane : Nat) (t : Sid)
  /-- `AF_SWITCH_ABANDONED` (R210). A host command or lane state change abandons an AF switch. -/
  | afSwitchAbandoned (lane : Nat)
  /-- `AF_GOTO_TIMEOUT` (R211). An AF_MODE 0x3 target not verified within 6400 ticks posts an abandoned EV_AF_SWITCH. -/
  | afGotoTimeout (lane : Nat)
  /-- `TAP_RESET` (R194). A tap resets with its zone, returning its flakes to Acquiring or freeing them off-span. -/
  | tapReset (tap : Nat)
  /-- `OFDM_NULL_FOUND` (R220). A DAB null symbol or DRM mode is found and the lane enters Coarse. `offset` is the integer carrier offset. -/
  | ofdmNullFound (lane : Nat) (mode : BitVec 3) (offset : Int)
  /-- `OFDM_CONFIRMATION` (R223). The next frame's reference is found at its predicted position and the lane is Synced. `err` is the distance of the reference from its predicted position in lane samples. -/
  | ofdmConfirmation (lane : Nat) (err : Int) (offset : Int) (t : Sid)
  /-- `OFDM_CONFIRMATION_FAIL` (R223). No confirmation in the next frame returns the lane to Searching. -/
  | ofdmConfirmationFail (lane : Nat)
  /-- `ACQUISITION_TIMEOUT` (R222). A lane in Searching for ACQ_TICKS posts EV_ENSEMBLE cause 0x05. -/
  | acquisitionTimeout (lane : Nat)
  /-- `FIB_DECODED` (R227). A FIB is decoded and its FIGs interpreted if its CRC is valid. -/
  | fibDecoded (lane : Nat) (fib : FibInfo) (frame : List BranchFrame) (t : Sid)
  /-- `FAC_SDC_DECODED` (R229). A DRM FAC or SDC block is decoded and interpreted if its CRC is valid. -/
  | facSdcDecoded (lane : Nat) (info : SdcInfo) (frame : List BranchFrame) (t : Sid)
  /-- `RECONFIGURATION` (R228). A signalled reconfiguration takes effect at its CIF or superframe. -/
  | reconfiguration (lane : Nat) (t : Sid)
  /-- `ENSEMBLE_LOST` (R223). Missing references or FAC CRC failures return the lane to Searching. `missed` is the number of consecutive frames without the reference. -/
  | ensembleLost (lane : Nat) (missed : Nat)
  /-- `HOLDOVER_RESUME` (R223). After a pause the reference is found or not within 2 frames of resuming. `err` is the distance of the reference from its prediction in lane samples, none when it was not found within 2 frames. -/
  | holdoverResume (lane : Nat) (err : Option Int)
  /-- `SERVICE_TIMEOUT` (R237). A Waiting service not present within SVC_TICKS returns to Idle. -/
  | serviceTimeout (lane : Nat) (prog : Nat)
  /-- `TRANSPORT_UNIT_DECODED` (R232). A transport unit is decoded and its PCM enters the programme path. `prog` is 0xFF for a unit that no service plays, `pcm` the samples at 48 kHz, and `te` the time T_e. -/
  | transportUnitDecoded (lane : Nat) (prog : Nat) (errored : Bool) (pcm : List (Int × Int)) (unit : Option MscUnit) (te : Sid)
  /-- `DYNAMIC_LABEL` (R238). A complete dynamic label is delivered as a record. -/
  | dynamicLabel (lane : Nat) (prog : Nat) (charset : Byte) (label : Bytes) (tags : Bytes) (t : Sid)
  /-- `MOT_OBJECT` (R239). A complete MOT slideshow object is delivered as a record. `first` is the time of its first data group. -/
  | motObject (lane : Nat) (prog : Nat) (header : Bytes) (body : Bytes) (transportId : BitVec 16) (first : Sid) (t : Sid)
  /-- `MOT_TIMEOUT` (R239). An MOT object not complete within 30 s is discarded with an ERR record. `first` is the time of its first data group. -/
  | motTimeout (lane : Nat) (prog : Nat) (transportId : BitVec 16) (first : Sid) (t : Sid)
  /-- `DRM_TEXT_MESSAGE` (R240). A complete DRM text message is delivered as a record. -/
  | drmTextMessage (lane : Nat) (prog : Nat) (charset : Byte) (label : Bytes) (t : Sid)
  /-- `DAB_ALERT_END` (R242). A DAB alert end is reported by cleared flags or by 2 s without alarm FIG 0/19. -/
  | dabAlertEnd (lane : Nat) (subch : BitVec 8) (t : Sid)
  /-- `OFDM_WINDOW_END` (R245). A measurement window of MEAS_FRAMES frames ends and its measures become available. -/
  | ofdmWindowEnd (lane : Nat) (m : OfdmMeasures) (services : List (Nat × ServiceMeasures)) (t : Sid)
  /-- `SPECTRUM_RECORD` (R248). Every S_TICKS a survey lane writes a spectrum record. `blocks` are the blocks of lane samples: bins in ascending frequency, 2³² being full scale. -/
  | spectrumRecord (lane : Nat) (blocks : List (List Nat)) (t : Sid)
  /-- `IMPULSE_RESPONSE_RECORD` (R249). A frame's impulse response is computed and written as a record. `t` is the start of the FFT window for DAB, the time of tap 0 for DRM. -/
  | impulseResponseRecord (lane : Nat) (taps : List Cx) (t : Sid)
  /-- `TII_AVERAGE_COMPLETE` (R251). After TII_FRAMES frames the TII table and arrival times are updated. `window` is the start of the phase reference window of the latest frame. -/
  | tiiAverageComplete (lane : Nat) (combs : List TiiComb) (window : Sid) (t : Sid)
  /-- `LINK_ENTRY_AGED` (R260). A broadcast entry not received within L_AGE is removed. -/
  | linkEntryAged (index : Nat)
  /-- `COARSE_RESULT` (R267). A coarse correlation window result is accepted or fails. -/
  | coarseResult (head : Nat) (member : Nat) (m : LagMeasure) (t : Sid)
  /-- `ALIGN_LOOP` (R269). At each loop boundary every Aligned or Holding member is measured and its lag updated. Head path, member index and fine measurement of each member measured; index 4 + i is candidate i of AF following on that path. -/
  | alignLoop (ms : List (Nat × Nat × LagMeasure))
  /-- `HOLDING_TIMEOUT` (R273). A member Holding for 3200 ticks returns to Searching. -/
  | holdingTimeout (head : Nat) (member : Nat)
  /-- `MEMBER_PCM_CHANGE` (R273). A member or head starts or stops delivering PCM and its alignment state changes. -/
  | memberPcmChange (path : Nat) (delivering : Bool)
  /-- `PAGE_RELEASED` (R273). A delay pool page is released and a NoMemory member resumes Searching. -/
  | pageReleased
  /-- `GROUP_FADE_END` (R278). A group fade ends and the new member becomes active. -/
  | groupFadeEnd (head : Nat) (t : Sid)
  /-- `FADE_GUARD_LOSS` (R279). Correlation lost for 4 ticks reverses or completes an aligned fade. `ticks` are the last ticks: R at lag 0 in 0.0001 and the rms of both signals in 0.01 dBFS, newest first. -/
  | fadeGuardLoss (head : Nat) (ticks : List (Int × Int × Int))
  /-- `FADE_HAPPENING` (R280). A member stops or is removed during a fade and the fade is resolved by Table 8-4. -/
  | fadeHappening (head : Nat)
  /-- `DELAY_CHANGE_START` (R264). A change of K starts by slew or jump. -/
  | delayChangeStart (path : Nat)
  /-- `DELAY_CHANGE_END` (R264). A change of K reaches its target. -/
  | delayChangeEnd (path : Nat) (t : Sid)
  /-- `EQ_SWAP_EFFECT` (R283). A pending bank swap reaches its point of effect and cross-fades to the new bank. -/
  | eqSwapEffect (path : Nat) (t : Sid)
  /-- `SAP_FRAME_START` (R302). A port frame start applies pending settings and checks the slip FIFO. `sdi` are the levels of SDI at the sampling edges from the frame start before up to and with this one. -/
  | sapFrameStart (port : Nat) (sdi : List Bool) (t : Sid)
  /-- `SAP_CLOCK_LOST` (R304). A supervision cause of clock loss mutes the port and posts EV_CLK_LOST. `edge` is the last BCLK edge, and `mhz` the frame rate measured over the last 1 ms. -/
  | sapClockLost (port : Nat) (cause : Nat) (edge : Sid) (mhz : Nat) (t : Sid)
  /-- `SAP_GLITCH` (R304). A short BCLK period drops the frame from capture and realigns. `period` is the BCLK period. -/
  | sapGlitch (port : Nat) (period : Sid)
  /-- `SAP_FRAMING_ERROR` (R304). A misplaced frame start drops the frame and realigns. `sdi` are the levels of SDI as in `SAP_FRAME_START`. -/
  | sapFramingError (port : Nat) (sdi : List Bool) (t : Sid)
  /-- `SAP_RATE_CHANGE` (R305). A 2 % rate departure in 2 windows posts EV_RATE_CHANGED and starts remeasuring. `first` and `second` are the rates measured over the last two windows of 1 ms. -/
  | sapRateChange (port : Nat) (first second : Nat) (t : Sid)
  /-- `SAP_RETARGET` (R305). The port retargets its resampler after remeasuring and cross-fades. `mhz` is the rate measured over 16 ms. -/
  | sapRetarget (port : Nat) (mhz : Nat) (t : Sid)
  /-- `SAP_RESUME` (R306). Two good frames end ClockLost or Waiting and the port resumes. `a` and `b` are the last two frames. -/
  | sapResume (port : Nat) (a b : FrameSeen) (t : Sid)
  /-- `SAP_WAITING_TIMEOUT` (R307). A port Waiting for 3200 ticks completes SAP_SET with ST_BAD_STATE. -/
  | sapWaitingTimeout (port : Nat)
  /-- `TX_PLL_LOCKED` (R314). TX PLL lock and calibration complete and Lodestar enters TX_READY or starts. -/
  | txPllLocked (t : Sid)
  /-- `TX_TUNE_TIMEOUT` (R314). 64 ticks without lock complete TX_TUNE with ST_SYNTH_TIMEOUT. -/
  | txTuneTimeout
  /-- `SYNTH_WINDOW_EXPIRY` (R315). A pending start's synthesiser window expires with ST_SYNTH_TIMEOUT. -/
  | synthWindowExpiry
  /-- `COEX_GNT_CHANGE` (R325). COEX_GNT asserts or withdraws, starting, muting or resuming transmission. -/
  | coexGntChange (level : Bool) (t : Sid)
  /-- `COEX_WAIT_EXPIRY` (R325). No grant within COEX_WAIT completes the start with ST_COEX_DENIED. -/
  | coexWaitExpiry
  /-- `TX_START_SEQUENCE` (R313). A pending start proceeds: PA_EN, zero-code lead, and ramp to level. -/
  | txStartSequence (t : Sid)
  /-- `TX_STOP_COMPLETE` (R313). An ordinary stop ramp ends and PA_EN is deasserted. -/
  | txStopComplete (t : Sid)
  /-- `FAST_MUTE` (R313). A 0.5 ms fast mute ramps to zero code and deasserts PA_EN. -/
  | fastMute (t : Sid)
  /-- `DUTY_LIMIT` (R322). The duty budget is spent during transmission and Lodestar fast-mutes with cause 0x06. -/
  | dutyLimit (t : Sid)
  /-- `CONTINUOUS_LIMIT` (R322). E_CONT_S of continuous transmission fast-mutes with cause 0x07. -/
  | continuousLimit (t : Sid)
  /-- `MONITOR_WINDOW` (R323). A monitor window ends and its checks classify breaches and faults. -/
  | monitorWindow (m : MonitorIn) (t : Sid)
  /-- `SFN_FRAME` (R327). A DAB frame is emitted on the grid, or missed with cause 0x0A. -/
  | sfnFrame (frame : Nat) (t : Sid)
  /-- `SFN_COAST_EXPIRY` (R327). Coasting Sidereal for SFN_COAST_S mutes the exciter with cause 0x0B. -/
  | sfnCoastExpiry (t : Sid)
  /-- `BREAKIN_TRIGGER` (R328). A break-in trigger starts or ends and the exciter fades to the ranked announcement. -/
  | breakinTrigger (rank : Nat) (start : Bool)
  /-- `PTT` (R481). A debounced PTT press or release asserts or ends the rank-2 trigger and posts EV_PANEL. -/
  | ptt (pressed : Bool) (t : Sid)
  /-- `KEY_CHANGE` (R474). A key changes debounced state, or a press is withheld as a phantom. -/
  | keyChange (key : Nat) (down : Bool) (t : Sid)
  /-- `PLUG_CHANGE` (R474). A plug input changes debounced state. -/
  | plugChange (plug : Nat) (high : Bool) (t : Sid)
  /-- `ENCODER_STEP` (R476). An encoder transition is decoded, counting detents or invalid steps. `step` is +1 or −1 for a valid transition, 0 for an invalid one. -/
  | encoderStep (encoder : Nat) (step : Int) (t : Sid)
  /-- `PPS_IN_EDGE` (R338). A PPS_IN edge is timestamped and yields an offset sample. -/
  | ppsInEdge (falling : Bool) (stamp : Sid)
  /-- `SOURCE_LOST` (R339). No accepted sample for LOSS_TICKS puts Sidereal in Coasting. -/
  | sourceLost
  /-- `SIDEREAL_STEP` (R347). A step is applied at a tick boundary, moving every consumer of Sidereal time. -/
  | siderealStep
  /-- `SLEW_WITHIN_THRESHOLD` (R346). An accepted offset slews within the threshold and EV_TIME cause 0x04 is posted. -/
  | slewWithinThreshold
  /-- `MERIDIAN_RELEASE` (R350). A scheduled command is released to its owning island at its release tick. -/
  | meridianRelease
  /-- `SCHED_FIRING` (R352). A SCHED_ADD firing is released or skipped with EV_SCHED. -/
  | schedFiring (slot : Nat)
  /-- `SAMPLE_TIMED_APPLY` (R350). An owning island applies a released sample-timed action at its first sample at or after WHEN. -/
  | sampleTimedApply (o : Origin) (tag : BitVec 10) (t : Sid)
  /-- `FIRN_CHUNK` (R361). A zone, lane or gap chunk is written into the data area. `bw` says that the memory controller denied the bandwidth for it (R27). -/
  | firnChunk (source : BitVec 16) (bw : Bool) (t : Sid)
  /-- `FIRN_CHECKPOINT` (R363). At ticks divisible by 32 Firn writes a checkpoint to the tape. -/
  | firnCheckpoint
  /-- `FIRN_TRIGGER_FIRED` (R367). An enabled trigger source fires and Firn enters Triggered. `cause` is that of Table 12-3. -/
  | firnTriggerFired (cause : Nat) (t : Sid)
  /-- `FIRN_FROZEN` (R368). The post-trigger share fills and Firn freezes. -/
  | firnFrozen (t : Sid)
  /-- `FIRN_STREAM_COMPLETE` (R374). The last container byte is written and FIRN_STREAM completes. -/
  | firnStreamComplete (t : Sid)
  /-- `FIRN_LOAD_COMPLETE` (R375). The container is fully received and verified, or fails a check. -/
  | firnLoadComplete (t : Sid)
  /-- `REPLAY_CHECKPOINT` (R378). At each replay checkpoint lane output CRCs are compared. -/
  | replayCheckpoint (t : Sid)
  /-- `REPLAY_END` (R378). The recording ends and FIRN_REPLAY completes with the mismatch count. -/
  | replayEnd (t : Sid)
  /-- `ALERT_PRIMARY_REPORT` (R383). A primary alert start or end report reaches Polaris. -/
  | alertPrimaryReport (source : BitVec 16) (start : Bool) (subch : BitVec 8) (t : Sid)
  /-- `ALERT_CHECK_REPORT` (R383). A check-path alert report reaches Polaris and confirms or mismatches. -/
  | alertCheckReport (source : BitVec 16) (start : Bool) (subch : BitVec 8) (t : Sid)
  /-- `ALERT_MISMATCH_TIMEOUT` (R383). One path's report without agreement within 160 ticks is finding 0x02. -/
  | alertMismatchTimeout (source : BitVec 16) (t : Sid)
  /-- `HEARTBEAT_CHECK` (R387). An island missing two heartbeat writes is a heartbeat finding. -/
  | heartbeatCheck (island : Nat) (written : Bool) (t : Sid)
  /-- `WATCHDOG_EXPIRY` (R387). The wake-island watchdog expires, halting the cores as finding 0x04. -/
  | watchdogExpiry (t : Sid)
  /-- `LOCKSTEP_MISMATCH` (R389). The lockstep cores disagree and are halted as finding 0x01. -/
  | lockstepMismatch (t : Sid)
  /-- `CONFIG_CRC_CHECK` (R387). The safety configuration CRC is recomputed and compared every 10 ms. -/
  | configCrcCheck (crc : BitVec 32) (t : Sid)
  /-- `ECC_ERROR` (R28). An ECC error is corrected and counted, or an uncorrectable error is reported to Polaris. -/
  | eccError (region : Nat) (correctable : Bool) (t : Sid)
  /-- `RAIL_OUT_OF_RANGE` (R387). A rail outside ±5 % for 100 µs is a dangerous finding. -/
  | railOutOfRange (rail : Nat) (t : Sid)
  /-- `BALL_READBACK_FAULT` (R387). A status output reads back wrong for 1 ms. -/
  | ballReadbackFault (ball : Nat) (readAsserted : Bool) (t : Sid)
  /-- `BREAKIN_DUE_CHECK` (R386). By 5 ms after the due time the break-in signalling must be decoded from TXMON. -/
  | breakinDueCheck (seen : Bool) (t : Sid)
  /-- `PERIODIC_SELFTEST` (R397). The self-test runs every ST_PERIOD_H, or at the next opportunity after a skip. -/
  | periodicSelftest (pass : Bool) (t : Sid)
  /-- `TAP_SETTLED` (R194). A Flurry tap reaches the end of its 40-sample settling after a reset, and its Paused flakes return to Acquiring. -/
  | tapSettled (tap : Nat) (t : Sid)
  /-- `MSIX_VECTOR_UNMASK` (R461). A host write that unmasks an MSI-X vector whose pending bit is set sends the held message. -/
  | msixVectorUnmask (vector : Nat)
  /-- `ARP_ICMP_REQUEST` (R463). An ARP request, IPv6 neighbour solicitation or ICMP echo request received on SGMII is answered by the MAC. -/
  | arpIcmpRequest (icmp : Bool)
  /-- `PTP_MESSAGE_SEND` (R464). At its message interval the PTP port sends a Sync or Announce message as master, or a delay request as slave, timestamping it as it leaves. -/
  | ptpMessageSend (m : PtpOut) (t : Sid)
  deriving DecidableEq, Repr

end Sys2Proof
end

