-- ==== Sys2Proof/Decode.lean ====
section
/-! DEFINITION. Decode.lean: the commands that a word of the opcode table spells. The table of this block gives no row any
bits: a command reaches the block as a packet, a register access, a bus event or an occurrence, never as one word. -/

namespace Sys2Proof

/-- The command that the low `nbits` bits of `w` spell by the table's bits: no row has bits, so no word spells one.
Log: 4 (DEDUCED). -/
def decodeTableWord (_nbits _w : Nat) : Option Instr := none

end Sys2Proof
end

