-- ==== Sys2Proof/Config.lean ====
section
/-! DEFINITION. Config.lean: what one implementation fixes and what the spec leaves open, as constants without a body.
Nothing in Lean can evaluate them: a theorem about the model holds for every value they could have.
Those that answer a new question at each use are applied to `State.free`, a plain counter that the step reads and advances, so that two uses of one constant are
independent of each other. -/

namespace Sys2Proof.Config

/-- Whether a RESET_N pulse of 100 ns to 1 µs resets the device (R417: "either ignored or a complete reset").
Log: 141 (DESIGN CHOICE). -/
opaque resetPulseTaken : Nat → Bool

/-- Whether a dip of VIN of 100 ns to 1 µs is detected (R419: "may or may not be detected").
Log: 141 (DESIGN CHOICE). -/
opaque dipDetected : Nat → Bool

/-- Whether the host has set MSI-X Enable in configuration space when the link comes up (the operation table has no row
for a configuration write).
Log: 18 (PRESUMED). -/
opaque msixEnabled : Nat → Bool

/-- Whether the supply rail that `BIAS_SET` selects (1: 5 V, 2: 12 V) stands at 80 % of nominal or more (Table 4-2): the board
may leave it unconnected.
Log: 51 (DESIGN CHOICE). -/
opaque railGood : Nat → Nat → Bool

/-- The base address that the host has given BAR0 in configuration space (Table 2-15: `VLOG_ADDR` of a PCIe target access is the
TLP address; the operation table has no row for a configuration write).
Log: 17 (DEDUCED). -/
opaque bar0 : Nat

/-- The unit serial number from OTP (Table 17-17 `SERIAL`).
Log: 161 (DESIGN CHOICE). -/
opaque serial : BitVec 64

/-- A value that the spec does not state, of the width that the use takes.
Log: 8 (DESIGN CHOICE). -/
opaque freeNat : Nat → Nat

/-- Coefficient of a filter design by its place from one end: the spec gives the taps, the widths and the responses of the
half-band designs (0–4), of the resampler (5) and of the audio filters, but no coefficient (Tables 5-1, 5-2, R177, R180).
Log: 201 (DESIGN CHOICE). -/
opaque coef : Nat → Nat → Int

/-- FIB `i` of a frame of the exciter, by what it is built from: the `TX_DAB_SET` payload, the size of the subchannel, what an
announcement signals, and the CIF count (R311: the encoder is deterministic; the layout of the FIGs is that of the DAB standard).
Log: 201 (DESIGN CHOICE). -/
opaque fib : Bytes → Nat → Bytes

/-- The MPEG-1 Layer II frame of 1152 stereo samples at a bit rate (R311: the encoder is deterministic).
Log: 201 (DESIGN CHOICE). -/
opaque layer2 : Nat → List (Int × Int) → Bytes

/-- The subchannel that the exciter's one service uses (R311, R469).
Log: 201 (DESIGN CHOICE). -/
opaque txSubch : BitVec 6

/-- Factory trim of a comb tone by its frequency in kHz, in 0.01 dB, from OTP (R126).
Log: 201 (DESIGN CHOICE). -/
opaque combTrim : Nat → Int

/-- The CRC-32 of the safety configuration (`CFG_CRC`, Table 13-9): what it runs over is named (Table 13-3, 0x05), but not
the order or the layout, so its value is open, one value for one configuration.
Log: 127 (DESIGN CHOICE). -/
opaque safetyCrc : Bytes → BitVec 32

end Sys2Proof.Config
end

