-- ==== Sys2Proof/Machine/State.lean ====
section
/-! DEFINITION. Machine/State.lean: everything the spec gives the AGU7480, as plain data, and its value after reset.

Conventions of the whole file. A setting that a command writes whole is held as the payload bytes in force, laid out
as the table that the docstring names; the accessors of Machine/Operands.lean read its fields. A table of sparse items
is a list of (index, value) pairs. Sidereal times are counts of 1/65536 ns (R334, R336). Deadlines are counts of tick
boundaries passed (R20, R348). -/

namespace Sys2Proof.Machine

/-- Why a step stops with a fault. No command of this block does: the one constructor is raised by nobody (safe).
Log: 7 (DEDUCED). -/
inductive Fault where
  /-- Raised by nobody; safe. It stands so that the type has a value. -/
  | none
  deriving DecidableEq, Repr

/-- Why a step is refused. -/
inductive Refusal where
  /-- Raised by the arm of a command that has no meaning yet; safe. -/
  | notModelled (mnemonic : String)
  deriving DecidableEq, Repr

/-- The part of the Agurea family (Table 0-1).
Log: 1 (DESIGN CHOICE). -/
inductive Part where
  | agu7480
  | agu7440
  | agu7410
  deriving DecidableEq, Repr

/-! ## Commands in flight (chapter 02) -/

/-- A command packet (Table 2-1): its `OPCODE` and the rest of its header and payload. -/
structure Cmd where
  op : Nat
  a  : Args
  deriving DecidableEq, Repr

/-- The life of a command between its taking and its completion (Table 2-6). -/
inductive Phase where
  | held
  | waiting
  | heldAfter
  | executing
  deriving DecidableEq, Repr

/-- The outcome of a command as its completion carries it (Table 2-3). -/
structure Outcome where
  status : Nat
  detail : Nat
  result : Bytes
  deriving DecidableEq, Repr

/-- One command in flight (R46, R47). -/
structure InFlight where
  cmd     : Cmd
  /-- Its place in the order of taking. -/
  seq     : Nat
  phase   : Phase
  /-- While Held or Held after release: the number of the completion that ended its hold (R21, R30). -/
  freed   : Option Nat
  /-- Lateness of an action accepted with `LATE_OK`, passed over by a step or imminent (R353–R355). -/
  late    : Bool
  /-- The due time of the action in Sidereal units; 0 for an immediate command. -/
  due     : Sid
  /-- True while its tag's `INFLIGHT` bit is set in the status block of its ring (R66). -/
  bit     : Bool
  /-- The Meridian slot of the `SCHED_ADD` that fired it (R352). -/
  firing  : Option Nat
  /-- While Executing: its owning island has begun to act on it; false while an action released early waits for its
  `WHEN` (R350, R354). -/
  begun   : Bool
  /-- The outcome that its owning island has still to report (R23). -/
  outcome : Option Outcome
  /-- The event windows that its launch opened or added to: they are posted before its completion (R34). -/
  evs     : List Nat
  /-- When its owning island began to act on it (R164). -/
  since   : Sid
  deriving DecidableEq, Repr

/-- The commands in flight and the order bookkeeping of R21 and R30. -/
structure Commands where
  /-- All commands in flight, in the order in which they were taken (R47). -/
  list      : List InFlight
  /-- The next number in the order of taking. -/
  nextSeq   : Nat
  /-- The number of completions so far. -/
  completed : Nat
  /-- Commands of this tick that completed within it: their channel, `TARGET` and completion number (R22, R30). -/
  served    : List (Origin × Nat × Nat)
  /-- Commands that the present tick has taken or dispatched, of at most 64 (R21). -/
  budget    : Nat
  /-- The channel at which the round robin resumes: a ring number, or 128 for the mailbox (R21). -/
  nextRing  : Nat
  /-- `INTERNAL_ERRS` (Table 17-18). -/
  internal  : Nat
  deriving DecidableEq, Repr

/-! ## Rings, windows and links to host memory (chapters 02 and 15) -/

/-- Ring types (Table 2-7). -/
inductive RingKind where
  | command
  | completion
  | event
  | streamOut
  | streamIn
  deriving DecidableEq, Repr

/-- What is bound to a stream ring (R175, R191, R254, R308, R374 and others). -/
inductive Bind where
  | none
  | lane (target : Nat)
  | rds (target : Nat)
  | fic (lane : Nat)
  | pad (prog : Nat)
  | subch (lane : Nat)
  | survey (lane : Nat)
  | sapCapture (port : Nat)
  | sapPlay (port : Nat)
  | tshift (path : Nat)
  | firnOut
  | firnIn
  | announce
  deriving DecidableEq, Repr

/-- One ring (Tables 2-8 to 2-10). -/
structure Ring where
  kind       : RingKind
  /-- `RSTATE`: true halted (0x2), false running (0x1). A destroyed ring is not in the list. -/
  halted     : Bool
  vector     : Nat
  size       : Nat
  base       : Nat
  statusAddr : Nat
  startIndex : Nat
  /-- Producer count (R51). -/
  prod       : Nat
  /-- Consumer count (R51). -/
  cons       : Nat
  /-- The value last accepted by its doorbell (R51). -/
  doorbell   : Nat
  cplRing    : Nat
  modCount   : Nat
  modTime    : Nat
  unitMask   : Nat
  /-- `LOST` (Table 2-10). -/
  lost       : Nat
  /-- Entries not covered by an interrupt, and the time of the first of them (R55). -/
  uncovered  : Nat
  firstAt    : Sid
  /-- An urgent entry stands uncovered (R55). -/
  urgent     : Bool
  /-- Completion entries held for want of space, oldest first, with the command ring and tag whose `INFLIGHT` bit is cleared
  once the entry is written (R54, R66). -/
  heldCpl    : List (Bytes × Option (Nat × Nat))
  /-- The `RING_DESTROY` that waits for the ring's Executing commands (R56). -/
  destroying : Option (Origin × Nat)
  /-- What is bound to a stream ring. -/
  bind       : Bind
  /-- Data was dropped before the next stream-out buffer (`GAP`, Table 2-11). -/
  gap        : Bool
  /-- Bytes written into the buffer under way of a stream-out ring, and the `GAP` that it will carry. -/
  fill       : Nat
  bufGap     : Bool
  /-- Bytes fetched through a stream-in ring that its sink has not consumed. -/
  inData     : Bytes
  deriving DecidableEq, Repr

/-- One host memory window (R57). -/
structure Window where
  read  : Bool
  write : Bool
  base  : Nat
  size  : Nat
  deriving DecidableEq, Repr

/-- One queued entry of the mailbox (Table 2-12). -/
structure MbxEntry where
  event  : Bool
  urgent : Bool
  bytes  : Bytes
  deriving DecidableEq, Repr

/-- The mailbox (R59, R61, Table 2-12). -/
structure Mailbox where
  /-- `MBX_CMD`, 128 bytes. -/
  cmdWin   : Bytes
  /-- The packet that `GO` submitted and the device has not copied: `CMD_BUSY` is 1 while there is one. -/
  submit   : Option Bytes
  /-- Packets that the device has copied and no tick has taken. -/
  copied   : List Bytes
  /-- Queued completions and events, oldest first; the first is shown in `MBX_CPL`. -/
  queue    : List MbxEntry
  overflow : Bool
  /-- `OWNER`: 0 none, 1 I²C, 2 PCIe. -/
  owner    : BitVec 2
  /-- Queue non-empty transition or urgent entry not yet signalled by `MBX_VECTOR` (R461). -/
  signal   : Bool
  /-- An attention condition of R450 or R452 is waiting for the bus. -/
  attn     : Bool
  deriving DecidableEq, Repr

/-- A coalescing window (R24). -/
structure EvWindow where
  code    : Nat
  source  : Nat
  edetail : Nat
  time    : Sid
  count   : Nat
  /-- Tick boundaries until it closes; 0 when it is due. -/
  left    : Nat
  /-- Its place in the order of occurrences, and the place of the last occurrence that it took (R34). -/
  id      : Nat
  last    : Nat
  /-- Panel changes of R478 take no further occurrence. -/
  single  : Bool
  deriving DecidableEq, Repr

/-- Event coalescing and urgent events (R24, R25, R489). -/
structure Events where
  windows : List EvWindow
  /-- `EV_ALERT`, `EV_FAULT` and `EV_BROWNOUT_WARN` raised and not yet posted, oldest first. -/
  urgent  : List EvWindow
  nextId  : Nat
  /-- `EW_TICKS` per event code where it differs from 1 (R489). -/
  ticks   : List (Nat × Nat)
  /-- Settings of `EVENT_WINDOW_SET` that apply from the next tick boundary. -/
  pending : List (Nat × Nat)
  deriving DecidableEq, Repr

/-- One entry of the violation log (Table 2-15). -/
structure VlogEntry where
  addr : Nat
  time : BitVec 64
  kind : Nat
  link : Nat
  info : Nat
  deriving DecidableEq, Repr

/-- Page 0x03: the violation log (R64, Table 2-15). -/
structure Vlog where
  total   : Nat
  fill    : Nat
  newest  : Nat
  /-- True once a violation was written since reset. -/
  any     : Bool
  sel     : Nat
  entries : List (Nat × VlogEntry)
  deriving DecidableEq, Repr

/-- States of the I²C target (Table 15-3). `writePtr` is Write before its pointer byte. -/
inductive I2cState where
  | idle
  | address
  | writePtr
  | write
  | refuse
  | read
  | ignore
  deriving DecidableEq, Repr

/-- The I²C target (R438–R449). -/
structure I2c where
  st      : I2cState
  page    : Nat
  pointer : Nat
  /-- Writes that take effect at the STOP or repeated START: page, offset, byte, oldest first (R441). -/
  pend    : List (Nat × Nat × Byte)
  /-- The byte being shifted out of a read. -/
  sda     : Byte
  /-- SCL is held low by the wake island (R445). -/
  stretch : Bool
  /-- The device holds SDA low for an in-band request (R450). -/
  holding : Bool
  /-- NACKs charged to the controller write in progress (R453). -/
  nacks   : Nat
  /-- Time of the last request or controller write, and whether a transfer has addressed the device since (R450, R453). -/
  lastReq : Sid
  met     : Bool
  deriving DecidableEq, Repr

/-- Page 0x02 (Table 15-4). -/
structure HostCfg where
  filter     : Nat
  attnMode   : Nat
  ibrHold    : Nat
  ibrRepeat  : Nat
  ctrlAddr   : Nat
  ctrlRetry  : Nat
  ctrlSpeed  : Nat
  legEn      : Bool
  mbxVector  : Nat
  mbxIrqEn   : Bool
  i2cAddr    : Nat
  ctrlFail   : Bool
  collisions : Nat
  stuck      : Nat
  deriving DecidableEq, Repr

/-- Page 0x10 and the sequence that a generation-1 code runs (R497–R499). -/
structure Legacy where
  cmd   : Nat
  lane  : Nat
  cts   : Bool
  err   : Bool
  lErr  : Nat
  /-- `L_ARG`, 60 bytes. -/
  arg   : Bytes
  /-- `L_RESP`, 128 bytes. -/
  resp  : Bytes
  /-- A code written to `L_CMD` that has not begun to run. -/
  start : Bool
  /-- The packets of the sequence that are still to be sent, first first. -/
  seq   : List Cmd
  deriving DecidableEq, Repr

/-- The PCIe endpoint (R455–R462, Table 15-13). -/
structure Pcie where
  up         : Bool
  speed      : Nat
  width      : Nat
  d3         : Bool
  flrCount   : Nat
  dmaErrors  : Nat
  corrErrors : Nat
  txBytes    : Nat
  rxBytes    : Nat
  linkTime   : Sid
  /-- MSI-X Enable of the function's capability. -/
  msixEn     : Bool
  /-- The MSI-X table, 1024 bytes (Table 15-6): 64 entries of address, data and vector control. -/
  msixTable  : Bytes
  /-- The pending bit array. -/
  pba        : BitVec 64
  /-- Messages sent, per vector. -/
  sent       : List (Nat × Nat)
  /-- Target accesses answered with Unsupported Request (R64, Table 2-14). -/
  unsupp     : Nat
  deriving DecidableEq, Repr

/-- The two fragments of a frame packet (R469), empty while missing; `bad` says that one was discarded. -/
structure SfnPacket where
  fic   : Bytes
  audio : Bytes
  bad   : Bool
  deriving DecidableEq, Repr

/-- One UDP stream (R465–R470). -/
structure UdpStream where
  /-- `UDP_STREAM_SET` payload in force (Table 15-11). -/
  cfg      : Bytes
  /-- `S_SEQ` of the next datagram sent, or due to be played. -/
  seq      : Nat
  /-- Audio in: datagrams are being played. -/
  active   : Bool
  /-- Audio in: deadline of R468. -/
  deadline : Nat
  /-- Audio in: payloads of the datagrams that wait for their turn, by `S_SEQ`. -/
  buffer   : List (Nat × Bytes)
  /-- SFN in: frame packets held, by frame number. -/
  frames   : List (Nat × SfnPacket)
  /-- Audio out: samples were lost before the next datagram. -/
  gap      : Bool
  /-- Audio in: when the play-out begins, the last arrivals with their sample counts, newest first, the samples whose turn has come,
  oldest first, the position in the first of them in 1/256, the length of the last datagram, and the samples of the last tick. -/
  startAt  : Sid
  arrivals : List (Sid × Nat)
  line     : List (Int × Int)
  pos      : Nat
  count    : Nat
  play     : List (Int × Int)
  /-- Audio out: number of the next 48 kHz sample to send. The last datagram sent: header and payload. -/
  outNo    : Nat
  sent     : Bytes
  deriving DecidableEq, Repr

/-- An IP datagram in reassembly (R470): stream, identification, arrival of its first fragment, its fragments by place, and its
length once the last one is there. -/
structure Reasm where
  stream : Nat
  ident  : Nat
  first  : Sid
  parts  : List (Nat × Bytes)
  total  : Option Nat
  deriving DecidableEq, Repr

/-- The SGMII port (R463–R470, Table 15-12). -/
structure Eth where
  link       : Bool
  speedBad   : Bool
  rxFrames   : Nat
  txFrames   : Nat
  rxErrors   : Nat
  tsRx       : Nat
  tsTx       : Nat
  rxMissing  : Nat
  rxLate     : Nat
  sfnIncomp  : Nat
  linkTime   : Sid
  /-- `ETH_SET` payload in force (Table 15-10). -/
  cfg        : Bytes
  streams    : List (Nat × UdpStream)
  /-- IP datagrams in reassembly (R470). -/
  reasm      : List Reasm
  deriving DecidableEq, Repr

/-! ## Reference, loops and clock outputs (chapter 03) -/

/-- Reference and loop states (Table 3-6). -/
inductive RefState where
  | unlocked
  | locked
  | holdover
  | qualifying
  | acquisition
  | buildOut
  deriving DecidableEq, Repr

/-- One MCLK output (R89–R92). -/
structure Mclk where
  enabled : Bool
  freq    : Nat
  gated   : Bool
  deriving DecidableEq, Repr

/-- One audio channel (R76): its users are MCLK outputs 0–3 and, from 16 on, serial audio ports. -/
structure AudioChannel where
  powered : Bool
  users   : List Nat
  /-- Deadline of its power-down. -/
  downBy  : Nat
  deriving DecidableEq, Repr

/-- One phase-locked loop (Table 3-2). Frequencies are deviations from what the loop gives at the nominal reference, in
10⁻¹²; the SCLK PLL's planned rate stands apart in `Clocks.sclkHz`. -/
structure PllLoop where
  /-- The DCO word: the present deviation. -/
  dev    : Int
  /-- Its mean over each of the last ticks, newest first: at most 205, which cover 64 ms (R84). -/
  hist   : List Int
  /-- The frozen word of the latest entry to holdover from Locked (R84, R88). -/
  frozen : Int
  /-- The build-out register in units of 10 ps (R85, R86). -/
  build  : Int
  /-- Start of the latest lock attempt (R77). -/
  since  : Sid
  deriving DecidableEq, Repr

/-- Reference, loops and clock outputs (Table 3-8). -/
structure Clocks where
  state       : RefState
  cause       : Nat
  /-- `REF_SET` payload in force (Table 3-4). -/
  cfg         : Bytes
  /-- A crystal was detected at bring-up. -/
  xtal        : Bool
  /-- `LOOP_LOCK`: bit n set while loop n is locked. -/
  lock        : BitVec 5
  /-- The loops that were locked at the latest entry to holdover from Locked. -/
  heldLock    : BitVec 5
  /-- Present SCLK rate in Hz, 0 before it first locks (`SCLK_KHZ`), and the last lock point in kHz (Table 3-8). -/
  sclkHz      : Nat
  lockPoint   : Nat
  /-- `LOCK_SET` of each loop: window in 10 ps and cycles (Table 3-5). -/
  lockCfg     : List (Nat × Nat)
  /-- The lock settings that the last lock attempt of each loop took. -/
  lockUsed    : List (Nat × Nat)
  mclk        : List (Nat × Mclk)
  /-- Conditioner of the SCLK PLL, as `MODE_TX` codes it (R73). -/
  sclkMode    : Nat
  refoutOn    : Bool
  refoutKhz   : Nat
  ppsMode     : Nat
  ppsWidth    : Nat
  ppsHigh     : Bool
  /-- End of the last PPS_OUT pulse. -/
  ppsEnd      : Sid
  ppsSkipped  : Nat
  glitches    : Nat
  /-- Times of the glitches of the last millisecond (R83). -/
  recent      : List Sid
  holdCount   : Nat
  /-- The five loops, by the index of Table 3-2. -/
  loops       : List PllLoop
  /-- The measured deviation of the reference from its nominal frequency in 10⁻¹² (`REF_PPB`), and its mean over each of the
  last ticks, newest first: at most 205. -/
  refDev      : Int
  refHist     : List Int
  /-- The same of the crystal, and its mean over the window of the latest entry to holdover (R84). -/
  xoHist      : List Int
  xoAvg       : Int
  /-- Start of the frequency acquisition (R85). -/
  acqFrom     : Sid
  /-- Deadline of the qualification period (R85). -/
  qualBy      : Nat
  /-- Qualification has started with no announced loss (R74). -/
  silent      : Bool
  /-- Audio channels A48 (loop 2) and A44 (loop 3). -/
  a48         : AudioChannel
  a44         : AudioChannel
  deriving DecidableEq, Repr

/-! ## Sidereal and Meridian (chapter 11) -/

/-- Sidereal states (Table 11-3). -/
inductive TimeState where
  | unset
  | free
  | acquiring
  | disciplined
  | coasting
  | refused
  deriving DecidableEq, Repr

/-- Why a step is to be applied (R344, R345, R357). -/
inductive StepWhy where
  | timeSet
  | accept
  | acquire
  deriving DecidableEq, Repr

/-- A step that the next tick boundary applies (R347). -/
structure StepReq where
  why      : StepWhy
  /-- Absolute time to take in Sidereal units, or a relative step. -/
  absolute : Bool
  /-- Only the seconds field is taken from `value` (R340). -/
  secOnly  : Bool
  value    : Int
  /-- Tick count at the request: the step is applied at a later boundary. -/
  asked    : Nat
  /-- The command that the step completes (R357). -/
  owner    : Option (Origin × Nat)
  deriving DecidableEq, Repr

/-- Sidereal (R334–R348, Table 11-6). -/
structure Sidereal where
  /-- The time island is clocked (R337). -/
  running    : Bool
  /-- Sidereal time of the latest occurrence. -/
  now        : Sid
  /-- Sidereal time of the next tick boundary. -/
  next       : Sid
  /-- Sidereal time, on the present scale, of the latest tick boundary; the instant of a step is one (R348). -/
  bound      : Sid
  /-- Tick boundaries passed since reset (R348), and that count at the first boundary of the present scale (R347). -/
  ticks      : Nat
  scaleFrom  : Nat
  /-- Cycles of the 200 MHz clock since the start, and the part of a cycle beyond them, in 10⁻¹² unit (R335). -/
  cycles     : Nat
  rest       : Nat
  st         : TimeState
  valid      : Bool
  /-- Set in the sense of R344. -/
  isSet      : Bool
  /-- `TIME_SRC_SET` payload in force (Table 11-4). -/
  cfg        : Bytes
  /-- `PTP_SET` payload in force (Table 11-5). -/
  ptp        : Bytes
  master     : Bool
  portState  : Nat
  gm         : BitVec 64
  utc        : Nat
  /-- Mean path delay in 1/65536 ns, time from a master's Sync to its receipt, and time at which the last delay request left (R341). -/
  pathDelay  : Int
  syncTook   : Int
  reqSent    : Int
  /-- clockClass and originTimestamp sent last (R342, R464). -/
  classSent  : Nat
  origin     : Int
  outliers   : Nat
  /-- Outliers in a row (R344). -/
  inRow      : Nat
  /-- Samples in a row that count towards `RETURN_SAMPLES` (R346). -/
  good       : Nat
  /-- PTP samples of the present `PTP_SELECT` group: path delay and offset (Table 11-1). -/
  group      : List (Int × Int)
  offset     : Int
  refusedAt  : Int
  /-- Frequency and phase parts of r, in 0.001 ppb (R343). -/
  rFreq      : Int
  rPhase     : Int
  /-- Values of the frequency part with the time each was set, newest first (R343). -/
  rHist      : List (Sid × Int)
  lastSample : Sid
  steps      : Nat
  coastFrom  : Sid
  slewing    : Bool
  /-- The outlier test is suspended (R345). -/
  suspended  : Bool
  lossBy     : Nat
  stepReqs   : List StepReq
  /-- A `TIME_ACCEPT_STEP` with `AS_SLEW` that the next tick boundary starts (R345). -/
  slewReq    : Option (Origin × Nat)
  deriving DecidableEq, Repr

/-- One Meridian slot (R349, Table 11-8). -/
structure Slot where
  /-- A `SCHED_ADD` (true) or a plain command with a non-zero `WHEN` (false). -/
  sched   : Bool
  /-- The waiting command, or the embedded packet of the `SCHED_ADD`. -/
  cmd     : Cmd
  /-- Order of acceptance. -/
  seq     : Nat
  /-- `WHEN`, or the next firing time, in Sidereal units. -/
  nominal : Sid
  /-- The time that the next release waits for: `nominal`, or a later boundary if that is past (R353, R355). -/
  due     : Sid
  period  : Nat
  firings : Nat
  /-- Firing times that have passed. -/
  passed  : Nat
  fired   : Nat
  skipped : Nat
  /-- The next release is late (R353, R355). -/
  late    : Bool
  /-- The action is sample-timed (R350). -/
  sample  : Bool
  deriving DecidableEq, Repr

/-- Meridian (R349, `SCHED_GET` summary). -/
structure Meridian where
  slots    : List (Nat × Slot)
  releases : Nat
  lates    : Nat
  /-- The next number in the order of acceptance. -/
  nextSeq  : Nat
  deriving DecidableEq, Repr

/-! ## Polaris (chapter 13) -/

/-- A report that waits for the other path (R383). -/
structure Report where
  primary  : Bool
  source   : Nat
  start    : Bool
  subch    : Nat
  deadline : Nat
  deriving DecidableEq, Repr

/-- Polaris (Tables 13-5, 13-8 and 13-9). -/
structure Polaris where
  /-- `POLARIS_SET` payload in force (Table 13-8). -/
  cfg          : Bytes
  safe         : Bool
  safeCause    : Nat
  /-- ALERT_N asserted. -/
  alertN       : Bool
  /-- FAULT_N asserted. -/
  faultN       : Bool
  halted       : Bool
  resetOnly    : Bool
  refusal      : Bool
  /-- A self-test has failed (R392). -/
  selfFail     : Bool
  /-- FAULT_N is held from a thermal shutdown (R392). -/
  thermHold    : Bool
  /-- Loops whose unlock was a dangerous finding (R390). -/
  present      : List Nat
  /-- Confirmed alerts open: source and subchannel (0xFF for RDS). -/
  openAlerts   : List (Nat × Nat)
  /-- ALERT_N was cleared in the safe state (R385). -/
  cleared      : Bool
  /-- ALERT_N is held, and the level that it had at entry to the safe state (R381, R385). -/
  held         : Bool
  heldLevel    : Bool
  /-- Diagnostic ID of the reset-only finding (R389, R390). -/
  resetId      : Nat
  reports      : List Report
  candidates   : Nat
  confirmed    : Nat
  mismatches   : Nat
  ignored      : Nat
  hbMisses     : Nat
  warnings     : Nat
  safeTime     : Sid
  lastSelftest : Sid
  /-- Missed heartbeats in a row, per island. -/
  missed       : List (Nat × Nat)
  /-- Safe-state path tests skipped in a row (R397). -/
  skips        : Nat
  /-- Corrected ECC errors (R28). -/
  eccCount     : Nat
  deriving DecidableEq, Repr

/-! ## Power, reset, bring-up, firmware and thermal limits (chapter 14) -/

/-- Power states (Table 14-2). `off` is No supply of Table 14-3. -/
inductive PwrState where
  | off
  | permafrost
  | frost
  | thaw
  | active
  | avalanche
  deriving DecidableEq, Repr

/-- A power-state transition under way (Table 14-3). -/
inductive PwrTrans where
  | none
  | toFrost
  | fromFrost
  | toPermafrost
  | toAvalanche
  | fromAvalanche
  deriving DecidableEq, Repr

/-- What one shed action took (Table 14-8). -/
inductive ShedItem where
  | survey (lanes : List Nat)
  | firnZone (zone : Nat)
  | boost
  | flurry
  | lane (lane : Nat)
  deriving DecidableEq, Repr

/-- Power, limits and bring-up (Tables 14-5, 14-6, 14-14). -/
structure Power where
  state      : PwrState
  trans      : PwrTrans
  /-- `REQ_STATE`: true Avalanche, false Active. -/
  reqAval    : Bool
  boost      : Bool
  boostSpent : Bool
  /-- Units of 0.1 h used, kept in OTP (R435). -/
  boostUsed  : Nat
  /-- Ticks at 0.80 V left of the unit begun. -/
  boostLeft  : Nat
  brownout   : Bool
  cause      : Nat
  /-- Step of Table 14-4 under way: 1–9, and 10 when bring-up is complete. -/
  buStep     : Nat
  buFault    : Nat
  tj         : Int
  tjMax      : Int
  vin        : Nat
  iin        : Nat
  ilim       : Nat
  boMin      : Nat
  boDur      : Nat
  boCount    : Nat
  boTime     : Sid
  /-- `WAKE_MASK` and `WAKE_S` in force (R413). -/
  wakeMask   : Nat
  wakeS      : Nat
  /-- Straps sampled at step 2 of bring-up (R505). -/
  straps     : Straps
  /-- `DEV_RESET` waits for the next tick boundary (R436). -/
  resetPend  : Bool
  /-- The `PWR_STATE_SET` that the transition under way completes, and those held behind it, oldest first (R530). -/
  owner      : Option (Origin × Nat)
  waiting    : List (Origin × Nat)
  /-- Permafrost was entered by a thermal shutdown (R428). -/
  shut       : Bool
  /-- VIO level detected at power-on: true 3.3 V (R504). -/
  vioHigh    : Bool
  deriving DecidableEq, Repr

/-- The governors and the shed ladder (R429–R433). -/
structure Thermal where
  warn       : Bool
  /-- Actions in force, first taken first, with their stage. -/
  actions    : List (Nat × ShedItem)
  /-- Actions that each governor demands. -/
  thermDem   : Nat
  powerDem   : Nat
  /-- Junction at the last check, and its tick (R431). -/
  lastTj     : Int
  lastCheck  : Nat
  /-- Ticks of the last thermal action and of the last shed action of the power limit (R431, R432). -/
  lastAct    : Nat
  powerAt    : Nat
  /-- Tick since which the junction has stayed at or below 117 °C. -/
  coolFrom   : Option Nat
  /-- Tick since which the current has stayed at or below `ILIM_IN` − 0.3 A. -/
  lowFrom    : Option Nat
  exhausted  : Bool
  thermSheds : Nat
  powerSheds : Nat
  deriving DecidableEq, Repr

/-- Firmware update states (Table 14-11). -/
inductive FwState where
  | idle
  | erasing
  | writing
  | verifying
  | marking
  deriving DecidableEq, Repr

/-- A marker record (R424). -/
structure Marker where
  gen   : BitVec 32
  slot  : Nat
  crc   : BitVec 32
  valid : Bool
  deriving DecidableEq, Repr

/-- Firmware slots and update (Table 14-15). -/
structure Firmware where
  st        : FwState
  /-- Slot running: 0 A, 1 B, 0xFF before step 7 of bring-up. -/
  active    : Nat
  fallback  : Bool
  last      : Nat
  lastStep  : Nat
  lastTime  : Sid
  /-- Marker sectors M0 and M1. -/
  m0        : Marker
  m1        : Marker
  /-- Build identifiers in slots A and B; 0 if not valid. -/
  buildA    : BitVec 32
  buildB    : BitVec 32
  /-- `FW_BYTES` and `FW_CRC` of the update. -/
  bytes     : Nat
  crc       : BitVec 32
  written   : Nat
  /-- The bytes written to the slot not in use. -/
  image     : Bytes
  activate  : Bool
  /-- Build identifier that the verify read from the header. -/
  newBuild  : BitVec 32
  suspended : Bool
  deriving DecidableEq, Repr

/-! ## Panel (chapter 16) -/

/-- A change queued through Permafrost or bring-up (R479): `EDETAIL` of its event. -/
abbrev PanelChange := Nat

/-- The panel inputs and IRQ_N (Tables 16-3 to 16-5). -/
structure Panel where
  /-- `PANEL_SET` payload in force (Table 16-3). -/
  cfg      : Bytes
  /-- `PANEL_SET` payload that the next tick applies (R484). -/
  pending  : Option Bytes
  keys     : BitVec 16
  plugs    : BitVec 4
  ptt      : Bool
  /-- Keys down but withheld as phantoms (R475). -/
  withheld : List Nat
  dropped  : Nat
  /-- Detent counts of encoders 0 and 1, wrapping. -/
  enc0     : BitVec 16
  enc1     : BitVec 16
  /-- Transitions short of a detent. -/
  part0    : Int
  part1    : Int
  /-- Net detents of the present tick and the time of the first (R478). -/
  net0     : Int
  net1     : Int
  first0   : Sid
  first1   : Sid
  encErrs  : Nat
  queue    : List PanelChange
  /-- IRQ_N asserted (R483). -/
  irqN     : Bool
  /-- PTT is pressed and `BRK_EN` has not enabled it since the press (R481). -/
  pttFree  : Bool
  deriving DecidableEq, Repr

/-! ## Samples and filter chains (chapter 05) -/

/-- A half-band stage (Tables 5-1 and 5-2): its history, newest first (zeros are understood beyond it), and whether it has taken
in one of the two inputs of its next output. -/
structure HalfBand where
  hist : List Cx
  odd  : Bool
  deriving DecidableEq, Repr

/-- The chain of a zone (Table 5-1). -/
structure ZoneChain where
  /-- NCO phase accumulator, 48 bits. -/
  phase : Nat
  stages : List HalfBand
  /-- Converter samples for which outputs still span a sample marked by blanking, or clipped (R163). -/
  blank : Nat
  clip  : Nat
  deriving DecidableEq, Repr

/-- A zone output sample: its value and marks (R163). -/
structure ZoneSample where
  x     : Cx
  blank : Bool
  clip  : Bool
  deriving DecidableEq, Repr

/-- The chain of one branch of a lane (Table 5-2). -/
structure LaneChain where
  phase  : Nat
  stages : List HalfBand
  /-- Resampler history, newest first. -/
  hist   : List Cx
  /-- Distance of the next output from the newest resampler input, in 2⁻⁴⁶ input samples (R149). -/
  pos    : Nat
  /-- Zone output samples for which outputs still span a marked or clipped one. -/
  blank  : Nat
  clip   : Nat
  /-- Output samples since the last reset. -/
  count  : Nat
  deriving DecidableEq, Repr

/-- A lane output sample (Table 5-10). -/
structure Sample where
  x      : Cx
  settle : Bool
  blank  : Bool
  clip   : Bool
  sat    : Bool
  slew   : Bool
  deriving DecidableEq, Repr

/-- What a measurement window has seen of a lane's samples (R129, R130). -/
structure LevelWindow where
  /-- Σ |y|² over the unmarked samples, and their number. -/
  power : Nat
  count : Nat
  /-- Samples marked by blanking, and whether one clipped. -/
  blank : Nat
  clip  : Bool
  deriving DecidableEq, Repr

/-- The chain of an AM or FM demodulator (R177, R180). -/
structure DemodChain where
  /-- History of the channel filter, newest first, and its last output. -/
  hist  : List Cx
  prev  : Cx
  /-- Carrier or pilot PLL: phase and frequency of 48 bits, and the low-passed pilot. -/
  phase : Nat
  word  : Int
  low   : Cx
  /-- Histories of the multiplex signal, of the decoded L−R product and of |x|, newest first. -/
  mpx   : List Int
  diff  : List Int
  amps  : List Int
  /-- Mean carrier amplitude, de-emphasised L and R, and the last two inputs and outputs of the high cut. -/
  mean  : Int
  deem  : Int × Int
  cutL  : List Int
  cutR  : List Int
  /-- Input of the resampler to 48 kHz, newest first, and its position. -/
  audio : List (Int × Int)
  pos   : Nat
  deriving DecidableEq, Repr

/-- What a window has seen of an analogue carrier's samples (Table 6-1). -/
structure AudioWindow where
  level : LevelWindow
  /-- Σ d, and the largest and the smallest d; Σ |x| and Σ |x|². -/
  sumD  : Int
  maxD  : Int
  minD  : Int
  sumA  : Nat
  sumA2 : Nat
  /-- Σ d at 19 kHz, Σ (d in 65–95 kHz)², Σ (|x| in 0.5–20 kHz)². -/
  pilot : Cx
  usn   : Nat
  mp    : Nat
  /-- AM: Σ of the PLL frequency, and |x| with d of each sample. -/
  pll   : Int
  pts   : List (Nat × Int)
  deriving DecidableEq, Repr

/-- A bin of a flake after its NCO: the phase and the flake-filter history (R195). -/
structure BinChain where
  phase : Nat
  hist  : List Cx
  deriving DecidableEq, Repr

/-- The chain of a flake (R195): its carrier's bin and those at ±200 kHz, and the RDS and alignment branches. -/
structure FlakeChain where
  bins  : List BinChain
  prev  : Cx
  /-- Bin samples since assignment or the last tap reset. -/
  count : Nat
  mpx   : List Int
  /-- Histories and outputs of the 57 kHz branch (8 samples per bit) and of L+R at 48 kHz. -/
  mixed : List Cx
  rds   : List Cx
  lr    : List Int
  pos   : Nat
  deriving DecidableEq, Repr

/-! ## Aerial inputs, blanking and Aurora (chapter 04) -/

/-- One point of the correction C_cal(f, g): kHz, gain index and 0.01 dB (R127). -/
structure CalPoint where
  khz  : Nat
  g    : Int
  corr : Int
  deriving DecidableEq, Repr

/-- One time span in which samples of some inputs are marked (R137): the inputs, whether they are replaced with zero (R138), the
first instant, and the last one once COEX_BLANK is deasserted. -/
structure BlankSpan where
  mask : Nat
  zero : Bool
  start : Sid
  stop  : Option Sid
  deriving DecidableEq, Repr

/-- `BIAS_STATE` (Table 4-13). -/
inductive BiasState where
  | off
  | on
  | limiting
  | retry
  | noRetry
  | lowCurrent
  | railAbsent
  deriving DecidableEq, Repr

/-- One aerial input (Tables 4-10 to 4-13). -/
structure Ant where
  /-- `ANT_SET` payload in force (Table 4-10). -/
  cfg       : Bytes
  /-- Gain index g (R97). -/
  g         : Int
  att       : Nat
  lna       : Nat
  composite : Int
  clips     : Nat
  agcSteps  : Nat
  blanks    : Nat
  /-- Consecutive ticks below `AGC_TARGET` − `HYST_DB` (R102). -/
  lowTicks  : Nat
  /-- Converter sample index before which no overload step may follow (R101). -/
  lockout   : Nat
  /-- An overloaded window fell in the present tick. -/
  ovlTick   : Bool
  /-- Consecutive ticks with overload at −31 dB, and whether the episode is reported (R104). -/
  ovlRun    : Nat
  ovlTold   : Bool
  /-- `BIAS_SET` payload in force (Table 4-11). -/
  biasCfg   : Bytes
  bias      : BiasState
  biasCur   : Nat
  retries   : Nat
  /-- Deadline of the retry, or of the restoration of the retry count (R105). -/
  biasBy    : Nat
  /-- Calibration: `CAL_STATE`, temperature in 0.1 °C and time (Table 4-13). -/
  calState  : Nat
  calTemp   : Int
  calTime   : Sid
  /-- `CAL_DTEMP` and `CAL_PERIOD` (Table 4-12). -/
  calDtemp  : Nat
  calPeriod : Nat
  /-- A spot calibration is asked for, and deadlines of the next periodic one and of the one that runs (R128). -/
  spotAsked : Bool
  spotBy    : Nat
  spotEnd   : Option Nat
  /-- Tick before which an abandoned spot calibration is not retried (R128). -/
  spotHold  : Nat
  /-- C_cal(f, g) (R127), and the gain index that zone samples are referred to (R103). -/
  cal       : List CalPoint
  gRef      : Int
  /-- Start of the foreground calibration, and the comb offsets of the spot calibration that runs, in kHz (R127, R128). -/
  calFrom   : Sid
  spotOff   : Nat × Nat
  /-- Σ c² of the unmarked converter samples of the present tick and their number (R102). -/
  sumSq     : Nat
  sumN      : Nat
  /-- Interleaving corrections of the eight sub-converters: gain, offset and skew (R108). -/
  inter     : List (Int × Int × Int)
  deriving DecidableEq, Repr

/-- The aerial inputs and coexistence blanking. -/
structure Rf where
  ants      : List (Nat × Ant)
  /-- `BLANK_SET` payload in force (Table 4-14). -/
  blank     : Bytes
  /-- Level of the COEX_BLANK ball; it is asserted, and treated so. -/
  blankBall : Bool
  blankOn   : Bool
  blankBy   : Nat
  /-- R139 treats an asserted input as deasserted. -/
  blankCut  : Bool
  /-- The marked spans that samples may still fall in (R137). -/
  spans     : List BlankSpan
  /-- The two last latches of the sample islands, newest first: converter sample index and Sidereal time (R19, R121). -/
  latches   : List (Nat × Sid)
  deriving DecidableEq, Repr

/-- A frequency plan: rate in kHz, conditioner as `COND_MAN`, penalty in 0.1 dB and whether it is hitless (R115–R117). -/
structure Plan where
  khz     : Nat
  cond    : Nat
  pen     : Nat
  hitless : Bool
  deriving DecidableEq, Repr

/-- What Aurora is doing (`AUR_STATE`, Table 4-18). -/
inductive AurState where
  | stable
  | slewing
  | relocking
  deriving DecidableEq, Repr

/-- The Aurora planner (R112–R125). -/
structure Aurora where
  /-- `AURORA_SET` payload in force (Table 4-16). -/
  cfg       : Bytes
  /-- `AURORA_SET` payload that waits for a slew or re-lock to end (R125). -/
  cfgNext   : Option Bytes
  st        : AurState
  /-- Target of the slew in kHz. -/
  goal      : Nat
  /-- Rate in Hz at which the slew started, its steps so far, the sample index of the last one, and the end of the last slew
  (R120, R122). -/
  slewFrom  : Nat
  slewSteps : Nat
  slewIdx   : Option Nat
  slewEnd   : Sid
  /-- The adopted plan that is pending, and whether it may be carried out. -/
  pend      : Option Plan
  approved  : Bool
  /-- A re-lock plan waits for the reference (R124). -/
  deferred  : Bool
  /-- An evaluation is due (R114), asked for by `AURORA_RUN`, or waits for a fresh scan. -/
  trigger   : Bool
  asked     : Bool
  rescan    : Bool
  strong    : List StrongSignal
  /-- Tick before which no plan change starts (R114). -/
  holdUntil : Nat
  plans     : Nat
  lastChg   : Sid
  scanBy    : Nat
  deriving DecidableEq, Repr

/-! ## Zones and lanes (chapter 05) -/

/-- `ZONE_STATE` (Table 5-17). -/
inductive ZoneState where
  | off
  | running
  | settling
  | paused
  deriving DecidableEq, Repr

/-- One zone. -/
structure Zone where
  st    : ZoneState
  /-- Centre in mHz. -/
  freq  : Nat
  marks : Nat
  /-- Time of its last synchronising reset (R165). -/
  resetAt : Sid
  chain : ZoneChain
  deriving DecidableEq, Repr

/-- `LANE_STATE` (Table 5-11). -/
inductive LaneState where
  | idle
  | stopped
  | settling
  | running
  | paused
  deriving DecidableEq, Repr

/-- One full or survey lane (Tables 5-9, 5-13 and 5-16). -/
structure Lane where
  st         : LaneState
  /-- `LANE_SET` payload in force (Table 5-13). -/
  cfg        : Bytes
  /-- `DIV_SET` payload in force (Table 4-15). -/
  div        : Bytes
  /-- RF centre in mHz. -/
  freq       : Nat
  stages     : Nat
  outRate    : Nat
  settleLast : Nat
  suppressed : Nat
  saturated  : Nat
  gaps       : Nat
  resets     : Nat
  lastSync   : Sid
  /-- Zone sample of the last synchronising reset. -/
  resetAt    : Sid
  /-- A lane command took effect at the zone sample of that reset (R165). -/
  byCmd      : Bool
  /-- Deadline before which no further saturation event is posted (R176). -/
  satBy      : Nat
  /-- The lane was stopped by the shed ladder and restarts at the restore action (R433). -/
  shed       : Bool
  /-- Headers of blocks (Table 5-9): next sequence number, markers of the next block and its `BLK_GAP`. -/
  blkSeq     : Nat
  sync       : Bool
  gap        : Bool
  change     : Option (Nat × Nat)
  restage    : Bool
  start      : Bool
  blkGap     : Nat
  /-- Header of the last block formed. -/
  header     : Bytes
  /-- The filter chains of its branches, the samples delivered and not yet in a block, oldest first, and the last 64 samples of
  each branch, newest first (R133). -/
  chains     : List LaneChain
  out        : List Sample
  past       : List (List Cx)
  window     : LevelWindow
  /-- Number since the reset of the first sample of `out`. -/
  outNext    : Nat
  /-- Noise variance of each branch, and the branch selected (R132–R134). -/
  noise      : List Nat
  selected   : Nat
  /-- CRC-32 register over the samples delivered since the last checkpoint (R363). -/
  crc        : BitVec 32
  /-- `DIV_SET` payload that waits for its frame or tick, and its command (R136). -/
  divNext    : Option (Bytes × Origin × Nat)
  deriving DecidableEq, Repr

/-! ## Lodestar and the regulatory table (chapter 10) -/

/-- Exciter states (Table 10-2). -/
inductive TxState where
  | off
  | tuning
  | ready
  | pending
  | on
  | muted
  | held
  deriving DecidableEq, Repr

/-- A host break-in: source kind and index (Table 10-6, rank 3). -/
structure HostBreak where
  kind  : Nat
  index : Nat
  deriving DecidableEq, Repr

/-- Progress in a block that a stream-in ring delivers (R300, R301): frames left, words of a frame, and bytes of padding behind. -/
structure PlayIn where
  left  : Nat
  words : Nat
  skip  : Nat
  deriving DecidableEq, Repr

/-- A move of the output amplitude along a raised cosine (R313), in 2⁻¹⁶ of that of 0 dBm. -/
structure Ramp where
  from_ : Int
  to_   : Int
  start : Sid
  len   : Sid
  deriving DecidableEq, Repr

/-- The FM multiplex (R311, Table 10-1): the last inputs, the last programme samples, the phases of the pilot and of the RDS bit in
2⁻⁴⁸ turn, the RDS bits that wait and the last one sent, the PS segment, and whether a group of the ring comes next. -/
structure FmMod where
  pre      : Int × Int
  hist     : List (Int × Int)
  phase    : Nat
  rdsPhase : Nat
  bits     : List Bool
  last     : Bool
  seg      : Nat
  ring     : Bool
  deriving DecidableEq, Repr

/-- Lodestar (Tables 10-2 and 10-8 to 10-11). -/
structure Tx where
  st        : TxState
  /-- Entry in use. -/
  entry     : Option Nat
  /-- The TX PLL has locked and calibrated on the entry in use. -/
  locked    : Bool
  /-- A `TX_TUNE` has been accepted since reset. -/
  tuned     : Bool
  ftx       : Nat
  /-- Deadline of `TX_TUNE` (Table 10-2) and whether it has passed without lock. -/
  tuneBy    : Nat
  tuneLate  : Bool
  /-- Deadline of the synthesiser window of a pending start (R315), where it was settling. -/
  synthBy   : Option Nat
  /-- Deadline of `COEX_WAIT` of a pending start. -/
  coexBy    : Nat
  /-- The pending start follows a `TX_TUNE` in TX_ON and completes that `TX_TUNE` (Table 10-2). -/
  byTune    : Bool
  /-- `TX_FM_SET` and `TX_DAB_SET` payloads in force; none until configured (Tables 10-8 and 10-9). -/
  fm        : Option Bytes
  dab       : Option Bytes
  /-- `TX_LEVEL_SET` payload in force; its level is the level in use. -/
  level     : Bytes
  /-- `TX_SFN_SET`, `TX_BREAKIN_SET` and `COEX_SET` payloads in force. -/
  sfn       : Bytes
  brk       : Bytes
  coex      : Bytes
  /-- Level of the COEX_GNT ball, and the time from which COEX_GNT has stood asserted for the present start (R325). -/
  gnt       : Bool
  gntAt     : Sid
  req       : Bool
  pri       : Bool
  paEn      : Bool
  /-- An ordinary stop ramps down; PA_EN is still asserted. -/
  stopping  : Bool
  /-- Mute causes that stand (Table 10-2): brown-out, grant, SFN frame, SFN time. -/
  muteBrown : Bool
  muteGrant : Bool
  muteFrame : Bool
  muteTime  : Bool
  muteCause : Nat
  /-- `EV_TX` cause with which the transmission resumes from TX_MUTED; 0 for none. -/
  resume    : Nat
  /-- Break-in triggers asserted: PTT, TA and host (Table 10-6). Alerts stand in Polaris. -/
  ptt       : Bool
  ta        : Bool
  host      : Option HostBreak
  /-- Rank of the break-in under way, 0 for none; it started the transmission itself. -/
  rank      : Nat
  brkOwn    : Bool
  /-- Ranks whose present trigger was refused (R331). -/
  refused   : List Nat
  /-- Last transmission start. -/
  since     : Sid
  delayUs   : Nat
  sfnMiss   : Nat
  /-- Ticks counted with the exciter powered, which time the regulatory counters (R322). -/
  dutyClock : Nat
  /-- Transmitted intervals per entry, in that clock; the present one begins at `dutyFrom`. -/
  duty      : List (Nat × List (Nat × Nat))
  dutyFrom  : Nat
  /-- That clock when `PA_EN` was last asserted: the transmission has been continuous from then. -/
  contFrom  : Nat
  /-- Clock before which an entry may not start again after a continuous limit (R322). -/
  restUntil : Nat
  /-- Time before which no DAB frame is emitted, after a Sidereal step (R348). -/
  gridFrom  : Sid
  /-- The move of the output level under way or last made; the end of an ordinary stop; the start of the last fast mute. -/
  ramp      : Ramp
  stopAt    : Sid
  muteAt    : Sid
  /-- The programme source, the one that it fades from, and the samples of that fade so far (R328). -/
  src       : HostBreak
  srcFrom   : HostBreak
  fadePos   : Nat
  /-- Start of the safety break-in under way, 0 for none, and the due time of its verification (R386). -/
  brkFrom   : Sid
  dueAt     : Option Sid
  /-- Progress in the blocks of a source ring, and tick count until which its last underrun counts (R329). -/
  playIn    : PlayIn
  dryBy     : Nat
  /-- Programme samples, newest first, and the multiplex of the last tick in Hz of deviation at 192 kHz. -/
  line      : List (Int × Int)
  fmMod     : FmMod
  mpx       : List Int
  /-- The frame emitted last with its FIBs behind the alarm state, and its Layer II frames; frames that a head has encoded ahead. -/
  frame     : Nat
  fic       : Bytes
  audio     : Bytes
  ahead     : List (Nat × Bytes × Bytes)
  deriving DecidableEq, Repr

/-- The self-monitor (R323, R324). -/
structure TxMon where
  /-- Last window: the `TX_MON_GET` result. -/
  last     : Bytes
  /-- Consecutive windows with a breach, and with poor FM content. -/
  breaches : Nat
  content  : Nat
  /-- A fault of the present episode has been posted. -/
  told     : Bool
  /-- Consecutive windows of a safety break-in with a fault (Table 13-3, 0x07). -/
  faults   : Nat
  /-- FIB mismatches since reset. -/
  fibMiss  : Nat
  deriving DecidableEq, Repr

/-- One slot of the one-time-programmable store that has been used (R319). -/
structure RegSlot where
  gen      : Nat
  image    : Bytes
  complete : Bool
  deriving DecidableEq, Repr

/-- The regulatory table (R318–R321). -/
structure Reg where
  /-- Used slots, oldest first; at most 16. -/
  slots   : List RegSlot
  locked  : Bool
  /-- Staged image; bytes past its end are 0. -/
  staged  : Bytes
  /-- A commit runs into the last used slot. -/
  commit  : Bool
  /-- `LAST_COMMIT` (Table 10-12). -/
  last    : Nat
  /-- The table shadow: generation and image in force, and a complete copy that takes effect at the next boundary. -/
  gen     : Nat
  image   : Bytes
  next    : Bool
  /-- Boundary count from which that copy takes effect (R320). -/
  nextBy  : Nat
  deriving DecidableEq, Repr

/-! ## AM, FM and Flurry (chapter 06) -/

/-- One group as the block decoder gives it (Table 6-2): the four information words and their classes (R188), the offset word
C′, and whether it was received in a slew or from samples that carry `BLANK`. -/
structure RdsGroup where
  a      : BitVec 16
  b      : BitVec 16
  c      : BitVec 16
  d      : BitVec 16
  errA   : BitVec 2
  errB   : BitVec 2
  errC   : BitVec 2
  errD   : BitVec 2
  cPrime : Bool
  slew   : Bool
  blank  : Bool
  deriving DecidableEq, Repr

/-- One RDS decoder and its decoded service data (R187–R190, R212, R213, Table 6-10). -/
structure Rds where
  sync     : Bool
  /-- The next group is the first after synchronisation (`G_RESYNC`). -/
  resync   : Bool
  groups   : Nat
  syncLoss : Nat
  /-- Items last received with good blocks and items accepted, by item number (`rdsItem…` of Machine/Rds.lean). -/
  seen     : List (Nat × Nat)
  acc      : List (Nat × Nat)
  /-- Tick at which a PI was last accepted (R206). -/
  piTick   : Option Nat
  /-- AF codes of the list being received, with the number announced; the last whole list; the accepted one. -/
  afPart   : List Nat
  afCount  : Nat
  afLast   : List Nat
  afList   : List Nat
  /-- `CT_TIME`. -/
  ctTime   : Sid
  /-- RadioText: text A/B flag and the group type that carries RT+ (none until announced), with its tags. -/
  rtFlag   : Bool
  rtPlus   : Option Nat
  rtTags   : Bytes
  /-- Consecutive groups with PTY 31, and with another PTY; the last 9A record; an alert stands. -/
  ptyRun   : Nat
  otherRun : Nat
  last9A   : Option (Sid × Nat × Nat)
  alert    : Bool
  /-- Consecutive groups with TP = TA = 1, and with TA = 0; a traffic announcement stands. -/
  taRun    : Nat
  taOff    : Nat
  taOn     : Bool
  /-- The same for EON traffic announcements of the network `eonPi`. -/
  eonRun   : Nat
  eonOff   : Nat
  eonOn    : Bool
  eonPi    : Nat
  /-- The last group record (Table 6-2). -/
  record   : Bytes
  /-- Block decoder (R187–R189): the place of the next block in its group, the group so far and the start of its block A,
  consecutive uncorrectable blocks, the last 100 blocks (true: uncorrectable), and blocks under offset word E. -/
  pos      : Nat
  part     : RdsGroup
  begun    : Option Sid
  badRun   : Nat
  past     : List Bool
  eBlocks  : Nat
  deriving DecidableEq, Repr

/-- The AM or FM demodulator of a full lane (Tables 6-6 to 6-8). -/
structure Demod where
  /-- `AM_SET` and `FM_SET` payloads in force, and those that the next tick applies. -/
  am      : Bytes
  fm      : Bytes
  amNext  : Option Bytes
  fmNext  : Option Bytes
  /-- Carrier PLL lock (AM) and pilot lock (FM). -/
  carrier : Bool
  pilot   : Bool
  /-- The measures of the last window, its Q and its end; none since `LANE_SET`. -/
  meas    : Option Measures
  q       : Nat
  qTime   : Sid
  /-- Separation in 0.0001 %, soft mute in 0.0001 dB, high-cut corner in 0.1 Hz (R186). -/
  sep     : Nat
  mute    : Nat
  hicut   : Nat
  rds     : Rds
  /-- Stream ring of `RDS_STREAM` and `RFILT`. -/
  rdsRing : Option (Nat × Nat)
  /-- Lane or multiplex samples in a row that are within the lock limits, and beyond the unlock limits (R178, R182). -/
  inRun   : Nat
  outRun  : Nat
  /-- Share of synchronous detection or of stereo in sixteenths: a cross-fade takes 5 ms (R178, R182). -/
  fade    : Nat
  chain   : DemodChain
  window  : AudioWindow
  deriving DecidableEq, Repr

/-- `FLK_STATE` (Table 6-4). -/
inductive FlakeState where
  | free
  | acquiring
  | synced
  | paused
  | shed
  deriving DecidableEq, Repr

/-- `FLK_CLASS` (Table 6-4). -/
inductive FlakeClass where
  | pinned
  | af
  | census
  deriving DecidableEq, Repr

/-- One flake (Tables 6-4 and 6-5). -/
structure Flake where
  st      : FlakeState
  cls     : FlakeClass
  tap     : Nat
  freq    : Nat
  /-- `FAFLAGS` (Table 6-12). -/
  flags   : Nat
  /-- The playing lane whose candidate an AF flake is. -/
  lane    : Nat
  meas    : Option Measures
  mtime   : Sid
  rds     : Rds
  /-- It has held synchronisation since assignment; deadline of its probe (R201). -/
  proven  : Bool
  probeBy : Nat
  /-- Consecutive censuses that found its carrier unoccupied. -/
  missed  : Nat
  chain   : FlakeChain
  window  : AudioWindow
  /-- Power of the carrier's band and of those at ±200 kHz in the window (R198). -/
  adj     : List Nat
  deriving DecidableEq, Repr

/-- One band tap and its census (R192, R199). -/
structure Tap where
  on       : Bool
  zone     : Nat
  /-- `TAP_FREQ` in mHz. -/
  freq     : Nat
  paused   : Bool
  /-- Its zone has reset and the tap has still to (R194). -/
  due      : Bool
  /-- Carriers found occupied by the last census, by rising frequency: Hz and 0.01 dBm. -/
  occupied : List (Nat × Int)
  time     : Sid
  /-- Deadline of the next census. -/
  censusBy : Nat
  /-- Carriers marked as having no RDS, with the censuses left. -/
  noRds    : List (Nat × Nat)
  /-- The tap's reset, its NCO, half-band and resampler chain, and its output, newest first (R192). -/
  resetAt  : Sid
  chain    : LaneChain
  out      : List ZoneSample
  deriving DecidableEq, Repr

/-- The Flurry bank. -/
structure Flurry where
  /-- `FLURRY_SET` payload in force, and the one that the next tick applies (Table 6-11). -/
  cfg     : Bytes
  cfgNext : Option Bytes
  taps    : List (Nat × Tap)
  /-- Flakes by number; one that is not listed is Free. -/
  flakes  : List (Nat × Flake)
  /-- Stream rings of `RDS_STREAM` with `RFILT`, by flake; 0 stands for all flakes (R214). -/
  rings   : List (Nat × (Nat × Nat))
  /-- Shedding holds Flurry at 128 active flakes (R204). -/
  shed    : Bool
  deriving DecidableEq, Repr

/-- One candidate of a playing lane (R205–R207). -/
structure AfCand where
  /-- Carrier in kHz. -/
  khz   : Nat
  /-- Its flake, if the request was served. -/
  flake : Option Nat
  run   : Nat
  /-- Its aligned delay in 1/256 sample (R271). -/
  delay : Option Int
  deriving DecidableEq, Repr

/-- How far a switch has come (R208, R209). -/
inductive AfPhase where
  | none
  /-- The spare has been started on the candidate; the deadline of pilot lock stands once it is Running. -/
  | spare (pilotBy : Option Nat)
  | fading (endBy : Nat)
  /-- The playing lane's audio ramps to mute until the given tick; then it retunes in place. -/
  | place (by_ : Nat)
  deriving DecidableEq, Repr

/-- AF following of one playing lane (Table 6-13). -/
structure Af where
  /-- `AF_SET` payload in force, and the one that the next tick applies. -/
  cfg      : Bytes
  next     : Option Bytes
  cands    : List AfCand
  lastSw   : Nat
  phase    : AfPhase
  /-- Candidate of the switch in progress in kHz, and its flags. -/
  target   : Nat
  panic    : Bool
  unalign  : Bool
  /-- Deadline of `AF_MODE` 0x3 (R211). -/
  gotoBy   : Nat
  deriving DecidableEq, Repr

/-! ## DAB and DRM (chapter 07) -/

/-- Ensemble states (Table 7-3). Holdover keeps the state before it. -/
inductive EnsState where
  | off
  | searching
  | coarse
  | synced
  | configured
  | holdover (was : Nat)
  deriving DecidableEq, Repr

/-- The OFDM demodulator of a full lane (Tables 7-3, 7-8 and 7-9). -/
structure Ofdm where
  /-- `OFDM_SET` payload in force (Table 7-8). -/
  cfg       : Bytes
  st        : EnsState
  /-- Deadline of `ACQ_TICKS`, and whether `EV_ENSEMBLE` cause 0x05 has been posted for this search (R222). -/
  acqBy     : Nat
  acqTold   : Bool
  mode      : Nat
  occupancy : Nat
  /-- Alarm flag of FIG 0/0. -/
  alFlag    : Bool
  /-- Last FIG 0/19 for cluster 0xFF with the alarm flag set, and with it clear (R241, R242). -/
  alarmAt   : Option (Sid × Nat)
  clearAt   : Option Sid
  /-- An alert candidate is open on this lane. -/
  alert     : Option Nat
  config    : Option MuxConfig
  /-- The next configuration that is announced, and whether one is. -/
  next      : Option MuxConfig
  reconf    : Bool
  /-- Consecutive good FAC blocks with the same parameters, and SDC received (R229). -/
  facRun    : Nat
  sdcDone   : Bool
  confTime  : Sid
  frameTime : Sid
  cif       : Nat
  losses    : Nat
  meas      : Option OfdmMeasures
  mTime     : Sid
  /-- Announcements under way: cluster and other-ensemble flag (R244). -/
  anns      : List (Nat × Bool × Nat)
  /-- Stream bindings: ring and byte 1, byte 2 of the command (R254). -/
  fic       : Option (Nat × Nat)
  pad       : Option (Nat × Nat)
  subch     : Option (Nat × Nat × Nat)
  /-- Records per kind since binding, and kinds with lost records (Table 7-13). -/
  recSeq    : List (Nat × Nat)
  recGap    : List Nat
  /-- The last record formed (Table 7-13). -/
  record    : Bytes
  /-- The combined symbols of the latest transmission frame; an erased one has no carriers (R132, R135, R226). -/
  cells     : List (List Cx)
  /-- `OFDM_SET` payload that the next frame applies (R252); the integer carrier offset found (R220); FIG 0/0 and the subchannels of
  FIG 0/1 received (R228); the CIF count of the occurrence change; consecutive FAC blocks with a CRC error. -/
  cfgNext   : Option Bytes
  offset    : Int
  fig00     : Bool
  subchs    : List Nat
  nextCif   : Nat
  facBad    : Nat
  deriving DecidableEq, Repr

/-- Service states (Table 7-7). -/
inductive SvcState where
  | waiting
  | filling
  | playing
  | muted
  deriving DecidableEq, Repr

/-- A service started on a lane (Table 7-7). -/
structure Service where
  lane      : Nat
  sid       : Nat
  comp      : Nat
  conceal   : Nat
  st        : SvcState
  /-- Deadline of `SVC_TICKS` while Waiting. -/
  by_       : Nat
  /-- The service's description in the configuration that it plays from. -/
  info      : Option ServiceInfo
  errRun    : Nat
  goodRun   : Nat
  concealed : Nat
  meas      : Option ServiceMeasures
  /-- End of the last PCM sample written. -/
  lastPcm   : Sid
  deriving DecidableEq, Repr

/-- The analysis of a survey lane (Table 7-14). -/
structure Survey where
  /-- `SURVEY_SET` payload in force. -/
  cfg    : Bytes
  /-- Entries of the last completed TII analysis and the end of its average. -/
  tii    : Option (List TiiEntry)
  tiiEnd : Sid
  /-- Tick of the next spectrum record (R248). -/
  nextBy : Nat
  recSeq : List (Nat × Nat)
  recGap : List Nat
  record : Bytes
  deriving DecidableEq, Repr

/-! ## Linking, alignment, blend, equaliser and time shift (chapter 08) -/

/-- One entry of the link table (Table 8-9). -/
structure LinkEntry where
  set    : Nat
  std    : Nat
  origin : Nat
  ident  : Nat
  freq   : Nat
  ecc    : Nat
  hard   : Bool
  active : Bool
  ils    : Bool
  time   : Sid
  /-- Deadline of `L_AGE` for a broadcast entry, and its place in the order of receipt. -/
  ageBy  : Nat
  order  : Nat
  /-- A broadcast set's (LSN, ILS, ensemble) (R259). -/
  key    : Option (Nat × Bool × Nat)
  deriving DecidableEq, Repr

/-- The link table (R258–R260). -/
structure Links where
  /-- `LINK_CONFIG` payload in force, and the one that the next tick applies. -/
  cfg       : Bytes
  cfgNext   : Option Bytes
  entries   : List (Nat × LinkEntry)
  nextOrder : Nat
  deriving DecidableEq, Repr

/-- One equaliser bank: pre-gain and the sections that were loaded; a section that is not listed is pass-through (R281). -/
structure Bank where
  pre  : Nat
  secs : List (Nat × Bytes)
  /-- Last two inputs and outputs of a section and channel, by 2 · section + channel. -/
  hist : List (Nat × List Int)
  deriving DecidableEq, Repr

/-- One sample of the time-shift store: its output time, left and right, and whether it was lost (R286). -/
structure TsSample where
  time  : Sid
  left  : Int
  right : Int
  lost  : Bool
  deriving DecidableEq, Repr

/-- One programme path (R256). -/
structure Path where
  /-- `BLEND_SET` payload in force, and the one that the next tick applies (Table 8-5). -/
  blend     : Bytes
  blendNext : Option Bytes
  /-- Its source delivers PCM, and the 24-bit, 48 kHz samples written last, left and right. -/
  pcm       : Bool
  input     : List (Int × Int)
  /-- The samples of the source's last good unit (R236), the delay line, newest first, and the output of the last tick. -/
  prev      : List (Int × Int)
  line      : List (Int × Int)
  out       : List (Int × Int)
  /-- Output samples left of the cross-fade between banks (R283). -/
  bankFade  : Nat
  /-- Time of the last change of δ other than by tracking (R268). -/
  setAt     : Sid
  /-- K and tick at which the delay change under way began (R264). -/
  kFrom     : Int
  kTick     : Nat
  /-- The last 512 output samples with their output times, newest first, for the ports and the exciter. -/
  past      : List TsSample
  /-- Samples of the time-shift store, newest first. -/
  store     : List TsSample
  /-- Air lag of its source and path delay δ, in 1/256 sample. -/
  lag       : Int
  delta     : Int
  /-- Output constant K of the path, or of the group that it heads, and the K that a delay change goes to. -/
  k         : Int
  kGoal     : Int
  /-- A delay change is under way; one has fallen due during a fade. -/
  changing  : Bool
  deferred  : Bool
  /-- Pool pages and time-shift pages held. -/
  pages     : Nat
  tsPages   : Nat
  /-- Output time from which the time-shift store holds samples. -/
  tsFrom    : Sid
  bankA     : Bank
  bankB     : Bank
  /-- Bank B is in use. -/
  useB      : Bool
  /-- The bank that a pending swap selects, and the tick count before which it may not take effect. -/
  swap      : Option Bool
  swapBy    : Nat
  /-- Tick counts 32 ticks after the last load of banks A and B (R283). -/
  readyA    : Nat
  readyB    : Nat
  deriving DecidableEq, Repr

/-- Member alignment states (Table 8-2). -/
inductive Align where
  | unaligned
  | searching
  | aligned
  | holding
  | noMemory
  deriving DecidableEq, Repr

/-- One member of a follow group (Table 8-7). -/
structure Member where
  path    : Nat
  align   : Align
  /-- Coarse lag accepted: fine measurement runs. -/
  fine    : Bool
  lag     : Int
  drift   : Int
  corr    : Nat
  gain    : Int
  invert  : Bool
  /-- Consecutive coarse windows without acceptance, with cause 0x14 told; failed and large measurements (R269). -/
  coarse  : Nat
  told    : Bool
  fails   : Nat
  big     : Nat
  /-- Deadline of Holding. -/
  holdBy  : Nat
  /-- Windows in a row in which it qualifies (R276), and the tick at which it became Aligned. -/
  run     : Nat
  since   : Nat
  /-- Start of the coarse window under way (R267). -/
  winAt   : Sid
  deriving DecidableEq, Repr

/-- A group fade (R277–R280). -/
structure Fade where
  from_   : Nat
  to_     : Nat
  unalign : Bool
  panic   : Bool
  byNow   : Bool
  /-- Start and end in Sidereal units. -/
  start   : Sid
  stop    : Sid
  reversed : Bool
  /-- Output samples of the fade that have been given: a reversed fade counts them back (R277, R279). -/
  pos      : Nat
  deriving DecidableEq, Repr

/-- A follow group (Table 8-6), under its head path. -/
structure Group where
  cfg     : Bytes
  members : List Member
  /-- The active member; none while the output is muted. -/
  active  : Option Nat
  fade    : Option Fade
  last    : Nat
  fades   : Nat
  /-- `BLEND_NOW` to carry out at the next tick boundary: member and whether it is unaligned. -/
  blendTo : Option Nat
  /-- `FOLLOW_SET` payload that waits for the fade to end, or that dissolves the group then. -/
  held    : Option Bytes
  deriving DecidableEq, Repr

/-! ## Serial audio ports (chapter 09) -/

/-- Port states (Table 9-7). -/
inductive SapState where
  | off
  | waiting
  | running
  | clockLost
  | remeasuring
  deriving DecidableEq, Repr

/-- One serial audio port (Tables 9-7 and 9-9 to 9-11). -/
structure Sap where
  st       : SapState
  /-- `SAP_SET` payload in force, with the masks in force. -/
  cfg      : Bytes
  /-- `SAP_ROUTE` payload in force. -/
  route    : Bytes
  /-- Pending settings of `SAP_MASK_SET` and `SAP_ROUTE` (R302). -/
  maskPend  : Option Bytes
  routePend : Option Bytes
  /-- Two bit clocks after the port island acknowledged each of them: the first frame start from then on applies it. -/
  maskFrom  : Sid
  routeFrom : Sid
  /-- Deadline of 3200 ticks in Waiting, and whether it has passed. -/
  waitBy   : Nat
  waitTold : Bool
  /-- A stop at a frame end is under way towards Waiting or Off; the settings that follow it. -/
  stopTo   : Option Bytes
  /-- End of the ramp down ahead of that stop. -/
  stopAt   : Sid
  /-- Start of the last ramp of the outputs, and whether it rises (R306, Table 9-7). -/
  rampAt   : Sid
  rampUp   : Bool
  cause    : Nat
  /-- Measured frame rate and reference rate, in mHz. -/
  rate     : Nat
  refRate  : Nat
  glitches : Nat
  frameErr : Nat
  slipDrop : Nat
  slipRep  : Nat
  losses   : Nat
  underrun : Nat
  /-- Tick count until which the last underrun counts against a play ring (R329). -/
  dryBy    : Nat
  last     : Sid
  /-- Time of the rate change that is being measured, end of the cross-fade of R305, the rate at the old ratio, and how far reading
  at the old ratio lies behind, in 1/256 of a 48 kHz frame. -/
  remeasAt : Sid
  fadeTo   : Sid
  oldRate  : Nat
  drift    : Int
  /-- Slip mode (R299): number of the 48 kHz sample that the output FIFO gave last, and of the newest frame in the input FIFO. -/
  rd       : Nat
  inWr     : Nat
  /-- A glitch has spoilt the frame in progress (Table 9-6). -/
  dropped  : Bool
  /-- The rate is to be measured afresh at the resume (R306). -/
  afresh   : Bool
  cap      : Option Nat
  play     : Option Nat
  /-- Header of the next capture block (Table 9-5): sequence, flags and gap; frames so far in the block in progress. -/
  pSeq     : Nat
  pFlags   : Nat
  pGap     : Nat
  pFrames  : Nat
  pTime    : Sid
  /-- Words of the block in progress (R300), and header of the last capture block. -/
  pData    : Bytes
  header   : Bytes
  /-- FSYNC and SDO in each bit clock of the last frame, SDO none while high-impedance (R291, R292). -/
  lines    : List (Bool × Option Bool)
  /-- BCLK periods of that frame in channel periods, of a bit-clock controller (R295). -/
  bclk     : List Nat
  /-- The slots `FEED_L` and `FEED_R` of the last 512 input frames, newest first, with their frame starts. -/
  feed     : List TsSample
  /-- Progress in the play block under way. -/
  playIn   : PlayIn
  deriving DecidableEq, Repr

/-! ## Firn (chapter 12) -/

/-- `FIRN_STATE` (Table 12-7). -/
inductive FirnState where
  | off
  | armed
  | triggered
  | frozen
  | loading
  | loaded
  | replaying
  deriving DecidableEq, Repr

/-- One chunk of the data area: its header and its payload (Table 12-1).
Log: 118 (DEDUCED). -/
structure Chunk where
  source : Nat
  kind   : Nat
  flags  : Nat
  len    : Nat
  index  : Nat
  time   : Sid
  count  : Nat
  data   : Bytes
  deriving DecidableEq, Repr

/-- A run of samples of a recorded zone: the index and the time of the first (R361). -/
structure ZoneRun where
  index : Nat
  time  : Sid
  data  : List ZoneSample
  deriving DecidableEq, Repr

/-- One entry of the event tape (R362, Table 12-2). -/
structure TapeEntry where
  kind    : Nat
  seq     : Nat
  time    : Sid
  payload : Bytes
  deriving DecidableEq, Repr

/-- Firn (Tables 12-4 to 12-7). -/
structure Firn where
  st       : FirnState
  /-- `FIRN_ARM` payload in force (Table 12-6). -/
  cfg      : Bytes
  /-- Chunks held, oldest first, and their bytes; the event tape, oldest first, and its bytes. -/
  chunks   : List Chunk
  held     : Nat
  tape     : List TapeEntry
  tapeLen  : Nat
  tapeSeq  : Nat
  /-- The data area has been filled once since arming. -/
  filled   : Bool
  cause    : Nat
  trigTime : Sid
  /-- Bytes written for sample times after the trigger (R368). -/
  post     : Nat
  prefill  : Bool
  survived : Bool
  byReset  : Bool
  gaps     : Bool
  recEnd   : Sid
  /-- Per zone source, the index of its next sample since arming and the chunk under way; chunks formed and not yet written, oldest
  first; per source, the gap of an interruption that goes on, and that of chunks that were denied (R366). -/
  next     : List (Nat × Nat)
  runs     : List (Nat × ZoneRun)
  wait     : List Chunk
  open_    : List (Nat × Chunk)
  denied   : List (Nat × Chunk)
  /-- Zone sources that the shed ladder has stopped. -/
  shed     : List Nat
  /-- Power of `LVL_ZONE` summed over the samples of this tick, and their number; whether the last mean was above the threshold;
  the boundary of its last crossing (Table 12-3). -/
  lvlSum   : Nat
  lvlN     : Nat
  above    : Option Bool
  crossAt  : Sid
  /-- Per cause, the point up to which occurrences have been looked at. -/
  seen     : List (Nat × Nat)
  /-- Rates and conditioners since arming, newest first. -/
  rates    : List (Sid × Nat × Nat)
  /-- Header of the container frozen or loaded, and its bytes streamed so far (R374). -/
  header   : Bytes
  sent     : Nat
  /-- The present replay: its feed has begun, the recorded time scale ahead of Sidereal, tape entries and chunks still to come,
  zone samples still to come, and sources with a gap since the last checkpoint (R376–R378). -/
  rpOn     : Bool
  rpShift  : Int
  rpTape   : List TapeEntry
  rpChunks : List Chunk
  rpRuns   : List (Nat × ZoneRun)
  rpGaps   : List Nat
  rpRing   : Nat
  rpFrom   : Nat
  rpAlerts : Nat
  bad      : Nat
  firstBad : Sid
  deriving DecidableEq, Repr

/-! ## Values after reset -/

/-- `n` bytes of zero. -/
def zeros (n : Nat) : Bytes := List.replicate n 0

def Commands.reset : Commands :=
  { list := [], nextSeq := 0, completed := 0, served := [], budget := 0, nextRing := 0, internal := 0 }

def Mailbox.reset : Mailbox :=
  { cmdWin := zeros 128, submit := none, copied := [], queue := [], overflow := false, owner := 0,
    signal := false, attn := false }

def Events.reset : Events := { windows := [], urgent := [], nextId := 0, ticks := [], pending := [] }

def Vlog.reset : Vlog := { total := 0, fill := 0, newest := 0, any := false, sel := 0, entries := [] }

def I2c.reset : I2c :=
  { st := .idle, page := 0, pointer := 0, pend := [], sda := 0, stretch := false, holding := false, nacks := 0, lastReq := 0, met := false }

/-- Table 15-4 with the straps all low: `ATTN_MODE` 0b01, `LEG_EN` 0, address 0x58. -/
def HostCfg.reset : HostCfg :=
  { filter := 1, attnMode := 1, ibrHold := 10, ibrRepeat := 10, ctrlAddr := 0, ctrlRetry := 3, ctrlSpeed := 1,
    legEn := false, mbxVector := 0, mbxIrqEn := false, i2cAddr := 0x58, ctrlFail := false,
    collisions := 0, stuck := 0 }

def Legacy.reset : Legacy :=
  { cmd := 0, lane := 0, cts := true, err := false, lErr := 0, arg := zeros 60, resp := zeros 128, start := false,
    seq := [] }

/-- All vectors masked, as the PCI Express Base Specification resets them (PRESUMED).
Log: 18 (PRESUMED). -/
def Pcie.reset : Pcie :=
  { up := false, speed := 0, width := 0, d3 := false, flrCount := 0, dmaErrors := 0, corrErrors := 0, txBytes := 0,
    rxBytes := 0, linkTime := 0, msixEn := false,
    msixTable := (List.replicate 64 ([0,0,0,0, 0,0,0,0, 0,0,0,0, 1,0,0,0] : Bytes)).flatten, pba := 0, sent := [], unsupp := 0 }

def UdpStream.reset : UdpStream :=
  { cfg := zeros 32, seq := 0, active := false, deadline := 0, buffer := [], frames := [], gap := false,
    startAt := 0, arrivals := [], line := [], pos := 0, count := 0, play := [], outNo := 0, sent := [] }

def Eth.reset : Eth :=
  { link := false, speedBad := false, rxFrames := 0, txFrames := 0, rxErrors := 0, tsRx := 0, tsTx := 0,
    rxMissing := 0, rxLate := 0, sfnIncomp := 0, linkTime := 0, cfg := zeros 48, streams := [], reasm := [] }

def AudioChannel.reset : AudioChannel := { powered := false, users := [], downBy := 0 }

/-- A loop that has never locked. -/
def PllLoop.reset : PllLoop := { dev := 0, hist := [], frozen := 0, build := 0, since := 0 }

/-- REFIN at 38.4 MHz, conditioners ×1, `QUAL_TICKS` 2 (R72, R73).
Log: 36 (DESIGN CHOICE). -/
def Clocks.reset : Clocks :=
  { state := .unlocked, cause := 0, cfg := [0, 0, 0x00, 0x96, 0, 0, 0, 2], xtal := false, lock := 0, heldLock := 0,
    sclkHz := 0, lockPoint := 0,
    lockCfg := List.replicate 5 (20, 4096), lockUsed := List.replicate 5 (20, 4096), mclk := [], sclkMode := 0, refoutOn := false,
    refoutKhz := 0, ppsMode := 0, ppsWidth := 100000, ppsHigh := false, ppsEnd := 0, ppsSkipped := 0, glitches := 0,
    recent := [], holdCount := 0, loops := List.replicate 5 PllLoop.reset, refDev := 0,
    refHist := [], xoHist := [], xoAvg := 0, acqFrom := 0, qualBy := 0, silent := false,
    a48 := AudioChannel.reset, a44 := AudioChannel.reset }

/-- `TIME_SRC_SET` defaults of Table 11-4: source none, `TIME_SLEW` 50, `JUMP_CONFIRM` 4, `JUMP_NS` 1000,
`LOSS_TICKS` 0, `RETURN_SAMPLES` 8, `SERVO_MHZ` 50, `PPS_DELAY_NS` 0. -/
def timeSrcDefault : Bytes := [0, 0, 50, 4, 0xE8, 0x03, 0, 0, 0, 0, 0, 0, 8, 0, 50, 0, 0, 0, 0, 0]

/-- `PTP_SET` defaults of Table 11-5: off, `ANNOUNCE_TMO` 3, priorities 128, `PTP_SELECT` 4, the rest 0. -/
def ptpDefault : Bytes := [0, 0, 0, 0, 0, 0, 3, 0, 128, 128, 4, 0, 0, 0, 0, 0]

def Sidereal.reset : Sidereal :=
  { running := false, now := 0, next := 20480000000, bound := 0, ticks := 0, scaleFrom := 0, cycles := 0, rest := 0, st := .unset, valid := false, isSet := false,
    cfg := timeSrcDefault, ptp := ptpDefault, master := false, portState := 0, gm := 0, utc := 0, pathDelay := 0, syncTook := 0,
    reqSent := 0, classSent := 0, origin := 0, outliers := 0, inRow := 0, good := 0, group := [], offset := 0, refusedAt := 0, rFreq := 0, rPhase := 0,
    rHist := [], lastSample := 0, steps := 0, coastFrom := 0, slewing := false, suspended := false, lossBy := 0,
    stepReqs := [], slewReq := none }

def Meridian.reset : Meridian := { slots := [], releases := 0, lates := 0, nextSeq := 0 }

/-- `POLARIS_SET` defaults of Table 13-8: nothing designated, `SELFTEST_AUTO` set, `ST_PERIOD_H` 24. -/
def polarisDefault : Bytes := [0, 0, 0, 0, 0xFF, 0xFF, 0xFF, 0xFF, 0xFF, 0xFF, 0xFF, 0xFF, 0x02, 24, 0, 0]

def Polaris.reset : Polaris :=
  { cfg := polarisDefault, safe := false, safeCause := 0, alertN := false, faultN := true, halted := false,
    resetOnly := false, refusal := false, selfFail := false, thermHold := false, present := [], openAlerts := [],
    cleared := false, held := false, heldLevel := false, resetId := 0, reports := [], candidates := 0, confirmed := 0, mismatches := 0, ignored := 0,
    hbMisses := 0, warnings := 0, safeTime := 0, lastSelftest := 0, missed := [], skips := 0, eccCount := 0 }

/-- Log: 143 (DESIGN CHOICE), 144 (DEDUCED). -/
def Power.reset : Power :=
  { state := .thaw, trans := .none, reqAval := false, boost := false, boostSpent := false, boostUsed := 0, boostLeft := 0,
    brownout := false, cause := 1, buStep := 2, buFault := 0, tj := 0, tjMax := 0, vin := 0, iin := 0, ilim := 40,
    boMin := 0, boDur := 0, boCount := 0, boTime := 0, wakeMask := 0, wakeS := 0,
    straps := { addr := 0, modeLeg := false, xtalSel := false }, resetPend := false, owner := none, waiting := [],
    shut := false, vioHigh := false }

def Thermal.reset : Thermal :=
  { warn := false, actions := [], thermDem := 0, powerDem := 0, lastTj := 0, lastCheck := 0, lastAct := 0, powerAt := 0, coolFrom := none,
    lowFrom := none, exhausted := false, thermSheds := 0, powerSheds := 0 }

/-- A marker sector that holds no valid record. -/
def Marker.blank : Marker := { gen := 0, slot := 0, crc := 0, valid := false }

/-- Flash as delivered with an image in slot A and its record in M0 (DESIGN CHOICE).
Log: 143 (DESIGN CHOICE). -/
def Firmware.reset : Firmware :=
  { st := .idle, active := 0xFF, fallback := false, last := 0, lastStep := 0, lastTime := 0,
    m0 := { gen := 1, slot := 0, crc := 0, valid := true }, m1 := Marker.blank, buildA := 1, buildB := 0,
    bytes := 0, crc := 0, written := 0, image := [], activate := false, newBuild := 0, suspended := false }

/-- `PANEL_SET` defaults of Table 16-3. -/
def panelDefault : Bytes := [0, 0, 0x40, 20, 50, 10, 0, 4, 0, 1, 0, 0]

def Panel.reset : Panel :=
  { cfg := panelDefault, pending := none, keys := 0, plugs := 0, ptt := false, withheld := [], dropped := 0,
    enc0 := 0, enc1 := 0, part0 := 0, part1 := 0, net0 := 0, net1 := 0, first0 := 0, first1 := 0, encErrs := 0,
    queue := [], irqN := false, pttFree := false }

/-- A group of which no block has come: zeros of class 3 (R189). -/
def RdsGroup.empty : RdsGroup :=
  { a := 0, b := 0, c := 0, d := 0, errA := 3, errB := 3, errC := 3, errD := 3, cPrime := false, slew := false, blank := false }

def LevelWindow.reset : LevelWindow := { power := 0, count := 0, blank := 0, clip := false }

def DemodChain.reset : DemodChain :=
  { hist := [], prev := ⟨0, 0⟩, phase := 0, word := 0, low := ⟨0, 0⟩, mpx := [], diff := [], amps := [], mean := 0,
    deem := (0, 0), cutL := [], cutR := [], audio := [], pos := 0 }

def AudioWindow.reset : AudioWindow :=
  { level := LevelWindow.reset, sumD := 0, maxD := 0, minD := 0, sumA := 0, sumA2 := 0, pilot := ⟨0, 0⟩, usn := 0, mp := 0,
    pll := 0, pts := [] }

def FlakeChain.reset : FlakeChain :=
  { bins := List.replicate 3 ⟨0, []⟩, prev := ⟨0, 0⟩, count := 0, mpx := [], mixed := [], rds := [], lr := [], pos := 0 }

/-- A chain after a synchronising reset with `n` half-band stages (R157); the NCO runs on. -/
def LaneChain.fresh (n phase : Nat) : LaneChain :=
  { phase := phase, stages := List.replicate n ⟨[], false⟩, hist := [], pos := 0, blank := 0, clip := 0, count := 0 }

def Rds.reset : Rds :=
  { sync := false, resync := false, groups := 0, syncLoss := 0, seen := [], acc := [], piTick := none, afPart := [],
    afCount := 0, afLast := [], afList := [], ctTime := 0, rtFlag := false, rtPlus := none, rtTags := zeros 6, ptyRun := 0,
    otherRun := 0, last9A := none, alert := false, taRun := 0, taOff := 0, taOn := false, eonRun := 0, eonOff := 0,
    eonOn := false, eonPi := 0, record := [], pos := 0, part := RdsGroup.empty, begun := none, badRun := 0, past := [],
    eBlocks := 0 }

/-- Table 6-6 defaults; `PROG` 0xFF, none (DESIGN CHOICE).
Log: 75 (DESIGN CHOICE). -/
def amDefault : Bytes := [0xFF, 2, 2, 0, 20, 20, 0, 0]

/-- Table 6-7 defaults; `PROG` 0xFF, none (DESIGN CHOICE).
Log: 75 (DESIGN CHOICE). -/
def fmDefault : Bytes := [0xFF, 0, 1, 2, 30, 60, 30, 10, 20, 40, 1, 10, 40, 0xEC, 0xC4, 40, 5, 0, 0, 0]

/-- Full stereo, no mute, 15 kHz: nothing has worsened yet. -/
def Demod.reset : Demod :=
  { am := amDefault, fm := fmDefault, amNext := none, fmNext := none, carrier := false, pilot := false, meas := none,
    q := 0, qTime := 0, sep := 0, mute := 0, hicut := 150000, rds := Rds.reset, rdsRing := none, inRun := 0, outRun := 0, fade := 0,
    chain := DemodChain.reset, window := AudioWindow.reset }

def Flake.reset : Flake :=
  { st := .free, cls := .pinned, tap := 0, freq := 0, flags := 0, lane := 0, meas := none, mtime := 0, rds := Rds.reset,
    proven := false, probeBy := 0, missed := 0, chain := FlakeChain.reset, window := AudioWindow.reset, adj := [0, 0, 0] }

def Tap.reset : Tap :=
  { on := false, zone := 0, freq := 0, paused := false, due := false, occupied := [], time := 0, censusBy := 0, noRds := [],
    resetAt := 0, chain := LaneChain.fresh 3 0, out := [] }

/-- Table 6-11 defaults; `CENSUS_EN`, `GRID` and `FLK_BW` 0 (DESIGN CHOICE).
Log: 75 (DESIGN CHOICE). -/
def flurryDefault : Bytes := [0, 0, 0x9C, 20, 0x80, 0x0C, 0x2E, 0x22, 0x30, 0x2A, 60, 1, 0, 0, 0, 0]

def Flurry.reset : Flurry :=
  { cfg := flurryDefault, cfgNext := none, taps := [], flakes := [], rings := [], shed := false }

/-- Table 6-13 defaults, off. -/
def afDefault : Bytes := [0, 0xFF, 8, 10, 3, 10, 0x80, 0x0C, 6, 0, 0, 0, 0, 0, 0, 0, 0, 0, 0, 0]

def Af.reset : Af :=
  { cfg := afDefault, next := none, cands := [], lastSw := 0, phase := .none, target := 0, panic := false, unalign := false,
    gotoBy := 0 }

def Links.reset : Links := { cfg := [7, 0, 0x58, 2, 0, 0, 0, 0], cfgNext := none, entries := [], nextOrder := 0 }

/-- A pass-through bank (R281): pre-gain 1 in Q4.28. -/
def Bank.reset : Bank := { pre := 0x10000000, secs := [], hist := [] }

/-- Table 8-5 defaults. -/
def blendDefault : Bytes := [12, 0, 1, 2, 10, 10, 30, 1, 0, 0, 0, 0]

/-- `AF_RESERVE_MS` 10 is the output constant of a path that heads no group: 480 samples (R264). -/
def Path.reset : Path :=
  { blend := blendDefault, blendNext := none, pcm := false, input := [], prev := [], line := [], out := [], bankFade := 0, setAt := 0,
    kFrom := 0, kTick := 0, past := [], store := [], lag := 0, delta := 122880, k := 122880, kGoal := 122880,
    changing := false, deferred := false, pages := 0, tsPages := 0, tsFrom := 0, bankA := Bank.reset,
    bankB := Bank.reset, useB := false, swap := none, swapBy := 0, readyA := 0, readyB := 0 }

/-- Table 7-8 defaults. -/
def ofdmDefault : Bytes := [0, 10, 0, 0, 0, 0, 0x0F, 0]

def Ofdm.reset : Ofdm :=
  { cfg := ofdmDefault, st := .off, acqBy := 0, acqTold := false, mode := 0, occupancy := 0, alFlag := false,
    alarmAt := none, clearAt := none, alert := none, config := none, next := none, reconf := false, facRun := 0,
    sdcDone := false, confTime := 0, frameTime := 0, cif := 0, losses := 0, meas := none, mTime := 0, anns := [],
    fic := none, pad := none, subch := none, recSeq := [], recGap := [], record := [], cells := [],
    cfgNext := none, offset := 0, fig00 := false, subchs := [], nextCif := 0, facBad := 0 }

def Survey.reset : Survey := { cfg := zeros 16, tii := none, tiiEnd := 0, recSeq := [], recGap := [], record := [], nextBy := 0 }

/-- Table 4-10 defaults; AGC automatic and the input powered (DESIGN CHOICE: Table 4-10 gives no default for `AGC_MODE`,
`ATT_DB`, `LNA_DB` and `ENABLE`; the generation-1 sequences receive with no `ANT_SET`).
Log: 49 (DESIGN CHOICE). -/
def antDefault : Bytes := [1, 0, 0, 12, 0xF1, 2, 4, 6, 32, 3, 1, 0]

/-- Log: 49 (DESIGN CHOICE). -/
def Ant.reset : Ant :=
  { cfg := antDefault, g := 0, att := 12, lna := 12, composite := 0, clips := 0, agcSteps := 0, blanks := 0, lowTicks := 0,
    lockout := 0, ovlTick := false, ovlRun := 0, ovlTold := false, biasCfg := [0, 10, 3, 0, 0x80, 0x0C, 0, 0],
    bias := .off, biasCur := 0, retries := 3, biasBy := 0, calState := 0, calTemp := 0, calTime := 0, calDtemp := 5,
    calPeriod := 600, spotAsked := false, spotBy := 0, spotEnd := none, spotHold := 0, cal := [], gRef := 0, calFrom := 0, spotOff := (0, 0),
    sumSq := 0, sumN := 0, inter := [] }

/-- Log: 180 (DESIGN CHOICE). -/
def Rf.reset : Rf :=
  { ants := [(0, Ant.reset), (1, Ant.reset), (2, Ant.reset), (3, Ant.reset)],
    blank := [0, 0, 0, 0, 0, 0, 0xE8, 0x03], blankBall := false, blankOn := false, blankBy := 0, blankCut := false,
    spans := [], latches := [] }

/-- Table 4-16 defaults; `FS_MAN_KHZ` 3 200 000 and `COND_MAN` ×1 (R119).
Log: 50 (DESIGN CHOICE). -/
def auroraDefault : Bytes :=
  [2, 25, 10, 0xCE, 3, 0, 0x80, 0x0C, 0x00, 0xD4, 0x30, 0x00, 0, 50, 0x4A, 0x06, 0x80, 0x0C, 0, 0, 0, 0, 0, 0]

def Aurora.reset : Aurora :=
  { cfg := auroraDefault, cfgNext := none, st := .stable, goal := 0, slewFrom := 0, slewSteps := 0, slewIdx := none, slewEnd := 0,
    pend := none, approved := false, deferred := false, trigger := false, asked := false, rescan := false, strong := [], holdUntil := 0, plans := 0, lastChg := 0,
    scanBy := 0 }

/-- Histories and phases of zero (R157). -/
def ZoneChain.reset : ZoneChain := { phase := 0, stages := [⟨[], false⟩, ⟨[], false⟩, ⟨[], false⟩], blank := 0, clip := 0 }

def Zone.reset : Zone := { st := .off, freq := 0, marks := 0, resetAt := 0, chain := ZoneChain.reset }

def Lane.reset : Lane :=
  { st := .idle, cfg := zeros 24, div := [0, 10, 0x0F, 0], freq := 0, stages := 0, outRate := 0, settleLast := 0,
    suppressed := 0, saturated := 0, gaps := 0, resets := 0, lastSync := 0, resetAt := 0, byCmd := false, satBy := 0, shed := false,
    blkSeq := 0, sync := false, gap := false, change := none, restage := false, start := false, blkGap := 0,
    header := [], chains := [], out := [], outNext := 0, past := [], window := LevelWindow.reset, noise := [], selected := 0, crc := 0xFFFFFFFF#32, divNext := none }

/-- Off, with no feed and silent slots (DESIGN CHOICE: no reset value is given for the route).
Log: 94 (DESIGN CHOICE). -/
def Sap.reset : Sap :=
  { st := .off, cfg := zeros 16, route := [0xFF, 0xFF] ++ zeros 34, maskPend := none, routePend := none, maskFrom := 0, routeFrom := 0,
    waitBy := 0, waitTold := false, stopTo := none, stopAt := 0, rampAt := 0, rampUp := false, cause := 0, rate := 0, refRate := 0, glitches := 0, frameErr := 0, slipDrop := 0,
    slipRep := 0, losses := 0, underrun := 0, dryBy := 0, last := 0, remeasAt := 0, fadeTo := 0, oldRate := 0, drift := 0,
    rd := 0, inWr := 0, dropped := false, afresh := false, cap := none, play := none, pSeq := 0, pFlags := 0, pGap := 0, pFrames := 0, pTime := 0, pData := [],
    header := [], lines := [], bclk := [], feed := [], playIn := ⟨0, 0, 0⟩ }

def Firn.reset : Firn :=
  { st := .off, cfg := zeros 32, chunks := [], held := 0, tape := [], tapeLen := 0, tapeSeq := 0, filled := false,
    cause := 0, trigTime := 0, post := 0, prefill := false, survived := false, byReset := false, gaps := false,
    recEnd := 0, next := [], runs := [], wait := [], open_ := [], denied := [], shed := [], lvlSum := 0, lvlN := 0, above := none,
    crossAt := 0, seen := [], rates := [], header := [], sent := 0, rpOn := false, rpShift := 0, rpTape := [], rpChunks := [], rpRuns := [],
    rpGaps := [], rpRing := 0, rpFrom := 0,
    rpAlerts := 0, bad := 0, firstBad := 0 }

/-- Table defaults of chapter 10; level −40.0 dBm before the first `TX_LEVEL_SET` (DESIGN CHOICE).
Log: 105 (DESIGN CHOICE), 113 (DESIGN CHOICE). -/
def Tx.reset : Tx :=
  { st := .off, entry := none, locked := false, tuned := false, ftx := 0, tuneBy := 0, tuneLate := false,
    synthBy := none, coexBy := 0, byTune := false, fm := none, dab := none, level := [0x70, 0xFE, 10, 0, 10, 10, 0, 0],
    sfn := [0, 0, 0, 0, 0, 0, 0, 0, 0, 0, 60, 0, 100, 0, 0, 0],
    brk := [0, 0, 0, 0, 0, 0xFF, 0xFF, 20, 0, 0, 0xFF, 0, 0, 0, 0, 0], coex := [0, 32, 0, 0, 0, 0, 0, 0],
    gnt := false, gntAt := 0, req := false, pri := false, paEn := false, stopping := false, muteBrown := false,
    muteGrant := false, muteFrame := false, muteTime := false, muteCause := 0, resume := 0, ptt := false, ta := false, host := none,
    rank := 0, brkOwn := false, refused := [], since := 0, delayUs := 0, sfnMiss := 0, dutyClock := 0, duty := [], dutyFrom := 0, contFrom := 0,
    restUntil := 0, gridFrom := 0, ramp := ⟨0, 0, 0, 0⟩, stopAt := 0, muteAt := 0, src := ⟨0, 0⟩, srcFrom := ⟨0, 0⟩, fadePos := 0, brkFrom := 0, dueAt := none,
    playIn := ⟨0, 0, 0⟩, dryBy := 0, line := [], fmMod := ⟨(0, 0), [], 0, 0, [], false, 0, false⟩, mpx := [], frame := 0, fic := [],
    audio := [], ahead := [] }

def TxMon.reset : TxMon := { last := zeros 32, breaches := 0, content := 0, told := false, faults := 0, fibMiss := 0 }

def Reg.reset : Reg :=
  { slots := [], locked := false, staged := [], commit := false, last := 0, gen := 0, image := [], next := false, nextBy := 0 }

/-- The whole block: the waiting commands and every piece of state that the spec gives the device. -/
structure State where
  /-- Commands that wait, first in, first out. -/
  pending : List Instr
  /-- Sidereal and the ticks (chapter 11). -/
  sid : Sidereal
  /-- Commands in flight (chapter 02). -/
  cmds : Commands
  /-- Rings by number, rising (R49). -/
  rings : List (Nat × Ring)
  /-- Host memory windows by index, rising (R57). -/
  wins : List (Nat × Window)
  /-- Page 0x01, the mailbox (Table 2-12). -/
  mbx : Mailbox
  /-- Events that wait to be posted (R24, R25). -/
  ev : Events
  /-- Page 0x03, the violation log (Table 2-15). -/
  vlog : Vlog
  /-- The I²C target (Table 15-3). -/
  i2c : I2c
  /-- Page 0x02, host-link configuration (Table 15-4). -/
  hcfg : HostCfg
  /-- Page 0x10, generation-1 registers (Table 17-23). -/
  leg : Legacy
  /-- The PCIe endpoint. -/
  pcie : Pcie
  /-- The SGMII port. -/
  eth : Eth
  /-- Reference, loops and clock outputs (chapter 03). -/
  clk : Clocks
  /-- Meridian slots (R349). -/
  merid : Meridian
  /-- Polaris (chapter 13). -/
  pol : Polaris
  /-- Power states, bring-up and supply (chapter 14). -/
  pwr : Power
  /-- Thermal and electrical governors (R429–R433). -/
  therm : Thermal
  /-- Firmware slots and update (R423–R426). -/
  fw : Firmware
  /-- Panel inputs and IRQ_N (chapter 16). -/
  panel : Panel
  /-- Host memory as the device sees it: address and byte, rising, no entry 0. -/
  host : List Host.Cell
  /-- The model's own field: how many free values have been used. -/
  free : Nat
  /-- Aerial inputs and blanking (chapter 04). -/
  rf : Rf
  /-- The Aurora planner (chapter 04). -/
  aur : Aurora
  /-- Zones by number; a zone that is not listed is as after reset (chapter 05). -/
  zones : List (Nat × Zone)
  /-- Full lanes at 0x0300 + n and survey lanes at 0x0400 + n; one that is not listed is as after reset. -/
  lanes : List (Nat × Lane)
  /-- Lodestar (chapter 10). -/
  tx : Tx
  /-- The self-monitor (R323). -/
  mon : TxMon
  /-- The regulatory table and its store (R318). -/
  reg : Reg
  /-- AM and FM demodulators by full lane; one that is not listed is as after `LANE_SET`. -/
  demods : List (Nat × Demod)
  /-- The Flurry bank. -/
  flurry : Flurry
  /-- AF following, by playing lane. -/
  afs : List (Nat × Af)
  /-- OFDM demodulators by full lane; one that is not listed is as after `LANE_SET`. -/
  ofdms : List (Nat × Ofdm)
  /-- Started services, by programme path. -/
  services : List (Nat × Service)
  /-- Analyses by survey lane. -/
  surveys : List (Nat × Survey)
  /-- The link table (R258). -/
  links : Links
  /-- Programme paths 0–23; one that is not listed is as after reset. -/
  paths : List (Nat × Path)
  /-- Follow groups, by head path. -/
  groups : List (Nat × Group)
  /-- Serial audio ports 0–3; one that is not listed is as after reset. -/
  saps : List (Nat × Sap)
  /-- Firn (chapter 12). -/
  firn : Firn
  /-- Which part of the family the device is (Table 0-1); no command changes it. -/
  part : Part
  deriving DecidableEq, Repr

/-- The device at reset release: Thaw, before the straps are sampled (Tables 14-2 to 14-6), with power-on as the cause.
Log: 1 (DESIGN CHOICE), 2 (DESIGN CHOICE), 3 (DESIGN CHOICE), 8 (DESIGN CHOICE), 9 (DESIGN CHOICE). -/
def State.reset : State :=
  { pending := [],
    sid := Sidereal.reset,
    cmds := Commands.reset,
    rings := [],
    wins := [],
    mbx := Mailbox.reset,
    ev := Events.reset,
    vlog := Vlog.reset,
    i2c := I2c.reset,
    hcfg := HostCfg.reset,
    leg := Legacy.reset,
    pcie := Pcie.reset,
    eth := Eth.reset,
    clk := Clocks.reset,
    merid := Meridian.reset,
    pol := Polaris.reset,
    pwr := Power.reset,
    therm := Thermal.reset,
    fw := Firmware.reset,
    panel := Panel.reset,
    host := [],
    free := 0,
    rf := Rf.reset,
    aur := Aurora.reset,
    zones := [],
    lanes := [],
    tx := Tx.reset,
    mon := TxMon.reset,
    reg := Reg.reset,
    demods := [],
    flurry := Flurry.reset,
    afs := [],
    ofdms := [],
    services := [],
    surveys := [],
    links := Links.reset,
    paths := [],
    groups := [],
    saps := [],
    firn := Firn.reset,
    part := .agu7480 }

/-! ## One update per unit -/

def State.setPending (s : State) (v : List Instr) : State := { s with pending := v }
def State.setSid (s : State) (v : Sidereal) : State := { s with sid := v }
def State.setCmds (s : State) (v : Commands) : State := { s with cmds := v }
def State.setRings (s : State) (v : List (Nat × Ring)) : State := { s with rings := v }
def State.setWins (s : State) (v : List (Nat × Window)) : State := { s with wins := v }
def State.setMbx (s : State) (v : Mailbox) : State := { s with mbx := v }
def State.setEv (s : State) (v : Events) : State := { s with ev := v }
def State.setVlog (s : State) (v : Vlog) : State := { s with vlog := v }
def State.setI2c (s : State) (v : I2c) : State := { s with i2c := v }
def State.setHcfg (s : State) (v : HostCfg) : State := { s with hcfg := v }
def State.setLeg (s : State) (v : Legacy) : State := { s with leg := v }
def State.setPcie (s : State) (v : Pcie) : State := { s with pcie := v }
def State.setEth (s : State) (v : Eth) : State := { s with eth := v }
def State.setClk (s : State) (v : Clocks) : State := { s with clk := v }
def State.setMerid (s : State) (v : Meridian) : State := { s with merid := v }
def State.setPol (s : State) (v : Polaris) : State := { s with pol := v }
def State.setPwr (s : State) (v : Power) : State := { s with pwr := v }
def State.setTherm (s : State) (v : Thermal) : State := { s with therm := v }
def State.setFw (s : State) (v : Firmware) : State := { s with fw := v }
def State.setPanel (s : State) (v : Panel) : State := { s with panel := v }
def State.setHost (s : State) (v : List Host.Cell) : State := { s with host := v }
def State.setFree (s : State) (v : Nat) : State := { s with free := v }
def State.setRf (s : State) (v : Rf) : State := { s with rf := v }
def State.setAur (s : State) (v : Aurora) : State := { s with aur := v }
def State.setZones (s : State) (v : List (Nat × Zone)) : State := { s with zones := v }
def State.setLanes (s : State) (v : List (Nat × Lane)) : State := { s with lanes := v }
def State.setTx (s : State) (v : Tx) : State := { s with tx := v }
def State.setMon (s : State) (v : TxMon) : State := { s with mon := v }
def State.setReg (s : State) (v : Reg) : State := { s with reg := v }
def State.setDemods (s : State) (v : List (Nat × Demod)) : State := { s with demods := v }
def State.setFlurry (s : State) (v : Flurry) : State := { s with flurry := v }
def State.setAfs (s : State) (v : List (Nat × Af)) : State := { s with afs := v }
def State.setOfdms (s : State) (v : List (Nat × Ofdm)) : State := { s with ofdms := v }
def State.setServices (s : State) (v : List (Nat × Service)) : State := { s with services := v }
def State.setSurveys (s : State) (v : List (Nat × Survey)) : State := { s with surveys := v }
def State.setLinks (s : State) (v : Links) : State := { s with links := v }
def State.setPaths (s : State) (v : List (Nat × Path)) : State := { s with paths := v }
def State.setGroups (s : State) (v : List (Nat × Group)) : State := { s with groups := v }
def State.setSaps (s : State) (v : List (Nat × Sap)) : State := { s with saps := v }
def State.setFirn (s : State) (v : Firn) : State := { s with firn := v }
def State.setPart (s : State) (v : Part) : State := { s with part := v }

end Sys2Proof.Machine
end

