-- ==== Sys2Proof/Machine/Ops.lean ====
section
/-! DEFINITION. Machine/Ops.lean: the named operations over bytes, sparse tables, host memory, time, events, violations
and ring entries, which every command's meaning is written with. -/

namespace Sys2Proof.Machine

/-! ## Numbers and bytes (R9: little-endian) -/

/-- The byte at offset `i`, 0 past the end. -/
def byteAt (b : Bytes) (i : Nat) : Nat := (b.getD i 0).toNat

/-- The little-endian number of `n` bytes at offset `off` (R9). -/
def le (b : Bytes) (off : Nat) : Nat → Nat
  | 0 => 0
  | n + 1 => byteAt b off + 256 * le b (off + 1) n

/-- A number of `w` bits read as two's complement. -/
def signed (w : Nat) (v : Nat) : Int := if v < 2 ^ (w - 1) then (v : Int) else (v : Int) - 2 ^ w

/-- The signed little-endian number of `n` bytes at `off`. -/
def les (b : Bytes) (off n : Nat) : Int := signed (8 * n) (le b off n)

/-- `n` bytes of `v`, little-endian, the low `8 n` bits of it. -/
def leBytes : Nat → Nat → Bytes
  | 0, _ => []
  | n + 1, v => BitVec.ofNat 8 v :: leBytes n (v / 256)

/-- `n` bytes of a signed value in two's complement. -/
def sleBytes (n : Nat) (v : Int) : Bytes := leBytes n (v % (2 ^ (8 * n) : Nat)).toNat

/-- Bit `i` of a number. -/
def bit (v i : Nat) : Bool := v.testBit i

/-- A truth value as one bit in place `i`. -/
def flag (b : Bool) (i : Nat) : Nat := if b then 2 ^ i else 0

/-- A counter that stops at `2 ^ w − 1`. -/
def sat (w v : Nat) : Nat := min v (2 ^ w - 1)

/-- A signed value held inside ± `m`. -/
def clampI (m : Int) (v : Int) : Int := max (-m) (min m v)

/-- `b` cut or filled with zeros to `n` bytes. -/
def fit (n : Nat) (b : Bytes) : Bytes := (b ++ List.replicate n 0).take n

/-- `b` with the bytes `v` stored from offset `off`. -/
def splice (b : Bytes) (off : Nat) (v : Bytes) : Bytes := b.take off ++ v ++ b.drop (off + v.length)

/-! ## Sparse tables, by rising index -/

/-- The entry of index `k`. -/
def mget {α : Type} : List (Nat × α) → Nat → Option α
  | [], _ => none
  | (j, v) :: m, k => if j = k then some v else mget m k

/-- The table with the entry of index `k` removed. -/
def mdel {α : Type} (m : List (Nat × α)) (k : Nat) : List (Nat × α) := m.filter fun e => e.1 ≠ k

/-- The table with the entry of index `k` set. -/
def mput {α : Type} : List (Nat × α) → Nat → α → List (Nat × α)
  | [], k, v => [(k, v)]
  | (j, w) :: m, k, v =>
    if k < j then (k, v) :: (j, w) :: m else if k = j then (k, v) :: m else (j, w) :: mput m k v

/-- The entry of index `k`, or `d` where there is none. -/
def mgetD {α : Type} (m : List (Nat × α)) (k : Nat) (d : α) : α := (mget m k).getD d

/-- The table with the entry of index `k` changed by `f`, if there is one. -/
def mmod {α : Type} (m : List (Nat × α)) (k : Nat) (f : α → α) : List (Nat × α) :=
  match mget m k with
  | some v => mput m k (f v)
  | none => m

/-! ## Host memory

A list of cells with strictly rising addresses and no cell 0: an unlisted address reads 0. -/

/-- The canonical form of host memory.
Log: 2 (DESIGN CHOICE). -/
def Memory.wf : List Host.Cell → Bool
  | [] => true
  | [c] => c.2 != 0
  | c :: d :: m => c.2 != 0 && decide (c.1 < d.1) && Memory.wf (d :: m)

/-- The byte at an address.
Log: 2 (DESIGN CHOICE). -/
def memRead : List Host.Cell → Nat → Byte
  | [], _ => 0
  | c :: m, a => if c.1 = a then c.2 else memRead m a

/-- The memory with one byte written, in canonical form. -/
def memWrite : List Host.Cell → Nat → Byte → List Host.Cell
  | [], a, v => if v = 0 then [] else [(a, v)]
  | c :: m, a, v =>
    if a < c.1 then (if v = 0 then c :: m else (a, v) :: c :: m)
    else if a = c.1 then (if v = 0 then m else (a, v) :: m)
    else c :: memWrite m a v

/-- The `n` bytes from an address on. -/
def memBytes (m : List Host.Cell) (a : Nat) : Nat → Bytes
  | 0 => []
  | n + 1 => memRead m a :: memBytes m (a + 1) n

/-- The memory with the bytes `b` written from an address on. -/
def memStore (m : List Host.Cell) (a : Nat) : Bytes → List Host.Cell
  | [] => m
  | v :: b => memStore (memWrite m a v) (a + 1) b

/-- Host memory with the cells that the host itself wrote. -/
def memCells (m : List Host.Cell) : List Host.Cell → List Host.Cell
  | [] => m
  | c :: cs => memCells (memWrite m c.1 c.2) cs

/-- The device writes bytes to host memory; each counts in `TX_MBYTES`. -/
def hostStore (s : State) (a : Nat) (b : Bytes) : State :=
  (s.setHost (memStore s.host a b)).setPcie { s.pcie with txBytes := s.pcie.txBytes + b.length }

/-- `len` bytes at `a` lie wholly inside one window that grants the direction (R57). -/
def inWindow (s : State) (write : Bool) (a len : Nat) : Bool :=
  s.wins.any fun e =>
    (if write then e.2.write else e.2.read) && decide (e.2.base ≤ a) && decide (a + len ≤ e.2.base + e.2.size)

/-! ## Time (R19, R20, R334, R336) -/

/-- One tick of 312.5 µs in units of 1/65536 ns (R19). -/
def tickU : Nat := 20480000000

/-- One unit of the WHEN format, 2⁻²⁴ s, in units of 1/65536 ns (R336). -/
def whenU : Nat := 3906250

/-- One second in units of 1/65536 ns. -/
def secU : Nat := 65536000000000

/-- One microsecond in units of 1/65536 ns. -/
def usU : Nat := 65536000

/-- A Sidereal time in WHEN format (R336). -/
def whenOf (t : Sid) : BitVec 64 := BitVec.ofNat 64 (t / whenU)

/-- The full time of a WHEN value that lies nearest to `now` (R336). -/
def sidOf (now : Sid) (w : BitVec 64) : Sid :=
  let n := now / whenU
  let b := n / 2 ^ 64 * 2 ^ 64 + w.toNat
  let c := if b > n + 2 ^ 63 ∧ b ≥ 2 ^ 64 then b - 2 ^ 64 else if b + 2 ^ 63 < n then b + 2 ^ 64 else b
  c * whenU

/-- The tick number of the latest boundary (R19). -/
def tickNo (s : State) : Nat := s.sid.now / tickU

/-- A window of `n` ticks ends at this boundary, and no step has cut it short (R184, R269, R348). -/
def windowDone (s : State) (n : Nat) : Bool := decide (tickNo s % n = 0) && decide (s.sid.scaleFrom + n ≤ s.sid.ticks)

/-- Sidereal moves on to `t`: 5 ns × (1 + r) at each cycle of the time island clock (R335); r is in 0.001 ppb. -/
def Sidereal.goTo (d : Sidereal) (t : Sid) : Sidereal :=
  let num := d.rest + (t - d.now) * 10 ^ 12
  let cycle := 327680 * (10 ^ 12 + d.rFreq + d.rPhase).toNat
  { d with now := t, cycles := d.cycles + num / cycle, rest := num % cycle }

/-- True at the instant of a tick boundary, that of a step among them (R20, R348). -/
def atBoundary (s : State) : Bool := s.sid.now == s.sid.bound

/-- The tick-boundary count at which a timeout of `n` ticks that starts now expires (R20). -/
def deadline (s : State) (n : Nat) : Nat := s.sid.ticks + n + (if atBoundary s then 0 else 1)

/-- A timeout has expired (R20). -/
def expired (s : State) (by_ : Nat) : Bool := decide (by_ ≤ s.sid.ticks)

/-- Sidereal time moves to an occurrence at `t`, never back and never to the next boundary: a tick passes only by `TICK`.
Log: 6 (DESIGN CHOICE). -/
def advance (s : State) (t : Sid) : State :=
  s.setSid (if s.sid.running then s.sid.goTo (max s.sid.now (min t (s.sid.next - 1))) else s.sid)

/-- An instant of the old scale on the new one, `d` ahead of it (R95, R348). -/
def moved (d : Int) (t : Sid) : Sid := ((t : Int) + d).toNat

/-- The `TIME` field of a completion: 0 in Thaw (R65, R337). -/
def cplTime (s : State) (t : Sid) : Nat :=
  if s.pwr.state = .thaw ∨ ¬ s.sid.running then 0 else (whenOf t).toNat

/-- The lateness in ticks of an action due at `w` that takes effect at `t` (R353). -/
def lateness (t w : Sid) : Nat := sat 16 ((t - w) / tickU)

/-- The next free value (Config); the counter moves on.
Log: 8 (DESIGN CHOICE). -/
def freeValue (s : State) : Nat × State := (Config.freeNat s.free, s.setFree (s.free + 1))

/-! ## Status codes (Table 17-21) and event codes (Table 17-22) -/

def stOk : Nat := 0x0000
def stOkLate : Nat := 0x0001
def stSuperseded : Nat := 0x0002
def stBadOpcode : Nat := 0x0010
def stBadParam : Nat := 0x0011
def stBadLength : Nat := 0x0012
def stBadState : Nat := 0x0013
def stBringupBusy : Nat := 0x0020
def stAbsent : Nat := 0x0021
def stNoResource : Nat := 0x0022
def stLate : Nat := 0x0030
def stTimeRefused : Nat := 0x0031
def stSynthTimeout : Nat := 0x0040
def stRegLimit : Nat := 0x0041
def stCoexDenied : Nat := 0x0042
def stThermalShed : Nat := 0x0050
def stPowerLimit : Nat := 0x0051
def stViolation : Nat := 0x0060
def stAbortedReset : Nat := 0x0070
def stAbortedHost : Nat := 0x0071
def stSafetyHold : Nat := 0x0080
def stInternal : Nat := 0x00F0

def evBrownout : Nat := 0x0001
def evThermal : Nat := 0x0002
def evPowerLimit : Nat := 0x0003
def evViolation : Nat := 0x0101
def evRefLost : Nat := 0x0201
def evRefBack : Nat := 0x0202
def evPlan : Nat := 0x0203
def evFrontEnd : Nat := 0x0301
def evLane : Nat := 0x0401
def evFlake : Nat := 0x0501
def evAfSwitch : Nat := 0x0502
def evTa : Nat := 0x0503
def evEnsemble : Nat := 0x0601
def evService : Nat := 0x0602
def evAnnounce : Nat := 0x0603
def evLink : Nat := 0x0701
def evBlend : Nat := 0x0702
def evClkLost : Nat := 0x0801
def evRateChanged : Nat := 0x0802
def evSlip : Nat := 0x0803
def evTx : Nat := 0x0901
def evTime : Nat := 0x0A01
def evTimeRefused : Nat := 0x0A02
def evSched : Nat := 0x0A03
def evFirnTrigger : Nat := 0x0B01
def evAlert : Nat := 0x0C01
def evFault : Nat := 0x0C02
def evPanel : Nat := 0x0D01
def evHostlink : Nat := 0x0E01
def evBusStuck : Nat := 0x0E02

/-- Every event code (R495). -/
def eventCodes : List Nat :=
  [evBrownout, evThermal, evPowerLimit, evViolation, evRefLost, evRefBack, evPlan, evFrontEnd, evLane, evFlake,
   evAfSwitch, evTa, evEnsemble, evService, evAnnounce, evLink, evBlend, evClkLost, evRateChanged, evSlip, evTx,
   evTime, evTimeRefused, evSched, evFirnTrigger, evAlert, evFault, evPanel, evHostlink, evBusStuck]

/-- The three codes that are never coalesced (R25, R495). -/
def isUrgent (code : Nat) : Bool := code == evAlert || code == evFault || code == evBrownout

/-! ## Ring status blocks and interrupts (R52, R55, R461) -/

/-- The count that the device owns (Table 2-9). -/
def devIndex (r : Ring) : Nat :=
  match r.kind with
  | .completion | .event => r.prod
  | _ => r.cons

/-- `RSTATE` of a ring that exists (Table 2-10). -/
def rstate (r : Ring) : Nat := if r.halted then 2 else 1

/-- Bytes 0–15 of a ring status block (Table 2-10). -/
def statusBlock (r : Ring) : Bytes :=
  leBytes 4 (devIndex r) ++ leBytes 4 (sat 32 r.lost) ++ leBytes 1 (rstate r) ++ zeros 7

/-- One more entry of a ring that no interrupt covers (R55). -/
def Ring.entry (r : Ring) (t : Sid) : Ring :=
  { r with uncovered := r.uncovered + 1, firstAt := if r.uncovered = 0 then t else r.firstAt }

/-- The ring is stored and its status block written (R52). -/
def putRing (s : State) (n : Nat) (r : Ring) : State :=
  hostStore (s.setRings (mput s.rings n r)) r.statusAddr (statusBlock r)

/-- The occupancy of a ring (R51). -/
def occupancy (r : Ring) : Nat := (r.prod + 2 ^ 32 - r.cons) % 2 ^ 32

/-- Bit `t` of `INFLIGHT` in the status block of a command ring is set or cleared (R66). -/
def putInflight (s : State) (n tag : Nat) (v : Bool) : State :=
  match mget s.rings n with
  | none => s
  | some r =>
    let a := r.statusAddr + 16 + tag / 8
    let m := BitVec.ofNat 8 (2 ^ (tag % 8))
    let b := memRead s.host a
    hostStore s a [if v then b ||| m else b &&& ~~~m]

/-- The vector control byte of an MSI-X table entry has its mask bit set. -/
def vectorMasked (p : Pcie) (v : Nat) : Bool := bit (byteAt p.msixTable (16 * v + 12)) 0

/-- A vector is raised: a message, or its pending bit while it is masked, and nothing with MSI-X disabled (R461). In
D3hot no message is sent and the vector stays pending (R462). -/
def raiseVector (s : State) (v : Nat) : State :=
  if v ≥ 64 ∨ ¬ s.pcie.msixEn then s
  else if vectorMasked s.pcie v ∨ s.pcie.d3 then s.setPcie { s.pcie with pba := s.pcie.pba ||| (1#64 <<< v) }
  else s.setPcie { s.pcie with sent := mput s.pcie.sent v (mgetD s.pcie.sent v 0 + 1) }

/-! ## The event tape of Firn (R362, R364) -/

/-- Firn records: it is armed or triggered, and not in Frost (R369). -/
def firnRecords (s : State) : Bool :=
  (decide (s.firn.st = .armed) || decide (s.firn.st = .triggered)) && decide (s.pwr.state ≠ .frost)

/-- `TAPE_MIB` in bytes (Table 12-6). -/
def tapeSize (f : Firn) : Nat := (if byteAt f.cfg 9 = 0 then 8 else byteAt f.cfg 9) * 1048576

/-- The oldest tape entries go until the rest fit. -/
def trimTape (size : Nat) : List TapeEntry → Nat → List TapeEntry × Nat
  | [], n => ([], n)
  | e :: es, n => if n ≤ size then (e :: es, n) else trimTape size es (n - (16 + e.payload.length))

/-- An entry is written to the event tape while Firn records, its payload filled to a multiple of 4 bytes.
Log: 120 (DEDUCED). -/
def tape (s : State) (kind : Nat) (data : Bytes) (t : Sid) : State :=
  if firnRecords s then
    let f := s.firn
    let payload := data ++ zeros ((4 - data.length % 4) % 4)
    let e : TapeEntry := { kind := kind, seq := f.tapeSeq, time := t, payload := payload }
    let r := trimTape (tapeSize f) (f.tape ++ [e]) (f.tapeLen + 16 + payload.length)
    s.setFirn { f with tape := r.1, tapeLen := r.2, tapeSeq := f.tapeSeq + 1 }
  else s

/-! ## Events (R24, R25, R62, R63) -/

/-- The 16 bytes of an event (Table 2-13).
Log: 120 (DEDUCED). -/
def eventBytes (w : EvWindow) : Bytes :=
  leBytes 2 w.code ++ leBytes 2 w.source ++ leBytes 2 (sat 16 w.count) ++ leBytes 2 w.edetail ++
    leBytes 8 (whenOf w.time).toNat

/-- `EW_TICKS` in force for an event code (R489). -/
def evTicks (s : State) (code : Nat) : Nat := mgetD s.ev.ticks code 1

/-- An occurrence of an event: merged into an open window of the same code, source and detail, or opening one (R24);
an urgent event waits to be posted by itself (R25). Every occurrence takes the next number. -/
def raiseAt (s : State) (t : Sid) (code source edetail : Nat) : State :=
  let w : EvWindow := { code := code, source := source, edetail := edetail, time := t, count := 1,
                        left := evTicks s code, id := s.ev.nextId, last := s.ev.nextId, single := false }
  if isUrgent code then s.setEv { s.ev with urgent := s.ev.urgent ++ [w], nextId := s.ev.nextId + 1 }
  else
    let same : EvWindow → Bool := fun x =>
      x.code == code && x.source == source && x.edetail == edetail && !x.single && decide (0 < x.left)
    if s.ev.windows.any same then
      s.setEv { s.ev with
        windows := s.ev.windows.map fun x => if same x then { x with count := x.count + 1, last := s.ev.nextId } else x
        nextId := s.ev.nextId + 1 }
    else s.setEv { s.ev with windows := s.ev.windows ++ [w], nextId := s.ev.nextId + 1 }

/-- An occurrence of an event now. -/
def raise (s : State) (code source edetail : Nat) : State := raiseAt s s.sid.now code source edetail

/-- A panel change: its own event, due at the next tick boundary (R478). -/
def raiseSingle (s : State) (t : Sid) (code source edetail : Nat) : State :=
  s.setEv { s.ev with
    windows := s.ev.windows ++ [{ code := code, source := source, edetail := edetail, time := t, count := 1,
                                  left := 1, id := s.ev.nextId, last := s.ev.nextId, single := true }]
    nextId := s.ev.nextId + 1 }

/-- The running event rings whose `UNIT_MASK` holds the source unit (R62). -/
def eventRings (s : State) (source : Nat) : List Nat :=
  (s.rings.filter fun e => e.2.kind == .event && !e.2.halted && bit e.2.unitMask (source / 256)).map (·.1)

/-- An entry is appended to the mailbox queue; an entry into an empty queue, and an urgent one, calls for attention
(R450, R452, R461); the first also lets a given-up notification resume (R453). -/
def mbxPush (s : State) (e : MbxEntry) : State :=
  let call := s.mbx.queue.isEmpty || e.urgent
  let s := if s.mbx.queue.isEmpty then s.setI2c { s.i2c with nacks := 0 } else s
  s.setMbx { s.mbx with
    queue := s.mbx.queue ++ [e]
    signal := s.mbx.signal || (call && s.mbx.owner == 2 && s.hcfg.mbxIrqEn)
    attn := s.mbx.attn || call }

/-- Events in the mailbox event places (`EVT_PENDING`). -/
def evtPending (s : State) : Nat := (s.mbx.queue.filter (·.event)).length

/-- An event is written to one event ring, or counted in its `LOST` if the ring is full (R63).
Log: 19 (DEDUCED). -/
def postToRing (w : EvWindow) (s : State) (n : Nat) : State :=
  match mget s.rings n with
  | none => s
  | some r =>
    if occupancy r + 16 > r.size then putRing s n { r with lost := sat 32 (r.lost + 1) }
    else
      putRing (hostStore s (r.base + r.prod % r.size) (eventBytes w)) n
        { r.entry s.sid.now with prod := (r.prod + 16) % 2 ^ 32, urgent := r.urgent || isUrgent w.code }

/-- An event is posted to every ring that takes its source unit, else to the mailbox event places (R62), of which there
are 16 (Table 2-12). -/
def postEvent (s0 : State) (w : EvWindow) : State :=
  let s := tape s0 3 (eventBytes w) w.time
  match eventRings s w.source with
  | [] =>
    if evtPending s ≥ 16 then s.setMbx { s.mbx with overflow := true }
    else mbxPush s { event := true, urgent := isUrgent w.code, bytes := eventBytes w }
  | ns => ns.foldl (postToRing w) s

/-- An event for an event ring waits while the function is in D3hot (R462); none is posted while the cores are halted
(R388, R389). -/
def canPost (s : State) (w : EvWindow) : Bool := !s.pol.halted && (!s.pcie.d3 || (eventRings s w.source).isEmpty)

/-- The execution of a command raised the event: an occurrence from number `mark` on, or one of the windows `evs` (R34). -/
def raisedBy (mark : Nat) (evs : List Nat) (w : EvWindow) : Bool := decide (mark ≤ w.last) || evs.contains w.id

/-- The windows and urgent events that a launch from number `mark` on has added to. -/
def touched (s : State) (mark : Nat) : List Nat :=
  ((s.ev.urgent ++ s.ev.windows).filter (raisedBy mark [])).map (·.id)

/-- The events that the execution of a command raised are posted before its completion, urgent ones first, whatever their
windows have still to run and whatever else of the source unit is still open (R34 goes before R24 and R35).
Log: 12 (DEDUCED), 170 (DEDUCED). -/
def flushFrom (s : State) (mark : Nat) (evs : List Nat) : State :=
  let out : EvWindow → Bool := fun w => raisedBy mark evs w && canPost s w
  let ws := (s.ev.urgent ++ s.ev.windows).filter out
  ws.foldl postEvent (s.setEv { s.ev with
    urgent := s.ev.urgent.filter fun w => !out w, windows := s.ev.windows.filter fun w => !out w })

/-! ## Violations (R64) -/

/-- A violation is logged and `EV_VIOLATION` raised. The new entry's index is `vlogNext s`. -/
def vlogNext (s : State) : Nat := if s.vlog.any then (s.vlog.newest + 1) % 16 else 0

def violate (s : State) (kind addr link info : Nat) : State :=
  let i := vlogNext s
  let e : VlogEntry := { addr := addr, time := BitVec.ofNat 64 (cplTime s s.sid.now), kind := kind, link := link, info := info }
  raise (s.setVlog { s.vlog with total := sat 32 (s.vlog.total + 1), fill := min 16 (s.vlog.fill + 1), newest := i,
                                 any := true, entries := mput s.vlog.entries i e })
    evViolation 0x0000 (kind * 256 + i)

/-- `VLOG_LINK` of a command's violation: PCIe device access for a ring, the owner for the mailbox (Table 2-15).
Log: 16 (DEDUCED). -/
def originLink (s : State) : Origin → Nat
  | .ring _ => 3
  | .mailbox => s.mbx.owner.toNat
  | .legacy => 1
  | .replay _ => 3

/-- `VLOG_INFO` of a command's violation (Table 2-15).
Log: 16 (DEDUCED). -/
def originInfo : Origin → Nat
  | .ring n => n
  | _ => 0x80

/-- `VLOG_ADDR` of a command's violation of kinds 0x05 and 0x06 (Table 2-15).
Log: 16 (DEDUCED). -/
def originAddr (c : Cmd) : Nat :=
  match c.a.origin with
  | .ring _ => c.a.addr.toNat
  | _ => 0x0100

/-! ## Completions (R41, R53, R54, R66) -/

/-- A completion entry, padded to a multiple of 16 bytes (R41, Table 2-3). -/
def cplBytes (tag flags status detail time : Nat) (result : Bytes) : Bytes :=
  let b := leBytes 2 (tag + 1024 * flags) ++ leBytes 2 status ++ leBytes 2 detail ++ leBytes 2 result.length ++
    leBytes 8 time ++ result
  b ++ zeros ((16 - b.length % 16) % 16)

/-- A pad entry (R53). -/
def padEntry : Bytes := zeros 6 ++ [0xFF, 0xFF] ++ zeros 8

/-- A pad entry is written where the next entry, of `len` bytes, does not fit before the end and the ring has the space for
the pad; it is an entry of its own for interrupts (R53).
Log: 19 (DEDUCED). -/
def padRing (s : State) (n len : Nat) : State :=
  match mget s.rings n with
  | none => s
  | some r =>
    let pos := r.prod % r.size
    let room := r.size - pos
    if len ≤ room ∨ s.pcie.d3 ∨ occupancy r + room > r.size then s
    else putRing (hostStore s (r.base + pos) padEntry) n { r.entry s.sid.now with prod := (r.prod + room) % 2 ^ 32 }

/-- An entry is written to a completion ring, or `none` where the ring lacks the space for it before its end (R53, R54). -/
def writeEntry (s : State) (n : Nat) (b : Bytes) : Option State :=
  match mget s.rings n with
  | none => none
  | some r =>
    let pos := r.prod % r.size
    if s.pcie.d3 ∨ r.size - pos < b.length ∨ occupancy r + b.length > r.size then none
    else some (putRing (hostStore s (r.base + pos) b) n { r.entry s.sid.now with prod := (r.prod + b.length) % 2 ^ 32 })

/-- The `INFLIGHT` bit that a written completion ends is cleared (R66). -/
def endInflight (s : State) : Option (Nat × Nat) → State
  | some e => putInflight s e.1 e.2 false
  | none => s

/-- An entry goes to a completion ring, or is held there for want of space (R54). -/
def pushEntry (s0 : State) (n : Nat) (b : Bytes) (e : Option (Nat × Nat)) : State :=
  match mget s0.rings n with
  | none => endInflight s0 e
  | some r0 =>
    let s := if r0.heldCpl.isEmpty then padRing s0 n b.length else s0
    let r := (mget s.rings n).getD r0
    match if r.heldCpl.isEmpty then writeEntry s n b else none with
    | some s' => endInflight s' e
    | none => s.setRings (mput s.rings n { r with heldCpl := r.heldCpl ++ [(b, e)] })

/-- The held entries of a completion ring are written as far as the space allows (R54).
Log: 19 (DEDUCED). -/
def drainHeld : Nat → State → Nat → State
  | 0, s, _ => s
  | k + 1, s0, n =>
    match (mget s0.rings n).bind fun r => r.heldCpl.head? with
    | none => s0
    | some b =>
      let s := padRing s0 n b.1.length
      match writeEntry s n b.1 with
      | none => s
      | some s1 =>
        match mget s1.rings n with
        | none => s1
        | some r => drainHeld k (endInflight (s1.setRings (mput s1.rings n { r with heldCpl := r.heldCpl.tail })) b.2) n

/-- The completion of the generation-1 sequence in progress (R499). -/
def legacyDone (s : State) (status : Nat) (result : Bytes) : State :=
  let l := s.leg
  if status = stOk ∨ status = stOkLate then
    if result.length > 128 then s.setLeg { l with err := true, lErr := 0x12, seq := [], cts := true }
    else s.setLeg { l with resp := fit 128 result, cts := l.seq.isEmpty }
  else s.setLeg { l with err := true, lErr := status % 256, seq := [], cts := true }

/-- A completion is written to the channel of its command (R23, R42): `t` is the time at which it took effect; `inflight` says
that the command holds an `INFLIGHT` bit (R66). -/
def postCpl (s0 : State) (o : Origin) (tag flags status detail : Nat) (result : Bytes) (t : Sid) (inflight : Bool) : State :=
  let b := cplBytes tag flags status detail (cplTime s0 t) result
  let s := tape s0 2 (b.take 16) t
  match o with
  | .mailbox => mbxPush s { event := false, urgent := false, bytes := b }
  | .ring n =>
    match mget s.rings n with
    | some r => pushEntry s r.cplRing b (if inflight then some (n, tag) else none)
    | none => s
  | .legacy => legacyDone s status result
  | .replay _ => pushEntry s s.firn.rpRing b none

/-! ## Reserved and ranged fields (steps 8 and 9 of Table 2-5) -/

/-- INSTANCES of units 0x00–0x11 on each part (Tables 0-1, 2-17 and 2-18), 0 where the unit is absent; the system (0x00)
has one.
Log: 1 (DESIGN CHOICE). -/
def Part.complement : Part → List Nat
  | .agu7480 => [1, 4, 32, 32, 8, 256, 24, 1, 4, 1, 256, 1, 1, 1, 1, 1, 1, 1]
  | .agu7440 => [1, 2, 16, 8, 2, 64, 8, 1, 2, 0, 64, 0, 0, 1, 0, 0, 0, 1]
  | .agu7410 => [1, 1, 8, 1, 0, 0, 1, 1, 1, 0, 16, 0, 0, 1, 0, 0, 0, 0]

/-- INSTANCES of one unit; of a unit that the part does not know, 0.
Log: 1 (DESIGN CHOICE). -/
def instances (p : Part) (unit : Nat) : Nat := p.complement.getD unit 0

/-- The part has the unit (R3, R4). -/
def hasUnit (s : State) (unit : Nat) : Bool := instances s.part unit != 0

/-- `ID_PART` (Table 0-4).
Log: 1 (DESIGN CHOICE). -/
def Part.id : Part → Nat
  | .agu7480 => 0x7480
  | .agu7440 => 0x7440
  | .agu7410 => 0x7410

end Sys2Proof.Machine
end

