-- ==== Sys2Proof/Machine/Operands.lean ====
section
/-! DEFINITION. Machine/Operands.lean: the operand forms: packet header fields, payload fields and the checks of step 8 of
Table 2-5 on them. -/

namespace Sys2Proof.Machine

/-! ## Header fields (Tables 2-1 and 2-2) -/

/-- `LEN`: the payload bytes of the packet. -/
def Cmd.len (c : Cmd) : Nat := c.a.payload.length

/-- `TARGET` as a number: unit in [15:8], instance in [7:0]. -/
def Cmd.tgt (c : Cmd) : Nat := c.a.target.toNat

/-- The instance of `TARGET`. -/
def Cmd.inst (c : Cmd) : Nat := c.a.target.toNat % 256

/-- The unit of `TARGET`. -/
def Cmd.unitId (c : Cmd) : Nat := c.a.target.toNat / 256

/-- The payload. -/
def Cmd.pl (c : Cmd) : Bytes := c.a.payload

/-- Flag `UNORDERED` (bit 10 of bytes 2–3, bit 0 of the flags field). -/
def Cmd.unordered (c : Cmd) : Bool := bit c.a.flags.toNat 0

/-- Flag `LATE_OK` (bit 11). -/
def Cmd.lateOk (c : Cmd) : Bool := bit c.a.flags.toNat 1

/-- A reserved flag bit is set. -/
def Cmd.badFlags (c : Cmd) : Bool := decide (c.a.flags.toNat ≥ 4)

/-- The command is immediate: `WHEN` is 0. -/
def Cmd.immediate (c : Cmd) : Bool := c.a.whn == 0

/-- The packet of 16 header bytes and the payload (Table 2-1). -/
def packetBytes (c : Cmd) : Bytes :=
  leBytes 2 c.op ++ leBytes 2 (c.a.tag.toNat + 1024 * c.a.flags.toNat) ++ leBytes 2 c.len ++ leBytes 2 c.tgt ++
    leBytes 8 c.a.whn.toNat ++ c.pl

/-- The command of a packet's bytes: header and `LEN` payload bytes (Table 2-1). -/
def packetCmd (o : Origin) (addr : Nat) (b : Bytes) : Cmd :=
  { op := le b 0 2
    a := { origin := o, addr := BitVec.ofNat 64 addr, tag := BitVec.ofNat 10 (le b 2 2),
           flags := BitVec.ofNat 6 (le b 2 2 / 1024), target := BitVec.ofNat 16 (le b 6 2),
           whn := BitVec.ofNat 64 (le b 8 8), payload := fit (le b 4 2) (b.drop 16) } }

/-! ## CRC-32 (IEEE 802.3) -/

/-- Eight steps of the reflected CRC-32. -/
def crcBits : Nat → BitVec 32 → BitVec 32
  | 0, c => c
  | k + 1, c => crcBits k (if c.getLsbD 0 then (c >>> 1) ^^^ 0xEDB88320#32 else c >>> 1)

/-- The CRC-32 register after the bytes. -/
def crcRun (c : BitVec 32) : Bytes → BitVec 32
  | [] => c
  | b :: bs => crcRun (crcBits 8 (c ^^^ b.zeroExtend 32)) bs

/-- The CRC-32 of the bytes. -/
def crc32 (b : Bytes) : BitVec 32 := ~~~(crcRun 0xFFFFFFFF#32 b)

/-! ## Payload field checks (step 8) -/

/-- One check of step 8: the payload offset of the field and the test it must pass. -/
structure Fld where
  off : Nat
  ok  : Bytes → Bool

/-- A field of `n` bytes at `off` passes `p`. -/
def fld (off n : Nat) (p : Nat → Bool) : Fld := ⟨off, fun b => p (le b off n)⟩

/-- A reserved field: zero (R8). -/
def rsv (off n : Nat) : Fld := fld off n (· == 0)

/-- A field within `lo`–`hi`. -/
def rng (off n lo hi : Nat) : Fld := fld off n fun v => decide (lo ≤ v ∧ v ≤ hi)

/-- A signed field within `lo`–`hi`. -/
def srng (off n : Nat) (lo hi : Int) : Fld := ⟨off, fun b => decide (lo ≤ les b off n ∧ les b off n ≤ hi)⟩

/-- A field of `n` bytes with no bit at or above place `w` set. -/
def wid (off n w : Nat) : Fld := fld off n fun v => decide (v < 2 ^ w)

/-- A field that is checked only where the payload makes it apply. -/
def whenFld (cond : Bytes → Bool) (f : Fld) : Fld := ⟨f.off, fun b => !cond b || f.ok b⟩

/-- The offset from byte 0 of the header of the first field that fails (R43). -/
def firstBad : List Fld → Bytes → Option Nat
  | [], _ => none
  | f :: fs, b => if f.ok b then firstBad fs b else some (16 + f.off)

end Sys2Proof.Machine
end

