-- ==== Sys2Proof/Machine/Signal.lean ====
section
/-! DEFINITION. Machine/Signal.lean: the arithmetic of the sample chains: mixers, half-band stages, the resampler, marks, levels
in decibels and the sums of diversity (chapters 04 and 05). Everything is exact on integers; sines come from repeated squaring
of a small rotation, and what the spec rounds is rounded as it says. -/

namespace Sys2Proof

/-! ## Rounding, saturation and complex numbers -/

/-- `x` / 2^`k`, rounded to the nearest integer, and halves to the even one (convergent rounding).
Log: 175 (DEDUCED). -/
def convRound (x : Int) (k : Nat) : Int :=
  let q := x / 2 ^ k
  let r := x % 2 ^ k
  if 2 * r < 2 ^ k ∨ (2 * r = 2 ^ k ∧ q % 2 = 0) then q else q + 1

/-- `x` within the range of `w` bits of two's complement. -/
def clampTo (w : Nat) (x : Int) : Int := max (-(2 ^ (w - 1))) (min (2 ^ (w - 1) - 1) x)

def Cx.add (a b : Cx) : Cx := ⟨a.re + b.re, a.im + b.im⟩
def Cx.mul (a b : Cx) : Cx := ⟨a.re * b.re - a.im * b.im, a.re * b.im + a.im * b.re⟩
def Cx.conj (a : Cx) : Cx := ⟨a.re, -a.im⟩
def Cx.scale (k : Int) (a : Cx) : Cx := ⟨k * a.re, k * a.im⟩
def Cx.div (a : Cx) (k : Int) : Cx := ⟨a.re / k, a.im / k⟩
def Cx.normSq (a : Cx) : Nat := (a.re * a.re + a.im * a.im).toNat

/-- |a|, truncated. -/
def Cx.abs (a : Cx) : Nat := a.normSq.sqrt

def Cx.sum (xs : List Cx) : Cx := xs.foldl Cx.add ⟨0, 0⟩
def Cx.round (k w : Nat) (a : Cx) : Cx := ⟨clampTo w (convRound a.re k), clampTo w (convRound a.im k)⟩

/-- The leading 40 bits of a complex number. -/
def Cx.trim (a : Cx) : Cx := a.div (2 ^ (Nat.log2 (max a.re.natAbs a.im.natAbs) - 40))

end Sys2Proof

namespace Sys2Proof.Machine

/-! ## Rotations and angles -/

/-- `n` squarings of a rotation in 2⁻⁶⁴. -/
def squarings : Nat → Cx → Cx
  | 0, z => z
  | n + 1, z => squarings n ((z.mul z).div (2 ^ 64))

/-- e^(j2πφ/2⁴⁸) in 2⁻⁶⁴: a rotation by φ/2¹² from its series, squared twelve times. -/
def rotation (phase : Nat) : Cx :=
  let e : Int := (115904311329233965478 * (phase % 2 ^ 48) / 2 ^ 60 : Nat)
  let e2 := e * e / 2 ^ 64
  squarings 12 ⟨2 ^ 64 - e2 / 2 + e2 * e2 / 2 ^ 64 / 24, e - e * e2 / 2 ^ 64 / 6⟩

/-- Sine and cosine of `b` bits at a 48-bit phase (Tables 5-1 and 5-2).
Log: 175 (DEDUCED). -/
def sineCosine (b phase : Nat) : Cx := (rotation phase).round (65 - b) b

/-- The `n` leading bits of the angle of a number, in turns. -/
def angleBits : Nat → Cx → Nat → Nat
  | 0, _, acc => acc
  | n + 1, z, acc =>
    angleBits n ((z.mul z).trim) (2 * acc + if z.im < 0 ∨ (z.im = 0 ∧ z.re < 0) then 1 else 0)

/-- arg(z) in 2⁻³² turn, from −2³¹ (R181). -/
def argOf (z : Cx) : Int :=
  let a : Int := angleBits 32 z.trim 0
  if a < 2 ^ 31 then a else a - 2 ^ 32

/-- The NCO word round(`num` / `den` · 2⁴⁸) in 48 bits of two's complement (R143, R148). -/
def ncoWord (num : Int) (den : Nat) : Nat := ((2 * num * 2 ^ 48 + den) / (2 * den) % 2 ^ 48).toNat

/-! ## Decibels -/

/-- The greatest number in [`lo`, `hi`) that passes a test that fails from some number on. -/
def lastTrue (p : Int → Bool) : Nat → Int → Int → Int
  | 0, lo, _ => lo
  | n + 1, lo, hi =>
    if hi ≤ lo + 1 then lo
    else if p ((lo + hi) / 2) then lastTrue p n ((lo + hi) / 2) hi else lastTrue p n lo ((lo + hi) / 2)

/-- 10 · log₁₀(`num` / `den`) in 0.01 dB, truncated towards minus infinity; −200 dB is the least.
Log: 176 (DEDUCED). -/
def centiDb (num den : Nat) : Int :=
  lastTrue (fun l => if 0 ≤ l then decide (den ^ 1000 * 10 ^ l.toNat ≤ num ^ 1000)
    else decide (den ^ 1000 ≤ num ^ 1000 * 10 ^ l.natAbs)) 16 (-20000) 20000

/-- 10^(`c` / 2000) in 2⁻¹⁶: the amplitude ratio of `c` hundredths of a decibel. -/
def ampRatio (c : Int) : Int :=
  lastTrue (fun r => if 0 ≤ c then decide (r.toNat ^ 2000 ≤ 10 ^ c.toNat * 2 ^ 32000)
    else decide (r.toNat ^ 2000 * 10 ^ c.natAbs ≤ 2 ^ 32000)) 40 0 (2 ^ 36)

/-! ## Filters (Tables 5-1 and 5-2) -/

/-- One symmetric FIR design: its coefficients, taps, the scale of the coefficients and the width of the output. -/
structure FirDesign where
  id    : Nat
  taps  : Nat
  shift : Nat
  width : Nat

/-- Coefficient `i` of a symmetric design (R142). -/
def FirDesign.tap (d : FirDesign) (i : Nat) : Int := Config.coef d.id (min i (d.taps - 1 - i))

/-- The output of a design over its history, newest first. -/
def FirDesign.out (d : FirDesign) (hist : List Cx) : Cx :=
  (Cx.sum (((List.range d.taps).zip hist).map fun e => Cx.scale (d.tap e.1) e.2)).round d.shift d.width

/-- Z1, Z2 and Z3 (Table 5-1).
Log: 175 (DEDUCED). -/
def zoneDesigns : List FirDesign := [⟨0, 11, 17, 20⟩, ⟨1, 19, 17, 20⟩, ⟨2, 59, 21, 18⟩]

/-- The half-band stages of a lane with `n` stages: the short design, and the long one last (R147). -/
def laneDesigns (n : Nat) : List FirDesign := List.replicate (n - 1) ⟨3, 15, 17, 28⟩ ++ [⟨4, 63, 19, 28⟩]

/-- A stage takes an input in, and gives an output for the first and then every second one. -/
def HalfBand.push (d : FirDesign) (b : HalfBand) (x : Cx) : HalfBand × Option Cx :=
  let h := (x :: b.hist).take d.taps
  if b.odd then (⟨h, false⟩, none) else (⟨h, true⟩, some (d.out h))

/-- An input runs through stages in turn, as far as they give outputs. -/
def cascade : List HalfBand → List FirDesign → Cx → List HalfBand × Option Cx
  | b :: bs, d :: ds, x =>
    match b.push d x with
    | (b1, some y) => (b1 :: (cascade bs ds y).1, (cascade bs ds y).2)
    | (b1, none) => (b1 :: bs, none)
  | bs, _, x => (bs, some x)

/-! ## The chain of a zone (R142, R146, R163) -/

/-- Converter samples that a zone output sample spans (R163). -/
def zoneSpan : Nat := 279

/-- One converter sample enters a zone: `word` is its NCO word and `comp` the compensating gain in 2⁻¹⁶ (R103, R146).
Log: 175 (DEDUCED). -/
def ZoneChain.step (word : Nat) (comp : Int) (z : ZoneChain) (c : Int) (blank clip : Bool) : ZoneChain × Option ZoneSample :=
  let m := (Cx.scale (2 * c * comp) (sineCosine 20 z.phase).conj).round 30 20
  let r := cascade z.stages zoneDesigns m
  let b := if blank then zoneSpan else z.blank
  let k := if clip then zoneSpan else z.clip
  ({ phase := (z.phase + word) % 2 ^ 48, stages := r.1, blank := b - 1, clip := k - 1 },
   r.2.map fun y => ⟨y, decide (0 < b), decide (0 < k)⟩)

/-- A run of converter samples with their marks enters a zone; its output samples, oldest first. -/
def ZoneChain.run (word : Nat) (comp : Int) : ZoneChain → List (Int × Bool × Bool) → ZoneChain × List ZoneSample
  | z, [] => (z, [])
  | z, (c, b, k) :: xs =>
    ((ZoneChain.run word comp (z.step word comp c b k).1 xs).1,
     (z.step word comp c b k).2.toList ++ (ZoneChain.run word comp (z.step word comp c b k).1 xs).2)

/-! ## The chain of a lane (R147, R149, R156, R163) -/

/-- Zone output samples that a lane output sample spans (R163). -/
def laneSpan (n : Nat) : Nat := 138 * 2 ^ (n - 1) - 13

/-- Resampler coefficient of tap `i` at a position of 46 fractional bits: 1024 phases, and linear interpolation between adjacent
ones (Table 5-2). -/
def resampleTap (pos i : Nat) : Int :=
  let p := pos / 2 ^ 36
  let f : Int := (pos % 2 ^ 36 : Nat)
  convRound (Config.coef 5 (32 * p + i) * (2 ^ 36 - f) + Config.coef 5 (32 * (p + 1) + i) * f) 36

/-- The resampler's output at a position. -/
def resample (pos : Nat) (hist : List Cx) : Cx :=
  (Cx.sum (((List.range 32).zip hist).map fun e => Cx.scale (resampleTap pos e.1) e.2)).round 19 28

/-- One zone output sample enters a branch: the stage designs and the zone samples that an output spans, the NCO word, and 1/ρ in
2⁻⁴⁶ (R148, R149).
Log: 175 (DEDUCED). -/
def LaneChain.step (ds : List FirDesign) (span word inv : Nat) (l : LaneChain) (x : ZoneSample) : LaneChain × Option ZoneSample :=
  let m := ((x.x.mul (sineCosine 24 l.phase).conj)).round 14 28
  let r := cascade l.stages ds m
  let b := if x.blank then span else l.blank
  let k := if x.clip then span else l.clip
  let l1 : LaneChain := { l with phase := (l.phase + word) % 2 ^ 48, stages := r.1, blank := b - 1, clip := k - 1 }
  match r.2 with
  | none => (l1, none)
  | some y =>
    let h := (y :: l.hist).take 32
    if l.pos < 2 ^ 46 then
      ({ l1 with hist := h, pos := l.pos + inv - 2 ^ 46, count := l.count + 1 },
       some ⟨resample l.pos h, decide (0 < b), decide (0 < k)⟩)
    else ({ l1 with hist := h, pos := l.pos - 2 ^ 46 }, none)

/-- A run of zone output samples enters a branch; its output samples with their numbers since the reset, oldest first. -/
def LaneChain.run (ds : List FirDesign) (span word inv : Nat) : LaneChain → List ZoneSample → LaneChain × List (Nat × ZoneSample)
  | l, [] => (l, [])
  | l, x :: xs =>
    ((LaneChain.run ds span word inv (l.step ds span word inv x).1 xs).1,
     ((l.step ds span word inv x).2.toList.map fun y => (l.count, y)) ++
       (LaneChain.run ds span word inv (l.step ds span word inv x).1 xs).2)

/-- Gain and rounding to 24 bits, saturating at ±(2²³ − 1) (R156): the value, and whether it saturated. -/
def laneOutput (gainDb : Nat) (x : Cx) : Cx × Bool :=
  let g := ampRatio (100 * gainDb)
  let f (v : Int) : Int := convRound (v * g) 20
  let c (v : Int) : Int := max (-(2 ^ 23 - 1)) (min (2 ^ 23 - 1) v)
  (⟨c (f x.re), c (f x.im)⟩, decide (c (f x.re) ≠ f x.re) || decide (c (f x.im) ≠ f x.im))

/-- Table 5-10. -/
def Sample.bytes (y : Sample) : Bytes :=
  leBytes 1 (flag y.settle 0 + flag y.blank 1 + flag y.clip 2 + flag y.sat 3 + flag y.slew 4) ++ sleBytes 3 y.x.re ++
    [0] ++ sleBytes 3 y.x.im

/-- A sample joins a measurement window: one that carries `CLIP` or `BLANK` is only counted (R129, R130). -/
def LevelWindow.take (w : LevelWindow) (y : Sample) : LevelWindow :=
  if y.blank ∨ y.clip then { w with blank := w.blank + (if y.blank then 1 else 0), clip := w.clip || y.clip }
  else { w with power := w.power + y.x.normSq, count := w.count + 1 }

/-! ## Diversity sums (R132, R133, R135) -/

/-- The branches that have a weight, each with its noise variance: a marked one has weight 0 (R135). -/
def weighed (bs : List (Nat × SymbolRx)) : List (Nat × SymbolRx) := bs.filter fun b => !b.2.marked

/-- A number over a noise variance, in 2⁻¹⁶. -/
def overNoise (noise : Nat) (x : Cx) : Cx := (Cx.scale (2 ^ 16) x).div (max 1 noise)

/-- DAB: z = Σ r_l · conj(r_(l−1)) / σ², in 2⁻¹⁶ (R132). -/
def dabCell (bs : List (Nat × SymbolRx)) (k : Nat) : Cx :=
  Cx.sum ((weighed bs).map fun b => overNoise b.1 ((b.2.cells.getD k ⟨0, 0⟩).mul (b.2.other.getD k ⟨0, 0⟩).conj))

/-- DRM: x = Σ conj(Ĥ) · r / σ² over Σ |Ĥ|² / σ², in 2⁻¹⁶ (R132). -/
def drmCell (bs : List (Nat × SymbolRx)) (k : Nat) : Cx :=
  let num := Cx.sum ((weighed bs).map fun b => overNoise b.1 ((b.2.other.getD k ⟨0, 0⟩).conj.mul (b.2.cells.getD k ⟨0, 0⟩)))
  let den : Nat := ((weighed bs).map fun b => 2 ^ 16 * (b.2.other.getD k ⟨0, 0⟩).normSq / max 1 b.1).sum
  (Cx.scale (2 ^ 16) num).div (max 1 den)

/-- The carriers of a combined symbol; none where no branch has a weight: the symbol is erased (R226). -/
def combineCells (dab : Bool) (bs : List (Nat × SymbolRx)) : List Cx :=
  (List.range (((weighed bs).map (·.2.cells.length)).foldl max 0)).map fun k => if dab then dabCell bs k else drmCell bs k

/-- Mean amplitude over the past samples of a branch. -/
def meanAmp (past : List Cx) : Nat := (past.map Cx.abs).sum / max 1 past.length

/-- The strongest of the branches by mean amplitude. -/
def strongestOf (pasts : List (List Cx)) : Nat :=
  (List.range pasts.length).foldl (fun b i => if meanAmp (pasts.getD b []) < meanAmp (pasts.getD i []) then i else b) 0

/-- A branch's sample rotated onto the strongest branch by the phase of their cross-correlation over the past 64 samples. -/
def rotateOnto (past strong : List Cx) (x : Cx) : Cx :=
  let c := Cx.sum ((past.zip strong).map fun e => e.1.mul e.2.conj)
  if c.normSq = 0 then x else (x.mul c.conj).div c.abs

/-- Phase diversity (R133): rotated branches weighed by mean amplitude over noise variance, a marked one with 0 (R135).
Log: 177 (DESIGN CHOICE). -/
def phaseSum (pasts : List (List Cx)) (noise : List Nat) (xs : List (Cx × Bool)) : Cx :=
  let strong := pasts.getD (strongestOf pasts) []
  let w (i : Nat) : Nat := if (xs.getD i (⟨0, 0⟩, true)).2 then 0 else 2 ^ 16 * meanAmp (pasts.getD i []) / max 1 (noise.getD i 1)
  let ws := (List.range xs.length).map w
  (Cx.sum ((List.range xs.length).map fun i =>
    Cx.scale (w i) (rotateOnto (pasts.getD i []) strong (xs.getD i (⟨0, 0⟩, true)).1))).div (max 1 ws.sum)

end Sys2Proof.Machine
end

