-- ==== Sys2Proof/Machine/Audio.lean ====
section
/-! DEFINITION. Machine/Audio.lean: the sample chains of the AM and FM demodulators, of the Flurry taps and of the flakes, and what
they measure (chapter 06). Filters whose coefficients the spec does not give use `Config.coef`. -/

namespace Sys2Proof.Machine

/-! ## Filters -/

/-- A filter of at most 128 taps over its history, newest first.
Log: 186 (DESIGN CHOICE). -/
def fir (id : Nat) (hist : List Int) : Int :=
  convRound (((List.range 128).zip hist).map fun e => Config.coef id e.1 * e.2).sum 20

def firCx (id : Nat) (hist : List Cx) : Cx := ⟨fir id (hist.map (·.re)), fir id (hist.map (·.im))⟩

/-- A value enters a history. -/
def push {α : Type} (n : Nat) (x : α) (hist : List α) : List α := (x :: hist).take n

/-- A first-order low-pass moves towards its input by `k` / 2²⁴ of the distance. -/
def follow (k acc x : Int) : Int := acc + convRound ((x - acc) * k) 24

/-- 1 − e^(−1/(τ · 256 kHz)) in 2⁻²⁴ (R183). -/
def deemphasis (sel : Nat) : Int := if sel = 1 then 1260828 else 851448

/-- The second-order low-pass of R186: its corner in 10 Hz, its last two inputs and outputs, and its input. -/
def highCut (corner : Nat) (h : List Int) (x : Int) : List Int × Int :=
  let c (i : Nat) : Int := Config.coef (48 + i) corner
  let y := convRound (c 0 * x + c 1 * h.getD 0 0 + c 2 * h.getD 1 0 - c 3 * h.getD 2 0 - c 4 * h.getD 3 0) 20
  ([x, h.getD 0 0, y, h.getD 2 0], y)

/-- Output of the resampler to 48 kHz at one of its phases. -/
def toPcm (id phase : Nat) (hist : List (Int × Int)) : Int × Int :=
  let one (f : Int × Int → Int) : Int :=
    clampTo 24 (convRound (((List.range 64).zip hist).map fun e => Config.coef id (64 * phase + e.1) * f e.2).sum 28)
  (one (·.1), one (·.2))

/-! ## Windows (Table 6-1) -/

/-- d[n] = arg(x[n] · conj(x[n−1])) × f_out / 2π, in 0.01 Hz (R181). -/
def discriminate (rate : Nat) (x prev : Cx) : Int := argOf (x.mul prev.conj) * (100 * rate) / 2 ^ 32

/-- A sample joins a window: one that carries `BLANK` or `CLIP` is excluded from every measure (R184). `usn` and `mp` are the band
of the multiplex signal and of |x| that Table 6-1 names. -/
def AudioWindow.take (w : AudioWindow) (am : Bool) (rate : Nat) (x : Cx) (blank clip : Bool) (d usn mp pll : Int) : AudioWindow :=
  let lvl := w.level.take { x := x, settle := false, blank := blank, clip := clip, sat := false, slew := false }
  if blank ∨ clip then { w with level := lvl }
  else
    let tone := (sineCosine 24 (w.level.count * (2 ^ 48 * 19000 / rate))).conj
    { level := lvl, sumD := w.sumD + d, maxD := if w.level.count = 0 then d else max w.maxD d
      minD := if w.level.count = 0 then d else min w.minD d, sumA := w.sumA + x.abs, sumA2 := w.sumA2 + x.normSq
      pilot := w.pilot.add (Cx.scale d tone), usn := w.usn + (usn * usn).toNat, mp := w.mp + (mp * mp).toNat
      pll := w.pll + pll, pts := if am then w.pts ++ [(x.abs, d)] else w.pts }

/-- Mean of the second over the entries whose first is above half its mean. -/
def strongMean (pts : List (Nat × Int)) : Int :=
  let half := (pts.map (·.1)).sum
  let ps := pts.filter fun e => decide (half < 2 * e.1 * pts.length)
  (ps.map (·.2)).sum / max 1 (ps.length : Int)

/-- The measures of a window of an AM or FM carrier (Table 6-1); `m` gives the level and the marks.
Log: 191 (DEDUCED). -/
def AudioWindow.measures (w : AudioWindow) (am locked : Bool) (m : Measures) : Measures :=
  let n := w.level.count
  if n = 0 then m
  else
    let mp := 1000 * (w.mp * n).sqrt / max 1 w.sumA
    if am then
      { m with offset := if locked then w.pll * 1600000 / 2 ^ 48 / n else strongMean w.pts
               dev := 1000 * (2 * (w.sumA2 * n - w.sumA * w.sumA)).sqrt / max 1 w.sumA, pilot := 0, usn := 0, mp := mp }
    else
      let off := w.sumD / n
      { m with offset := off, dev := (max (w.maxD - off) (off - w.minD)).toNat / 10000
               pilot := 2 * w.pilot.abs / 2 ^ 23 / n / 10000, usn := centiDb w.usn (n * 28125000000000) / 10, mp := mp }

/-! ## The AM demodulator (R177, R178) -/

/-- The carrier PLL takes a sample: its phase error in 2⁻³² turn and its new phase and frequency, within ±500 Hz.
Log: 186 (DESIGN CHOICE). -/
def carrierPll (c : DemodChain) (x : Cx) : Int × Nat × Int :=
  let e := argOf (x.mul (sineCosine 24 c.phase).conj)
  let w := max (-8796093022208) (min 8796093022208 (c.word + Config.coef 40 0 * e / 2 ^ 16))
  (e, (((c.phase : Int) + w + Config.coef 40 1 * e / 2 ^ 16) % 2 ^ 48).toNat, w)

/-- One lane sample through the AM demodulator: `fade` sixteenths of synchronous detection and `mute` in 0.01 dB; the chain, the
window, the phase error in 0.01° and the PCM samples.
Log: 186 (DESIGN CHOICE). -/
def DemodChain.am (bw fade mute : Nat) (c : DemodChain) (w : AudioWindow) (y : Sample) :
    DemodChain × AudioWindow × Int × List (Int × Int) :=
  let hist := push 128 y.x c.hist
  let x := firCx (16 + bw) hist
  let p := carrierPll c x
  let sync := (x.mul (sineCosine 24 c.phase).conj).re / 2 ^ 23
  let v := ((x.abs : Int) * (16 - fade) + sync * fade) / 16 * 2 ^ 8
  let mean := follow 131252 c.mean v
  let norm := (v - mean) * 2 ^ 30 / max 1 mean
  let a := convRound (norm * ampRatio (-(mute : Int))) 16
  let audio := push 64 (a, a) c.audio
  let amps := push 128 (x.abs : Int) c.amps
  let d := discriminate 16000 x c.prev
  ({ c with hist := hist, prev := x, phase := p.2.1, word := p.2.2, mean := mean, audio := audio, amps := amps },
   w.take true 16000 x y.blank y.clip d 0 (fir 36 amps) p.2.2, p.1 * 36000 / 2 ^ 32,
   [0, 1, 2].map fun i => toPcm 33 i audio)

/-! ## The FM demodulator (R180–R183, R186) -/

/-- The pilot PLL takes a multiplex sample: the low-passed pilot, its phase error in 2⁻³² turn, and the new phase and frequency,
within ±2 Hz of 19 kHz.
Log: 186 (DESIGN CHOICE). -/
def pilotPll (c : DemodChain) (d : Int) : Cx × Int × Nat × Int :=
  let r := sineCosine 24 c.phase
  let low : Cx := ⟨follow (Config.coef 41 0) c.low.re (d * r.im / 2 ^ 23), follow (Config.coef 41 0) c.low.im (d * r.re / 2 ^ 23)⟩
  let e := argOf low
  let w := max (-2199023255) (min 2199023255 (c.word + Config.coef 41 1 * e / 2 ^ 16))
  (low, e, (((c.phase : Int) + 20890720927744 + w + Config.coef 41 2 * e / 2 ^ 16) % 2 ^ 48).toNat, w)

/-- What shapes the audio of an FM lane: `FM_BW` and `DEEMPH`, sixteenths of stereo, separation in 0.0001 %, soft mute in
0.01 dB, and the high-cut corner in 10 Hz. -/
structure FmShape where
  bw    : Nat
  deem  : Nat
  fade  : Nat
  sep   : Nat
  mute  : Nat
  hicut : Nat

/-- One lane sample through the FM demodulator: the chain, the window, the pilot's phase error in 0.01° with its deviation in Hz,
and the PCM samples. 75 kHz of L+R alone gives 0.5 of full scale (R181).
Log: 186 (DESIGN CHOICE). -/
def DemodChain.fm (f : FmShape) (c : DemodChain) (w : AudioWindow) (y : Sample) :
    DemodChain × AudioWindow × (Int × Nat) × List (Int × Int) :=
  let hist := push 128 y.x c.hist
  let x := firCx (24 + f.bw) hist
  let d := discriminate 256000 x c.prev
  let p := pilotPll c d
  let mpx := push 128 d c.mpx
  let diff := push 128 (convRound (2 * d * (sineCosine 24 (2 * c.phase)).im) 23) c.diff
  let sum := fir 32 mpx * 2 ^ 30 / 7500000
  let dif := fir 32 diff * 2 ^ 30 / 7500000 * f.fade * f.sep / 16000000
  let de (acc v : Int) : Int := if f.deem = 0 then v else follow (deemphasis f.deem) acc v
  let deem := (de c.deem.1 (sum + dif), de c.deem.2 (sum - dif))
  let l := highCut f.hicut c.cutL deem.1
  let r := highCut f.hicut c.cutR deem.2
  let g := ampRatio (-(f.mute : Int))
  let audio := push 64 (convRound (l.2 * g) 16, convRound (r.2 * g) 16) c.audio
  let amps := push 128 (x.abs : Int) c.amps
  let out := decide (16 ≤ c.pos + 3)
  ({ c with hist := hist, prev := x, phase := p.2.2.1, word := p.2.2.2, low := p.1, mpx := mpx, diff := diff, deem := deem,
            cutL := l.1, cutR := r.1, audio := audio, amps := amps, pos := if out then c.pos - 13 else c.pos + 3 },
   w.take false 256000 x y.blank y.clip d (fir 34 mpx) (fir 35 amps) 0, (p.2.1 * 36000 / 2 ^ 32, 2 * p.1.abs / 100),
   if out then [toPcm 37 (c.pos - 13) audio] else [])

/-! ## Taps and flakes (R192, R195, R198) -/

/-- The half-band stages of a tap: three of the short design (Table 6-3). -/
def tapDesigns : List FirDesign := List.replicate 3 ⟨3, 15, 17, 28⟩

/-- Zone output samples that a tap output sample spans: three short stages and the resampler, counted as R163 counts a lane's. -/
def tapSpan : Nat := 347

/-- Output `q` of a tap at bin `k`: the prototype filter over the tap's past, mixed from (k − 128) · 114 kHz = (k − 128)/256 of the
tap's rate (Table 6-3).
Log: 186 (DESIGN CHOICE). -/
def binOut (k : Int) (q : Nat) (past : List ZoneSample) : Cx :=
  (Cx.sum (((List.range 1024).zip past).map fun e =>
    Cx.scale (Config.coef 6 e.1) (e.2.x.mul (sineCosine 20 (((k - 128) * ((q : Int) - e.1) * 2 ^ 40) % 2 ^ 48).toNat).conj))).round 39 28

/-- The bin nearest an offset from the tap centre, in mHz (R195). -/
def nearestBin (off : Int) : Int := 128 + (off + 57000000) / 114000000

/-- A bin sample through the flake NCO and the flake filter: the residual offset of the carrier from the bin centre goes. -/
def BinChain.step (bw : Nat) (off : Int) (b : BinChain) (x : Cx) : BinChain × Cx :=
  let res := off - (nearestBin off - 128) * 114000000
  let hist := push 128 ((x.mul (sineCosine 24 b.phase).conj).round 23 28) b.hist
  (⟨(((b.phase : Int) + 2 ^ 48 * res / 456000000) % 2 ^ 48).toNat, hist⟩, firCx (44 + bw) hist)

/-- The exact sequence 1, −j, −1, +j for 57 kHz at 228 kS/s (R195). -/
def mix57 (n : Nat) (d : Int) : Cx :=
  match n % 4 with
  | 0 => ⟨d, 0⟩
  | 1 => ⟨0, -d⟩
  | 2 => ⟨-d, 0⟩
  | _ => ⟨0, d⟩

/-- The branches of a flake behind the discriminator: decimation by 2, 57 kHz, the RDS filter with decimation by 24 to 8 samples
per bit, and L+R at 48 kHz (R195). -/
def FlakeChain.behind (c : FlakeChain) (d : Int) : FlakeChain :=
  let mpx := push 128 d c.mpx
  let lrOut := decide (19 ≤ c.pos + 2)
  let c1 : FlakeChain := { c with mpx := mpx, count := c.count + 1, pos := if lrOut then c.pos - 17 else c.pos + 2
                                  lr := if lrOut then push 64 (fir 42 mpx) c.lr else c.lr }
  if c.count % 2 = 1 then c1
  else
    let mixed := push 128 (mix57 (c.count / 2) (fir 39 mpx)) c.mixed
    { c1 with mixed := mixed, rds := if c.count % 48 = 0 then push 64 (firCx 43 mixed) c.rds else c.rds }

/-- A flake takes a bin sample: `off` is the carrier's offset from the tap centre in mHz, `bw` is `FLK_BW`, and `q` numbers the
tap sample (R195, R198). -/
def Flake.takeBin (bw : Nat) (off : Int) (q : Nat) (past : List ZoneSample) (f : Flake) : Flake :=
  let marks := past.take 1024
  let blank := marks.any (·.blank)
  let clip := marks.any (·.clip)
  let outs : List (BinChain × Cx) := ([off, off + 200000000, off - 200000000].zip f.chain.bins).map fun e =>
    e.2.step bw e.1 (binOut (nearestBin e.1) q past)
  let x := (outs.map (·.2)).headD ⟨0, 0⟩
  let d := discriminate 456000 x f.chain.prev
  let bins : List BinChain := outs.map (·.1)
  let c0 : FlakeChain := { f.chain with bins := bins, prev := x }
  let c := c0.behind d
  let mp := fir 38 ((bins.headD ⟨0, []⟩).hist.map fun v => (v.abs : Int))
  { f with chain := c, window := f.window.take false 456000 x blank clip d (fir 46 c.mpx) mp 0
           adj := if blank ∨ clip then f.adj else (f.adj.zip outs).map fun e => e.1 + e.2.2.normSq }

/-- `ADJ_UP` and `ADJ_LO` in 0.1 dB (R198). -/
def adjacent (adj : List Nat) (i : Nat) : Int := centiDb (adj.getD i 0) (max 1 (adj.getD 0 0)) / 10

end Sys2Proof.Machine
end

