-- ==== Sys2Proof/Machine/Units.lean ====
section
/-! DEFINITION. Machine/Units.lean: reading and storing one unit of each kind, and the state that several units judge
commands by: the safety path (R394, R395), the reserved spare (R210) and a replay (R376). -/

namespace Sys2Proof.Machine

/-! ## Units -/

def ant (s : State) (n : Nat) : Ant := mgetD s.rf.ants n Ant.reset
def putAnt (s : State) (n : Nat) (a : Ant) : State := s.setRf { s.rf with ants := mput s.rf.ants n a }
def zone (s : State) (z : Nat) : Zone := mgetD s.zones z Zone.reset
def putZone (s : State) (z : Nat) (v : Zone) : State := s.setZones (mput s.zones z v)

/-- A lane by its `TARGET`. -/
def lane (s : State) (tgt : Nat) : Lane := mgetD s.lanes tgt Lane.reset
def putLane (s : State) (tgt : Nat) (v : Lane) : State := s.setLanes (mput s.lanes tgt v)
def demod (s : State) (n : Nat) : Demod := mgetD s.demods n Demod.reset
def putDemod (s : State) (n : Nat) (v : Demod) : State := s.setDemods (mput s.demods n v)
def ofdm (s : State) (n : Nat) : Ofdm := mgetD s.ofdms n Ofdm.reset
def putOfdm (s : State) (n : Nat) (v : Ofdm) : State := s.setOfdms (mput s.ofdms n v)
def survey (s : State) (n : Nat) : Survey := mgetD s.surveys n Survey.reset
def putSurvey (s : State) (n : Nat) (v : Survey) : State := s.setSurveys (mput s.surveys n v)
def tap (s : State) (t : Nat) : Tap := mgetD s.flurry.taps t Tap.reset
def putTap (s : State) (t : Nat) (v : Tap) : State := s.setFlurry { s.flurry with taps := mput s.flurry.taps t v }
def flake (s : State) (n : Nat) : Flake := mgetD s.flurry.flakes n Flake.reset
def putFlake (s : State) (n : Nat) (v : Flake) : State := s.setFlurry { s.flurry with flakes := mput s.flurry.flakes n v }
def afOf (s : State) (n : Nat) : Af := mgetD s.afs n Af.reset
def putAf (s : State) (n : Nat) (v : Af) : State := s.setAfs (mput s.afs n v)
def path (s : State) (p : Nat) : Path := mgetD s.paths p Path.reset
def putPath (s : State) (p : Nat) (v : Path) : State := s.setPaths (mput s.paths p v)
def sap (s : State) (n : Nat) : Sap := mgetD s.saps n Sap.reset
def putSap (s : State) (n : Nat) (v : Sap) : State := s.setSaps (mput s.saps n v)

/-! ## Target groups -/

/-- Full lanes, 0x0300–0x031F. -/
def toFull (t : Nat) : Bool := decide (0x0300 ≤ t ∧ t ≤ 0x031F)

/-- Survey lanes, 0x0400–0x0407. -/
def toSurvey (t : Nat) : Bool := decide (0x0400 ≤ t ∧ t ≤ 0x0407)
def toLane (t : Nat) : Bool := toFull t || toSurvey t
def toZone (t : Nat) : Bool := decide (0x0200 ≤ t ∧ t ≤ 0x021F)
def toAnt (t : Nat) : Bool := decide (0x0100 ≤ t ∧ t ≤ 0x0103)
def toFlake (t : Nat) : Bool := decide (0x0500 ≤ t ∧ t ≤ 0x05FF)
def toPath (t : Nat) : Bool := decide (0x0600 ≤ t ∧ t ≤ 0x0617)
def toPort (t : Nat) : Bool := decide (0x0800 ≤ t ∧ t ≤ 0x0803)
def toTx (t : Nat) : Bool := t == 0x0900

/-! ## Lane settings (Table 5-13) -/

def Lane.use (l : Lane) : Nat := byteAt l.cfg 0
def Lane.nZones (l : Lane) : Nat := byteAt l.cfg 1
def Lane.showSettle (l : Lane) : Bool := bit (byteAt l.cfg 2) 0
def Lane.blkLen (l : Lane) : Nat := if le l.cfg 12 2 = 0 then 1024 else le l.cfg 12 2
def Lane.shedPri (l : Lane) : Nat := byteAt l.cfg 14

/-- The zones that a lane binds, in branch order (R168). -/
def Lane.zones (l : Lane) : List Nat :=
  if l.st = .idle then [] else (List.range l.nZones).map fun i => byteAt l.cfg (4 + i)

/-- The lane has output: Running or Settling. -/
def Lane.live (l : Lane) : Bool := decide (l.st = .running) || decide (l.st = .settling)

/-! ## The safety path (R382, R394, R395) -/

def safeLanes (s : State) : Nat := le s.pol.cfg 0 4

/-- Full lane `n` is designated. -/
def laneDesignated (s : State) (n : Nat) : Bool := bit (safeLanes s) n

/-- The designated flakes. -/
def safeFlakes (s : State) : List Nat :=
  ([0, 1, 2, 3].map fun i => le s.pol.cfg (4 + 2 * i) 2).filter fun t => t != 0xFFFF

def flakeDesignated (s : State) (n : Nat) : Bool := (safeFlakes s).contains (0x0500 + n)

/-- Any source is designated. -/
def anyDesignated (s : State) : Bool := safeLanes s != 0 || !(safeFlakes s).isEmpty

/-- The alert window: from the first confirmed start to the confirmed end of the last open alert (R384). -/
def alertWindow (s : State) : Bool := !s.pol.openAlerts.isEmpty

/-- A safety break-in is active: an alert or PTT (R328). -/
def safetyBreak (s : State) : Bool := s.tx.rank == 1 || s.tx.rank == 2

/-- The commands of R395 are held. -/
def safetyOn (s : State) : Bool := alertWindow s || safetyBreak s

/-- The taps of designated flakes. -/
def safeTaps (s : State) : List Nat := (safeFlakes s).map fun t => (flake s (t - 0x0500)).tap

/-- A zone of the safety path: one that a designated lane binds or that feeds the tap of a designated flake. -/
def zoneSafe (s : State) (z : Nat) : Bool :=
  ((List.range 32).any fun n => laneDesignated s n && (lane s (0x0300 + n)).zones.contains z) ||
    (safeTaps s).any fun t => (tap s t).on && (tap s t).zone == z

/-- An input that feeds the safety path. -/
def antSafe (s : State) (a : Nat) : Bool := (List.range 32).any fun z => z / 8 == a && zoneSafe s z

/-- Break-in source kind and index of `ALERT_SRC` and `PTT_SRC` (Table 10-10), where they are enabled. -/
def namedSources (s : State) : List (Nat × Nat) :=
  (if bit (byteAt s.tx.brk 0) 0 then [(byteAt s.tx.brk 1, byteAt s.tx.brk 2)] else []) ++
    (if bit (byteAt s.tx.brk 0) 1 then [(byteAt s.tx.brk 3, byteAt s.tx.brk 4)] else [])

/-- `BRK_PROG` is reserved (R329).
Log: 112 (DEDUCED). -/
def brkProg (s : State) : Option Nat :=
  if bit (byteAt s.tx.brk 0) 0 ∧ byteAt s.tx.brk 1 = 5 ∧ byteAt s.tx.brk 10 < 24 then some (byteAt s.tx.brk 10) else none

/-- A path of the safety path by name: `BRK_PROG` or a named source. -/
def pathNamed (s : State) (p : Nat) : Bool := decide (brkProg s = some p) || (namedSources s).contains (4, p)

/-! ## Branches and slews -/

/-- The branches that contribute now, lowest first (R131, R134, R172): allowed ones whose zone runs; one of them in Single and in
preamble selection.
Log: 163 (DEDUCED). -/
def contributes (s : State) (l : Lane) : List Nat :=
  let all := (List.range l.zones.length).filter fun i => bit (byteAt l.div 2) i && decide ((zone s (l.zones.getD i 0)).st = .running)
  match byteAt l.div 0 with
  | 0 => all.take 1
  | 3 => if all.contains l.selected then [l.selected] else all.take 1
  | _ => all

/-- A slew runs, or ended after `start`, the beginning of a window (R122). -/
def slewOverlaps (s : State) (start : Sid) : Bool :=
  decide (s.aur.st = .slewing) || (decide (0 < s.aur.slewEnd) && decide (start < s.aur.slewEnd))

/-! ## Programme feeds (R214, R231) -/

/-- The `PROG` of the AM or FM setting of a lane, last accepted: 0xFF for none. -/
def laneProg (s : State) (n : Nat) : Nat :=
  let d := demod s n
  match (lane s (0x0300 + n)).use with
  | 2 => byteAt (d.amNext.getD d.am) 0
  | 3 => byteAt (d.fmNext.getD d.fm) 0
  | _ => 0xFF

/-- The full lane whose AM or FM demodulator feeds a path. -/
def pathLane (s : State) (p : Nat) : Option Nat :=
  (List.range 32).find? fun n => laneProg s n == p && decide ((lane s (0x0300 + n)).st ≠ .idle)

/-- A path is fed by a source other than full lane `n`'s demodulator. -/
def progTaken (s : State) (p n : Nat) : Bool :=
  (mget s.services p).isSome || decide (brkProg s = some p) ||
    match pathLane s p with
    | some m => m != n
    | none => false

/-- A path's source delivers PCM now: its lane is Running, or its service is Playing or Muted (Table 8-2). -/
def delivers (s : State) (p : Nat) : Bool :=
  match mget s.services p with
  | some v => decide (v.st = .playing) || decide (v.st = .muted)
  | none =>
    match pathLane s p with
    | some n => decide ((lane s (0x0300 + n)).st = .running)
    | none => false

/-! ## Stream rings that units name -/

/-- A binding to ring `n` is taken away. -/
def unring {α : Type} (n : Nat) (f : α → Nat) (o : Option α) : Option α := o.filter fun x => f x != n

/-- No unit names ring `n` any more: it has been destroyed. -/
def unbindRing (s : State) (n : Nat) : State :=
  let s1 := s.setDemods (s.demods.map fun e => (e.1, { e.2 with rdsRing := unring n (·.1) e.2.rdsRing }))
  let s2 := s1.setFlurry { s1.flurry with rings := s1.flurry.rings.filter fun e => e.2.1 != n }
  let s3 := s2.setOfdms (s2.ofdms.map fun e => (e.1,
    { e.2 with fic := unring n (·.1) e.2.fic, pad := unring n (·.1) e.2.pad, subch := unring n (·.1) e.2.subch }))
  let s4 := s3.setSurveys (s3.surveys.map fun e => (e.1,
    if byteAt e.2.cfg 1 = n then { e.2 with cfg := splice e.2.cfg 1 [0xFF] } else e.2))
  s4.setSaps (s4.saps.map fun e => (e.1, { e.2 with cap := unring n id e.2.cap, play := unring n id e.2.play }))

/-- A unit names ring `n` for RDS records (R191). -/
def rdsRingUsed (s : State) (n : Nat) : Bool :=
  (s.demods.any fun e => decide (e.2.rdsRing.map (·.1) = some n)) || s.flurry.rings.any fun e => e.2.1 == n

/-- A unit names ring `n` for the records of chapter 07 (R254). -/
def recRingUsed (s : State) (n : Nat) : Bool :=
  (s.ofdms.any fun e => decide (e.2.fic.map (·.1) = some n) || decide (e.2.pad.map (·.1) = some n) ||
    decide (e.2.subch.map (·.1) = some n)) ||
  s.surveys.any fun e => byteAt e.2.cfg 0 != 0 && byteAt e.2.cfg 1 == n

/-- A port captures to or plays from ring `n`. -/
def sapRingUsed (s : State) (n : Nat) : Bool := s.saps.any fun e => decide (e.2.cap = some n) || decide (e.2.play = some n)

/-- A lane streams to ring `n`. -/
def laneRingUsed (s : State) (n : Nat) : Bool :=
  match mget s.rings n with
  | some r => (match r.bind with
    | .lane _ => true
    | _ => false)
  | none => false

/-! ## The converter rate and its latches (R19, R119, R121) -/

/-- The converter rate in force in Hz; 3.2 GS/s before it first locks (R119). -/
def fsOf (s : State) : Nat := if s.clk.sclkHz = 0 then 3200000000 else s.clk.sclkHz

/-- The used list of Aurora has changed: an evaluation is due (R114). -/
def usedChanged (s : State) : State := s.setAur { s.aur with trigger := true }

/-- The converter sample index at a time, from the last latch at the rate in force. -/
def indexAt (s : State) (t : Sid) : Nat :=
  match s.rf.latches with
  | (i, u) :: _ => i + (t - u) * fsOf s / secU
  | [] => t * fsOf s / secU

/-- The sample islands latch a sample index and its Sidereal time (R19, R121); the four share one clock. -/
def latch (s : State) (index : Nat) (t : Sid) : State :=
  s.setRf { s.rf with latches := ((index, t) :: s.rf.latches).take 2 }

/-- The Sidereal time of a converter sample: between the two last latches by interpolation, else at the rate in force (R121). -/
def timeAt (s : State) (index : Nat) : Sid :=
  match s.rf.latches with
  | (i, u) :: (j, v) :: _ =>
    if j < i ∧ j ≤ index ∧ index ≤ i then v + (u - v) * (index - j) / (i - j) else u + (index - i) * secU / fsOf s
  | (i, u) :: _ => u + (index - i) * secU / fsOf s
  | [] => index * secU / fsOf s

/-! ## The sources of a recording (R359, R360, R366) -/

def firnZones (s : State) : List Nat := (List.range 32).filter fun z => bit (le s.firn.cfg 0 4) z
def firnLanes (s : State) : List Nat := (List.range 32).filter fun n => bit (le s.firn.cfg 4 4) n

/-- The zone sources that may be written now: all in Avalanche, else the two lowest, and none that is shed (R360, R366). -/
def zonesAllowed (s : State) : List Nat :=
  (if s.pwr.state = .avalanche then firnZones s else (firnZones s).take 2).filter fun z => !s.firn.shed.contains z

/-- A zone output sample as 5 bytes of a zone chunk (R361), and back. -/
def ZoneSample.bytes (y : ZoneSample) : Bytes :=
  leBytes 5 ((y.x.re % 2 ^ 18).toNat + 2 ^ 18 * (y.x.im % 2 ^ 18).toNat + flag y.blank 36 + flag y.clip 37)

def zoneSampleOf (b : Bytes) : ZoneSample :=
  let v := le b 0 5
  ⟨⟨signed 18 (v % 2 ^ 18), signed 18 (v / 2 ^ 18 % 2 ^ 18)⟩, bit v 36, bit v 37⟩

/-- The run without its first `k` samples. -/
def ZoneRun.behind (s : State) (r : ZoneRun) (k : Nat) : ZoneRun :=
  { index := r.index + k, time := r.time + k * (8 * secU) / fsOf s, data := r.data.drop k }

/-- Whole chunks of 4096 samples of a run, and what is left of it. -/
def cutRun (s : State) (src : Nat) : Nat → ZoneRun → List Chunk × ZoneRun
  | 0, r => ([], r)
  | k + 1, r =>
    if r.data.length < 4096 then ([], r)
    else
      let c : Chunk := { source := src, kind := 1, flags := 0, len := 20480, index := r.index, time := r.time, count := 0,
                         data := ((r.data.take 4096).map ZoneSample.bytes).flatten }
      (c :: (cutRun s src k (r.behind s 4096)).1, (cutRun s src k (r.behind s 4096)).2)

/-- The interruption of a source is over: its gap chunk waits to be written (R366). -/
def closeGap (s : State) (src : Nat) : State :=
  match mget s.firn.open_ src with
  | some g => s.setFirn { s.firn with wait := s.firn.wait ++ [g], open_ := mdel s.firn.open_ src }
  | none => s

/-- Samples of a zone source that are not recorded join the gap of its interruption (R366). -/
def skipRun (s : State) (src flags : Nat) (r : ZoneRun) : State :=
  let g := (mget s.firn.open_ src).getD
    { source := src, kind := 3, flags := flags, len := 0, index := r.index, time := r.time, count := 0, data := [] }
  s.setFirn { s.firn with open_ := mput s.firn.open_ src { g with count := g.count + r.data.length } }

/-- The samples that a recorded zone gives, the last of them at `t`: into the chunk under way, and while the zone is held back from
the next chunk boundary on into the gap (R360, R361, R366). -/
def recordZone (s : State) (z : Nat) (ys : List ZoneSample) (t : Sid) : State :=
  if firnRecords s = false ∨ (firnZones s).contains z = false ∨ ys = [] then s
  else
    let src := 0x0200 + z
    let n := mgetD s.firn.next src 0
    let fresh : ZoneRun := { index := n, time := t - (ys.length - 1) * (8 * secU) / fsOf s, data := [] }
    let s1 := s.setFirn { s.firn with next := mput s.firn.next src (n + ys.length) }
    let old := ((mget s.firn.runs src).filter fun r => !r.data.isEmpty).getD fresh
    let k := if (zonesAllowed s).contains z then ys.length else if old.data.isEmpty then 0 else min ys.length (4096 - old.data.length)
    let s2 := if k = 0 then s1 else closeGap s1 src
    let r := cutRun s src (ys.length / 4096 + 1) { old with data := old.data ++ ys.take k }
    let s3 := s2.setFirn { s2.firn with wait := s2.firn.wait ++ r.1, runs := mput s2.firn.runs src r.2 }
    if k = ys.length then s3 else skipRun s3 src 1 ({ fresh with data := ys }.behind s k)

/-- The block that a recorded full lane has formed (R361). -/
def recordBlock (s : State) (tgt seq : Nat) (b : Bytes) (t : Sid) : State :=
  if firnRecords s ∧ toFull tgt ∧ (firnLanes s).contains (tgt - 0x0300) then
    s.setFirn { s.firn with wait := s.firn.wait ++
      [{ source := tgt, kind := 2, flags := 0, len := b.length, index := seq, time := t, count := 0, data := b }] }
  else s

/-- On return from Frost every source receives a gap chunk: a zone's chunk under way is lost, and where no sample is, the gap counts
none (R369).
Log: 118 (DEDUCED). -/
def firnThaws (s : State) : State :=
  if firnRecords s = false then s
  else
    let zone (q : State) (z : Nat) : State :=
      let src := 0x0200 + z
      let r := (mget q.firn.runs src).getD { index := mgetD q.firn.next src 0, time := q.sid.now, data := [] }
      closeGap ((skipRun q src 0 r).setFirn { (skipRun q src 0 r).firn with runs := mdel q.firn.runs src }) src
    let lane_ (q : State) (n : Nat) : State :=
      closeGap (skipRun q (0x0300 + n) 0 { index := (lane q (0x0300 + n)).blkSeq, time := q.sid.now, data := [] }) (0x0300 + n)
    (firnLanes s).foldl lane_ ((firnZones s).foldl zone s)

/-- The samples of `LVL_ZONE` join its power over the tick (Table 12-3). -/
def levelZone (s : State) (z : Nat) (ys : List ZoneSample) : State :=
  if firnRecords s ∧ bit (byteAt s.firn.cfg 11) 2 ∧ byteAt s.firn.cfg 22 = z then
    s.setFirn { s.firn with lvlSum := s.firn.lvlSum + (ys.map fun y => y.x.normSq).sum, lvlN := s.firn.lvlN + ys.length }
  else s

/-! ## Tape entries of the receive path (Table 12-2) -/

/-- A tape entry that holds a converter or output sample index. -/
def tapeSample (s : State) (kind : Nat) (pre post : Bytes) : State :=
  if firnRecords s then tape s kind (pre ++ leBytes 8 (indexAt s s.sid.now) ++ post) s.sid.now else s

/-- Zone `z` is a recorded source (R359). -/
def zoneTaped (s : State) (z : Nat) : Bool := bit (le s.firn.cfg 0 4) z

/-- An input that feeds a recorded zone. -/
def antTaped (s : State) (n : Nat) : Bool := (List.range 8).any fun i => zoneTaped s (8 * n + i)

/-- A recorded lane, or a consumer of a recorded zone. -/
def laneTaped (s : State) (tgt : Nat) : Bool :=
  (toFull tgt && bit (le s.firn.cfg 4 4) (tgt - 0x0300)) || (lane s tgt).zones.any (zoneTaped s)

/-- Kind 0x07: the gain of an input has changed from `g0` (R103).
Log: 120 (DEDUCED). -/
def tapeGain (s : State) (n : Nat) (g0 : Int) : State :=
  if antTaped s n ∧ (ant s n).g ≠ g0 then tapeSample s 7 (leBytes 1 n ++ sleBytes 1 (ant s n).g ++ zeros 2) [] else s

/-- Kind 0x06: an NCO word applies.
Log: 120 (DEDUCED). -/
def tapeWord (s : State) (tgt w : Nat) : State := tapeSample s 6 (leBytes 4 tgt) (leBytes 8 w)

/-- Kind 0x0A: a calibration is in force; the CRC-32 of its words is not stated.
Log: 119 (DEDUCED). -/
def tapeCal (s : State) (n : Nat) : State :=
  if firnRecords s ∧ antTaped s n then
    tape (freeValue s).2 10 (leBytes 4 n ++ leBytes 4 (freeValue s).1) s.sid.now
  else s

/-- Kind 0x04: a latch of the four sample islands (R19, R121). -/
def tapeLatch (s : State) (index : Nat) : State :=
  if firnRecords s then
    [0, 1, 2, 3].foldl (fun q n => tape q 4 (leBytes 4 n ++ leBytes 8 index ++ leBytes 8 (q.sid.now / secU) ++
      leBytes 8 (q.sid.now % secU)) q.sid.now) s
  else s

/-- The sample islands latch at a tick boundary or a slew step. -/
def latchNow (s : State) (index : Nat) : State := tapeLatch (latch s index s.sid.now) index

/-! ## The shed ladder (R430, R433) -/

/-- The deepest stage among the first `k` shed actions in force. -/
def shedPos (s : State) (k : Nat) : Nat := ((s.therm.actions.take k).map (·.1)).foldl max 0

/-- The refusal that a stage holds: `ST_THERMAL_SHED`, or `ST_POWER_LIMIT` if only the power limit holds it (R433). -/
def shedRefusal (s : State) (stage : Nat) : Option Nat :=
  if stage ≤ shedPos s s.therm.thermDem then some stThermalShed
  else if stage ≤ shedPos s s.therm.powerDem then some stPowerLimit
  else none

/-! ## Units held for other purposes -/

/-- The lane is the spare of AF following: only `LANE_GET` reaches it (R210). -/
def spareHolds (s : State) (c : Cmd) : Bool :=
  toFull c.tgt && c.op != 0x0409 &&
    s.afs.any fun e => byteAt e.2.cfg 0 != 0 && byteAt e.2.cfg 1 == c.inst

/-- `_GET` commands and stream bindings of zones and lanes (R376).
Log: 122 (DEDUCED). -/
def replayOpen (op : Nat) : Bool :=
  [0x0402, 0x0408, 0x0409, 0x0503, 0x0504, 0x0505, 0x0602, 0x0603, 0x0606, 0x0607, 0x0608, 0x0609].contains op

/-- The unit takes part in the replay that runs: a recorded zone or full lane, or a lane or tap that a recorded zone feeds (R376). -/
def replayed (s : State) (tgt : Nat) : Bool :=
  let rec_ (z : Nat) : Bool := bit (le s.firn.header 24 4) z
  decide (s.firn.st = .replaying) &&
    ((toZone tgt && rec_ (tgt - 0x0200)) || (toFull tgt && bit (le s.firn.header 28 4) (tgt - 0x0300)) ||
      (toLane tgt && (lane s tgt).zones.any rec_) ||
      (toFlake tgt && decide ((flake s (tgt - 0x0500)).st ≠ .free) && rec_ (tap s (flake s (tgt - 0x0500)).tap).zone))

/-- A replay owns the unit that a host command is for (R376). -/
def replayHolds (s : State) (c : Cmd) : Bool :=
  replayed s c.tgt && !replayOpen c.op &&
    match c.a.origin with
    | .replay _ => false
    | _ => true

/-- The state as the replayed units see it: with Sidereal on the recorded time scale (R376). -/
def onRecord (s : State) : State :=
  let d := s.firn.rpShift
  s.setSid { s.sid with now := moved d s.sid.now, next := moved d s.sid.next, bound := moved d s.sid.bound }

/-- A lane's time scale: the recorded one while the lane is replayed. -/
def onScale (s : State) (tgt : Nat) : State := if replayed s tgt && s.firn.rpOn then onRecord s else s

/-- What happened on a lane's time scale, with the device's own Sidereal kept. -/
def offScale (s t : State) : State := t.setSid s.sid

end Sys2Proof.Machine
end

