-- ==== Sys2Proof/Machine/Pipeline.lean ====
section
/-! DEFINITION. Machine/Pipeline.lean: the one path that every Onarix command takes: taking, the hold of R30, the acceptance
checks of Table 2-5, Meridian slots, sending to the owning unit, and completion (R21–R23, R30–R32, R42–R48, R56). -/

namespace Sys2Proof.Machine

/-! ## What a command's meaning supplies -/

/-- How the owning unit answers a command at step 12 of Table 2-5. -/
inductive Reply where
  /-- The state or the resources of the unit refuse it; nothing changes. -/
  | deny (status detail : Nat)
  /-- It takes effect now and completes. -/
  | done (status detail : Nat) (result : Bytes) (s : State)
  /-- It takes effect now and its owning island has still to report the outcome (R23). -/
  | later (status detail : Nat) (result : Bytes) (s : State)
  /-- It is Executing; another occurrence decides its outcome. -/
  | busy (s : State)

/-- A command as the Command Reference and its chapter give it. -/
structure CmdSpec where
  op      : Nat
  /-- The `TARGET` values that it accepts (R39, R485). -/
  target  : Nat → Bool
  /-- Sample-timed (R350). -/
  sample  : Bool := false
  /-- The `LEN` that step 7 requires, from the payload (R485). -/
  len     : Bytes → Nat
  /-- The largest result of the request (R485). -/
  largest : Bytes → Nat := fun _ => 0
  /-- The checks of step 8, in byte order. -/
  fields  : Nat → List Fld := fun _ => []
  /-- The first host address of the payload that fails step 9. -/
  addrs   : State → Cmd → Option Nat := fun _ _ => none
  /-- The safety path holds the command (R314, R331, R395, R403, R412). -/
  hold    : State → Cmd → Bool := fun _ _ => false
  /-- Step 12 of the target unit, and the effect. -/
  unit    : Cmd → State → Reply

/-- A completed command with `ST_OK` and no result. -/
def ok (s : State) : Reply := .done stOk 0 [] s

/-- A completed command with `ST_OK` and a result. -/
def okWith (b : Bytes) (s : State) : Reply := .done stOk 0 b s

/-- The unit's state does not allow the command. -/
def badState : Reply := .deny stBadState 0

/-- An invalid field at payload offset `off`. -/
def badParam (off : Nat) : Reply := .deny stBadParam (16 + off)

/-! ## Commands in flight -/

/-- The command in flight with this number is replaced. -/
def putFlight (s : State) (f : InFlight) : State :=
  s.setCmds { s.cmds with list := s.cmds.list.map fun g => if g.seq = f.seq then f else g }

/-- The first command in flight that passes `p`. -/
def findFlight (s : State) (p : InFlight → Bool) : Option InFlight := s.cmds.list.find? p

/-- The command in flight from a channel with a tag. -/
def byTag (s : State) (o : Origin) (tag : Nat) : Option InFlight :=
  findFlight s fun f => decide (f.cmd.a.origin = o) && f.cmd.a.tag.toNat == tag

/-- The Executing command with an opcode, to a `TARGET`. -/
def executing (s : State) (op target : Nat) : Option InFlight :=
  findFlight s fun f => decide (f.phase = .executing) && f.begun && f.outcome.isNone && f.cmd.op == op && f.cmd.tgt == target

/-- `g` stands before later commands to its `TARGET` from its channel (R30–R32). -/
def standsBefore (c : Cmd) (g : InFlight) : Bool :=
  decide (g.cmd.a.origin = c.a.origin) && g.cmd.tgt == c.tgt && !g.cmd.unordered && decide (g.phase ≠ .waiting)

/-- An earlier command to the `TARGET` is outstanding (R30). -/
def blocked (s : State) (c : Cmd) (seq : Nat) : Bool :=
  !c.unordered && s.cmds.list.any fun g => decide (g.seq < seq) && standsBefore c g

/-- The number of the completion, within this tick, of an earlier command to the `TARGET` (R22, R30).
Log: 10 (DEDUCED). -/
def servedNow (s : State) (c : Cmd) : Option Nat :=
  if c.unordered then none
  else ((s.cmds.served.filter fun e => decide (e.1 = c.a.origin) && e.2.1 == c.tgt).map (·.2.2)).getLast?

/-- Held commands behind which nothing stands any more are freed by completion number `n` (R21, R30). -/
def freeHeld (s : State) (n : Nat) : State :=
  s.setCmds { s.cmds with list := s.cmds.list.map fun g =>
    if (g.phase = .held ∨ g.phase = .heldAfter) ∧ g.freed = none ∧ blocked s g.cmd g.seq = false
    then { g with freed := some n } else g }

/-- The status that a completion carries: `ST_OK` of a late action is `ST_OK_LATE` with its lateness (R353–R355). -/
def finalStatus (f : InFlight) (status detail : Nat) (t : Sid) : Nat × Nat :=
  if f.late ∧ status = stOk then (stOkLate, lateness t f.due) else (status, detail)

/-- A command leaves flight and its completion is written (Table 2-6, R42, R66); none is while the cores are halted
(R389). -/
def complete1 (s : State) (f : InFlight) (status detail : Nat) (result : Bytes) (t : Sid) (mark : Nat) : State :=
  if s.pol.halted then s
  else
  let n := s.cmds.completed
  let served := if f.cmd.unordered ∨ ¬ atBoundary s then s.cmds.served else s.cmds.served ++ [(f.cmd.a.origin, f.cmd.tgt, n)]
  let s1 := s.setCmds { s.cmds with list := s.cmds.list.filter fun g => g.seq != f.seq, completed := n + 1, served := served }
  let s2 := flushFrom (freeHeld s1 n) mark f.evs
  let sd := finalStatus f status detail t
  postCpl s2 f.cmd.a.origin f.cmd.a.tag.toNat f.cmd.a.flags.toNat sd.1 sd.2 result t f.bit

/-- Executing commands of a ring other than the one that destroys it. -/
def ringBusy (s : State) (n : Nat) (d : Origin × Nat) : Bool :=
  s.cmds.list.any fun g =>
    decide (g.cmd.a.origin = .ring n) && decide (g.phase = .executing) &&
      !(decide (g.cmd.a.origin = d.1) && g.cmd.a.tag.toNat == d.2)

/-- A ring that has been destroyed: `RSTATE` 0x0 in its status block, and it is no ring any more (R56). -/
def dropRing (s : State) (n : Nat) : State :=
  match mget s.rings n with
  | none => s
  | some r => unbindRing ((hostStore s (r.statusAddr + 8) [0]).setRings (mdel s.rings n)) n

/-- A `RING_DESTROY` whose ring has no Executing command left completes (R56). -/
def finishDestroy (s : State) (e : Nat × Ring) : State :=
  match e.2.destroying with
  | none => s
  | some d =>
    if ringBusy s e.1 d then s
    else
      match byTag s d.1 d.2 with
      | none => dropRing s e.1
      | some f => dropRing (complete1 s f stOk 0 [] s.sid.now s.ev.nextId) e.1

/-- A command completes, and with it any `RING_DESTROY` that waited for it. Events that its execution raised, those that its
launch raised and those from number `mark` on, are written first (R34).
Log: 12 (DEDUCED). -/
def complete (s : State) (f : InFlight) (status detail : Nat) (result : Bytes) (t : Sid) (mark : Nat) : State :=
  let s1 := complete1 s f status detail result t mark
  s1.rings.foldl finishDestroy s1

/-- The Executing command of an opcode and `TARGET`, if there is one, completes now. -/
def finishOp (s : State) (op target status detail : Nat) (result : Bytes) (mark : Nat) : State :=
  match executing s op target with
  | some f => complete s f status detail result s.sid.now mark
  | none => s

/-! ## Step 12 and the effect -/

/-- Units whose commands are served in Frost (R411). -/
def servedInFrost (unit : Nat) : Bool := unit == 0x00 || unit == 0x0A || unit == 0x0C || unit == 0x0D

/-- Onarix commands to full lanes 0 and 1 in legacy mode (R69). -/
def legacyHolds (s : State) (c : Cmd) : Bool :=
  s.hcfg.legEn && decide (c.a.origin ≠ .legacy) && (c.tgt == 0x0300 || c.tgt == 0x0301)

/-- Step 12 of Table 2-5 in the order of R44. -/
def judge (sp : CmdSpec) (c : Cmd) (s : State) : Reply :=
  if s.pwr.state = .frost ∧ servedInFrost c.unitId = false then .deny stBadState 0x0010
  else if sp.hold s c then .deny stSafetyHold 0
  else if legacyHolds s c ∨ spareHolds s c ∨ replayHolds s c then badState
  else sp.unit c s

/-- A command is sent to its owning island (step 12, then Executing). The events of one that is refused there keep to
R24: it did not execute (R34). An action that passes before its `WHEN` waits there: a sample-timed one for its sample
(R350), any other for the first boundary at or after its `WHEN` (R354). -/
def launch (sp : CmdSpec) (f : InFlight) (s : State) : State :=
  let mark := s.ev.nextId
  let early := decide (s.sid.now < f.due)
  let waits := putFlight s { f with phase := .executing, begun := false }
  match judge sp f.cmd s with
  | .deny st d => complete s f st d [] s.sid.now mark
  | .done st d r s' =>
    if early ∧ st = stOk then waits
    else complete s' f st d r (max s.sid.now f.due) (if st = stOk then mark else s'.ev.nextId)
  | .later st d r s' =>
    if early then waits
    else putFlight s' { f with phase := .executing, begun := true, outcome := some ⟨st, d, r⟩, evs := touched s' mark, since := s'.sid.now }
  | .busy s' =>
    if early ∧ sp.sample = false then waits
    else
      let s2 := putFlight s' { f with phase := .executing, begun := true, evs := touched s' mark, since := s'.sid.now }
      s2.rings.foldl finishDestroy s2

/-! ## Meridian slots (R349–R354) -/

/-- The lowest free slot. -/
def freeSlot (s : State) : Option Nat := (List.range (instances s.part 0x0A)).find? fun i => (mget s.merid.slots i).isNone

/-- The tape entry of a command dispatched or released (Table 12-2, 0x01). -/
def tapeCommand (s : State) (c : Cmd) : State :=
  let ring : Nat := match c.a.origin with
    | .ring n => n
    | _ => 0x80
  tape s 1 (leBytes 4 ring ++ packetBytes c) s.sid.now

/-- A released command takes its place in the order of its `TARGET` (R32) and is sent to its owning island, where step 12
judges it (R44). -/
def release (sp : CmdSpec) (f : InFlight) (s : State) : State :=
  let n := s.cmds.nextSeq
  let s0 := (tapeCommand s f.cmd).setMerid
    { s.merid with releases := s.merid.releases + 1, lates := s.merid.lates + (if f.late then 1 else 0) }
  let s1 := s0.setCmds { s0.cmds with
    nextSeq := n + 1
    list := (s0.cmds.list.filter fun g => g.seq != f.seq) ++ [{ f with seq := n, phase := .heldAfter }] }
  let f1 := { f with seq := n, phase := .heldAfter }
  if blocked s1 f.cmd n then s1 else launch sp f1 s1

/-- A command with a non-zero `WHEN` that passed steps 3 to 9: steps 10 and 11, then its slot, or release at once where
its `WHEN` is less than two ticks away (R353, R354).
Log: 11 (DEDUCED), 23 (DEDUCED). -/
def schedule (sp : CmdSpec) (f : InFlight) (s : State) : State :=
  let now := s.sid.now
  let w := sidOf now f.cmd.a.whn
  if w < now ∧ f.cmd.lateOk = false then complete s f stLate (lateness now w) [] now s.ev.nextId
  else
    match freeSlot s with
    | none => complete s f stNoResource 0 [] now s.ev.nextId
    | some i =>
      let f1 := { f with phase := .waiting, due := w, late := decide (w < now) }
      if now ≤ w ∧ w < now + 2 * tickU then release sp f1 (putFlight s f1)
      else
        (putFlight s f1).setMerid { s.merid with
          nextSeq := s.merid.nextSeq + 1
          slots := mput s.merid.slots i
            { sched := false, cmd := f.cmd, seq := s.merid.nextSeq, nominal := w,
              due := if w < now then s.sid.next else w, period := 0, firings := 1, passed := 0, fired := 0,
              skipped := 0, late := decide (w < now), sample := sp.sample } }

/-! ## Steps 1 to 9 -/

/-- Steps 5 to 9 of Table 2-5 on a packet: the failing status and `DETAIL`, and the failing host address of step 9. In step
6 the `TARGET` is judged before the flags, as the table names them, though the flags stand at a lower offset (R43).
Log: 14 (DEDUCED), 171 (DEDUCED). -/
def checkTarget (sp : CmdSpec) (s : State) (c : Cmd) : Option (Nat × Nat × Option Nat) :=
  if c.inst ≥ instances s.part c.unitId then some (stAbsent, c.tgt, none)
  else if sp.target c.tgt = false then some (stBadParam, 0x0006, none)
  else if c.badFlags then some (stBadParam, 0x0002, none)
  else if c.len ≠ sp.len c.pl then some (stBadLength, sp.len c.pl, none)
  else if c.a.origin = .mailbox ∧ sp.largest c.pl > 96 then some (stBadLength, sp.largest c.pl, none)
  else
    match firstBad (sp.fields c.tgt) c.pl with
    | some d => some (stBadParam, d, none)
    | none =>
      match sp.addrs s c with
      | some a => some (stViolation, 0, some a)
      | none => none

/-- In Thaw only `IDENTIFY` and `GET_STATUS` are served, at once (R65). -/
def thawServed (s : State) (op : Nat) : Bool := decide (s.pwr.state = .thaw) && (op == 0x0001 || op == 0x0002)

/-- Steps 3 to 11 of a command in flight, then Meridian or its owning island (R44). The `WHEN` of `SCHED_ADD` (0x0A10) is
the first firing time, and the command itself is executed at once (R351). -/
def dispatch (sp : Option CmdSpec) (f : InFlight) (s0 : State) : State :=
  let s := tapeCommand s0 f.cmd
  let mark := s.ev.nextId
  let c := f.cmd
  match sp with
  | none => complete s f stBadOpcode 0 [] s.sid.now mark
  | some p =>
    if s.pwr.state = .thaw ∧ thawServed s c.op = false then complete s f stBringupBusy 0 [] s.sid.now mark
    else
      match checkTarget p s c with
      | some (st, d, none) => complete s f st d [] s.sid.now mark
      | some (st, _, some a) =>
        let i := vlogNext s
        let s1 := violate s 0x03 a (originLink s c.a.origin) (originInfo c.a.origin)
        complete s1 f st (0x0300 + i) [] s.sid.now s1.ev.nextId
      | none => if c.immediate ∨ thawServed s c.op ∨ c.op = 0x0A10 then launch p f s else schedule p f s

/-- The commands in flight (R46, R47): those of the list, and those whose completion entry is still held back (R54). -/
def flightCount (s : State) : Nat :=
  s.cmds.list.length + (s.rings.map fun e => (e.2.heldCpl.filter fun h => h.2.isSome).length).sum

/-- Mailbox commands that count under R61: copied or in flight, or completed and not popped. -/
def mbxCount (s : State) : Nat :=
  s.mbx.copied.length + (s.cmds.list.filter fun f => decide (f.cmd.a.origin = .mailbox)).length +
    (s.mbx.queue.filter fun e => !e.event).length

/-- The completion ring paired with a command ring holds no entry back (R54). -/
def pairFree (s : State) (n : Nat) : Bool :=
  match (mget s.rings n).bind fun r => mget s.rings r.cplRing with
  | some q => q.heldCpl.isEmpty
  | none => false

/-- The channel can be taken from: the device runs its command interpreter, fewer than 1024 commands are in flight (R47),
a ring exists, is running and its completion ring holds no entry back (R45, R54), and the mailbox has a place for the
completion (R61). -/
def channelOpen (s : State) (o : Origin) : Bool :=
  decide (s.pwr.state ≠ .off) && decide (s.pwr.state ≠ .permafrost) && s.sid.running && !s.pol.halted &&
    decide (flightCount s < 1024) &&
  match o with
  | .mailbox => decide (mbxCount s < 32)
  | .legacy => s.hcfg.legEn
  | .replay _ => decide (s.firn.st = .replaying)
  | .ring n =>
    match mget s.rings n with
    | none => false
    | some r =>
      decide (r.kind = .command) && !r.halted && r.destroying.isNone && pairFree s n

/-- Step 1 of Table 2-5 on `LEN`. -/
def badLen (o : Origin) (len : Nat) : Bool :=
  len % 4 != 0 || decide (len > 4080) || (decide (o = .mailbox) && decide (len > 112))

/-- A packet that fails step 1: its tag completes, the violation is logged and its ring halts (R45).
Log: 16 (DEDUCED). -/
def malformed (c : Cmd) (s : State) : State :=
  let s1 := violate s 0x06 (originAddr c) (originLink s c.a.origin) (originInfo c.a.origin)
  let s2 :=
    match c.a.origin with
    | .ring n => match mget s1.rings n with
                 | some r => putRing s1 n { r with halted := true }
                 | none => s1
    | _ => s1
  postCpl s2 c.a.origin c.a.tag.toNat c.a.flags.toNat stBadLength 0 [] s.sid.now false

/-- A packet whose tag is in flight on its channel: refused at step 2 (R46). -/
def duplicate (c : Cmd) (s : State) : State :=
  let i := vlogNext s
  postCpl (violate s 0x05 (originAddr c) (originLink s c.a.origin) (originInfo c.a.origin)) c.a.origin c.a.tag.toNat
    c.a.flags.toNat stViolation (0x0500 + i) [] s.sid.now false

/-- A command that passed steps 1 and 2 enters flight, its `INFLIGHT` bit set if it came from a ring (R66). -/
def enter (c : Cmd) (s : State) : InFlight × State :=
  let ring := match c.a.origin with
    | .ring _ => true
    | _ => false
  let f : InFlight := { cmd := c, seq := s.cmds.nextSeq, phase := .executing, freed := none, late := false, due := 0,
                        bit := ring, firing := none, begun := false, outcome := none, evs := [], since := 0 }
  let s1 := s.setCmds { s.cmds with list := s.cmds.list ++ [f], nextSeq := s.cmds.nextSeq + 1 }
  (f, match c.a.origin with
      | .ring n => putInflight s1 n c.a.tag.toNat true
      | _ => s1)

/-- A command packet is taken: steps 1 and 2, the hold of R30, and dispatch (R21, R44, Table 2-6). A command whose
channel cannot be taken from changes nothing.
Log: 10 (DEDUCED), 11 (DEDUCED), 30 (DEDUCED). -/
def take (sp : Option CmdSpec) (c : Cmd) (s : State) : State :=
  if channelOpen s c.a.origin = false then s
  else if badLen c.a.origin c.len then malformed c s
  else if (byTag s c.a.origin c.a.tag.toNat).isSome then duplicate c s
  else
    let e := enter c s
    if c.immediate ∨ thawServed s c.op then
      if blocked e.2 c e.1.seq then putFlight e.2 { e.1 with phase := .held }
      else
        match servedNow e.2 c with
        | some k => putFlight e.2 { e.1 with phase := .held, freed := some k }
        | none => dispatch sp e.1 e.2
    else dispatch sp e.1 e.2

/-- What the row of an Onarix command does: the packet is taken at the present tick.
Log: 30 (DEDUCED). -/
def submit (sp : CmdSpec) (a : Args) (s : State) : State := take (some sp) ⟨sp.op, a⟩ s

end Sys2Proof.Machine
end

