-- ==== Sys2Proof/Machine/Rings.lean ====
section
/-! DEFINITION. Machine/Rings.lean: group 0x01 of the Command Reference, doorbells, ring interrupts, event posting, stream
descriptors and the PCIe island (chapters 02 and 15). -/

namespace Sys2Proof.Machine

/-- The system's `TARGET`.
Log: 14 (DEDUCED). -/
def toSystem (t : Nat) : Bool := t == 0x0000

/-! ## Commands of group 0x01 -/

/-- Ring type of a `TYPE` code (Table 2-7). -/
def ringKind (v : Nat) : RingKind :=
  match v with
  | 1 => .command
  | 2 => .completion
  | 3 => .event
  | 4 => .streamOut
  | _ => .streamIn

/-- Granule of the index counts (Table 2-8). -/
def granule : RingKind → Nat
  | .command => 4
  | _ => 16

/-- Length of the status block of a ring (R52). -/
def statusLen : RingKind → Nat
  | .command => 144
  | _ => 16

/-- Checks of step 8 on `RING_CREATE` (Table 2-8, R49).
Log: 15 (DEDUCED). -/
def ringCreateFields : List Fld :=
  let isCmd : Bytes → Bool := fun b => byteAt b 1 == 1
  let isEv : Bytes → Bool := fun b => byteAt b 1 == 3
  [ rng 0 1 0 127, rng 1 1 1 5, wid 2 1 1, fld 3 1 fun v => decide (v ≤ 63 ∨ v = 0xFF),
    fld 4 4 fun v => decide (v ∈ (List.range 11).map fun k => 4096 * 2 ^ k), fld 8 8 (· % 4096 == 0),
    fld 16 8 (· % 64 == 0), ⟨24, fun b => le b 24 4 % granule (ringKind (byteAt b 1)) == 0⟩,
    ⟨28, fun b => if isCmd b then decide (byteAt b 28 ≤ 127) else byteAt b 28 == 0xFF⟩,
    ⟨32, fun b => if isEv b then decide (le b 32 4 < 2 ^ 18) else le b 32 4 == 0⟩, rsv 36 4 ]

/-- R50: the ring, then its status block, in windows with the permissions they need. -/
def ringCreateAddrs (s : State) (c : Cmd) : Option Nat :=
  let b := c.pl
  let k := ringKind (byteAt b 1)
  let base := le b 8 8
  let sa := le b 16 8
  let readRing := decide (k = .command) || decide (k = .streamIn)
  if inWindow s (!readRing) base (le b 4 4) = false then some base
  else if inWindow s true sa (statusLen k) = false then some sa
  else if k = .command ∧ bit (byteAt b 2) 0 ∧ inWindow s false sa 144 = false then some sa
  else none

/-- The tags whose `INFLIGHT` bit is set in a status block (R66). -/
def recoveredTags (m : List Host.Cell) (sa : Nat) : List Nat :=
  (List.range 1024).filter fun t => bit (memRead m (sa + 16 + t / 8)).toNat (t % 8)

/-- The ring that `RING_CREATE` describes (Table 2-8). -/
def newRing (b : Bytes) : Ring :=
  { kind := ringKind (byteAt b 1), halted := false, vector := byteAt b 3, size := le b 4 4, base := le b 8 8,
    statusAddr := le b 16 8, startIndex := le b 24 4, prod := le b 24 4, cons := le b 24 4, doorbell := le b 24 4,
    cplRing := byteAt b 28, modCount := byteAt b 29, modTime := le b 30 2, unitMask := le b 32 4, lost := 0,
    uncovered := 0, firstAt := 0, urgent := false, heldCpl := [], destroying := none, bind := .none, gap := false, fill := 0,
    bufGap := false, inData := [] }

/-- `RING_CREATE` (R49, R50, R66).
Log: 17 (DEDUCED). -/
def ringCreateUnit (c : Cmd) (s : State) : Reply :=
  let b := c.pl
  let n := byteAt b 0
  let r := newRing b
  let paired := match mget s.rings r.cplRing with
    | some q => decide (q.kind = .completion)
    | none => false
  if (mget s.rings n).isSome then badState
  else if r.kind = .command ∧ paired = false then badState
  else if r.kind = .command then
    let tags := if bit (byteAt b 2) 0 then recoveredTags s.host r.statusAddr else []
    let s1 := tags.foldl (fun st t => pushEntry st r.cplRing (cplBytes t 0 stAbortedReset 0 0 []) none) s
    ok (hostStore (putRing s1 n r) (r.statusAddr + 16) (zeros 128))
  else ok (putRing s n r)

/-- Table 17-2, `RING_CREATE`. -/
def ringCreateSpec : CmdSpec :=
  { op := 0x0101, target := toSystem, len := fun _ => 40, fields := fun _ => ringCreateFields, addrs := ringCreateAddrs,
    unit := ringCreateUnit }

/-- The next packet of a command ring, header and payload, as far as the producer count covers it. `skip` says how many
bytes lie before it (R51, R53). -/
inductive Packet where
  | none
  | skip (n : Nat)
  | bad (c : Cmd)
  | nop (n : Nat)
  | cmd (c : Cmd) (n : Nat)

/-- What stands at the consumer count of a command ring.
Log: 27 (DEDUCED). -/
def nextPacket (s : State) (n : Nat) (r : Ring) : Packet :=
  let pos := r.cons % r.size
  let left := r.size - pos
  let have_ := occupancy r
  if left < 16 then (if left ≤ have_ then .skip left else .none)
  else if have_ < 16 then .none
  else
    let a := r.base + pos
    let h := memBytes s.host a 16
    let len := le h 4 2
    if len % 4 ≠ 0 ∨ len > 4080 ∨ 16 + len > left then .bad (packetCmd (.ring n) a (splice h 4 [0, 0]))
    else if have_ < 16 + len then .none
    else if le h 0 2 = 0 then .nop (16 + len)
    else .cmd (packetCmd (.ring n) a (memBytes s.host a (16 + len))) (16 + len)

/-- The consumer count of a command ring moves past a packet, which is an entry for interrupts (R55). -/
def consume (s : State) (n k : Nat) : State :=
  match mget s.rings n with
  | none => s
  | some r => putRing s n { r.entry s.sid.now with cons := (r.cons + k) % 2 ^ 32 }

/-- The consumer count of a command ring moves past the tail that both sides skip (R53): that is no entry. -/
def skipTail (s : State) (n k : Nat) : State :=
  match mget s.rings n with
  | none => s
  | some r => putRing s n { r with cons := (r.cons + k) % 2 ^ 32 }

/-- The Queued commands of a ring are aborted (R56). The packet at which a ring has halted has its completion already (R45),
and nothing can be found after it.
Log: 22 (DEDUCED). -/
def abortQueued : Nat → State → Nat → State
  | 0, s, _ => s
  | k + 1, s, n =>
    match mget s.rings n with
    | none => s
    | some r =>
      match nextPacket s n r with
      | .none => s
      | .skip j => abortQueued k (skipTail s n j) n
      | .nop j => abortQueued k (consume s n j) n
      | .bad c => if r.halted then s else postCpl s c.a.origin c.a.tag.toNat c.a.flags.toNat stAbortedHost 0 [] s.sid.now false
      | .cmd c j =>
        abortQueued k (postCpl (consume s n j) c.a.origin c.a.tag.toNat c.a.flags.toNat stAbortedHost 0 [] s.sid.now false) n

/-- The Meridian slot of a plain command with a non-zero `WHEN` is freed. -/
def freePlainSlot (s : State) (o : Origin) (tag : Nat) : State :=
  s.setMerid { s.merid with slots := s.merid.slots.filter fun e =>
    !(!e.2.sched && decide (e.2.cmd.a.origin = o) && e.2.cmd.a.tag.toNat == tag) }

/-- A command that is Held, Held after release or Waiting ends with `ST_ABORTED_HOST` (R48, Table 2-6).
Log: 22 (DEDUCED). -/
def abortFlight (s : State) (f : InFlight) : State :=
  let s1 := if f.phase = .waiting then freePlainSlot s f.cmd.a.origin f.cmd.a.tag.toNat else s
  complete1 s1 { f with late := false } stAbortedHost 0 [] s.sid.now s.ev.nextId

/-- `RING_DESTROY` (R56, R488). Packets that the host adds while it waits for Executing commands are neither taken nor
aborted.
Log: 22 (DEDUCED), 172 (DEDUCED). -/
def ringDestroyUnit (c : Cmd) (s : State) : Reply :=
  let n := byteAt c.pl 0
  match mget s.rings n with
  | none => badState
  | some r =>
    match r.kind with
    | .command =>
      let o := (c.a.origin, c.a.tag.toNat)
      if r.destroying.isSome then badState
      else
        let hs := s.cmds.list.filter fun f => decide (f.cmd.a.origin = .ring n) && decide (f.phase ≠ .executing) &&
          !(decide (c.a.origin = .ring n) && f.cmd.a.tag == c.a.tag)
        let s1 := hs.foldl abortFlight s
        let s2 := abortQueued (occupancy r + 2) s1 n
        match mget s2.rings n with
        | some r2 => .busy (s2.setRings (mput s2.rings n { r2 with destroying := some o }))
        | none => badState
    | .completion => if s.rings.any fun e => decide (e.2.kind = .command) && e.2.cplRing == n then badState else ok (dropRing s n)
    | _ => ok (dropRing s n)

/-- Table 17-2, `RING_DESTROY`. -/
def ringDestroySpec : CmdSpec :=
  { op := 0x0102, target := toSystem, len := fun _ => 4, fields := fun _ => [rng 0 1 0 127, rsv 1 3],
    unit := ringDestroyUnit }

/-- `RING_RESET` (R56).
Log: 20 (DEDUCED). -/
def ringResetUnit (c : Cmd) (s : State) : Reply :=
  let n := byteAt c.pl 0
  let i := le c.pl 4 4
  match mget s.rings n with
  | none => badState
  | some r =>
    if i % granule r.kind ≠ 0 then badParam 4
    else if r.halted = false then badState
    else ok (putRing s n { r with halted := false, prod := i, cons := i })

/-- Table 17-2, `RING_RESET`. -/
def ringResetSpec : CmdSpec :=
  { op := 0x0103, target := toSystem, len := fun _ => 8,
    fields := fun _ => [rng 0 1 0 127, rsv 1 3, fld 4 4 (· % 4 == 0)], unit := ringResetUnit }

/-- `n` bytes at `a` lie inside window `w`. -/
def insideWindow (w : Window) (a n : Nat) : Bool := decide (w.base ≤ a) && decide (a + n ≤ w.base + w.size)

/-- Descriptor `i` bytes past the consumer count of a stream ring (Table 2-11). -/
def descriptor (s : State) (r : Ring) (i : Nat) : Bytes := memBytes s.host (r.base + (r.cons + i) % r.size) 16

/-- A window holds a ring, a status block or a descriptor buffer in use (R57). -/
def windowInUse (s : State) (w : Window) : Bool :=
  s.rings.any fun e =>
    let r := e.2
    insideWindow w r.base r.size || insideWindow w r.statusAddr (statusLen r.kind) ||
      ((decide (r.kind = .streamOut) || decide (r.kind = .streamIn)) &&
        (List.range (occupancy r / 16)).any fun k =>
          let d := descriptor s r (16 * k)
          insideWindow w (le d 0 8) (le d 8 4))

/-- `WIN_SET` (R57). -/
def winSetUnit (c : Cmd) (s : State) : Reply :=
  let b := c.pl
  let i := byteAt b 0
  let perm := byteAt b 1
  let inUse := match mget s.wins i with
    | some w => windowInUse s w
    | none => false
  if inUse then badState
  else if perm = 0 then ok (s.setWins (mdel s.wins i))
  else ok (s.setWins (mput s.wins i { read := bit perm 0, write := bit perm 1, base := le b 8 8, size := le b 16 8 }))

/-- Table 17-2, `WIN_SET`. -/
def winSetSpec : CmdSpec :=
  let on : Bytes → Bool := fun b => byteAt b 1 != 0
  { op := 0x0104, target := toSystem, len := fun _ => 24,
    fields := fun _ => [rng 0 1 0 15, wid 1 1 2, rsv 2 6, whenFld on (fld 8 8 (· % 4096 == 0)),
      whenFld on (fld 16 8 fun v => decide (4096 ≤ v ∧ v % 4096 = 0))],
    unit := winSetUnit }

/-- The event codes that `EVENT_WINDOW_SET` names (R489). -/
def windowCodes (v : Nat) : List Nat :=
  if v = 0xFFFF then eventCodes.filter fun e => !isUrgent e else [v]

/-- `EVENT_WINDOW_SET` (R489): it applies from the next tick boundary. -/
def eventWindowSetUnit (c : Cmd) (s : State) : Reply :=
  .busy (s.setEv { s.ev with
    pending := s.ev.pending ++ (windowCodes (le c.pl 0 2)).map fun e => (e, byteAt c.pl 2) })

/-- Table 17-2, `EVENT_WINDOW_SET`. -/
def eventWindowSetSpec : CmdSpec :=
  { op := 0x0105, target := toSystem, len := fun _ => 4,
    fields := fun _ => [fld 0 2 fun v => v == 0xFFFF || (eventCodes.contains v && !isUrgent v), rng 2 1 1 255, rsv 3 1],
    unit := eventWindowSetUnit }

def execRingCreate (a : Args) (s : State) : Host.Outcome State Fault Refusal := .next (submit ringCreateSpec a s)
def execRingDestroy (a : Args) (s : State) : Host.Outcome State Fault Refusal := .next (submit ringDestroySpec a s)
def execRingReset (a : Args) (s : State) : Host.Outcome State Fault Refusal := .next (submit ringResetSpec a s)
def execWinSet (a : Args) (s : State) : Host.Outcome State Fault Refusal := .next (submit winSetSpec a s)
def execEventWindowSet (a : Args) (s : State) : Host.Outcome State Fault Refusal :=
  .next (submit eventWindowSetSpec a s)

/-! ## Doorbells (R51) -/

/-- A doorbell write to a ring that exists: the count that it reports, or `none` where it is a violation (R51). -/
def ringBell (r : Ring) (v : Nat) : Option Ring :=
  if v % granule r.kind ≠ 0 then none
  else
    let r1 := match r.kind with
      | .completion | .event => { r with cons := v, doorbell := v }
      | _ => { r with prod := v, doorbell := v }
    if occupancy r1 > r.size then none else some r1

/-- A target access that PCIe answers with Unsupported Request, a violation at BAR0 offset `off` (R64, Table 2-15).
Log: 17 (DEDUCED). -/
def unsupported (s : State) (kind off info : Nat) : State :=
  violate (s.setPcie { s.pcie with unsupp := s.pcie.unsupp + 1 }) kind (Config.bar0 + off) 2 info

/-- The part has a PCIe endpoint (R4). -/
def hasPcie (s : State) : Bool := hasUnit s 0x0E

/-- What a 32-bit read of BAR0 0x8000–0x83FF returns: the value last accepted by the doorbell, 0 elsewhere (R51). -/
def doorbellRead (s : State) (off : Nat) : Nat :=
  if off % 8 ≠ 0 then 0 else ((mget s.rings ((off - 0x8000) / 8)).map (·.doorbell)).getD 0

/-- `DOORBELL_WRITE` (R51): the host's stores to its memory, then the doorbell word at a BAR0 offset.
Log: 20 (DEDUCED), 30 (DEDUCED), 156 (DEDUCED). -/
def execDoorbellWrite (offset : BitVec 16) (value : BitVec 32) (stores : List (Nat × BitVec 8)) (s : State) :
    Host.Outcome State Fault Refusal :=
  let s1 := s.setHost (memCells s.host stores)
  let o := offset.toNat
  if hasPcie s = false then .next s
  else if o < 0x8000 ∨ 0x8400 ≤ o ∨ o % 4 ≠ 0 then .next (unsupported s1 0x01 o 0)
  else if o % 8 = 4 then .next s1
  else
    let n := (o - 0x8000) / 8
    match (mget s1.rings n).bind fun r => ringBell r value.toNat with
    | some r => .next (s1.setRings (mput s1.rings n r))
    | none => .next (violate s1 0x06 (Config.bar0 + o) 2 n)

/-- `COMPLETION_RING_SPACE` (R54): held completions are written as far as the host has freed space. -/
def execCompletionRingSpace (ring : Nat) (s : State) : Host.Outcome State Fault Refusal :=
  match mget s.rings ring with
  | none => .next s
  | some r => .next (drainHeld r.heldCpl.length s ring)

/-! ## Event posting -/

/-- The due window with the earliest time, the first opened of equal ones (R24).
Log: 21 (DEDUCED), 170 (DEDUCED). -/
def dueWindow (s : State) : Option EvWindow :=
  (s.ev.windows.filter fun w => w.left == 0 && canPost s w).foldl
    (fun b w => match b with
      | none => some w
      | some x => if w.time < x.time then some w else b) none

/-- `EVENT_WINDOW_CLOSE` (R24, R62): the due window with the earliest time closes and its merged event is posted, though a
window of the same source unit that opened before it may still be open: R24 goes before R35.
Log: 21 (DEDUCED). -/
def execEventWindowClose (s : State) : Host.Outcome State Fault Refusal :=
  match dueWindow s with
  | none => .next s
  | some w => .next (postEvent (s.setEv { s.ev with windows := s.ev.windows.filter fun x => x.id != w.id }) w)

/-- `URGENT_EVENT_POST` (R25): the oldest urgent event is posted, before any open window of its source unit: R25 goes before
R35.
Log: 21 (DEDUCED), 170 (DEDUCED). -/
def execUrgentEventPost (s : State) : Host.Outcome State Fault Refusal :=
  match s.ev.urgent with
  | [] => .next s
  | w :: ws => if canPost s w then .next (postEvent (s.setEv { s.ev with urgent := ws }) w) else .next s

/-! ## Interrupts (R55, R461) -/

/-- A ring raises its vector and all its entries are covered. -/
def coverRing (s : State) (n : Nat) (r : Ring) : State :=
  raiseVector (s.setRings (mput s.rings n { r with uncovered := 0, urgent := false })) r.vector

/-- `MSIX_INTERRUPT` (R55): `MOD_COUNT` entries stand uncovered, or an urgent one, or `MOD_TIME` is 0. -/
def execMsixInterrupt (ring : Nat) (s : State) : Host.Outcome State Fault Refusal :=
  match mget s.rings ring with
  | none => .next s
  | some r =>
    if r.vector ≠ 0xFF ∧ 0 < r.uncovered ∧ (max 1 r.modCount ≤ r.uncovered ∨ r.urgent ∨ r.modTime = 0) then
      .next (coverRing s ring r)
    else .next s

/-- `MOD_TIME_EXPIRY` (R55): `MOD_TIME` has elapsed since the first entry that no interrupt covers. -/
def execModTimeExpiry (ring : Nat) (t : Sid) (s : State) : Host.Outcome State Fault Refusal :=
  match mget s.rings ring with
  | none => .next s
  | some r =>
    let s1 := advance s t
    if r.vector ≠ 0xFF ∧ 0 < r.uncovered ∧ r.firstAt + r.modTime * usU ≤ s1.sid.now then .next (coverRing s1 ring r) else .next s

/-- `MAILBOX_VECTOR` (R461). -/
def execMailboxVector (s : State) : Host.Outcome State Fault Refusal :=
  if s.mbx.signal ∧ s.mbx.owner = 2 ∧ s.hcfg.mbxIrqEn then
    .next (raiseVector (s.setMbx { s.mbx with signal := false }) s.hcfg.mbxVector)
  else .next s

/-- `MSIX_VECTOR_UNMASK` (R461): the mask bit is cleared, and a held message is sent. -/
def execMsixVectorUnmask (vector : Nat) (s : State) : Host.Outcome State Fault Refusal :=
  if vector ≥ 64 then .next s
  else
    let ctl := byteAt s.pcie.msixTable (16 * vector + 12)
    let p1 := { s.pcie with msixTable := splice s.pcie.msixTable (16 * vector + 12) [BitVec.ofNat 8 (ctl / 2 * 2)] }
    if s.pcie.pba.getLsbD vector then
      .next (raiseVector (s.setPcie { p1 with pba := s.pcie.pba &&& ~~~(1#64 <<< vector) }) vector)
    else .next (s.setPcie p1)

/-! ## Streams, device errors and the PCIe island (R58, R460, R462, R472) -/

/-- A block for a stream-out ring that cannot be delivered counts in `LOST` (Table 2-10, R58). -/
def loseBlock (s : State) (n : Nat) (r : Ring) : State :=
  putRing s n { r with lost := sat 32 (r.lost + 1), gap := true }

/-- A ring of kind `k` may be bound: `badParam off` where it is none, `ST_BAD_STATE` where it is taken (R175). -/
def ringDenied (s : State) (n off : Nat) (k : RingKind) (taken : Bool) : Option Reply :=
  match mget s.rings n with
  | some r => if r.kind = k ∧ r.destroying.isNone then (if taken then some badState else none) else some (badParam off)
  | none => some (badParam off)

/-- A descriptor access of a stream ring lies in no window that grants it: the descriptor is not used, the violation is
logged and the ring halts (R57, R58).
Log: 173 (DEDUCED). -/
def stopStream (s : State) (n : Nat) (r : Ring) (addr : Nat) : State :=
  violate (putRing s n { r with halted := true }) 0x03 addr 3 n

/-- The first access that the next descriptor of a stream ring needs and that no window grants: its read, or the write of
`USED` and the flags (R57, Table 2-11).
Log: 173 (DEDUCED). -/
def descriptorDenied (s : State) (r : Ring) : Option Nat :=
  let d := r.base + r.cons % r.size
  if inWindow s false d 16 = false then some d else if inWindow s true (d + 12) 4 = false then some (d + 12) else none

/-- The first access that filling the next buffer of a stream-out ring needs and that no window grants (R57). -/
def bufferDenied (s : State) (r : Ring) : Option Nat :=
  match descriptorDenied s r with
  | some a => some a
  | none =>
    let d := descriptor s r 0
    if inWindow s true (le d 0 8) (le d 8 4) = false then some (le d 0 8) else none

/-- The buffer under way is returned with `used` bytes (Table 2-11). -/
def returnBuf (s : State) (n : Nat) (r : Ring) (used : Nat) (gap : Bool) : State :=
  putRing (hostStore s (r.base + r.cons % r.size + 12) (leBytes 4 (used + 2 ^ 24 + flag gap 25))) n
    { r.entry s.sid.now with cons := (r.cons + 16) % 2 ^ 32, fill := 0, bufGap := false }

/-- Bytes are written into the buffer under way behind those it holds; the first ones take the ring's `GAP` with them. -/
def writeBuf (s : State) (n : Nat) (r : Ring) (b : Bytes) : State :=
  let r1 : Ring := if r.fill = 0 then { r with bufGap := r.gap, gap := false } else r
  let r2 : Ring := { r1 with fill := r.fill + b.length }
  let s1 := hostStore s (le (descriptor s r 0) 0 8 + r.fill) b
  if r2.fill = le (descriptor s r 0) 8 4 then returnBuf s1 n r2 r2.fill r2.bufGap else putRing s1 n r2

/-- Bytes that are never split go to a bound stream-out ring: behind those of the buffer under way where they fit there, else
into the next one (R175, R191). Where no buffer is posted they are lost. For a block, a posted buffer smaller than it is
returned with `DONE` and `USED` 0, and the block counts in `LOST` (R175); a record is lost (R239). -/
def feedBytes (block : Bool) (n : Nat) (b : Bytes) : Nat → State → State
  | 0, s => s
  | k + 1, s =>
    match mget s.rings n with
    | none => s
    | some r =>
      if s.pcie.d3 ∨ r.halted ∨ occupancy r < 16 then loseBlock s n r
      else
        match bufferDenied s r with
        | some a => loseBlock (stopStream s n r a) n { r with halted := true }
        | none =>
          if r.fill + b.length ≤ le (descriptor s r 0) 8 4 then writeBuf s n r b
          else if 0 < r.fill then feedBytes block n b k (returnBuf s n r r.fill r.bufGap)
          else if block then
            let s1 := returnBuf s n r 0 r.gap
            loseBlock s1 n ((mget s1.rings n).getD r)
          else loseBlock s n r

/-- A record for a bound ring (R191, R239). -/
def feedRing (s : State) (n : Nat) (b : Bytes) : State := feedBytes false n b 2 s

/-- A block for a bound ring (R175). -/
def feedBlock (s : State) (n : Nat) (b : Bytes) : State := feedBytes true n b 2 s

/-- `STREAM_DESCRIPTOR_USE` (R57, R58, Table 2-11): the buffer under way of a stream-out ring is returned; the sink of a
stream-in ring consumes the next buffer, or one of the accesses that this needs fails the window check.
Log: 178 (DEDUCED). -/
def execStreamDescriptorUse (ring taken : Nat) (s : State) : Host.Outcome State Fault Refusal :=
  match mget s.rings ring with
  | none => .next s
  | some r =>
    if s.pcie.d3 ∨ r.halted ∨ occupancy r < 16 then .next s
    else if r.kind = .streamOut then
      (if 0 < r.fill then .next (returnBuf s ring r r.fill r.bufGap)
       else match bufferDenied s r with
         | some a => .next (stopStream s ring r a)
         | none => .next s)
    else if r.kind ≠ .streamIn then .next s
    else
      let d := descriptor s r 0
      let buf := le d 0 8
      let len := le d 8 4
      if let some a := descriptorDenied s r then .next (stopStream s ring r a)
      else if inWindow s false buf len = false then .next (stopStream s ring r buf)
      else
        let used := min taken len
        let s1 := s.setPcie { s.pcie with rxBytes := s.pcie.rxBytes + used }
        .next (returnBuf s1 ring { r with inData := r.inData ++ memBytes s.host buf used } used false)

/-- `DMA_ERROR` (R460, R472): the ring stops and `EV_HOSTLINK` cause 0x03 is raised. -/
def execDmaError (ring : Nat) (t : Sid) (s : State) : Host.Outcome State Fault Refusal :=
  let s0 := advance s t
  match mget s0.rings ring with
  | none => .next s
  | some r =>
    let s1 := putRing s0 ring { r with halted := true }
    .next (raise (s1.setPcie { s1.pcie with dmaErrors := sat 32 (s1.pcie.dmaErrors + 1) }) evHostlink 0x0E00
      (0x03 + 256 * ring))

/-- The commands that an island reset leaves in flight: those of the mailbox, and Executing ones (R462). -/
def survivesFlr (f : InFlight) : Bool :=
  match f.cmd.a.origin with
  | .ring _ => decide (f.phase = .executing)
  | _ => true

/-- A slot that an island reset frees: a waiting command from a ring (R462). -/
def slotSurvivesFlr (e : Nat × Slot) : Bool :=
  e.2.sched || match e.2.cmd.a.origin with
    | .ring _ => false
    | _ => true

/-- `PCIE_ISLAND_RESET` (R462): rings and windows are discarded, waiting ring commands cancelled; nothing more is written
to host memory.
Log: 18 (PRESUMED). -/
def execPcieIslandReset (linkDown : Bool) (t : Sid) (s : State) : Host.Outcome State Fault Refusal :=
  if hasPcie s = false then .next s else
  let s0 := advance s t
  let s1 := ((s0.setRings []).setWins []).setCmds { s0.cmds with list := s0.cmds.list.filter survivesFlr }
  let s2 := s1.setMerid { s1.merid with slots := s1.merid.slots.filter slotSurvivesFlr }
  let s3 := s2.setMbx { s2.mbx with owner := if s2.mbx.owner = 2 then 0 else s2.mbx.owner }
  let p := s3.pcie
  let s4 := s3.setPcie { p with
    up := p.up && !linkDown, speed := if linkDown then 0 else p.speed, width := if linkDown then 0 else p.width,
    d3 := false, flrCount := sat 32 (p.flrCount + 1), linkTime := if linkDown then s3.sid.now else p.linkTime,
    msixEn := false, msixTable := Pcie.reset.msixTable, pba := 0 }
  .next (raise (freeHeld s4 s4.cmds.completed) evHostlink 0x0E00 0x02)

/-- `PCIE_LINK_UP` (R5, R455, R472): the link comes up, at Gen1 to Gen3 and x1 or x2, once bring-up has enabled it at step 4.
Log: 18 (PRESUMED). -/
def execPcieLinkUp (speed width : Byte) (t : Sid) (s : State) : Host.Outcome State Fault Refusal :=
  let fits := decide (1 ≤ speed.toNat ∧ speed.toNat ≤ 3 ∧ 1 ≤ width.toNat ∧ width.toNat ≤ 2)
  if s.pwr.buStep < 5 ∨ s.pcie.up ∨ hasPcie s = false ∨ fits = false then .next s
  else
    let s0 := advance s t
    let s1 := s0.setPcie { s0.pcie with up := true, speed := speed.toNat, width := width.toNat, linkTime := s0.sid.now,
                                        msixEn := Config.msixEnabled s0.free }
    .next (raise (s1.setFree (s1.free + 1)) evHostlink 0x0E00 0x01)

/-- Pending unmasked vectors send their messages on return to D0 (R462). -/
def sendPending (s : State) (v : Nat) : State :=
  if s.pcie.pba.getLsbD v ∧ vectorMasked s.pcie v = false then
    raiseVector (s.setPcie { s.pcie with pba := s.pcie.pba &&& ~~~(1#64 <<< v) }) v
  else s

/-- `PCIE_D3HOT` (R462): the function enters or leaves D3hot; rings keep their state.
Log: 19 (DEDUCED). -/
def execPcieD3hot (enter : Bool) (s : State) : Host.Outcome State Fault Refusal :=
  if hasPcie s = false then .next s else
  let s1 := s.setPcie { s.pcie with d3 := enter }
  .next (if enter then s1 else (List.range 64).foldl sendPending s1)

/-- `BAR0_INVALID_ACCESS` (R456, R457): an unmapped offset or a size that is not allowed is a violation of kind 0x01; a
write to an undefined offset of a register page is one of kind 0x02 and is `REGISTER_WRITE`'s.
Log: 17 (DEDUCED). -/
def execBar0InvalidAccess (_write : Bool) (offset : BitVec 16) (_size : Nat) (s : State) :
    Host.Outcome State Fault Refusal :=
  if hasPcie s then .next (unsupported s 0x01 offset.toNat 0) else .next s

end Sys2Proof.Machine
end

