-- ==== Sys2Proof/Machine/Time.lean ====
section
/-! DEFINITION. Machine/Time.lean: Sidereal: its sources, servo, states, steps and the commands of group 0x0A that set it
(R334–R348, R357, R358, R464). Offsets are signed ns with 16 fractional bits; rates are in 0.001 ppb (Table 11-6). -/

namespace Sys2Proof.Machine

/-- The `TARGET` of Sidereal and Meridian.
Log: 14 (DEDUCED). -/
def toTime (t : Nat) : Bool := t == 0x0A00

/-! ## Settings in force (Table 11-4) -/

def timeSrc (s : State) : Nat := byteAt s.sid.cfg 0
def ppsFalling (s : State) : Bool := bit (byteAt s.sid.cfg 1) 0
/-- `TIME_SLEW` in 0.001 ppb: the field counts 0.1 ppm. -/
def timeSlew (s : State) : Int := (byteAt s.sid.cfg 2 : Int) * 100000
def jumpConfirm (s : State) : Nat := byteAt s.sid.cfg 3
/-- `JUMP_NS` as an offset. -/
def jumpU (s : State) : Int := (le s.sid.cfg 4 4 : Int) * 65536
/-- `LOSS_TICKS`, or the default of Table 11-1. -/
def lossTicks (s : State) : Nat :=
  let v := le s.sid.cfg 8 4
  if v ≠ 0 then v else match timeSrc s with
    | 1 => 9600
    | 2 => 4800
    | _ => 192000
def returnSamples (s : State) : Nat := byteAt s.sid.cfg 12
def servoMhz (s : State) : Int := (le s.sid.cfg 14 2 : Int)
def ppsDelay (s : State) : Int := les s.sid.cfg 16 4 * 65536

/-- The PTP clock is on. -/
def ptpOn (s : State) : Bool := byteAt s.sid.ptp 0 != 0

/-- `TIME_VALID` becomes 1 with this step, except under R340. -/
def validNow (s : State) (absolute : Bool) : Bool := timeSrc s != 2 || absolute

/-! ## Coasting, refusal and samples (R339, R342–R346) -/

/-- `EV_TIME` with a cause (R358). -/
def evTimeCause (s : State) (cause : Nat) : State := raise s evTime 0x0A00 cause

/-- The frequency part that coasting holds: its value 1 s before, or at the latest entry to Disciplined (R343).
Log: 31 (DEDUCED). -/
def heldRate (s : State) : Int :=
  match s.sid.rHist.find? fun e => decide (e.1 + secU ≤ s.sid.now) with
  | some e => e.2
  | none => (s.sid.rHist.getLast?.map (·.2)).getD s.sid.rFreq

/-- In disciplined-only mode PPS_OUT is low while Sidereal coasts or refuses a step: a pulse in progress ends (R96). -/
def ppsDrop (s : State) : State :=
  if s.clk.ppsMode = 2 ∧ s.clk.ppsHigh then s.setClk { s.clk with ppsHigh := false, ppsEnd := s.sid.now } else s

/-- The rate of a coasting Sidereal (R343). -/
def coastRate (s0 : State) : State :=
  let s := ppsDrop s0
  s.setSid { s.sid with rFreq := heldRate s, rPhase := 0, coastFrom := s.sid.now, good := 0, inRow := 0 }

/-- Acquiring or Disciplined becomes Coasting with `EV_TIME` cause 0x02 (Table 11-3); other states are unchanged. -/
def coast (s : State) : State :=
  if s.sid.st = .acquiring ∨ s.sid.st = .disciplined then
    let s1 := coastRate s
    evTimeCause (s1.setSid { s1.sid with st := .coasting }) 0x02
  else s

/-- A jump is refused (R344): Refused, coasting, `EV_TIME_REFUSED`. -/
def refuseStep (s : State) (o : Int) : State :=
  let s1 := coastRate s
  let s2 := s1.setSid { s1.sid with st := .refused, refusedAt := o }
  raise s2 evTimeRefused 0x0A00 (timeSrc s % 16 + 16 * min 4095 (o.natAbs / 65536000))

/-- One servo update with an accepted sample (R343): ω = 2π × `SERVO_MHZ` × 10⁻³ s⁻¹, in integers with 2π and 4π² to
13 digits and results rounded down.
Log: 31 (DEDUCED), 32 (DEDUCED). -/
def servo (s : State) (o : Int) : State :=
  let m := servoMhz s
  let dt : Int := ((s.sid.now - s.sid.lastSample : Nat) : Int)
  let u : Int := (secU : Int)
  let rf := clampI 200000000 (s.sid.rFreq - 39478417604357 * m * m * dt * o / (1000000 * u * u))
  let lim := timeSlew s
  let raw := -(1414 * 6283185307180 * m * o / (1000000 * u))
  let slewing := s.sid.slewing && decide (lim < raw.natAbs)
  let rp := if s.sid.slewing ∧ o ≠ 0 then (if o < 0 then lim else -lim) else clampI lim raw
  (tape s 8 (sleBytes 4 (clampI 200000000 (rf + rp))) s.sid.now).setSid { s.sid with
    rFreq := rf, rPhase := clampI 200000000 (rf + rp) - rf, slewing := slewing || (s.sid.suspended && s.sid.slewing),
    rHist := (s.sid.now, rf) :: s.sid.rHist.take 255 }

/-- The phase part that slews an offset out: `TIME_SLEW` with the sign that reduces it (R343).
Log: 31 (DEDUCED), 32 (DEDUCED). -/
def slewPhase (s : State) (o : Int) : Int := if o < 0 then timeSlew s else if o = 0 then 0 else -timeSlew s

/-- The loss timing of R339 restarts. -/
def lossRestart (s : State) : State := s.setSid { s.sid with lossBy := deadline s (lossTicks s) }

/-- Entry to Disciplined: the history of the rate starts anew (R343). -/
def toDisciplined (s : State) : State :=
  s.setSid { s.sid with st := .disciplined, good := 0, inRow := 0, rHist := [(s.sid.now, s.sid.rFreq)] }

/-- A sample in Acquiring (R344, R346). -/
def sampleAcquiring (s : State) : State :=
  let s1 := s.setSid { s.sid with good := s.sid.good + 1, inRow := 0 }
  let s2 := lossRestart s1
  if s2.sid.good < returnSamples s then s2
  else if s.sid.isSet then
    let s3 := toDisciplined s2
    evTimeCause (s3.setSid { s3.sid with slewing := true, rPhase := slewPhase s s.sid.offset }) 0x01
  else
    s2.setSid { s2.sid with stepReqs := s2.sid.stepReqs ++
      [{ why := .acquire, absolute := false, secOnly := false, value := 0, asked := s2.sid.ticks, owner := none }] }

/-- An offset sample of the selected source at the present time (R339, R343, R344). `single` is set for a host sample,
which is judged alone. -/
def sample (s0 : State) (o : Int) (single : Bool) : State :=
  let s := s0.setSid { s0.sid with offset := o }
  let outlier := s.sid.isSet && !s.sid.suspended && decide (jumpU s < o.natAbs)
  let s1 : State :=
    if s.sid.st = .coasting ∧ s.clk.state = .locked ∧ ¬ (timeSrc s = 1 ∧ s.sid.master) then
      s.setSid { s.sid with st := .acquiring, good := 0, inRow := 0 }
    else s
  let s2 : State :=
    match s1.sid.st with
    | .acquiring | .disciplined =>
      if outlier then
        let s3 := s1.setSid { s1.sid with outliers := sat 16 (s1.sid.outliers + 1), inRow := s1.sid.inRow + 1, good := 0 }
        if single ∨ jumpConfirm s ≤ s3.sid.inRow then refuseStep s3 o else s3
      else if s1.sid.st = .acquiring then sampleAcquiring s1
      else
        let s3 := lossRestart (servo s1 o)
        s3.setSid { s3.sid with inRow := 0 }
    | _ => s1
  s2.setSid { s2.sid with lastSample := if outlier then s2.sid.lastSample else s2.sid.now }

/-! ## Commands of group 0x0A that set Sidereal -/

/-- `TIME_SRC_SET` (Tables 11-3 and 11-4).
Log: 34 (DEDUCED). -/
def timeSrcSetUnit (c : Cmd) (s : State) : Reply :=
  let src := byteAt c.pl 0
  let s1 := s.setSid { s.sid with cfg := c.pl }
  let s2 :=
    if src = 0 then
      s1.setSid { s1.sid with st := if s.sid.valid then .free else .unset, slewing := false, suspended := false }
    else
      match s.sid.st with
      | .unset | .free => s1.setSid { s1.sid with st := .acquiring, good := 0, inRow := 0 }
      | _ =>
        if src = timeSrc s then s1
        else s1.setSid { s1.sid with st := .acquiring, good := 0, inRow := 0, group := [], slewing := false,
                                     suspended := false }
  ok (lossRestart s2)

/-- Table 11-4, `TIME_SRC_SET`. -/
def timeSrcSetSpec : CmdSpec :=
  { op := 0x0A01, target := toTime, len := fun _ => 20,
    fields := fun _ => [rng 0 1 0 3, wid 1 1 1, rng 2 1 1 50, rng 3 1 1 16, rng 4 4 50 1000000000,
      fld 8 4 fun v => decide (v = 0 ∨ (32 ≤ v ∧ v ≤ 1000000)), rng 12 1 1 64, rsv 13 1, rng 14 2 1 1000,
      srng 16 4 (-100000) 100000],
    unit := timeSrcSetUnit }

/-- Checks of `PTP_SET` (Tables 11-2 and 11-5, R357): with profile 0x0 only byte 11 is checked. -/
def ptpSetFields : List Fld :=
  let on : Bytes → Bool := fun b => byteAt b 0 != 0
  let g : Bytes → Bool := fun b => byteAt b 0 == 3
  [ rng 0 1 0 3,
    whenFld on ⟨1, fun b => if g b then decide (2 ≤ byteAt b 1 ∧ byteAt b 1 ≤ 3) else decide (byteAt b 1 ≤ 3)⟩,
    whenFld on ⟨2, fun b => if g b then decide (24 ≤ byteAt b 2 ∧ byteAt b 2 ≤ 43) else decide (byteAt b 2 ≤ 127)⟩,
    whenFld on ⟨3, fun b => if g b then byteAt b 3 == 0 else decide (byteAt b 3 ≤ 1)⟩,
    whenFld on ⟨4, fun b => if g b then les b 4 1 == -4 else decide (-7 ≤ les b 4 1 ∧ les b 4 1 ≤ 1)⟩,
    whenFld on ⟨5, fun b => if g b then les b 5 1 == -3 else decide (-3 ≤ les b 5 1 ∧ les b 5 1 ≤ 3)⟩,
    whenFld on (rng 6 1 2 10), whenFld on (rng 7 1 0 1), whenFld on (rng 10 1 1 16), rsv 11 1 ]

/-- `PTP_SET` (R341, R357). The port starts in LISTENING of IEEE 1588-2019.
Log: 33 (PRESUMED). -/
def ptpSetUnit (c : Cmd) (s : State) : Reply :=
  if byteAt c.pl 0 = 0 then
    ok (s.setSid { s.sid with ptp := splice s.sid.ptp 0 [0], portState := 0, master := false, group := [] })
  else ok (s.setSid { s.sid with ptp := c.pl, portState := 4, master := false, group := [] })

/-- Table 11-5, `PTP_SET`. -/
def ptpSetSpec : CmdSpec :=
  { op := 0x0A02, target := toTime, len := fun _ => 16, fields := fun _ => ptpSetFields, unit := ptpSetUnit }

/-- `TIME_SET` (R340, R347, R357): the step is applied at the next tick boundary and completes the command. -/
def timeSetUnit (c : Cmd) (s : State) : Reply :=
  let b := c.pl
  let rel := byteAt b 0 == 1
  let ns := le b 4 4
  if rel = false ∧ timeSrc s = 2 ∧ ns ≠ 0 then badParam 4
  else
    let v : Int := if rel then les b 8 8 else ((le b 8 8 * secU + ns * 65536 : Nat) : Int)
    .busy (s.setSid { s.sid with stepReqs := s.sid.stepReqs ++
      [{ why := .timeSet, absolute := !rel, secOnly := !rel && timeSrc s == 2, value := v, asked := s.sid.ticks,
         owner := some (c.a.origin, c.a.tag.toNat) }] })

/-- `TIME_SET` payload (R357). -/
def timeSetSpec : CmdSpec :=
  { op := 0x0A03, target := toTime, len := fun _ => 16,
    fields := fun _ => [rng 0 1 0 1, rsv 1 3, whenFld (fun b => byteAt b 0 == 0) (rng 4 4 0 999999999)],
    unit := timeSetUnit }

/-- `TIME_ACCEPT_STEP` (R345, R357): a slew starts, or a step is applied, at the next tick boundary. -/
def timeAcceptStepUnit (c : Cmd) (s : State) : Reply :=
  let o := (c.a.origin, c.a.tag.toNat)
  if s.sid.st ≠ .refused then badState
  else if bit (byteAt c.pl 0) 0 then .busy (s.setSid { s.sid with slewReq := some o })
  else
    .busy (s.setSid { s.sid with stepReqs := s.sid.stepReqs ++
      [{ why := .accept, absolute := false, secOnly := false, value := 0, asked := s.sid.ticks,
         owner := some o }] })

/-- `TIME_ACCEPT_STEP` payload (R357). -/
def timeAcceptStepSpec : CmdSpec :=
  { op := 0x0A04, target := toTime, len := fun _ => 4, fields := fun _ => [wid 0 1 1, rsv 1 3],
    unit := timeAcceptStepUnit }

/-- The slew of an accepted offset starts at a tick boundary (R345): Disciplined, the outlier test suspended.
Log: 32 (DEDUCED). -/
def startSlew (s : State) : State :=
  match s.sid.slewReq with
  | none => s
  | some o =>
    let s1 := s.setSid { s.sid with slewReq := none }
    let s2 := if s.sid.st = .refused then
        let s3 := toDisciplined s1
        s3.setSid { s3.sid with slewing := true, suspended := true, rPhase := slewPhase s s3.sid.offset }
      else s1
    match byTag s2 o.1 o.2 with
    | some f => complete s2 f stOk 0 [] s2.sid.now s2.ev.nextId
    | none => s2

/-- `TIME_ADJUST` (R344, R357). -/
def timeAdjustUnit (c : Cmd) (s : State) : Reply :=
  let at_ := sidOf s.sid.now (BitVec.ofNat 64 (le c.pl 8 8))
  if s.sid.now < at_ ∨ at_ + 3200 * tickU < s.sid.now then badParam 8
  else if timeSrc s ≠ 3 then badState
  else
    let s1 := sample s (les c.pl 0 8) true
    if s1.sid.st = .refused then .done stTimeRefused 0 [] s1 else ok s1

/-- `TIME_ADJUST` payload (R357). -/
def timeAdjustSpec : CmdSpec :=
  { op := 0x0A05, target := toTime, len := fun _ => 16, unit := timeAdjustUnit }

/-- Code of `TIME_STATE` (Table 11-6). -/
def timeCode : TimeState → Nat
  | .unset => 0
  | .free => 1
  | .acquiring => 2
  | .disciplined => 3
  | .coasting => 4
  | .refused => 5

/-- Seconds in Coasting or Refused. -/
def coastSeconds (s : State) : Nat :=
  if s.sid.st = .coasting ∨ s.sid.st = .refused then (s.sid.now - s.sid.coastFrom) / secU else 0

/-- The `TIME_GET` result (Table 11-6). -/
def timeGetResult (s : State) : Bytes :=
  let t := s.sid
  leBytes 1 (timeCode t.st) ++ leBytes 1 (timeSrc s) ++ leBytes 1 (flag t.valid 0 + flag t.slewing 1 + flag t.master 2) ++
    leBytes 1 t.portState ++ leBytes 2 t.utc ++ leBytes 2 t.outliers ++ sleBytes 8 t.offset ++ sleBytes 8 t.refusedAt ++
    sleBytes 4 (t.rFreq + t.rPhase) ++ leBytes 4 (t.pathDelay / 256).toNat ++ leBytes 4 t.steps ++ leBytes 4 (sat 32 (coastSeconds s)) ++
    leBytes 8 t.gm.toNat ++ leBytes 8 (whenOf t.now).toNat

/-- Table 11-6, `TIME_GET`. -/
def timeGetSpec : CmdSpec :=
  { op := 0x0A06, target := toTime, len := fun _ => 0, largest := fun _ => 56,
    unit := fun _ s => okWith (timeGetResult s) s }

def execTimeSrcSet (a : Args) (s : State) : Host.Outcome State Fault Refusal := .next (submit timeSrcSetSpec a s)
def execPtpSet (a : Args) (s : State) : Host.Outcome State Fault Refusal := .next (submit ptpSetSpec a s)
def execTimeSet (a : Args) (s : State) : Host.Outcome State Fault Refusal := .next (submit timeSetSpec a s)
def execTimeAcceptStep (a : Args) (s : State) : Host.Outcome State Fault Refusal := .next (submit timeAcceptStepSpec a s)
def execTimeAdjust (a : Args) (s : State) : Host.Outcome State Fault Refusal := .next (submit timeAdjustSpec a s)
def execTimeGet (a : Args) (s : State) : Host.Outcome State Fault Refusal := .next (submit timeGetSpec a s)

/-! ## Steps (R347) -/

/-- The new time that a step gives now: the one that `TIME_SET` names, or the present one less the latest offset. -/
def stepTarget (s : State) (q : StepReq) : Sid :=
  let now := s.sid.now
  match q.why with
  | .timeSet =>
    if q.absolute then
      if q.secOnly then q.value.toNat / secU * secU + now % secU else q.value.toNat
    else ((now : Int) + q.value).toNat
  | _ => ((now : Int) - s.sid.offset).toNat

/-- The state that a step leads to (Table 11-3). -/
def stepState (s : State) (q : StepReq) : TimeState :=
  match q.why with
  | .acquire | .accept => .disciplined
  | .timeSet =>
    if timeSrc s ≠ 0 then .acquiring
    else if s.sid.st = .unset ∧ q.absolute = false then .unset
    else .free

/-- The step itself: new time, the next boundary at least half a tick away, `EV_TIME` cause 0x03 at the step instant on
the new scale, and the state of Table 11-3. -/
def applyStep (s : State) (q : StepReq) : State :=
  let mark := s.ev.nextId
  let t := stepTarget s q
  let st := stepState s q
  let valid := match q.why with
    | .timeSet => if q.absolute then true else s.sid.valid
    | _ => s.sid.valid || validNow s false
  let s1 := s.setSid { s.sid with
    now := t, scaleFrom := s.sid.ticks + 1, next := (t + tickU / 2 + tickU - 1) / tickU * tickU, bound := t, st := st, valid := valid,
    isSet := s.sid.isSet || q.absolute || (match q.why with
      | .timeSet => false
      | _ => true),
    good := 0, inRow := 0, group := [], steps := sat 32 (s.sid.steps + 1),
    syncTook := s.sid.syncTook + ((t : Int) - s.sid.now), reqSent := s.sid.reqSent + ((t : Int) - s.sid.now), coastFrom := t, lastSample := t, stepReqs := s.sid.stepReqs.filter fun x => !decide (x = q),
    rHist := if st = .disciplined then [(t, s.sid.rFreq)] else s.sid.rHist,
    slewing := false, suspended := false }
  let s2 := tape (evTimeCause s1 0x03) 8 (sleBytes 8 ((t : Int) - (s.sid.now : Int)) ++ leBytes 8 (whenOf t).toNat) t
  let s3 := match q.why with
    | .acquire => evTimeCause s2 0x01
    | _ => s2
  match q.owner.bind fun o => byTag s3 o.1 o.2 with
  | some f => complete s3 f stOk 0 [] t mark
  | none => s3

/-- The step that the present tick boundary applies: one asked for before it.
Log: 40 (DEDUCED). -/
def dueStep (s : State) : Option StepReq :=
  if atBoundary s then s.sid.stepReqs.find? fun q => decide (q.asked < s.sid.ticks) else none

/-! ## Occurrences of the sources -/

/-- A change of grandmaster identity posts `EV_TIME` cause 0x07 (R342). -/
def setGm (s : State) (gm : BitVec 64) : State :=
  if gm = s.sid.gm then s else evTimeCause (s.setSid { s.sid with gm := gm }) 0x07

/-- A PTP sample of the present group; the one with the smallest path delay of `PTP_SELECT` is the sample (Table 11-1). -/
def ptpSync (s : State) (o : Int) (delay : Int) : State :=
  let g := s.sid.group ++ [(delay, o)]
  if g.length < byteAt s.sid.ptp 10 then s.setSid { s.sid with group := g }
  else
    let best := g.foldl (fun b e => if e.1 < b.1 then e else b) (delay, o)
    let s1 := s.setSid { s.sid with group := [] }
    if timeSrc s = 1 ∧ s.sid.master = false then sample s1 best.2 false else s1

/-- `PTP_ASYM`, and the times of the medium interface of a message stamped at the balls now (R464, Tables 11-5 and 15-10). -/
def ptpAsym (s : State) : Int := les s.sid.ptp 12 4
def stampIn (s : State) : Int := s.sid.now - 65536 * le s.eth.cfg 36 2
def stampOut (s : State) : Int := s.sid.now + 65536 * le s.eth.cfg 38 2

/-- A Sync has arrived: o = Sidereal time − source time, from the time that it took less path delay and asymmetry (R339, Table
11-1).
Log: 198 (DEDUCED). -/
def syncIn (s : State) (origin correction : Int) : State :=
  let took := stampIn s - origin - correction
  ptpSync (s.setSid { s.sid with syncTook := took }) (took - s.sid.pathDelay - ptpAsym s) s.sid.pathDelay

/-- The SGMII port takes in messages: the part has one (R4), it is powered (R411) and PTP is on. -/
def ptpPort (s : State) : Bool :=
  hasUnit s 0x0F && ptpOn s && (decide (s.pwr.state = .active) || decide (s.pwr.state = .avalanche))

/-- `PTP_MESSAGE` (R341, R464): the mean path delay is half of the way there and back, with the master in end-to-end mode and with
the neighbour in peer-to-peer mode.
Log: 198 (DEDUCED). -/
def execPtpMessage (m : PtpMsg) (t : Sid) (s : State) : Host.Outcome State Fault Refusal :=
  if ptpPort s = false then .next s
  else
    let s1 := advance s t
    let plain := s1.setEth { s1.eth with rxFrames := sat 32 (s1.eth.rxFrames + 1) }
    let stamped := plain.setEth { plain.eth with tsRx := sat 32 (plain.eth.tsRx + 1) }
    let p2p := byteAt s.sid.ptp 0 == 2
    match m with
    | .sync o c => .next (syncIn stamped o c)
    | .delayResp r c =>
      .next (if p2p then plain else plain.setSid { plain.sid with pathDelay := (s1.sid.syncTook + (r - s1.sid.reqSent - c)) / 2 })
    | .pdelayResp d c =>
      .next (if p2p then stamped.setSid { stamped.sid with pathDelay := (stampIn s1 - s1.sid.reqSent - d - c) / 2 } else stamped)
    | .announce gm utc => .next (setGm (plain.setSid { plain.sid with utc := utc.toNat }) gm)
    | .other event => .next (if event then stamped else plain)

/-- `PTP_BMCA_ROLE_CHANGE` (R342): only a master-capable port becomes master. -/
def execPtpBmcaRoleChange (master : Bool) (portState : Byte) (gm : BitVec 64) (t : Sid) (s : State) :
    Host.Outcome State Fault Refusal :=
  if ptpPort s = false ∨ (master ∧ byteAt s.sid.ptp 3 ≠ 1) then .next s
  else
    let s1 := advance s t
    let s2 := setGm (s1.setSid { s1.sid with master := master, portState := portState.toNat }) gm
    .next (if master ∧ timeSrc s2 = 1 then coast s2 else s2)

/-- The clockClass that a master announces (R342). -/
def clockClass (s : State) : Nat :=
  match s.sid.st with
  | .unset | .free => 248
  | .acquiring => if s.sid.isSet then 7 else 248
  | .disciplined => 6
  | _ => 7

/-- `PTP_MESSAGE_SEND` (R342, R463, R464): the port sends once a station address is set; a master alone sends Sync, with its origin
time, and Announce.
Log: 198 (DEDUCED). -/
def execPtpMessageSend (m : PtpOut) (t : Sid) (s : State) : Host.Outcome State Fault Refusal :=
  if ptpPort s = false ∨ le s.eth.cfg 0 6 = 0 ∨ ((m = .sync ∨ m = .announce) ∧ s.sid.master = false) then .next s
  else
    let s1 := advance s t
    let s2 := s1.setEth { s1.eth with txFrames := sat 32 (s1.eth.txFrames + 1) }
    let stamped := s2.setEth { s2.eth with tsTx := sat 32 (s2.eth.tsTx + 1) }
    match m with
    | .sync => .next (stamped.setSid { stamped.sid with origin := stampOut s1 })
    | .delayReq => .next (stamped.setSid { stamped.sid with reqSent := stampOut s1 })
    | .announce => .next (s2.setSid { s2.sid with classSent := clockClass s1 })
    | .other event => .next (if event then stamped else s2)

/-- The offset of an edge: its time less the nearest whole second, in [−0.5 s, +0.5 s) (Table 11-1). -/
def ppsOffset (edge : Int) : Int :=
  let h : Int := (secU / 2 : Nat)
  (edge + h) % (secU : Int) - h

/-- A time to the resolution of 10 ps (R338). -/
def tenPs (t : Sid) : Sid := t * 100 / 65536 * 65536 / 100

/-- `PPS_IN_EDGE` (R338). -/
def execPpsInEdge (falling : Bool) (stamp : Sid) (s : State) : Host.Outcome State Fault Refusal :=
  if s.sid.running = false ∨ timeSrc s ≠ 2 ∨ falling ≠ ppsFalling s then .next s
  else .next (sample (advance s stamp) (ppsOffset ((tenPs stamp : Int) - ppsDelay s)) false)

/-- `SOURCE_LOST` (R339). -/
def execSourceLost (s : State) : Host.Outcome State Fault Refusal :=
  if timeSrc s ≠ 0 ∧ expired s s.sid.lossBy then .next (coast s) else .next s

/-- `SLEW_WITHIN_THRESHOLD` (R345, R346): the latest sample finds the accepted offset within the threshold.
Log: 32 (DEDUCED). -/
def execSlewWithinThreshold (s : State) : Host.Outcome State Fault Refusal :=
  if s.sid.st = .disciplined ∧ s.sid.suspended ∧ s.sid.offset.natAbs ≤ jumpU s then
    .next (evTimeCause (s.setSid { s.sid with suspended := false }) 0x04)
  else .next s

end Sys2Proof.Machine
end

