-- ==== Sys2Proof/Machine/Clocks.lean ====
section
/-! DEFINITION. Machine/Clocks.lean: reference, loops and clock outputs: commands 0x0201–0x0206 and their occurrences
(chapter 03). Loops are numbered as Table 3-2 numbers them: 0 SCLK, 1 TX, 2 A48, 3 A44, 4 system. -/

namespace Sys2Proof.Machine

/-- The reference frequencies of Table 3-1, in kHz. -/
def refFreqs : List Nat := [10000, 19200, 20000, 26000, 38400, 40000, 50000]

/-- The A48 and A44 frequencies of Table 3-7, in Hz. -/
def mclk48 : List Nat := [3072000, 4096000, 6144000, 8192000, 12288000, 24576000, 49152000]
def mclk44 : List Nat := [5644800, 11289600, 22579200, 45158400]

/-- The loop that an MCLK frequency comes from (Table 3-7). -/
def mclkLoop (freq : Nat) : Nat := if mclk44.contains freq then 3 else 2

def loopLocked (s : State) (l : Nat) : Bool := s.clk.lock.getLsbD l

/-- Phase-detector frequency in kHz of a conditioner setting (Table 3-1). -/
def pdKhz (refKhz mode : Nat) : Nat := if mode = 1 then refKhz * 2 else if mode = 2 then refKhz / 2 else refKhz

def refKhz (s : State) : Nat := le s.clk.cfg 2 2

/-! ## Loops (R77, R84–R88) -/

/-- One part in 10¹². -/
def ppt : Int := 1000000000000

def loopOf (s : State) (l : Nat) : PllLoop := s.clk.loops.getD l PllLoop.reset

/-- The conditioner of a loop (R73, Table 3-4). -/
def loopMode (s : State) (l : Nat) : Nat :=
  match l with
  | 0 => s.clk.sclkMode
  | 1 => byteAt s.clk.cfg 4
  | 4 => byteAt s.clk.cfg 6
  | _ => byteAt s.clk.cfg 5

/-- f_PD of a loop in kHz. -/
def loopPd (s : State) (l : Nat) : Nat := pdKhz (refKhz s) (loopMode s l)

/-- `n` cycles of the phase detector of loop `l` as Sidereal time. -/
def pdCycles (s : State) (l n : Nat) : Sid := n * (1000 * usU) / loopPd s l

/-- A lock attempt of a loop begins: its `LOCK_SET` settings apply from it (R77). -/
def lockAttempt (s : State) (l : Nat) : State :=
  s.setClk { s.clk with lockUsed := s.clk.lockUsed.set l (s.clk.lockCfg.getD l (20, 4096))
                        loops := s.clk.loops.set l { loopOf s l with since := s.sid.now } }

/-- The earliest lock declaration of the attempt under way: N cycles after its start (R77). -/
def lockFrom (s : State) (l : Nat) : Sid := (loopOf s l).since + pdCycles s l (s.clk.lockUsed.getD l (20, 4096)).2

/-- The mean of a list; `d` of none. -/
def mean (d : Int) (l : List Int) : Int := if l = [] then d else l.foldl (· + ·) 0 / (l.length : Int)

/-- The loop's average over the 64 ms before a disturbance without the final 1 ms, which is 3.2 ticks (R84).
Log: 167 (DESIGN CHOICE). -/
def frozenWord (p : PllLoop) : Int := mean p.dev (p.hist.drop 4)

/-- Every loop runs open from its frozen word: that of this entry from Locked, else that of the original entry (R84, R88). -/
def freezeWords (s : State) (fresh : Bool) : State :=
  s.setClk { s.clk with
    loops := s.clk.loops.map fun p =>
      let w := if fresh then frozenWord p else p.frozen
      { p with frozen := w, dev := w }
    refHist := [], xoAvg := if fresh then mean 0 (s.clk.xoHist.drop 4) else s.clk.xoAvg }

/-- `HOLD_XO` applies: the loops follow a fitted crystal while REFIN is the reference. -/
def followsXo (s : State) : Bool := bit (byteAt s.clk.cfg 1) 0 && byteAt s.clk.cfg 0 == 0 && s.clk.xtal

/-- The word in holdover: frozen, or the crystal scaled by the ratio measured over the window (R84).
Log: 167 (DESIGN CHOICE). -/
def heldWord (s : State) (xo : Int) (p : PllLoop) : Int :=
  if followsXo s then (ppt + xo) * (ppt + p.frozen) / (ppt + s.clk.xoAvg) - ppt else p.frozen

/-- 10 ppm per millisecond over one tick (R87). -/
def acqStep : Int := 3125000

/-- What frequency acquisition may move loop `l` by in a tick: 10 ppm per millisecond, and for the SCLK PLL in a slew no more
than `SLEW_PPM` leaves of 50 ppm per millisecond (R79, R87). -/
def acqLimit (s : State) (l : Nat) : Int :=
  if l = 0 ∧ s.aur.st = .slewing then min acqStep (312500 * (50 - byteAt s.aur.cfg 13 : Nat)) else acqStep

/-- A DCO moves towards the reference (R87). -/
def steer (limit ref dev : Int) : Int := dev + clampI limit (ref - dev)

/-- The reference is present and within ±100 ppm of the holdover frequency (R85). -/
def inQualRange (s : State) : Bool := decide ((s.clk.refDev - (loopOf s 4).dev).natAbs ≤ 100000000)

/-- The DCO words over one tick: following the reference, held, or steering towards it (R84, R85, R87). -/
def loopWord (s : State) (xo : Int) (l : Nat) (p : PllLoop) : Int :=
  match s.clk.state with
  | .unlocked => p.dev
  | .locked | .buildOut => s.clk.refDev
  | .holdover | .qualifying => heldWord s xo p
  | .acquisition => steer (acqLimit s l) s.clk.refDev p.dev

/-- R90 holds of an output of channel `l`: within ±50 ppm of its target, and no period below 0.98 of the nominal one. -/
def mclkBound (s : State) (l : Nat) : Bool :=
  let d := (loopOf s l).dev
  decide ((d - s.clk.refDev).natAbs ≤ 50000000) && decide (98 * (ppt + d) ≤ 100 * ppt)

/-- Outputs of an unlocked channel that cannot hold the bounds of R90 are gated (R91). -/
def gateOutputs (s : State) : State :=
  s.setClk { s.clk with mclk := s.clk.mclk.map fun e =>
    let l := mclkLoop e.2.freq
    if e.2.enabled ∧ s.clk.lock.getLsbD l = false ∧ mclkBound s l = false then (e.1, { e.2 with gated := true }) else e }

/-- The loops over one tick, from the measured reference and crystal. A reference that leaves ±100 ppm while it qualifies
sends them back to Holdover (Table 3-6), which is no entry to holdover and does not count in `HOLD_COUNT`.
Log: 167 (DESIGN CHOICE), 168 (DESIGN CHOICE). -/
def loopsTick (s0 : State) (ref xo : Int) : State :=
  let c := s0.clk
  let present := decide (c.state ≠ .holdover)
  let s := s0.setClk { c with refDev := if present then ref else c.refDev
                              refHist := if present then (ref :: c.refHist).take 205 else []
                              xoHist := (xo :: c.xoHist).take 205 }
  let s1 := s.setClk { s.clk with loops := s.clk.loops.zipIdx.map fun e =>
    let p := e.1
    let d := loopWord s xo e.2 p
    { p with dev := d, hist := (d :: p.hist).take 205 } }
  gateOutputs (if s1.clk.state = .qualifying ∧ inQualRange s1 = false then s1.setClk { s1.clk with state := .holdover } else s1)

/-! ## Audio channels (R76) -/

def audioCh (s : State) (l : Nat) : AudioChannel := if l = 3 then s.clk.a44 else s.clk.a48

def putAudio (s : State) (l : Nat) (c : AudioChannel) : State :=
  s.setClk (if l = 3 then { s.clk with a44 := c } else { s.clk with a48 := c })

/-- A user selects an audio channel; the first one powers it up. -/
def audioUse (s : State) (l user : Nat) : State :=
  let c := audioCh s l
  let s1 := putAudio s l { c with powered := true, users := user :: c.users.filter (· != user) }
  if c.powered then s1 else lockAttempt s1 l

/-- A user releases an audio channel; after the last one it is powered down 64 ticks later. -/
def audioRelease (s : State) (l user : Nat) : State :=
  let c := audioCh s l
  if c.users.contains user then
    let us := c.users.filter (· != user)
    putAudio s l { c with users := us, downBy := if us.isEmpty then deadline s 64 else c.downBy }
  else s

/-- The TX PLL locks, or loses lock as its channel changes (R75); a lock away from Locked shows once the loops are back.
Log: 166 (DEDUCED). -/
def txLoop (s : State) (on : Bool) : State :=
  let put (b : BitVec 5) : BitVec 5 := if on then b ||| 2#5 else b &&& ~~~2#5
  s.setClk { s.clk with lock := if on ∧ s.clk.state ≠ .locked then s.clk.lock else put s.clk.lock,
                        heldLock := put s.clk.heldLock }

/-! ## Holdover and return (Table 3-6) -/

/-- Loops enter holdover; from Locked the locked loops are remembered and the words are those of this entry. `ev` is false for
a `REF_SET` (R74), which Table 3-3 gives no cause: `REF_CAUSE` keeps that of the entry before.
Log: 37 (DEDUCED), 168 (DESIGN CHOICE). -/
def enterHoldover (s0 : State) (cause : Nat) (ev : Bool) : State :=
  let s := freezeWords s0 (decide (s0.clk.state = .locked))
  let c := s.clk
  let held := if c.state = .locked then c.lock else c.heldLock
  let s1 := s.setClk { c with state := .holdover, cause := if ev then cause else c.cause, heldLock := held, lock := 0,
                              holdCount := sat 32 (c.holdCount + 1), silent := !ev }
  coast (if ev then raise s1 evRefLost 0x0000 cause else s1)

/-- A detector of Table 3-3 fires (R83, R88). -/
def detectorFires (s : State) (cause : Nat) : State :=
  match s.clk.state with
  | .locked | .qualifying | .acquisition | .buildOut => enterHoldover s cause true
  | _ => s

/-- Every Executing command that passes `p`, without an outcome yet, completes with `ST_OK`. -/
def completeAll (s : State) (p : InFlight → Bool) (t : Sid) (mark : Nat) : State :=
  (s.cmds.list.filter fun f => decide (f.phase = .executing) && f.begun && f.outcome.isNone && p f).foldl
    (fun q f => complete q f stOk 0 [] t mark) s

/-- MCLK outputs of a channel that has declared lock restart, and every `MCLK_SET` that waited for it completes
(R91, R92). -/
def mclkRestart (s : State) (l : Nat) (t : Sid) : State :=
  let on : Nat × Mclk → Bool := fun e => e.2.gated && e.2.enabled && mclkLoop e.2.freq == l
  let s1 := s.setClk { s.clk with mclk := s.clk.mclk.map fun e => if on e then (e.1, { e.2 with gated := false }) else e }
  completeAll s1 (fun f => f.cmd.op == 0x0203 && mclkLoop (le f.cmd.pl 4 4) == l) t s1.ev.nextId

/-! ## Commands -/

/-- `REF_SET` (R71, R74). A change outside Locked, which Table 3-6 does not list, enters Holdover again and counts as an entry.
Log: 35 (DEDUCED), 168 (DESIGN CHOICE). -/
def refSetUnit (c : Cmd) (s : State) : Reply :=
  let b := c.pl
  if bit (byteAt b 1) 0 ∧ s.clk.xtal = false then badState
  else
    let same := byteAt b 0 == byteAt s.clk.cfg 0 && le b 2 2 == le s.clk.cfg 2 2 && le b 4 3 == le s.clk.cfg 4 3
    let s1 := s.setClk { s.clk with cfg := b }
    if same then ok s1 else .busy (enterHoldover s1 0 false)

/-- Table 3-4, `REF_SET`.
Log: 35 (DEDUCED). -/
def refSetSpec : CmdSpec :=
  { op := 0x0201, target := toSystem, len := fun _ => 8,
    fields := fun _ => [rng 0 1 0 1,
      ⟨1, fun b => byteAt b 1 == 0 || (byteAt b 1 == 1 && byteAt b 0 == 0)⟩,
      ⟨2, fun b => if byteAt b 0 == 1 then le b 2 2 == 38400 else refFreqs.contains (le b 2 2)⟩,
      rng 4 1 0 2, rng 5 1 0 2, rng 6 1 0 2, rng 7 1 1 100],
    unit := refSetUnit }

/-- `LOCK_SET` (R77): in force from the next lock attempt. -/
def lockSetUnit (c : Cmd) (s : State) : Reply :=
  ok (s.setClk { s.clk with lockCfg := s.clk.lockCfg.set (byteAt c.pl 0) (byteAt c.pl 1, le c.pl 2 2) })

/-- Table 3-5, `LOCK_SET`. -/
def lockSetSpec : CmdSpec :=
  { op := 0x0202, target := toSystem, len := fun _ => 4,
    fields := fun _ => [rng 0 1 0 4, rng 1 1 5 100, rng 2 2 256 65535], unit := lockSetUnit }

/-- `MCLK_SET` (R89, R92). An output whose channel is not locked starts when it locks. -/
def mclkSetUnit (c : Cmd) (s : State) : Reply :=
  let n := byteAt c.pl 0
  let en := bit (byteAt c.pl 1) 0
  let fr := le c.pl 4 4
  let l := mclkLoop fr
  let s1 := audioRelease (audioRelease s (5 - l) n) (if en then 5 - l else l) n
  let s2 := if en then audioUse s1 l n else s1
  let locked := loopLocked s2 l
  let s3 := s2.setClk { s2.clk with mclk := mput s2.clk.mclk n { enabled := en, freq := fr, gated := en && !locked } }
  if en = false ∨ locked then .later stOk 0 [] s3 else .busy s3

/-- `MCLK_SET` payload (chapter 03, "Commands"). -/
def mclkSetSpec : CmdSpec :=
  { op := 0x0203, target := toSystem, len := fun _ => 12,
    fields := fun _ => [rng 0 1 0 3, wid 1 1 1, rsv 2 2, fld 4 4 fun v => mclk48.contains v || mclk44.contains v,
      rsv 8 4],
    unit := mclkSetUnit }

/-- `REFOUT_SET` (R93): it completes at the edge. -/
def refoutSetUnit (c : Cmd) (s : State) : Reply :=
  .later stOk 0 [] (s.setClk { s.clk with refoutOn := bit (byteAt c.pl 0) 0, refoutKhz := le c.pl 4 4 })

/-- `REFOUT_SET` payload (chapter 03, "Commands"). -/
def refoutSetSpec : CmdSpec :=
  { op := 0x0204, target := toSystem, len := fun _ => 8,
    fields := fun _ => [wid 0 1 1, rsv 1 3, fld 4 4 (refFreqs.contains ·)], unit := refoutSetUnit }

/-- `PPSOUT_SET` (R94–R96). Turned off, PPS_OUT is low at once, a pulse in progress included.
Log: 169 (DESIGN CHOICE). -/
def ppsoutSetUnit (c : Cmd) (s : State) : Reply :=
  ok (s.setClk { s.clk with ppsMode := byteAt c.pl 0, ppsWidth := le c.pl 4 4,
                            ppsHigh := s.clk.ppsHigh && byteAt c.pl 0 != 0 })

/-- `PPSOUT_SET` payload (chapter 03, "Commands"). -/
def ppsoutSetSpec : CmdSpec :=
  { op := 0x0205, target := toSystem, len := fun _ => 8,
    fields := fun _ => [rng 0 1 0 2, rsv 1 3, rng 4 4 1 500000], unit := ppsoutSetUnit }

/-- Code of `REF_STATE` (Table 3-8). -/
def refCode : RefState → Nat
  | .unlocked => 0
  | .locked => 1
  | .holdover => 2
  | .qualifying => 3
  | .acquisition => 4
  | .buildOut => 5

/-- `MCLK_GATED`. -/
def mclkGated (s : State) : Nat := (s.clk.mclk.map fun e => flag e.2.gated e.1).foldl (· + ·) 0

/-- `REF_PPB`: parts per 10⁹. -/
def refPpb (s : State) : Int := (s.clk.refDev + 500) / 1000

/-- The `CLOCK_GET` result (Table 3-8).
Log: 36 (DESIGN CHOICE). -/
def clockGetResult (s : State) : Bytes :=
  let c := s.clk
  leBytes 1 (refCode c.state + 16 * c.cause) ++ leBytes 1 c.lock.toNat ++ leBytes 1 (mclkGated s) ++ [0] ++
    leBytes 4 c.glitches ++ leBytes 4 c.holdCount ++ leBytes 4 c.ppsSkipped ++ sleBytes 2 (loopOf s 4).build ++
    sleBytes 2 (loopOf s 0).build ++ leBytes 4 (c.sclkHz / 1000) ++ leBytes 4 c.lockPoint ++ sleBytes 4 (refPpb s)

/-- Table 3-8, `CLOCK_GET`. -/
def clockGetSpec : CmdSpec :=
  { op := 0x0206, target := toSystem, len := fun _ => 0, largest := fun _ => 32,
    unit := fun _ s => okWith (clockGetResult s) s }

def execRefSet (a : Args) (s : State) : Host.Outcome State Fault Refusal := .next (submit refSetSpec a s)
def execLockSet (a : Args) (s : State) : Host.Outcome State Fault Refusal := .next (submit lockSetSpec a s)
def execMclkSet (a : Args) (s : State) : Host.Outcome State Fault Refusal := .next (submit mclkSetSpec a s)
def execRefoutSet (a : Args) (s : State) : Host.Outcome State Fault Refusal := .next (submit refoutSetSpec a s)
def execPpsoutSet (a : Args) (s : State) : Host.Outcome State Fault Refusal := .next (submit ppsoutSetSpec a s)
def execClockGet (a : Args) (s : State) : Host.Outcome State Fault Refusal := .next (submit clockGetSpec a s)

/-! ## Occurrences -/

/-- `REFERENCE_LOSS` (R83): no edge for 8 periods, cause 0x1. -/
def execReferenceLoss (t : Sid) (s : State) : Host.Outcome State Fault Refusal := .next (detectorFires (advance s t) 1)

/-- `FREQUENCY_JUMP` (R83): the reference's deviation `dev` over the last 1 ms departs by more than 20 ppm from its 64 ms
running average: cause 0x2.
Log: 167 (DESIGN CHOICE). -/
def execFrequencyJump (dev : Int) (t : Sid) (s : State) : Host.Outcome State Fault Refusal :=
  if 20000000 < (dev - mean s.clk.refDev s.clk.refHist).natAbs then .next (detectorFires (advance s t) 2) else .next s

/-- `REFERENCE_GLITCH` (R83): masked and counted; the 16th within 1 ms is a burst, cause 0x3. -/
def execReferenceGlitch (t : Sid) (s : State) : Host.Outcome State Fault Refusal :=
  let s1 := advance s t
  let now := s1.sid.now
  let recent := now :: (s1.clk.recent.filter fun x => decide (now < x + 65536000000)).take 15
  let s2 := s1.setClk { s1.clk with glitches := sat 32 (s1.clk.glitches + 1), recent := recent }
  if recent.length ≥ 16 then .next (detectorFires (s2.setClk { s2.clk with recent := [] }) 3) else .next s2

/-- `REFERENCE_RETURN` (R85): qualification starts. -/
def execReferenceReturn (s : State) : Host.Outcome State Fault Refusal :=
  if s.clk.state = .holdover then
    .next (s.setClk { s.clk with state := .qualifying, qualBy := deadline s (32 * byteAt s.clk.cfg 7) })
  else .next s

/-- `QUALIFICATION_COMPLETE` (R85): the period has passed; a reference outside ±100 ppm has left Qualifying at its tick. -/
def execQualificationComplete (s : State) : Host.Outcome State Fault Refusal :=
  if s.clk.state = .qualifying ∧ expired s s.clk.qualBy then
    .next (s.setClk { s.clk with state := .acquisition, acqFrom := s.sid.now })
  else .next s

/-- A loop runs: the system and SCLK PLLs, the TX PLL on a channel, an audio channel that is powered. -/
def loopPowered (s : State) (l : Nat) : Bool :=
  match l with
  | 1 => s.clk.heldLock.getLsbD 1
  | 2 | 3 => (audioCh s l).powered
  | _ => true

/-- `FREQUENCY_ACQUISITION_COMPLETE` (R85): after the measurement of 1 ms every powered loop's error is below 0.005 ppm, and
its lock attempt begins. -/
def execFrequencyAcquisitionComplete (t : Sid) (s : State) : Host.Outcome State Fault Refusal :=
  let s1 := advance s t
  let near := (List.range 5).all fun l => !loopPowered s l || decide (((loopOf s l).dev - s.clk.refDev).natAbs < 5000)
  if s.clk.state = .acquisition ∧ near ∧ s.clk.acqFrom + 1000 * usU ≤ s1.sid.now then
    .next ((List.range 5).foldl lockAttempt (s1.setClk { s1.clk with state := .buildOut }))
  else .next s

/-- A build-out value reduced to [−T_PD/2, +T_PD/2), in 10 ps (R86). -/
def reduceBuildOut (v : Int) (khz : Nat) : Int :=
  let f : Int := khz
  let k := (2 * v * f + 100000000) / 200000000
  v - k * 100000000 / f

/-- The build-out register of each powered loop takes the phase measured over 256 cycles (R85, R86). -/
def loadBuildOut (s : State) (phases : List Int) : List PllLoop :=
  (List.range 5).map fun l =>
    let p := loopOf s l
    if loopPowered s l then { p with build := reduceBuildOut (phases.getD l 0) (loopPd s l) } else p

/-- The tape entry of a loop's build-out (Table 12-2, 0x09). -/
def tapePhase (s : State) (l : Nat) : State :=
  if loopPowered s l then tape s 9 (leBytes 4 l ++ sleBytes 4 (loopOf s l).build ++ sleBytes 4 (refPpb s)) s.sid.now else s

/-- The loops that have locked when the build-out ends: those of the entry, and audio channels powered since.
Log: 37 (DEDUCED). -/
def builtLock (s : State) : BitVec 5 :=
  (List.range 5).foldl (fun b l => if loopPowered s l then b ||| (1#5 <<< l) else b) s.clk.heldLock

/-- `BUILD_OUT_LOCK` (R77, R86): every powered loop has built out over 256 cycles and declared lock after N more; `EV_REF_BACK`
is raised and every `REF_SET` under way completes.
Log: 37 (DEDUCED). -/
def execBuildOutLock (phases : List Int) (t : Sid) (s : State) : Host.Outcome State Fault Refusal :=
  let s1 := advance s t
  let done := (List.range 5).all fun l => !loopPowered s l || decide (lockFrom s l + pdCycles s l 256 ≤ s1.sid.now)
  if s.clk.state ≠ .buildOut ∨ done = false then .next s
  else
    let mark := s1.ev.nextId
    let s2 := s1.setClk { s1.clk with state := .locked, lock := builtLock s1, loops := loadBuildOut s1 phases, silent := false }
    let s2a := [4, 0, 1, 2, 3].foldl tapePhase s2
    let s3 := raise s2a evRefBack 0x0000 ((loopOf s2 4).build % 65536).toNat
    let s4 := completeAll s3 (fun f => f.cmd.op == 0x0201) s3.sid.now mark
    let s5 := if loopLocked s4 2 then mclkRestart s4 2 s4.sid.now else s4
    .next (if loopLocked s5 3 then mclkRestart s5 3 s5.sid.now else s5)

/-- `LOOP_LOCK` (R77): a powered loop declares lock, N cycles after its attempt began at the earliest; its channel's outputs
restart. -/
def execLoopLock (loop : Nat) (t : Sid) (s : State) : Host.Outcome State Fault Refusal :=
  let powered := if loop = 2 ∨ loop = 3 then (audioCh s loop).powered else true
  let s1 := advance s t
  if loop ≥ 5 ∨ powered = false ∨ s.clk.state ≠ .locked ∨ loopLocked s loop ∨ s1.sid.now < lockFrom s loop then .next s
  else
    let s2 := s1.setClk { s1.clk with lock := s1.clk.lock ||| (1#5 <<< loop) }
    .next (if loop = 2 ∨ loop = 3 then mclkRestart s2 loop s2.sid.now else s2)

/-- `AUDIO_CHANNEL_POWER_DOWN` (R76): 64 ticks after its last user released it. -/
def execAudioChannelPowerDown (channel : Nat) (s : State) : Host.Outcome State Fault Refusal :=
  let c := audioCh s channel
  if (channel = 2 ∨ channel = 3) ∧ c.powered ∧ c.users.isEmpty ∧ expired s c.downBy then
    let s1 := putAudio s channel { c with powered := false }
    .next (s1.setClk { s1.clk with lock := s1.clk.lock &&& ~~~(1#5 <<< channel),
                                   heldLock := s1.clk.heldLock &&& ~~~(1#5 <<< channel) })
  else .next s

/-- `MCLK_GATE` (R90, R91): an output whose channel is not locked and cannot hold the bounds is gated, and restarts once the
channel is locked. -/
def execMclkGate (output : Nat) (gate : Bool) (t : Sid) (s : State) : Host.Outcome State Fault Refusal :=
  match mget s.clk.mclk output with
  | none => .next s
  | some m =>
    let l := mclkLoop m.freq
    let due := if gate then !loopLocked s l && !mclkBound s l else loopLocked s l
    if m.enabled = false ∨ m.gated = gate ∨ due = false then .next s
    else
      let s1 := advance s t
      .next (s1.setClk { s1.clk with mclk := mput s1.clk.mclk output { m with gated := gate } })

/-- PPS_OUT may rise (R96).
Log: 38 (DEDUCED). -/
def ppsAllowed (s : State) : Bool :=
  s.clk.ppsMode == 1 || (s.clk.ppsMode == 2 && decide (s.sid.st = .disciplined))

/-- `PPS_OUT_PULSE` (R94–R96): a rise at a whole Sidereal second, skipped less than 1 ms after the end of the previous pulse, and
the fall once `PPS_WIDTH` has passed. A second boundary that a step places while the previous pulse is still high makes no
pulse and is not counted: R95 speaks of the time after the end of that pulse.
Log: 38 (DEDUCED), 169 (DESIGN CHOICE). -/
def execPpsOutPulse (rise : Bool) (t : Sid) (s : State) : Host.Outcome State Fault Refusal :=
  let s1 := advance s t
  let now := s1.sid.now
  if rise then
    if ppsAllowed s1 = false ∨ s1.clk.ppsHigh ∨ now % secU ≠ 0 then .next s
    else if 0 < s1.clk.ppsEnd ∧ s1.clk.ppsEnd ≤ now ∧ now < s1.clk.ppsEnd + 65536000000 then
      .next (s1.setClk { s1.clk with ppsSkipped := sat 32 (s1.clk.ppsSkipped + 1) })
    else .next (s1.setClk { s1.clk with ppsHigh := true, ppsEnd := now + s1.clk.ppsWidth * 65536000 })
  else if s1.clk.ppsHigh ∧ s1.clk.ppsEnd ≤ now then .next (s1.setClk { s1.clk with ppsHigh := false })
  else .next s

end Sys2Proof.Machine
end

