-- ==== Sys2Proof/Machine/Rf.lean ====
section
/-! DEFINITION. Machine/Rf.lean: gain, active-aerial bias, spot calibration and coexistence blanking of the aerial inputs:
commands 0x0301, 0x0302, 0x0304 and 0x0305 and their occurrences (chapter 04). -/

namespace Sys2Proof.Machine

/-! ## Gain (R99–R104) -/

def Ant.mode (a : Ant) : Nat := byteAt a.cfg 0
def Ant.powered (a : Ant) : Bool := bit (byteAt a.cfg 10) 0

/-- Attenuation and LNA gain of gain index `g` at take-over point `T` (R99). -/
def splitGain (T : Nat) (g : Int) : Nat × Nat :=
  if (T : Int) ≤ g then (0, g.toNat)
  else if (T : Int) - 31 ≤ g then (((T : Int) - g).toNat, T)
  else (31, (g + 31).toNat)

/-- The gain index becomes `g`, within −31 to +30 dB; a change is counted (`AGC_STEPS`). -/
def Ant.setGain (a : Ant) (g : Int) : Ant :=
  let g1 := max (-31) (min 30 g)
  let p := splitGain (byteAt a.cfg 3) g1
  { a with g := g1, att := p.1, lna := p.2, agcSteps := if g1 = a.g then a.agcSteps else sat 32 (a.agcSteps + 1) }

/-- `EV_FRONT_END` of input `n` (R141). -/
def evAnt (s : State) (n cause : Nat) : State := raise s evFrontEnd (0x0100 + n) (n + 16 * cause)

/-- `ANT_SET` (R99, R100): manual gains apply as written; in the other modes the gain index is kept. -/
def antSetUnit (c : Cmd) (s : State) : Reply :=
  let a := ant s c.inst
  let a1 : Ant := { a with cfg := c.pl, lowTicks := 0 }
  let a2 : Ant :=
    if byteAt c.pl 0 = 0 then
      let g : Int := (byteAt c.pl 2 : Int) - byteAt c.pl 1
      { a1 with g := g, att := byteAt c.pl 1, lna := byteAt c.pl 2,
                agcSteps := if g = a.g then a.agcSteps else sat 32 (a.agcSteps + 1) }
    else if byteAt c.pl 0 = 1 then a1.setGain a1.g
    else a1
  .later stOk 0 [] (tapeGain (putAnt s c.inst a2) c.inst a.g)

/-- Table 4-10, `ANT_SET`; sample-timed (R350). -/
def antSetSpec : CmdSpec :=
  { op := 0x0301, target := toAnt, sample := true, len := fun _ => 12,
    fields := fun _ => [rng 0 1 0 2, rng 1 1 0 31, rng 2 1 0 30, rng 3 1 0 30, srng 4 1 (-30) (-6), rng 5 1 0 12,
      rng 6 1 1 64, rng 7 1 1 12, rng 8 1 1 255, rng 9 1 1 6, wid 10 1 1, rsv 11 1],
    unit := antSetUnit }

/-! ### Compensation of gain changes (R103) -/

/-- A piecewise linear function through points, constant beyond the outermost ones; 0 with no point. -/
def interpolate (ps : List (Nat × Int)) (x : Nat) : Int :=
  let below := (ps.filter fun p => decide (p.1 ≤ x)).foldl (fun (b : Option (Nat × Int)) p => match b with
    | some q => if q.1 ≤ p.1 then some p else b
    | none => some p) none
  let above := (ps.filter fun p => decide (x ≤ p.1)).foldl (fun (b : Option (Nat × Int)) p => match b with
    | some q => if p.1 < q.1 then some p else b
    | none => some p) none
  match below, above with
  | some l, some h => if l.1 = h.1 then l.2 else l.2 + (h.2 - l.2) * ((x : Int) - l.1) / ((h.1 : Int) - l.1)
  | some l, none => l.2
  | none, some h => h.2
  | none, none => 0

/-- C_cal(f, g) in 0.01 dB at `khz` (R127, R128). -/
def calAt (a : Ant) (khz : Nat) (g : Int) : Int := interpolate ((a.cal.filter fun p => p.g == g).map fun p => (p.khz, p.corr)) khz

/-- Nominal full scale P_FS(g) at ANTn in 0.01 dBm (R97). -/
def fullScale (g : Int) : Int := -400 - 100 * g

/-- The compensating digital gain in 0.01 dB: the calibrated ratio of the gain state in force to the one that zone samples are
referred to (R103).
Log: 179 (DESIGN CHOICE). -/
def compDb (a : Ant) (khz : Nat) : Int :=
  (fullScale a.g + calAt a khz a.g) - (fullScale a.gRef + calAt a khz a.gRef)

/-- The level in 0.01 dBm of a channel whose samples give the window `w`; `gain` is `LANE_GAIN`, `khz` the channel centre, and
G_lane is 0 dB in the passband (R129, R153). None without an unmarked sample. -/
def levelOf (a : Ant) (khz : Nat) (w : LevelWindow) (gain : Nat) : Option Int :=
  if w.count = 0 then none
  else some (centiDb w.power (w.count * 2 ^ 42) - 100 * gain - compDb a khz + fullScale a.g + calAt a khz a.g)

/-! ### The control loop (R101, R102) -/

/-- Composite power of the present tick in 0.01 dBFS: a full-scale sine is 0 dBFS (R102).
Log: 176 (DEDUCED). -/
def compositeOf (a : Ant) : Int := centiDb (2 * a.sumSq) (a.sumN * 2 ^ 26)

/-- The overload episode of R104 at a tick boundary; the sums of the tick start afresh. -/
def ovlNext (a : Ant) : Ant :=
  let stuck := a.ovlTick && a.g == -31
  { a with ovlTick := false, ovlRun := if stuck then a.ovlRun + 1 else 0, ovlTold := stuck && a.ovlTold, sumSq := 0, sumN := 0 }

/-- AGC of one input at a tick boundary (R102); a tick whose samples are all marked measures nothing (R138). -/
def agcTick (a0 : Ant) (measured : Option Int) : Ant :=
  let a := ovlNext a0
  match measured with
  | none => a
  | some composite =>
    let a1 : Ant := { a with composite := composite }
    if a.mode ≠ 1 ∨ a.powered = false then a1
    else
      let target := les a.cfg 4 1 * 100
      let hyst : Int := byteAt a.cfg 9 * 100
      if target + hyst < composite then { a1 with lowTicks := 0 }.setGain (a.g - 1)
      else if composite < target - hyst then
        if a.lowTicks + 1 ≥ byteAt a.cfg 8 then { a1 with lowTicks := 0 }.setGain (a.g + 1)
        else { a1 with lowTicks := a.lowTicks + 1 }
      else { a1 with lowTicks := 0 }

/-- The composite power that input `n` has for this tick: of the samples fed, else the one told. -/
def measured (m : TickIn) (n : Nat) (a : Ant) : Option Int :=
  if 0 < a.sumN then some (compositeOf a)
  else if (m.adc.getD n []).isEmpty then some (m.composite.getD n a.composite) else none

/-- An interleaving correction moves towards what the residual error asks for, by at most 0.001 dB in gain and 10 fs in skew
(R108). -/
def interMove (cur err : Int × Int × Int) : Int × Int × Int :=
  (cur.1 + max (-10) (min 10 err.1), cur.2.1 + err.2.1, cur.2.2 + max (-10) (min 10 err.2.2))

/-- The corrections of the eight sub-converters of a converter at a tick boundary (R108). -/
def interTick (cur errs : List (Int × Int × Int)) : List (Int × Int × Int) :=
  (List.range 8).map fun i => interMove (cur.getD i (0, 0, 0)) (errs.getD i (0, 0, 0))

/-- AGC and interleaving calibration of the four inputs at a tick boundary. -/
def agcAll (s : State) (m : TickIn) : State :=
  s.rf.ants.foldl (fun q e => tapeGain q e.1 e.2.g)
    (s.setRf { s.rf with ants := s.rf.ants.map fun e =>
      (e.1, { agcTick e.2 (measured m e.1 e.2) with inter := interTick e.2.inter (m.mismatch.getD e.1 []) }) })

/-- A converter sample is at or above `OVL_THRESH`, in units of −0.5 dBFS (Table 4-10). -/
def overThresh (a : Ant) (c : Int) : Bool := decide (8192 ^ 40 ≤ c.natAbs ^ 40 * 10 ^ byteAt a.cfg 5)

/-! ## Coexistence blanking (R137–R139) -/

/-- COEX_BLANK is treated as asserted. -/
def blanking (s : State) : Bool := s.rf.blankOn && !s.rf.blankCut

def blankAct (b : Bytes) : Nat := byteAt b 1

/-- The ball's level is asserted under a setting, and blanking is not off.
Log: 180 (DESIGN CHOICE). -/
def blankAsserted (b : Bytes) (high : Bool) : Bool := (high == bit (byteAt b 2) 0) && blankAct b != 0

/-- A sample of input `n` taken at `u` lies in a marked span, of those that replace it with zero if `zero` is set (R137, R138). -/
def markedAt (s : State) (zero : Bool) (n : Nat) (u : Sid) : Bool :=
  s.rf.spans.any fun w => bit w.mask n && (!zero || w.zero) && decide (w.start ≤ u) &&
    match w.stop with
    | some e => decide (u ≤ e)
    | none => true

/-- Sample-island clocks, of four converter samples each, in a time. -/
def islandClocks (s : State) (d : Sid) : Nat := (d * fsOf s + 4 * secU - 1) / (4 * secU)

/-- The inputs of a marked span that has ended count its clocks (`BLANK_COUNT`). -/
def countSpan (s : State) (w : BlankSpan) (stop : Sid) : State :=
  s.setRf { s.rf with ants := s.rf.ants.map fun e =>
    if (bit w.mask e.1) = true then (e.1, { e.2 with blanks := sat 32 (e.2.blanks + islandClocks s (stop - w.start)) }) else e }

/-- The marked span under way ends `post` after `t`. -/
def endSpan (s : State) (t post : Sid) : State :=
  match s.rf.spans with
  | w :: ws =>
    if w.stop.isNone then countSpan (s.setRf { s.rf with spans := { w with stop := some (t + post) } :: ws }) w (t + post) else s
  | [] => s

/-- A marked span begins at `t` less `pre`, but not before the last one ends; spans that ended more than 1 ms ago are
forgotten. -/
def beginSpan (s : State) (t pre : Sid) : State :=
  let last := match s.rf.spans with
    | w :: _ => w.stop.getD 0
    | [] => 0
  s.setRf { s.rf with spans :=
    { mask := byteAt s.rf.blank 0, zero := blankAct s.rf.blank == 2, start := max last (t - pre), stop := none } ::
      s.rf.spans.filter fun w => decide (t ≤ w.stop.getD t + 1000000 * 65536) }

def preNs (s : State) : Sid := 65536 * le s.rf.blank 4 2
def postNs (s : State) : Sid := 65536 * le s.rf.blank 6 2

/-- COEX_BLANK becomes asserted or not at `t` (R137); a deassertion ends the treatment of R139. -/
def blankLevel (s : State) (on : Bool) (t : Sid) : State :=
  if s.rf.blankOn = on then s
  else
    let s1 := if on then beginSpan s t (preNs s) else endSpan s t (postNs s)
    s1.setRf { s1.rf with blankOn := on, blankCut := false, blankBy := deadline s 32 }

/-- `BLANK_SET` (R138): a change of polarity changes what the present level means; during an assertion samples are marked under
the new setting from now on.
Log: 180 (DESIGN CHOICE), 181 (DESIGN CHOICE). -/
def blankSetUnit (c : Cmd) (s : State) : Reply :=
  let s1 := s.setRf { s.rf with blank := c.pl }
  let on := blankAsserted c.pl s.rf.blankBall
  if blanking s ∧ on then ok (beginSpan ((endSpan s s.sid.now 0).setRf { (endSpan s s.sid.now 0).rf with blank := c.pl }) s.sid.now 0)
  else ok (blankLevel s1 on s.sid.now)

/-- Table 4-14, `BLANK_SET`. -/
def blankSetSpec : CmdSpec :=
  { op := 0x0305, target := (· == 0x0100), len := fun _ => 8,
    fields := fun _ => [wid 0 1 4, rng 1 1 0 2, wid 2 1 1, rsv 3 1, rng 4 2 0 200, rng 6 2 0 10000],
    unit := blankSetUnit }

/-- `COEX_BLANK_CHANGE` (R137). -/
def execCoexBlankChange (level : Bool) (t : Sid) (s : State) : Host.Outcome State Fault Refusal :=
  let s1 := advance s t
  .next (blankLevel (s1.setRf { s1.rf with blankBall := level }) (blankAsserted s1.rf.blank level) s1.sid.now)

/-- `COEX_BLANK_TIMEOUT` (R139): treated as deasserted, once, with `SOURCE` 0x0100. -/
def execCoexBlankTimeout (s : State) : Host.Outcome State Fault Refusal :=
  if blanking s ∧ expired s s.rf.blankBy then
    let s1 := endSpan s s.sid.now (postNs s)
    .next (evAnt (s1.setRf { s1.rf with blankCut := true }) 0 7)
  else .next s

/-- `BLANK_COUNT` with the clocks of the span under way (Table 4-13).
Log: 181 (DESIGN CHOICE). -/
def blankCount (s : State) (n : Nat) : Nat :=
  match s.rf.spans with
  | w :: _ => if w.stop.isNone ∧ bit w.mask n then sat 32 ((ant s n).blanks + islandClocks s (s.sid.now - w.start)) else (ant s n).blanks
  | [] => (ant s n).blanks

/-! ## Overload (R101, R104) -/

/-- `AGC_OVERLOAD_WINDOW` (R101): a window of 256 samples with `OVL_COUNT` overloaded ones lowers the gain, at most once in 1024
samples; marked samples are excluded (R138). -/
def execAgcOverloadWindow (n : Nat) (xs : List Int) (index : Nat) (s : State) : Host.Outcome State Fault Refusal :=
  if n ≥ 4 then .next s
  else
    let a := ant s n
    let count := if markedAt s false n s.sid.now then 0 else ((xs.take 256).filter (overThresh a)).length
    let a1 : Ant := { a with clips := sat 32 (a.clips + count) }
    if count < byteAt a.cfg 6 ∨ a.mode ≠ 1 ∨ a.powered = false then .next (putAnt s n a1)
    else
      let a2 : Ant := { a1 with ovlTick := true }
      if index < a.lockout then .next (putAnt s n a2)
      else .next (tapeGain (putAnt s n ({ a2 with lockout := index + 256 + 1024 }.setGain (a.g - byteAt a.cfg 7))) n a.g)

/-- `OVERLOAD_PERSISTS` (R104). -/
def execOverloadPersists (n : Nat) (s : State) : Host.Outcome State Fault Refusal :=
  let a := ant s n
  if n < 4 ∧ a.g = -31 ∧ 32 ≤ a.ovlRun ∧ a.ovlTold = false then
    .next (evAnt (putAnt s n { a with ovlTold := true }) n 6)
  else .next s

/-! ## Bias (R105, R106) -/

/-- `RETRY` of the setting in force. -/
def Ant.retrySet (a : Ant) : Nat := byteAt a.biasCfg 2

/-- The bias switch opens or closes; supervision starts afresh. A rail below 80 % of nominal refuses it (Table 4-2).
Log: 51 (DESIGN CHOICE). -/
def biasSetUnit (c : Cmd) (s : State) : Reply :=
  let a := ant s c.inst
  let v := byteAt c.pl 0
  let a1 : Ant := { a with biasCfg := c.pl, retries := byteAt c.pl 2, biasCur := 0, biasBy := deadline s 3200 }
  if v = 0 then ok (putAnt s c.inst { a1 with bias := .off })
  else
    let s1 := s.setFree (s.free + 1)
    if Config.railGood s.free v then ok (putAnt s1 c.inst { a1 with bias := .on })
    else .done stBadState 0 [] (evAnt (putAnt s1 c.inst { a1 with bias := .railAbsent }) c.inst 5)

/-- Table 4-11, `BIAS_SET`. -/
def biasSetSpec : CmdSpec :=
  { op := 0x0302, target := toAnt, len := fun _ => 8,
    fields := fun _ => [rng 0 1 0 2, rng 1 1 1 25, rsv 3 1, rng 4 2 32 65535, rsv 6 2], unit := biasSetUnit }

/-- The switch is closed. -/
def biasClosed (a : Ant) : Bool := decide (a.bias = .on) || decide (a.bias = .limiting) || decide (a.bias = .lowCurrent)

/-- A fault that opens the switch: a retry where one remains, else it stays open (Table 4-2).
Log: 51 (DESIGN CHOICE). -/
def biasOpens (s : State) (n : Nat) (a : Ant) (cause : Nat) : State :=
  if a.retries = 0 then evAnt (evAnt (putAnt s n { a with bias := .noRetry }) n cause) n 4
  else
    evAnt (putAnt s n { a with bias := .retry, retries := if a.retrySet = 255 then 255 else a.retries - 1,
                               biasBy := deadline s (le a.biasCfg 4 2) }) n cause

/-- `BIAS_FAULT` (R105): one row of Table 4-2 for its detection time; cause 0 tells the present current alone. The switch opens
with causes 1 and 2 only while it limits.
Log: 52 (DEDUCED). -/
def execBiasFault (n cause current : Nat) (s : State) : Host.Outcome State Fault Refusal :=
  let a : Ant := { ant s n with biasCur := current }
  if n ≥ 4 ∨ biasClosed a = false then .next s
  else
    match cause with
    | 0 => .next (putAnt s n { a with bias := if byteAt a.biasCfg 1 * 100 ≤ current then .limiting
                                              else if current < 20 ∧ a.bias = .lowCurrent then .lowCurrent else .on })
    | 1 => .next (if a.bias = .limiting then biasOpens s n a 1 else putAnt s n a)
    | 2 => .next (if a.bias = .limiting then biasOpens s n a 2 else putAnt s n a)
    | 3 => .next (if a.bias = .lowCurrent then s else evAnt (putAnt s n { a with bias := .lowCurrent }) n 3)
    | 5 => .next (evAnt (putAnt s n { a with bias := .railAbsent }) n 5)
    | _ => .next s

/-- `BIAS_RETRY` (R105): after `RETRY_TICKS` the switch closes again and supervision restarts. -/
def execBiasRetry (n : Nat) (s : State) : Host.Outcome State Fault Refusal :=
  let a := ant s n
  if n < 4 ∧ a.bias = .retry ∧ expired s a.biasBy then
    .next (putAnt s n { a with bias := .on, biasBy := deadline s 3200 })
  else .next s

/-- `BIAS_RETRY_RESTORE` (R105): 3200 ticks without a fault restore the retry count. -/
def execBiasRetryRestore (n : Nat) (s : State) : Host.Outcome State Fault Refusal :=
  let a := ant s n
  if n < 4 ∧ biasClosed a ∧ expired s a.biasBy then .next (putAnt s n { a with retries := a.retrySet })
  else .next s

/-! ## Calibration (R126–R128, R130) -/

/-- Code of `BIAS_STATE` (Table 4-13). -/
def biasCode : BiasState → Nat
  | .off => 0
  | .on => 1
  | .limiting => 2
  | .retry => 3
  | .noRetry => 4
  | .lowCurrent => 5
  | .railAbsent => 6

/-- A foreground calibration of some input runs. -/
def fgRunning (s : State) : Bool := s.rf.ants.any fun e => e.2.calState == 2

/-- `CAL_PERIOD` has passed, `CAL_DTEMP` is exceeded, or `RF_CAL` asked; after an abandoned one not before `PLAN_HOLD` ticks
(R128). -/
def spotDue (s : State) (a : Ant) (temp : Int) : Bool :=
  expired s a.spotHold && (a.spotAsked ||
    (a.calState != 0 && (expired s a.spotBy || decide ((a.calDtemp : Int) * 10 ≤ (temp - a.calTemp).natAbs))))

/-- A tone lies on the comb with offsets `off` in kHz (Table 4-8): HF from 0.1 to 30 MHz, VHF above it to 1492 MHz. -/
def onComb (off : Nat × Nat) (khz : Nat) : Bool :=
  if khz ≤ 30000 then decide (100 ≤ khz) && khz % 100 == off.1 % 100
  else decide (khz ≤ 1492000) && khz % 5000 == off.2 % 5000

/-- The correction that a tone gives: its level at the reference plane with its factory trim, less the nominal reading (R126,
R129). -/
def toneCorr (plane : Int) (t : ToneLevel) : Int := plane + Config.combTrim t.khz - (t.level + fullScale t.g)

/-- A foreground calibration measures every gain index at every tone of the comb, at −40 dBm, and builds C_cal (R127). -/
def calBuild (a : Ant) (tones : List ToneLevel) : Ant :=
  { a with cal := (tones.filter fun t => onComb (0, 0) t.khz && decide (-31 ≤ t.g ∧ t.g ≤ 30)).map fun t =>
             ⟨t.khz, t.g, toneCorr (-4000) t⟩
           gRef := a.g }

/-- A spot calibration at −70 dBm and the present gain gives the drift of C_cal at its tones, which is applied by interpolation
in frequency (R128). -/
def calDrift (a : Ant) (tones : List ToneLevel) : Ant :=
  let d := tones.map fun t => (t.khz, toneCorr (-7000) t - calAt a t.khz a.g)
  { a with cal := a.cal.map fun p => { p with corr := p.corr + interpolate d p.khz } }

/-- A correction lies more than 3 dB from nominal (R130). -/
def calOutOfRange (a : Ant) : Bool := a.cal.any fun p => decide (300 < p.corr.natAbs)

/-- A calibration of input `n` has completed with the corrections of `a` (R130). -/
def calDone (s : State) (n : Nat) (a : Ant) (temp : Int) : State :=
  let s1 := putAnt s n { a with calState := if calOutOfRange a then 3 else 1, calTemp := temp, calTime := s.sid.now,
                                spotEnd := none, spotBy := deadline s (3200 * a.calPeriod) }
  if calOutOfRange a then evAnt s1 n 8 else tapeCal s1 n

/-- A level of input `n` is marked uncalibrated (R130). -/
def uncalibrated (s : State) (n : Nat) : Bool :=
  let a := ant s n
  a.calState == 0 || a.calState == 3 || decide ((a.calDtemp : Int) * 10 < (s.pwr.tj - a.calTemp).natAbs)

/-- A level of a window is marked invalid (R130). -/
def levelInvalid (w : LevelWindow) : Bool := w.clip || decide (w.count < w.blank)

/-- A slew or re-lock begins: a spot calibration is abandoned and retried after `PLAN_HOLD` ticks (R128). -/
def abandonSpot (s : State) : State :=
  s.setRf { s.rf with ants := s.rf.ants.map fun e =>
    if e.2.spotEnd.isSome then
      (e.1, { e.2 with spotEnd := none, spotAsked := true, spotHold := deadline s (le s.aur.cfg 6 2) })
    else e }

/-- The `RF_STATUS_GET` result (Table 4-13). -/
def rfStatusResult (s : State) (n : Nat) : Bytes :=
  let a := ant s n
  leBytes 1 a.att ++ leBytes 1 a.lna ++ leBytes 1 a.mode ++ leBytes 1 (biasCode a.bias) ++ sleBytes 2 a.composite ++
    leBytes 2 a.biasCur ++ leBytes 4 a.clips ++ leBytes 4 a.agcSteps ++ leBytes 4 (blankCount s n) ++ leBytes 1 a.calState ++
    [0] ++ sleBytes 2 a.calTemp ++ leBytes 8 (whenOf a.calTime).toNat

/-- Table 4-13, `RF_STATUS_GET`. -/
def rfStatusGetSpec : CmdSpec :=
  { op := 0x0304, target := toAnt, len := fun _ => 0, largest := fun _ => 32,
    unit := fun c s => okWith (rfStatusResult s c.inst) s }

def execAntSet (a : Args) (s : State) : Host.Outcome State Fault Refusal := .next (submit antSetSpec a s)
def execBiasSet (a : Args) (s : State) : Host.Outcome State Fault Refusal := .next (submit biasSetSpec a s)
def execRfStatusGet (a : Args) (s : State) : Host.Outcome State Fault Refusal := .next (submit rfStatusGetSpec a s)
def execBlankSet (a : Args) (s : State) : Host.Outcome State Fault Refusal := .next (submit blankSetSpec a s)

end Sys2Proof.Machine
end

