-- ==== Sys2Proof/Machine/Rds.lean ====
section
/-! DEFINITION. Machine/Rds.lean: the RDS decoder that every FM full lane and every flake has: groups, decoded service
data, and alarm and traffic signalling (R187–R190, R212, R213). The places of the items within the groups are those of
the RDS standard (PRESUMED). -/

namespace Sys2Proof.Machine

/-! ## Items (R190) -/

/-- Log: 72 (PRESUMED). -/
def itemPi : Nat := 0
def itemPty : Nat := 1
def itemTp : Nat := 2
def itemTa : Nat := 3
def itemMs : Nat := 4
def itemEcc : Nat := 5
def itemCt : Nat := 6

/-- PS segments 0–3. -/
def itemPs (i : Nat) : Nat := 16 + i

/-- RadioText segments 0–15. -/
def itemRt (i : Nat) : Nat := 32 + i

/-- The segments of RadioText of version B, of two characters. -/
def itemRtB (i : Nat) : Nat := 48 + i

/-- The accepted value of an item. -/
def Rds.val (r : Rds) (item : Nat) : Option Nat := mget r.acc item

/-- An item is received with its blocks in class 0 or 1; the same value twice is accepted (R190). -/
def Rds.recv (r : Rds) (item v : Nat) : Rds :=
  if mget r.seen item = some v then { r with acc := mput r.acc item v }
  else { r with seen := mput r.seen item v }

/-- A change of the RadioText A/B flag discards the text. -/
def Rds.clearText (r : Rds) : Rds :=
  let keep : Nat × Nat → Bool := fun e => decide (e.1 < 32)
  { r with seen := r.seen.filter keep, acc := r.acc.filter keep }

/-! ## Blocks (R187, R188) -/

/-- The remainder of a received block of 26 bits; the generator polynomial is that of the RDS standard.
Log: 72 (PRESUMED). -/
def rdsRemainder (w : Nat) : Nat :=
  (List.range 16).foldl (fun v i => if v.testBit (25 - i) then v ^^^ (0x5B9 <<< (15 - i)) else v) w

/-- The offset words A, B, C with C′, and D by place in the group.
Log: 72 (PRESUMED). -/
def rdsOffsets : Nat → List Nat
  | 0 => [0x0FC]
  | 1 => [0x198]
  | 2 => [0x168, 0x350]
  | _ => [0x1B4]

/-- Bursts of at most `len` bits in a block, the shortest first. -/
def bursts (len : Nat) : List Nat :=
  ((List.range (2 ^ len)).filter fun b => b % 2 == 1).flatMap fun b =>
    ((List.range 26).map fun k => b <<< k).filter fun e => decide (e < 2 ^ 26)

/-- A block is put right under one offset word: its information word and class; bursts of 2 bits with `RDS_CORR` 0x1, of 5 with
0x2 (R188). -/
def correct (corr w off : Nat) : Option (Nat × Nat) :=
  if rdsRemainder (w ^^^ off) = 0 then some (w / 1024, 0)
  else (((bursts (if corr = 0 then 0 else if corr = 1 then 2 else 5)).find? fun e => rdsRemainder (w ^^^ off ^^^ e) == 0).map fun e =>
    ((w ^^^ e) / 1024, if bursts 2 |>.contains e then 1 else 2))

/-- What a block at place `pos` is: information word, class, and whether it carries C′. -/
def readBlock (corr pos w : Nat) : Nat × Nat × Bool :=
  match correct 0 w ((rdsOffsets pos).headD 0) with
  | some x => (x.1, 0, false)
  | none =>
    if pos = 2 ∧ rdsRemainder (w ^^^ 0x350) = 0 then (w / 1024, 0, true)
    else
      match (rdsOffsets pos).findSome? fun o => (correct corr w o).map fun x => (x.1, x.2, o == 0x350) with
      | some x => x
      | none => (w / 1024, 3, false)

/-- A block carries a valid syndrome of its place, or, with `RBDS`, offset word E. -/
def validAt (rbds : Bool) (pos : Nat) (b : RdsBlock) : Bool :=
  ((rdsOffsets pos).any fun o => rdsRemainder (b.word.toNat ^^^ o) == 0) || (rbds && rdsRemainder b.word.toNat == 0)

/-- Two blocks 26 bits apart carry valid syndromes of consecutive offset words: the place of the first (R187); two of offset
word E fix no place.
Log: 187 (DEDUCED). -/
def syncAt (rbds : Bool) (b0 b1 : RdsBlock) : Option Nat :=
  if rdsRemainder b0.word.toNat = 0 ∧ rdsRemainder b1.word.toNat = 0 then none
  else [0, 1, 2, 3].find? fun p => validAt rbds p b0 && validAt rbds ((p + 1) % 4) b1

/-- `n` bits at 1187.5 bit/s. -/
def rdsBits (n : Nat) : Nat := secU * 2 * n / 2375

/-- A block joins the group under way. -/
def RdsGroup.put (g : RdsGroup) (pos : Nat) (b : RdsBlock) (x : Nat × Nat × Bool) : RdsGroup :=
  let g1 := { g with slew := g.slew || b.slew, blank := g.blank || b.blank }
  let v := BitVec.ofNat 16 x.1
  let e := BitVec.ofNat 2 x.2.1
  match pos with
  | 0 => { g1 with a := v, errA := e }
  | 1 => { g1 with b := v, errB := e }
  | 2 => { g1 with c := v, errC := e, cPrime := x.2.2 }
  | _ => { g1 with d := v, errD := e }

/-- No group is under way: block synchronisation is not held. -/
def Rds.drop (r : Rds) : Rds := { r with sync := false, part := RdsGroup.empty, begun := none, badRun := 0 }

/-- A block is taken in: the decoder, and the group that block D ends with the start of its block A. After 20 uncorrectable blocks
nothing is taken until the loss is declared (R187). A block under offset word E is counted and leaves its place empty.
Log: 187 (DEDUCED). -/
def Rds.take (r : Rds) (corr : Nat) (rbds : Bool) (b : RdsBlock) : Rds × Option (RdsGroup × Sid) :=
  if r.sync = false ∨ 20 ≤ r.badRun then (r, none)
  else
    let e := rbds && rdsRemainder b.word.toNat == 0
    let x := readBlock corr r.pos b.word.toNat
    let bad := !e && x.2.1 == 3
    let part := if e then r.part else r.part.put r.pos b x
    let begun := if e then r.begun else some (r.begun.getD (b.start - rdsBits (26 * r.pos)))
    let r1 : Rds := { r with past := (bad :: r.past).take 100, badRun := if bad then r.badRun + 1 else 0
                             eBlocks := if e then r.eBlocks + 1 else r.eBlocks, pos := (r.pos + 1) % 4 }
    if r.pos = 3 then ({ r1 with part := RdsGroup.empty, begun := none }, begun.map fun t => (part, t))
    else ({ r1 with part := part, begun := begun }, none)

/-- `BLER` in 0.01 %: the share of the last 100 blocks that were uncorrectable.
Log: 187 (DEDUCED). -/
def Rds.bler (r : Rds) : Nat := 10000 * (r.past.filter id).length / max 1 r.past.length

/-! ## Groups -/

/-- A block is of class 0 or 1 (R188). -/
def good (cls : BitVec 2) : Bool := cls == 0 || cls == 1

/-- The group record of Table 6-2.
Log: 72 (PRESUMED). -/
def groupRecord (r : Rds) (source : Nat) (g : RdsGroup) (t : Sid) : Bytes :=
  leBytes 2 source ++ leBytes 1 (g.errA.toNat + 4 * g.errB.toNat + 16 * g.errC.toNat + 64 * g.errD.toNat) ++
    leBytes 1 (flag g.cPrime 0 + flag r.resync 1 + flag g.slew 2 + flag g.blank 3) ++ leBytes 2 g.a.toNat ++
    leBytes 2 g.b.toNat ++ leBytes 2 g.c.toNat ++ leBytes 2 g.d.toNat ++ leBytes 4 (r.groups + 1) ++
    leBytes 8 (whenOf t).toNat

/-- A code of the AF list that is kept: not a filler (R190). -/
def afCode (v : Nat) : List Nat := if v = 0 ∨ v = 205 ∨ v = 224 then [] else [v]

/-- One pair of AF codes (R190): a count code begins a list; a list received twice alike is accepted. -/
def Rds.recvAf (r : Rds) (x y : Nat) : Rds :=
  let r1 : Rds :=
    if 225 ≤ x ∧ x ≤ 249 then { r with afCount := x - 224, afPart := afCode y }
    else if r.afCount = 0 then r
    else { r with afPart := r.afPart ++ afCode x ++ afCode y }
  if r1.afCount ≠ 0 ∧ r1.afCount ≤ r1.afPart.length then
    let l := r1.afPart.take r1.afCount
    { r1 with afPart := [], afCount := 0, afLast := l, afList := if l = r1.afLast then l else r1.afList }
  else r1

/-- Bits `hi`–`lo` of a block. -/
def bits (v : BitVec 16) (hi lo : Nat) : Nat := v.toNat / 2 ^ lo % 2 ^ (hi + 1 - lo)

/-- `GROUP` type and version: bits 15–11 of block B. -/
def groupType (g : RdsGroup) : Nat := bits g.b 15 11

/-- PI, PTY and TP, which every group carries. -/
def Rds.recvCommon (r : Rds) (g : RdsGroup) (tick : Nat) : Rds :=
  let r1 := if good g.errA then r.recv itemPi g.a.toNat else r
  let r2 := if good g.errA ∧ r1.val itemPi = some g.a.toNat then { r1 with piTick := some tick } else r1
  if good g.errB then (r2.recv itemPty (bits g.b 9 5)).recv itemTp (bits g.b 10 10) else r2

/-- Groups 0A and 0B: TA, MS, a PS segment and, in 0A, an AF pair. -/
def Rds.recv0 (r : Rds) (g : RdsGroup) : Rds :=
  let r1 := if good g.errB then (r.recv itemTa (bits g.b 4 4)).recv itemMs (bits g.b 3 3) else r
  let r2 := if good g.errB ∧ good g.errD then r1.recv (itemPs (bits g.b 1 0)) g.d.toNat else r1
  if groupType g = 0 ∧ good g.errB ∧ good g.errC then r2.recvAf (bits g.c 15 8) (bits g.c 7 0) else r2

/-- Group 2A: four characters of RadioText; 2B: two. -/
def Rds.recv2 (r : Rds) (g : RdsGroup) : Rds :=
  let f := bits g.b 4 4 == 1
  let r1 := if f = r.rtFlag then r else { r.clearText with rtFlag := f }
  if groupType g = 4 ∧ good g.errC ∧ good g.errD then r1.recv (itemRt (bits g.b 3 0)) (g.c.toNat * 65536 + g.d.toNat)
  else if groupType g = 5 ∧ good g.errD then r1.recv (itemRtB (bits g.b 3 0)) g.d.toNat
  else r1

/-- Group 4A: clock time, packed as MJD, hour, minute and offset of 17, 5, 6 and 6 bits. -/
def Rds.recv4 (r : Rds) (g : RdsGroup) (t : Sid) : Rds :=
  let mjd := bits g.b 1 0 * 32768 + bits g.c 15 1
  let v := ((mjd * 32 + bits g.c 0 0 * 16 + bits g.d 15 12) * 64 + bits g.d 11 6) * 64 + bits g.d 5 0
  let r1 := r.recv itemCt v
  if r1.val itemCt = some v then { r1 with ctTime := t } else r1

/-- The two RT+ tags of a group of the announced type.
Log: 72 (PRESUMED). -/
def plusTags (g : RdsGroup) : Bytes :=
  leBytes 1 (bits g.b 2 0 * 8 + bits g.c 15 13) ++ leBytes 1 (bits g.c 12 7) ++ leBytes 1 (bits g.c 6 1) ++
    leBytes 1 (bits g.c 0 0 * 32 + bits g.d 15 11) ++ leBytes 1 (bits g.d 10 5) ++ leBytes 1 (bits g.d 4 0)

/-- The items that one group carries.
Log: 73 (DEDUCED). -/
def Rds.recvItems (r : Rds) (g : RdsGroup) (t : Sid) : Rds :=
  let all := good g.errB && good g.errC && good g.errD
  let r1 :=
    match groupType g with
    | 0 | 1 => r.recv0 g
    | 2 => if good g.errB && good g.errC && bits g.c 14 12 == 0 then r.recv itemEcc (bits g.c 7 0) else r
    | 4 | 5 => if good g.errB then r.recv2 g else r
    | 6 => if all && g.d == 0x4BD7 then { r with rtPlus := some (bits g.b 4 0) } else r
    | 8 => if all then r.recv4 g t else r
    | 31 => if good g.errB then (r.recv itemTa (bits g.b 4 4)).recv itemMs (bits g.b 3 3) else r
    | _ => r
  if r1.rtPlus = some (groupType g) ∧ all then { r1 with rtTags := plusTags g } else r1

/-! ## Alarm and traffic (R212, R213) -/

/-- Alert candidates: PTY 31 in two consecutive groups, or two alike 9A groups within 2 s; the end after 10 consecutive
groups with another PTY (R212).
Log: 73 (DEDUCED). -/
def Rds.alarm (r : Rds) (g : RdsGroup) (t : Sid) : Rds :=
  let b := good g.errB
  let p := b && bits g.b 9 5 == 31
  let run := if p then r.ptyRun + 1 else 0
  let other := if b && !p then r.otherRun + 1 else 0
  let nineA := groupType g == 18 && b && good g.errC && good g.errD
  let twice := nineA && match r.last9A with
    | some (t0, c, d) => c == g.c.toNat && d == g.d.toNat && decide (t ≤ t0 + 2 * secU)
    | none => false
  { r with
    ptyRun := run, otherRun := other
    last9A := if nineA then some (t, g.c.toNat, g.d.toNat) else r.last9A
    alert := if decide (2 ≤ run) || twice then true else if 10 ≤ other then false else r.alert }

/-- Traffic announcements of this network: TP = TA = 1 in two consecutive groups that carry TA, and TA = 0 in two.
Log: 73 (DEDUCED). -/
def Rds.traffic (r : Rds) (g : RdsGroup) : Rds :=
  let gt := groupType g
  if good g.errB ∧ (gt = 0 ∨ gt = 1 ∨ gt = 31) then
    let ta := bits g.b 4 4 == 1
    let on := if ta && bits g.b 10 10 == 1 then r.taRun + 1 else 0
    let off := if ta then 0 else r.taOff + 1
    { r with taRun := on, taOff := off, taOn := if 2 ≤ on then true else if 2 ≤ off then false else r.taOn }
  else r

/-- Traffic announcements of another network in group 14B (EON). -/
def Rds.eon (r : Rds) (g : RdsGroup) : Rds :=
  if groupType g = 29 ∧ good g.errB ∧ good g.errD then
    let ta := bits g.b 3 3 == 1
    let on := if ta && bits g.b 4 4 == 1 then r.eonRun + 1 else 0
    let off := if ta then 0 else r.eonOff + 1
    { r with eonRun := on, eonOff := off, eonPi := if 2 ≤ on then g.d.toNat else r.eonPi,
             eonOn := if 2 ≤ on then true else if 2 ≤ off then false else r.eonOn }
  else r

/-- One group: its record and everything that the decoder takes from it.
Log: 73 (DEDUCED). -/
def Rds.group (r : Rds) (source : Nat) (g : RdsGroup) (t : Sid) (tick : Nat) (alertEn taRep : Bool) : Rds :=
  let r1 := ((r.recvCommon g tick).recvItems g t)
  let r2 := if alertEn then r1.alarm g t else r1
  let r3 := if taRep then (r2.traffic g).eon g else r2
  { r3 with record := groupRecord r source g t, resync := false, groups := sat 32 (r.groups + 1) }

/-- Block synchronisation is acquired (R187). -/
def Rds.acquire (r : Rds) (pos : Nat) : Rds := { r.drop with sync := true, resync := true, pos := pos }

/-- Block synchronisation is lost. -/
def Rds.lose (r : Rds) : Rds := { r.drop with resync := false, syncLoss := sat 32 (r.syncLoss + 1) }

/-- `EV_TA` of a decoder's changes (R215). -/
def evTaChanges (s : State) (source : Nat) (r r' : Rds) : State :=
  let s1 := if r.taOn = r'.taOn then s else raise s evTa source (flag r'.taOn 0)
  if r.eonOn = r'.eonOn then s1 else raise s1 evTa source (flag r'.eonOn 0 + 2)

/-! ## `RDS_GET` (Table 6-10) -/

/-- Two characters, first character first. -/
def chars2 (v : Nat) : Bytes := leBytes 1 (v / 256) ++ leBytes 1 v

/-- `AF_METHOD`: B where the first code of the list comes again later in it.
Log: 74 (DEDUCED). -/
def afMethod (l : List Nat) : Nat :=
  match l with
  | [] => 0
  | x :: xs => if xs.contains x then 2 else 1

/-- Part 0; while an EON announcement stands, `PI` is that of the other network (R215).
Log: 192 (DEDUCED). -/
def rdsPart0 (r : Rds) : Bytes :=
  let v := fun i => (r.val i).getD 0
  let done := ([0, 1, 2, 3].all fun i => (r.val (itemPs i)).isSome)
  let ct := v itemCt
  let off := ct % 64
  leBytes 2 (if r.eonOn then r.eonPi else v itemPi) ++ leBytes 1 (v itemPty) ++ leBytes 1 (v itemTp + 2 * v itemTa + 4 * v itemMs + flag done 3) ++
    chars2 (v (itemPs 0)) ++ chars2 (v (itemPs 1)) ++ chars2 (v (itemPs 2)) ++ chars2 (v (itemPs 3)) ++
    leBytes 1 (min 25 r.afList.length) ++ leBytes 1 (afMethod r.afList) ++ leBytes 1 (v itemEcc) ++ [0] ++
    fit 25 ((r.afList.take 25).map (BitVec.ofNat 8)) ++ zeros 3 ++ leBytes 4 (ct / 131072) ++
    leBytes 1 (ct / 4096 % 32) ++ leBytes 1 (ct / 64 % 64) ++
    sleBytes 1 (if off < 32 then (off : Int) else -((off : Int) - 32)) ++ [0] ++ leBytes 8 (whenOf r.ctTime).toNat ++ zeros 4

/-- The 64 characters of RadioText; a segment not accepted reads 0.
Log: 72 (PRESUMED). -/
def radioText (r : Rds) : Bytes :=
  let a := (List.range 16).map fun i => chars2 ((r.val (itemRt i)).getD 0 / 65536) ++ chars2 ((r.val (itemRt i)).getD 0)
  let b := (List.range 16).map fun i => chars2 ((r.val (itemRtB i)).getD 0)
  if r.acc.any fun e => decide (48 ≤ e.1) then fit 64 b.flatten else a.flatten

/-- The length of a text: up to its end mark 0x0D, or to its last accepted segment.
Log: 73 (DEDUCED). -/
def textLength (b : Bytes) : Nat := (b.takeWhile fun x => x != 0x0D && x != 0).length

/-- Part 1. -/
def rdsPart1 (r : Rds) : Bytes :=
  radioText r ++ leBytes 1 (flag r.rtFlag 0) ++ leBytes 1 (textLength (radioText r)) ++ r.rtTags

end Sys2Proof.Machine
end

