-- ==== Sys2Proof/Machine/Demod.lean ====
section
/-! DEFINITION. Machine/Demod.lean: AM and FM demodulators of full lanes: commands 0x0501–0x0505 and the quality measures
(chapter 06). -/

namespace Sys2Proof.Machine

/-! ## Quality (R184–R186) -/

/-- A term of R185: truncated and clamped to 0–100. -/
def term (num den : Int) : Nat := if den ≤ 0 then 0 else min 100 (num / den).toNat

/-- The FM quality Q with the parameters of an `FM_SET` payload (R185). -/
def fmQuality (b : Bytes) (m : Measures) : Nat :=
  if m.invalid then 0
  else
    let l0 := les b 11 1
    let l1 := les b 12 1
    let u0 := les b 13 1
    let u1 := les b 14 1
    let m0 : Int := byteAt b 15
    let m1 : Int := byteAt b 16
    min (term (m.level + 10700 - 100 * l0) (l1 - l0))
      (min (term (10 * (10 * u0 - m.usn)) (u0 - u1)) (term (10 * (10 * m0 - m.mp)) (m0 - m1)))

/-- One quantity of R186 moves towards its goal: worse by at most 3125 and better by at most 625 of its units a tick. -/
def glide (cur goal : Nat) (lowIsWorse : Bool) : Nat :=
  if goal < cur then max goal (cur - (if lowIsWorse then 3125 else 625))
  else min goal (cur + (if lowIsWorse then 625 else 3125))

/-- Goals of R186 for an FM lane: separation in 0.0001 %, and high cut in 0.1 Hz. -/
def sepGoal (b : Bytes) (q : Nat) : Nat :=
  let hi := byteAt b 5
  let lo := byteAt b 6
  if hi ≤ q then 1000000 else if q ≤ lo then 0 else 1000000 * (q - lo) / (hi - lo)

def hicutGoal (b : Bytes) (q : Nat) : Nat :=
  let h := byteAt b 9
  if h ≤ q then 150000 else 30000 + 120000 * q / h

/-- Soft mute in 0.0001 dB: 0 from `MUTE_START` up, `MUTE_MAX` from 10 dB below it down. -/
def muteGoal (start max_ : Int) (m : Measures) : Nat :=
  let d := start * 100 - (m.level + 10700)
  if d ≤ 0 then 0 else if 1000 ≤ d then (max_ * 10000).toNat else (max_ * 10 * d).toNat

/-- Settings accepted apply (R214). -/
def Demod.apply (d : Demod) : Demod :=
  { d with am := d.amNext.getD d.am, fm := d.fmNext.getD d.fm, amNext := none, fmNext := none }

/-- `AM_SET` and `FM_SET` accepted before this tick take effect. -/
def demodsApply (s : State) : State := s.setDemods (s.demods.map fun e => (e.1, e.2.apply))

/-- Synchronous detection (R178) or stereo decoding (R182) is wanted. -/
def Demod.wanted (fmLane : Bool) (d : Demod) : Bool :=
  if fmLane then d.pilot && !bit (byteAt d.fm 3) 0 else byteAt d.am 1 == 1 || (byteAt d.am 1 == 2 && d.carrier)

/-- A cross-fade of 5 ms goes on by one sixteenth a tick (R178, R182).
Log: 186 (DESIGN CHOICE). -/
def Demod.crossfade (fmLane : Bool) (d : Demod) : Demod :=
  { d with fade := if d.wanted fmLane then min 16 (d.fade + 1) else d.fade - 1 }

/-- Blend, mute and high cut move (R186), and the cross-fade. -/
def demodTick (fmLane live : Bool) (d0 : Demod) : Demod :=
  let d1 := if live then d0.crossfade fmLane else d0
  match d1.meas with
  | some m =>
    if live = false then d1
    else if fmLane then
      { d1 with sep := glide d1.sep (sepGoal d1.fm d1.q) true
                mute := glide d1.mute (muteGoal (les d1.fm 7 1) (byteAt d1.fm 8) m) false
                hicut := glide d1.hicut (hicutGoal d1.fm d1.q) true }
    else { d1 with mute := glide d1.mute (muteGoal (les d1.am 4 1) (byteAt d1.am 5) m) false }
  | none => d1

/-- All demodulators at a tick boundary. -/
def demodsTick (s : State) : State :=
  s.setDemods (s.demods.map fun e =>
    (e.1, demodTick ((lane s (0x0300 + e.1)).use == 3) (decide ((lane s (0x0300 + e.1)).st = .running)) e.2))

/-! ## Commands -/

/-- Lane `n` runs AF following that R214's feed rule and R210 look at. -/
def fullUse (s : State) (n : Nat) : Nat := if (lane s (0x0300 + n)).st = .idle then 0 else (lane s (0x0300 + n)).use

/-- The path named in `PROG` may be fed by full lane `n`. -/
def progDenied (s : State) (p n : Nat) : Bool := p != 0xFF && progTaken s p n

/-- Commands to a designated lane during an alert window or a safety break-in (R395). -/
def holdLane (s : State) (c : Cmd) : Bool := safetyOn s && toFull c.tgt && laneDesignated s c.inst

def amSetUnit (c : Cmd) (s : State) : Reply :=
  if fullUse s c.inst ≠ 2 ∨ progDenied s (byteAt c.pl 0) c.inst then badState
  else .busy (putDemod s c.inst { demod s c.inst with amNext := some c.pl })

/-- A programme path, or 0xFF for none. -/
def progFld (off : Nat) : Fld := fld off 1 fun v => decide (v < 24) || v == 0xFF

/-- Table 6-6, `AM_SET`. -/
def amSetSpec : CmdSpec :=
  { op := 0x0501, target := toFull, len := fun _ => 8,
    fields := fun _ => [progFld 0, rng 1 1 0 2, rng 2 1 0 3, rsv 3 1, srng 4 1 (-10) 60, rng 5 1 0 40, rsv 6 2],
    unit := amSetUnit }

/-- `FM_SET`; one that would clear `ALERT_EN` of a designated lane is refused (R382). -/
def fmSetUnit (c : Cmd) (s : State) : Reply :=
  if fullUse s c.inst ≠ 3 ∨ progDenied s (byteAt c.pl 0) c.inst ∨
      (laneDesignated s c.inst ∧ bit (byteAt c.pl 3) 3 = false) then badState
  else .busy (putDemod s c.inst { demod s c.inst with fmNext := some c.pl })

/-- Table 6-7, `FM_SET`. -/
def fmSetSpec : CmdSpec :=
  { op := 0x0502, target := toFull, len := fun _ => 20,
    fields := fun _ => [progFld 0, rng 1 1 0 3, rng 2 1 0 2, wid 3 1 5, rng 4 1 10 100, rng 5 1 1 100,
      ⟨6, fun b => decide (byteAt b 6 ≤ 99) && decide (byteAt b 6 < byteAt b 5)⟩, srng 7 1 (-10) 40, rng 8 1 0 40,
      rng 9 1 0 100, rng 10 1 0 2, ⟨12, fun b => decide (les b 11 1 < les b 12 1)⟩,
      ⟨14, fun b => decide (les b 14 1 < les b 13 1)⟩, rng 15 1 0 100, ⟨16, fun b => decide (byteAt b 16 < byteAt b 15)⟩,
      rsv 17 3],
    hold := holdLane, unit := fmSetUnit }

/-- `DEMOD_STATE` (Table 6-8). -/
def demodState (s : State) (n : Nat) : Nat :=
  let d := demod s n
  let l := lane s (0x0300 + n)
  if l.st ≠ .running then (if l.st = .settling then 1 else 0)
  else if l.use = 3 then (if d.pilot ∧ bit (byteAt d.fm 3) 0 = false then 3 else 2)
  else
    match byteAt d.am 1 with
    | 0 => 4
    | 1 => 5
    | _ => if d.carrier then 5 else 4

/-- The `QUALITY_GET` result (Table 6-8); separation counts the cross-fade to mono (R182). -/
def qualityResult (s : State) (n : Nat) : Bytes :=
  let d := demod s n
  let fm := (lane s (0x0300 + n)).use == 3
  let m : Measures := d.meas.getD { level := 0, offset := 0, dev := 0, pilot := 0, usn := 0, mp := 0, bler := 0,
                                    adjUp := 0, adjLo := 0, uncal := false, invalid := false, slew := false }
  leBytes 1 (demodState s n) ++ leBytes 1 (if fm then d.q else 0xFF) ++ leBytes 1 (d.sep * (if fm then d.fade else 16) / 160000) ++
    leBytes 1 (flag m.uncal 0 + flag m.invalid 1 + flag m.slew 2 + flag d.rds.sync 3) ++ sleBytes 2 m.level ++
    sleBytes 2 (if fm then m.usn else 0) ++ sleBytes 4 m.offset ++ leBytes 2 m.mp ++ leBytes 2 m.dev ++
    leBytes 2 m.pilot ++ leBytes 2 m.bler ++ leBytes 4 d.rds.groups ++ leBytes 8 (whenOf d.qTime).toNat ++
    leBytes 2 (d.mute / 1000) ++ leBytes 2 (d.hicut / 100) ++ zeros 4

/-- Table 6-8, `QUALITY_GET`: a lane that demodulates neither AM nor FM is refused (DEDUCED from R214).
Log: 71 (DEDUCED). -/
def qualityGetSpec : CmdSpec :=
  { op := 0x0503, target := toFull, len := fun _ => 0, largest := fun _ => 40,
    unit := fun c s =>
      if fullUse s c.inst = 2 ∨ fullUse s c.inst = 3 then okWith (qualityResult s c.inst) s else badState }

/-! ## Binding RDS records (R191) -/

/-- A ring's mark of what is bound to it, after a unit has let go of it or taken it. -/
def markRing (s : State) (n : Nat) (b : Bind) : State :=
  match mget s.rings n with
  | some r => s.setRings (mput s.rings n { r with bind := b })
  | none => s

/-- The mark of ring `n` goes where no unit names it any more. -/
def freeRing (s : State) (n : Nat) : State :=
  if rdsRingUsed s n || recRingUsed s n || sapRingUsed s n then s else markRing s n .none

/-- A ring that carries something other than RDS records. -/
def notForRds (s : State) (n : Nat) : Bool := laneRingUsed s n || recRingUsed s n || sapRingUsed s n

/-- `RDS_STREAM`: a full lane or a flake, or 0x0500 for all flakes.
Log: 76 (DEDUCED). -/
def rdsStreamUnit (c : Cmd) (s : State) : Reply :=
  let n := byteAt c.pl 0
  let v := if n = 0xFF then none else some (n, byteAt c.pl 1)
  let old := if toFull c.tgt then (demod s c.inst).rdsRing else mget s.flurry.rings c.inst
  let s1 := if toFull c.tgt then putDemod s c.inst { demod s c.inst with rdsRing := v }
            else s.setFlurry { s.flurry with rings := match v with
              | some x => mput s.flurry.rings c.inst x
              | none => mdel s.flurry.rings c.inst }
  let s2 := match old with
    | some o => freeRing s1 o.1
    | none => s1
  if toFull c.tgt ∧ fullUse s c.inst ≠ 3 then badState
  else if n = 0xFF then ok s2
  else
    match ringDenied s n 0 .streamOut (notForRds s n) with
    | some r => r
    | none => ok (markRing s2 n (.rds c.tgt))

/-- Table 6-9, `RDS_STREAM`. -/
def rdsStreamSpec : CmdSpec :=
  { op := 0x0504, target := fun t => toFull t || toFlake t, len := fun _ => 4,
    fields := fun _ => [wid 1 1 2, rsv 2 2], unit := rdsStreamUnit }

/-- The decoder that a `TARGET` names. -/
def rdsOf (s : State) (tgt : Nat) : Rds := if toFull tgt then (demod s (tgt % 256)).rds else (flake s (tgt % 256)).rds

def rdsGetUnit (c : Cmd) (s : State) : Reply :=
  if toFull c.tgt ∧ fullUse s c.inst ≠ 3 then badState
  else okWith (if byteAt c.pl 0 = 0 then rdsPart0 (rdsOf s c.tgt) else rdsPart1 (rdsOf s c.tgt)) s

/-- `RDS_GET` (Table 6-10). -/
def rdsGetSpec : CmdSpec :=
  { op := 0x0505, target := fun t => toFull t || toFlake t, len := fun _ => 4,
    largest := fun b => if byteAt b 0 = 0 then 64 else 72, fields := fun _ => [rng 0 1 0 1, rsv 1 3],
    unit := rdsGetUnit }

def execAmSet (a : Args) (s : State) : Host.Outcome State Fault Refusal := .next (submit amSetSpec a s)
def execFmSet (a : Args) (s : State) : Host.Outcome State Fault Refusal := .next (submit fmSetSpec a s)
def execQualityGet (a : Args) (s : State) : Host.Outcome State Fault Refusal := .next (submit qualityGetSpec a s)
def execRdsStream (a : Args) (s : State) : Host.Outcome State Fault Refusal := .next (submit rdsStreamSpec a s)
def execRdsGet (a : Args) (s : State) : Host.Outcome State Fault Refusal := .next (submit rdsGetSpec a s)

/-! ## Diversity settings (R136) -/

/-- A `DIV_SET` that waits takes effect at this frame or tick: the next sample carries `CHANGE`, and the command completes. -/
def divTakes (s : State) (tgt : Nat) : State :=
  let l := lane s tgt
  match l.divNext with
  | none => s
  | some (b, o, tag) =>
    let s1 := putLane s tgt { l with div := b, divNext := none, change := some (tag, match o with
      | .ring n => n
      | _ => 0x80) }
    match byTag s1 o tag with
    | some f => if f.cmd.op = 0x0306 then complete s1 f stOk 0 [] s1.sid.now s1.ev.nextId else s1
    | none => s1

/-- The lanes whose setting takes effect at a tick: all but DAB and DRM lanes (R136). -/
def divsTick (s : State) : State :=
  ((s.lanes.filter fun e => decide (e.2.use < 4) && e.2.live).map (·.1)).foldl divTakes s

/-! ## Locks of the demodulators and their samples (R177–R182) -/

/-- The carrier PLL has a phase error, in 0.01°, at one more sample: within ±15° for 4800 of them it locks, beyond ±45° for 160 it
unlocks (R178). -/
def Demod.carrierErr (d : Demod) (e : Int) : Demod :=
  let i := if e.natAbs ≤ 1500 then d.inRun + 1 else 0
  let o := if 4500 < e.natAbs then d.outRun + 1 else 0
  { d with inRun := i, outRun := o, carrier := if 4800 ≤ i then true else if 160 ≤ o then false else d.carrier }

/-- The pilot PLL has a phase error, in 0.01°, and a pilot deviation, in Hz, at one more multiplex sample: within ±10° with a pilot
of at least `PILOT_MIN` for 2048 of them it locks, and below it for 20 ms it returns to mono (R182). -/
def Demod.pilotErr (d : Demod) (e : Int × Nat) : Demod :=
  let low := decide (e.2 < 100 * byteAt d.fm 4)
  let i := if e.1.natAbs ≤ 1000 ∧ low = false then d.inRun + 1 else 0
  let o := if low then d.outRun + 1 else 0
  { d with inRun := i, outRun := o, pilot := if 2048 ≤ i then true else if 5120 ≤ o then false else d.pilot }

/-- `AM_CARRIER_LOCK` (R178). -/
def execAmCarrierLock (n : Nat) (errors : List Int) (s : State) : Host.Outcome State Fault Refusal :=
  if n < 32 ∧ fullUse s n = 2 ∧ (lane s (0x0300 + n)).st = .running then
    .next (putDemod s n (errors.foldl Demod.carrierErr (demod s n)))
  else .next s

/-- `PILOT_LOCK` (R182). -/
def execPilotLock (n : Nat) (errors : List (Int × Nat)) (s : State) : Host.Outcome State Fault Refusal :=
  if n < 32 ∧ fullUse s n = 3 ∧ (lane s (0x0300 + n)).st = .running then
    .next (putDemod s n (errors.foldl Demod.pilotErr (demod s n)))
  else .next s

/-- A delivered lane sample enters the demodulator; its PCM samples are appended. -/
def Demod.take (fmLane : Bool) (a : Demod × List (Int × Int)) (y : Sample) : Demod × List (Int × Int) :=
  let d := a.1
  if fmLane then
    let r := d.chain.fm { bw := byteAt d.fm 1, deem := byteAt d.fm 2, fade := d.fade, sep := d.sep, mute := d.mute / 100
                          hicut := d.hicut / 100 } d.window y
    ({ d with chain := r.1, window := r.2.1 }.pilotErr r.2.2.1, a.2 ++ r.2.2.2)
  else
    let r := d.chain.am (byteAt d.am 2) d.fade (d.mute / 100) d.window y
    ({ d with chain := r.1, window := r.2.1 }.carrierErr r.2.2.1, a.2 ++ r.2.2.2)

/-- The samples that a full lane delivers enter its AM or FM demodulator, which writes PCM into the path of `PROG` (R177, R180). -/
def demodFeed (s : State) (tgt : Nat) (ys : List Sample) : State :=
  let n := tgt % 256
  if toFull tgt = false ∨ (fullUse s n ≠ 2 ∧ fullUse s n ≠ 3) ∨ ys = [] then s
  else
    let r := ys.foldl (Demod.take (fullUse s n == 3)) (demod s n, [])
    let prog := if fullUse s n = 3 then byteAt r.1.fm 0 else byteAt r.1.am 0
    let s1 := putDemod s n r.1
    if prog < 24 then putPath s1 prog { path s1 prog with input := (path s1 prog).input ++ r.2 } else s1

end Sys2Proof.Machine
end

