-- ==== Sys2Proof/Machine/Flurry.lean ====
section
/-! DEFINITION. Machine/Flurry.lean: band taps, census and flakes: commands 0x0510–0x0515, and the RDS occurrences of lanes
and flakes (chapter 06). -/

namespace Sys2Proof.Machine

def toFlurry (t : Nat) : Bool := t == 0x0500

/-! ## Flakes (Table 6-5) -/

def Flake.active (f : Flake) : Bool :=
  decide (f.st = .acquiring) || decide (f.st = .synced) || decide (f.st = .paused)

def activeFlakes (s : State) : Nat := (s.flurry.flakes.filter fun e => e.2.active).length

/-- `EV_FLAKE` (R215). -/
def evFlakeOf (s : State) (n cause : Nat) : State := raise s evFlake (0x0500 + n) cause

/-- The candidate that a flake served is no longer served: the flake is freed or taken over (R203). -/
def unserve (s : State) (n : Nat) : State :=
  let f (c : AfCand) : AfCand := if c.flake = some n then { c with flake := none, run := 0 } else c
  s.setAfs (s.afs.map fun e => (e.1, { e.2 with cands := e.2.cands.map f }))

/-- A flake becomes Free. -/
def freeFlake (s0 : State) (n : Nat) : State :=
  let s := unserve s0 n
  usedChanged (s.setFlurry { s.flurry with flakes := mdel s.flurry.flakes n })

/-- A flake takes a carrier: Acquiring, with fresh counts (Table 6-5). -/
def takeFlake (s0 : State) (n : Nat) (cls : FlakeClass) (tp freq flags ln : Nat) : State :=
  let s := unserve s0 n
  usedChanged (putFlake s n { Flake.reset with st := .acquiring, cls := cls, tap := tp, freq := freq, flags := flags, lane := ln,
                                               probeBy := deadline s (32 * byteAt s.flurry.cfg 3) })

/-- The lowest-numbered free flake of the pool (R200); none while shedding holds 128 active (R204). -/
def freePoolFlake (s : State) : Option Nat :=
  if s.flurry.shed ∧ 128 ≤ activeFlakes s then none
  else (List.range 256).find? fun n => decide (byteAt s.flurry.cfg 13 ≤ n) && decide ((flake s n).st = .free)

/-- The carrier lies in the tap's span (R193, R194); Hz. -/
def inSpan (tp : Tap) (freq : Nat) : Bool := decide (((freq : Int) * 1000 - tp.freq).natAbs ≤ 14200000000)

/-- The carrier lies in the tap's span and in the band (R193); Hz. -/
def carrierOk (s : State) (tp : Tap) (freq : Nat) : Bool :=
  inSpan tp freq && decide (le s.flurry.cfg 6 2 * 10000 ≤ freq) &&
    decide (freq ≤ le s.flurry.cfg 8 2 * 10000)

/-- The tap's span lies in its zone's span (R193). -/
def tapInZone (tapFreq zoneFreq : Nat) : Bool := decide (((tapFreq : Int) - zoneFreq).natAbs ≤ 145408000000)

/-- The flake that holds a carrier. -/
def holder (s : State) (freq : Nat) : Option Nat :=
  (s.flurry.flakes.find? fun e => e.2.freq == freq && decide (e.2.st ≠ .free)).map (·.1)

/-- The power of a carrier in the last census of its tap, 0.01 dBm. -/
def censusPower (s : State) (f : Flake) : Int := (mget (tap s f.tap).occupied f.freq).getD (-32768)

/-- The census flake on the weakest carrier (R200, R202). -/
def weakestCensus (s : State) : Option (Nat × Int) :=
  let cs := (s.flurry.flakes.filter fun e => e.2.active && decide (e.2.cls = .census)).map fun e => (e.1, censusPower s e.2)
  cs.foldl (fun b e => match b with
    | none => some e
    | some x => if e.2 < x.2 then some e else b) none

/-! ## Census (R199–R201) -/

/-- `CENSUS_EN` holds the tap. -/
def censusOn (s : State) (tp : Nat) : Bool := bit (byteAt s.flurry.cfg 0) tp

/-- Insertion by decreasing power, then increasing frequency (R200). -/
def byPower (e : Nat × Int) : List (Nat × Int) → List (Nat × Int)
  | [] => [e]
  | x :: xs => if x.2 < e.2 ∨ (x.2 = e.2 ∧ e.1 < x.1) then e :: x :: xs else x :: byPower e xs

/-- One occupied carrier that no flake holds is given a census flake, if one can be had (R200). -/
def serveCarrier (tp : Nat) (s : State) (e : Nat × Int) : State :=
  if (holder s e.1).isSome ∨ (mget (tap s tp).noRds e.1).isSome ∨ carrierOk s (tap s tp) e.1 = false then s
  else
    match freePoolFlake s with
    | some n => takeFlake s n .census tp e.1 0 0
    | none =>
      match weakestCensus s with
      | some w => if w.2 + 600 ≤ e.2 then takeFlake s w.1 .census tp e.1 0 0 else s
      | none => s

/-- A census flake whose carrier is unoccupied in 3 consecutive censuses is freed (R201). -/
def missCarrier (tp : Nat) (s : State) (e : Nat × Flake) : State :=
  if e.2.tap ≠ tp ∨ e.2.cls ≠ .census ∨ e.2.active = false then s
  else if (mget (tap s tp).occupied e.2.freq).isSome then putFlake s e.1 { e.2 with missed := 0 }
  else if 3 ≤ e.2.missed + 1 then evFlakeOf (freeFlake s e.1) e.1 3
  else putFlake s e.1 { e.2 with missed := e.2.missed + 1 }

/-- Power within ±100 kHz of a carrier in Hz, summed over bins of 7.125 kHz and blocks (R199). -/
def bandPower (k : Tap) (spectra : List (List (Nat × Nat))) (freq : Nat) : Nat :=
  ((spectra.flatten.filter fun e =>
    decide (((k.freq : Int) + ((e.1 : Int) - 2048) * 7125000 - 1000 * freq).natAbs ≤ 100000000)).map (·.2)).sum

/-- Designed response of tap, bin and flake filter at an offset in Hz, in 0.01 dB (R198).
Log: 186 (DESIGN CHOICE). -/
def tapGain (k : Tap) (freq : Nat) : Int := Config.coef 7 (((freq : Int) * 1000 - k.freq).natAbs / 1000)

/-- P(c) in 0.01 dBm (R199, R129). -/
def carrierPower (s : State) (k : Tap) (spectra : List (List (Nat × Nat))) (freq : Nat) : Int :=
  let a := ant s (k.zone / 8)
  centiDb (bandPower k spectra freq) (spectra.length * 2 ^ 32) - compDb a (freq / 1000) + fullScale a.g +
    calAt a (freq / 1000) a.g - tapGain k freq

/-- The candidates of a census: the `GRID` raster from `BAND_LO` to `BAND_HI` where the tap's span reaches (R193, R199), in Hz. -/
def censusGrid (s : State) (k : Tap) : List Nat :=
  let grid := if byteAt s.flurry.cfg 1 = 0 then 100000 else 50000
  let lo := le s.flurry.cfg 6 2 * 10000
  let first := (lo + grid - 1) / grid * grid
  ((List.range 1101).map fun i => first + grid * i).filter fun f => carrierOk s k f

/-- The occupied candidates with their powers (R199).
Log: 188 (DEDUCED). -/
def occupiedOf (s : State) (k : Tap) (spectra : List (List (Nat × Nat))) : List (Nat × Int) :=
  let grid := if byteAt s.flurry.cfg 1 = 0 then 100000 else 50000
  let p := carrierPower s k spectra
  ((censusGrid s k).filter fun c =>
    decide (les s.flurry.cfg 2 1 * 100 ≤ p c) && decide (p (c - grid) ≤ p c) && decide (p (c + grid) ≤ p c)).map fun c => (c, p c)

/-- `CENSUS` (R199–R201): every `CENSUS_TICKS` on each tap in `CENSUS_EN`. -/
def execCensus (tp : Nat) (spectra : List (List (Nat × Nat))) (t : Sid) (s : State) : Host.Outcome State Fault Refusal :=
  let k := tap s tp
  if tp ≥ 4 ∨ k.on = false ∨ k.paused ∨ censusOn s tp = false ∨ expired s k.censusBy = false then .next s
  else
    let s1 := advance s t
    let occ := occupiedOf s1 k spectra
    let marks := (k.noRds.map fun e => (e.1, e.2 - 1)).filter fun e => decide (0 < e.2)
    let s2 := putTap s1 tp { k with occupied := occ, time := s1.sid.now, noRds := marks,
                                    censusBy := deadline s1 (le s1.flurry.cfg 4 2) }
    let s3 := s2.flurry.flakes.foldl (missCarrier tp) s2
    let order := occ.foldl (fun l e => byPower e l) []
    .next (order.foldl (serveCarrier tp) s3)

/-- `PROBE_TIMEOUT` (R201): a census flake without synchronisation is freed and its carrier marked as having no RDS. -/
def execProbeTimeout (n : Nat) (s : State) : Host.Outcome State Fault Refusal :=
  let f := flake s n
  if n < 256 ∧ f.cls = .census ∧ f.st = .acquiring ∧ f.proven = false ∧ expired s f.probeBy then
    let k := tap s f.tap
    .next (freeFlake (putTap s f.tap { k with noRds := mput k.noRds f.freq (byteAt s.flurry.cfg 10) }) n)
  else .next s

/-! ## Taps (R194) -/

/-- A tap reset: flakes in span return to Acquiring, the others are freed with cause 0x02 (R194). -/
def resetFlake (tp : Nat) (s : State) (e : Nat × Flake) : State :=
  if e.2.tap ≠ tp ∨ (e.2.active = false ∧ e.2.st ≠ .shed) then s
  else if inSpan (tap s tp) e.2.freq = false then evFlakeOf (freeFlake s e.1) e.1 2
  else if e.2.st = .paused ∨ e.2.st = .shed then s
  else putFlake s e.1 { e.2 with st := .acquiring, rds := e.2.rds.drop, chain := FlakeChain.reset }

/-- Every flake of a tap is freed, with cause 0x02 where `ev`. -/
def dropFlake (tp : Nat) (ev : Bool) (s : State) (e : Nat × Flake) : State :=
  if e.2.tap ≠ tp ∨ e.2.st = .free then s
  else if ev then evFlakeOf (freeFlake s e.1) e.1 2 else freeFlake s e.1

/-- The tap resets with its zone; off its zone's span it is disabled (R194). -/
def tapResets (s : State) (tp : Nat) : State :=
  let k := tap s tp
  let z := zone s k.zone
  if k.on = false then s
  else if z.st = .off ∨ tapInZone k.freq z.freq = false then
    let s1 := putTap s tp { k with on := false, due := false, paused := false }
    s1.flurry.flakes.foldl (dropFlake tp true) s1
  else
    let s1 := putTap s tp { k with due := false, resetAt := s.sid.now, chain := LaneChain.fresh 3 k.chain.phase, out := [] }
    s1.flurry.flakes.foldl (resetFlake tp) s1

/-- `TAP_RESET` (R194). -/
def execTapReset (tp : Nat) (s : State) : Host.Outcome State Fault Refusal :=
  if tp < 4 ∧ (tap s tp).due then .next (tapResets s tp) else .next s

/-- `TAP_SETTLED` (R194, Table 6-5): 40 tap samples after its reset the flakes of a tap that had paused acquire again. -/
def execTapSettled (tp : Nat) (t : Sid) (s0 : State) : Host.Outcome State Fault Refusal :=
  let s := advance s0 t
  let k := tap s tp
  let f : Nat × Flake → Nat × Flake := fun e =>
    if e.2.tap = tp ∧ e.2.st = .paused then (e.1, { e.2 with st := .acquiring }) else e
  let z := (zone s k.zone).st
  if tp < 4 ∧ k.on ∧ k.paused ∧ k.due = false ∧ z ≠ .paused ∧ z ≠ .off ∧ k.resetAt + 40 * secU / 29184000 ≤ s.sid.now then
    .next ((putTap s tp { k with paused := false }).setFlurry
      { (putTap s tp { k with paused := false }).flurry with flakes := s.flurry.flakes.map f })
  else .next s

/-- Flakes of a tap pause with its zone; their windows count as invalid (Table 6-5). -/
def pauseTap (z : Nat) (s : State) (tp : Nat) : State :=
  let k := tap s tp
  let f : Nat × Flake → Nat × Flake := fun e =>
    if e.2.tap = tp ∧ (e.2.st = .acquiring ∨ e.2.st = .synced) then
      (e.1, { e.2 with st := .paused, rds := e.2.rds.drop
                       meas := e.2.meas.map fun m => { m with invalid := true } })
    else e
  if k.on ∧ k.zone = z then
    let s1 := putTap s tp { k with paused := true }
    s1.setFlurry { s1.flurry with flakes := s1.flurry.flakes.map f }
  else s

/-- The taps of a zone pause. -/
def pauseTaps (s : State) (z : Nat) : State := [0, 1, 2, 3].foldl (pauseTap z) s

/-- The taps of a zone have a reset to make (R194). -/
def dueTaps (s : State) (z : Nat) : State :=
  s.setFlurry { s.flurry with taps := s.flurry.taps.map fun e =>
    if e.2.on ∧ e.2.zone = z then (e.1, { e.2 with due := true }) else e }

/-! ## Shedding (R204) -/

/-- The order in which flakes stop: probing census, other census and AF by level, pinned by number downwards. -/
def shedKey (e : Nat × Flake) : Int :=
  let level : Int := (e.2.meas.map (·.level)).getD 0
  match e.2.cls with
  | .census => if e.2.proven then 100000 + level else 0
  | .af => 300000 + level
  | .pinned => 500000 - e.1

/-- The flake that stops next; a designated one never does (R394). -/
def nextShed (s : State) : Option (Nat × Flake) :=
  (s.flurry.flakes.filter fun e => e.2.active && !flakeDesignated s e.1).foldl (fun b e => match b with
    | none => some e
    | some x => if shedKey e < shedKey x then some e else b) none

/-- Flakes stop one by one until at most 128 are active. -/
def shedFlakes : Nat → State → State
  | 0, s => s
  | k + 1, s =>
    if activeFlakes s ≤ 128 then s
    else
      match nextShed s with
      | none => s
      | some e =>
        let s1 := if e.2.cls = .pinned then putFlake s e.1 { e.2 with st := .shed, rds := e.2.rds.drop }
                  else freeFlake s e.1
        shedFlakes k (evFlakeOf s1 e.1 4)

/-- Shedding of Flurry begins.
Log: 77 (DEDUCED). -/
def flurryShed (s : State) : State := shedFlakes 256 (s.setFlurry { s.flurry with shed := true })

/-- Shedding ends: Shed flakes acquire again. -/
def flurryRestore (s : State) : State :=
  s.setFlurry { s.flurry with
    shed := false
    flakes := s.flurry.flakes.map fun e => if e.2.st = .shed then (e.1, { e.2 with st := .acquiring }) else e }

/-! ## Commands -/

/-- `FLURRY_SET`: in force from the next tick (R214); a pool that would take a designated flake is refused (R382).
Log: 62 (DEDUCED). -/
def flurrySetSpec : CmdSpec :=
  { op := 0x0510, target := toFlurry, len := fun _ => 16,
    fields := fun _ => [wid 0 1 4, rng 1 1 0 1, srng 2 1 (-120) (-30), rng 3 1 1 100, rng 4 2 320 32000,
      rng 6 2 6400 11000, ⟨8, fun b => decide (le b 6 2 < le b 8 2)⟩, rng 10 1 1 255, rng 11 1 0 2, rng 12 1 0 1,
      rsv 14 2],
    unit := fun c s =>
      if (safeFlakes s).any fun t => decide (byteAt c.pl 13 ≤ t - 0x0500) then badState
      else .busy (s.setFlurry { s.flurry with cfgNext := some c.pl }) }

/-- A `FLURRY_SET` accepted before this tick takes effect (R214). -/
def flurryApply (s : State) : State :=
  s.setFlurry { s.flurry with cfg := s.flurry.cfgNext.getD s.flurry.cfg, cfgNext := none }

/-- The zones that generation-1 mode holds (R497). -/
def legacyZone (s : State) (z : Nat) : Bool := s.hcfg.legEn && (z == 7 || z == 15)

def tapSetUnit (c : Cmd) (s : State) : Reply :=
  let tp := byteAt c.pl 0
  let z := byteAt c.pl 1
  let k := tap s tp
  if z = 0xFF then
    let s1 := putTap s tp { k with on := false, paused := false, due := false }
    ok (s1.flurry.flakes.foldl (dropFlake tp false) s1)
  else if (zone s z).st = .off then badState
  else if tapInZone (le c.pl 8 8) (zone s z).freq = false then badParam 8
  else
    let k1 : Tap := { k with on := true, zone := z, freq := le c.pl 8 8, due := false,
                             paused := k.paused || decide ((zone s z).st = .paused), occupied := [], noRds := [],
                             censusBy := deadline s (le s.flurry.cfg 4 2) }
    ok (tapResets (putTap s tp k1) tp)

/-- A `TAP_SET` that would retune a tap of the safety path (R395). -/
def holdTap (s : State) (c : Cmd) : Bool := safetyOn s && (safeTaps s).contains (byteAt c.pl 0)

/-- `TAP_SET` payload (R214). -/
def tapSetSpec : CmdSpec :=
  { op := 0x0511, target := toFlurry, len := fun _ => 16,
    fields := fun _ => [rng 0 1 0 3, fld 1 1 fun v => decide (v < 32) || v == 0xFF, rsv 2 6],
    hold := holdTap, unit := tapSetUnit }

/-- The shed hold of R433 on an assignment that would exceed 128 active flakes. -/
def flakeShedRefusal (s : State) (n : Nat) : Option Nat :=
  if (flake s n).active = false ∧ 128 ≤ activeFlakes s then shedRefusal s 4 else none

/-- `FLAKE_ASSIGN` (R203): it takes the flake over whatever holds it. -/
def flakeAssignUnit (c : Cmd) (s : State) : Reply :=
  let k := tap s (byteAt c.pl 0)
  if k.on = false ∨ (flakeDesignated s c.inst ∧ bit (byteAt c.pl 1) 0 = false) then badState
  else if carrierOk s k (le c.pl 4 4) = false then badParam 4
  else
    match flakeShedRefusal s c.inst with
    | some st => .deny st 0
    | none =>
      let s1 := takeFlake s c.inst .pinned (byteAt c.pl 0) (le c.pl 4 4) (byteAt c.pl 1) 0
      .later stOk 0 [] (if k.paused then putFlake s1 c.inst { flake s1 c.inst with st := .paused } else s1)

/-- Commands to a designated flake (R395). -/
def holdFlake (s : State) (c : Cmd) : Bool := safetyOn s && flakeDesignated s c.inst

/-- Table 6-12, `FLAKE_ASSIGN`. -/
def flakeAssignSpec : CmdSpec :=
  { op := 0x0512, target := toFlake, len := fun _ => 12,
    fields := fun _ => [rng 0 1 0 3, wid 1 1 3, rsv 2 2, rsv 8 4], hold := holdFlake, unit := flakeAssignUnit }

/-- `FLAKE_RELEASE` (Table 6-5): of a Free flake it changes nothing; of a designated one it is refused (R382).
Log: 62 (DEDUCED). -/
def flakeReleaseSpec : CmdSpec :=
  { op := 0x0513, target := toFlake, len := fun _ => 0, hold := holdFlake,
    unit := fun c s => if flakeDesignated s c.inst then badState else ok (freeFlake s c.inst) }

def flakeCode : FlakeState → Nat
  | .free => 0
  | .acquiring => 1
  | .synced => 2
  | .paused => 3
  | .shed => 4

def classCode : FlakeClass → Nat
  | .pinned => 0
  | .af => 1
  | .census => 2

/-- The `FLAKE_GET` result (Table 6-4). -/
def flakeResult (s : State) (n : Nat) : Bytes :=
  let f := flake s n
  let m : Measures := f.meas.getD { level := 0, offset := 0, dev := 0, pilot := 0, usn := 0, mp := 0, bler := 0,
                                    adjUp := 0, adjLo := 0, uncal := false, invalid := false, slew := false }
  leBytes 1 (flakeCode f.st) ++ leBytes 1 (classCode f.cls) ++ leBytes 1 f.tap ++
    leBytes 1 (flag f.rds.sync 0 + flag m.uncal 1 + flag m.invalid 2 + flag m.slew 3 +
      flag (f.rds.val itemTa == some 1) 4 + flag (f.rds.val itemTp == some 1) 5) ++
    leBytes 4 f.freq ++ leBytes 2 ((f.rds.val itemPi).getD 0) ++ sleBytes 2 m.level ++ sleBytes 4 m.offset ++
    leBytes 2 m.mp ++ sleBytes 2 m.adjUp ++ sleBytes 2 m.adjLo ++ sleBytes 2 m.usn ++ leBytes 2 m.bler ++
    leBytes 2 m.dev ++ leBytes 4 f.rds.groups ++ leBytes 8 (whenOf f.mtime).toNat ++ leBytes 4 f.rds.syncLoss ++ zeros 4

/-- Table 6-4, `FLAKE_GET`. -/
def flakeGetSpec : CmdSpec :=
  { op := 0x0514, target := toFlake, len := fun _ => 0, largest := fun _ => 48,
    unit := fun c s => okWith (flakeResult s c.inst) s }

/-- What is known of a carrier: 0 unknown, 1 RDS, 2 no RDS, 3 probing. -/
def carrierKnown (s : State) (tp freq : Nat) : Nat :=
  match holder s freq with
  | some n => if (flake s n).proven then 1 else if (flake s n).cls = .census then 3 else 0
  | none => if (mget (tap s tp).noRds freq).isSome then 2 else 0

/-- One entry of the `CENSUS_GET` result. -/
def censusEntry (s : State) (tp : Nat) (e : Nat × Int) : Bytes :=
  leBytes 4 e.1 ++ sleBytes 2 e.2 ++ leBytes 1 ((holder s e.1).getD 0xFF) ++ leBytes 1 (carrierKnown s tp e.1)

/-- The `CENSUS_GET` result (R214). -/
def censusResult (s : State) (tp maxEnt first : Nat) : Bytes :=
  let k := tap s tp
  let es := (k.occupied.drop first).take maxEnt
  leBytes 2 k.occupied.length ++ leBytes 2 first ++ leBytes 1 es.length ++ zeros 3 ++ leBytes 8 (whenOf k.time).toNat ++
    (es.map (censusEntry s tp)).flatten

/-- `CENSUS_GET` payload (R214). -/
def censusGetSpec : CmdSpec :=
  { op := 0x0515, target := toFlurry, len := fun _ => 4, largest := fun b => 16 + 8 * byteAt b 1,
    fields := fun _ => [rng 0 1 0 3, rng 1 1 1 255],
    unit := fun c s => okWith (censusResult s (byteAt c.pl 0) (byteAt c.pl 1) (le c.pl 2 2)) s }

def execFlurrySet (a : Args) (s : State) : Host.Outcome State Fault Refusal := .next (submit flurrySetSpec a s)
def execTapSet (a : Args) (s : State) : Host.Outcome State Fault Refusal := .next (submit tapSetSpec a s)
def execFlakeAssign (a : Args) (s : State) : Host.Outcome State Fault Refusal := .next (submit flakeAssignSpec a s)
def execFlakeRelease (a : Args) (s : State) : Host.Outcome State Fault Refusal := .next (submit flakeReleaseSpec a s)
def execFlakeGet (a : Args) (s : State) : Host.Outcome State Fault Refusal := .next (submit flakeGetSpec a s)
def execCensusGet (a : Args) (s : State) : Host.Outcome State Fault Refusal := .next (submit censusGetSpec a s)

/-! ## RDS occurrences of full lanes and flakes (R187, R189, R212, R213, R215) -/

/-- A full lane decodes RDS: an FM lane that is Running with `RDS_ON`. -/
def laneRds (s : State) (n : Nat) : Bool :=
  fullUse s n == 3 && decide ((lane s (0x0300 + n)).st = .running) && bit (byteAt (demod s n).fm 3) 1

/-- A flake decodes RDS: Acquiring or Synced.
Log: 76 (DEDUCED). -/
def flakeRds (f : Flake) : Bool := decide (f.st = .acquiring) || decide (f.st = .synced)

/-- A group record goes to its stream ring unless `RFILT` drops it (Table 6-9).
Log: 76 (DEDUCED). -/
def streamGroup (s : State) (b : Option (Nat × Nat)) (g : RdsGroup) (record : Bytes) : State :=
  match b with
  | none => s
  | some (n, filt) =>
    let any3 := g.errA == 3 || g.errB == 3 || g.errC == 3 || g.errD == 3
    if (bit filt 0 && g.errB == 3) || (bit filt 1 && any3) then s else feedRing s n record

/-- A full lane's decoder takes a group that began at `t`. -/
def laneGroup (s : State) (n : Nat) (g : RdsGroup) (t : Sid) : State :=
  let d := demod s n
  let fl := byteAt d.fm 3
  let r := d.rds.group (0x0300 + n) g t s.sid.ticks (bit fl 3) (bit fl 4)
  streamGroup (evTaChanges (putDemod s n { d with rds := r }) (0x0300 + n) d.rds r) d.rdsRing g r.record

/-- A flake's decoder takes a group that began at `t`; a changed PI raises `EV_FLAKE` cause 0x05 (Table 6-5). -/
def flakeGroup (s : State) (n : Nat) (g : RdsGroup) (t : Sid) : State :=
  let f := flake s n
  let r := f.rds.group (0x0500 + n) g t s.sid.ticks (bit f.flags 0) (bit f.flags 1)
  let s2 := evTaChanges (putFlake s n { f with rds := r }) (0x0500 + n) f.rds r
  let s3 := match f.rds.val itemPi, r.val itemPi with
    | some p, some q => if p = q then s2 else evFlakeOf s2 n 5
    | _, _ => s2
  streamGroup s3 ((mget s.flurry.rings n).orElse fun _ => mget s.flurry.rings 0) g r.record

/-- A full lane's decoder takes a block; block D ends a group (R189). `G_SLEW` is set in a slew. -/
def laneBlockIn (n : Nat) (s : State) (b : RdsBlock) : State :=
  let d := demod s n
  let r := d.rds.take (byteAt d.fm 10) (bit (byteAt d.fm 3) 2) { b with slew := b.slew || decide (s.aur.st = .slewing) }
  let s1 := putDemod s n { d with rds := r.1 }
  match r.2 with
  | some e => laneGroup s1 n e.1 e.2
  | none => s1

/-- A flake's decoder takes a block: `RDS_CORR` is that of `FLURRY_SET`, `RBDS` that of `FLAKE_ASSIGN`. -/
def flakeBlockIn (n : Nat) (s : State) (b : RdsBlock) : State :=
  let f := flake s n
  let r := f.rds.take (byteAt s.flurry.cfg 11) (bit f.flags 2) { b with slew := b.slew || decide (s.aur.st = .slewing) }
  let s1 := putFlake s n { f with rds := r.1 }
  match r.2 with
  | some e => flakeGroup s1 n e.1 e.2
  | none => s1

/-- `RDS_SYNC_ACQUIRED` (R187, Table 6-5): two blocks with valid syndromes of consecutive offset words. -/
def execRdsSyncAcquired (source : BitVec 16) (b0 b1 : RdsBlock) (s : State) : Host.Outcome State Fault Refusal :=
  let t := source.toNat
  let n := t % 256
  if toFull t ∧ laneRds s n ∧ (demod s n).rds.sync = false then
    match syncAt (bit (byteAt (demod s n).fm 3) 2) b0 b1 with
    | some p => .next ([b0, b1].foldl (laneBlockIn n) (putDemod s n { demod s n with rds := (demod s n).rds.acquire p }))
    | none => .next s
  else if toFlake t ∧ (flake s n).st = .acquiring then
    match syncAt (bit (flake s n).flags 2) b0 b1 with
    | some p => .next ([b0, b1].foldl (flakeBlockIn n)
        (putFlake s n { flake s n with st := .synced, proven := true, rds := (flake s n).rds.acquire p }))
    | none => .next s
  else .next s

/-- `RDS_SYNC_LOST` (R187, Table 6-5): after 20 consecutive uncorrectable blocks; the group under way ends (R189), and pinned and AF
flakes raise `EV_FLAKE` cause 0x01.
Log: 187 (DEDUCED). -/
def execRdsSyncLost (source : BitVec 16) (s : State) : Host.Outcome State Fault Refusal :=
  let t := source.toNat
  let n := t % 256
  if toFull t ∧ (demod s n).rds.sync ∧ 20 ≤ (demod s n).rds.badRun then
    let r := (demod s n).rds
    let s1 := match r.begun with
      | some b => laneGroup s n r.part b
      | none => s
    .next (putDemod s1 n { demod s1 n with rds := (demod s1 n).rds.lose })
  else if toFlake t ∧ (flake s n).st = .synced ∧ 20 ≤ (flake s n).rds.badRun then
    let r := (flake s n).rds
    let s1 := match r.begun with
      | some b => flakeGroup s n r.part b
      | none => s
    let f := flake s1 n
    let s2 := putFlake s1 n { f with st := .acquiring, rds := f.rds.lose }
    .next (if f.cls = .census then s2 else evFlakeOf s2 n 1)
  else .next s

/-- `RDS_GROUP` (R189): the decoder takes the blocks that have come. -/
def execRdsGroup (source : BitVec 16) (blocks : List RdsBlock) (t : Sid) (s : State) : Host.Outcome State Fault Refusal :=
  let tgt := source.toNat
  let n := tgt % 256
  let s1 := advance s t
  if toFull tgt ∧ laneRds s n ∧ (demod s n).rds.sync then .next (blocks.foldl (laneBlockIn n) s1)
  else if toFlake tgt ∧ (flake s n).st = .synced then .next (blocks.foldl (flakeBlockIn n) s1)
  else .next s

/-! ## Samples of taps and flakes (R192, R195) -/

/-- The RF centre of the zone's span as a tap sees it, and the tap's NCO word at fs/8 (R148, R192). -/
def tapWord (s : State) (k : Tap) : Nat := ncoWord ((k.freq : Int) - (zone s k.zone).freq) (125 * fsOf s)

/-- 1/ρ of a tap in 2⁻⁴⁶: its resampler runs from fs/64 to 29.184 MS/s (R149, R192). -/
def tapRatio (s : State) : Nat := fsOf s * 2 ^ 46 / (64 * 29184000)

/-- A tap output sample, numbered `q` since the reset, joins the tap's past; every 64th gives each active flake a bin sample. -/
def tapSample (tp : Nat) (s : State) (e : Nat × ZoneSample) : State :=
  let k := tap s tp
  let past := push 1024 e.2 k.out
  let s1 := putTap s tp { k with out := past }
  if e.1 % 64 ≠ 0 ∨ e.1 < 40 then s1
  else s1.setFlurry { s1.flurry with flakes := s1.flurry.flakes.map fun f =>
    if f.2.tap = tp ∧ (f.2.st = .acquiring ∨ f.2.st = .synced) then
      (f.1, f.2.takeBin (byteAt s1.flurry.cfg 12) ((f.2.freq : Int) * 1000 - k.freq) e.1 past)
    else f }

/-- A tap takes in the samples of its zone. -/
def tapTakes (zs : List (Nat × List ZoneSample)) (s : State) (tp : Nat) : State :=
  let k := tap s tp
  if k.on = false ∨ k.paused then s
  else
    let r := k.chain.run tapDesigns tapSpan (tapWord s k) (tapRatio s) (mgetD zs k.zone [])
    r.2.foldl (tapSample tp) (putTap s tp { k with chain := r.1 })

end Sys2Proof.Machine
end

