-- ==== Sys2Proof/Machine/LinkTable.lean ====
section
/-! DEFINITION. Machine/LinkTable.lean: the link table: commands 0x0701–0x0704, entries received by broadcast, and their age
(R258–R261, Table 8-9). -/

namespace Sys2Proof.Machine

def toLinks (t : Nat) : Bool := t == 0x0700

/-- `EV_LINK` of the table (R288). -/
def evLinkTable (s : State) (cause detail : Nat) : State := raise s evLink 0x0700 (cause + 256 * detail)

def LinkEntry.broadcast (e : LinkEntry) : Bool := e.origin != 4

/-- The lowest free index. -/
def freeLink (s : State) : Option Nat := (List.range 256).find? fun i => (mget s.links.entries i).isNone

/-- The broadcast entry received longest ago (R260).
Log: 86 (DEDUCED). -/
def oldestBroadcast (s : State) : Option (Nat × LinkEntry) :=
  (s.links.entries.filter fun e => e.2.broadcast).foldl (fun b e => match b with
    | none => some e
    | some x => if e.2.order < x.2.order then some e else b) none

/-- An entry is stored at an index, with `EV_LINK` cause 0x01. -/
def storeLink (s : State) (i : Nat) (e : LinkEntry) : State :=
  evLinkTable (s.setLinks { s.links with entries := mput s.links.entries i { e with order := s.links.nextOrder },
                                         nextOrder := s.links.nextOrder + 1 }) 1 i

/-- An entry enters the table: at the lowest free index, or in place of the oldest broadcast entry (R260).
Log: 86 (DEDUCED). -/
def addLink (s : State) (e : LinkEntry) : Option (Nat × State) :=
  match freeLink s with
  | some i => some (i, storeLink s i e)
  | none =>
    match oldestBroadcast s with
    | some o => some (o.1, storeLink (evLinkTable s 3 0) o.1 e)
    | none => none

/-- Deadline of `L_AGE`. -/
def linkAge (s : State) : Nat := deadline s (3200 * le s.links.cfg 2 2)

/-- A set number in use. -/
def setUsed (s : State) (k : Nat) : Bool := s.links.entries.any fun e => e.2.set == k

/-- The set of a broadcast key: its own, or the lowest free number (R259). -/
def broadcastSet (s : State) (key : Nat × Bool × Nat) : Option Nat :=
  match s.links.entries.find? fun e => decide (e.2.key = some key) with
  | some e => some e.2.set
  | none => (List.range 64).find? fun k => !setUsed s k

/-- A linkage entry received by broadcast: refreshed, or entered; where the set space is full it takes the place and the
set of the oldest broadcast entry (R259, R260). -/
def receiveEntry (s : State) (eid : Nat) (l : LinkInfo) : State :=
  let key := (l.set, l.ils, eid)
  let same : Nat × LinkEntry → Bool := fun e =>
    decide (e.2.key = some key) && e.2.origin == l.origin.toNat && e.2.std == l.std.toNat && e.2.ident == l.ident.toNat
  let new : Nat → LinkEntry := fun k =>
    { set := k, std := l.std.toNat, origin := l.origin.toNat, ident := l.ident.toNat, freq := l.freq.toNat,
      ecc := l.ecc.toNat, hard := l.hard, active := l.active, ils := l.ils, time := s.sid.now, ageBy := linkAge s,
      order := 0, key := some key }
  match s.links.entries.find? same with
  | some e =>
    s.setLinks { s.links with
      entries := mput s.links.entries e.1 { e.2 with hard := l.hard, active := l.active, time := s.sid.now,
                                                     ageBy := linkAge s, order := s.links.nextOrder }
      nextOrder := s.links.nextOrder + 1 }
  | none =>
    match broadcastSet s key with
    | some k => match addLink s (new k) with
                | some r => r.2
                | none => s
    | none => match oldestBroadcast s with
              | some o => storeLink (evLinkTable s 3 0) o.1 (new o.2.set)
              | none => s

/-- Frequency information: the frequency is added to the entries of the identifier named (R259).
Log: 87 (DEDUCED). -/
def receiveFreq (s : State) (l : LinkInfo) : State :=
  let f : Nat × LinkEntry → Nat × LinkEntry := fun e =>
    if e.2.std = l.std.toNat ∧ e.2.ident = l.ident.toNat then (e.1, { e.2 with freq := l.freq.toNat }) else e
  s.setLinks { s.links with entries := s.links.entries.map f }

/-- One item of linkage received on a lane in Configured, where `COLLECT` takes it (R259). -/
def receiveLink (eid : Nat) (s : State) (l : LinkInfo) : State :=
  match l.origin.toNat with
  | 1 => if bit (byteAt s.links.cfg 0) 0 then receiveEntry s eid l else s
  | 2 => if bit (byteAt s.links.cfg 0) 1 then receiveFreq s l else s
  | 3 => if bit (byteAt s.links.cfg 0) 2 then receiveEntry s eid l else s
  | _ => s

/-- An entry is removed, with `EV_LINK` cause 0x02. -/
def removeLink (s : State) (i : Nat) : State :=
  evLinkTable (s.setLinks { s.links with entries := mdel s.links.entries i }) 2 i

/-- `LINK_ENTRY_AGED` (R260). -/
def execLinkEntryAged (i : Nat) (s : State) : Host.Outcome State Fault Refusal :=
  match mget s.links.entries i with
  | some e => if e.broadcast ∧ expired s e.ageBy then .next (removeLink s i) else .next s
  | none => .next s

/-! ## Commands -/

def linkAddUnit (c : Cmd) (s : State) : Reply :=
  let e : LinkEntry :=
    { set := byteAt c.pl 0, std := byteAt c.pl 1, origin := 4, ident := le c.pl 4 4, freq := le c.pl 8 4,
      ecc := byteAt c.pl 3, hard := bit (byteAt c.pl 2) 0, active := false, ils := false, time := s.sid.now, ageBy := 0,
      order := 0, key := none }
  match addLink s e with
  | some r => okWith (leBytes 4 r.1) r.2
  | none => .deny stNoResource 0

/-- `LINK_ADD` payload (R287). -/
def linkAddSpec : CmdSpec :=
  { op := 0x0701, target := toLinks, len := fun _ => 16, largest := fun _ => 4,
    fields := fun _ => [rng 0 1 0 63, rng 1 1 1 3, wid 2 1 1, rsv 12 4], unit := linkAddUnit }

/-- `LINK_REMOVE` of an entry or a set that is not held is refused (DEDUCED).
Log: 86 (DEDUCED). -/
def linkRemoveUnit (c : Cmd) (s : State) : Reply :=
  let k := byteAt c.pl 0
  let is := if bit (byteAt c.pl 1) 0 then (s.links.entries.filter fun e => e.2.set == k).map (·.1)
            else (s.links.entries.filter fun e => e.1 == k).map (·.1)
  if is.isEmpty then badState else ok (is.foldl removeLink s)

/-- `LINK_REMOVE` payload (R287). -/
def linkRemoveSpec : CmdSpec :=
  { op := 0x0702, target := toLinks, len := fun _ => 4, fields := fun _ => [wid 1 1 1, rsv 2 2], unit := linkRemoveUnit }

/-- One entry (Table 8-9). -/
def linkBytes (e : Nat × LinkEntry) : Bytes :=
  leBytes 1 e.1 ++ leBytes 1 e.2.set ++ leBytes 1 e.2.std ++ leBytes 1 e.2.origin ++ leBytes 4 e.2.ident ++
    leBytes 4 e.2.freq ++ leBytes 1 e.2.ecc ++ leBytes 1 (flag e.2.hard 0 + flag e.2.active 1 + flag e.2.ils 2) ++ zeros 2 ++
    leBytes 8 (whenOf e.2.time).toNat

/-- The `LINK_GET` result (R287). -/
def linkResult (s : State) (first maxEnt : Nat) : Bytes :=
  let es := (s.links.entries.filter fun e => decide (first ≤ e.1)).take maxEnt
  leBytes 2 s.links.entries.length ++ leBytes 1 es.length ++ zeros 13 ++ (es.map linkBytes).flatten

/-- `LINK_GET` payload (R287). -/
def linkGetSpec : CmdSpec :=
  { op := 0x0703, target := toLinks, len := fun _ => 4, largest := fun b => 16 + 24 * byteAt b 1,
    fields := fun _ => [rng 1 1 1 64, rsv 2 2],
    unit := fun c s => okWith (linkResult s (byteAt c.pl 0) (byteAt c.pl 1)) s }

/-- `LINK_CONFIG` payload (R287): in force from the next tick. -/
def linkConfigSpec : CmdSpec :=
  { op := 0x0704, target := toLinks, len := fun _ => 8,
    fields := fun _ => [wid 0 1 3, rsv 1 1, rng 2 2 60 65535, rsv 4 4],
    unit := fun c s => .busy (s.setLinks { s.links with cfgNext := some c.pl }) }

/-- A `LINK_CONFIG` accepted before this tick takes effect (R287). -/
def linksApply (s : State) : State := s.setLinks { s.links with cfg := s.links.cfgNext.getD s.links.cfg, cfgNext := none }

def execLinkAdd (a : Args) (s : State) : Host.Outcome State Fault Refusal := .next (submit linkAddSpec a s)
def execLinkRemove (a : Args) (s : State) : Host.Outcome State Fault Refusal := .next (submit linkRemoveSpec a s)
def execLinkGet (a : Args) (s : State) : Host.Outcome State Fault Refusal := .next (submit linkGetSpec a s)
def execLinkConfig (a : Args) (s : State) : Host.Outcome State Fault Refusal := .next (submit linkConfigSpec a s)

end Sys2Proof.Machine
end

