-- ==== Sys2Proof/Machine/Ofdm.lean ====
section
/-! DEFINITION. Machine/Ofdm.lean: DAB and DRM reception: ensembles, services, records and survey analysis: commands
0x0601–0x0609, 0x0620 and 0x0621 and their occurrences (chapter 07). -/

namespace Sys2Proof.Machine

/-- Full lane `n` has a `USE` of 0x4–0x6. -/
def ofdmUse (s : State) (n : Nat) : Bool := decide (4 ≤ fullUse s n)

def evEns (s : State) (n cause : Nat) : State := raise s evEnsemble (0x0300 + n) cause
def evSvc (s : State) (n cause prog : Nat) : State := raise s evService (0x0300 + n) (cause + 256 * prog)

/-- `ACQ_TICKS` in force (R222). -/
def acqTicks (s : State) (n : Nat) : Nat :=
  let v := le (ofdm s n).cfg 2 2
  if v ≠ 0 then v else match fullUse s n with
    | 5 => 9600
    | 6 => 3200
    | _ => 1600

/-- `SVC_TICKS` in force (Table 7-8). -/
def svcTicks (s : State) (n : Nat) : Nat :=
  let v := le (ofdm s n).cfg 4 2
  if v ≠ 0 then v else if fullUse s n = 5 then 16000 else 6400

/-! ## Services (Table 7-7) -/

/-- The outstanding `SERVICE_START` of a path on a lane. -/
def startOf (s : State) (n prog : Nat) : Option InFlight :=
  findFlight s fun f => decide (f.phase = .executing) && f.begun && f.outcome.isNone && f.cmd.op == 0x0604 &&
    f.cmd.tgt == 0x0300 + n && byteAt f.cmd.pl 5 == prog

/-- The path of a service is released.
Log: 83 (DEDUCED). -/
def dropService (s : State) (prog : Nat) : State := s.setServices (mdel s.services prog)

/-- The service goes Idle: an outstanding `SERVICE_START` completes, else the event of the given cause is posted. -/
def endService (s : State) (n prog status detail : Nat) (cause : Option Nat) : State :=
  let mark := s.ev.nextId
  let s1 := dropService s prog
  match startOf s n prog with
  | some f => complete s1 f status detail [] s1.sid.now mark
  | none => match cause with
            | some k => evSvc s1 n k prog
            | none => s1

/-- A service of lane `n` returns to Waiting; its timer restarts. -/
def toWaiting (s : State) (n : Nat) (v : Service) : Service :=
  { v with st := .waiting, by_ := deadline s (svcTicks s n), info := none, errRun := 0, goodRun := 0 }

/-- Filling, Playing and Muted services of a lane return to Waiting; with `all`, the timers of waiting ones restart too. -/
def waitServices (s : State) (n : Nat) (all : Bool) : State :=
  s.setServices (s.services.map fun e =>
    if e.2.lane = n ∧ (all ∨ e.2.st ≠ .waiting) then (e.1, toWaiting s n e.2) else e)

/-- The description of a service in a configuration. -/
def findService (c : MuxConfig) (sid comp : Nat) : Option ServiceInfo :=
  c.services.find? fun i => i.sid.toNat == sid && i.comp.toNat == comp

/-- Coding of Table 7-4 that the lane's standard carries: Layer II and HE-AAC in DAB, HE-AAC and xHE-AAC in DRM. -/
def codingOk (use kind : Nat) : Bool := if use = 4 then kind == 1 || kind == 2 else kind == 3 || kind == 4

/-- A Waiting service at a frame boundary with the lane Configured (R231, R232). -/
def serveOne (n : Nat) (c : MuxConfig) (s : State) (e : Nat × Service) : State :=
  if e.2.lane ≠ n ∨ e.2.st ≠ .waiting then s
  else
    match findService c e.2.sid e.2.comp with
    | none => s
    | some i =>
      if i.ca then endService s n e.1 stBadState 4 none
      else if codingOk (fullUse s n) i.kind.toNat = false then endService s n e.1 stBadState 3 none
      else s.setServices (mput s.services e.1 { e.2 with st := .filling, info := some i })

/-- The Waiting services of a Configured lane proceed.
Log: 84 (DEDUCED). -/
def serveWaiting (s : State) (n : Nat) : State :=
  match (ofdm s n).st, (ofdm s n).config with
  | .configured, some c => s.services.foldl (serveOne n c) s
  | _, _ => s

/-- The subchannel or stream of a service is unchanged by a reconfiguration (R228). -/
def sameStream (a b : ServiceInfo) : Bool :=
  a.subch == b.subch && a.bitrate == b.bitrate && a.prot == b.prot && a.kind == b.kind

/-- One service of a lane at a reconfiguration (Table 7-7). -/
def reconfOne (n : Nat) (c : Option MuxConfig) (s : State) (e : Nat × Service) : State :=
  if e.2.lane ≠ n ∨ e.2.st = .waiting then s
  else
    match c.bind fun m => findService m e.2.sid e.2.comp, e.2.info with
    | some i, some j =>
      if sameStream i j then s.setServices (mput s.services e.1 { e.2 with info := some i })
      else s.setServices (mput s.services e.1 { e.2 with info := some i, st := .filling, errRun := 0, goodRun := 0 })
    | _, _ => evSvc (s.setServices (mput s.services e.1 (toWaiting s n e.2))) n 2 e.1

/-! ## Ensemble states (Table 7-3) -/

/-- The lane searches: configuration discarded, services waiting. -/
def toSearching (s : State) (n : Nat) (all : Bool) : State :=
  let o := ofdm s n
  let s1 := putOfdm s n { o with st := .searching, acqBy := deadline s (acqTicks s n), acqTold := false, config := none,
                                 next := none, reconf := false, facRun := 0, sdcDone := false,
                                 losses := if o.st = .off then o.losses else sat 32 (o.losses + 1) }
  waitServices s1 n all

/-- The lane enters Running. -/
def ofdmRuns (s : State) (n : Nat) : State :=
  if ofdmUse s n ∧ (ofdm s n).st = .off then toSearching s n false else s

/-- The lane pauses, or resets without a retune: Holdover (R224). -/
def ofdmHolds (s : State) (n : Nat) : State :=
  let o := ofdm s n
  if ofdmUse s n then
    match o.st with
    | .coarse => putOfdm s n { o with st := .holdover 2 }
    | .synced => putOfdm s n { o with st := .holdover 3 }
    | .configured => putOfdm s n { o with st := .holdover 4 }
    | _ => s
  else s

/-- A `LANE_TUNE` without `HITLESS`: the search starts again and the timers of `SVC_TICKS` restart. -/
def ofdmRetunes (s : State) (n : Nat) : State :=
  if ofdmUse s n ∧ (ofdm s n).st ≠ .off then toSearching s n true else s

/-- The lane enters Stopped: services end with `EV_SERVICE` cause 0x07. -/
def ofdmStops (s : State) (n : Nat) : State :=
  if ofdmUse s n then
    let o := ofdm s n
    let s1 := putOfdm s n { o with st := .off, config := none, next := none, reconf := false, facRun := 0, sdcDone := false }
    (s.services.filter fun e => e.2.lane == n).foldl (fun q e => endService q n e.1 stBadState 0 (some 7)) s1
  else s

/-! ## Branches of a transmission frame (R132, R134–R136, R226) -/

/-- SNR of a branch in 0.01 dB: reference less noise, over noise (R134). -/
def branchSnr (b : BranchFrame) : Int := centiDb (b.ref - b.noise) (max 1 b.noise)

/-- The branch selected after a frame: the other one where it exceeds the selected one by `SEL_HYST` (R134). -/
def reselect (l : Lane) (allowed : List Nat) (fr : List BranchFrame) : Nat :=
  let cur := if allowed.contains l.selected then l.selected else allowed.headD 0
  let snr (i : Nat) : Int := branchSnr (fr.getD i ⟨0, 0, []⟩)
  (allowed.find? fun i => i != cur && decide (snr cur + 10 * byteAt l.div 1 < snr i)).getD cur

/-- The branches that give symbol `k`: those that contribute; in preamble selection the other one where the selected one is marked
(R135). -/
def symbolOf (l : Lane) (pick allowed : List Nat) (fr : List BranchFrame) (k : Nat) : List (Nat × SymbolRx) :=
  let get (i : Nat) : Nat × SymbolRx :=
    ((fr.getD i ⟨0, 0, []⟩).noise, (fr.getD i ⟨0, 0, []⟩).symbols.getD k ⟨[], [], true⟩)
  let bs := pick.map get
  if byteAt l.div 0 = 3 ∧ bs.all (·.2.marked) then (allowed.filter fun i => !pick.contains i).map get else bs

/-- A transmission frame: a `DIV_SET` that waits takes effect, the branches' noise and the selection follow, and the symbols are
combined. A new selection applies from the first symbol after the phase reference symbol (DAB) or from the next frame (DRM).
Log: 190 (DEDUCED). -/
def frameIn (s0 : State) (n : Nat) (fr : List BranchFrame) : State :=
  if fr = [] then s0
  else
    let tgt := 0x0300 + n
    let s := divTakes s0 tgt
    let l := lane s tgt
    let dab := decide (l.use = 4)
    let allowed := (List.range l.zones.length).filter fun i =>
      bit (byteAt l.div 2) i && decide ((zone s (l.zones.getD i 0)).st = .running)
    let l1 : Lane := { l with noise := fr.map (·.noise), selected := if byteAt l.div 0 = 3 then reselect l allowed fr else l.selected }
    let used := if dab then l1 else l
    let count := (fr.map (·.symbols.length)).foldl max 0
    putOfdm (putLane s tgt l1) n { ofdm s n with
      cells := (List.range count).map fun k => combineCells dab (symbolOf used (contributes s used) allowed fr k) }

/-! ## Records (R253, R254) -/

/-- One record: header of Table 7-13 and payload, padded to 16 bytes. -/
def recordBytes (source kind fl time seq aux aux2 : Nat) (payload : Bytes) : Bytes :=
  let b := leBytes 2 source ++ leBytes 1 kind ++ leBytes 1 fl ++ leBytes 4 payload.length ++ leBytes 8 time ++
    leBytes 4 seq ++ leBytes 4 aux ++ leBytes 8 aux2 ++ payload
  b ++ zeros ((16 - b.length % 16) % 16)

/-- Whether a ring takes a record of `len` bytes now. -/
def ringTakes (s : State) (n len : Nat) : Bool :=
  match mget s.rings n with
  | some r => !r.halted && !s.pcie.d3 && decide (16 ≤ occupancy r) && (bufferDenied s r).isNone &&
    (decide (r.fill + len ≤ le (descriptor s r 0) 8 4) ||
      (decide (0 < r.fill) && decide (32 ≤ occupancy r) && decide (len ≤ le (descriptor s r 16) 8 4)))
  | none => false

/-- A record of a full lane for ring `ring`; a lost one leaves `GAP` for the next of its kind. -/
def emit (s : State) (n ring kind : Nat) (err : Bool) (t : Sid) (aux aux2 : Nat) (payload : Bytes) : State :=
  let o := ofdm s n
  let seq := mgetD o.recSeq kind 0
  let fl := flag err 0 + flag (o.recGap.contains kind) 1 + flag (decide (s.aur.st = .slewing)) 2 + flag (o.cells.contains []) 3
  let b := recordBytes (0x0300 + n) kind fl (whenOf t).toNat seq aux aux2 payload
  let took := ringTakes s ring b.length
  feedRing (putOfdm s n { o with recSeq := mput o.recSeq kind (seq + 1), record := b,
                                 recGap := if took then o.recGap.filter (· != kind)
                                           else if o.recGap.contains kind then o.recGap else kind :: o.recGap })
    ring b

/-- A record of the FIC stream (R254). -/
def emitFic (s : State) (n kind : Nat) (err : Bool) (t : Sid) (aux : Nat) (raw : Bytes) : State :=
  match (ofdm s n).fic with
  | none => s
  | some (r, opt) =>
    if (err ∧ bit opt 0 = false) ∨ (kind = 2 ∧ bit opt 1 = false) ∨ (kind = 3 ∧ bit opt 2 = false) then s
    else emit s n r kind err t aux 0 raw

/-- A record of the MSC stream that `SUBCH_STREAM` selects (R253, R254). -/
def emitSubch (s : State) (n : Nat) (te : Sid) (u : MscUnit) : State :=
  match (ofdm s n).subch with
  | none => s
  | some (r, sub, opt) =>
    if sub ≠ u.subch ∨ u.kind < 4 ∨ 6 < u.kind ∨ (u.ok = false ∧ bit opt 0 = false) then s
    else emit s n r u.kind (!u.ok) te (if u.kind = 6 then u.subch else u.cif) 0 u.data

/-- A record of the PAD stream for path `prog` (R254). -/
def emitPad (s : State) (n prog kind : Nat) (err : Bool) (t : Sid) (aux aux2 : Nat) (payload : Bytes) : State :=
  match (ofdm s n).pad with
  | none => s
  | some (r, p) => if p = 0xFF ∨ p = prog then emit s n r kind err t aux aux2 payload else s

/-! ## Acquisition (R220–R222) -/

/-- The lane delivers samples and demodulates OFDM. -/
def ofdmLive (s : State) (n : Nat) : Bool := decide (n < 32) && ofdmUse s n && decide ((lane s (0x0300 + n)).st = .running)

/-- The robustness mode may be received (R216). -/
def modeOk (s : State) (n mode : Nat) : Bool :=
  match fullUse s n with
  | 4 => mode == 0
  | 5 => decide (mode < 4) && bit (byteAt (ofdm s n).cfg 6) mode
  | 6 => mode == 4
  | _ => false

/-- Limits of acquisition: carriers of integer offset, and lane samples from the predicted position (R220, R221). -/
def offsetMax (s : State) (n : Nat) : Nat := if fullUse s n = 4 then 40 else 10
def confirmMax (s : State) (n : Nat) : Nat := if fullUse s n = 4 then 8 else 4

/-- `OFDM_NULL_FOUND`: Searching to Coarse, with the integer carrier offset. -/
def execOfdmNullFound (n : Nat) (mode : BitVec 3) (offset : Int) (s : State) : Host.Outcome State Fault Refusal :=
  let o := ofdm s n
  if ofdmLive s n ∧ o.st = .searching ∧ modeOk s n mode.toNat ∧ offset.natAbs ≤ offsetMax s n then
    .next (putOfdm s n { o with st := .coarse, mode := mode.toNat, offset := offset })
  else .next s

/-- `OFDM_CONFIRMATION`: the reference of the next frame is within its limits, with the same integer offset for DAB: Coarse to
Synced, `EV_ENSEMBLE` cause 0x01 (R220, R221). -/
def execOfdmConfirmation (n : Nat) (err offset : Int) (t : Sid) (s : State) : Host.Outcome State Fault Refusal :=
  let o := ofdm s n
  if ofdmLive s n ∧ o.st = .coarse ∧ err.natAbs ≤ confirmMax s n ∧ (fullUse s n ≠ 4 ∨ offset = o.offset) then
    .next (evEns (putOfdm (advance s t) n { o with
      st := .synced, frameTime := t, facRun := 0, facBad := 0, sdcDone := false, fig00 := false, subchs := [] }) n 1)
  else .next s

/-- `OFDM_CONFIRMATION_FAIL`: Coarse to Searching. -/
def execOfdmConfirmationFail (n : Nat) (s : State) : Host.Outcome State Fault Refusal :=
  if ofdmLive s n ∧ (ofdm s n).st = .coarse then .next (toSearching s n false) else .next s

/-- `ACQUISITION_TIMEOUT` (R222): once per search. -/
def execAcquisitionTimeout (n : Nat) (s : State) : Host.Outcome State Fault Refusal :=
  let o := ofdm s n
  if n < 32 ∧ o.st = .searching ∧ o.acqTold = false ∧ expired s o.acqBy then
    .next (evEns (putOfdm s n { o with acqTold := true }) n 5)
  else .next s

/-- The reference is lost: 4 frames for DAB; 3 frames, or 10 FAC blocks with a CRC error, for DRM (Table 7-3). -/
def refLost (s : State) (n missed : Nat) : Bool :=
  if fullUse s n = 4 then decide (4 ≤ missed) else decide (3 ≤ missed) || decide (10 ≤ (ofdm s n).facBad)

/-- `ENSEMBLE_LOST` (Table 7-3). -/
def execEnsembleLost (n missed : Nat) (s : State) : Host.Outcome State Fault Refusal :=
  let o := ofdm s n
  if ofdmLive s n ∧ (o.st = .synced ∨ o.st = .configured) ∧ refLost s n missed then .next (evEns (toSearching s n false) n 4) else .next s

/-- The state that Holdover kept. -/
def heldEns : Nat → EnsState
  | 2 => .coarse
  | 3 => .synced
  | _ => .configured

/-- `HOLDOVER_RESUME` (Table 7-3): the reference is found within ±64 lane samples of its prediction, or not. -/
def execHoldoverResume (n : Nat) (err : Option Int) (s : State) : Host.Outcome State Fault Refusal :=
  let found := (err.map fun e => decide (e.natAbs ≤ 64)).getD false
  if ofdmLive s n then
    match (ofdm s n).st with
    | .holdover k => if found then .next (putOfdm s n { ofdm s n with st := heldEns k })
                     else .next (evEns (toSearching s n false) n 4)
    | _ => .next s
  else .next s

/-! ## Fast information (R227–R229, R241–R244) -/

/-- The configuration is complete: Configured, `EV_ENSEMBLE` cause 0x02. -/
def configures (s : State) (n : Nat) (c : MuxConfig) : State :=
  evEns (putOfdm s n { ofdm s n with st := .configured, config := some c, confTime := s.sid.now }) n 2

/-- Alarm signalling of a FIB (R241, R242): two receptions within 1 s. -/
def fibAlarm (o : Ofdm) (now : Sid) (on : Bool) (sub : Nat) : Ofdm :=
  if on then
    let hit := match o.alarmAt with
      | some (t0, x) => decide (now ≤ t0 + secU) && x == sub
      | none => false
    { o with alarmAt := some (now, sub), clearAt := none, alert := if hit && o.alFlag then some sub else o.alert }
  else
    let hit := match o.clearAt with
      | some t0 => decide (now ≤ t0 + secU)
      | none => false
    { o with clearAt := some now, alert := if hit then none else o.alert }

/-- The number of the lowest flag that is set. -/
def lowestFlag (v : Nat) : Nat := ((List.range 16).find? fun i => bit v i).getD 0

/-- A started service of the lane belongs to a cluster (R244). -/
def clusterStarted (s : State) (n cluster : Nat) : Bool :=
  s.services.any fun e => e.2.lane == n && ((e.2.info.map fun i => i.clusters.contains cluster).getD false)

/-- Announcement switching (R244): `EV_ANNOUNCE` at each start and end. -/
def fibAnnounce (s : State) (n : Nat) (flags cluster : Nat) (other : Bool) : State :=
  let o := ofdm s n
  let known := o.anns.find? fun a => a.1 == cluster && a.2.1 == other
  if bit (byteAt o.cfg 0) 1 = false ∨ cluster = 0xFF ∨ (other = false ∧ clusterStarted s n cluster = false) then s
  else
    match known with
    | none =>
      if flags = 0 then s
      else raise (putOfdm s n { o with anns := (cluster, other, lowestFlag flags) :: o.anns }) evAnnounce (0x0300 + n)
        (lowestFlag flags + 16 + flag other 5 + 256 * cluster)
    | some a =>
      if flags ≠ 0 then s
      else raise (putOfdm s n { o with anns := o.anns.filter fun x => !decide (x = a) }) evAnnounce (0x0300 + n)
        (a.2.2 + flag other 5 + 256 * cluster)

/-- FIG 0/0, and for every service of FIG 0/2 the FIG 0/1 of its subchannel, have been received (R228). -/
def fibComplete (o : Ofdm) (c : MuxConfig) : Bool := o.fig00 && c.services.all fun i => o.subchs.contains i.subch.toNat

/-- An `OFDM_SET` accepted before this frame applies (R252). -/
def ofdmApply (s : State) (n : Nat) : State :=
  match (ofdm s n).cfgNext with
  | some b => putOfdm s n { ofdm s n with cfg := b, cfgNext := none }
  | none => s

/-- A valid FIB: alarm, announcements, configuration, linkage. -/
def fibParsed (s : State) (n : Nat) (f : FibInfo) (t : Sid) : State :=
  let o := ofdm s n
  let o1 : Ofdm := { o with alFlag := f.alFlag.getD o.alFlag, cif := f.cif, frameTime := t, fig00 := o.fig00 || f.fig00
                            subchs := (f.subchs ++ o.subchs).eraseDups }
  let o2 := match f.alarm with
    | some (on, sub) => if bit (byteAt o.cfg 0) 0 then fibAlarm o1 s.sid.now on sub.toNat else o1
    | none => o1
  let o3 : Ofdm := match f.next with
    | some c => { o2 with next := some c, reconf := true, nextCif := f.nextCif }
    | none => o2
  let s1 := putOfdm s n o3
  let s2 := match f.announce with
    | some (fl, cl, other) => fibAnnounce s1 n fl.toNat cl.toNat other
    | none => s1
  let s3 := match f.config with
    | some c => if (ofdm s2 n).st = .synced ∧ fibComplete (ofdm s2 n) c then configures s2 n c
                else if (ofdm s2 n).st = .configured then putOfdm s2 n { ofdm s2 n with config := some c }
                else s2
    | none => s2
  let s4 := if (ofdm s3 n).st = .configured then
      f.links.foldl (receiveLink (((ofdm s3 n).config.map (·.eid.toNat)).getD 0)) s3 else s3
  serveWaiting s4 n

/-- The lane decodes fast information. -/
def fastLive (s : State) (n : Nat) : Bool :=
  ofdmLive s n && (decide ((ofdm s n).st = .synced) || decide ((ofdm s n).st = .configured))

/-- `FIB_DECODED` (R227) of a frame whose frame time is `t`: only a FIB with a valid CRC is parsed.
Log: 84 (DEDUCED). -/
def execFibDecoded (n : Nat) (f : FibInfo) (frame : List BranchFrame) (t : Sid) (s : State) : Host.Outcome State Fault Refusal :=
  if fastLive s n = false ∨ fullUse s n ≠ 4 then .next s
  else
    let s1 := emitFic (frameIn (ofdmApply (advance s t) n) n frame) n 1 (!f.crcOk) t f.cif f.raw
    .next (if f.crcOk then fibParsed s1 n f t else s1)

/-- A valid FAC block (R229, Table 7-3). -/
def facParsed (s : State) (n : Nat) (i : SdcInfo) : State :=
  let o := ofdm s n
  let same := o.mode == i.mode.toNat && o.occupancy == i.occupancy.toNat
  if 0 < o.facRun ∧ same = false then
    let s1 := putOfdm s n { o with st := .synced, mode := i.mode.toNat, occupancy := i.occupancy.toNat, facRun := 1,
                                   sdcDone := false, config := none, next := none, reconf := false }
    evEns (waitServices s1 n false) n 6
  else putOfdm s n { o with mode := i.mode.toNat, occupancy := i.occupancy.toNat, facRun := o.facRun + 1, facBad := 0 }

/-- A valid SDC block (R229). -/
def sdcParsed (s : State) (n : Nat) (i : SdcInfo) : State :=
  let o := ofdm s n
  let o1 : Ofdm := match i.config with
    | some c => { o with config := some c, sdcDone := o.sdcDone || i.complete }
    | none => o
  putOfdm s n (match i.next with
    | some c => { o1 with next := some c, reconf := true }
    | none => o1)

/-- `FAC_SDC_DECODED` (R229) of a frame whose frame time is `t`.
Log: 84 (DEDUCED). -/
def execFacSdcDecoded (n : Nat) (i : SdcInfo) (frame : List BranchFrame) (t : Sid) (s : State) :
    Host.Outcome State Fault Refusal :=
  if fastLive s n = false ∨ fullUse s n = 4 then .next s
  else
    let s0 := emitFic (frameIn (ofdmApply (advance s t) n) n frame) n (if i.isFac then 2 else 3) (!i.crcOk) t 0 i.raw
    if i.crcOk = false then .next (if i.isFac then putOfdm s0 n { ofdm s0 n with facBad := (ofdm s0 n).facBad + 1, facRun := 0 } else s0)
    else
      let s1 := if i.isFac then facParsed s0 n i else sdcParsed s0 n i
      let o := ofdm s1 n
      let s2 := match o.config with
        | some c => if o.st = .synced ∧ o.sdcDone ∧ 2 ≤ o.facRun then configures s1 n c else s1
        | none => s1
      let s3 := putOfdm s2 n { ofdm s2 n with frameTime := t }
      let s4 := if (ofdm s3 n).st = .configured then i.links.foldl (receiveLink 0) s3 else s3
      .next (serveWaiting s4 n)

/-- The occurrence change has come: the CIF count of a DAB lane has reached it (R228). -/
def reconfDue (s : State) (n : Nat) : Bool :=
  fullUse s n != 4 || decide (((ofdm s n).cif + 5000 - (ofdm s n).nextCif) % 5000 < 2500)

/-- `RECONFIGURATION` (Table 7-3): the next configuration takes effect, `EV_ENSEMBLE` cause 0x03. -/
def execReconfiguration (n : Nat) (t : Sid) (s : State) : Host.Outcome State Fault Refusal :=
  let o := ofdm s n
  if n < 32 ∧ ofdmUse s n ∧ o.st = .configured ∧ o.reconf ∧ reconfDue s n then
    let s1 := advance s t
    let c := o.next.orElse fun _ => o.config
    let s2 := evEns (putOfdm s1 n { o with config := c, next := none, reconf := false, confTime := s1.sid.now }) n 3
    .next (serveWaiting (s2.services.foldl (reconfOne n o.next) s2) n)
  else .next s

/-- `DAB_ALERT_END` (R242): 2 s without alarm signalling. -/
def execDabAlertEnd (n : Nat) (sub : BitVec 8) (t : Sid) (s : State) : Host.Outcome State Fault Refusal :=
  let o := ofdm s n
  let s1 := advance s t
  match o.alarmAt with
  | some (t0, _) =>
    if n < 32 ∧ o.alert = some sub.toNat ∧ t0 + 2 * secU ≤ s1.sid.now then
      .next (putOfdm s1 n { o with alert := none, alarmAt := none })
    else .next s
  | none => .next s

/-! ## Service occurrences (R231–R240) -/

/-- `SERVICE_TIMEOUT` (Table 7-7). -/
def execServiceTimeout (n prog : Nat) (s : State) : Host.Outcome State Fault Refusal :=
  match mget s.services prog with
  | some v => if v.lane = n ∧ v.st = .waiting ∧ expired s v.by_ then .next (endService s n prog stBadState 1 (some 5))
              else .next s
  | none => .next s

/-- The first PCM sample of a service: Playing (R231, Table 7-7). -/
def firstPcm (s : State) (n prog : Nat) (v : Service) : State :=
  let mark := s.ev.nextId
  let s1 := s.setServices (mput s.services prog { v with st := .playing, errRun := 0, goodRun := 0, lastPcm := s.sid.now })
  match startOf s n prog with
  | some f => complete s1 f stOk 0 [] s1.sid.now mark
  | none => evSvc s1 n 1 prog

/-- D_dec (Table 7-4). -/
def decodeDelay (v : Service) : Nat :=
  match (v.info.map (·.kind.toNat)).getD 0 with
  | 1 => 12 * secU / 1000
  | 4 => 40 * secU / 1000
  | _ => 25 * secU / 1000

/-- A decoded unit's PCM enters its path; an errored one repeats the frame before it, and a muted path carries silence (R233,
R236). -/
def writePcm (s : State) (prog : Nat) (errored : Bool) (pcm : List (Int × Int)) : State :=
  let p := path s prog
  match mget s.services prog with
  | some v =>
    let out := if errored then p.prev else pcm
    putPath s prog { p with input := p.input ++ (if v.st = .muted then out.map fun _ => (0, 0) else out), prev := out }
  | none => s

/-- A service takes a transport unit at T_e + D_dec (R232, R236, Table 7-7). -/
def takeUnit (n prog : Nat) (errored : Bool) (v : Service) (s1 : State) : State :=
  let put : Service → State := fun x => s1.setServices (mput s1.services prog { x with lastPcm := s1.sid.now })
  match v.st with
  | .waiting => s1
  | .filling => if errored then s1 else firstPcm s1 n prog v
  | .playing =>
    if errored then
      let v1 : Service := { v with errRun := v.errRun + 1, goodRun := 0, concealed := sat 32 (v.concealed + 1) }
      if v.conceal ≤ v1.errRun then evSvc (put { v1 with st := .muted }) n 3 prog else put v1
    else put { v with errRun := 0 }
  | .muted =>
    if errored then put { v with goodRun := 0, concealed := sat 32 (v.concealed + 1) }
    else if 2 ≤ v.goodRun + 1 then evSvc (put { v with st := .playing, errRun := 0, goodRun := 0 }) n 4 prog
    else put { v with goodRun := v.goodRun + 1 }

/-- `TRANSPORT_UNIT_DECODED` (R232, R236, Table 7-7): the unit's record carries T_e, its PCM enters the path at T_e + D_dec. -/
def execTransportUnitDecoded (n prog : Nat) (errored : Bool) (pcm : List (Int × Int)) (unit : Option MscUnit) (te : Sid) (s : State) :
    Host.Outcome State Fault Refusal :=
  if ofdmLive s n = false then .next s
  else
    let s0 := match unit with
      | some u => emitSubch (advance s te) n te u
      | none => advance s te
    match mget s.services prog with
    | none => .next s0
    | some v =>
      if v.lane ≠ n ∨ v.st = .waiting then .next s0
      else .next (writePcm (takeUnit n prog errored v (advance s0 (te + decodeDelay v))) prog errored pcm)

/-- The `SID` of a playing service of lane `n` on path `prog`. -/
def padSid (s : State) (n prog : Nat) : Option Nat :=
  match mget s.services prog with
  | some v => if v.lane = n ∧ (v.st = .playing ∨ v.st = .muted) then some v.sid else none
  | none => none

/-- A label record: character set, length, label, DL Plus tags (R238, R240). -/
def labelPayload (charset : Byte) (label tags : Bytes) : Bytes :=
  charset :: leBytes 1 (min 128 label.length) ++ label.take 128 ++ tags

/-- `DYNAMIC_LABEL` (R238). -/
def execDynamicLabel (n prog : Nat) (charset : Byte) (label tags : Bytes) (t : Sid) (s : State) :
    Host.Outcome State Fault Refusal :=
  match padSid s n prog with
  | some sid => if fullUse s n = 4 then .next (emitPad (advance s t) n prog 0x10 false t sid 0 (labelPayload charset label tags))
                else .next s
  | none => .next s

/-- `DRM_TEXT_MESSAGE` (R240). -/
def execDrmTextMessage (n prog : Nat) (charset : Byte) (label : Bytes) (t : Sid) (s : State) :
    Host.Outcome State Fault Refusal :=
  match padSid s n prog with
  | some sid => if fullUse s n = 5 ∨ fullUse s n = 6 then
      .next (emitPad (advance s t) n prog 0x12 false t sid 0 (labelPayload charset label [])) else .next s
  | none => .next s

/-- A MOT object, delivered or, with `ERR` and no payload, discarded (R239). -/
def emitMot (s : State) (n prog sid : Nat) (tid : BitVec 16) (t : Sid) (object : Option (Bytes × Bytes)) : State :=
  match object with
  | some (h, b) => emitPad s n prog 0x11 false t h.length (tid.toNat + sid * 2 ^ 32) (h ++ b)
  | none => emitPad s n prog 0x11 true t 0 (tid.toNat + sid * 2 ^ 32) []

/-- `MOT_OBJECT` (R239): one too large, or complete more than 30 s after its first data group, is discarded. -/
def execMotObject (n prog : Nat) (header body : Bytes) (tid : BitVec 16) (first t : Sid) (s : State) :
    Host.Outcome State Fault Refusal :=
  match padSid s n prog with
  | some sid =>
    let keep := decide (header.length ≤ 4096) && decide (body.length ≤ 262144) && decide (t ≤ first + 30 * secU)
    if fullUse s n = 4 then .next (emitMot (advance s t) n prog sid tid t (if keep then some (header, body) else none))
    else .next s
  | none => .next s

/-- `MOT_TIMEOUT` (R239): 30 s after its first data group. -/
def execMotTimeout (n prog : Nat) (tid : BitVec 16) (first t : Sid) (s : State) : Host.Outcome State Fault Refusal :=
  match padSid s n prog with
  | some sid => if fullUse s n = 4 ∧ first + 30 * secU ≤ t then .next (emitMot (advance s t) n prog sid tid t none) else .next s
  | none => .next s

/-- Length of a transmission frame of full lane `n` (Tables 7-1 and 7-2). -/
def frameLen (s : State) (n : Nat) : Nat :=
  match fullUse s n with
  | 4 => 96 * secU / 1000
  | 5 => 400 * secU / 1000
  | _ => 100 * secU / 1000

/-- LEVEL of a window and its marks (R129, R130, R122): of a DRM lane from its samples; of a DAB lane the null symbols are left
out, which the measurement knows.
Log: 189 (DEDUCED). -/
def ofdmMarks (s : State) (n : Nat) (m : OfdmMeasures) : OfdmMeasures :=
  let l := lane s (0x0300 + n)
  let conv := l.zones.headD 0 / 8
  let lvl := if fullUse s n = 4 then none else levelOf (ant s conv) (l.freq / 1000000) l.window (byteAt l.cfg 3)
  { m with level := lvl.getD m.level, uncal := m.uncal || uncalibrated s conv, invalid := m.invalid || levelInvalid l.window
           slew := m.slew || slewOverlaps s (s.sid.now - byteAt (ofdm s n).cfg 1 * frameLen s n)
           erased := m.erased || (ofdm s n).cells.contains [] }

/-- `OFDM_WINDOW_END` (R245, R246): a window holds `MEAS_FRAMES` frames.
Log: 189 (DEDUCED). -/
def execOfdmWindowEnd (n : Nat) (m : OfdmMeasures) (ms : List (Nat × ServiceMeasures)) (t : Sid) (s : State) :
    Host.Outcome State Fault Refusal :=
  let s1 := advance s t
  if ofdmLive s n = false ∨ s1.sid.now < (ofdm s n).mTime + (2 * byteAt (ofdm s n).cfg 1 - 1) * frameLen s n / 2 then .next s
  else
    let f : Nat × Service → Nat × Service := fun e =>
      match mget ms e.1 with
      | some x => if e.2.lane = n then (e.1, { e.2 with meas := some x }) else e
      | none => e
    let s2 := putLane (putOfdm s1 n { ofdm s1 n with meas := some (ofdmMarks s1 n m), mTime := s1.sid.now }) (0x0300 + n)
      { lane s1 (0x0300 + n) with window := LevelWindow.reset }
    .next (s2.setServices (s2.services.map f))

/-! ## Commands of full lanes -/

/-- `OFDM_SET` (R252): from the next frame; at once where no frames are received.
Log: 82 (DEDUCED). -/
def ofdmSetUnit (c : Cmd) (s : State) : Reply :=
  if ofdmUse s c.inst = false ∨ (laneDesignated s c.inst ∧ bit (byteAt c.pl 0) 0 = false) then badState
  else if fullUse s c.inst = 5 ∧ byteAt c.pl 6 = 0 then badParam 6
  else if fastLive s c.inst then ok (putOfdm s c.inst { ofdm s c.inst with cfgNext := some c.pl })
  else ok (putOfdm s c.inst { ofdm s c.inst with cfg := c.pl, cfgNext := none })

/-- Table 7-8, `OFDM_SET`. -/
def ofdmSetSpec : CmdSpec :=
  { op := 0x0601, target := toFull, len := fun _ => 8,
    fields := fun _ => [wid 0 1 2, rng 1 1 1 64, fld 2 2 fun v => v == 0 || decide (320 ≤ v),
      fld 4 2 fun v => v == 0 || decide (320 ≤ v), wid 6 1 4, rsv 7 1],
    hold := holdLane, unit := ofdmSetUnit }

def ensCode : EnsState → Nat
  | .off => 0
  | .searching => 1
  | .coarse => 2
  | .synced => 3
  | .configured => 4
  | .holdover _ => 5

/-- The `ENSEMBLE_GET` result (Table 7-9). -/
def ensembleResult (s : State) (n : Nat) : Bytes :=
  let o := ofdm s n
  let dab := fullUse s n == 4
  let c : MuxConfig := o.config.getD { eid := 0, label := [], nSubch := 0, services := [] }
  leBytes 1 (ensCode o.st) ++ leBytes 1 (fullUse s n) ++ leBytes 1 (if dab then 0 else o.mode + 16 * o.occupancy) ++
    leBytes 1 (flag o.alFlag 0 + flag o.reconf 1 + flag o.alert.isSome 2) ++ leBytes 2 (if dab then c.eid.toNat else 0) ++
    leBytes 2 o.cif ++ leBytes 1 c.services.length ++ leBytes 1 c.nSubch ++ zeros 2 ++
    fit 16 (if dab then c.label else []) ++ leBytes 8 (whenOf o.frameTime).toNat ++ leBytes 4 o.losses ++
    leBytes 8 (whenOf o.confTime).toNat

/-- A unit rule of R252: another `USE` is refused. -/
def ofdmOnly (f : Cmd → State → Reply) (c : Cmd) (s : State) : Reply := if ofdmUse s c.inst then f c s else badState

/-- Table 7-9, `ENSEMBLE_GET`. -/
def ensembleGetSpec : CmdSpec :=
  { op := 0x0602, target := toFull, len := fun _ => 0, largest := fun _ => 48,
    unit := ofdmOnly fun c s => okWith (ensembleResult s c.inst) s }

/-- The path on which a service of the lane plays. -/
def playingOn (s : State) (n : Nat) (i : ServiceInfo) : Nat :=
  ((s.services.find? fun e => e.2.lane == n && e.2.sid == i.sid.toNat && e.2.comp == i.comp.toNat).map (·.1)).getD 0xFF

/-- One service list entry (Table 7-10). -/
def serviceEntry (s : State) (n : Nat) (i : ServiceInfo) : Bytes :=
  leBytes 4 i.sid.toNat ++ [i.comp, i.kind, i.subch] ++ leBytes 1 (playingOn s n i) ++ leBytes 2 i.bitrate.toNat ++
    [i.prot] ++ leBytes 1 (flag i.ca 0 + flag i.announce 1) ++ fit 16 i.label ++ zeros 4

/-- The `SERVICE_LIST_GET` result. -/
def serviceListResult (s : State) (n first maxEnt : Nat) : Bytes :=
  let o := ofdm s n
  let all := (o.config.map (·.services)).getD []
  let es := (all.drop first).take maxEnt
  leBytes 1 all.length ++ leBytes 1 es.length ++ zeros 6 ++ leBytes 8 (whenOf o.confTime).toNat ++
    (es.map (serviceEntry s n)).flatten

/-- `SERVICE_LIST_GET` payload (chapter 07). -/
def serviceListGetSpec : CmdSpec :=
  { op := 0x0603, target := toFull, len := fun _ => 4, largest := fun b => 16 + 32 * byteAt b 1,
    fields := fun _ => [rng 1 1 1 64, rsv 2 2],
    unit := ofdmOnly fun c s => okWith (serviceListResult s c.inst (byteAt c.pl 0) (byteAt c.pl 1)) s }

/-- `SERVICE_START` (R231). -/
def serviceStartUnit (c : Cmd) (s : State) : Reply :=
  let n := c.inst
  let p := byteAt c.pl 5
  if progTaken s p 32 then .deny stBadState 5
  else if s.services.any fun e => e.2.lane == n && e.2.sid == le c.pl 0 4 then .deny stBadState 6
  else .busy (s.setServices (mput s.services p
    { lane := n, sid := le c.pl 0 4, comp := byteAt c.pl 4, conceal := byteAt c.pl 6, st := .waiting,
      by_ := deadline s (svcTicks s n), info := none, errRun := 0, goodRun := 0, concealed := 0, meas := none,
      lastPcm := 0 }))

/-- Table 7-11, `SERVICE_START`. -/
def serviceStartSpec : CmdSpec :=
  { op := 0x0604, target := toFull, len := fun _ => 12,
    fields := fun _ => [rng 5 1 0 23, rng 6 1 1 50, rsv 7 5], unit := ofdmOnly serviceStartUnit }

/-- `SERVICE_STOP` (Table 7-7); a `SERVICE_START` that is still outstanding completes with `ST_ABORTED_HOST` (DEDUCED).
Log: 83 (DEDUCED). -/
def serviceStopUnit (c : Cmd) (s : State) : Reply :=
  let p := byteAt c.pl 0
  match mget s.services p with
  | some v => if v.lane = c.inst then .later stOk 0 [] (endService s c.inst p stAbortedHost 0 none) else badState
  | none => badState

/-- `SERVICE_STOP` payload (chapter 07); held for `BRK_PROG` and named sources (R395). -/
def serviceStopSpec : CmdSpec :=
  { op := 0x0605, target := toFull, len := fun _ => 4, fields := fun _ => [rsv 1 3],
    hold := fun s c => safetyOn s && pathNamed s (byteAt c.pl 0), unit := ofdmOnly serviceStopUnit }

def svcCode : SvcState → Nat
  | .waiting => 1
  | .filling => 2
  | .playing => 3
  | .muted => 4

/-- The `OFDM_QUALITY_GET` result (chapter 07, R252). -/
def ofdmQualityResult (s : State) (n prog : Nat) : Bytes :=
  let o := ofdm s n
  let m : OfdmMeasures := o.meas.getD
    { level := 0, offset := 0, snr := 0, mer := 0, merFast := 0, wmer := 0, fastBer := 0, fastErr := 0, spread := 0,
      doppler := 0, uncal := false, invalid := false, slew := false, erased := false }
  let v := (mget s.services prog).filter fun x => x.lane == n
  let sm : ServiceMeasures := (v.bind (·.meas)).getD { mscBer := 0, auErr := 0, rsFixed := 0 }
  leBytes 1 (ensCode o.st) ++ leBytes 1 (flag m.uncal 0 + flag m.invalid 1 + flag m.slew 2 + flag m.erased 3) ++
    sleBytes 2 m.level ++ sleBytes 4 m.offset ++ sleBytes 2 m.snr ++ leBytes 2 m.mer ++ leBytes 2 m.merFast ++
    leBytes 2 m.wmer ++ leBytes 4 m.fastBer ++ leBytes 2 m.fastErr ++ leBytes 2 m.spread ++ leBytes 2 m.doppler ++
    leBytes 1 (if prog = 0xFF then 0xFF else (v.map fun x => svcCode x.st).getD 0) ++
    leBytes 1 (((v.bind (·.info)).map (·.kind.toNat)).getD 0) ++ leBytes 4 sm.mscBer ++ leBytes 2 sm.auErr ++
    leBytes 2 sm.rsFixed ++ leBytes 4 ((v.map (·.concealed)).getD 0) ++ leBytes 8 (whenOf o.mTime).toNat

/-- `OFDM_QUALITY_GET` payload (chapter 07). -/
def ofdmQualityGetSpec : CmdSpec :=
  { op := 0x0606, target := toFull, len := fun _ => 4, largest := fun _ => 48,
    fields := fun _ => [progFld 0, rsv 1 3],
    unit := ofdmOnly fun c s => okWith (ofdmQualityResult s c.inst (byteAt c.pl 0)) s }

/-- A ring that carries something other than the records of this chapter. -/
def notForRecords (s : State) (n : Nat) : Bool := laneRingUsed s n || rdsRingUsed s n || sapRingUsed s n

/-- One of the three stream commands: the new binding is stored, the old ring let go (R254). -/
def recStream (kinds : List Nat) (mark_ : Bind) (old : Ofdm → Option Nat) (set : Ofdm → Bool → Ofdm) (c : Cmd) (s : State) :
    Reply :=
  let n := byteAt c.pl 0
  let o := ofdm s c.inst
  let s1 := putOfdm s c.inst { set o (n != 0xFF) with
    recSeq := o.recSeq.filter fun e => !kinds.contains e.1, recGap := o.recGap.filter fun k => !kinds.contains k }
  let s2 := match old o with
    | some k => freeRing s1 k
    | none => s1
  if n = 0xFF then ok s2
  else
    match ringDenied s n 0 .streamOut (notForRecords s n) with
    | some r => r
    | none => ok (markRing s2 n mark_)

/-- `FIC_STREAM` (R254). -/
def ficStreamSpec : CmdSpec :=
  { op := 0x0607, target := toFull, len := fun _ => 4, fields := fun _ => [wid 1 1 3, rsv 2 2],
    unit := ofdmOnly fun c s => recStream [1, 2, 3] (.fic c.inst) (fun o => o.fic.map (·.1))
      (fun o b => { o with fic := if b then some (byteAt c.pl 0, byteAt c.pl 1) else none }) c s }

/-- `PAD_STREAM` (R254). -/
def padStreamSpec : CmdSpec :=
  { op := 0x0608, target := toFull, len := fun _ => 4, fields := fun _ => [progFld 1, rsv 2 2],
    unit := ofdmOnly fun c s => recStream [0x10, 0x11, 0x12] (.pad (byteAt c.pl 1)) (fun o => o.pad.map (·.1))
      (fun o b => { o with pad := if b then some (byteAt c.pl 0, byteAt c.pl 1) else none }) c s }

/-- `SUBCH_STREAM` (R254). -/
def subchStreamSpec : CmdSpec :=
  { op := 0x0609, target := toFull, len := fun _ => 4, fields := fun _ => [wid 2 1 1, rsv 3 1],
    unit := ofdmOnly fun c s => recStream [4, 5, 6] (.subch c.inst) (fun o => o.subch.map (·.1))
      (fun o b => { o with subch := if b then some (byteAt c.pl 0, byteAt c.pl 1, byteAt c.pl 2) else none }) c s }

/-! ## Survey analysis (R247–R251) -/

/-- `OUT_RATE` suits the kind of analysis (R247). -/
def surveyRateOk (kind rate : Nat) : Bool :=
  match kind with
  | 2 => rate == 2048000
  | 3 => rate == 48000 || rate == 192000
  | _ => true

/-- `S_TICKS` is at least the duration of `AVG_N` half-overlapped blocks. -/
def surveyTicksOk (b : Bytes) (rate : Nat) : Bool :=
  decide (2 ^ byteAt b 2 * (le b 4 2 + 1) * 1600 ≤ le b 6 2 * rate)

/-- `SURVEY_SET` (R247): an Idle lane has no `OUT_RATE` and is refused (DEDUCED).
Log: 85 (DEDUCED). -/
def surveySetUnit (c : Cmd) (s : State) : Reply :=
  let n := c.inst
  let old := byteAt (survey s n).cfg 1
  let ring := byteAt c.pl 1
  let off := byteAt c.pl 0 == 0
  let rate := (lane s c.tgt).outRate
  let s1 := putSurvey s n { Survey.reset with cfg := if off then splice c.pl 1 [0xFF] else c.pl
                                              nextBy := deadline s (le c.pl 6 2), tiiEnd := s.sid.now }
  let s2 := if byteAt (survey s n).cfg 0 ≠ 0 ∧ old ≠ 0xFF then freeRing s1 old else s1
  if off then ok s2
  else if (lane s c.tgt).st = .idle ∨ surveyRateOk (byteAt c.pl 0) rate = false then badState
  else if byteAt c.pl 0 = 1 ∧ surveyTicksOk c.pl rate = false then badParam 6
  else if ring = 0xFF then .later stOk 0 [] s2
  else
    match ringDenied s ring 1 .streamOut (notForRecords s ring) with
    | some r => r
    | none => .later stOk 0 [] (markRing s2 ring (.survey n))

def surveyOn (b : Bytes) : Bool := byteAt b 0 != 0

/-- Table 7-14, `SURVEY_SET`; with `S_KIND` 0x0 the other fields are not used (DEDUCED).
Log: 85 (DEDUCED). -/
def surveySetSpec : CmdSpec :=
  { op := 0x0620, target := toSurvey, len := fun _ => 16,
    fields := fun _ => [rng 0 1 0 3, whenFld surveyOn (rng 2 1 10 16), whenFld surveyOn (rng 3 1 0 2),
      whenFld surveyOn (rng 4 2 1 4096), whenFld surveyOn (rng 6 2 1 65535), whenFld surveyOn (rng 8 1 1 64),
      wid 9 1 2, whenFld surveyOn (rng 10 2 50 400), rsv 12 4],
    unit := surveySetUnit }

/-- One entry of Table 7-12; `first` is the arrival of entry 0. -/
def tiiBytes (e : TiiEntry) : Bytes :=
  [e.main, e.sub, e.flags, e.frames] ++ sleBytes 2 e.level ++ sleBytes 2 e.snr ++ leBytes 8 e.arrSec ++
    leBytes 4 e.arrNs ++ leBytes 2 e.arrFr ++ leBytes 2 e.sigma ++ sleBytes 4 e.delay ++ zeros 4

/-- `TII_GET`: without a completed analysis it is refused. -/
def tiiGetUnit (c : Cmd) (s : State) : Reply :=
  match (survey s c.inst).tii with
  | none => badState
  | some es =>
    let shown := es.take (byteAt c.pl 0)
    okWith (leBytes 1 es.length ++ leBytes 1 shown.length ++ zeros 6 ++ leBytes 8 (whenOf (survey s c.inst).tiiEnd).toNat ++
      (shown.map tiiBytes).flatten) s

/-- `TII_GET` payload (chapter 07). -/
def tiiGetSpec : CmdSpec :=
  { op := 0x0621, target := toSurvey, len := fun _ => 4, largest := fun b => 16 + 32 * byteAt b 0,
    fields := fun _ => [rng 0 1 1 32, rsv 1 3], unit := tiiGetUnit }

/-- A record of a survey lane (R253). -/
def emitSurvey (s : State) (n kind : Nat) (t : Sid) (aux aux2 : Nat) (payload : Bytes) : State :=
  let v := survey s n
  let seq := mgetD v.recSeq kind 0
  let ring := byteAt v.cfg 1
  let fl := flag (v.recGap.contains kind) 1 + flag (decide (s.aur.st = .slewing)) 2
  let b := recordBytes (0x0400 + n) kind fl (whenOf t).toNat seq aux aux2 payload
  if ring = 0xFF then s
  else
    let took := ringTakes s ring b.length
    feedRing (putSurvey s n { v with recSeq := mput v.recSeq kind (seq + 1), record := b,
                                     recGap := if took then v.recGap.filter (· != kind)
                                               else if v.recGap.contains kind then v.recGap else kind :: v.recGap })
      ring b

/-- The survey lane runs an analysis of one of these kinds. -/
def surveyRuns (s : State) (n : Nat) (kinds : List Nat) : Bool :=
  decide (n < 8) && decide ((lane s (0x0400 + n)).st = .running) && kinds.contains (byteAt (survey s n).cfg 0)

/-- Blocks of bin powers into one (R248): the power average, the peak or the minimum of each bin. -/
def averageBins (mode : Nat) (blocks : List (List Nat)) (k : Nat) : Nat :=
  let xs := blocks.map fun b => b.getD k 0
  match mode with
  | 0 => xs.sum / max 1 xs.length
  | 1 => xs.foldl max 0
  | _ => xs.foldl min (xs.headD 0)

/-- The central 3N/4 bins of a spectrum in 0.01 dBm (R248). -/
def spectrumBins (s : State) (n : Nat) (blocks : List (List Nat)) : List Int :=
  let cfg := (survey s n).cfg
  let len : Nat := 2 ^ byteAt cfg 2
  let l := lane s (0x0400 + n)
  let a := ant s (l.zones.headD 0 / 8)
  (List.range (3 * len / 4)).map fun (i : Nat) =>
    let khz := ((l.freq : Int) / 1000000 + ((i : Int) - ((3 * len / 8 : Nat) : Int)) * l.outRate / len / 1000).toNat
    centiDb (averageBins (byteAt cfg 3) (blocks.take (le cfg 4 2)) (len / 8 + i)) (2 ^ 32) - 100 * byteAt l.cfg 3 - compDb a khz +
      fullScale a.g + calAt a khz a.g

/-- `SPECTRUM_RECORD` (R248): every `S_TICKS`; `t` is the first sample of the first block. -/
def execSpectrumRecord (n : Nat) (blocks : List (List Nat)) (t : Sid) (s : State) :
    Host.Outcome State Fault Refusal :=
  let v := survey s n
  let l := lane s (0x0400 + n)
  if surveyRuns s n [1] ∧ expired s v.nextBy then
    let s1 := putSurvey (advance s t) n { v with nextBy := v.nextBy + le v.cfg 6 2 }
    .next (emitSurvey s1 n 0x20 t (2 ^ byteAt v.cfg 2) ((l.freq : Int) - 375 * l.outRate).toNat
      (((spectrumBins s n blocks).map (sleBytes 2)).flatten))
  else .next s

/-- Taps scaled so that Σ |h|² = 2²⁸ (R249). -/
def scaleTaps (taps : List Cx) : List Cx :=
  let p := (taps.map Cx.normSq).sum.sqrt
  taps.map fun h => (Cx.scale (2 ^ 14) h).div (max 1 p)

/-- `IMPULSE_RESPONSE_RECORD` (R249): tap 0 of DAB is 256 taps before the FFT window. -/
def execImpulseResponseRecord (n : Nat) (taps : List Cx) (t : Sid) (s : State) : Host.Outcome State Fault Refusal :=
  if surveyRuns s n [2, 3] ∧ bit (byteAt (survey s n).cfg 9) 0 then
    let t0 := if byteAt (survey s n).cfg 0 = 2 then t - 125000 * 65536 else t
    .next (emitSurvey (advance s t) n 0x21 t0 0 0 (((scaleTaps taps).map fun h => sleBytes 2 h.re ++ sleBytes 2 h.im).flatten))
  else .next s

/-- The combs that are transmitters, by decreasing level, at most 32 (R250). -/
def tiiDetected (thresh : Nat) (cs : List TiiComb) : List TiiComb :=
  ((cs.filter fun c => decide ((thresh : Int) ≤ c.above) && decide (c.main.toNat < 70) && decide (c.sub.toNat < 24)).mergeSort
    fun a b => decide (b.level ≤ a.level)).take 32

/-- a_t = t_w − T_g + τ_t, with T_g = 246 093.75 ns (R251). -/
def tiiArrival (window : Sid) (c : TiiComb) : Int := (window : Int) - 16128000000 + c.tau.getD 0

/-- The entry of a transmitter (Table 7-12); `first` is the arrival of entry 0. -/
def tiiEntryOf (frames : Nat) (window : Sid) (first : Int) (c : TiiComb) : TiiEntry :=
  let a := (tiiArrival window c).toNat
  { main := c.main, sub := c.sub
    flags := BitVec.ofNat 8 (flag c.tau.isSome 0 + flag (decide (c.snr < 200)) 1 + flag (!c.peak) 2)
    frames := BitVec.ofNat 8 frames, level := c.level, snr := c.snr, arrSec := a / secU, arrNs := a % secU / 65536
    arrFr := a % 65536, sigma := c.sigma, delay := (tiiArrival window c - first) / 256 }

/-- `TII_AVERAGE_COMPLETE` (R250, R251): after `TII_FRAMES` frames. -/
def execTiiAverageComplete (n : Nat) (combs : List TiiComb) (window t : Sid) (s : State) : Host.Outcome State Fault Refusal :=
  let v := survey s n
  let frames := byteAt v.cfg 8
  let s1 := advance s t
  if surveyRuns s n [2] ∧ v.tiiEnd + (2 * frames - 1) * (48 * secU / 1000) ≤ s1.sid.now then
    let ds := tiiDetected (le v.cfg 10 2) combs
    let es := ds.map (tiiEntryOf frames window ((ds.head?.map (tiiArrival window)).getD 0))
    let s2 := putSurvey s1 n { v with tii := some es, tiiEnd := s1.sid.now }
    .next (if bit (byteAt v.cfg 9) 1 then emitSurvey s2 n 0x22 s1.sid.now es.length 0 ((es.map tiiBytes).flatten) else s2)
  else .next s

/-- A survey lane leaves Running: the analysis restarts from an empty average (R247). -/
def surveyStops (s : State) (n : Nat) : State := putSurvey s n { survey s n with tii := none, tiiEnd := s.sid.now }

def execOfdmSet (a : Args) (s : State) : Host.Outcome State Fault Refusal := .next (submit ofdmSetSpec a s)
def execEnsembleGet (a : Args) (s : State) : Host.Outcome State Fault Refusal := .next (submit ensembleGetSpec a s)
def execServiceListGet (a : Args) (s : State) : Host.Outcome State Fault Refusal := .next (submit serviceListGetSpec a s)
def execServiceStart (a : Args) (s : State) : Host.Outcome State Fault Refusal := .next (submit serviceStartSpec a s)
def execServiceStop (a : Args) (s : State) : Host.Outcome State Fault Refusal := .next (submit serviceStopSpec a s)
def execOfdmQualityGet (a : Args) (s : State) : Host.Outcome State Fault Refusal := .next (submit ofdmQualityGetSpec a s)
def execFicStream (a : Args) (s : State) : Host.Outcome State Fault Refusal := .next (submit ficStreamSpec a s)
def execPadStream (a : Args) (s : State) : Host.Outcome State Fault Refusal := .next (submit padStreamSpec a s)
def execSubchStream (a : Args) (s : State) : Host.Outcome State Fault Refusal := .next (submit subchStreamSpec a s)
def execSurveySet (a : Args) (s : State) : Host.Outcome State Fault Refusal := .next (submit surveySetSpec a s)
def execTiiGet (a : Args) (s : State) : Host.Outcome State Fault Refusal := .next (submit tiiGetSpec a s)

end Sys2Proof.Machine
end

