-- ==== Sys2Proof/Machine/Lanes.lean ====
section
/-! DEFINITION. Machine/Lanes.lean: zones and lanes: commands 0x0401–0x0409, `RF_CAL` and `DIV_SET`, and their occurrences
(chapters 04 and 05). -/

namespace Sys2Proof.Machine

/-! ## Rates and settling (R143, R148–R152, R158) -/

/-- The stage count of an output rate: ρ = `out` · 2^(n+3) / fs lies in [0.5, 1.0) (R147, R149).
Log: 164 (DEDUCED). -/
def stageCount (out fs : Nat) (isSurvey : Bool) : Option Nat :=
  (List.range 15).find? fun n =>
    decide ((if isSurvey then 2 else 1) ≤ n) && decide (fs ≤ out * 2 ^ (n + 4)) && decide (out * 2 ^ (n + 3) < fs)

/-- The fixed output rate of a demodulating use (Table 5-4). -/
def useRate (use : Nat) : Nat :=
  match use with
  | 2 => 16000
  | 3 => 256000
  | 4 => 2048000
  | 5 => 48000
  | 6 => 192000
  | _ => 0

/-- The output rate that a `LANE_SET` payload asks for. -/
def askedRate (b : Bytes) : Nat :=
  let r := le b 8 4
  if r = 0 ∧ 2 ≤ byteAt b 0 then useRate (byteAt b 0) else r

/-- Settle count of the half-band chain (Table 5-7). -/
def settleHb (n : Nat) (withZone : Bool) : Nat :=
  match n with
  | 1 => if withZone then 49 else 31
  | 2 => if withZone then 44 else 35
  | 3 => if withZone then 41 else 37
  | 4 => if withZone then 40 else 38
  | _ => if withZone then 39 else 38

/-- S = ⌈ρ · (S_hb + 31)⌉ (R158). -/
def settleCount (fs out n : Nat) (withZone : Bool) : Nat := (out * 2 ^ (n + 3) * (settleHb n withZone + 31) + fs - 1) / fs

/-- D_f in zone output samples (R154). -/
def groupDelay (n : Nat) : Nat := 69 * 2 ^ (n - 1) - 7

/-- 1/ρ in 2⁻⁴⁶ (R149). -/
def invRatio (s : State) (l : Lane) : Nat := fsOf s * 2 ^ 46 / (max 1 l.outRate * 2 ^ (l.stages + 3))

/-- The present deviation of the converter clock in 10⁻¹²: output rates follow it (R150). -/
def rateDev (s : State) : Int := (loopOf s 0).dev

/-- `q` output sample periods (R150). -/
def periods (s : State) (out q : Nat) : Sid := q * secU * 10 ^ 12 / (max 1 out * (10 ^ 12 + rateDev s).toNat)

/-- D_f as a time, at the rate in force (R154, R155). -/
def delayTime (s : State) (l : Lane) : Sid := groupDelay l.stages * 8 * secU / fsOf s

/-- The timestamp of output sample `q` after a reset at `t0` (R160). -/
def sampleTime (s : State) (l : Lane) (q : Nat) : Sid := l.resetAt + periods s l.outRate q - delayTime s l

/-- The number of output samples since the reset whose timestamps lie before `t`. -/
def samplesBy (s : State) (l : Lane) (t : Sid) : Nat :=
  ((t + delayTime s l - l.resetAt) * (max 1 l.outRate * (10 ^ 12 + rateDev s).toNat) + secU * 10 ^ 12 - 1) / (secU * 10 ^ 12)

/-- The timestamp that the next sample would have (R173). -/
def nextStamp (s : State) (l : Lane) : Sid := sampleTime s l (samplesBy s l s.sid.now)

/-- The first delivered sample after the last reset (R159). -/
def firstDelivered (s : State) (l : Lane) : Sid := sampleTime s l (if l.showSettle then 0 else l.settleLast)

/-- R169: the passband lies in the span of the zones and above 0 Hz, and the frequency in the tuning range; mHz.
Log: 67 (DEDUCED). -/
def tuneOk (freq zoneFreq out : Nat) : Bool :=
  decide (10 * ((freq : Int) - zoneFreq).natAbs + 4000 * out ≤ 1600000000000) && decide (4000 * out < 10 * freq) &&
    decide (144000000 ≤ freq) && decide (freq ≤ 1492000000000)

/-- The centre of the zones of a lane. -/
def zoneCentre (s : State) (l : Lane) : Nat := match l.zones with
  | z :: _ => (zone s z).freq
  | [] => 0

/-! ## Lane commands under way -/

/-- The commands whose effect comes at a lane's point of effect (R164). -/
def laneOp (op : Nat) : Bool := op == 0x0404 || op == 0x0405 || op == 0x0406 || op == 0x0407

/-- A lane command that is Executing, `applied` or not yet. -/
def laneCmd (tgt : Nat) (applied : Bool) (f : InFlight) : Bool :=
  decide (f.phase = .executing) && f.begun && laneOp f.cmd.op && f.cmd.tgt == tgt && f.outcome.isSome == applied

/-- Its effect has come; it completes with the first delivered sample. -/
def markApplied (s : State) (f : InFlight) : State := putFlight s { f with outcome := some ⟨stOk, 0, []⟩ }

/-- The header of the block that a lane command marks with `CHANGE` (R37, Table 5-9). -/
def changeOf (c : Cmd) : Nat × Nat :=
  (c.a.tag.toNat, match c.a.origin with
    | .ring n => n
    | _ => 0x80)

/-- The zones of a `ZONE_TUNE`: the gang and its target. -/
def gang (c : Cmd) : List Nat := (List.range 32).filter fun z => bit (le c.pl 8 4) z || z == c.inst

/-- A `ZONE_TUNE` that has taken effect. -/
def tuned (f : InFlight) : Bool := decide (f.phase = .executing) && f.outcome.isSome && f.cmd.op == 0x0401

/-- A `ZONE_TUNE` shares its zone sample with a command of a lane that still settles (R165).
Log: 66 (DEDUCED). -/
def jointTune (s : State) (f : InFlight) : Bool :=
  s.lanes.any fun e => decide (e.2.st = .settling) && e.2.byCmd &&
    e.2.zones.any fun z => (gang f.cmd).contains z && (zone s z).resetAt == e.2.resetAt

/-- The `ZONE_TUNE` commands that waited for a lane and wait no more complete at `d` (R165).
Log: 66 (DEDUCED). -/
def finishTunes (s : State) (d : Sid) : State :=
  (s.cmds.list.filter fun f => tuned f && !jointTune s f && decide ((zone s f.cmd.inst).st = .running)).foldl
    (fun q f => complete q f stOk 0 [] d q.ev.nextId) s

/-- The lane commands under way end with `status`: their lane has stopped.
Log: 64 (DEDUCED). -/
def dropLaneCmds (s : State) (tgt status : Nat) : State :=
  let s1 := (s.cmds.list.filter fun f => laneCmd tgt true f || laneCmd tgt false f).foldl
    (fun q f => complete q f status 0 [] q.sid.now q.ev.nextId) s
  finishTunes s1 s1.sid.now

/-- `EV_LANE` (R176). -/
def evLaneOf (s : State) (tgt cause : Nat) : State := raise s evLane tgt cause

/-! ## Blocks (R161–R163, R175, R176) -/

/-- The ring that a lane streams to. -/
def laneRing (s : State) (tgt : Nat) : Option Nat := (s.rings.find? fun e => decide (e.2.bind = .lane tgt)).map (·.1)

/-- `BLK_PERIOD` in 2⁻³² ns (Table 5-9, R150). -/
def blkPeriod (s : State) (l : Lane) : Nat := 10 ^ 21 * 2 ^ 32 / (max 1 l.outRate * (10 ^ 12 + rateDev s).toNat)

/-- Table 5-9. -/
def blockHeader (l : Lane) (xs : List Sample) (start : Bool) (t : Sid) (period : Nat) : Bytes :=
  leBytes 4 l.blkSeq ++ leBytes 2 xs.length ++
    leBytes 1 (flag l.sync 0 + flag (xs.any (·.settle)) 1 + flag (l.gap || decide (0 < l.blkGap)) 2 + flag l.change.isSome 3 +
      flag l.restage 4 + flag start 5) ++
    [1] ++ leBytes 2 ((l.change.map (·.1)).getD 0) ++ leBytes 1 ((l.change.map (·.2)).getD 0xFF) ++ leBytes 1 l.stages ++
    leBytes 4 l.blkGap ++ leBytes 8 (t / secU) ++ leBytes 4 (t % secU / 65536) ++ leBytes 2 (t % 65536) ++ zeros 2 ++
    leBytes 8 period ++ zeros 8

/-- A block: its header and samples, padded to a multiple of 64 bytes (R161, R162). -/
def blockBytes (header : Bytes) (xs : List Sample) : Bytes :=
  let b := header ++ (xs.map Sample.bytes).flatten
  b ++ zeros ((b.length + 63) / 64 * 64 - b.length)

/-- A block of the first `k` samples that wait: its markers are taken, and it goes to the stream ring whole. `START` stays for
the first block that is written (Table 5-9). -/
def formBlock (s : State) (tgt k : Nat) : State :=
  let l := lane s tgt
  let xs := l.out.take k
  if xs = [] then s
  else
    let saturated := (xs.filter (·.sat)).length
    let told := decide (0 < saturated) && expired s l.satBy
    let h := blockHeader l xs l.start (sampleTime s l l.outNext) (blkPeriod s l)
    let s1 := putLane s tgt { l with
      blkSeq := (l.blkSeq + 1) % 2 ^ 32, sync := false, gap := false, change := none, restage := false, blkGap := 0
      saturated := sat 32 (l.saturated + saturated)
      satBy := if told then deadline s 3200 else l.satBy
      header := h, out := l.out.drop k, outNext := l.outNext + k }
    let s2 := if told then evLaneOf s1 tgt 5 else s1
    let s2 := recordBlock s2 tgt l.blkSeq (blockBytes h xs) (sampleTime s l l.outNext)
    match laneRing s2 tgt with
    | none => s2
    | some r =>
      let s3 := feedBlock s2 r (blockBytes h xs)
      if (mget s3.rings r).map (·.lost) = (mget s2.rings r).map (·.lost) then putLane s3 tgt { lane s3 tgt with start := false } else s3

/-- A reset, a pause, a stop or a sample-timed command ends the block in progress early (R161). -/
def cutBlock (s : State) (tgt : Nat) : State := formBlock s tgt (lane s tgt).out.length

/-! ## Transitions of Table 5-11 -/

/-- The lane has made a reset at this very zone sample. -/
def justReset (s : State) (l : Lane) : Bool := decide (l.st = .settling) && l.resetAt == s.sid.now && decide (0 < l.resets)

/-- A zone of the lane resets at this very zone sample, so the lane settles with the zone-and-lane column (R165). -/
def zoneResets (s : State) (l : Lane) : Bool :=
  l.zones.any fun z => decide ((zone s z).st = .settling) && (zone s z).resetAt == s.sid.now

/-- Settling samples of the last reset that have come so far. -/
def settledSoFar (s : State) (l : Lane) : Nat :=
  if l.showSettle ∨ l.st ≠ .settling then 0 else min l.settleLast (samplesBy s l s.sid.now)

/-- `k` settling samples were neither delivered nor passed on (R159). -/
def Lane.suppress (l : Lane) (k : Nat) : Lane :=
  { l with suppressed := sat 32 (l.suppressed + k), blkGap := sat 32 (l.blkGap + k) }

/-- A synchronising reset of a lane (R157–R160); at the zone sample of the last one it is that reset still, and only the
column of Table 5-7 can change (R165). The block in progress ends, histories go, and the settling samples of a reset that
this one overtakes are counted as far as they came.
Log: 70 (DEDUCED). -/
def resetLane (s0 : State) (tgt : Nat) (withZone : Bool) : State :=
  let s := cutBlock s0 tgt
  let l := lane s tgt
  let again := justReset s l
  let n := (stageCount l.outRate (fsOf s) (toSurvey tgt)).getD l.stages
  let c := max (settleCount (fsOf s) l.outRate n withZone) (if again then l.settleLast else 0)
  putLane s tgt { (l.suppress (if again then 0 else settledSoFar s l)) with
    st := .settling, stages := n, settleLast := c, resets := if again then l.resets else l.resets + 1, resetAt := s.sid.now
    byCmd := again && l.byCmd, sync := true, out := [], outNext := if l.showSettle then 0 else c
    chains := (List.range l.zones.length).map fun i => LaneChain.fresh n ((l.chains.map (·.phase)).getD i 0)
    past := l.zones.map fun _ => [] }

/-- The lane stops (Table 5-11), its final block short; what it demodulates and analyses stops with it. -/
def stopLane (s0 : State) (tgt : Nat) : State :=
  let s := cutBlock s0 tgt
  let s1 := putLane s tgt { (lane s tgt).suppress (settledSoFar s (lane s tgt)) with st := .stopped, out := [] }
  usedChanged (if toFull tgt then ofdmStops s1 (tgt - 0x0300) else surveyStops s1 (tgt - 0x0400))

/-- The lane stops otherwise than by `LANE_STOP`: `EV_LANE`, and the commands under way end. -/
def haltLane (cause : Nat) (s : State) (tgt : Nat) : State := dropLaneCmds (evLaneOf (stopLane s tgt) tgt cause) tgt stBadState

/-- Settling or Running becomes Paused; while it lasts, `resetAt` holds the time at which the pause began.
Log: 70 (DEDUCED). -/
def pauseLane (s0 : State) (tgt : Nat) : State :=
  if (lane s0 tgt).live then
    let s := cutBlock s0 tgt
    let l := lane s tgt
    let s1 := putLane s tgt { l.suppress (settledSoFar s l) with st := .paused, gap := true, resetAt := s.sid.now, out := [] }
    if toFull tgt then ofdmHolds s1 (tgt - 0x0300) else s1
  else s0

/-- The effect on a lane of a command held through a pause (R37, R167): a stop ends it.
Log: 65 (DEDUCED), 70 (DEDUCED). -/
def heldEffect (tgt : Nat) (s : State) (f : InFlight) : State :=
  if f.cmd.op = 0x0406 then dropLaneCmds (complete (stopLane s tgt) f stOk 0 [] s.sid.now s.ev.nextId) tgt stBadState
  else
    let s1 := if f.cmd.op = 0x0404 then putLane s tgt { lane s tgt with freq := le f.cmd.pl 0 8 } else s
    let s2 := if f.cmd.op = 0x0404 ∧ toFull tgt then ofdmRetunes s1 (tgt - 0x0300) else s1
    markApplied (putLane s2 tgt { lane s2 tgt with byCmd := true, change := some (changeOf f.cmd) }) f

/-- Paused becomes Settling: a reset with the new stage count, and the held commands apply (Table 5-11, R167). Where no zone
of the lane resets (R410) the lane resets alone.
Log: 65 (DEDUCED). -/
def resumeLane (s : State) (tgt : Nat) : State :=
  let l := lane s tgt
  if l.st ≠ .paused then s
  else
    let lost := (s.sid.now - l.resetAt) * l.outRate / secU
    let s1 := resetLane (putLane s tgt { l with gaps := sat 32 (l.gaps + lost), blkGap := sat 32 (l.blkGap + lost), gap := true })
      tgt (zoneResets s l)
    let n := (lane s1 tgt).stages
    let s2 := if n = l.stages then s1
              else raise (putLane s1 tgt { lane s1 tgt with restage := true }) evLane tgt (4 + 256 * n)
    (s2.cmds.list.filter (laneCmd tgt false)).foldl (heldEffect tgt) s2

/-- A lane leaves every use: Idle, its zones and budget freed; demodulator and analysis start afresh at the next
`LANE_SET`, and stream bindings stay. -/
def freshUse (s : State) (tgt : Nat) : State :=
  if toFull tgt then
    let n := tgt - 0x0300
    let o := ofdm s n
    let s1 := putDemod s n { Demod.reset with rdsRing := (demod s n).rdsRing }
    let s2 := putOfdm s1 n { Ofdm.reset with fic := o.fic, pad := o.pad, subch := o.subch, recSeq := o.recSeq, recGap := o.recGap }
    s2.setAfs (mdel s2.afs n)
  else putSurvey s (tgt - 0x0400) { survey s (tgt - 0x0400) with tii := none }

/-- The lane becomes Idle (`LANE_SET` with `USE` 0x0). -/
def releaseLane (s : State) (tgt : Nat) : State :=
  freshUse (putLane s tgt { Lane.reset with blkSeq := (lane s tgt).blkSeq }) tgt

/-! ## AF switches that a host command abandons (R210) -/

/-- `EV_AF_SWITCH` for a lane (R215). -/
def evAf (s : State) (tgt former : Nat) (a : Af) (inPlace abandoned : Bool) : State :=
  raise s evAfSwitch tgt (former + flag a.unalign 8 + flag inPlace 9 + flag a.panic 10 + flag abandoned 11)

/-- A switch of playing lane `n` is abandoned: the spare returns to Idle (R210).
Log: 78 (DEDUCED). -/
def abandonSwitch (s : State) (n : Nat) : State :=
  let a := afOf s n
  match a.phase with
  | .none => s
  | .place _ => evAf (putAf s n { a with phase := .none }) (0x0300 + n) n a true true
  | _ =>
    let spare := 0x0300 + byteAt a.cfg 1
    let s1 := if byteAt a.cfg 1 = 0xFF then s else releaseLane (dropLaneCmds (stopLane s spare) spare stBadState) spare
    evAf (putAf s1 n { a with phase := .none }) (0x0300 + n) n a false true

/-- A host command to a lane abandons its switch.
Log: 63 (DEDUCED). -/
def hostAbandons (s : State) (tgt : Nat) : State := if toFull tgt then abandonSwitch s (tgt - 0x0300) else s

/-! ## Zones -/

/-- The lanes that are not Idle. -/
def setLaneList (s : State) : List Nat := (s.lanes.filter fun e => decide (e.2.st ≠ .idle)).map (·.1)

/-- The lanes that bind a zone (R168). -/
def boundTo (s : State) (z : Nat) : List Nat := (setLaneList s).filter fun t => (lane s t).zones.contains z

/-- A converter's foreground calibration holds a zone. -/
def calHolds (s : State) (z : Nat) : Bool := (ant s (z / 8)).calState == 2

/-- Zones and lanes are stopped by a re-lock or by Frost (R123, R411). -/
def rfHeld (s : State) : Bool := decide (s.aur.st = .relocking) || decide (s.pwr.state = .frost)

/-- A zone makes its reset (R157); its taps reset with it (R194). -/
def resetZone (s : State) (z : Nat) : State := dueTaps (putZone s z { zone s z with
    st := .settling, resetAt := s.sid.now, chain := { ZoneChain.reset with phase := (zone s z).chain.phase } }) z

/-- Tape entry of a zone's NCO word. -/
def tapeZone (s : State) (z : Nat) : State :=
  if zoneTaped s z then tapeWord s (0x0200 + z) (ncoWord (zone s z).freq (1000 * fsOf s)) else s

/-- Tape entry of a lane's NCO word (R148). -/
def tapeLane (s : State) (tgt : Nat) : State :=
  let l := lane s tgt
  if laneTaped s tgt then tapeWord s tgt (ncoWord ((l.freq : Int) - zoneCentre s l) (125 * fsOf s)) else s

/-- Tape entry of a lane's resampler word 1/ρ (R149). -/
def tapeRatio (s : State) (tgt : Nat) : State := if laneTaped s tgt then tapeWord s tgt (invRatio s (lane s tgt)) else s

/-- The NCO and resampler words of every recorded source and its consumers, as a new rate asks for them (R120, R123). -/
def tapeWords (s : State) : State :=
  (setLaneList s).foldl (fun q t => if (lane q t).live then tapeRatio (tapeLane q t) t else q) ((firnZones s).foldl tapeZone s)

/-- What a zone retune does to one bound lane: off-span it stops, else it makes one reset with the zone (R157, R171), marked with
the command that `mark` names (R37).
Log: 67 (DEDUCED). -/
def retuneBound (mark : Option (Nat × Nat)) (s : State) (tgt : Nat) : State :=
  let l := lane s tgt
  if l.live = false then s
  else if tuneOk l.freq (zoneCentre s l) l.outRate = false then haltLane 1 s tgt
  else
    let s1 := resetLane s tgt true
    match mark with
    | some m => putLane s1 tgt { lane s1 tgt with change := some m }
    | none => s1

/-- The zones of a gang retune (R164, R171).
Log: 66 (DEDUCED). -/
def retuneZones (mark : Option (Nat × Nat)) (s : State) (zs : List Nat) (freq : Nat) : State :=
  let s1 := zs.foldl (fun q z =>
    if calHolds q z || rfHeld q then putZone q z { zone q z with st := .paused, freq := freq }
    else tapeZone (resetZone (putZone q z { zone q z with freq := freq }) z) z) s
  usedChanged (((setLaneList s1).filter fun t => (lane s1 t).zones.any zs.contains).foldl (retuneBound mark) s1)

/-- A gang is disabled: its taps go with it (R194). -/
def disableZones (s : State) (zs : List Nat) : State :=
  zs.foldl (fun q z => dueTaps (putZone q z { zone q z with st := .off }) z) s

/-- A lane whose zones only in part lie in a gang (R170). -/
def splitLane (s : State) (zs : List Nat) (tgt : Nat) : Bool :=
  (lane s tgt).zones.any zs.contains && !(lane s tgt).zones.all zs.contains

/-- The gang may take the setting (R168, R170). -/
def zoneTuneOk (c : Cmd) (s : State) : Bool :=
  let zs := gang c
  !zs.any (legacyZone s) &&
    if bit (byteAt c.pl 12) 0 then !(setLaneList s).any (splitLane s zs) else zs.all fun z => (boundTo s z).isEmpty

/-- `ZONE_TUNE`: judged here; its effect comes at its point of effect (R164).
Log: 66 (DEDUCED). -/
def zoneTuneUnit (c : Cmd) (s : State) : Reply := if zoneTuneOk c s then .busy s else badState

/-- A `ZONE_TUNE` takes effect at this zone output sample; one that disables its zones completes there.
Log: 66 (DEDUCED). -/
def zoneTuneApplies (s : State) (f : InFlight) : State :=
  if zoneTuneOk f.cmd s = false then complete s f stBadState 0 [] s.sid.now s.ev.nextId
  else if bit (byteAt f.cmd.pl 12) 0 then
    markApplied (retuneZones (some (changeOf f.cmd)) s (gang f.cmd) (le f.cmd.pl 0 8)) f
  else
    let s1 := disableZones s (gang f.cmd)
    complete s1 f stOk 0 [] s1.sid.now s1.ev.nextId

/-- A `ZONE_TUNE` that would retune a zone of the safety path (R395). -/
def holdZone (s : State) (c : Cmd) : Bool := safetyOn s && (gang c).any (zoneSafe s)

/-- Table 5-12, `ZONE_TUNE`. -/
def zoneTuneSpec : CmdSpec :=
  { op := 0x0401, target := toZone, sample := true, len := fun _ => 16,
    fields := fun _ => [rng 0 8 0 1500000000000, wid 12 1 1, rsv 13 3], hold := holdZone, unit := zoneTuneUnit }

def zoneCode : ZoneState → Nat
  | .off => 0
  | .running => 1
  | .settling => 2
  | .paused => 3

/-- The lanes of one kind that bind a zone, as a mask. -/
def boundMask (s : State) (base n z : Nat) : Nat :=
  ((List.range n).map fun i => flag ((boundTo s z).contains (base + i)) i).foldl (· + ·) 0

/-- The `ZONE_GET` result (Table 5-17). -/
def zoneResult (s : State) (z : Nat) : Bytes :=
  let v := zone s z
  leBytes 1 (zoneCode v.st) ++ leBytes 1 (z / 8) ++ zeros 2 ++ leBytes 4 (boundMask s 0x0300 32 z) ++
    leBytes 1 (boundMask s 0x0400 8 z) ++ zeros 3 ++ leBytes 4 (sat 32 v.marks) ++ leBytes 8 v.freq ++
    leBytes 6 (ncoWord v.freq (1000 * fsOf s)) ++ zeros 2

/-- Table 5-17, `ZONE_GET`. -/
def zoneGetSpec : CmdSpec :=
  { op := 0x0402, target := toZone, len := fun _ => 0, largest := fun _ => 32,
    unit := fun c s => okWith (zoneResult s c.inst) s }

/-- The time of zone output sample 35 after a zone's reset (R158). -/
def zoneSettledAt (s : State) (z : Nat) : Sid := (zone s z).resetAt + 35 * 8 * secU / fsOf s

/-- `ZONE_SETTLED` (R158): output sample 35; the `ZONE_TUNE` that reset it completes with that sample, or with a lane command
that shares its zone sample (R165).
Log: 66 (DEDUCED). -/
def execZoneSettled (z : Nat) (t : Sid) (s : State) : Host.Outcome State Fault Refusal :=
  let s1 := advance s t
  if z < 32 ∧ (zone s z).st = .settling ∧ zoneSettledAt s z ≤ s1.sid.now then
    let d := zoneSettledAt s z
    .next (finishTunes (putZone s1 z { zone s1 z with st := .running }) d)
  else .next s

/-! ## LANE_SET (R151, R168, R173) -/

/-- The zones in a `LANE_SET` payload. -/
def askedZones (b : Bytes) : List Nat := (List.range (byteAt b 1)).map fun i => byteAt b (4 + i)

/-- R168: enabled zones of different converters with one centre; exactly one for a survey lane.
Log: 60 (DEDUCED). -/
def bindOk (s : State) (tgt : Nat) (zs : List Nat) : Bool :=
  (zs.all fun z => decide ((zone s z).st ≠ .off)) && decide ((zs.map (· / 8)).Nodup) &&
    (zs.all fun z => (zone s z).freq == (zone s (zs.headD 0)).freq) && (toFull tgt || zs.length == 1)

/-- The sum of `OUT_RATE` of all full lanes that are not Idle, `tgt` apart (R151). -/
def rateSum (s : State) (tgt : Nat) : Nat :=
  (((setLaneList s).filter fun t => toFull t && t != tgt).map fun t => (lane s t).outRate).foldl (· + ·) 0

/-- The lane is configured: Stopped at the zone centre, its defaults in force (Table 5-11, R214). -/
def configureLane (s : State) (tgt : Nat) (b : Bytes) (n : Nat) : State :=
  let z := (askedZones b).headD 0
  usedChanged (freshUse (putLane s tgt { Lane.reset with st := .stopped, cfg := b, freq := (zone s z).freq, stages := n,
                                                         outRate := askedRate b }) tgt)

/-- `LANE_SET` of a lane in a switch abandons the switch, and is then judged as any other (R210).
Log: 60 (DEDUCED), 61 (DEDUCED), 62 (DEDUCED), 63 (DEDUCED). -/
def laneSetUnit (c : Cmd) (s0 : State) : Reply :=
  let tgt := c.tgt
  let s := hostAbandons s0 tgt
  let l := lane s tgt
  if l.st ≠ .idle ∧ l.st ≠ .stopped then .done stBadState 0 [] s
  else if toFull tgt ∧ laneDesignated s c.inst then badState
  else if byteAt c.pl 0 = 0 then ok (if l.st = .idle then s else usedChanged (releaseLane s tgt))
  else
    match stageCount (askedRate c.pl) (fsOf s) (toSurvey tgt) with
    | none => badParam 8
    | some n =>
      if bindOk s tgt (askedZones c.pl) = false then badState
      else if toFull tgt ∧ 800000000 < rateSum s tgt + askedRate c.pl then .deny stNoResource 0
      else ok (configureLane s tgt c.pl n)

/-- The used bytes name zones 0–31 and the others are 0xFF (Table 5-13). -/
def zonesFld (i : Nat) : Fld :=
  ⟨4 + i, fun b => if i < byteAt b 1 then decide (byteAt b (4 + i) < 32) else byteAt b (4 + i) == 0xFF⟩

/-- `OUT_RATE` is 0 or the rate of the use, or within Table 5-3 for IQ only. -/
def rateFld (tgt : Nat) : Fld :=
  ⟨8, fun b =>
    if byteAt b 0 = 1 then decide (12800 ≤ le b 8 4) && decide (le b 8 4 ≤ if toSurvey tgt then 50000000 else 150000000)
    else le b 8 4 == 0 || le b 8 4 == useRate (byteAt b 0)⟩

/-- Table 5-13, `LANE_SET`; with `USE` 0x0 only the reserved bits are looked at.
Log: 61 (DEDUCED). -/
def laneSetSpec : CmdSpec :=
  { op := 0x0403, target := toLane, len := fun _ => 24,
    fields := fun tgt => fld 0 1 (fun v => decide (v ≤ (if toSurvey tgt then 1 else 6))) :: rsv 15 9 :: wid 2 1 1 ::
      ([rng 1 1 1 4, rng 3 1 0 48, zonesFld 0, zonesFld 1, zonesFld 2, zonesFld 3, rateFld tgt,
        fld 12 2 fun v => v == 0 || decide (64 ≤ v ∧ v ≤ 16384)].map (whenFld fun b => byteAt b 0 != 0)),
    hold := holdLane, unit := laneSetUnit }

/-! ## LANE_TUNE, LANE_START, LANE_STOP, LANE_SYNC -/

/-- `HITLESS` of a `LANE_TUNE`. -/
def hitless (c : Cmd) : Bool := bit (byteAt c.pl 8) 0

/-- A hitless change is allowed: Running or Settling, and |Δf| ≤ 0.05 · f_out (R166).
Log: 162 (DEDUCED). -/
def hitlessOk (l : Lane) (freq : Nat) : Bool := l.live && decide (((freq : Int) - l.freq).natAbs ≤ 50 * l.outRate)

/-- A refused `HITLESS` has `DETAIL` 16, the frequency, for too large a change and 24, `TFLAGS`, for the wrong state.
Log: 162 (DEDUCED). -/
def laneTuneUnit (c : Cmd) (s0 : State) : Reply :=
  let freq := le c.pl 0 8
  let l := lane s0 c.tgt
  if hitless c ∧ l.live = false then badParam 8
  else if l.st = .idle then badState
  else if tuneOk freq (zoneCentre s0 l) l.outRate = false then badParam 0
  else if hitless c ∧ hitlessOk l freq = false then badParam 0
  else
    let s := hostAbandons s0 c.tgt
    if l.st = .stopped then ok (usedChanged (putLane s c.tgt { l with freq := freq })) else .busy s

/-- Table 5-14, `LANE_TUNE`. -/
def laneTuneSpec : CmdSpec :=
  { op := 0x0404, target := toLane, sample := true, len := fun _ => 16, fields := fun _ => [wid 8 1 1, rsv 9 7],
    hold := holdLane, unit := laneTuneUnit }

/-- Survey lanes that count against the survey budget: those that have output, are Paused, or have a start accepted. -/
def surveySum (s : State) : Nat :=
  (((setLaneList s).filter fun t => toSurvey t &&
      (decide ((lane s t).st ≠ .stopped) || (executing s 0x0405 t).isSome)).map
    fun t => (lane s t).outRate).foldl (· + ·) 0

/-- The survey budget (R410). -/
def surveyBudget (s : State) : Nat := if s.pwr.state = .avalanche then 400000000 else 100000000

def laneStartUnit (c : Cmd) (s : State) : Reply :=
  let l := lane s c.tgt
  if l.st ≠ .stopped then badState
  else
    match shedRefusal s (if toSurvey c.tgt then 1 else 5) with
    | some st => .deny st 0
    | none =>
      if toSurvey c.tgt ∧ surveyBudget s < surveySum s + l.outRate then .deny stNoResource 0
      else .busy s

/-- `LANE_START`. -/
def laneStartSpec : CmdSpec := { op := 0x0405, target := toLane, sample := true, len := fun _ => 0, unit := laneStartUnit }

/-- Log: 64 (DEDUCED). -/
def laneStopUnit (c : Cmd) (s0 : State) : Reply :=
  let l := lane s0 c.tgt
  if l.st = .idle ∨ l.st = .stopped then badState
  else
    let s := hostAbandons s0 c.tgt
    if l.st = .paused then ok (dropLaneCmds (stopLane s c.tgt) c.tgt stBadState) else .busy s

/-- `LANE_STOP`. -/
def laneStopSpec : CmdSpec :=
  { op := 0x0406, target := toLane, sample := true, len := fun _ => 0, hold := holdLane, unit := laneStopUnit }

/-- `LANE_SYNC` (R174).
Log: 65 (DEDUCED). -/
def laneSyncUnit (c : Cmd) (s : State) : Reply :=
  if (lane s c.tgt).live then .busy (hostAbandons s c.tgt) else badState

def laneSyncSpec : CmdSpec :=
  { op := 0x0407, target := toLane, sample := true, len := fun _ => 0, hold := holdLane, unit := laneSyncUnit }

/-- A lane command makes the lane reset, with the column of Table 5-7 that R165 gives. -/
def commandReset (s : State) (tgt : Nat) : State := tapeRatio (resetLane s tgt (zoneResets s (lane s tgt))) tgt

/-- A lane command has taken effect at this zone sample.
Log: 70 (DEDUCED). -/
def byCommand (s : State) (tgt : Nat) : State :=
  if justReset s (lane s tgt) then putLane s tgt { lane s tgt with byCmd := true } else s

/-- A lane command takes effect (R164, Table 5-11); a sample-timed one ends the block in progress early. `LANE_STOP` completes
with the timestamp that the next sample would have had. -/
def applyLane (s0 : State) (tgt : Nat) (f : InFlight) : State :=
  let s := if f.due = 0 then s0 else cutBlock s0 tgt
  let l := lane s tgt
  match f.cmd.op with
  | 0x0404 =>
    let s2 := tapeLane (usedChanged (putLane s tgt { l with freq := le f.cmd.pl 0 8 })) tgt
    let mark (q : State) : State := putLane q tgt { lane q tgt with change := some (changeOf f.cmd) }
    if hitless f.cmd then
      (if l.st = .running then complete (mark s2) f stOk 0 [] s2.sid.now s2.ev.nextId else markApplied (mark (byCommand s2 tgt)) f)
    else
      markApplied (mark (byCommand (commandReset (if toFull tgt then ofdmRetunes s2 (tgt - 0x0300) else s2) tgt) tgt)) f
  | 0x0406 =>
    let d := if l.live then nextStamp s l else s.sid.now
    dropLaneCmds (complete (stopLane s tgt) f stOk 0 [] d s.ev.nextId) tgt stBadState
  | _ =>
    let s1 := usedChanged (byCommand (commandReset s tgt) tgt)
    markApplied (putLane s1 tgt { lane s1 tgt with change := some (changeOf f.cmd) }) f

/-- The command of a lane or zone whose point of effect comes next: an `UNORDERED` one after the others (R165). -/
def nextEffect (s : State) (p : InFlight → Bool) : Option InFlight :=
  match findFlight s fun f => p f && !f.cmd.unordered with
  | some f => some f
  | none => findFlight s p

/-- The point of effect of R164 has come: at or after `WHEN`, or the delay after the command reached the fabric, and in a lane
with output a block boundary. -/
def effectDue (s : State) (f : InFlight) (delayUs : Nat) (boundary : Bool) : Bool :=
  if f.due ≠ 0 then decide (f.due ≤ s.sid.now) else boundary && decide (f.since + delayUs * 1000 * 65536 ≤ s.sid.now)

/-- A `ZONE_TUNE` under way on a zone, not yet in effect. -/
def zoneCmd (tgt : Nat) (f : InFlight) : Bool :=
  decide (f.phase = .executing) && f.begun && f.cmd.op == 0x0401 && f.cmd.tgt == tgt && f.outcome.isNone

/-- The earliest command under way on a lane or zone applies, if its point of effect has come or `atOnce` says so. While a lane is
Paused its commands are held, but for `LANE_STOP` (R167). A start whose lane cannot run yet, since its zones are held, leaves it
Paused. -/
def applyNext (s : State) (tgt : Nat) (atOnce : Bool) : Option State :=
  let l := lane s tgt
  if toZone tgt then
    match nextEffect s (zoneCmd tgt) with
    | some f => if atOnce || effectDue s f 20 true then some (zoneTuneApplies s f) else none
    | none => none
  else
    match nextEffect s (laneCmd tgt false) with
    | none => none
    | some f =>
      if toLane tgt = false ∨ (l.st = .paused ∧ f.cmd.op ≠ 0x0406) ∨ l.st = .idle ∨
          (atOnce || effectDue s f 50 (l.live = false || l.out.isEmpty)) = false then none
      else if f.cmd.op = 0x0405 ∧ l.zones.all (fun z => decide ((zone s z).st = .paused)) then
        some (putLane s tgt { l with st := .paused, resetAt := s.sid.now })
      else if l.st = .stopped ∧ f.cmd.op ≠ 0x0405 then some (complete s f stBadState 0 [] s.sid.now s.ev.nextId)
      else some (applyLane s tgt f)

/-- `LANE_POINT_OF_EFFECT` (R164).
Log: 81 (DEDUCED). -/
def execLanePointOfEffect (target : BitVec 16) (t : Sid) (s : State) : Host.Outcome State Fault Refusal :=
  let s1 := advance s t
  match applyNext (onScale s1 target.toNat) target.toNat false with
  | some s2 => .next (offScale s1 s2)
  | none => .next s

/-- A spare in a switch has become Running: pilot lock is awaited for 64 ticks (R208). -/
def spareRuns (s : State) (n : Nat) : State :=
  s.setAfs (s.afs.map fun e => match e.2.phase with
    | .spare none => if byteAt e.2.cfg 1 = n then (e.1, { e.2 with phase := .spare (some (deadline s 64)) }) else e
    | _ => e)

/-- `LANE_SETTLED` (R159, R160, R165, R173): output sample S; the commands that caused the reset complete with the first
delivered sample. -/
def execLaneSettled (target : BitVec 16) (t : Sid) (s : State) : Host.Outcome State Fault Refusal :=
  let tgt := target.toNat
  let s0 := advance s t
  let s1 := onScale s0 tgt
  let l := lane s1 tgt
  let d := firstDelivered s1 l
  if toLane tgt = false ∨ l.st ≠ .settling ∨ s1.sid.now < sampleTime s1 l l.settleLast then .next s
  else
    let s2 := putLane s1 tgt { l.suppress (if l.showSettle then 0 else l.settleLast) with st := .running, lastSync := d }
    let s3 := finishTunes
      ((s2.cmds.list.filter (laneCmd tgt true)).foldl (fun q f => complete q f stOk 0 [] d q.ev.nextId) s2) d
    .next (offScale s0 (if toFull tgt then spareRuns (ofdmRuns s3 (tgt - 0x0300)) (tgt - 0x0300) else s3))

/-! ## Blocks and streams (R161, R175, R176) -/

/-- `LANE_FIFO_FULL` (R13): samples are discarded; the next block tells of it. -/
def execLaneFifoFull (target : BitVec 16) (lost : Nat) (s : State) : Host.Outcome State Fault Refusal :=
  let tgt := target.toNat
  let l := lane s tgt
  if toLane tgt ∧ l.st = .running then
    let s1 := cutBlock s tgt
    let l := lane s1 tgt
    .next (evLaneOf (putLane s1 tgt { l with
      gap := true, gaps := sat 32 (l.gaps + lost), blkGap := sat 32 (l.blkGap + lost), outNext := l.outNext + lost }) tgt 3)
  else .next s

/-- `LANE_STREAM` (R175): a ring that carries a source, be it this lane, is refused; the first streamed block carries `START`. -/
def laneStreamUnit (c : Cmd) (s : State) : Reply :=
  let n := byteAt c.pl 0
  let drop : State → State := fun q => match laneRing q c.tgt with
    | some r => markRing q r .none
    | none => q
  if n = 0xFF then ok (drop s)
  else
    match ringDenied s n 0 .streamOut (match mget s.rings n with
      | some r => decide (r.bind ≠ .none)
      | none => false) with
    | some r => r
    | none => ok (putLane (markRing (drop s) n (.lane c.tgt)) c.tgt { lane s c.tgt with start := true })

/-- Table 5-15, `LANE_STREAM`. -/
def laneStreamSpec : CmdSpec :=
  { op := 0x0408, target := toLane, len := fun _ => 4, fields := fun _ => [rsv 1 3], unit := laneStreamUnit }

def laneCode : LaneState → Nat
  | .idle => 0
  | .stopped => 1
  | .settling => 2
  | .running => 3
  | .paused => 4

/-- `BRANCHES` of a lane as a mask.
Log: 163 (DEDUCED). -/
def branches (s : State) (l : Lane) : Nat := if l.live then ((contributes s l).map fun i => flag true i).sum else 0

/-- The `LANE_GET` result (Table 5-16).
Log: 163 (DEDUCED). -/
def laneResult (s : State) (tgt : Nat) : Bytes :=
  let l := lane s tgt
  leBytes 1 (laneCode l.st) ++ leBytes 1 l.stages ++ leBytes 1 l.use ++ leBytes 1 (branches s l) ++ leBytes 4 l.outRate ++
    leBytes 8 l.freq ++ leBytes 4 (l.outRate * 2 ^ (l.stages + 3) * 2 ^ 32 / fsOf s) ++ leBytes 4 l.settleLast ++
    leBytes 4 l.suppressed ++ leBytes 4 l.saturated ++ leBytes 4 l.gaps ++ leBytes 4 l.resets ++
    leBytes 8 (whenOf l.lastSync).toNat

/-- Table 5-16, `LANE_GET`. -/
def laneGetSpec : CmdSpec :=
  { op := 0x0409, target := toLane, len := fun _ => 0, largest := fun _ => 48,
    unit := fun c s => okWith (laneResult s c.tgt) s }

/-! ## The sample stream (R137, R138, R142, R146–R149, R156–R159, R163)

Converter samples are fed when the surroundings give them, at a tick or with a lane block: every zone that runs or settles takes
in those of its converter, and every lane with output those of its zones. -/

/-- The enabled zones of an input. -/
def antZones (s : State) (n : Nat) : List Nat :=
  ((List.range 8).map (8 * n + ·)).filter fun z => decide ((zone s z).st ≠ .off)

/-- The samples of input `n`, the last one taken at `t`, with their marks: replaced with zero where blanking says so, marked by
it, and clipped at a full-scale code (R137, R138, Table 5-10). -/
def markSamples (s : State) (n : Nat) (xs : List Int) (t : Sid) : List (Int × Bool × Bool) :=
  xs.zipIdx.map fun e =>
    let u := t - (xs.length - 1 - e.2) * secU / fsOf s
    (if markedAt s true n u then 0 else e.1, markedAt s false n u, e.1 == 8191 || e.1 == -8192)

/-- The unmarked samples join the composite power of the tick (R102, R138). -/
def sumPower (a : Ant) (ms : List (Int × Bool × Bool)) : Ant :=
  { a with sumSq := a.sumSq + ((ms.filter fun m => !m.2.1).map fun m => m.1.natAbs ^ 2).sum
           sumN := a.sumN + (ms.filter fun m => !m.2.1).length }

/-- The compensating gain of a zone in 2⁻¹⁶ (R103). -/
def zoneComp (s : State) (z : Nat) : Int := ampRatio (compDb (ant s (z / 8)) ((zone s z).freq / 1000000))

/-- A zone takes samples in, the last one at `t`; its marked output samples count (`MARK_COUNT`), and Firn records them. A replay
feeds its zones itself (R376). -/
def feedZone (ms : List (Int × Bool × Bool)) (t : Sid) (acc : State × List (Nat × List ZoneSample)) (z : Nat) :
    State × List (Nat × List ZoneSample) :=
  let s := acc.1
  let v := zone s z
  if v.st = .paused ∨ replayed s (0x0200 + z) then acc
  else
    let r := v.chain.run (ncoWord v.freq (1000 * fsOf s)) (zoneComp s z) ms
    let s1 := putZone s z { v with chain := r.1, marks := sat 32 (v.marks + (r.2.filter fun y => y.blank || y.clip).length) }
    (levelZone (recordZone s1 z r.2 t) z r.2, (z, r.2) :: acc.2)

/-- One input and its zones. -/
def feedAnt (xs : List (List Int)) (t : Sid) (acc : State × List (Nat × List ZoneSample)) (n : Nat) :
    State × List (Nat × List ZoneSample) :=
  let ms := markSamples acc.1 n (xs.getD n []) t
  (antZones acc.1 n).foldl (feedZone ms t) (putAnt acc.1 n (sumPower (ant acc.1 n) ms), acc.2)

/-- One output sample of a lane from those of its branches: the sum of phase diversity, else the lowest contributing branch
(R131, R133, R135).
Log: 177 (DESIGN CHOICE). -/
def mixBranches (use : Nat) (div : Bytes) (pick : List Nat) (past : List (List Cx)) (noise : List Nat)
    (ys : List (Option ZoneSample)) : Option ZoneSample :=
  if use = 3 ∧ byteAt div 0 = 2 then
    let xs := pick.filterMap fun i => (ys.getD i none).map fun y => (y.x, y.blank || y.clip)
    if xs = [] then none
    else some ⟨phaseSum (pick.map fun i => past.getD i []) (pick.map fun i => noise.getD i 1) xs,
      pick.all fun i => ((ys.getD i none).map (·.blank)).getD true, pick.all fun i => ((ys.getD i none).map (·.clip)).getD true⟩
  else ys.getD (pick.headD 0) none

/-- A lane delivers one output sample, numbered `q` since the reset: while it settles only with `SHOW_SETTLE` (R159). -/
def Lane.deliver (slew : Bool) (pick : List Nat) (l : Lane) (q : Nat) (ys : List (Option ZoneSample)) : Lane :=
  let l1 : Lane := { l with past := (List.range l.past.length).map fun i =>
    ((((ys.getD i none).map fun y => [y.x]).getD []) ++ l.past.getD i []).take 64 }
  match mixBranches l.use l.div pick l.past l.noise ys with
  | none => l1
  | some y =>
    let settle := decide (q < l.settleLast)
    let o := laneOutput (byteAt l.cfg 3) y.x
    let v : Sample := { x := o.1, settle := settle, blank := y.blank, clip := y.clip, sat := o.2, slew := slew }
    if settle ∧ l.showSettle = false then l1
    else { l1 with out := l1.out ++ [v], window := if settle then l1.window else l1.window.take v, crc := crcRun l1.crc v.bytes }

/-- A lane with output takes in the samples of its zones. -/
def laneTakes (zs : List (Nat × List ZoneSample)) (s : State) (tgt : Nat) : State :=
  let l := lane s tgt
  if l.live = false then s
  else
    let word := ncoWord ((l.freq : Int) - zoneCentre s l) (125 * fsOf s)
    let rs := (List.range l.zones.length).map fun i =>
      (l.chains.getD i (LaneChain.fresh l.stages 0)).run (laneDesigns l.stages) (laneSpan l.stages) word (invRatio s l) (mgetD zs (l.zones.getD i 0) [])
    let outs := rs.map (·.2)
    let first := (outs.map fun o => (o.map (·.1)).headD 0).foldl max 0
    let l1 := (List.range ((outs.map (·.length)).foldl max 0)).foldl
      (fun m j => m.deliver (decide (s.aur.st = .slewing)) (contributes s l) (first + j)
        (outs.map fun o => (o[j]?).map (·.2))) { l with chains := rs.map (·.1) }
    demodFeed (putLane s tgt l1) tgt ((l1.out.drop l.out.length).filter fun y => !y.settle)

/-- Converter samples enter the zones, the lanes and the taps. -/
def feed (s : State) (xs : List (List Int)) (t : Sid) : State :=
  if xs.all (·.isEmpty) then s
  else
    let r := [0, 1, 2, 3].foldl (feedAnt xs t) (s, [])
    [0, 1, 2, 3].foldl (tapTakes r.2) ((setLaneList r.1).foldl (laneTakes r.2) r.1)

/-- `LANE_BLOCK` (R161): the samples that arrived are taken in, and blocks of `BLK_LEN` samples are formed as far as they
reach.
Log: 182 (DESIGN CHOICE). -/
def execLaneBlock (target : BitVec 16) (xs : List (List Int)) (t : Sid) (s : State) : Host.Outcome State Fault Refusal :=
  let tgt := target.toNat
  let s1 := feed (advance s t) xs (advance s t).sid.now
  let l := lane s1 tgt
  if toLane tgt = false ∨ l.live = false then .next s1
  else .next ((List.range (l.out.length / max 1 l.blkLen)).foldl (fun q _ => formBlock q tgt l.blkLen) s1)

/-! ## DIV_SET and RF_CAL (R127, R131, R136, R172) -/

/-- The mode suits the standard and has its number of branches (Table 4-9). -/
def divOk (l : Lane) (b : Bytes) : Bool :=
  let k := ((List.range l.nZones).filter fun i => bit (byteAt b 2) i).length
  match byteAt b 0 with
  | 0 => decide (1 ≤ k)
  | 1 => decide (4 ≤ l.use) && decide (2 ≤ k)
  | 2 => l.use == 3 && decide (2 ≤ k)
  | _ => decide (4 ≤ l.use) && k == 2

/-- `DIV_SET` waits for the next transmission frame or tick (R136). -/
def divSetUnit (c : Cmd) (s : State) : Reply :=
  let l := lane s c.tgt
  if l.st = .idle ∨ divOk l c.pl = false then badState
  else .busy (putLane s c.tgt { l with divNext := some (c.pl, c.a.origin, c.a.tag.toNat) })

/-- Table 4-15, `DIV_SET`. -/
def divSetSpec : CmdSpec :=
  { op := 0x0306, target := toFull, len := fun _ => 4,
    fields := fun _ => [rng 0 1 0 3, rng 1 1 0 60, wid 2 1 4, rsv 3 1], hold := holdLane, unit := divSetUnit }

/-- A zone and its taps pause. -/
def pauseZone (s : State) (z : Nat) : State := pauseTaps (putZone s z { zone s z with st := .paused }) z

/-- A lane whose branches are all paused pauses; the others run on with weight 0 there (R172). -/
def pauseIfAll (s : State) (tgt : Nat) : State :=
  if (lane s tgt).zones.all fun z => decide ((zone s z).st = .paused) then pauseLane s tgt else s

/-- A foreground calibration of input `n` begins (R127). -/
def calBegins (s : State) (n : Nat) : State :=
  let s1 := putAnt s n { ant s n with calState := 2, spotEnd := none, calFrom := s.sid.now }
  let s2 := (antZones s1 n).foldl pauseZone s1
  (setLaneList s2).foldl pauseIfAll s2

def rfCalUnit (c : Cmd) (s : State) : Reply :=
  match byteAt c.pl 0 with
  | 0 => .busy (calBegins s c.inst)
  | 1 => ok (putAnt s c.inst { ant s c.inst with spotAsked := true })
  | _ => ok (putAnt s c.inst { ant s c.inst with calDtemp := byteAt c.pl 1, calPeriod := le c.pl 2 2,
                                                 spotBy := deadline s (3200 * le c.pl 2 2) })

/-- `RF_CAL` foreground on an input that feeds the safety path (R395). -/
def holdCal (s : State) (c : Cmd) : Bool := safetyOn s && byteAt c.pl 0 == 0 && antSafe s c.inst

/-- Table 4-12, `RF_CAL`. -/
def rfCalSpec : CmdSpec :=
  { op := 0x0303, target := toAnt, len := fun _ => 8,
    fields := fun _ => [rng 0 1 0 2, whenFld (fun b => byteAt b 0 == 2) (rng 1 1 1 20),
      whenFld (fun b => byteAt b 0 == 2) (rng 2 2 60 3600), rsv 4 4],
    hold := holdCal, unit := rfCalUnit }

/-- A lane that has a branch again resumes. -/
def resumeIfAny (s : State) (tgt : Nat) : State :=
  if (lane s tgt).zones.any fun z => decide ((zone s z).st ≠ .paused) then resumeLane s tgt else s

/-- `FOREGROUND_CAL_COMPLETE` (R127, R172): after 180 ms C_cal is built, the zones reset, lanes that had no branch left resume,
and `RF_CAL` completes. -/
def execForegroundCalComplete (n : Nat) (tones : List ToneLevel) (temp : Int) (t : Sid) (s : State) :
    Host.Outcome State Fault Refusal :=
  let s0 := advance s t
  if n < 4 ∧ (ant s n).calState = 2 ∧ (ant s n).calFrom + 180000000 * 65536 ≤ s0.sid.now then
    let mark := s.ev.nextId
    let s1 := calDone s0 n (calBuild (ant s0 n) tones) temp
    if rfHeld s1 then .next (finishOp s1 0x0303 (0x0100 + n) stOk 0 [] mark)
    else
      let s2 := (antZones s1 n).foldl resetZone s1
      let s3 := (setLaneList s2).foldl resumeIfAny s2
      .next (finishOp s3 0x0303 (0x0100 + n) stOk 0 [] mark)
  else .next s

/-! ## All zones and lanes together (R123, R411) -/

/-- Every zone, lane and tap stops: a re-lock starts, or Frost is entered. -/
def pauseAll (s : State) : State :=
  let zs := (List.range 32).filter fun z => decide ((zone s z).st ≠ .off)
  let s1 := zs.foldl pauseZone s
  (setLaneList s1).foldl pauseLane s1

/-- A survey lane resumes only within the survey budget (R410).
Log: 69 (DEDUCED). -/
def resumeFits (s : State) (tgt : Nat) : State :=
  let run := (((setLaneList s).filter fun t => toSurvey t && (lane s t).live).map fun t => (lane s t).outRate).foldl (· + ·) 0
  if toSurvey tgt ∧ surveyBudget s < run + (lane s tgt).outRate then s else resumeIfAny s tgt

/-- A Stopped lane takes the stage count that the rate in force asks for (R149). -/
def restage (s : State) (tgt : Nat) : State :=
  let l := lane s tgt
  if l.st = .stopped then putLane s tgt { l with stages := (stageCount l.outRate (fsOf s) (toSurvey tgt)).getD l.stages } else s

/-- Every zone and lane makes a synchronising reset: a re-lock is complete, or Frost has ended.
Log: 69 (DEDUCED). -/
def resumeAll (s : State) : State :=
  let zs := (List.range 32).filter fun z => decide ((zone s z).st = .paused) && !calHolds s z
  let s1 := (zs.foldl resetZone s)
  (setLaneList s1).foldl resumeFits ((setLaneList s1).foldl restage s1)

def execRfCal (a : Args) (s : State) : Host.Outcome State Fault Refusal := .next (submit rfCalSpec a s)
def execDivSet (a : Args) (s : State) : Host.Outcome State Fault Refusal := .next (submit divSetSpec a s)
def execZoneTune (a : Args) (s : State) : Host.Outcome State Fault Refusal := .next (submit zoneTuneSpec a s)
def execZoneGet (a : Args) (s : State) : Host.Outcome State Fault Refusal := .next (submit zoneGetSpec a s)
def execLaneSet (a : Args) (s : State) : Host.Outcome State Fault Refusal := .next (submit laneSetSpec a s)
def execLaneTune (a : Args) (s : State) : Host.Outcome State Fault Refusal := .next (submit laneTuneSpec a s)
def execLaneStart (a : Args) (s : State) : Host.Outcome State Fault Refusal := .next (submit laneStartSpec a s)
def execLaneStop (a : Args) (s : State) : Host.Outcome State Fault Refusal := .next (submit laneStopSpec a s)
def execLaneSync (a : Args) (s : State) : Host.Outcome State Fault Refusal := .next (submit laneSyncSpec a s)
def execLaneStream (a : Args) (s : State) : Host.Outcome State Fault Refusal := .next (submit laneStreamSpec a s)
def execLaneGet (a : Args) (s : State) : Host.Outcome State Fault Refusal := .next (submit laneGetSpec a s)

end Sys2Proof.Machine
end

