-- ==== Sys2Proof/Machine/Link.lean ====
section
/-! DEFINITION. Machine/Link.lean: programme paths: alignment, follow groups, cross-fades, equaliser banks and the time-shift
store: commands 0x0705–0x070C and their occurrences (chapter 08). Lags and delays count 1/256 sample at 48 kHz. -/

namespace Sys2Proof.Machine

/-! ## Settings and events -/

/-- One sample at 48 kHz in 1/256 sample; milliseconds so. -/
def msUnits (ms : Nat) : Int := ms * 48 * 256

/-- `EV_LINK` of a group (R288). -/
def evAlign (s : State) (h m cause : Nat) : State := raise s evLink (0x0600 + h) (cause + 256 * m)

/-- `EV_BLEND` of a path with a fade (R288). -/
def evFade (s : State) (h cause : Nat) (f : Fade) : State :=
  raise s evBlend (0x0600 + h) (cause + 256 * f.from_ + 1024 * f.to_ + flag f.unalign 12 + flag f.panic 13 + flag f.byNow 14)

def Path.fadeMs (p : Path) : Nat := le p.blend 0 2
def Path.reserve (p : Path) : Int := msUnits (byteAt p.blend 4)
def Group.mode (g : Group) : Nat := byteAt g.cfg 0
def Group.reqLink (g : Group) : Bool := bit (byteAt g.cfg 3) 0
def Group.reqAlign (g : Group) : Bool := bit (byteAt g.cfg 3) 2

def putGroup (s : State) (h : Nat) (g : Group) : State := s.setGroups (mput s.groups h g)

/-- A member of no group: an unused place. -/
def Member.unused : Member :=
  { path := 0xFF, align := .unaligned, fine := false, lag := 0, drift := 0, corr := 0, gain := 0, invert := false,
    coarse := 0, told := false, fails := 0, big := 0, holdBy := 0, run := 0, since := 0, winAt := 0 }

def Group.member (g : Group) (m : Nat) : Member := g.members.getD m Member.unused
def Group.setMember (g : Group) (m : Nat) (v : Member) : Group := { g with members := g.members.set m v }

/-- The members in use, by index. -/
def Group.used (g : Group) : List Nat := (List.range 4).filter fun m => (g.member m).path != 0xFF

/-- The group of which a path is a member, by its head. -/
def groupOf (s : State) (p : Nat) : Option (Nat × Group) :=
  s.groups.find? fun e => e.2.used.any fun m => (e.2.member m).path == p

/-! ## Delay-line pages (R266) -/

/-- The pool pages that a delay needs. -/
def pagesFor (delta : Int) : Nat :=
  let need := (delta.toNat + 255) / 256 + 2400
  if need ≤ 4800 then 0 else (need - 4800 + 16383) / 16384

/-- The pool pages that are free. -/
def freePages (s : State) : Nat := 128 - (s.paths.map fun e => e.2.pages).foldl (· + ·) 0

/-- The delay of a path is set, with its pages; `none` where the pool has too few.
Log: 90 (DEDUCED). -/
def setDelay (s : State) (p : Nat) (delta : Int) : Option State :=
  let d := max 0 delta
  let v := path s p
  if pagesFor d ≤ v.pages + freePages s then
    some (putPath s p { v with delta := d, pages := pagesFor d, setAt := if d = v.delta then v.setAt else s.sid.now })
  else none

/-- Tracking moves the delay of a path: no change that spoils a fine window (R268). -/
def trackDelay (s : State) (p : Nat) (delta : Int) : State :=
  match setDelay s p delta with
  | some s1 => putPath s1 p { path s1 p with setAt := (path s p).setAt }
  | none => s

/-! ## The output constant (R262–R265) -/

/-- The K that a path or its group aims at. -/
def kTarget (s : State) (h : Nat) : Int :=
  let v := path s h
  match mget s.groups h with
  | some g => ((g.used.filter fun m => m == 0 || decide ((g.member m).align = .aligned) || decide ((g.member m).align = .holding)).map
      fun m => if m = 0 then v.lag else (g.member m).lag).foldl max v.lag + v.reserve
  | none => v.lag + v.reserve

/-- The excess of K that is left standing (R264). -/
def kTolerance (s : State) (h : Nat) : Int :=
  match mget s.groups h with
  | some g => msUnits (10 * byteAt g.cfg 21)
  | none => (path s h).reserve

/-- K is to grow, or to shrink past its tolerance: a delay change falls due (R264). -/
def retarget (s : State) (h : Nat) : State :=
  let v := path s h
  let t := kTarget s h
  if v.k < t ∨ t + kTolerance s h < v.k then
    putPath s h { v with kGoal := t, deferred := ((mget s.groups h).map fun g => g.fade.isSome).getD false }
  else putPath s h { v with kGoal := if v.changing then v.kGoal else v.k }

/-- The delays of a head and its members follow K; a member without pages enters NoMemory (R266, Table 8-2). -/
def followK (s : State) (h : Nat) : State :=
  let k := (path s h).k
  let s1 := (setDelay s h (k - (path s h).lag)).getD s
  match mget s1.groups h with
  | none => s1
  | some g =>
    g.used.foldl (fun q m =>
      let v := g.member m
      if m = 0 ∨ (v.align ≠ .aligned ∧ v.align ≠ .holding) then q
      else match setDelay q v.path (k - v.lag) with
        | some q' => q'
        | none => evAlign (putGroup q h (((mget q.groups h).getD g).setMember m { v with align := .noMemory })) h m 0x13) s1

/-- `GROW_JUMP` of the group that a path heads; a path alone slews.
Log: 194 (DEDUCED). -/
def growJump (s : State) (h : Nat) : Bool := ((mget s.groups h).map fun g => bit (byteAt g.cfg 3) 1).getD false

/-- K of a slew at a tick: `DELAY_SLEW` of 15 samples a tick, from the K at its start (R264). -/
def slewedK (v : Path) (ticks : Nat) : Int :=
  let d : Int := byteAt v.blend 5 * 384 * (ticks - v.kTick) / 100
  if v.kFrom ≤ v.kGoal then min v.kGoal (v.kFrom + d) else max v.kGoal (v.kFrom - d)

/-- The delay changes under way move on at a tick boundary; a jump changes K between its ramps of 5 ms. -/
def delaysTick (s : State) : State :=
  (s.paths.filter fun e => e.2.changing).foldl (fun q e =>
    let v := path q e.1
    let k := if growJump q e.1 then (if v.kTick + 16 ≤ q.sid.ticks then v.kGoal else v.k) else slewedK v q.sid.ticks
    followK (putPath q e.1 { v with k := k }) e.1) s

/-- The delay change of a path is complete: K is reached, and for a jump the ramp up, with the silence of a grow, is over. -/
def changeOver (s : State) (p : Nat) : Bool :=
  let v := path s p
  decide (v.k = v.kGoal) &&
    (growJump s p = false || decide (v.kTick + 32 + (max 0 (v.kGoal - v.kFrom) / 3840).toNat ≤ s.sid.ticks))

/-- `DELAY_CHANGE_START` (R264): never during a fade. -/
def execDelayChangeStart (p : Nat) (s : State) : Host.Outcome State Fault Refusal :=
  let v := path s p
  let fading := ((mget s.groups p).map fun g => g.fade.isSome).getD false
  if p < 24 ∧ v.changing = false ∧ v.kGoal ≠ v.k ∧ fading = false then
    .next (raise (putPath s p { v with changing := true, deferred := false, kFrom := v.k, kTick := s.sid.ticks }) evBlend (0x0600 + p) 8)
  else .next s

/-- `DELAY_CHANGE_END` (R264). -/
def execDelayChangeEnd (p : Nat) (t : Sid) (s0 : State) : Host.Outcome State Fault Refusal :=
  let s := advance s0 t
  let v := path s p
  if p < 24 ∧ v.changing ∧ changeOver s p then
    .next (raise (followK (putPath s p { v with changing := false, k := v.kGoal }) p) evBlend (0x0600 + p) 9)
  else .next s

/-! ## Member alignment (Table 8-2, R267–R273) -/

/-- What a correlation gives (R267, R268): quiet, accepted, the lag in 1/256 sample, |R| at the peak, and its sign. -/
structure LagResult where
  quiet    : Bool
  ok       : Bool
  lag      : Int
  corr     : Nat
  negative : Bool
  gain     : Int

/-- Place of the largest |R| among lags within ±`range` steps. -/
def peakOf (m : LagMeasure) (range : Nat) : Nat :=
  (List.range m.r.length).foldl (fun b i =>
    let inside (k : Nat) : Bool := decide ((m.first + k).natAbs ≤ range)
    if inside i && (!inside b || decide ((m.r.getD b 0).natAbs < (m.r.getD i 0).natAbs)) then i else b) 0

/-- A correlation is judged (R268): `step` is one lag step in 1/256 sample, `far` the steps from which |R| must lie 0.15 below
the peak, `refine` asks for the parabola, and `minCorr` is `CORR_MIN`. -/
def judgeLag (m : LagMeasure) (step : Int) (range far minCorr : Nat) (refine : Bool) : LagResult :=
  let p := peakOf m range
  let r (i : Nat) : Int := m.r.getD i 0
  let corr := (r p).natAbs
  let den := 2 * (r (p - 1) - 2 * r p + r (p + 1))
  let off := if refine ∧ 0 < p ∧ p + 1 < m.r.length ∧ den ≠ 0 then step * (r (p - 1) - r (p + 1)) / den else 0
  { quiet := decide (m.rmsA < -5000) || decide (m.rmsB < -5000)
    ok := decide (100 * minCorr ≤ corr) && (List.range m.r.length).all fun i =>
      decide ((i : Int) - p ≤ far ∧ (p : Int) - i ≤ far) || decide ((r i).natAbs + 1500 ≤ corr)
    lag := (m.first + p) * step + off, corr := corr, negative := decide (r p < 0), gain := m.gain }

/-- `CORR_MIN` of a group; its default for a path that heads none. -/
def corrMin (s : State) (h : Nat) : Nat := ((mget s.groups h).map fun g => byteAt g.cfg 17).getD 60

/-- A member starts to search; its coarse window starts. -/
def Member.search (m : Member) (now : Sid) : Member :=
  { m with align := .searching, fine := false, coarse := 0, told := false, fails := 0, big := 0, run := 0, winAt := now }

/-- A member and its head both deliver PCM: Unaligned becomes Searching. -/
def startSearch (s : State) (h m : Nat) : State :=
  match mget s.groups h with
  | none => s
  | some g =>
    let v := g.member m
    if m ≠ 0 ∧ v.path ≠ 0xFF ∧ v.align = .unaligned ∧ (path s v.path).pcm ∧ (path s h).pcm then
      putGroup s h (g.setMember m (v.search s.sid.now))
    else s

/-- A member, or its head, no longer delivers PCM: Unaligned. -/
def stopSearch (s : State) (h m : Nat) : State :=
  match mget s.groups h with
  | none => s
  | some g =>
    let v := g.member m
    if m ≠ 0 ∧ v.path ≠ 0xFF then putGroup s h (g.setMember m { v with align := .unaligned, fine := false, run := 0 }) else s

/-- `MEMBER_PCM_CHANGE` (R273): the path's source starts or stops delivering, as its lane or service has it. -/
def execMemberPcmChange (p : Nat) (delivering : Bool) (s : State) : Host.Outcome State Fault Refusal :=
  if p ≥ 24 ∨ delivers s p ≠ delivering ∨ (path s p).pcm = delivering then .next s
  else
    let s1 := putPath s p { path s p with pcm := delivering }
    match groupOf s1 p with
    | none => .next s1
    | some e =>
      if delivering then .next (e.2.used.foldl (fun q m => startSearch q e.1 m) s1)
      else .next ((e.2.used.filter fun m => (e.2.member m).path == p || p == e.1).foldl (fun q m => stopSearch q e.1 m) s1)

/-- The member is inverted where the peak is negative; the first time is told (R268). -/
def invertIf (s : State) (h m : Nat) (neg : Bool) : State :=
  match mget s.groups h with
  | none => s
  | some g =>
    let v := g.member m
    let s1 := putGroup s h (g.setMember m { v with invert := neg })
    if neg ∧ v.invert = false then evAlign s1 h m 0x15 else s1

/-- The member of a group, where it is in use and no head. -/
def memberAt (s : State) (h m : Nat) : Option Member :=
  match mget s.groups h with
  | some g => if m ≠ 0 ∧ m < 4 ∧ (g.member m).path ≠ 0xFF then some (g.member m) else none
  | none => none

/-- A member's record changes. -/
def putMember (s : State) (h m : Nat) (v : Member) : State :=
  match mget s.groups h with
  | some g => putGroup s h (g.setMember m v)
  | none => s

/-- A member has no pages: NoMemory. -/
def noMemory (s : State) (h m : Nat) (v : Member) : State :=
  evAlign (putMember s h m { v with align := .noMemory, fine := false }) h m 0x13

/-- `CORR_WIN` of a group, and `SEARCH_MS` in lag steps of 1/3 ms. -/
def corrWin (s : State) (h : Nat) : Nat := ((mget s.groups h).map fun g => byteAt g.cfg 16).getD 4 * secU
def searchRange (s : State) (h : Nat) : Nat := 3 * ((mget s.groups h).map fun g => le g.cfg 14 2).getD 4000

/-- A member's next coarse window starts where the last one ended: windows follow one another without gaps (R267). -/
def nextWindow (s : State) (h : Nat) (v : Member) : Member := { v with winAt := v.winAt + corrWin s h }

/-- `COARSE_RESULT` (R267, R268, Table 8-2): no earlier than 30 ms after the window fills.
Log: 90 (DEDUCED). -/
def execCoarseResult (h m : Nat) (lm : LagMeasure) (t : Sid) (s0 : State) : Host.Outcome State Fault Refusal :=
  let s := advance s0 t
  let r := judgeLag lm 4096 (searchRange s h) 3 (corrMin s h) false
  match memberAt s h m with
  | none => .next s
  | some v0 =>
    let v := nextWindow s h v0
    if v.align ≠ .searching ∨ v.fine ∨ s.sid.now < v.winAt + 30 * secU / 1000 then .next s
    else if r.quiet then .next (putMember s h m v)
    else if r.ok then
      match setDelay s v.path ((path s h).k - r.lag) with
      | none => .next (noMemory s h m v)
      | some s1 => .next (invertIf (putMember s1 h m { v with fine := true, lag := r.lag, corr := r.corr, coarse := 0, told := false })
          h m r.negative)
    else
      let v1 : Member := { v with coarse := v.coarse + 1 }
      if 3 ≤ v1.coarse ∧ v.told = false then .next (evAlign (putMember s h m { v1 with told := true }) h m 0x14)
      else .next (putMember s h m v1)

/-- The lag that drift adds in one loop period of 4800 samples (R269); drift in 0.01 ppm. -/
def driftStep (nu : Int) : Int := nu * 4800 * 256 / 100000000

/-- G_m after a measurement: at once on alignment, then by at most 0.05 dB a loop (R272). -/
def gainStep (lvl first : Bool) (old new : Int) : Int :=
  if lvl = false then old
  else
    let goal := clampI 1200 new
    if first then goal else max (old - 5) (min (old + 5) goal)

/-- A member becomes Aligned: A_m set, K recomputed, `EV_LINK` cause 0x10 (Table 8-2). -/
def alignMember (s : State) (h m : Nat) (v : Member) (r : LagResult) : State :=
  let a := v.lag + r.lag
  match setDelay s v.path ((path s h).k - a) with
  | none => noMemory s h m v
  | some s1 =>
    let v1 : Member := { v with align := .aligned, lag := a, drift := 0, corr := r.corr, fails := 0, big := 0, run := 0,
                                gain := gainStep (bit (byteAt (path s h).blend 7) 0) true v.gain r.gain, since := s.sid.ticks }
    evAlign (retarget (invertIf (putMember s1 h m v1) h m r.negative) h) h m 0x10

/-- One member at a loop boundary (R269). -/
def loopMember (s : State) (e : Nat × Nat × LagMeasure) : State :=
  let h := e.1
  let m := e.2.1
  let r := judgeLag e.2.2 256 32 4 (corrMin s h) true
  match memberAt s h m with
  | none => s
  | some v =>
    let from_ := s.sid.now - 16384 * secU / 48000
    if from_ < (path s v.path).setAt ∨ from_ < (path s h).setAt then s
    else match v.align with
    | .searching => if v.fine ∧ r.ok ∧ r.quiet = false then alignMember s h m v r else s
    | .aligned | .holding =>
      if r.quiet then s
      else if r.ok = false then
        let v1 : Member := { v with fails := v.fails + 1 }
        if 3 ≤ v1.fails ∧ v.align = .aligned then
          evAlign (putMember s h m { v1 with align := .holding, holdBy := deadline s 3200 }) h m 0x11
        else putMember s h m v1
      else if 8 * 256 < r.lag.natAbs then
        if 2 ≤ v.big + 1 then evAlign (putMember s h m ({ v with fails := 0 }.search s.sid.now)) h m 0x12
        else putMember s h m { v with fails := 0, big := v.big + 1 }
      else
        let v1 : Member := { v with fails := 0, big := 0, align := .aligned, lag := v.lag + r.lag / 2, corr := r.corr,
                                    drift := clampI 20000 (v.drift + r.lag * 5000000 / 1228800),
                                    gain := gainStep (bit (byteAt (path s h).blend 7) 0) false v.gain r.gain,
                                    since := if v.align = .aligned then v.since else s.sid.ticks }
        let s1 := invertIf (putMember s h m v1) h m r.negative
        retarget (trackDelay s1 v.path ((path s1 h).k - v1.lag)) h
    | _ => s

/-- Between measurements the lag of an Aligned or Holding member moves with its drift, and its delay follows (R269). -/
def coastMember (s : State) (e : Nat × Nat) : State :=
  match memberAt s e.1 e.2 with
  | none => s
  | some v =>
    if v.align = .aligned ∨ v.align = .holding then
      let v1 : Member := { v with lag := v.lag + driftStep v.drift }
      trackDelay (putMember s e.1 e.2 v1) v.path ((path s e.1).k - v1.lag)
    else s

/-- All members coast over a loop period. -/
def coastAll (s : State) : State := s.groups.foldl (fun q e => [1, 2, 3].foldl (fun p m => coastMember p (e.1, m)) q) s

/-- Fine-measurement slots in use by group members (R271). -/
def alignSlots (s : State) : Nat := (s.groups.map fun e => (e.2.used.filter (· != 0)).length).foldl (· + ·) 0

/-- A candidate of AF following is measured against the playing path (R271): index 4 + i stands for candidate i.
Log: 80 (DEDUCED). -/
def loopCandidate (s : State) (e : Nat × Nat × LagMeasure) : State :=
  match s.afs.find? fun a => laneProg s a.1 == e.1 with
  | none => s
  | some a =>
    let i := e.2.1 - 4
    let v := path s e.1
    let r := judgeLag e.2.2 256 (48 * byteAt v.blend 4) 4 (corrMin s e.1) true
    match a.2.cands[i]? with
    | none => s
    | some k =>
      let fits := decide (0 ≤ v.delta - r.lag) && decide (v.delta - r.lag ≤ 256 * (4800 + 16384 * (v.pages : Int)))
      if r.quiet ∨ r.ok = false then s
      else putAf s a.1 { a.2 with cands := a.2.cands.set i { k with delay := if fits && decide (alignSlots s + i < 64)
                                                                          then some r.lag else none } }

/-- `ALIGN_LOOP` (R269): at tick numbers divisible by 320.
Log: 80 (DEDUCED). -/
def execAlignLoop (ms : List (Nat × Nat × LagMeasure)) (s : State) : Host.Outcome State Fault Refusal :=
  if windowDone s 320 then .next (ms.foldl (fun q e => if e.2.1 < 4 then loopMember q e else loopCandidate q e) (coastAll s))
  else .next s

/-- `HOLDING_TIMEOUT` (Table 8-2). -/
def execHoldingTimeout (h m : Nat) (s : State) : Host.Outcome State Fault Refusal :=
  match memberAt s h m with
  | none => .next s
  | some v =>
    if v.align = .holding ∧ expired s v.holdBy then .next (evAlign (putMember s h m (v.search s.sid.now)) h m 0x12) else .next s

/-- `PAGE_RELEASED` (Table 8-2): members in NoMemory search again. -/
def execPageReleased (s : State) : Host.Outcome State Fault Refusal :=
  if freePages s = 0 then .next s
  else
    let f (m : Member) : Member := if m.align = .noMemory then m.search s.sid.now else m
    .next (s.setGroups (s.groups.map fun e => (e.1, { e.2 with members := e.2.members.map f })))

/-! ## Quality and links of members (R261, R275) -/

/-- The full lane that feeds a path: its AM or FM demodulator's, or its service's. -/
def feedLane (s : State) (p : Nat) : Option Nat :=
  match mget s.services p with
  | some v => some v.lane
  | none => pathLane s p

/-- The standard of a path's source: 1 FM, 2 DAB, 3 DRM, 4 AM, 0 none. -/
def pathStd (s : State) (p : Nat) : Nat :=
  match feedLane s p with
  | none => 0
  | some n => match fullUse s n with
    | 2 => 4
    | 3 => 1
    | 4 => 2
    | _ => 3

/-- The identifier of a path's source: PI, SId or DRM service identifier. -/
def pathIdent (s : State) (p : Nat) : Option Nat :=
  match mget s.services p with
  | some v => some v.sid
  | none => (pathLane s p).bind fun n => (demod s n).rds.val itemPi

/-- A link entry matches a path's source (R261); frequencies in kHz against mHz. -/
def linkMatches (s : State) (p : Nat) (e : LinkEntry) : Bool :=
  e.std == pathStd s p && decide (some e.ident = pathIdent s p) &&
    (e.freq == 0 || match feedLane s p with
      | some n => decide (((e.freq : Int) * 1000000 - (lane s (0x0300 + n)).freq).natAbs ≤ 50000000)
      | none => false)

/-- A hard-link set holds an entry that matches each of two paths (R261). -/
def hardLinked (s : State) (p q : Nat) : Bool :=
  s.links.entries.any fun e => e.2.hard && linkMatches s p e.2 &&
    s.links.entries.any fun f => f.2.hard && f.2.set == e.2.set && linkMatches s q f.2

/-- A value clamped to 0–100. -/
def clamp100 (v : Int) : Nat := (max 0 (min 100 v)).toNat

/-- q_m (R275). -/
def memberQ (s : State) (g : Group) (p : Nat) : Nat :=
  if p = 0xFF ∨ delivers s p = false then 0
  else
    match mget s.services p with
    | some v =>
      if v.st = .muted then 0
      else
        let mer : Int := (((ofdm s v.lane).meas.map (·.mer)).getD 0 : Nat)
        let au : Int := ((v.meas.map (·.auErr)).getD 0 : Nat)
        let m0 : Int := byteAt g.cfg 18
        let m1 : Int := byteAt g.cfg 19
        let qd : Int := byteAt g.cfg 20
        min (clamp100 (10 * (mer - 10 * m0) / (m1 - m0))) (clamp100 (10 * (10 * qd - au) / qd))
    | none => match pathLane s p with
      | some n => (demod s n).q
      | none => 0

/-- qe_m: with `F_BIAS` for members of the preferred standard (R275). -/
def memberQe (s : State) (g : Group) (p : Nat) : Nat :=
  memberQ s g p + if byteAt g.cfg 1 ≠ 0 ∧ pathStd s p = byteAt g.cfg 1 then byteAt g.cfg 2 else 0

/-! ## Fades (R277–R280) -/

/-- A group fade starts now (R277, R278). -/
def startFade (s : State) (h from_ to_ : Nat) (unalign panic byNow : Bool) : State :=
  match mget s.groups h with
  | none => s
  | some g =>
    let f : Fade := { from_ := from_, to_ := to_, unalign := unalign, panic := panic, byNow := byNow, start := s.sid.now,
                      stop := s.sid.now + (path s h).fadeMs * 1000000 * 65536, reversed := false, pos := 0 }
    let p := (g.member from_).path
    let q := (g.member to_).path
    let s1 := if unalign then (setDelay s q (path s p).delta).getD s else s
    evFade (putGroup s1 h { g with fade := some f }) h 1 f

/-- A candidate of one window evaluation: its index, qe, and whether panic alone chose it. -/
structure GroupPick where
  m     : Nat
  qe    : Nat
  panic : Bool

/-- One member in a window evaluation (R276). -/
def windowMember (s : State) (p : Nat) (acc : Group × Option GroupPick) (m : Nat) : Group × Option GroupPick :=
  let g := acc.1
  let v := g.member m
  let head := (g.member 0).path
  if m = p ∨ (g.reqLink ∧ m ≠ 0 ∧ hardLinked s head v.path = false) then acc
  else
    let al := m == 0 || decide (v.align = .aligned)
    let qeP := memberQe s g (g.member p).path
    let qeM := memberQe s g v.path
    let better := decide (qeP + byteAt g.cfg 7 ≤ qeM)
    let run := if al && better && (m == 0 || decide (v.since < s.sid.ticks)) then v.run + 1 else 0
    let g1 := g.setMember m { v with run := run }
    let pn := decide (memberQ s g (g.member p).path ≤ byteAt g.cfg 9) && better
    let ready := decide (byteAt g.cfg 8 ≤ run) && decide (g.last + le g.cfg 10 2 ≤ s.sid.ticks)
    let ok := ready || (pn && (al || !g.reqAlign))
    if ok = false then (g1, acc.2)
    else match acc.2 with
      | some b => if b.qe < qeM then (g1, some ⟨m, qeM, pn⟩) else (g1, acc.2)
      | none => (g1, some ⟨m, qeM, pn⟩)

/-- A group whose output is muted chooses the best member that delivers. -/
def wakeGroup (s : State) (h : Nat) (g : Group) : State :=
  let best := (g.used.filter fun m => delivers s (g.member m).path).foldl (fun b m => match b with
    | none => some m
    | some x => if memberQe s g (g.member x).path < memberQe s g (g.member m).path then some m else b) none
  putGroup s h { g with active := best }

/-- The evaluation of a group at a window boundary (R276). -/
def groupWindow (s : State) (h : Nat) : State :=
  match mget s.groups h with
  | none => s
  | some g =>
    if g.mode ≠ 1 ∨ g.fade.isSome ∨ (path s h).changing then s
    else
      match g.active with
      | none => wakeGroup s h g
      | some p =>
        let r := g.used.foldl (windowMember s p) (g, none)
        let s1 := putGroup s h r.1
        match r.2 with
        | none => s1
        | some b => startFade s1 h p b.m (!(b.m == 0 || decide ((r.1.member b.m).align = .aligned))) b.panic false

/-- The FM lanes that feed members of a group. -/
def groupFmLanes (s : State) (g : Group) : List Nat :=
  g.used.filterMap fun m => match pathStd s (g.member m).path with
    | 1 => feedLane s (g.member m).path
    | _ => none

/-- Groups whose last FM member is measured on lane `n`: their evaluation follows that window.
Log: 91 (DEDUCED). -/
def groupsAfter (s : State) (n : Nat) : State :=
  (s.groups.filter fun e => (groupFmLanes s e.2).foldl max 0 == n && (groupFmLanes s e.2).contains n).foldl
    (fun q e => groupWindow q e.1) s

/-- Groups with no FM member, at window boundaries (R184).
Log: 91 (DEDUCED). -/
def groupsTick (s : State) : State :=
  if windowDone s 32 then (s.groups.filter fun e => (groupFmLanes s e.2).isEmpty).foldl (fun q e => groupWindow q e.1) s
  else s

/-- A `BLEND_NOW` starts at a tick boundary, and not during a delay change. -/
def blendNext (s : State) : State :=
  s.groups.foldl (fun q e => match e.2.blendTo with
    | none => q
    | some m =>
      if e.2.fade.isSome ∨ (path q e.1).changing then q
      else startFade (putGroup q e.1 { e.2 with blendTo := none }) e.1 (e.2.active.getD 0) m
        (!(m == 0 || decide ((e.2.member m).align = .aligned))) false true) s

/-! ## FOLLOW_SET (R274) -/

/-- The group is gone: H keeps K and shrinks it (R274). -/
def dissolve (s : State) (h : Nat) : State := retarget (s.setGroups (mdel s.groups h)) h

/-- The members of a `FOLLOW_SET` payload, keeping the alignment of those that stay. -/
def groupMembers (old : Option Group) (h : Nat) (b : Bytes) : List Member :=
  { Member.unused with path := h, align := .aligned } ::
    [0, 1, 2].map fun i =>
      let p := byteAt b (4 + i)
      match old.bind fun g => g.members.find? fun m => m.path == p && p != 0xFF with
      | some m => m
      | none => { Member.unused with path := p }

/-- A group is formed, or its settings change; at formation K = A_H + max(r, `PRE_DELAY_MS`). -/
def formGroup (s : State) (h : Nat) (b : Bytes) : State :=
  let old := mget s.groups h
  let g : Group := match old with
    | some g => { g with cfg := b, members := groupMembers old h b }
    | none => { cfg := b, members := groupMembers none h b, active := some 0, fade := none, last := 0, fades := 0,
                blendTo := none, held := none }
  let s1 := putGroup s h g
  let s2 := if old.isSome then retarget s1 h
            else
              let k := (path s h).lag + max (path s h).reserve (msUnits (le b 12 2))
              followK (putPath s1 h { path s1 h with k := k, kGoal := k }) h
  [1, 2, 3].foldl (fun q m => startSearch q h m) s2

/-- A held `FOLLOW_SET` takes effect: settings, or the end of the group. -/
def applyFollow (s : State) (h : Nat) (b : Bytes) : State := if byteAt b 0 = 0 then dissolve s h else formGroup s h b

/-- A path that may not be a member: an AM path, a head, or a member of another group (R274).
Log: 88 (DEDUCED). -/
def memberDenied (s : State) (h p : Nat) : Bool :=
  pathStd s p == 4 || (p != h && (mget s.groups p).isSome) ||
    match groupOf s p with
    | some e => e.1 != h
    | none => false

/-- The member paths named. -/
def namedMembers (b : Bytes) : List Nat := ([0, 1, 2].map fun i => byteAt b (4 + i)).filter (· != 0xFF)

/-- A fade of the group has lost a member to a new setting (Table 8-4). -/
def removes (g : Group) (b : Bytes) : Bool :=
  match g.fade with
  | some f => [f.from_, f.to_].any fun m => m != 0 && !(namedMembers b).contains (g.member m).path
  | none => false

/-- The fade turns round from the present point (R279).
Log: 89 (DEDUCED). -/
def reverseFade (s : State) (f : Fade) : Fade :=
  { f with from_ := f.to_, to_ := f.from_, start := s.sid.now, stop := s.sid.now + (s.sid.now - f.start), reversed := !f.reversed }

/-- Table 8-4 for a fade one of whose members no longer plays or is removed: `inGone`, `outGone`. -/
def resolveFade (s : State) (h : Nat) (g : Group) (f : Fade) (inGone outGone : Bool) : State :=
  let mark := s.ev.nextId
  if inGone ∧ outGone then
    let s1 := evFade (putGroup s h { g with fade := none, active := none }) h 7 f
    finishOp (match g.held with
      | some b => finishOp (applyFollow (putGroup s1 h { g with fade := none, active := none, held := none }) h b) 0x0706 (0x0600 + h)
          stOk 0 [] mark
      | none => s1) 0x0707 (0x0600 + h) stOk 0 [] mark
  else if inGone then evFade (putGroup s h { g with fade := some (reverseFade s f) }) h 5 f
  else if outGone then
    evFade (putGroup s h { g with fade := some { f with stop := min f.stop (s.sid.now + 5 * 1000000 * 65536) } }) h 6 f
  else s

/-- `FOLLOW_SET` (R274, Table 8-4).
Log: 88 (DEDUCED). -/
def followSetUnit (c : Cmd) (s : State) : Reply :=
  let h := c.inst
  let b := c.pl
  let old := mget s.groups h
  if byteAt b 0 = 0 then
    match old with
    | none => ok s
    | some g =>
      if g.fade.isSome then .busy (putGroup s h { g with held := some b })
      else match g.active with
        | some (m + 1) => .busy (startFade (putGroup s h { g with held := some b }) h (m + 1) 0
            (decide ((g.member (m + 1)).align ≠ .aligned)) false false)
        | _ => ok (dissolve s h)
  else if (h :: namedMembers b).any (memberDenied s h) ∨ (namedMembers b).contains h ∨ ¬ (namedMembers b).Nodup ∨
      (old.isNone ∧ (groupOf s h).isSome) then badState
  else if old.isNone ∧ 8 ≤ s.groups.length then .deny stNoResource 0
  else if old.isNone ∧ (path s h).pages + freePages s < pagesFor (max (path s h).reserve (msUnits (le b 12 2))) then
    .deny stNoResource 0
  else
    match old with
    | none => ok (formGroup s h b)
    | some g =>
      match g.fade with
      | none => ok (formGroup s h b)
      | some f =>
        if removes g b then
          let gone : Nat → Bool := fun m => m != 0 && !(namedMembers b).contains (g.member m).path
          ok (resolveFade (putGroup s h { g with cfg := b }) h { g with cfg := b } f (gone f.to_) (gone f.from_))
        else .busy (putGroup s h { g with held := some b })

/-- Table 8-6, `FOLLOW_SET`; with `F_MODE` 0x0 the other fields are checked alike. -/
def followSetSpec : CmdSpec :=
  { op := 0x0706, target := toPath, len := fun _ => 24,
    fields := fun _ => [rng 0 1 0 2, rng 1 1 0 3, rng 2 1 0 50, wid 3 1 3, progFld 4, progFld 5, progFld 6, rng 7 1 1 50,
      rng 8 1 1 100, rng 9 1 0 100, rng 12 2 0 7000, rng 14 2 100 7000, rng 16 1 2 8, rng 17 1 30 95,
      ⟨19, fun b => decide (byteAt b 18 < byteAt b 19)⟩, rng 20 1 1 255, rsv 22 2],
    unit := followSetUnit }

/-- `BLEND_NOW` (R276, R287). -/
def blendNowUnit (c : Cmd) (s : State) : Reply :=
  match mget s.groups c.inst with
  | none => badState
  | some g =>
    let m := byteAt c.pl 0
    if g.fade.isSome ∨ g.blendTo.isSome ∨ g.active = some m ∨ (g.member m).path = 0xFF ∨
        (bit (byteAt c.pl 1) 0 ∧ m ≠ 0 ∧ (g.member m).align ≠ .aligned) then badState
    else .busy (putGroup s c.inst { g with blendTo := some m })

def blendNowSpec : CmdSpec :=
  { op := 0x0707, target := toPath, len := fun _ => 4, fields := fun _ => [rng 0 1 0 3, wid 1 1 1, rsv 2 2],
    unit := blendNowUnit }

/-- `GROUP_FADE_END` (R278): the new member is active; what waited for the end of the fade follows.
Log: 89 (DEDUCED). -/
def execGroupFadeEnd (h : Nat) (t : Sid) (s : State) : Host.Outcome State Fault Refusal :=
  match mget s.groups h with
  | none => .next s
  | some g =>
    match g.fade with
    | none => .next s
    | some f =>
      let s0 := advance s t
      if s0.sid.now < f.stop then .next s
      else
        let mark := s0.ev.nextId
        let g1 : Group := { g with fade := none, active := some f.to_, last := s0.sid.ticks, fades := g.fades + 1, held := none }
        let s1 := evFade (putGroup s0 h g1) h 2 f
        let s2 := finishOp s1 0x0707 (0x0600 + h) stOk 0 [] mark
        match g.held with
        | none => .next s2
        | some b => .next (finishOp (applyFollow s2 h b) 0x0706 (0x0600 + h) stOk 0 [] mark)

/-- The incoming member enters Holding (R279). -/
def guardHolds (s : State) (h m : Nat) : State :=
  match memberAt s h m with
  | some v => evAlign (putMember s h m { v with align := .holding, holdBy := deadline s 3200 }) h m 0x11
  | none => s

/-- The playing lane of an AF fade whose programme path is `p`. -/
def afFadeOn (s : State) (p : Nat) : Option Nat :=
  (s.afs.find? fun e => laneProg s e.1 == p && match e.2.phase with
    | .fading _ => true
    | _ => false).map (·.1)

/-- Correlation is lost (R279): R below `GUARD_MIN` for 4 ticks in a row with both signals at −50 dBFS or more. -/
def guardLost (s : State) (h : Nat) (ticks : List (Int × Int × Int)) : Bool :=
  decide (4 ≤ ticks.length) && (ticks.take 4).all fun e =>
    decide (e.1 < 100 * byteAt (path s h).blend 6) && decide (-5000 ≤ e.2.1) && decide (-5000 ≤ e.2.2)

/-- `FADE_GUARD_LOSS` (R279): before its middle an aligned fade reverses, after it the fade completes. An AF switch fade
that reverses is abandoned.
Log: 89 (DEDUCED). -/
def execFadeGuardLoss (h : Nat) (ticks : List (Int × Int × Int)) (s : State) : Host.Outcome State Fault Refusal :=
  if guardLost s h ticks = false then .next s
  else match (mget s.groups h).bind (·.fade), mget s.groups h with
  | some f, some g =>
    if f.unalign then .next s
    else
      let s1 := if s.sid.now + s.sid.now < f.start + f.stop then
          evFade (putGroup s h { g with fade := some (reverseFade s f) }) h 3 f
        else evFade s h 4 f
      .next (guardHolds s1 h f.to_)
  | _, _ => match afFadeOn s h with
    | some n => if (afOf s n).unalign then .next s else .next (abandonSwitch s n)
    | none => .next s

/-- `FADE_HAPPENING` (R280, Table 8-4). -/
def execFadeHappening (h : Nat) (s : State) : Host.Outcome State Fault Refusal :=
  match (mget s.groups h).bind (·.fade), mget s.groups h with
  | some f, some g => .next (resolveFade s h g f (!delivers s (g.member f.to_).path) (!delivers s (g.member f.from_).path))
  | _, _ => .next s

/-! ## FOLLOW_GET and BLEND_SET -/

def alignCode : Align → Nat
  | .unaligned => 0
  | .searching => 1
  | .aligned => 2
  | .holding => 3
  | .noMemory => 4

/-- One member record (Table 8-7). -/
def memberRecord (s : State) (h : Nat) (g : Group) (m : Nat) : Bytes :=
  let v := g.member m
  if v.path = 0xFF then 0xFF :: zeros 19
  else
    leBytes 1 v.path ++ leBytes 1 (if m = 0 then 2 else alignCode v.align) ++ leBytes 1 (memberQ s g v.path) ++
      leBytes 1 (flag (decide (g.active = some m)) 0 + flag (m != 0 && hardLinked s h v.path) 1 + flag v.invert 2) ++
      sleBytes 4 (if m = 0 then (path s h).lag else v.lag) ++ sleBytes 4 (path s v.path).delta ++ leBytes 2 v.corr ++
      sleBytes 2 v.gain ++ sleBytes 2 v.drift ++ zeros 2

/-- `G_STATE` of a group. -/
def groupState (s : State) (h : Nat) (g : Group) : Nat :=
  if g.fade.isSome then 2 else if (path s h).changing then 3 else if g.active.isNone then 4 else 1

/-- The `FOLLOW_GET` result (R287); a path that heads no group reads as idle. -/
def followResult (s : State) (h : Nat) : Bytes :=
  let k := sleBytes 4 (path s h).k
  let p := leBytes 2 (path s h).pages
  match mget s.groups h with
  | none => [0, 0, 0, 0] ++ k ++ p ++ zeros 6 ++ (List.replicate 4 ((0xFF : Byte) :: zeros 19)).flatten
  | some g => leBytes 1 g.mode ++ leBytes 1 g.used.length ++ leBytes 1 (g.active.getD 0xFF) ++ leBytes 1 (groupState s h g) ++
      k ++ p ++ zeros 2 ++ leBytes 4 g.fades ++ ([0, 1, 2, 3].map (memberRecord s h g)).flatten

def followGetSpec : CmdSpec :=
  { op := 0x0708, target := toPath, len := fun _ => 0, largest := fun _ => 96,
    unit := fun c s => okWith (followResult s c.inst) s }

/-- Table 8-5, `BLEND_SET`: from the next tick. -/
def blendSetSpec : CmdSpec :=
  { op := 0x0705, target := toPath, len := fun _ => 12,
    fields := fun _ => [rng 0 2 2 2000, rng 2 1 0 2, rng 3 1 0 2, rng 4 1 0 50, rng 5 1 1 20, rng 6 1 10 90, wid 7 1 1, rsv 8 4],
    unit := fun c s => .busy (putPath s c.inst { path s c.inst with blendNext := some c.pl }) }

/-- A `BLEND_SET` accepted before this tick takes effect; the reserve moves K (R264, R287). -/
def blendApply (s : State) : State :=
  (s.paths.filter fun e => e.2.blendNext.isSome).foldl (fun q e =>
    retarget (putPath q e.1 { path q e.1 with blend := e.2.blendNext.getD e.2.blend, blendNext := none }) e.1) s

/-! ## Equaliser banks (R281–R285) -/

/-- The sections of an `EQ_LOAD` payload. -/
def loadSecs (b : Bytes) (m : List (Nat × Bytes)) : List (Nat × Bytes) :=
  (List.range (byteAt b 2)).foldl (fun q i => mput q (byteAt b 1 + i) ((b.drop (8 + 40 * i)).take 40)) m

/-- `EQ_LOAD` (R282): never to the bank in use or to one that a swap selects. -/
def eqLoadUnit (c : Cmd) (s : State) : Reply :=
  let v := path s c.inst
  let toB := byteAt c.pl 0 == 1
  if toB = v.useB ∨ v.swap = some toB then badState
  else
    let k := if toB then v.bankB else v.bankA
    let k1 : Bank := { k with pre := if bit (byteAt c.pl 3) 0 then le c.pl 4 4 else k.pre, secs := loadSecs c.pl k.secs }
    ok (putPath s c.inst (if toB then { v with bankB := k1, readyB := deadline s 32 }
                          else { v with bankA := k1, readyA := deadline s 32 }))

/-- Table 8-8, `EQ_LOAD`.
Log: 92 (DEDUCED). -/
def eqLoadSpec : CmdSpec :=
  { op := 0x0709, target := toPath, len := fun b => if b.length < 8 then 48 else 8 + 40 * byteAt b 2,
    fields := fun _ => [rng 0 1 0 1, rng 1 1 0 7,
      ⟨2, fun b => decide (1 ≤ byteAt b 2) && decide (byteAt b 1 + byteAt b 2 ≤ 8)⟩, wid 3 1 1],
    unit := eqLoadUnit }

/-- `EQ_SWAP_BANK` (R283, R285): a pending swap is replaced. -/
def eqSwapUnit (c : Cmd) (s : State) : Reply :=
  let v := path s c.inst
  let toB := byteAt c.pl 0 == 1
  let s1 := match v.swap with
    | some _ => finishOp s 0x070A c.tgt stSuperseded c.a.tag.toNat [] s.ev.nextId
    | none => s
  if toB = v.useB then ok (putPath s1 c.inst { path s1 c.inst with swap := none })
  else .busy (putPath s1 c.inst { path s1 c.inst with swap := some toB, swapBy := deadline s 1 })

def eqSwapSpec : CmdSpec :=
  { op := 0x070A, target := toPath, sample := true, len := fun _ => 4, fields := fun _ => [rng 0 1 0 1, rsv 1 3],
    unit := eqSwapUnit }

/-- A fade involves the path (R284). -/
def pathFading (s : State) (p : Nat) : Bool :=
  (s.groups.any fun e => match e.2.fade with
    | some f => e.1 == p || (e.2.member f.from_).path == p || (e.2.member f.to_).path == p
    | none => false) || (afFadeOn s p).isSome

/-- `EQ_SWAP_EFFECT` (R283, R284). -/
def execEqSwapEffect (p : Nat) (t : Sid) (s : State) : Host.Outcome State Fault Refusal :=
  let v := path s p
  let s1 := advance s t
  match v.swap with
  | none => .next s
  | some b =>
    let due := ((executing s 0x070A (0x0600 + p)).map (·.due)).getD 0
    if p < 24 ∧ expired s v.swapBy ∧ expired s (if b then v.readyB else v.readyA) ∧ due ≤ s1.sid.now ∧ pathFading s p = false then
      .next (finishOp (putPath s1 p { path s1 p with useB := b, swap := none, bankFade := 64 }) 0x070A (0x0600 + p) stOk 0 [] s1.ev.nextId)
    else .next s

/-! ## The samples of a path (R256, R277, R281, R283) -/

/-- g_in of a fade law at x in 2⁻³² (Table 8-3), in 2⁻²³; `g_out` is that of 1 − x for each of them. -/
def fadeIn (law x : Nat) : Int :=
  match law with
  | 0 => x / 2 ^ 9
  | 1 => (2 ^ 23 - (sineCosine 24 (x * 2 ^ 15)).re) / 2
  | _ => (sineCosine 24 (x * 2 ^ 14)).im

def fadeOut (law x : Nat) : Int := fadeIn law (2 ^ 32 - x)

/-- A mix of two samples by gains in 2⁻²³. -/
def mix2 (a b : Int × Int) (ga gb : Int) : Int × Int :=
  (clampTo 24 (convRound (a.1 * ga + b.1 * gb) 23), clampTo 24 (convRound (a.2 * ga + b.2 * gb) 23))

/-- One biquad section of a channel (R281). -/
def sectionStep (c : Bytes) (ch : Nat) (h : List Int) (x : Int) : List Int × Int :=
  let q (i : Nat) : Int := les c (20 * ch + 4 * i) 4
  let y := convRound (q 0 * x + q 1 * h.getD 0 0 + q 2 * h.getD 1 0 - q 3 * h.getD 2 0 - q 4 * h.getD 3 0) 28
  ([x, h.getD 0 0, y, h.getD 2 0], y)

/-- A sample of one channel through a bank: pre-gain and the sections that have been loaded; the others pass it (R281). -/
def Bank.channel (k : Bank) (ch : Nat) (x : Int) : Bank × Int :=
  let pre : Int := if k.pre < 2 ^ 31 then k.pre else (k.pre : Int) - 2 ^ 32
  k.secs.foldl (fun a e =>
    let r := sectionStep e.2 ch (mgetD a.1.hist (2 * e.1 + ch) []) a.2
    ({ a.1 with hist := mput a.1.hist (2 * e.1 + ch) r.1 }, r.2)) (k, convRound (x * pre) 28)

def Bank.step (k : Bank) (x : Int × Int) : Bank × (Int × Int) :=
  ((((k.channel 0 x.1).1).channel 1 x.2).1, ((k.channel 0 x.1).2, (((k.channel 0 x.1).1).channel 1 x.2).2))

/-- The delay line read at δ through the fractional interpolator (R256).
Log: 193 (DESIGN CHOICE). -/
def readLine (line : List (Int × Int)) (delta : Nat) : Int × Int :=
  let tap (i : Nat) : Int × Int := line.getD (delta / 256 + i - 3) (0, 0)
  let one (f : Int × Int → Int) : Int :=
    convRound (((List.range 8).map fun i => Config.coef 56 (8 * (delta % 256) + i) * f (tap i)).sum) 20
  if delta % 256 = 0 then line.getD (delta / 256) (0, 0) else (one (·.1), one (·.2))

/-- One source sample through a path as far as the mix: delay, polarity and level, and both banks, of which the one in use gives
the output; a swap cross-fades over 64 samples. -/
def Path.pass (gain : Int) (p : Path) (x : Int × Int) : Path :=
  let line := push (4800 + 16384 * p.pages) x p.line
  let d := readLine line p.delta.toNat
  let g : Int × Int := (convRound (d.1 * gain) 16, convRound (d.2 * gain) 16)
  let a := p.bankA.step g
  let b := p.bankB.step g
  let new := if p.useB then b.2 else a.2
  let old := if p.useB then a.2 else b.2
  let x32 := (2 * (64 - p.bankFade) + 1) * 2 ^ 25
  let y := if p.bankFade = 0 then new else mix2 old new (fadeOut 1 x32) (fadeIn 1 x32)
  { p with line := line, bankA := a.1, bankB := b.1, bankFade := p.bankFade - 1, out := p.out ++ [y] }

/-- Polarity and level of a path in 2⁻¹⁶: those of its membership (R268, R272). -/
def pathGain (s : State) (p : Nat) : Int :=
  match groupOf s p with
  | none => 2 ^ 16
  | some e =>
    match e.2.used.find? fun m => (e.2.member m).path == p with
    | none => 2 ^ 16
    | some m =>
      let v := e.2.member m
      (if v.invert then -1 else 1) * (if v.gain = 0 then 2 ^ 16 else ampRatio v.gain)

/-- A path takes in what its source has written. -/
def pathTakes (s : State) (p : Nat) : State :=
  let v := path s p
  putPath s p { v.input.foldl (Path.pass (pathGain s p)) { v with out := [] } with input := [] }

/-- Output samples of a fade and those already given (R277, R279). -/
def fadeMix (law n : Nat) (f : Fade) (from_ to_ : List (Int × Int)) : Fade × List (Int × Int) :=
  let len := max from_.length to_.length
  let at_ (k : Nat) : Nat := (2 * (if f.reversed then f.pos - k else f.pos + k) + 1) * 2 ^ 31 / max 1 n
  let gains (k : Nat) : Int × Int :=
    let x := min (2 ^ 32) (at_ k)
    if f.reversed then (fadeIn law x, fadeOut law x) else (fadeOut law x, fadeIn law x)
  ({ f with pos := if f.reversed then f.pos - len else f.pos + len },
   (List.range len).map fun k => mix2 (from_.getD k (0, 0)) (to_.getD k (0, 0)) (gains k).1 (gains k).2)

/-- The mix of a group gives the output of its head (R256, R277): the active member, two in a fade, or silence. -/
def groupMix (s : State) (e : Nat × Group) : State :=
  let g := e.2
  let outOf (m : Nat) : List (Int × Int) := (path s (g.member m).path).out
  match g.fade with
  | some f =>
    let b := (path s e.1).blend
    let r := fadeMix (if f.unalign then byteAt b 3 else byteAt b 2) (48 * (path s e.1).fadeMs) f (outOf f.from_) (outOf f.to_)
    putPath (putGroup s e.1 { g with fade := some r.1 }) e.1 { path s e.1 with out := r.2 }
  | none =>
    putPath s e.1 { path s e.1 with out := match g.active with
      | some m => outOf m
      | none => (path s e.1).out.map fun _ => (0, 0) }

/-- The output of a path with its output times: samples 1/48000 s apart from this tick boundary on. -/
def outSamples (s : State) (p : Nat) : List TsSample :=
  (path s p).out.zipIdx.map fun e => ⟨s.sid.now + e.2 * secU / 48000, e.1.1, e.1.2, false⟩

/-- A path's output enters its time-shift store, as zeros with a mark where bandwidth was denied (R286). -/
def storeOut (denied : Bool) (s : State) (p : Nat) : State :=
  let v := path s p
  let new := (outSamples s p).map fun x => if denied then ⟨x.time, 0, 0, true⟩ else x
  putPath s p { v with store := (new.reverse ++ v.store).take (16384 * v.tsPages) }

/-- The output is kept for the ports and the exciter. -/
def keepOut (s : State) (p : Nat) : State :=
  putPath s p { path s p with past := ((outSamples s p).reverse ++ (path s p).past).take 512 }

/-- The samples that reached the paths since the last tick go through them.
Log: 193 (DESIGN CHOICE). -/
def pathsTick (denied : Bool) (s : State) : State :=
  let ps := s.paths.map (·.1)
  let s1 := ps.foldl pathTakes s
  let s2 := ps.foldl keepOut (s1.groups.foldl groupMix s1)
  (ps.filter fun p => decide ((path s2 p).tsPages ≠ 0)).foldl (storeOut denied) s2

/-! ## Time-shift store (R286) -/

/-- Store pages that other paths hold. -/
def tsOthers (s : State) (p : Nat) : Nat := ((s.paths.filter fun e => e.1 != p).map fun e => e.2.tsPages).foldl (· + ·) 0

def tshiftSetUnit (c : Cmd) (s : State) : Reply :=
  let v := path s c.inst
  let n := byteAt c.pl 0
  if 128 < tsOthers s c.inst + n then .deny stNoResource 0
  else ok (putPath s c.inst { v with tsPages := n, tsFrom := if v.tsPages = 0 then s.sid.now else v.tsFrom
                                     store := v.store.take (16384 * n) })

def tshiftSetSpec : CmdSpec :=
  { op := 0x070B, target := toPath, len := fun _ => 4, fields := fun _ => [rng 0 1 0 128, rsv 1 3], unit := tshiftSetUnit }

/-- The oldest output time still held: 16 384 samples a page.
Log: 93 (DEDUCED). -/
def tsOldest (s : State) (v : Path) : Sid := max v.tsFrom (s.sid.now - v.tsPages * 16384 * secU / 48000)

/-- Samples of one record of a span. -/
def tsPerRecord : Nat := 512

/-- A sample of the span: two words with the sample in [31:8] (R286). -/
def tsWord (x : TsSample) : Bytes := 0 :: sleBytes 3 x.left ++ 0 :: sleBytes 3 x.right

/-- One record of a span of `n` samples from `t` on; `seq` is its number. A sample that the path did not deliver is silence. -/
def tsRecord (v : Path) (p seq n : Nat) (t : Sid) : Bytes :=
  let at_ (i : Nat) : TsSample :=
    let t0 := t + i * secU / 48000
    (v.store.find? fun x => decide (x.time ≤ t0 + secU / 96000) && decide (t0 ≤ x.time + secU / 96000)).getD ⟨t0, 0, 0, false⟩
  let xs := (List.range n).map at_
  recordBytes (0x0600 + p) 0x30 (flag (xs.any (·.lost)) 0) (whenOf t).toNat seq n 0 ((xs.map tsWord).flatten)

/-- The records of a span go to its ring. -/
def tsRecords (s : State) (p ring n : Nat) (t : Sid) : State :=
  (List.range ((n + tsPerRecord - 1) / tsPerRecord)).foldl (fun q i =>
    feedRing q ring (tsRecord (path s p) p i (min tsPerRecord (n - tsPerRecord * i)) (t + i * tsPerRecord * secU / 48000))) s

/-- `TSHIFT_READ` (R286): a span not wholly held is refused; it completes with its last record.
Log: 93 (DEDUCED). -/
def tshiftReadUnit (c : Cmd) (s : State) : Reply :=
  let v := path s c.inst
  let from_ := sidOf s.sid.now (BitVec.ofNat 64 (le c.pl 0 8))
  let n := le c.pl 8 4
  if v.tsPages = 0 ∨ from_ < tsOldest s v then badParam 0
  else if s.sid.now < from_ + n * secU / 48000 then badParam 8
  else
    match ringDenied s (byteAt c.pl 12) 12 .streamOut (match mget s.rings (byteAt c.pl 12) with
      | some r => decide (r.bind ≠ .none)
      | none => false) with
    | some r => r
    | none => .later stOk 0 [] (tsRecords s c.inst (byteAt c.pl 12) n from_)

def tshiftReadSpec : CmdSpec :=
  { op := 0x070C, target := toPath, len := fun _ => 16, fields := fun _ => [fld 8 4 (0 < ·), rsv 13 3], unit := tshiftReadUnit }

def execBlendSet (a : Args) (s : State) : Host.Outcome State Fault Refusal := .next (submit blendSetSpec a s)
def execFollowSet (a : Args) (s : State) : Host.Outcome State Fault Refusal := .next (submit followSetSpec a s)
def execBlendNow (a : Args) (s : State) : Host.Outcome State Fault Refusal := .next (submit blendNowSpec a s)
def execFollowGet (a : Args) (s : State) : Host.Outcome State Fault Refusal := .next (submit followGetSpec a s)
def execEqLoad (a : Args) (s : State) : Host.Outcome State Fault Refusal := .next (submit eqLoadSpec a s)
def execEqSwapBank (a : Args) (s : State) : Host.Outcome State Fault Refusal := .next (submit eqSwapSpec a s)
def execTshiftSet (a : Args) (s : State) : Host.Outcome State Fault Refusal := .next (submit tshiftSetSpec a s)
def execTshiftRead (a : Args) (s : State) : Host.Outcome State Fault Refusal := .next (submit tshiftReadSpec a s)

end Sys2Proof.Machine
end

