-- ==== Sys2Proof/Machine/Af.lean ====
section
/-! DEFINITION. Machine/Af.lean: AF following, and the end of a measurement window: `AF_SET`, the AF occurrences and
`ANALOGUE_WINDOW_END` (R184, R205–R211). -/

namespace Sys2Proof.Machine

def Af.mode (a : Af) : Nat := byteAt a.cfg 0
def Af.spare (a : Af) : Nat := byteAt a.cfg 1
def Af.reqAlign (a : Af) : Bool := bit (byteAt a.cfg 8) 2

/-! ## Candidates (R202, R205) -/

/-- The carrier of an AF code in kHz. -/
def afKhz (code : Nat) : Option Nat := if 1 ≤ code ∧ code ≤ 204 then some (87500 + 100 * code) else none

/-- The codes of an AF list without the LF and MF codes, which follow code 250 and are reported but not followed (R190). -/
def vhfCodes : List Nat → List Nat
  | [] => []
  | 250 :: _ :: xs => vhfCodes xs
  | x :: xs => x :: vhfCodes xs

/-- Candidate carriers in order: FM entries of the link table with `USE_LINKS`, then the AF list (R205).
Log: 79 (DEDUCED). -/
def afList (s : State) (n : Nat) : List Nat :=
  let links := if bit (byteAt (afOf s n).cfg 8) 1 then
      (s.links.entries.filter fun e => e.2.std == 1 && e.2.freq != 0).map (·.2.freq) else []
  let goto_ := if (afOf s n).mode = 3 then [le (afOf s n).cfg 12 4] else []
  (goto_ ++ links ++ (vhfCodes (demod s n).rds.afList).filterMap afKhz).eraseDups.filter fun k => k * 1000000 != (lane s (0x0300 + n)).freq

/-- The converter of branch 0 of a lane. -/
def laneConv (s : State) (n : Nat) : Nat := (lane s (0x0300 + n)).zones.headD 0 / 8

/-- The eligible tap of a carrier (R205). -/
def eligibleTap (s : State) (n khz : Nat) : Option Nat :=
  [0, 1, 2, 3].find? fun t => (tap s t).on && (tap s t).zone / 8 == laneConv s n && carrierOk s (tap s t) (1000 * khz)

/-- The candidates that are to be requested: the first `AF_MAX` eligible ones (R205). -/
def afWanted (s : State) (n : Nat) : List Nat :=
  ((afList s n).filter fun k => (eligibleTap s n k).isSome).take (byteAt (afOf s n).cfg 2)

/-- A flake that is no candidate any more: census if its carrier is marked occupied, else free (R202). -/
def dropAfFlake (s : State) (o : Option Nat) : State :=
  match o with
  | none => s
  | some f =>
    let k := flake s f
    if k.cls ≠ .af ∨ k.st = .free then s
    else if censusOn s k.tap ∧ (mget (tap s k.tap).occupied k.freq).isSome then putFlake s f { k with cls := .census }
    else freeFlake s f

/-- A request for a carrier (R202): the census flake that holds it, a free pool flake, or the weakest census flake. -/
def requestFlake (s : State) (n khz : Nat) : Option Nat × State :=
  match eligibleTap s n khz with
  | none => (none, s)
  | some t =>
    let f := 1000 * khz
    let new : Nat → Option Nat × State := fun i => (some i, takeFlake s i .af t f 0 n)
    match holder s f with
    | some h =>
      let k := flake s h
      if k.cls = .census ∧ (tap s k.tap).zone / 8 = laneConv s n then (some h, putFlake s h { k with cls := .af, lane := n })
      else match freePoolFlake s with
        | some i => new i
        | none => match weakestCensus s with
          | some w => new w.1
          | none => (none, s)
    | none => match freePoolFlake s with
      | some i => new i
      | none => match weakestCensus s with
        | some w => new w.1
        | none => (none, s)

/-- A candidate is requested for lane `n`; one that is not served stays without a flake. -/
def addCand (s : State) (n khz : Nat) : State :=
  let r := requestFlake s n khz
  putAf r.2 n { afOf r.2 n with cands := (afOf r.2 n).cands ++ [{ khz := khz, flake := r.1, run := 0, delay := none }] }

/-- Candidates that are no longer wanted go. -/
def trimCands (s : State) (n : Nat) : State :=
  let w := afWanted s n
  let gone := (afOf s n).cands.filter fun c => !w.contains c.khz
  let s1 := gone.foldl (fun q c => dropAfFlake q c.flake) s
  putAf s1 n { afOf s1 n with cands := (afOf s1 n).cands.filter fun c => w.contains c.khz }

/-- `AF_REQUEST` (R202): a wanted carrier that has no served request yet. -/
def execAfRequest (n khz : Nat) (s : State) : Host.Outcome State Fault Refusal :=
  let a := afOf s n
  let known := a.cands.find? fun c => c.khz == khz
  if n ≥ 32 ∨ a.mode = 0 ∨ (afWanted s n).contains khz = false then .next s
  else
    match known with
    | some c => if c.flake.isSome then .next s
                else .next (addCand (putAf s n { a with cands := a.cands.filter fun x => x.khz != khz }) n khz)
    | none => .next (addCand s n khz)

/-! ## Decision and switch (R206–R211) -/

/-- Q of a candidate with the parameters of the playing lane (R185). -/
def candQ (s : State) (n : Nat) (c : AfCand) : Nat :=
  match c.flake with
  | some f => ((flake s f).meas.map (fmQuality (demod s n).fm)).getD 0
  | none => 0

/-- Q of the playing lane. -/
def playQ (s : State) (n : Nat) : Nat := if ((demod s n).meas.map (·.invalid)).getD true then 0 else (demod s n).q

/-- A candidate is verified (R206). -/
def verified (s : State) (n : Nat) (c : AfCand) : Bool :=
  match c.flake with
  | none => false
  | some f =>
    let r := (flake s f).rds
    match r.piTick, r.val itemPi, (demod s n).rds.val itemPi with
    | some t, some p, some q => decide (s.sid.ticks ≤ t + 6400) &&
        (p == q || (bit (byteAt (afOf s n).cfg 8) 0 && p % 256 == q % 256 && p / 4096 == q / 4096))
    | _, _, _ => false

/-- One candidate in a window (R207): its run, and whether it qualifies, by panic alone or not. -/
def candWindow (s : State) (n : Nat) (c : AfCand) : AfCand × Option Bool :=
  let a := afOf s n
  if verified s n c = false then ({ c with run := 0 }, none)
  else
    let better := decide (playQ s n + byteAt a.cfg 3 ≤ candQ s n c)
    let run := if better then c.run + 1 else 0
    let panic := decide (playQ s n ≤ byteAt a.cfg 5) && better
    let ready := decide (byteAt a.cfg 4 ≤ run) && decide (a.lastSw + le a.cfg 6 2 ≤ s.sid.ticks) && (!a.reqAlign || c.delay.isSome)
    ({ c with run := run }, if ready then some false else if panic then some true else none)

/-- The spare takes the playing lane's zones and settings, is tuned to the candidate and starts (R208).
Log: 81 (DEDUCED). -/
def startSpare (s : State) (n sp khz : Nat) : State :=
  let l := lane s (0x0300 + n)
  let s1 := putLane s (0x0300 + sp) { Lane.reset with st := .settling, cfg := l.cfg, div := l.div, freq := khz * 1000000,
                                                      stages := l.stages, outRate := l.outRate }
  let d := demod s n
  resetLane (putDemod s1 sp { Demod.reset with fm := splice d.fm 0 [0xFF], rdsRing := (demod s sp).rdsRing }) (0x0300 + sp) false

/-- The best candidate is switched to: by the spare, or in place (R208, R209). -/
def beginSwitch (s : State) (n : Nat) (c : AfCand) (panic : Bool) : State :=
  let a : Af := { afOf s n with target := c.khz, panic := panic, unalign := c.delay.isNone }
  if a.spare = 0xFF then putAf s n { a with phase := .place (deadline s 16) }
  else startSpare (putAf s n { a with phase := .spare none }) n a.spare c.khz

/-- The evaluation of a playing lane at the end of its window (R207, R211). -/
def afWindow (s0 : State) (n : Nat) : State :=
  if (mget s0.afs n).isNone ∨ (afOf s0 n).mode = 0 then s0
  else
    let s := trimCands s0 n
    let a := afOf s n
    let r := a.cands.map fun c => (candWindow s n c, c)
    let s1 := putAf s n { a with cands := r.map (·.1.1) }
    if a.phase ≠ .none ∨ laneProg s n = 0xFF then s1
    else if a.mode = 1 then
      let best := r.foldl (fun (b : Option (AfCand × Bool)) e => match e.1.2, b with
        | none, _ => b
        | some p, none => some (e.2, p)
        | some p, some x => if candQ s n x.1 < candQ s n e.2 then some (e.2, p) else b) none
      match best with
      | some b => beginSwitch s1 n b.1 b.2
      | none => s1
    else if a.mode = 3 then
      match a.cands.find? fun c => c.khz == le a.cfg 12 4 && verified s n c with
      | some c => beginSwitch (putAf s1 n { afOf s1 n with cfg := splice a.cfg 0 [2] }) n c false
      | none => s1
    else s1

/-- Ticks that cover `ms` milliseconds. -/
def msTicks (ms : Nat) : Nat := (16 * ms + 4) / 5

/-- `AF_FADE_START` (R208): at a tick boundary, once the spare runs and its pilot is locked, or need not be. -/
def execAfFadeStart (n : Nat) (s : State) : Host.Outcome State Fault Refusal :=
  let a := afOf s n
  match a.phase with
  | .spare (some by_) =>
    let mono := (demod s n).pilot == false || bit (byteAt (demod s n).fm 3) 0
    if n < 32 ∧ (lane s (0x0300 + a.spare)).st = .running ∧ ((demod s a.spare).pilot ∨ mono ∨ expired s by_) then
      .next (putAf s n { a with phase := .fading (deadline s (msTicks (path s (laneProg s n)).fadeMs)) })
    else .next s
  | _ => .next s

/-- The former frequency is asked for as a candidate (R208). -/
def askFormer (s : State) (m khz : Nat) : State :=
  if (eligibleTap s m khz).isSome ∧ (afOf s m).cands.all (fun c => c.khz != khz) then addCand s m khz else s

/-- The air lag of the path changes by the candidate's delay (R263). -/
def shiftLag (s : State) (p : Nat) (d : Int) : State :=
  match groupOf s p with
  | some e =>
    match e.2.used.find? fun m => (e.2.member m).path == p && m != 0 with
    | some m => retarget (putGroup s e.1 (e.2.setMember m { e.2.member m with lag := (e.2.member m).lag + d })) e.1
    | none => retarget (putPath s p { path s p with lag := (path s p).lag + d, delta := (path s p).delta - d }) p
  | none => retarget (putPath s p { path s p with lag := (path s p).lag + d, delta := (path s p).delta - d }) p

/-- The roles are exchanged: the spare `m` plays, lane `n` is the spare (R208, R210). -/
def exchange (s : State) (n : Nat) (a : Af) : State :=
  let m := a.spare
  let p := laneProg s n
  let khz := (lane s (0x0300 + n)).freq / 1000000
  let d := ((a.cands.find? fun c => c.khz == a.target).bind (·.delay)).getD 0
  let s1 := putDemod s m { demod s m with fm := splice (demod s m).fm 0 [BitVec.ofNat 8 p] }
  let s2 := match laneRing s1 (0x0300 + n) with
    | some r => putLane (markRing s1 r (.lane (0x0300 + m))) (0x0300 + m) { lane s1 (0x0300 + m) with sync := true, gap := true }
    | none => s1
  let s3 := releaseLane (dropLaneCmds (stopLane s2 (0x0300 + n)) (0x0300 + n) stBadState) (0x0300 + n)
  let b : Af := { a with cfg := splice a.cfg 1 [BitVec.ofNat 8 n], phase := .none, lastSw := s3.sid.ticks }
  let s4 := putAf (s3.setAfs (mdel s3.afs n)) m b
  askFormer (shiftLag (evAf s4 (0x0300 + m) n a false false) p d) m khz

/-- `AF_SWITCH_COMPLETE` (R208): at the tick boundary after the fade ends. -/
def execAfSwitchComplete (n : Nat) (s : State) : Host.Outcome State Fault Refusal :=
  let a := afOf s n
  match a.phase with
  | .fading by_ => if n < 32 ∧ expired s by_ ∧ a.spare < 32 then .next (exchange s n a) else .next s
  | _ => .next s

/-- The 5 ms ramp to mute of a switch in place is over (R209). -/
def Af.muted (s : State) (a : Af) : Bool :=
  match a.phase with
  | .place by_ => expired s by_
  | _ => false

/-- `AF_SWITCH_IN_PLACE` (R209): after the ramp to mute the lane retunes without `HITLESS`. -/
def execAfSwitchInPlace (n : Nat) (t : Sid) (s : State) : Host.Outcome State Fault Refusal :=
  let a := afOf s n
  if n < 32 ∧ a.muted (advance s t) ∧ (lane s (0x0300 + n)).st = .running then
    let s1 := advance s t
    let khz := (lane s1 (0x0300 + n)).freq / 1000000
    let d := ((a.cands.find? fun c => c.khz == a.target).bind (·.delay)).getD 0
    let s2 := putLane s1 (0x0300 + n) { lane s1 (0x0300 + n) with freq := a.target * 1000000 }
    let s3 := putAf (usedChanged (resetLane s2 (0x0300 + n) false)) n { a with phase := .none, lastSw := s2.sid.ticks }
    .next (askFormer (shiftLag (evAf s3 (0x0300 + n) n a true false) (laneProg s3 n) d) n khz)
  else .next s

/-- `AF_SWITCH_ABANDONED` (R210): the lane has left Running, or the spare Settling and Running. -/
def execAfSwitchAbandoned (n : Nat) (s : State) : Host.Outcome State Fault Refusal :=
  let a := afOf s n
  let spareGone : Bool := match a.phase with
    | .place _ => false
    | _ => !(lane s (0x0300 + a.spare)).live
  if n < 32 ∧ a.phase ≠ .none ∧ ((lane s (0x0300 + n)).st ≠ .running ∨ spareGone) then .next (abandonSwitch s n) else .next s

/-- `AF_GOTO_TIMEOUT` (R211): the candidate was not verified within 6400 ticks. -/
def execAfGotoTimeout (n : Nat) (s : State) : Host.Outcome State Fault Refusal :=
  let a := afOf s n
  if n < 32 ∧ a.mode = 3 ∧ a.phase = .none ∧ expired s a.gotoBy then
    .next (evAf (putAf s n { a with cfg := splice a.cfg 0 [2] }) (0x0300 + n) n { a with unalign := false, panic := false } false true)
  else .next s

/-- `AF_SET` (Table 6-13, R382).
Log: 78 (DEDUCED). -/
def afSetUnit (c : Cmd) (s : State) : Reply :=
  let n := c.inst
  let sp := byteAt c.pl 1
  let old := afOf s n
  let claims : Bytes → Bool := fun b => byteAt b 0 != 0 && byteAt b 1 == sp
  let taken := (s.afs.any fun e => e.1 != n && (claims e.2.cfg || (e.2.next.map claims).getD false))
  let mine := old.mode != 0 && old.spare == sp
  if fullUse s n ≠ 3 ∨ (laneDesignated s n ∧ byteAt c.pl 0 ≠ 0) ∨
      (sp ≠ 0xFF ∧ byteAt c.pl 0 ≠ 0 ∧ mine = false ∧ ((lane s (0x0300 + sp)).st ≠ .idle ∨ taken)) then badState
  else .busy (putAf s n { old with next := some c.pl })

/-- An `AF_SET` accepted before this tick takes effect (R207, R214). -/
def afApply1 (s : State) (n : Nat) (b : Bytes) : State :=
  let old := afOf s n
  let mine := old.mode != 0 && old.spare == byteAt b 1
  let s1 := if byteAt b 0 = 0 ∨ mine = false then abandonSwitch s n else s
  if byteAt b 0 = 0 then
    let s2 := (afOf s1 n).cands.foldl (fun q k => dropAfFlake q k.flake) s1
    putAf s2 n { Af.reset with cfg := b }
  else putAf s1 n { afOf s1 n with cfg := b, next := none, gotoBy := deadline s 6400 }

/-- All of them. -/
def afApply (s : State) : State :=
  s.afs.foldl (fun q e => match e.2.next with
    | some b => afApply1 q e.1 b
    | none => q) s

def afSetSpec : CmdSpec :=
  { op := 0x0516, target := toFull, len := fun _ => 20,
    fields := fun _ => [rng 0 1 0 3, fld 1 1 (fun v => decide (v < 32) || v == 0xFF), rng 2 1 1 16, rng 3 1 1 50, rng 4 1 1 50,
      rng 5 1 0 100, wid 8 1 3, rsv 9 3, rsv 16 4],
    unit := afSetUnit }

def execAfSet (a : Args) (s : State) : Host.Outcome State Fault Refusal := .next (submit afSetSpec a s)

/-! ## The end of a measurement window (R122, R130, R184, R198) -/

/-- The measures of a window with their marks: uncalibrated and invalid by R130, slewed by R122; the level by R129 and `BLER` where
the window holds samples and the decoder has had blocks. `g` is a gain of the chain in 0.01 dB that the level leaves out.
Log: 191 (DEDUCED). -/
def markMeasures (s : State) (conv khz : Nat) (g : Int) (w : LevelWindow) (r : Rds) (m : Measures) : Measures :=
  { m with level := ((levelOf (ant s conv) khz w 0).map (· - g)).getD m.level
           bler := if r.past = [] then m.bler else r.bler
           uncal := m.uncal || uncalibrated s conv, invalid := m.invalid || levelInvalid w
           slew := m.slew || slewOverlaps s (s.sid.now - 32 * tickU) }

/-- `ANALOGUE_WINDOW_END` (R184): windows end at tick numbers divisible by 32. A lane's window end is followed by the
judgement of its AF candidates and of the groups that it plays in.
Log: 191 (DEDUCED). -/
def execAnalogueWindowEnd (source : BitVec 16) (m : Measures) (t : Sid) (s : State) : Host.Outcome State Fault Refusal :=
  let tgt := source.toNat
  let n := tgt % 256
  if windowDone s 32 = false then .next s
  else if toFull tgt ∧ (fullUse s n = 2 ∨ fullUse s n = 3) ∧ (lane s tgt).st = .running then
    let s1 := advance s t
    let d := demod s1 n
    let l := lane s1 tgt
    let fm := fullUse s n == 3
    let w := markMeasures s1 (laneConv s1 n) (l.freq / 1000000) (100 * byteAt l.cfg 3) d.window.level d.rds
      (d.window.measures (!fm) d.carrier m)
    let s2 := putDemod (putLane s1 tgt { l with window := LevelWindow.reset }) n
      { d with meas := some w, q := if fm then fmQuality d.fm w else 0, qTime := s1.sid.now, window := AudioWindow.reset }
    .next (groupsAfter (afWindow s2 n) n)
  else if toFlake tgt ∧ (flake s n).active then
    let s1 := advance s t
    let f := flake s1 n
    let k := tap s1 f.tap
    let lvl : LevelWindow := { f.window.level with power := f.window.level.power / 256 }
    let w := markMeasures s1 (k.zone / 8) (f.freq / 1000) (tapGain k f.freq) lvl f.rds (f.window.measures false false m)
    let w1 : Measures := if lvl.count = 0 then w else { w with adjUp := adjacent f.adj 1, adjLo := adjacent f.adj 2, pilot := 0 }
    .next (putFlake s1 n { f with meas := some { w1 with invalid := w1.invalid || decide (f.st = .paused) }, mtime := s1.sid.now,
                                  window := AudioWindow.reset, adj := [0, 0, 0] })
  else .next s

end Sys2Proof.Machine
end

