-- ==== Sys2Proof/Machine/Sap.lean ====
section
/-! DEFINITION. Machine/Sap.lean: the serial audio ports: commands 0x0801–0x0805, frames, slips and clock supervision
(chapter 09). -/

namespace Sys2Proof.Machine

/-! ## Settings (Table 9-9) -/

/-- f_F in Hz of a `RATE` code. -/
def frameRate (code : Nat) : Nat :=
  match code with
  | 0 => 32000
  | 1 => 44100
  | 2 => 48000
  | _ => 96000

def bclkController (b : Bytes) : Bool := bit (byteAt b 2) 0
def fsyncController (b : Bytes) : Bool := bit (byteAt b 2) 1
def slipMode (b : Bytes) : Bool := byteAt b 6 == 1
def Sap.slots (p : Sap) : Nat := byteAt p.cfg 3
def Sap.inMask (p : Sap) : Nat := le p.cfg 8 2
def Sap.blkFrames (p : Sap) : Nat := if le p.cfg 12 2 = 0 then 48 else le p.cfg 12 2

/-- The audio channel that a controller port takes its clock from, by its loop: A48 or A44 (R295). -/
def sapLoop (b : Bytes) : Nat := if byteAt b 5 = 1 then 3 else 2

/-- The port's pins and channel follow its settings: a controller uses its channel, else none (R296). -/
def sapChannel (s : State) (n : Nat) (b : Bytes) (on : Bool) : State :=
  let s1 := if on ∧ bclkController b then audioRelease s (5 - sapLoop b) (16 + n) else audioRelease (audioRelease s 2 (16 + n)) 3 (16 + n)
  if on ∧ bclkController b then audioUse s1 (sapLoop b) (16 + n) else s1

/-- Running or Remeasuring. -/
def Sap.runs (p : Sap) : Bool := decide (p.st = .running) || decide (p.st = .remeasuring)

def slotBits (b : Bytes) : Nat := byteAt b 4

/-- Bit clocks of a frame. -/
def frameBits (b : Bytes) : Nat := byteAt b 3 * slotBits b

/-- The frame period and the bit-clock period at the reference rate (R304). -/
def Sap.period (p : Sap) : Sid := 1000 * secU / p.refRate
def Sap.bitTime (p : Sap) : Sid := 1000 * secU / (p.refRate * frameBits p.cfg)

/-- 5 ms: the ramps and the cross-fade of a port. -/
def fiveMs : Sid := 5000 * usU

/-! ## Capture blocks (R300, R301) -/

/-- The number of slots captured. -/
def activeSlots (mask : Nat) : Nat := ((List.range 16).filter fun i => bit mask i).length

/-- Table 9-5. -/
def portHeader (n : Nat) (p : Sap) : Bytes :=
  leBytes 4 p.pSeq ++ leBytes 2 p.pFrames ++ leBytes 1 p.pFlags ++ [1] ++ leBytes 2 p.inMask ++
    leBytes 1 (activeSlots p.inMask) ++ leBytes 1 n ++ leBytes 4 p.pGap ++ leBytes 8 (p.pTime / secU) ++
    leBytes 4 (p.pTime % secU / 65536) ++ leBytes 4 (1000 * secU * p.pFrames / max 1 (p.last - p.pTime))

/-- The capture block in progress ends and goes to its ring. -/
def endBlock (s : State) (n : Nat) : State :=
  let p := sap s n
  match p.cap with
  | none => s
  | some r =>
    if p.pFrames = 0 then s
    else
      let b := portHeader n p ++ p.pData
      feedBlock (putSap s n { p with header := portHeader n p, pSeq := (p.pSeq + 1) % 2 ^ 32, pFlags := 0, pGap := 0, pFrames := 0,
                                     pData := [] }) r (b ++ zeros ((b.length + 63) / 64 * 64 - b.length))

/-- The next capture block carries the flag in place `i`. -/
def markBlock (s : State) (n i : Nat) : State :=
  let p := sap s n
  putSap s n { p with pFlags := if bit p.pFlags i then p.pFlags else p.pFlags + 2 ^ i }

/-! ### Frames on the wires (R290–R292, Table 9-2) -/

/-- Data and frame sync are launched on the falling edge of BCLK and sampled on the rising one, or the other way round (R291). -/
def launchRising (b : Bytes) : Bool := bit (byteAt b 7) 0

/-- FSYNC in bit clock `k` of a frame (Table 9-2, `FS_INV`). -/
def fsyncLevel (b : Bytes) (k : Nat) : Bool :=
  let width := if byteAt b 1 = 2 then (if bit (byteAt b 7) 3 then slotBits b else 1) else frameBits b / 2
  let starts := decide (k < width)
  (if byteAt b 1 = 0 then !starts else starts) != bit (byteAt b 7) 1

/-- Bit clocks from the frame start to the first bit of slot 0 (Table 9-2). -/
def firstBit (b : Bytes) : Nat :=
  match byteAt b 1 with
  | 0 => 1
  | 1 => 0
  | _ => flag (bit (byteAt b 7) 2) 0

/-- A 24-bit sample as the word of an output slot (R292). -/
def slotWord (b : Bytes) (x : Int) : Nat :=
  match slotBits b with
  | 16 => (clampTo 16 (convRound x 8) % 2 ^ 16).toNat
  | 24 => (x % 2 ^ 24).toNat
  | _ => (x * 256 % 2 ^ 32).toNat

/-- BCLK periods of a frame of a bit-clock controller, in channel periods: edge k lies at ⌊k · D⌋, so that every frame is exact
(R295). -/
def bclkPeriods (b : Bytes) : List Nat :=
  let fch := if byteAt b 5 = 1 then 1128960000 else 1228800000
  let fb := frameRate (byteAt b 5) * frameBits b
  (List.range (frameBits b)).map fun k => (k + 1) * fch / fb - k * fch / fb

/-! ### Sample conversion (R298, R299, Table 9-4) -/

/-- Number of the 48 kHz sample whose time is nearest. -/
def sampleNo (t : Sid) : Nat := (t * 48000 + secU / 2) / secU

/-- Synchronous at 48 kHz: no conversion. -/
def directPort (b : Bytes) : Bool := bclkController b && byteAt b 5 == 2

/-- Latency from the path output to the frame start, and from a frame start to the internal feed; that of slip mode follows from
its FIFO (Table 9-4). -/
def portLatency (b : Bytes) : Sid :=
  if !bclkController b then 128 * secU / 48000
  else if byteAt b 5 = 2 then 3 * secU / 48000
  else 3 * secU / frameRate (byteAt b 5) + 32 * secU / 48000

/-- Samples at a rate in mHz, newest first, read at a time through the resampler of design `id`.
Log: 195 (DESIGN CHOICE). -/
def readAt (id rate : Nat) (past : List TsSample) (t : Sid) : Int × Int :=
  let k := (past.takeWhile fun x => decide (t < x.time)).length
  match past[k]? with
  | none => (0, 0)
  | some x =>
    let f := min 255 ((t - x.time) * rate * 256 / (1000 * secU))
    let one (g : TsSample → Int) : Int :=
      clampTo 24 (convRound (((List.range 32).map fun i =>
        Config.coef id (32 * f + i) * g (past.getD (k + i - 16) ⟨0, 0, 0, false⟩)).sum) 20)
    (one (·.left), one (·.right))

/-- The newest sample at or before a time. -/
def sampleAt (past : List TsSample) (t : Sid) : Int × Int :=
  ((past.find? fun x => decide (x.time ≤ t)).map fun x => (x.left, x.right)).getD (0, 0)

/-- A resampled stream at time `t`: at the tracked ratio, or at the old one while a rate is measured, and a cross-fade by the
equal-gain law between them after the retarget (R305). -/
def Sap.resampled (p : Sap) (id rate oldRate : Nat) (past : List TsSample) (t : Sid) : Int × Int :=
  let at_ := t - portLatency p.cfg
  let new := readAt id rate past at_
  let old := readAt id oldRate past ((at_ : Int) - p.drift * secU / (256 * 48000)).toNat
  if p.st = .remeasuring then old
  else if t < p.fadeTo then
    let x := 2 ^ 32 - (p.fadeTo - t) * 2 ^ 32 / fiveMs
    mix2 old new (fadeOut 1 x) (fadeIn 1 x)
  else new

/-- What the output direction takes from a path for a frame that starts at `t`. -/
def Sap.fromPath (p : Sap) (past : List TsSample) (t : Sid) : Int × Int :=
  if slipMode p.cfg then ((past.find? fun x => sampleNo x.time == p.rd).map fun x => (x.left, x.right)).getD (0, 0)
  else if directPort p.cfg then sampleAt past (t - portLatency p.cfg)
  else p.resampled (60 + byteAt p.cfg 5) 48000000 48000000 past t

/-- The internal feed of a port at 48 kHz: zero unless it runs (R298, Table 9-6). -/
def portFeed (s : State) (n : Nat) (t : Sid) : Int × Int :=
  let p := sap s n
  if p.runs = false then (0, 0)
  else if slipMode p.cfg then ((p.feed[p.inWr - sampleNo t]?).map fun x => (x.left, x.right)).getD (0, 0)
  else if directPort p.cfg then sampleAt p.feed (t - portLatency p.cfg)
  else p.resampled (64 + byteAt p.cfg 5) p.rate p.oldRate p.feed t

/-- The outputs ramp up, or down ahead of a stop, over 5 ms: their level in 2⁻¹⁶.
Log: 195 (DESIGN CHOICE). -/
def Sap.level (p : Sap) (t : Sid) : Int :=
  let up : Int := min 65536 ((t - p.rampAt) * 65536 / fiveMs)
  if p.rampUp then up else 65536 - up

/-! ### Slots -/

/-- A sample of the route for output slot `i` (R300, Table 9-10). -/
def routeSample (route : Bytes) (pcm : Nat → Int × Int) (play : Option (List Nat)) (i : Nat) : Int :=
  let idx := byteAt route (5 + 2 * i)
  match byteAt route (4 + 2 * i) with
  | 1 => (pcm idx).1
  | 2 => (pcm idx).2
  | 3 => ((pcm idx).1 + (pcm idx).2) / 2
  | 4 => let w := (play.getD []).getD idx 0 / 256
         if w < 2 ^ 23 then w else (w : Int) - 2 ^ 24
  | _ => 0

/-- SDO through the slots of a frame, MSB first: outside `OUT_MASK` 0, or high-impedance with `SDO_HIZ` (R292). -/
def sdoBits (p : Sap) (sample : Nat → Int) : List (Option Bool) :=
  (List.range (byteAt p.cfg 3)).flatMap fun i =>
    (List.range (slotBits p.cfg)).map fun k =>
      if bit (le p.cfg 10 2) i then some (bit (slotWord p.cfg (sample i)) (slotBits p.cfg - 1 - k))
      else if bit (byteAt p.cfg 7) 4 then none else some false

/-- FSYNC and SDO in each bit clock of a frame; ahead of slot 0 the last bit of the frame before still stands. -/
def frameLines (p : Sap) (sample : Nat → Int) : List (Bool × Option Bool) :=
  let d := List.replicate (firstBit p.cfg) ((p.lines.getLast?.map (·.2)).getD (some false)) ++ sdoBits p sample
  (List.range (frameBits p.cfg)).map fun k => (fsyncLevel p.cfg k, d.getD k none)

/-- The word of input slot `i`: its bits, MSB first, in the upper places of 32 (R291, R300). -/
def inWord (b : Bytes) (sdi : List Bool) (i : Nat) : Nat :=
  let w := slotBits b
  ((List.range w).map fun k => flag ((sdi.drop (firstBit b)).getD (i * w + k) false) (31 - k)).sum

/-- The most significant 24 bits of an input slot (R292). -/
def inSample (b : Bytes) (sdi : List Bool) (i : Nat) : Int :=
  let v := inWord b sdi i / 256
  if v < 2 ^ 23 then v else (v : Int) - 2 ^ 24

/-- The next frame of the data of a play ring: blocks with the header of Table 9-5, of which `P_FRAMES` and `P_ACTIVE` are read,
padded to 64 bytes (R300, R301). -/
def PlayIn.take (q : PlayIn) (data : Bytes) : PlayIn × Bytes × Option (List Nat) :=
  let d0 := if q.left = 0 then data.drop q.skip else data
  let q0 : PlayIn := if q.left = 0 then { q with skip := q.skip - data.length } else q
  let opens := decide (q0.left = 0) && decide (q0.skip = 0) && decide (32 ≤ d0.length)
  let size := 4 * le d0 4 2 * byteAt d0 10
  let q1 : PlayIn := if opens then ⟨le d0 4 2, byteAt d0 10, (size + 95) / 64 * 64 - (size + 32)⟩ else q0
  let d1 := if opens then d0.drop 32 else d0
  if 0 < q1.left ∧ 4 * q1.words ≤ d1.length then
    ({ q1 with left := q1.left - 1 }, d1.drop (4 * q1.words), some ((List.range q1.words).map fun i => le d1 (4 * i) 4))
  else (q1, d1, none)

/-- A port frame consumes one frame of its play ring; one without data is an underrun (R300). -/
def playFrame (s : State) (n : Nat) : State × Option (List Nat) :=
  let p := sap s n
  match p.play with
  | none => (s, none)
  | some k =>
    let r := p.playIn.take (((mget s.rings k).map (·.inData)).getD [])
    let s1 := match mget s.rings k with
      | some x => putRing s k { x with inData := r.2.1 }
      | none => s
    let q := { p with playIn := r.1 }
    if r.2.2.isSome then (putSap s1 n q, r.2.2)
    else (putSap s1 n { q with underrun := sat 32 (p.underrun + 1), dryBy := deadline s 64 }, none)

/-- A frame goes out from now on: its slots, FSYNC and bit clocks. -/
def driveFrame (s0 : State) (n : Nat) : State :=
  let r := playFrame s0 n
  let s := r.1
  let p := sap s n
  let now := s.sid.now
  let sample (i : Nat) : Int :=
    convRound (routeSample p.route (fun k => p.fromPath (path s k).past now) r.2 i * p.level now) 16
  putSap s n { p with lines := frameLines p sample, bclk := if bclkController p.cfg then bclkPeriods p.cfg else [] }

/-- A frame of the internal feed: its two slots, or the frame before again (R298, Table 9-6). -/
def feedFrame (s : State) (n : Nat) (sdi : Option (List Bool)) : State :=
  let p := sap s n
  let src (b : List Bool) (i : Nat) : Int := if byteAt p.route i = 0xFF then 0 else inSample p.cfg b (byteAt p.route i)
  let x : TsSample := match sdi with
    | some b => ⟨p.last, src b 0, src b 1, false⟩
    | none => { p.feed.headD ⟨0, 0, 0, false⟩ with time := p.last }
  putSap s n { p with feed := (x :: p.feed).take 512 }

/-- The words of the slots of `IN_MASK`, in ascending order (R300). -/
def captureWords (p : Sap) (sdi : List Bool) : Bytes :=
  ((List.range 16).filter fun i => bit p.inMask i).flatMap fun i => leBytes 4 (inWord p.cfg sdi i)

/-- The frame that ends now is captured; its frame start was the last one. -/
def captureFrame (s : State) (n : Nat) (sdi : List Bool) : State :=
  let p := sap s n
  match p.cap with
  | none => s
  | some _ => putSap s n { p with pFrames := p.pFrames + 1, pTime := if p.pFrames = 0 then p.last else p.pTime,
                                  pData := p.pData ++ captureWords p sdi }

/-- `k` frames are lost or withheld: the block ends and the next carries `P_GAPF`. -/
def loseFrames (s : State) (n k : Nat) : State :=
  let s1 := markBlock (endBlock s n) n 1
  putSap s1 n { sap s1 n with pGap := sat 32 ((sap s1 n).pGap + k) }

/-! ## SAP_SET (Table 9-7) -/

def sapTgt (n : Nat) : Nat := 0x0800 + n

/-- A pending setting is superseded by a command with `tag`, and so is a `SAP_SET` that waits (R303).
Log: 95 (DEDUCED). -/
def supersede (s : State) (op n tag : Nat) : State := finishOp s op (sapTgt n) stSuperseded tag [] s.ev.nextId

/-- What a new `SAP_SET` supersedes (R303). -/
def supersedeAll (s : State) (n tag : Nat) : State :=
  let s1 := if (sap s n).maskPend.isSome then supersede s 0x0803 n tag else s
  let s2 := if (sap s n).routePend.isSome then supersede s1 0x0802 n tag else s1
  let s3 := supersede s2 0x0801 n tag
  putSap s3 n { sap s3 n with maskPend := none, routePend := none, stopTo := none }

/-- The port is Off: its pins are inputs and its channel is released (R289). -/
def sapOff (s : State) (n : Nat) (b : Bytes) : State :=
  let s1 := endBlock s n
  sapChannel (putSap s1 n { sap s1 n with st := .off, cfg := b, stopTo := none, waitTold := false, fadeTo := 0, lines := [], bclk := [], feed := [] }) n
    b false

/-- The port waits with new settings. -/
def sapWaits (s : State) (n : Nat) (b : Bytes) : State :=
  let s1 := endBlock s n
  sapChannel (putSap s1 n { sap s1 n with st := .waiting, cfg := b, stopTo := none, waitBy := deadline s 3200, waitTold := false,
                                          refRate := 1000 * frameRate (byteAt b 5), fadeTo := 0, afresh := false, lines := [], bclk := [],
                                          feed := [] }) n b true

/-- Two settings differ in nothing but the masks and `P_BLK`. -/
def sameButMasks (a b : Bytes) : Bool := decide (a.take 8 = b.take 8)

/-- A running port will stop at a frame end, unless only its masks change; its outputs ramp down over 5 ms first (Table 9-7). -/
def sapStops (s : State) (n : Nat) (b : Bytes) : State :=
  let p := sap s n
  if bit (byteAt b 0) 0 ∧ sameButMasks p.cfg b then putSap s n { p with stopTo := some b, stopAt := s.sid.now }
  else putSap s n { p with stopTo := some b, stopAt := s.sid.now + fiveMs, rampAt := s.sid.now, rampUp := false }

/-- `SAP_SET` (R303, R307): at once where no frame is awaited, else at a frame end.
Log: 95 (DEDUCED). -/
def sapSetUnit (c : Cmd) (s0 : State) : Reply :=
  let n := c.inst
  let b := c.pl
  let s := supersedeAll s0 n c.a.tag.toNat
  let en := bit (byteAt b 0) 0
  match (sap s n).st with
  | .off => if en then .busy (sapWaits s n b) else ok (putSap s n { sap s n with cfg := b })
  | .waiting => if en then .busy (sapWaits s n b) else ok (sapOff s n b)
  | .clockLost =>
    if en = false then ok (sapOff s n b)
    else if bclkController b then .busy (sapWaits s n b)
    else .busy (sapStops s n b)
  | _ => .busy (sapStops s n b)

/-- The setting is an enabled port; with `SAP_EN` 0 only reserved bits are looked at (R8). -/
def sapEnabled (b : Bytes) : Bool := byteAt b 0 != 0

/-- The masks hold no bit at or above `SLOTS`. -/
def maskFld (off : Nat) : Fld := ⟨off, fun b => decide (le b off 2 < 2 ^ byteAt b 3)⟩

/-- Table 9-9, `SAP_SET` (R290, R298).
Log: 95 (DEDUCED). -/
def sapSetSpec : CmdSpec :=
  { op := 0x0801, target := toPort, len := fun _ => 16,
    fields := fun _ => [wid 0 1 1, whenFld sapEnabled (rng 1 1 0 2), wid 2 1 2] ++
      ([⟨3, fun b => if byteAt b 1 = 2 then decide (2 ≤ byteAt b 3 ∧ byteAt b 3 ≤ 16) else byteAt b 3 == 2⟩,
        fld 4 1 fun v => v == 16 || v == 24 || v == 32,
        ⟨5, fun b => decide (byteAt b 5 < 4) &&
          let f := frameRate (byteAt b 5) * byteAt b 3 * byteAt b 4
          decide (1024000 ≤ f) && decide (f ≤ 49152000)⟩,
        ⟨6, fun b => byteAt b 6 == 0 || (byteAt b 6 == 1 && !bclkController b && byteAt b 5 == 2)⟩].map (whenFld sapEnabled)) ++ [wid 7 1 5] ++
      ([maskFld 8, maskFld 10, fld 12 2 fun v => v == 0 || decide (16 ≤ v ∧ v ≤ 4096)].map (whenFld sapEnabled)) ++ [rsv 14 2],
    hold := fun s c => safetyOn s && (namedSources s).contains (1, c.inst), unit := sapSetUnit }

/-! ## Masks, routes and streams (R302, R303, R307, R308) -/

/-- New masks are in force from this frame. -/
def applyMasks (s : State) (n : Nat) (b : Bytes) : State :=
  let s1 := markBlock (endBlock s n) n 2
  putSap s1 n { sap s1 n with cfg := splice (sap s1 n).cfg 8 b, maskPend := none }

/-- The frame starts from which a setting handed to the port island now applies: two bit clocks after the acknowledgement, which
comes within 3 Tb + 2.0 ns (R11, R302, Table 1-3); in ClockLost it is held for the resume frame (R307).
Log: 196 (DEDUCED). -/
def handshake (s : State) (n : Nat) : Sid × State :=
  let p := sap s n
  if p.st = .clockLost then (0, s)
  else
    let v := freeValue s
    (s.sid.now + v.1 % (3 * p.bitTime + 131073) + 2 * p.bitTime, v.2)

/-- A double-buffered setting takes effect at once where the port makes no frames (Off, Waiting), else at a frame start. -/
def sapBuffered (s : State) (n : Nat) : Bool := decide ((sap s n).st ≠ .off) && decide ((sap s n).st ≠ .waiting)

/-- Log: 95 (DEDUCED). -/
def sapMaskUnit (c : Cmd) (s : State) : Reply :=
  let n := c.inst
  let lim := 2 ^ (sap s n).slots
  if lim ≤ le c.pl 0 2 then badParam 0
  else if lim ≤ le c.pl 2 2 then badParam 2
  else if sapBuffered s n = false then ok (putSap s n { sap s n with cfg := splice (sap s n).cfg 8 c.pl })
  else
    let h := handshake s n
    let s1 := if (sap s n).maskPend.isSome then supersede h.2 0x0803 n c.a.tag.toNat else h.2
    .busy (putSap s1 n { sap s1 n with maskPend := some c.pl, maskFrom := h.1 })

/-- `SAP_MASK_SET` (R302). -/
def sapMaskSetSpec : CmdSpec := { op := 0x0803, target := toPort, len := fun _ => 4, unit := sapMaskUnit }

/-- Log: 95 (DEDUCED). -/
def sapRouteUnit (c : Cmd) (s : State) : Reply :=
  let n := c.inst
  if sapBuffered s n = false then ok (putSap s n { sap s n with route := c.pl })
  else
    let h := handshake s n
    let s1 := if (sap s n).routePend.isSome then supersede h.2 0x0802 n c.a.tag.toNat else h.2
    .busy (putSap s1 n { sap s1 n with routePend := some c.pl, routeFrom := h.1 })

/-- `SRC` and `SRC_IDX` of output slot `i`. -/
def routeFlds (i : Nat) : List Fld :=
  [rng (4 + 2 * i) 1 0 4,
   ⟨5 + 2 * i, fun b => match byteAt b (4 + 2 * i) with
     | 0 => true
     | 4 => decide (byteAt b (5 + 2 * i) < 16)
     | _ => decide (byteAt b (5 + 2 * i) < 24)⟩]

/-- Table 9-10, `SAP_ROUTE`. -/
def sapRouteSpec : CmdSpec :=
  { op := 0x0802, target := toPort, len := fun _ => 36,
    fields := fun _ => [fld 0 1 (fun v => decide (v < 16) || v == 0xFF), fld 1 1 (fun v => decide (v < 16) || v == 0xFF), rsv 2 2] ++
      ((List.range 16).map routeFlds).flatten,
    unit := sapRouteUnit }

/-- The rings of a port are bound as the payload says. -/
def bindPort (s : State) (n : Nat) (b : Bytes) : State :=
  let old := sap s n
  let name : Nat → Option Nat := fun v => if v = 0xFF then none else some v
  let s1 := if old.cap = name (byteAt b 0) then s else endBlock s n
  let p := sap s1 n
  let s2 := putSap s1 n { p with cap := name (byteAt b 0), play := name (byteAt b 1),
                                 pSeq := if old.cap = name (byteAt b 0) then p.pSeq else 0,
                                 pFlags := if old.cap = name (byteAt b 0) then p.pFlags else 16, pFrames := if old.cap = name (byteAt b 0) then p.pFrames else 0
                                 pData := if old.cap = name (byteAt b 0) then p.pData else []
                                 playIn := if old.play = name (byteAt b 1) then p.playIn else ⟨0, 0, 0⟩ }
  let drop : State → Option Nat → State := fun q o => match o with
    | some r => freeRing q r
    | none => q
  let mark : State → Option Nat → Bind → State := fun q o v => match o with
    | some r => markRing q r v
    | none => q
  let s3 := drop (drop s2 old.cap) old.play
  mark (mark s3 (name (byteAt b 0)) (.sapCapture n)) (name (byteAt b 1)) (.sapPlay n)

/-- A ring carries something other than what port `n` binds it to. -/
def portRingTaken (s : State) (n r : Nat) (v : Bind) : Bool :=
  match mget s.rings r with
  | some x => decide (x.bind ≠ .none) && decide (x.bind ≠ v)
  | none => ((sap s n).cap == some r)

/-- `SAP_STREAM` (R175, R308): in ClockLost it is held (R307). -/
def sapStreamUnit (c : Cmd) (s : State) : Reply :=
  let n := c.inst
  let den (i : Nat) (k : RingKind) (v : Bind) : Option Reply :=
    if byteAt c.pl i = 0xFF then none else ringDenied s (byteAt c.pl i) i k (portRingTaken s n (byteAt c.pl i) v)
  match den 0 .streamOut (.sapCapture n), den 1 .streamIn (.sapPlay n) with
  | some r, _ => r
  | none, some r => r
  | none, none => if (sap s n).st = .clockLost then .busy s else ok (bindPort s n c.pl)

def sapStreamSpec : CmdSpec :=
  { op := 0x0804, target := toPort, len := fun _ => 4, fields := fun _ => [rsv 2 2], unit := sapStreamUnit }

def sapCode : SapState → Nat
  | .off => 0
  | .waiting => 1
  | .running => 2
  | .clockLost => 3
  | .remeasuring => 4

/-- The `SAP_GET` result (Table 9-11).
Log: 96 (DEDUCED). -/
def sapResult (s : State) (n : Nat) : Bytes :=
  let p := sap s n
  leBytes 1 (sapCode p.st) ++ leBytes 1 p.cause ++ leBytes 1 (byteAt p.cfg 2) ++
    leBytes 1 (flag p.maskPend.isSome 0 + flag p.routePend.isSome 1 + flag (decide (s.sid.now < p.fadeTo)) 2) ++
    leBytes 2 p.inMask ++ leBytes 2 (le p.cfg 10 2) ++ leBytes 4 p.rate ++ leBytes 4 p.glitches ++ leBytes 4 p.frameErr ++
    leBytes 4 p.slipDrop ++ leBytes 4 p.slipRep ++ leBytes 4 p.losses ++ leBytes 4 p.underrun ++ zeros 4 ++
    leBytes 8 (whenOf p.last).toNat

def sapGetSpec : CmdSpec :=
  { op := 0x0805, target := toPort, len := fun _ => 0, largest := fun _ => 48, unit := fun c s => okWith (sapResult s c.inst) s }

def execSapSet (a : Args) (s : State) : Host.Outcome State Fault Refusal := .next (submit sapSetSpec a s)
def execSapRoute (a : Args) (s : State) : Host.Outcome State Fault Refusal := .next (submit sapRouteSpec a s)
def execSapMaskSet (a : Args) (s : State) : Host.Outcome State Fault Refusal := .next (submit sapMaskSetSpec a s)
def execSapStream (a : Args) (s : State) : Host.Outcome State Fault Refusal := .next (submit sapStreamSpec a s)
def execSapGet (a : Args) (s : State) : Host.Outcome State Fault Refusal := .next (submit sapGetSpec a s)

/-! ## Frames (R299–R303) -/

/-- Settings that wait for a frame start take effect, and their commands complete with its time (R302). -/
def frameSettings (s : State) (n : Nat) : State :=
  let mark := s.ev.nextId
  let s1 := match (sap s n).maskPend with
    | some b => if s.sid.now < (sap s n).maskFrom then s else finishOp (applyMasks s n b) 0x0803 (sapTgt n) stOk 0 [] mark
    | none => s
  match (sap s1 n).routePend with
  | some b =>
    if s1.sid.now < (sap s1 n).routeFrom then s1
    else finishOp (putSap s1 n { sap s1 n with route := b, routePend := none }) 0x0802 (sapTgt n) stOk 0 [] mark
  | none => s1

/-- A `SAP_SET` that waited for this frame end: masks change at it; else the port stops there (Table 9-7). -/
def frameStop (s : State) (n : Nat) (b : Bytes) : State :=
  let mark := s.ev.nextId
  if bit (byteAt b 0) 0 = false then finishOp (sapOff s n b) 0x0801 (sapTgt n) stOk 0 [] mark
  else if sameButMasks (sap s n).cfg b then
    let s1 := if (le b 8 4 == le (sap s n).cfg 8 4) then s else markBlock (endBlock s n) n 2
    finishOp (putSap s1 n { sap s1 n with cfg := b, stopTo := none }) 0x0801 (sapTgt n) stOk 0 [] mark
  else sapWaits s n b

/-- A slip (R299), coalesced under R24. -/
def slipEvent (s : State) (n : Nat) (drop input : Bool) : State := raise s evSlip (sapTgt n) (flag drop 0 + flag input 1)

/-- Slip mode: after a frame each FIFO of 8 frames is checked; at 6 or more a frame is dropped, at 2 or fewer one is repeated. The
output FIFO holds the path samples since the one given last, the input FIFO the frames that the feed has not taken (R299). -/
def slipCheck (s : State) (n : Nat) : State :=
  let p := sap s n
  let no := sampleNo s.sid.now
  let rd := p.rd + 1
  let wr := p.inWr + 1
  let out : Int := (no : Int) - rd
  let inp : Int := (wr : Int) - no
  let s1 := putSap s n { p with
    rd := if 6 ≤ out then rd + 1 else if out ≤ 2 then rd - 1 else rd
    inWr := if 6 ≤ inp then wr - 1 else if inp ≤ 2 then wr + 1 else wr
    feed := if 6 ≤ inp then p.feed.drop 1 else if inp ≤ 2 then p.feed.headD ⟨0, 0, 0, false⟩ :: p.feed else p.feed
    slipDrop := sat 32 (p.slipDrop + flag (decide (6 ≤ out)) 0 + flag (decide (6 ≤ inp)) 0)
    slipRep := sat 32 (p.slipRep + flag (decide (out ≤ 2)) 0 + flag (decide (inp ≤ 2)) 0) }
  let s2 := if 6 ≤ out ∨ out ≤ 2 then slipEvent s1 n (decide (6 ≤ out)) false else s1
  if 6 ≤ inp ∨ inp ≤ 2 then slipEvent s2 n (decide (6 ≤ inp)) true else s2

/-- Reading at the old ratio falls behind or runs ahead by what a frame of length `span` differs from it. Until the retarget whole
frames are dropped in one direction and repeated in the other: slips without an event (R305).
Log: 195 (DESIGN CHOICE). -/
def driftFrame (s : State) (n : Nat) (span : Sid) : State :=
  let p := sap s n
  let d : Int := p.drift + span * 48000 * 256 / secU - 48000000 * 256 / max 1 p.oldRate
  if p.st = .remeasuring then
    putSap s n { p with drift := d.tmod 256, slipDrop := sat 32 (p.slipDrop + d.natAbs / 256),
                        slipRep := sat 32 (p.slipRep + d.natAbs / 256) }
  else if s.sid.now < p.fadeTo then putSap s n { p with drift := d }
  else s

/-- The frame in progress ends with a frame start now: it is captured, or dropped where it was spoilt, and then counted in `P_GAP`
(Table 9-6). -/
def frameEnds (s : State) (n : Nat) (sdi : Option (List Bool)) : State :=
  let now := s.sid.now
  let p := sap s n
  let s1 := feedFrame s n sdi
  let s2 := match sdi with
    | some b => captureFrame s1 n b
    | none => loseFrames s1 n 1
  let q := sap s2 n
  let s3 := putSap s2 n { q with last := now, dropped := false, rate := if p.last < now then 1000 * secU / (now - p.last) else q.rate }
  let s4 := if q.blkFrames ≤ q.pFrames then endBlock s3 n else s3
  if slipMode p.cfg then slipCheck s4 n else driftFrame s4 n (now - p.last)

/-- A frame starts: a stop that is due takes place, or pending settings apply and the frame goes out. -/
def frameBegins (s : State) (n : Nat) : State :=
  let go := driveFrame (frameSettings s n) n
  match (sap s n).stopTo with
  | some b => if (sap s n).stopAt ≤ s.sid.now then frameStop s n b else go
  | none => go

/-- `SAP_FRAME_START` (R291, R292, R299–R302): a frame start of a running port, exactly N × W bit clocks after the one before, or
the one at which it realigns after a glitch.
Log: 96 (DEDUCED). -/
def execSapFrameStart (n : Nat) (sdi : List Bool) (t : Sid) (s : State) : Host.Outcome State Fault Refusal :=
  let p := sap s n
  if n ≥ 4 ∨ p.runs = false ∨ (p.dropped = false ∧ sdi.length ≠ frameBits p.cfg + 1) then .next s
  else .next (frameBegins (frameEnds (advance s t) n (if p.dropped then none else some sdi)) n)

/-! ## Supervision (R304–R307, Table 9-6) -/

/-- `EV_CLK_LOST` (R309). -/
def evClk (s : State) (n cause : Nat) (resumed : Bool) : State := raise s evClkLost (sapTgt n) (cause % 16 + flag resumed 4)

/-- A measured frame rate in mHz lies within the rate range (R304). -/
def rateOk (mhz : Nat) : Bool := decide (28000000 ≤ mhz) && decide (mhz ≤ 100000000)

/-- The condition of a cause of Table 9-6 holds now: no BCLK edge for 4 Tb, detected within 10 ns; no frame start for 4 frame
periods; a channel that is not locked and cannot hold the bounds of R90; a rate out of range. -/
def causeHolds (s : State) (p : Sap) (cause : Nat) (edge : Sid) (mhz : Nat) : Bool :=
  match cause with
  | 1 => !bclkController p.cfg && decide (edge + 4 * p.bitTime ≤ s.sid.now) && decide (s.sid.now ≤ edge + 4 * p.bitTime + 655360)
  | 2 => !fsyncController p.cfg && decide (p.last + 4 * p.period ≤ s.sid.now)
  | 3 => bclkController p.cfg && !s.clk.lock.getLsbD (sapLoop p.cfg) && !mclkBound s (sapLoop p.cfg)
  | 4 => !rateOk mhz
  | _ => false

/-- `SAP_CLOCK_LOST` (R304): mute, gap marker, `EV_CLK_LOST`; a stop that waited for a frame end takes place. -/
def execSapClockLost (n cause : Nat) (edge : Sid) (mhz : Nat) (t : Sid) (s : State) : Host.Outcome State Fault Refusal :=
  let s0 := advance s t
  let p := sap s0 n
  if n ≥ 4 ∨ p.runs = false ∨ causeHolds s0 p cause edge mhz = false then .next s
  else
    let s1 := loseFrames s0 n 0
    let s2 := evClk (putSap s1 n { sap s1 n with
      st := .clockLost, cause := cause, losses := sat 32 (p.losses + 1), fadeTo := 0, lines := [], bclk := [], feed := [],
      rate := if cause = 4 then mhz else p.rate, maskFrom := 0, routeFrom := 0, dropped := false,
      afresh := decide (p.st = .remeasuring) || decide (s0.sid.now < p.fadeTo) }) n cause false
    match p.stopTo with
    | some b => if sameButMasks p.cfg b then .next s2 else .next (frameStop s2 n b)
    | none => .next s2

/-- `SAP_GLITCH` (Table 9-6): a BCLK period under 0.75 Tb spoils the frame in progress. -/
def execSapGlitch (n : Nat) (period : Sid) (s : State) : Host.Outcome State Fault Refusal :=
  let p := sap s n
  if n < 4 ∧ p.runs ∧ 4 * period < 3 * p.bitTime then
    .next (putSap s n { p with glitches := sat 32 (p.glitches + 1), dropped := true })
  else .next s

/-- `SAP_FRAMING_ERROR` (Table 9-6): a frame start at other than N × W bit clocks; the port realigns at it. -/
def execSapFramingError (n : Nat) (sdi : List Bool) (t : Sid) (s : State) : Host.Outcome State Fault Refusal :=
  let p := sap s n
  if n < 4 ∧ p.runs ∧ p.dropped = false ∧ fsyncController p.cfg = false ∧ sdi.length ≠ frameBits p.cfg + 1 then
    let s0 := advance s t
    .next (frameBegins (frameEnds (putSap s0 n { p with frameErr := sat 32 (p.frameErr + 1) }) n none) n)
  else .next s

/-- A rate departs by more than 2 % from the reference rate. -/
def Sap.departs (p : Sap) (mhz : Nat) : Bool := decide (p.refRate < 50 * ((mhz : Int) - p.refRate).natAbs)

/-- `SAP_RATE_CHANGE` (R304, R305): both of the last two windows of 1 ms depart by more than 2 %. -/
def execSapRateChange (n first second : Nat) (t : Sid) (s : State) : Host.Outcome State Fault Refusal :=
  let p := sap s n
  if n ≥ 4 ∨ p.st ≠ .running ∨ p.departs first = false ∨ p.departs second = false then .next s
  else
    let s0 := advance s t
    let s1 := raise (putSap s0 n { p with rate := second }) evRateChanged (sapTgt n) (sat 16 (second / 10000))
    if slipMode p.cfg then .next s1
    else .next (putSap s1 n { sap s1 n with st := .remeasuring, remeasAt := s1.sid.now, oldRate := p.refRate, drift := 0 })

/-- `SAP_RETARGET` (R305): after 16 ms of measurement and within 20 ms, the measured rate becomes the reference rate, and the port
cross-fades over 5 ms. -/
def execSapRetarget (n mhz : Nat) (t : Sid) (s : State) : Host.Outcome State Fault Refusal :=
  let p := sap s n
  let s0 := advance s t
  let now := s0.sid.now
  if n < 4 ∧ p.st = .remeasuring ∧ p.remeasAt + 16000 * usU ≤ now ∧ now ≤ p.remeasAt + 20000 * usU ∧ rateOk mhz then
    let s1 := markBlock (endBlock s0 n) n 3
    .next (putSap s1 n { sap s1 n with st := .running, rate := mhz, refRate := mhz, fadeTo := now + fiveMs, afresh := false })
  else .next s

/-- The bit clock can run: a controller's channel is locked (R296). -/
def sapClockOk (s : State) (b : Bytes) : Bool := !bclkController b || s.clk.lock.getLsbD (sapLoop b)

/-- What was held in ClockLost applies at the resume frame (R307). -/
def heldStream (n : Nat) (s : State) (f : InFlight) : State :=
  complete (bindPort s n f.cmd.pl) f stOk 0 [] s.sid.now s.ev.nextId

/-- A good frame (R304): N × W bit clocks, no glitch, a rate within the range. -/
def goodFrame (p : Sap) (f : FrameSeen) : Bool :=
  decide (f.bits = frameBits p.cfg) && decide (3 * p.bitTime ≤ 4 * f.shortest) && rateOk (1000 * secU / max 1 f.span)

/-- The port may run: the channel of a bit-clock controller is locked, and the last two frames of a port with an external clock
were good (R296, R306). -/
def mayRun (s : State) (p : Sap) (a b : FrameSeen) : Bool :=
  sapClockOk s p.cfg && (bclkController p.cfg && fsyncController p.cfg || goodFrame p a && goodFrame p b)

/-- The port runs from this frame start on: its FIFOs stand at their middle and its outputs ramp up (R298, R306). -/
def sapRuns (s : State) (n : Nat) (st : SapState) : State :=
  let now := s.sid.now
  let p := sap s n
  putSap s n { p with st := st, last := now, rampAt := now, rampUp := true, rd := sampleNo now - 4, inWr := sampleNo now + 4, drift := 0
                      oldRate := p.refRate, remeasAt := now, dropped := false, waitTold := false }

/-- Frame periods from the frame start before to this one, at the reference rate (R306). -/
def missedFrames (s : State) (p : Sap) : Nat := ((s.sid.now - p.last) * p.refRate + 500 * secU) / (1000 * secU)

/-- `SAP_RESUME` (R306, Table 9-7): two good frames, or a locked channel, end Waiting or ClockLost at this frame start.
Log: 96 (DEDUCED). -/
def execSapResume (n : Nat) (a b : FrameSeen) (t : Sid) (s : State) : Host.Outcome State Fault Refusal :=
  let p := sap s n
  if n ≥ 4 ∨ mayRun s p a b = false then .next s
  else
    let s0 := advance s t
    let mark := s0.ev.nextId
    match p.st with
    | .waiting =>
      let s1 := markBlock (sapRuns (putSap s0 n { p with rate := p.refRate }) n .running) n 0
      let s2 := if p.waitTold then evClk s1 n p.cause true else finishOp s1 0x0801 (sapTgt n) stOk 0 [] mark
      .next (driveFrame s2 n)
    | .clockLost =>
      let s1 := sapRuns (loseFrames s0 n (missedFrames s0 p)) n (if p.afresh then .remeasuring else .running)
      let s2 := frameSettings (evClk (markBlock s1 n 0) n p.cause true) n
      let s3 := (s2.cmds.list.filter fun f => decide (f.phase = .executing) && f.begun && f.outcome.isNone && f.cmd.op == 0x0804 &&
        f.cmd.tgt == sapTgt n).foldl (heldStream n) s2
      .next (driveFrame s3 n)
    | _ => .next s

/-- `SAP_WAITING_TIMEOUT` (Table 9-7). -/
def execSapWaitingTimeout (n : Nat) (s : State) : Host.Outcome State Fault Refusal :=
  let p := sap s n
  if n < 4 ∧ p.st = .waiting ∧ p.waitTold = false ∧ expired s p.waitBy then
    .next (finishOp (putSap s n { p with waitTold := true }) 0x0801 (sapTgt n) stBadState 1 [] s.ev.nextId)
  else .next s

end Sys2Proof.Machine
end

