-- ==== Sys2Proof/Machine/Reg.lean ====
section
/-! DEFINITION. Machine/Reg.lean: the regulatory table: its image, its CRC-32 and commands 0x0910–0x0913 but for what a new table
does to the exciter (R318, R319, R321, R332). -/

namespace Sys2Proof.Machine

/-! ## The image (Tables 10-3 and 10-4) -/

def regSize : Nat := 2112

/-- The staged image, whole.
Log: 97 (DEDUCED). -/
def stagedImage (s : State) : Bytes := fit regSize s.reg.staged

/-- One entry of an image. -/
def entryOf (img : Bytes) (i : Nat) : Bytes := (img.drop (64 + 32 * i)).take 32

def eMode (e : Bytes) : Nat := byteAt e 0
def eFreq (e : Bytes) : Nat := le e 4 4
def ePmax (e : Bytes) : Int := les e 8 2
def eDev (e : Bytes) : Nat := le e 10 2
def eDuty (e : Bytes) : Nat := byteAt e 12
def eCont (e : Bytes) : Nat := le e 14 2
def eFtol (e : Bytes) : Nat := le e 16 2
def ePtol (e : Bytes) : Nat := le e 18 2
def nEntries (img : Bytes) : Nat := byteAt img 1
def dutyWin (img : Bytes) : Nat := le img 16 4

/-- The first byte of `n` from `off` that is not zero. -/
def firstNonZero (b : Bytes) (off n : Nat) : Option Nat := ((List.range n).map (off + ·)).find? fun i => byteAt b i != 0

/-- The first field of an entry that is invalid, by its offset in the entry. -/
def entryBad (e : Bytes) : Option Nat :=
  if eMode e = 0 then none
  else if 2 < eMode e then some 0
  else
    (firstNonZero e 1 3).orElse fun _ =>
    (if (eMode e = 1 ∧ (eFreq e < 87500 ∨ 108000 < eFreq e)) ∨ (eMode e = 2 ∧ (eFreq e < 174000 ∨ 240000 < eFreq e)) then some 4
     else if ePmax e < -400 ∨ 60 < ePmax e then some 8
     else if (eMode e = 1 ∧ (eDev e < 100 ∨ 750 < eDev e)) ∨ (eMode e = 2 ∧ eDev e ≠ 0) then some 10
     else if eDuty e < 1 ∨ 100 < eDuty e then some 12
     else if byteAt e 13 ≠ 0 then some 13
     else if eFtol e < 1 ∨ 10000 < eFtol e then some 16
     else if ePtol e < 2 ∨ 60 < ePtol e then some 18
     else firstNonZero e 20 12)

/-- The first invalid byte of an image (R332): header, used entries, and zeros from `N_ENTRIES` on.
Log: 97 (DEDUCED). -/
def regBad (b : Bytes) : Option Nat :=
  if byteAt b 0 ≠ 1 then some 0
  else if nEntries b < 1 ∨ 64 < nEntries b then some 1
  else if les b 8 2 < -100 ∨ 600 < les b 8 2 then some 8
  else if le b 10 2 < 100 ∨ 600 < le b 10 2 then some 10
  else if 2 < byteAt b 12 then some 12
  else
    (firstNonZero b 13 3).orElse fun _ =>
    (if dutyWin b < 60 ∨ 86400 < dutyWin b then some 16
     else
      (firstNonZero b 20 44).orElse fun _ =>
      ((List.range (nEntries b)).findSome? fun i => (entryBad (entryOf b i)).map (64 + 32 * i + ·)).orElse fun _ =>
      firstNonZero b (64 + 32 * nEntries b) (32 * (64 - nEntries b)))

/-! ## The table in force -/

/-- A regulatory entry of the table in force that may be used (R318). -/
def regEntry (s : State) (i : Nat) : Option Bytes :=
  if s.reg.gen ≠ 0 ∧ i < nEntries s.reg.image ∧ eMode (entryOf s.reg.image i) ≠ 0 then some (entryOf s.reg.image i) else none

/-- The complete copy with the highest generation (R319). -/
def bestCopy (slots : List RegSlot) : Option RegSlot :=
  (slots.filter (·.complete)).foldl (fun b x => match b with
    | none => some x
    | some y => if y.gen < x.gen then some x else b) none

/-- The copy in force is loaded into the shadow. -/
def loadShadow (s : State) : State :=
  match bestCopy s.reg.slots with
  | some c => s.setReg { s.reg with gen := c.gen, image := c.image, next := false }
  | none => s.setReg { s.reg with next := false }

/-! ## Commands (R321, R332) -/

/-- Log: 97 (DEDUCED). -/
def regLoadUnit (c : Cmd) (s : State) : Reply :=
  let off := le c.pl 0 2
  let n := le c.pl 2 2
  if s.reg.locked then badState
  else if c.a.origin = .mailbox ∧ 96 < n then badParam 2
  else ok (s.setReg { s.reg with staged := splice (stagedImage s) off (c.pl.drop 4) })

/-- Lodestar commands during a safety break-in or an alert window, and in TX_HELD (R314, R331, R395). -/
def holdTx (s : State) (_ : Cmd) : Bool := safetyOn s || decide (s.tx.st = .held)

/-- `REG_LOAD`: a span inside the 2112 bytes. -/
def regLoadSpec : CmdSpec :=
  { op := 0x0910, target := toTx, len := fun b => if b.length < 4 then 8 else 4 + le b 2 2,
    fields := fun _ => [fld 0 2 fun v => v % 4 == 0 && decide (v < regSize),
      ⟨2, fun b => le b 2 2 % 4 == 0 && decide (le b 0 2 + le b 2 2 ≤ regSize)⟩],
    hold := holdTx, unit := regLoadUnit }

/-- `REG_COMMIT` (R319): refusals in the order lock, commit running, CRC, invalid field, no free slot.
Log: 97 (DEDUCED). -/
def regCommitUnit (c : Cmd) (s : State) : Reply :=
  let img := stagedImage s
  if s.reg.locked ∨ s.reg.commit then badState
  else if (crc32 img).toNat ≠ le c.pl 0 4 then .deny stBadState 0xFFFF
  else
    match regBad img with
    | some off => .deny stBadState off
    | none =>
      if 16 ≤ s.reg.slots.length then .deny stNoResource 0
      else
        let g := ((bestCopy s.reg.slots).map (·.gen)).getD 0
        .busy (s.setReg { s.reg with slots := s.reg.slots ++ [{ gen := g + 1, image := img, complete := false }], commit := true })

def regCommitSpec : CmdSpec := { op := 0x0911, target := toTx, len := fun _ => 4, hold := holdTx, unit := regCommitUnit }

/-- The last slot used is complete. -/
def completeLast (slots : List RegSlot) : List RegSlot :=
  slots.dropLast ++ (slots.getLast?.toList.map fun x => { x with complete := true })

/-- `REG_COMMIT_COMPLETE` (R319): the marker reads back, or does not: then the copy stays incomplete and the command is
refused. A commit is suspended during a brown-out warning.
Log: 98 (DEDUCED). -/
def execRegCommitComplete (good : Bool) (t : Sid) (s : State) : Host.Outcome State Fault Refusal :=
  if s.reg.commit = false ∨ s.pwr.brownout then .next s
  else
    let s0 := advance s t
    let mark := s0.ev.nextId
    let r := s0.reg
    if good then
      .next (finishOp (s0.setReg { r with slots := completeLast r.slots, commit := false, last := 1, next := true, nextBy := s0.sid.ticks + 1 }) 0x0911 0x0900
        stOk 0 [] mark)
    else .next (finishOp (s0.setReg { r with commit := false, last := 2 }) 0x0911 0x0900 stBadState 0 [] mark)

/-- Log: 99 (DEDUCED). -/
def regLockUnit (c : Cmd) (s : State) : Reply :=
  if s.reg.commit then badState
  else if le c.pl 0 4 ≠ s.reg.gen then badParam 0
  else ok (s.setReg { s.reg with locked := true })

def regLockSpec : CmdSpec := { op := 0x0912, target := toTx, len := fun _ => 4, hold := holdTx, unit := regLockUnit }

/-- The `REG_GET` result (Tables 10-4 and 10-12). -/
def regGetResult (s : State) (part : Nat) : Bytes :=
  let r := s.reg
  if part = 0 then
    leBytes 4 r.gen ++ leBytes 4 (if r.gen = 0 then 0 else (crc32 r.image).toNat) ++ leBytes 1 r.slots.length ++
      leBytes 1 (flag r.locked 0 + 2 * r.last) ++ leBytes 1 (if r.gen = 0 then 0 else nEntries r.image) ++ zeros 5
  else if r.gen ≠ 0 ∧ part - 1 < nEntries r.image then fit 32 (entryOf r.image (part - 1))
  else zeros 32

def regGetSpec : CmdSpec :=
  { op := 0x0913, target := toTx, len := fun _ => 4, largest := fun b => if byteAt b 0 = 0 then 16 else 32,
    fields := fun _ => [rng 0 1 0 64, rsv 1 3], unit := fun c s => okWith (regGetResult s (byteAt c.pl 0)) s }

def execRegLoad (a : Args) (s : State) : Host.Outcome State Fault Refusal := .next (submit regLoadSpec a s)
def execRegCommit (a : Args) (s : State) : Host.Outcome State Fault Refusal := .next (submit regCommitSpec a s)
def execRegLock (a : Args) (s : State) : Host.Outcome State Fault Refusal := .next (submit regLockSpec a s)
def execRegGet (a : Args) (s : State) : Host.Outcome State Fault Refusal := .next (submit regGetSpec a s)

end Sys2Proof.Machine
end

