-- ==== Sys2Proof/Machine/Exciter.lean ====
section
/-! DEFINITION. Machine/Exciter.lean: what the exciter radiates: its level, its programme with break-in fades, the FM multiplex
with RDS, and the DAB frames (R310, R311, R313, R326–R330). -/

namespace Sys2Proof.Machine

/-! ## Fields of the settings in force -/

def coexOn (s : State) : Bool := bit (byteAt s.tx.coex 0) 0

/-- COEX_GNT is asserted, by its polarity (R325).
Log: 114 (DEDUCED). -/
def granted (s : State) : Bool := s.tx.gnt == bit (byteAt s.tx.coex 0) 2
def coexWait (s : State) : Nat := byteAt s.tx.coex 1

def coexLead (s : State) : Sid := le s.tx.coex 2 2 * usU
def paLead (s : State) : Sid := byteAt s.tx.level 4 * 10 * usU
def sfnRole (s : State) : Nat := byteAt s.tx.sfn 0
def sfnStream (s : State) : Nat := byteAt s.tx.sfn 1
def brkEn (s : State) (i : Nat) : Bool := bit (byteAt s.tx.brk 0) i

/-- The regulatory entry in use, if the table in force has it. -/
def curEntry (s : State) : Option Bytes := s.tx.entry.bind (regEntry s)

/-- `E_MODE` of the entry in use; 0 for none. -/
def txMode (s : State) : Nat := ((curEntry s).map eMode).getD 0

/-- The level in use: `BRK_LEVEL` in a transmission that a break-in started, and never above `E_PMAX` (R330, R331).
Log: 105 (DESIGN CHOICE). -/
def levelInUse (s : State) : Int :=
  let v := if s.tx.brkOwn then les s.tx.brk 8 2 else les s.tx.level 0 2
  match curEntry s with
  | some e => min v (ePmax e)
  | none => v

/-- The exciter transmits, or would but for a mute. -/
def transmitting (s : State) : Bool := decide (s.tx.st = .on) || decide (s.tx.st = .muted)

/-! ## Level (R313) -/

/-- The amplitude at a time. -/
def Ramp.value (r : Ramp) (t : Sid) : Int :=
  if t ≤ r.start then r.from_
  else if r.start + r.len ≤ t then r.to_
  else r.from_ + (r.to_ - r.from_) * fadeIn 1 ((t - r.start) * 2 ^ 32 / r.len) / 2 ^ 23

/-- The amplitude of a level in 0.1 dBm. -/
def levelAmp (l : Int) : Int := ampRatio (10 * l)

/-- The output moves from where it is to an amplitude. -/
def moveLevel (s : State) (to_ : Int) (start len : Sid) : State :=
  s.setTx { s.tx with ramp := ⟨s.tx.ramp.value start, to_, start, len⟩ }

/-- `RAMP_MS` and `PA_LAG_US`. -/
def rampLen (s : State) : Sid := le s.tx.level 2 2 * 1000 * usU
def paLag (s : State) : Sid := byteAt s.tx.level 5 * 10 * usU

/-- The level in use has changed: while transmitting it moves along a 1 ms raised cosine. -/
def relevel (s : State) : State :=
  if s.tx.st = .on then moveLevel s (levelAmp (levelInUse s)) s.sid.now (1000 * usU) else s

/-- The ramp of a start whose PA_EN is asserted now. -/
def startRamp (s : State) : State := moveLevel s (levelAmp (levelInUse s)) (s.sid.now + paLead s) (rampLen s)

/-- 0.5 ms: the ramp of a fast mute. -/
def fastLen : Sid := 500 * usU

/-- A fast mute begins. -/
def fastRamp (s : State) : State :=
  let s1 := moveLevel s 0 s.sid.now fastLen
  s1.setTx { s1.tx with muteAt := s.sid.now }

/-! ## The frame grid (R313, R327) -/

/-- 96 ms. -/
def frameU : Sid := 96000000 * 65536

/-- Time at TXOUT of the null symbol of frame `n`: it leaves the amplifier, `PA_DELAY_NS` later, at n × 96 ms + `SFN_OFFSET_NS`. -/
def nullAt (s : State) (n : Nat) : Int := n * frameU + 65536 * les s.tx.sfn 4 4 - 65536 * le s.tx.sfn 8 2

/-- PA_EN may be asserted now: `PA_LEAD_US` before a null symbol. -/
def onGrid (s : State) (t : Sid) : Bool := ((t : Int) + paLead s - nullAt s 0) % frameU == 0

/-- The start of the next null symbol. -/
def nextNull (s : State) : Sid := ((s.sid.now : Int) + (nullAt s 0 - s.sid.now) % frameU).toNat

/-- An ordinary stop ramps down from now on, or in DAB mode from the next null symbol, and deasserts PA_EN `PA_LAG_US` later. -/
def stopRamp (s : State) : State :=
  let at_ := if txMode s = 2 then nextNull s else s.sid.now
  let s1 := moveLevel s 0 at_ (rampLen s)
  s1.setTx { s1.tx with stopAt := at_ + rampLen s + paLag s }

/-! ## Programme (R328–R330) -/

/-- The path that full lane `n` feeds. -/
def lanePath (s : State) (n : Nat) : Option Nat := (List.range 24).find? fun p => pathLane s p == some n

/-- The source of an alert: with kind 0x5 the service in `BRK_PROG` for a DAB alert, the path of a full lane for an RDS alert, and
silence for one from a flake (R329). -/
def alertSource (s : State) : HostBreak :=
  if byteAt s.tx.brk 1 ≠ 5 then ⟨byteAt s.tx.brk 1, byteAt s.tx.brk 2⟩
  else match s.pol.openAlerts with
    | [] => ⟨0, 0⟩
    | (src, sub) :: _ =>
      match (if toFull src then (if sub = 0xFF then lanePath s (src - 0x0300) else brkProg s) else none) with
      | some p => ⟨4, p⟩
      | none => ⟨0, 0⟩

/-- The source of the programme: that of the break-in, by its rank, or `TX_PROG` (R310, Table 10-6). -/
def txSource (s : State) : HostBreak :=
  match s.tx.rank with
  | 0 => match txMode s with
    | 1 => ⟨4, byteAt (s.tx.fm.getD []) 0⟩
    | 2 => ⟨4, byteAt (s.tx.dab.getD []) 0⟩
    | _ => ⟨0, 0⟩
  | 1 => alertSource s
  | 2 => ⟨byteAt s.tx.brk 3, byteAt s.tx.brk 4⟩
  | 3 => s.tx.host.getD ⟨0, 0⟩
  | _ => ⟨4, byteAt s.tx.brk 5⟩

/-- Times of the 15 programme samples of a tick. -/
def tickTimes (s : State) : List Sid := (List.range 15).map fun k => s.sid.now + k * secU / 48000

/-- A word of a stream with its sample in [31:8]. -/
def wordSample (w : Nat) : Int := if w / 256 < 2 ^ 23 then w / 256 else (w / 256 : Int) - 2 ^ 24

/-- Frames of two words from a source ring (R329). -/
def ringFrames : Nat → PlayIn → Bytes → PlayIn × Bytes × List (Option (Int × Int))
  | 0, q, d => (q, d, [])
  | k + 1, q, d =>
    let r := q.take d
    let t := ringFrames k r.1 r.2.1
    (t.1, t.2.1, (r.2.2.map fun w => (wordSample (w.getD 0 0), wordSample (w.getD 1 0))) :: t.2.2)

/-- The source ring gives the samples of a tick; too few are an underrun. -/
def ringPlays (s : State) (n : Nat) : State × List (Int × Int) :=
  match mget s.rings n with
  | none => (s, [])
  | some r =>
    let f := ringFrames 15 s.tx.playIn r.inData
    let s1 := (putRing s n { r with inData := f.2.1 }).setTx { s.tx with
      playIn := f.1, dryBy := if f.2.2.contains none then deadline s 64 else s.tx.dryBy }
    (s1, f.2.2.map (·.getD (0, 0)))

/-- The samples of a tick of a source: a port's feed, a ring, a stream, or a path, whose output reaches TXOUT 1.500 ms later in FM
mode (R310, R329). -/
def sourceTick (s : State) (x : HostBreak) : State × List (Int × Int) :=
  match x.kind with
  | 1 => (s, (tickTimes s).map (portFeed s x.index))
  | 2 => ringPlays s x.index
  | 3 => (s, ((mget s.eth.streams x.index).map (·.play)).getD [])
  | 4 => (s, (tickTimes s).map fun t => sampleAt (path s x.index).past (t - (if txMode s = 1 then 1500 * usU else 0)))
  | _ => (s, [])

/-- The programme of a tick: a change of source is an equal-power fade over `BRK_FADE_MS` (R328). -/
def programmeTick (s : State) : State × List (Int × Int) :=
  let want := txSource s
  let s1 := if want = s.tx.src then s else s.setTx { s.tx with src := want, srcFrom := s.tx.src, fadePos := 0 }
  let len := 48 * byteAt s.tx.brk 7
  let a := sourceTick s1 s1.tx.src
  if len ≤ s1.tx.fadePos then (a.1, (List.range 15).map fun k => a.2.getD k (0, 0))
  else
    let b := sourceTick a.1 s1.tx.srcFrom
    let x (k : Nat) : Nat := min (2 ^ 32) ((s1.tx.fadePos + k) * 2 ^ 32 / len)
    (b.1.setTx { b.1.tx with fadePos := s1.tx.fadePos + 15 },
     (List.range 15).map fun k => mix2 (b.2.getD k (0, 0)) (a.2.getD k (0, 0)) (fadeOut 2 (x k)) (fadeIn 2 (x k)))

/-! ## The FM multiplex (R311, Table 10-1) -/

/-- An information word as the 26 bits of an RDS block.
Log: 72 (PRESUMED). -/
def rdsBlockBits (w pos : Nat) (cPrime : Bool) : List Bool :=
  let off := if cPrime then 0x350 else (rdsOffsets pos).headD 0
  let v := w * 1024 + (rdsRemainder (w * 1024) ^^^ off)
  (List.range 26).map fun i => v.testBit (25 - i)

/-- A group of type 0A: PI, TP, PTY, TA, and the PS segment `seg`; an announcement sets TA, and PTY 31 for an alert (R330).
Log: 197 (PRESUMED). -/
def ownGroup (b : Bytes) (rank seg : Nat) : List Bool :=
  let pty := if rank = 1 then 31 else byteAt b 10
  let w := flag (bit (byteAt b 2) 2) 10 + 32 * pty + flag (decide (0 < rank)) 4 + 8 + seg
  rdsBlockBits (le b 8 2) 0 false ++ rdsBlockBits w 1 false ++ rdsBlockBits 0xE0CD 2 false ++
    rdsBlockBits (256 * byteAt b (12 + 2 * seg) + byteAt b (13 + 2 * seg)) 3 false

/-- A group record of `TX_RDS_RING` as bits (Table 6-2). -/
def recordGroup (r : Bytes) : List Bool :=
  rdsBlockBits (le r 4 2) 0 false ++ rdsBlockBits (le r 6 2) 1 false ++ rdsBlockBits (le r 8 2) 2 (bit (byteAt r 3) 0) ++
    rdsBlockBits (le r 10 2) 3 false

/-- RDS bits are at hand: the device's own groups, and with `TFMFLAGS` bit 3 every second one from the ring while it has one. -/
def moreBits (b : Bytes) (rank : Nat) (m : FmMod) (ring : Bytes) : FmMod × Bytes :=
  if m.bits ≠ [] then (m, ring)
  else if bit (byteAt b 2) 3 ∧ m.ring ∧ 24 ≤ ring.length then
    ({ m with bits := recordGroup ring, ring := false }, ring.drop 24)
  else ({ m with bits := ownGroup b rank m.seg, seg := (m.seg + 1) % 4, ring := true }, ring)

/-- One multiplex sample at 192 kHz, in Hz of deviation: programme within `TX_DEV` less pilot and RDS, L−R on 38 kHz, the pilot, and
the differentially coded RDS bit on 57 kHz.
Log: 197 (PRESUMED). -/
def FmMod.sample (b : Bytes) (rank : Nat) (m0 : FmMod) (ring0 : Bytes) (frac : Nat) : FmMod × Bytes × Int :=
  let r := moreBits b rank m0 ring0
  let m := r.1
  let mono := bit (byteAt b 2) 0
  let rds := bit (byteAt b 2) 1
  let pilotHz : Int := if mono then 0 else 100 * byteAt b 6
  let rdsHz : Int := if rds then 100 * byteAt b 7 else 0
  let audioHz : Int := 100 * le b 4 2 - pilotHz - rdsHz
  let up (f : Int × Int → Int) : Int :=
    convRound (((List.range 8).map fun i => Config.coef 70 (8 * frac + i) * f (m.hist.getD i (0, 0))).sum) 20
  let sum := (up (·.1) + up (·.2)) / 2
  let dif := if mono then 0 else (up (·.1) - up (·.2)) / 2
  let s1 := (sineCosine 24 m.phase).im
  let s2 := (sineCosine 24 (2 * m.phase)).im
  let s3 := (sineCosine 24 (3 * m.phase)).im
  let pulse := Config.coef 71 (m.rdsPhase / 2 ^ 38) * (if m.bits.headD false != m.last then 1 else -1)
  let y := audioHz * (sum + dif * s2 / 2 ^ 23) / 2 ^ 23 + pilotHz * s1 / 2 ^ 23 + rdsHz * pulse / 2 ^ 20 * s3 / 2 ^ 23
  let p := m.rdsPhase + ncoWord 19 3072
  let m1 := { m with phase := (m.phase + ncoWord 19 192) % 2 ^ 48, rdsPhase := p % 2 ^ 48 }
  (if 2 ^ 48 ≤ p then { m1 with bits := m.bits.drop 1, last := m.bits.headD false != m.last } else m1, r.2, y)

/-- One programme sample enters the multiplex, pre-emphasised (`TX_PREEMPH`), and gives four of its samples. -/
def FmMod.push (b : Bytes) (rank : Nat) (a : FmMod × Bytes × List Int) (x : Int × Int) : FmMod × Bytes × List Int :=
  let m := a.1
  let k := if byteAt b 1 = 0 then 0 else Config.coef 69 (byteAt b 1)
  let e (now before : Int) : Int := clampTo 24 (now + (now - before) * k / 2 ^ 16)
  let m1 : FmMod := { m with pre := x, hist := Machine.push 8 (e x.1 m.pre.1, e x.2 m.pre.2) m.hist }
  [0, 1, 2, 3].foldl (fun q f =>
    let r := q.1.sample b rank q.2.1 f
    (r.1, r.2.1, q.2.2 ++ [r.2.2])) (m1, a.2.1, a.2.2)

/-- The exciter takes in the programme of this tick, and in FM mode gives its multiplex; a follower takes its frames' (R326).
Log: 197 (PRESUMED). -/
def exciterTick (s : State) : State :=
  if transmitting s = false then s
  else
    let r := programmeTick s
    let s1 := r.1.setTx { r.1.tx with line := (r.2.reverse ++ r.1.tx.line).take 4608 }
    match txMode s1, s1.tx.fm with
    | 1, some b =>
      let n := byteAt b 3
      let ring := if bit (byteAt b 2) 3 then mget s1.rings n else none
      let m := r.2.foldl (FmMod.push b s1.tx.rank) (s1.tx.fmMod, (ring.map (·.inData)).getD [], [])
      let s2 := match ring with
        | some x => putRing s1 n { x with inData := m.2.1 }
        | none => s1
      s2.setTx { s2.tx with fmMod := m.1, mpx := m.2.2 }
    | _, _ => s1

/-! ## DAB frames (R311, R326, R469) -/

/-- Capacity units of the subchannel (R311), and bytes of a Layer II frame (R469), by `L2_RATE`. -/
def subchSize (code : Nat) : Nat := 96 + 24 * code
def l2Bytes (code : Nat) : Nat := 384 + 96 * code

/-- The alarm state of a frame packet: the alarm flag, the subchannel or 0xFF, and the CIF count of its first CIF (R327, R330,
R469). -/
def alarmState (s : State) (n : Nat) : Bytes :=
  let on := safetyBreak s
  leBytes 1 (flag on 0) ++ leBytes 1 (if on then Config.txSubch.toNat else 0xFF) ++ leBytes 2 (4 * n % 5000)

/-- What FIG 0/19 signals: cluster 0xFF for alerts and PTT, cluster 0x01 for ranks 3 and 4 (R330). -/
def announced (s : State) : Nat := if safetyBreak s then 0xFF else if 0 < s.tx.rank then 1 else 0

/-- Fragment 0 of frame `n`: the alarm state and the 12 FIBs, built from `TX_DAB_SET` (R311, R469). -/
def frameFic (s : State) (n : Nat) : Bytes :=
  let b := s.tx.dab.getD []
  let from_ := b ++ leBytes 1 (subchSize (byteAt b 1)) ++ leBytes 1 (announced s) ++ alarmState s n
  alarmState s n ++ (List.range 12).flatMap fun i => fit 32 (Config.fib from_ i)

/-- Fragment 1: the four Layer II frames of the programme (R311, R469). -/
def frameAudio (s : State) : Bytes :=
  let b := s.tx.dab.getD []
  let pcm := s.tx.line.reverse
  (List.range 4).flatMap fun i =>
    fit (l2Bytes (byteAt b 1)) (Config.layer2 (byteAt b 1) ((pcm.drop (1152 * i)).take 1152))

/-- Frame `n` is emitted with these contents. -/
def emitFrame (s : State) (n : Nat) (fic audio : Bytes) : State := s.setTx { s.tx with frame := n, fic := fic, audio := audio }

/-- The due time of R386 that the state at a tick boundary gives: the end of the first whole RDS group from now on, or that of the FIC
of the first frame from 24 ms after the start of the break-in on. The FIC of a frame ends 12 864 sample periods of 2.048 MHz after
the start of its null symbol.
Log: 165 (DEDUCED). -/
def dueFrom (s : State) : Sid :=
  if txMode s = 2 then
    let from_ := max s.sid.now (s.tx.brkFrom + 24000 * usU)
    nextNull (s.setSid { s.sid with now := from_ }) + 12864 * secU / 2048000
  else s.sid.now + (s.tx.fmMod.bits.length + 104) * (2 * secU) / 2375

/-- A safety break-in sets its due time once the fade and the ramp have ended; a mute suspends it (R386). -/
def dueTick (s : State) : State :=
  if safetyBreak s = false then s.setTx { s.tx with brkFrom := 0, dueAt := none }
  else
    let s1 := if s.tx.brkFrom = 0 then s.setTx { s.tx with brkFrom := s.sid.now } else s
    if s1.tx.st ≠ .on then s1.setTx { s1.tx with dueAt := none }
    else if s1.tx.dueAt.isSome ∨ s1.tx.fadePos < 48 * byteAt s1.tx.brk 7 ∨ s1.sid.now < s1.tx.ramp.start + s1.tx.ramp.len then s1
    else s1.setTx { s1.tx with dueAt := some (dueFrom s1) }

/-- The contents of frame `n`: encoded ahead by a head, else now.
Log: 68 (DEDUCED). -/
def ownFrame (s : State) (n : Nat) : State :=
  match mget s.tx.ahead n with
  | some x => emitFrame (s.setTx { s.tx with ahead := mdel s.tx.ahead n }) n x.1 x.2
  | none => emitFrame s n (frameFic s n) (frameAudio s)

end Sys2Proof.Machine
end

