-- ==== Sys2Proof/Machine/Lodestar.lean ====
section
/-! DEFINITION. Machine/Lodestar.lean: the exciter: its states, regulatory counters, coexistence, SFN frames and break-in
(chapter 10). The monitor and the synthesiser expiry of a safety break-in report to Polaris and stand in Machine/Polaris.lean.

Every R313 start is the row `TX_START_SEQUENCE`, and every end of a fast mute the row `FAST_MUTE`. -/

namespace Sys2Proof.Machine

/-! ## Events (R333) -/

def evTxOf (s : State) (cause hi : Nat) : State := raise s evTx 0x0900 (cause + 256 * hi)

/-- `EV_TX` with the entry index for causes 0x01–0x08 and 0x11. -/
def evTxCause (s : State) (cause : Nat) : State :=
  evTxOf s cause (if (1 ≤ cause ∧ cause ≤ 8) ∨ cause = 0x11 then s.tx.entry.getD 0xFF else 0)

/-! ## Channel (R312) -/

/-- The image of `f` in the first Nyquist zone at rate `r`. -/
def foldAt (r f : Nat) : Nat := min (f % r) (r - f % r)

/-- |a − b|. -/
def apart (a b : Nat) : Nat := ((a : Int) - b).natAbs

/-- f_tx in kHz suits channel `fc` in kHz. -/
def ftxOk (s : State) (fc f : Nat) : Bool :=
  decide (5000000 ≤ apart (1000 * f) (fsOf s)) && decide (5000 ≤ apart (foldAt f (2 * fc)) fc) &&
    decide (5000 ≤ apart (foldAt f (3 * fc)) fc)

/-- The value on the 0.1 MHz grid nearest 3200.0 MHz; ties go to the lower. -/
def chooseFtx (s : State) (fc : Nat) : Nat :=
  ((List.range 2001).findSome? fun d =>
    if d ≤ 2000 ∧ ftxOk s fc (3200000 - 100 * d) then some (3200000 - 100 * d)
    else if d ≤ 1000 ∧ ftxOk s fc (3200000 + 100 * d) then some (3200000 + 100 * d) else none).getD 3200000

/-! ## Duty (R322) -/

/-- Ticks of an interval that lie after `from_`. -/
def ticksAfter (from_ : Nat) (e : Nat × Nat) : Nat := e.2 - max from_ e.1

/-- Transmitted ticks of entry `i` in the sliding window.
Log: 103 (DEDUCED). -/
def dutyUsed (s : State) (i : Nat) : Nat :=
  let x := s.tx
  let from_ := x.dutyClock - 3200 * dutyWin s.reg.image
  ((mgetD x.duty i []).map (ticksAfter from_)).foldl (· + ·) 0 +
    (if x.paEn ∧ x.entry = some i then ticksAfter from_ (x.dutyFrom, x.dutyClock) else 0)

/-- Duty budget left of entry `i`, in ticks.
Log: 103 (DEDUCED). -/
def dutyLeft (s : State) (i : Nat) : Nat :=
  match regEntry s i with
  | some e => 32 * dutyWin s.reg.image * eDuty e - dutyUsed s i
  | none => 0

/-- The present interval of PA_EN ends for the counters; intervals older than any window are dropped.
Log: 103 (DEDUCED). -/
def closeDuty (s : State) : State :=
  let x := s.tx
  match x.entry with
  | some i =>
    if x.paEn then
      let old := (mgetD x.duty i []).filter fun e => decide (x.dutyClock < e.2 + 3200 * 86400)
      s.setTx { x with duty := mput x.duty i (old ++ [(x.dutyFrom, x.dutyClock)]), dutyFrom := x.dutyClock }
    else s
  | none => s

/-- A start on entry `i` is refused: less than 1 s of budget, or within the rest after a continuous limit (R322). -/
def dutyDenies (s : State) (i : Nat) : Bool := decide (dutyLeft s i < 3200) || decide (s.tx.dutyClock < s.tx.restUntil)

/-! ## Transitions of Table 10-2 -/

/-- The channel changes: f_tx is chosen and the TX PLL re-locks (R312). -/
def tuneTo (s0 : State) (i : Nat) : State :=
  let s := closeDuty s0
  match regEntry s i with
  | none => s
  | some e =>
    let f := chooseFtx s (eFreq e)
    let s1 := (lockAttempt (txLoop s false) 1).setTx { s.tx with entry := some i, locked := false, tuned := true, ftx := f }
    if f = s.tx.ftx then s1 else usedChanged s1

/-- A start is pending (R314, R315). -/
def pend (s : State) : State :=
  s.setTx { s.tx with st := .pending, synthBy := if s.tx.locked then none else some (deadline s 64),
                      coexBy := deadline s (coexWait s), req := s.tx.req || coexOn s, gntAt := s.sid.now, resume := 0 }

/-- The mute causes all cleared. -/
def Tx.clearMutes (x : Tx) : Tx :=
  { x with muteBrown := false, muteGrant := false, muteFrame := false, muteTime := false, resume := 0 }

/-- TX_TUNING or TX_READY, by the TX PLL. -/
def idleState (x : Tx) : TxState := if x.locked then .ready else .tuning

/-- A pending start is given up; COEX_REQ is released. -/
def dropPending (s : State) : State :=
  s.setTx { s.tx with st := idleState s.tx, req := false, pri := false, synthBy := none, brkOwn := false, byTune := false,
                      rank := if s.tx.brkOwn then 0 else s.tx.rank,
                      refused := if s.tx.brkOwn then s.tx.rank :: s.tx.refused else s.tx.refused }

/-- The opcode of the command that the pending start completes. -/
def startOp (x : Tx) : Nat := if x.byTune then 0x0901 else 0x0902

/-- A pending start ends without transmission: its command completes with `status`. -/
def failPending (s : State) (status : Nat) : State :=
  let mark := s.ev.nextId
  finishOp (dropPending s) (startOp s.tx) 0x0900 status 0 [] mark

/-- TX_ON or TX_MUTED becomes TX_READY with a fast mute (Table 10-2); a break-in under way ends with it.
Log: 109 (DEDUCED). -/
def muteReady (s : State) (cause : Nat) : State :=
  if s.tx.st = .on ∨ s.tx.st = .muted then
    let q := if s.tx.st = .on then fastRamp s else s
    let x := q.tx.clearMutes
    evTxCause (q.setTx { x with
      st := .ready, muteCause := cause, rank := 0, brkOwn := false, pri := false,
      refused := if x.rank = 0 then x.refused else x.rank :: x.refused, req := x.req && x.paEn }) cause
  else s

/-- TX_ON becomes TX_MUTED with a fast mute; in TX_MUTED the cause is added by the caller alone. -/
def muteFrom (s : State) (cause : Nat) : State :=
  if s.tx.st = .on then
    let q := fastRamp s
    evTxCause (q.setTx { q.tx with st := .muted, muteCause := cause, resume := 0 }) cause
  else s

/-- No mute cause stands; SFN time is back when Sidereal is disciplined. -/
def mutesClear (s : State) : Bool :=
  !s.tx.muteBrown && !s.tx.muteGrant && !s.tx.muteFrame && (!s.tx.muteTime || decide (s.sid.st = .disciplined))

/-- A mute cause of TX_MUTED has cleared: the transmission may restart with `EV_TX` cause `cause`. -/
def mayResume (s : State) (cause : Nat) : State :=
  if s.tx.st = .muted ∧ mutesClear s then s.setTx { s.tx with resume := cause } else s

/-- A brown-out warning mutes (R420). -/
def txBrown (s : State) : State :=
  if s.tx.st = .on ∨ s.tx.st = .muted then muteFrom (s.setTx { s.tx with muteBrown := true }) 0x0F else s

/-- The brown-out has ended (R422). -/
def txBrownEnds (s : State) : State :=
  if s.tx.muteBrown then mayResume (s.setTx { s.tx with muteBrown := false }) 0x10 else s

/-- The safe state holds the exciter: PA_EN deasserted, commands outstanding end (R314, R388).
Log: 102 (DEDUCED). -/
def txHold (s0 : State) : State :=
  let s := closeDuty s0
  let mark := s.ev.nextId
  let s1 := s.setTx { s.tx.clearMutes with
    st := .held, paEn := false, stopping := false, req := false, pri := false, synthBy := none, byTune := false,
    rank := 0, brkOwn := false, tuneLate := false }
  [0x0901, 0x0902, 0x0903].foldl (fun q op => finishOp q op 0x0900 stSafetyHold 0 [] mark) s1

/-- Polaris releases the exciter (Table 10-2).
Log: 101 (DEDUCED). -/
def txRelease (s : State) : State :=
  if s.tx.st = .held then s.setTx { s.tx with st := if s.tx.tuned then .ready else .off }
  else s

/-! ## Commands (R332) -/

/-- `TX_TUNE`: an unusable entry, or one whose `E_PMAX` is below the level in use, is refused (R322). A `TX_TUNE` that is
outstanding is superseded (R316).
Log: 101 (DEDUCED), 116 (DESIGN CHOICE). -/
def txTuneUnit (c : Cmd) (s0 : State) : Reply :=
  let i := byteAt c.pl 0
  match regEntry s0 i with
  | none => .deny stRegLimit 0
  | some e =>
    if ePmax e < levelInUse s0 then .deny stRegLimit 0
    else
      let s := finishOp s0 0x0901 0x0900 stSuperseded c.a.tag.toNat [] s0.ev.nextId
      let s1 := tuneTo s i
      let s2 := s1.setTx { s1.tx with tuneBy := deadline s1 64, tuneLate := false }
      match s.tx.st with
      | .pending => .busy (s2.setTx { s2.tx with synthBy := some (deadline s2 64) })
      | .on | .muted =>
        let s3 := if s.tx.st = .on then fastRamp s2 else s2
        .busy (pend (s3.setTx { s3.tx.clearMutes with byTune := true }))
      | _ => .busy (s2.setTx { s2.tx with st := .tuning })

def txTuneSpec : CmdSpec :=
  { op := 0x0901, target := toTx, len := fun _ => 4, fields := fun _ => [rsv 1 3], hold := holdTx, unit := txTuneUnit }

/-- The mode of the entry in use has been configured (R317). -/
def modeSet (s : State) : Bool :=
  match txMode s with
  | 1 => s.tx.fm.isSome
  | 2 => s.tx.dab.isSome
  | _ => true

/-- `TX_START` (R315, R317, R322).
Log: 107 (DEDUCED). -/
def txStartUnit (_ : Cmd) (s : State) : Reply :=
  if s.tx.st ≠ .tuning ∧ s.tx.st ≠ .ready then badState
  else if modeSet s = false then badState
  else
    match s.tx.entry with
    | some i => if (regEntry s i).isNone ∨ dutyDenies s i then .deny stRegLimit 0
                else .busy (pend (s.setTx { s.tx with byTune := false, brkOwn := false }))
    | none => .deny stRegLimit 0

def txStartSpec : CmdSpec := { op := 0x0902, target := toTx, len := fun _ => 0, hold := holdTx, unit := txStartUnit }

/-- An ordinary stop begins (R313). -/
def beginStop (s0 : State) : State :=
  let s := stopRamp s0
  s.setTx { s.tx with st := .ready, stopping := true, brkOwn := false, rank := 0 }

/-- `TX_STOP` (Table 10-2).
Log: 101 (DEDUCED). -/
def txStopUnit (_ : Cmd) (s : State) : Reply :=
  match s.tx.st with
  | .pending => ok (failPending s stAbortedHost)
  | .on => .busy (beginStop s)
  | .muted =>
    ok (evTxCause (s.setTx { s.tx.clearMutes with st := .ready, req := s.tx.req && s.tx.paEn, rank := 0, brkOwn := false }) 2)
  | _ => badState

def txStopSpec : CmdSpec := { op := 0x0903, target := toTx, len := fun _ => 0, hold := holdTx, unit := txStopUnit }

/-- `TX_LEVEL_SET` (R313, R322). -/
def txLevelUnit (c : Cmd) (s : State) : Reply :=
  if ((curEntry s).map fun e => decide (ePmax e < les c.pl 0 2)).getD false then .deny stRegLimit 0
  else ok (relevel (s.setTx { s.tx with level := c.pl }))

def txLevelSetSpec : CmdSpec :=
  { op := 0x0904, target := toTx, len := fun _ => 8,
    fields := fun _ => [srng 0 2 (-400) 60, rng 2 2 1 100, rng 4 1 0 100, rng 5 1 0 100, rsv 6 2],
    hold := holdTx, unit := txLevelUnit }

/-- `TX_FM_SET`: `TX_DEV` above `E_DEV` of an FM entry in use is refused (R322); the RDS ring is a stream-in ring that
nothing else uses.
Log: 106 (DEDUCED). -/
def txFmUnit (c : Cmd) (s : State) : Reply :=
  let ring := byteAt c.pl 3
  if txMode s = 1 ∧ ((curEntry s).map eDev).getD 0 < le c.pl 4 2 then .deny stRegLimit 0
  else
    match (if ring = 0xFF then none else ringDenied s ring 3 .streamIn (match mget s.rings ring with
      | some r => decide (r.bind ≠ .none)
      | none => false)) with
    | some r => r
    | none => ok (s.setTx { s.tx with fm := some c.pl })

/-- Table 10-8. -/
def txFmSetSpec : CmdSpec :=
  { op := 0x0905, target := toTx, len := fun _ => 20,
    fields := fun _ => [rng 0 1 0 23, rng 1 1 0 2, wid 2 1 4, fld 3 1 fun v => decide (v < 128) || v == 0xFF,
      rng 4 2 100 750, rng 6 1 60 75, rng 7 1 10 75, rng 10 1 0 30, rsv 11 1],
    hold := holdTx, unit := txFmUnit }

/-- Table 10-9.
Log: 117 (DEDUCED). -/
def txDabSetSpec : CmdSpec :=
  { op := 0x0906, target := toTx, len := fun _ => 44,
    fields := fun _ => [rng 0 1 0 23, rng 1 1 0 2, wid 3 1 1, rng 4 1 0 69, rng 5 1 0 23, wid 8 4 16],
    hold := holdTx, unit := fun c s => ok (s.setTx { s.tx with dab := some c.pl }) }

/-- Largest index of a source kind (R329): port, ring, stream, path; kind 0x5 has none. -/
def srcIndexOk (kind i : Nat) : Bool :=
  match kind with
  | 1 => decide (i < 4)
  | 2 => decide (i < 128)
  | 3 => decide (i < 16)
  | 4 => decide (i < 24)
  | _ => true

/-- `TX_BREAKIN_SET`: a `BRK_PROG` that is fed already is refused (R329).
Log: 117 (DEDUCED). -/
def txBreakinSetUnit (c : Cmd) (s : State) : Reply :=
  let p := byteAt c.pl 10
  let reserves := bit (byteAt c.pl 0) 0 && byteAt c.pl 1 == 5 && p != 0xFF
  let q := s.setTx { s.tx with brk := c.pl }
  if reserves ∧ ((pathLane s p).isSome ∨ ((mget s.services p).isSome ∧ brkProg s ≠ some p)) then badState else ok q

/-- Table 10-10; the fields of a trigger are judged where it is enabled. -/
def txBreakinSetSpec : CmdSpec :=
  { op := 0x0907, target := toTx, len := fun _ => 16,
    fields := fun _ => [wid 0 1 4,
      whenFld (fun b => bit (byteAt b 0) 0) (rng 1 1 1 5), whenFld (fun b => bit (byteAt b 0) 0) ⟨2, fun b => srcIndexOk (byteAt b 1) (byteAt b 2)⟩,
      whenFld (fun b => bit (byteAt b 0) 1) (rng 3 1 1 4), whenFld (fun b => bit (byteAt b 0) 1) ⟨4, fun b => srcIndexOk (byteAt b 3) (byteAt b 4)⟩,
      whenFld (fun b => bit (byteAt b 0) 2) (rng 5 1 0 23), fld 6 1 fun v => decide (v < 64) || v == 0xFF, rng 7 1 5 100,
      srng 8 2 (-400) 60, progFld 10, rsv 11 5],
    hold := holdTx, unit := txBreakinSetUnit }

/-- `TX_SFN_SET` (R326, R332, R465). -/
def txSfnUnit (c : Cmd) (s : State) : Reply :=
  let role := byteAt c.pl 0
  let kind := ((mget s.eth.streams (byteAt c.pl 1)).map fun u => byteAt u.cfg 1).getD 0
  if txMode s = 1 ∨ s.tx.st = .on ∨ s.tx.st = .muted then badState
  else if (role = 1 ∧ kind ≠ 3) ∨ (role = 2 ∧ kind ≠ 4) then badState
  else ok (s.setTx { s.tx with sfn := c.pl })

/-- Table 10-10, `TX_SFN_SET`. -/
def txSfnSetSpec : CmdSpec :=
  { op := 0x0930, target := toTx, len := fun _ => 16,
    fields := fun _ => [rng 0 1 0 2, rng 1 1 0 15, rsv 2 2, srng 4 4 (-1000000) 1000000, rng 10 2 0 3600, rng 12 2 20 1000,
      rsv 14 2],
    hold := holdTx, unit := txSfnUnit }

/-- A transmission that waits for the grant no longer needs it, or needs it from now on. -/
def coexReview (s : State) : State :=
  if coexOn s = false then mayResume (s.setTx { s.tx with muteGrant := false, req := s.tx.pri }) 5
  else if s.tx.st = .pending ∨ s.tx.st = .on ∨ s.tx.st = .muted then
    let s1 := s.setTx { s.tx with req := true }
    if s.tx.st = .on ∧ granted s = false ∧ safetyBreak s = false then muteFrom (s1.setTx { s1.tx with muteGrant := true }) 4 else s1
  else s

/-- `COEX_SET` (R325, R332). -/
def coexSetSpec : CmdSpec :=
  { op := 0x0920, target := toTx, len := fun _ => 8,
    fields := fun _ => [wid 0 1 4, rng 1 1 1 255, rng 2 2 0 1000, rsv 4 4],
    hold := holdTx, unit := fun c s => ok (coexReview (s.setTx { s.tx with coex := c.pl })) }

def txCode : TxState → Nat
  | .off => 0
  | .tuning => 1
  | .ready => 2
  | .pending => 3
  | .on => 4
  | .muted => 5
  | .held => 6

/-- The `TX_GET` result (Table 10-11). -/
def txResult (s : State) : Bytes :=
  let x := s.tx
  leBytes 1 (txCode x.st) ++ leBytes 1 (x.entry.getD 0xFF) ++ leBytes 1 x.muteCause ++ leBytes 1 x.rank ++
    sleBytes 2 (levelInUse s) ++ zeros 2 ++ leBytes 4 x.ftx ++ leBytes 4 x.delayUs ++
    leBytes 4 ((x.entry.map fun i => dutyLeft s i / 3200).getD 0) ++ leBytes 8 (whenOf x.since).toNat ++ leBytes 4 (sat 32 x.sfnMiss)

def txGetSpec : CmdSpec :=
  { op := 0x0909, target := toTx, len := fun _ => 0, largest := fun _ => 32, unit := fun _ s => okWith (txResult s) s }

/-- `TX_MON_GET` (R332). -/
def txMonGetSpec : CmdSpec :=
  { op := 0x0940, target := toTx, len := fun _ => 0, largest := fun _ => 32, unit := fun _ s => okWith s.mon.last s }

/-! ## Break-in (R328–R331) -/

/-- A stream-in ring delivers: it holds a buffer, and no port that plays it has underrun in the last 64 ticks.
Log: 111 (DEDUCED). -/
def ringDelivers (s : State) (n : Nat) : Bool :=
  match mget s.rings n with
  | some r => decide (r.kind = .streamIn) && !r.halted && decide (0 < occupancy r) &&
      (decide (s.tx.src ≠ ⟨2, n⟩) || expired s s.tx.dryBy) &&
      s.saps.all fun e => decide (e.2.play ≠ some n) || expired s e.2.dryBy
  | none => false

/-- The source is confirmed while it delivers audio (R329).
Log: 111 (DEDUCED). -/
def sourceConfirmed (s : State) (kind i : Nat) : Bool :=
  match kind with
  | 1 => decide ((sap s i).st = .running)
  | 2 => ringDelivers s i
  | 3 => ((mget s.eth.streams i).map fun u => u.active).getD false
  | 4 => delivers s i && !(((mget s.services i).map fun v => decide (v.st = .muted)).getD false)
  | _ => false

/-- `EV_TA` stands on the lane that feeds `TA_PROG`. -/
def taStands (s : State) : Bool :=
  match pathLane s (byteAt s.tx.brk 5) with
  | some n => (lane s (0x0300 + n)).use == 3 && ((demod s n).rds.taOn || (demod s n).rds.eonOn)
  | none => false

/-- The rank 4 trigger starts while its path delivers PCM, and ends with `EV_TA`. -/
def taTrigger (s : State) : State :=
  s.setTx { s.tx with ta := brkEn s 2 && taStands s && (s.tx.ta || delivers s (byteAt s.tx.brk 5)) }

/-- A follower ignores its own triggers (R326).
Log: 112 (DEDUCED). -/
def sfnFollows (s : State) : Bool := sfnRole s == 2 && txMode s == 2

/-- The triggers asserted, in rank order (Table 10-6). -/
def triggers (s : State) : List Nat :=
  if s.tx.st = .held ∨ sfnFollows s then []
  else
    (if brkEn s 0 && alertWindow s then [1] else []) ++ (if brkEn s 1 && s.tx.ptt then [2] else []) ++
      (if brkEn s 3 && s.tx.host.isSome then [3] else []) ++ if brkEn s 2 && s.tx.ta then [4] else []

/-- The break-in takes the channel in use: it transmits, or a start is pending that a break-in of this rank keeps.
Log: 110 (DEDUCED). -/
def keepsChannel (s : State) (rank : Nat) : Bool :=
  transmitting s || (decide (s.tx.st = .pending) && (s.tx.brkOwn || decide (2 < rank)))

/-- The entry that a break-in needs (R330). -/
def breakEntry (s : State) (rank : Nat) : Nat := if keepsChannel s rank then s.tx.entry.getD 0xFF else byteAt s.tx.brk 6

/-- The regulatory table refuses the break-in (R331).
Log: 108 (DEDUCED). -/
def breakDenied (s : State) (rank : Nat) : Bool :=
  let i := breakEntry s rank
  (regEntry s i).isNone || decide (dutyLeft s i < 3200) || (!keepsChannel s rank && decide (s.tx.dutyClock < s.tx.restUntil))

/-- A refused break-in: `EV_TX` cause 0x0E, and Polaris asserts FAULT_N with cause 0x0E (R331, R392, R404).
Log: 108 (DEDUCED). -/
def refuseBreak (s : State) (rank : Nat) : State :=
  let s1 := evTxOf (s.setTx { s.tx with refused := rank :: s.tx.refused }) 0x0E rank
  raise (s1.setPol { s1.pol with faultN := true, refusal := true,
                                 safeCause := if s1.pol.safe then s1.pol.safeCause else 0x0E }) evFault 0x0C00 (0x0E + 2 ^ 10)

/-- The service of the announced subchannel is started into `BRK_PROG` (R329).
Log: 111 (DEDUCED). -/
def startAlertService (s : State) : State :=
  match brkProg s, s.pol.openAlerts with
  | some p, (src, sub) :: _ =>
    let n := src - 0x0300
    match (if toFull src ∧ sub ≠ 0xFF then (ofdm s n).config.bind fun c => c.services.find? fun i => i.subch.toNat == sub else none) with
    | some i =>
      serveWaiting (s.setServices (mput s.services p
        { lane := n, sid := i.sid.toNat, comp := i.comp.toNat, conceal := 10, st := .waiting,
          by_ := deadline s (svcTicks s n), info := none, errRun := 0, goodRun := 0, concealed := 0, meas := none,
          lastPcm := 0 })) n
    | none => s
  | _, _ => s

/-- The announcement of an alert ends: `BRK_PROG` is free again. -/
def dropAlertService (s : State) : State :=
  match brkProg s with
  | some p => dropService s p
  | none => s

/-- Not transmitting: the break-in tunes to `BRK_CHAN` and starts; commands of the host end if it is a safety break-in
(R330, R331). -/
def breakStarts (s : State) (rank i : Nat) : State :=
  let mark := s.ev.nextId
  let s1 := if rank ≤ 2 then [0x0901, 0x0902].foldl (fun q op => finishOp q op 0x0900 stSafetyHold 0 [] mark) s else s
  let s2 := if s1.tx.entry = some i ∧ s1.tx.locked then s1 else tuneTo s1 i
  pend (s2.setTx { s2.tx with brkOwn := true, byTune := false, tuneLate := false })

/-- A break-in of this rank takes over (R328, R330, R331).
Log: 102 (DEDUCED), 110 (DEDUCED). -/
def beginBreak (s : State) (rank : Nat) : State :=
  if breakDenied s rank then refuseBreak s rank
  else
    let i := breakEntry s rank
    let keep := keepsChannel s rank
    let safety := decide (rank ≤ 2)
    let s1 := evTxOf (s.setTx { s.tx with rank := rank, pri := safety, req := s.tx.req || safety,
                                          muteGrant := s.tx.muteGrant && !safety }) 0x0C rank
    let s2 := if rank = 1 then startAlertService s1 else s1
    if keep then mayResume s2 5 else breakStarts s2 rank i

/-- The last trigger has ended: the exciter returns to its programme, or stops if the break-in started it (R330).
Log: 109 (DEDUCED). -/
def endBreak (s0 : State) : State :=
  let own := s0.tx.brkOwn
  let s := s0.setTx { s0.tx with rank := 0, pri := false }
  if own then
    match s.tx.st with
    | .on => beginStop s
    | .pending => s.setTx { s.tx with st := idleState s.tx, req := false, brkOwn := false, synthBy := none }
    | .muted => s.setTx { s.tx.clearMutes with st := .ready, req := s.tx.paEn, brkOwn := false }
    | _ => s.setTx { s.tx with brkOwn := false }
  else if transmitting s then coexReview s
  else s

/-- The exciter turns to the highest trigger that is asserted and not refused (R328).
Log: 109 (DEDUCED). -/
def brkUpdate (s0 : State) : State :=
  let w := triggers s0
  let s := s0.setTx { s0.tx with refused := s0.tx.refused.filter w.contains }
  let top := (w.filter fun r => !s.tx.refused.contains r).headD 0
  let cur := s.tx.rank
  if top = cur then s
  else
    let s1 := if cur ≠ 0 ∧ w.contains cur = false then evTxOf s 0x0D cur else s
    let s2 := if cur = 1 then dropAlertService s1 else s1
    if top = 0 then endBreak s2 else beginBreak s2 top

/-- `BREAKIN_TRIGGER` (R328, R330): a trigger that the state bears out starts or ends; while transmitting the change comes
at the next tick boundary. -/
def execBreakinTrigger (rank : Nat) (start : Bool) (s : State) : Host.Outcome State Fault Refusal :=
  let s1 := taTrigger s
  if (triggers s1).contains rank = start ∧ 1 ≤ rank ∧ rank ≤ 4 then
    if transmitting s1 ∧ atBoundary s1 = false then .next s1 else .next (brkUpdate s1)
  else .next s

/-- `TX_BREAKIN` (R328–R331).
Log: 112 (DEDUCED). -/
def txBreakinUnit (c : Cmd) (s : State) : Reply :=
  let kind := byteAt c.pl 1
  let i := byteAt c.pl 2
  if brkEn s 3 = false then badState
  else if bit (byteAt c.pl 0) 0 then
    if sourceConfirmed s kind i = false then badState
    else
      let s1 := s.setTx { s.tx with host := some ⟨kind, i⟩ }
      if s.tx.rank ≠ 0 ∨ sfnFollows s then ok s1
      else if breakDenied s 3 then .done stRegLimit 0 [] (refuseBreak s 3)
      else ok (if transmitting s1 then s1 else brkUpdate s1)
  else if s.tx.host.isNone then badState
  else
    let s1 := s.setTx { s.tx with host := none }
    ok (if transmitting s1 then s1 else brkUpdate s1)

/-- Accepted during a safety break-in, but not in TX_HELD (R314, R331). -/
def txBreakinSpec : CmdSpec :=
  { op := 0x0908, target := toTx, len := fun _ => 4,
    fields := fun _ => [wid 0 1 1, whenFld (fun b => bit (byteAt b 0) 0) (rng 1 1 1 4),
      whenFld (fun b => bit (byteAt b 0) 0) ⟨2, fun b => srcIndexOk (byteAt b 1) (byteAt b 2)⟩, rsv 3 1],
    hold := fun s _ => decide (s.tx.st = .held), unit := txBreakinUnit }

/-! ## Occurrences -/

/-- `TX_PLL_LOCKED` (R77, R314): the TX PLL has locked and calibrated, N cycles after its attempt at the earliest. The fixed delay of DAB mode is not stated. -/
def execTxPllLocked (t : Sid) (s : State) : Host.Outcome State Fault Refusal :=
  if s.tx.locked ∨ s.tx.entry.isNone ∨ transmitting s ∨ (advance s t).sid.now < lockFrom s 1 then .next s
  else
    let s0 := advance s t
    let v := freeValue s0
    let s1 := if txMode s0 = 1 then s0 else v.2
    let delay := if txMode s0 = 1 then 1500 else v.1 % 2 ^ 32
    let mark := s1.ev.nextId
    let x := s1.tx
    let s2 := (txLoop s1 true).setTx { x with
      locked := true, delayUs := delay, synthBy := none, tuneLate := false, st := if x.st = .tuning then .ready else x.st }
    let s3 := if x.tuneLate ∧ x.st = .tuning then evTxCause s2 3 else s2
    if x.byTune then .next s3 else .next (finishOp s3 0x0901 0x0900 stOk 0 [] mark)

/-- `TX_TUNE_TIMEOUT` (Table 10-2). -/
def execTxTuneTimeout (s : State) : Host.Outcome State Fault Refusal :=
  if s.tx.locked = false ∧ s.tx.byTune = false ∧ s.tx.tuneLate = false ∧ expired s s.tx.tuneBy ∧
      (s.tx.st = .tuning ∨ s.tx.st = .pending) ∧ (executing s 0x0901 0x0900).isSome then
    .next (finishOp (s.setTx { s.tx with tuneLate := true }) 0x0901 0x0900 stSynthTimeout 0 [] s.ev.nextId)
  else .next s

/-- The synthesiser window of a pending start has expired (R315). -/
def synthExpired (s : State) : Bool :=
  decide (s.tx.st = .pending) && !s.tx.locked && ((s.tx.synthBy.map (expired s)).getD false)

/-- `COEX_WAIT_EXPIRY` (R315, R325). -/
def execCoexWaitExpiry (s : State) : Host.Outcome State Fault Refusal :=
  if s.tx.st = .pending ∧ coexOn s ∧ granted s = false ∧ safetyBreak s = false ∧ expired s s.tx.coexBy then
    .next (failPending s (if synthExpired s then stSynthTimeout else stCoexDenied))
  else .next s

/-- `COEX_GNT_CHANGE` (R325).
Log: 114 (DEDUCED). -/
def execCoexGntChange (level : Bool) (t : Sid) (s : State) : Host.Outcome State Fault Refusal :=
  if level = s.tx.gnt then .next s
  else
    let s0 := advance s t
    let s1 := s0.setTx { s0.tx with gnt := level, gntAt := s0.sid.now }
    if coexOn s1 = false ∨ safetyBreak s1 then .next s1
    else if granted s1 then
      if s1.tx.muteGrant then .next (mayResume (s1.setTx { s1.tx with muteGrant := false }) 5) else .next s1
    else if transmitting s1 then .next (muteFrom (s1.setTx { s1.tx with muteGrant := true }) 4)
    else .next s1

/-- A start may proceed now (R313, R314, R325, R331); none does while a replay runs (R376). -/
def startReady (s : State) : Bool :=
  s.tx.locked && !s.tx.paEn && !s.pwr.brownout && decide (s.firn.st ≠ .replaying) && mutesClear s && (txMode s != 2 || onGrid s s.sid.now) &&
    (!coexOn s || safetyBreak s || (granted s && decide (s.tx.gntAt + coexLead s ≤ s.sid.now)))

/-- `TX_START_SEQUENCE` (R313, R314): PA_EN is asserted; the start, or the restart from TX_MUTED, is made.
Log: 100 (DEDUCED). -/
def execTxStartSequence (t : Sid) (s : State) : Host.Outcome State Fault Refusal :=
  let s0 := advance s t
  let x := s0.tx
  if (x.st = .pending ∨ x.st = .muted) ∧ startReady s0 then
    let mark := s0.ev.nextId
    let s1 := s0.setTx { x.clearMutes with
      st := .on, paEn := true, stopping := false, since := s0.sid.now, src := txSource s0, fadePos := 4800, dutyFrom := x.dutyClock,
      contFrom := x.dutyClock, synthBy := none, byTune := false }
    let s2 := evTxCause (startRamp s1) (if x.st = .muted ∧ x.resume ≠ 0 then x.resume else 1)
    if x.st = .pending ∧ x.brkOwn = false then .next (finishOp s2 (startOp x) 0x0900 stOk 0 [] mark) else .next s2
  else .next s

/-- `TX_STOP_COMPLETE` (R313): PA_EN is deasserted `PA_LAG_US` after zero code.
Log: 100 (DEDUCED). -/
def execTxStopComplete (t : Sid) (s : State) : Host.Outcome State Fault Refusal :=
  if s.tx.stopping ∧ s.tx.stopAt ≤ (advance s t).sid.now then
    let s0 := closeDuty (advance s t)
    let mark := s0.ev.nextId
    let keep := decide (s0.tx.st = .pending)
    let s1 := s0.setTx { s0.tx with stopping := false, paEn := false, req := s0.tx.req && keep, pri := s0.tx.pri && keep }
    .next (finishOp (evTxCause s1 2) 0x0903 0x0900 stOk 0 [] mark)
  else .next s

/-- A fast mute ramps down: PA_EN is still asserted and no transmission goes on. A missing SFN frame keeps PA_EN (R326). -/
def fastMuting (s : State) : Bool :=
  let x := s.tx
  x.paEn && !x.stopping && decide (x.st ≠ .on) &&
    !(decide (x.st = .muted) && x.muteFrame && !x.muteBrown && !x.muteGrant && !x.muteTime)

/-- `FAST_MUTE` (R313): zero code is reached and PA_EN deasserted.
Log: 100 (DEDUCED). -/
def execFastMute (t : Sid) (s : State) : Host.Outcome State Fault Refusal :=
  if fastMuting s ∧ s.tx.muteAt + fastLen ≤ (advance s t).sid.now then
    let s1 := closeDuty (advance s t)
    let keep := decide (s1.tx.st = .pending) || decide (s1.tx.st = .muted)
    .next (s1.setTx { s1.tx with paEn := false, req := s1.tx.req && keep, pri := s1.tx.pri && keep })
  else .next s

/-- `DUTY_LIMIT` (R322). -/
def execDutyLimit (t : Sid) (s : State) : Host.Outcome State Fault Refusal :=
  if transmitting s ∧ s.tx.paEn ∧ ((s.tx.entry.map (dutyLeft s)).getD 0) = 0 then .next (muteReady (advance s t) 6) else .next s

/-- `CONTINUOUS_LIMIT` (R322): the rest that follows is a tenth of `E_CONT_S`.
Log: 104 (DEDUCED). -/
def execContinuousLimit (t : Sid) (s : State) : Host.Outcome State Fault Refusal :=
  let c := ((curEntry s).map eCont).getD 0
  if transmitting s ∧ s.tx.paEn ∧ c ≠ 0 ∧ 3200 * c ≤ s.tx.dutyClock - s.tx.contFrom then
    let s1 := muteReady (advance s t) 7
    .next (s1.setTx { s1.tx with restUntil := s1.tx.dutyClock + 320 * c })
  else .next s

/-- The packet of frame `n`, of which a follower holds both fragments (R469). -/
def heldPacket (s : State) (n : Nat) : Option SfnPacket :=
  match mget (((mget s.eth.streams (sfnStream s)).map (·.frames)).getD []) (n % 2 ^ 32) with
  | some p => if p.fic ≠ [] ∧ p.audio ≠ [] then some p else none
  | none => none

/-- The packet of frame `n` falls due: it is used up, and counted if a fragment is missing (R470). -/
def packetDue (s : State) (n : Nat) : State :=
  match mget s.eth.streams (sfnStream s) with
  | none => s
  | some u =>
    let v := mgetD u.frames (n % 2 ^ 32) ⟨[], [], false⟩
    let part := (v.bad || v.fic != [] || v.audio != []) && !(v.fic != [] && v.audio != [])
    s.setEth { s.eth with streams := mput s.eth.streams (sfnStream s) { u with frames := mdel u.frames (n % 2 ^ 32) },
                          sfnIncomp := if part then sat 32 (s.eth.sfnIncomp + 1) else s.eth.sfnIncomp }

/-- Log: 115 (DEDUCED). -/
def countMissing (s : State) : State := s.setTx { s.tx with sfnMiss := sat 32 (s.tx.sfnMiss + 1) }

/-- Nothing of a frame is emitted, with PA_EN asserted. -/
def blankOut (s : State) : State := s.setTx { s.tx with ramp := ⟨0, 0, s.sid.now, 0⟩, fic := [], audio := [] }

/-- Emission goes on at the level in use with a frame whose packet is present. -/
def emitAgain (s : State) : State :=
  evTxCause (s.setTx { s.tx with st := .on, ramp := ⟨0, levelAmp (levelInUse s), s.sid.now, 0⟩ }) 1

/-- `SFN_FRAME` (R311, R326, R327, R348): frame `frame` begins its null symbol on the grid. A follower takes its contents from the
packet; without it, it emits nothing and posts cause 0x0A, and goes on with the next frame whose packet is present. After a step
nothing is emitted before the new grid allows it.
Log: 115 (DEDUCED). -/
def execSfnFrame (frame : Nat) (t : Sid) (s : State) : Host.Outcome State Fault Refusal :=
  let s0 := advance s t
  if txMode s ≠ 2 ∨ transmitting s = false ∨ (s0.sid.now : Int) ≠ nullAt s frame then .next s
  else if s0.sid.now < s0.tx.gridFrom then .next (blankOut (countMissing s0))
  else if sfnRole s0 ≠ 2 then .next (if s0.tx.st = .on then ownFrame s0 frame else s0)
  else
    let s1 := packetDue s0 frame
    match heldPacket s0 frame with
    | some p =>
      let s2 := emitFrame s1 frame p.fic p.audio
      if s2.tx.muteFrame then
        let s3 := s2.setTx { s2.tx with muteFrame := false }
        if s3.tx.paEn ∧ mutesClear s3 then .next (emitAgain s3) else .next (mayResume s3 1)
      else .next s2
    | none =>
      let s2 := blankOut (countMissing (s1.setTx { s1.tx with muteFrame := true, muteCause := 0x0A }))
      .next (evTxCause (s2.setTx { s2.tx with st := .muted }) 0x0A)

/-- `SFN_COAST_EXPIRY` (R327). -/
def execSfnCoastExpiry (t : Sid) (s : State) : Host.Outcome State Fault Refusal :=
  let s0 := advance s t
  if txMode s0 = 2 ∧ s0.tx.st = .on ∧ (s0.sid.st = .coasting ∨ s0.sid.st = .refused) ∧
      s0.sid.coastFrom + le s0.tx.sfn 10 2 * secU ≤ s0.sid.now then
    .next (muteFrom (s0.setTx { s0.tx with muteTime := true }) 0x0B)
  else .next s

/-! ## A new table (R320) -/

/-- The entry of the table in force with the mode and frequency of `e`. -/
def sameChannel (s : State) (e : Bytes) : Option Nat :=
  (List.range 64).find? fun i =>
    ((regEntry s i).map fun x => eMode x == eMode e && eFreq x == eFreq e).getD false

/-- The channel in use is not in the new table: outstanding commands end with `ST_REG_LIMIT`. -/
def channelGone (s : State) : State :=
  let mark := s.ev.nextId
  let live := transmitting s
  let held := decide (s.tx.st = .held)
  let s1 := if live then muteReady s 0x11 else evTxCause s 0x11
  let st : TxState := if live then .ready else if held then .held else .off
  let s2 := (txLoop s1 false).setTx { s1.tx with
    st := st, entry := none, tuned := false, locked := false, synthBy := none, byTune := false, brkOwn := false,
    rank := if live then s1.tx.rank else 0, req := s1.tx.req && live, pri := false }
  [0x0901, 0x0902].foldl (fun q op => finishOp q op 0x0900 stRegLimit 0 [] mark) s2

/-- `REG_TABLE_TAKES_EFFECT` (R320): at the tick boundary after the commit the shadow is loaded and the exciter looks for its channel.
Log: 102 (DEDUCED), 104 (DEDUCED). -/
def execRegTableTakesEffect (s : State) : Host.Outcome State Fault Refusal :=
  if s.reg.next = false ∨ atBoundary s = false ∨ expired s s.reg.nextBy = false then .next s
  else
    let old := curEntry s
    let s1 := loadShadow s
    match old with
    | none => .next s1
    | some e =>
      match sameChannel s1 e with
      | none => .next (channelGone (closeDuty s1))
      | some i =>
        let s2 := (closeDuty s1).setTx { (closeDuty s1).tx with entry := some i }
        let top := ((regEntry s2 i).map ePmax).getD 0
        if top < les s2.tx.level 0 2 then
          .next (evTxCause (relevel (s2.setTx { s2.tx with level := splice s2.tx.level 0 (sleBytes 2 top) })) 0x11)
        else .next s2

def execTxTune (a : Args) (s : State) : Host.Outcome State Fault Refusal := .next (submit txTuneSpec a s)
def execTxStart (a : Args) (s : State) : Host.Outcome State Fault Refusal := .next (submit txStartSpec a s)
def execTxStop (a : Args) (s : State) : Host.Outcome State Fault Refusal := .next (submit txStopSpec a s)
def execTxLevelSet (a : Args) (s : State) : Host.Outcome State Fault Refusal := .next (submit txLevelSetSpec a s)
def execTxFmSet (a : Args) (s : State) : Host.Outcome State Fault Refusal := .next (submit txFmSetSpec a s)
def execTxDabSet (a : Args) (s : State) : Host.Outcome State Fault Refusal := .next (submit txDabSetSpec a s)
def execTxBreakinSet (a : Args) (s : State) : Host.Outcome State Fault Refusal := .next (submit txBreakinSetSpec a s)
def execTxBreakin (a : Args) (s : State) : Host.Outcome State Fault Refusal := .next (submit txBreakinSpec a s)
def execTxGet (a : Args) (s : State) : Host.Outcome State Fault Refusal := .next (submit txGetSpec a s)
def execCoexSet (a : Args) (s : State) : Host.Outcome State Fault Refusal := .next (submit coexSetSpec a s)
def execTxSfnSet (a : Args) (s : State) : Host.Outcome State Fault Refusal := .next (submit txSfnSetSpec a s)
def execTxMonGet (a : Args) (s : State) : Host.Outcome State Fault Refusal := .next (submit txMonGetSpec a s)

end Sys2Proof.Machine
end

