-- ==== Sys2Proof/Machine/Firn.lean ====
section
/-! DEFINITION. Machine/Firn.lean: capture: the ring and its tape, triggers, the container and its stream: commands 0x0B01–0x0B04
and 0x0B07, and their occurrences (chapter 12). -/

namespace Sys2Proof.Machine

def toFirn (t : Nat) : Bool := t == 0x0B00

/-! ## The setting in force (Table 12-6) -/

def ringMib (b : Bytes) : Nat := if byteAt b 8 = 0 then 192 else byteAt b 8
def tapeMib (b : Bytes) : Nat := if byteAt b 9 = 0 then 8 else byteAt b 9

/-- The data area in bytes (R364). -/
def dataSize (s : State) : Nat := (ringMib s.firn.cfg - tapeMib s.firn.cfg) * 1048576
def trigOn (s : State) (i : Nat) : Bool := bit (byteAt s.firn.cfg 11) i

/-- Number of bits set. -/
def popCount (v n : Nat) : Nat := ((List.range n).filter fun i => bit v i).length

/-- Sources being written now (`SRC_ACTIVE`). -/
def srcActive (s : State) : Nat := if firnRecords s then (zonesAllowed s).length + (firnLanes s).length else 0

/-- The recording start (R365). -/
def recStart (f : Firn) : Sid :=
  match f.chunks, f.tape with
  | c :: _, e :: _ => max c.time e.time
  | c :: _, [] => c.time
  | [], e :: _ => e.time
  | [], [] => 0

/-! ## Header of the container (Table 12-5) -/

/-- The rate in kHz and the conditioner in force at a time since arming. -/
def rateAt (f : Firn) (t : Sid) : Nat × Nat :=
  match f.rates.find? fun e => decide (e.1 ≤ t) with
  | some e => e.2
  | none => (f.rates.getLast?.map (·.2)).getD (0, 0)

/-- A tape whose checkpoints stand in one entry each: one that does not fit an entry is written as several, the first word of each
being 1 where the next one continues it.
Log: 119 (DEDUCED). -/
def joinTape : List TapeEntry → List TapeEntry
  | [] => []
  | e :: es =>
    if e.kind = 11 ∧ le e.payload 0 4 = 1 then
      match joinTape es with
      | n :: ns => { e with payload := e.payload.drop 4 ++ n.payload } :: ns
      | [] => []
    else (if e.kind = 11 then { e with payload := e.payload.drop 4 } else e) :: joinTape es

/-- Build identifier of the running firmware. -/
def runningBuild (s : State) : Nat :=
  match s.fw.active with
  | 0 => s.fw.buildA.toNat
  | 1 => s.fw.buildB.toNat
  | _ => 0

def firnHeader (s : State) : Bytes :=
  let f := s.firn
  let st := recStart f
  let tail : Bytes := leBytes 8 (128 + f.tapeLen + f.held) ++ leBytes 4 (le f.cfg 0 4) ++ leBytes 4 (le f.cfg 4 4) ++
    leBytes 8 (whenOf st).toNat ++ leBytes 8 (whenOf f.trigTime).toNat ++ leBytes 8 (whenOf f.recEnd).toNat ++
    leBytes 1 f.cause ++ leBytes 1 (flag f.prefill 0 + flag f.byReset 1 + flag f.gaps 2) ++ zeros 2 ++
    leBytes 4 (rateAt f st).1 ++ leBytes 1 (rateAt f st).2 ++ zeros 3 ++ leBytes 4 (joinTape f.tape |>.filter fun e => e.kind == 11).length ++ leBytes 8 f.tapeLen ++ leBytes 8 f.held ++
    leBytes 8 (st / secU) ++ zeros 32
  let head : Bytes := [0x46, 0x49, 0x52, 0x4E, 1, 0xB1, 0x80, 0x74] ++ leBytes 4 (runningBuild s)
  head ++ leBytes 4 (crc32 (head ++ zeros 4 ++ tail)).toNat ++ tail

/-! ## Transitions of Table 12-4 -/

/-- The region is released. -/
def firnOff (s : State) : State := s.setFirn Firn.reset

/-- Recording stops: Frozen, the container described by its header; what waits unwritten is dropped. -/
def freeze (s : State) : State :=
  s.setFirn { s.firn with st := .frozen, header := firnHeader s, sent := 0, wait := [], runs := [], open_ := [], denied := [] }

/-- `EV_FIRN_TRIGGER` (R368). -/
def evFirn (s : State) (cause index t : Nat) : State := raiseAt s t evFirnTrigger 0x0B00 (cause + 256 * index)

/-- A trigger is written to the tape with its cause (R368, R372). -/
def tapeTrigger (s : State) (cause : Nat) (t : Sid) : State :=
  tape s 12 (leBytes 4 cause ++ leBytes 8 (whenOf t).toNat) s.sid.now

/-- Armed becomes Triggered (R367, R368). -/
def fireFirn (s : State) (cause index : Nat) (t : Sid) : State :=
  let s1 := tapeTrigger s cause t
  evFirn (s1.setFirn { s1.firn with st := .triggered, cause := cause, trigTime := t, prefill := !s1.firn.filled, post := 0 })
    cause index s.sid.now

/-- A reset with VIN above the reset level (R371).
Log: 131 (DEDUCED). -/
def firnReset (s : State) : State :=
  let f := s.firn
  match f.st with
  | .armed =>
    if trigOn s 5 then
      let t := (f.tape.getLast?.map (·.time)).getD 0
      let s1 := freeze (s.setFirn { f with cause := 7, trigTime := t, prefill := !f.filled, byReset := true })
      s1.setFirn { s1.firn with survived := true }
    else firnOff s
  | .triggered =>
    let s1 := freeze (s.setFirn { f with byReset := true })
    s1.setFirn { s1.firn with survived := true }
  | .frozen | .loaded => s.setFirn { f with survived := true }
  | .off => s
  | .loading => firnOff s
  | .replaying => s.setFirn { f with st := .loaded, survived := true }

/-! ## Commands (R379) -/

/-- `FIRN_ARM`: the ring is cleared. Zone sources that a shed action in force took stay off (R366, R433). -/
def firnArmUnit (c : Cmd) (s : State) : Reply :=
  if s.firn.st ≠ .off then badState
  else ok (s.setFirn { Firn.reset with st := .armed, cfg := c.pl, shed := s.firn.shed
                                       rates := [(s.sid.now, fsOf s / 1000, s.clk.sclkMode)] })

def firnArmSpec : CmdSpec :=
  { op := 0x0B01, target := toFirn, len := fun _ => 32,
    fields := fun _ => [fld 0 4 fun v => decide (popCount v 32 ≤ 4), fld 4 4 fun v => decide (popCount v 32 ≤ 8),
      fld 8 1 fun v => v == 0 || decide (16 ≤ v ∧ v ≤ 192),
      ⟨9, fun b => decide (byteAt b 9 ≤ 32) && decide (tapeMib b < ringMib b)⟩,
      rng 10 1 0 100, wid 11 1 6, rng 22 1 0 31, rng 23 1 0 1, rsv 26 6],
    unit := firnArmUnit }

/-- `FIRN_TRIGGER` (Table 12-3): the trigger time is the tick boundary at which it executes. -/
def firnTriggerUnit (_ : Cmd) (s : State) : Reply :=
  if s.firn.st ≠ .armed then badState else ok (fireFirn s 1 0 (s.sid.next - tickU))

def firnTriggerSpec : CmdSpec := { op := 0x0B02, target := toFirn, len := fun _ => 0, unit := firnTriggerUnit }

/-- `FIRN_DISARM`: a `FIRN_STREAM` under way ends with the region.
Log: 121 (DEDUCED). -/
def firnDisarmUnit (_ : Cmd) (s : State) : Reply :=
  match s.firn.st with
  | .armed | .triggered | .frozen | .loaded =>
    ok (finishOp ((firnOff s).setFirn { Firn.reset with shed := s.firn.shed }) 0x0B04 0x0B00 stBadState 0 [] s.ev.nextId)
  | _ => badState

def firnDisarmSpec : CmdSpec := { op := 0x0B03, target := toFirn, len := fun _ => 0, unit := firnDisarmUnit }

/-- A ring is bound to something. -/
def ringBound (s : State) (n : Nat) : Bool :=
  match mget s.rings n with
  | some r => decide (r.bind ≠ .none)
  | none => false

/-- `FIRN_STREAM` (R374).
Log: 121 (DEDUCED). -/
def firnStreamUnit (c : Cmd) (s : State) : Reply :=
  let n := byteAt c.pl 0
  if s.firn.st ≠ .frozen ∨ (executing s 0x0B04 0x0B00).isSome then badState
  else
    match ringDenied s n 0 .streamOut (ringBound s n) with
    | some r => r
    | none => .busy ((markRing s n .firnOut).setFirn { s.firn with sent := 0 })

def firnStreamSpec : CmdSpec :=
  { op := 0x0B04, target := toFirn, len := fun _ => 4, fields := fun _ => [rsv 1 3], unit := firnStreamUnit }

def firnCode : FirnState → Nat
  | .off => 0
  | .armed => 1
  | .triggered => 2
  | .frozen => 3
  | .loading => 4
  | .loaded => 5
  | .replaying => 6

/-- The `FIRN_GET` result (Table 12-7). -/
def firnResult (s : State) : Bytes :=
  let f := s.firn
  leBytes 1 (firnCode f.st) ++ leBytes 1 f.cause ++ leBytes 1 (srcActive s) ++
    leBytes 1 (flag f.prefill 0 + flag f.survived 1 + flag f.gaps 2) ++ leBytes 4 (f.held / 1024) ++
    leBytes 8 (whenOf (recStart f)).toNat ++ leBytes 8 (whenOf f.trigTime).toNat ++ leBytes 8 (whenOf f.recEnd).toNat ++
    leBytes 4 f.rpAlerts ++ leBytes 4 f.bad ++ leBytes 8 (whenOf f.firstBad).toNat

def firnGetSpec : CmdSpec :=
  { op := 0x0B07, target := toFirn, len := fun _ => 0, largest := fun _ => 48, unit := fun _ s => okWith (firnResult s) s }

/-! ## Occurrences -/

/-- The oldest chunks go until the rest fit the data area (R364). -/
def trimChunks (size : Nat) : List Chunk → Nat → List Chunk × Nat
  | [], n => ([], n)
  | c :: cs, n => if n ≤ size then (c :: cs, n) else trimChunks size cs (n - (32 + c.len))

/-- A chunk is written (R361, R364, R368). -/
def putChunk (s : State) (c : Chunk) : State :=
  let f := s.firn
  let n := f.held + 32 + c.len
  let r := trimChunks (dataSize s) (f.chunks ++ [c]) n
  s.setFirn { f with
    chunks := r.1, held := r.2, filled := f.filled || decide (dataSize s ≤ n),
    gaps := r.1.any fun x => x.kind == 3
    post := if f.st = .triggered ∧ f.trigTime < c.time then f.post + 32 + c.len else f.post
    recEnd := c.time }

/-- A chunk that was denied bandwidth joins the gap of its source (R27, R366). -/
def denyChunk (s : State) (c : Chunk) : State :=
  let n := if c.kind = 1 then 4096 else if c.kind = 2 then 1 else c.count
  let g := match mget s.firn.denied c.source with
    | some g => { g with count := g.count + n, flags := g.flags ||| c.flags }
    | none => { c with kind := 3, flags := c.flags ||| 2, len := 0, count := n, data := [] }
  s.setFirn { s.firn with denied := mput s.firn.denied c.source g }

/-- `FIRN_CHUNK` (R361, R366): the oldest chunk that waits of a source is written, behind the gap chunk of an interruption that it
ends; or it is denied bandwidth.
Log: 118 (DEDUCED). -/
def execFirnChunk (source : BitVec 16) (bw : Bool) (t : Sid) (s : State) : Host.Outcome State Fault Refusal :=
  let src := source.toNat
  match s.firn.wait.find? fun c => c.source == src with
  | none => .next s
  | some c =>
    if firnRecords s = false then .next s
    else
      let s1 := (advance s t).setFirn { s.firn with wait := s.firn.wait.erase c }
      if bw then .next (denyChunk s1 c)
      else
        match mget s1.firn.denied src with
        | some g => .next (putChunk (putChunk (s1.setFirn { s1.firn with denied := mdel s1.firn.denied src }) g) c)
        | none => .next (putChunk s1 c)

/-- One setting in force as the configuration image holds it: opcode, `TARGET`, and the payload.
Log: 119 (DEDUCED). -/
def imageEntry (op tgt : Nat) (b : Bytes) : Bytes := leBytes 2 op ++ leBytes 2 tgt ++ leBytes 4 b.length ++ b

/-- The configuration image: the settings of groups 0x02–0x08 in force (R363).
Log: 119 (DEDUCED). -/
def configImage (s : State) : Bytes :=
  imageEntry 0x0201 0 s.clk.cfg ++ imageEntry 0x0207 0 s.aur.cfg ++ imageEntry 0x0305 0x0100 s.rf.blank ++
    (s.rf.ants.flatMap fun e => imageEntry 0x0301 (0x0100 + e.1) e.2.cfg ++ imageEntry 0x0302 (0x0100 + e.1) e.2.biasCfg) ++
    (s.zones.flatMap fun e => imageEntry 0x0401 (0x0200 + e.1) (leBytes 8 e.2.freq ++ leBytes 1 (zoneCode e.2.st))) ++
    (s.lanes.flatMap fun e => imageEntry 0x0403 e.1 e.2.cfg ++ imageEntry 0x0306 e.1 e.2.div ++
      imageEntry 0x0404 e.1 (leBytes 8 e.2.freq)) ++
    (s.demods.flatMap fun e => imageEntry 0x0501 (0x0300 + e.1) e.2.am ++ imageEntry 0x0502 (0x0300 + e.1) e.2.fm) ++
    imageEntry 0x0510 0x0500 s.flurry.cfg ++ (s.afs.flatMap fun e => imageEntry 0x0516 (0x0300 + e.1) e.2.cfg) ++
    (s.ofdms.flatMap fun e => imageEntry 0x0601 (0x0300 + e.1) e.2.cfg) ++
    (s.surveys.flatMap fun e => imageEntry 0x0620 (0x0400 + e.1) e.2.cfg) ++ imageEntry 0x0704 0x0700 s.links.cfg ++
    (s.paths.flatMap fun e => imageEntry 0x0705 (0x0600 + e.1) e.2.blend) ++
    (s.groups.flatMap fun e => imageEntry 0x0706 (0x0600 + e.1) e.2.cfg) ++
    (s.saps.flatMap fun e => imageEntry 0x0801 (0x0800 + e.1) e.2.cfg ++ imageEntry 0x0802 (0x0800 + e.1) e.2.route)

/-! ## Unit states of a checkpoint (R363) -/

/-- A number of a filter history. -/
def cxBytes (c : Cx) : Bytes := sleBytes 4 c.re ++ sleBytes 4 c.im

/-- A list with its length in two bytes. -/
def listBytes {α : Type} (f : α → Bytes) (xs : List α) : Bytes := leBytes 2 xs.length ++ (xs.map f).flatten

def HalfBand.bytes (h : HalfBand) : Bytes := leBytes 1 (flag h.odd 0) ++ listBytes cxBytes h.hist

/-- A chain: NCO phase, filter histories, resampler position, and the samples that marks still reach. -/
def LaneChain.bytes (l : LaneChain) : Bytes :=
  leBytes 6 l.phase ++ listBytes HalfBand.bytes l.stages ++ listBytes cxBytes l.hist ++ leBytes 8 l.pos ++ leBytes 8 l.blank ++
    leBytes 8 l.clip ++ leBytes 8 l.count

def ZoneChain.bytes (z : ZoneChain) : Bytes :=
  leBytes 6 z.phase ++ listBytes HalfBand.bytes z.stages ++ leBytes 8 z.blank ++ leBytes 8 z.clip

/-- A zone: its state, frequency, last reset and chain. -/
def Zone.bytes (z : Zone) : Bytes := leBytes 1 (zoneCode z.st) ++ leBytes 8 z.freq ++ leBytes 16 z.resetAt ++ z.chain.bytes

/-- A lane: its state and rates, block sequence number, 1/ρ word, reset and chains. -/
def laneBytes (s : State) (l : Lane) : Bytes :=
  leBytes 1 (laneCode l.st) ++ leBytes 1 l.stages ++ leBytes 8 l.freq ++ leBytes 4 l.outRate ++ leBytes 4 l.settleLast ++
    leBytes 4 l.blkSeq ++ leBytes 1 (flag l.sync 0 + flag l.gap 1 + flag l.restage 2) ++ leBytes 4 l.blkGap ++
    leBytes 8 (l.outNext + l.out.length) ++ leBytes 8 (invRatio s l) ++ leBytes 16 l.resetAt ++ listBytes LaneChain.bytes l.chains

/-- A tap: its zone and frequency, reset, chain and filter-bank history. -/
def tapBytes (k : Tap) : Bytes :=
  leBytes 1 k.zone ++ leBytes 8 k.freq ++ leBytes 1 (flag k.paused 0 + flag k.due 1) ++ leBytes 16 k.resetAt ++ k.chain.bytes ++
    listBytes (fun y : ZoneSample => cxBytes y.x ++ leBytes 1 (flag y.blank 0 + flag y.clip 1)) k.out

/-- The lanes that a recorded zone feeds. -/
def fedLanes (s : State) : List Nat := (setLaneList s).filter fun t => (lane s t).zones.any (zoneTaped s)

/-- The taps that a recorded zone feeds. -/
def fedTaps (s : State) : List Nat := [0, 1, 2, 3].filter fun k => (tap s k).on && zoneTaped s (tap s k).zone

/-- The states of the recorded zones and of the lanes and taps that they feed. -/
def unitStates (s : State) : Bytes :=
  listBytes (fun e : Nat × Bytes => leBytes 2 e.1 ++ leBytes 4 e.2.length ++ e.2)
    ((firnZones s).map (fun z => (0x0200 + z, (zone s z).bytes)) ++ (fedLanes s).map (fun t => (t, laneBytes s (lane s t))) ++
      (fedTaps s).map fun k => (0x0580 + k, tapBytes (tap s k)))

/-- CRC-32 of each fed lane's output samples since the last checkpoint. -/
def laneCrcs (s : State) : Bytes :=
  listBytes (fun t => leBytes 2 t ++ leBytes 4 (~~~(lane s t).crc).toNat) (fedLanes s)

/-- A checkpoint's payload in parts that fit a tape entry. -/
def checkpointParts : Nat → Bytes → List Bytes
  | 0, b => [leBytes 4 0 ++ b]
  | k + 1, b => if b.length ≤ 65000 then [leBytes 4 0 ++ b] else (leBytes 4 1 ++ b.take 65000) :: checkpointParts k (b.drop 65000)

/-- The digests start afresh. -/
def freshCrcs (s : State) : State := s.setLanes (s.lanes.map fun e => (e.1, { e.2 with crc := 0xFFFFFFFF#32 }))

/-- `FIRN_CHECKPOINT` (R363): at a tick whose number is divisible by 32.
Log: 119 (DEDUCED). -/
def execFirnCheckpoint (s : State) : Host.Outcome State Fault Refusal :=
  if firnRecords s ∧ tickNo s % 32 = 0 ∧ atBoundary s then
    let b := leBytes 4 (configImage s).length ++ configImage s ++ unitStates s ++ laneCrcs s
    .next (freshCrcs ((checkpointParts (b.length / 65000) b).foldl (fun q p => tape q 11 p s.sid.now) s))
  else .next s

/-! ## Triggers (R367, R368) -/

/-- At a tick boundary the mean power of `LVL_ZONE` is held against `LVL_DBFS` (Table 12-3): full scale is magnitude 2¹⁶.
Log: 199 (DEDUCED). -/
def levelTick (s : State) : State :=
  let f := s.firn
  if f.lvlN = 0 then s
  else
    let on := decide (10 * les f.cfg 24 2 ≤ centiDb f.lvlSum (f.lvlN * 2 ^ 32))
    let crossed := decide (f.above = some (byteAt f.cfg 23 == 1)) && on != (byteAt f.cfg 23 == 1)
    s.setFirn { f with lvlSum := 0, lvlN := 0, above := some on, crossAt := if crossed then s.sid.now else f.crossAt }

/-- The first tape entry of a kind, not looked at for that cause yet, that passes a test. -/
def nextOnTape (s : State) (cause kind : Nat) (p : TapeEntry → Bool) : Option TapeEntry :=
  s.firn.tape.find? fun e => e.kind == kind && decide (mgetD s.firn.seen cause 0 ≤ e.seq) && p e

/-- The place of an event code in `TRIG_EV0`–`TRIG_EV3`. -/
def trigIndex (s : State) (code : Nat) : Option Nat :=
  [0, 1, 2, 3].find? fun i => decide (code ≠ 0) && le s.firn.cfg (12 + 2 * i) 2 == code

/-- An occurrence of an enabled source of Table 12-3 that has not been looked at: the index of its event, its trigger time, and
the point up to which the cause has then been looked at. -/
def pendingTrigger (s : State) (cause : Nat) : Option (Nat × Sid × Nat) :=
  let f := s.firn
  match cause with
  | 2 => if trigOn s 0 then (nextOnTape s 2 3 fun e => (trigIndex s (le e.payload 0 2)).isSome).map
      fun e => ((trigIndex s (le e.payload 0 2)).getD 0, e.time, e.seq + 1) else none
  | 3 => if trigOn s 1 ∧ le f.cfg 20 2 ≠ 0xFFFF then (nextOnTape s 3 2 fun e => le e.payload 2 2 == le f.cfg 20 2).map
      fun e => (0, e.time, e.seq + 1) else none
  | 4 => if trigOn s 2 ∧ mgetD f.seen 4 0 < f.crossAt then some (0, f.crossAt, f.crossAt) else none
  | 5 => if trigOn s 3 ∧ s.pol.safe ∧ mgetD f.seen 5 0 < s.pol.safeTime then some (0, s.pol.safeTime, s.pol.safeTime) else none
  | 6 => if trigOn s 4 then (nextOnTape s 6 3 fun e => le e.payload 0 2 == evBrownout).map
      fun e => (0, e.time, e.seq + 1) else none
  | _ => none

/-- `FIRN_TRIGGER_FIRED` (R367, R368): an occurrence is recognised; the first one fires, and later ones are written to the tape
alone. -/
def execFirnTriggerFired (cause : Nat) (t : Sid) (s : State) : Host.Outcome State Fault Refusal :=
  match pendingTrigger s cause with
  | none => .next s
  | some (i, u, n) =>
    let s0 := advance s t
    let s1 := s0.setFirn { s.firn with seen := mput s.firn.seen cause n }
    match s.firn.st with
    | .armed => .next (fireFirn s1 cause i u)
    | .triggered => .next (tapeTrigger s1 cause u)
    | _ => .next s

/-- `FIRN_FROZEN` (R368): the post-trigger share is full. -/
def execFirnFrozen (t : Sid) (s : State) : Host.Outcome State Fault Refusal :=
  if s.firn.st = .triggered ∧ dataSize s * byteAt s.firn.cfg 10 ≤ 100 * s.firn.post then .next (freeze (advance s t))
  else .next s

/-! ## Container and streaming (R373, R374) -/

/-- A tape entry as it stands in a container (R362). -/
def TapeEntry.bytes (e : TapeEntry) : Bytes :=
  leBytes 2 e.kind ++ leBytes 2 e.payload.length ++ leBytes 4 e.seq ++ leBytes 8 (whenOf e.time).toNat ++ e.payload

/-- A chunk as it stands in a container (Table 12-1). -/
def Chunk.bytes (c : Chunk) : Bytes :=
  leBytes 2 c.source ++ leBytes 1 c.kind ++ leBytes 1 c.flags ++ leBytes 4 c.len ++ leBytes 8 c.index ++
    leBytes 8 (whenOf c.time).toNat ++ leBytes 4 c.count ++ zeros 4 ++ c.data

/-- A chunk in its place by `CH_TIME`. -/
def insertChunk (c : Chunk) : List Chunk → List Chunk
  | [] => [c]
  | d :: ds => if c.time < d.time then c :: d :: ds else d :: insertChunk c ds

/-- The container (R373). -/
def container (f : Firn) : Bytes :=
  f.header ++ (f.tape.map TapeEntry.bytes).flatten ++
    ((f.chunks.foldl (fun acc c => insertChunk c acc) []).map Chunk.bytes).flatten

/-- The ring with a Firn binding. -/
def firnRing (s : State) (b : Bind) : Option Nat := (s.rings.find? fun e => decide (e.2.bind = b)).map (·.1)

/-- The ring with a Firn binding is free again. -/
def freeFirnRing (s : State) (b : Bind) : State :=
  match firnRing s b with
  | some n => markRing s n .none
  | none => s

/-- Container bytes are written as far as the posted buffers reach, each filled before the next (R374). -/
def pumpFirn (n : Nat) : Nat → State → State
  | 0, s => s
  | k + 1, s =>
    match mget s.rings n with
    | none => s
    | some r =>
      let rest := (container s.firn).drop s.firn.sent
      if rest = [] ∨ s.pcie.d3 ∨ r.halted ∨ occupancy r < 16 then s
      else
        match bufferDenied s r with
        | some a => stopStream s n r a
        | none =>
          let b := rest.take (le (descriptor s r 0) 8 4 - r.fill)
          pumpFirn n k ((writeBuf s n r b).setFirn { s.firn with sent := s.firn.sent + b.length })

/-- The stream goes on with the buffers posted (R374). -/
def streamFirn (s : State) : State :=
  match firnRing s .firnOut with
  | some n => if (executing s 0x0B04 0x0B00).isSome then pumpFirn n (((mget s.rings n).map occupancy).getD 0 / 16) s else s
  | none => s

/-- `FIRN_STREAM_COMPLETE` (R374): the last byte has been written; its buffer is returned. -/
def execFirnStreamComplete (t : Sid) (s : State) : Host.Outcome State Fault Refusal :=
  let s1 := streamFirn (advance s t)
  if (executing s 0x0B04 0x0B00).isSome ∧ (container s1.firn).length ≤ s1.firn.sent then
    let s2 := match firnRing s1 .firnOut with
      | some n => (match mget s1.rings n with
        | some r => if 0 < r.fill then returnBuf s1 n r r.fill r.bufGap else s1
        | none => s1)
      | none => s1
    .next (finishOp (freeFirnRing s2 .firnOut) 0x0B04 0x0B00 stOk 0 [] s2.ev.nextId)
  else .next s1

def execFirnArm (a : Args) (s : State) : Host.Outcome State Fault Refusal := .next (submit firnArmSpec a s)
def execFirnTrigger (a : Args) (s : State) : Host.Outcome State Fault Refusal := .next (submit firnTriggerSpec a s)
def execFirnDisarm (a : Args) (s : State) : Host.Outcome State Fault Refusal := .next (submit firnDisarmSpec a s)
def execFirnStream (a : Args) (s : State) : Host.Outcome State Fault Refusal := .next (submit firnStreamSpec a s)
def execFirnGet (a : Args) (s : State) : Host.Outcome State Fault Refusal := .next (submit firnGetSpec a s)

end Sys2Proof.Machine
end

