-- ==== Sys2Proof/Machine/Aurora.lean ====
section
/-! DEFINITION. Machine/Aurora.lean: the frequency planner: spur classes, penalties and the choice of a plan, commands
0x0207–0x0209, slews and re-locks (R107–R125, R140, R141). Frequencies are in Hz, levels in 0.01 dB. -/

namespace Sys2Proof.Machine

/-! ## Settings (Table 4-16) -/

def aurMode (s : State) : Nat := byteAt s.aur.cfg 0
def guardHz (s : State) : Nat := 10000 * byteAt s.aur.cfg 1
def fracMin (s : State) : Nat := 100000 * byteAt s.aur.cfg 2
def strongMin (s : State) : Int := 100 * les s.aur.cfg 3 1
def penHyst (s : State) : Nat := 100 * byteAt s.aur.cfg 4
def aurProtect (s : State) (i : Nat) : Bool := bit (byteAt s.aur.cfg 5) i
def aaEdge (s : State) : Nat := 1000000 * le s.aur.cfg 14 2

def evPlanOf (s : State) (kind : Nat) : State := raise s evPlan 0x0000 kind

/-! ## Used and strong lists (R111, R112, Table 4-5) -/

/-- A used window or a strong signal: `TARGET` for a window. -/
structure Band where
  tgt   : Nat
  freq  : Nat
  width : Nat
  level : Int
  guard : Int
  deriving DecidableEq, Repr

/-- Full scale at ANTn is −4.0 dBm − g (R97): a level in 0.01 dBm as 0.01 dBFS. -/
def toDbfs (s : State) (conv : Nat) (level : Int) : Int := level + 400 + 100 * (ant s conv).g

/-- The level that the scan gives at a frequency, or a value that nothing states where the scan shows no signal there. -/
def scanLevel (s : State) (freq : Nat) : Int :=
  match s.aur.strong.find? fun x => decide (2 * apart (1000 * x.freq) freq ≤ 1000 * x.width) with
  | some x => 10 * x.level
  | none => -((Config.freeNat s.free % 10000 : Nat) : Int)

/-- Occupied bandwidth of a DRM lane in Hz, by robustness mode (4 is mode E) and spectrum occupancy (ETSI ES 201 980, PRESUMED).
Log: 54 (PRESUMED). -/
def drmWidth (o : Ofdm) : Nat :=
  if o.mode = 4 then 100000 else [4500, 5000, 9000, 10000, 18000, 20000].getD o.occupancy 20000

/-- Window of a full lane; IQ lanes have none.
Log: 54 (PRESUMED). -/
def laneBand (s : State) (tgt : Nat) : Option Band :=
  let l := lane s tgt
  let n := tgt - 0x0300
  let f := l.freq / 1000
  let conv := l.zones.headD 0 / 8
  let an (w : Nat) (p : Int) : Option Band :=
    some ⟨tgt, f, w, (match (demod s n).meas with
      | some m => toDbfs s conv m.level
      | none => scanLevel s f), p⟩
  let dg (w : Nat) : Option Band :=
    some ⟨tgt, f, w, (match (ofdm s n).meas with
      | some m => toDbfs s conv m.level
      | none => scanLevel s f), 4500⟩
  match l.use with
  | 2 => an 10000 5000
  | 3 => an 200000 6000
  | 4 => dg 1536000
  | 5 => dg (drmWidth (ofdm s n))
  | 6 => dg (drmWidth (ofdm s n))
  | _ => none

/-- A lane that is in use: it runs, settles or is paused.
Log: 55 (DEDUCED). -/
def laneActive (s : State) (tgt : Nat) : Bool := decide ((lane s tgt).st ≠ .idle) && decide ((lane s tgt).st ≠ .stopped)

/-- Window of a flake whose carrier no full lane holds. -/
def flakeBand (s : State) (e : Nat × Flake) : Option Band :=
  if e.2.st = .free ∨ (setLaneList s).any (fun t => toFull t && laneActive s t && decide ((lane s t).use = 3) && (lane s t).freq / 1000 == e.2.freq) then none
  else
    some ⟨0x0500 + e.1, e.2.freq, 200000, (match e.2.meas with
      | some m => toDbfs s ((tap s e.2.tap).zone / 8) m.level
      | none => scanLevel s e.2.freq), 4000⟩

/-- Window of a survey span.
Log: 55 (DEDUCED). -/
def surveyBand (s : State) (tgt : Nat) : Band :=
  let l := lane s tgt
  ⟨tgt, l.freq / 1000, 4 * l.outRate / 5, scanLevel s (l.freq / 1000), 4500⟩

/-- The used list (R112).
Log: 53 (DEDUCED), 55 (DEDUCED). -/
def usedList (s : State) : List Band :=
  (((setLaneList s).filter fun t => toFull t && laneActive s t).filterMap (laneBand s)) ++
    (s.flurry.flakes.filterMap (flakeBand s)) ++
    if aurProtect s 0 then ((setLaneList s).filter fun t => toSurvey t && laneActive s t).map (surveyBand s) else []

/-- A signal of the scan is a used entry's: its centre lies in that window. -/
def inBand (khz : Nat) (u : Band) : Bool := decide (2 * apart (1000 * khz) u.freq ≤ u.width)

/-- The strong list (R112): what the scan finds, but for what a used entry stands for, and every used entry.
Log: 53 (DEDUCED). -/
def strongList (s : State) (used : List Band) : List Band :=
  ((s.aur.strong.filter fun x => !used.any (inBand x.freq)).map fun x => ⟨0, 1000 * x.freq, 1000 * x.width, 10 * x.level, 0⟩) ++ used

/-! ## Spur classes (Table 4-4) -/

/-- One predicted product. -/
structure Spur where
  cls   : Nat
  order : Nat
  freq  : Nat
  width : Nat
  level : Int
  fixed : Bool
  deriving DecidableEq, Repr

/-- fold(x) = |x − fs · round(x / fs)|. -/
def foldHz (fs : Nat) (x : Int) : Nat := foldAt fs x.natAbs

/-- f_frac of a rate and a phase-detector frequency. -/
def fracOf (fs pd : Nat) : Nat := foldAt pd fs

/-- Products of one strong signal: classes A, B and D.
Log: 55 (DEDUCED). -/
def signalSpurs (fs frac : Nat) (x : Band) : List Spur :=
  ([(2, 7000), (3, 7200), (4, 8000), (5, 8200)].map fun (e : Nat × Int) =>
    (⟨1, e.1, foldHz fs (e.1 * x.freq), e.1 * x.width, x.level - e.2, decide (e.1 * x.freq < 1500000000)⟩ : Spur)) ++
  ([1, 2, 3, 4].flatMap fun (k : Nat) =>
    [(⟨2, k, foldHz fs ((k * (fs / 8) : Nat) - (x.freq : Int)), x.width, x.level - 7800, false⟩ : Spur),
     ⟨2, k, foldHz fs (k * (fs / 8) + x.freq), x.width, x.level - 7800, false⟩]) ++
  (if frac = 0 then [] else
    [⟨4, 1, x.freq + frac, x.width, x.level - 7500, false⟩, ⟨4, 1, apart x.freq frac, x.width, x.level - 7500, false⟩,
     ⟨4, 2, x.freq + 2 * frac, x.width, x.level - 8500, false⟩, ⟨4, 2, apart x.freq (2 * frac), x.width, x.level - 8500, false⟩])

/-- Products of the clocks: classes C, E and F.
Log: 55 (DEDUCED). -/
def clockSpurs (fs pd : Nat) (ftx : Option Nat) : List Spur :=
  ([0, 1, 2, 3, 4].map fun (k : Nat) => (⟨3, k, foldHz fs (k * (fs / 8)), 0, -9000, false⟩ : Spur)) ++
  ((List.range (2 * fs / max 1 pd)).map fun (m : Nat) => (⟨5, (m + 1) % 256, foldHz fs ((m + 1) * pd), 0, -9500, false⟩ : Spur)) ++
  (ftx.toList.map fun f => ⟨6, 0, foldHz fs ((fs : Int) - f), 0, -9500, false⟩)

/-- A collision of a product with a used window, with its shortfall (R111). -/
structure Collision where
  spur   : Spur
  victim : Band
  short  : Nat
  deriving DecidableEq, Repr

/-- The collision of a product with a window, if there is one. -/
def collide (guard : Nat) (p : Spur) (u : Band) : Option Collision :=
  if 2 * apart p.freq u.freq < p.width + u.width + 2 * guard ∧ u.level - u.guard < p.level then
    some ⟨p, u, (p.level - (u.level - u.guard)).toNat⟩
  else none

/-- f_tx in Hz while Lodestar is active. -/
def activeFtx (s : State) : Option Nat := if s.tx.st = .off ∨ s.tx.ftx = 0 then none else some (1000 * s.tx.ftx)

/-- SCLK phase-detector frequency in Hz with a conditioner. -/
def sclkPd (s : State) (cond : Nat) : Nat := 1000 * pdKhz (refKhz s) cond

/-- The collisions of a plan.
Log: 58 (DEDUCED). -/
def collisions (s : State) (khz cond : Nat) : List Collision :=
  let fs := 1000 * khz
  let used := usedList s
  let spurs := ((strongList s used).flatMap (signalSpurs fs (fracOf fs (sclkPd s cond)))) ++ clockSpurs fs (sclkPd s cond) (activeFtx s)
  spurs.flatMap fun p => used.filterMap (collide (guardHz s) p)

/-- The penalty of a plan: shortfalls summed, fixed products excluded (R117).
Log: 58 (DEDUCED). -/
def penalty (s : State) (khz cond : Nat) : Nat :=
  ((collisions s khz cond).map fun c => if c.spur.fixed then 0 else c.short).foldl (· + ·) 0

/-! ## Candidates (R115–R117) -/

/-- A plan with its penalty in 0.01 dB. -/
structure Cand where
  khz     : Nat
  cond    : Nat
  pen     : Nat
  hitless : Bool
  deriving DecidableEq, Repr

def Cand.plan (c : Cand) : Plan := { khz := c.khz, cond := c.cond, pen := c.pen / 10, hitless := c.hitless }

/-- The present rate in kHz. -/
def nowKhz (s : State) : Nat := fsOf s / 1000

/-- ρ of a lane stays in [0.5, 1.0) with its stage count (R116). -/
def ratioOk (fs : Nat) (l : Lane) : Bool :=
  decide (fs ≤ l.outRate * 2 ^ (l.stages + 4)) && decide (l.outRate * 2 ^ (l.stages + 3) < fs)

/-- A rate and conditioner can be reached without a re-lock (R79, R116). -/
def isHitless (s : State) (khz cond : Nat) : Bool :=
  cond == s.clk.sclkMode && decide (200 * apart khz s.clk.lockPoint ≤ s.clk.lockPoint) &&
    ((setLaneList s).filter (laneActive s)).all fun t => ratioOk (1000 * khz) (lane s t) && ratioOk (fsOf s) (lane s t)

/-- A lane has a stage count within its limits at a rate, and one at its least stage count does not fall below ρ = 0.5 there
(R115: 50 MS/s on a survey lane needs fs ≤ 3.2 GS/s).
Log: 164 (DEDUCED). -/
def laneFits (khz tgt : Nat) (l : Lane) : Bool :=
  (stageCount l.outRate (1000 * khz) (toSurvey tgt)).isSome &&
    !(l.stages == (if toSurvey tgt then 2 else 1) && decide (l.outRate * 2 ^ (l.stages + 4) < 1000 * khz))

/-- Every lane that is not Idle has a stage count at a rate (R115). -/
def lanesFit (s : State) (khz : Nat) : Bool := (setLaneList s).all fun t => laneFits khz t (lane s t)

/-- A candidate is discarded (R115). -/
def excluded (s : State) (khz cond : Nat) (hitless : Bool) : Bool :=
  let fs := 1000 * khz
  let top := ((usedList s).map fun u => u.freq + u.width / 2).foldl max 0
  let frac := fracOf fs (sclkPd s cond)
  decide (fs < aaEdge s + top) || (frac != 0 && decide (frac < fracMin s)) ||
    (match activeFtx s with
     | some f => decide (apart fs f < 1000000)
     | none => false) ||
    (!hitless && decide (8 * sclkPd s cond < 10000 * (s.clk.lockCfg.getD 0 (0, 0)).2)) || !lanesFit s khz

/-- The order of R117: ×2 before ×1 before ÷2 comes with the order of the search. -/
def ranksBefore (s : State) (c b : Cand) : Bool :=
  let d (x : Cand) : Nat := apart x.khz (nowKhz s)
  if c.pen ≠ b.pen then decide (c.pen < b.pen)
  else if c.hitless ≠ b.hitless then c.hitless
  else if d c ≠ d b then decide (d c < d b)
  else decide (c.khz < b.khz)

/-- One candidate of the search. -/
def tryCand (s : State) (cond : Nat) (best : Cand) (i : Nat) : Cand :=
  let khz := 3000000 + 100 * i
  let h := isHitless s khz cond
  if excluded s khz cond h then best
  else
    let c : Cand := ⟨khz, cond, penalty s khz cond, h⟩
    if ranksBefore s c best then c else best

/-- The present plan. -/
def curPlan (s : State) : Cand := ⟨nowKhz s, s.clk.sclkMode, penalty s (nowKhz s) s.clk.sclkMode, true⟩

/-- The plan adopted, if it is not the present one (R117). -/
def choosePlan (s : State) : Option Plan :=
  let cur := curPlan s
  let best := [1, 0, 2].foldl (fun b cond => (List.range 3001).foldl (tryCand s cond) b) cur
  if best ≠ cur ∧ (best.pen + penHyst s ≤ cur.pen ∨ (best.pen = 0 ∧ 0 < cur.pen)) then some best.plan else none

/-! ## Carrying out a plan (R118, R120, R123, R124) -/

/-- The `AURORA_RUN` result (Table 4-17). -/
def runResult (khz cond kind pen : Nat) : Bytes :=
  leBytes 4 khz ++ leBytes 1 cond ++ leBytes 1 kind ++ leBytes 2 (sat 16 pen) ++ zeros 8

/-- The outstanding `AURORA_RUN` commands with `APPLY` or without complete (R140). -/
def finishRun (apply : Bool) (s : State) (khz cond kind pen mark : Nat) : State :=
  (s.cmds.list.filter fun f => decide (f.phase = .executing) && f.begun && f.outcome.isNone && f.cmd.op == 0x0208 &&
      bit (byteAt f.cmd.pl 0) 0 == apply).foldl
    (fun q f => complete q f stOk 0 (runResult khz cond kind pen) q.sid.now mark) s

/-- The tape entry of a rate change (Table 12-2, 0x05). -/
def tapeRate (s : State) (index hz cond : Nat) : State :=
  let s1 := tape s 5 (leBytes 8 index ++ leBytes 8 (65536 * hz) ++ leBytes 4 cond) s.sid.now
  if firnRecords s then s1.setFirn { s1.firn with rates := (s.sid.now, hz / 1000, cond) :: s1.firn.rates } else s1

/-- A hitless plan starts its slew (R120). -/
def startPlan (s : State) (p : Plan) : State :=
  let s1 := abandonSpot (s.setAur { s.aur with
    st := .slewing, goal := p.khz, slewFrom := fsOf s, slewSteps := 0, slewIdx := none, pend := none, approved := false, deferred := false })
  evPlanOf s1 1

/-- The pending plan is carried out if it may be and is hitless; a re-lock is the row `RELOCK_START`. -/
def applyPending (s : State) : State :=
  match s.aur.pend with
  | some p =>
    if s.aur.approved ∧ p.hitless ∧ s.aur.st = .stable then
      let mark := s.ev.nextId
      finishRun true (finishRun false (startPlan s p) p.khz p.cond 1 p.pen mark) p.khz p.cond 1 p.pen mark
    else s
  | none => s

/-- The plan that a manual setting asks for; none where it is in force (R118). -/
def manualPlan (s : State) (b : Bytes) : Option Plan :=
  let khz := le b 8 4
  let cond := byteAt b 12
  if byteAt b 0 ≠ 0 ∨ (khz = nowKhz s ∧ cond = s.clk.sclkMode) then none
  else some { khz := khz, cond := cond, pen := penalty s khz cond / 10, hitless := isHitless s khz cond }

/-- An `AURORA_SET` takes effect.
Log: 56 (DEDUCED). -/
def applyAurora (s : State) (b : Bytes) : State :=
  let s1 := s.setAur { s.aur with cfg := b, cfgNext := none
                                  trigger := s.aur.trigger || bit (byteAt b 5) 0 != aurProtect s 0 }
  match manualPlan s1 b with
  | some p => applyPending (s1.setAur { s1.aur with pend := some p, approved := true, deferred := false })
  | none => s1

/-- A slew or re-lock has ended: what waited for it takes effect (R114, R125). -/
def planEnds (s : State) : State :=
  let s1 := s.setAur { s.aur with
    st := .stable, plans := sat 32 (s.aur.plans + 1), lastChg := s.sid.now, holdUntil := deadline s (le s.aur.cfg 6 2) }
  let s2 := match s1.aur.cfgNext with
    | some b =>
      let mark := s1.ev.nextId
      let s3 := applyAurora s1 b
      (s3.cmds.list.filter fun f => f.begun && f.outcome.isNone && f.cmd.op == 0x0207).foldl
        (fun q f => complete q f stOk 0 [] q.sid.now mark) s3
    | none => s1
  applyPending s2

/-! ## Commands (Tables 4-16 to 4-18) -/

/-- `AURORA_SET` (R115, R118, R125).
Log: 57 (DEDUCED). -/
def auroraSetUnit (c : Cmd) (s : State) : Reply :=
  if byteAt c.pl 0 = 0 ∧ lanesFit s (le c.pl 8 4) = false then badState
  else if s.aur.st ≠ .stable then .busy (s.setAur { s.aur with cfgNext := some c.pl })
  else ok (applyAurora s c.pl)

/-- Held by the safety path: a change of fs or of the conditioner in manual mode (R395). -/
def holdAuroraSet (s : State) (c : Cmd) : Bool := safetyOn s && (manualPlan s c.pl).isSome

/-- Log: 57 (DEDUCED). -/
def auroraSetSpec : CmdSpec :=
  { op := 0x0207, target := toSystem, len := fun _ => 24,
    fields := fun _ => [rng 0 1 0 3, rng 1 1 0 100, rng 2 1 1 100, srng 3 1 (-80) (-20), rng 4 1 0 20, wid 5 1 2,
      rng 6 2 32 65535, fld 8 4 fun v => decide (3000000 ≤ v ∧ v ≤ 3300000) && v % 100 == 0, rng 12 1 0 2, rng 13 1 1 50,
      rng 14 2 1500 2000, rng 16 2 320 32000, rsv 18 6],
    hold := holdAuroraSet, unit := auroraSetUnit }

/-- `AURORA_RUN` (R118): `APPLY` applies the pending plan, else an evaluation is asked for.
Log: 56 (DEDUCED). -/
def auroraRunUnit (c : Cmd) (s : State) : Reply :=
  if bit (byteAt c.pl 0) 0 then
    match s.aur.pend with
    | none => badState
    | some p =>
      let s1 := s.setAur { s.aur with approved := true }
      if p.hitless ∧ s.aur.st = .stable then okWith (runResult p.khz p.cond 1 p.pen) (startPlan s1 p) else .busy s1
  else .busy (s.setAur { s.aur with asked := true, rescan := s.aur.rescan || bit (byteAt c.pl 0) 1 })

def auroraRunSpec : CmdSpec :=
  { op := 0x0208, target := toSystem, len := fun _ => 4, largest := fun _ => 16, fields := fun _ => [wid 0 1 2, rsv 1 3],
    hold := fun s c => safetyOn s && bit (byteAt c.pl 0) 0, unit := auroraRunUnit }

/-- `AUR_STATE` (Table 4-18), where several hold the first of this order.
Log: 183 (DESIGN CHOICE). -/
def aurState (s : State) : Nat :=
  if s.aur.st = .relocking then 5
  else if s.aur.st = .slewing then 2
  else if s.aur.deferred then 4
  else if (s.aur.pend.map fun p => !p.hitless).getD false then 3
  else if aurMode s = 0 then 6
  else if s.aur.trigger ∨ s.aur.asked then 1
  else 0

/-- A collision in its place by decreasing shortfall. -/
def byShort (c : Collision) : List Collision → List Collision
  | [] => [c]
  | d :: ds => if d.short < c.short then c :: d :: ds else d :: byShort c ds

def sortShort (cs : List Collision) : List Collision := cs.foldl (fun acc c => byShort c acc) []

/-- A collision record (Table 4-18). -/
def collRecord (pending : Bool) (c : Collision) : Bytes :=
  leBytes 1 c.spur.cls ++ leBytes 1 c.spur.order ++ leBytes 1 (flag c.spur.fixed 0 + flag pending 1) ++ [0] ++
    leBytes 4 (c.spur.freq / 1000) ++ leBytes 4 (c.victim.freq / 1000) ++ leBytes 2 (sat 16 (c.short / 10)) ++ leBytes 2 c.victim.tgt

/-- The `AURORA_GET` result (Table 4-18); `N_COLL` leaves the fixed products out.
Log: 56 (DEDUCED), 183 (DESIGN CHOICE). -/
def auroraResult (s : State) (maxRecs : Nat) : Bytes :=
  let cur := collisions s (nowKhz s) s.clk.sclkMode
  let moving := cur.filter fun c => !c.spur.fixed
  let pend := s.aur.pend.map fun p => (collisions s p.khz p.cond).filter fun c => !c.spur.fixed
  let recs := ((sortShort moving).map (collRecord false)) ++ ((sortShort (pend.getD [])).map (collRecord true)) ++
    if aurProtect s 1 then (sortShort (cur.filter fun c => c.spur.fixed)).map (collRecord false) else []
  let goal := if s.aur.st = .slewing then s.aur.goal else (s.aur.pend.map (·.khz)).getD (nowKhz s)
  leBytes 4 (nowKhz s) ++ leBytes 4 goal ++ leBytes 1 s.clk.sclkMode ++ leBytes 1 (aurState s) ++
    leBytes 1 ((s.aur.pend.map (·.cond)).getD s.clk.sclkMode) ++ leBytes 1 (min 255 moving.length) ++
    leBytes 2 (sat 16 (penalty s (nowKhz s) s.clk.sclkMode / 10)) ++ leBytes 2 (sat 16 ((s.aur.pend.map (·.pen)).getD 0)) ++
    leBytes 4 (fracOf (1000 * nowKhz s) (sclkPd s s.clk.sclkMode) / 1000) ++ leBytes 4 s.aur.plans ++
    leBytes 8 (whenOf s.aur.lastChg).toNat ++ (recs.take maxRecs).flatten

def auroraGetSpec : CmdSpec :=
  { op := 0x0209, target := toSystem, len := fun _ => 4, largest := fun b => 32 + 16 * byteAt b 0,
    fields := fun _ => [rng 0 1 0 32, rsv 1 3], unit := fun c s => okWith (auroraResult s (byteAt c.pl 0)) s }

/-! ## Occurrences -/

/-- A signal of one scan stands in another, within 6 dB (R114). -/
def sameSignal (x y : StrongSignal) : Bool :=
  decide (2 * apart x.freq y.freq ≤ max x.width y.width) && decide ((x.level - y.level).natAbs < 60)

/-- Two scans differ as R114 asks. -/
def scanDiffers (a b : List StrongSignal) : Bool :=
  (a.any fun x => !b.any (sameSignal x)) || b.any fun y => !a.any fun x => sameSignal x y

/-! ### The scan (R113) -/

/-- The mean power of a bin over the blocks, 2³² being full scale. -/
def meanBin (blocks : List (List (Nat × Nat))) (bin : Nat) : Nat :=
  ((blocks.map fun b => ((b.filter fun e => e.1 == bin).map (·.2)).sum).sum) / max 1 blocks.length

/-- The bins of a spectrum of 65 536 points that a block tells of, in ascending order, each with its mean level in 0.1 dBFS. -/
def scanBins (blocks : List (List (Nat × Nat))) : List (Nat × Int) :=
  ((List.range 32768).filter fun i => blocks.any fun b => b.any fun e => e.1 == i).map fun i =>
    (i, centiDb (meanBin blocks i) (2 ^ 32) / 10)

/-- Adjacent bins of a list in ascending order, group by group. -/
def groupBins : List (Nat × Int) → List (List (Nat × Int))
  | [] => []
  | e :: es => match groupBins es with
    | (f :: g) :: gs => if f.1 = e.1 + 1 then (e :: f :: g) :: gs else [e] :: (f :: g) :: gs
    | gs => [e] :: gs

/-- One strong signal of adjacent bins (R113): its level is that of the strongest bin, its width that of the bins within 20 dB of
it, and its frequency the middle of those.
Log: 184 (DEDUCED). -/
def scanSignal (fs : Nat) (bins g : List (Nat × Int)) : StrongSignal :=
  let top := (g.map (·.2)).foldl max ((g.headD (0, 0)).2)
  let near := ((groupBins (bins.filter fun e => decide (top - 200 ≤ e.2))).find? fun h => h.any g.contains).getD g
  let lo := (near.headD (0, 0)).1
  let hi := (near.getLastD (0, 0)).1
  { freq := (lo + hi) * fs / (2 * 65536 * 1000), level := top, width := (hi + 1 - lo) * fs / (65536 * 1000) }

/-- The strong signals of one converter (R113). -/
def scanSignals (s : State) (blocks : List (List (Nat × Nat))) : List StrongSignal :=
  let bins := scanBins blocks
  (groupBins (bins.filter fun e => decide (strongMin s ≤ 10 * e.2))).map (scanSignal (fsOf s) bins)

/-- `AURORA_SCAN` (R113): every `SCAN_TICKS`, or asked for; inputs whose samples are marked give none (R138). -/
def execAuroraScan (spectra : List (List (List (Nat × Nat)))) (s : State) : Host.Outcome State Fault Refusal :=
  if s.aur.rescan ∨ expired s s.aur.scanBy then
    let new := ((List.range 4).filter fun n => !markedAt s false n s.sid.now).flatMap fun n => scanSignals s (spectra.getD n [])
    .next (s.setAur { s.aur with
      strong := new, rescan := false, scanBy := deadline s (le s.aur.cfg 16 2),
      trigger := s.aur.trigger || scanDiffers s.aur.strong new })
  else .next s

/-! ### Spot calibration (R128) -/

/-- A tone keeps clear of a band: 50 kHz below 30 MHz, 0.5 MHz above. -/
def toneClear (khz : Nat) (u : Band) : Bool :=
  let gap := if khz ≤ 30000 then 50000 else 500000
  decide (u.width + 2 * gap ≤ 2 * apart (1000 * khz) u.freq)

/-- A tone can be placed: it keeps clear of every used window and strong signal. -/
def tonePlaced (s : State) (khz : Nat) : Bool := (strongList s (usedList s)).all (toneClear khz)

/-- The first offset of `n` in steps of `step` kHz that places every tone, else none.
Log: 185 (DESIGN CHOICE). -/
def tryOffsets (s : State) (tones : Nat → List Nat) (n step : Nat) : Nat :=
  (((List.range n).map (· * step)).find? fun o => (tones o).all (tonePlaced s)).getD 0

/-- The comb offsets of a spot calibration (R128, Table 4-8).
Log: 185 (DESIGN CHOICE). -/
def spotOffsets (s : State) : Nat × Nat :=
  (tryOffsets s (fun o => (List.range 300).map fun k => 100 * (k + 1) + o) 100 1,
   tryOffsets s (fun o => (List.range 292).map fun k => 5000 * (k + 6) + o) 50 100)

/-- `SPOT_CAL_START` (R128): one input at a time, and not during a slew, a re-lock or a foreground calibration. -/
def execSpotCalStart (n : Nat) (temp : Int) (s : State) : Host.Outcome State Fault Refusal :=
  let a := ant s n
  if n < 4 ∧ spotDue s a temp ∧ s.aur.st = .stable ∧ fgRunning s = false ∧
      (s.rf.ants.all fun e => e.2.spotEnd.isNone) then
    .next (putAnt s n { a with spotAsked := false, spotEnd := some (deadline s 32), spotOff := spotOffsets s })
  else .next s

/-- `SPOT_CAL_COMPLETE` (R128): after 32 ticks of tones; those that cannot be placed are omitted. -/
def execSpotCalComplete (n : Nat) (tones : List ToneLevel) (temp : Int) (t : Sid) (s : State) :
    Host.Outcome State Fault Refusal :=
  match (ant s n).spotEnd with
  | none => .next s
  | some stop =>
    if n < 4 ∧ expired s stop then
      let a := ant s n
      let used := tones.filter fun x => onComb a.spotOff x.khz && x.g == a.g && tonePlaced s x.khz
      .next (calDone (advance s t) n (calDrift a used) temp)
    else .next s

/-- An evaluation may take place, at a tick boundary (R114, R124).
Log: 56 (DEDUCED). -/
def mayEvaluate (s : State) : Bool :=
  let a := s.aur
  atBoundary s && (a.trigger || a.asked) && !a.rescan && decide (a.st = .stable) && !fgRunning s && decide (s.firn.st ≠ .replaying) &&
    (decide (s.pwr.state = .active) || decide (s.pwr.state = .avalanche)) &&
    (a.asked || (aurMode s != 0 && (aurMode s == 1 || expired s a.holdUntil)))

/-- What becomes of an adopted plan (R118); an `AURORA_RUN` without `APPLY` ends here (R140).
Log: 56 (DEDUCED). -/
def adopt (s : State) (p : Plan) (mark : Nat) : State :=
  let auto := (p.hitless && decide (2 ≤ aurMode s)) || aurMode s == 3
  let s1 := s.setAur { s.aur with pend := some p, approved := auto, deferred := false }
  if auto ∧ p.hitless then applyPending s1
  else finishRun false (if auto then s1 else evPlanOf s1 3) p.khz p.cond (if p.hitless then 0 else 2) p.pen mark

/-- `AURORA_EVALUATION` (R114, R117, R118); in manual mode it only reports. -/
def execAuroraEvaluation (s : State) : Host.Outcome State Fault Refusal :=
  if mayEvaluate s = false then .next s
  else
    let mark := s.ev.nextId
    let s1 := (freeValue s).2.setAur { s.aur with trigger := false, asked := false }
    match (if aurMode s = 0 then none else choosePlan s) with
    | some p => .next (adopt s1 p mark)
    | none =>
      let p : Plan := s.aur.pend.getD ⟨nowKhz s, s.clk.sclkMode, penalty s (nowKhz s) s.clk.sclkMode / 10, true⟩
      .next (finishRun false s1 p.khz p.cond 0 p.pen mark)

/-- The rate in Hz after `k` steps of a slew: each step of 4096 samples moves it by what `SLEW_PPM` ppm per millisecond allow,
4.096 Hz for each ppm (R79, R120). -/
def slewRate (s : State) (k : Nat) : Nat :=
  let goal := 1000 * s.aur.goal
  let d := min (apart s.aur.slewFrom goal) (k * 4096 * byteAt s.aur.cfg 13 / 1000)
  if s.aur.slewFrom ≤ goal then s.aur.slewFrom + d else s.aur.slewFrom - d

/-- A slew step takes effect: the sample islands latch, and the tape holds it (R120, R121). -/
def stepRate (s : State) (index hz : Nat) : State :=
  let s1 := latchNow s index
  tapeWords (tapeRate (s1.setClk { s1.clk with sclkHz := hz }) index hz s1.clk.sclkMode)

/-- `SLEW_STEP` (R120): at a converter sample index that is a multiple of 4096, the next one after the step before, the rate takes
the next value of the sequence that the start rate, the target and `SLEW_PPM` fix. A replay makes the recorded steps itself (R124).
Log: 59 (DEDUCED). -/
def execSlewStep (index : Nat) (t : Sid) (s : State) : Host.Outcome State Fault Refusal :=
  let s1 := advance s t
  if s.aur.st = .slewing ∧ index % 4096 = 0 ∧ s.aur.slewIdx.all (fun i => i + 4096 == index) then
    let k := s.aur.slewSteps + 1
    .next (stepRate (s1.setAur { s1.aur with slewSteps := k, slewIdx := some index }) index (slewRate s k))
  else .next s

/-- `SLEW_COMPLETE` (R120, R141). -/
def execSlewComplete (t : Sid) (s : State) : Host.Outcome State Fault Refusal :=
  if s.aur.st = .slewing ∧ fsOf s = 1000 * s.aur.goal then
    let s1 := advance s t
    .next (planEnds (evPlanOf (s1.setAur { s1.aur with slewEnd := s1.sid.now }) 2))
  else .next s

/-- `RELOCK_START` (R123, R124, R395): at a tick boundary, a re-lock plan that may be carried out; without a locked reference it
is deferred. -/
def execRelockStart (t : Sid) (s : State) : Host.Outcome State Fault Refusal :=
  match s.aur.pend with
  | none => .next s
  | some p =>
    if s.aur.approved = false ∨ p.hitless ∨ s.aur.st ≠ .stable ∨ safetyOn s ∨ atBoundary (advance s t) = false then .next s
    else if s.clk.state ≠ .locked then
      if s.aur.deferred then .next s else .next (evPlanOf ((advance s t).setAur { s.aur with deferred := true }) 6)
    else
      let s1 := abandonSpot (evPlanOf (advance s t) 4)
      let s2 := pauseAll (s1.setAur { s1.aur with st := .relocking, deferred := false, goal := p.khz })
      .next (lockAttempt (s2.setClk { s2.clk with lock := s2.clk.lock &&& ~~~1#5 }) 0)

/-- `RELOCK_COMPLETE` (R80, R123): the SCLK PLL has locked at the new rate, which is the new lock point. -/
def execRelockComplete (t : Sid) (s : State) : Host.Outcome State Fault Refusal :=
  match s.aur.pend with
  | none => .next s
  | some p =>
    if s.aur.st ≠ .relocking then .next s
    else
      let s1 := advance s t
      let mark := s1.ev.nextId
      let s2 := s1.setClk { s1.clk with sclkHz := 1000 * p.khz, lockPoint := p.khz, sclkMode := p.cond, lock := s1.clk.lock ||| 1#5 }
      let s3 := tapeRate s2 0 (1000 * p.khz) p.cond
      let s4 := evPlanOf (s3.setAur { s3.aur with st := .stable, pend := none, approved := false }) 5
      let s5 := if s4.pwr.state = .frost then s4 else resumeAll s4
      .next (tapeWords (planEnds (finishRun true s5 p.khz p.cond 3 p.pen mark)))

def execAuroraSet (a : Args) (s : State) : Host.Outcome State Fault Refusal := .next (submit auroraSetSpec a s)
def execAuroraRun (a : Args) (s : State) : Host.Outcome State Fault Refusal := .next (submit auroraRunSpec a s)
def execAuroraGet (a : Args) (s : State) : Host.Outcome State Fault Refusal := .next (submit auroraGetSpec a s)

end Sys2Proof.Machine
end

