-- ==== Sys2Proof/Machine/Replay.lean ====
section
/-! DEFINITION. Machine/Replay.lean: a container is loaded and replayed: commands 0x0B05 and 0x0B06 and their occurrences
(R375–R378). -/

namespace Sys2Proof.Machine

/-! ## Reading a container (R373) -/

/-- Tape entries from their bytes, times nearest to `ref`. -/
def readTape (ref : Sid) : Nat → Bytes → List TapeEntry
  | 0, _ => []
  | k + 1, b =>
    if b.length < 16 then []
    else
      let n := le b 2 2
      { kind := byteAt b 0, seq := le b 4 4, time := sidOf ref (BitVec.ofNat 64 (le b 8 8)), payload := (b.drop 16).take n } ::
        readTape ref k (b.drop (16 + n))

/-- Chunks from their bytes. -/
def readChunks (ref : Sid) : Nat → Bytes → List Chunk
  | 0, _ => []
  | k + 1, b =>
    if b.length < 32 then []
    else
      let n := le b 4 4
      { source := le b 0 2, kind := byteAt b 2, flags := byteAt b 3, len := n, index := le b 8 8,
        time := sidOf ref (BitVec.ofNat 64 (le b 16 8)), count := le b 24 4, data := (b.drop 32).take n } ::
        readChunks ref k (b.drop (32 + n))

/-- A reader gives a value and the bytes behind it. -/
def readMany {α : Type} (p : Bytes → α × Bytes) : Nat → Bytes → List α × Bytes
  | 0, b => ([], b)
  | k + 1, b => ((p b).1 :: (readMany p k (p b).2).1, (readMany p k (p b).2).2)

/-- A list with its length in two bytes. -/
def readList {α : Type} (p : Bytes → α × Bytes) (b : Bytes) : List α × Bytes := readMany p (le b 0 2) (b.drop 2)

def readCx (b : Bytes) : Cx × Bytes := (⟨les b 0 4, les b 4 4⟩, b.drop 8)

def readHalfBand (b : Bytes) : HalfBand × Bytes :=
  let h := readList readCx (b.drop 1)
  (⟨h.1, bit (byteAt b 0) 0⟩, h.2)

def readLaneChain (b : Bytes) : LaneChain × Bytes :=
  let st := readList readHalfBand (b.drop 6)
  let h := readList readCx st.2
  ({ phase := le b 0 6, stages := st.1, hist := h.1, pos := le h.2 0 8, blank := le h.2 8 8, clip := le h.2 16 8,
     count := le h.2 24 8 }, h.2.drop 32)

def readZoneChain (b : Bytes) : ZoneChain :=
  let st := readList readHalfBand (b.drop 6)
  { phase := le b 0 6, stages := st.1, blank := le st.2 0 8, clip := le st.2 8 8 }

/-- A unit state of a checkpoint: the unit and its bytes. -/
def readUnit (b : Bytes) : (Nat × Bytes) × Bytes := ((le b 0 2, (b.drop 6).take (le b 2 4)), b.drop (6 + le b 2 4))

def readCrc (b : Bytes) : (Nat × Nat) × Bytes := ((le b 0 2, le b 2 4), b.drop 6)

/-- The settings of a configuration image: opcode, `TARGET` and payload. -/
def readImage : Nat → Bytes → List (Nat × Nat × Bytes)
  | 0, _ => []
  | k + 1, b =>
    if b.length < 8 then [] else (le b 0 2, le b 2 2, (b.drop 8).take (le b 4 4)) :: readImage k (b.drop (8 + le b 4 4))

/-- A checkpoint: its configuration image, its unit states and its digests (R363). -/
def readCheckpoint (p : Bytes) : List (Nat × Nat × Bytes) × List (Nat × Bytes) × List (Nat × Nat) :=
  let n := le p 0 4
  let units := readList readUnit (p.drop (4 + n))
  (readImage n ((p.drop 4).take n), units.1, (readList readCrc units.2).1)

/-- The tape of a loaded recording from its starting checkpoint on (R365, `RP_FROM`). -/
def fromCheckpoint (start : Sid) : Nat → List TapeEntry → List TapeEntry
  | _, [] => []
  | k, e :: es =>
    if e.kind = 11 ∧ start ≤ e.time then
      match k with
      | 0 => e :: es
      | j + 1 => fromCheckpoint start j es
    else fromCheckpoint start k es

/-! ## FIRN_LOAD (R375) -/

/-- `FIRN_LOAD` (R375): any recording held is discarded. -/
def firnLoadUnit (c : Cmd) (s : State) : Reply :=
  let n := byteAt c.pl 0
  if (s.firn.st ≠ .off ∧ s.firn.st ≠ .frozen ∧ s.firn.st ≠ .loaded) ∨ (executing s 0x0B04 0x0B00).isSome then badState
  else
    match ringDenied s n 0 .streamIn (ringBound s n) with
    | some r => r
    | none => .busy ((markRing s n .firnIn).setFirn { Firn.reset with st := .loading, shed := s.firn.shed, rpRing := n })

def firnLoadSpec : CmdSpec :=
  { op := 0x0B05, target := toFirn, len := fun _ => 4, fields := fun _ => [rsv 1 3], unit := firnLoadUnit }

/-- The failing check of a container: status and `DETAIL` (R375). -/
def loadFault (s : State) (h : Bytes) : Option (Nat × Nat) :=
  if h.take 4 ≠ [0x46, 0x49, 0x52, 0x4E] then some (stBadState, 0)
  else if byteAt h 4 ≠ 1 then some (stBadState, 4)
  else if (crc32 (splice (fit 128 h) 12 (zeros 4))).toNat ≠ le h 12 4 then some (stBadState, 12)
  else if le h 6 2 ≠ s.part.id then some (stBadState, 6)
  else if byteAt h 5 ≠ 0xB1 then some (stBadState, 5)
  else if le h 8 4 ≠ runningBuild s then some (stBadState, 8)
  else if 128 + 192 * 1048576 < le h 16 8 then some (stBadLength, 0)
  else none

/-- What a container's header says of the recording. -/
def Firn.describe (f : Firn) (h : Bytes) (ref : Sid) : Firn :=
  { f with st := .loaded, header := h, cause := byteAt h 56, trigTime := sidOf ref (BitVec.ofNat 64 (le h 40 8)),
           recEnd := sidOf ref (BitVec.ofNat 64 (le h 48 8)), prefill := bit (byteAt h 57) 0, byReset := bit (byteAt h 57) 1,
           gaps := bit (byteAt h 57) 2 }

/-- A verified container becomes the recording held. -/
def loadFirn (s : State) (b : Bytes) : State :=
  let h := b.take 128
  let ref := le h 88 8 * secU
  let tape := (b.drop 128).take (le h 72 8)
  let data := (b.drop (128 + le h 72 8)).take (le h 80 8)
  s.setFirn ({ s.firn with tape := readTape ref tape.length tape, tapeLen := tape.length, chunks := readChunks ref data.length data,
                           held := data.length }.describe h ref)

/-- `FIRN_LOAD_COMPLETE` (R375): the header is judged once it is there, and the container is loaded once it is whole. -/
def execFirnLoadComplete (t : Sid) (s : State) : Host.Outcome State Fault Refusal :=
  match mget s.rings s.firn.rpRing with
  | none => .next s
  | some r =>
    let b := r.inData
    if s.firn.st ≠ .loading ∨ r.bind ≠ .firnIn ∨ b.length < 128 then .next s
    else
      let s1 := advance s t
      let n := s.firn.rpRing
      let free (q : State) (used : Nat) : State := markRing (putRing q n { r with inData := b.drop used }) n .none
      match loadFault s1 b with
      | some e => .next (finishOp ((free s1 b.length).setFirn { Firn.reset with shed := s.firn.shed }) 0x0B05 0x0B00 e.1 e.2 [] s1.ev.nextId)
      | none =>
        if b.length < le b 16 8 then .next s
        else .next (finishOp (loadFirn (free s1 (le b 16 8)) b) 0x0B05 0x0B00 stOk 0 [] s1.ev.nextId)

/-! ## FIRN_REPLAY (R376) -/

/-- The tape that a replay would run from. -/
def replayTape (f : Firn) (k : Nat) : List TapeEntry := fromCheckpoint (recStart f) k (joinTape f.tape)

/-- A unit of the starting checkpoint is free (R376). -/
def unitFree (s : State) (u : Nat) : Bool :=
  if toZone u then decide ((zone s (u - 0x0200)).st = .off)
  else if toLane u then decide ((lane s u).st = .idle)
  else !(tap s (u - 0x0580)).on

/-- The units that the starting checkpoint names are free, and the exciter does not transmit (R376).
Log: 122 (DEDUCED). -/
def replayFree (s : State) (k : Nat) : Bool :=
  (match replayTape s.firn k with
    | e :: _ => (readCheckpoint e.payload).2.1.all fun u => unitFree s u.1
    | [] => true) &&
    ((List.range 32).all fun n => !bit (le s.firn.header 28 4) n || decide ((lane s (0x0300 + n)).st = .idle)) &&
    (decide (s.tx.st = .off) || decide (s.tx.st = .tuning) || decide (s.tx.st = .ready))

/-- `FIRN_REPLAY` (R376): the SCLK PLL is to re-lock to the recorded rate and conditioner; the feed begins then.
Log: 122 (DEDUCED). -/
def firnReplayUnit (c : Cmd) (s : State) : Reply :=
  if s.firn.st ≠ .loaded then badState
  else
    match mget s.rings (byteAt c.pl 0) with
    | none => badParam 0
    | some r =>
      if r.kind ≠ .completion then badParam 0
      else if le s.firn.header 68 4 ≤ le c.pl 4 4 ∨ replayTape s.firn (le c.pl 4 4) = [] then badParam 4
      else if replayFree s (le c.pl 4 4) = false then badState
      else
        let f := s.firn
        let tape := replayTape f (le c.pl 4 4)
        let from_ := (tape.head?.map (·.time)).getD 0
        let s1 := s.setFirn { f with
          st := .replaying, rpRing := byteAt c.pl 0, rpFrom := le c.pl 4 4, rpAlerts := 0, bad := 0, firstBad := 0, rpOn := false
          rpTape := tape, rpRuns := [], rpGaps := []
          rpChunks := (f.chunks.foldl (fun acc x => insertChunk x acc) []).filter fun x => decide (from_ ≤ x.time) }
        .busy (s1.setAur { s1.aur with
          pend := some { khz := le f.header 60 4, cond := byteAt f.header 64, pen := 0, hitless := false }, approved := true })

def firnReplaySpec : CmdSpec :=
  { op := 0x0B06, target := toFirn, len := fun _ => 8, fields := fun _ => [rsv 1 3], unit := firnReplayUnit }

/-! ## The states of a checkpoint come back (R363, R376, R377) -/

def zoneStateOf : Nat → ZoneState
  | 0 => .off
  | 1 => .running
  | 2 => .settling
  | _ => .paused

def laneStateOf : Nat → LaneState
  | 0 => .idle
  | 1 => .stopped
  | 2 => .settling
  | 3 => .running
  | _ => .paused

/-- One setting of the configuration image comes into force again. -/
def restoreSetting (s : State) (e : Nat × Nat × Bytes) : State :=
  let n := e.2.1 % 256
  let b := e.2.2
  match e.1 with
  | 0x0301 => putAnt s n { ant s n with cfg := b }
  | 0x0302 => putAnt s n { ant s n with biasCfg := b }
  | 0x0403 => putLane s e.2.1 { lane s e.2.1 with cfg := b, st := if byteAt b 0 = 0 then .idle else .stopped, outRate := askedRate b }
  | 0x0306 => putLane s e.2.1 { lane s e.2.1 with div := b }
  | 0x0404 => putLane s e.2.1 { lane s e.2.1 with freq := le b 0 8 }
  | 0x0501 => putDemod s n { demod s n with am := b }
  | 0x0502 => putDemod s n { demod s n with fm := b }
  | 0x0510 => s.setFlurry { s.flurry with cfg := b }
  | 0x0516 => putAf s n { afOf s n with cfg := b }
  | 0x0601 => putOfdm s n { ofdm s n with cfg := b }
  | 0x0620 => putSurvey s n { survey s n with cfg := b }
  | 0x0704 => s.setLinks { s.links with cfg := b }
  | 0x0705 => putPath s n { path s n with blend := b }
  | 0x0706 => s.setGroups (match mget s.groups n with
    | some g => mput s.groups n { g with cfg := b }
    | none => s.groups)
  | 0x0801 => putSap s n { sap s n with cfg := b }
  | 0x0802 => putSap s n { sap s n with route := b }
  | _ => s

/-- The state of one unit comes back. -/
def restoreUnit (s : State) (e : Nat × Bytes) : State :=
  let u := e.1
  let b := e.2
  if toZone u then
    putZone s (u - 0x0200) { zone s (u - 0x0200) with st := zoneStateOf (byteAt b 0), freq := le b 1 8, resetAt := le b 9 16,
                                                      chain := readZoneChain (b.drop 25) }
  else if toLane u then
    let l := lane s u
    putLane s u { l with
      st := laneStateOf (byteAt b 0), stages := byteAt b 1, freq := le b 2 8, outRate := le b 10 4, settleLast := le b 14 4
      blkSeq := le b 18 4, sync := bit (byteAt b 22) 0, gap := bit (byteAt b 22) 1, restage := bit (byteAt b 22) 2
      blkGap := le b 23 4, outNext := le b 27 8, resetAt := le b 43 16, chains := (readList readLaneChain (b.drop 59)).1
      out := [], past := l.zones.map fun _ => [], crc := 0xFFFFFFFF#32 }
  else
    let k := readLaneChain (b.drop 26)
    let sample (x : Bytes) : ZoneSample × Bytes :=
      (⟨(readCx x).1, bit (byteAt x 8) 0, bit (byteAt x 8) 1⟩, x.drop 9)
    putTap s (u - 0x0580) { tap s (u - 0x0580) with
      on := true, zone := byteAt b 0, freq := le b 1 8, paused := bit (byteAt b 9) 0, due := bit (byteAt b 9) 1
      resetAt := le b 10 16, chain := k.1, out := (readList sample k.2).1 }

/-- The feed begins: the image and the units of the starting checkpoint come back, recorded lanes run, and the recorded time
scale starts there (R376). -/
def beginReplay (s : State) (e : TapeEntry) : State :=
  let c := readCheckpoint e.payload
  let d : Int := (e.time : Int) - (s.sid.now : Int)
  let s1 := c.2.1.foldl restoreUnit (c.1.foldl restoreSetting s)
  let s2 := ((List.range 32).filter fun n => bit (le s.firn.header 28 4) n).foldl
    (fun q n => putLane q (0x0300 + n) { lane q (0x0300 + n) with st := .running }) s1
  s2.setFirn { s2.firn with rpOn := true, rpShift := d, rpTape := s2.firn.rpTape.tail }

/-! ## The feed (R376) -/

/-- Chunks whose time has come on the recorded scale: zone samples wait for theirs, a lane's block goes to its demodulator, and a
gap is noted. -/
def takeChunk (s : State) (c : Chunk) : State :=
  let f := s.firn
  match c.kind with
  | 1 =>
    let ys := (List.range (c.data.length / 5)).map fun i => zoneSampleOf (c.data.drop (5 * i))
    s.setFirn { f with rpRuns := f.rpRuns ++ [(c.source - 0x0200, { index := c.index, time := c.time, data := ys })] }
  | 2 =>
    let ys := (List.range (le c.data 4 2)).map fun i =>
      let b := c.data.drop (48 + 8 * i)
      ({ x := ⟨les b 1 3, les b 5 3⟩, settle := bit (byteAt b 0) 0, blank := bit (byteAt b 0) 1, clip := bit (byteAt b 0) 2
         sat := bit (byteAt b 0) 3, slew := bit (byteAt b 0) 4 } : Sample)
    demodFeed s c.source (ys.filter fun y => !y.settle)
  | _ => s.setFirn { f with rpGaps := c.source :: f.rpGaps }

/-- Samples of a run that lie at or before `t`. -/
def ZoneRun.due (s : State) (t : Sid) (r : ZoneRun) : Nat :=
  if t < r.time then 0 else min r.data.length ((t - r.time) * fsOf s / (8 * secU) + 1)

/-- The recorded samples up to `t` leave the output points of their zones for the lanes and taps. -/
def feedRecord (s : State) (t : Sid) : State :=
  let cs := s.firn.rpChunks.filter fun c => decide (c.time ≤ t)
  let s1 := cs.foldl takeChunk (s.setFirn { s.firn with rpChunks := s.firn.rpChunks.filter fun c => decide (t < c.time) })
  let rs := s1.firn.rpRuns
  let zs := (List.range 32).filterMap fun z =>
    let ys := ((rs.filter fun e => e.1 == z).map fun e => e.2.data.take (e.2.due s1 t)).flatten
    if ys = [] then none else some (z, ys)
  let left := (rs.map fun e => (e.1, e.2.behind s1 (e.2.due s1 t))).filter fun e => !e.2.data.isEmpty
  let s2 := s1.setFirn { s1.firn with rpRuns := left }
  if zs = [] then s2 else [0, 1, 2, 3].foldl (tapTakes zs) ((setLaneList s2).foldl (laneTakes zs) s2)

/-- A recorded command is issued again with its tag: at once where its `WHEN` was 0, and where it was released on the way to a later
`WHEN` (R376).
Log: 200 (DEDUCED). -/
def reissue (look : Cmd → Option CmdSpec) (s : State) (e : TapeEntry) : State :=
  let c := packetCmd (.replay (le e.payload 0 4)) 0 (e.payload.drop 4)
  let w := sidOf s.sid.now c.a.whn
  if c.op / 256 < 2 ∨ 8 < c.op / 256 ∨ (byTag s c.a.origin c.a.tag.toNat).isSome then s
  else
    match look c with
    | none => take none c s
    | some p =>
      if c.immediate then take (some p) c s
      else if w < s.sid.now + 3 * tickU then
        let f := enter c s
        release p { f.1 with due := w } f.2
      else s

/-- The lanes whose output the replay can check: no zone of theirs has had a gap since the last checkpoint. -/
def eligible (s : State) (t : Nat) : Bool :=
  (lane s t).zones.all fun z => bit (le s.firn.header 24 4) z && !s.firn.rpGaps.contains (0x0200 + z)

/-- A recorded checkpoint is reached: the digests are compared, and the consumers of a source with a gap take their states from it
(R377, R378). -/
def meetCheckpoint (s : State) (e : TapeEntry) : State :=
  let c := readCheckpoint e.payload
  let bad := (c.2.2.filter fun d => eligible s d.1 && ((~~~(lane s d.1).crc).toNat != d.2)).length
  let f := s.firn
  let hit (u : Nat × Bytes) : Bool :=
    f.rpGaps.contains u.1 || (toLane u.1 && (lane s u.1).zones.any fun z => f.rpGaps.contains (0x0200 + z)) ||
      (!toZone u.1 && !toLane u.1 && f.rpGaps.contains (0x0200 + byteAt u.2 0))
  let s1 := (c.2.1.filter hit).foldl restoreUnit s
  freshCrcs (s1.setFirn { s1.firn with bad := sat 32 (f.bad + bad), firstBad := if f.bad = 0 ∧ 0 < bad then e.time else f.firstBad
                                       rpGaps := [] })

/-- An action that a unit holds for its `WHEN` begins; then the command under way on it applies. -/
def applyRecorded (look : Cmd → Option CmdSpec) (s : State) (tgt : Nat) : State :=
  let s1 := match findFlight s fun f => decide (f.phase = .executing) && !f.begun && f.cmd.tgt == tgt with
    | some f => (match look f.cmd with
      | some p => launch p f s
      | none => s)
    | none => s
  (applyNext s1 tgt true).getD s1

/-- One tape entry is reached on the recorded scale (R376): a command is issued again, a word applies at its recorded sample, a
slew step is followed, a step of the recorded Sidereal moves the scale, and a checkpoint is compared. -/
def meetEntry (look : Cmd → Option CmdSpec) (s0 : State) (e : TapeEntry) : State :=
  let s := feedRecord s0 e.time
  match e.kind with
  | 1 => reissue look s e
  | 5 => tapeWords (s.setClk { s.clk with sclkHz := le e.payload 8 8 / 65536 })
  | 6 => applyRecorded look s (le e.payload 0 4)
  | 8 => if 16 ≤ e.payload.length then s.setFirn { s.firn with rpShift := s.firn.rpShift + les e.payload 0 8 } else s
  | 11 => meetCheckpoint s e
  | _ => s

/-- Tape entries up to `t`, one after the other, each at its own time. -/
def meetTape (look : Cmd → Option CmdSpec) (t : Sid) : List TapeEntry → State → State
  | [], s => s
  | e :: es, s =>
    if t < e.time then s
    else
      let at_ := s.setSid { s.sid with now := min t (max s.sid.now e.time) }
      meetTape look t es ((meetEntry look at_ e).setFirn { (meetEntry look at_ e).firn with rpTape := es })

/-- A tick of the replay: it begins once the SCLK PLL has re-locked, and from then on feeds what the recorded time scale reaches
(R376). -/
def replayTick (look : Cmd → Option CmdSpec) (s : State) : State :=
  if s.firn.st ≠ .replaying then s
  else if s.firn.rpOn = false then
    match s.firn.rpTape with
    | e :: _ => if s.aur.pend.isNone then beginReplay s e else s
    | [] => s
  else
    let q := onRecord s
    let t := q.sid.now
    let back := q.setSid { q.sid with now := t - tickU }
    offScale s (feedRecord ((meetTape look t back.firn.rpTape back).setSid q.sid) t)

/-- The replay has reached the end of the recording (R378). -/
def replayOver (s : State) : Bool :=
  s.firn.rpOn && s.firn.rpChunks.isEmpty && s.firn.rpRuns.isEmpty && s.firn.rpTape.isEmpty

/-- A replay ends, by its last sample or by `CMD_ABORT`: the replayed units stop (Table 12-4). -/
def endReplay (s : State) : State :=
  if s.firn.st ≠ .replaying then s
  else
    let ls := (setLaneList s).filter (replayed s)
    let zs := (List.range 32).filter fun z => bit (le s.firn.header 24 4) z
    let s1 := ls.foldl (fun q t => releaseLane (dropLaneCmds (stopLane q t) t stBadState) t) s
    let s2 := disableZones s1 zs
    s2.setFirn { s2.firn with st := .loaded, rpOn := false, rpTape := [], rpChunks := [], rpRuns := [], rpGaps := [] }

/-- `REPLAY_CHECKPOINT` (R378): the recorded scale reaches the next checkpoint. -/
def execReplayCheckpoint (t : Sid) (s : State) : Host.Outcome State Fault Refusal :=
  let s1 := advance s t
  match s.firn.rpTape with
  | e :: es =>
    if s.firn.st = .replaying ∧ s.firn.rpOn ∧ e.kind = 11 ∧ e.time ≤ (onRecord s1).sid.now then
      .next (offScale s1 ((meetCheckpoint (feedRecord (onRecord s1) e.time) e).setFirn
        { (meetCheckpoint (feedRecord (onRecord s1) e.time) e).firn with rpTape := es }))
    else .next s
  | [] => .next s

/-- `REPLAY_END` (R378). -/
def execReplayEnd (t : Sid) (s : State) : Host.Outcome State Fault Refusal :=
  if s.firn.st = .replaying ∧ replayOver s then
    let s1 := advance s t
    .next (finishOp (endReplay s1) 0x0B06 0x0B00 stOk (sat 16 s1.firn.bad) [] s1.ev.nextId)
  else .next s

def execFirnLoad (a : Args) (s : State) : Host.Outcome State Fault Refusal := .next (submit firnLoadSpec a s)
def execFirnReplay (a : Args) (s : State) : Host.Outcome State Fault Refusal := .next (submit firnReplaySpec a s)

end Sys2Proof.Machine
end

