-- ==== Sys2Proof/Machine/Eth.lean ====
section
/-! DEFINITION. Machine/Eth.lean: the SGMII port, its UDP streams, and the records of both links (chapter 15,
R463–R471). -/

namespace Sys2Proof.Machine

/-! ## The port and its streams -/

/-- The port is powered: it is down in Frost and below (R411, R463). -/
def portPowered (s : State) : Bool := decide (instances s.part 0x0F ≠ 0) && (decide (s.pwr.state = .active) || decide (s.pwr.state = .avalanche))

/-- The port receives. -/
def portUp (s : State) : Bool := portPowered s && s.eth.link

/-- The port transmits: `ETH_SET` has given a station address (R463). -/
def portSends (s : State) : Bool := portUp s && le s.eth.cfg 0 6 != 0

def stream (s : State) (i : Nat) : UdpStream := mgetD s.eth.streams i UdpStream.reset
def putStream (s : State) (i : Nat) (u : UdpStream) : State := s.setEth { s.eth with streams := mput s.eth.streams i u }
def UdpStream.kind (u : UdpStream) : Nat := byteAt u.cfg 1

/-- The stream uses IPv6. -/
def UdpStream.v6 (u : UdpStream) : Bool := bit (byteAt u.cfg 2) 0

/-- A stream runs: the port is up with its address, and `EFLAGS` enables the stream's Internet protocol.
Log: 123 (DEDUCED). -/
def streamRuns (s : State) (u : UdpStream) : Bool :=
  u.kind != 0 && portSends s && bit (byteAt s.eth.cfg 6) (if u.v6 then 1 else 0)

/-- Ethernet frames of a datagram of `n` payload bytes after its header (R466, R470).
Log: 125 (DEDUCED). -/
def framesOf (u : UdpStream) (n : Nat) : Nat :=
  if n + 32 + (if u.v6 then 40 else 20) ≤ 1500 then 1
  else if u.v6 then (n + 32 + 1447) / 1448 else (n + 32 + 1479) / 1480

def sent (s : State) (n : Nat) : State := s.setEth { s.eth with txFrames := sat 32 (s.eth.txFrames + n) }
def received (s : State) (n : Nat) : State := s.setEth { s.eth with rxFrames := sat 32 (s.eth.rxFrames + n) }

/-- The outstanding `UDP_STREAM_SET` commands whose stream runs now complete (R471). -/
def streamsStart (s : State) : State :=
  let mark := s.ev.nextId
  let fs := s.cmds.list.filter fun f =>
    decide (f.phase = .executing) && f.begun && f.cmd.op == 0x0E02 && streamRuns s (stream s (byteAt f.cmd.pl 0))
  fs.foldl (fun q f => complete q f stOk 0 [] q.sid.now mark) s

/-! ## Commands (R471) -/

/-- `ETH_SET` (R463, R471): it completes at acceptance, and streams that wait for the address run. -/
def ethSetUnit (c : Cmd) (s : State) : Reply := ok (streamsStart (s.setEth { s.eth with cfg := c.pl }))

def toEth (t : Nat) : Bool := t == 0x0F00

/-- Table 15-10. -/
def ethSetSpec : CmdSpec :=
  { op := 0x0E01, target := toEth, len := fun _ => 48,
    fields := fun _ => [wid 6 1 4, rng 7 1 0 32, rng 32 1 0 128, rsv 33 1, fld 34 2 fun v => !bit v 12, rng 36 2 0 2000,
      rng 38 2 0 2000, rsv 40 8],
    unit := ethSetUnit }

/-- `UDP_STREAM_SET` (R465, R471). The rates of 16 streams of these kinds stay below 900 Mb/s in every configuration, so
`ST_NO_RESOURCE` has no case.
Log: 123 (DEDUCED). -/
def udpStreamUnit (c : Cmd) (s : State) : Reply :=
  let i := byteAt c.pl 0
  if sfnRole s ≠ 0 ∧ sfnStream s = i ∧ (s.tx.st = .on ∨ s.tx.st = .muted) then badState
  else
    let u := { UdpStream.reset with cfg := c.pl }
    let s0 := putStream s i u
    let s1 := s0.setEth { s0.eth with reasm := s0.eth.reasm.filter fun e => e.stream != i }
    if u.kind = 0 ∨ streamRuns s1 u then ok s1 else .busy s1

/-- Table 15-11. -/
def udpStreamSetSpec : CmdSpec :=
  let on : Bytes → Bool := fun b => byteAt b 1 != 0
  { op := 0x0E02, target := toEth, len := fun _ => 32,
    fields := fun _ => [rng 0 1 0 15, rng 1 1 0 4, wid 2 1 1, wid 3 1 6, whenFld on (rng 4 2 1 65535),
      whenFld on (rng 6 2 1 65535),
      ⟨8, fun b => byteAt b 1 == 0 || (if byteAt b 1 = 1 then decide (byteAt b 8 < 24) else byteAt b 8 == 0)⟩,
      whenFld (fun b => byteAt b 1 == 1) (rng 9 1 6 180), whenFld (fun b => byteAt b 1 == 2) (rng 10 1 2 200),
      whenFld on (rng 11 1 1 255), rsv 28 4],
    unit := udpStreamUnit }

/-- `STREAMS_ON`. -/
def streamsOn (s : State) : Nat :=
  (List.range 16).foldl (fun v i => v + flag (streamRuns s (stream s i)) i) 0

/-- Table 15-12. -/
def ethRecord (s : State) : Bytes :=
  let e := s.eth
  leBytes 1 (flag e.link 0 + flag e.speedBad 1) ++ zeros 3 ++ leBytes 4 e.rxFrames ++ leBytes 4 e.txFrames ++
    leBytes 4 e.rxErrors ++ leBytes 4 e.tsRx ++ leBytes 4 e.tsTx ++ leBytes 4 e.rxMissing ++ leBytes 4 e.rxLate ++
    leBytes 4 e.sfnIncomp ++ leBytes 2 (streamsOn s) ++ zeros 2 ++ leBytes 8 (whenOf e.linkTime).toNat

def ethGetSpec : CmdSpec :=
  { op := 0x0E03, target := toEth, len := fun _ => 0, largest := fun _ => 48, unit := fun _ s => okWith (ethRecord s) s }

/-- Table 15-13. -/
def pcieRecord (p : Pcie) : Bytes :=
  leBytes 1 p.speed ++ leBytes 1 p.width ++ leBytes 1 (if p.d3 then 3 else 0) ++ [0] ++ leBytes 4 p.flrCount ++
    leBytes 4 p.dmaErrors ++ leBytes 4 p.corrErrors ++ leBytes 4 (sat 32 (p.txBytes / 1048576)) ++
    leBytes 4 (sat 32 (p.rxBytes / 1048576)) ++ leBytes 8 (whenOf p.linkTime).toNat

def pcieGetSpec : CmdSpec :=
  { op := 0x0E04, target := fun t => t == 0x0E00, len := fun _ => 0, largest := fun _ => 32,
    unit := fun _ s => okWith (pcieRecord s.pcie) s }

def execEthSet (a : Args) (s : State) : Host.Outcome State Fault Refusal := .next (submit ethSetSpec a s)
def execUdpStreamSet (a : Args) (s : State) : Host.Outcome State Fault Refusal := .next (submit udpStreamSetSpec a s)
def execEthGet (a : Args) (s : State) : Host.Outcome State Fault Refusal := .next (submit ethGetSpec a s)
def execPcieGet (a : Args) (s : State) : Host.Outcome State Fault Refusal := .next (submit pcieGetSpec a s)

/-! ## The port -/

/-- The link changes state; the samples of an audio-out stream are lost while it is down (Table 15-9 `S_GAP`).
Log: 124 (DEDUCED). -/
def linkTo (s : State) (up speedBad : Bool) : State :=
  let e := s.eth
  let s1 := s.setEth { e with
    link := up, speedBad := speedBad, linkTime := s.sid.now, reasm := if up then e.reasm else []
    streams := if up then e.streams else e.streams.map fun x => (x.1, { x.2 with gap := true }) }
  raise s1 evHostlink 0x0F00 (if up then 0x11 else 0x12)

/-- `SGMII_LINK_CHANGE` (R463, R472): a PHY that signals 10 or 100 Mb/s is link down with the mismatch flag. -/
def execSgmiiLinkChange (up : Bool) (speedBad : Bool) (t : Sid) (s : State) : Host.Outcome State Fault Refusal :=
  if portPowered s = false then .next s
  else
    let s0 := advance s t
    let link := up && !speedBad
    if link = s0.eth.link then .next (s0.setEth { s0.eth with speedBad := speedBad })
    else .next (streamsStart (linkTo s0 link speedBad))

/-- `ARP_ICMP_REQUEST` (R463). -/
def execArpIcmpRequest (icmp : Bool) (s : State) : Host.Outcome State Fault Refusal :=
  if portUp s = false then .next s
  else
    let s1 := received s 1
    .next (if portSends s ∧ (icmp = false ∨ bit (byteAt s.eth.cfg 6) 3) then sent s1 1 else s1)

/-! ## Datagrams received (R466, R468–R470) -/

/-- A multicast address, IPv4 or IPv6. -/
def multicast (v6 : Bool) (a : Nat) : Bool := if v6 then a / 2 ^ 120 == 0xFF else a / 2 ^ 28 % 16 == 14

/-- `REMOTE_ADDR`, in network byte order (R471). -/
def UdpStream.remote (u : UdpStream) : Nat :=
  let b := if u.v6 then (u.cfg.drop 12).take 16 else (u.cfg.drop 12).take 4
  b.foldl (fun v x => 256 * v + x.toNat) 0

/-- A receiving stream accepts this source: any, or `REMOTE_ADDR` alone where it is not zero and unicast (R468).
Log: 124 (DEDUCED). -/
def UdpStream.takesFrom (u : UdpStream) (a : BitVec 128) : Bool :=
  u.remote == 0 || multicast u.v6 u.remote || u.remote == a.toNat

/-- The groups that the port has joined: those of its receiving streams (R463, Table 15-11). -/
def streamGroups (s : State) : List Nat :=
  (s.eth.streams.filter fun e => (decide (e.2.kind = 2) || decide (e.2.kind = 4)) && streamRuns s e.2 && multicast e.2.v6 e.2.remote).map
    fun e => e.2.remote

/-- The port takes a datagram to this address: its own, or that of a group that it has joined (R463, R468). -/
def forPort (s : State) (u : UdpStream) (a : BitVec 128) : Bool :=
  let own := if u.v6 then (s.eth.cfg.drop 16).take 16 else (s.eth.cfg.drop 8).take 4
  own.foldl (fun v x => 256 * v + x.toNat) 0 == a.toNat || (streamGroups s).contains a.toNat

/-- Serial numbers of 32 bits: `a` comes before `b`. -/
def seqBefore (a b : Nat) : Bool := decide (a ≠ b) && decide ((b + 2 ^ 32 - a) % 2 ^ 32 < 2 ^ 31)

/-- A datagram of an audio-in stream is accepted, or is late (R468). -/
def audioIn (s : State) (i : Nat) (u : UdpStream) (b : Bytes) : State :=
  let seq := le b 4 4
  let pcm := (b.drop 24).take (8 * le b 18 2)
  if u.active ∧ seqBefore seq u.seq then s.setEth { s.eth with rxLate := sat 32 (s.eth.rxLate + 1) }
  else
    let now := s.sid.now
    let v : UdpStream := if u.active then u else
      { u with active := true, seq := seq, startAt := now + byteAt u.cfg 10 * 1000 * usU, buffer := [], arrivals := [], line := [], pos := 0 }
    putStream s i { v with
      deadline := deadline s 64, buffer := mput v.buffer seq pcm
      arrivals := (now, pcm.length / 8) :: v.arrivals.filter fun e => decide (now < e.1 + secU) }

/-- A fragment of a frame packet is held (R469). -/
def sfnIn (s : State) (i : Nat) (u : UdpStream) (b : Bytes) : State :=
  let p := mgetD u.frames (le b 4 4) ⟨[], [], false⟩
  let data := (b.drop 24).take (le b 16 2)
  let q : SfnPacket := if bit (byteAt b 2) 0 then { p with audio := data } else { p with fic := data }
  putStream s i { u with frames := mput u.frames (le b 4 4) q }

/-- A whole datagram with the header of Table 15-9 feeds its stream.
Log: 124 (DEDUCED). -/
def streamTakes (s : State) (i : Nat) (b : Bytes) : State :=
  let u := stream s i
  if byteAt b 0 ≠ 1 ∨ b.length < 24 + le b 16 2 ∨ u.kind % 2 = 1 then s
  else if u.kind = 2 ∧ byteAt b 1 = 1 then audioIn s i u b
  else if u.kind = 4 ∧ byteAt b 1 = 3 then sfnIn s i u b
  else s

/-- Two fragments share a byte. -/
def overlaps (a b : Nat × Bytes) : Bool := decide (a.1 < b.1 + b.2.length) && decide (b.1 < a.1 + a.2.length)

/-- The bytes of a datagram whose fragments leave no gap. -/
def Reasm.whole (r : Reasm) : Option Bytes :=
  match r.total with
  | none => none
  | some n =>
    let b := (List.range r.parts.length).foldl (fun acc _ =>
      match r.parts.find? fun e => e.1 == acc.length with
      | some e => acc ++ e.2
      | none => acc) []
    if b.length = n ∧ n = (r.parts.map (·.2.length)).sum then some b else none

/-- A datagram in reassembly is discarded; a discarded fragment of a frame packet counts when the packet falls due (R470). -/
def discard (s : State) (r : Reasm) : State :=
  let s1 := s.setEth { s.eth with reasm := s.eth.reasm.filter fun e => decide (e.stream ≠ r.stream ∨ e.ident ≠ r.ident) }
  let u := stream s1 r.stream
  match r.parts.find? fun e => e.1 == 0 && decide (24 ≤ e.2.length) with
  | some e =>
    if u.kind = 4 then
      let n := le e.2 4 4
      putStream s1 r.stream { u with frames := mput u.frames n { mgetD u.frames n ⟨[], [], false⟩ with bad := true } }
    else s1
  | none => s1

/-- A fragment joins its datagram: 16 datagrams of up to 4096 bytes find place, and none whose fragments overlap (R470). -/
def fragmentIn (s : State) (d : Datagram) : State :=
  let part := (d.offset, d.data)
  let old := s.eth.reasm.find? fun e => decide (e.stream = d.stream) && decide (e.ident = d.ident)
  let r0 := old.getD ⟨d.stream, d.ident, s.sid.now, [], none⟩
  let r := { r0 with parts := r0.parts ++ [part], total := if d.last then some (d.offset + d.data.length) else r0.total }
  if old.isNone ∧ 16 ≤ s.eth.reasm.length then s
  else if 4096 < d.offset + d.data.length ∨ (r0.parts.any (overlaps part)) then discard s r
  else
    let rest := s.eth.reasm.filter fun e => decide (e.stream ≠ d.stream ∨ e.ident ≠ d.ident)
    match r.whole with
    | some b => streamTakes (s.setEth { s.eth with reasm := rest }) d.stream b
    | none => s.setEth { s.eth with reasm := rest ++ [r] }

/-- `UDP_DATAGRAM` (R466–R470): a whole datagram feeds its stream; a fragment waits in reassembly.
Log: 124 (DEDUCED), 125 (DEDUCED). -/
def execUdpDatagram (d : Datagram) (t : Sid) (s : State) : Host.Outcome State Fault Refusal :=
  if portUp s = false ∨ 1522 < d.data.length + 28 then .next s
  else
    let s0 := received (advance s t) 1
    let u := stream s0 d.stream
    if d.stream ≥ 16 ∨ (u.kind ≠ 2 ∧ u.kind ≠ 4) ∨ streamRuns s0 u = false ∨ forPort s0 u d.dest = false ∨
        u.takesFrom d.source = false then .next s0
    else .next (if d.offset = 0 ∧ d.last then streamTakes s0 d.stream d.data else fragmentIn s0 d)

/-- `REASSEMBLY_TIMEOUT` (R470): 20 ms have passed since the first fragment. -/
def execReassemblyTimeout (stream ident : Nat) (t : Sid) (s : State) : Host.Outcome State Fault Refusal :=
  let s0 := advance s t
  match s0.eth.reasm.find? fun e => decide (e.stream = stream) && decide (e.ident = ident) with
  | some r => if r.first + 20000 * usU ≤ s0.sid.now then .next (discard s0 r) else .next s
  | none => .next s

/-! ## Play-out of an audio-in stream (R468) -/

/-- The sender's rate in mHz over the arrivals of the last second. -/
def UdpStream.rate (u : UdpStream) : Nat :=
  match u.arrivals.head?, u.arrivals.getLast? with
  | some a, some b =>
    if b.1 < a.1 then ((u.arrivals.map (·.2)).sum - a.2) * 1000 * secU / (a.1 - b.1) else 48000000
  | _, _ => 48000000

/-- The next datagram's turn comes: its samples, or zeros for one that is missing; whether it was missing. -/
def UdpStream.turn (u : UdpStream) : UdpStream × Bool :=
  match mget u.buffer u.seq with
  | some b =>
    let n := b.length / 8
    ({ u with seq := (u.seq + 1) % 2 ^ 32, buffer := mdel u.buffer u.seq, count := n
              line := u.line ++ (List.range n).map fun k => (wordSample (le b (8 * k) 4), wordSample (le b (8 * k + 4) 4)) }, false)
  | none => ({ u with seq := (u.seq + 1) % 2 ^ 32, line := u.line ++ List.replicate u.count (0, 0) }, true)

/-- The line is filled as far as a tick needs; how many datagrams were missing. -/
def UdpStream.refill : Nat → UdpStream → Nat → UdpStream × Nat
  | 0, u, k => (u, k)
  | n + 1, u, k => if 32 ≤ u.line.length then (u, k) else (u.turn.1).refill n (k + flag u.turn.2 0)

/-- The resampler of an audio-in stream at a position in 1/256 sample.
Log: 195 (DESIGN CHOICE). -/
def lineAt (line : List (Int × Int)) (pos : Nat) : Int × Int :=
  let one (f : Int × Int → Int) : Int :=
    clampTo 24 (convRound (((List.range 8).map fun i =>
      Config.coef 68 (8 * (pos % 256) + i) * f (line.getD (pos / 256 + i) (0, 0))).sum) 20)
  (one (·.1), one (·.2))

/-- An audio-in stream plays 15 samples at a tick: after `RX_DELAY_MS`, in `S_SEQ` order and at the sender's rate. -/
def streamPlays (s : State) (i : Nat) : State :=
  let u := stream s i
  if u.kind ≠ 2 ∨ u.active = false ∨ s.sid.now < u.startAt then putStream s i { u with play := [] }
  else
    let step := u.rate * 256 / 48000000
    let r := u.refill 32 0
    let v := r.1
    let stop := v.pos + 15 * step
    let s1 := putStream s i { v with
      play := (List.range 15).map fun k => lineAt v.line (v.pos + k * step), line := v.line.drop (stop / 256), pos := stop % 256 }
    s1.setEth { s1.eth with rxMissing := sat 32 (s1.eth.rxMissing + r.2) }

/-- The audio-in streams play at a tick. -/
def streamsTick (s : State) : State := (s.eth.streams.map (·.1)).foldl streamPlays s

/-- `AUDIO_IN_STREAM_STOP` (R468, R472): 64 ticks have passed with no datagram. -/
def execAudioInStreamStop (i : Nat) (s : State) : Host.Outcome State Fault Refusal :=
  let u := stream s i
  if u.kind = 2 ∧ u.active ∧ expired s u.deadline then
    .next (raise (putStream s i { u with active := false, buffer := [] }) evHostlink 0x0F00 (0x13 + 256 * i))
  else .next s

/-! ## Datagrams sent (R466, R467, R469, R470) -/

/-- Table 15-9. -/
def streamHeader (i : Nat) (u : UdpStream) (flags seq : Nat) (time : Sid) (len count : Nat) : Bytes :=
  [1] ++ leBytes 1 u.kind ++ leBytes 1 flags ++ leBytes 1 i ++ leBytes 4 seq ++ leBytes 8 (whenOf time).toNat ++ leBytes 2 len ++
    leBytes 2 count ++ zeros 4

/-- A sample pair: two words, left then right, with the sample in [31:8]. -/
def pairBytes (x : Int × Int) : Bytes := 0 :: sleBytes 3 x.1 ++ 0 :: sleBytes 3 x.2

/-- `AUDIO_OUT_DATAGRAM` (R467): `S_FRAMES` samples of the path leave within 0.5 ms of the output time of the last; where that time
is past they are lost.
Log: 124 (DEDUCED). -/
def execAudioOutDatagram (i : Nat) (t : Sid) (s : State) : Host.Outcome State Fault Refusal :=
  let s0 := advance s t
  let u := stream s0 i
  let n := byteAt u.cfg 9
  let first := if u.outNo = 0 then sampleNo s0.sid.now + 1 else u.outNo
  let last := (first + n - 1) * secU / 48000
  if u.kind ≠ 1 ∨ streamRuns s0 u = false then .next s
  else if s0.sid.now < last then .next (putStream s i { u with outNo := first })
  else if last + 500 * usU < s0.sid.now then .next (putStream s0 i { u with gap := true, outNo := first + n })
  else
    let past := (path s0 (byteAt u.cfg 8)).past
    let pcm := (List.range n).flatMap fun k => pairBytes (((past.find? fun x => sampleNo x.time == first + k).map fun x =>
      (x.left, x.right)).getD (0, 0))
    let h := streamHeader i u (flag u.gap 1) u.seq (first * secU / 48000) (8 * n) n
    .next (sent (putStream s0 i { u with seq := (u.seq + 1) % 2 ^ 32, gap := false, outNo := first + n, sent := h ++ pcm })
      (framesOf u (8 * n)))

/-- `SFN_FRAME_PACKET_SEND` (R326, R469, R470): a head encodes a frame and sends both fragments at least `SFN_LEAD_MS` before its
emission.
Log: 68 (DEDUCED). -/
def execSfnFramePacketSend (frame : Nat) (t : Sid) (s : State) : Host.Outcome State Fault Refusal :=
  let s0 := advance s t
  let i := sfnStream s0
  let u := stream s0 i
  let time : Int := frame * frameU + 65536 * les s0.tx.sfn 4 4
  if sfnRole s0 = 1 ∧ txMode s0 = 2 ∧ transmitting s0 ∧ u.kind = 3 ∧ streamRuns s0 u ∧ (mget s0.tx.ahead frame).isNone ∧
      (s0.sid.now : Int) + le s0.tx.sfn 12 2 * 1000 * usU ≤ time then
    let a := frameFic s0 frame
    let b := frameAudio s0
    let h (frag len : Nat) : Bytes := streamHeader i u frag (frame % 2 ^ 32) time.toNat len 0
    let s1 := s0.setTx { s0.tx with ahead := mput s0.tx.ahead frame (a, b) }
    .next (sent (putStream s1 i { u with seq := frame % 2 ^ 32, sent := h 0 a.length ++ a ++ h 1 b.length ++ b })
      (framesOf u a.length + framesOf u b.length))
  else .next s

end Sys2Proof.Machine
end

