-- ==== Sys2Proof/Machine/Flags.lean ====
section
/-! DEFINITION. Machine/Flags.lean: every status word that the spec gives: the status mirror of pages 0x00–0x03 and 0x10 and
what a register read returns (R16, R492). -/

namespace Sys2Proof.Machine

/-- Code of a power state (Table 14-2). No supply reads as Permafrost does: nothing is served. -/
def pwrCode : PwrState → Nat
  | .off | .permafrost => 0
  | .frost => 1
  | .thaw => 2
  | .active => 3
  | .avalanche => 4

/-- `STAT_MAIN` (Table 13-5). -/
def statMain (s : State) : Nat :=
  flag s.pol.safe 0 + flag s.pol.alertN 1 + flag s.pol.faultN 2 + flag s.pol.halted 3 + flag s.pol.resetOnly 4 +
    flag s.pol.refusal 5

/-- `BU_PHASE` of the bring-up step under way (Tables 14-4 and 14-5). -/
def buPhase (step : Nat) : Nat := min 7 (step - 3)

/-- `STAT_BRINGUP` (Table 14-5). -/
def statBringup (s : State) : Nat := buPhase s.pwr.buStep + 16 * s.pwr.buFault

/-- `SHED_STAGE`: the deepest stage with an action in force (Table 14-6). -/
def shedStage (s : State) : Nat := (s.therm.actions.map (·.1)).foldl max 0

/-- `STAT_POWER`, 8 bytes (Table 14-6). -/
def statPower (s : State) : Bytes :=
  leBytes 1 (pwrCode s.pwr.state + flag s.pwr.boost 3 + flag s.pwr.boostSpent 4 + flag s.pwr.brownout 5) ++
  leBytes 1 s.pwr.cause ++
  leBytes 1 (shedStage s + flag (decide (0 < s.therm.thermDem)) 3 + flag (decide (0 < s.therm.powerDem)) 4) ++
  leBytes 1 s.therm.actions.length ++ sleBytes 2 s.pwr.tj ++ leBytes 2 s.pwr.vin

/-- Page 0x00 (Table 17-19), offsets 0x00–0x18. -/
def page0 (s : State) : Bytes :=
  leBytes 2 0x4843 ++ leBytes 2 s.part.id ++ [0xB1, 0x01, 0, 0] ++ leBytes 1 (statMain s) ++ leBytes 1 s.pol.safeCause ++
    [0, 0] ++ leBytes 1 (statBringup s) ++ [0, 0, 0] ++ statPower s ++ leBytes 1 (evtPending s)

/-- `MBX_CTRL` (Table 2-12); the write-only bits read 0. -/
def mbxCtrl (s : State) : Nat :=
  flag s.mbx.submit.isSome 1 + flag (!s.mbx.queue.isEmpty) 2 +
    flag ((s.mbx.queue.head?.map (·.event)).getD false) 3 + flag s.mbx.overflow 5 + 256 * s.mbx.owner.toNat +
    65536 * s.mbx.queue.length

/-- Page 0x01 (Table 2-12), offsets 0x00–0xF3. -/
def page1 (s : State) : Bytes :=
  s.mbx.cmdWin ++ fit 112 ((s.mbx.queue.head?.map (·.bytes)).getD []) ++ leBytes 4 (mbxCtrl s)

/-- `IBR_PENDING`: a request is decided and not complete (R451). -/
def ibrPending (s : State) : Bool :=
  s.i2c.holding || (s.hcfg.attnMode == 1 && s.mbx.owner != 2 && s.mbx.attn && !s.mbx.queue.isEmpty)

/-- Page 0x02 (Table 15-4), offsets 0x00–0x0F. -/
def page2 (s : State) : Bytes :=
  let h := s.hcfg
  leBytes 1 h.filter ++ leBytes 1 h.attnMode ++ leBytes 1 h.ibrHold ++ leBytes 1 h.ibrRepeat ++ leBytes 1 h.ctrlAddr ++
    leBytes 1 (h.ctrlRetry + 16 * h.ctrlSpeed) ++ leBytes 1 (flag h.legEn 0) ++
    leBytes 1 (h.mbxVector + flag h.mbxIrqEn 7) ++ leBytes 1 h.i2cAddr ++
    leBytes 1 (flag h.ctrlFail 0 + flag (ibrPending s) 1) ++ leBytes 2 h.collisions ++ leBytes 4 h.stuck

/-- Page 0x03 (Table 2-15), offsets 0x00–0x23. -/
def page3 (s : State) : Bytes :=
  let v := s.vlog
  leBytes 4 v.total ++ leBytes 1 v.fill ++ leBytes 1 v.newest ++ leBytes 1 v.sel ++ zeros 9 ++
    match mget v.entries v.sel with
    | none => zeros 20
    | some e => leBytes 8 e.addr ++ leBytes 8 e.time.toNat ++ leBytes 1 e.kind ++ leBytes 1 e.link ++ leBytes 2 e.info

/-- Page 0x10 in legacy mode (Table 17-23), offsets 0x00–0xBF. -/
def page10 (s : State) : Bytes :=
  let l := s.leg
  [0] ++ leBytes 1 l.lane ++ leBytes 1 (flag l.cts 0 + flag l.err 1) ++ leBytes 1 l.lErr ++ l.arg ++ l.resp

/-- The byte that a read of a register returns: 0x00 where no register is defined (R64, R442, R443).
Log: 29 (DEDUCED). -/
def readReg (s : State) (page off : Nat) : Byte :=
  if off = 0xFF then BitVec.ofNat 8 s.i2c.page
  else
    let b : Bytes :=
      match page with
      | 0x00 => page0 s
      | 0x01 => page1 s
      | 0x02 => page2 s
      | 0x03 => page3 s
      | 0x10 => if s.hcfg.legEn then page10 s else []
      | _ => []
    b.getD off 0

end Sys2Proof.Machine
end

