-- ==== Sys2Proof/Machine/Polaris.lean ====
section
/-! DEFINITION. Machine/Polaris.lean: functional safety: alert confirmation, ALERT_N, diagnostics, the safe state and its release,
and the occurrences of other chapters that end in a finding (chapter 13; R78, R315, R323, R324). -/

namespace Sys2Proof.Machine

/-! ## Findings (R387–R391) -/

/-- `EV_FAULT` (R404); with the cores halted nothing is posted (Table 13-4, R389). -/
def evFaultOf (s : State) (edetail : Nat) : State := if s.pol.halted then s else raise s evFault 0x0C00 edetail

/-- A finding classed warning. -/
def warning (s : State) (id : Nat) : State :=
  evFaultOf (s.setPol { s.pol with warnings := sat 32 (s.pol.warnings + 1) }) id

/-- Diagnostics whose finding halts the management cores (R389).
Log: 131 (DEDUCED). -/
def haltsCores (id : Nat) : Bool := id == 0x01 || id == 0x04

/-- Entry to the safe state: the exciter is held, FAULT_N asserted and ALERT_N held (R381, R388). `SAFE_CAUSE` keeps the first
dangerous finding (R391). -/
def enterSafe (s : State) (id : Nat) : State :=
  if s.pol.safe then s
  else
    txHold (s.setPol { s.pol with
      safe := true, safeCause := id, safeTime := s.sid.now, faultN := true, held := true, heldLevel := s.pol.alertN,
      cleared := false, reports := [] })

/-- A finding classed dangerous (R387): its event, and the safe state. -/
def dangerous (s : State) (id : Nat) (resetOnly : Bool) : State :=
  let p := s.pol
  let s1 := s.setPol { p with halted := p.halted || haltsCores id, resetOnly := p.resetOnly || resetOnly,
                              resetId := if resetOnly ∧ p.resetOnly = false then id else p.resetId }
  enterSafe (evFaultOf s1 (id + 2 ^ 8 + flag resetOnly 9)) id

/-! ## Settings -/

/-- `POLARIS_SET` is due a self-test by period (R397). -/
def selftestAuto (s : State) : Bool := bit (byteAt s.pol.cfg 12) 1
def stPeriod (s : State) : Sid := byteAt s.pol.cfg 13 * 3600 * secU
/-- Log: 129 (DEDUCED). -/
def alertLatch (s : State) : Bool := bit (byteAt s.pol.cfg 12) 0

/-- Full lane `n` may be designated (R382). -/
def laneFit (s : State) (n : Nat) : Bool :=
  let d := demod s n
  byteAt (afOf s n).cfg 0 == 0 &&
    match (lane s (0x0300 + n)).use with
    | 3 => bit (byteAt (d.fmNext.getD d.fm) 3) 3
    | 4 => bit (byteAt (ofdm s n).cfg 0) 0
    | _ => false

/-- Flake `n` may be designated (R382). -/
def flakeFit (s : State) (n : Nat) : Bool :=
  let f := flake s n
  decide (f.st ≠ .free) && decide (f.cls = .pinned) && bit f.flags 0 && decide (n < byteAt s.flurry.cfg 13)

/-- The flakes that a `POLARIS_SET` payload names. -/
def namedFlakes (b : Bytes) : List Nat := ([0, 1, 2, 3].map fun i => le b (4 + 2 * i) 2).filter fun t => t != 0xFFFF

/-- `POLARIS_SET` (R382, R403). -/
def polarisSetUnit (c : Cmd) (s : State) : Reply :=
  if ((List.range 32).all fun n => !bit (le c.pl 0 4) n || laneFit s n) ∧ ((namedFlakes c.pl).all fun t => flakeFit s (t - 0x0500)) then
    ok (s.setPol { s.pol with cfg := c.pl })
  else badState

def toPolaris (t : Nat) : Bool := t == 0x0C00

/-- Table 13-8. -/
def polarisSetSpec : CmdSpec :=
  { op := 0x0C01, target := toPolaris, len := fun _ => 16,
    fields := fun _ => [⟨4, fun b => (namedFlakes b).all toFlake⟩, wid 12 1 2, rng 13 1 1 168, rsv 14 2],
    hold := fun s _ => s.pol.safe || safetyOn s, unit := polarisSetUnit }

/-- The settings that the safety configuration consists of (Table 13-3, 0x05).
Log: 127 (DESIGN CHOICE). -/
def safetyConfig (s : State) : Bytes :=
  let lanes := ((List.range 32).filter (laneDesignated s)).map fun n =>
    (lane s (0x0300 + n)).cfg ++ (demod s n).fm ++ (ofdm s n).cfg
  let flakes := (safeFlakes s).map fun t =>
    let f := flake s (t - 0x0500)
    leBytes 4 f.freq ++ leBytes 1 f.tap ++ leBytes 1 f.flags
  s.pol.cfg ++ s.tx.brk ++ s.reg.image ++ lanes.flatten ++ flakes.flatten

/-- The `POLARIS_GET` result (Table 13-9).
Log: 127 (DESIGN CHOICE). -/
def polarisResult (s : State) : Bytes :=
  let p := s.pol
  leBytes 1 (if p.safe then 2 else if alertWindow s then 1 else 0) ++ leBytes 1 p.safeCause ++
    leBytes 1 (flag p.alertN 0 + flag p.faultN 1 + flag p.resetOnly 2 + flag p.refusal 3 + flag (safetyBreak s) 4 +
      flag p.held 5) ++
    leBytes 1 (sat 8 p.openAlerts.length) ++ leBytes 4 (Config.safetyCrc (safetyConfig s)).toNat ++ leBytes 4 p.candidates ++
    leBytes 4 p.confirmed ++ leBytes 4 p.mismatches ++ leBytes 4 p.ignored ++ leBytes 4 p.hbMisses ++ leBytes 4 p.warnings ++
    leBytes 8 (if p.safeTime = 0 then 0 else (whenOf p.safeTime).toNat) ++ leBytes 8 (whenOf p.lastSelftest).toNat

def polarisGetSpec : CmdSpec :=
  { op := 0x0C02, target := toPolaris, len := fun _ => 0, largest := fun _ => 48,
    unit := fun _ s => okWith (polarisResult s) s }

/-- `ALERT_CLEAR` (R385).
Log: 129 (DEDUCED). -/
def alertClearUnit (_ : Cmd) (s : State) : Reply :=
  if s.pol.safe = false ∧ alertWindow s then badState
  else ok (s.setPol { s.pol with alertN := false, held := false, cleared := s.pol.cleared || s.pol.safe })

def alertClearSpec : CmdSpec := { op := 0x0C03, target := toPolaris, len := fun _ => 0, unit := alertClearUnit }

/-- Islands whose missed heartbeats are dangerous (Table 13-3, 0x03), numbered as Table 1-3 lists them: 0 wake, 1 management,
2–5 sample, 6 lane fabric, 7 decoder cluster, 8–11 ports, 12 PCIe, 13 SGMII, 14 time, 15 exciter, 16 monitor.
Log: 130 (DEDUCED). -/
def islandDanger (s : State) (i : Nat) : Bool :=
  [1, 6, 7, 14, 15, 16].contains i || (decide (2 ≤ i ∧ i ≤ 5) && antSafe s (i - 2))

/-- The condition of the present finding still stands: a silent island, or a loop that has not locked again.
Log: 130 (DEDUCED). -/
def stillPresent (s : State) : Bool :=
  (s.pol.safeCause == 0x03 && s.pol.missed.any fun e => decide (2 ≤ e.2) && islandDanger s e.1) ||
    (s.pol.safeCause == 0x09 && s.pol.present.any fun l => !loopLocked s l)

/-- `SAFE_RELEASE` (R390, R392): it leaves the safe state, and releases a refusal and the thermal hold. After an
`ALERT_CLEAR` in the safe state ALERT_N returns to its held level (R385).
Log: 129 (DEDUCED), 130 (DEDUCED). -/
def safeReleaseUnit (_ : Cmd) (s : State) : Reply :=
  let p := s.pol
  if p.safe = false ∧ p.refusal = false ∧ p.thermHold = false then badState
  else if p.safe ∧ p.resetOnly then .deny stBadState p.resetId
  else if p.safe ∧ stillPresent s then .deny stBadState p.safeCause
  else
    let back := p.safe && p.cleared
    let s1 := s.setPol { p with safe := false, refusal := false, thermHold := false, faultN := p.selfFail, present := [],
                                alertN := if back then p.heldLevel else p.alertN, held := p.held || back, cleared := false }
    ok (evFaultOf (if p.safe then txRelease s1 else s1) (p.safeCause + 2 ^ 11))

def safeReleaseSpec : CmdSpec := { op := 0x0C04, target := toPolaris, len := fun _ => 0, unit := safeReleaseUnit }

/-- `SELFTEST_RUN` (R397, R403): the run ends with `PERIODIC_SELFTEST`. -/
def selftestRunSpec : CmdSpec :=
  { op := 0x0C05, target := toPolaris, len := fun _ => 4, fields := fun _ => [wid 0 1 1, rsv 1 3], unit := fun _ s => .busy s }

def execPolarisSet (a : Args) (s : State) : Host.Outcome State Fault Refusal := .next (submit polarisSetSpec a s)
def execPolarisGet (a : Args) (s : State) : Host.Outcome State Fault Refusal := .next (submit polarisGetSpec a s)
def execAlertClear (a : Args) (s : State) : Host.Outcome State Fault Refusal := .next (submit alertClearSpec a s)
def execSafeRelease (a : Args) (s : State) : Host.Outcome State Fault Refusal := .next (submit safeReleaseSpec a s)
def execSelftestRun (a : Args) (s : State) : Host.Outcome State Fault Refusal := .next (submit selftestRunSpec a s)

/-! ## Alerts (R382–R385) -/

/-- A designated source by `TARGET`. -/
def designated (s : State) (src : Nat) : Bool :=
  (toFull src && laneDesignated s (src - 0x0300)) || (safeFlakes s).contains src

/-- A DAB source. -/
def dabSource (s : State) (src : Nat) : Bool := toFull src && (lane s src).use == 4

/-- A report that both paths have made is confirmed (R383, R384).
Log: 128 (DEDUCED). -/
def confirm (s : State) (src : Nat) (start : Bool) (sub : Nat) : State :=
  let p := s.pol
  let s1 := raise (s.setPol { p with confirmed := sat 32 (p.confirmed + 1) }) evAlert src
    (flag start 0 + flag (dabSource s src) 1 + 256 * sub)
  if start then
    s1.setPol { s1.pol with alertN := true, held := false,
                            openAlerts := p.openAlerts.filter (fun e => decide (e ≠ (src, sub))) ++ [(src, sub)] }
  else
    let left := p.openAlerts.filter fun e => decide (e ≠ (src, sub))
    let last := left.isEmpty && !p.openAlerts.isEmpty && !alertLatch s && !p.held
    s1.setPol { s1.pol with openAlerts := left, alertN := p.alertN && !last }

/-- Finding 0x02: the paths differ (R383).
Log: 128 (DEDUCED). -/
def mismatch (s : State) : State :=
  dangerous (s.setPol { s.pol with mismatches := sat 32 (s.pol.mismatches + 1) }) 0x02 false

/-- A report of one path meets the oldest of the other for its source, or waits 160 ticks for one (R383).
Log: 128 (DEDUCED). -/
def meet (s : State) (primary : Bool) (src : Nat) (start : Bool) (sub : Nat) : State :=
  match s.pol.reports.find? fun r => r.source == src && r.primary != primary with
  | some r =>
    let s1 := s.setPol { s.pol with reports := s.pol.reports.erase r }
    if r.start = start ∧ r.subch = sub then confirm s1 src start sub else mismatch s1
  | none =>
    s.setPol { s.pol with reports := s.pol.reports ++
      [{ primary := primary, source := src, start := start, subch := sub, deadline := deadline s 160 }] }

/-- A report reaches Polaris. In the safe state a candidate, the start of an alert, is counted and not confirmed (R385).
Log: 128 (DEDUCED). -/
def report (s : State) (primary : Bool) (source : BitVec 16) (start : Bool) (subch : BitVec 8) : State :=
  let src := source.toNat
  let cand := primary && start
  if s.pol.halted ∨ (toFull src = false ∧ toFlake src = false) then s
  else if replayed s src then
    if cand then s.setFirn { s.firn with rpAlerts := sat 32 (s.firn.rpAlerts + 1) } else s
  else if designated s src = false then
    if cand then s.setPol { s.pol with ignored := sat 32 (s.pol.ignored + 1) } else s
  else
    let s1 := if cand then s.setPol { s.pol with candidates := sat 32 (s.pol.candidates + 1) } else s
    if s.pol.safe && start then s1 else meet s1 primary src start (if dabSource s src then subch.toNat else 0xFF)

/-- `ALERT_PRIMARY_REPORT` (R383). -/
def execAlertPrimaryReport (source : BitVec 16) (start : Bool) (subch : BitVec 8) (t : Sid) (s : State) :
    Host.Outcome State Fault Refusal := .next (report (advance s t) true source start subch)

/-- `ALERT_CHECK_REPORT` (R383). -/
def execAlertCheckReport (source : BitVec 16) (start : Bool) (subch : BitVec 8) (t : Sid) (s : State) :
    Host.Outcome State Fault Refusal := .next (report (advance s t) false source start subch)

/-- `ALERT_MISMATCH_TIMEOUT` (R383): a report has waited 160 ticks for the other path. -/
def execAlertMismatchTimeout (source : BitVec 16) (t : Sid) (s : State) : Host.Outcome State Fault Refusal :=
  let s0 := advance s t
  match s0.pol.reports.find? fun r => r.source == source.toNat && expired s0 r.deadline with
  | some r => .next (mismatch (s0.setPol { s0.pol with reports := s0.pol.reports.erase r }))
  | none => .next s

/-! ## Diagnostics (Table 13-3) -/

/-- Diagnostics run once the wake island is past bring-up's self-test, and not in Permafrost. -/
def diagnosed (s : State) : Bool := decide (s.pwr.state ≠ .off) && decide (s.pwr.state ≠ .permafrost)

/-- Islands that are clocked in Frost (Table 14-2).
Log: 134 (DEDUCED). -/
def islandRuns (s : State) (i : Nat) : Bool := decide (s.pwr.state ≠ .frost) || i == 1 || i == 12 || i == 14

/-- `HEARTBEAT_CHECK`: an island writes its counter, or misses; the second miss in a row is a finding. The wake island and
the port islands write none.
Log: 134 (DEDUCED). -/
def execHeartbeatCheck (island : Nat) (written : Bool) (t : Sid) (s : State) : Host.Outcome State Fault Refusal :=
  if diagnosed s = false ∨ island = 0 ∨ (8 ≤ island ∧ island ≤ 11) ∨ 16 < island ∨ islandRuns s island = false then .next s
  else
    let s0 := advance s t
    if written then .next (s0.setPol { s0.pol with missed := mdel s0.pol.missed island })
    else
      let n := mgetD s0.pol.missed island 0 + 1
      let s1 := s0.setPol { s0.pol with hbMisses := sat 32 (s0.pol.hbMisses + 1), missed := mput s0.pol.missed island n }
      if n ≠ 2 then .next s1
      else .next (if islandDanger s1 island then dangerous s1 0x03 false else warning s1 0x03)

/-- `WATCHDOG_EXPIRY` (0x04): the cores are halted (R389). -/
def execWatchdogExpiry (t : Sid) (s : State) : Host.Outcome State Fault Refusal :=
  .next (if diagnosed s then dangerous (advance s t) 0x04 true else s)

/-- `LOCKSTEP_MISMATCH` (0x01): the cores are halted (R389). -/
def execLockstepMismatch (t : Sid) (s : State) : Host.Outcome State Fault Refusal :=
  .next (if diagnosed s then dangerous (advance s t) 0x01 true else s)

/-- `CONFIG_CRC_CHECK` (0x05): the recomputed CRC differs from the reference. -/
def execConfigCrcCheck (crc : BitVec 32) (t : Sid) (s : State) : Host.Outcome State Fault Refusal :=
  .next (if diagnosed s ∧ crc ≠ Config.safetyCrc (safetyConfig s) then dangerous (advance s t) 0x05 true else s)

/-- `ECC_ERROR` (R28, 0x06): regions by their class in R27: 1 Polaris and alert buffers, 2 deinterleavers and delay lines,
3 firmware and tables, 4 Firn, 5 time-shift.
Log: 135 (PRESUMED). -/
def execEccError (region : Nat) (correctable : Bool) (t : Sid) (s : State) : Host.Outcome State Fault Refusal :=
  if diagnosed s = false ∨ region = 0 ∨ 5 < region then .next s
  else
    let s0 := advance s t
    if correctable then .next (s0.setPol { s0.pol with eccCount := s0.pol.eccCount + 1 })
    else if region = 1 ∨ region = 3 then .next (dangerous s0 0x06 true)
    else .next (warning s0 0x06)

/-- `RAIL_OUT_OF_RANGE` (0x0A): rails 0 CORE, 1 RF, 2 ANA, 3 DRAM.
Log: 135 (PRESUMED). -/
def execRailOutOfRange (rail : Nat) (t : Sid) (s : State) : Host.Outcome State Fault Refusal :=
  .next (if diagnosed s ∧ rail < 4 then dangerous (advance s t) 0x0A false else s)

/-- The level that the device drives: balls 0 ALERT_N, 1 FAULT_N, 2 PA_EN.
Log: 135 (PRESUMED). -/
def driven (s : State) (ball : Nat) : Bool :=
  match ball with
  | 0 => s.pol.alertN
  | 1 => s.pol.faultN
  | _ => s.tx.paEn

/-- `BALL_READBACK_FAULT` (0x0B): asserted but read deasserted is dangerous, released but read asserted a warning.
Log: 135 (PRESUMED). -/
def execBallReadbackFault (ball : Nat) (readAsserted : Bool) (t : Sid) (s : State) : Host.Outcome State Fault Refusal :=
  if diagnosed s = false ∨ 2 < ball ∨ driven s ball = readAsserted then .next s
  else .next (if readAsserted then warning (advance s t) 0x0B else dangerous (advance s t) 0x0B false)

/-- `LOOP_UNLOCK` (R78, 0x09): a locked loop unlocks while the reference is qualified. Loop 4 is reset-only; loops 1 to 3 are
dangerous during a safety break-in alone. -/
def execLoopUnlock (loop : Nat) (t : Sid) (s : State) : Host.Outcome State Fault Refusal :=
  if 5 ≤ loop ∨ s.clk.state ≠ .locked ∨ loopLocked s loop = false then .next s
  else
    let s0 := advance s t
    let s1 := lockAttempt (s0.setClk { s0.clk with lock := s0.clk.lock &&& ~~~(1#5 <<< loop) }) loop
    let s2 := if loop = 1 ∧ transmitting s1 = false then s1.setTx { s1.tx with locked := false } else s1
    if loop = 0 ∨ loop = 4 ∨ safetyBreak s2 then
      .next (dangerous (s2.setPol { s2.pol with present := loop :: s2.pol.present }) 0x09 (loop == 4))
    else .next (warning s2 0x09)

/-- The exciter stands where the safe-state path can be tested (R397). -/
def pathTestable (s : State) : Bool := decide (s.tx.st = .off) || decide (s.tx.st = .tuning) || decide (s.tx.st = .ready)

/-- The safe-state path is tested or skipped; the seventh skip in a row is a warning (R397).
Log: 132 (DEDUCED). -/
def testPath (s : State) : State :=
  if pathTestable s then s.setPol { s.pol with skips := 0 }
  else
    let s1 := s.setPol { s.pol with skips := s.pol.skips + 1 }
    if s1.pol.skips % 7 = 0 then warning s1 0x0C else s1

/-- A self-test run is due by its period, or for a skipped path test (R397).
Log: 132 (DEDUCED). -/
def selftestDue (s : State) : Bool :=
  selftestAuto s && (decide (s.pol.lastSelftest + stPeriod s ≤ s.sid.now) || (decide (0 < s.pol.skips) && pathTestable s))

/-- The end of a run: a pass is recorded, a failure is finding 0x0C. -/
def selftestEnds (s : State) (pass : Bool) : State :=
  if pass then s.setPol { s.pol with lastSelftest := s.sid.now }
  else dangerous (s.setPol { s.pol with selfFail := true }) 0x0C true

/-- `PERIODIC_SELFTEST` (R397, R403): a run ends: the commanded one that is under way, or the periodic one that is due.
Log: 132 (DEDUCED). -/
def execPeriodicSelftest (pass : Bool) (t : Sid) (s : State) : Host.Outcome State Fault Refusal :=
  let s0 := advance s t
  let mark := s0.ev.nextId
  match executing s0 0x0C05 0x0C00 with
  | some f =>
    let s1 := if bit (byteAt f.cmd.pl 0) 0 ∨ 0 < s0.pol.skips then testPath s0 else s0
    .next (complete (selftestEnds s1 pass) f (if pass then stOk else stSafetyHold) (if pass then 0 else 0x0C) [] s0.sid.now mark)
  | none => .next (if diagnosed s0 ∧ s0.pwr.state ≠ .thaw ∧ selftestDue s0 then selftestEnds (testPath s0) pass else s)

/-! ## The exciter (R315, R323, R324, R386) -/

/-- `SYNTH_WINDOW_EXPIRY` (R315, R386): the pending start ends; that of a safety break-in is finding 0x08. -/
def execSynthWindowExpiry (s : State) : Host.Outcome State Fault Refusal :=
  if synthExpired s = false then .next s
  else
    let s1 := failPending s stSynthTimeout
    .next (if s.tx.brkOwn ∧ safetyBreak s then dangerous s1 0x08 false else s1)

/-- `BREAKIN_DUE_CHECK` (R386): from 5 ms after the due time of a safety break-in on, its signalling was not decoded from TXMON in a
group or frame. A muted exciter suspends the check.
Log: 165 (DEDUCED). -/
def execBreakinDueCheck (seen : Bool) (t : Sid) (s : State) : Host.Outcome State Fault Refusal :=
  let s1 := advance s t
  let due : Bool := match s.tx.dueAt with
    | some d => decide (d + 5000 * usU ≤ s1.sid.now)
    | none => false
  .next (if safetyBreak s ∧ s.tx.st = .on ∧ due ∧ seen = false then dangerous s1 0x08 false else s)

/-- P_TXOUT in 0.01 dBm from the level at TXMON (R323). -/
def pTxout (s : State) (m : MonitorIn) : Int := m.pTxmon + 10 * le s.reg.image 10 2 - 10 * les s.reg.image 8 2

/-- The breaches of Table 10-5; levels in 0.01 dB.
Log: 133 (DEDUCED). -/
def monBreach (s : State) (e : Bytes) (m : MonitorIn) : Bool :=
  decide (100 * eFtol e < m.offset.natAbs) || decide (10 * (levelInUse s + ePtol e) < pTxout s m) ||
    decide (10 * (ePmax e + ePtol e) < pTxout s m) || (eMode e == 1 && decide (eDev e < m.devMer))

/-- The faults of Table 10-5; `content` counts the poor non-quiet windows in a row. -/
def monFault (s : State) (e : Bytes) (m : MonitorIn) (content : Nat) : Bool :=
  decide (pTxout s m < 10 * (levelInUse s - ePtol e)) || decide (pTxout s m < 10 * levelInUse s - 2000) ||
    (eMode e == 1 && decide (3 ≤ content)) || (eMode e == 2 && decide (0 < m.fibDiffers)) || m.clipping

/-- The `TX_MON_GET` result (R332). -/
def monRecord (s : State) (m : MonitorIn) (fibMiss : Nat) (breach fault : Bool) (t : Sid) : Bytes :=
  sleBytes 4 m.offset ++ sleBytes 2 (pTxout s m) ++ sleBytes 2 m.adjacent ++ leBytes 2 m.devMer ++ leBytes 2 m.content ++
    leBytes 4 fibMiss ++ leBytes 1 (flag breach 0 + flag fault 1) ++ zeros 7 ++ leBytes 8 (whenOf t).toNat

/-- What a window's checks lead to: a breach in 2 windows running mutes and is dangerous; a fault is reported once per
episode, and is dangerous in the third window running of a safety break-in (R324, Table 13-3).
Log: 133 (DEDUCED). -/
def monReact (s : State) (breach fault told : Bool) : State :=
  let s1 := if fault ∧ breach = false ∧ told = false then warning (evTxCause s 9) 0x07 else s
  if s1.mon.breaches = 2 then dangerous (muteReady s1 8) 0x07 false
  else if s1.mon.faults = 3 then dangerous s1 0x07 false
  else s1

/-- `MONITOR_WINDOW` (R323, R324): a window of 32 ticks ends. No check is made outside TX_ON or of a window that overlaps
a ramp; such a window breaks every run.
Log: 133 (DEDUCED). -/
def execMonitorWindow (m : MonitorIn) (t : Sid) (s : State) : Host.Outcome State Fault Refusal :=
  let s0 := advance s t
  match curEntry s0 with
  | none => .next s
  | some e =>
    if windowDone s 32 = false then .next s
    else if s0.tx.st ≠ .on ∨ s0.sid.now - 32 * tickU < s0.tx.ramp.start + s0.tx.ramp.len then
      .next (s0.setMon { s0.mon with breaches := 0, content := 0, told := false, faults := 0 })
    else
      let q := s0.mon
      let content := if eMode e ≠ 1 then 0 else if m.quiet then q.content else if m.content < 9000 then q.content + 1 else 0
      let breach := monBreach s0 e m
      let fault := monFault s0 e m content
      let miss := if eMode e = 2 then sat 32 (q.fibMiss + m.fibDiffers) else q.fibMiss
      let s1 := s0.setMon { q with
        last := monRecord s0 m miss breach fault s0.sid.now, breaches := if breach then q.breaches + 1 else 0, content := content,
        told := fault && (!breach || q.told), faults := if fault ∧ safetyBreak s0 then q.faults + 1 else 0, fibMiss := miss }
      .next (monReact s1 breach fault q.told)

end Sys2Proof.Machine
end

