-- ==== Sys2Proof/Machine/Power.lean ====
section
/-! DEFINITION. Machine/Power.lean: power states, reset, bring-up, brown-out, the shed ladder, boost hours and firmware update
(chapter 14). -/

namespace Sys2Proof.Machine

/-! ## Transitions (Table 14-3) -/

def putPwr (s : State) (p : Power) : State := s.setPwr p

/-- Survey lanes that the larger budget of Avalanche lets run resume (R410). -/
def surveysResume (s : State) : State :=
  if rfHeld s then s else ((setLaneList s).filter toSurvey).foldl resumeFits s

/-- Survey lanes that a budget runs, lowest number first (R410). -/
def surveysFit (s : State) (budget : Nat) : List Nat → Nat → List Nat
  | [], _ => []
  | t :: ts, used =>
    let r := (lane s t).outRate
    if used + r ≤ budget then t :: surveysFit s budget ts (used + r) else []

/-- Survey lanes pause from the highest number down until the rest fit the Active budget (R410).
Log: 147 (DEDUCED). -/
def surveysPause (s : State) : State :=
  let run := (setLaneList s).filter fun t => toSurvey t && (lane s t).live
  let keep := surveysFit s 100000000 run 0
  let s1 := (run.filter fun t => !keep.contains t).foldl pauseLane s
  finishTunes s1 s1.sid.now

/-- Avalanche is reached; `boost` with CORE at 0.80 V (R409). -/
def reachAvalanche (s : State) (boost : Bool) : State :=
  surveysResume (s.setPwr { s.pwr with state := .avalanche, trans := .none, boost := boost })

/-- Active turns to Avalanche, or is refused: the status and `DETAIL` that a `PWR_STATE_SET` then completes with
(R409, R422, R433). -/
def tryAvalanche (s : State) : Option (Nat × Nat) × State :=
  if s.pwr.brownout then (some (stPowerLimit, 0), s)
  else
    match shedRefusal s 3 with
    | some st => (some (st, 0), s)
    | none =>
      if s.pwr.boostSpent then (some (stOk, 1), reachAvalanche s false)
      else (none, s.setPwr { s.pwr with trans := .toAvalanche })

/-- The device turns to Avalanche by itself where that is `REQ_STATE` (R408, R422, R433).
Log: 138 (DEDUCED). -/
def resumeAvalanche (s : State) : State :=
  if s.pwr.reqAval ∧ s.pwr.state = .active ∧ s.pwr.trans = .none then (tryAvalanche s).2 else s

/-- The `PWR_STATE_SET` that the transition was made for completes (R530). -/
def finishOwner (s : State) (status detail : Nat) : State :=
  match s.pwr.owner with
  | none => s
  | some o =>
    let s1 := s.setPwr { s.pwr with owner := none }
    match byTag s1 o.1 o.2 with
    | some f => complete s1 f status detail [] s1.sid.now s1.ev.nextId
    | none => s1

/-- Avalanche is left, or its entry cut short with `status` (R409). -/
def leaveAvalanche (s : State) (status : Nat) : State :=
  if s.pwr.trans = .toAvalanche then finishOwner (s.setPwr { s.pwr with trans := .none }) status 0
  else if s.pwr.state = .avalanche ∧ s.pwr.trans = .none then s.setPwr { s.pwr with trans := .fromAvalanche }
  else s

/-- A wake source, or a due release, returns the device from Frost (R411, R413). -/
def leaveFrost (s : State) : State :=
  if s.pwr.state = .frost ∧ s.pwr.trans = .none then s.setPwr { s.pwr with trans := .fromFrost } else s

/-! ## `PWR_STATE_SET` (R412, R436, R530) -/

def cmdKey (c : Cmd) : Origin × Nat := (c.a.origin, c.a.tag.toNat)

/-- What keeps the device out of Frost and Permafrost: the `DETAIL` (R412). -/
def lowDenied (s : State) : Option Nat :=
  if s.tx.st = .pending ∨ s.tx.st = .on ∨ s.tx.st = .muted then some 0x0009
  else if anyDesignated s then some 0x000C
  else if s.fw.st ≠ .idle ∨ s.reg.commit then some 0x000F
  else none

/-- The safety path holds a request for Frost or Permafrost (R412). -/
def holdPwr (s : State) (c : Cmd) : Bool := decide (byteAt c.pl 0 ≤ 1) && (s.pol.safe || safetyOn s)

/-- The wake configuration that a request for Frost or Permafrost brings. -/
def withWake (s : State) (c : Cmd) : State := s.setPwr { s.pwr with wakeMask := byteAt c.pl 1, wakeS := le c.pl 4 4 }

/-- A request for Active or Avalanche in a state that no transition holds. -/
def pwrUp (c : Cmd) (aval : Bool) (s0 : State) : Reply :=
  let s := s0.setPwr { s0.pwr with reqAval := aval }
  match s.pwr.state with
  | .frost => .busy (s.setPwr { s.pwr with trans := .fromFrost, owner := some (cmdKey c) })
  | .avalanche =>
    if aval then ok s else .busy (s.setPwr { s.pwr with trans := .fromAvalanche, owner := some (cmdKey c) })
  | _ =>
    if aval then
      match tryAvalanche s with
      | (some e, s1) => .done e.1 e.2 [] s1
      | (none, s1) => .busy (s1.setPwr { s1.pwr with owner := some (cmdKey c) })
    else ok s

/-- A request in a state that no transition holds. -/
def pwrRequest (c : Cmd) (s : State) : Reply :=
  match byteAt c.pl 0 with
  | 3 => pwrUp c false s
  | 4 => pwrUp c true s
  | 1 =>
    if s.pwr.state = .frost then ok s
    else
      match lowDenied s with
      | some d => .deny stBadState d
      | none => .busy ((withWake s c).setPwr { (withWake s c).pwr with trans := .toFrost, owner := some (cmdKey c) })
  | _ =>
    match lowDenied s with
    | some d => .deny stBadState d
    | none => ok ((withWake s c).setPwr { (withWake s c).pwr with trans := .toPermafrost })

/-- `PWR_STATE_SET`: during a transition it is held (R530).
Log: 136 (DEDUCED). -/
def pwrStateUnit (c : Cmd) (s : State) : Reply :=
  if s.pwr.trans = .none then pwrRequest c s
  else .busy (s.setPwr { s.pwr with waiting := s.pwr.waiting ++ [cmdKey c] })

/-- The payload asks for Frost or Permafrost. -/
def asksLow (b : Bytes) : Bool := decide (byteAt b 0 ≤ 1)

def pwrStateSetSpec : CmdSpec :=
  { op := 0x0005, target := toSystem, len := fun _ => 12,
    fields := fun _ => [fld 0 1 fun v => decide (v ≤ 4) && v != 2, whenFld asksLow (wid 1 1 4),
      whenFld (fun b => byteAt b 0 == 0) (rng 1 1 1 15), rsv 2 2,
      whenFld (fun b => asksLow b && bit (byteAt b 1) 3) (fld 4 4 (· != 0)), rsv 8 4],
    hold := holdPwr, unit := pwrStateUnit }

/-- Requests held behind a transition are applied to the state reached, in their order, until one starts another.
Log: 136 (DEDUCED). -/
def pwrNext : Nat → State → State
  | 0, s => s
  | k + 1, s =>
    match s.pwr.waiting with
    | [] => s
    | o :: os =>
      if s.pwr.trans ≠ .none then s
      else
        let s1 := s.setPwr { s.pwr with waiting := os }
        let mark := s1.ev.nextId
        match byTag s1 o.1 o.2 with
        | none => pwrNext k s1
        | some f =>
          match (if holdPwr s1 f.cmd then Reply.deny stSafetyHold 0 else pwrRequest f.cmd s1) with
          | .deny st d => pwrNext k (complete s1 f st d [] s1.sid.now mark)
          | .done st d r s2 => pwrNext k (complete s2 f st d r s2.sid.now mark)
          | .later _ _ _ s2 => s2
          | .busy s2 => s2

/-- A transition is complete: its request completes, and the held ones follow.
Log: 136 (DEDUCED). -/
def settlePower (s : State) (status detail : Nat) : State :=
  let s1 := finishOwner s status detail
  pwrNext (s1.pwr.waiting.length + 1) s1

/-! ## Records and limits -/

/-- The `PWR_GET` result (Table 14-14). -/
def pwrResult (s : State) : Bytes :=
  let p := s.pwr
  leBytes 1 (pwrCode p.state) ++ leBytes 1 (if p.reqAval then 4 else 3) ++ leBytes 1 (shedStage s) ++
    leBytes 1 s.therm.actions.length ++ sleBytes 2 p.tj ++ sleBytes 2 p.tjMax ++ leBytes 2 p.vin ++ leBytes 2 p.iin ++
    leBytes 2 p.boostUsed ++ leBytes 1 p.ilim ++ [0] ++ leBytes 2 p.boMin ++ [0, 0] ++ leBytes 4 p.boDur ++
    leBytes 4 p.boCount ++ leBytes 8 (whenOf p.boTime).toNat ++ leBytes 4 s.therm.thermSheds ++
    leBytes 4 s.therm.powerSheds ++ zeros 4

def pwrGetSpec : CmdSpec :=
  { op := 0x0006, target := toSystem, len := fun _ => 0, largest := fun _ => 48, unit := fun _ s => okWith (pwrResult s) s }

def pwrLimitSetSpec : CmdSpec :=
  { op := 0x0007, target := toSystem, len := fun _ => 4, fields := fun _ => [rng 0 1 10 40, rsv 1 3],
    unit := fun c s => ok (s.setPwr { s.pwr with ilim := byteAt c.pl 0 }) }

/-! ## Firmware update (R424–R426, R436) -/

/-- The record in force: the valid one with the highest generation (R424). -/
def markerInForce (f : Firmware) : Option Marker :=
  match f.m0.valid, f.m1.valid with
  | true, true => some (if f.m0.gen < f.m1.gen then f.m1 else f.m0)
  | true, false => some f.m0
  | false, true => some f.m1
  | false, false => none

/-- The other valid record. -/
def otherMarker (f : Firmware) : Option Marker :=
  if f.m0.valid && f.m1.valid then some (if f.m0.gen < f.m1.gen then f.m0 else f.m1) else none

def fwCode : FwState → Nat
  | .idle => 0
  | .erasing => 1
  | .writing => 2
  | .verifying => 3
  | .marking => 4

/-- The slot not in use. -/
def otherSlot (f : Firmware) : Nat := if f.active = 0 then 1 else 0

/-- The build identifier of the slot not in use becomes `b`. -/
def Firmware.setBuild (f : Firmware) (b : BitVec 32) : Firmware :=
  if otherSlot f = 0 then { f with buildA := b } else { f with buildB := b }

/-- `FW_BEGIN`: the slot not in use is erased, and holds no valid image. -/
def fwBeginUnit (c : Cmd) (s : State) : Reply :=
  if s.fw.st ≠ .idle then badState
  else
    .busy (s.setFw { s.fw.setBuild 0 with
      st := .erasing, bytes := le c.pl 0 4, crc := BitVec.ofNat 32 (le c.pl 4 4), written := 0, image := [], activate := false,
      suspended := s.pwr.brownout })

def fwBeginSpec : CmdSpec :=
  { op := 0x0F01, target := toSystem, len := fun _ => 8,
    fields := fun _ => [fld 0 4 fun v => v % 256 == 0 && decide (256 ≤ v ∧ v ≤ 8388608)], unit := fwBeginUnit }

/-- `FW_WRITE`: data at the offset of the bytes written so far, within `FW_BYTES`.
Log: 145 (DEDUCED). -/
def fwWriteUnit (c : Cmd) (s : State) : Reply :=
  if s.fw.st ≠ .writing then badState
  else if le c.pl 0 4 ≠ s.fw.written then badParam 0
  else if s.fw.bytes < s.fw.written + (c.len - 4) then badParam 4
  else .busy s

def fwWriteSpec : CmdSpec := { op := 0x0F02, target := toSystem, len := fun b => max 4 b.length, unit := fwWriteUnit }

/-- `FW_FINISH`: the slot is read back. -/
def fwFinishUnit (c : Cmd) (s : State) : Reply :=
  if s.fw.st ≠ .writing then badState
  else .busy (s.setFw { s.fw with st := .verifying, activate := bit (byteAt c.pl 0) 0 })

def fwFinishSpec : CmdSpec :=
  { op := 0x0F03, target := toSystem, len := fun _ => 4, fields := fun _ => [wid 0 1 1, rsv 1 3], unit := fwFinishUnit }

/-- The `FW_STATUS` result (Table 14-15). -/
def fwResult (f : Firmware) : Bytes :=
  leBytes 1 f.active ++ leBytes 1 (fwCode f.st) ++ leBytes 1 f.last ++ leBytes 1 f.lastStep ++
    leBytes 4 (((markerInForce f).map fun m => m.gen.toNat).getD 0) ++ leBytes 4 f.buildA.toNat ++ leBytes 4 f.buildB.toNat ++
    leBytes 4 f.written ++ leBytes 1 (flag f.fallback 0 + flag f.suspended 1) ++ zeros 3 ++ leBytes 8 (whenOf f.lastTime).toNat

def fwStatusSpec : CmdSpec :=
  { op := 0x0F04, target := toSystem, len := fun _ => 0, largest := fun _ => 32, unit := fun _ s => okWith (fwResult s.fw) s }

/-- `DEV_RESET`: the device resets at the next tick boundary. -/
def devResetSpec : CmdSpec :=
  { op := 0x0F05, target := toSystem, len := fun _ => 4, fields := fun _ => [fld 0 1 (· == 1), rsv 1 3],
    unit := fun _ s => ok (s.setPwr { s.pwr with resetPend := true }) }

def execPwrStateSet (a : Args) (s : State) : Host.Outcome State Fault Refusal := .next (submit pwrStateSetSpec a s)
def execPwrGet (a : Args) (s : State) : Host.Outcome State Fault Refusal := .next (submit pwrGetSpec a s)
def execPwrLimitSet (a : Args) (s : State) : Host.Outcome State Fault Refusal := .next (submit pwrLimitSetSpec a s)
def execFwBegin (a : Args) (s : State) : Host.Outcome State Fault Refusal := .next (submit fwBeginSpec a s)
def execFwWrite (a : Args) (s : State) : Host.Outcome State Fault Refusal := .next (submit fwWriteSpec a s)
def execFwFinish (a : Args) (s : State) : Host.Outcome State Fault Refusal := .next (submit fwFinishSpec a s)
def execFwStatus (a : Args) (s : State) : Host.Outcome State Fault Refusal := .next (submit fwStatusSpec a s)
def execDevReset (a : Args) (s : State) : Host.Outcome State Fault Refusal := .next (submit devResetSpec a s)

/-- `FW_ERASE_COMPLETE` (Table 14-11); a suspended erase does not end (R421). -/
def execFwEraseComplete (s : State) : Host.Outcome State Fault Refusal :=
  if s.fw.st = .erasing ∧ s.fw.suspended = false then
    .next (finishOp (s.setFw { s.fw with st := .writing }) 0x0F01 0x0000 stOk 0 [] s.ev.nextId)
  else .next s

/-- `FW_PROGRAM_COMPLETE`: the pages of a `FW_WRITE` are programmed. A warning lets the page in progress end and starts no
other (R421).
Log: 145 (DEDUCED). -/
def execFwProgramComplete (s : State) : Host.Outcome State Fault Refusal :=
  match executing s 0x0F02 0x0000 with
  | none => .next s
  | some f =>
    let n := f.cmd.len - 4
    if s.fw.st ≠ .writing ∨ (s.fw.suspended ∧ 256 < n) then .next s
    else .next (complete (s.setFw { s.fw with written := s.fw.written + n, image := s.fw.image ++ f.cmd.pl.drop 4 }) f stOk 0 [] s.sid.now s.ev.nextId)

/-- `DETAIL` of a verify failure: incomplete image, CRC mismatch, incompatible header (R436).
Log: 145 (DEDUCED). -/
def verifyFault (f : Firmware) (headerOk : Bool) : Option Nat :=
  if f.written < f.bytes then some 3 else if crc32 f.image ≠ f.crc then some 1 else if headerOk = false then some 2 else none

/-- `FW_VERIFY_COMPLETE` (Table 14-11). -/
def execFwVerifyComplete (headerOk : Bool) (build : BitVec 32) (s : State) :
    Host.Outcome State Fault Refusal :=
  if s.fw.st ≠ .verifying then .next s
  else
    let mark := s.ev.nextId
    match verifyFault s.fw headerOk with
    | some d =>
      .next (finishOp (s.setFw { s.fw with st := .idle, last := 3, lastTime := s.sid.now }) 0x0F03 0x0000 stBadState d [] mark)
    | none =>
      let f := s.fw.setBuild build
      if f.activate then .next (s.setFw { f with st := .marking, newBuild := build, suspended := s.pwr.brownout })
      else .next (finishOp (s.setFw { f with st := .idle, last := 1, lastTime := s.sid.now }) 0x0F03 0x0000 stOk 0 [] mark)

/-- The new record goes to the sector that does not hold the record in force (R424). -/
def Firmware.mark (f : Firmware) : Firmware :=
  let m : Marker := { gen := ((markerInForce f).map (·.gen)).getD 0 + 1, slot := otherSlot f, crc := f.crc, valid := true }
  if markerInForce f = some f.m0 then { f with m1 := m } else { f with m0 := m }

/-- `FW_MARKER_COMPLETE` (R424). -/
def execFwMarkerComplete (t : Sid) (s : State) : Host.Outcome State Fault Refusal :=
  if s.fw.st = .marking ∧ s.fw.suspended = false then
    let s0 := advance s t
    .next (finishOp (s0.setFw { s0.fw.mark with st := .idle, last := 1, lastTime := s0.sid.now }) 0x0F03 0x0000 stOk 0 []
      s0.ev.nextId)
  else .next s

/-! ## Reset (R417, R418, Table 14-7) -/

/-- An update that a reset interrupts is reported as such (R426). -/
def fwAfterReset (f : Firmware) : Firmware :=
  let g := { f with active := Firmware.reset.active, fallback := false, suspended := false }
  if f.st = .idle then g else { g with st := .idle, last := 2, lastStep := fwCode f.st }

/-- One-time-programmable storage across a reset: a commit under way is interrupted (R319). -/
def regAfterReset (r : Reg) : Reg :=
  { Reg.reset with slots := r.slots, locked := r.locked, last := if r.commit then 2 else r.last }

/-- The device is reset; `vin` tells whether VIN stayed at or above 2.35 V.
Log: 144 (DEDUCED). -/
def resetDevice (s : State) (cause : Nat) (vin : Bool) : State :=
  let r := State.reset
  let x := (closeDuty s).tx
  { r with
    pending := s.pending
    part := s.part
    host := s.host
    free := s.free
    reg := regAfterReset s.reg
    fw := fwAfterReset s.fw
    firn := if vin then (firnReset s).firn else r.firn
    tx := if vin then { r.tx with duty := x.duty, dutyClock := x.dutyClock, restUntil := x.restUntil, gnt := x.gnt }
          else { r.tx with gnt := x.gnt }
    pol := { r.pol with thermHold := vin && s.pol.thermHold, safeCause := if vin ∧ s.pol.thermHold then 0x0D else 0 }
    pwr := { r.pwr with cause := cause, boostUsed := s.pwr.boostUsed, boostLeft := s.pwr.boostLeft, vioHigh := s.pwr.vioHigh } }

/-- Permafrost: the records and the wake configuration are kept (R413, R480); FAULT_N is asserted only after a thermal
shutdown (Table 16-4). -/
def enterPermafrost (s : State) (shut : Bool) : State :=
  let r := resetDevice s s.pwr.cause true
  { r with
    firn := Firn.reset
    hcfg := { r.hcfg with i2cAddr := s.hcfg.i2cAddr }
    pol := { r.pol with faultN := r.pol.thermHold }
    panel := { s.panel with pending := none, irqN := false, net0 := 0, net1 := 0 }
    pwr := { r.pwr with state := .permafrost, wakeMask := s.pwr.wakeMask, wakeS := s.pwr.wakeS, shut := shut } }

/-- A wake from Permafrost: bring-up, with the wake configuration and the panel kept until its end (R413).
Log: 146 (DEDUCED). -/
def wakeUp (s : State) : State :=
  (s.setPol { s.pol with faultN := true }).setPwr { s.pwr with
    state := .thaw, buStep := 2, buFault := 0, cause := if s.pwr.shut then 6 else 5 }

/-- A wake source of `WAKE_MASK` bit `i` may wake the device: after a thermal shutdown I²C and WAKE_N alone, below 100 °C
(R413, R428).
Log: 146 (DEDUCED). -/
def wakes (s : State) (i : Nat) (tj : Int) : Bool :=
  decide (s.pwr.state = .permafrost) && bit s.pwr.wakeMask i && (!s.pwr.shut || (decide (i ≤ 1) && decide (tj < 1000)))

/-- A wake source acts: a bring-up from Permafrost, a return from Frost.
Log: 147 (DEDUCED). -/
def wakeBy (s : State) (i : Nat) (tj : Int) : State :=
  if wakes s i tj then wakeUp s else if bit s.pwr.wakeMask i then leaveFrost s else s

/-- `POWER_ON` (R408): VIN above 2.65 V for 10 ms releases the power-on reset.
Log: 140 (PRESUMED). -/
def execPowerOn (mv : Nat) (vioHigh : Bool) (s : State) : Host.Outcome State Fault Refusal :=
  if s.pwr.state = .off ∧ 2650 < mv then
    let r := resetDevice s 1 false
    .next (r.setPwr { r.pwr with vioHigh := vioHigh })
  else .next s

/-- `RESET_N` (R417, R428): a pulse of 100 ns to 1 µs is ignored or a whole reset. After a thermal shutdown it wakes the
device once it has cooled.
Log: 141 (DESIGN CHOICE), 146 (DEDUCED). -/
def execResetN (ns : Nat) (tj : Int) (s : State) : Host.Outcome State Fault Refusal :=
  let hot := s.pwr.shut && decide (1000 ≤ tj)
  if s.pwr.state = .off ∨ ns < 100 ∨ hot then .next s
  else
    let s1 := if ns < 1000 then s.setFree (s.free + 1) else s
    if ns < 1000 ∧ Config.resetPulseTaken s.free = false then .next s1
    else .next (resetDevice s1 (if s1.pwr.shut then 6 else 2) true)

/-- `VIN_RESET` (R419): a fall below 2.35 V of 1 µs or longer, or one of 100 ns to 1 µs that is detected, resets the device
with loss of VIN. Below 1.5 V nothing is driven (R482): the device has no supply.
Log: 140 (PRESUMED), 141 (DESIGN CHOICE). -/
def execVinReset (mv ns : Nat) (s : State) : Host.Outcome State Fault Refusal :=
  if s.pwr.state = .off ∨ 2350 ≤ mv ∨ ns < 100 then .next s
  else
    let s1 := if ns < 1000 then s.setFree (s.free + 1) else s
    if ns < 1000 ∧ Config.dipDetected s.free = false then .next s1
    else
      let r := resetDevice s1 3 false
      if mv < 1500 then .next ((r.setPwr { r.pwr with state := .off }).setPol { r.pol with faultN := false }) else .next r

/-! ## Bring-up (R414, R415) -/

/-- `BRING_UP`: step 2 of Table 14-4 samples the straps (R70, R72, R438, R454, R505) and finds whether a crystal is fitted
(Table 3-4). -/
def execBringUp (st : Straps) (crystal : Bool) (s : State) : Host.Outcome State Fault Refusal :=
  if s.pwr.state ≠ .thaw ∨ s.pwr.buStep ≠ 2 then .next s
  else
    let c := if st.xtalSel then splice (splice s.clk.cfg 0 [1]) 2 (leBytes 2 38400) else s.clk.cfg
    .next (((s.setPwr { s.pwr with buStep := 3, straps := st }).setHcfg { s.hcfg with
      i2cAddr := 0x58 + st.addr.toNat, legEn := st.modeLeg, attnMode := if st.modeLeg then 2 else 1 }).setClk { s.clk with
        cfg := c, xtal := crystal || st.xtalSel })

/-- Bring-up stops in Thaw (R415).
Log: 145 (DEDUCED). -/
def buStops (s : State) (fault : Nat) : State := s.setPwr { s.pwr with buFault := fault }

/-- Step 4 is complete: the system PLL is locked and Sidereal runs. -/
def buTime (s : State) : State :=
  let s1 := s.setClk { s.clk with state := .locked, lock := 16#5 }
  let s2 := s1.setSid { s1.sid with running := true, now := 0, next := tickU, bound := 0 }
  (s2.setI2c { s2.i2c with stretch := false }).setPwr { s2.pwr with buStep := 5, boostSpent := decide (20000 ≤ s2.pwr.boostUsed) }

/-- Step 7: the image of the record in force loads, or that of the other valid record (R424). -/
def buImage (s : State) (good : Bool) : State :=
  let pick := if s.fw.fallback then otherMarker s.fw else markerInForce s.fw
  match good, pick with
  | true, some m => loadShadow ((s.setFw { s.fw with active := m.slot }).setPwr { s.pwr with buStep := 8 })
  | _, _ =>
    if s.fw.fallback = false ∧ (otherMarker s.fw).isSome then s.setFw { s.fw with fallback := true }
    else buStops s 4

/-- Zones 7 and 15 are enabled at 160 MHz for legacy mode (R497).
Log: 148 (DEDUCED). -/
def legacyZones (s : State) : State := if s.hcfg.legEn then retuneZones none s [7, 15] 160000000000 else s

/-- Step 9 is complete: the inputs are calibrated and the device is Active; the wake configuration gives way.
Log: 148 (DEDUCED), 157 (DEDUCED). -/
def buActive (s : State) (tones : List (List ToneLevel)) : State :=
  let s1 := usedChanged ([0, 1, 2, 3].foldl (fun q n => calDone q n (calBuild (ant q n) (tones.getD n [])) q.pwr.tj) s)
  let s2 := s1.setPanel { s1.panel with cfg := panelDefault }
  legacyZones (resumeAvalanche (s2.setPwr { s2.pwr with
    state := .active, buStep := 10, wakeMask := 0, wakeS := 0, shut := false }))

/-- `BRINGUP_STEP_COMPLETE` (R414, R415, R424, Table 14-4): the step under way is complete, or its check fails. -/
def execBringupStepComplete (good : Bool) (tones : List (List ToneLevel)) (s : State) : Host.Outcome State Fault Refusal :=
  if s.pwr.state ≠ .thaw ∨ s.pwr.buFault ≠ 0 then .next s
  else
    match s.pwr.buStep with
    | 3 => .next (s.setPwr { s.pwr with buStep := 4 })
    | 4 => .next (if good then buTime s else buStops s 1)
    | 5 =>
      if good then
        .next ((s.setPol { s.pol with lastSelftest := s.sid.now, faultN := s.pol.thermHold || s.pol.safe || s.pol.refusal }).setPwr
          { s.pwr with buStep := 6 })
      else .next (buStops (selftestEnds s false) 2)
    | 6 => .next (if good then s.setPwr { s.pwr with buStep := 7 } else buStops s 3)
    | 7 => .next (buImage s good)
    | 8 =>
      .next ((s.setClk { s.clk with sclkHz := 3200000000, lockPoint := 3200000, lock := s.clk.lock ||| 1#5 }).setPwr
        { s.pwr with buStep := 9 })
    | 9 => .next (buActive s tones)
    | _ => .next s

/-! ## Brown-out (R419–R422) -/

/-- A warning (Table 14-9): writes are suspended, Lodestar mutes and Avalanche is left.
Log: 142 (DEDUCED). -/
def brownOut (s : State) (mv : Nat) : State :=
  let s1 := s.setPwr { s.pwr with brownout := true, boMin := mv, boDur := 0, boCount := sat 32 (s.pwr.boCount + 1),
                                  boTime := s.sid.now }
  let s2 := txBrown (raise s1 evBrownout 0x0000 0)
  leaveAvalanche (s2.setFw { s2.fw with suspended := decide (s2.fw.st ≠ .idle) }) stPowerLimit

/-- `EV_BROWNOUT_WARN` (R419, R420): a fall below 2.55 V, detected as the one below the reset level is. It is ignored in
Permafrost.
Log: 142 (DEDUCED). -/
def execEvBrownoutWarn (mv ns : Nat) (t : Sid) (s : State) : Host.Outcome State Fault Refusal :=
  if diagnosed s = false ∨ 2550 ≤ mv ∨ ns < 100 then .next s
  else
    let s1 := if ns < 1000 then s.setFree (s.free + 1) else s
    if ns < 1000 ∧ Config.dipDetected s.free = false then .next s1
    else if s1.pwr.brownout then .next (s1.setPwr { s1.pwr with boMin := min s1.pwr.boMin mv })
    else .next (brownOut (advance s1 t) mv)

/-- `BROWNOUT_RECOVERY` (R422): VIN has stayed above 2.65 V for 1 ms. -/
def execBrownoutRecovery (mv : Nat) (t : Sid) (s : State) : Host.Outcome State Fault Refusal :=
  if s.pwr.brownout = false ∨ mv ≤ 2650 then .next s
  else
    let s0 := advance s t
    let s1 := s0.setPwr { s0.pwr with brownout := false, boDur := sat 32 ((s0.sid.now - s0.pwr.boTime) / usU) }
    let s2 := raise s1 evBrownout 0x0000 1
    .next (resumeAvalanche (txBrownEnds (s2.setFw { s2.fw with suspended := false })))

/-! ## Frost, Permafrost and Avalanche (R408–R411) -/

/-- Bias switches open in Frost and keep their settings (R106). -/
def biasRest (s : State) : State :=
  s.setRf { s.rf with ants := s.rf.ants.map fun e => (e.1,
    match e.2.bias with
    | .on | .limiting | .retry | .lowCurrent => { e.2 with bias := .off, biasCur := 0 }
    | _ => e.2) }

/-- They close again on return to Active. -/
def biasCloses (s : State) : State :=
  s.setRf { s.rf with ants := s.rf.ants.map fun e => (e.1,
    if e.2.bias = .off ∧ byteAt e.2.biasCfg 0 ≠ 0 then { e.2 with bias := .on, biasBy := deadline s 3200 } else e.2) }

/-- The SGMII island is powered down (R411, R463).
Log: 126 (DEDUCED). -/
def portDown (s : State) : State := if s.eth.link then linkTo s false false else s

/-- `FROST_ENTRY_COMPLETE` (R411).
Log: 126 (DEDUCED). -/
def execFrostEntryComplete (t : Sid) (s : State) : Host.Outcome State Fault Refusal :=
  if s.pwr.trans ≠ .toFrost then .next s
  else
    let s1 := portDown (biasRest (pauseAll (advance s t)))
    .next (settlePower (s1.setPwr { s1.pwr with state := .frost, trans := .none, boost := false }) stOk 0)

/-- `FROST_EXIT` (R408, R411): the device is in Active, and then turns to `REQ_STATE`. -/
def execFrostExit (t : Sid) (s : State) : Host.Outcome State Fault Refusal :=
  if s.pwr.trans ≠ .fromFrost then .next s
  else
    let s1 := firnThaws ((advance s t).setPwr { s.pwr with state := .active, trans := .none })
    let s2 := biasCloses (if s1.aur.st = .relocking then s1 else resumeAll s1)
    if s2.pwr.reqAval then
      match tryAvalanche s2 with
      | (some e, s3) => .next (settlePower s3 e.1 e.2)
      | (none, s3) => .next s3
    else .next (settlePower s2 stOk 0)

/-- `PERMAFROST_ENTRY` (R408, R413). -/
def execPermafrostEntry (s : State) : Host.Outcome State Fault Refusal :=
  .next (if s.pwr.trans = .toPermafrost then enterPermafrost s false else s)

/-- `WAKE_TIMER_EXPIRY` (R413). -/
def execWakeTimerExpiry (s : State) : Host.Outcome State Fault Refusal := .next (wakeBy s 3 0)

/-- `AVALANCHE_ENTRY_COMPLETE` (R409): the first decoder clock at 1.2 GHz. -/
def execAvalancheEntryComplete (t : Sid) (s : State) : Host.Outcome State Fault Refusal :=
  .next (if s.pwr.trans = .toAvalanche then settlePower (reachAvalanche (advance s t) (!s.pwr.boostSpent)) stOk 0 else s)

/-- `AVALANCHE_EXIT_COMPLETE` (R409, R410). -/
def execAvalancheExitComplete (t : Sid) (s : State) : Host.Outcome State Fault Refusal :=
  if s.pwr.trans ≠ .fromAvalanche then .next s
  else
    let s1 := advance s t
    .next (settlePower (surveysPause (s1.setPwr { s1.pwr with state := .active, trans := .none, boost := false })) stOk 0)

/-! ## Boost hours (R435) -/

def evTherm (s : State) (cause stage : Nat) : State := raise s evThermal 0x0000 (cause + 256 * stage)

/-- Ticks of a unit of 0.1 h. -/
def boostUnit : Nat := 1152000

/-- A tick at 0.80 V uses the unit begun (R435). -/
def boostTick (s : State) : State := if s.pwr.boost then s.setPwr { s.pwr with boostLeft := s.pwr.boostLeft - 1 } else s

/-- `BOOST_UNIT_BEGIN` (R435): once the unit begun is used up, the bit of a new one is programmed while CORE is at 0.80 V; with all
20 000 used the budget is spent.
Log: 147 (DEDUCED). -/
def execBoostUnitBegin (s : State) : Host.Outcome State Fault Refusal :=
  if (s.pwr.boost = false ∧ s.pwr.trans ≠ .toAvalanche) ∨ s.pwr.brownout ∨ 0 < s.pwr.boostLeft then .next s
  else if s.pwr.boostUsed < 20000 then .next (s.setPwr { s.pwr with boostUsed := s.pwr.boostUsed + 1, boostLeft := boostUnit })
  else .next (evTherm (s.setPwr { s.pwr with boostSpent := true, boost := false }) 6 0)

/-! ## The shed ladder (R430–R433, Table 14-8) -/

/-- The full lane that is shed next: lowest `SHED_PRI`, then highest number; designated lanes never. -/
def nextLaneShed (s : State) : Option Nat :=
  ((setLaneList s).filter fun t => toFull t && decide ((lane s t).st ≠ .stopped) && !laneDesignated s (t - 0x0300)).foldl
    (fun b t => match b with
      | none => some t
      | some x => if (lane s x).shedPri < (lane s t).shedPri then some x else some t) none

/-- The next item of the ladder and its stage; stages with nothing to take are skipped.
Log: 77 (DEDUCED), 139 (DEDUCED). -/
def nextItem (s : State) : Option (Nat × ShedItem) :=
  let p := shedStage s
  let sv := (setLaneList s).filter fun t => toSurvey t && decide ((lane s t).st ≠ .stopped)
  let zs := if s.firn.st = .armed ∨ s.firn.st = .triggered then zonesAllowed s else []
  if p < 1 ∧ sv.isEmpty = false then some (1, .survey sv)
  else if p ≤ 2 ∧ zs.isEmpty = false then some (2, .firnZone (zs.foldl max 0))
  else if p < 3 ∧ (s.pwr.state = .avalanche ∨ s.pwr.trans = .toAvalanche) then some (3, .boost)
  else if p < 4 ∧ 128 < activeFlakes s then some (4, .flurry)
  else (nextLaneShed s).map fun t => (5, .lane t)

/-- A lane is stopped by shedding (Table 5-11). -/
def shedLane (s : State) (t : Nat) : State :=
  let s1 := haltLane 6 s t
  putLane s1 t { lane s1 t with shed := true }

/-- A lane that shedding stopped restarts, as by `LANE_START` (R433).
Log: 139 (DEDUCED). -/
def restartLane (s : State) (t : Nat) : State :=
  let l := lane s t
  if l.st ≠ .stopped ∨ l.shed = false then s
  else
    let s1 := putLane s t { l with shed := false }
    if l.zones.all fun z => decide ((zone s z).st = .paused) then putLane s1 t { lane s1 t with st := .paused, resetAt := s.sid.now }
    else usedChanged (commandReset s1 t)

/-- An item is taken.
Log: 139 (DEDUCED). -/
def takeItem (s : State) : ShedItem → State
  | .survey ls => ls.foldl shedLane s
  | .firnZone z => s.setFirn { s.firn with shed := z :: s.firn.shed }
  | .boost => leaveAvalanche s ((shedRefusal s 3).getD stThermalShed)
  | .flurry => flurryShed s
  | .lane t => shedLane s t

/-- An item is given back (R433); the boost comes back with the ladder position (`boostBack`).
Log: 139 (DEDUCED). -/
def giveItem (s : State) : ShedItem → State
  | .survey ls => ls.foldl restartLane s
  | .firnZone z => s.setFirn { s.firn with shed := s.firn.shed.erase z }
  | .boost => s
  | .flurry => flurryRestore s
  | .lane t => restartLane s t

/-- A governor demands one action more: the next item, unless the other governor has taken it already. The stage of the
action, or none where the ladder is exhausted.
Log: 137 (DEDUCED). -/
def shedOne (s : State) (thermal : Bool) : Option Nat × State :=
  let d := if thermal then s.therm.thermDem else s.therm.powerDem
  let bump := fun (th : Thermal) => if thermal then { th with thermDem := d + 1, thermSheds := sat 32 (th.thermSheds + 1) }
                                    else { th with powerDem := d + 1, powerSheds := sat 32 (th.powerSheds + 1) }
  match s.therm.actions[d]? with
  | some a => (some a.1, s.setTherm (bump s.therm))
  | none =>
    match nextItem s with
    | none => (none, s)
    | some a => (some a.1, takeItem (s.setTherm (bump { s.therm with actions := s.therm.actions ++ [a] })) a.2)

/-- The ladder position has fallen below stage 3, taken or skipped: the device enters Avalanche again if that is `REQ_STATE`
(R430, R433).
Log: 138 (DEDUCED). -/
def boostBack (s s' : State) : State := if 3 ≤ shedStage s ∧ shedStage s' < 3 then resumeAvalanche s' else s'

/-- A governor lets one action go; it is given back when neither holds it. The stage of the action.
Log: 137 (DEDUCED). -/
def restoreOne (s : State) (thermal : Bool) : Nat × State :=
  let d := if thermal then s.therm.thermDem else s.therm.powerDem
  let th := if thermal then { s.therm with thermDem := d - 1 } else { s.therm with powerDem := d - 1, exhausted := false }
  let stage := ((s.therm.actions[d - 1]?).map (·.1)).getD 0
  match s.therm.actions.getLast? with
  | some a =>
    if max th.thermDem th.powerDem < s.therm.actions.length then
      (stage, boostBack s (giveItem (s.setTherm { th with actions := s.therm.actions.dropLast, exhausted := false }) a.2))
    else (stage, boostBack s (s.setTherm th))
  | none => (stage, s.setTherm th)

/-- The governors act in Active and Avalanche.
Log: 160 (DEDUCED). -/
def governed (s : State) : Bool := decide (s.pwr.state = .active) || decide (s.pwr.state = .avalanche)

/-- The thermal governor sheds now (R431).
Log: 137 (DEDUCED). -/
def thermalSheds (s : State) : Bool :=
  let th := s.therm
  decide (1220 ≤ s.pwr.tj) &&
    (th.thermDem == 0 || (decide (1280 ≤ s.pwr.tj) && decide (th.lastAct + 32 ≤ s.sid.ticks)) ||
      (decide (th.lastCheck + 3200 ≤ s.sid.ticks) && decide (th.lastTj < s.pwr.tj)))

/-- A cool or low stretch has lasted 3200 ticks. -/
def restDue (s : State) (from_ : Option Nat) : Bool := (from_.map fun f => decide (f + 3200 ≤ s.sid.ticks)).getD false

/-- `THERMAL_GOVERNOR_CHECK` (R431): one action is shed or restored at its threshold or check; a check without an action
keeps its reading. -/
def execThermalGovernorCheck (s : State) : Host.Outcome State Fault Refusal :=
  if governed s = false then .next s
  else
    let due := decide (s.therm.thermDem = 0) || decide (s.therm.lastCheck + 3200 ≤ s.sid.ticks)
    let check := fun (q : State) => if due then q.setTherm { q.therm with lastTj := s.pwr.tj, lastCheck := s.sid.ticks } else q
    if thermalSheds s then
      match shedOne s true with
      | (some st, s1) => .next (evTherm (check (s1.setTherm { s1.therm with lastAct := s.sid.ticks })) 3 st)
      | (none, s1) => .next (check s1)
    else if 0 < s.therm.thermDem ∧ restDue s s.therm.coolFrom then
      let r := restoreOne s true
      .next (evTherm (r.2.setTherm { r.2.therm with coolFrom := some s.sid.ticks }) 4 r.1)
    else if 0 < s.therm.thermDem then .next (check s)
    else .next s

def evPower (s : State) (cause stage : Nat) : State := raise s evPowerLimit 0x0000 (cause + 256 * stage)

/-- `POWER_LIMIT_CHECK` (R432): one action at every tick at or above `ILIM_IN`, one restored after 3200 ticks at or below
`ILIM_IN` − 0.3 A.
Log: 137 (DEDUCED). -/
def execPowerLimitCheck (s : State) : Host.Outcome State Fault Refusal :=
  if governed s = false ∨ s.therm.powerAt = s.sid.ticks then .next s
  else if 100 * s.pwr.ilim ≤ s.pwr.iin then
    let s0 := s.setTherm { s.therm with powerAt := s.sid.ticks }
    match shedOne s0 false with
    | (some st, s1) => .next (evPower s1 1 st)
    | (none, s1) =>
      if s1.therm.exhausted then .next s1 else .next (evPower (s1.setTherm { s1.therm with exhausted := true }) 3 0)
  else if 0 < s.therm.powerDem ∧ restDue s s.therm.lowFrom then
    let r := restoreOne s false
    .next (evPower (r.2.setTherm { r.2.therm with lowFrom := some s.sid.ticks }) 2 r.1)
  else .next s

/-- `THERMAL_SHUTDOWN` (R428, R392): PA_EN is forced low, FAULT_N asserted and Permafrost entered, in hardware. -/
def execThermalShutdown (tj : Int) (s : State) : Host.Outcome State Fault Refusal :=
  if s.pwr.state = .off ∨ tj < 1350 then .next s
  else .next (enterPermafrost (s.setPol { s.pol with thermHold := true }) true)

/-! ## Readings at a tick boundary (R406, R428, R429) -/

/-- The sensors' values of a tick, and how long they have stayed low.
Log: 147 (DEDUCED). -/
def sense (s : State) (m : TickIn) : State :=
  let p := s.pwr
  let low := if p.brownout then min p.boMin m.vin else p.boMin
  let s1 := s.setPwr { p with tj := m.tj, tjMax := if p.vin = 0 then m.tj else max p.tjMax m.tj, iin := m.iin, vin := m.vin, boMin := low }
  let th := s1.therm
  s1.setTherm { th with
    coolFrom := if m.tj ≤ 1170 then some (th.coolFrom.getD s1.sid.ticks) else none
    lowFrom := if m.iin + 300 ≤ 100 * p.ilim then some (th.lowFrom.getD s1.sid.ticks) else none }

/-- The thermal warning (R429). -/
def thermalWarning (s : State) : State :=
  if s.pwr.state = .thaw then s
  else if 1150 ≤ s.pwr.tj ∧ s.therm.warn = false then evTherm (s.setTherm { s.therm with warn := true }) 1 0
  else if s.pwr.tj ≤ 1100 ∧ s.therm.warn then evTherm (s.setTherm { s.therm with warn := false }) 2 0
  else s

end Sys2Proof.Machine
end

