-- ==== Sys2Proof/Machine/Panel.lean ====
section
/-! DEFINITION. Machine/Panel.lean: the panel inputs, PTT, WAKE_N and IRQ_N (chapter 16). -/

namespace Sys2Proof.Machine

/-! ## Commands (R484) -/

def toPanel (t : Nat) : Bool := t == 0x0D00

/-- Table 16-3; in force from the next tick. -/
def panelSetSpec : CmdSpec :=
  { op := 0x0D01, target := toPanel, len := fun _ => 12,
    fields := fun _ => [wid 2 1 7, rng 3 1 2 64, rng 4 1 2 250, rng 5 1 2 64, wid 6 1 4,
      fld 7 1 fun v => v == 1 || v == 2 || v == 4, wid 8 1 2, wid 9 1 2, rsv 10 2],
    unit := fun c s => .busy (s.setPanel { s.panel with pending := some c.pl }) }

/-- The `PANEL_GET` result (Table 16-5). -/
def panelResult (p : Panel) : Bytes :=
  leBytes 2 p.keys.toNat ++ leBytes 1 (p.plugs.toNat + flag p.ptt 4 + flag (!p.withheld.isEmpty) 5) ++ leBytes 1 p.dropped ++
    leBytes 2 p.enc0.toNat ++ leBytes 2 p.enc1.toNat ++ leBytes 4 p.encErrs ++ zeros 4

def panelGetSpec : CmdSpec :=
  { op := 0x0D02, target := toPanel, len := fun _ => 0, largest := fun _ => 16, unit := fun _ s => okWith (panelResult s.panel) s }

def execPanelSet (a : Args) (s : State) : Host.Outcome State Fault Refusal := .next (submit panelSetSpec a s)
def execPanelGet (a : Args) (s : State) : Host.Outcome State Fault Refusal := .next (submit panelGetSpec a s)

/-! ## Changes (R478–R480) -/

/-- `EDETAIL` of `EV_PANEL` (Table 16-2). -/
def panelDetail (kind input value : Nat) : Nat := input + 32 * kind + 256 * value

/-- The wake island queues changes in Permafrost and during bring-up (R479). -/
def panelQueues (s : State) : Bool := decide (s.pwr.state = .permafrost) || decide (s.pwr.state = .thaw)

/-- A change is queued, at the head if it wakes the device; changes beyond 16 are dropped and counted (R479).
Log: 149 (DEDUCED). -/
def queueChange (s : State) (d : Nat) (first : Bool) : State :=
  let q := if first then d :: s.panel.queue else s.panel.queue ++ [d]
  s.setPanel { s.panel with queue := q.take 16, dropped := if q.length ≤ 16 then s.panel.dropped else sat 8 (s.panel.dropped + 1) }

/-- A debounced change: its event, or its place in the queue, and the wake that it makes if its input is a wake input
(`bitNo` of `WAKE_INPUTS` and `WAKE_OTHER`). -/
def panelChange (s : State) (kind input value bitNo : Nat) (single : Bool) : State :=
  let wake := bit (le s.panel.cfg 0 3) bitNo
  let d := panelDetail kind input value
  let s1 := if panelQueues s then queueChange s d (wake && wakes s 2 0)
            else if single then raiseSingle s s.sid.now evPanel 0x0D00 d else s
  if wake then wakeBy s1 2 0 else s1

/-! ## Keys and plugs (R474, R475) -/

/-- The keys that are down, reported or withheld, as a mask. -/
def keysDown (p : Panel) : Nat := p.withheld.foldl (fun v k => v ||| 2 ^ k) p.keys.toNat

/-- The columns down in row `r` of a mask of keys. -/
def rowOf (v r : Nat) : Nat := v / 2 ^ (4 * r) % 16

/-- A press of key `k` among the keys `v` down cannot be told from a phantom (R475). -/
def phantom (v k : Nat) : Bool :=
  decide (3 ≤ popCount v 16) &&
    [0, 1, 2, 3].any fun r => r != k / 4 && decide (2 ≤ popCount (rowOf v r &&& rowOf v (k / 4)) 4)

/-- A key's reported state changes. -/
def setKey (s : State) (k : Nat) (down : Bool) : State :=
  let m := 1#16 <<< k
  let s1 := s.setPanel { s.panel with keys := if down then s.panel.keys ||| m else s.panel.keys &&& ~~~m }
  panelChange s1 0 k (if down then 1 else 0) k true

/-- With fewer than three keys down, withheld presses are reported.
Log: 149 (DEDUCED). -/
def reportWithheld (s : State) : State :=
  if popCount (keysDown s.panel) 16 < 3 then
    s.panel.withheld.foldl (fun q k => setKey q k true) (s.setPanel { s.panel with withheld := [] })
  else s

/-- `KEY_CHANGE` (R474, R475). The release of a withheld press was never reported as down, and is not reported. -/
def execKeyChange (key : Nat) (down : Bool) (t : Sid) (s : State) : Host.Outcome State Fault Refusal :=
  let held := s.panel.withheld.contains key
  let isDown := held || s.panel.keys.getLsbD key
  if s.pwr.state = .off ∨ 16 ≤ key ∨ isDown = down then .next s
  else
    let s0 := advance s t
    if down then
      if bit (byteAt s0.panel.cfg 8) 0 = false ∧ phantom (keysDown s0.panel ||| 2 ^ key) key then
        let s1 := s0.setPanel { s0.panel with withheld := s0.panel.withheld ++ [key] }
        .next (if panelQueues s1 then s1 else raise s1 evPanel 0x0D00 (panelDetail 5 key 0))
      else .next (setKey s0 key true)
    else
      let s1 := if held then s0.setPanel { s0.panel with withheld := s0.panel.withheld.erase key } else setKey s0 key false
      .next (reportWithheld s1)

/-- `PLUG_CHANGE` (R474): inserted by `PLUG_POL`. -/
def execPlugChange (plug : Nat) (high : Bool) (t : Sid) (s : State) : Host.Outcome State Fault Refusal :=
  let inserted := high == bit (byteAt s.panel.cfg 6) plug
  if s.pwr.state = .off ∨ 4 ≤ plug ∨ s.panel.plugs.getLsbD plug = inserted then .next s
  else
    let s0 := advance s t
    let m := 1#4 <<< plug
    let s1 := s0.setPanel { s0.panel with plugs := if inserted then s0.panel.plugs ||| m else s0.panel.plugs &&& ~~~m }
    .next (panelChange s1 2 plug (if inserted then 1 else 0) (18 + plug) true)

/-! ## Encoders (R476) -/

/-- A detent of an encoder: its count, and the motion of the present tick or a queued change. -/
def detent (s : State) (e : Nat) (d : Int) : State :=
  let p := s.panel
  let now := max 1 s.sid.now
  let q := if e = 0 then { p with enc0 := p.enc0 + BitVec.ofInt 16 d, part0 := 0, net0 := p.net0 + d,
                                  first0 := if p.first0 = 0 then now else p.first0 }
           else { p with enc1 := p.enc1 + BitVec.ofInt 16 d, part1 := 0, net1 := p.net1 + d,
                         first1 := if p.first1 = 0 then now else p.first1 }
  let q1 := if panelQueues s then { q with net0 := 0, first0 := 0, net1 := 0, first1 := 0 } else q
  panelChange (s.setPanel q1) 1 e (d % 256).toNat (16 + e) false

/-- `ENCODER_STEP` (R476): a transition, or an invalid step that is counted. -/
def execEncoderStep (encoder : Nat) (step : Int) (t : Sid) (s : State) : Host.Outcome State Fault Refusal :=
  if s.pwr.state = .off ∨ 2 ≤ encoder ∨ 1 < step.natAbs then .next s
  else
    let s0 := advance s t
    let p := s0.panel
    if step = 0 then .next (s0.setPanel { p with encErrs := sat 32 (p.encErrs + 1) })
    else
      let v := (if encoder = 0 then p.part0 else p.part1) + step
      if byteAt p.cfg 7 ≤ v.natAbs then .next (detent s0 encoder step)
      else .next (s0.setPanel (if encoder = 0 then { p with part0 := v } else { p with part1 := v }))

/-- The motion of one encoder in a tick is one event (R478).
Log: 149 (DEDUCED). -/
def postDetents (s : State) (e : Nat) (net : Int) (first : Sid) : State :=
  if first = 0 then s else raiseSingle s first evPanel 0x0D00 (panelDetail 1 e (clampI 127 net % 256).toNat)

/-- A `PANEL_SET` accepted before this tick takes effect (R484). -/
def panelApply (s : State) : State :=
  s.setPanel { s.panel with cfg := s.panel.pending.getD s.panel.cfg, pending := none }

/-- At a tick boundary: the encoders' motion, and in Active the queue of R479. -/
def panelTick (s : State) : State :=
  let p := s.panel
  let s1 := postDetents (postDetents s 0 p.net0 p.first0) 1 p.net1 p.first1
  let s2 := if governed s then p.queue.foldl (fun q d => raiseSingle q q.sid.now evPanel 0x0D00 d) s1 else s1
  s2.setPanel { s2.panel with
    net0 := 0, net1 := 0, first0 := 0, first1 := 0,
    queue := if governed s then [] else p.queue }

/-! ## PTT and WAKE_N (R477, R481) -/

/-- The source of a PTT break-in is confirmed (R329).
Log: 150 (DEDUCED). -/
def pttConfirmed (s : State) : Bool := governed s && sourceConfirmed s (byteAt s.tx.brk 3) (byteAt s.tx.brk 4)

/-- `PTT` (R481): the trigger passes to Lodestar, and the change is posted. While not transmitting the break-in starts at
once (R330).
Log: 150 (DEDUCED). -/
def execPtt (pressed : Bool) (t : Sid) (s : State) : Host.Outcome State Fault Refusal :=
  if s.pwr.state = .off ∨ s.panel.ptt = pressed then .next s
  else
    let s0 := advance s t
    let s1 := s0.setPanel { s0.panel with ptt := pressed, pttFree := pressed && !brkEn s0 1 }
    let s2 := s1.setTx { s1.tx with ptt := pressed && brkEn s1 1 && pttConfirmed s1 }
    let s3 := if governed s2 ∧ transmitting s2 = false then brkUpdate s2 else s2
    .next (panelChange s3 3 16 (if pressed then 1 else 0) 22 true)

/-- A press that is still held when `BRK_EN` comes to enable PTT triggers at the next tick boundary (R481).
Log: 150 (DEDUCED). -/
def pttTick (s : State) : State :=
  if s.panel.ptt = false then s
  else if brkEn s 1 = false then s.setPanel { s.panel with pttFree := true }
  else if s.panel.pttFree then
    let s1 := s.setPanel { s.panel with pttFree := false }
    s1.setTx { s1.tx with ptt := pttConfirmed s1 }
  else s

/-- `WAKE_N` (R428, R477): low for 1 ms. -/
def execWakeN (us : Nat) (tj : Int) (t : Sid) (s : State) : Host.Outcome State Fault Refusal :=
  if us < 1000 ∨ s.pwr.state = .off ∨ s.pwr.state = .thaw then .next s
  else if s.pwr.state = .permafrost then .next (wakeBy s 1 tj)
  else
    let s0 := advance s t
    .next (wakeBy (raise s0 evPanel 0x0D00 (panelDetail 4 17 0)) 1 tj)

/-! ## IRQ_N (R483) -/

/-- A completion or event ring with a vector holds entries beyond the count last written to its doorbell. -/
def ringCalls (r : Ring) : Bool :=
  (decide (r.kind = .completion) || decide (r.kind = .event)) && r.vector != 0xFF && r.prod != r.doorbell

/-- The condition of IRQ_N. -/
def irqWanted (s : State) : Bool :=
  decide (s.pwr.state ≠ .off) && decide (s.pwr.state ≠ .permafrost) &&
    ((bit (byteAt s.panel.cfg 9) 0 && !s.mbx.queue.isEmpty) ||
      (bit (byteAt s.panel.cfg 9) 1 && !s.pcie.msixEn && s.rings.any fun e => ringCalls e.2))

/-- `IRQ_N_UPDATE` (R483). -/
def execIrqNUpdate (s : State) : Host.Outcome State Fault Refusal :=
  .next (s.setPanel { s.panel with irqN := irqWanted s })

end Sys2Proof.Machine
end

