-- ==== Sys2Proof/Machine/Mailbox.lean ====
section
/-! DEFINITION. Machine/Mailbox.lean: page 0x01 and the violation log's clear bit (R59, R61, R64). A link's code is 1 for I²C
and 2 for PCIe (Table 2-12). -/

namespace Sys2Proof.Machine

/-- The code of a link in `OWNER` and `VLOG_LINK`. -/
def linkCode : Link → Nat
  | .i2c => 1
  | .pcie => 2

/-- A violation of a register access on a link; `off` is the offset on page `page` (Table 2-15).
Log: 17 (DEDUCED). -/
def regViolation (l : Link) (kind page off : Nat) (s : State) : State :=
  match l with
  | .i2c => violate s kind (page * 256 + off) 1 0
  | .pcie => unsupported s kind (page * 256 + off) 0

/-- A link owns the mailbox. -/
def owns (s : State) (l : Link) : Bool := s.mbx.owner.toNat == linkCode l

/-- Writing 1 to `GO` (R59, R61). -/
def execGo (l : Link) (s : State) : Host.Outcome State Fault Refusal :=
  if owns s l = false ∨ s.mbx.submit.isSome then .next (regViolation l 0x04 1 0xF0 s)
  else .next (s.setMbx { s.mbx with submit := some s.mbx.cmdWin })

/-- `MAILBOX_COPY` (R61): the submitted packet is copied while fewer than 32 mailbox commands count. -/
def execMailboxCopy (s : State) : Host.Outcome State Fault Refusal :=
  match s.mbx.submit with
  | none => .next s
  | some p =>
    if mbxCount s < 32 then .next (s.setMbx { s.mbx with submit := none, copied := s.mbx.copied ++ [p] }) else .next s

/-- Writing 1 to `CPL_POP` (R59): the shown entry is discarded and the next shown. -/
def execCplPop (l : Link) (s : State) : Host.Outcome State Fault Refusal :=
  if owns s l = false then .next (regViolation l 0x04 1 0xF0 s)
  else .next (s.setMbx { s.mbx with queue := s.mbx.queue.tail })

/-- Writing 1 to `OVERFLOW` (R59). -/
def execOverflowClear (l : Link) (s : State) : Host.Outcome State Fault Refusal :=
  if owns s l = false then .next (regViolation l 0x04 1 0xF0 s)
  else .next (s.setMbx { s.mbx with overflow := false })

/-- The owner after a write of `v` to `OWNER` by a link (R59). -/
def ownerAfter (cur v : BitVec 2) (l : Link) : BitVec 2 :=
  if cur = 0 ∧ v.toNat = linkCode l then v
  else if v = 0 ∧ cur.toNat = linkCode l then 0
  else cur

/-- A write to `OWNER` (R59). -/
def execOwner (l : Link) (value : BitVec 2) (s : State) : Host.Outcome State Fault Refusal :=
  .next (s.setMbx { s.mbx with owner := ownerAfter s.mbx.owner value l })

/-- Writing 1 to `VLOG_CLEAR` (R64). -/
def execVlogClear (_l : Link) (s : State) : Host.Outcome State Fault Refusal :=
  .next (s.setVlog { s.vlog with fill := 0 })

end Sys2Proof.Machine
end

