-- ==== Sys2Proof/Machine/HostLink.lean ====
section
/-! DEFINITION. Machine/HostLink.lean: writes to the register pages over both links, the I²C target, legacy mode's switch, and
how the device calls the host's attention over I²C (R59, R60, R69, R70, R438–R454, R456, R457, R498). -/

namespace Sys2Proof.Machine

/-! ## Page 0x02 (R70, R454) -/

/-- A command of Onarix to full lane 0 or 1 that waits or executes (R70). -/
def legacyEnds (f : InFlight) : Bool :=
  (f.cmd.tgt == 0x0300 || f.cmd.tgt == 0x0301) && decide (f.cmd.a.origin ≠ .legacy) &&
    (decide (f.phase = .waiting) || decide (f.phase = .executing))

/-- A command in flight ends with `ST_ABORTED_HOST`. -/
def endFlight (s : State) (f : InFlight) : State :=
  if f.phase = .executing then complete s f stAbortedHost 0 [] s.sid.now s.ev.nextId else abortFlight s f

/-- Full lane `n` stops, and a switch in which it takes part is abandoned. -/
def legacyStop (s : State) (n : Nat) : State :=
  let s1 := abandonSwitch s n
  if (lane s1 (0x0300 + n)).st = .idle then s1 else stopLane s1 (0x0300 + n)

/-- `LEG_EN` changes to 1 (R70, R497). -/
def legacyOn (s : State) : State :=
  let s1 := (s.cmds.list.filter legacyEnds).foldl endFlight (s.setHcfg { s.hcfg with legEn := true })
  let s2 := legacyStop (legacyStop s1 0) 1
  if s.pwr.buStep = 10 then legacyZones s2 else s2

/-- `LEG_EN` changes to 0 (R70): the lanes stop and return to Onarix control idle; the sequence under way ends.
Log: 157 (DEDUCED). -/
def legacyOff (s : State) : State :=
  let s1 := (s.cmds.list.filter fun f => decide (f.cmd.a.origin = .legacy)).foldl endFlight s
  let s2 := legacyStop (legacyStop s1 0) 1
  let s3 := releaseLane (releaseLane s2 0x0300) 0x0301
  (s3.setHcfg { s3.hcfg with legEn := false }).setLeg { s3.leg with start := false, seq := [], cts := true }

/-- `LEG_EN` takes the value `v`. -/
def legEnTo (v : Bool) (s : State) : State :=
  if s.hcfg.legEn = v then s else if v then legacyOn s else legacyOff s

/-- `CTRL_FAIL` is cleared, and notification resumes (R453). -/
def ctrlFailCleared (s : State) : State :=
  let s1 := (s.setHcfg { s.hcfg with ctrlFail := false }).setI2c { s.i2c with nacks := 0 }
  if s.hcfg.ctrlFail then s1.setMbx { s1.mbx with attn := !s.mbx.queue.isEmpty } else s1

/-- A byte written to page 0x02 takes effect: a value outside a range is clamped (R454, Table 15-4).
Log: 154 (DEDUCED). -/
def hcfgWrite (s : State) (off v : Nat) : State :=
  let h := s.hcfg
  match off with
  | 0x00 => s.setHcfg { h with filter := v % 16 }
  | 0x01 => s.setHcfg { h with attnMode := min 2 (v % 4) }
  | 0x02 => s.setHcfg { h with ibrHold := max 5 (min 50 v) }
  | 0x03 => s.setHcfg { h with ibrRepeat := max 1 v }
  | 0x04 => s.setHcfg { h with ctrlAddr := v % 128 }
  | 0x05 => s.setHcfg { h with ctrlRetry := v % 16, ctrlSpeed := min 2 (v / 16 % 4) }
  | 0x06 => legEnTo (bit v 0) s
  | 0x07 => s.setHcfg { h with mbxVector := v % 64, mbxIrqEn := bit v 7 }
  | 0x09 => if bit v 0 then ctrlFailCleared s else s
  | _ => s

/-- A generation-1 code starts: over I²C at the first tick boundary after the STOP, over PCIe at once (R498). -/
def legacyGo (s : State) (v : Nat) : State :=
  s.setLeg { s.leg with cmd := v, start := true, cts := false, err := false, lErr := 0 }

/-- A byte of `L_ARG` (Table 17-23). -/
def legacyArg (s : State) (off : Nat) (v : Byte) : State := s.setLeg { s.leg with arg := splice s.leg.arg (off - 4) [v] }

/-- A write that waited for the end of its transfer takes effect (R441). -/
def applyPend (s : State) (w : Nat × Nat × Byte) : State :=
  if w.2.1 = 0xFF then s.setI2c { s.i2c with page := w.2.2.toNat }
  else if w.1 = 0x02 then hcfgWrite s w.2.1 w.2.2.toNat
  else if w.2.1 = 0 then legacyGo s w.2.2.toNat
  else legacyArg s w.2.1 w.2.2

/-- A STOP or a repeated START applies the pending writes (R441).
Log: 151 (DEDUCED). -/
def applyPends (s : State) : State := s.i2c.pend.foldl applyPend (s.setI2c { s.i2c with pend := [] })

/-- A byte that takes effect at the end of an I²C transfer, or at once over PCIe.
Log: 151 (DEDUCED). -/
def defer (l : Link) (s : State) (page off : Nat) (v : Byte) : State :=
  match l with
  | .i2c => s.setI2c { s.i2c with pend := s.i2c.pend ++ [(page, off, v)] }
  | .pcie => applyPend s (page, off, v)

/-! ## Writes of one byte (R59, R60, R64, R69, R442, R454, R498): the violation kind, or 0 where it is accepted -/

/-- Byte 0xF0 of page 0x01: `GO`, `CPL_POP` and `OVERFLOW` (R59). -/
def ctrlWrite (l : Link) (v : Nat) (s : State) : Nat × State :=
  let acts := bit v 0 || bit v 4 || bit v 5
  if (acts ∧ owns s l = false) ∨ (bit v 0 ∧ s.mbx.submit.isSome) then (4, s)
  else
    (0, s.setMbx { s.mbx with
      submit := if bit v 0 then some s.mbx.cmdWin else s.mbx.submit
      queue := if bit v 4 then s.mbx.queue.tail else s.mbx.queue
      overflow := s.mbx.overflow && !bit v 5 })

/-- A byte of page 0x01 (Table 2-12). -/
def mailboxWrite (l : Link) (off : Nat) (v : Byte) (s : State) : Nat × State :=
  if off < 0x80 then
    if owns s l = false ∨ s.mbx.submit.isSome then (4, s)
    else (0, s.setMbx { s.mbx with cmdWin := splice s.mbx.cmdWin off [v] })
  else if off < 0xF0 then (2, s)
  else if off = 0xF0 then ctrlWrite l v.toNat s
  else if off = 0xF1 then
    (0, s.setMbx { s.mbx with owner := ownerAfter s.mbx.owner (BitVec.ofNat 2 v.toNat) l })
  else if off < 0xF4 then (0, s)
  else (2, s)

/-- A byte of page 0x10 in legacy mode (Table 17-23). -/
def legacyWrite (l : Link) (off : Nat) (v : Byte) (s : State) : Nat × State :=
  let writable := off == 0 || off == 1 || decide (4 ≤ off ∧ off ≤ 0x3F)
  if writable = false then (2, s)
  else if s.leg.cts = false then (4, s)
  else if off = 0 then (0, defer l (s.setLeg { s.leg with cts := false }) 0x10 0 v)
  else if off = 1 then (0, s.setLeg { s.leg with lane := v.toNat % 2 })
  else (0, defer l s 0x10 off v)

/-- A byte written to a register page. -/
def writeByte (l : Link) (page off : Nat) (v : Byte) (s : State) : Nat × State :=
  if off = 0xFF then
    match l with
    | .i2c => (0, defer l s page 0xFF v)
    | .pcie => (0, s)
  else
    match page with
    | 0x01 => mailboxWrite l off v s
    | 0x02 => if off ≤ 0x07 ∨ off = 0x09 then (0, defer l s 0x02 off v) else (2, s)
    | 0x03 =>
      if off = 0x06 then (0, s.setVlog { s.vlog with sel := v.toNat % 16 })
      else if off = 0x07 then (0, if bit v.toNat 0 then s.setVlog { s.vlog with fill := 0 } else s)
      else (2, s)
    | 0x10 => if s.hcfg.legEn then legacyWrite l off v s else (2, s)
    | _ => (2, s)

/-- A PCIe write of bytes from an offset of a page on: the kind of the first violation, or 0.
Log: 155 (DEDUCED). -/
def writeBytes (page : Nat) : Nat → Bytes → State → Nat × State
  | _, [], s => (0, s)
  | off, v :: b, s =>
    match writeByte .pcie page off v s with
    | (0, s1) => writeBytes page (off + 1) b s1
    | (k, _) => (k, s)

/-- A PCIe memory write to BAR0 at page × 0x100 + offset (R456, R457): register pages, doorbells, the MSI-X table and the
pending bits, which are read-only. A write that is a violation has no effect.
Log: 155 (DEDUCED), 156 (DEDUCED). -/
def pcieWrite (page off : Nat) (data : Bytes) (s : State) : State :=
  let at_ := page * 256 + off
  if data = [] ∨ off % 8 + data.length > 8 then unsupported s 0x01 at_ 0
  else if page < 0x40 then
    match writeBytes page off data s with
    | (0, s1) => s1
    | (k, _) => regViolation .pcie k page off s
  else if 0x80 ≤ page ∧ page < 0x84 ∧ data.length = 4 then
    match execDoorbellWrite (BitVec.ofNat 16 at_) (BitVec.ofNat 32 (le data 0 4)) [] s with
    | .next s1 => s1
    | _ => s
  else if 0xC0 ≤ page ∧ page < 0xC4 then
    let s1 := s.setPcie { s.pcie with msixTable := splice s.pcie.msixTable (at_ - 0xC000) data }
    sendPending s1 ((at_ - 0xC000) / 16)
  else if page = 0xD0 ∧ off < 8 then s
  else unsupported s 0x01 at_ 0

/-! ## The I²C target (R438–R449, Table 15-3) -/

/-- The target answers its address: bring-up has passed step 4, and the device is neither without supply nor in Permafrost
(R438). -/
def targetAnswers (s : State) : Bool :=
  decide (s.pwr.state ≠ .off) && decide (s.pwr.state ≠ .permafrost) && decide (5 ≤ s.pwr.buStep)

/-- A byte that the controller writes (Table 15-3, R440, R441).
Log: 29 (DEDUCED). -/
def i2cByte (s : State) (v : Byte) : State :=
  let c := s.i2c
  match c.st with
  | .writePtr => s.setI2c { c with st := .write, pointer := v.toNat }
  | .write =>
    match writeByte .i2c c.page c.pointer v s with
    | (0, s1) => s1.setI2c { s1.i2c with pointer := (c.pointer + 1) % 256 }
    | (k, _) => regViolation .i2c k c.page c.pointer (s.setI2c { c with st := .refuse })
  | _ => s

/-- Any bus activity of a controller ends a request hold (R450, R451).
Log: 153 (DEDUCED). -/
def releaseSda (s : State) : State := s.setI2c { s.i2c with holding := false }

/-- `REGISTER_WRITE` (R60, R441, R456): over I²C the bytes of a transfer, the first after the address being the pointer; over
PCIe one memory write. -/
def execRegisterWrite (l : Link) (page offset : Byte) (data : Bytes) (s : State) : Host.Outcome State Fault Refusal :=
  match l with
  | .i2c => .next (data.foldl i2cByte s)
  | .pcie => if s.pcie.up then .next (pcieWrite page.toNat offset.toNat data s) else .next s

/-- `PAGE_SEL` over I²C (R440–R442): the page changes at the end of the transfer; the pointer wraps to 0.
Log: 151 (DEDUCED). -/
def execPageSel (value : Byte) (s : State) : Host.Outcome State Fault Refusal :=
  .next (s.setI2c { s.i2c with pend := s.i2c.pend ++ [(s.i2c.page, 0xFF, value)], pointer := 0 })

/-- `LEG_EN` (R70, R441, R444).
Log: 151 (DEDUCED). -/
def execLegEn (l : Link) (value : Bool) (s : State) : Host.Outcome State Fault Refusal :=
  .next (defer l s 0x02 0x06 (BitVec.ofNat 8 (flag value 0)))

/-- `CTRL_FAIL_CLEAR` (R453).
Log: 151 (DEDUCED). -/
def execCtrlFailClear (l : Link) (s : State) : Host.Outcome State Fault Refusal := .next (defer l s 0x02 0x09 1)

/-- `I2C_START`: a START that the table does not list acts as in the Idle and Address rows (R447). -/
def execI2cStart (s : State) : Host.Outcome State Fault Refusal :=
  let s1 := releaseSda s
  .next (s1.setI2c { s1.i2c with st := .address })

/-- The target takes an own address byte: write, or read with the first byte shifted out (Table 15-3).
Log: 152 (DEDUCED). -/
def takeAddress (s : State) (read : Bool) : State :=
  if read then s.setI2c { s.i2c with st := .read, sda := readReg s s.i2c.page s.i2c.pointer }
  else s.setI2c { s.i2c with st := .writePtr }

/-- `I2C_ADDRESS` (R438, R447); in Frost a match also returns the device to Active (R446). -/
def execI2cAddress (b : Byte) (s : State) : Host.Outcome State Fault Refusal :=
  if s.i2c.st ≠ .address then .next s
  else if b.toNat / 2 ≠ s.hcfg.i2cAddr ∨ targetAnswers s = false then .next (s.setI2c { s.i2c with st := .ignore })
  else
    let s1 := takeAddress (s.setI2c { s.i2c with met := true }) (bit b.toNat 0)
    .next (if s.pwr.state = .frost ∧ bit s.pwr.wakeMask 0 then leaveFrost s1 else s1)

/-- `I2C_STOP` (R441, Table 15-3). -/
def execI2cStop (s : State) : Host.Outcome State Fault Refusal :=
  let s1 := applyPends (releaseSda s)
  .next (s1.setI2c { s1.i2c with st := .idle })

/-- `I2C_REPEATED_START` (R441, Table 15-3). -/
def execI2cRepeatedStart (s : State) : Host.Outcome State Fault Refusal :=
  let s1 := applyPends (releaseSda s)
  .next (s1.setI2c { s1.i2c with st := .address })

/-- `I2C_CONTROLLER_NACK` (R440, Table 15-3): the byte read has passed the pointer.
Log: 152 (DEDUCED). -/
def execI2cControllerNack (s : State) : Host.Outcome State Fault Refusal :=
  if s.i2c.st = .read then .next (s.setI2c { s.i2c with st := .ignore, pointer := (s.i2c.pointer + 1) % 256 }) else .next s

/-- `I2C_WAKE_ADDRESS_MATCH` (R413, R428, R445): acknowledged with SCL held low, and bring-up starts; page and pointer 0. -/
def execI2cWakeAddressMatch (b : Byte) (tj : Int) (s : State) : Host.Outcome State Fault Refusal :=
  if b.toNat / 2 = s.hcfg.i2cAddr ∧ wakes s 0 tj then
    let s1 := wakeUp s
    let s2 := s1.setI2c { s1.i2c with page := 0, pointer := 0, stretch := true }
    .next (takeAddress s2 (bit b.toNat 0))
  else .next s

/-- `EV_BUS_STUCK` (R447, R448, R472). -/
def execEvBusStuck (t : Sid) (s : State) : Host.Outcome State Fault Refusal :=
  let c := s.i2c
  if c.st = .idle ∨ c.st = .ignore then .next s
  else
    let s1 := (advance s t).setI2c { c with st := .idle, pend := [], holding := false }
    .next (raise (s1.setHcfg { s1.hcfg with stuck := sat 32 (s.hcfg.stuck + 1) }) evBusStuck 0x0000 (c.pointer + 256 * c.page))

/-! ## Calling the host's attention (R450–R453) -/

/-- A request is due: an entry has called for one, or `IBR_REPEAT` ms have passed without a transfer to the device (R450); after a
NACK 1 ms is waited (R453). -/
def signalDue (s : State) : Bool :=
  if 0 < s.i2c.nacks then decide (s.i2c.lastReq + 1000 * usU ≤ s.sid.now)
  else s.mbx.attn || (!s.i2c.met && decide (s.i2c.lastReq + s.hcfg.ibrRepeat * 1000 * usU ≤ s.sid.now))

/-- The device may signal over I²C: `OWNER` is not PCIe, the queue holds an entry, a request is due and the target is idle.
Log: 153 (DEDUCED). -/
def maySignal (s : State) (mode : Nat) : Bool :=
  s.hcfg.attnMode == mode && s.mbx.owner != 2 && !s.mbx.queue.isEmpty && decide (s.i2c.st = .idle) && targetAnswers s &&
    signalDue s

/-- `IN_BAND_REQUEST` (R450): SDA is held low.
Log: 153 (DEDUCED). -/
def execInBandRequest (s : State) : Host.Outcome State Fault Refusal :=
  if maySignal s 1 then .next ((s.setI2c { s.i2c with holding := true, lastReq := s.sid.now, met := false }).setMbx { s.mbx with attn := false }) else .next s

/-- `IBR_COLLISION` (R451): SDA is released, and the request is pending again. -/
def execIbrCollision (s : State) : Host.Outcome State Fault Refusal :=
  if s.i2c.holding then
    let s1 := releaseSda s
    let s2 := s1.setHcfg { s1.hcfg with collisions := sat 16 (s1.hcfg.collisions + 1) }
    .next (s2.setMbx { s2.mbx with attn := true })
  else .next s

/-- The controller write has been given up (R453). -/
def givenUp (s : State) : Bool := decide (max 1 s.hcfg.ctrlRetry ≤ s.i2c.nacks)

/-- `CONTROLLER_WRITE` (R452, R453): a notification, with its outcome on the bus. -/
def execControllerWrite (r : CtrlResult) (s : State) : Host.Outcome State Fault Refusal :=
  if maySignal s 2 = false ∨ givenUp s then .next s
  else
    match r with
    | .done => .next ((s.setMbx { s.mbx with attn := false }).setI2c { s.i2c with nacks := 0, lastReq := s.sid.now, met := false })
    | .lost => .next s
    | .nack =>
      let s1 := s.setI2c { s.i2c with nacks := s.i2c.nacks + 1, lastReq := s.sid.now, met := false }
      if givenUp s1 then .next ((s1.setHcfg { s1.hcfg with ctrlFail := true }).setMbx { s1.mbx with attn := false })
      else .next s1

end Sys2Proof.Machine
end

