-- ==== Sys2Proof/Machine/System.lean ====
section
/-! DEFINITION. Machine/System.lean: the system commands 0x0000–0x0004 (R40, R48, R67, R68, R490, R491). -/

namespace Sys2Proof.Machine

/-! ## IDENTIFY and GET_STATUS (Tables 17-17 and 17-18) -/

/-- The `IDENTIFY` result (Table 17-17).
Log: 161 (DESIGN CHOICE). -/
def identifyResult (s : State) : Bytes :=
  (page0 s).take 6 ++ [0x02] ++ leBytes 1 (flag s.hcfg.legEn 0) ++ leBytes 4 (runningBuild s) ++ leBytes 1 s.fw.active ++
    zeros 3 ++ leBytes 8 Config.serial.toNat

/-- Table 17-17, `IDENTIFY`. -/
def identifySpec : CmdSpec :=
  { op := 0x0001, target := toSystem, len := fun _ => 0, largest := fun _ => 24,
    unit := fun _ s => okWith (identifyResult s) s }

/-- The `GET_STATUS` result (Table 17-18).
Log: 25 (DEDUCED). -/
def statusResult (s : State) : Bytes :=
  leBytes 1 (statMain s) ++ leBytes 1 s.pol.safeCause ++ leBytes 1 (statBringup s) ++ leBytes 1 (evtPending s) ++ statPower s ++
    leBytes 2 s.cmds.list.length ++ leBytes 2 s.merid.slots.length ++ leBytes 4 s.vlog.total ++ leBytes 4 s.cmds.internal ++
    leBytes 8 (if s.sid.running then (whenOf s.sid.now).toNat else 0)

/-- Table 17-18, `GET_STATUS`. -/
def getStatusSpec : CmdSpec :=
  { op := 0x0002, target := toSystem, len := fun _ => 0, largest := fun _ => 32,
    unit := fun _ s => okWith (statusResult s) s }

/-! ## GET_CAPS (Tables 2-16 and 2-17) -/

/-- The unit fields from byte 8 of a capability record (Tables 2-17 and 2-18).
Log: 26 (DEDUCED). -/
def unitFields (s : State) (unit : Nat) : Bytes :=
  let n := instances s.part
  match unit with
  | 0x01 => leBytes 1 (n 0x01) ++ [14] ++ leBytes 4 3000000 ++ leBytes 4 3300000 ++ leBytes 4 144 ++ leBytes 4 1492000 ++ [0x03]
  | 0x02 => [8, 3] ++ leBytes 2 320
  | 0x03 => [14] ++ leBytes 1 (n 0x01) ++ [0, 0] ++ leBytes 4 0x3F
  | 0x04 => leBytes 4 50000
  | 0x05 => [1]
  | 0x06 => [0x07, 1]
  | 0x07 => [if s.part = .agu7410 then 0x09 else 0x1F]
  | 0x08 => [16, 0x0F]
  | 0x09 => [0x03, 64] ++ leBytes 1 (flag s.reg.locked 0)
  | 0x0A => leBytes 1 (n 0x0F) ++ [1]
  | 0x0B => leBytes 4 192
  | 0x0C => [2, 0x02]
  | 0x0D => [16, 2, 4]
  | 0x0E => [2, 3, 64, 128, 16]
  | 0x0F => [0x03]
  | 0x10 => [12] ++ leBytes 4 800000
  | 0x11 => leBytes 2 (if s.part = .agu7440 then 128 else 256) ++ [1]
  | _ => []

/-- One capability record (Table 2-16): of a unit that the part lacks, PRESENT 0 and every unit field 0 (R529); of one that
it does not know, its ID alone (R68).
Log: 26 (DEDUCED). -/
def capRecord (s : State) (unit : Nat) : Bytes :=
  let present := if unit = 0x07 ∧ s.part = .agu7410 then 3 else 1
  if 0x01 ≤ unit ∧ unit ≤ 0x11 then
    if instances s.part unit = 0 then fit 64 (leBytes 1 unit ++ [0, 0x01, 0x01])
    else fit 64 (leBytes 1 unit ++ [present, 0x01, 0x01] ++ leBytes 2 (instances s.part unit) ++ [0, 0] ++ unitFields s unit)
  else fit 64 (leBytes 1 unit)

/-- The `GET_CAPS` result: one record, or those of units 0x01–0x11 (R67). -/
def capsResult (s : State) (unit : Nat) : Bytes :=
  if unit = 0 then ((List.range 17).map fun i => capRecord s (i + 1)).flatten else capRecord s unit

/-- `GET_CAPS` (R67, R68). -/
def getCapsSpec : CmdSpec :=
  { op := 0x0003, target := toSystem, len := fun _ => 4, largest := fun b => if byteAt b 0 = 0 then 1088 else 64,
    fields := fun _ => [rsv 1 3], unit := fun c s => okWith (capsResult s (byteAt c.pl 0)) s }

/-! ## CMD_ABORT (R48, Table 2-6) -/

/-- The channel that `CMD_ABORT` names.
Log: 24 (DEDUCED). -/
def abortOrigin (b : Bytes) : Origin := if byteAt b 0 = 0x80 then .mailbox else .ring (byteAt b 0)

/-- The state without what an Executing command in an abortable state waits in, or `none` in every other state (the
"abort:" marks of Tables 17-7, 17-9, 17-10 and 17-12).
Log: 24 (DEDUCED). -/
def abortExecuting (s : State) (f : InFlight) : Option State :=
  let n := f.cmd.inst
  let port := toPort f.cmd.tgt && decide ((sap s n).st = .clockLost)
  if f.begun = false ∨ f.outcome.isSome then none
  else
    match f.cmd.op with
    | 0x0604 =>
      match mget s.services (byteAt f.cmd.pl 5) with
      | some v => if v.lane = n ∧ (v.st = .waiting ∨ v.st = .filling) then some (dropService s (byteAt f.cmd.pl 5)) else none
      | none => none
    | 0x0802 => if port then some (putSap s n { sap s n with routePend := none }) else none
    | 0x0803 => if port then some (putSap s n { sap s n with maskPend := none }) else none
    | 0x0804 => if port then some s else none
    | 0x0902 => if s.tx.st = .pending ∧ s.tx.brkOwn = false ∧ s.tx.byTune = false then some (dropPending s) else none
    | 0x0B06 => if s.firn.st = .replaying then some (endReplay s) else none
    | _ => none

/-- `CMD_ABORT` (R48): the named command completes first.
Log: 24 (DEDUCED). -/
def cmdAbortUnit (c : Cmd) (s : State) : Reply :=
  match byTag s (abortOrigin c.pl) (le c.pl 2 2) with
  | none => badState
  | some f =>
    if f.phase = .executing then
      match abortExecuting s f with
      | some s1 => ok (complete s1 f stAbortedHost 0 [] s1.sid.now s.ev.nextId)
      | none => badState
    else ok (abortFlight s f)

/-- R48, `CMD_ABORT`. -/
def cmdAbortSpec : CmdSpec :=
  { op := 0x0004, target := toSystem, len := fun _ => 4,
    fields := fun _ => [fld 0 1 fun v => decide (v ≤ 0x80), rsv 1 1, wid 2 2 10], unit := cmdAbortUnit }

/-- `NOP` (R40): skipped with its payload, with no tag and no completion; one that fails step 1 halts its ring as any
packet does (R45).
Log: 27 (DEDUCED). -/
def execNop (a : Args) (s : State) : Host.Outcome State Fault Refusal :=
  let c : Cmd := ⟨0x0000, a⟩
  .next (if channelOpen s a.origin && badLen a.origin c.len then malformed c s else s)

def execIdentify (a : Args) (s : State) : Host.Outcome State Fault Refusal := .next (submit identifySpec a s)
def execGetStatus (a : Args) (s : State) : Host.Outcome State Fault Refusal := .next (submit getStatusSpec a s)
def execGetCaps (a : Args) (s : State) : Host.Outcome State Fault Refusal := .next (submit getCapsSpec a s)
def execCmdAbort (a : Args) (s : State) : Host.Outcome State Fault Refusal := .next (submit cmdAbortSpec a s)

end Sys2Proof.Machine
end

