-- ==== Sys2Proof/Machine/Meridian.lean ====
section
/-! DEFINITION. Machine/Meridian.lean: the Command Reference as one list, `SCHED_ADD`, `SCHED_CANCEL` and `SCHED_GET`,
releases, firings and steps of Sidereal time (R347–R357). -/

namespace Sys2Proof.Machine

/-! ## The Command Reference -/

/-- The commands that may stand in a `SCHED_ADD`: all but `NOP`, `CMD_ABORT` and groups 0x0A and 0x0F (R351). -/
def plainSpecs : List CmdSpec :=
  [identifySpec, getStatusSpec, getCapsSpec, pwrStateSetSpec, pwrGetSpec, pwrLimitSetSpec] ++
  [ringCreateSpec, ringDestroySpec, ringResetSpec, winSetSpec, eventWindowSetSpec] ++
  [refSetSpec, lockSetSpec, mclkSetSpec, refoutSetSpec, ppsoutSetSpec, clockGetSpec, auroraSetSpec, auroraRunSpec,
   auroraGetSpec] ++
  [antSetSpec, biasSetSpec, rfCalSpec, rfStatusGetSpec, blankSetSpec, divSetSpec] ++
  [zoneTuneSpec, zoneGetSpec, laneSetSpec, laneTuneSpec, laneStartSpec, laneStopSpec, laneSyncSpec, laneStreamSpec,
   laneGetSpec] ++
  [amSetSpec, fmSetSpec, qualityGetSpec, rdsStreamSpec, rdsGetSpec, flurrySetSpec, tapSetSpec, flakeAssignSpec,
   flakeReleaseSpec, flakeGetSpec, censusGetSpec, afSetSpec] ++
  [ofdmSetSpec, ensembleGetSpec, serviceListGetSpec, serviceStartSpec, serviceStopSpec, ofdmQualityGetSpec, ficStreamSpec,
   padStreamSpec, subchStreamSpec, surveySetSpec, tiiGetSpec] ++
  [linkAddSpec, linkRemoveSpec, linkGetSpec, linkConfigSpec, blendSetSpec, followSetSpec, blendNowSpec, followGetSpec,
   eqLoadSpec, eqSwapSpec, tshiftSetSpec, tshiftReadSpec] ++
  [sapSetSpec, sapRouteSpec, sapMaskSetSpec, sapStreamSpec, sapGetSpec] ++
  [txTuneSpec, txStartSpec, txStopSpec, txLevelSetSpec, txFmSetSpec, txDabSetSpec, txBreakinSetSpec, txBreakinSpec,
   txGetSpec, regLoadSpec, regCommitSpec, regLockSpec, regGetSpec, coexSetSpec, txSfnSetSpec, txMonGetSpec] ++
  [firnArmSpec, firnTriggerSpec, firnDisarmSpec, firnStreamSpec, firnLoadSpec, firnReplaySpec, firnGetSpec] ++
  [polarisSetSpec, polarisGetSpec, alertClearSpec, safeReleaseSpec, selftestRunSpec] ++
  [panelSetSpec, panelGetSpec] ++
  [ethSetSpec, udpStreamSetSpec, ethGetSpec, pcieGetSpec]

/-- The command of an opcode among those of `plainSpecs`. -/
def plainSpec (op : Nat) : Option CmdSpec := plainSpecs.find? fun p => p.op == op

/-! ## Slots -/

/-- The command packet inside a `SCHED_ADD` payload: its embedded header and payload, from the same channel (Table 11-7). -/
def embedded (c : Cmd) : Cmd := packetCmd c.a.origin c.a.addr.toNat (c.pl.drop 8)

/-- Opcodes that R351 bars from a `SCHED_ADD`. -/
def barred (op : Nat) : Bool := op == 0x0000 || op == 0x0004 || op / 256 == 0x0A || op / 256 == 0x0F

/-- `EV_SCHED` (R358), `n` occurrences. -/
def evSchedOf (s : State) (cause slot n : Nat) : State :=
  let e := cause + 256 * slot
  let s1 := raise s evSched 0x0A00 e
  s1.setEv { s1.ev with windows := s1.ev.windows.map fun w =>
    if w.code = evSched ∧ w.edetail = e ∧ 0 < w.left then { w with count := w.count + (n - 1) } else w }

/-- No firing time is left: the slot stays held until the last one has passed (R349).
Log: 43 (DEDUCED). -/
def Slot.ended (v : Slot) : Bool := decide (v.firings ≠ 0) && decide (v.firings ≤ v.passed)

/-- The slot after one firing time more: its next, if there is one, stands in it (R351). -/
def Slot.pass (v : Slot) : Slot :=
  let w := { v with passed := v.passed + 1, late := false }
  if w.ended then w else { w with nominal := v.nominal + v.period * tickU, due := v.nominal + v.period * tickU }

/-- Firing times that lie before `t`, of those that are left. -/
def Slot.behind (v : Slot) (t : Sid) : Nat :=
  if t ≤ v.nominal ∨ v.period = 0 then 0
  else
    let k := (t - v.nominal + v.period * tickU - 1) / (v.period * tickU)
    if v.firings = 0 then k else min k (v.firings - v.passed)

/-- `k` firing times are passed over. -/
def Slot.jump (v : Slot) (k : Nat) : Slot :=
  { v with passed := v.passed + k, skipped := v.skipped + k, nominal := v.nominal + k * (v.period * tickU),
           due := v.nominal + k * (v.period * tickU) }

/-- After a late release, firing times that are already past are counted in `SKIPPED` and the schedule resumes at the next
that is ahead; the slot ends where its last firing time has passed (R349, R351).
Log: 46 (DEDUCED). -/
def Slot.resume (v : Slot) (t : Sid) : Option Slot :=
  if v.ended then (if t ≤ v.nominal then some v else none)
  else
    let w := v.jump (v.behind t)
    if w.ended then none else some w

/-- A slot is stored, or freed. -/
def putSlot (s : State) (i : Nat) (v : Option Slot) : State :=
  s.setMerid { s.merid with slots := match v with
    | some w => mput s.merid.slots i w
    | none => mdel s.merid.slots i }

/-- A release is late: its time passed a whole tick or more ago, or a step passed over it (R353, R355).
Log: 13 (DEDUCED), 48 (DEDUCED). -/
def Slot.overdue (v : Slot) (s : State) : Bool := v.late || decide (v.nominal + tickU ≤ s.sid.now)

/-- The command in flight that a firing is: the embedded tag (R352).
Log: 47 (DEDUCED). -/
def firingFlight (s : State) (i : Nat) (v : Slot) : InFlight :=
  { cmd := v.cmd, seq := s.cmds.nextSeq, phase := .waiting, freed := none, late := v.overdue s, due := v.nominal, bit := false,
    firing := some i, begun := false, outcome := none, evs := [], since := 0 }

/-- One firing of a slot (R351, R352): released, or skipped with `EV_SCHED` cause 0x01 while its tag is in flight.
Log: 47 (DEDUCED). -/
def fire (i : Nat) (v : Slot) (s : State) : State :=
  if (byTag s v.cmd.a.origin v.cmd.a.tag.toNat).isSome then
    evSchedOf (putSlot s i ({ v with skipped := v.skipped + 1 }.pass.resume s.sid.now)) 1 i 1
  else
    match plainSpec v.cmd.op with
    | none => s
    | some p => release p (firingFlight s i v)
        (putSlot s i ({ v with fired := v.fired + 1 }.pass.resume s.sid.now))

/-! ## SCHED_ADD, SCHED_CANCEL and SCHED_GET (R351, R356, R357) -/

/-- Steps 3 and 5 to 9 on the embedded packet, offsets counted from byte 0 of the `SCHED_ADD` header (R351): the failing
status and `DETAIL`, and the failing host address.
Log: 44 (DEDUCED). -/
def checkEmbedded (s : State) (e : Cmd) : Option (Nat × Nat × Option Nat) :=
  if barred e.op then some (stBadParam, 24, none)
  else
    match plainSpec e.op with
    | none => some (stBadOpcode, 0, none)
    | some p =>
      match checkTarget p s e with
      | some (st, d, a) => some (st, if st = stBadParam then d + 24 else d, a)
      | none => if e.immediate then none else some (stBadParam, 32, none)

/-- `SCHED_ADD` (R351, R353, R354): accepted with its slot number; a first firing less than two ticks away is released at
once.
Log: 44 (DEDUCED), 45 (DEDUCED). -/
def schedAddUnit (c : Cmd) (s : State) : Reply :=
  let e := embedded c
  match checkEmbedded s e with
  | some (st, d, none) => .deny st d
  | some (st, _, some a) =>
    .done st (0x0300 + vlogNext s) [] (violate s 0x03 a (originLink s c.a.origin) (originInfo c.a.origin))
  | none =>
    let now := s.sid.now
    let w := if c.immediate then s.sid.next else sidOf now c.a.whn
    if w < now ∧ c.lateOk = false then .deny stLate (lateness now w)
    else
      match freeSlot s with
      | none => .deny stNoResource 0
      | some i =>
        let v : Slot := { sched := true, cmd := e, seq := s.merid.nextSeq, nominal := w,
                          due := if w < now then s.sid.next else w, period := le c.pl 0 4, firings := le c.pl 4 4, passed := 0,
                          fired := 0, skipped := 0, late := decide (w < now),
                          sample := ((plainSpec e.op).map (·.sample)).getD false }
        let s1 := s.setMerid { s.merid with nextSeq := s.merid.nextSeq + 1, slots := mput s.merid.slots i v }
        okWith (leBytes 4 i) (if now ≤ w ∧ w < now + 2 * tickU then fire i v s1 else s1)

/-- Table 11-7, `SCHED_ADD`. -/
def schedAddSpec : CmdSpec :=
  { op := 0x0A10, target := toTime, len := fun b => 24 + (if 14 ≤ b.length then le b 12 2 else 0), largest := fun _ => 4,
    fields := fun _ => [whenFld (fun b => le b 4 4 != 1) (fld 0 4 (0 < ·))], unit := schedAddUnit }

/-- `SCHED_CANCEL` (R356). -/
def schedCancelUnit (c : Cmd) (s : State) : Reply :=
  match mget s.merid.slots (le c.pl 0 2) with
  | some v => if v.sched then ok (putSlot s (le c.pl 0 2) none) else badState
  | none => badState

/-- `SCHED_CANCEL` payload (R357). -/
def schedCancelSpec : CmdSpec :=
  { op := 0x0A11, target := toTime, len := fun _ => 4, fields := fun _ => [rng 0 2 0 255, rsv 2 2], unit := schedCancelUnit }

/-- The slot that is released next: the earliest time, then the order of acceptance (R350). -/
def earlier (a b : Nat × Slot) : Nat × Slot :=
  if b.2.nominal < a.2.nominal ∨ (b.2.nominal = a.2.nominal ∧ b.2.seq < a.2.seq) then b else a

/-- The first slot of a list in the order of release. -/
def firstSlot : List (Nat × Slot) → Option (Nat × Slot)
  | [] => none
  | e :: es => some (es.foldl earlier e)

/-- The `SCHED_GET` result: the summary, or one slot (Table 11-8). -/
def schedResult (s : State) (i : Nat) : Bytes :=
  if i = 0xFFFF then
    leBytes 2 s.merid.slots.length ++ zeros 6 ++ leBytes 4 s.merid.releases ++ leBytes 4 s.merid.lates ++
      leBytes 8 (((firstSlot s.merid.slots).map fun e => (whenOf e.2.nominal).toNat).getD 0) ++ zeros 8
  else
    match mget s.merid.slots i with
    | none => zeros 32
    | some v =>
      leBytes 1 (if v.sched then 2 else 1) ++
        leBytes 1 (match v.cmd.a.origin with
          | .ring n => n
          | _ => 0x80) ++
        leBytes 2 v.cmd.a.tag.toNat ++ leBytes 2 v.cmd.op ++ leBytes 2 v.cmd.tgt ++ leBytes 8 (whenOf v.nominal).toNat ++
        leBytes 4 v.fired ++ leBytes 4 v.skipped ++ zeros 8

/-- `SCHED_GET` (R357). -/
def schedGetSpec : CmdSpec :=
  { op := 0x0A12, target := toTime, len := fun _ => 4, largest := fun _ => 32,
    fields := fun _ => [fld 0 2 fun v => decide (v < 256) || v == 0xFFFF, rsv 2 2],
    unit := fun c s => okWith (schedResult s (le c.pl 0 2)) s }

def execSchedAdd (a : Args) (s : State) : Host.Outcome State Fault Refusal := .next (submit schedAddSpec a s)
def execSchedCancel (a : Args) (s : State) : Host.Outcome State Fault Refusal := .next (submit schedCancelSpec a s)
def execSchedGet (a : Args) (s : State) : Host.Outcome State Fault Refusal := .next (submit schedGetSpec a s)

/-- Every command of Tables 17-1 to 17-16 but `NOP`. -/
def specs : List CmdSpec :=
  plainSpecs ++
  [cmdAbortSpec, timeSrcSetSpec, ptpSetSpec, timeSetSpec, timeAcceptStepSpec, timeAdjustSpec, timeGetSpec, schedAddSpec,
   schedCancelSpec, schedGetSpec, fwBeginSpec, fwWriteSpec, fwFinishSpec, fwStatusSpec, devResetSpec]

/-- The command of an opcode (step 3 of Table 2-5). -/
def specOf (op : Nat) : Option CmdSpec := specs.find? fun p => p.op == op

/-! ## Releases (R349, R350, R411) -/

/-- The release time of a slot has come: the first boundary at or after its time, or for a sample-timed action the last
boundary at least two ticks before it (R350). -/
def releaseDue (s : State) (v : Slot) : Bool :=
  if v.ended then false
  else if v.sample ∧ v.late = false then decide (v.due < s.sid.bound + 3 * tickU) else decide (v.due ≤ s.sid.bound)

/-- A due release that Frost holds: a command to a unit that is not served there (R411). -/
def frostHolds (s : State) (v : Slot) : Bool := decide (s.pwr.state = .frost) && !servedInFrost v.cmd.unitId

/-- The slot that this tick boundary releases next (R350); none while the cores are halted.
Log: 42 (DEDUCED). -/
def nextRelease (s : State) : Option (Nat × Slot) :=
  if s.pol.halted then none
  else firstSlot (s.merid.slots.filter fun e => releaseDue s e.2 && !frostHolds s e.2)

/-- A due release of a slot that Frost holds returns the device to Active (R411).
Log: 42 (DEDUCED). -/
def frostEnds (s : State) : State :=
  if s.merid.slots.any fun e => releaseDue s e.2 && frostHolds s e.2 then leaveFrost s else s

/-- A plain command leaves its slot and is released (R349, R350, R355).
Log: 48 (DEDUCED). -/
def releasePlain (i : Nat) (v : Slot) (s : State) : State :=
  let s1 := putSlot s i none
  match byTag s1 v.cmd.a.origin v.cmd.a.tag.toNat, specOf v.cmd.op with
  | some f, some p => release p { f with late := v.overdue s } s1
  | _, _ => s1

/-- `MERIDIAN_RELEASE` (R350): the next due slot, if it holds a plain command.
Log: 41 (DEDUCED). -/
def execMeridianRelease (s : State) : Host.Outcome State Fault Refusal :=
  match nextRelease s with
  | some (i, v) => if v.sched then .next s else .next (releasePlain i v s)
  | none => .next (frostEnds s)

/-- `SCHED_FIRING` (R350–R352): the next due slot is that of a `SCHED_ADD`.
Log: 41 (DEDUCED). -/
def execSchedFiring (slot : Nat) (s : State) : Host.Outcome State Fault Refusal :=
  match nextRelease s with
  | some (i, v) => if v.sched ∧ i = slot then .next (fire i v s) else .next s
  | none => .next (frostEnds s)

/-- The output samples that a sample-timed action meets lie this far apart: those of an audio path for `EQ_SWAP_BANK`, else
those of a zone.
Log: 13 (DEDUCED). -/
def sampleStep (s : State) (op : Nat) : Nat := if op = 0x070A then secU / 48000 else 8 * secU / fsOf s

/-- `SAMPLE_TIMED_APPLY` (R350, R354): the owning island applies an action at its first sample at or after `WHEN`; where it
comes after that sample, it is late.
Log: 13 (DEDUCED). -/
def execSampleTimedApply (o : Origin) (tag : BitVec 10) (t : Sid) (s : State) : Host.Outcome State Fault Refusal :=
  match byTag s o tag.toNat with
  | none => .next s
  | some f =>
    match specOf f.cmd.op with
    | none => .next s
    | some p =>
      let s1 := advance s t
      if f.phase = .executing ∧ f.begun = false ∧ p.sample ∧ f.due ≤ s1.sid.now then
        .next (launch p { f with late := f.late || decide (f.due + sampleStep s1 f.cmd.op ≤ s1.sid.now) } s1)
      else .next s

/-! ## Steps (R347, R348, R355) -/

/-- Slots whose last firing time has passed are free (R349).
Log: 43 (DEDUCED). -/
def freeEnded (s : State) : State :=
  s.setMerid { s.merid with slots := s.merid.slots.filter fun e => !(e.2.ended && decide (e.2.nominal < s.sid.now)) }

/-- A slot whose time a forward step has passed over: its latest firing time is released at the next boundary, late.
Log: 39 (DEDUCED), 46 (DEDUCED). -/
def stepSlot (s : State) (e : Nat × Slot) : State :=
  let v := e.2
  if v.ended then (if s.sid.now ≤ v.nominal then s else putSlot s e.1 none)
  else if s.sid.now ≤ v.nominal then
    putSlot s e.1 (some { v with due := if v.late then s.sid.next else v.nominal })
  else
    let k := v.behind s.sid.now - 1
    let s1 := putSlot s e.1 (some { v.jump k with due := s.sid.next, late := true })
    if k = 0 then s1 else evSchedOf s1 2 e.1 k

/-- Samples with their times on the new scale. -/
def movedAll (d : Int) (xs : List TsSample) : List TsSample := xs.map fun x => { x with time := moved d x.time }

/-- A serial audio port keeps its frames, its ramps and its FIFOs over a step. -/
def movedSap (d : Int) (p : Sap) : Sap :=
  let no (n : Nat) : Nat := ((n : Int) + d * 48000 / secU).toNat
  { p with last := moved d p.last, maskFrom := moved d p.maskFrom, routeFrom := moved d p.routeFrom, stopAt := moved d p.stopAt
           rampAt := moved d p.rampAt, remeasAt := moved d p.remeasAt, fadeTo := moved d p.fadeTo, rd := no p.rd, inWr := no p.inWr
           feed := movedAll d p.feed }

/-- The audio that is under way keeps its place: path outputs, ports, streams and the exciter's ramps. -/
def stepAudio (d : Int) (s : State) : State :=
  let s1 := s.setPaths (s.paths.map fun e => (e.1, { e.2 with past := movedAll d e.2.past }))
  let s2 := s1.setSaps (s1.saps.map fun e => (e.1, movedSap d e.2))
  let s3 := s2.setEth { s2.eth with
    streams := s2.eth.streams.map fun e => (e.1, { e.2 with
      startAt := moved d e.2.startAt, outNo := 0, arrivals := e.2.arrivals.map fun a => (moved d a.1, a.2) })
    reasm := s2.eth.reasm.map fun r => { r with first := moved d r.first } }
  let s3 := s3.setI2c { s3.i2c with lastReq := moved d s3.i2c.lastReq }
  let s3 := s3.setFirn { s3.firn with rpShift := s3.firn.rpShift - d }
  s3.setTx { s3.tx with ramp := { s3.tx.ramp with start := moved d s3.tx.ramp.start }, stopAt := moved d s3.tx.stopAt
                        muteAt := moved d s3.tx.muteAt }

/-- The windows that a step cuts short are discarded (R348). -/
def cutWindows (s : State) : State :=
  let s1 := s.setLanes (s.lanes.map fun e => (e.1, { e.2 with window := LevelWindow.reset }))
  let s2 := s1.setDemods (s1.demods.map fun e => (e.1, { e.2 with window := AudioWindow.reset }))
  s2.setFlurry { s2.flurry with flakes := s2.flurry.flakes.map fun e => (e.1, { e.2 with window := AudioWindow.reset, adj := [0, 0, 0] }) }

/-- Every consumer of Sidereal time moves with a step of `d` (R95, R348): blocks of the serial audio ports end; the DAB
exciter emits nothing before the first frame that begins 24 ms after it; a fade, a PPS pulse, a grant and a `MOD_TIME` keep
their length.
Log: 39 (DEDUCED). -/
def stepConsumers (d : Int) (s : State) : State :=
  let s1 := [0, 1, 2, 3].foldl endBlock s
  let s2 := s1.setTx { s1.tx with gridFrom := s1.sid.now + 24000000 * 65536, gntAt := moved d s1.tx.gntAt }
  let s3 := s2.setClk { s2.clk with ppsEnd := if s2.clk.ppsEnd = 0 then 0 else moved d s2.clk.ppsEnd,
                                    recent := s2.clk.recent.map (moved d) }
  let s4 := s3.setRings (s3.rings.map fun e => (e.1, { e.2 with firstAt := moved d e.2.firstAt }))
  let s5 := s4.setGroups (s4.groups.map fun e => (e.1, { e.2 with
    fade := e.2.fade.map fun f => { f with start := moved d f.start, stop := moved d f.stop } }))
  let s6 := s5.setCmds { s5.cmds with list := s5.cmds.list.map fun f => { f with since := moved d f.since } }
  let s7 := (s6.setZones (s6.zones.map fun e => (e.1, { e.2 with resetAt := moved d e.2.resetAt }))).setLanes
    (s6.lanes.map fun e => (e.1, { e.2 with resetAt := moved d e.2.resetAt }))
  let s8 := s7.setAur { s7.aur with slewEnd := moved d s7.aur.slewEnd }
  let s9 := s8.setRf { s8.rf with
    ants := s8.rf.ants.map fun e => (e.1, { e.2 with calFrom := moved d e.2.calFrom })
    spans := s8.rf.spans.map fun w => { w with start := moved d w.start, stop := w.stop.map (moved d) }
    latches := s8.rf.latches.map fun l => (l.1, moved d l.2) }
  cutWindows (stepAudio d s9)

/-- `SIDEREAL_STEP` (R347): a step that was asked for before this tick boundary is applied at it.
Log: 39 (DEDUCED), 40 (DEDUCED). -/
def execSiderealStep (s : State) : Host.Outcome State Fault Refusal :=
  match dueStep s with
  | none => .next s
  | some q =>
    let s0 := (s.lanes.map (·.1)).foldl cutBlock s
    let s1 := applyStep s0 q
    let s2 := stepConsumers ((s1.sid.now : Int) - s.sid.now) s1
    .next (s2.merid.slots.foldl stepSlot s2)

end Sys2Proof.Machine
end

