-- ==== Sys2Proof/Machine/Interp.lean ====
section
/-! DEFINITION. Machine/Interp.lean: the tick of the command interpreter, the outcomes that owning islands report, and the
sequences of the generation-1 codes (R19, R21–R24, R30, R32, R45, R53, R61, R497–R499). -/

namespace Sys2Proof.Machine

/-! ## Generation-1 sequences (Table 17-24) -/

/-- A packet of a sequence. -/
def legacyPacket (op tgt : Nat) (b : Bytes) : Cmd :=
  { op := op, a := { origin := .legacy, addr := 0, tag := 0, flags := 0, target := BitVec.ofNat 16 tgt, whn := 0, payload := b } }

/-- The `TARGET` of the lane that `L_LANE` selects. -/
def legacyTarget (s : State) : Nat := 0x0300 + s.leg.lane

/-- `L_ARG` as the payload of a command of `n` bytes. -/
def legacyArgs (s : State) (n : Nat) : Bytes := fit n s.leg.arg

/-- The sequence of a code fails before it sends anything. -/
def legacyFail (s : State) (err : Nat) : State :=
  s.setLeg { s.leg with start := false, err := true, lErr := err, seq := [], cts := true }

/-- The next packet of the sequence is sent once the one before has completed.
Log: 157 (DEDUCED). -/
def legacyNext (look : Cmd → Option CmdSpec) (s : State) : State :=
  match s.leg.seq with
  | [] => s
  | c :: cs =>
    if channelOpen s .legacy = false ∨ s.cmds.list.any fun f => decide (f.cmd.a.origin = .legacy) then s
    else take (look c) c (s.setLeg { s.leg with seq := cs })

/-- A code that was written to `L_CMD` begins its sequence.
Log: 157 (DEDUCED). -/
def legacyRun (code : Nat) (seq : State → List Cmd) (s : State) : Host.Outcome State Fault Refusal :=
  if s.hcfg.legEn ∧ s.leg.start ∧ s.leg.cmd = code then
    .next (legacyNext (fun c => specOf c.op) (s.setLeg { s.leg with start := false, seq := seq s }))
  else .next s

/-- The sequence of a tune code with a `USE` and the set command of its demodulator, if it has one (Table 17-24). -/
def tuneSeq (use : Nat) (set : Option (Nat × Bytes)) (s : State) : List Cmd :=
  let t := legacyTarget s
  let z := if s.leg.lane = 0 then 7 else 15
  let st := (lane s t).st
  let cfg : Bytes := leBytes 1 use ++ [1, 0, 0] ++ leBytes 1 z ++ [0xFF, 0xFF, 0xFF] ++ zeros 16
  (if st = .idle ∨ st = .stopped then [] else [legacyPacket 0x0406 t []]) ++
    [legacyPacket 0x0403 t cfg, legacyPacket 0x0404 t (leBytes 8 (le s.leg.arg 0 4 * 1000000) ++ zeros 8),
     legacyPacket 0x0405 t []] ++
    match set with
    | some (op, b) => [legacyPacket op t b]
    | none => []

/-- The frequency of a tune code lies within 144 kHz to 319.8 MHz (R497). -/
def tuneRange (s : State) : Bool := decide (144 ≤ le s.leg.arg 0 4 ∧ le s.leg.arg 0 4 ≤ 319800)

/-- A tune code: outside the range of R497, the code of `ST_BAD_PARAM`. -/
def legacyTune (code use : Nat) (set : State → Option (Nat × Bytes)) (s : State) : Host.Outcome State Fault Refusal :=
  if s.hcfg.legEn ∧ s.leg.start ∧ s.leg.cmd = code ∧ tuneRange s = false then .next (legacyFail s stBadParam)
  else legacyRun code (fun q => tuneSeq use (set q) q) s

/-- A code of one command with its payload from `L_ARG`. -/
def legacyOne (code op n : Nat) (onLane : Bool) (s : State) : Host.Outcome State Fault Refusal :=
  legacyRun code (fun q => [legacyPacket op (if onLane then legacyTarget q else 0) (legacyArgs q n)]) s

def execG1Identify (s : State) : Host.Outcome State Fault Refusal := legacyOne 0x01 0x0001 0 false s
def execG1GetStatus (s : State) : Host.Outcome State Fault Refusal := legacyOne 0x02 0x0002 0 false s
def execG1GetCaps (s : State) : Host.Outcome State Fault Refusal := legacyOne 0x03 0x0003 4 false s

/-- `FM_TUNE`: `FM_SET` with `PROG` and defaults last. -/
def execFmTune (s : State) : Host.Outcome State Fault Refusal :=
  legacyTune 0x10 3 (fun q => some (0x0502, splice fmDefault 0 [q.leg.arg.getD 4 0])) s

/-- `AM_TUNE`: as `FM_TUNE` with `AM_SET`. -/
def execAmTune (s : State) : Host.Outcome State Fault Refusal :=
  legacyTune 0x11 2 (fun q => some (0x0501, splice amDefault 0 [q.leg.arg.getD 4 0])) s

def execDabTune (s : State) : Host.Outcome State Fault Refusal := legacyTune 0x12 4 (fun _ => none) s

/-- `DRM_TUNE`: offset 0x09 selects robustness modes A–D or mode E; another value is out of range.
Log: 158 (DESIGN CHOICE). -/
def execDrmTune (s : State) : Host.Outcome State Fault Refusal :=
  if s.hcfg.legEn ∧ s.leg.start ∧ s.leg.cmd = 0x13 ∧ 1 < byteAt s.leg.arg 5 then .next (legacyFail s stBadParam)
  else legacyTune 0x13 (if byteAt s.leg.arg 5 = 0 then 5 else 6) (fun _ => none) s

def execRxStop (s : State) : Host.Outcome State Fault Refusal := legacyOne 0x14 0x0406 0 true s
def execFmConfig (s : State) : Host.Outcome State Fault Refusal := legacyOne 0x20 0x0502 20 true s
def execAmConfig (s : State) : Host.Outcome State Fault Refusal := legacyOne 0x21 0x0501 8 true s

/-- `SIGNAL_READ`: `OFDM_QUALITY_GET` for `USE` 0x4–0x6, else `QUALITY_GET`.
Log: 159 (DEDUCED). -/
def execSignalRead (s : State) : Host.Outcome State Fault Refusal :=
  if 4 ≤ fullUse s s.leg.lane then legacyOne 0x22 0x0606 (ofdmQualityGetSpec.len []) true s
  else legacyOne 0x22 0x0503 (qualityGetSpec.len []) true s

def execRdsRead (s : State) : Host.Outcome State Fault Refusal := legacyOne 0x23 0x0505 (rdsGetSpec.len []) true s
def execEnsembleRead (s : State) : Host.Outcome State Fault Refusal := legacyOne 0x24 0x0602 0 true s
def execServiceListRead (s : State) : Host.Outcome State Fault Refusal :=
  legacyOne 0x30 0x0603 (serviceListGetSpec.len []) true s
def execServicePlay (s : State) : Host.Outcome State Fault Refusal := legacyOne 0x31 0x0604 12 true s
def execServiceHalt (s : State) : Host.Outcome State Fault Refusal :=
  legacyOne 0x32 0x0605 (serviceStopSpec.len []) true s

/-- The codes of Table 17-24. -/
def legacyCodes : List Nat :=
  [0x01, 0x02, 0x03, 0x10, 0x11, 0x12, 0x13, 0x14, 0x20, 0x21, 0x22, 0x23, 0x24, 0x30, 0x31, 0x32]

/-- `G1_UNDEFINED_CODE` (R499). -/
def execG1UndefinedCode (s : State) : Host.Outcome State Fault Refusal :=
  if s.hcfg.legEn ∧ s.leg.start ∧ legacyCodes.contains s.leg.cmd = false then .next (legacyFail s stBadOpcode) else .next s

/-! ## Outcomes (R23) -/

/-- Commands whose outcome another row of the table reports: `ZONE_TUNE` and the lane commands that act on samples. -/
def ownOutcome (op : Nat) : Bool := op == 0x0401 || op == 0x0306 || decide (0x0404 ≤ op ∧ op ≤ 0x0407)

/-- An internal inconsistency is counted in `INTERNAL_ERRS` (R487). -/
def countInternal (s : State) : State := s.setCmds { s.cmds with internal := sat 32 (s.cmds.internal + 1) }

/-- An Executing command that has had no effect yet: an action sent early that waits for its `WHEN`, or one that its lane or
zone has still to reach. -/
def noEffectYet (f : InFlight) : Bool :=
  decide (f.phase = .executing) && (!f.begun || (ownOutcome f.cmd.op && f.outcome.isNone))

/-- `COMPLETION_WRITE` (R23): the owning island reports the outcome of an Executing command; `internal` says that it found an
internal inconsistency before the command took effect (R487).
Log: 174 (DESIGN CHOICE). -/
def execCompletionWrite (o : Origin) (tag : BitVec 10) (internal : Bool) (t : Sid) (s : State) :
    Host.Outcome State Fault Refusal :=
  match byTag s o tag.toNat with
  | none => .next s
  | some f =>
    let s1 := advance s t
    if internal then
      if noEffectYet f then .next (complete (countInternal s1) { f with late := false } stInternal 0 [] s1.sid.now s1.ev.nextId)
      else .next s
    else
      match f.outcome with
      | none => .next s
      | some r =>
        if ownOutcome f.cmd.op then .next s
        else .next (complete s1 f r.status r.detail r.result s1.sid.now s1.ev.nextId)

/-- The command as a device executes it that finds an internal inconsistency before the effect (R487). -/
def CmdSpec.failing (p : CmdSpec) : CmdSpec :=
  { p with unit := fun c s =>
    match p.unit c s with
    | .deny st d => .deny st d
    | _ => .done stInternal 0 [] (countInternal s) }

/-- What the Command Reference says of a packet's opcode, at a tick that finds the commands `bad` inconsistent (R487).
Log: 174 (DESIGN CHOICE). -/
def specIn (bad : List (Origin × Nat)) (c : Cmd) : Option CmdSpec :=
  if bad.contains (c.a.origin, c.a.tag.toNat) then (specOf c.op).map CmdSpec.failing else specOf c.op

/-! ## The tick (R19, R21) -/

/-- Ticks pass: the time base is clocked. -/
def tickTime (s : State) : State :=
  let s1 := s.setSid { s.sid.goTo s.sid.next with next := s.sid.next + tickU, bound := s.sid.next, ticks := s.sid.ticks + 1 }
  s1.setCmds { s1.cmds with served := [], budget := 0 }

/-- Coalescing windows close by one tick (R24).
Log: 21 (DEDUCED). -/
def tickEvents (s : State) : State :=
  s.setEv { s.ev with windows := s.ev.windows.map fun w => { w with left := w.left - 1 } }

/-- An `EVENT_WINDOW_SET` accepted before this tick takes effect (R489). -/
def eventsApply (s : State) : State :=
  s.setEv { s.ev with ticks := s.ev.pending.foldl (fun m e => mput m e.1 e.2) s.ev.ticks, pending := [] }

/-- The settings that apply at the tick after their command (R214, R287, R484, R489). -/
def applySettings (s : State) : State :=
  blendApply (linksApply (afApply (flurryApply (demodsApply (panelApply (eventsApply s))))))

/-- The commands whose settings apply at the next tick: `EVENT_WINDOW_SET`, `AM_SET`, `FM_SET`, `FLURRY_SET`, `AF_SET`,
`LINK_CONFIG`, `BLEND_SET` and `PANEL_SET`. -/
def tickSettings : List Nat := [0x0105, 0x0501, 0x0502, 0x0510, 0x0516, 0x0704, 0x0705, 0x0D01]

/-- A command whose settings have applied completes, at the time of its effect (R23). -/
def settleNext (s : State) : State :=
  let s1 := applySettings s
  (s1.cmds.list.filter fun f => decide (f.phase = .executing) && f.begun && f.outcome.isNone && tickSettings.contains f.cmd.op).foldl
    (fun q f => complete q f stOk 0 [] q.sid.now q.ev.nextId) s1

/-- What the units do at a tick boundary in Active and Avalanche.
Log: 160 (DEDUCED). -/
def tickUnits (m : TickIn) (s : State) : State :=
  if governed s then
    let s0 := divsTick (feed s m.adc s.sid.now)
    let s0 := streamFirn (levelTick (replayTick (fun c => specOf c.op) s0))
    let s1 := streamsTick (groupsTick (blendNext (pathsTick m.tsDenied (delaysTick (demodsTick (agcAll s0 m))))))
    let s2 := pttTick ((boostTick s1).setTx { s1.tx with dutyClock := s1.tx.dutyClock + 1 })
    let s3 := dueTick (exciterTick (brkUpdate (taTrigger s2)))
    latchNow s3 (indexAt s3 s3.sid.now)
  else s

/-- Management-plane actions that came early and are due (R354).
Log: 23 (DEDUCED). -/
def dueFlight (s : State) (f : InFlight) : Bool :=
  decide (f.phase = .executing) && !f.begun && f.outcome.isNone && decide (f.due ≤ s.sid.now) &&
    !(((specOf f.cmd.op).map (·.sample)).getD false)

/-- A due action takes effect.
Log: 23 (DEDUCED). -/
def launchDue (look : Cmd → Option CmdSpec) (s : State) (f : InFlight) : State :=
  match look f.cmd with
  | some p => if s.cmds.list.any fun g => g.seq == f.seq then launch p f s else s
  | none => s

/-- A Held command may be dispatched: the 64 of the tick are not spent, and the completion ring of its channel holds no entry
back (R21, R54). -/
def mayDispatch (s : State) (f : InFlight) : Bool :=
  decide (s.cmds.budget < 64) && match f.cmd.a.origin with
    | .ring n => pairFree s n
    | _ => true

/-- The Held command that was freed first, among those that a completion before this boundary freed: one numbered below
`start` (R21). The sending of one Held after release counts against nothing (R21, R32). -/
def nextFreed (start : Nat) (s : State) : Option InFlight :=
  (s.cmds.list.filter fun f => (decide (f.phase = .heldAfter) || (decide (f.phase = .held) && mayDispatch s f)) &&
      ((f.freed.map fun n => decide (n < start)).getD false)).foldl
    (fun b f => match b with
      | none => some f
      | some g => if f.freed.getD 0 < g.freed.getD 0 then some f else b) none

/-- One command more of this tick's 64 (R21). -/
def spend (s : State) : State := s.setCmds { s.cmds with budget := s.cmds.budget + 1 }

/-- A Held command is dispatched; one Held after release is sent to its owning island, or waits for its time (R32, R354).
Log: 11 (DEDUCED). -/
def unhold (look : Cmd → Option CmdSpec) (s : State) (f : InFlight) : State :=
  let g := { f with freed := none, phase := .executing }
  let s1 := putFlight s g
  if f.phase = .held then dispatch (look f.cmd) g (spend s1)
  else
    match look f.cmd with
    | some p => if ¬ p.sample ∧ s.sid.now < f.due then s1 else launch p g s1
    | none => s1

/-- Held commands go first, in the order of the completions that freed them. One behind which another has come to stand is
blocked anew, and a Held one whose `TARGET` has seen a completion at this tick waits for the next (R21, R30).
Log: 10 (DEDUCED). -/
def tickHeld (look : Cmd → Option CmdSpec) (start : Nat) : Nat → State → State
  | 0, s => s
  | k + 1, s =>
    match nextFreed start s with
    | none => s
    | some f =>
      if blocked s f.cmd f.seq then tickHeld look start k (putFlight s { f with freed := none })
      else
        match if f.phase = .held then servedNow s f.cmd else none with
        | some n => tickHeld look start k (putFlight s { f with freed := some n })
        | none => tickHeld look start k (unhold look s f)

/-- What a channel gives at this tick: the state after its next packet has been taken, or `none` where it has none.
Log: 27 (DEDUCED), 30 (DEDUCED). -/
def takeRing (look : Cmd → Option CmdSpec) (s : State) (n : Nat) : Option State :=
  if channelOpen s (.ring n) = false then none
  else
    match mget s.rings n with
    | none => none
    | some r0 =>
      let s1 := match nextPacket s n r0 with
        | .skip k => skipTail s n k
        | _ => s
      match mget s1.rings n with
      | none => none
      | some r =>
        match nextPacket s1 n r with
        | .nop k => some (consume s1 n k)
        | .bad c => some (malformed c s1)
        | .cmd c k => some (take (look c) c (consume s1 n k))
        | _ => none

/-- The next packet of the mailbox that the device has copied (R61).
Log: 27 (DEDUCED). -/
def takeMailbox (look : Cmd → Option CmdSpec) (s : State) : Option State :=
  match s.mbx.copied with
  | [] => none
  | p :: ps =>
    let c := packetCmd .mailbox 0x0100 p
    let s1 := s.setMbx { s.mbx with copied := ps }
    if channelOpen s1 .mailbox = false then none
    else some (if c.op = 0 ∧ badLen .mailbox c.len = false then s1 else take (look c) c s1)

/-- One turn of a channel, 128 for the mailbox, within the 64 of the tick (R21).
Log: 28 (DEDUCED). -/
def turn (look : Cmd → Option CmdSpec) (s : State) (ch : Nat) : State :=
  if 64 ≤ s.cmds.budget then s
  else
    match if ch = 128 then takeMailbox look s else takeRing look s ch with
    | none => s
    | some s1 =>
      let s2 := spend s1
      s2.setCmds { s2.cmds with nextRing := (ch + 1) % 129 }

/-- The channels in the order of their turns, from the one at which the round robin resumes.
Log: 28 (DEDUCED). -/
def turns (s : State) : List Nat :=
  let all := ((s.rings.filter fun e => decide (e.2.kind = .command)).map (·.1)) ++ [128]
  all.filter (fun c => decide (s.cmds.nextRing ≤ c)) ++ all.filter (fun c => decide (c < s.cmds.nextRing))

/-- Rounds of turns until a round takes nothing.
Log: 28 (DEDUCED). -/
def rounds (look : Cmd → Option CmdSpec) : Nat → List Nat → State → State
  | 0, _, s => s
  | k + 1, cs, s =>
    let s1 := cs.foldl (turn look) s
    if s1.cmds.budget = s.cmds.budget then s1 else rounds look k cs s1

/-- What the command interpreter does at a tick boundary (R21, R32, R354). -/
def tickCommands (look : Cmd → Option CmdSpec) (s : State) : State :=
  let s1 := settleNext ((s.cmds.list.filter (dueFlight s)).foldl (launchDue look) s)
  let s2 := tickHeld look s.cmds.completed (2 * s1.cmds.list.length + 1) s1
  legacyNext look (rounds look 64 (turns s2) s2)

/-- `TICK` (R19, R21): a tick boundary, with what the sensors give. While the time island is not clocked there is none
(R337); while the cores are halted only time passes (R389). A device reset that `DEV_RESET` asked for takes the place of
the rest (R436).
Log: 6 (DESIGN CHOICE), 131 (DEDUCED), 160 (DEDUCED). -/
def execTick (m : TickIn) (s : State) : Host.Outcome State Fault Refusal :=
  if s.sid.running = false then .next s
  else if s.pwr.resetPend then .next (resetDevice s 4 true)
  else
    let s1 := tickTime s
    if s1.pol.halted then .next s1
    else
      let s2 := startSlew (panelTick (releaseSda (freeEnded (tickEvents (applySettings (loopsTick s1 m.ref m.xo))))))
      .next (tickCommands (specIn m.faulty) (thermalWarning (sense (tickUnits m s2) m)))

end Sys2Proof.Machine
end

