-- ==== Sys2Proof/Machine/Dispatch.lean ====
section
/-! DEFINITION. Machine/Dispatch.lean: one direct call of its meaning for every command of the block. -/

namespace Sys2Proof.Machine

def exec (i : Instr) (s : State) : Host.Outcome State Fault Refusal :=
  match i with
  | .nop a => Sys2Proof.Machine.execNop a s
  | .identify a => Sys2Proof.Machine.execIdentify a s
  | .getStatus a => Sys2Proof.Machine.execGetStatus a s
  | .getCaps a => Sys2Proof.Machine.execGetCaps a s
  | .cmdAbort a => Sys2Proof.Machine.execCmdAbort a s
  | .pwrStateSet a => Sys2Proof.Machine.execPwrStateSet a s
  | .pwrGet a => Sys2Proof.Machine.execPwrGet a s
  | .pwrLimitSet a => Sys2Proof.Machine.execPwrLimitSet a s
  | .ringCreate a => Sys2Proof.Machine.execRingCreate a s
  | .ringDestroy a => Sys2Proof.Machine.execRingDestroy a s
  | .ringReset a => Sys2Proof.Machine.execRingReset a s
  | .winSet a => Sys2Proof.Machine.execWinSet a s
  | .eventWindowSet a => Sys2Proof.Machine.execEventWindowSet a s
  | .refSet a => Sys2Proof.Machine.execRefSet a s
  | .lockSet a => Sys2Proof.Machine.execLockSet a s
  | .mclkSet a => Sys2Proof.Machine.execMclkSet a s
  | .refoutSet a => Sys2Proof.Machine.execRefoutSet a s
  | .ppsoutSet a => Sys2Proof.Machine.execPpsoutSet a s
  | .clockGet a => Sys2Proof.Machine.execClockGet a s
  | .auroraSet a => Sys2Proof.Machine.execAuroraSet a s
  | .auroraRun a => Sys2Proof.Machine.execAuroraRun a s
  | .auroraGet a => Sys2Proof.Machine.execAuroraGet a s
  | .antSet a => Sys2Proof.Machine.execAntSet a s
  | .biasSet a => Sys2Proof.Machine.execBiasSet a s
  | .rfCal a => Sys2Proof.Machine.execRfCal a s
  | .rfStatusGet a => Sys2Proof.Machine.execRfStatusGet a s
  | .blankSet a => Sys2Proof.Machine.execBlankSet a s
  | .divSet a => Sys2Proof.Machine.execDivSet a s
  | .zoneTune a => Sys2Proof.Machine.execZoneTune a s
  | .zoneGet a => Sys2Proof.Machine.execZoneGet a s
  | .laneSet a => Sys2Proof.Machine.execLaneSet a s
  | .laneTune a => Sys2Proof.Machine.execLaneTune a s
  | .laneStart a => Sys2Proof.Machine.execLaneStart a s
  | .laneStop a => Sys2Proof.Machine.execLaneStop a s
  | .laneSync a => Sys2Proof.Machine.execLaneSync a s
  | .laneStream a => Sys2Proof.Machine.execLaneStream a s
  | .laneGet a => Sys2Proof.Machine.execLaneGet a s
  | .amSet a => Sys2Proof.Machine.execAmSet a s
  | .fmSet a => Sys2Proof.Machine.execFmSet a s
  | .qualityGet a => Sys2Proof.Machine.execQualityGet a s
  | .rdsStream a => Sys2Proof.Machine.execRdsStream a s
  | .rdsGet a => Sys2Proof.Machine.execRdsGet a s
  | .flurrySet a => Sys2Proof.Machine.execFlurrySet a s
  | .tapSet a => Sys2Proof.Machine.execTapSet a s
  | .flakeAssign a => Sys2Proof.Machine.execFlakeAssign a s
  | .flakeRelease a => Sys2Proof.Machine.execFlakeRelease a s
  | .flakeGet a => Sys2Proof.Machine.execFlakeGet a s
  | .censusGet a => Sys2Proof.Machine.execCensusGet a s
  | .afSet a => Sys2Proof.Machine.execAfSet a s
  | .ofdmSet a => Sys2Proof.Machine.execOfdmSet a s
  | .ensembleGet a => Sys2Proof.Machine.execEnsembleGet a s
  | .serviceListGet a => Sys2Proof.Machine.execServiceListGet a s
  | .serviceStart a => Sys2Proof.Machine.execServiceStart a s
  | .serviceStop a => Sys2Proof.Machine.execServiceStop a s
  | .ofdmQualityGet a => Sys2Proof.Machine.execOfdmQualityGet a s
  | .ficStream a => Sys2Proof.Machine.execFicStream a s
  | .padStream a => Sys2Proof.Machine.execPadStream a s
  | .subchStream a => Sys2Proof.Machine.execSubchStream a s
  | .surveySet a => Sys2Proof.Machine.execSurveySet a s
  | .tiiGet a => Sys2Proof.Machine.execTiiGet a s
  | .linkAdd a => Sys2Proof.Machine.execLinkAdd a s
  | .linkRemove a => Sys2Proof.Machine.execLinkRemove a s
  | .linkGet a => Sys2Proof.Machine.execLinkGet a s
  | .linkConfig a => Sys2Proof.Machine.execLinkConfig a s
  | .blendSet a => Sys2Proof.Machine.execBlendSet a s
  | .followSet a => Sys2Proof.Machine.execFollowSet a s
  | .blendNow a => Sys2Proof.Machine.execBlendNow a s
  | .followGet a => Sys2Proof.Machine.execFollowGet a s
  | .eqLoad a => Sys2Proof.Machine.execEqLoad a s
  | .eqSwapBank a => Sys2Proof.Machine.execEqSwapBank a s
  | .tshiftSet a => Sys2Proof.Machine.execTshiftSet a s
  | .tshiftRead a => Sys2Proof.Machine.execTshiftRead a s
  | .sapSet a => Sys2Proof.Machine.execSapSet a s
  | .sapRoute a => Sys2Proof.Machine.execSapRoute a s
  | .sapMaskSet a => Sys2Proof.Machine.execSapMaskSet a s
  | .sapStream a => Sys2Proof.Machine.execSapStream a s
  | .sapGet a => Sys2Proof.Machine.execSapGet a s
  | .txTune a => Sys2Proof.Machine.execTxTune a s
  | .txStart a => Sys2Proof.Machine.execTxStart a s
  | .txStop a => Sys2Proof.Machine.execTxStop a s
  | .txLevelSet a => Sys2Proof.Machine.execTxLevelSet a s
  | .txFmSet a => Sys2Proof.Machine.execTxFmSet a s
  | .txDabSet a => Sys2Proof.Machine.execTxDabSet a s
  | .txBreakinSet a => Sys2Proof.Machine.execTxBreakinSet a s
  | .txBreakin a => Sys2Proof.Machine.execTxBreakin a s
  | .txGet a => Sys2Proof.Machine.execTxGet a s
  | .regLoad a => Sys2Proof.Machine.execRegLoad a s
  | .regCommit a => Sys2Proof.Machine.execRegCommit a s
  | .regLock a => Sys2Proof.Machine.execRegLock a s
  | .regGet a => Sys2Proof.Machine.execRegGet a s
  | .coexSet a => Sys2Proof.Machine.execCoexSet a s
  | .txSfnSet a => Sys2Proof.Machine.execTxSfnSet a s
  | .txMonGet a => Sys2Proof.Machine.execTxMonGet a s
  | .timeSrcSet a => Sys2Proof.Machine.execTimeSrcSet a s
  | .ptpSet a => Sys2Proof.Machine.execPtpSet a s
  | .timeSet a => Sys2Proof.Machine.execTimeSet a s
  | .timeAcceptStep a => Sys2Proof.Machine.execTimeAcceptStep a s
  | .timeAdjust a => Sys2Proof.Machine.execTimeAdjust a s
  | .timeGet a => Sys2Proof.Machine.execTimeGet a s
  | .schedAdd a => Sys2Proof.Machine.execSchedAdd a s
  | .schedCancel a => Sys2Proof.Machine.execSchedCancel a s
  | .schedGet a => Sys2Proof.Machine.execSchedGet a s
  | .firnArm a => Sys2Proof.Machine.execFirnArm a s
  | .firnTrigger a => Sys2Proof.Machine.execFirnTrigger a s
  | .firnDisarm a => Sys2Proof.Machine.execFirnDisarm a s
  | .firnStream a => Sys2Proof.Machine.execFirnStream a s
  | .firnLoad a => Sys2Proof.Machine.execFirnLoad a s
  | .firnReplay a => Sys2Proof.Machine.execFirnReplay a s
  | .firnGet a => Sys2Proof.Machine.execFirnGet a s
  | .polarisSet a => Sys2Proof.Machine.execPolarisSet a s
  | .polarisGet a => Sys2Proof.Machine.execPolarisGet a s
  | .alertClear a => Sys2Proof.Machine.execAlertClear a s
  | .safeRelease a => Sys2Proof.Machine.execSafeRelease a s
  | .selftestRun a => Sys2Proof.Machine.execSelftestRun a s
  | .panelSet a => Sys2Proof.Machine.execPanelSet a s
  | .panelGet a => Sys2Proof.Machine.execPanelGet a s
  | .ethSet a => Sys2Proof.Machine.execEthSet a s
  | .udpStreamSet a => Sys2Proof.Machine.execUdpStreamSet a s
  | .ethGet a => Sys2Proof.Machine.execEthGet a s
  | .pcieGet a => Sys2Proof.Machine.execPcieGet a s
  | .fwBegin a => Sys2Proof.Machine.execFwBegin a s
  | .fwWrite a => Sys2Proof.Machine.execFwWrite a s
  | .fwFinish a => Sys2Proof.Machine.execFwFinish a s
  | .fwStatus a => Sys2Proof.Machine.execFwStatus a s
  | .devReset a => Sys2Proof.Machine.execDevReset a s
  | .g1Identify => Sys2Proof.Machine.execG1Identify s
  | .g1GetStatus => Sys2Proof.Machine.execG1GetStatus s
  | .g1GetCaps => Sys2Proof.Machine.execG1GetCaps s
  | .fmTune => Sys2Proof.Machine.execFmTune s
  | .amTune => Sys2Proof.Machine.execAmTune s
  | .dabTune => Sys2Proof.Machine.execDabTune s
  | .drmTune => Sys2Proof.Machine.execDrmTune s
  | .rxStop => Sys2Proof.Machine.execRxStop s
  | .fmConfig => Sys2Proof.Machine.execFmConfig s
  | .amConfig => Sys2Proof.Machine.execAmConfig s
  | .signalRead => Sys2Proof.Machine.execSignalRead s
  | .rdsRead => Sys2Proof.Machine.execRdsRead s
  | .ensembleRead => Sys2Proof.Machine.execEnsembleRead s
  | .serviceListRead => Sys2Proof.Machine.execServiceListRead s
  | .servicePlay => Sys2Proof.Machine.execServicePlay s
  | .serviceHalt => Sys2Proof.Machine.execServiceHalt s
  | .g1UndefinedCode => Sys2Proof.Machine.execG1UndefinedCode s
  | .go link => Sys2Proof.Machine.execGo link s
  | .mailboxCopy => Sys2Proof.Machine.execMailboxCopy s
  | .cplPop link => Sys2Proof.Machine.execCplPop link s
  | .overflowClear link => Sys2Proof.Machine.execOverflowClear link s
  | .owner link value => Sys2Proof.Machine.execOwner link value s
  | .vlogClear link => Sys2Proof.Machine.execVlogClear link s
  | .pageSel value => Sys2Proof.Machine.execPageSel value s
  | .legEn link value => Sys2Proof.Machine.execLegEn link value s
  | .ctrlFailClear link => Sys2Proof.Machine.execCtrlFailClear link s
  | .doorbellWrite offset value stores => Sys2Proof.Machine.execDoorbellWrite offset value stores s
  | .registerWrite link page offset data => Sys2Proof.Machine.execRegisterWrite link page offset data s
  | .bar0InvalidAccess write offset size => Sys2Proof.Machine.execBar0InvalidAccess write offset size s
  | .i2cStart => Sys2Proof.Machine.execI2cStart s
  | .i2cAddress b => Sys2Proof.Machine.execI2cAddress b s
  | .i2cStop => Sys2Proof.Machine.execI2cStop s
  | .i2cRepeatedStart => Sys2Proof.Machine.execI2cRepeatedStart s
  | .i2cControllerNack => Sys2Proof.Machine.execI2cControllerNack s
  | .i2cWakeAddressMatch b tj => Sys2Proof.Machine.execI2cWakeAddressMatch b tj s
  | .evBusStuck t => Sys2Proof.Machine.execEvBusStuck t s
  | .inBandRequest => Sys2Proof.Machine.execInBandRequest s
  | .ibrCollision => Sys2Proof.Machine.execIbrCollision s
  | .controllerWrite r => Sys2Proof.Machine.execControllerWrite r s
  | .tick m => Sys2Proof.Machine.execTick m s
  | .completionWrite o tag internal t => Sys2Proof.Machine.execCompletionWrite o tag internal t s
  | .completionRingSpace ring => Sys2Proof.Machine.execCompletionRingSpace ring s
  | .eventWindowClose => Sys2Proof.Machine.execEventWindowClose s
  | .urgentEventPost => Sys2Proof.Machine.execUrgentEventPost s
  | .msixInterrupt ring => Sys2Proof.Machine.execMsixInterrupt ring s
  | .modTimeExpiry ring t => Sys2Proof.Machine.execModTimeExpiry ring t s
  | .mailboxVector => Sys2Proof.Machine.execMailboxVector s
  | .irqNUpdate => Sys2Proof.Machine.execIrqNUpdate s
  | .streamDescriptorUse ring taken => Sys2Proof.Machine.execStreamDescriptorUse ring taken s
  | .dmaError ring t => Sys2Proof.Machine.execDmaError ring t s
  | .pcieIslandReset linkDown t => Sys2Proof.Machine.execPcieIslandReset linkDown t s
  | .pcieLinkUp speed width t => Sys2Proof.Machine.execPcieLinkUp speed width t s
  | .pcieD3hot enter => Sys2Proof.Machine.execPcieD3hot enter s
  | .sgmiiLinkChange up speedBad t => Sys2Proof.Machine.execSgmiiLinkChange up speedBad t s
  | .ptpMessage m t => Sys2Proof.Machine.execPtpMessage m t s
  | .ptpBmcaRoleChange master portState gm t => Sys2Proof.Machine.execPtpBmcaRoleChange master portState gm t s
  | .udpDatagram d t => Sys2Proof.Machine.execUdpDatagram d t s
  | .reassemblyTimeout stream ident t => Sys2Proof.Machine.execReassemblyTimeout stream ident t s
  | .audioInStreamStop stream => Sys2Proof.Machine.execAudioInStreamStop stream s
  | .audioOutDatagram stream t => Sys2Proof.Machine.execAudioOutDatagram stream t s
  | .sfnFramePacketSend frame t => Sys2Proof.Machine.execSfnFramePacketSend frame t s
  | .powerOn mv vioHigh => Sys2Proof.Machine.execPowerOn mv vioHigh s
  | .resetN ns tj => Sys2Proof.Machine.execResetN ns tj s
  | .vinReset mv ns => Sys2Proof.Machine.execVinReset mv ns s
  | .bringUp straps crystal => Sys2Proof.Machine.execBringUp straps crystal s
  | .bringupStepComplete ok tones => Sys2Proof.Machine.execBringupStepComplete ok tones s
  | .evBrownoutWarn mv ns t => Sys2Proof.Machine.execEvBrownoutWarn mv ns t s
  | .brownoutRecovery mv t => Sys2Proof.Machine.execBrownoutRecovery mv t s
  | .frostEntryComplete t => Sys2Proof.Machine.execFrostEntryComplete t s
  | .frostExit t => Sys2Proof.Machine.execFrostExit t s
  | .permafrostEntry => Sys2Proof.Machine.execPermafrostEntry s
  | .wakeN us tj t => Sys2Proof.Machine.execWakeN us tj t s
  | .wakeTimerExpiry => Sys2Proof.Machine.execWakeTimerExpiry s
  | .avalancheEntryComplete t => Sys2Proof.Machine.execAvalancheEntryComplete t s
  | .avalancheExitComplete t => Sys2Proof.Machine.execAvalancheExitComplete t s
  | .boostUnitBegin => Sys2Proof.Machine.execBoostUnitBegin s
  | .thermalGovernorCheck => Sys2Proof.Machine.execThermalGovernorCheck s
  | .powerLimitCheck => Sys2Proof.Machine.execPowerLimitCheck s
  | .thermalShutdown tj => Sys2Proof.Machine.execThermalShutdown tj s
  | .fwEraseComplete => Sys2Proof.Machine.execFwEraseComplete s
  | .fwProgramComplete => Sys2Proof.Machine.execFwProgramComplete s
  | .fwVerifyComplete headerOk build => Sys2Proof.Machine.execFwVerifyComplete headerOk build s
  | .fwMarkerComplete t => Sys2Proof.Machine.execFwMarkerComplete t s
  | .regCommitComplete ok t => Sys2Proof.Machine.execRegCommitComplete ok t s
  | .regTableTakesEffect => Sys2Proof.Machine.execRegTableTakesEffect s
  | .referenceLoss t => Sys2Proof.Machine.execReferenceLoss t s
  | .referenceGlitch t => Sys2Proof.Machine.execReferenceGlitch t s
  | .frequencyJump dev t => Sys2Proof.Machine.execFrequencyJump dev t s
  | .referenceReturn => Sys2Proof.Machine.execReferenceReturn s
  | .qualificationComplete => Sys2Proof.Machine.execQualificationComplete s
  | .frequencyAcquisitionComplete t => Sys2Proof.Machine.execFrequencyAcquisitionComplete t s
  | .buildOutLock phases t => Sys2Proof.Machine.execBuildOutLock phases t s
  | .loopLock loop t => Sys2Proof.Machine.execLoopLock loop t s
  | .loopUnlock loop t => Sys2Proof.Machine.execLoopUnlock loop t s
  | .audioChannelPowerDown channel => Sys2Proof.Machine.execAudioChannelPowerDown channel s
  | .mclkGate output gate t => Sys2Proof.Machine.execMclkGate output gate t s
  | .ppsOutPulse rise t => Sys2Proof.Machine.execPpsOutPulse rise t s
  | .agcOverloadWindow ant xs index => Sys2Proof.Machine.execAgcOverloadWindow ant xs index s
  | .overloadPersists ant => Sys2Proof.Machine.execOverloadPersists ant s
  | .biasFault ant cause current => Sys2Proof.Machine.execBiasFault ant cause current s
  | .biasRetry ant => Sys2Proof.Machine.execBiasRetry ant s
  | .biasRetryRestore ant => Sys2Proof.Machine.execBiasRetryRestore ant s
  | .coexBlankChange level t => Sys2Proof.Machine.execCoexBlankChange level t s
  | .coexBlankTimeout => Sys2Proof.Machine.execCoexBlankTimeout s
  | .foregroundCalComplete ant tones temp t => Sys2Proof.Machine.execForegroundCalComplete ant tones temp t s
  | .spotCalStart ant temp => Sys2Proof.Machine.execSpotCalStart ant temp s
  | .spotCalComplete ant tones temp t => Sys2Proof.Machine.execSpotCalComplete ant tones temp t s
  | .auroraScan spectra => Sys2Proof.Machine.execAuroraScan spectra s
  | .auroraEvaluation => Sys2Proof.Machine.execAuroraEvaluation s
  | .slewStep index t => Sys2Proof.Machine.execSlewStep index t s
  | .slewComplete t => Sys2Proof.Machine.execSlewComplete t s
  | .relockStart t => Sys2Proof.Machine.execRelockStart t s
  | .relockComplete t => Sys2Proof.Machine.execRelockComplete t s
  | .zoneSettled zone t => Sys2Proof.Machine.execZoneSettled zone t s
  | .lanePointOfEffect target t => Sys2Proof.Machine.execLanePointOfEffect target t s
  | .laneSettled target t => Sys2Proof.Machine.execLaneSettled target t s
  | .laneBlock target xs t => Sys2Proof.Machine.execLaneBlock target xs t s
  | .laneFifoFull target lost => Sys2Proof.Machine.execLaneFifoFull target lost s
  | .analogueWindowEnd source m t => Sys2Proof.Machine.execAnalogueWindowEnd source m t s
  | .amCarrierLock lane errors => Sys2Proof.Machine.execAmCarrierLock lane errors s
  | .pilotLock lane errors => Sys2Proof.Machine.execPilotLock lane errors s
  | .rdsSyncAcquired source b0 b1 => Sys2Proof.Machine.execRdsSyncAcquired source b0 b1 s
  | .rdsSyncLost source => Sys2Proof.Machine.execRdsSyncLost source s
  | .rdsGroup source blocks t => Sys2Proof.Machine.execRdsGroup source blocks t s
  | .census tap spectra t => Sys2Proof.Machine.execCensus tap spectra t s
  | .probeTimeout flake => Sys2Proof.Machine.execProbeTimeout flake s
  | .afRequest lane khz => Sys2Proof.Machine.execAfRequest lane khz s
  | .afFadeStart lane => Sys2Proof.Machine.execAfFadeStart lane s
  | .afSwitchComplete lane => Sys2Proof.Machine.execAfSwitchComplete lane s
  | .afSwitchInPlace lane t => Sys2Proof.Machine.execAfSwitchInPlace lane t s
  | .afSwitchAbandoned lane => Sys2Proof.Machine.execAfSwitchAbandoned lane s
  | .afGotoTimeout lane => Sys2Proof.Machine.execAfGotoTimeout lane s
  | .tapReset tap => Sys2Proof.Machine.execTapReset tap s
  | .ofdmNullFound lane mode offset => Sys2Proof.Machine.execOfdmNullFound lane mode offset s
  | .ofdmConfirmation lane err offset t => Sys2Proof.Machine.execOfdmConfirmation lane err offset t s
  | .ofdmConfirmationFail lane => Sys2Proof.Machine.execOfdmConfirmationFail lane s
  | .acquisitionTimeout lane => Sys2Proof.Machine.execAcquisitionTimeout lane s
  | .fibDecoded lane fib frame t => Sys2Proof.Machine.execFibDecoded lane fib frame t s
  | .facSdcDecoded lane info frame t => Sys2Proof.Machine.execFacSdcDecoded lane info frame t s
  | .reconfiguration lane t => Sys2Proof.Machine.execReconfiguration lane t s
  | .ensembleLost lane missed => Sys2Proof.Machine.execEnsembleLost lane missed s
  | .holdoverResume lane err => Sys2Proof.Machine.execHoldoverResume lane err s
  | .serviceTimeout lane prog => Sys2Proof.Machine.execServiceTimeout lane prog s
  | .transportUnitDecoded lane prog errored pcm unit te => Sys2Proof.Machine.execTransportUnitDecoded lane prog errored pcm unit te s
  | .dynamicLabel lane prog charset label tags t => Sys2Proof.Machine.execDynamicLabel lane prog charset label tags t s
  | .motObject lane prog header body transportId first t => Sys2Proof.Machine.execMotObject lane prog header body transportId first t s
  | .motTimeout lane prog transportId first t => Sys2Proof.Machine.execMotTimeout lane prog transportId first t s
  | .drmTextMessage lane prog charset label t => Sys2Proof.Machine.execDrmTextMessage lane prog charset label t s
  | .dabAlertEnd lane subch t => Sys2Proof.Machine.execDabAlertEnd lane subch t s
  | .ofdmWindowEnd lane m services t => Sys2Proof.Machine.execOfdmWindowEnd lane m services t s
  | .spectrumRecord lane blocks t => Sys2Proof.Machine.execSpectrumRecord lane blocks t s
  | .impulseResponseRecord lane taps t => Sys2Proof.Machine.execImpulseResponseRecord lane taps t s
  | .tiiAverageComplete lane combs window t => Sys2Proof.Machine.execTiiAverageComplete lane combs window t s
  | .linkEntryAged index => Sys2Proof.Machine.execLinkEntryAged index s
  | .coarseResult head member m t => Sys2Proof.Machine.execCoarseResult head member m t s
  | .alignLoop ms => Sys2Proof.Machine.execAlignLoop ms s
  | .holdingTimeout head member => Sys2Proof.Machine.execHoldingTimeout head member s
  | .memberPcmChange path delivering => Sys2Proof.Machine.execMemberPcmChange path delivering s
  | .pageReleased => Sys2Proof.Machine.execPageReleased s
  | .groupFadeEnd head t => Sys2Proof.Machine.execGroupFadeEnd head t s
  | .fadeGuardLoss head ticks => Sys2Proof.Machine.execFadeGuardLoss head ticks s
  | .fadeHappening head => Sys2Proof.Machine.execFadeHappening head s
  | .delayChangeStart path => Sys2Proof.Machine.execDelayChangeStart path s
  | .delayChangeEnd path t => Sys2Proof.Machine.execDelayChangeEnd path t s
  | .eqSwapEffect path t => Sys2Proof.Machine.execEqSwapEffect path t s
  | .sapFrameStart port sdi t => Sys2Proof.Machine.execSapFrameStart port sdi t s
  | .sapClockLost port cause edge mhz t => Sys2Proof.Machine.execSapClockLost port cause edge mhz t s
  | .sapGlitch port period => Sys2Proof.Machine.execSapGlitch port period s
  | .sapFramingError port sdi t => Sys2Proof.Machine.execSapFramingError port sdi t s
  | .sapRateChange port first second t => Sys2Proof.Machine.execSapRateChange port first second t s
  | .sapRetarget port mhz t => Sys2Proof.Machine.execSapRetarget port mhz t s
  | .sapResume port a b t => Sys2Proof.Machine.execSapResume port a b t s
  | .sapWaitingTimeout port => Sys2Proof.Machine.execSapWaitingTimeout port s
  | .txPllLocked t => Sys2Proof.Machine.execTxPllLocked t s
  | .txTuneTimeout => Sys2Proof.Machine.execTxTuneTimeout s
  | .synthWindowExpiry => Sys2Proof.Machine.execSynthWindowExpiry s
  | .coexGntChange level t => Sys2Proof.Machine.execCoexGntChange level t s
  | .coexWaitExpiry => Sys2Proof.Machine.execCoexWaitExpiry s
  | .txStartSequence t => Sys2Proof.Machine.execTxStartSequence t s
  | .txStopComplete t => Sys2Proof.Machine.execTxStopComplete t s
  | .fastMute t => Sys2Proof.Machine.execFastMute t s
  | .dutyLimit t => Sys2Proof.Machine.execDutyLimit t s
  | .continuousLimit t => Sys2Proof.Machine.execContinuousLimit t s
  | .monitorWindow m t => Sys2Proof.Machine.execMonitorWindow m t s
  | .sfnFrame frame t => Sys2Proof.Machine.execSfnFrame frame t s
  | .sfnCoastExpiry t => Sys2Proof.Machine.execSfnCoastExpiry t s
  | .breakinTrigger rank start => Sys2Proof.Machine.execBreakinTrigger rank start s
  | .ptt pressed t => Sys2Proof.Machine.execPtt pressed t s
  | .keyChange key down t => Sys2Proof.Machine.execKeyChange key down t s
  | .plugChange plug high t => Sys2Proof.Machine.execPlugChange plug high t s
  | .encoderStep encoder step t => Sys2Proof.Machine.execEncoderStep encoder step t s
  | .ppsInEdge falling stamp => Sys2Proof.Machine.execPpsInEdge falling stamp s
  | .sourceLost => Sys2Proof.Machine.execSourceLost s
  | .siderealStep => Sys2Proof.Machine.execSiderealStep s
  | .slewWithinThreshold => Sys2Proof.Machine.execSlewWithinThreshold s
  | .meridianRelease => Sys2Proof.Machine.execMeridianRelease s
  | .schedFiring slot => Sys2Proof.Machine.execSchedFiring slot s
  | .sampleTimedApply o tag t => Sys2Proof.Machine.execSampleTimedApply o tag t s
  | .firnChunk source bw t => Sys2Proof.Machine.execFirnChunk source bw t s
  | .firnCheckpoint => Sys2Proof.Machine.execFirnCheckpoint s
  | .firnTriggerFired cause t => Sys2Proof.Machine.execFirnTriggerFired cause t s
  | .firnFrozen t => Sys2Proof.Machine.execFirnFrozen t s
  | .firnStreamComplete t => Sys2Proof.Machine.execFirnStreamComplete t s
  | .firnLoadComplete t => Sys2Proof.Machine.execFirnLoadComplete t s
  | .replayCheckpoint t => Sys2Proof.Machine.execReplayCheckpoint t s
  | .replayEnd t => Sys2Proof.Machine.execReplayEnd t s
  | .alertPrimaryReport source start subch t => Sys2Proof.Machine.execAlertPrimaryReport source start subch t s
  | .alertCheckReport source start subch t => Sys2Proof.Machine.execAlertCheckReport source start subch t s
  | .alertMismatchTimeout source t => Sys2Proof.Machine.execAlertMismatchTimeout source t s
  | .heartbeatCheck island written t => Sys2Proof.Machine.execHeartbeatCheck island written t s
  | .watchdogExpiry t => Sys2Proof.Machine.execWatchdogExpiry t s
  | .lockstepMismatch t => Sys2Proof.Machine.execLockstepMismatch t s
  | .configCrcCheck crc t => Sys2Proof.Machine.execConfigCrcCheck crc t s
  | .eccError region correctable t => Sys2Proof.Machine.execEccError region correctable t s
  | .railOutOfRange rail t => Sys2Proof.Machine.execRailOutOfRange rail t s
  | .ballReadbackFault ball readAsserted t => Sys2Proof.Machine.execBallReadbackFault ball readAsserted t s
  | .breakinDueCheck seen t => Sys2Proof.Machine.execBreakinDueCheck seen t s
  | .periodicSelftest pass t => Sys2Proof.Machine.execPeriodicSelftest pass t s
  | .tapSettled tap t => Sys2Proof.Machine.execTapSettled tap t s
  | .msixVectorUnmask vector => Sys2Proof.Machine.execMsixVectorUnmask vector s
  | .arpIcmpRequest icmp => Sys2Proof.Machine.execArpIcmpRequest icmp s
  | .ptpMessageSend m t => Sys2Proof.Machine.execPtpMessageSend m t s

end Sys2Proof.Machine
end

