-- ==== Sys2Proof/Machine/Step.lean ====
section
/-! DEFINITION. Machine/Step.lean: one step of the block: the command at the front of the queue, or nothing. -/

namespace Sys2Proof.Machine

/-- One step: the front command of the queue is carried out with the queue's rest; with an empty queue the block idles.
Log: 3 (DESIGN CHOICE). -/
def step (s : State) : Host.Outcome State Fault Refusal :=
  match s.pending with
  | [] => .next s
  | i :: q => exec i (s.setPending q)

/-- The state with the command that a word spells put at the front of the queue; a word that spells none changes nothing.
Log: 4 (DEDUCED). -/
def State.withFetchWord (s : State) (nbits w : Nat) : State :=
  match Sys2Proof.decodeTableWord nbits w with
  | some i => s.setPending (i :: s.pending)
  | none => s

end Sys2Proof.Machine
end

