-- ==== Sys2Proof/Safety.lean ====
section
/-! DEFINITION. Safety.lean: the terms that claims about the block are stated in: when a command of the host is ready to
execute at once, the state in which its owning island judges it, and the three ways in which it ends there. -/

namespace Sys2Proof.Machine

/-- The command of a row, as the interpreter sees it. -/
abbrev cmdOf (sp : CmdSpec) (a : Args) : Cmd := ⟨sp.op, a⟩

/-- The command once its packet has been taken (Table 2-6). -/
def flightOf (sp : CmdSpec) (a : Args) (s : State) : InFlight := (enter (cmdOf sp a) s).1

/-- The state in which the owning island judges a command that was taken in `s` and dispatched at once: it is in flight
with its `INFLIGHT` bit set, and an armed Firn has its tape entry. Nothing else has changed. -/
def taken (sp : CmdSpec) (a : Args) (s : State) : State := tapeCommand (enter (cmdOf sp a) s).2 (cmdOf sp a)

/-- No ring waits to be destroyed (R56). -/
def noneDestroying (s : State) : Bool := s.rings.all fun e => e.2.destroying.isNone

/-- The command is taken, dispatched at once and judged by its owning island: its channel is open (R45, R47, R54), the
packet is well formed (step 1) and its tag is free (step 2, R46), `WHEN` is 0, no command to its `TARGET` from its channel
is outstanding or was completed at this tick (R30), the device is not in Thaw (R65) and the target not asleep in Frost
(R411), steps 5 to 9 pass, and neither the safety path (R395), legacy mode (R69), AF following (R210) nor a replay (R376)
holds the target. -/
def ready (sp : CmdSpec) (a : Args) (s : State) : Bool :=
  channelOpen s a.origin && !badLen a.origin a.payload.length && (byTag s a.origin a.tag.toNat).isNone && a.whn == 0 &&
    !blocked (enter (cmdOf sp a) s).2 (cmdOf sp a) s.cmds.nextSeq && (servedNow s (cmdOf sp a)).isNone &&
    decide (s.pwr.state ≠ .thaw) && (decide (s.pwr.state ≠ .frost) || servedInFrost (cmdOf sp a).unitId) &&
    (checkTarget sp (taken sp a s) (cmdOf sp a)).isNone && !sp.hold (taken sp a s) (cmdOf sp a) &&
    !legacyHolds s (cmdOf sp a) && !spareHolds s (cmdOf sp a) && !replayHolds (taken sp a s) (cmdOf sp a)

/-- The command is taken and goes to Meridian: `WHEN` is not 0, its channel is open, the packet is well formed, its tag is
free, the device is not in Thaw, and steps 5 to 9 pass (R44, R349). -/
def readyAt (sp : CmdSpec) (a : Args) (s : State) : Bool :=
  channelOpen s a.origin && !badLen a.origin a.payload.length && (byTag s a.origin a.tag.toNat).isNone && a.whn != 0 &&
    decide (s.pwr.state ≠ .thaw) && (checkTarget sp (taken sp a s) (cmdOf sp a)).isNone

/-- It completes in the state `q` that its effect leaves, with its status, `DETAIL` and result (R23, R42). -/
def answer (sp : CmdSpec) (a : Args) (s : State) (status detail : Nat) (result : Bytes) (q : State) : State :=
  complete q (flightOf sp a s) status detail result s.sid.now (if status = stOk then s.ev.nextId else q.ev.nextId)

/-- It has had its effect, which leaves `q`, and `COMPLETION_WRITE` will report this outcome (R23), after the events that
the effect raised (R34). -/
def await (sp : CmdSpec) (a : Args) (s : State) (status detail : Nat) (result : Bytes) (q : State) : State :=
  putFlight q { flightOf sp a s with
    begun := true, outcome := some ⟨status, detail, result⟩, evs := touched q s.ev.nextId, since := q.sid.now }

/-- It is Executing, and an occurrence that another row of the table gives decides its outcome. -/
def underway (sp : CmdSpec) (a : Args) (s : State) (q : State) : State :=
  putFlight q { flightOf sp a s with begun := true, evs := touched q s.ev.nextId, since := q.sid.now }

/-- It is Executing in the same way, and a ring whose destruction waited only for it completes its `RING_DESTROY` (R56). -/
def begins (sp : CmdSpec) (a : Args) (s : State) (q : State) : State := q.rings.foldl finishDestroy (underway sp a s q)

/-- The number of an event's first occurrence, and that of its last, lie below `n` (R34). -/
def EvWindow.below (n : Nat) (w : EvWindow) : Prop := w.id ≤ w.last ∧ w.last < n

/-- What every step keeps: host memory in canonical form, every event that waits numbered below the next one (R34), a
violation log of at most 16 entries with its newest index among them (R64), at most 16 table copies (R319), and no
commit under way once the table is locked (R321). -/
def Inv (s : State) : Prop :=
  Memory.wf s.host = true ∧ (∀ w ∈ s.ev.urgent ++ s.ev.windows, w.below s.ev.nextId) ∧ (s.vlog.fill ≤ 16 ∧ s.vlog.newest < 16) ∧
    s.reg.slots.length ≤ 16 ∧ (s.reg.locked && s.reg.commit) = false

/-- The address of a command's bit of `INFLIGHT` (Table 2-10). -/
def inflightByte (r : Ring) (tag : Nat) : Nat := r.statusAddr + 16 + tag / 8

/-- The pad bytes before an entry of `n` bytes in a completion ring: what is left before its end, if the entry does not
fit there (R53). -/
def padOf (q : Ring) (n : Nat) : Nat :=
  if n ≤ q.size - q.prod % q.size then 0 else q.size - q.prod % q.size

/-- The host address of an entry of `n` bytes (R53). -/
def entryAt (q : Ring) (n : Nat) : Nat := q.base + (if padOf q n = 0 then q.prod % q.size else 0)

/-- `x` is not one of the `n` bytes from `a`. -/
def outside (x a n : Nat) : Prop := x < a ∨ a + n ≤ x

/-- The rows of the Command Reference that put a packet on a channel, with what each command is: all of Tables 17-1 to
17-16 but `NOP` (R40). The other rows of the table are writes of the links, occurrences of the device and its
surroundings, and the tick. -/
def hostCommand : Instr → Option (CmdSpec × Args)
  | .identify a => some (identifySpec, a)
  | .getStatus a => some (getStatusSpec, a)
  | .getCaps a => some (getCapsSpec, a)
  | .cmdAbort a => some (cmdAbortSpec, a)
  | .pwrStateSet a => some (pwrStateSetSpec, a)
  | .pwrGet a => some (pwrGetSpec, a)
  | .pwrLimitSet a => some (pwrLimitSetSpec, a)
  | .ringCreate a => some (ringCreateSpec, a)
  | .ringDestroy a => some (ringDestroySpec, a)
  | .ringReset a => some (ringResetSpec, a)
  | .winSet a => some (winSetSpec, a)
  | .eventWindowSet a => some (eventWindowSetSpec, a)
  | .refSet a => some (refSetSpec, a)
  | .lockSet a => some (lockSetSpec, a)
  | .mclkSet a => some (mclkSetSpec, a)
  | .refoutSet a => some (refoutSetSpec, a)
  | .ppsoutSet a => some (ppsoutSetSpec, a)
  | .clockGet a => some (clockGetSpec, a)
  | .auroraSet a => some (auroraSetSpec, a)
  | .auroraRun a => some (auroraRunSpec, a)
  | .auroraGet a => some (auroraGetSpec, a)
  | .antSet a => some (antSetSpec, a)
  | .biasSet a => some (biasSetSpec, a)
  | .rfCal a => some (rfCalSpec, a)
  | .rfStatusGet a => some (rfStatusGetSpec, a)
  | .blankSet a => some (blankSetSpec, a)
  | .divSet a => some (divSetSpec, a)
  | .zoneTune a => some (zoneTuneSpec, a)
  | .zoneGet a => some (zoneGetSpec, a)
  | .laneSet a => some (laneSetSpec, a)
  | .laneTune a => some (laneTuneSpec, a)
  | .laneStart a => some (laneStartSpec, a)
  | .laneStop a => some (laneStopSpec, a)
  | .laneSync a => some (laneSyncSpec, a)
  | .laneStream a => some (laneStreamSpec, a)
  | .laneGet a => some (laneGetSpec, a)
  | .amSet a => some (amSetSpec, a)
  | .fmSet a => some (fmSetSpec, a)
  | .qualityGet a => some (qualityGetSpec, a)
  | .rdsStream a => some (rdsStreamSpec, a)
  | .rdsGet a => some (rdsGetSpec, a)
  | .flurrySet a => some (flurrySetSpec, a)
  | .tapSet a => some (tapSetSpec, a)
  | .flakeAssign a => some (flakeAssignSpec, a)
  | .flakeRelease a => some (flakeReleaseSpec, a)
  | .flakeGet a => some (flakeGetSpec, a)
  | .censusGet a => some (censusGetSpec, a)
  | .afSet a => some (afSetSpec, a)
  | .ofdmSet a => some (ofdmSetSpec, a)
  | .ensembleGet a => some (ensembleGetSpec, a)
  | .serviceListGet a => some (serviceListGetSpec, a)
  | .serviceStart a => some (serviceStartSpec, a)
  | .serviceStop a => some (serviceStopSpec, a)
  | .ofdmQualityGet a => some (ofdmQualityGetSpec, a)
  | .ficStream a => some (ficStreamSpec, a)
  | .padStream a => some (padStreamSpec, a)
  | .subchStream a => some (subchStreamSpec, a)
  | .surveySet a => some (surveySetSpec, a)
  | .tiiGet a => some (tiiGetSpec, a)
  | .linkAdd a => some (linkAddSpec, a)
  | .linkRemove a => some (linkRemoveSpec, a)
  | .linkGet a => some (linkGetSpec, a)
  | .linkConfig a => some (linkConfigSpec, a)
  | .blendSet a => some (blendSetSpec, a)
  | .followSet a => some (followSetSpec, a)
  | .blendNow a => some (blendNowSpec, a)
  | .followGet a => some (followGetSpec, a)
  | .eqLoad a => some (eqLoadSpec, a)
  | .eqSwapBank a => some (eqSwapSpec, a)
  | .tshiftSet a => some (tshiftSetSpec, a)
  | .tshiftRead a => some (tshiftReadSpec, a)
  | .sapSet a => some (sapSetSpec, a)
  | .sapRoute a => some (sapRouteSpec, a)
  | .sapMaskSet a => some (sapMaskSetSpec, a)
  | .sapStream a => some (sapStreamSpec, a)
  | .sapGet a => some (sapGetSpec, a)
  | .txTune a => some (txTuneSpec, a)
  | .txStart a => some (txStartSpec, a)
  | .txStop a => some (txStopSpec, a)
  | .txLevelSet a => some (txLevelSetSpec, a)
  | .txFmSet a => some (txFmSetSpec, a)
  | .txDabSet a => some (txDabSetSpec, a)
  | .txBreakinSet a => some (txBreakinSetSpec, a)
  | .txBreakin a => some (txBreakinSpec, a)
  | .txGet a => some (txGetSpec, a)
  | .regLoad a => some (regLoadSpec, a)
  | .regCommit a => some (regCommitSpec, a)
  | .regLock a => some (regLockSpec, a)
  | .regGet a => some (regGetSpec, a)
  | .coexSet a => some (coexSetSpec, a)
  | .txSfnSet a => some (txSfnSetSpec, a)
  | .txMonGet a => some (txMonGetSpec, a)
  | .timeSrcSet a => some (timeSrcSetSpec, a)
  | .ptpSet a => some (ptpSetSpec, a)
  | .timeSet a => some (timeSetSpec, a)
  | .timeAcceptStep a => some (timeAcceptStepSpec, a)
  | .timeAdjust a => some (timeAdjustSpec, a)
  | .timeGet a => some (timeGetSpec, a)
  | .schedAdd a => some (schedAddSpec, a)
  | .schedCancel a => some (schedCancelSpec, a)
  | .schedGet a => some (schedGetSpec, a)
  | .firnArm a => some (firnArmSpec, a)
  | .firnTrigger a => some (firnTriggerSpec, a)
  | .firnDisarm a => some (firnDisarmSpec, a)
  | .firnStream a => some (firnStreamSpec, a)
  | .firnLoad a => some (firnLoadSpec, a)
  | .firnReplay a => some (firnReplaySpec, a)
  | .firnGet a => some (firnGetSpec, a)
  | .polarisSet a => some (polarisSetSpec, a)
  | .polarisGet a => some (polarisGetSpec, a)
  | .alertClear a => some (alertClearSpec, a)
  | .safeRelease a => some (safeReleaseSpec, a)
  | .selftestRun a => some (selftestRunSpec, a)
  | .panelSet a => some (panelSetSpec, a)
  | .panelGet a => some (panelGetSpec, a)
  | .ethSet a => some (ethSetSpec, a)
  | .udpStreamSet a => some (udpStreamSetSpec, a)
  | .ethGet a => some (ethGetSpec, a)
  | .pcieGet a => some (pcieGetSpec, a)
  | .fwBegin a => some (fwBeginSpec, a)
  | .fwWrite a => some (fwWriteSpec, a)
  | .fwFinish a => some (fwFinishSpec, a)
  | .fwStatus a => some (fwStatusSpec, a)
  | .devReset a => some (devResetSpec, a)
  | _ => none


/-! ## Frames -/

/-- The units of the state. -/
inductive Field where
  | pending
  | sid
  | cmds
  | rings
  | wins
  | mbx
  | ev
  | vlog
  | i2c
  | hcfg
  | leg
  | pcie
  | eth
  | clk
  | merid
  | pol
  | pwr
  | therm
  | fw
  | panel
  | host
  | free
  | rf
  | aur
  | zones
  | lanes
  | tx
  | mon
  | reg
  | demods
  | flurry
  | afs
  | ofdms
  | services
  | surveys
  | links
  | paths
  | groups
  | saps
  | firn
  | part
  deriving DecidableEq, Repr

/-- A unit is the same in two states. -/
def Field.same (s t : State) : Field → Prop
  | .pending => t.pending = s.pending
  | .sid => t.sid = s.sid
  | .cmds => t.cmds = s.cmds
  | .rings => t.rings = s.rings
  | .wins => t.wins = s.wins
  | .mbx => t.mbx = s.mbx
  | .ev => t.ev = s.ev
  | .vlog => t.vlog = s.vlog
  | .i2c => t.i2c = s.i2c
  | .hcfg => t.hcfg = s.hcfg
  | .leg => t.leg = s.leg
  | .pcie => t.pcie = s.pcie
  | .eth => t.eth = s.eth
  | .clk => t.clk = s.clk
  | .merid => t.merid = s.merid
  | .pol => t.pol = s.pol
  | .pwr => t.pwr = s.pwr
  | .therm => t.therm = s.therm
  | .fw => t.fw = s.fw
  | .panel => t.panel = s.panel
  | .host => t.host = s.host
  | .free => t.free = s.free
  | .rf => t.rf = s.rf
  | .aur => t.aur = s.aur
  | .zones => t.zones = s.zones
  | .lanes => t.lanes = s.lanes
  | .tx => t.tx = s.tx
  | .mon => t.mon = s.mon
  | .reg => t.reg = s.reg
  | .demods => t.demods = s.demods
  | .flurry => t.flurry = s.flurry
  | .afs => t.afs = s.afs
  | .ofdms => t.ofdms = s.ofdms
  | .services => t.services = s.services
  | .surveys => t.surveys = s.surveys
  | .links => t.links = s.links
  | .paths => t.paths = s.paths
  | .groups => t.groups = s.groups
  | .saps => t.saps = s.saps
  | .firn => t.firn = s.firn
  | .part => t.part = s.part

/-- All units. -/
def Field.all : List Field :=
  [.pending, .sid, .cmds, .rings, .wins, .mbx, .ev, .vlog, .i2c, .hcfg, .leg, .pcie, .eth, .clk, .merid, .pol, .pwr, .therm, .fw, .panel] ++
  [.host, .free, .rf, .aur, .zones, .lanes, .tx, .mon, .reg, .demods, .flurry, .afs, .ofdms, .services, .surveys, .links, .paths, .groups, .saps, .firn, .part]

/-- All units but these. -/
def allBut (fs : List Field) : List Field := Field.all.filter fun f => !fs.contains f

/-- At most the units of `fs` differ. -/
def onlyChanges (fs : List Field) (s t : State) : Prop := ∀ f, f ∉ fs → f.same s t

/-- What the writing of a completion may change: the commands in flight, the events that go before it (R34), the channel it
goes to, the record of Firn, and a ring that its end destroys with what was bound to it (R56). -/
def completionFields : List Field :=
  [.cmds, .rings, .mbx, .ev, .i2c, .leg, .pcie, .host, .demods, .flurry, .ofdms, .surveys, .saps, .firn]

/-- What taking a packet may change besides the unit it commands: the above, a violation, or a slot of Meridian. -/
def hostFields : List Field := completionFields ++ [.vlog, .merid]

/-- What a row may change that carries out whatever packet waits: a generation-1 sequence, a release, a firing. -/
def packetFields : List Field := allBut [.pending, .hcfg, .therm, .mon, .part]

/-- The units that a command may change: its own, and those that its completion, its events or its violations reach. -/
def mayChange : Instr → List Field
  | .nop _ => [.rings, .mbx, .ev, .vlog, .i2c, .leg, .pcie, .host, .firn]
  | .identify _ => hostFields
  | .getStatus _ => hostFields
  | .getCaps _ => hostFields
  | .cmdAbort _ => hostFields ++ [.aur, .zones, .lanes, .tx, .afs, .services]
  | .pwrStateSet _ => hostFields ++ [.pwr, .aur, .lanes, .services]
  | .pwrGet _ => hostFields
  | .pwrLimitSet _ => hostFields ++ [.pwr]
  | .ringCreate _ => hostFields
  | .ringDestroy _ => hostFields
  | .ringReset _ => hostFields
  | .winSet _ => hostFields ++ [.wins]
  | .eventWindowSet _ => hostFields
  | .refSet _ => hostFields ++ [.sid, .clk]
  | .lockSet _ => hostFields ++ [.clk]
  | .mclkSet _ => hostFields ++ [.clk]
  | .refoutSet _ => hostFields ++ [.clk]
  | .ppsoutSet _ => hostFields ++ [.clk]
  | .clockGet _ => hostFields
  | .auroraSet _ => hostFields ++ [.rf, .aur]
  | .auroraRun _ => hostFields ++ [.rf, .aur]
  | .auroraGet _ => hostFields
  | .antSet _ => hostFields ++ [.rf]
  | .biasSet _ => hostFields ++ [.free, .rf]
  | .rfCal _ => hostFields ++ [.rf, .zones, .lanes]
  | .rfStatusGet _ => hostFields
  | .blankSet _ => hostFields ++ [.rf]
  | .divSet _ => hostFields ++ [.lanes]
  | .zoneTune _ => hostFields
  | .zoneGet _ => hostFields
  | .laneSet _ => hostFields ++ [.aur, .lanes, .afs, .services]
  | .laneTune _ => hostFields ++ [.aur, .lanes, .afs, .services]
  | .laneStart _ => hostFields
  | .laneStop _ => hostFields ++ [.aur, .lanes, .afs, .services]
  | .laneSync _ => hostFields ++ [.aur, .lanes, .afs, .services]
  | .laneStream _ => hostFields ++ [.lanes]
  | .laneGet _ => hostFields
  | .amSet _ => hostFields
  | .fmSet _ => hostFields
  | .qualityGet _ => hostFields
  | .rdsStream _ => hostFields
  | .rdsGet _ => hostFields
  | .flurrySet _ => hostFields
  | .tapSet _ => hostFields ++ [.aur, .afs]
  | .flakeAssign _ => hostFields ++ [.aur, .afs]
  | .flakeRelease _ => hostFields ++ [.aur, .afs]
  | .flakeGet _ => hostFields
  | .censusGet _ => hostFields
  | .afSet _ => hostFields ++ [.afs]
  | .ofdmSet _ => hostFields
  | .ensembleGet _ => hostFields
  | .serviceListGet _ => hostFields
  | .serviceStart _ => hostFields ++ [.services]
  | .serviceStop _ => hostFields ++ [.services]
  | .ofdmQualityGet _ => hostFields
  | .ficStream _ => hostFields
  | .padStream _ => hostFields
  | .subchStream _ => hostFields
  | .surveySet _ => hostFields
  | .tiiGet _ => hostFields
  | .linkAdd _ => hostFields ++ [.links]
  | .linkRemove _ => hostFields ++ [.links]
  | .linkGet _ => hostFields
  | .linkConfig _ => hostFields ++ [.links]
  | .blendSet _ => hostFields ++ [.paths]
  | .followSet _ => hostFields ++ [.paths, .groups]
  | .blendNow _ => hostFields ++ [.groups]
  | .followGet _ => hostFields
  | .eqLoad _ => hostFields ++ [.paths]
  | .eqSwapBank _ => hostFields ++ [.paths]
  | .tshiftSet _ => hostFields ++ [.paths]
  | .tshiftRead _ => hostFields
  | .sapSet _ => hostFields ++ [.clk]
  | .sapRoute _ => hostFields ++ [.free]
  | .sapMaskSet _ => hostFields ++ [.free]
  | .sapStream _ => hostFields
  | .sapGet _ => hostFields
  | .txTune _ => hostFields ++ [.clk, .aur, .tx]
  | .txStart _ => hostFields ++ [.tx]
  | .txStop _ => hostFields ++ [.tx]
  | .txLevelSet _ => hostFields ++ [.tx]
  | .txFmSet _ => hostFields ++ [.tx]
  | .txDabSet _ => hostFields ++ [.tx]
  | .txBreakinSet _ => hostFields ++ [.tx]
  | .txBreakin _ => hostFields ++ [.clk, .pol, .aur, .tx, .services]
  | .txGet _ => hostFields
  | .regLoad _ => hostFields ++ [.reg]
  | .regCommit _ => hostFields ++ [.reg]
  | .regLock _ => hostFields ++ [.reg]
  | .regGet _ => hostFields
  | .coexSet _ => hostFields ++ [.tx]
  | .txSfnSet _ => hostFields ++ [.tx]
  | .txMonGet _ => hostFields
  | .timeSrcSet _ => hostFields ++ [.sid]
  | .ptpSet _ => hostFields ++ [.sid]
  | .timeSet _ => hostFields ++ [.sid]
  | .timeAcceptStep _ => hostFields ++ [.sid]
  | .timeAdjust _ => hostFields ++ [.sid, .clk]
  | .timeGet _ => hostFields
  | .schedAdd _ => packetFields
  | .schedCancel _ => hostFields
  | .schedGet _ => hostFields
  | .firnArm _ => hostFields
  | .firnTrigger _ => hostFields
  | .firnDisarm _ => hostFields
  | .firnStream _ => hostFields
  | .firnLoad _ => hostFields
  | .firnReplay _ => hostFields ++ [.aur]
  | .firnGet _ => hostFields
  | .polarisSet _ => hostFields ++ [.pol]
  | .polarisGet _ => hostFields
  | .alertClear _ => hostFields ++ [.pol]
  | .safeRelease _ => hostFields ++ [.pol, .tx]
  | .selftestRun _ => hostFields
  | .panelSet _ => hostFields ++ [.panel]
  | .panelGet _ => hostFields
  | .ethSet _ => hostFields ++ [.eth]
  | .udpStreamSet _ => hostFields ++ [.eth]
  | .ethGet _ => hostFields
  | .pcieGet _ => hostFields
  | .fwBegin _ => hostFields ++ [.fw]
  | .fwWrite _ => hostFields
  | .fwFinish _ => hostFields ++ [.fw]
  | .fwStatus _ => hostFields
  | .devReset _ => hostFields ++ [.pwr]
  | .g1Identify => packetFields
  | .g1GetStatus => packetFields
  | .g1GetCaps => packetFields
  | .fmTune => packetFields
  | .amTune => packetFields
  | .dabTune => packetFields
  | .drmTune => packetFields
  | .rxStop => packetFields
  | .fmConfig => packetFields
  | .amConfig => packetFields
  | .signalRead => packetFields
  | .rdsRead => packetFields
  | .ensembleRead => packetFields
  | .serviceListRead => packetFields
  | .servicePlay => packetFields
  | .serviceHalt => packetFields
  | .g1UndefinedCode => [.leg]
  | .go _ => [.mbx, .ev, .vlog, .pcie]
  | .mailboxCopy => [.mbx]
  | .cplPop _ => [.mbx, .ev, .vlog, .pcie]
  | .overflowClear _ => [.mbx, .ev, .vlog, .pcie]
  | .owner _ _ => [.mbx]
  | .vlogClear _ => [.vlog]
  | .pageSel _ => [.i2c]
  | .legEn _ _ => hostFields ++ [.hcfg, .aur, .zones, .lanes, .afs, .services]
  | .ctrlFailClear _ => hostFields ++ [.hcfg, .aur, .zones, .lanes, .afs, .services]
  | .doorbellWrite _ _ _ => [.rings, .ev, .vlog, .pcie, .host]
  | .registerWrite _ _ _ _ => hostFields ++ [.hcfg, .aur, .zones, .lanes, .afs, .services]
  | .bar0InvalidAccess _ _ _ => [.ev, .vlog, .pcie]
  | .i2cStart => [.i2c]
  | .i2cAddress _ => [.i2c, .pwr]
  | .i2cStop => hostFields ++ [.hcfg, .aur, .zones, .lanes, .afs, .services]
  | .i2cRepeatedStart => hostFields ++ [.hcfg, .aur, .zones, .lanes, .afs, .services]
  | .i2cControllerNack => [.i2c]
  | .i2cWakeAddressMatch _ _ => [.i2c, .pol, .pwr]
  | .evBusStuck _ => [.sid, .ev, .i2c, .hcfg]
  | .inBandRequest => [.mbx, .i2c]
  | .ibrCollision => [.mbx, .i2c, .hcfg]
  | .controllerWrite _ => [.mbx, .i2c, .hcfg]
  | .tick _ => allBut [.pending, .part]
  | .completionWrite _ _ _ _ => completionFields ++ [.sid]
  | .completionRingSpace _ => [.rings, .pcie, .host]
  | .eventWindowClose => [.rings, .mbx, .ev, .i2c, .pcie, .host, .firn]
  | .urgentEventPost => [.rings, .mbx, .ev, .i2c, .pcie, .host, .firn]
  | .msixInterrupt _ => [.rings, .pcie]
  | .modTimeExpiry _ _ => [.sid, .rings, .pcie]
  | .mailboxVector => [.mbx, .pcie]
  | .irqNUpdate => [.panel]
  | .streamDescriptorUse _ _ => [.rings, .ev, .vlog, .pcie, .host]
  | .dmaError _ _ => [.sid, .rings, .ev, .pcie, .host]
  | .pcieIslandReset _ _ => [.sid, .cmds, .rings, .wins, .mbx, .ev, .pcie, .merid]
  | .pcieLinkUp _ _ _ => [.sid, .ev, .pcie, .free]
  | .pcieD3hot _ => [.pcie]
  | .sgmiiLinkChange _ _ _ => completionFields ++ [.sid, .eth]
  | .ptpMessage _ _ => [.sid, .ev, .eth, .clk, .firn]
  | .ptpBmcaRoleChange _ _ _ _ => [.sid, .ev, .clk]
  | .udpDatagram _ _ => [.sid, .eth]
  | .reassemblyTimeout _ _ _ => [.sid, .eth]
  | .audioInStreamStop _ => [.ev, .eth]
  | .audioOutDatagram _ _ => [.sid, .eth]
  | .sfnFramePacketSend _ _ => [.sid, .eth, .tx]
  | .powerOn _ _ => allBut [.pending, .part, .host, .free]
  | .resetN _ _ => allBut [.pending, .part, .host]
  | .vinReset _ _ => allBut [.pending, .part, .host]
  | .bringUp _ _ => [.hcfg, .clk, .pwr]
  | .bringupStepComplete _ _ => completionFields ++ [.sid, .vlog, .clk, .pol, .pwr, .fw, .panel, .free, .rf, .aur, .zones, .lanes, .tx, .reg, .services]
  | .evBrownoutWarn _ _ _ => completionFields ++ [.sid, .pwr, .fw, .free, .tx]
  | .brownoutRecovery _ _ => completionFields ++ [.sid, .vlog, .pwr, .fw, .aur, .lanes, .tx, .services]
  | .frostEntryComplete _ => completionFields ++ [.sid, .vlog, .eth, .pwr, .rf, .aur, .zones, .lanes, .services]
  | .frostExit _ => completionFields ++ [.sid, .vlog, .pwr, .rf, .aur, .zones, .lanes, .services]
  | .permafrostEntry => allBut [.pending, .part, .host, .free]
  | .wakeN _ _ _ => [.sid, .ev, .pol, .pwr]
  | .wakeTimerExpiry => [.pol, .pwr]
  | .avalancheEntryComplete _ => completionFields ++ [.sid, .vlog, .pwr, .aur, .lanes, .services]
  | .avalancheExitComplete _ => completionFields ++ [.sid, .vlog, .pwr, .aur, .lanes, .services]
  | .boostUnitBegin => [.ev, .pwr]
  | .thermalGovernorCheck => completionFields ++ [.vlog, .pwr, .therm, .aur, .lanes, .afs, .services]
  | .powerLimitCheck => completionFields ++ [.vlog, .pwr, .therm, .aur, .lanes, .afs, .services]
  | .thermalShutdown _ => allBut [.pending, .part, .host, .free]
  | .fwEraseComplete => completionFields ++ [.fw]
  | .fwProgramComplete => completionFields ++ [.fw]
  | .fwVerifyComplete _ _ => completionFields ++ [.fw]
  | .fwMarkerComplete _ => completionFields ++ [.sid, .fw]
  | .regCommitComplete _ _ => completionFields ++ [.sid, .reg]
  | .regTableTakesEffect => completionFields ++ [.clk, .tx, .reg]
  | .referenceLoss _ => [.sid, .ev, .clk]
  | .referenceGlitch _ => [.sid, .ev, .clk]
  | .frequencyJump _ _ => [.sid, .ev, .clk]
  | .referenceReturn => [.clk]
  | .qualificationComplete => [.clk]
  | .frequencyAcquisitionComplete _ => [.sid, .clk]
  | .buildOutLock _ _ => completionFields ++ [.sid, .clk]
  | .loopLock _ _ => completionFields ++ [.sid, .clk]
  | .loopUnlock _ _ => completionFields ++ [.sid, .clk, .pol, .tx]
  | .audioChannelPowerDown _ => [.clk]
  | .mclkGate _ _ _ => [.sid, .clk]
  | .ppsOutPulse _ _ => [.sid, .clk]
  | .agcOverloadWindow _ _ _ => [.rf, .firn]
  | .overloadPersists _ => [.ev, .rf]
  | .biasFault _ _ _ => [.ev, .rf]
  | .biasRetry _ => [.rf]
  | .biasRetryRestore _ => [.rf]
  | .coexBlankChange _ _ => [.sid, .rf]
  | .coexBlankTimeout => [.ev, .rf]
  | .foregroundCalComplete _ _ _ _ => completionFields ++ [.sid, .vlog, .free, .rf, .aur, .zones, .lanes, .services]
  | .spotCalStart _ _ => [.rf]
  | .spotCalComplete _ _ _ _ => [.sid, .ev, .free, .rf, .firn]
  | .auroraScan _ => [.aur]
  | .auroraEvaluation => completionFields ++ [.free, .rf, .aur]
  | .slewStep _ _ => [.sid, .clk, .rf, .aur, .firn]
  | .slewComplete _ => completionFields ++ [.sid, .rf, .aur]
  | .relockStart _ => [.sid, .rings, .ev, .vlog, .pcie, .clk, .host, .rf, .aur, .zones, .lanes, .flurry, .ofdms, .firn]
  | .relockComplete _ => completionFields ++ [.sid, .vlog, .clk, .rf, .aur, .zones, .lanes, .services]
  | .zoneSettled _ _ => completionFields ++ [.sid, .zones]
  | .lanePointOfEffect _ _ => completionFields ++ [.sid, .vlog, .aur, .zones, .lanes, .services]
  | .laneSettled _ _ => completionFields ++ [.sid, .lanes, .afs, .services]
  | .laneBlock _ _ _ => [.sid, .rings, .ev, .vlog, .pcie, .host, .rf, .zones, .lanes, .demods, .flurry, .paths, .firn]
  | .laneFifoFull _ _ => [.rings, .ev, .vlog, .pcie, .host, .lanes, .firn]
  | .analogueWindowEnd _ _ _ => [.sid, .rings, .ev, .vlog, .pcie, .host, .aur, .lanes, .demods, .flurry, .afs, .paths, .groups, .firn]
  | .amCarrierLock _ _ => [.demods]
  | .pilotLock _ _ => [.demods]
  | .rdsSyncAcquired _ _ _ => [.rings, .ev, .vlog, .pcie, .host, .demods, .flurry]
  | .rdsSyncLost _ => [.rings, .ev, .vlog, .pcie, .host, .demods, .flurry]
  | .rdsGroup _ _ _ => [.sid, .rings, .ev, .vlog, .pcie, .host, .demods, .flurry]
  | .census _ _ _ => [.sid, .ev, .aur, .flurry, .afs]
  | .probeTimeout _ => [.aur, .flurry, .afs]
  | .afRequest _ _ => [.aur, .flurry, .afs]
  | .afFadeStart _ => [.afs]
  | .afSwitchComplete _ => completionFields ++ [.vlog, .aur, .lanes, .afs, .services, .paths, .groups]
  | .afSwitchInPlace _ _ => [.sid, .rings, .ev, .vlog, .pcie, .host, .aur, .lanes, .flurry, .afs, .paths, .groups, .firn]
  | .afSwitchAbandoned _ => completionFields ++ [.vlog, .aur, .lanes, .afs, .services]
  | .afGotoTimeout _ => [.ev, .afs]
  | .tapReset _ => [.ev, .aur, .flurry, .afs]
  | .ofdmNullFound _ _ _ => [.ofdms]
  | .ofdmConfirmation _ _ _ _ => [.sid, .ev, .ofdms]
  | .ofdmConfirmationFail _ => [.ofdms, .services]
  | .acquisitionTimeout _ => [.ev, .ofdms]
  | .fibDecoded _ _ _ _ => completionFields ++ [.sid, .vlog, .lanes, .services, .links]
  | .facSdcDecoded _ _ _ _ => completionFields ++ [.sid, .vlog, .lanes, .services, .links]
  | .reconfiguration _ _ => completionFields ++ [.sid, .services]
  | .ensembleLost _ _ => [.ev, .ofdms, .services]
  | .holdoverResume _ _ => [.ev, .ofdms, .services]
  | .serviceTimeout _ _ => completionFields ++ [.services]
  | .transportUnitDecoded _ _ _ _ _ _ => completionFields ++ [.sid, .vlog, .services, .paths]
  | .dynamicLabel _ _ _ _ _ _ => [.sid, .rings, .ev, .vlog, .pcie, .host, .ofdms]
  | .motObject _ _ _ _ _ _ _ => [.sid, .rings, .ev, .vlog, .pcie, .host, .ofdms]
  | .motTimeout _ _ _ _ _ => [.sid, .rings, .ev, .vlog, .pcie, .host, .ofdms]
  | .drmTextMessage _ _ _ _ _ => [.sid, .rings, .ev, .vlog, .pcie, .host, .ofdms]
  | .dabAlertEnd _ _ _ => [.sid, .ofdms]
  | .ofdmWindowEnd _ _ _ _ => [.sid, .lanes, .ofdms, .services]
  | .spectrumRecord _ _ _ => [.sid, .rings, .ev, .vlog, .pcie, .host, .surveys]
  | .impulseResponseRecord _ _ _ => [.sid, .rings, .ev, .vlog, .pcie, .host, .surveys]
  | .tiiAverageComplete _ _ _ _ => [.sid, .rings, .ev, .vlog, .pcie, .host, .surveys]
  | .linkEntryAged _ => [.ev, .links]
  | .coarseResult _ _ _ _ => [.sid, .ev, .paths, .groups]
  | .alignLoop _ => [.ev, .afs, .paths, .groups]
  | .holdingTimeout _ _ => [.ev, .groups]
  | .memberPcmChange _ _ => [.paths, .groups]
  | .pageReleased => [.groups]
  | .groupFadeEnd _ _ => completionFields ++ [.sid, .paths, .groups]
  | .fadeGuardLoss _ _ => completionFields ++ [.vlog, .aur, .lanes, .afs, .services, .groups]
  | .fadeHappening _ => completionFields ++ [.paths, .groups]
  | .delayChangeStart _ => [.ev, .paths]
  | .delayChangeEnd _ _ => [.sid, .ev, .paths, .groups]
  | .eqSwapEffect _ _ => completionFields ++ [.sid, .paths]
  | .sapFrameStart _ _ _ => completionFields ++ [.sid, .vlog, .clk]
  | .sapClockLost _ _ _ _ _ => completionFields ++ [.sid, .vlog, .clk]
  | .sapGlitch _ _ => [.saps]
  | .sapFramingError _ _ _ => completionFields ++ [.sid, .vlog, .clk]
  | .sapRateChange _ _ _ _ => [.sid, .ev, .saps]
  | .sapRetarget _ _ _ => [.sid, .rings, .ev, .vlog, .pcie, .host, .saps]
  | .sapResume _ _ _ _ => completionFields ++ [.sid, .vlog]
  | .sapWaitingTimeout _ => completionFields
  | .txPllLocked _ => completionFields ++ [.sid, .clk, .free, .tx]
  | .txTuneTimeout => completionFields ++ [.tx]
  | .synthWindowExpiry => completionFields ++ [.pol, .tx]
  | .coexGntChange _ _ => [.sid, .ev, .tx]
  | .coexWaitExpiry => completionFields ++ [.tx]
  | .txStartSequence _ => completionFields ++ [.sid, .tx]
  | .txStopComplete _ => completionFields ++ [.sid, .tx]
  | .fastMute _ => [.sid, .tx]
  | .dutyLimit _ => [.sid, .ev, .tx]
  | .continuousLimit _ => [.sid, .ev, .tx]
  | .monitorWindow _ _ => completionFields ++ [.sid, .pol, .tx, .mon]
  | .sfnFrame _ _ => [.sid, .ev, .eth, .tx]
  | .sfnCoastExpiry _ => [.sid, .ev, .tx]
  | .breakinTrigger _ _ => completionFields ++ [.clk, .pol, .aur, .tx, .services]
  | .ptt _ _ => completionFields ++ [.sid, .clk, .pol, .pwr, .panel, .aur, .tx, .services]
  | .keyChange _ _ _ => [.sid, .ev, .pol, .pwr, .panel]
  | .plugChange _ _ _ => [.sid, .ev, .pol, .pwr, .panel]
  | .encoderStep _ _ _ => [.sid, .ev, .pol, .pwr, .panel]
  | .ppsInEdge _ _ => [.sid, .ev, .clk, .firn]
  | .sourceLost => [.sid, .ev, .clk]
  | .siderealStep => hostFields ++ [.sid, .eth, .clk, .rf, .aur, .zones, .lanes, .tx, .paths, .groups]
  | .slewWithinThreshold => [.sid, .ev]
  | .meridianRelease => packetFields
  | .schedFiring _ => packetFields
  | .sampleTimedApply _ _ _ => packetFields
  | .firnChunk _ _ _ => [.sid, .firn]
  | .firnCheckpoint => [.lanes, .firn]
  | .firnTriggerFired _ _ => [.sid, .ev, .firn]
  | .firnFrozen _ => [.sid, .firn]
  | .firnStreamComplete _ => completionFields ++ [.sid, .vlog]
  | .firnLoadComplete _ => completionFields ++ [.sid]
  | .replayCheckpoint _ => [.sid, .zones, .lanes, .demods, .flurry, .paths, .firn]
  | .replayEnd _ => completionFields ++ [.sid, .vlog, .aur, .zones, .lanes, .afs, .services]
  | .alertPrimaryReport _ _ _ _ => completionFields ++ [.sid, .pol, .tx]
  | .alertCheckReport _ _ _ _ => completionFields ++ [.sid, .pol, .tx]
  | .alertMismatchTimeout _ _ => completionFields ++ [.sid, .pol, .tx]
  | .heartbeatCheck _ _ _ => completionFields ++ [.sid, .pol, .tx]
  | .watchdogExpiry _ => completionFields ++ [.sid, .pol, .tx]
  | .lockstepMismatch _ => completionFields ++ [.sid, .pol, .tx]
  | .configCrcCheck _ _ => completionFields ++ [.sid, .pol, .tx]
  | .eccError _ _ _ => completionFields ++ [.sid, .pol, .tx]
  | .railOutOfRange _ _ => completionFields ++ [.sid, .pol, .tx]
  | .ballReadbackFault _ _ _ => completionFields ++ [.sid, .pol, .tx]
  | .breakinDueCheck _ _ => completionFields ++ [.sid, .pol, .tx]
  | .periodicSelftest _ _ => completionFields ++ [.sid, .pol, .tx]
  | .tapSettled _ _ => [.sid, .flurry]
  | .msixVectorUnmask _ => [.pcie]
  | .arpIcmpRequest _ => [.eth]
  | .ptpMessageSend _ _ => [.sid, .eth]

end Sys2Proof.Machine
end

