-- ==== Sys2Proof/Certificates/Slice0/Obligations.lean ====
section
/-! DEFINITION. Certificates/Slice0/Obligations.lean: the statements about the model, one definition each. -/

open Sys2Proof Sys2Proof.Machine

/-- Group 0x00. `NOP` is skipped, or halts its ring where it is malformed; the three reads of the system return their records;
`CMD_ABORT` ends the command that it names, one that has not begun and one that is Executing in a state that can be aborted.
The model's choices that it rests on: log entries 16, 22, 24, 25, 27, 161. -/
def Obligations.SystemCommandsComplete : Prop :=
  ∀ (a : Args) (s : State),
    (channelOpen s a.origin = false ∨ badLen a.origin a.payload.length = false → exec (.nop a) s = .next s) ∧
    (channelOpen s a.origin = true → badLen a.origin a.payload.length = true →
      exec (.nop a) s = .next (malformed ⟨0, a⟩ s)) ∧
    (ready identifySpec a s = true →
      exec (.identify a) s = .next (answer identifySpec a s stOk 0 (identifyResult s) (taken identifySpec a s))) ∧
    (ready getStatusSpec a s = true →
      exec (.getStatus a) s =
        .next (answer getStatusSpec a s stOk 0 (statusResult (taken getStatusSpec a s)) (taken getStatusSpec a s))) ∧
    (ready getCapsSpec a s = true →
      exec (.getCaps a) s =
        .next (answer getCapsSpec a s stOk 0 (capsResult s (byteAt a.payload 0)) (taken getCapsSpec a s))) ∧
    (∀ f, ready cmdAbortSpec a s = true →
      byTag (taken cmdAbortSpec a s) (abortOrigin a.payload) (le a.payload 2 2) = some f → f.phase ≠ .executing →
      exec (.cmdAbort a) s =
        .next (answer cmdAbortSpec a s stOk 0 [] (abortFlight (taken cmdAbortSpec a s) f))) ∧
    (∀ f q, ready cmdAbortSpec a s = true →
      byTag (taken cmdAbortSpec a s) (abortOrigin a.payload) (le a.payload 2 2) = some f → f.phase = .executing →
      abortExecuting (taken cmdAbortSpec a s) f = some q →
      exec (.cmdAbort a) s =
        .next (answer cmdAbortSpec a s stOk 0 [] (complete q f stAbortedHost 0 [] q.sid.now s.ev.nextId)))

/-- Group 0x01. A ring is created at the number that is free, with its counts at `START_INDEX`; a command ring, only with a
completion ring to pair with, has the tags of its status block recovered where `RECOVER` asks for it, and that block
cleared. A ring is destroyed: one that no command ring uses at once, a command ring once no command of it is Executing. A
halted ring is reset; a window is set or removed; event windows are Executing until the next tick. The model's choices that
it rests on: log entries 17, 20, 22. -/
def Obligations.RingAndWindowCommandsComplete : Prop :=
  ∀ (a : Args) (s : State),
    let n := byteAt a.payload 0
    (ready ringCreateSpec a s = true → mget s.rings n = none → byteAt a.payload 1 ≠ 1 →
      exec (.ringCreate a) s =
        .next (answer ringCreateSpec a s stOk 0 [] (putRing (taken ringCreateSpec a s) n (newRing a.payload)))) ∧
    (∀ q, ready ringCreateSpec a s = true → mget s.rings n = none → byteAt a.payload 1 = 1 →
      mget s.rings (byteAt a.payload 28) = some q → q.kind = .completion →
      exec (.ringCreate a) s =
        .next (answer ringCreateSpec a s stOk 0 [] (hostStore (putRing
          ((if bit (byteAt a.payload 2) 0 then recoveredTags (taken ringCreateSpec a s).host (le a.payload 16 8) else []).foldl
            (fun q t => pushEntry q (byteAt a.payload 28) (cplBytes t 0 stAbortedReset 0 0 []) none)
            (taken ringCreateSpec a s)) n (newRing a.payload)) (le a.payload 16 8 + 16) (zeros 128)))) ∧
    (∀ r, ready ringDestroySpec a s = true → mget s.rings n = some r → r.kind ≠ .command → r.kind ≠ .completion →
      exec (.ringDestroy a) s =
        .next (answer ringDestroySpec a s stOk 0 [] (dropRing (taken ringDestroySpec a s) n))) ∧
    (∀ r, ready ringDestroySpec a s = true → mget s.rings n = some r → r.kind = .completion →
      (∀ e ∈ s.rings, e.2.kind = .command → e.2.cplRing ≠ n) →
      exec (.ringDestroy a) s =
        .next (answer ringDestroySpec a s stOk 0 [] (dropRing (taken ringDestroySpec a s) n))) ∧
    (∀ r, ready ringDestroySpec a s = true → mget s.rings n = some r → r.kind = .command → r.destroying = none →
      ∃ q r2, exec (.ringDestroy a) s = .next (begins ringDestroySpec a s q) ∧
        mget q.rings n = some r2 ∧ r2.destroying = some (a.origin, a.tag.toNat)) ∧
    (∀ r, ready ringResetSpec a s = true → mget s.rings n = some r → r.halted = true →
      le a.payload 4 4 % granule r.kind = 0 →
      exec (.ringReset a) s =
        .next (answer ringResetSpec a s stOk 0 [] (putRing (taken ringResetSpec a s) n
          { r with halted := false, prod := le a.payload 4 4, cons := le a.payload 4 4 }))) ∧
    (ready winSetSpec a s = true → (∀ w, mget s.wins n = some w → windowInUse (taken winSetSpec a s) w = false) →
      exec (.winSet a) s =
        .next (answer winSetSpec a s stOk 0 [] ((taken winSetSpec a s).setWins
          (if byteAt a.payload 1 = 0 then mdel s.wins n
           else mput s.wins n { read := bit (byteAt a.payload 1) 0, write := bit (byteAt a.payload 1) 1,
                                base := le a.payload 8 8, size := le a.payload 16 8 })))) ∧
    (ready eventWindowSetSpec a s = true →
      exec (.eventWindowSet a) s =
        .next (begins eventWindowSetSpec a s ((taken eventWindowSetSpec a s).setEv { s.ev with
          pending := s.ev.pending ++ (windowCodes (le a.payload 0 2)).map fun e => (e, byteAt a.payload 2) })))

/-- The control bits of page 0x01 (Table 2-12): the owner of the mailbox submits its command window, pops the completion window,
clears `OVERFLOW`; a link that is not the owner causes a violation instead. Ownership passes only from free to the writing
link and from the owner to free; `VLOG_CLEAR` empties the violation log's count. The model's choices that it rests on: log
entry 17. -/
def Obligations.MailboxControlBitsAct : Prop :=
  ∀ (l : Link) (s : State),
    (owns s l = true → s.mbx.submit = none →
      exec (.go l) s = .next (s.setMbx { s.mbx with submit := some s.mbx.cmdWin })) ∧
    (∀ p, s.mbx.submit = some p → mbxCount s < 32 →
      exec .mailboxCopy s = .next (s.setMbx { s.mbx with submit := none, copied := s.mbx.copied ++ [p] })) ∧
    (owns s l = true → exec (.cplPop l) s = .next (s.setMbx { s.mbx with queue := s.mbx.queue.tail })) ∧
    (owns s l = true → exec (.overflowClear l) s = .next (s.setMbx { s.mbx with overflow := false })) ∧
    (owns s l = false →
      exec (.go l) s = .next (regViolation l 0x04 1 0xF0 s) ∧ exec (.cplPop l) s = .next (regViolation l 0x04 1 0xF0 s) ∧
      exec (.overflowClear l) s = .next (regViolation l 0x04 1 0xF0 s)) ∧
    (s.mbx.owner = 0 →
      exec (.owner l (BitVec.ofNat 2 (linkCode l))) s = .next (s.setMbx { s.mbx with owner := BitVec.ofNat 2 (linkCode l) })) ∧
    (owns s l = true → exec (.owner l 0) s = .next (s.setMbx { s.mbx with owner := 0 })) ∧
    (∀ v : BitVec 2, s.mbx.owner ≠ 0 → v ≠ 0 → exec (.owner l v) s = .next s) ∧
    (owns s l = false → exec (.owner l 0) s = .next s) ∧
    exec (.vlogClear l) s = .next (s.setVlog { s.vlog with fill := 0 })

/-- Register writes. Over I²C the bytes of a transfer act in their order, over PCIe one memory write acts. Over PCIe a byte of
page 0x02 takes its clamped value at once, a byte of the command window is stored for the owner alone, and an access outside
the pages of BAR0 is a violation of kind 0x01 answered with Unsupported Request; over I²C a byte of page 0x02, `PAGE_SEL`,
`LEG_EN` and the clearing of `CTRL_FAIL` wait for the end of the transfer. The model's choices that it rests on: log entries
17, 29, 151, 154, 155, 156, 157. -/
def Obligations.RegisterWritesTakeEffect : Prop :=
  ∀ (s : State) (v : Byte) (off : Byte),
    (∀ (page : Byte) (data : Bytes),
      exec (.registerWrite .i2c page off data) s = .next (data.foldl i2cByte s) ∧
      (s.pcie.up = true → exec (.registerWrite .pcie page off data) s = .next (pcieWrite page.toNat off.toNat data s))) ∧
    (s.pcie.up = true → off.toNat ≤ 7 ∨ off.toNat = 9 →
      exec (.registerWrite .pcie 0x02 off [v]) s = .next (hcfgWrite s off.toNat v.toNat)) ∧
    (s.pcie.up = true → owns s .pcie = true → s.mbx.submit = none → off.toNat < 0x80 →
      exec (.registerWrite .pcie 0x01 off [v]) s =
        .next (s.setMbx { s.mbx with cmdWin := splice s.mbx.cmdWin off.toNat [v] })) ∧
    (s.pcie.up = true → owns s .pcie = false → off.toNat < 0x80 →
      exec (.registerWrite .pcie 0x01 off [v]) s = .next (regViolation .pcie 0x04 1 off.toNat s)) ∧
    (s.i2c.st = .writePtr →
      exec (.registerWrite .i2c 0 0 [off]) s = .next (s.setI2c { s.i2c with st := .write, pointer := off.toNat })) ∧
    (s.i2c.st = .write → s.i2c.page = 0x02 → s.i2c.pointer ≤ 7 →
      exec (.registerWrite .i2c 0 0 [v]) s = .next (s.setI2c { s.i2c with
        pend := s.i2c.pend ++ [(0x02, s.i2c.pointer, v)], pointer := s.i2c.pointer + 1 })) ∧
    exec (.pageSel v) s = .next (s.setI2c { s.i2c with pend := s.i2c.pend ++ [(s.i2c.page, 0xFF, v)], pointer := 0 }) ∧
    (∀ e : Bool, exec (.legEn .i2c e) s =
      .next (s.setI2c { s.i2c with pend := s.i2c.pend ++ [(0x02, 0x06, if e then 1 else 0)] })) ∧
    exec (.legEn .pcie true) s = .next (if s.hcfg.legEn then s else legacyOn s) ∧
    exec (.legEn .pcie false) s = .next (if s.hcfg.legEn then legacyOff s else s) ∧
    exec (.ctrlFailClear .i2c) s = .next (s.setI2c { s.i2c with pend := s.i2c.pend ++ [(0x02, 0x09, 1)] }) ∧
    (∃ t, exec (.ctrlFailClear .pcie) s = .next t ∧ t.hcfg = { s.hcfg with ctrlFail := false } ∧ t.i2c = { s.i2c with nacks := 0 }) ∧
    (∀ (w : Bool) (o : BitVec 16) (n : Nat), hasPcie s = true →
      exec (.bar0InvalidAccess w o n) s = .next (unsupported s 0x01 o.toNat 0))

/-- The I²C target of Table 15-3. A START puts it in Address, whence it takes its own address byte or ignores the transfer; a
STOP and a repeated START apply the writes that wait; a negative acknowledgement ends a read past the byte; a stuck bus
returns it to Idle with nothing applied. A wake-up by address holds SCL low while the device begins its bring-up. The device
calls the host's attention over I²C by a request with SDA, given up at a collision, or by a controller write, retried until
`CTRL_RETRY` addresses have not been acknowledged (R450–R453). The model's choices that it rests on: log entries 58, 146,
151, 152, 153. -/
def Obligations.I2cTargetAndAttentionFollowTheBus : Prop :=
  ∀ (s : State),
    exec .i2cStart s = .next (s.setI2c { s.i2c with st := .address, holding := false }) ∧
    (∀ b : Byte, s.i2c.st = .address → b.toNat / 2 = s.hcfg.i2cAddr → targetAnswers s = true →
      let q := takeAddress (s.setI2c { s.i2c with met := true }) (bit b.toNat 0)
      exec (.i2cAddress b) s = .next (if s.pwr.state = .frost ∧ bit s.pwr.wakeMask 0 = true then leaveFrost q else q)) ∧
    (∀ b : Byte, s.i2c.st = .address → b.toNat / 2 ≠ s.hcfg.i2cAddr ∨ targetAnswers s = false →
      exec (.i2cAddress b) s = .next (s.setI2c { s.i2c with st := .ignore })) ∧
    (let q := applyPends (s.setI2c { s.i2c with holding := false })
     exec .i2cStop s = .next (q.setI2c { q.i2c with st := .idle }) ∧
     exec .i2cRepeatedStart s = .next (q.setI2c { q.i2c with st := .address })) ∧
    (∀ (p : Nat) (v : Byte), s.i2c.pend = [(p, 0xFF, v)] →
      exec .i2cStop s = .next (s.setI2c { s.i2c with st := .idle, holding := false, pend := [], page := v.toNat })) ∧
    (s.i2c.st = .read →
      exec .i2cControllerNack s =
        .next (s.setI2c { s.i2c with st := .ignore, pointer := (s.i2c.pointer + 1) % 256 })) ∧
    (∀ (b : Byte) (tj : Int), b.toNat / 2 = s.hcfg.i2cAddr → wakes s 0 tj = true →
      ∃ t, exec (.i2cWakeAddressMatch b tj) s = .next t ∧ t.i2c.stretch = true ∧ t.i2c.page = 0 ∧ t.i2c.pointer = 0 ∧
        t.i2c.st = (if bit b.toNat 0 then .read else .writePtr)) ∧
    (∀ t : Sid, s.i2c.st ≠ .idle → s.i2c.st ≠ .ignore →
      ∃ q, exec (.evBusStuck t) s = .next q ∧ q.i2c = { s.i2c with st := .idle, pend := [], holding := false } ∧
        q.hcfg = { s.hcfg with stuck := sat 32 (s.hcfg.stuck + 1) }) ∧
    (maySignal s 1 = true →
      exec .inBandRequest s = .next ((s.setI2c { s.i2c with holding := true, lastReq := s.sid.now, met := false }).setMbx
        { s.mbx with attn := false })) ∧
    (s.i2c.holding = true →
      exec .ibrCollision s = .next (((s.setI2c { s.i2c with holding := false }).setHcfg
        { s.hcfg with collisions := sat 16 (s.hcfg.collisions + 1) }).setMbx { s.mbx with attn := true })) ∧
    (maySignal s 2 = true → givenUp s = false →
      exec (.controllerWrite .done) s = .next ((s.setMbx { s.mbx with attn := false }).setI2c
        { s.i2c with nacks := 0, lastReq := s.sid.now, met := false })) ∧
    (maySignal s 2 = true → givenUp s = false → exec (.controllerWrite .lost) s = .next s) ∧
    (maySignal s 2 = true → s.i2c.nacks + 1 < max 1 s.hcfg.ctrlRetry →
      exec (.controllerWrite .nack) s =
        .next (s.setI2c { s.i2c with nacks := s.i2c.nacks + 1, lastReq := s.sid.now, met := false })) ∧
    (maySignal s 2 = true → s.i2c.nacks + 1 = max 1 s.hcfg.ctrlRetry →
      exec (.controllerWrite .nack) s = .next (((s.setI2c
        { s.i2c with nacks := s.i2c.nacks + 1, lastReq := s.sid.now, met := false }).setHcfg
        { s.hcfg with ctrlFail := true }).setMbx { s.mbx with attn := false }))

/-- The doorbells and the interrupts of the rings. A doorbell moves the host's count of its ring; a write that is not of a ring,
not on its granule or that would overfill it is a violation of kind 0x06, one outside the doorbells or not aligned of kind
0x01; a reserved word takes nothing. Space lets held completions out; the earliest due event window and the oldest urgent
event are posted; a vector is raised once per condition, and an unmasked pending vector is sent. The model's choices that it
rests on: log entries 19, 20, 21. -/
def Obligations.DoorbellsAndInterruptsAct : Prop :=
  ∀ (s : State) (n : Nat) (v : BitVec 32) (stores : List (Nat × BitVec 8)), n < 128 →
    (∀ r : Machine.Ring, mget s.rings n = some r →
      (r.kind = .completion ∨ r.kind = .event → v.toNat % 16 = 0 → (r.prod + 2 ^ 32 - v.toNat) % 2 ^ 32 ≤ r.size →
        hasPcie s = true →
        exec (.doorbellWrite (BitVec.ofNat 16 (0x8000 + 8 * n)) v stores) s =
          .next ((s.setHost (memCells s.host stores)).setRings
            (mput s.rings n { r with cons := v.toNat, doorbell := v.toNat }))) ∧
      (r.kind ≠ .completion → r.kind ≠ .event → v.toNat % granule r.kind = 0 →
        (v.toNat + 2 ^ 32 - r.cons) % 2 ^ 32 ≤ r.size → hasPcie s = true →
        exec (.doorbellWrite (BitVec.ofNat 16 (0x8000 + 8 * n)) v stores) s =
          .next ((s.setHost (memCells s.host stores)).setRings
            (mput s.rings n { r with prod := v.toNat, doorbell := v.toNat }))) ∧
      (r.kind = .command → (v.toNat + 2 ^ 32 - r.cons) % 2 ^ 32 > r.size → hasPcie s = true →
        exec (.doorbellWrite (BitVec.ofNat 16 (0x8000 + 8 * n)) v stores) s =
          .next (violate (s.setHost (memCells s.host stores)) 0x06 (Config.bar0 + 0x8000 + 8 * n) 2 n)) ∧
      (exec (.completionRingSpace n) s = .next (drainHeld r.heldCpl.length s n)) ∧
      (∀ b e q (t : State), r.heldCpl = [(b, e)] → writeEntry (padRing s n b.length) n b = some t → mget t.rings n = some q →
        exec (.completionRingSpace n) s =
          .next (endInflight (t.setRings (mput t.rings n { q with heldCpl := q.heldCpl.tail })) e)) ∧
      (r.vector ≠ 0xFF → 0 < r.uncovered → max 1 r.modCount ≤ r.uncovered ∨ r.urgent = true ∨ r.modTime = 0 →
        exec (.msixInterrupt n) s =
          .next (raiseVector (s.setRings (mput s.rings n { r with uncovered := 0, urgent := false })) r.vector)) ∧
      (∀ t : Sid, r.vector ≠ 0xFF → 0 < r.uncovered → r.firstAt + r.modTime * usU ≤ (advance s t).sid.now →
        exec (.modTimeExpiry n t) s = .next (raiseVector ((advance s t).setRings
          (mput s.rings n { r with uncovered := 0, urgent := false })) r.vector))) ∧
    (∀ o : BitVec 16, hasPcie s = true → o.toNat < 0x8000 ∨ 0x8400 ≤ o.toNat ∨ o.toNat % 4 ≠ 0 →
      exec (.doorbellWrite o v stores) s = .next (unsupported (s.setHost (memCells s.host stores)) 0x01 o.toNat 0)) ∧
    (hasPcie s = true → mget s.rings n = none →
      exec (.doorbellWrite (BitVec.ofNat 16 (0x8000 + 8 * n)) v stores) s =
        .next (violate (s.setHost (memCells s.host stores)) 0x06 (Config.bar0 + 0x8000 + 8 * n) 2 n) ∧
      exec (.doorbellWrite (BitVec.ofNat 16 (0x8004 + 8 * n)) v stores) s =
        .next (s.setHost (memCells s.host stores))) ∧
    (∀ w, dueWindow s = some w →
      exec .eventWindowClose s =
        .next (postEvent (s.setEv { s.ev with windows := s.ev.windows.filter fun x => x.id != w.id }) w)) ∧
    (∀ (w : EvWindow) (ws : List EvWindow), s.ev.urgent = w :: ws → canPost s w = true →
      exec .urgentEventPost s = .next (postEvent (s.setEv { s.ev with urgent := ws }) w)) ∧
    (s.mbx.signal = true → s.mbx.owner = 2 → s.hcfg.mbxIrqEn = true →
      exec .mailboxVector s = .next (raiseVector (s.setMbx { s.mbx with signal := false }) s.hcfg.mbxVector)) ∧
    (∀ k < 64,
      let q := s.setPcie { s.pcie with
        msixTable := splice s.pcie.msixTable (16 * k + 12) [BitVec.ofNat 8 (byteAt s.pcie.msixTable (16 * k + 12) / 2 * 2)] }
      (s.pcie.pba.getLsbD k = false → exec (.msixVectorUnmask k) s = .next q) ∧
      (s.pcie.pba.getLsbD k = true →
        exec (.msixVectorUnmask k) s = .next (raiseVector (q.setPcie { q.pcie with pba := s.pcie.pba &&& ~~~(1#64 <<< k) }) k)))

/-- The links. The buffer under way of a stream-out ring is returned, and a stream-in ring's next buffer is consumed, unless an
access that this needs fails its window check; a DMA error stops its ring; a reset of the PCIe island discards rings and
windows and disables MSI-X; the link comes up after step 4 of bring-up, at Gen1 to Gen3 and x1 or x2; D3hot is entered and
left with the rings kept; the SGMII link follows its PHY; IRQ_N follows its condition. The model's choices that it rests on:
log entries 18, 19. -/
def Obligations.HostLinkOccurrencesAct : Prop :=
  ∀ (s : State) (t : Sid),
    (∀ (n k : Nat) (r : Machine.Ring), mget s.rings n = some r → s.pcie.d3 = false → r.halted = false → 16 ≤ occupancy r →
      (r.kind = .streamOut → 0 < r.fill →
        exec (.streamDescriptorUse n k) s = .next (returnBuf s n r r.fill r.bufGap)) ∧
      (∀ x, r.kind = .streamOut → r.fill = 0 → bufferDenied s r = some x →
        exec (.streamDescriptorUse n k) s = .next (stopStream s n r x)) ∧
      (r.kind = .streamIn → descriptorDenied s r = none →
        inWindow s false (le (descriptor s r 0) 0 8) (le (descriptor s r 0) 8 4) = true →
        let used := min k (le (descriptor s r 0) 8 4)
        exec (.streamDescriptorUse n k) s = .next (returnBuf (s.setPcie { s.pcie with rxBytes := s.pcie.rxBytes + used }) n
          { r with inData := r.inData ++ memBytes s.host (le (descriptor s r 0) 0 8) used } used false)) ∧
      (∀ x, r.kind = .streamIn → descriptorDenied s r = some x →
        exec (.streamDescriptorUse n k) s = .next (stopStream s n r x))) ∧
    (∀ (n : Nat) (r : Machine.Ring), mget s.rings n = some r →
      ∃ q, exec (.dmaError n t) s = .next q ∧ q.rings = mput s.rings n { r with halted := true } ∧
        q.pcie.dmaErrors = sat 32 (s.pcie.dmaErrors + 1)) ∧
    (∀ down : Bool, hasPcie s = true → ∃ q, exec (.pcieIslandReset down t) s = .next q ∧ q.rings = [] ∧ q.wins = [] ∧
      q.host = s.host ∧ q.pcie.flrCount = sat 32 (s.pcie.flrCount + 1) ∧ q.pcie.msixEn = false ∧
      q.pcie.up = (s.pcie.up && !down) ∧ q.mbx.owner = if s.mbx.owner = 2 then 0 else s.mbx.owner) ∧
    (∀ speed width : Byte, 5 ≤ s.pwr.buStep → s.pcie.up = false → hasPcie s = true → 1 ≤ speed.toNat → speed.toNat ≤ 3 →
      1 ≤ width.toNat → width.toNat ≤ 2 →
      ∃ q, exec (.pcieLinkUp speed width t) s = .next q ∧ q.pcie.up = true ∧ q.pcie.speed = speed.toNat ∧
        q.pcie.width = width.toNat) ∧
    (hasPcie s = true → exec (.pcieD3hot true) s = .next (s.setPcie { s.pcie with d3 := true }) ∧
      exec (.pcieD3hot false) s = .next ((List.range 64).foldl sendPending (s.setPcie { s.pcie with d3 := false }))) ∧
    (∀ up bad : Bool, portPowered s = true →
      exec (.sgmiiLinkChange up bad t) s = .next
        (if (up && !bad) = s.eth.link then (advance s t).setEth { s.eth with speedBad := bad }
         else streamsStart (linkTo (advance s t) (up && !bad) bad))) ∧
    exec .irqNUpdate s = .next (s.setPanel { s.panel with irqN := irqWanted s })

/-- The panel. `PANEL_SET` is Executing until the next tick; `PANEL_GET` returns the state of the inputs. A key changes its
reported state, or its press is withheld as a possible phantom; a plug changes with its polarity; an encoder counts a detent
when the transitions of `ENC_DIV` have come, and an invalid step as an error; the PTT button passes its trigger on; a low of
1 ms on WAKE_N is told, and wakes. The model's choices that it rests on: log entries 147, 149, 150. -/
def Obligations.PanelInputsAreReported : Prop :=
  ∀ (a : Args) (s : State) (t : Sid),
    (ready panelSetSpec a s = true →
      exec (.panelSet a) s =
        .next (begins panelSetSpec a s ((taken panelSetSpec a s).setPanel { s.panel with pending := some a.payload }))) ∧
    (ready panelGetSpec a s = true →
      exec (.panelGet a) s = .next (answer panelGetSpec a s stOk 0 (panelResult s.panel) (taken panelGetSpec a s))) ∧
    (∀ k < 16, s.pwr.state ≠ .off → s.panel.withheld.contains k = false →
      (s.panel.keys.getLsbD k = false →
        bit (byteAt s.panel.cfg 8) 0 = true ∨ phantom (keysDown s.panel ||| 2 ^ k) k = false →
        ∃ q, exec (.keyChange k true t) s = .next q ∧ q.panel.keys = (s.panel.keys ||| (1#16 <<< k))) ∧
      (s.panel.keys.getLsbD k = false → bit (byteAt s.panel.cfg 8) 0 = false →
        phantom (keysDown s.panel ||| 2 ^ k) k = true →
        ∃ q, exec (.keyChange k true t) s = .next q ∧ q.panel.keys = s.panel.keys ∧
          q.panel.withheld = s.panel.withheld ++ [k]) ∧
      (s.panel.keys.getLsbD k = true → ∃ q, exec (.keyChange k false t) s = .next q ∧
        q = reportWithheld (setKey (advance s t) k false))) ∧
    (∀ k < 16, s.pwr.state ≠ .off → s.panel.withheld.contains k = true →
      exec (.keyChange k false t) s = .next (reportWithheld
        ((advance s t).setPanel { s.panel with withheld := s.panel.withheld.erase k }))) ∧
    (∀ p < 4, ∀ high : Bool, s.pwr.state ≠ .off → s.panel.plugs.getLsbD p ≠ (high == bit (byteAt s.panel.cfg 6) p) →
      ∃ q, exec (.plugChange p high t) s = .next q ∧
        q.panel.plugs = (if (high == bit (byteAt s.panel.cfg 6) p) = true then s.panel.plugs ||| (1#4 <<< p)
          else s.panel.plugs &&& ~~~(1#4 <<< p))) ∧
    (∀ e < 2, s.pwr.state ≠ .off →
      exec (.encoderStep e 0 t) s =
        .next ((advance s t).setPanel { s.panel with encErrs := sat 32 (s.panel.encErrs + 1) })) ∧
    (∀ d : Int, s.pwr.state ≠ .off → d.natAbs = 1 →
      ((s.panel.part0 + d).natAbs < byteAt s.panel.cfg 7 →
        exec (.encoderStep 0 d t) s = .next ((advance s t).setPanel { s.panel with part0 := s.panel.part0 + d })) ∧
      (byteAt s.panel.cfg 7 ≤ (s.panel.part0 + d).natAbs →
        ∃ q, exec (.encoderStep 0 d t) s = .next q ∧ q.panel.enc0 = s.panel.enc0 + BitVec.ofInt 16 d ∧ q.panel.part0 = 0) ∧
      ((s.panel.part1 + d).natAbs < byteAt s.panel.cfg 7 →
        exec (.encoderStep 1 d t) s = .next ((advance s t).setPanel { s.panel with part1 := s.panel.part1 + d })) ∧
      (byteAt s.panel.cfg 7 ≤ (s.panel.part1 + d).natAbs →
        ∃ q, exec (.encoderStep 1 d t) s = .next q ∧ q.panel.enc1 = s.panel.enc1 + BitVec.ofInt 16 d ∧ q.panel.part1 = 0)) ∧
    (∀ pressed : Bool, s.pwr.state ≠ .off → s.panel.ptt ≠ pressed →
      ∃ q, exec (.ptt pressed t) s = .next q ∧ q.panel.ptt = pressed ∧ q.panel.pttFree = (pressed && !brkEn s 1)) ∧
    (∀ (us : Nat) (tj : Int), 1000 ≤ us → s.pwr.state = .active ∨ s.pwr.state = .frost →
      exec (.wakeN us tj t) s = .next (wakeBy (raise (advance s t) evPanel 0x0D00 (panelDetail 4 17 0)) 1 tj)) ∧
    (∀ (us : Nat) (tj : Int), 1000 ≤ us → s.pwr.state = .permafrost → exec (.wakeN us tj t) s = .next (wakeBy s 1 tj))

/-- The Ethernet port. `ETH_SET` stores the settings and lets waiting streams run; `UDP_STREAM_SET` replaces a stream, and is
Executing until it runs; the records are read back. An ARP or ICMP request is answered; a datagram that a running stream
accepts feeds it whole or waits in reassembly; a reassembly that has lasted 20 ms is discarded; an audio-out datagram leaves
within 0.5 ms of its last sample, or its samples are lost; an audio-in stream that has run dry stops; a head sends the two
fragments of a frame packet, both of the frame's number. The model's choices that it rests on: log entries 123, 124, 125. -/
def Obligations.EthernetStreamsAct : Prop :=
  ∀ (a : Args) (s : State) (t : Sid),
    (ready ethSetSpec a s = true →
      exec (.ethSet a) s = .next (answer ethSetSpec a s stOk 0 []
        (streamsStart ((taken ethSetSpec a s).setEth { s.eth with cfg := a.payload })))) ∧
    (ready udpStreamSetSpec a s = true →
      ¬(sfnRole s ≠ 0 ∧ sfnStream s = byteAt a.payload 0 ∧ (s.tx.st = .on ∨ s.tx.st = .muted)) →
      let u : UdpStream := { UdpStream.reset with cfg := a.payload }
      let q := (taken udpStreamSetSpec a s).setEth { s.eth with
        streams := mput s.eth.streams (byteAt a.payload 0) u
        reasm := s.eth.reasm.filter fun e => e.stream != byteAt a.payload 0 }
      exec (.udpStreamSet a) s = .next
        (if u.kind = 0 ∨ streamRuns q u = true then answer udpStreamSetSpec a s stOk 0 [] q
         else begins udpStreamSetSpec a s q)) ∧
    (ready ethGetSpec a s = true →
      exec (.ethGet a) s = .next (answer ethGetSpec a s stOk 0 (ethRecord s) (taken ethGetSpec a s))) ∧
    (ready pcieGetSpec a s = true →
      exec (.pcieGet a) s =
        .next (answer pcieGetSpec a s stOk 0 (pcieRecord (taken pcieGetSpec a s).pcie) (taken pcieGetSpec a s))) ∧
    (∀ icmp : Bool, portUp s = true →
      exec (.arpIcmpRequest icmp) s = .next
        (if portSends s = true ∧ (icmp = false ∨ bit (byteAt s.eth.cfg 6) 3 = true) then sent (received s 1) 1
         else received s 1)) ∧
    (∀ d : Datagram, portUp s = true → d.data.length + 28 ≤ 1522 →
      let q := received (advance s t) 1
      let u := stream q d.stream
      (d.stream < 16 → u.kind = 2 ∨ u.kind = 4 → streamRuns q u = true → forPort q u d.dest = true →
        u.takesFrom d.source = true →
        exec (.udpDatagram d t) s =
          .next (if d.offset = 0 ∧ d.last = true then streamTakes q d.stream d.data else fragmentIn q d)) ∧
      (u.takesFrom d.source = false → exec (.udpDatagram d t) s = .next q)) ∧
    (∀ (i ident : Nat) (r : Reasm),
      ((advance s t).eth.reasm.find? fun e => decide (e.stream = i) && decide (e.ident = ident)) = some r →
      r.first + 20000 * usU ≤ (advance s t).sid.now →
      exec (.reassemblyTimeout i ident t) s = .next (discard (advance s t) r)) ∧
    (∀ i : Nat, (stream s i).kind = 2 → (stream s i).active = true → expired s (stream s i).deadline = true →
      exec (.audioInStreamStop i) s = .next (raise (putStream s i { stream s i with active := false, buffer := [] })
        evHostlink 0x0F00 (0x13 + 256 * i))) ∧
    (∀ i : Nat, (stream s i).kind = 1 → streamRuns s (stream s i) = true →
      let q := advance s t
      let n := byteAt (stream s i).cfg 9
      let first := if (stream s i).outNo = 0 then sampleNo q.sid.now + 1 else (stream s i).outNo
      let last := (first + n - 1) * secU / 48000
      (last + 500 * usU < q.sid.now → exec (.audioOutDatagram i t) s =
        .next (putStream q i { stream s i with gap := true, outNo := first + n })) ∧
      (last ≤ q.sid.now → q.sid.now ≤ last + 500 * usU →
        ∃ w pcm, exec (.audioOutDatagram i t) s = .next w ∧
          stream w i = { stream s i with
            seq := ((stream s i).seq + 1) % 2 ^ 32, gap := false, outNo := first + n
            sent := streamHeader i (stream s i) (flag (stream s i).gap 1) (stream s i).seq (first * secU / 48000) (8 * n) n
              ++ pcm } ∧
          pcm.length = 8 * n ∧ w.eth.txFrames = sat 32 (s.eth.txFrames + framesOf (stream s i) (8 * n)))) ∧
    (∀ frame : Nat, let q := advance s t
      let time : Int := frame * frameU + 65536 * les s.tx.sfn 4 4
      sfnRole q = 1 → txMode q = 2 → transmitting q = true → (stream q (sfnStream q)).kind = 3 →
      streamRuns q (stream q (sfnStream q)) = true → mget s.tx.ahead frame = none →
      (q.sid.now : Int) + le s.tx.sfn 12 2 * 1000 * usU ≤ time →
      ∃ w, exec (.sfnFramePacketSend frame t) s = .next w ∧
        mget w.tx.ahead frame = some (frameFic q frame, frameAudio q) ∧
        (stream w (sfnStream q)).seq = frame % 2 ^ 32 ∧
        w.eth.txFrames = sat 32 (s.eth.txFrames + (framesOf (stream q (sfnStream q)) (frameFic q frame).length +
          framesOf (stream q (sfnStream q)) (frameAudio q).length)))

/-- Group 0x02, clocks: a changed `REF_SET` puts the loops in holdover and is Executing until lock is back, one that changes
nothing completes; `LOCK_SET` and `PPSOUT_SET` are stored; an `MCLK_SET` whose channel is locked, or that turns its output
off, acts at a clean edge that the clock island reports, any other is Executing until the channel locks; `REFOUT_SET` acts
at a clean edge; `CLOCK_GET` reads. The model's choices that it rests on: log entries 35, 36, 37. -/
def Obligations.ClockCommandsComplete : Prop :=
  ∀ (a : Args) (s : State),
    (ready refSetSpec a s = true → (bit (byteAt a.payload 1) 0 = true → s.clk.xtal = true) →
      let same := byteAt a.payload 0 == byteAt s.clk.cfg 0 && le a.payload 2 2 == le s.clk.cfg 2 2 &&
        le a.payload 4 3 == le s.clk.cfg 4 3
      let q := (taken refSetSpec a s).setClk { s.clk with cfg := a.payload }
      (same = true → exec (.refSet a) s = .next (answer refSetSpec a s stOk 0 [] q)) ∧
      (same = false → exec (.refSet a) s = .next (begins refSetSpec a s (enterHoldover q 0 false)))) ∧
    (ready lockSetSpec a s = true →
      exec (.lockSet a) s = .next (answer lockSetSpec a s stOk 0 [] ((taken lockSetSpec a s).setClk { s.clk with
        lockCfg := s.clk.lockCfg.set (byteAt a.payload 0) (byteAt a.payload 1, le a.payload 2 2) }))) ∧
    (ready mclkSetSpec a s = true →
      let n := byteAt a.payload 0
      let on := bit (byteAt a.payload 1) 0
      let l := mclkLoop (le a.payload 4 4)
      ∃ q, exec (.mclkSet a) s = .next
          (if on = false ∨ loopLocked s l = true then await mclkSetSpec a s stOk 0 [] q else begins mclkSetSpec a s q) ∧
        mget q.clk.mclk n = some { enabled := on, freq := le a.payload 4 4, gated := on && !loopLocked s l } ∧
        (on = true → (audioCh q l).powered = true ∧ n ∈ (audioCh q l).users)) ∧
    (ready refoutSetSpec a s = true →
      exec (.refoutSet a) s = .next (await refoutSetSpec a s stOk 0 [] ((taken refoutSetSpec a s).setClk { s.clk with
        refoutOn := bit (byteAt a.payload 0) 0, refoutKhz := le a.payload 4 4 }))) ∧
    (ready ppsoutSetSpec a s = true →
      exec (.ppsoutSet a) s = .next (answer ppsoutSetSpec a s stOk 0 [] ((taken ppsoutSetSpec a s).setClk { s.clk with
        ppsMode := byteAt a.payload 0, ppsWidth := le a.payload 4 4,
        ppsHigh := s.clk.ppsHigh && byteAt a.payload 0 != 0 }))) ∧
    (ready clockGetSpec a s = true →
      exec (.clockGet a) s = .next (answer clockGetSpec a s stOk 0 (clockGetResult s) (taken clockGetSpec a s)))

/-- The reference and its loops (Tables 3-3 and 3-6): a detector puts the loops in holdover with its cause, their words frozen,
and from Locked remembers which were locked; a glitch is counted, and the 16th within 1 ms is a burst; the way back is
qualification, frequency acquisition within 0.005 ppm, build-out of every powered loop and lock; a loop locks N cycles after
its attempt began; an unused audio channel powers down; an output that cannot hold its bounds is gated until its channel
locks; PPS_OUT rises at a whole second and falls when `PPS_WIDTH` has passed. The model's choices that it rests on: log
entries 37, 38. -/
def Obligations.ReferenceHoldoverAndReturn : Prop :=
  ∀ (s : State) (t : Sid),
    (s.clk.state = .locked ∨ s.clk.state = .qualifying ∨ s.clk.state = .acquisition ∨ s.clk.state = .buildOut →
      let held := if s.clk.state = .locked then s.clk.lock else s.clk.heldLock
      (∃ q, exec (.referenceLoss t) s = .next q ∧ q.clk.state = .holdover ∧ q.clk.cause = 1 ∧ q.clk.lock = 0 ∧
        q.clk.heldLock = held ∧ q.clk.holdCount = sat 32 (s.clk.holdCount + 1)) ∧
      (∀ dev : Int, 20000000 < (dev - mean s.clk.refDev s.clk.refHist).natAbs →
        ∃ q, exec (.frequencyJump dev t) s = .next q ∧ q.clk.state = .holdover ∧ q.clk.cause = 2 ∧ q.clk.lock = 0 ∧
          q.clk.heldLock = held ∧ q.clk.holdCount = sat 32 (s.clk.holdCount + 1)) ∧
      (15 ≤ (s.clk.recent.filter fun x => decide ((advance s t).sid.now < x + 65536000000)).length →
        ∃ q, exec (.referenceGlitch t) s = .next q ∧ q.clk.state = .holdover ∧ q.clk.cause = 3 ∧
          q.clk.glitches = sat 32 (s.clk.glitches + 1))) ∧
    ((s.clk.recent.filter fun x => decide ((advance s t).sid.now < x + 65536000000)).length < 15 →
      exec (.referenceGlitch t) s = .next ((advance s t).setClk { s.clk with
        glitches := sat 32 (s.clk.glitches + 1), recent := (advance s t).sid.now ::
          s.clk.recent.filter fun x => decide ((advance s t).sid.now < x + 65536000000) })) ∧
    (s.clk.state = .holdover →
      exec .referenceReturn s =
        .next (s.setClk { s.clk with state := .qualifying, qualBy := deadline s (32 * byteAt s.clk.cfg 7) })) ∧
    (s.clk.state = .qualifying → expired s s.clk.qualBy = true →
      exec .qualificationComplete s = .next (s.setClk { s.clk with state := .acquisition, acqFrom := s.sid.now })) ∧
    (s.clk.state = .acquisition → s.clk.acqFrom + 1000 * usU ≤ (advance s t).sid.now →
      (∀ l < 5, loopPowered s l = true → ((loopOf s l).dev - s.clk.refDev).natAbs < 5000) →
      ∃ q, exec (.frequencyAcquisitionComplete t) s = .next q ∧ q.clk.state = .buildOut ∧ q.clk.lock = s.clk.lock) ∧
    (∀ phases : List Int, s.clk.state = .buildOut →
      (∀ l < 5, loopPowered s l = true → lockFrom s l + pdCycles s l 256 ≤ (advance s t).sid.now) →
      ∃ q, exec (.buildOutLock phases t) s = .next q ∧ q.clk.state = .locked ∧ q.clk.lock = builtLock s ∧
        (∀ l < 5, loopPowered s l = true →
          (loopOf q l).build = reduceBuildOut (phases.getD l 0) (loopPd s l))) ∧
    (∀ loop < 5, s.clk.state = .locked → loopLocked s loop = false → lockFrom s loop ≤ (advance s t).sid.now →
      (loop = 2 ∨ loop = 3 → (audioCh s loop).powered = true) →
      ∃ q, exec (.loopLock loop t) s = .next q ∧ q.clk.lock = s.clk.lock ||| (1#5 <<< loop)) ∧
    (∀ ch : Nat, ch = 2 ∨ ch = 3 → (audioCh s ch).powered = true → (audioCh s ch).users = [] →
      expired s (audioCh s ch).downBy = true →
      ∃ q, exec (.audioChannelPowerDown ch) s = .next q ∧ (audioCh q ch).powered = false ∧
        q.clk.lock = s.clk.lock &&& ~~~(1#5 <<< ch)) ∧
    (∀ (n : Nat) (m : Mclk), mget s.clk.mclk n = some m → m.enabled = true →
      (m.gated = false → loopLocked s (mclkLoop m.freq) = false → mclkBound s (mclkLoop m.freq) = false →
        exec (.mclkGate n true t) s =
          .next ((advance s t).setClk { s.clk with mclk := mput s.clk.mclk n { m with gated := true } })) ∧
      (m.gated = true → loopLocked s (mclkLoop m.freq) = true →
        exec (.mclkGate n false t) s =
          .next ((advance s t).setClk { s.clk with mclk := mput s.clk.mclk n { m with gated := false } }))) ∧
    ((advance s t).sid.now % secU = 0 → ppsAllowed s = true → s.clk.ppsHigh = false →
      let now := (advance s t).sid.now
      let near := 0 < s.clk.ppsEnd ∧ s.clk.ppsEnd ≤ now ∧ now < s.clk.ppsEnd + 65536000000
      (near → exec (.ppsOutPulse true t) s =
        .next ((advance s t).setClk { s.clk with ppsSkipped := sat 32 (s.clk.ppsSkipped + 1) })) ∧
      (¬near → exec (.ppsOutPulse true t) s = .next ((advance s t).setClk { s.clk with
        ppsHigh := true, ppsEnd := now + s.clk.ppsWidth * 65536000 }))) ∧
    (s.clk.ppsHigh = true → s.clk.ppsEnd ≤ (advance s t).sid.now →
      exec (.ppsOutPulse false t) s = .next ((advance s t).setClk { s.clk with ppsHigh := false }))

/-- Group 0x0A, Sidereal: a source starts acquisition from Unset, Free-running or another source, none ends it; the PTP port is
set, or turned off; a `TIME_SET` and an accepted step wait for the next tick boundary; `TIME_ADJUST` gives an offset sample
of a host source, and says whether it was refused; `TIME_GET` reads. The model's choices that it rests on: log entries 33,
34. -/
def Obligations.TimeCommandsComplete : Prop :=
  ∀ (a : Args) (s : State),
    (ready timeSrcSetSpec a s = true →
      ∃ q, exec (.timeSrcSet a) s = .next (answer timeSrcSetSpec a s stOk 0 [] q) ∧ q.sid.cfg = a.payload ∧
        q.sid.st = (if byteAt a.payload 0 = 0 then (if s.sid.valid then .free else .unset)
          else if s.sid.st = .unset ∨ s.sid.st = .free ∨ byteAt a.payload 0 ≠ timeSrc s then .acquiring
          else s.sid.st)) ∧
    (ready ptpSetSpec a s = true →
      exec (.ptpSet a) s = .next (answer ptpSetSpec a s stOk 0 [] ((taken ptpSetSpec a s).setSid
        (if byteAt a.payload 0 = 0 then
           { s.sid with ptp := splice s.sid.ptp 0 [0], portState := 0, master := false, group := [] }
         else { s.sid with ptp := a.payload, portState := 4, master := false, group := [] })))) ∧
    (ready timeSetSpec a s = true →
      let rel := byteAt a.payload 0 == 1
      let ns := le a.payload 4 4
      (rel = true ∨ timeSrc s ≠ 2 ∨ ns = 0 →
        exec (.timeSet a) s = .next (begins timeSetSpec a s ((taken timeSetSpec a s).setSid { s.sid with
          stepReqs := s.sid.stepReqs ++ [⟨.timeSet, !rel, !rel && timeSrc s == 2,
            if rel then les a.payload 8 8 else ((le a.payload 8 8 * secU + ns * 65536 : Nat) : Int),
            s.sid.ticks, some (a.origin, a.tag.toNat)⟩] })))) ∧
    (ready timeAcceptStepSpec a s = true → s.sid.st = .refused →
      exec (.timeAcceptStep a) s = .next (begins timeAcceptStepSpec a s ((taken timeAcceptStepSpec a s).setSid
        (if bit (byteAt a.payload 0) 0 then { s.sid with slewReq := some (a.origin, a.tag.toNat) }
         else { s.sid with stepReqs := s.sid.stepReqs ++ 
           [⟨.accept, false, false, 0, s.sid.ticks, some (a.origin, a.tag.toNat)⟩] })))) ∧
    (ready timeAdjustSpec a s = true → timeSrc s = 3 →
      sidOf s.sid.now (BitVec.ofNat 64 (le a.payload 8 8)) ≤ s.sid.now →
      s.sid.now ≤ sidOf s.sid.now (BitVec.ofNat 64 (le a.payload 8 8)) + 3200 * tickU →
      exec (.timeAdjust a) s =
        .next (answer timeAdjustSpec a s
          (if (sample (taken timeAdjustSpec a s) (les a.payload 0 8) true).sid.st = .refused then stTimeRefused else stOk)
          0 [] (sample (taken timeAdjustSpec a s) (les a.payload 0 8) true))) ∧
    (ready timeGetSpec a s = true →
      exec (.timeGet a) s = .next (answer timeGetSpec a s stOk 0 (timeGetResult s) (taken timeGetSpec a s)))

/-- The sources of Sidereal. A PTP sync is one of its group or, as the last of it, gives the sample of least delay; delay
responses give the mean path delay; an announced grandmaster is taken over; only a master-capable port becomes master; the
port sends Sync with its origin time and Announce with its class as a master alone, and delay requests; an edge of PPS_IN
gives its offset from the nearest second; a lost source makes Sidereal coast; an offset that slews within the threshold ends
the suspension. The model's choices that it rests on: log entries 31, 32. -/
def Obligations.TimeSourcesAct : Prop :=
  ∀ (s : State) (t : Sid),
    (ptpPort s = true →
      (∀ o c : Int, s.sid.group.length + 1 < byteAt s.sid.ptp 10 →
        ∃ q, exec (.ptpMessage (.sync o c) t) s = .next q ∧
          q.sid.group = s.sid.group ++ [(s.sid.pathDelay, stampIn (advance s t) - o - c - s.sid.pathDelay - ptpAsym s)] ∧
          q.sid.st = s.sid.st ∧ q.sid.syncTook = stampIn (advance s t) - o - c ∧ q.eth.tsRx = sat 32 (s.eth.tsRx + 1)) ∧
      (∀ o c : Int, byteAt s.sid.ptp 10 ≤ s.sid.group.length + 1 →
        ∃ q, exec (.ptpMessage (.sync o c) t) s = .next q ∧ q.sid.group = [] ∧ q.eth.tsRx = sat 32 (s.eth.tsRx + 1)) ∧
      (∀ r c : Int, ∃ q, exec (.ptpMessage (.delayResp r c) t) s = .next q ∧
        q.sid.pathDelay = (if byteAt s.sid.ptp 0 = 2 then s.sid.pathDelay
          else (s.sid.syncTook + (r - s.sid.reqSent - c)) / 2)) ∧
      (∀ d c : Int, ∃ q, exec (.ptpMessage (.pdelayResp d c) t) s = .next q ∧
        q.sid.pathDelay = (if byteAt s.sid.ptp 0 = 2 then (stampIn (advance s t) - s.sid.reqSent - d - c) / 2
          else s.sid.pathDelay)) ∧
      (∀ (gm : BitVec 64) (utc : BitVec 16),
        ∃ q, exec (.ptpMessage (.announce gm utc) t) s = .next q ∧ q.sid.gm = gm ∧ q.sid.utc = utc.toNat) ∧
      (∀ ev : Bool, ∃ q, exec (.ptpMessage (.other ev) t) s = .next q ∧
        q.eth.rxFrames = sat 32 (s.eth.rxFrames + 1) ∧
        q.eth.tsRx = if ev then sat 32 (s.eth.tsRx + 1) else s.eth.tsRx) ∧
      (∀ (m : Bool) (ps : Byte) (gm : BitVec 64), (m = true → byteAt s.sid.ptp 3 = 1) →
        ∃ q, exec (.ptpBmcaRoleChange m ps gm t) s = .next q ∧ q.sid.master = m ∧ q.sid.portState = ps.toNat ∧
          q.sid.gm = gm) ∧
      (∀ m : PtpOut, le s.eth.cfg 0 6 ≠ 0 → (m = .sync ∨ m = .announce → s.sid.master = true) →
        ∃ q, exec (.ptpMessageSend m t) s = .next q ∧ q.eth.txFrames = sat 32 (s.eth.txFrames + 1) ∧
          q.sid.origin = (if m = .sync then stampOut (advance s t) else s.sid.origin) ∧
          q.sid.reqSent = (if m = .delayReq then stampOut (advance s t) else s.sid.reqSent) ∧
          q.sid.classSent = (if m = .announce then clockClass s else s.sid.classSent))) ∧
    (s.sid.running = true → timeSrc s = 2 →
      exec (.ppsInEdge (ppsFalling s) t) s =
        .next (sample (advance s t) (ppsOffset ((tenPs t : Int) - ppsDelay s)) false)) ∧
    (timeSrc s ≠ 0 → expired s s.sid.lossBy = true → s.sid.st = .disciplined ∨ s.sid.st = .acquiring →
      ∃ q, exec .sourceLost s = .next q ∧ q.sid.st = .coasting ∧ q.sid.rPhase = 0 ∧ q.sid.rFreq = heldRate s ∧
        q.sid.coastFrom = s.sid.now) ∧
    (s.sid.st = .disciplined → s.sid.suspended = true → s.sid.offset.natAbs ≤ jumpU s →
      exec .slewWithinThreshold s = .next (evTimeCause (s.setSid { s.sid with suspended := false }) 0x04))

/-- Group 0x03, aerial inputs: `ANT_SET` in manual mode sets attenuation and LNA gain as written, in AGC mode it splits the gain
index at the new take-over point, frozen it keeps the gain; `BIAS_SET` opens the switch, closes it on a good rail, or tells
of an absent rail; `RF_CAL` starts a foreground calibration, asks for a spot calibration, or sets when one is due;
`BLANK_SET` stores the blanking and what the present level of the ball means under it; `DIV_SET` waits for the next frame or
tick; the status reads back. The model's choices that it rests on: log entries 51, 120. -/
def Obligations.AerialInputCommandsComplete : Prop :=
  ∀ (a : Args) (s : State),
    let n := a.target.toNat % 256
    (ready antSetSpec a s = true → byteAt a.payload 0 = 0 →
      exec (.antSet a) s = .next (await antSetSpec a s stOk 0 [] (tapeGain (putAnt (taken antSetSpec a s) n
        { ant s n with
          cfg := a.payload, lowTicks := 0, g := (byteAt a.payload 2 : Int) - byteAt a.payload 1, att := byteAt a.payload 1,
          lna := byteAt a.payload 2, agcSteps := if (byteAt a.payload 2 : Int) - byteAt a.payload 1 = (ant s n).g
            then (ant s n).agcSteps else sat 32 ((ant s n).agcSteps + 1) }) n (ant s n).g))) ∧
    (ready antSetSpec a s = true → byteAt a.payload 0 = 1 →
      exec (.antSet a) s = .next (await antSetSpec a s stOk 0 [] (tapeGain (putAnt (taken antSetSpec a s) n
        (Ant.setGain { ant s n with cfg := a.payload, lowTicks := 0 } (ant s n).g)) n (ant s n).g))) ∧
    (ready antSetSpec a s = true → byteAt a.payload 0 = 2 →
      exec (.antSet a) s = .next (await antSetSpec a s stOk 0 [] (tapeGain (putAnt (taken antSetSpec a s) n
        { ant s n with cfg := a.payload, lowTicks := 0 }) n (ant s n).g))) ∧
    (ready biasSetSpec a s = true → byteAt a.payload 0 = 0 →
      exec (.biasSet a) s = .next (answer biasSetSpec a s stOk 0 [] (putAnt (taken biasSetSpec a s) n
        { ant s n with
          biasCfg := a.payload, retries := byteAt a.payload 2, biasCur := 0, biasBy := deadline s 3200, bias := .off }))) ∧
    (ready biasSetSpec a s = true → byteAt a.payload 0 ≠ 0 →
      let y : Ant := { ant s n with
        biasCfg := a.payload, retries := byteAt a.payload 2, biasCur := 0, biasBy := deadline s 3200 }
      let q (bias : BiasState) : State := putAnt ((taken biasSetSpec a s).setFree (s.free + 1)) n { y with bias := bias }
      exec (.biasSet a) s = .next
        (if Config.railGood s.free (byteAt a.payload 0) = true then answer biasSetSpec a s stOk 0 [] (q .on)
         else answer biasSetSpec a s stBadState 0 [] (evAnt (q .railAbsent) n 5))) ∧
    (ready rfCalSpec a s = true → byteAt a.payload 0 = 0 →
      exec (.rfCal a) s = .next (begins rfCalSpec a s (calBegins (taken rfCalSpec a s) n))) ∧
    (ready rfCalSpec a s = true → byteAt a.payload 0 = 1 →
      exec (.rfCal a) s = .next (answer rfCalSpec a s stOk 0 []
        (putAnt (taken rfCalSpec a s) n { ant s n with spotAsked := true }))) ∧
    (ready rfCalSpec a s = true → byteAt a.payload 0 = 2 →
      exec (.rfCal a) s = .next (answer rfCalSpec a s stOk 0 [] (putAnt (taken rfCalSpec a s) n
        { ant s n with
          calDtemp := byteAt a.payload 1, calPeriod := le a.payload 2 2,
          spotBy := deadline s (3200 * le a.payload 2 2) }))) ∧
    (ready rfStatusGetSpec a s = true →
      exec (.rfStatusGet a) s = .next (answer rfStatusGetSpec a s stOk 0 (rfStatusResult s n) (taken rfStatusGetSpec a s))) ∧
    (ready blankSetSpec a s = true →
      ∃ q, exec (.blankSet a) s = .next (answer blankSetSpec a s stOk 0 [] q) ∧ q.rf.blank = a.payload ∧
        q.rf.blankOn = blankAsserted a.payload s.rf.blankBall) ∧
    (ready divSetSpec a s = true → (lane s a.target.toNat).st ≠ .idle → divOk (lane s a.target.toNat) a.payload = true →
      exec (.divSet a) s = .next (begins divSetSpec a s
        (putLane (taken divSetSpec a s) a.target.toNat
          { lane s a.target.toNat with divNext := some (a.payload, a.origin, a.tag.toNat) })))

/-- The aerial inputs on their own (Table 4-2, R101–R106, R127–R130, R137–R139). A window with `OVL_COUNT` overloaded samples
lowers the gain of an AGC input, one with fewer is counted; overload that persists at the lowest gain is told once; an
overcurrent while limiting opens the switch and counts a retry, which closes it again, a low current is told, and time
without a fault restores the count; a foreground calibration ends 180 ms after it began, a spot calibration after 32 ticks;
COEX_BLANK is asserted by the level that `BLANK_POL` names, and cut off when it lasts. The model's choices that it rests on:
log entries 52, 120. -/
def Obligations.AerialInputOccurrencesAct : Prop :=
  ∀ (s : State) (n : Nat) (t : Sid), n < 4 →
    (∀ (xs : List Int) (index : Nat), markedAt s false n s.sid.now = false →
      let count := ((xs.take 256).filter (overThresh (ant s n))).length
      let clips := sat 32 ((ant s n).clips + count)
      (count < byteAt (ant s n).cfg 6 →
        exec (.agcOverloadWindow n xs index) s = .next (putAnt s n { ant s n with clips := clips })) ∧
      (byteAt (ant s n).cfg 6 ≤ count → (ant s n).mode = 1 → (ant s n).powered = true → index < (ant s n).lockout →
        exec (.agcOverloadWindow n xs index) s = .next (putAnt s n { ant s n with clips := clips, ovlTick := true })) ∧
      (byteAt (ant s n).cfg 6 ≤ count → (ant s n).mode = 1 → (ant s n).powered = true → (ant s n).lockout ≤ index →
        exec (.agcOverloadWindow n xs index) s = .next (tapeGain (putAnt s n
          (Ant.setGain { ant s n with clips := clips, ovlTick := true, lockout := index + 256 + 1024 }
            ((ant s n).g - byteAt (ant s n).cfg 7))) n (ant s n).g))) ∧
    ((ant s n).g = -31 → 32 ≤ (ant s n).ovlRun → (ant s n).ovlTold = false →
      exec (.overloadPersists n) s = .next (evAnt (putAnt s n { ant s n with ovlTold := true }) n 6)) ∧
    (∀ cur : Nat, biasClosed (ant s n) = true →
      exec (.biasFault n 0 cur) s = .next (putAnt s n
        { ant s n with
          biasCur := cur,
          bias := if byteAt (ant s n).biasCfg 1 * 100 ≤ cur then .limiting
            else if cur < 20 ∧ (ant s n).bias = .lowCurrent then .lowCurrent else .on })) ∧
    (∀ cause cur : Nat, cause = 1 ∨ cause = 2 → (ant s n).bias = .limiting → (ant s n).retries = 0 →
      exec (.biasFault n cause cur) s = .next (evAnt (evAnt (putAnt s n
        { ant s n with biasCur := cur, bias := .noRetry }) n cause) n 4)) ∧
    (∀ cause cur : Nat, cause = 1 ∨ cause = 2 → (ant s n).bias = .limiting → 0 < (ant s n).retries →
      exec (.biasFault n cause cur) s = .next (evAnt (putAnt s n
        { ant s n with
          biasCur := cur, bias := .retry,
          retries := if (ant s n).retrySet = 255 then 255 else (ant s n).retries - 1,
          biasBy := deadline s (le (ant s n).biasCfg 4 2) }) n cause)) ∧
    (∀ cur : Nat, biasClosed (ant s n) = true → (ant s n).bias ≠ .lowCurrent →
      exec (.biasFault n 3 cur) s = .next (evAnt (putAnt s n { ant s n with biasCur := cur, bias := .lowCurrent }) n 3)) ∧
    (∀ cur : Nat, biasClosed (ant s n) = true →
      exec (.biasFault n 5 cur) s = .next (evAnt (putAnt s n { ant s n with biasCur := cur, bias := .railAbsent }) n 5)) ∧
    ((ant s n).bias = .retry → expired s (ant s n).biasBy = true →
      exec (.biasRetry n) s = .next (putAnt s n { ant s n with bias := .on, biasBy := deadline s 3200 })) ∧
    (biasClosed (ant s n) = true → expired s (ant s n).biasBy = true →
      exec (.biasRetryRestore n) s = .next (putAnt s n { ant s n with retries := (ant s n).retrySet })) ∧
    (∀ (tones : List ToneLevel) (temp : Int), (ant s n).calState = 2 →
      (ant s n).calFrom + 180000000 * 65536 ≤ (advance s t).sid.now →
      ∃ q, exec (.foregroundCalComplete n tones temp t) s = .next q ∧
        (ant q n).cal = (calBuild (ant s n) tones).cal ∧
        (ant q n).calState = (if calOutOfRange (calBuild (ant s n) tones) = true then 3 else 1) ∧ (ant q n).calTemp = temp) ∧
    (∀ temp : Int, spotDue s (ant s n) temp = true → s.aur.st = .stable → fgRunning s = false →
      (∀ e ∈ s.rf.ants, e.2.spotEnd = none) →
      exec (.spotCalStart n temp) s = .next (putAnt s n
        { ant s n with spotAsked := false, spotEnd := some (deadline s 32), spotOff := spotOffsets s })) ∧
    (∀ (tones : List ToneLevel) (temp : Int) (b : Nat), (ant s n).spotEnd = some b → expired s b = true →
      exec (.spotCalComplete n tones temp t) s = .next (calDone (advance s t) n
        (calDrift (ant s n) (tones.filter fun x =>
          onComb (ant s n).spotOff x.khz && x.g == (ant s n).g && tonePlaced s x.khz)) temp)) ∧
    (∀ level : Bool, ∃ q, exec (.coexBlankChange level t) s = .next q ∧ q.rf.blankBall = level ∧
      q.rf.blankOn = blankAsserted s.rf.blank level) ∧
    (blanking s = true → expired s s.rf.blankBy = true →
      ∃ q, exec .coexBlankTimeout s = .next q ∧ q.rf.blankCut = true ∧ blanking q = false)

/-- Aurora (R113–R125). A setting applies at once while the planner is stable, else it waits for the slew or re-lock to end; a
run asks for an evaluation, or applies the pending plan at once where it is hitless; the collisions read back. A due scan
replaces the strong list; an evaluation keeps the plan, starts a slew, or leaves a plan pending; a step of a slew moves the
rate, each 4096 samples, to the next value that start, goal and `SLEW_PPM` fix, and it ends at its goal; a re-lock starts
from an approved plan with a locked reference, is deferred without one, and ends with the new lock point. The model's
choices that it rests on: log entries 56, 57, 59. -/
def Obligations.AuroraPlansAndMoves : Prop :=
  ∀ (a : Args) (s : State) (t : Sid),
    (ready auroraSetSpec a s = true → byteAt a.payload 0 ≠ 0 ∨ lanesFit s (le a.payload 8 4) = true →
      (s.aur.st = .stable →
        exec (.auroraSet a) s = .next (answer auroraSetSpec a s stOk 0 [] (applyAurora (taken auroraSetSpec a s) a.payload))) ∧
      (s.aur.st ≠ .stable →
        exec (.auroraSet a) s = .next (begins auroraSetSpec a s
          ((taken auroraSetSpec a s).setAur { s.aur with cfgNext := some a.payload })))) ∧
    (ready auroraRunSpec a s = true → bit (byteAt a.payload 0) 0 = false →
      exec (.auroraRun a) s = .next (begins auroraRunSpec a s ((taken auroraRunSpec a s).setAur
        { s.aur with asked := true, rescan := s.aur.rescan || bit (byteAt a.payload 0) 1 }))) ∧
    (∀ p, ready auroraRunSpec a s = true → bit (byteAt a.payload 0) 0 = true → s.aur.pend = some p →
      (p.hitless = true → s.aur.st = .stable →
        exec (.auroraRun a) s = .next (answer auroraRunSpec a s stOk 0 (runResult p.khz p.cond 1 p.pen)
          (startPlan ((taken auroraRunSpec a s).setAur { s.aur with approved := true }) p))) ∧
      (p.hitless = false ∨ s.aur.st ≠ .stable →
        exec (.auroraRun a) s = .next (begins auroraRunSpec a s
          ((taken auroraRunSpec a s).setAur { s.aur with approved := true })))) ∧
    (ready auroraGetSpec a s = true →
      exec (.auroraGet a) s = .next (answer auroraGetSpec a s stOk 0
        (auroraResult (taken auroraGetSpec a s) (byteAt a.payload 0)) (taken auroraGetSpec a s))) ∧
    (∀ spectra : List (List (List (Nat × Nat))), s.aur.rescan = true ∨ expired s s.aur.scanBy = true →
      ∃ q, exec (.auroraScan spectra) s = .next q ∧
        q.aur.strong = ((List.range 4).filter fun n => !markedAt s false n s.sid.now).flatMap
          (fun n => scanSignals s (spectra.getD n [])) ∧
        q.aur.rescan = false ∧ q.aur.scanBy = deadline s (le s.aur.cfg 16 2) ∧ q.aur.cfg = s.aur.cfg) ∧
    (mayEvaluate s = true →
      (aurMode s = 0 ∨ choosePlan s = none →
        ∃ q, exec .auroraEvaluation s = .next q ∧ q.aur = { s.aur with trigger := false, asked := false }) ∧
      (∀ p, aurMode s ≠ 0 → choosePlan s = some p →
        (p.hitless = true → 2 ≤ aurMode s →
          ∃ q, exec .auroraEvaluation s = .next q ∧ q.aur.st = .slewing ∧ q.aur.goal = p.khz ∧ q.aur.pend = none) ∧
        (p.hitless = false ∨ aurMode s = 1 →
          ∃ q, exec .auroraEvaluation s = .next q ∧ q.aur.st = .stable ∧ q.aur.pend = some p ∧
            q.aur.approved = (aurMode s == 3)))) ∧
    (∀ index : Nat, s.aur.st = .slewing → index % 4096 = 0 → (∀ i, s.aur.slewIdx = some i → i + 4096 = index) →
      ∃ q, exec (.slewStep index t) s = .next q ∧ q.aur.slewSteps = s.aur.slewSteps + 1 ∧ q.aur.slewIdx = some index ∧
        q.clk.sclkHz = slewRate s (s.aur.slewSteps + 1)) ∧
    (s.aur.st = .slewing → fsOf s = 1000 * s.aur.goal →
      ∃ q, exec (.slewComplete t) s = .next q ∧ q.aur.plans = sat 32 (s.aur.plans + 1) ∧
        q.aur.slewEnd = (advance s t).sid.now ∧ (s.aur.cfgNext = none → s.aur.pend = none → q.aur.st = .stable)) ∧
    (∀ p, s.aur.pend = some p → s.aur.approved = true → p.hitless = false → s.aur.st = .stable → safetyOn s = false →
      atBoundary (advance s t) = true →
      (s.clk.state = .locked →
        ∃ q, exec (.relockStart t) s = .next q ∧ q.aur.st = .relocking ∧ q.aur.goal = p.khz ∧
          q.clk.lock = s.clk.lock &&& ~~~1#5) ∧
      (s.clk.state ≠ .locked → s.aur.deferred = false →
        exec (.relockStart t) s = .next (evPlanOf ((advance s t).setAur { s.aur with deferred := true }) 6))) ∧
    (∀ p, s.aur.pend = some p → s.aur.st = .relocking →
      ∃ q, exec (.relockComplete t) s = .next q ∧ q.clk.lockPoint = p.khz ∧ q.clk.sclkHz = 1000 * p.khz ∧
        q.clk.sclkMode = p.cond ∧ q.clk.lock = s.clk.lock ||| 1#5 ∧
        (s.aur.cfgNext = none → q.aur.st = .stable ∧ q.aur.pend = none))

/-- Group 0x04, zones and lanes. A gang that may take its setting waits for its point of effect; a lane is configured Stopped
with its zones, or released; a Stopped lane takes a new frequency at once, one with output at its point of effect, as a
start, a stop and a synchronising reset do, and a Paused one stops at once; a stream-out ring is bound to the lane, in place
of the one before, or taken from it; the records read back. The model's choices that it rests on: log entries 60, 61, 62,
63, 64, 66, 67, 68, 162, 163, 164. -/
def Obligations.ZoneAndLaneCommandsComplete : Prop :=
  ∀ (a : Args) (s : State),
    let tgt := a.target.toNat
    (ready zoneTuneSpec a s = true → zoneTuneOk (cmdOf zoneTuneSpec a) s = true →
      exec (.zoneTune a) s = .next (begins zoneTuneSpec a s (taken zoneTuneSpec a s))) ∧
    (ready zoneGetSpec a s = true →
      exec (.zoneGet a) s =
        .next (answer zoneGetSpec a s stOk 0 (zoneResult s (tgt % 256)) (taken zoneGetSpec a s))) ∧
    (let h := hostAbandons (taken laneSetSpec a s) tgt
     ready laneSetSpec a s = true → (lane h tgt).st = .idle ∨ (lane h tgt).st = .stopped →
      (toFull tgt = true → laneDesignated h (tgt % 256) = false) →
      (byteAt a.payload 0 = 0 →
        exec (.laneSet a) s = .next (answer laneSetSpec a s stOk 0 []
          (if (lane h tgt).st = .idle then h else usedChanged (releaseLane h tgt)))) ∧
      (∀ n, byteAt a.payload 0 ≠ 0 → stageCount (askedRate a.payload) (fsOf h) (toSurvey tgt) = some n →
        bindOk h tgt (askedZones a.payload) = true →
        (toFull tgt = true → rateSum h tgt + askedRate a.payload ≤ 800000000) →
        exec (.laneSet a) s = .next (answer laneSetSpec a s stOk 0 [] (configureLane h tgt a.payload n)))) ∧
    (ready laneTuneSpec a s = true → (lane s tgt).st ≠ .idle →
      tuneOk (le a.payload 0 8) (zoneCentre s (lane s tgt)) (lane s tgt).outRate = true →
      (bit (byteAt a.payload 8) 0 = true → hitlessOk (lane s tgt) (le a.payload 0 8) = true) →
      let h := hostAbandons (taken laneTuneSpec a s) tgt
      ((lane s tgt).st = .stopped →
        exec (.laneTune a) s = .next (answer laneTuneSpec a s stOk 0 []
          (usedChanged (putLane h tgt { lane s tgt with freq := le a.payload 0 8 })))) ∧
      ((lane s tgt).st ≠ .stopped → exec (.laneTune a) s = .next (begins laneTuneSpec a s h))) ∧
    (ready laneStartSpec a s = true → (lane s tgt).st = .stopped →
      shedRefusal s (if toSurvey tgt then 1 else 5) = none →
      (toSurvey tgt = true → surveySum (taken laneStartSpec a s) + (lane s tgt).outRate ≤ surveyBudget s) →
      exec (.laneStart a) s = .next (begins laneStartSpec a s (taken laneStartSpec a s))) ∧
    (ready laneStopSpec a s = true →
      let h := hostAbandons (taken laneStopSpec a s) tgt
      ((lane s tgt).st = .paused →
        exec (.laneStop a) s = .next (answer laneStopSpec a s stOk 0 [] (dropLaneCmds (stopLane h tgt) tgt stBadState))) ∧
      ((lane s tgt).live = true → exec (.laneStop a) s = .next (begins laneStopSpec a s h))) ∧
    (ready laneSyncSpec a s = true → (lane s tgt).live = true →
      exec (.laneSync a) s = .next (begins laneSyncSpec a s (hostAbandons (taken laneSyncSpec a s) tgt))) ∧
    (ready laneStreamSpec a s = true →
      let freed := match laneRing s tgt with
        | some r => markRing (taken laneStreamSpec a s) r .none
        | none => taken laneStreamSpec a s
      (byteAt a.payload 0 = 0xFF → exec (.laneStream a) s = .next (answer laneStreamSpec a s stOk 0 [] freed)) ∧
      (∀ r, byteAt a.payload 0 ≠ 0xFF → mget s.rings (byteAt a.payload 0) = some r → r.kind = .streamOut →
        r.destroying = none → r.bind = .none →
        exec (.laneStream a) s = .next (answer laneStreamSpec a s stOk 0 []
          (putLane (markRing freed (byteAt a.payload 0) (.lane tgt)) tgt { lane s tgt with start := true })))) ∧
    (ready laneGetSpec a s = true →
      exec (.laneGet a) s = .next (answer laneGetSpec a s stOk 0 (laneResult s tgt) (taken laneGetSpec a s)))

/-- What zones and lanes do at their samples (Table 5-11, R157–R167). A zone runs from its output sample 35; a gang retunes or
is disabled, and a lane command takes effect, at its point of effect; where a zone resets at that zone sample the lane makes
one reset, with the zone-and-lane column, whichever comes first; a lane runs from its output sample S, and its commands
complete with the first delivered one; samples form blocks of `BLK_LEN`, numbered in sequence; samples that find no place
count as gaps. The model's choices that it rests on: log entries 66, 70, 81. -/
def Obligations.LaneOccurrencesAct : Prop :=
  ∀ (s : State) (target : BitVec 16) (t : Sid),
    let tgt := target.toNat
    let s1 := advance s t
    let u := onScale s1 tgt
    (∀ z < 32, (zone s z).st = .settling → zoneSettledAt s z ≤ s1.sid.now →
      ∃ q, exec (.zoneSettled z t) s = .next q ∧ zone q z = { zone s z with st := .running }) ∧
    (∀ f, toZone tgt = true → nextEffect u (zoneCmd tgt) = some f → effectDue u f 20 true = true →
      zoneTuneOk f.cmd u = true →
      ∃ q, exec (.lanePointOfEffect target t) s = .next q ∧ ∀ z ∈ gang f.cmd,
        if bit (byteAt f.cmd.pl 12) 0 = true then (zone q z).freq = le f.cmd.pl 0 8 else (zone q z).st = .off) ∧
    (∀ f, toLane tgt = true → nextEffect u (laneCmd tgt false) = some f →
      effectDue u f 50 ((lane s tgt).live = false || (lane s tgt).out.isEmpty) = true →
      (lane s tgt).live = true ∨ ((lane s tgt).st = .paused ∧ f.cmd.op = 0x0406) ∨
        ((lane s tgt).st = .stopped ∧ f.cmd.op = 0x0405) →
      (f.cmd.op = 0x0405 → ((lane s tgt).zones.all fun z => decide ((zone s z).st = .paused)) = false) →
      ∃ q, exec (.lanePointOfEffect target t) s = .next q ∧
        (f.cmd.op = 0x0405 ∨ f.cmd.op = 0x0407 → (lane q tgt).st = .settling) ∧
        (f.cmd.op = 0x0406 → (lane q tgt).st = .stopped) ∧
        (f.cmd.op = 0x0404 → (lane q tgt).freq = le f.cmd.pl 0 8 ∧
          (lane q tgt).st = if hitless f.cmd = true then (lane s tgt).st else .settling)) ∧
    ((lane s tgt).st = .running →
      let one := lane (commandReset s tgt) tgt
      let both := lane (resetLane (commandReset s tgt) tgt true) tgt
      let settles := settleCount (fsOf s) (lane s tgt).outRate one.stages true
      one.resets = (lane s tgt).resets + 1 ∧ both.resets = one.resets ∧ both.stages = one.stages ∧ both.resetAt = s.sid.now ∧
        (zoneResets s (lane s tgt) = true → one.settleLast = settles) ∧ both.settleLast = settles ∧
        both.suppressed = sat 32 (lane s tgt).suppressed) ∧
    (toLane tgt = true → (lane s tgt).st = .settling → sampleTime u (lane s tgt) (lane s tgt).settleLast ≤ u.sid.now →
      ∃ q, exec (.laneSettled target t) s = .next q ∧ (lane q tgt).st = .running ∧
        (lane q tgt).lastSync = firstDelivered u (lane s tgt) ∧
        (lane q tgt).suppressed = sat 32 ((lane s tgt).suppressed + if (lane s tgt).showSettle then 0 else (lane s tgt).settleLast)) ∧
    (∀ xs : List (List Int),
      let fed := feed s1 xs s1.sid.now
      let blocks := (lane fed tgt).out.length / (lane fed tgt).blkLen
      (toLane tgt = false ∨ (lane fed tgt).live = false → exec (.laneBlock target xs t) s = .next fed) ∧
      (toLane tgt = true → (lane fed tgt).live = true →
        ∃ q, exec (.laneBlock target xs t) s = .next q ∧
          (lane q tgt).out = (lane fed tgt).out.drop (blocks * (lane fed tgt).blkLen) ∧
          (0 < blocks → (lane q tgt).blkSeq = ((lane fed tgt).blkSeq + blocks) % 2 ^ 32))) ∧
    (∀ lost : Nat, toLane tgt = true → (lane s tgt).st = .running →
      let l := lane (cutBlock s tgt) tgt
      exec (.laneFifoFull target lost) s = .next (raise (putLane (cutBlock s tgt) tgt
        { l with
          gap := true, gaps := sat 32 (l.gaps + lost), blkGap := sat 32 (l.blkGap + lost), outNext := l.outNext + lost })
        evLane tgt 3))

/-- Group 0x05, demodulators and Flurry. Settings of a lane that demodulates AM or FM, and the flakes' settings, are Executing
until the next tick; records read back; an RDS stream ring is bound to a lane or a flake, or taken from it; a tap is
disabled with its flakes, or takes its zone and carrier; a flake is assigned to a carrier as pinned, on a paused tap as
Paused, or released. The model's choices that it rests on: log entries 62, 71, 76. -/
def Obligations.DemodulatorAndFlurryCommandsComplete : Prop :=
  ∀ (a : Args) (s : State),
    let n := a.target.toNat % 256
    (ready amSetSpec a s = true → fullUse s n = 2 → progDenied s (byteAt a.payload 0) n = false →
      exec (.amSet a) s = .next (begins amSetSpec a s
        (putDemod (taken amSetSpec a s) n { demod s n with amNext := some a.payload }))) ∧
    (ready fmSetSpec a s = true → fullUse s n = 3 → progDenied s (byteAt a.payload 0) n = false →
      (laneDesignated s n = true → bit (byteAt a.payload 3) 3 = true) →
      exec (.fmSet a) s = .next (begins fmSetSpec a s
        (putDemod (taken fmSetSpec a s) n { demod s n with fmNext := some a.payload }))) ∧
    (ready qualityGetSpec a s = true → fullUse s n = 2 ∨ fullUse s n = 3 →
      exec (.qualityGet a) s =
        .next (answer qualityGetSpec a s stOk 0 (qualityResult s n) (taken qualityGetSpec a s))) ∧
    (ready rdsStreamSpec a s = true → (toFull a.target.toNat = true → fullUse s n = 3) →
      (byteAt a.payload 0 ≠ 0xFF → ∃ r, mget s.rings (byteAt a.payload 0) = some r ∧ r.kind = .streamOut ∧
        r.destroying = none ∧ notForRds s (byteAt a.payload 0) = false) →
      let v := if byteAt a.payload 0 = 0xFF then none else some (byteAt a.payload 0, byteAt a.payload 1)
      ∃ q, exec (.rdsStream a) s = .next (answer rdsStreamSpec a s stOk 0 [] q) ∧
        (if toFull a.target.toNat = true then (demod q n).rdsRing = v else mget q.flurry.rings n = v) ∧
        (byteAt a.payload 0 ≠ 0xFF → ∃ r, mget q.rings (byteAt a.payload 0) = some r ∧ r.bind = .rds a.target.toNat)) ∧
    (ready rdsGetSpec a s = true → (toFull a.target.toNat = true → fullUse s n = 3) →
      exec (.rdsGet a) s = .next (answer rdsGetSpec a s stOk 0
        (if byteAt a.payload 0 = 0 then rdsPart0 (rdsOf s a.target.toNat) else rdsPart1 (rdsOf s a.target.toNat))
        (taken rdsGetSpec a s))) ∧
    (ready flurrySetSpec a s = true → (∀ t ∈ safeFlakes s, t - 0x0500 < byteAt a.payload 13) →
      exec (.flurrySet a) s = .next (begins flurrySetSpec a s
        ((taken flurrySetSpec a s).setFlurry { s.flurry with cfgNext := some a.payload }))) ∧
    (ready tapSetSpec a s = true → byteAt a.payload 1 = 0xFF →
      exec (.tapSet a) s = .next (answer tapSetSpec a s stOk 0 []
        (s.flurry.flakes.foldl (dropFlake (byteAt a.payload 0) false) (putTap (taken tapSetSpec a s) (byteAt a.payload 0)
          { tap s (byteAt a.payload 0) with on := false, paused := false, due := false })))) ∧
    (ready tapSetSpec a s = true → byteAt a.payload 1 ≠ 0xFF → (zone s (byteAt a.payload 1)).st ≠ .off →
      tapInZone (le a.payload 8 8) (zone s (byteAt a.payload 1)).freq = true →
      exec (.tapSet a) s = .next (answer tapSetSpec a s stOk 0 [] (tapResets (putTap (taken tapSetSpec a s)
        (byteAt a.payload 0)
        { tap s (byteAt a.payload 0) with
          on := true, zone := byteAt a.payload 1, freq := le a.payload 8 8, due := false,
          paused := (tap s (byteAt a.payload 0)).paused || decide ((zone s (byteAt a.payload 1)).st = .paused),
          occupied := [], noRds := [], censusBy := deadline s (le s.flurry.cfg 4 2) }) (byteAt a.payload 0)))) ∧
    (ready flakeAssignSpec a s = true → (tap s (byteAt a.payload 0)).on = true →
      (flakeDesignated s n = true → bit (byteAt a.payload 1) 0 = true) →
      carrierOk s (tap s (byteAt a.payload 0)) (le a.payload 4 4) = true → flakeShedRefusal s n = none →
      let f := takeFlake (taken flakeAssignSpec a s) n .pinned (byteAt a.payload 0) (le a.payload 4 4) (byteAt a.payload 1) 0
      (flake f n).st = .acquiring ∧ (flake f n).cls = .pinned ∧ (flake f n).freq = le a.payload 4 4 ∧
      ((tap s (byteAt a.payload 0)).paused = false →
        exec (.flakeAssign a) s = .next (await flakeAssignSpec a s stOk 0 [] f)) ∧
      ((tap s (byteAt a.payload 0)).paused = true →
        exec (.flakeAssign a) s = .next (await flakeAssignSpec a s stOk 0 [] (putFlake f n { flake f n with st := .paused })))) ∧
    (ready flakeReleaseSpec a s = true → flakeDesignated s n = false →
      ∃ q, exec (.flakeRelease a) s = .next (answer flakeReleaseSpec a s stOk 0 [] q) ∧
        q.flurry.flakes = mdel s.flurry.flakes n) ∧
    (ready flakeGetSpec a s = true →
      exec (.flakeGet a) s = .next (answer flakeGetSpec a s stOk 0 (flakeResult s n) (taken flakeGetSpec a s))) ∧
    (ready censusGetSpec a s = true →
      exec (.censusGet a) s = .next (answer censusGetSpec a s stOk 0
        (censusResult s (byteAt a.payload 0) (byteAt a.payload 1) (le a.payload 2 2)) (taken censusGetSpec a s)))

/-- What demodulators, taps and flakes do on their own (R178, R182, R184, R187–R190, R194, R199–R201, Table 6-5): the phase
errors lock and unlock the PLLs, 4800 of them within ±15° the carrier's, 2048 within ±10° of a strong pilot the pilot's; the
measures of a window; RDS synchronisation from two blocks of consecutive offset words, and its loss after 20 bad ones; the
blocks of a group; a census stores the occupied carriers of its tap; a probe without synchronisation frees its flake and
marks the carrier; a tap resets with its zone and runs again after a pause. The model's choices that it rests on: log entry
91. -/
def Obligations.DemodulatorAndFlurryOccurrencesAct : Prop :=
  ∀ (s : State) (source : BitVec 16) (n : Nat) (t : Sid),
    let src := source.toNat
    let k := src % 256
    let s1 := advance s t
    (∀ errors : List Int, n < 32 → fullUse s n = 2 → (lane s (0x0300 + n)).st = .running →
      ∃ q, exec (.amCarrierLock n errors) s = .next q ∧ demod q n = errors.foldl Demod.carrierErr (demod s n) ∧
        (4800 ≤ errors.length → (∀ e ∈ errors, e.natAbs ≤ 1500) → (demod q n).carrier = true)) ∧
    (∀ errors : List (Int × Nat), n < 32 → fullUse s n = 3 → (lane s (0x0300 + n)).st = .running →
      ∃ q, exec (.pilotLock n errors) s = .next q ∧ demod q n = errors.foldl Demod.pilotErr (demod s n) ∧
        (2048 ≤ errors.length → (∀ e ∈ errors, e.1.natAbs ≤ 1000 ∧ 100 * byteAt (demod s n).fm 4 ≤ e.2) →
          (demod q n).pilot = true)) ∧
    (∀ m : Measures, windowDone s 32 = true → toFull src = true → fullUse s k = 2 ∨ fullUse s k = 3 → (lane s src).st = .running →
      let d := demod s1 k
      let l := lane s1 src
      let w := markMeasures s1 (laneConv s1 k) (l.freq / 1000000) (100 * byteAt l.cfg 3) d.window.level d.rds
        (d.window.measures (fullUse s k != 3) d.carrier m)
      exec (.analogueWindowEnd source m t) s = .next (groupsAfter (afWindow
        (putDemod (putLane s1 src { l with window := LevelWindow.reset }) k
          { d with
            meas := some w, q := if fullUse s k = 3 then fmQuality d.fm w else 0, qTime := s1.sid.now,
            window := AudioWindow.reset }) k) k)) ∧
    (∀ m : Measures, windowDone s 32 = true → toFlake src = true → (flake s k).active = true →
      ∃ q, exec (.analogueWindowEnd source m t) s = .next q ∧ (flake q k).mtime = s1.sid.now ∧
        (flake q k).window = AudioWindow.reset ∧ (flake q k).st = (flake s k).st ∧
        ∃ w, (flake q k).meas = some w ∧ ((flake s k).st = .paused → w.invalid = true) ∧ (m.invalid = true → w.invalid = true)) ∧
    (∀ (b0 b1 : RdsBlock) (p : Nat), toFull src = true → laneRds s k = true → (demod s k).rds.sync = false →
      syncAt (bit (byteAt (demod s k).fm 3) 2) b0 b1 = some p →
      exec (.rdsSyncAcquired source b0 b1) s = .next (laneBlockIn k (laneBlockIn k
        (putDemod s k { demod s k with rds := (demod s k).rds.acquire p }) b0) b1)) ∧
    (∀ (b0 b1 : RdsBlock) (p : Nat), toFlake src = true → (flake s k).st = .acquiring →
      syncAt (bit (flake s k).flags 2) b0 b1 = some p →
      exec (.rdsSyncAcquired source b0 b1) s = .next (flakeBlockIn k (flakeBlockIn k
        (putFlake s k { flake s k with st := .synced, proven := true, rds := (flake s k).rds.acquire p }) b0) b1)) ∧
    (toFull src = true → (demod s k).rds.sync = true → 20 ≤ (demod s k).rds.badRun →
      ∃ q, exec (.rdsSyncLost source) s = .next q ∧ (demod q k).rds.sync = false ∧ (demod q k).rds.badRun = 0 ∧
        (demod q k).rds.syncLoss = sat 32 ((demod s k).rds.syncLoss + 1)) ∧
    (toFlake src = true → (flake s k).st = .synced → 20 ≤ (flake s k).rds.badRun →
      ∃ q, exec (.rdsSyncLost source) s = .next q ∧ (flake q k).st = .acquiring ∧ (flake q k).rds.sync = false ∧
        (flake q k).rds.syncLoss = sat 32 ((flake s k).rds.syncLoss + 1)) ∧
    (∀ blocks : List RdsBlock, toFull src = true → laneRds s k = true → (demod s k).rds.sync = true →
      exec (.rdsGroup source blocks t) s = .next (blocks.foldl (laneBlockIn k) s1)) ∧
    (∀ blocks : List RdsBlock, toFlake src = true → (flake s k).st = .synced →
      exec (.rdsGroup source blocks t) s = .next (blocks.foldl (flakeBlockIn k) s1)) ∧
    (∀ spectra : List (List (Nat × Nat)), n < 4 → (tap s n).on = true → (tap s n).paused = false → censusOn s n = true →
      expired s (tap s n).censusBy = true →
      ∃ q, exec (.census n spectra t) s = .next q ∧ tap q n =
        { tap s n with
          occupied := occupiedOf s1 (tap s n) spectra
          time := s1.sid.now
          noRds := ((tap s n).noRds.map fun e => (e.1, e.2 - 1)).filter fun e => decide (0 < e.2)
          censusBy := deadline s1 (le s.flurry.cfg 4 2) }) ∧
    (n < 256 → (flake s n).cls = .census → (flake s n).st = .acquiring → (flake s n).proven = false →
      expired s (flake s n).probeBy = true →
      exec (.probeTimeout n) s = .next (freeFlake (putTap s (flake s n).tap
        { tap s (flake s n).tap with
          noRds := mput (tap s (flake s n).tap).noRds (flake s n).freq (byteAt s.flurry.cfg 10) }) n)) ∧
    (n < 4 → (tap s n).due = true → exec (.tapReset n) s = .next (tapResets s n)) ∧
    (n < 4 → (tap s n).on = true → (tap s n).paused = true → (tap s n).due = false →
      (zone s (tap s n).zone).st ≠ .paused → (zone s (tap s n).zone).st ≠ .off →
      (tap s n).resetAt + 40 * secU / 29184000 ≤ s1.sid.now →
      ∃ q, exec (.tapSettled n t) s = .next q ∧ tap q n = { tap s n with paused := false } ∧
        ∀ e ∈ s.flurry.flakes, e.2.tap = n → e.2.st = .paused → (e.1, { e.2 with st := .acquiring }) ∈ q.flurry.flakes)

/-- AF following (R202, R205–R211). `AF_SET` is Executing until the next tick; a wanted carrier is requested; a fade starts once
the spare runs with its pilot, without need of one or when 64 ticks are over, and at its end the roles are exchanged; a
switch in place retunes the muted lane; one whose playing lane or spare has stopped is abandoned; a commanded switch that is
not verified in 6400 ticks is given up. The model's choices that it rests on: log entry 78. -/
def Obligations.AlternativeFrequencyFollowingActs : Prop :=
  ∀ (a : Args) (s : State) (n : Nat) (t : Sid),
    let k := a.target.toNat % 256
    let spare := byteAt a.payload 1
    (ready afSetSpec a s = true → fullUse s k = 3 → (laneDesignated s k = true → byteAt a.payload 0 = 0) →
      byteAt a.payload 0 = 0 ∨ spare = 0xFF ∨ ((afOf s k).mode ≠ 0 ∧ (afOf s k).spare = spare) ∨
        ((lane s (0x0300 + spare)).st = .idle ∧ ∀ e ∈ s.afs, e.1 ≠ k →
          (byteAt e.2.cfg 0 = 0 ∨ byteAt e.2.cfg 1 ≠ spare) ∧ ∀ b, e.2.next = some b → byteAt b 0 = 0 ∨ byteAt b 1 ≠ spare) →
      exec (.afSet a) s = .next (begins afSetSpec a s
        (putAf (taken afSetSpec a s) k { afOf s k with next := some a.payload }))) ∧
    (∀ khz : Nat, n < 32 → (afOf s n).mode ≠ 0 → (afWanted s n).contains khz = true →
      ((afOf s n).cands.find? (fun c => c.khz == khz) = none → exec (.afRequest n khz) s = .next (addCand s n khz)) ∧
      (∀ c, (afOf s n).cands.find? (fun c => c.khz == khz) = some c → c.flake = none →
        exec (.afRequest n khz) s = .next (addCand (putAf s n
          { afOf s n with cands := (afOf s n).cands.filter fun x => x.khz != khz }) n khz))) ∧
    (∀ b : Nat, n < 32 → (afOf s n).phase = .spare (some b) → (lane s (0x0300 + (afOf s n).spare)).st = .running →
      (demod s (afOf s n).spare).pilot = true ∨ (demod s n).pilot = false ∨ bit (byteAt (demod s n).fm 3) 0 = true ∨
        expired s b = true →
      exec (.afFadeStart n) s = .next (putAf s n
        { afOf s n with phase := .fading (deadline s (msTicks (path s (laneProg s n)).fadeMs)) })) ∧
    (∀ b : Nat, n < 32 → (afOf s n).phase = .fading b → expired s b = true → (afOf s n).spare < 32 →
      exec (.afSwitchComplete n) s = .next (exchange s n (afOf s n))) ∧
    (n < 32 → (afOf s n).muted (advance s t) = true → (lane s (0x0300 + n)).st = .running →
      ∃ q, exec (.afSwitchInPlace n t) s = .next q ∧ (lane q (0x0300 + n)).freq = (afOf s n).target * 1000000 ∧
        (afOf q n).phase = .none) ∧
    (n < 32 → (afOf s n).phase ≠ .none →
      (lane s (0x0300 + n)).st ≠ .running ∨
        ((∀ b, (afOf s n).phase ≠ .place b) ∧ (lane s (0x0300 + (afOf s n).spare)).live = false) →
      exec (.afSwitchAbandoned n) s = .next (abandonSwitch s n)) ∧
    (n < 32 → (afOf s n).mode = 3 → (afOf s n).phase = .none → expired s (afOf s n).gotoBy = true →
      ∃ q, exec (.afGotoTimeout n) s = .next q ∧ (afOf q n).mode = 2 ∧
        q.lanes = s.lanes)

/-- Groups 0x07 and 0x08 of the link table and programme paths (R260, R264, R274, R276, R282, R283, R286, R287). An entry is
added at the lowest free index, else in place of the oldest broadcast one, or removed; settings are Executing until the next
tick; a group is formed, changed, or dissolved once its head plays, and fades to the member asked for; an equaliser bank
that is not in use is loaded and swapped in; the store takes its pages, and a span that it holds whole is read. The model's
choices that it rests on: log entries 86, 88, 92, 93. -/
def Obligations.LinkAndPathCommandsComplete : Prop :=
  ∀ (a : Args) (s : State),
    let h := a.target.toNat % 256
    let b := a.payload
    (∀ i, ready linkAddSpec a s = true → freeLink s = some i →
      exec (.linkAdd a) s = .next (answer linkAddSpec a s stOk 0 (leBytes 4 i) (storeLink (taken linkAddSpec a s) i
        { set := byteAt b 0, std := byteAt b 1, origin := 4, ident := le b 4 4, freq := le b 8 4, ecc := byteAt b 3,
          hard := bit (byteAt b 2) 0, active := false, ils := false, time := s.sid.now, ageBy := 0, order := 0,
          key := none }))) ∧
    (∀ o, ready linkAddSpec a s = true → freeLink s = none → oldestBroadcast s = some o →
      exec (.linkAdd a) s = .next (answer linkAddSpec a s stOk 0 (leBytes 4 o.1)
        (storeLink (evLinkTable (taken linkAddSpec a s) 3 0) o.1
          { set := byteAt b 0, std := byteAt b 1, origin := 4, ident := le b 4 4, freq := le b 8 4, ecc := byteAt b 3,
            hard := bit (byteAt b 2) 0, active := false, ils := false, time := s.sid.now, ageBy := 0, order := 0,
            key := none }))) ∧
    (ready linkRemoveSpec a s = true → bit (byteAt b 1) 0 = false → (∃ e ∈ s.links.entries, e.1 = byteAt b 0) →
      exec (.linkRemove a) s = .next (answer linkRemoveSpec a s stOk 0 []
        (((s.links.entries.filter fun e => e.1 == byteAt b 0).map (·.1)).foldl removeLink (taken linkRemoveSpec a s)))) ∧
    (ready linkRemoveSpec a s = true → bit (byteAt b 1) 0 = true → (∃ e ∈ s.links.entries, e.2.set = byteAt b 0) →
      exec (.linkRemove a) s = .next (answer linkRemoveSpec a s stOk 0 []
        (((s.links.entries.filter fun e => e.2.set == byteAt b 0).map (·.1)).foldl removeLink
          (taken linkRemoveSpec a s)))) ∧
    (ready linkGetSpec a s = true →
      exec (.linkGet a) s =
        .next (answer linkGetSpec a s stOk 0 (linkResult s (byteAt b 0) (byteAt b 1)) (taken linkGetSpec a s))) ∧
    (ready linkConfigSpec a s = true →
      exec (.linkConfig a) s = .next (begins linkConfigSpec a s
        ((taken linkConfigSpec a s).setLinks { s.links with cfgNext := some b }))) ∧
    (ready blendSetSpec a s = true →
      exec (.blendSet a) s = .next (begins blendSetSpec a s
        (putPath (taken blendSetSpec a s) h { path s h with blendNext := some b }))) ∧
    (ready followSetSpec a s = true → byteAt b 0 ≠ 0 → (namedMembers b).contains h = false → (namedMembers b).Nodup →
      (∀ p ∈ h :: namedMembers b, memberDenied s h p = false) →
      (mget s.groups h = none → groupOf s h = none → s.groups.length < 8 →
        pagesFor (max (path s h).reserve (msUnits (le b 12 2))) ≤ (path s h).pages + freePages s →
        exec (.followSet a) s = .next (answer followSetSpec a s stOk 0 [] (formGroup (taken followSetSpec a s) h b))) ∧
      (∀ g, mget s.groups h = some g → g.fade = none →
        exec (.followSet a) s = .next (answer followSetSpec a s stOk 0 [] (formGroup (taken followSetSpec a s) h b))) ∧
      (∀ g f, mget s.groups h = some g → g.fade = some f → removes g b = false →
        exec (.followSet a) s = .next (begins followSetSpec a s
          (putGroup (taken followSetSpec a s) h { g with held := some b }))) ∧
      (∀ g f, mget s.groups h = some g → g.fade = some f → removes g b = true →
        let gone (m : Nat) : Bool := m != 0 && !(namedMembers b).contains (g.member m).path
        exec (.followSet a) s = .next (answer followSetSpec a s stOk 0 []
          (resolveFade (putGroup (taken followSetSpec a s) h { g with cfg := b }) h { g with cfg := b } f
            (gone f.to_) (gone f.from_))))) ∧
    (ready followSetSpec a s = true → byteAt b 0 = 0 →
      (mget s.groups h = none →
        exec (.followSet a) s = .next (answer followSetSpec a s stOk 0 [] (taken followSetSpec a s))) ∧
      (∀ g, mget s.groups h = some g → g.fade.isSome = true →
        exec (.followSet a) s = .next (begins followSetSpec a s
          (putGroup (taken followSetSpec a s) h { g with held := some b }))) ∧
      (∀ g m, mget s.groups h = some g → g.fade = none → g.active = some (m + 1) →
        exec (.followSet a) s = .next (begins followSetSpec a s
          (startFade (putGroup (taken followSetSpec a s) h { g with held := some b }) h (m + 1) 0
            (decide ((g.member (m + 1)).align ≠ .aligned)) false false))) ∧
      (∀ g, mget s.groups h = some g → g.fade = none → g.active = some 0 ∨ g.active = none →
        exec (.followSet a) s = .next (answer followSetSpec a s stOk 0 [] (dissolve (taken followSetSpec a s) h)))) ∧
    (∀ g, ready blendNowSpec a s = true → mget s.groups h = some g → g.fade = none → g.blendTo = none →
      g.active ≠ some (byteAt b 0) → (g.member (byteAt b 0)).path ≠ 0xFF →
      bit (byteAt b 1) 0 = false ∨ byteAt b 0 = 0 ∨ (g.member (byteAt b 0)).align = .aligned →
      exec (.blendNow a) s = .next (begins blendNowSpec a s
        (putGroup (taken blendNowSpec a s) h { g with blendTo := some (byteAt b 0) }))) ∧
    (ready followGetSpec a s = true →
      exec (.followGet a) s = .next (answer followGetSpec a s stOk 0 (followResult s h) (taken followGetSpec a s))) ∧
    (ready eqLoadSpec a s = true → byteAt b 0 = 1 → (path s h).useB = false → (path s h).swap ≠ some true →
      exec (.eqLoad a) s = .next (answer eqLoadSpec a s stOk 0 [] (putPath (taken eqLoadSpec a s) h
        { path s h with
          bankB := { (path s h).bankB with
            pre := if bit (byteAt b 3) 0 then le b 4 4 else (path s h).bankB.pre, secs := loadSecs b (path s h).bankB.secs }
          readyB := deadline s 32 }))) ∧
    (ready eqLoadSpec a s = true → byteAt b 0 = 0 → (path s h).useB = true → (path s h).swap ≠ some false →
      exec (.eqLoad a) s = .next (answer eqLoadSpec a s stOk 0 [] (putPath (taken eqLoadSpec a s) h
        { path s h with
          bankA := { (path s h).bankA with
            pre := if bit (byteAt b 3) 0 then le b 4 4 else (path s h).bankA.pre, secs := loadSecs b (path s h).bankA.secs }
          readyA := deadline s 32 }))) ∧
    (ready eqSwapSpec a s = true →
      let s1 := match (path s h).swap with
        | some _ => finishOp (taken eqSwapSpec a s) 0x070A a.target.toNat stSuperseded a.tag.toNat []
            (taken eqSwapSpec a s).ev.nextId
        | none => taken eqSwapSpec a s
      ((byteAt b 0 == 1) ≠ (path s h).useB →
        exec (.eqSwapBank a) s = .next (begins eqSwapSpec a s (putPath s1 h
          { path s1 h with swap := some (byteAt b 0 == 1), swapBy := deadline s 1 }))) ∧
      ((byteAt b 0 == 1) = (path s h).useB →
        exec (.eqSwapBank a) s = .next (answer eqSwapSpec a s stOk 0 [] (putPath s1 h { path s1 h with swap := none })))) ∧
    (ready tshiftSetSpec a s = true → tsOthers s h + byteAt b 0 ≤ 128 →
      exec (.tshiftSet a) s = .next (answer tshiftSetSpec a s stOk 0 [] (putPath (taken tshiftSetSpec a s) h
        { path s h with
          tsPages := byteAt b 0, tsFrom := if (path s h).tsPages = 0 then s.sid.now else (path s h).tsFrom
          store := (path s h).store.take (16384 * byteAt b 0) }))) ∧
    (∀ r, ready tshiftReadSpec a s = true → (path s h).tsPages ≠ 0 →
      tsOldest s (path s h) ≤ sidOf s.sid.now (BitVec.ofNat 64 (le b 0 8)) →
      sidOf s.sid.now (BitVec.ofNat 64 (le b 0 8)) + le b 8 4 * secU / 48000 ≤ s.sid.now →
      mget s.rings (byteAt b 12) = some r → r.kind = .streamOut → r.destroying = none → r.bind = .none →
      exec (.tshiftRead a) s = .next (await tshiftReadSpec a s stOk 0 []
        (tsRecords (taken tshiftReadSpec a s) h (byteAt b 12) (le b 8 4) (sidOf s.sid.now (BitVec.ofNat 64 (le b 0 8))))))

/-- What the link table and programme paths do on their own (R260, R264, R267–R273, R278–R284, Tables 8-2 and 8-4). A broadcast
entry ages out; K moves by a delay change; a member starts to search with its source, is measured coarsely, at a loop with
the others, holds after three failures and searches again when Holding ends; a fade that ends makes its member active, and
what waited for it follows; one that loses its guard, or a member, turns round or completes; a bank swap takes effect. The
model's choices that it rests on: log entries 78, 80, 89, 90. -/
def Obligations.LinkAndPathOccurrencesAct : Prop :=
  ∀ (s : State) (h m : Nat) (t : Sid),
    let s1 := advance s t
    (∀ e, mget s.links.entries h = some e → e.broadcast = true → expired s e.ageBy = true →
      exec (.linkEntryAged h) s = .next (removeLink s h)) ∧
    (h < 24 → (path s h).changing = false → (path s h).kGoal ≠ (path s h).k →
      (∀ g, mget s.groups h = some g → g.fade = none) →
      exec (.delayChangeStart h) s = .next (raise (putPath s h
        { path s h with changing := true, deferred := false, kFrom := (path s h).k, kTick := s.sid.ticks })
        evBlend (0x0600 + h) 8)) ∧
    (h < 24 → (path s h).changing = true → changeOver s1 h = true →
      exec (.delayChangeEnd h t) s = .next (raise (followK (putPath s1 h
        { path s h with changing := false, k := (path s h).kGoal }) h) evBlend (0x0600 + h) 9)) ∧
    (∀ on : Bool, h < 24 → delivers s h = on → (path s h).pcm ≠ on →
      ∃ q, exec (.memberPcmChange h on) s = .next q ∧ path q h = { path s h with pcm := on }) ∧
    (∀ (lm : LagMeasure) v0, memberAt s h m = some v0 → v0.align = .searching → v0.fine = false →
      let v := nextWindow s1 h v0
      let r := judgeLag lm 4096 (searchRange s1 h) 3 (corrMin s1 h) false
      v.winAt + 30 * secU / 1000 ≤ s1.sid.now →
      (r.quiet = true → exec (.coarseResult h m lm t) s = .next (putMember s1 h m v)) ∧
      (∀ s2, r.quiet = false → r.ok = true → setDelay s1 v.path ((path s h).k - r.lag) = some s2 →
        exec (.coarseResult h m lm t) s = .next (invertIf (putMember s2 h m
          { v with fine := true, lag := r.lag, corr := r.corr, coarse := 0, told := false }) h m r.negative)) ∧
      (r.quiet = false → r.ok = true → setDelay s1 v.path ((path s h).k - r.lag) = none →
        exec (.coarseResult h m lm t) s = .next (noMemory s1 h m v)) ∧
      (r.quiet = false → r.ok = false →
        exec (.coarseResult h m lm t) s = .next (if 3 ≤ v.coarse + 1 ∧ v.told = false
          then evAlign (putMember s1 h m { v with coarse := v.coarse + 1, told := true }) h m 0x14
          else putMember s1 h m { v with coarse := v.coarse + 1 }))) ∧
    (windowDone s 320 = true → ∀ ms : List (Nat × Nat × LagMeasure),
      exec (.alignLoop ms) s =
        .next (ms.foldl (fun q e => if e.2.1 < 4 then loopMember q e else loopCandidate q e) (coastAll s))) ∧
    (∀ (lm : LagMeasure) v, windowDone s 320 = true → m < 4 → memberAt (coastAll s) h m = some v → v.align = .aligned →
      (path (coastAll s) v.path).setAt + 16384 * secU / 48000 ≤ s.sid.now →
      (path (coastAll s) h).setAt + 16384 * secU / 48000 ≤ s.sid.now →
      let r := judgeLag lm 256 32 4 (corrMin s h) true
      r.quiet = false → r.ok = false → v.fails = 2 →
      exec (.alignLoop [(h, m, lm)]) s = .next (evAlign (putMember (coastAll s) h m
        { v with align := .holding, fails := 3, holdBy := deadline s 3200 }) h m 0x11)) ∧
    (∀ v, memberAt s h m = some v → v.align = .holding → expired s v.holdBy = true →
      exec (.holdingTimeout h m) s = .next (evAlign (putMember s h m (v.search s.sid.now)) h m 0x12)) ∧
    (freePages s ≠ 0 →
      exec .pageReleased s = .next (s.setGroups (s.groups.map fun e => (e.1, { e.2 with
        members := e.2.members.map fun x => if x.align = .noMemory then x.search s.sid.now else x })))) ∧
    (∀ g f, mget s.groups h = some g → g.fade = some f → f.stop ≤ s1.sid.now →
      ∃ q, exec (.groupFadeEnd h t) s = .next q ∧
        (g.held = none → mget q.groups h = some
          { g with fade := none, active := some f.to_, last := s1.sid.ticks, fades := g.fades + 1, held := none }) ∧
        (∀ b, g.held = some b → byteAt b 0 = 0 → mget q.groups h = none)) ∧
    (∀ g f ticks, guardLost s h ticks = true → mget s.groups h = some g → g.fade = some f → f.unalign = false →
      (s.sid.now + s.sid.now < f.start + f.stop →
        exec (.fadeGuardLoss h ticks) s = .next (guardHolds (evFade (putGroup s h
          { g with fade := some (reverseFade s f) }) h 3 f) h f.to_)) ∧
      (f.start + f.stop ≤ s.sid.now + s.sid.now →
        exec (.fadeGuardLoss h ticks) s = .next (guardHolds (evFade s h 4 f) h f.to_))) ∧
    (∀ n ticks, guardLost s h ticks = true → (∀ g, mget s.groups h = some g → g.fade = none) → afFadeOn s h = some n →
      (afOf s n).unalign = false → exec (.fadeGuardLoss h ticks) s = .next (abandonSwitch s n)) ∧
    (∀ g f, mget s.groups h = some g → g.fade = some f →
      (delivers s (g.member f.to_).path = false → delivers s (g.member f.from_).path = true →
        exec (.fadeHappening h) s = .next (evFade (putGroup s h { g with fade := some (reverseFade s f) }) h 5 f)) ∧
      (delivers s (g.member f.to_).path = true → delivers s (g.member f.from_).path = false →
        exec (.fadeHappening h) s = .next (evFade (putGroup s h
          { g with fade := some { f with stop := min f.stop (s.sid.now + 5 * 1000000 * 65536) } }) h 6 f)) ∧
      (delivers s (g.member f.to_).path = false → delivers s (g.member f.from_).path = false → g.held = none →
        ∃ q, exec (.fadeHappening h) s = .next q ∧ mget q.groups h = some { g with fade := none, active := none })) ∧
    (∀ b : Bool, h < 24 → (path s h).swap = some b → expired s (path s h).swapBy = true →
      expired s (if b then (path s h).readyB else (path s h).readyA) = true → pathFading s h = false →
      ((executing s 0x070A (0x0600 + h)).map (·.due)).getD 0 ≤ s1.sid.now →
      ∃ q, exec (.eqSwapEffect h t) s = .next q ∧ path q h = { path s h with useB := b, swap := none, bankFade := 64 })

/-- Group 0x06, ensembles, services and survey analysis (R223, R231, R247, R251, R252, R254). A lane of one of their uses takes
its setting, from the next frame where it receives frames, reads back its ensemble, services and quality, starts and stops a
service on a path that nothing feeds, and binds its record streams or lets them go; a survey lane takes its analysis, with
or without a ring, ends it, and reads its transmitters back. The model's choices that it rests on: log entries 82, 83, 85. -/
def Obligations.EnsembleAndSurveyCommandsComplete : Prop :=
  ∀ (a : Args) (s : State),
    let n := a.target.toNat % 256
    let b := a.payload
    let ringFree (r : Ring) : Prop := r.kind = .streamOut ∧ r.destroying = none ∧ notForRecords s (byteAt b 0) = false
    (ready ofdmSetSpec a s = true → ofdmUse s n = true → (laneDesignated s n = true → bit (byteAt b 0) 0 = true) →
      (fullUse s n = 5 → byteAt b 6 ≠ 0) →
      exec (.ofdmSet a) s = .next (answer ofdmSetSpec a s stOk 0 [] (putOfdm (taken ofdmSetSpec a s) n
        (if fastLive s n = true then { ofdm s n with cfgNext := some b } else { ofdm s n with cfg := b, cfgNext := none })))) ∧
    (ready ensembleGetSpec a s = true → ofdmUse s n = true →
      exec (.ensembleGet a) s = .next (answer ensembleGetSpec a s stOk 0 (ensembleResult s n) (taken ensembleGetSpec a s))) ∧
    (ready serviceListGetSpec a s = true → ofdmUse s n = true →
      exec (.serviceListGet a) s = .next (answer serviceListGetSpec a s stOk 0
        (serviceListResult s n (byteAt b 0) (byteAt b 1)) (taken serviceListGetSpec a s))) ∧
    (ready serviceStartSpec a s = true → ofdmUse s n = true →
      progTaken s (byteAt b 5) 32 = false → (∀ e ∈ s.services, e.2.lane = n → e.2.sid ≠ le b 0 4) →
      exec (.serviceStart a) s = .next (begins serviceStartSpec a s ((taken serviceStartSpec a s).setServices
        (mput s.services (byteAt b 5)
          { lane := n, sid := le b 0 4, comp := byteAt b 4, conceal := byteAt b 6, st := .waiting,
            by_ := deadline s (svcTicks s n), info := none, errRun := 0, goodRun := 0, concealed := 0, meas := none,
            lastPcm := 0 })))) ∧
    (∀ v, ready serviceStopSpec a s = true → ofdmUse s n = true → mget s.services (byteAt b 0) = some v → v.lane = n →
      exec (.serviceStop a) s = .next (await serviceStopSpec a s stOk 0 []
        (endService (taken serviceStopSpec a s) n (byteAt b 0) stAbortedHost 0 none))) ∧
    (ready ofdmQualityGetSpec a s = true → ofdmUse s n = true →
      exec (.ofdmQualityGet a) s = .next (answer ofdmQualityGetSpec a s stOk 0 (ofdmQualityResult s n (byteAt b 0))
        (taken ofdmQualityGetSpec a s))) ∧
    (ready ficStreamSpec a s = true → ofdmUse s n = true →
      (byteAt b 0 ≠ 0xFF → ∃ r, mget s.rings (byteAt b 0) = some r ∧ ringFree r) →
      ∃ q, exec (.ficStream a) s = .next (answer ficStreamSpec a s stOk 0 [] q) ∧
        (ofdm q n).fic = (if byteAt b 0 = 0xFF then none else some (byteAt b 0, byteAt b 1)) ∧
        (byteAt b 0 ≠ 0xFF → ∃ r, mget q.rings (byteAt b 0) = some r ∧ r.bind = .fic n)) ∧
    (ready padStreamSpec a s = true → ofdmUse s n = true →
      (byteAt b 0 ≠ 0xFF → ∃ r, mget s.rings (byteAt b 0) = some r ∧ ringFree r) →
      ∃ q, exec (.padStream a) s = .next (answer padStreamSpec a s stOk 0 [] q) ∧
        (ofdm q n).pad = (if byteAt b 0 = 0xFF then none else some (byteAt b 0, byteAt b 1)) ∧
        (byteAt b 0 ≠ 0xFF → ∃ r, mget q.rings (byteAt b 0) = some r ∧ r.bind = .pad (byteAt b 1))) ∧
    (ready subchStreamSpec a s = true → ofdmUse s n = true →
      (byteAt b 0 ≠ 0xFF → ∃ r, mget s.rings (byteAt b 0) = some r ∧ ringFree r) →
      ∃ q, exec (.subchStream a) s = .next (answer subchStreamSpec a s stOk 0 [] q) ∧
        (ofdm q n).subch = (if byteAt b 0 = 0xFF then none else some (byteAt b 0, byteAt b 1, byteAt b 2)) ∧
        (byteAt b 0 ≠ 0xFF → ∃ r, mget q.rings (byteAt b 0) = some r ∧ r.bind = .subch n)) ∧
    (ready surveySetSpec a s = true → byteAt b 0 ≠ 0 → (lane s a.target.toNat).st ≠ .idle →
      surveyRateOk (byteAt b 0) (lane s a.target.toNat).outRate = true →
      (byteAt b 0 = 1 → surveyTicksOk b (lane s a.target.toNat).outRate = true) →
      (byteAt b 1 ≠ 0xFF → ∃ r, mget s.rings (byteAt b 1) = some r ∧ r.kind = .streamOut ∧ r.destroying = none ∧
        notForRecords s (byteAt b 1) = false) →
      ∃ q, exec (.surveySet a) s = .next (await surveySetSpec a s stOk 0 [] q) ∧
        survey q n = { Survey.reset with cfg := b, nextBy := deadline s (le b 6 2), tiiEnd := s.sid.now } ∧
        (byteAt b 1 ≠ 0xFF → ∃ r, mget q.rings (byteAt b 1) = some r ∧ r.bind = .survey n)) ∧
    (ready surveySetSpec a s = true → byteAt b 0 = 0 →
      ∃ q, exec (.surveySet a) s = .next (answer surveySetSpec a s stOk 0 [] q) ∧ survey q n =
        { Survey.reset with cfg := splice b 1 [0xFF], nextBy := deadline s (le b 6 2), tiiEnd := s.sid.now }) ∧
    (∀ es, ready tiiGetSpec a s = true → (survey s n).tii = some es →
      exec (.tiiGet a) s = .next (answer tiiGetSpec a s stOk 0
        (leBytes 1 es.length ++ leBytes 1 (es.take (byteAt b 0)).length ++ zeros 6 ++
          leBytes 8 (whenOf (survey s n).tiiEnd).toNat ++ ((es.take (byteAt b 0)).map tiiBytes).flatten)
        (taken tiiGetSpec a s)))

/-- Ensemble states (R220–R224, R227–R229, R242, R245, Table 7-3): search, confirmation within its limits and its failure, the
report of a search that lasts, information blocks, of which a wrong checksum changes no configuration, reconfiguration, loss
after the frames that Table 7-3 gives, holdover that resumes or ends, the end of alarm signalling, and the measures of a
window. The model's choices that it rests on: log entry 84. -/
def Obligations.EnsembleStatesFollowReception : Prop :=
  ∀ (s : State) (n : Nat) (t : Sid),
    let s1 := advance s t
    (∀ (mode : BitVec 3) (offset : Int), ofdmLive s n = true → (ofdm s n).st = .searching → modeOk s n mode.toNat = true →
      offset.natAbs ≤ offsetMax s n →
      exec (.ofdmNullFound n mode offset) s = .next (putOfdm s n
        { ofdm s n with st := .coarse, mode := mode.toNat, offset := offset })) ∧
    (∀ err offset : Int, ofdmLive s n = true → (ofdm s n).st = .coarse → err.natAbs ≤ confirmMax s n →
      fullUse s n ≠ 4 ∨ offset = (ofdm s n).offset →
      exec (.ofdmConfirmation n err offset t) s = .next (evEns (putOfdm s1 n
        { ofdm s n with
          st := .synced, frameTime := t, facRun := 0, facBad := 0, sdcDone := false, fig00 := false, subchs := [] }) n 1)) ∧
    (ofdmLive s n = true → (ofdm s n).st = .coarse →
      exec (.ofdmConfirmationFail n) s = .next (toSearching s n false)) ∧
    (n < 32 → (ofdm s n).st = .searching → (ofdm s n).acqTold = false → expired s (ofdm s n).acqBy = true →
      exec (.acquisitionTimeout n) s = .next (evEns (putOfdm s n { ofdm s n with acqTold := true }) n 5)) ∧
    (∀ (f : FibInfo) (frame : List BranchFrame), fastLive s n = true → fullUse s n = 4 →
      let told := emitFic (frameIn (ofdmApply s1 n) n frame) n 1 (!f.crcOk) t f.cif f.raw
      (f.crcOk = false → exec (.fibDecoded n f frame t) s = .next told) ∧
      (f.crcOk = true → exec (.fibDecoded n f frame t) s = .next (fibParsed told n f t))) ∧
    (∀ (i : SdcInfo) (frame : List BranchFrame), fastLive s n = true → fullUse s n ≠ 4 →
      (i.crcOk = false → ∃ q, exec (.facSdcDecoded n i frame t) s = .next q ∧
        (ofdm q n).config = (ofdm s n).config ∧ (ofdm q n).next = (ofdm s n).next ∧
        (ofdm q n).facBad = (ofdm s n).facBad + (if i.isFac = true then 1 else 0)) ∧
      (i.crcOk = true → i.isFac = true → ∃ q, exec (.facSdcDecoded n i frame t) s = .next q ∧
        (ofdm q n).mode = i.mode.toNat ∧ (ofdm q n).occupancy = i.occupancy.toNat ∧
        (ofdm q n).facRun = if 0 < (ofdm s n).facRun ∧
          ¬((ofdm s n).mode = i.mode.toNat ∧ (ofdm s n).occupancy = i.occupancy.toNat) then 1 else (ofdm s n).facRun + 1) ∧
      (i.crcOk = true → i.isFac = false → ∃ q, exec (.facSdcDecoded n i frame t) s = .next q ∧
        (∀ c, i.config = some c → (ofdm q n).config = some c) ∧
        ∀ c, i.next = some c → (ofdm q n).next = some c ∧ (ofdm q n).reconf = true)) ∧
    (n < 32 → ofdmUse s n = true → (ofdm s n).st = .configured → (ofdm s n).reconf = true → reconfDue s n = true →
      ∃ q, exec (.reconfiguration n t) s = .next q ∧ ofdm q n =
        { ofdm s n with
          config := (ofdm s n).next.orElse fun _ => (ofdm s n).config
          next := none, reconf := false, confTime := s1.sid.now }) ∧
    (∀ missed : Nat, ofdmLive s n = true → (ofdm s n).st = .synced ∨ (ofdm s n).st = .configured → refLost s n missed = true →
      exec (.ensembleLost n missed) s = .next (evEns (toSearching s n false) n 4)) ∧
    (∀ k : Nat, ofdmLive s n = true → (ofdm s n).st = .holdover k →
      (∀ e : Int, e.natAbs ≤ 64 → exec (.holdoverResume n (some e)) s = .next (putOfdm s n { ofdm s n with st := heldEns k })) ∧
      (∀ e : Int, 64 < e.natAbs → exec (.holdoverResume n (some e)) s = .next (evEns (toSearching s n false) n 4)) ∧
      exec (.holdoverResume n none) s = .next (evEns (toSearching s n false) n 4)) ∧
    (∀ (sub : BitVec 8) (t0 : Sid) (x : Nat), n < 32 → (ofdm s n).alert = some sub.toNat →
      (ofdm s n).alarmAt = some (t0, x) → t0 + 2 * secU ≤ s1.sid.now →
      exec (.dabAlertEnd n sub t) s = .next (putOfdm s1 n { ofdm s n with alert := none, alarmAt := none })) ∧
    (∀ (m : OfdmMeasures) (ms : List (Nat × ServiceMeasures)), ofdmLive s n = true →
      (ofdm s n).mTime + (2 * byteAt (ofdm s n).cfg 1 - 1) * frameLen s n / 2 ≤ s1.sid.now →
      ∃ q, exec (.ofdmWindowEnd n m ms t) s = .next q ∧
        ofdm q n = { ofdm s n with meas := some (ofdmMarks s1 n m), mTime := s1.sid.now })

/-- Services and records (R231, R232, R236–R240, R248–R251, Table 7-7). A service that waits too long ends; its first good
unit makes it play, errors that reach its concealment mute it, and two good units in a row play it again; labels, objects
and texts of a playing service go to the PAD stream; a running analysis writes its record. -/
def Obligations.ServicesPlayAndRecordsAreWritten : Prop :=
  ∀ (s : State) (n prog : Nat) (t : Sid),
    let s1 := advance s t
    (∀ v, mget s.services prog = some v → v.lane = n → v.st = .waiting → expired s v.by_ = true →
      exec (.serviceTimeout n prog) s = .next (endService s n prog stBadState 1 (some 5))) ∧
    (∀ (v : Service) (errored : Bool) (pcm : List (Int × Int)) (unit : Option MscUnit),
      mget s.services prog = some v → v.lane = n → ofdmLive s n = true →
      let now := (advance s1 (t + decodeDelay v)).sid.now
      (v.st = .waiting → exec (.transportUnitDecoded n prog errored pcm unit t) s = .next (match unit with
        | some u => emitSubch s1 n t u
        | none => s1)) ∧
      (v.st ≠ .waiting → ∃ q, exec (.transportUnitDecoded n prog errored pcm unit t) s = .next q ∧
        mget q.services prog = some
          (if v.st = .filling then
             (if errored = true then v else { v with st := .playing, errRun := 0, goodRun := 0, lastPcm := now })
           else if v.st = .playing then
             (if errored = true then
                { v with
                  st := if v.conceal ≤ v.errRun + 1 then .muted else .playing, errRun := v.errRun + 1, goodRun := 0,
                  concealed := sat 32 (v.concealed + 1), lastPcm := now }
              else { v with errRun := 0, lastPcm := now })
           else if errored = true then { v with goodRun := 0, concealed := sat 32 (v.concealed + 1), lastPcm := now }
           else if 1 ≤ v.goodRun then { v with st := .playing, errRun := 0, goodRun := 0, lastPcm := now }
           else { v with goodRun := v.goodRun + 1, lastPcm := now }))) ∧
    (∀ (sid : Nat) (charset : Byte) (label tags : Bytes), padSid s n prog = some sid → fullUse s n = 4 →
      exec (.dynamicLabel n prog charset label tags t) s =
        .next (emitPad s1 n prog 0x10 false t sid 0 (labelPayload charset label tags))) ∧
    (∀ (sid : Nat) (charset : Byte) (label : Bytes), padSid s n prog = some sid → fullUse s n = 5 ∨ fullUse s n = 6 →
      exec (.drmTextMessage n prog charset label t) s =
        .next (emitPad s1 n prog 0x12 false t sid 0 (labelPayload charset label []))) ∧
    (∀ (sid : Nat) (header body : Bytes) (tid : BitVec 16) (first : Sid), padSid s n prog = some sid → fullUse s n = 4 →
      (header.length ≤ 4096 → body.length ≤ 262144 → t ≤ first + 30 * secU →
        exec (.motObject n prog header body tid first t) s = .next (emitPad s1 n prog 0x11 false t header.length
          (tid.toNat + sid * 2 ^ 32) (header ++ body))) ∧
      (4096 < header.length ∨ 262144 < body.length ∨ first + 30 * secU < t →
        exec (.motObject n prog header body tid first t) s = .next (emitPad s1 n prog 0x11 true t 0
          (tid.toNat + sid * 2 ^ 32) []))) ∧
    (∀ (sid : Nat) (tid : BitVec 16) (first : Sid), padSid s n prog = some sid → fullUse s n = 4 → first + 30 * secU ≤ t →
      exec (.motTimeout n prog tid first t) s =
        .next (emitPad s1 n prog 0x11 true t 0 (tid.toNat + sid * 2 ^ 32) [])) ∧
    (∀ blocks : List (List Nat), surveyRuns s n [1] = true → expired s (survey s n).nextBy = true →
      let l := lane s (0x0400 + n)
      exec (.spectrumRecord n blocks t) s = .next (emitSurvey
        (putSurvey s1 n { survey s n with nextBy := (survey s n).nextBy + le (survey s n).cfg 6 2 }) n 0x20 t
        (2 ^ byteAt (survey s n).cfg 2) ((l.freq : Int) - 375 * l.outRate).toNat
        (((spectrumBins s n blocks).map (sleBytes 2)).flatten))) ∧
    (∀ taps : List Cx, surveyRuns s n [2, 3] = true → bit (byteAt (survey s n).cfg 9) 0 = true →
      exec (.impulseResponseRecord n taps t) s = .next (emitSurvey s1 n 0x21
        (if byteAt (survey s n).cfg 0 = 2 then t - 125000 * 65536 else t) 0 0
        (((scaleTaps taps).map fun h => sleBytes 2 h.re ++ sleBytes 2 h.im).flatten))) ∧
    (∀ (combs : List TiiComb) (window : Sid), surveyRuns s n [2] = true →
      (survey s n).tiiEnd + (2 * byteAt (survey s n).cfg 8 - 1) * (48 * secU / 1000) ≤ s1.sid.now →
      let found := tiiDetected (le (survey s n).cfg 10 2) combs
      ∃ q, exec (.tiiAverageComplete n combs window t) s = .next q ∧ (survey q n).tiiEnd = s1.sid.now ∧
        (survey q n).tii = some (found.map (tiiEntryOf (byteAt (survey s n).cfg 8) window
          ((found.head?.map (tiiArrival window)).getD 0))))

/-- Group 0x08, serial audio ports (R289, R302, R303, R307, R308, Table 9-7). A setting supersedes what waits on the port; a
port that makes no frames takes it at once, and waits where it is enabled; a running one stops at a frame end; masks and a
route apply at once where no frames are made, else they wait for a frame, and supersede what waits; rings are bound to a
port, in ClockLost at its resume; its record reads back. The model's choices that it rests on: log entries 95, 96. -/
def Obligations.AudioPortCommandsComplete : Prop :=
  ∀ (a : Args) (s : State),
    let n := a.target.toNat % 256
    let b := a.payload
    let free (i : Nat) (k : RingKind) (v : Bind) : Prop := byteAt b i = 0xFF ∨
      ∃ r, mget s.rings (byteAt b i) = some r ∧ r.kind = k ∧ r.destroying = none ∧ (r.bind = .none ∨ r.bind = v)
    (ready sapSetSpec a s = true →
      let u := supersedeAll (taken sapSetSpec a s) n a.tag.toNat
      ((sap s n).st = .off → bit (byteAt b 0) 0 = false →
        exec (.sapSet a) s = .next (answer sapSetSpec a s stOk 0 [] (putSap u n { sap u n with cfg := b }))) ∧
      ((sap s n).st = .waiting ∨ (sap s n).st = .clockLost → bit (byteAt b 0) 0 = false →
        exec (.sapSet a) s = .next (answer sapSetSpec a s stOk 0 [] (sapOff u n b))) ∧
      ((sap s n).st = .off ∨ (sap s n).st = .waiting ∨ ((sap s n).st = .clockLost ∧ bclkController b = true) →
        bit (byteAt b 0) 0 = true → exec (.sapSet a) s = .next (begins sapSetSpec a s (sapWaits u n b))) ∧
      ((sap s n).st = .clockLost → bit (byteAt b 0) 0 = true → bclkController b = false →
        exec (.sapSet a) s = .next (begins sapSetSpec a s (sapStops u n b))) ∧
      ((sap s n).runs = true → exec (.sapSet a) s = .next (begins sapSetSpec a s (sapStops u n b)))) ∧
    (ready sapRouteSpec a s = true →
      let h := handshake (taken sapRouteSpec a s) n
      let u := if (sap s n).routePend.isSome = true then supersede h.2 0x0802 n a.tag.toNat else h.2
      (sapBuffered s n = false →
        exec (.sapRoute a) s = .next (answer sapRouteSpec a s stOk 0 []
          (putSap (taken sapRouteSpec a s) n { sap s n with route := b }))) ∧
      (sapBuffered s n = true →
        exec (.sapRoute a) s = .next (begins sapRouteSpec a s
          (putSap u n { sap u n with routePend := some b, routeFrom := h.1 })))) ∧
    (ready sapMaskSetSpec a s = true → le b 0 2 < 2 ^ (sap s n).slots → le b 2 2 < 2 ^ (sap s n).slots →
      let h := handshake (taken sapMaskSetSpec a s) n
      let u := if (sap s n).maskPend.isSome = true then supersede h.2 0x0803 n a.tag.toNat else h.2
      (sapBuffered s n = false →
        exec (.sapMaskSet a) s = .next (answer sapMaskSetSpec a s stOk 0 []
          (putSap (taken sapMaskSetSpec a s) n { sap s n with cfg := splice (sap s n).cfg 8 b }))) ∧
      (sapBuffered s n = true →
        exec (.sapMaskSet a) s = .next (begins sapMaskSetSpec a s
          (putSap u n { sap u n with maskPend := some b, maskFrom := h.1 })))) ∧
    (ready sapStreamSpec a s = true → free 0 .streamOut (.sapCapture n) → free 1 .streamIn (.sapPlay n) →
      ((sap s n).st ≠ .clockLost →
        exec (.sapStream a) s = .next (answer sapStreamSpec a s stOk 0 [] (bindPort (taken sapStreamSpec a s) n b))) ∧
      ((sap s n).st = .clockLost → exec (.sapStream a) s = .next (begins sapStreamSpec a s (taken sapStreamSpec a s)))) ∧
    (ready sapGetSpec a s = true →
      exec (.sapGet a) s = .next (answer sapGetSpec a s stOk 0 (sapResult s n) (taken sapGetSpec a s)))

/-- What happens on a port (R299–R306, Tables 9-6 and 9-7). A frame start ends a frame and begins the next, with the slips that
its FIFOs ask for; a lost clock mutes the port; a glitch spoils a frame, a framing error realigns it; a rate more than 2 %
off in two windows is told of, and in resample mode measured anew; a waiting port, or one whose clock was lost, runs after
two good frames or with its channel, or is told of once when it waits too long. The model's choices that it rests on: log
entry 96. -/
def Obligations.AudioPortOccurrencesAct : Prop :=
  ∀ (s : State) (n : Nat) (t : Sid), n < 4 →
    let s1 := advance s t
    let p := sap s n
    (∀ sdi : List Bool, p.runs = true → p.dropped = true ∨ sdi.length = frameBits p.cfg + 1 →
      ∃ q, exec (.sapFrameStart n sdi t) s = .next q ∧
        q = frameBegins (frameEnds s1 n (if p.dropped = true then none else some sdi)) n ∧
        (p.stopTo = none → (sap q n).last = s1.sid.now ∧ (sap q n).dropped = false ∧ (sap q n).st = p.st ∧
          (slipMode p.cfg = true →
            let out : Int := (sampleNo s1.sid.now : Int) - (p.rd + 1 : Nat)
            let inp : Int := ((p.inWr + 1 : Nat) : Int) - sampleNo s1.sid.now
            (sap q n).slipDrop = sat 32 (p.slipDrop + (if 6 ≤ out then 1 else 0) + (if 6 ≤ inp then 1 else 0)) ∧
            (sap q n).slipRep = sat 32 (p.slipRep + (if out ≤ 2 then 1 else 0) + (if inp ≤ 2 then 1 else 0))))) ∧
    (∀ (cause mhz : Nat) (edge : Sid), p.runs = true → causeHolds s1 p cause edge mhz = true → p.stopTo = none →
      ∃ q, exec (.sapClockLost n cause edge mhz t) s = .next q ∧ (sap q n).st = .clockLost ∧ (sap q n).cause = cause ∧
        (sap q n).losses = sat 32 (p.losses + 1)) ∧
    (∀ period : Sid, p.runs = true → 4 * period < 3 * p.bitTime →
      exec (.sapGlitch n period) s = .next (putSap s n { p with glitches := sat 32 (p.glitches + 1), dropped := true })) ∧
    (∀ sdi : List Bool, p.runs = true → p.dropped = false → fsyncController p.cfg = false → sdi.length ≠ frameBits p.cfg + 1 →
      exec (.sapFramingError n sdi t) s =
        .next (frameBegins (frameEnds (putSap s1 n { p with frameErr := sat 32 (p.frameErr + 1) }) n none) n)) ∧
    (∀ first second : Nat, p.st = .running → p.departs first = true → p.departs second = true →
      let told := raise (putSap s1 n { p with rate := second }) evRateChanged (sapTgt n) (sat 16 (second / 10000))
      (slipMode p.cfg = true → exec (.sapRateChange n first second t) s = .next told) ∧
      (slipMode p.cfg = false → ∃ q, exec (.sapRateChange n first second t) s = .next q ∧ sap q n =
        { p with rate := second, st := .remeasuring, remeasAt := s1.sid.now, oldRate := p.refRate, drift := 0 })) ∧
    (∀ mhz : Nat, p.st = .remeasuring → p.remeasAt + 16000 * usU ≤ s1.sid.now → s1.sid.now ≤ p.remeasAt + 20000 * usU →
      rateOk mhz = true →
      ∃ q, exec (.sapRetarget n mhz t) s = .next q ∧ (sap q n).st = .running ∧ (sap q n).refRate = mhz ∧
        (sap q n).fadeTo = s1.sid.now + fiveMs) ∧
    (∀ f g : FrameSeen, mayRun s p f g = true →
      (p.st = .waiting → ∃ q, exec (.sapResume n f g t) s = .next q ∧ (sap q n).st = .running ∧ (sap q n).rate = p.refRate ∧
        (sap q n).waitTold = false) ∧
      (p.st = .clockLost → ∃ q, exec (.sapResume n f g t) s = .next q ∧
        (sap q n).st = if p.afresh = true then .remeasuring else .running)) ∧
    (p.st = .waiting → p.waitTold = false → expired s p.waitBy = true →
      exec (.sapWaitingTimeout n) s = .next (finishOp (putSap s n { p with waitTold := true }) 0x0801 (sapTgt n)
        stBadState 1 [] s.ev.nextId))

/-- The regulatory table (R319, R321, R332): bytes are staged while it is unlocked; a commit of a valid image with its checksum
begins in a free slot with the next generation; the lock needs the generation in force; the record reads back; a commit that
completes makes its copy complete, to be in force at the next tick, and one whose marker fails leaves it incomplete. The
model's choices that it rests on: log entries 97, 98, 99. -/
def Obligations.RegulatoryTableIsCommitted : Prop :=
  ∀ (a : Args) (s : State) (t : Sid),
    let b := a.payload
    (ready regLoadSpec a s = true → s.reg.locked = false → (a.origin = .mailbox → le b 2 2 ≤ 96) →
      exec (.regLoad a) s = .next (answer regLoadSpec a s stOk 0 [] ((taken regLoadSpec a s).setReg
        { s.reg with staged := splice (stagedImage s) (le b 0 2) (b.drop 4) }))) ∧
    (ready regCommitSpec a s = true → s.reg.locked = false → s.reg.commit = false →
      (crc32 (stagedImage s)).toNat = le b 0 4 → regBad (stagedImage s) = none → s.reg.slots.length < 16 →
      exec (.regCommit a) s = .next (begins regCommitSpec a s ((taken regCommitSpec a s).setReg
        { s.reg with
          slots := s.reg.slots ++ [⟨((bestCopy s.reg.slots).map (·.gen)).getD 0 + 1, stagedImage s, false⟩]
          commit := true }))) ∧
    (ready regLockSpec a s = true → s.reg.commit = false → le b 0 4 = s.reg.gen →
      exec (.regLock a) s =
        .next (answer regLockSpec a s stOk 0 [] ((taken regLockSpec a s).setReg { s.reg with locked := true }))) ∧
    (ready regGetSpec a s = true →
      exec (.regGet a) s =
        .next (answer regGetSpec a s stOk 0 (regGetResult s (byteAt b 0)) (taken regGetSpec a s))) ∧
    (s.reg.commit = true → s.pwr.brownout = false →
      ∃ q, exec (.regCommitComplete true t) s = .next q ∧
        q.reg = { s.reg with
          slots := completeLast s.reg.slots, commit := false, last := 1, next := true, nextBy := (advance s t).sid.ticks + 1 }) ∧
    (s.reg.commit = true → s.pwr.brownout = false →
      ∃ q, exec (.regCommitComplete false t) s = .next q ∧ q.reg = { s.reg with commit := false, last := 2 })

/-- Group 0x0B, capture and replay (R367, R374–R376, R379, Table 12-4): arming from Off, a trigger, disarming, streaming a
frozen recording, loading a container, replaying a loaded one whose units are free from one of its checkpoints, and the
record. The model's choices that it rests on: log entries 121, 122. -/
def Obligations.CaptureCommandsComplete : Prop :=
  ∀ (a : Args) (s : State),
    let b := a.payload
    (ready firnArmSpec a s = true → s.firn.st = .off →
      exec (.firnArm a) s = .next (answer firnArmSpec a s stOk 0 [] ((taken firnArmSpec a s).setFirn
        { Firn.reset with
          st := .armed, cfg := b, shed := (taken firnArmSpec a s).firn.shed
          rates := [(s.sid.now, fsOf s / 1000, s.clk.sclkMode)] }))) ∧
    (ready firnTriggerSpec a s = true → s.firn.st = .armed →
      exec (.firnTrigger a) s = .next (answer firnTriggerSpec a s stOk 0 []
        (fireFirn (taken firnTriggerSpec a s) 1 0 (s.sid.next - tickU)))) ∧
    (ready firnDisarmSpec a s = true →
      s.firn.st = .armed ∨ s.firn.st = .triggered ∨ s.firn.st = .frozen ∨ s.firn.st = .loaded →
      exec (.firnDisarm a) s = .next (answer firnDisarmSpec a s stOk 0 [] (finishOp ((taken firnDisarmSpec a s).setFirn
        { Firn.reset with shed := (taken firnDisarmSpec a s).firn.shed }) 0x0B04 0x0B00 stBadState 0 [] s.ev.nextId))) ∧
    (∀ r, ready firnStreamSpec a s = true → s.firn.st = .frozen →
      executing (taken firnStreamSpec a s) 0x0B04 0x0B00 = none →
      mget s.rings (byteAt b 0) = some r → r.kind = .streamOut → r.destroying = none → r.bind = .none →
      exec (.firnStream a) s = .next (begins firnStreamSpec a s
        ((markRing (taken firnStreamSpec a s) (byteAt b 0) .firnOut).setFirn
          { (taken firnStreamSpec a s).firn with sent := 0 }))) ∧
    (∀ r, ready firnLoadSpec a s = true → s.firn.st = .off ∨ s.firn.st = .frozen ∨ s.firn.st = .loaded →
      executing (taken firnLoadSpec a s) 0x0B04 0x0B00 = none →
      mget s.rings (byteAt b 0) = some r → r.kind = .streamIn → r.destroying = none → r.bind = .none →
      exec (.firnLoad a) s = .next (begins firnLoadSpec a s
        ((markRing (taken firnLoadSpec a s) (byteAt b 0) .firnIn).setFirn
          { Firn.reset with
            st := .loading, shed := (taken firnLoadSpec a s).firn.shed, rpRing := byteAt b 0 }))) ∧
    (∀ r, ready firnReplaySpec a s = true → s.firn.st = .loaded →
      mget s.rings (byteAt b 0) = some r → r.kind = .completion → le b 4 4 < le s.firn.header 68 4 →
      replayTape (taken firnReplaySpec a s).firn (le b 4 4) ≠ [] → replayFree (taken firnReplaySpec a s) (le b 4 4) = true →
      ∃ q, exec (.firnReplay a) s = .next (begins firnReplaySpec a s q) ∧ q.firn.st = .replaying ∧
        q.firn.rpRing = byteAt b 0 ∧ q.firn.rpFrom = le b 4 4 ∧ q.firn.bad = 0 ∧
        q.firn.rpTape = replayTape (taken firnReplaySpec a s).firn (le b 4 4) ∧ q.aur.approved = true ∧
        q.aur.pend = some ⟨le s.firn.header 60 4, byteAt s.firn.header 64, 0, false⟩) ∧
    (ready firnGetSpec a s = true →
      exec (.firnGet a) s = .next (answer firnGetSpec a s stOk 0 (firnResult (taken firnGetSpec a s))
        (taken firnGetSpec a s)))

/-- What capture and replay do on their own (R361–R368, R374, R375, R378). The oldest chunk that waits of a source is stored,
behind the gap of an interruption, or denied; a checkpoint goes to the tape; the first trigger fires an armed capture, later
ones go to the tape; it freezes when its share is full; a stream ends with its last byte; a container is discarded at a
failing check, and loaded once it is whole; a replay meets its checkpoints and ends with the number of differences. The
model's choices that it rests on: log entries 118, 119. -/
def Obligations.CaptureOccurrencesAct : Prop :=
  ∀ (s : State) (source : BitVec 16) (t : Sid),
    let src := source.toNat
    let s1 := advance s t
    (∀ c, s.firn.wait.find? (fun c => c.source == src) = some c → firnRecords s = true →
      let u := s1.setFirn { s.firn with wait := s.firn.wait.erase c }
      exec (.firnChunk source true t) s = .next (denyChunk u c) ∧
      (mget s.firn.denied src = none → exec (.firnChunk source false t) s = .next (putChunk u c)) ∧
      (∀ g, mget s.firn.denied src = some g → exec (.firnChunk source false t) s =
        .next (putChunk (putChunk (u.setFirn { u.firn with denied := mdel u.firn.denied src }) g) c))) ∧
    (firnRecords s = true → tickNo s % 32 = 0 → atBoundary s = true →
      let b := leBytes 4 (configImage s).length ++ configImage s ++ unitStates s ++ laneCrcs s
      exec .firnCheckpoint s = .next (freshCrcs
        ((checkpointParts (b.length / 65000) b).foldl (fun q p => tape q 11 p s.sid.now) s))) ∧
    (∀ cause i u n, pendingTrigger s cause = some (i, u, n) →
      let q := s1.setFirn { s.firn with seen := mput s.firn.seen cause n }
      (s.firn.st = .armed → exec (.firnTriggerFired cause t) s = .next (fireFirn q cause i u)) ∧
      (s.firn.st = .triggered → exec (.firnTriggerFired cause t) s = .next (tapeTrigger q cause u))) ∧
    (s.firn.st = .triggered → dataSize s * byteAt s.firn.cfg 10 ≤ 100 * s.firn.post →
      exec (.firnFrozen t) s = .next (freeze s1)) ∧
    ((executing s 0x0B04 0x0B00).isSome = true →
      let w := streamFirn s1
      (w.firn.sent < (container w.firn).length → exec (.firnStreamComplete t) s = .next w) ∧
      ((container w.firn).length ≤ w.firn.sent → firnRing w .firnOut = none →
        exec (.firnStreamComplete t) s = .next (finishOp w 0x0B04 0x0B00 stOk 0 [] w.ev.nextId)) ∧
      (∀ n r, (container w.firn).length ≤ w.firn.sent → firnRing w .firnOut = some n → mget w.rings n = some r →
        let u := if 0 < r.fill then returnBuf w n r r.fill r.bufGap else w
        exec (.firnStreamComplete t) s = .next (finishOp (freeFirnRing u .firnOut) 0x0B04 0x0B00 stOk 0 [] u.ev.nextId))) ∧
    (∀ r, mget s.rings s.firn.rpRing = some r → s.firn.st = .loading → r.bind = .firnIn → 128 ≤ r.inData.length →
      (∀ e, loadFault s1 r.inData = some e → ∃ q, exec (.firnLoadComplete t) s = .next q ∧ q.firn.st = .off) ∧
      (loadFault s1 r.inData = none → r.inData.length < le r.inData 16 8 → exec (.firnLoadComplete t) s = .next s) ∧
      (loadFault s1 r.inData = none → le r.inData 16 8 ≤ r.inData.length →
        ∃ q, exec (.firnLoadComplete t) s = .next q ∧ q.firn.st = .loaded ∧ q.firn.header = r.inData.take 128)) ∧
    (∀ e es, s.firn.rpTape = e :: es → s.firn.st = .replaying → s.firn.rpOn = true → e.kind = 11 →
      e.time ≤ (onRecord s1).sid.now →
      ∃ q, exec (.replayCheckpoint t) s = .next q ∧ q.firn.rpTape = es ∧ q.firn.rpGaps = [] ∧ q.sid = s1.sid) ∧
    (s.firn.st = .replaying → replayOver s = true →
      exec (.replayEnd t) s = .next (finishOp (endReplay s1) 0x0B06 0x0B00 stOk (sat 16 s.firn.bad) [] s.ev.nextId))

/-- Group 0x09, the exciter (R312–R317, R322, R325, R326, R328–R332, Table 10-2). An entry within its limits is tuned to in
every state, and an older tuning is superseded; a start is pending when the entry, its budget and its mode allow it; a
transmission stops with its ramp, a pending start is given up, a muted one ends; settings that the entry allows are stored;
a commanded break-in with a confirmed source is held, and released, and one that the table denies is refused; records read
back. The model's choices that it rests on: log entries 101, 105, 107, 108, 109, 111, 112, 116, 117. -/
def Obligations.ExciterCommandsComplete : Prop :=
  ∀ (a : Args) (s : State),
    let b := a.payload
    let u := finishOp (taken txTuneSpec a s) 0x0901 0x0900 stSuperseded a.tag.toNat [] (taken txTuneSpec a s).ev.nextId
    let v := tuneTo u (byteAt b 0)
    let w := v.setTx { v.tx with tuneBy := deadline v 64, tuneLate := false }
    (∀ e, ready txTuneSpec a s = true → regEntry s (byteAt b 0) = some e → levelInUse s ≤ ePmax e →
      (u.tx.st = .pending →
        exec (.txTune a) s = .next (begins txTuneSpec a s (w.setTx { w.tx with synthBy := some (deadline w 64) }))) ∧
      (u.tx.st = .on →
        exec (.txTune a) s = .next (begins txTuneSpec a s (pend ((fastRamp w).setTx
          { (fastRamp w).tx.clearMutes with byTune := true })))) ∧
      (u.tx.st = .muted →
        exec (.txTune a) s = .next (begins txTuneSpec a s (pend (w.setTx { w.tx.clearMutes with byTune := true })))) ∧
      (u.tx.st ≠ .pending → u.tx.st ≠ .on → u.tx.st ≠ .muted →
        exec (.txTune a) s = .next (begins txTuneSpec a s (w.setTx { w.tx with st := .tuning })))) ∧
    (∀ i e, ready txStartSpec a s = true → s.tx.st = .tuning ∨ s.tx.st = .ready → modeSet s = true →
      s.tx.entry = some i → regEntry s i = some e → dutyDenies s i = false →
      exec (.txStart a) s = .next (begins txStartSpec a s (pend ((taken txStartSpec a s).setTx
        { s.tx with byTune := false, brkOwn := false })))) ∧
    (ready txStopSpec a s = true → s.tx.st = .on →
      exec (.txStop a) s = .next (begins txStopSpec a s (beginStop (taken txStopSpec a s)))) ∧
    (ready txStopSpec a s = true → s.tx.st = .pending →
      exec (.txStop a) s =
        .next (answer txStopSpec a s stOk 0 [] (failPending (taken txStopSpec a s) stAbortedHost))) ∧
    (ready txStopSpec a s = true → s.tx.st = .muted →
      exec (.txStop a) s = .next (answer txStopSpec a s stOk 0 [] (evTxCause ((taken txStopSpec a s).setTx
        { s.tx.clearMutes with st := .ready, req := s.tx.req && s.tx.paEn, rank := 0, brkOwn := false }) 2))) ∧
    (ready txLevelSetSpec a s = true → (∀ e, curEntry s = some e → les b 0 2 ≤ ePmax e) →
      exec (.txLevelSet a) s = .next (answer txLevelSetSpec a s stOk 0 []
        (relevel ((taken txLevelSetSpec a s).setTx { s.tx with level := b })))) ∧
    (ready txFmSetSpec a s = true → (txMode s = 1 → ∀ e, curEntry s = some e → le b 4 2 ≤ eDev e) →
      (byteAt b 3 = 0xFF ∨ ∃ r, mget s.rings (byteAt b 3) = some r ∧ r.kind = .streamIn ∧ r.destroying = none ∧
        r.bind = .none) →
      exec (.txFmSet a) s =
        .next (answer txFmSetSpec a s stOk 0 [] ((taken txFmSetSpec a s).setTx { s.tx with fm := some b }))) ∧
    (ready txDabSetSpec a s = true →
      exec (.txDabSet a) s =
        .next (answer txDabSetSpec a s stOk 0 [] ((taken txDabSetSpec a s).setTx { s.tx with dab := some b }))) ∧
    (ready txBreakinSetSpec a s = true →
      (bit (byteAt b 0) 0 = true → byteAt b 1 = 5 → byteAt b 10 ≠ 0xFF → pathLane s (byteAt b 10) = none ∧
        (mget s.services (byteAt b 10) = none ∨ brkProg s = some (byteAt b 10))) →
      exec (.txBreakinSet a) s =
        .next (answer txBreakinSetSpec a s stOk 0 [] ((taken txBreakinSetSpec a s).setTx { s.tx with brk := b }))) ∧
    (ready txSfnSetSpec a s = true → txMode s ≠ 1 → s.tx.st ≠ .on → s.tx.st ≠ .muted →
      (byteAt b 0 = 1 → ∃ v, mget s.eth.streams (byteAt b 1) = some v ∧ byteAt v.cfg 1 = 3) →
      (byteAt b 0 = 2 → ∃ v, mget s.eth.streams (byteAt b 1) = some v ∧ byteAt v.cfg 1 = 4) →
      exec (.txSfnSet a) s =
        .next (answer txSfnSetSpec a s stOk 0 [] ((taken txSfnSetSpec a s).setTx { s.tx with sfn := b }))) ∧
    (ready coexSetSpec a s = true →
      exec (.coexSet a) s = .next (answer coexSetSpec a s stOk 0 []
        (coexReview ((taken coexSetSpec a s).setTx { s.tx with coex := b })))) ∧
    (ready txBreakinSpec a s = true → brkEn s 3 = true → bit (byteAt b 0) 0 = true →
      sourceConfirmed (taken txBreakinSpec a s) (byteAt b 1) (byteAt b 2) = true →
      let x := (taken txBreakinSpec a s).setTx { s.tx with host := some ⟨byteAt b 1, byteAt b 2⟩ }
      (s.tx.rank ≠ 0 → exec (.txBreakin a) s = .next (answer txBreakinSpec a s stOk 0 [] x)) ∧
      (s.tx.rank = 0 → sfnFollows (taken txBreakinSpec a s) = false →
        (breakDenied (taken txBreakinSpec a s) 3 = true →
          exec (.txBreakin a) s =
            .next (answer txBreakinSpec a s stRegLimit 0 [] (refuseBreak (taken txBreakinSpec a s) 3))) ∧
        (breakDenied (taken txBreakinSpec a s) 3 = false →
          exec (.txBreakin a) s = .next (answer txBreakinSpec a s stOk 0 []
            (if transmitting x then x else brkUpdate x))))) ∧
    (∀ h, ready txBreakinSpec a s = true → brkEn s 3 = true → bit (byteAt b 0) 0 = false → s.tx.host = some h →
      let x := (taken txBreakinSpec a s).setTx { s.tx with host := none }
      exec (.txBreakin a) s =
        .next (answer txBreakinSpec a s stOk 0 [] (if transmitting x then x else brkUpdate x))) ∧
    (ready txGetSpec a s = true →
      exec (.txGet a) s =
        .next (answer txGetSpec a s stOk 0 (txResult (taken txGetSpec a s)) (taken txGetSpec a s))) ∧
    (ready txMonGetSpec a s = true →
      exec (.txMonGet a) s = .next (answer txMonGetSpec a s stOk 0 s.mon.last (taken txMonGetSpec a s)))

/-- What the exciter does on its own (R77, R313–R315, R320, R322, R325–R328, R330, R348, Table 10-2). The TX PLL locks; a start
that may proceed asserts PA_EN; a stop and a fast mute deassert it, each at the end of its ramp; windows and limits that run
out end the start or mute the transmission; a grant that comes or goes resumes or mutes it; each frame is emitted on its
grid, and a missing one mutes a follower; coasting mutes it in the end; the highest trigger takes over; a committed table is
loaded at a tick boundary. The model's choices that it rests on: log entries 100, 102, 103, 104, 109, 114, 115. -/
def Obligations.ExciterOccurrencesAct : Prop :=
  ∀ (s : State) (t : Sid),
    let n := advance s t
    (s.tx.locked = false → s.tx.entry ≠ none → s.tx.st = .tuning → s.tx.tuneLate = false → lockFrom s 1 ≤ n.sid.now →
      ∃ q, exec (.txPllLocked t) s = .next q ∧ q.tx.locked = true ∧ q.tx.st = .ready ∧
        (txMode s = 1 → q.tx.delayUs = 1500)) ∧
    (s.tx.locked = false → s.tx.byTune = false → s.tx.tuneLate = false → expired s s.tx.tuneBy = true →
      s.tx.st = .tuning ∨ s.tx.st = .pending → executing s 0x0901 0x0900 ≠ none →
      exec .txTuneTimeout s = .next (finishOp (s.setTx { s.tx with tuneLate := true }) 0x0901 0x0900 stSynthTimeout 0 []
        s.ev.nextId)) ∧
    (s.tx.st = .pending → coexOn s = true → granted s = false → safetyBreak s = false → expired s s.tx.coexBy = true →
      exec .coexWaitExpiry s = .next (failPending s (if synthExpired s then stSynthTimeout else stCoexDenied))) ∧
    (∀ level : Bool, level ≠ s.tx.gnt →
      let g := n.setTx { s.tx with gnt := level, gntAt := n.sid.now }
      (coexOn g = false ∨ safetyBreak g = true → exec (.coexGntChange level t) s = .next g) ∧
      (coexOn g = true → safetyBreak g = false → granted g = true → s.tx.muteGrant = true →
        exec (.coexGntChange level t) s = .next (mayResume (g.setTx { g.tx with muteGrant := false }) 5)) ∧
      (coexOn g = true → safetyBreak g = false → granted g = false → transmitting g = true →
        exec (.coexGntChange level t) s = .next (muteFrom (g.setTx { g.tx with muteGrant := true }) 4))) ∧
    (s.tx.st = .pending ∨ s.tx.st = .muted → startReady n = true →
      ∃ q, exec (.txStartSequence t) s = .next q ∧ q.tx.st = .on ∧ q.tx.paEn = true ∧ q.tx.since = n.sid.now ∧
        q.tx.src = txSource n) ∧
    (s.tx.stopping = true → s.tx.stopAt ≤ n.sid.now →
      ∃ q, exec (.txStopComplete t) s = .next q ∧ q.tx.stopping = false ∧ q.tx.paEn = false) ∧
    (fastMuting s = true → s.tx.muteAt + fastLen ≤ n.sid.now →
      ∃ q, exec (.fastMute t) s = .next q ∧ q.tx.paEn = false ∧ q.tx.st = s.tx.st) ∧
    (∀ i, transmitting s = true → s.tx.paEn = true → s.tx.entry = some i → dutyLeft s i = 0 →
      exec (.dutyLimit t) s = .next (muteReady n 6)) ∧
    (∀ e, transmitting s = true → s.tx.paEn = true → curEntry s = some e → eCont e ≠ 0 →
      3200 * eCont e ≤ s.tx.dutyClock - s.tx.contFrom →
      ∃ q, exec (.continuousLimit t) s = .next q ∧ q.tx.st = .ready ∧ q.tx.muteCause = 7 ∧
        q.tx.restUntil = s.tx.dutyClock + 320 * eCont e) ∧
    (∀ frame : Nat, txMode s = 2 → transmitting s = true → (n.sid.now : Int) = nullAt s frame →
      (n.sid.now < s.tx.gridFrom → exec (.sfnFrame frame t) s = .next (blankOut (countMissing n))) ∧
      (s.tx.gridFrom ≤ n.sid.now → sfnRole s ≠ 2 → s.tx.st = .on →
        exec (.sfnFrame frame t) s = .next (ownFrame n frame)) ∧
      (∀ p, s.tx.gridFrom ≤ n.sid.now → sfnRole s = 2 → heldPacket n frame = some p →
        (packetDue n frame).tx.muteFrame = false →
        exec (.sfnFrame frame t) s = .next (emitFrame (packetDue n frame) frame p.fic p.audio)) ∧
      (s.tx.gridFrom ≤ n.sid.now → sfnRole s = 2 → heldPacket n frame = none →
        ∃ q, exec (.sfnFrame frame t) s = .next q ∧ q.tx.st = .muted ∧ q.tx.muteCause = 0x0A ∧
          q.tx.fic = [] ∧ q.tx.audio = [])) ∧
    (txMode s = 2 → s.tx.st = .on → s.sid.st = .coasting ∨ s.sid.st = .refused →
      s.sid.coastFrom + le s.tx.sfn 10 2 * secU ≤ n.sid.now →
      exec (.sfnCoastExpiry t) s = .next (muteFrom (n.setTx { s.tx with muteTime := true }) 0x0B)) ∧
    (∀ (rank : Nat) (start : Bool), (triggers (taTrigger s)).contains rank = start → 1 ≤ rank → rank ≤ 4 →
      (transmitting s = true → atBoundary s = true) →
      exec (.breakinTrigger rank start) s = .next (brkUpdate (taTrigger s))) ∧
    (s.reg.next = true → atBoundary s = true → expired s s.reg.nextBy = true →
      (curEntry s = none → exec .regTableTakesEffect s = .next (loadShadow s)) ∧
      (∀ e, curEntry s = some e → sameChannel (loadShadow s) e = none →
        exec .regTableTakesEffect s = .next (channelGone (closeDuty (loadShadow s)))) ∧
      (∀ e i, curEntry s = some e → sameChannel (loadShadow s) e = some i →
        ∃ q, exec .regTableTakesEffect s = .next q ∧ q.tx.entry = some i))

/-- Group 0x0C, functional safety (R382, R385, R390, R392, R397, R403). A setting whose sources are fit is taken; the record
reads back; `ALERT_CLEAR` releases ALERT_N; `SAFE_RELEASE` leaves the safe state once its cause is gone, with ALERT_N at its
held level where it was cleared there, and releases a refusal and a thermal hold; it is refused with the cause while that
stands or while only a reset may end it; a self-test run begins. The model's choices that it rests on: log entries 101, 127,
129, 130. -/
def Obligations.SafetyCommandsComplete : Prop :=
  ∀ (a : Args) (s : State),
    (ready polarisSetSpec a s = true → (∀ n < 32, bit (le a.payload 0 4) n = true → laneFit s n = true) →
      (∀ t ∈ namedFlakes a.payload, flakeFit s (t - 0x0500) = true) →
      exec (.polarisSet a) s = .next (answer polarisSetSpec a s stOk 0 []
        ((taken polarisSetSpec a s).setPol { s.pol with cfg := a.payload }))) ∧
    (ready polarisGetSpec a s = true →
      exec (.polarisGet a) s = .next (answer polarisGetSpec a s stOk 0 (polarisResult (taken polarisGetSpec a s))
        (taken polarisGetSpec a s))) ∧
    (ready alertClearSpec a s = true → s.pol.safe = true ∨ alertWindow s = false →
      exec (.alertClear a) s = .next (answer alertClearSpec a s stOk 0 [] ((taken alertClearSpec a s).setPol
        { s.pol with alertN := false, held := false, cleared := s.pol.cleared || s.pol.safe }))) ∧
    (ready safeReleaseSpec a s = true → s.pol.safe = true → s.pol.resetOnly = false → stillPresent s = false →
      exec (.safeRelease a) s = .next (answer safeReleaseSpec a s stOk 0 []
        (evFaultOf (txRelease ((taken safeReleaseSpec a s).setPol
          { s.pol with
            safe := false, refusal := false, thermHold := false, faultN := s.pol.selfFail, present := []
            alertN := if s.pol.cleared then s.pol.heldLevel else s.pol.alertN
            held := s.pol.held || s.pol.cleared, cleared := false })) (s.pol.safeCause + 2 ^ 11)))) ∧
    (ready safeReleaseSpec a s = true → s.pol.safe = false → s.pol.refusal = true ∨ s.pol.thermHold = true →
      exec (.safeRelease a) s = .next (answer safeReleaseSpec a s stOk 0 []
        (evFaultOf ((taken safeReleaseSpec a s).setPol
          { s.pol with
            safe := false, refusal := false, thermHold := false, faultN := s.pol.selfFail, present := []
            cleared := false }) (s.pol.safeCause + 2 ^ 11)))) ∧
    (ready safeReleaseSpec a s = true → s.pol.safe = true → s.pol.resetOnly = true →
      exec (.safeRelease a) s =
        .next (answer safeReleaseSpec a s stBadState s.pol.resetId [] (taken safeReleaseSpec a s))) ∧
    (ready safeReleaseSpec a s = true → s.pol.safe = true → s.pol.resetOnly = false → stillPresent s = true →
      exec (.safeRelease a) s =
        .next (answer safeReleaseSpec a s stBadState s.pol.safeCause [] (taken safeReleaseSpec a s))) ∧
    (ready selftestRunSpec a s = true →
      exec (.selftestRun a) s = .next (begins selftestRunSpec a s (taken selftestRunSpec a s)))

/-- Alerts (R383–R385). Two alike reports of both paths are confirmed, from a lane or a flake, whichever path is first:
ALERT_N is asserted and the alert is open; an alike end closes it; reports that differ, and a report that waits 160 ticks, are
finding 0x02; a candidate of a source that is not designated is counted and ignored. -/
def Obligations.AlertsAreConfirmedByBothPaths : Prop :=
  ∀ (s : State) (source : BitVec 16) (start : Bool) (subch : BitVec 8) (t : Sid),
    let src := source.toNat
    let n := advance s t
    let sub := if dabSource n src then subch.toNat else 0xFF
    let heard : Prop := s.pol.halted = false ∧ s.pol.safe = false ∧ replayed n src = false ∧
      (toFull src = true ∨ toFlake src = true)
    (∀ d : Nat, heard → designated n src = true → s.pol.reports = [⟨true, src, true, sub, d⟩] →
      ∃ q, exec (.alertCheckReport source true subch t) s = .next q ∧ q.pol.alertN = true ∧ q.pol.reports = [] ∧
        (src, sub) ∈ q.pol.openAlerts ∧ q.pol.confirmed = sat 32 (s.pol.confirmed + 1) ∧ q.pol.safe = false) ∧
    (∀ d : Nat, heard → designated n src = true → s.pol.reports = [⟨false, src, true, sub, d⟩] →
      ∃ q, exec (.alertPrimaryReport source true subch t) s = .next q ∧ q.pol.alertN = true ∧ q.pol.reports = [] ∧
        (src, sub) ∈ q.pol.openAlerts ∧ q.pol.confirmed = sat 32 (s.pol.confirmed + 1) ∧ q.pol.safe = false) ∧
    (∀ d : Nat, heard → designated n src = true → s.pol.reports = [⟨true, src, false, sub, d⟩] →
      ∃ q, exec (.alertCheckReport source false subch t) s = .next q ∧ (src, sub) ∉ q.pol.openAlerts ∧
        q.pol.reports = []) ∧
    (heard → designated n src = true → s.pol.reports = [] →
      ∃ q, exec (.alertPrimaryReport source true subch t) s = .next q ∧
        q.pol.reports = [⟨true, src, true, sub, deadline n 160⟩] ∧
        q.pol.candidates = sat 32 (s.pol.candidates + 1) ∧ q.pol.alertN = s.pol.alertN) ∧
    (heard → designated n src = true → s.pol.reports = [] →
      ∃ q, exec (.alertCheckReport source start subch t) s = .next q ∧
        q.pol.reports = [⟨false, src, start, sub, deadline n 160⟩] ∧ q.pol.candidates = s.pol.candidates) ∧
    (∀ d : Nat, heard → designated n src = true → s.pol.reports = [⟨true, src, false, sub, d⟩] →
      ∃ q, exec (.alertCheckReport source true subch t) s = .next q ∧ q.pol.safe = true ∧ q.pol.safeCause = 0x02 ∧
        q.pol.mismatches = sat 32 (s.pol.mismatches + 1)) ∧
    (heard → designated n src = false →
      exec (.alertPrimaryReport source true subch t) s =
        .next (n.setPol { s.pol with ignored := sat 32 (s.pol.ignored + 1) })) ∧
    (∀ d : Nat, s.pol.safe = false → s.pol.reports = [⟨start, src, true, sub, d⟩] → expired n d = true →
      ∃ q, exec (.alertMismatchTimeout source t) s = .next q ∧ q.pol.safe = true ∧ q.pol.safeCause = 0x02)

/-- Diagnostics (R27, R28, R323, R324, R386–R389, R397, R404, Table 13-3). The second missed heartbeat of a safety island, the
watchdog, the lockstep comparator, a wrong checksum of the safety configuration, a hard error of a safety memory, a rail, an
output that does not assert, a loop that unlocks, and a break-in that is not seen lead to the safe state, with the exciter
held and FAULT_N asserted; the lesser findings are counted. A self-test that passes is recorded, and one that fails is
reset-only. A monitor window outside a transmission breaks every run; any other is recorded and reacted to. The model's
choices that it rests on: log entries 127, 132, 133, 134, 135, 165. -/
def Obligations.FindingsLeadToTheSafeState : Prop :=
  ∀ (s : State) (t : Sid), s.pol.safe = false →
    let n := advance s t
    let safeBy : Instr → Nat → Prop := fun i id =>
      ∃ q, exec i s = .next q ∧ q.pol.safe = true ∧ q.pol.safeCause = id ∧ q.pol.faultN = true ∧ q.tx.st = .held ∧
        q.tx.paEn = false
    (∀ i, diagnosed s = true → islandRuns s i = true → i ∈ [1, 6, 7, 14, 15, 16] → mgetD s.pol.missed i 0 = 1 →
      safeBy (.heartbeatCheck i false t) 3) ∧
    (∀ i, diagnosed s = true → islandRuns s i = true → 1 ≤ i → i ≤ 16 → ¬(8 ≤ i ∧ i ≤ 11) →
      exec (.heartbeatCheck i true t) s = .next (n.setPol { s.pol with missed := mdel s.pol.missed i })) ∧
    (diagnosed s = true → safeBy (.watchdogExpiry t) 4) ∧
    (diagnosed s = true → safeBy (.lockstepMismatch t) 1) ∧
    (∀ crc : BitVec 32, diagnosed s = true → crc ≠ Config.safetyCrc (safetyConfig s) → safeBy (.configCrcCheck crc t) 5) ∧
    (∀ crc : BitVec 32, crc = Config.safetyCrc (safetyConfig s) → exec (.configCrcCheck crc t) s = .next s) ∧
    (∀ r, diagnosed s = true → r = 1 ∨ r = 3 → safeBy (.eccError r false t) 6) ∧
    (∀ r, diagnosed s = true → r = 2 ∨ r = 4 ∨ r = 5 → exec (.eccError r false t) s = .next (warning n 0x06)) ∧
    (∀ r : Nat, diagnosed s = true → 1 ≤ r → r ≤ 5 →
      exec (.eccError r true t) s = .next (n.setPol { s.pol with eccCount := s.pol.eccCount + 1 })) ∧
    (∀ r : Nat, diagnosed s = true → r < 4 → safeBy (.railOutOfRange r t) 0x0A) ∧
    (∀ ball, diagnosed s = true → ball ≤ 2 → driven s ball = true → safeBy (.ballReadbackFault ball false t) 0x0B) ∧
    (∀ ball, diagnosed s = true → ball ≤ 2 → driven s ball = false →
      exec (.ballReadbackFault ball true t) s = .next (warning n 0x0B)) ∧
    (∀ l, l < 5 → s.clk.state = .locked → loopLocked s l = true → l = 0 ∨ l = 4 ∨ safetyBreak s = true →
      safeBy (.loopUnlock l t) 9) ∧
    (∀ l, 1 ≤ l → l ≤ 3 → s.clk.state = .locked → loopLocked s l = true → safetyBreak s = false →
      ∃ q, exec (.loopUnlock l t) s = .next q ∧ q.pol.safe = false ∧ q.pol.warnings = sat 32 (s.pol.warnings + 1)) ∧
    (∀ d, safetyBreak s = true → s.tx.st = .on → s.tx.dueAt = some d → d + 5000 * usU ≤ n.sid.now →
      safeBy (.breakinDueCheck false t) 8 ∧ exec (.breakinDueCheck true t) s = .next s) ∧
    (synthExpired s = true →
      (s.tx.brkOwn = true → safetyBreak s = true → safeBy .synthWindowExpiry 8) ∧
      (s.tx.brkOwn = false → exec .synthWindowExpiry s = .next (failPending s stSynthTimeout))) ∧
    (executing s 0x0C05 0x0C00 = none → diagnosed s = true → s.pwr.state ≠ .thaw → selftestDue n = true →
      (∃ q, exec (.periodicSelftest true t) s = .next q ∧ q.pol.lastSelftest = n.sid.now) ∧
      safeBy (.periodicSelftest false t) 0x0C) ∧
    (∀ (m : MonitorIn) (e : Bytes), curEntry s = some e → windowDone s 32 = true →
      (s.tx.st ≠ .on ∨ n.sid.now - 32 * tickU < s.tx.ramp.start + s.tx.ramp.len →
        exec (.monitorWindow m t) s =
          .next (n.setMon { s.mon with breaches := 0, content := 0, told := false, faults := 0 })) ∧
      (s.tx.st = .on → s.tx.ramp.start + s.tx.ramp.len ≤ n.sid.now - 32 * tickU →
        ∃ q, exec (.monitorWindow m t) s = .next q ∧
          (monBreach n e m = true → q.mon.breaches = s.mon.breaches + 1) ∧
          (monBreach n e m = true → s.mon.breaches = 1 → q.pol.safe = true ∧ q.pol.safeCause = 0x07) ∧
          (monBreach n e m = false → q.mon.breaches = 0)))

/-- Group 0x0F and the power commands (R409, R412, R422, R424, R425, R436, R530). A request for Frost starts the transition and
one for Permafrost completes where nothing keeps the device out of it; one for Active or Avalanche starts the transition
that leads there, or completes where there is none; one during a transition is held; a limit is stored; an update begins,
takes data in order, is read back; the records read back; a reset is asked for. The model's choices that it rests on: log
entry 145. -/
def Obligations.PowerAndFirmwareCommandsComplete : Prop :=
  ∀ (a : Args) (s : State),
    let b := a.payload
    let u := taken pwrStateSetSpec a s
    let key := cmdKey (cmdOf pwrStateSetSpec a)
    (ready pwrStateSetSpec a s = true → s.pwr.trans = .none →
      (byteAt b 0 = 1 → s.pwr.state = .frost → exec (.pwrStateSet a) s = .next (answer pwrStateSetSpec a s stOk 0 [] u)) ∧
      (byteAt b 0 = 1 → s.pwr.state ≠ .frost → lowDenied u = none →
        exec (.pwrStateSet a) s = .next (begins pwrStateSetSpec a s (u.setPwr
          { s.pwr with wakeMask := byteAt b 1, wakeS := le b 4 4, trans := .toFrost, owner := some key }))) ∧
      (byteAt b 0 = 0 → lowDenied u = none →
        exec (.pwrStateSet a) s = .next (answer pwrStateSetSpec a s stOk 0 [] (u.setPwr
          { s.pwr with wakeMask := byteAt b 1, wakeS := le b 4 4, trans := .toPermafrost }))) ∧
      (byteAt b 0 = 3 → s.pwr.state = .active →
        exec (.pwrStateSet a) s =
          .next (answer pwrStateSetSpec a s stOk 0 [] (u.setPwr { s.pwr with reqAval := false }))) ∧
      (byteAt b 0 = 3 ∨ byteAt b 0 = 4 → s.pwr.state = .frost →
        exec (.pwrStateSet a) s = .next (begins pwrStateSetSpec a s (u.setPwr
          { s.pwr with reqAval := decide (byteAt b 0 = 4), trans := .fromFrost, owner := some key }))) ∧
      (byteAt b 0 = 3 → s.pwr.state = .avalanche →
        exec (.pwrStateSet a) s = .next (begins pwrStateSetSpec a s (u.setPwr
          { s.pwr with reqAval := false, trans := .fromAvalanche, owner := some key }))) ∧
      (byteAt b 0 = 4 → s.pwr.state = .avalanche →
        exec (.pwrStateSet a) s = .next (answer pwrStateSetSpec a s stOk 0 [] (u.setPwr { s.pwr with reqAval := true }))) ∧
      (byteAt b 0 = 4 → s.pwr.state = .active → s.pwr.brownout = false → s.pwr.boostSpent = false →
        shedRefusal (u.setPwr { s.pwr with reqAval := true }) 3 = none →
        exec (.pwrStateSet a) s = .next (begins pwrStateSetSpec a s (u.setPwr
          { s.pwr with reqAval := true, trans := .toAvalanche, owner := some key }))) ∧
      (byteAt b 0 = 4 → s.pwr.state = .active → s.pwr.brownout = false → s.pwr.boostSpent = true →
        shedRefusal (u.setPwr { s.pwr with reqAval := true }) 3 = none →
        exec (.pwrStateSet a) s = .next (answer pwrStateSetSpec a s stOk 1 []
          (reachAvalanche (u.setPwr { s.pwr with reqAval := true }) false)))) ∧
    (ready pwrStateSetSpec a s = true → s.pwr.trans ≠ .none →
      exec (.pwrStateSet a) s =
        .next (begins pwrStateSetSpec a s (u.setPwr { s.pwr with waiting := s.pwr.waiting ++ [key] }))) ∧
    (ready pwrGetSpec a s = true →
      exec (.pwrGet a) s = .next (answer pwrGetSpec a s stOk 0 (pwrResult (taken pwrGetSpec a s)) (taken pwrGetSpec a s))) ∧
    (ready pwrLimitSetSpec a s = true →
      exec (.pwrLimitSet a) s =
        .next (answer pwrLimitSetSpec a s stOk 0 [] ((taken pwrLimitSetSpec a s).setPwr
          { s.pwr with ilim := byteAt b 0 }))) ∧
    (ready fwBeginSpec a s = true → s.fw.st = .idle →
      exec (.fwBegin a) s = .next (begins fwBeginSpec a s ((taken fwBeginSpec a s).setFw
        { s.fw.setBuild 0 with
          st := .erasing, bytes := le b 0 4, crc := BitVec.ofNat 32 (le b 4 4), written := 0, image := []
          activate := false, suspended := s.pwr.brownout }))) ∧
    (ready fwWriteSpec a s = true → s.fw.st = .writing → le b 0 4 = s.fw.written →
      s.fw.written + (b.length - 4) ≤ s.fw.bytes →
      exec (.fwWrite a) s = .next (begins fwWriteSpec a s (taken fwWriteSpec a s))) ∧
    (ready fwFinishSpec a s = true → s.fw.st = .writing →
      exec (.fwFinish a) s = .next (begins fwFinishSpec a s ((taken fwFinishSpec a s).setFw
        { s.fw with st := .verifying, activate := bit (byteAt b 0) 0 }))) ∧
    (ready fwStatusSpec a s = true →
      exec (.fwStatus a) s = .next (answer fwStatusSpec a s stOk 0 (fwResult s.fw) (taken fwStatusSpec a s))) ∧
    (ready devResetSpec a s = true →
      exec (.devReset a) s =
        .next (answer devResetSpec a s stOk 0 [] ((taken devResetSpec a s).setPwr { s.pwr with resetPend := true })))

/-- Firmware update steps end (R421, R424, R426, Table 14-11): the erased slot is written, data counts as written and is held, a
verified image that is not to be activated ends the update and one that is goes on to its marker, an incomplete image, a
wrong checksum and a wrong header refuse it, and a marker takes the next generation. The model's choices that it rests on:
log entry 145. -/
def Obligations.FirmwareUpdateStepsEnd : Prop :=
  ∀ (s : State) (t : Sid),
    (s.fw.st = .erasing → s.fw.suspended = false →
      exec .fwEraseComplete s =
        .next (finishOp (s.setFw { s.fw with st := .writing }) 0x0F01 0x0000 stOk 0 [] s.ev.nextId)) ∧
    (∀ f, executing s 0x0F02 0x0000 = some f → s.fw.st = .writing → s.fw.suspended = false ∨ f.cmd.len ≤ 260 →
      exec .fwProgramComplete s = .next (complete (s.setFw
        { s.fw with written := s.fw.written + (f.cmd.len - 4), image := s.fw.image ++ f.cmd.pl.drop 4 }) f
        stOk 0 [] s.sid.now s.ev.nextId)) ∧
    (∀ build : BitVec 32, s.fw.st = .verifying → s.fw.bytes ≤ s.fw.written → crc32 s.fw.image = s.fw.crc →
      (s.fw.activate = false →
        ∃ q, exec (.fwVerifyComplete true build) s = .next q ∧ q.fw.st = .idle ∧ q.fw.last = 1 ∧
          q.fw.lastTime = s.sid.now) ∧
      (s.fw.activate = true →
        ∃ q, exec (.fwVerifyComplete true build) s = .next q ∧ q.fw.st = .marking ∧ q.fw.newBuild = build)) ∧
    (∀ (build : BitVec 32) (ok : Bool) (d : Nat), s.fw.st = .verifying → verifyFault s.fw ok = some d →
      exec (.fwVerifyComplete ok build) s = .next (finishOp (s.setFw
        { s.fw with st := .idle, last := 3, lastTime := s.sid.now }) 0x0F03 0x0000 stBadState d [] s.ev.nextId)) ∧
    (s.fw.st = .marking → s.fw.suspended = false →
      ∃ q, exec (.fwMarkerComplete t) s = .next q ∧ q.fw =
        { s.fw.mark with st := .idle, last := 1, lastTime := (advance s t).sid.now })

/-- Power states and reset (R408–R422, R428, Tables 14-3 and 14-4). Power-on, a reset pulse and a loss of VIN reset the device
with their cause; bring-up samples the straps, starts Sidereal, and ends in Active; the transitions to and from Frost,
Permafrost and Avalanche complete; wake sources act; a brown-out begins and ends. The model's choices that it rests on: log
entries 126, 140, 141, 142, 144, 146. -/
def Obligations.PowerStatesFollowTheirOccurrences : Prop :=
  ∀ (s : State) (t : Sid),
    let n := advance s t
    (∀ (mv : Nat) (vio : Bool), s.pwr.state = .off → 2650 < mv →
      ∃ q, exec (.powerOn mv vio) s = .next q ∧ q.pwr.state = .thaw ∧ q.pwr.cause = 1 ∧ q.pwr.vioHigh = vio ∧
        q.sid.running = false ∧ q.rings = []) ∧
    (∀ (ns : Nat) (tj : Int), s.pwr.state ≠ .off → 1000 ≤ ns →
      (s.pwr.shut = false → exec (.resetN ns tj) s = .next (resetDevice s 2 true)) ∧
      (s.pwr.shut = true → tj < 1000 → exec (.resetN ns tj) s = .next (resetDevice s 6 true))) ∧
    (∀ (mv ns : Nat), s.pwr.state ≠ .off → 1000 ≤ ns →
      (1500 ≤ mv → mv < 2350 → exec (.vinReset mv ns) s = .next (resetDevice s 3 false)) ∧
      (mv < 1500 → ∃ q, exec (.vinReset mv ns) s = .next q ∧ q.pwr.state = .off ∧ q.pol.faultN = false)) ∧
    (∀ (st : Straps) (crystal : Bool), s.pwr.state = .thaw → s.pwr.buStep = 2 →
      ∃ q, exec (.bringUp st crystal) s = .next q ∧ q.pwr.straps = st ∧ q.pwr.buStep = 3 ∧
        q.hcfg.i2cAddr = 0x58 + st.addr.toNat ∧ q.hcfg.legEn = st.modeLeg ∧ q.clk.xtal = (crystal || st.xtalSel)) ∧
    (∀ tones, s.pwr.state = .thaw → s.pwr.buFault = 0 →
      (s.pwr.buStep = 4 →
        (∃ q, exec (.bringupStepComplete true tones) s = .next q ∧ q.sid.running = true ∧ q.sid.now = 0 ∧
          q.sid.next = tickU ∧ q.pwr.buStep = 5) ∧
        exec (.bringupStepComplete false tones) s = .next (s.setPwr { s.pwr with buFault := 1 })) ∧
      (∀ g : Bool, s.pwr.buStep = 9 → s.pwr.reqAval = false →
        ∃ q, exec (.bringupStepComplete g tones) s = .next q ∧ q.pwr.state = .active ∧ q.pwr.buStep = 10 ∧
          q.pwr.wakeMask = 0)) ∧
    (∀ (mv ns : Nat), diagnosed s = true → mv < 2550 → 1000 ≤ ns →
      (s.pwr.brownout = false →
        ∃ q, exec (.evBrownoutWarn mv ns t) s = .next q ∧ q.pwr.brownout = true ∧ q.pwr.boMin = mv) ∧
      (s.pwr.brownout = true →
        exec (.evBrownoutWarn mv ns t) s = .next (s.setPwr { s.pwr with boMin := min s.pwr.boMin mv }))) ∧
    (∀ mv : Nat, s.pwr.brownout = true → 2650 < mv → s.pwr.reqAval = false →
      ∃ q, exec (.brownoutRecovery mv t) s = .next q ∧ q.pwr.brownout = false ∧
        q.pwr.boDur = sat 32 ((n.sid.now - s.pwr.boTime) / usU) ∧ q.fw.suspended = false) ∧
    (s.pwr.trans = .toFrost → s.pwr.owner = none → s.pwr.waiting = [] →
      ∃ q, exec (.frostEntryComplete t) s = .next q ∧ q.pwr.state = .frost ∧ q.pwr.trans = .none) ∧
    (s.pwr.trans = .fromFrost → s.pwr.owner = none → s.pwr.waiting = [] → s.pwr.reqAval = false →
      ∃ q, exec (.frostExit t) s = .next q ∧ q.pwr.state = .active ∧ q.pwr.trans = .none) ∧
    (s.pwr.trans = .toPermafrost → exec .permafrostEntry s = .next (enterPermafrost s false)) ∧
    (s.pwr.state = .permafrost → s.pwr.shut = false → bit s.pwr.wakeMask 3 = true →
      exec .wakeTimerExpiry s = .next (wakeUp s)) ∧
    (s.pwr.state = .frost → bit s.pwr.wakeMask 3 = true → exec .wakeTimerExpiry s = .next (leaveFrost s)) ∧
    (s.pwr.trans = .toAvalanche → s.pwr.owner = none → s.pwr.waiting = [] →
      ∃ q, exec (.avalancheEntryComplete t) s = .next q ∧ q.pwr.state = .avalanche ∧
        q.pwr.boost = !s.pwr.boostSpent) ∧
    (s.pwr.trans = .fromAvalanche → s.pwr.owner = none → s.pwr.waiting = [] →
      ∃ q, exec (.avalancheExitComplete t) s = .next q ∧ q.pwr.state = .active ∧ q.pwr.boost = false)

/-- The boost budget and the two governors (R428, R430–R435). A unit of boost begins once the last is used up, and the end of
the budget is told of; at the thermal threshold, and at the current limit, the next action of the ladder is taken, and after
a cool or a low stretch the last is given back; with nothing to take the power limit says so once; shutdown enters
Permafrost. The model's choices that it rests on: log entries 137, 147, 160. -/
def Obligations.GovernorsShedAndRestore : Prop :=
  ∀ (s : State),
    (s.pwr.boost = true ∨ s.pwr.trans = .toAvalanche → s.pwr.brownout = false → s.pwr.boostLeft = 0 →
      (s.pwr.boostUsed < 20000 →
        exec .boostUnitBegin s =
          .next (s.setPwr { s.pwr with boostUsed := s.pwr.boostUsed + 1, boostLeft := boostUnit })) ∧
      (20000 ≤ s.pwr.boostUsed →
        exec .boostUnitBegin s = .next (evTherm (s.setPwr { s.pwr with boostSpent := true, boost := false }) 6 0))) ∧
    (∀ st s1, governed s = true → s.therm.thermDem = 0 → 1220 ≤ s.pwr.tj → shedOne s true = (some st, s1) →
      exec .thermalGovernorCheck s = .next (evTherm (s1.setTherm
        { s1.therm with lastAct := s.sid.ticks, lastTj := s.pwr.tj, lastCheck := s.sid.ticks }) 3 st)) ∧
    (governed s = true → thermalSheds s = false → 0 < s.therm.thermDem → restDue s s.therm.coolFrom = true →
      exec .thermalGovernorCheck s = .next (evTherm ((restoreOne s true).2.setTherm
        { (restoreOne s true).2.therm with coolFrom := some s.sid.ticks }) 4 (restoreOne s true).1)) ∧
    (governed s = true → s.therm.powerAt ≠ s.sid.ticks →
      let u := s.setTherm { s.therm with powerAt := s.sid.ticks }
      (∀ st s1, 100 * s.pwr.ilim ≤ s.pwr.iin → shedOne u false = (some st, s1) →
        exec .powerLimitCheck s = .next (evPower s1 1 st)) ∧
      (∀ s1, 100 * s.pwr.ilim ≤ s.pwr.iin → shedOne u false = (none, s1) → s1.therm.exhausted = false →
        exec .powerLimitCheck s = .next (evPower (s1.setTherm { s1.therm with exhausted := true }) 3 0)) ∧
      (s.pwr.iin < 100 * s.pwr.ilim → 0 < s.therm.powerDem → restDue s s.therm.lowFrom = true →
        exec .powerLimitCheck s = .next (evPower ((restoreOne s false).2.setTherm
          { (restoreOne s false).2.therm with lowFrom := some s.sid.ticks }) 2 (restoreOne s false).1))) ∧
    (∀ tj : Int, s.pwr.state ≠ .off → 1350 ≤ tj →
      exec (.thermalShutdown tj) s = .next (enterPermafrost (s.setPol { s.pol with thermHold := true }) true))

/-- Group 0x0A's schedule commands (R349, R351, R353, R354, R356, R357). A schedule is entered with its slot number as the
result: its first firing is released at once where it is less than two ticks away, and waits in the slot where it is further
or, with `LATE_OK`, past; an entry is cancelled, and another kind of slot is refused; a slot, or the summary, is read. The
model's choices that it rests on: log entries 44, 45. -/
def Obligations.ScheduleCommandsComplete : Prop :=
  ∀ (a : Args) (s : State),
    let u := taken schedAddSpec a s
    let e := embedded (cmdOf schedAddSpec a)
    let v : Slot :=
      { sched := true, cmd := e, seq := s.merid.nextSeq, nominal := s.sid.next, due := s.sid.next,
        period := le a.payload 0 4, firings := le a.payload 4 4, passed := 0, fired := 0, skipped := 0, late := false,
        sample := ((plainSpec e.op).map (·.sample)).getD false }
    let kept (i : Nat) (x : Slot) : State :=
      u.setMerid { s.merid with nextSeq := s.merid.nextSeq + 1, slots := mput s.merid.slots i x }
    let w := sidOf s.sid.now a.whn
    (∀ i, ready schedAddSpec a s = true → checkEmbedded u e = none → freeSlot s = some i → s.sid.now ≤ s.sid.next →
      (s.sid.next < s.sid.now + 2 * tickU →
        exec (.schedAdd a) s = .next (answer schedAddSpec a s stOk 0 (leBytes 4 i) (fire i v (kept i v)))) ∧
      (s.sid.now + 2 * tickU ≤ s.sid.next →
        exec (.schedAdd a) s = .next (answer schedAddSpec a s stOk 0 (leBytes 4 i) (kept i v)))) ∧
    (∀ i, readyAt schedAddSpec a s = true → checkEmbedded u e = none → freeSlot s = some i →
      let x : Slot := { v with nominal := w, due := w }
      (s.sid.now + 2 * tickU ≤ w →
        exec (.schedAdd a) s = .next (answer schedAddSpec a s stOk 0 (leBytes 4 i) (kept i x))) ∧
      (s.sid.now ≤ w → w < s.sid.now + 2 * tickU →
        exec (.schedAdd a) s = .next (answer schedAddSpec a s stOk 0 (leBytes 4 i) (fire i x (kept i x)))) ∧
      (w < s.sid.now → (cmdOf schedAddSpec a).lateOk = true →
        exec (.schedAdd a) s = .next (answer schedAddSpec a s stOk 0 (leBytes 4 i)
          (kept i { v with nominal := w, late := true })))) ∧
    (∀ v, ready schedCancelSpec a s = true → mget s.merid.slots (le a.payload 0 2) = some v → v.sched = true →
      exec (.schedCancel a) s = .next (answer schedCancelSpec a s stOk 0 []
        (putSlot (taken schedCancelSpec a s) (le a.payload 0 2) none))) ∧
    (∀ v, ready schedCancelSpec a s = true → mget s.merid.slots (le a.payload 0 2) = some v → v.sched = false →
      exec (.schedCancel a) s = .next (answer schedCancelSpec a s stBadState 0 [] (taken schedCancelSpec a s))) ∧
    (ready schedGetSpec a s = true →
      exec (.schedGet a) s = .next (answer schedGetSpec a s stOk 0 (schedResult s (le a.payload 0 2))
        (taken schedGetSpec a s)))

/-- Releases, firings and steps (R23, R347–R352, R354, R411, R487). The next due slot is released, a firing whose tag is free is
released from the embedded packet and one whose tag is in flight is skipped and told of; a release that Frost holds ends it;
an action meets its sample; a step moves Sidereal time to its target and tick numbers with it; an owning island reports an
outcome, or an inconsistency that it found before the effect. The model's choices that it rests on: log entries 13, 39, 40,
41, 42, 47. -/
def Obligations.ReleasesFiringsAndStepsAct : Prop :=
  ∀ (s : State) (t : Sid),
    let n := advance s t
    (∀ i v f p, nextRelease s = some (i, v) → v.sched = false →
      byTag (putSlot s i none) v.cmd.a.origin v.cmd.a.tag.toNat = some f → specOf v.cmd.op = some p →
      exec .meridianRelease s = .next (release p { f with late := v.overdue s } (putSlot s i none))) ∧
    (∀ i v p, nextRelease s = some (i, v) → v.sched = true → byTag s v.cmd.a.origin v.cmd.a.tag.toNat = none →
      plainSpec v.cmd.op = some p →
      exec (.schedFiring i) s = .next (release p (firingFlight s i v)
        (putSlot s i ({ v with fired := v.fired + 1 }.pass.resume s.sid.now)))) ∧
    (∀ i v f, nextRelease s = some (i, v) → v.sched = true → byTag s v.cmd.a.origin v.cmd.a.tag.toNat = some f →
      exec (.schedFiring i) s =
        .next (evSchedOf (putSlot s i ({ v with skipped := v.skipped + 1 }.pass.resume s.sid.now)) 1 i 1)) ∧
    (∀ i, nextRelease s = none →
      exec .meridianRelease s = .next (frostEnds s) ∧ exec (.schedFiring i) s = .next (frostEnds s)) ∧
    (∀ o (tag : BitVec 10) f p, byTag s o tag.toNat = some f → specOf f.cmd.op = some p → p.sample = true →
      f.phase = .executing → f.begun = false → f.due ≤ n.sid.now →
      exec (.sampleTimedApply o tag t) s = .next (launch p
        { f with late := f.late || decide (f.due + sampleStep n f.cmd.op ≤ n.sid.now) } n)) ∧
    (∀ q, dueStep s = some q →
      ∃ u, exec .siderealStep s = .next u ∧ u.sid.now = stepTarget s q ∧
        u.sid.next = (stepTarget s q + tickU / 2 + tickU - 1) / tickU * tickU ∧
        u.sid.steps = sat 32 (s.sid.steps + 1)) ∧
    (∀ o (tag : BitVec 10) f, byTag s o tag.toNat = some f →
      (∀ r, f.outcome = some r → ownOutcome f.cmd.op = false →
        exec (.completionWrite o tag false t) s =
          .next (complete n f r.status r.detail r.result n.sid.now s.ev.nextId)) ∧
      (noEffectYet f = true →
        exec (.completionWrite o tag true t) s =
          .next (complete (countInternal n) { f with late := false } stInternal 0 [] n.sid.now s.ev.nextId)))

/-- A tick (R19, R21, R337, R389, R406, R436). No time passes before Sidereal runs; a reset that `DEV_RESET` asked for is
carried out; while the cores are halted only time passes; else the boundary's time is the present, the next lies one tick
ahead, the tick is counted, the readings of the sensors are taken over, and with no packet, no command in flight, no
recorded one and no action due nothing is completed. The model's choices that it rests on: log entries 6, 160. -/
def Obligations.TickAdvancesTime : Prop :=
  ∀ (m : TickIn) (s : State),
    (s.sid.running = false → exec (.tick m) s = .next s) ∧
    (s.sid.running = true → s.pwr.resetPend = true → exec (.tick m) s = .next (resetDevice s 4 true)) ∧
    (s.sid.running = true → s.pwr.resetPend = false → s.pol.halted = true →
      ∃ q, exec (.tick m) s = .next q ∧ q.sid.now = s.sid.next ∧ q.sid.next = s.sid.next + tickU ∧
        q.sid.ticks = s.sid.ticks + 1 ∧ q = (s.setSid q.sid).setCmds { s.cmds with served := [], budget := 0 }) ∧
    (s.sid.running = true → s.pwr.resetPend = false → s.pol.halted = false → s.cmds.list = [] → s.rings = [] →
      s.mbx.copied = [] → s.leg.seq = [] → s.firn.st ≠ .replaying →
      ∃ q, exec (.tick m) s = .next q ∧ q.sid.now = s.sid.next ∧ q.sid.next = s.sid.next + tickU ∧
        q.sid.ticks = s.sid.ticks + 1 ∧ q.pwr.tj = m.tj ∧ q.pwr.iin = m.iin ∧ q.pwr.vin = m.vin ∧
        q.cmds.completed = s.cmds.completed)

/-- The generation-1 codes (R497–R499, Table 17-24): a code in `L_CMD`, with the channel of legacy mode free, sends the first
packet of its sequence on the lane of `L_LANE`, a tune code after a `LANE_STOP` where the lane is in use; a frequency or a
robustness mode out of range, and an undefined code, fail at once. The model's choices that it rests on: log entries 71, 75,
158, 159. -/
def Obligations.GenerationOneCodesRun : Prop :=
  ∀ (s : State),
    let free := channelOpen s .legacy = true ∧ ∀ f ∈ s.cmds.list, f.cmd.a.origin ≠ .legacy
    let on (code : Nat) := s.hcfg.legEn = true ∧ s.leg.start = true ∧ s.leg.cmd = code
    let t := 0x0300 + s.leg.lane
    let khz := le s.leg.arg 0 4
    let runs (c : Cmd) (cs : List Cmd) : State := take (specOf c.op) c (s.setLeg { s.leg with start := false, seq := cs })
    let sends (op tgt : Nat) (b : Bytes) : State := runs (legacyPacket op tgt b) []
    let fails (err : Nat) := s.setLeg { s.leg with start := false, err := true, lErr := err, seq := [], cts := true }
    let sets (use : Nat) : Cmd := legacyPacket 0x0403 t
      ([BitVec.ofNat 8 use, 1, 0, 0, if s.leg.lane = 0 then 7 else 15, 0xFF, 0xFF, 0xFF] ++ zeros 16)
    let tunes : List Cmd := [legacyPacket 0x0404 t (leBytes 8 (khz * 1000000) ++ zeros 8), legacyPacket 0x0405 t []]
    let atRest := (lane s t).st = .idle ∨ (lane s t).st = .stopped
    let tuned (i : Instr) (use : Nat) (extra : List Cmd) : Prop :=
      (144 ≤ khz → khz ≤ 319800 → atRest → exec i s = .next (runs (sets use) (tunes ++ extra))) ∧
      (144 ≤ khz → khz ≤ 319800 → ¬atRest →
        exec i s = .next (runs (legacyPacket 0x0406 t []) (sets use :: tunes ++ extra))) ∧
      (khz < 144 ∨ 319800 < khz → exec i s = .next (fails stBadParam))
    free →
    (on 0x01 → exec .g1Identify s = .next (sends 0x0001 0 [])) ∧
    (on 0x02 → exec .g1GetStatus s = .next (sends 0x0002 0 [])) ∧
    (on 0x03 → exec .g1GetCaps s = .next (sends 0x0003 0 (fit 4 s.leg.arg))) ∧
    (on 0x10 → tuned .fmTune 3 [legacyPacket 0x0502 t (splice fmDefault 0 [s.leg.arg.getD 4 0])]) ∧
    (on 0x11 → tuned .amTune 2 [legacyPacket 0x0501 t (splice amDefault 0 [s.leg.arg.getD 4 0])]) ∧
    (on 0x12 → tuned .dabTune 4 []) ∧
    (on 0x13 → byteAt s.leg.arg 5 ≤ 1 → tuned .drmTune (if byteAt s.leg.arg 5 = 0 then 5 else 6) []) ∧
    (on 0x13 → 1 < byteAt s.leg.arg 5 → exec .drmTune s = .next (fails stBadParam)) ∧
    (on 0x14 → exec .rxStop s = .next (sends 0x0406 t [])) ∧
    (on 0x20 → exec .fmConfig s = .next (sends 0x0502 t (fit 20 s.leg.arg))) ∧
    (on 0x21 → exec .amConfig s = .next (sends 0x0501 t (fit 8 s.leg.arg))) ∧
    (on 0x22 → fullUse s s.leg.lane < 4 →
      exec .signalRead s = .next (sends 0x0503 t (fit (qualityGetSpec.len []) s.leg.arg))) ∧
    (on 0x22 → 4 ≤ fullUse s s.leg.lane →
      exec .signalRead s = .next (sends 0x0606 t (fit (ofdmQualityGetSpec.len []) s.leg.arg))) ∧
    (on 0x23 → exec .rdsRead s = .next (sends 0x0505 t (fit (rdsGetSpec.len []) s.leg.arg))) ∧
    (on 0x24 → exec .ensembleRead s = .next (sends 0x0602 t [])) ∧
    (on 0x30 → exec .serviceListRead s = .next (sends 0x0603 t (fit (serviceListGetSpec.len []) s.leg.arg))) ∧
    (on 0x31 → exec .servicePlay s = .next (sends 0x0604 t (fit 12 s.leg.arg))) ∧
    (on 0x32 → exec .serviceHalt s = .next (sends 0x0605 t (fit (serviceStopSpec.len []) s.leg.arg))) ∧
    (s.hcfg.legEn = true → s.leg.start = true → s.leg.cmd ∉ legacyCodes →
      exec .g1UndefinedCode s = .next (fails stBadOpcode))

/-- A step carries out the command at the front of the queue with the queue's rest, and an empty queue idles. The model's
choices that it rests on: log entry 3. -/
def Obligations.StepRunsFrontCommand : Prop :=
  (∀ (c : Instr) (q : List Instr) (s : State), step (s.setPending (c :: q)) = exec c (s.setPending q)) ∧
  ∀ s : State, s.pending = [] → step s = .next s

/-- What reset leaves, where the spec gives it: no ring or window (R66), no command in flight, every Meridian slot empty
(R349), the exciter off, Firn off, nothing locked out by Polaris, the time unset and not valid (R337), an empty mailbox,
violation log and event queue, and no unit beyond its defaults. That the part is the AGU7480, that host memory reads 0, and
that the queue of commands is empty are the model's choices (log entries 1, 2 and 3). -/
def Obligations.ResetStateIsAsStated : Prop :=
  let r := State.reset
  r.rings = [] ∧ r.wins = [] ∧ r.cmds.list = [] ∧ r.merid.slots = [] ∧ r.tx.st = .off ∧ r.firn.st = .off ∧
    r.pol.safe = false ∧ r.pol.halted = false ∧ r.sid.running = false ∧ r.sid.valid = false ∧ r.sid.isSet = false ∧
    r.mbx.queue = [] ∧ r.mbx.owner = 0 ∧ r.mbx.submit = none ∧ r.vlog.any = false ∧ r.vlog.fill = 0 ∧
    r.ev.windows = [] ∧ r.ev.urgent = [] ∧ r.pending = [] ∧ r.host = [] ∧ r.part = .agu7480

/-- R45. A packet that fails step 1 on a command ring: its tag completes with `ST_BAD_LENGTH`, violation kind 0x06 is
logged, and the ring is HALTED; every further packet of it is left unread, by a command's row and by the tick, until
`RING_RESET` sets it running. -/
def Obligations.MalformedPacketHaltsItsRing : Prop :=
  ∀ (i : Instr) (sp : CmdSpec) (a : Args) (s : State) (n : Nat) (r : Machine.Ring),
    hostCommand i = some (sp, a) → a.origin = .ring n → mget s.rings n = some r → channelOpen s (.ring n) = true →
    badLen (.ring n) a.payload.length = true →
    ∃ u t, exec i s = .next t ∧ u = putRing (violate s 0x06 a.addr.toNat 3 n) n { r with halted := true } ∧
      t = postCpl u (.ring n) a.tag.toNat a.flags.toNat stBadLength 0 [] s.sid.now false ∧
      mget t.vlog.entries t.vlog.newest = some
        { addr := a.addr.toNat, time := BitVec.ofNat 64 (cplTime s s.sid.now), kind := 0x06, link := 3, info := n } ∧
      (∀ j sp' (b : Args), hostCommand j = some (sp', b) → b.origin = .ring n → exec j t = .next t) ∧
      (∀ look, takeRing look t n = none) ∧
      ∀ (b : Args) (v : State), ready ringResetSpec b v = true → byteAt b.payload 0 = n →
        mget v.rings n = some { r with halted := true } →
        ∃ w, exec (.ringReset b) v = .next w ∧ ∃ x, mget w.rings n = some x ∧ x.halted = false

/-- Steps 1 and 2 and the gate of a channel (R44–R47, R54, R56, R61, Table 2-5): with 1024 commands in flight, 32 of the
mailbox, a halted ring or one being destroyed, a completion ring that holds entries back, halted cores, without power, or
before Sidereal runs, a row takes no packet; a packet whose tag is in flight on its channel is refused with violation kind
0x05, its command there untouched; a mailbox packet longer than 112 payload bytes is malformed. The model's choices that it
rests on: log entry 16. -/
def Obligations.ChannelsAndTagsGateTaking : Prop :=
  ∀ (i : Instr) (sp : CmdSpec) (a : Args) (s : State), hostCommand i = some (sp, a) →
    (1024 ≤ flightCount s → exec i s = .next s) ∧
    (a.origin = .mailbox → 32 ≤ mbxCount s → exec i s = .next s) ∧
    (s.pwr.state = .off ∨ s.pwr.state = .permafrost → exec i s = .next s) ∧
    (s.pol.halted = true → exec i s = .next s) ∧
    (s.sid.running = false → exec i s = .next s) ∧
    (∀ n, a.origin = .ring n → mget s.rings n = none → exec i s = .next s) ∧
    (∀ n r, a.origin = .ring n → mget s.rings n = some r → r.halted = true → exec i s = .next s) ∧
    (∀ n r d, a.origin = .ring n → mget s.rings n = some r → r.destroying = some d → exec i s = .next s) ∧
    (∀ n r q, a.origin = .ring n → mget s.rings n = some r → mget s.rings r.cplRing = some q → q.heldCpl ≠ [] →
      exec i s = .next s) ∧
    (channelOpen s a.origin = true → badLen a.origin a.payload.length = false →
      (byTag s a.origin a.tag.toNat).isSome = true →
      ∃ t, exec i s = .next t ∧ t.cmds = s.cmds ∧ t.vlog.newest = vlogNext s ∧
        t = postCpl (violate s 0x05 (originAddr (cmdOf sp a)) (originLink s a.origin) (originInfo a.origin)) a.origin
          a.tag.toNat a.flags.toNat stViolation (0x0500 + vlogNext s) [] s.sid.now false) ∧
    (channelOpen s .mailbox = true → a.origin = .mailbox → 112 < a.payload.length →
      ∃ t, exec i s = .next t ∧ t.cmds = s.cmds ∧
        t = postCpl (violate s 0x06 0x0100 s.mbx.owner.toNat 0x80) .mailbox a.tag.toNat a.flags.toNat stBadLength 0 []
          s.sid.now false)

/-- Every host command that is ready ends as its owning island judges it (R22, R23, R42, R44): refused, and then no unit has
changed; done, with its completion; awaiting the report of its outcome; or under way. The model's choices that it rests on:
log entry 12. -/
def Obligations.ReadyCommandEndsAsItsUnitJudges : Prop :=
  ∀ (i : Instr) (sp : CmdSpec) (a : Args) (s : State), hostCommand i = some (sp, a) → ready sp a s = true →
    (∀ st d, sp.unit (cmdOf sp a) (taken sp a s) = .deny st d →
      exec i s = .next (complete (taken sp a s) (flightOf sp a s) st d [] s.sid.now s.ev.nextId)) ∧
    (∀ st d, noneDestroying s = true → sp.unit (cmdOf sp a) (taken sp a s) = .deny st d →
      ∃ t, exec i s = .next t ∧ t.pending = s.pending ∧ t.sid = s.sid ∧ t.wins = s.wins ∧ t.vlog = s.vlog ∧
        t.hcfg = s.hcfg ∧ t.eth = s.eth ∧ t.clk = s.clk ∧ t.merid = s.merid ∧ t.pol = s.pol ∧ t.pwr = s.pwr ∧
        t.therm = s.therm ∧ t.fw = s.fw ∧ t.panel = s.panel ∧ t.rf = s.rf ∧ t.aur = s.aur ∧ t.zones = s.zones ∧
        t.lanes = s.lanes ∧ t.tx = s.tx ∧ t.mon = s.mon ∧ t.reg = s.reg ∧ t.demods = s.demods ∧ t.flurry = s.flurry ∧
        t.afs = s.afs ∧ t.ofdms = s.ofdms ∧ t.services = s.services ∧ t.surveys = s.surveys ∧ t.links = s.links ∧
        t.paths = s.paths ∧ t.groups = s.groups ∧ t.saps = s.saps ∧ t.part = s.part) ∧
    (∀ st d b q, sp.unit (cmdOf sp a) (taken sp a s) = .done st d b q → exec i s = .next (answer sp a s st d b q)) ∧
    (∀ st d b q, sp.unit (cmdOf sp a) (taken sp a s) = .later st d b q → exec i s = .next (await sp a s st d b q)) ∧
    (∀ q, sp.unit (cmdOf sp a) (taken sp a s) = .busy q → exec i s = .next (begins sp a s q)) ∧
    (∀ q, sp.unit (cmdOf sp a) (taken sp a s) = .busy q → q.rings.all (fun e => e.2.destroying.isNone) = true →
      exec i s = .next (underway sp a s q))

/-- The order of a `TARGET` (R30, R31, Table 2-6): a command behind an earlier one to its `TARGET` from its channel enters
flight Held and nothing else of it happens; one whose `TARGET` saw a completion at this tick waits for the next; with
`UNORDERED` it is neither. The model's choices that it rests on: log entries 10, 11. -/
def Obligations.CommandBehindItsTargetIsHeld : Prop :=
  ∀ (i : Instr) (sp : CmdSpec) (a : Args) (s : State), hostCommand i = some (sp, a) → channelOpen s a.origin = true →
    badLen a.origin a.payload.length = false → byTag s a.origin a.tag.toNat = none → a.whn = 0 →
    (blocked (enter (cmdOf sp a) s).2 (cmdOf sp a) s.cmds.nextSeq = true →
      exec i s = .next (putFlight (enter (cmdOf sp a) s).2 { flightOf sp a s with phase := .held })) ∧
    (∀ k, blocked (enter (cmdOf sp a) s).2 (cmdOf sp a) s.cmds.nextSeq = false → servedNow s (cmdOf sp a) = some k →
      exec i s =
        .next (putFlight (enter (cmdOf sp a) s).2 { flightOf sp a s with phase := .held, freed := some k })) ∧
    ((cmdOf sp a).unordered = true →
      blocked (enter (cmdOf sp a) s).2 (cmdOf sp a) s.cmds.nextSeq = false ∧ servedNow s (cmdOf sp a) = none)

/-- Thaw (R65): `IDENTIFY` and `GET_STATUS` are executed whatever their `WHEN`; every other command completes with
`ST_BRINGUP_BUSY`; and the `TIME` of a completion is 0. The model's choices that it rests on: log entry 161. -/
def Obligations.ThawServesTwoCommands : Prop :=
  ∀ (s : State), s.pwr.state = .thaw → noneDestroying s = true →
    (∀ t, cplTime s t = 0) ∧
    (∀ (i : Instr) (sp : CmdSpec) (a : Args), hostCommand i = some (sp, a) → sp.op ≠ 0x0001 → sp.op ≠ 0x0002 →
      a.origin = .mailbox → channelOpen s .mailbox = true → badLen .mailbox a.payload.length = false →
      byTag s .mailbox a.tag.toNat = none → s.cmds.list = [] → s.cmds.served = [] →
      Inv s →
      ∃ t, exec i s = .next t ∧ t.mbx.queue = s.mbx.queue ++
        [⟨false, false, cplBytes a.tag.toNat a.flags.toNat stBringupBusy 0 0 []⟩] ∧ t.cmds.list = []) ∧
    (∀ a : Args, a.origin = .mailbox → channelOpen s .mailbox = true → a.payload = [] → a.target = 0 → a.flags = 0 →
      byTag s .mailbox a.tag.toNat = none → s.cmds.list = [] → s.cmds.served = [] →
      Inv s →
      ∃ t, exec (.identify a) s = .next t ∧ t.mbx.queue = s.mbx.queue ++
        [⟨false, false, cplBytes a.tag.toNat 0 stOk 0 0 (identifyResult s)⟩])

/-- A command with a non-zero `WHEN` (R349, R353): two ticks ahead or more, it takes the lowest free slot and waits there;
past, without `LATE_OK`, it is refused with its lateness; with no slot free it completes with `ST_NO_RESOURCE`. -/
def Obligations.FutureCommandTakesASlot : Prop :=
  ∀ (i : Instr) (sp : CmdSpec) (a : Args) (s : State), hostCommand i = some (sp, a) → readyAt sp a s = true →
    sp.op ≠ 0x0A10 →
    let w := sidOf s.sid.now a.whn
    (∀ k, s.sid.now + 2 * tickU ≤ w → freeSlot s = some k →
      exec i s = .next ((putFlight (taken sp a s) { flightOf sp a s with phase := .waiting, due := w }).setMerid
        { s.merid with
          nextSeq := s.merid.nextSeq + 1
          slots := mput s.merid.slots k
            { sched := false, cmd := cmdOf sp a, seq := s.merid.nextSeq, nominal := w, due := w, period := 0, firings := 1,
              passed := 0, fired := 0, skipped := 0, late := false, sample := sp.sample } })) ∧
    (w < s.sid.now → (cmdOf sp a).lateOk = false →
      exec i s = .next (complete (taken sp a s) (flightOf sp a s) stLate (lateness s.sid.now w) [] s.sid.now s.ev.nextId)) ∧
    (s.sid.now ≤ w → freeSlot s = none →
      exec i s = .next (complete (taken sp a s) (flightOf sp a s) stNoResource 0 [] s.sid.now s.ev.nextId))

/-- Where a completion goes (R41, R42, R53, R66, Table 2-10), shown for a command that its owning island refuses. From the
mailbox it stands behind the queued entries and host memory is unchanged. From a ring it stands in the paired completion
ring at its producer count, which moves past it and past a pad where it did not fit; the command's `INFLIGHT` bit, the
entry, the pad and the ring's status block are the only bytes of host memory that change, and the entry is what is read
there. The model's choices that it rests on: log entries 2, 12. -/
def Obligations.CompletionsGoToTheirChannel : Prop :=
  ∀ (i : Instr) (sp : CmdSpec) (a : Args) (s : State) (st d : Nat), hostCommand i = some (sp, a) → ready sp a s = true →
    noneDestroying s = true → Inv s → sp.unit (cmdOf sp a) (taken sp a s) = .deny st d →
    let b := cplBytes a.tag.toNat a.flags.toNat st d (cplTime s s.sid.now) []
    (a.origin = .mailbox →
      ∃ t, exec i s = .next t ∧ t.mbx.queue = s.mbx.queue ++ [⟨false, false, b⟩] ∧ t.host = s.host ∧ t.rings = s.rings) ∧
    (∀ n r q k, a.origin = .ring n → mget s.rings n = some r → mget s.rings r.cplRing = some q → s.pcie.d3 = false →
      q.size = 2 ^ k → k ≤ 32 → occupancy q + padOf q 16 + 16 ≤ q.size →
      ∃ t, exec i s = .next t ∧ (∃ x, mget t.rings r.cplRing = some x ∧ x.prod = (q.prod + padOf q 16 + 16) % 2 ^ 32) ∧
        (∀ x, x ≠ inflightByte r a.tag.toNat → outside x (entryAt q 16) 16 → outside x q.statusAddr 16 →
          (padOf q 16 ≠ 0 → outside x (q.base + q.prod % q.size) 16) → memRead t.host x = memRead s.host x) ∧
        ((∀ k, k < 16 → outside (entryAt q 16 + k) q.statusAddr 16) → outside (inflightByte r a.tag.toNat) (entryAt q 16) 16 →
          memBytes t.host (entryAt q 16) 16 = b))

/-- Events and violations (R24, R25, R34, R64). A second occurrence with the same code, source and detail in an open window
is counted in its event and opens none; any other opens its own; an urgent code always stands for itself; each takes the next
number; and a violation takes the log's next place, the 17th that of the first. -/
def Obligations.EventsAndViolationsAreKept : Prop :=
  ∀ (s : State) (c u d : Nat),
    let same (w : EvWindow) : Prop := w.code = c ∧ w.source = u ∧ w.edetail = d ∧ w.single = false ∧ 0 < w.left
    (raise s c u d).ev.nextId = s.ev.nextId + 1 ∧
    (∀ w ∈ s.ev.windows, same w → isUrgent c = false →
      (raise s c u d).ev.windows.length = s.ev.windows.length ∧
        { w with count := w.count + 1, last := s.ev.nextId } ∈ (raise s c u d).ev.windows) ∧
    (isUrgent c = false → (∀ w ∈ s.ev.windows, ¬same w) →
      (raise s c u d).ev.windows = s.ev.windows ++
        [{ code := c, source := u, edetail := d, time := s.sid.now, count := 1, left := evTicks s c, id := s.ev.nextId,
           last := s.ev.nextId, single := false }]) ∧
    (isUrgent c = true → (raise s c u d).ev.windows = s.ev.windows ∧
      (raise s c u d).ev.urgent.length = s.ev.urgent.length + 1) ∧
    (∀ (ks : List (Nat × Nat × Nat × Nat)),
      let v (s : State) (k : Nat × Nat × Nat × Nat) := violate s k.1 k.2.1 k.2.2.1 k.2.2.2
      s.vlog.any = true → s.vlog.newest < 16 → s.vlog.fill ≤ 16 →
        (ks.foldl v s).vlog.newest = (s.vlog.newest + ks.length) % 16 ∧
        (ks.foldl v s).vlog.fill = min 16 (s.vlog.fill + ks.length)) ∧
    (∀ k a l i, mget (violate s k a l i).vlog.entries (vlogNext s) =
      some ⟨a, BitVec.ofNat 64 (cplTime s s.sid.now), k, l, i⟩)

/-- Packets are read as they are written (R38, Table 2-1): the bytes of any command, whatever its opcode, tag, flags,
`TARGET`, `WHEN` and payload of up to 65535 bytes, are read back from its channel as that command. -/
def Obligations.PacketsReadBack : Prop :=
  ∀ (c : Cmd), c.op < 2 ^ 16 → c.a.payload.length < 2 ^ 16 →
    packetCmd c.a.origin c.a.addr.toNat (packetBytes c) = c ∧ (packetBytes c).length = 16 + c.a.payload.length

/-- Frames. Every row of the table answers a next state, whatever the state and the operands, and changes at most the units that `mayChange` lists for it: every other unit of the state, the queue and
the part among them, is as it was. So a step takes the front of the queue and keeps the part. -/
def Obligations.EachCommandChangesOnlyItsUnits : Prop :=
  (∀ (i : Instr) (s : State), ∃ t, exec i s = .next t ∧ onlyChanges (mayChange i) s t) ∧
  ∀ (s t : State), step s = .next t → t.pending = s.pending.tail ∧ t.part = s.part

/-- Every step keeps `Inv`, from every state that has it. -/
def Obligations.EveryStepKeepsInv : Prop :=
  ∀ (s t : State), Inv s → step s = .next t → Inv t

/-- The state after reset has `Inv`. -/
def Obligations.ResetHasInv : Prop := Inv State.reset

/-- R321. `REG_LOCK` is accepted only with the generation in force, and completes with `ST_BAD_PARAM` otherwise and with
`ST_BAD_STATE` while a commit is running. Once the table is locked, `REG_LOAD` and `REG_COMMIT` complete with
`ST_BAD_STATE` and the capability record of the exciter reports it; and the lock is permanent: no step, a reset included,
unlocks the table or changes a copy of it. -/
def Obligations.LockOfTheTableIsPermanent : Prop :=
  (∀ (a : Args) (s : State),
    (ready regLockSpec a s = true → s.reg.commit = false → le a.payload 0 4 = s.reg.gen →
      exec (.regLock a) s =
        .next (answer regLockSpec a s stOk 0 [] ((taken regLockSpec a s).setReg { s.reg with locked := true }))) ∧
    (ready regLockSpec a s = true → s.reg.commit = false → le a.payload 0 4 ≠ s.reg.gen →
      exec (.regLock a) s = .next (answer regLockSpec a s stBadParam 16 [] (taken regLockSpec a s))) ∧
    (ready regLockSpec a s = true → s.reg.commit = true →
      exec (.regLock a) s = .next (answer regLockSpec a s stBadState 0 [] (taken regLockSpec a s))) ∧
    (ready regLoadSpec a s = true → s.reg.locked = true →
      exec (.regLoad a) s = .next (answer regLoadSpec a s stBadState 0 [] (taken regLoadSpec a s))) ∧
    (ready regCommitSpec a s = true → s.reg.locked = true →
      exec (.regCommit a) s = .next (answer regCommitSpec a s stBadState 0 [] (taken regCommitSpec a s))) ∧
    (s.reg.locked = true → 0 < instances s.part 0x09 → byteAt (capRecord s 0x09) 10 = 1)) ∧
  ∀ (s t : State), Inv s → step s = .next t → s.reg.locked = true → t.reg.locked = true ∧ t.reg.slots = s.reg.slots

/-- R68. A unit ID that the part does not know: `GET_CAPS` completes with `ST_OK` and a record with `UNIT_ID` set and all
other bytes zero. -/
def Obligations.UnknownUnitHasAnEmptyRecord : Prop :=
  ∀ (a : Args) (s : State), ready getCapsSpec a s = true → 0x11 < byteAt a.payload 0 →
    exec (.getCaps a) s = .next (answer getCapsSpec a s stOk 0 (BitVec.ofNat 8 (byteAt a.payload 0) :: zeros 63)
      (taken getCapsSpec a s))
end

