-- ==== Sys2Proof/Laws/Memory.lean ====
section
/-! SUPPORT. Laws/Memory.lean: host memory keeps its canonical form under every write, and a byte reads as it was last
written; the sparse tables read back what was put into them. -/

namespace Sys2Proof.Machine

/-! ## Sparse tables -/

@[simp] theorem mget_mput_self {α : Type} (m : List (Nat × α)) (k : Nat) (v : α) : mget (mput m k v) k = some v := by
  induction m with
  | nil => simp [mput, mget]
  | cons e m ih =>
    obtain ⟨j, w⟩ := e
    simp only [mput]
    split
    · simp [mget]
    · split
      · simp [mget]
      · rename_i h1 h2
        simp only [mget]
        rw [if_neg (by omega), ih]

theorem mget_mput_of_ne {α : Type} {m : List (Nat × α)} {k j : Nat} {v : α} (h : j ≠ k) :
    mget (mput m k v) j = mget m j := by
  induction m with
  | nil =>
    simp only [mput, mget]
    rw [if_neg (by omega)]
  | cons e m ih =>
    obtain ⟨i, w⟩ := e
    simp only [mput]
    split
    · simp only [mget]
      rw [if_neg (by omega)]
    · split
      · rename_i h1 h2
        simp only [mget]
        rw [if_neg (by omega), if_neg (by omega)]
      · simp only [mget, ih]

/-! ## The canonical form -/

/-- In canonical form every entry is above the first address. -/
theorem Memory.wf_cons {c : Host.Cell} {m : List Host.Cell} :
    Memory.wf (c :: m) = true ↔ c.2 ≠ 0 ∧ (∀ d ∈ m.head?, c.1 < d.1) ∧ Memory.wf m = true := by
  cases m with
  | nil => simp [Memory.wf]
  | cons d m => simp [Memory.wf, and_assoc]

/-- A write puts nothing before the smaller of the first address and its own. -/
theorem memWrite_head {m : List Host.Cell} {a b : Nat} {v : Byte} (hb : b < a) (h : ∀ d ∈ m.head?, b < d.1)
    (hw : Memory.wf m = true) : ∀ d ∈ (memWrite m a v).head?, b < d.1 := by
  cases m with
  | nil =>
    simp only [memWrite]
    split <;> simp [hb]
  | cons c m =>
    simp only [List.head?_cons, Option.mem_some_iff] at h
    have hc := h c rfl
    simp only [memWrite]
    split
    · split <;> simp [hb, hc]
    · split
      · split
        · intro d hd
          have := (Memory.wf_cons.1 hw).2.1 d hd
          omega
        · simp [hb]
      · simp [hc]

/-- A write keeps the canonical form. -/
theorem memWrite_wf {m : List Host.Cell} {a : Nat} {v : Byte} (h : Memory.wf m = true) :
    Memory.wf (memWrite m a v) = true := by
  induction m with
  | nil =>
    simp only [memWrite]
    split
    · rfl
    · exact Memory.wf_cons.2 ⟨by assumption, by simp, rfl⟩
  | cons c m ih =>
    obtain ⟨h1, h2, h3⟩ := Memory.wf_cons.1 h
    simp only [memWrite]
    split
    · split
      · exact h
      · rename_i hv
        exact Memory.wf_cons.2 ⟨hv, by simpa using by assumption, h⟩
    · split
      · split
        · exact h3
        · rename_i he hv
          refine Memory.wf_cons.2 ⟨hv, fun d hd => ?_, h3⟩
          have := h2 d hd
          show a < d.1
          omega
      · rename_i h4 h5
        refine Memory.wf_cons.2 ⟨h1, memWrite_head (by omega) h2 h3, ih h3⟩

theorem memStore_wf {m : List Host.Cell} {a : Nat} {b : Bytes} (h : Memory.wf m = true) :
    Memory.wf (memStore m a b) = true := by
  induction b generalizing m a with
  | nil => exact h
  | cons v b ih => exact ih (memWrite_wf h)

theorem memCells_wf {m cs : List Host.Cell} (h : Memory.wf m = true) : Memory.wf (memCells m cs) = true := by
  induction cs generalizing m with
  | nil => exact h
  | cons c cs ih => exact ih (memWrite_wf h)

/-! ## Reading -/

/-- Nothing is listed below the first address, so such an address reads 0. -/
theorem memRead_below {m : List Host.Cell} {a : Nat} (hw : Memory.wf m = true) (h : ∀ d ∈ m.head?, a < d.1) :
    memRead m a = 0 := by
  induction m with
  | nil => rfl
  | cons c m ih =>
    obtain ⟨-, h2, h3⟩ := Memory.wf_cons.1 hw
    have hc := h c (by simp)
    simp only [memRead]
    rw [if_neg (by omega)]
    exact ih h3 fun d hd => Nat.lt_trans hc (h2 d hd)

/-- A byte reads as it was written. -/
theorem memRead_memWrite_self {m : List Host.Cell} {a : Nat} {v : Byte} (h : Memory.wf m = true) :
    memRead (memWrite m a v) a = v := by
  induction m with
  | nil =>
    simp only [memWrite]
    split <;> simp [memRead, *]
  | cons c m ih =>
    obtain ⟨-, h2, h3⟩ := Memory.wf_cons.1 h
    simp only [memWrite]
    split
    · rename_i hl
      split
      · rename_i hv
        rw [memRead_below h (by simpa using hl), hv]
      · simp [memRead]
    · split
      · rename_i he
        split
        · rename_i hv
          rw [memRead_below h3 (by rw [he]; exact h2), hv]
        · simp [memRead]
      · rename_i h4 h5
        simp only [memRead]
        rw [if_neg (by omega), ih h3]

/-- Other bytes read as before. -/
theorem memRead_memWrite_of_ne {m : List Host.Cell} {a b : Nat} {v : Byte} (hb : b ≠ a) :
    memRead (memWrite m a v) b = memRead m b := by
  induction m with
  | nil =>
    simp only [memWrite]
    split
    · rfl
    · simp only [memRead]
      rw [if_neg (by omega)]
  | cons c m ih =>
    simp only [memWrite]
    split
    · split
      · rfl
      · simp only [memRead]
        rw [if_neg (by omega)]
    · split
      · rename_i he
        split
        · simp only [memRead]
          rw [if_neg (by omega)]
        · simp only [memRead]
          rw [if_neg (by omega), if_neg (by omega)]
      · simp only [memRead, ih]

/-- Bytes outside those stored read as before. -/
theorem memRead_memStore_of_outside {m : List Host.Cell} {a x : Nat} {b : Bytes} (h : x < a ∨ a + b.length ≤ x) :
    memRead (memStore m a b) x = memRead m x := by
  induction b generalizing m a with
  | nil => rfl
  | cons v b ih =>
    simp only [List.length_cons] at h
    rw [memStore, ih (by omega), memRead_memWrite_of_ne (by omega)]

/-- Stored bytes read back. -/
theorem memBytes_memStore {m : List Host.Cell} {a : Nat} {b : Bytes} (h : Memory.wf m = true) :
    memBytes (memStore m a b) a b.length = b := by
  induction b generalizing m a with
  | nil => rfl
  | cons v b ih =>
    simp only [memStore, List.length_cons, memBytes]
    rw [memRead_memStore_of_outside (by omega), memRead_memWrite_self h, ih (memWrite_wf h)]

end Sys2Proof.Machine
end

