-- ==== Sys2Proof/Laws/State.lean ====
section
/-! SUPPORT. Laws/State.lean: what each update of one unit of the state reads as, unit by unit. -/

namespace Sys2Proof.Machine

@[simp] theorem State.setPending_self (s : State) (v : List Instr) : (s.setPending v).pending = v := rfl

@[simp] theorem State.setPending_frame (s : State) (v : List Instr) :
    (s.setPending v).sid = s.sid ∧ (s.setPending v).cmds = s.cmds ∧ (s.setPending v).rings = s.rings ∧
    (s.setPending v).wins = s.wins ∧ (s.setPending v).mbx = s.mbx ∧ (s.setPending v).ev = s.ev ∧
    (s.setPending v).vlog = s.vlog ∧ (s.setPending v).i2c = s.i2c ∧ (s.setPending v).hcfg = s.hcfg ∧
    (s.setPending v).leg = s.leg ∧ (s.setPending v).pcie = s.pcie ∧ (s.setPending v).eth = s.eth ∧
    (s.setPending v).clk = s.clk ∧ (s.setPending v).merid = s.merid ∧ (s.setPending v).pol = s.pol ∧
    (s.setPending v).pwr = s.pwr ∧ (s.setPending v).therm = s.therm ∧ (s.setPending v).fw = s.fw ∧
    (s.setPending v).panel = s.panel ∧ (s.setPending v).host = s.host ∧ (s.setPending v).free = s.free ∧
    (s.setPending v).rf = s.rf ∧ (s.setPending v).aur = s.aur ∧ (s.setPending v).zones = s.zones ∧
    (s.setPending v).lanes = s.lanes ∧ (s.setPending v).tx = s.tx ∧ (s.setPending v).mon = s.mon ∧
    (s.setPending v).reg = s.reg ∧ (s.setPending v).demods = s.demods ∧ (s.setPending v).flurry = s.flurry ∧
    (s.setPending v).afs = s.afs ∧ (s.setPending v).ofdms = s.ofdms ∧ (s.setPending v).services = s.services ∧
    (s.setPending v).surveys = s.surveys ∧ (s.setPending v).links = s.links ∧ (s.setPending v).paths = s.paths ∧
    (s.setPending v).groups = s.groups ∧ (s.setPending v).saps = s.saps ∧ (s.setPending v).firn = s.firn ∧
    (s.setPending v).part = s.part :=
  ⟨rfl, rfl, rfl, rfl, rfl, rfl, rfl, rfl, rfl, rfl, rfl, rfl, rfl, rfl, rfl, rfl, rfl, rfl, rfl, rfl, rfl, rfl, rfl, rfl, rfl, rfl, rfl, rfl, rfl, rfl, rfl, rfl, rfl, rfl, rfl, rfl, rfl, rfl, rfl, rfl⟩

@[simp] theorem State.setPending_again (s : State) (v w : List Instr) : (s.setPending v).setPending w = s.setPending w := rfl

@[simp] theorem State.setPending_same (s : State) : s.setPending s.pending = s := rfl

@[simp] theorem State.setSid_self (s : State) (v : Sidereal) : (s.setSid v).sid = v := rfl

@[simp] theorem State.setSid_frame (s : State) (v : Sidereal) :
    (s.setSid v).pending = s.pending ∧ (s.setSid v).cmds = s.cmds ∧ (s.setSid v).rings = s.rings ∧
    (s.setSid v).wins = s.wins ∧ (s.setSid v).mbx = s.mbx ∧ (s.setSid v).ev = s.ev ∧ (s.setSid v).vlog = s.vlog ∧
    (s.setSid v).i2c = s.i2c ∧ (s.setSid v).hcfg = s.hcfg ∧ (s.setSid v).leg = s.leg ∧ (s.setSid v).pcie = s.pcie ∧
    (s.setSid v).eth = s.eth ∧ (s.setSid v).clk = s.clk ∧ (s.setSid v).merid = s.merid ∧ (s.setSid v).pol = s.pol ∧
    (s.setSid v).pwr = s.pwr ∧ (s.setSid v).therm = s.therm ∧ (s.setSid v).fw = s.fw ∧
    (s.setSid v).panel = s.panel ∧ (s.setSid v).host = s.host ∧ (s.setSid v).free = s.free ∧
    (s.setSid v).rf = s.rf ∧ (s.setSid v).aur = s.aur ∧ (s.setSid v).zones = s.zones ∧
    (s.setSid v).lanes = s.lanes ∧ (s.setSid v).tx = s.tx ∧ (s.setSid v).mon = s.mon ∧ (s.setSid v).reg = s.reg ∧
    (s.setSid v).demods = s.demods ∧ (s.setSid v).flurry = s.flurry ∧ (s.setSid v).afs = s.afs ∧
    (s.setSid v).ofdms = s.ofdms ∧ (s.setSid v).services = s.services ∧ (s.setSid v).surveys = s.surveys ∧
    (s.setSid v).links = s.links ∧ (s.setSid v).paths = s.paths ∧ (s.setSid v).groups = s.groups ∧
    (s.setSid v).saps = s.saps ∧ (s.setSid v).firn = s.firn ∧ (s.setSid v).part = s.part :=
  ⟨rfl, rfl, rfl, rfl, rfl, rfl, rfl, rfl, rfl, rfl, rfl, rfl, rfl, rfl, rfl, rfl, rfl, rfl, rfl, rfl, rfl, rfl, rfl, rfl, rfl, rfl, rfl, rfl, rfl, rfl, rfl, rfl, rfl, rfl, rfl, rfl, rfl, rfl, rfl, rfl⟩

@[simp] theorem State.setSid_again (s : State) (v w : Sidereal) : (s.setSid v).setSid w = s.setSid w := rfl

@[simp] theorem State.setSid_same (s : State) : s.setSid s.sid = s := rfl

@[simp] theorem State.setCmds_self (s : State) (v : Commands) : (s.setCmds v).cmds = v := rfl

@[simp] theorem State.setCmds_frame (s : State) (v : Commands) :
    (s.setCmds v).pending = s.pending ∧ (s.setCmds v).sid = s.sid ∧ (s.setCmds v).rings = s.rings ∧
    (s.setCmds v).wins = s.wins ∧ (s.setCmds v).mbx = s.mbx ∧ (s.setCmds v).ev = s.ev ∧
    (s.setCmds v).vlog = s.vlog ∧ (s.setCmds v).i2c = s.i2c ∧ (s.setCmds v).hcfg = s.hcfg ∧
    (s.setCmds v).leg = s.leg ∧ (s.setCmds v).pcie = s.pcie ∧ (s.setCmds v).eth = s.eth ∧
    (s.setCmds v).clk = s.clk ∧ (s.setCmds v).merid = s.merid ∧ (s.setCmds v).pol = s.pol ∧
    (s.setCmds v).pwr = s.pwr ∧ (s.setCmds v).therm = s.therm ∧ (s.setCmds v).fw = s.fw ∧
    (s.setCmds v).panel = s.panel ∧ (s.setCmds v).host = s.host ∧ (s.setCmds v).free = s.free ∧
    (s.setCmds v).rf = s.rf ∧ (s.setCmds v).aur = s.aur ∧ (s.setCmds v).zones = s.zones ∧
    (s.setCmds v).lanes = s.lanes ∧ (s.setCmds v).tx = s.tx ∧ (s.setCmds v).mon = s.mon ∧
    (s.setCmds v).reg = s.reg ∧ (s.setCmds v).demods = s.demods ∧ (s.setCmds v).flurry = s.flurry ∧
    (s.setCmds v).afs = s.afs ∧ (s.setCmds v).ofdms = s.ofdms ∧ (s.setCmds v).services = s.services ∧
    (s.setCmds v).surveys = s.surveys ∧ (s.setCmds v).links = s.links ∧ (s.setCmds v).paths = s.paths ∧
    (s.setCmds v).groups = s.groups ∧ (s.setCmds v).saps = s.saps ∧ (s.setCmds v).firn = s.firn ∧
    (s.setCmds v).part = s.part :=
  ⟨rfl, rfl, rfl, rfl, rfl, rfl, rfl, rfl, rfl, rfl, rfl, rfl, rfl, rfl, rfl, rfl, rfl, rfl, rfl, rfl, rfl, rfl, rfl, rfl, rfl, rfl, rfl, rfl, rfl, rfl, rfl, rfl, rfl, rfl, rfl, rfl, rfl, rfl, rfl, rfl⟩

@[simp] theorem State.setCmds_again (s : State) (v w : Commands) : (s.setCmds v).setCmds w = s.setCmds w := rfl

@[simp] theorem State.setCmds_same (s : State) : s.setCmds s.cmds = s := rfl

@[simp] theorem State.setRings_self (s : State) (v : List (Nat × Ring)) : (s.setRings v).rings = v := rfl

@[simp] theorem State.setRings_frame (s : State) (v : List (Nat × Ring)) :
    (s.setRings v).pending = s.pending ∧ (s.setRings v).sid = s.sid ∧ (s.setRings v).cmds = s.cmds ∧
    (s.setRings v).wins = s.wins ∧ (s.setRings v).mbx = s.mbx ∧ (s.setRings v).ev = s.ev ∧
    (s.setRings v).vlog = s.vlog ∧ (s.setRings v).i2c = s.i2c ∧ (s.setRings v).hcfg = s.hcfg ∧
    (s.setRings v).leg = s.leg ∧ (s.setRings v).pcie = s.pcie ∧ (s.setRings v).eth = s.eth ∧
    (s.setRings v).clk = s.clk ∧ (s.setRings v).merid = s.merid ∧ (s.setRings v).pol = s.pol ∧
    (s.setRings v).pwr = s.pwr ∧ (s.setRings v).therm = s.therm ∧ (s.setRings v).fw = s.fw ∧
    (s.setRings v).panel = s.panel ∧ (s.setRings v).host = s.host ∧ (s.setRings v).free = s.free ∧
    (s.setRings v).rf = s.rf ∧ (s.setRings v).aur = s.aur ∧ (s.setRings v).zones = s.zones ∧
    (s.setRings v).lanes = s.lanes ∧ (s.setRings v).tx = s.tx ∧ (s.setRings v).mon = s.mon ∧
    (s.setRings v).reg = s.reg ∧ (s.setRings v).demods = s.demods ∧ (s.setRings v).flurry = s.flurry ∧
    (s.setRings v).afs = s.afs ∧ (s.setRings v).ofdms = s.ofdms ∧ (s.setRings v).services = s.services ∧
    (s.setRings v).surveys = s.surveys ∧ (s.setRings v).links = s.links ∧ (s.setRings v).paths = s.paths ∧
    (s.setRings v).groups = s.groups ∧ (s.setRings v).saps = s.saps ∧ (s.setRings v).firn = s.firn ∧
    (s.setRings v).part = s.part :=
  ⟨rfl, rfl, rfl, rfl, rfl, rfl, rfl, rfl, rfl, rfl, rfl, rfl, rfl, rfl, rfl, rfl, rfl, rfl, rfl, rfl, rfl, rfl, rfl, rfl, rfl, rfl, rfl, rfl, rfl, rfl, rfl, rfl, rfl, rfl, rfl, rfl, rfl, rfl, rfl, rfl⟩

@[simp] theorem State.setRings_again (s : State) (v w : List (Nat × Ring)) : (s.setRings v).setRings w = s.setRings w := rfl

@[simp] theorem State.setRings_same (s : State) : s.setRings s.rings = s := rfl

@[simp] theorem State.setWins_self (s : State) (v : List (Nat × Window)) : (s.setWins v).wins = v := rfl

@[simp] theorem State.setWins_frame (s : State) (v : List (Nat × Window)) :
    (s.setWins v).pending = s.pending ∧ (s.setWins v).sid = s.sid ∧ (s.setWins v).cmds = s.cmds ∧
    (s.setWins v).rings = s.rings ∧ (s.setWins v).mbx = s.mbx ∧ (s.setWins v).ev = s.ev ∧
    (s.setWins v).vlog = s.vlog ∧ (s.setWins v).i2c = s.i2c ∧ (s.setWins v).hcfg = s.hcfg ∧
    (s.setWins v).leg = s.leg ∧ (s.setWins v).pcie = s.pcie ∧ (s.setWins v).eth = s.eth ∧
    (s.setWins v).clk = s.clk ∧ (s.setWins v).merid = s.merid ∧ (s.setWins v).pol = s.pol ∧
    (s.setWins v).pwr = s.pwr ∧ (s.setWins v).therm = s.therm ∧ (s.setWins v).fw = s.fw ∧
    (s.setWins v).panel = s.panel ∧ (s.setWins v).host = s.host ∧ (s.setWins v).free = s.free ∧
    (s.setWins v).rf = s.rf ∧ (s.setWins v).aur = s.aur ∧ (s.setWins v).zones = s.zones ∧
    (s.setWins v).lanes = s.lanes ∧ (s.setWins v).tx = s.tx ∧ (s.setWins v).mon = s.mon ∧
    (s.setWins v).reg = s.reg ∧ (s.setWins v).demods = s.demods ∧ (s.setWins v).flurry = s.flurry ∧
    (s.setWins v).afs = s.afs ∧ (s.setWins v).ofdms = s.ofdms ∧ (s.setWins v).services = s.services ∧
    (s.setWins v).surveys = s.surveys ∧ (s.setWins v).links = s.links ∧ (s.setWins v).paths = s.paths ∧
    (s.setWins v).groups = s.groups ∧ (s.setWins v).saps = s.saps ∧ (s.setWins v).firn = s.firn ∧
    (s.setWins v).part = s.part :=
  ⟨rfl, rfl, rfl, rfl, rfl, rfl, rfl, rfl, rfl, rfl, rfl, rfl, rfl, rfl, rfl, rfl, rfl, rfl, rfl, rfl, rfl, rfl, rfl, rfl, rfl, rfl, rfl, rfl, rfl, rfl, rfl, rfl, rfl, rfl, rfl, rfl, rfl, rfl, rfl, rfl⟩

@[simp] theorem State.setWins_again (s : State) (v w : List (Nat × Window)) : (s.setWins v).setWins w = s.setWins w := rfl

@[simp] theorem State.setWins_same (s : State) : s.setWins s.wins = s := rfl

@[simp] theorem State.setMbx_self (s : State) (v : Mailbox) : (s.setMbx v).mbx = v := rfl

@[simp] theorem State.setMbx_frame (s : State) (v : Mailbox) :
    (s.setMbx v).pending = s.pending ∧ (s.setMbx v).sid = s.sid ∧ (s.setMbx v).cmds = s.cmds ∧
    (s.setMbx v).rings = s.rings ∧ (s.setMbx v).wins = s.wins ∧ (s.setMbx v).ev = s.ev ∧
    (s.setMbx v).vlog = s.vlog ∧ (s.setMbx v).i2c = s.i2c ∧ (s.setMbx v).hcfg = s.hcfg ∧ (s.setMbx v).leg = s.leg ∧
    (s.setMbx v).pcie = s.pcie ∧ (s.setMbx v).eth = s.eth ∧ (s.setMbx v).clk = s.clk ∧
    (s.setMbx v).merid = s.merid ∧ (s.setMbx v).pol = s.pol ∧ (s.setMbx v).pwr = s.pwr ∧
    (s.setMbx v).therm = s.therm ∧ (s.setMbx v).fw = s.fw ∧ (s.setMbx v).panel = s.panel ∧
    (s.setMbx v).host = s.host ∧ (s.setMbx v).free = s.free ∧ (s.setMbx v).rf = s.rf ∧ (s.setMbx v).aur = s.aur ∧
    (s.setMbx v).zones = s.zones ∧ (s.setMbx v).lanes = s.lanes ∧ (s.setMbx v).tx = s.tx ∧
    (s.setMbx v).mon = s.mon ∧ (s.setMbx v).reg = s.reg ∧ (s.setMbx v).demods = s.demods ∧
    (s.setMbx v).flurry = s.flurry ∧ (s.setMbx v).afs = s.afs ∧ (s.setMbx v).ofdms = s.ofdms ∧
    (s.setMbx v).services = s.services ∧ (s.setMbx v).surveys = s.surveys ∧ (s.setMbx v).links = s.links ∧
    (s.setMbx v).paths = s.paths ∧ (s.setMbx v).groups = s.groups ∧ (s.setMbx v).saps = s.saps ∧
    (s.setMbx v).firn = s.firn ∧ (s.setMbx v).part = s.part :=
  ⟨rfl, rfl, rfl, rfl, rfl, rfl, rfl, rfl, rfl, rfl, rfl, rfl, rfl, rfl, rfl, rfl, rfl, rfl, rfl, rfl, rfl, rfl, rfl, rfl, rfl, rfl, rfl, rfl, rfl, rfl, rfl, rfl, rfl, rfl, rfl, rfl, rfl, rfl, rfl, rfl⟩

@[simp] theorem State.setMbx_again (s : State) (v w : Mailbox) : (s.setMbx v).setMbx w = s.setMbx w := rfl

@[simp] theorem State.setMbx_same (s : State) : s.setMbx s.mbx = s := rfl

@[simp] theorem State.setEv_self (s : State) (v : Events) : (s.setEv v).ev = v := rfl

@[simp] theorem State.setEv_frame (s : State) (v : Events) :
    (s.setEv v).pending = s.pending ∧ (s.setEv v).sid = s.sid ∧ (s.setEv v).cmds = s.cmds ∧
    (s.setEv v).rings = s.rings ∧ (s.setEv v).wins = s.wins ∧ (s.setEv v).mbx = s.mbx ∧ (s.setEv v).vlog = s.vlog ∧
    (s.setEv v).i2c = s.i2c ∧ (s.setEv v).hcfg = s.hcfg ∧ (s.setEv v).leg = s.leg ∧ (s.setEv v).pcie = s.pcie ∧
    (s.setEv v).eth = s.eth ∧ (s.setEv v).clk = s.clk ∧ (s.setEv v).merid = s.merid ∧ (s.setEv v).pol = s.pol ∧
    (s.setEv v).pwr = s.pwr ∧ (s.setEv v).therm = s.therm ∧ (s.setEv v).fw = s.fw ∧ (s.setEv v).panel = s.panel ∧
    (s.setEv v).host = s.host ∧ (s.setEv v).free = s.free ∧ (s.setEv v).rf = s.rf ∧ (s.setEv v).aur = s.aur ∧
    (s.setEv v).zones = s.zones ∧ (s.setEv v).lanes = s.lanes ∧ (s.setEv v).tx = s.tx ∧ (s.setEv v).mon = s.mon ∧
    (s.setEv v).reg = s.reg ∧ (s.setEv v).demods = s.demods ∧ (s.setEv v).flurry = s.flurry ∧
    (s.setEv v).afs = s.afs ∧ (s.setEv v).ofdms = s.ofdms ∧ (s.setEv v).services = s.services ∧
    (s.setEv v).surveys = s.surveys ∧ (s.setEv v).links = s.links ∧ (s.setEv v).paths = s.paths ∧
    (s.setEv v).groups = s.groups ∧ (s.setEv v).saps = s.saps ∧ (s.setEv v).firn = s.firn ∧
    (s.setEv v).part = s.part :=
  ⟨rfl, rfl, rfl, rfl, rfl, rfl, rfl, rfl, rfl, rfl, rfl, rfl, rfl, rfl, rfl, rfl, rfl, rfl, rfl, rfl, rfl, rfl, rfl, rfl, rfl, rfl, rfl, rfl, rfl, rfl, rfl, rfl, rfl, rfl, rfl, rfl, rfl, rfl, rfl, rfl⟩

@[simp] theorem State.setEv_again (s : State) (v w : Events) : (s.setEv v).setEv w = s.setEv w := rfl

@[simp] theorem State.setEv_same (s : State) : s.setEv s.ev = s := rfl

@[simp] theorem State.setVlog_self (s : State) (v : Vlog) : (s.setVlog v).vlog = v := rfl

@[simp] theorem State.setVlog_frame (s : State) (v : Vlog) :
    (s.setVlog v).pending = s.pending ∧ (s.setVlog v).sid = s.sid ∧ (s.setVlog v).cmds = s.cmds ∧
    (s.setVlog v).rings = s.rings ∧ (s.setVlog v).wins = s.wins ∧ (s.setVlog v).mbx = s.mbx ∧
    (s.setVlog v).ev = s.ev ∧ (s.setVlog v).i2c = s.i2c ∧ (s.setVlog v).hcfg = s.hcfg ∧ (s.setVlog v).leg = s.leg ∧
    (s.setVlog v).pcie = s.pcie ∧ (s.setVlog v).eth = s.eth ∧ (s.setVlog v).clk = s.clk ∧
    (s.setVlog v).merid = s.merid ∧ (s.setVlog v).pol = s.pol ∧ (s.setVlog v).pwr = s.pwr ∧
    (s.setVlog v).therm = s.therm ∧ (s.setVlog v).fw = s.fw ∧ (s.setVlog v).panel = s.panel ∧
    (s.setVlog v).host = s.host ∧ (s.setVlog v).free = s.free ∧ (s.setVlog v).rf = s.rf ∧
    (s.setVlog v).aur = s.aur ∧ (s.setVlog v).zones = s.zones ∧ (s.setVlog v).lanes = s.lanes ∧
    (s.setVlog v).tx = s.tx ∧ (s.setVlog v).mon = s.mon ∧ (s.setVlog v).reg = s.reg ∧
    (s.setVlog v).demods = s.demods ∧ (s.setVlog v).flurry = s.flurry ∧ (s.setVlog v).afs = s.afs ∧
    (s.setVlog v).ofdms = s.ofdms ∧ (s.setVlog v).services = s.services ∧ (s.setVlog v).surveys = s.surveys ∧
    (s.setVlog v).links = s.links ∧ (s.setVlog v).paths = s.paths ∧ (s.setVlog v).groups = s.groups ∧
    (s.setVlog v).saps = s.saps ∧ (s.setVlog v).firn = s.firn ∧ (s.setVlog v).part = s.part :=
  ⟨rfl, rfl, rfl, rfl, rfl, rfl, rfl, rfl, rfl, rfl, rfl, rfl, rfl, rfl, rfl, rfl, rfl, rfl, rfl, rfl, rfl, rfl, rfl, rfl, rfl, rfl, rfl, rfl, rfl, rfl, rfl, rfl, rfl, rfl, rfl, rfl, rfl, rfl, rfl, rfl⟩

@[simp] theorem State.setVlog_again (s : State) (v w : Vlog) : (s.setVlog v).setVlog w = s.setVlog w := rfl

@[simp] theorem State.setVlog_same (s : State) : s.setVlog s.vlog = s := rfl

@[simp] theorem State.setI2c_self (s : State) (v : I2c) : (s.setI2c v).i2c = v := rfl

@[simp] theorem State.setI2c_frame (s : State) (v : I2c) :
    (s.setI2c v).pending = s.pending ∧ (s.setI2c v).sid = s.sid ∧ (s.setI2c v).cmds = s.cmds ∧
    (s.setI2c v).rings = s.rings ∧ (s.setI2c v).wins = s.wins ∧ (s.setI2c v).mbx = s.mbx ∧ (s.setI2c v).ev = s.ev ∧
    (s.setI2c v).vlog = s.vlog ∧ (s.setI2c v).hcfg = s.hcfg ∧ (s.setI2c v).leg = s.leg ∧
    (s.setI2c v).pcie = s.pcie ∧ (s.setI2c v).eth = s.eth ∧ (s.setI2c v).clk = s.clk ∧
    (s.setI2c v).merid = s.merid ∧ (s.setI2c v).pol = s.pol ∧ (s.setI2c v).pwr = s.pwr ∧
    (s.setI2c v).therm = s.therm ∧ (s.setI2c v).fw = s.fw ∧ (s.setI2c v).panel = s.panel ∧
    (s.setI2c v).host = s.host ∧ (s.setI2c v).free = s.free ∧ (s.setI2c v).rf = s.rf ∧ (s.setI2c v).aur = s.aur ∧
    (s.setI2c v).zones = s.zones ∧ (s.setI2c v).lanes = s.lanes ∧ (s.setI2c v).tx = s.tx ∧
    (s.setI2c v).mon = s.mon ∧ (s.setI2c v).reg = s.reg ∧ (s.setI2c v).demods = s.demods ∧
    (s.setI2c v).flurry = s.flurry ∧ (s.setI2c v).afs = s.afs ∧ (s.setI2c v).ofdms = s.ofdms ∧
    (s.setI2c v).services = s.services ∧ (s.setI2c v).surveys = s.surveys ∧ (s.setI2c v).links = s.links ∧
    (s.setI2c v).paths = s.paths ∧ (s.setI2c v).groups = s.groups ∧ (s.setI2c v).saps = s.saps ∧
    (s.setI2c v).firn = s.firn ∧ (s.setI2c v).part = s.part :=
  ⟨rfl, rfl, rfl, rfl, rfl, rfl, rfl, rfl, rfl, rfl, rfl, rfl, rfl, rfl, rfl, rfl, rfl, rfl, rfl, rfl, rfl, rfl, rfl, rfl, rfl, rfl, rfl, rfl, rfl, rfl, rfl, rfl, rfl, rfl, rfl, rfl, rfl, rfl, rfl, rfl⟩

@[simp] theorem State.setI2c_again (s : State) (v w : I2c) : (s.setI2c v).setI2c w = s.setI2c w := rfl

@[simp] theorem State.setI2c_same (s : State) : s.setI2c s.i2c = s := rfl

@[simp] theorem State.setHcfg_self (s : State) (v : HostCfg) : (s.setHcfg v).hcfg = v := rfl

@[simp] theorem State.setHcfg_frame (s : State) (v : HostCfg) :
    (s.setHcfg v).pending = s.pending ∧ (s.setHcfg v).sid = s.sid ∧ (s.setHcfg v).cmds = s.cmds ∧
    (s.setHcfg v).rings = s.rings ∧ (s.setHcfg v).wins = s.wins ∧ (s.setHcfg v).mbx = s.mbx ∧
    (s.setHcfg v).ev = s.ev ∧ (s.setHcfg v).vlog = s.vlog ∧ (s.setHcfg v).i2c = s.i2c ∧ (s.setHcfg v).leg = s.leg ∧
    (s.setHcfg v).pcie = s.pcie ∧ (s.setHcfg v).eth = s.eth ∧ (s.setHcfg v).clk = s.clk ∧
    (s.setHcfg v).merid = s.merid ∧ (s.setHcfg v).pol = s.pol ∧ (s.setHcfg v).pwr = s.pwr ∧
    (s.setHcfg v).therm = s.therm ∧ (s.setHcfg v).fw = s.fw ∧ (s.setHcfg v).panel = s.panel ∧
    (s.setHcfg v).host = s.host ∧ (s.setHcfg v).free = s.free ∧ (s.setHcfg v).rf = s.rf ∧
    (s.setHcfg v).aur = s.aur ∧ (s.setHcfg v).zones = s.zones ∧ (s.setHcfg v).lanes = s.lanes ∧
    (s.setHcfg v).tx = s.tx ∧ (s.setHcfg v).mon = s.mon ∧ (s.setHcfg v).reg = s.reg ∧
    (s.setHcfg v).demods = s.demods ∧ (s.setHcfg v).flurry = s.flurry ∧ (s.setHcfg v).afs = s.afs ∧
    (s.setHcfg v).ofdms = s.ofdms ∧ (s.setHcfg v).services = s.services ∧ (s.setHcfg v).surveys = s.surveys ∧
    (s.setHcfg v).links = s.links ∧ (s.setHcfg v).paths = s.paths ∧ (s.setHcfg v).groups = s.groups ∧
    (s.setHcfg v).saps = s.saps ∧ (s.setHcfg v).firn = s.firn ∧ (s.setHcfg v).part = s.part :=
  ⟨rfl, rfl, rfl, rfl, rfl, rfl, rfl, rfl, rfl, rfl, rfl, rfl, rfl, rfl, rfl, rfl, rfl, rfl, rfl, rfl, rfl, rfl, rfl, rfl, rfl, rfl, rfl, rfl, rfl, rfl, rfl, rfl, rfl, rfl, rfl, rfl, rfl, rfl, rfl, rfl⟩

@[simp] theorem State.setHcfg_again (s : State) (v w : HostCfg) : (s.setHcfg v).setHcfg w = s.setHcfg w := rfl

@[simp] theorem State.setHcfg_same (s : State) : s.setHcfg s.hcfg = s := rfl

@[simp] theorem State.setLeg_self (s : State) (v : Legacy) : (s.setLeg v).leg = v := rfl

@[simp] theorem State.setLeg_frame (s : State) (v : Legacy) :
    (s.setLeg v).pending = s.pending ∧ (s.setLeg v).sid = s.sid ∧ (s.setLeg v).cmds = s.cmds ∧
    (s.setLeg v).rings = s.rings ∧ (s.setLeg v).wins = s.wins ∧ (s.setLeg v).mbx = s.mbx ∧ (s.setLeg v).ev = s.ev ∧
    (s.setLeg v).vlog = s.vlog ∧ (s.setLeg v).i2c = s.i2c ∧ (s.setLeg v).hcfg = s.hcfg ∧
    (s.setLeg v).pcie = s.pcie ∧ (s.setLeg v).eth = s.eth ∧ (s.setLeg v).clk = s.clk ∧
    (s.setLeg v).merid = s.merid ∧ (s.setLeg v).pol = s.pol ∧ (s.setLeg v).pwr = s.pwr ∧
    (s.setLeg v).therm = s.therm ∧ (s.setLeg v).fw = s.fw ∧ (s.setLeg v).panel = s.panel ∧
    (s.setLeg v).host = s.host ∧ (s.setLeg v).free = s.free ∧ (s.setLeg v).rf = s.rf ∧ (s.setLeg v).aur = s.aur ∧
    (s.setLeg v).zones = s.zones ∧ (s.setLeg v).lanes = s.lanes ∧ (s.setLeg v).tx = s.tx ∧
    (s.setLeg v).mon = s.mon ∧ (s.setLeg v).reg = s.reg ∧ (s.setLeg v).demods = s.demods ∧
    (s.setLeg v).flurry = s.flurry ∧ (s.setLeg v).afs = s.afs ∧ (s.setLeg v).ofdms = s.ofdms ∧
    (s.setLeg v).services = s.services ∧ (s.setLeg v).surveys = s.surveys ∧ (s.setLeg v).links = s.links ∧
    (s.setLeg v).paths = s.paths ∧ (s.setLeg v).groups = s.groups ∧ (s.setLeg v).saps = s.saps ∧
    (s.setLeg v).firn = s.firn ∧ (s.setLeg v).part = s.part :=
  ⟨rfl, rfl, rfl, rfl, rfl, rfl, rfl, rfl, rfl, rfl, rfl, rfl, rfl, rfl, rfl, rfl, rfl, rfl, rfl, rfl, rfl, rfl, rfl, rfl, rfl, rfl, rfl, rfl, rfl, rfl, rfl, rfl, rfl, rfl, rfl, rfl, rfl, rfl, rfl, rfl⟩

@[simp] theorem State.setLeg_again (s : State) (v w : Legacy) : (s.setLeg v).setLeg w = s.setLeg w := rfl

@[simp] theorem State.setLeg_same (s : State) : s.setLeg s.leg = s := rfl

@[simp] theorem State.setPcie_self (s : State) (v : Pcie) : (s.setPcie v).pcie = v := rfl

@[simp] theorem State.setPcie_frame (s : State) (v : Pcie) :
    (s.setPcie v).pending = s.pending ∧ (s.setPcie v).sid = s.sid ∧ (s.setPcie v).cmds = s.cmds ∧
    (s.setPcie v).rings = s.rings ∧ (s.setPcie v).wins = s.wins ∧ (s.setPcie v).mbx = s.mbx ∧
    (s.setPcie v).ev = s.ev ∧ (s.setPcie v).vlog = s.vlog ∧ (s.setPcie v).i2c = s.i2c ∧
    (s.setPcie v).hcfg = s.hcfg ∧ (s.setPcie v).leg = s.leg ∧ (s.setPcie v).eth = s.eth ∧
    (s.setPcie v).clk = s.clk ∧ (s.setPcie v).merid = s.merid ∧ (s.setPcie v).pol = s.pol ∧
    (s.setPcie v).pwr = s.pwr ∧ (s.setPcie v).therm = s.therm ∧ (s.setPcie v).fw = s.fw ∧
    (s.setPcie v).panel = s.panel ∧ (s.setPcie v).host = s.host ∧ (s.setPcie v).free = s.free ∧
    (s.setPcie v).rf = s.rf ∧ (s.setPcie v).aur = s.aur ∧ (s.setPcie v).zones = s.zones ∧
    (s.setPcie v).lanes = s.lanes ∧ (s.setPcie v).tx = s.tx ∧ (s.setPcie v).mon = s.mon ∧
    (s.setPcie v).reg = s.reg ∧ (s.setPcie v).demods = s.demods ∧ (s.setPcie v).flurry = s.flurry ∧
    (s.setPcie v).afs = s.afs ∧ (s.setPcie v).ofdms = s.ofdms ∧ (s.setPcie v).services = s.services ∧
    (s.setPcie v).surveys = s.surveys ∧ (s.setPcie v).links = s.links ∧ (s.setPcie v).paths = s.paths ∧
    (s.setPcie v).groups = s.groups ∧ (s.setPcie v).saps = s.saps ∧ (s.setPcie v).firn = s.firn ∧
    (s.setPcie v).part = s.part :=
  ⟨rfl, rfl, rfl, rfl, rfl, rfl, rfl, rfl, rfl, rfl, rfl, rfl, rfl, rfl, rfl, rfl, rfl, rfl, rfl, rfl, rfl, rfl, rfl, rfl, rfl, rfl, rfl, rfl, rfl, rfl, rfl, rfl, rfl, rfl, rfl, rfl, rfl, rfl, rfl, rfl⟩

@[simp] theorem State.setPcie_again (s : State) (v w : Pcie) : (s.setPcie v).setPcie w = s.setPcie w := rfl

@[simp] theorem State.setPcie_same (s : State) : s.setPcie s.pcie = s := rfl

@[simp] theorem State.setEth_self (s : State) (v : Eth) : (s.setEth v).eth = v := rfl

@[simp] theorem State.setEth_frame (s : State) (v : Eth) :
    (s.setEth v).pending = s.pending ∧ (s.setEth v).sid = s.sid ∧ (s.setEth v).cmds = s.cmds ∧
    (s.setEth v).rings = s.rings ∧ (s.setEth v).wins = s.wins ∧ (s.setEth v).mbx = s.mbx ∧ (s.setEth v).ev = s.ev ∧
    (s.setEth v).vlog = s.vlog ∧ (s.setEth v).i2c = s.i2c ∧ (s.setEth v).hcfg = s.hcfg ∧ (s.setEth v).leg = s.leg ∧
    (s.setEth v).pcie = s.pcie ∧ (s.setEth v).clk = s.clk ∧ (s.setEth v).merid = s.merid ∧
    (s.setEth v).pol = s.pol ∧ (s.setEth v).pwr = s.pwr ∧ (s.setEth v).therm = s.therm ∧ (s.setEth v).fw = s.fw ∧
    (s.setEth v).panel = s.panel ∧ (s.setEth v).host = s.host ∧ (s.setEth v).free = s.free ∧
    (s.setEth v).rf = s.rf ∧ (s.setEth v).aur = s.aur ∧ (s.setEth v).zones = s.zones ∧
    (s.setEth v).lanes = s.lanes ∧ (s.setEth v).tx = s.tx ∧ (s.setEth v).mon = s.mon ∧ (s.setEth v).reg = s.reg ∧
    (s.setEth v).demods = s.demods ∧ (s.setEth v).flurry = s.flurry ∧ (s.setEth v).afs = s.afs ∧
    (s.setEth v).ofdms = s.ofdms ∧ (s.setEth v).services = s.services ∧ (s.setEth v).surveys = s.surveys ∧
    (s.setEth v).links = s.links ∧ (s.setEth v).paths = s.paths ∧ (s.setEth v).groups = s.groups ∧
    (s.setEth v).saps = s.saps ∧ (s.setEth v).firn = s.firn ∧ (s.setEth v).part = s.part :=
  ⟨rfl, rfl, rfl, rfl, rfl, rfl, rfl, rfl, rfl, rfl, rfl, rfl, rfl, rfl, rfl, rfl, rfl, rfl, rfl, rfl, rfl, rfl, rfl, rfl, rfl, rfl, rfl, rfl, rfl, rfl, rfl, rfl, rfl, rfl, rfl, rfl, rfl, rfl, rfl, rfl⟩

@[simp] theorem State.setEth_again (s : State) (v w : Eth) : (s.setEth v).setEth w = s.setEth w := rfl

@[simp] theorem State.setEth_same (s : State) : s.setEth s.eth = s := rfl

@[simp] theorem State.setClk_self (s : State) (v : Clocks) : (s.setClk v).clk = v := rfl

@[simp] theorem State.setClk_frame (s : State) (v : Clocks) :
    (s.setClk v).pending = s.pending ∧ (s.setClk v).sid = s.sid ∧ (s.setClk v).cmds = s.cmds ∧
    (s.setClk v).rings = s.rings ∧ (s.setClk v).wins = s.wins ∧ (s.setClk v).mbx = s.mbx ∧ (s.setClk v).ev = s.ev ∧
    (s.setClk v).vlog = s.vlog ∧ (s.setClk v).i2c = s.i2c ∧ (s.setClk v).hcfg = s.hcfg ∧ (s.setClk v).leg = s.leg ∧
    (s.setClk v).pcie = s.pcie ∧ (s.setClk v).eth = s.eth ∧ (s.setClk v).merid = s.merid ∧
    (s.setClk v).pol = s.pol ∧ (s.setClk v).pwr = s.pwr ∧ (s.setClk v).therm = s.therm ∧ (s.setClk v).fw = s.fw ∧
    (s.setClk v).panel = s.panel ∧ (s.setClk v).host = s.host ∧ (s.setClk v).free = s.free ∧
    (s.setClk v).rf = s.rf ∧ (s.setClk v).aur = s.aur ∧ (s.setClk v).zones = s.zones ∧
    (s.setClk v).lanes = s.lanes ∧ (s.setClk v).tx = s.tx ∧ (s.setClk v).mon = s.mon ∧ (s.setClk v).reg = s.reg ∧
    (s.setClk v).demods = s.demods ∧ (s.setClk v).flurry = s.flurry ∧ (s.setClk v).afs = s.afs ∧
    (s.setClk v).ofdms = s.ofdms ∧ (s.setClk v).services = s.services ∧ (s.setClk v).surveys = s.surveys ∧
    (s.setClk v).links = s.links ∧ (s.setClk v).paths = s.paths ∧ (s.setClk v).groups = s.groups ∧
    (s.setClk v).saps = s.saps ∧ (s.setClk v).firn = s.firn ∧ (s.setClk v).part = s.part :=
  ⟨rfl, rfl, rfl, rfl, rfl, rfl, rfl, rfl, rfl, rfl, rfl, rfl, rfl, rfl, rfl, rfl, rfl, rfl, rfl, rfl, rfl, rfl, rfl, rfl, rfl, rfl, rfl, rfl, rfl, rfl, rfl, rfl, rfl, rfl, rfl, rfl, rfl, rfl, rfl, rfl⟩

@[simp] theorem State.setClk_again (s : State) (v w : Clocks) : (s.setClk v).setClk w = s.setClk w := rfl

@[simp] theorem State.setClk_same (s : State) : s.setClk s.clk = s := rfl

@[simp] theorem State.setMerid_self (s : State) (v : Meridian) : (s.setMerid v).merid = v := rfl

@[simp] theorem State.setMerid_frame (s : State) (v : Meridian) :
    (s.setMerid v).pending = s.pending ∧ (s.setMerid v).sid = s.sid ∧ (s.setMerid v).cmds = s.cmds ∧
    (s.setMerid v).rings = s.rings ∧ (s.setMerid v).wins = s.wins ∧ (s.setMerid v).mbx = s.mbx ∧
    (s.setMerid v).ev = s.ev ∧ (s.setMerid v).vlog = s.vlog ∧ (s.setMerid v).i2c = s.i2c ∧
    (s.setMerid v).hcfg = s.hcfg ∧ (s.setMerid v).leg = s.leg ∧ (s.setMerid v).pcie = s.pcie ∧
    (s.setMerid v).eth = s.eth ∧ (s.setMerid v).clk = s.clk ∧ (s.setMerid v).pol = s.pol ∧
    (s.setMerid v).pwr = s.pwr ∧ (s.setMerid v).therm = s.therm ∧ (s.setMerid v).fw = s.fw ∧
    (s.setMerid v).panel = s.panel ∧ (s.setMerid v).host = s.host ∧ (s.setMerid v).free = s.free ∧
    (s.setMerid v).rf = s.rf ∧ (s.setMerid v).aur = s.aur ∧ (s.setMerid v).zones = s.zones ∧
    (s.setMerid v).lanes = s.lanes ∧ (s.setMerid v).tx = s.tx ∧ (s.setMerid v).mon = s.mon ∧
    (s.setMerid v).reg = s.reg ∧ (s.setMerid v).demods = s.demods ∧ (s.setMerid v).flurry = s.flurry ∧
    (s.setMerid v).afs = s.afs ∧ (s.setMerid v).ofdms = s.ofdms ∧ (s.setMerid v).services = s.services ∧
    (s.setMerid v).surveys = s.surveys ∧ (s.setMerid v).links = s.links ∧ (s.setMerid v).paths = s.paths ∧
    (s.setMerid v).groups = s.groups ∧ (s.setMerid v).saps = s.saps ∧ (s.setMerid v).firn = s.firn ∧
    (s.setMerid v).part = s.part :=
  ⟨rfl, rfl, rfl, rfl, rfl, rfl, rfl, rfl, rfl, rfl, rfl, rfl, rfl, rfl, rfl, rfl, rfl, rfl, rfl, rfl, rfl, rfl, rfl, rfl, rfl, rfl, rfl, rfl, rfl, rfl, rfl, rfl, rfl, rfl, rfl, rfl, rfl, rfl, rfl, rfl⟩

@[simp] theorem State.setMerid_again (s : State) (v w : Meridian) : (s.setMerid v).setMerid w = s.setMerid w := rfl

@[simp] theorem State.setMerid_same (s : State) : s.setMerid s.merid = s := rfl

@[simp] theorem State.setPol_self (s : State) (v : Polaris) : (s.setPol v).pol = v := rfl

@[simp] theorem State.setPol_frame (s : State) (v : Polaris) :
    (s.setPol v).pending = s.pending ∧ (s.setPol v).sid = s.sid ∧ (s.setPol v).cmds = s.cmds ∧
    (s.setPol v).rings = s.rings ∧ (s.setPol v).wins = s.wins ∧ (s.setPol v).mbx = s.mbx ∧ (s.setPol v).ev = s.ev ∧
    (s.setPol v).vlog = s.vlog ∧ (s.setPol v).i2c = s.i2c ∧ (s.setPol v).hcfg = s.hcfg ∧ (s.setPol v).leg = s.leg ∧
    (s.setPol v).pcie = s.pcie ∧ (s.setPol v).eth = s.eth ∧ (s.setPol v).clk = s.clk ∧
    (s.setPol v).merid = s.merid ∧ (s.setPol v).pwr = s.pwr ∧ (s.setPol v).therm = s.therm ∧
    (s.setPol v).fw = s.fw ∧ (s.setPol v).panel = s.panel ∧ (s.setPol v).host = s.host ∧
    (s.setPol v).free = s.free ∧ (s.setPol v).rf = s.rf ∧ (s.setPol v).aur = s.aur ∧ (s.setPol v).zones = s.zones ∧
    (s.setPol v).lanes = s.lanes ∧ (s.setPol v).tx = s.tx ∧ (s.setPol v).mon = s.mon ∧ (s.setPol v).reg = s.reg ∧
    (s.setPol v).demods = s.demods ∧ (s.setPol v).flurry = s.flurry ∧ (s.setPol v).afs = s.afs ∧
    (s.setPol v).ofdms = s.ofdms ∧ (s.setPol v).services = s.services ∧ (s.setPol v).surveys = s.surveys ∧
    (s.setPol v).links = s.links ∧ (s.setPol v).paths = s.paths ∧ (s.setPol v).groups = s.groups ∧
    (s.setPol v).saps = s.saps ∧ (s.setPol v).firn = s.firn ∧ (s.setPol v).part = s.part :=
  ⟨rfl, rfl, rfl, rfl, rfl, rfl, rfl, rfl, rfl, rfl, rfl, rfl, rfl, rfl, rfl, rfl, rfl, rfl, rfl, rfl, rfl, rfl, rfl, rfl, rfl, rfl, rfl, rfl, rfl, rfl, rfl, rfl, rfl, rfl, rfl, rfl, rfl, rfl, rfl, rfl⟩

@[simp] theorem State.setPol_again (s : State) (v w : Polaris) : (s.setPol v).setPol w = s.setPol w := rfl

@[simp] theorem State.setPol_same (s : State) : s.setPol s.pol = s := rfl

@[simp] theorem State.setPwr_self (s : State) (v : Power) : (s.setPwr v).pwr = v := rfl

@[simp] theorem State.setPwr_frame (s : State) (v : Power) :
    (s.setPwr v).pending = s.pending ∧ (s.setPwr v).sid = s.sid ∧ (s.setPwr v).cmds = s.cmds ∧
    (s.setPwr v).rings = s.rings ∧ (s.setPwr v).wins = s.wins ∧ (s.setPwr v).mbx = s.mbx ∧ (s.setPwr v).ev = s.ev ∧
    (s.setPwr v).vlog = s.vlog ∧ (s.setPwr v).i2c = s.i2c ∧ (s.setPwr v).hcfg = s.hcfg ∧ (s.setPwr v).leg = s.leg ∧
    (s.setPwr v).pcie = s.pcie ∧ (s.setPwr v).eth = s.eth ∧ (s.setPwr v).clk = s.clk ∧
    (s.setPwr v).merid = s.merid ∧ (s.setPwr v).pol = s.pol ∧ (s.setPwr v).therm = s.therm ∧
    (s.setPwr v).fw = s.fw ∧ (s.setPwr v).panel = s.panel ∧ (s.setPwr v).host = s.host ∧
    (s.setPwr v).free = s.free ∧ (s.setPwr v).rf = s.rf ∧ (s.setPwr v).aur = s.aur ∧ (s.setPwr v).zones = s.zones ∧
    (s.setPwr v).lanes = s.lanes ∧ (s.setPwr v).tx = s.tx ∧ (s.setPwr v).mon = s.mon ∧ (s.setPwr v).reg = s.reg ∧
    (s.setPwr v).demods = s.demods ∧ (s.setPwr v).flurry = s.flurry ∧ (s.setPwr v).afs = s.afs ∧
    (s.setPwr v).ofdms = s.ofdms ∧ (s.setPwr v).services = s.services ∧ (s.setPwr v).surveys = s.surveys ∧
    (s.setPwr v).links = s.links ∧ (s.setPwr v).paths = s.paths ∧ (s.setPwr v).groups = s.groups ∧
    (s.setPwr v).saps = s.saps ∧ (s.setPwr v).firn = s.firn ∧ (s.setPwr v).part = s.part :=
  ⟨rfl, rfl, rfl, rfl, rfl, rfl, rfl, rfl, rfl, rfl, rfl, rfl, rfl, rfl, rfl, rfl, rfl, rfl, rfl, rfl, rfl, rfl, rfl, rfl, rfl, rfl, rfl, rfl, rfl, rfl, rfl, rfl, rfl, rfl, rfl, rfl, rfl, rfl, rfl, rfl⟩

@[simp] theorem State.setPwr_again (s : State) (v w : Power) : (s.setPwr v).setPwr w = s.setPwr w := rfl

@[simp] theorem State.setPwr_same (s : State) : s.setPwr s.pwr = s := rfl

@[simp] theorem State.setTherm_self (s : State) (v : Thermal) : (s.setTherm v).therm = v := rfl

@[simp] theorem State.setTherm_frame (s : State) (v : Thermal) :
    (s.setTherm v).pending = s.pending ∧ (s.setTherm v).sid = s.sid ∧ (s.setTherm v).cmds = s.cmds ∧
    (s.setTherm v).rings = s.rings ∧ (s.setTherm v).wins = s.wins ∧ (s.setTherm v).mbx = s.mbx ∧
    (s.setTherm v).ev = s.ev ∧ (s.setTherm v).vlog = s.vlog ∧ (s.setTherm v).i2c = s.i2c ∧
    (s.setTherm v).hcfg = s.hcfg ∧ (s.setTherm v).leg = s.leg ∧ (s.setTherm v).pcie = s.pcie ∧
    (s.setTherm v).eth = s.eth ∧ (s.setTherm v).clk = s.clk ∧ (s.setTherm v).merid = s.merid ∧
    (s.setTherm v).pol = s.pol ∧ (s.setTherm v).pwr = s.pwr ∧ (s.setTherm v).fw = s.fw ∧
    (s.setTherm v).panel = s.panel ∧ (s.setTherm v).host = s.host ∧ (s.setTherm v).free = s.free ∧
    (s.setTherm v).rf = s.rf ∧ (s.setTherm v).aur = s.aur ∧ (s.setTherm v).zones = s.zones ∧
    (s.setTherm v).lanes = s.lanes ∧ (s.setTherm v).tx = s.tx ∧ (s.setTherm v).mon = s.mon ∧
    (s.setTherm v).reg = s.reg ∧ (s.setTherm v).demods = s.demods ∧ (s.setTherm v).flurry = s.flurry ∧
    (s.setTherm v).afs = s.afs ∧ (s.setTherm v).ofdms = s.ofdms ∧ (s.setTherm v).services = s.services ∧
    (s.setTherm v).surveys = s.surveys ∧ (s.setTherm v).links = s.links ∧ (s.setTherm v).paths = s.paths ∧
    (s.setTherm v).groups = s.groups ∧ (s.setTherm v).saps = s.saps ∧ (s.setTherm v).firn = s.firn ∧
    (s.setTherm v).part = s.part :=
  ⟨rfl, rfl, rfl, rfl, rfl, rfl, rfl, rfl, rfl, rfl, rfl, rfl, rfl, rfl, rfl, rfl, rfl, rfl, rfl, rfl, rfl, rfl, rfl, rfl, rfl, rfl, rfl, rfl, rfl, rfl, rfl, rfl, rfl, rfl, rfl, rfl, rfl, rfl, rfl, rfl⟩

@[simp] theorem State.setTherm_again (s : State) (v w : Thermal) : (s.setTherm v).setTherm w = s.setTherm w := rfl

@[simp] theorem State.setTherm_same (s : State) : s.setTherm s.therm = s := rfl

@[simp] theorem State.setFw_self (s : State) (v : Firmware) : (s.setFw v).fw = v := rfl

@[simp] theorem State.setFw_frame (s : State) (v : Firmware) :
    (s.setFw v).pending = s.pending ∧ (s.setFw v).sid = s.sid ∧ (s.setFw v).cmds = s.cmds ∧
    (s.setFw v).rings = s.rings ∧ (s.setFw v).wins = s.wins ∧ (s.setFw v).mbx = s.mbx ∧ (s.setFw v).ev = s.ev ∧
    (s.setFw v).vlog = s.vlog ∧ (s.setFw v).i2c = s.i2c ∧ (s.setFw v).hcfg = s.hcfg ∧ (s.setFw v).leg = s.leg ∧
    (s.setFw v).pcie = s.pcie ∧ (s.setFw v).eth = s.eth ∧ (s.setFw v).clk = s.clk ∧ (s.setFw v).merid = s.merid ∧
    (s.setFw v).pol = s.pol ∧ (s.setFw v).pwr = s.pwr ∧ (s.setFw v).therm = s.therm ∧ (s.setFw v).panel = s.panel ∧
    (s.setFw v).host = s.host ∧ (s.setFw v).free = s.free ∧ (s.setFw v).rf = s.rf ∧ (s.setFw v).aur = s.aur ∧
    (s.setFw v).zones = s.zones ∧ (s.setFw v).lanes = s.lanes ∧ (s.setFw v).tx = s.tx ∧ (s.setFw v).mon = s.mon ∧
    (s.setFw v).reg = s.reg ∧ (s.setFw v).demods = s.demods ∧ (s.setFw v).flurry = s.flurry ∧
    (s.setFw v).afs = s.afs ∧ (s.setFw v).ofdms = s.ofdms ∧ (s.setFw v).services = s.services ∧
    (s.setFw v).surveys = s.surveys ∧ (s.setFw v).links = s.links ∧ (s.setFw v).paths = s.paths ∧
    (s.setFw v).groups = s.groups ∧ (s.setFw v).saps = s.saps ∧ (s.setFw v).firn = s.firn ∧
    (s.setFw v).part = s.part :=
  ⟨rfl, rfl, rfl, rfl, rfl, rfl, rfl, rfl, rfl, rfl, rfl, rfl, rfl, rfl, rfl, rfl, rfl, rfl, rfl, rfl, rfl, rfl, rfl, rfl, rfl, rfl, rfl, rfl, rfl, rfl, rfl, rfl, rfl, rfl, rfl, rfl, rfl, rfl, rfl, rfl⟩

@[simp] theorem State.setFw_again (s : State) (v w : Firmware) : (s.setFw v).setFw w = s.setFw w := rfl

@[simp] theorem State.setFw_same (s : State) : s.setFw s.fw = s := rfl

@[simp] theorem State.setPanel_self (s : State) (v : Panel) : (s.setPanel v).panel = v := rfl

@[simp] theorem State.setPanel_frame (s : State) (v : Panel) :
    (s.setPanel v).pending = s.pending ∧ (s.setPanel v).sid = s.sid ∧ (s.setPanel v).cmds = s.cmds ∧
    (s.setPanel v).rings = s.rings ∧ (s.setPanel v).wins = s.wins ∧ (s.setPanel v).mbx = s.mbx ∧
    (s.setPanel v).ev = s.ev ∧ (s.setPanel v).vlog = s.vlog ∧ (s.setPanel v).i2c = s.i2c ∧
    (s.setPanel v).hcfg = s.hcfg ∧ (s.setPanel v).leg = s.leg ∧ (s.setPanel v).pcie = s.pcie ∧
    (s.setPanel v).eth = s.eth ∧ (s.setPanel v).clk = s.clk ∧ (s.setPanel v).merid = s.merid ∧
    (s.setPanel v).pol = s.pol ∧ (s.setPanel v).pwr = s.pwr ∧ (s.setPanel v).therm = s.therm ∧
    (s.setPanel v).fw = s.fw ∧ (s.setPanel v).host = s.host ∧ (s.setPanel v).free = s.free ∧
    (s.setPanel v).rf = s.rf ∧ (s.setPanel v).aur = s.aur ∧ (s.setPanel v).zones = s.zones ∧
    (s.setPanel v).lanes = s.lanes ∧ (s.setPanel v).tx = s.tx ∧ (s.setPanel v).mon = s.mon ∧
    (s.setPanel v).reg = s.reg ∧ (s.setPanel v).demods = s.demods ∧ (s.setPanel v).flurry = s.flurry ∧
    (s.setPanel v).afs = s.afs ∧ (s.setPanel v).ofdms = s.ofdms ∧ (s.setPanel v).services = s.services ∧
    (s.setPanel v).surveys = s.surveys ∧ (s.setPanel v).links = s.links ∧ (s.setPanel v).paths = s.paths ∧
    (s.setPanel v).groups = s.groups ∧ (s.setPanel v).saps = s.saps ∧ (s.setPanel v).firn = s.firn ∧
    (s.setPanel v).part = s.part :=
  ⟨rfl, rfl, rfl, rfl, rfl, rfl, rfl, rfl, rfl, rfl, rfl, rfl, rfl, rfl, rfl, rfl, rfl, rfl, rfl, rfl, rfl, rfl, rfl, rfl, rfl, rfl, rfl, rfl, rfl, rfl, rfl, rfl, rfl, rfl, rfl, rfl, rfl, rfl, rfl, rfl⟩

@[simp] theorem State.setPanel_again (s : State) (v w : Panel) : (s.setPanel v).setPanel w = s.setPanel w := rfl

@[simp] theorem State.setPanel_same (s : State) : s.setPanel s.panel = s := rfl

@[simp] theorem State.setHost_self (s : State) (v : List Host.Cell) : (s.setHost v).host = v := rfl

@[simp] theorem State.setHost_frame (s : State) (v : List Host.Cell) :
    (s.setHost v).pending = s.pending ∧ (s.setHost v).sid = s.sid ∧ (s.setHost v).cmds = s.cmds ∧
    (s.setHost v).rings = s.rings ∧ (s.setHost v).wins = s.wins ∧ (s.setHost v).mbx = s.mbx ∧
    (s.setHost v).ev = s.ev ∧ (s.setHost v).vlog = s.vlog ∧ (s.setHost v).i2c = s.i2c ∧
    (s.setHost v).hcfg = s.hcfg ∧ (s.setHost v).leg = s.leg ∧ (s.setHost v).pcie = s.pcie ∧
    (s.setHost v).eth = s.eth ∧ (s.setHost v).clk = s.clk ∧ (s.setHost v).merid = s.merid ∧
    (s.setHost v).pol = s.pol ∧ (s.setHost v).pwr = s.pwr ∧ (s.setHost v).therm = s.therm ∧
    (s.setHost v).fw = s.fw ∧ (s.setHost v).panel = s.panel ∧ (s.setHost v).free = s.free ∧
    (s.setHost v).rf = s.rf ∧ (s.setHost v).aur = s.aur ∧ (s.setHost v).zones = s.zones ∧
    (s.setHost v).lanes = s.lanes ∧ (s.setHost v).tx = s.tx ∧ (s.setHost v).mon = s.mon ∧
    (s.setHost v).reg = s.reg ∧ (s.setHost v).demods = s.demods ∧ (s.setHost v).flurry = s.flurry ∧
    (s.setHost v).afs = s.afs ∧ (s.setHost v).ofdms = s.ofdms ∧ (s.setHost v).services = s.services ∧
    (s.setHost v).surveys = s.surveys ∧ (s.setHost v).links = s.links ∧ (s.setHost v).paths = s.paths ∧
    (s.setHost v).groups = s.groups ∧ (s.setHost v).saps = s.saps ∧ (s.setHost v).firn = s.firn ∧
    (s.setHost v).part = s.part :=
  ⟨rfl, rfl, rfl, rfl, rfl, rfl, rfl, rfl, rfl, rfl, rfl, rfl, rfl, rfl, rfl, rfl, rfl, rfl, rfl, rfl, rfl, rfl, rfl, rfl, rfl, rfl, rfl, rfl, rfl, rfl, rfl, rfl, rfl, rfl, rfl, rfl, rfl, rfl, rfl, rfl⟩

@[simp] theorem State.setHost_again (s : State) (v w : List Host.Cell) : (s.setHost v).setHost w = s.setHost w := rfl

@[simp] theorem State.setHost_same (s : State) : s.setHost s.host = s := rfl

@[simp] theorem State.setFree_self (s : State) (v : Nat) : (s.setFree v).free = v := rfl

@[simp] theorem State.setFree_frame (s : State) (v : Nat) :
    (s.setFree v).pending = s.pending ∧ (s.setFree v).sid = s.sid ∧ (s.setFree v).cmds = s.cmds ∧
    (s.setFree v).rings = s.rings ∧ (s.setFree v).wins = s.wins ∧ (s.setFree v).mbx = s.mbx ∧
    (s.setFree v).ev = s.ev ∧ (s.setFree v).vlog = s.vlog ∧ (s.setFree v).i2c = s.i2c ∧
    (s.setFree v).hcfg = s.hcfg ∧ (s.setFree v).leg = s.leg ∧ (s.setFree v).pcie = s.pcie ∧
    (s.setFree v).eth = s.eth ∧ (s.setFree v).clk = s.clk ∧ (s.setFree v).merid = s.merid ∧
    (s.setFree v).pol = s.pol ∧ (s.setFree v).pwr = s.pwr ∧ (s.setFree v).therm = s.therm ∧
    (s.setFree v).fw = s.fw ∧ (s.setFree v).panel = s.panel ∧ (s.setFree v).host = s.host ∧
    (s.setFree v).rf = s.rf ∧ (s.setFree v).aur = s.aur ∧ (s.setFree v).zones = s.zones ∧
    (s.setFree v).lanes = s.lanes ∧ (s.setFree v).tx = s.tx ∧ (s.setFree v).mon = s.mon ∧
    (s.setFree v).reg = s.reg ∧ (s.setFree v).demods = s.demods ∧ (s.setFree v).flurry = s.flurry ∧
    (s.setFree v).afs = s.afs ∧ (s.setFree v).ofdms = s.ofdms ∧ (s.setFree v).services = s.services ∧
    (s.setFree v).surveys = s.surveys ∧ (s.setFree v).links = s.links ∧ (s.setFree v).paths = s.paths ∧
    (s.setFree v).groups = s.groups ∧ (s.setFree v).saps = s.saps ∧ (s.setFree v).firn = s.firn ∧
    (s.setFree v).part = s.part :=
  ⟨rfl, rfl, rfl, rfl, rfl, rfl, rfl, rfl, rfl, rfl, rfl, rfl, rfl, rfl, rfl, rfl, rfl, rfl, rfl, rfl, rfl, rfl, rfl, rfl, rfl, rfl, rfl, rfl, rfl, rfl, rfl, rfl, rfl, rfl, rfl, rfl, rfl, rfl, rfl, rfl⟩

@[simp] theorem State.setFree_again (s : State) (v w : Nat) : (s.setFree v).setFree w = s.setFree w := rfl

@[simp] theorem State.setFree_same (s : State) : s.setFree s.free = s := rfl

@[simp] theorem State.setRf_self (s : State) (v : Rf) : (s.setRf v).rf = v := rfl

@[simp] theorem State.setRf_frame (s : State) (v : Rf) :
    (s.setRf v).pending = s.pending ∧ (s.setRf v).sid = s.sid ∧ (s.setRf v).cmds = s.cmds ∧
    (s.setRf v).rings = s.rings ∧ (s.setRf v).wins = s.wins ∧ (s.setRf v).mbx = s.mbx ∧ (s.setRf v).ev = s.ev ∧
    (s.setRf v).vlog = s.vlog ∧ (s.setRf v).i2c = s.i2c ∧ (s.setRf v).hcfg = s.hcfg ∧ (s.setRf v).leg = s.leg ∧
    (s.setRf v).pcie = s.pcie ∧ (s.setRf v).eth = s.eth ∧ (s.setRf v).clk = s.clk ∧ (s.setRf v).merid = s.merid ∧
    (s.setRf v).pol = s.pol ∧ (s.setRf v).pwr = s.pwr ∧ (s.setRf v).therm = s.therm ∧ (s.setRf v).fw = s.fw ∧
    (s.setRf v).panel = s.panel ∧ (s.setRf v).host = s.host ∧ (s.setRf v).free = s.free ∧ (s.setRf v).aur = s.aur ∧
    (s.setRf v).zones = s.zones ∧ (s.setRf v).lanes = s.lanes ∧ (s.setRf v).tx = s.tx ∧ (s.setRf v).mon = s.mon ∧
    (s.setRf v).reg = s.reg ∧ (s.setRf v).demods = s.demods ∧ (s.setRf v).flurry = s.flurry ∧
    (s.setRf v).afs = s.afs ∧ (s.setRf v).ofdms = s.ofdms ∧ (s.setRf v).services = s.services ∧
    (s.setRf v).surveys = s.surveys ∧ (s.setRf v).links = s.links ∧ (s.setRf v).paths = s.paths ∧
    (s.setRf v).groups = s.groups ∧ (s.setRf v).saps = s.saps ∧ (s.setRf v).firn = s.firn ∧
    (s.setRf v).part = s.part :=
  ⟨rfl, rfl, rfl, rfl, rfl, rfl, rfl, rfl, rfl, rfl, rfl, rfl, rfl, rfl, rfl, rfl, rfl, rfl, rfl, rfl, rfl, rfl, rfl, rfl, rfl, rfl, rfl, rfl, rfl, rfl, rfl, rfl, rfl, rfl, rfl, rfl, rfl, rfl, rfl, rfl⟩

@[simp] theorem State.setRf_again (s : State) (v w : Rf) : (s.setRf v).setRf w = s.setRf w := rfl

@[simp] theorem State.setRf_same (s : State) : s.setRf s.rf = s := rfl

@[simp] theorem State.setAur_self (s : State) (v : Aurora) : (s.setAur v).aur = v := rfl

@[simp] theorem State.setAur_frame (s : State) (v : Aurora) :
    (s.setAur v).pending = s.pending ∧ (s.setAur v).sid = s.sid ∧ (s.setAur v).cmds = s.cmds ∧
    (s.setAur v).rings = s.rings ∧ (s.setAur v).wins = s.wins ∧ (s.setAur v).mbx = s.mbx ∧ (s.setAur v).ev = s.ev ∧
    (s.setAur v).vlog = s.vlog ∧ (s.setAur v).i2c = s.i2c ∧ (s.setAur v).hcfg = s.hcfg ∧ (s.setAur v).leg = s.leg ∧
    (s.setAur v).pcie = s.pcie ∧ (s.setAur v).eth = s.eth ∧ (s.setAur v).clk = s.clk ∧
    (s.setAur v).merid = s.merid ∧ (s.setAur v).pol = s.pol ∧ (s.setAur v).pwr = s.pwr ∧
    (s.setAur v).therm = s.therm ∧ (s.setAur v).fw = s.fw ∧ (s.setAur v).panel = s.panel ∧
    (s.setAur v).host = s.host ∧ (s.setAur v).free = s.free ∧ (s.setAur v).rf = s.rf ∧
    (s.setAur v).zones = s.zones ∧ (s.setAur v).lanes = s.lanes ∧ (s.setAur v).tx = s.tx ∧
    (s.setAur v).mon = s.mon ∧ (s.setAur v).reg = s.reg ∧ (s.setAur v).demods = s.demods ∧
    (s.setAur v).flurry = s.flurry ∧ (s.setAur v).afs = s.afs ∧ (s.setAur v).ofdms = s.ofdms ∧
    (s.setAur v).services = s.services ∧ (s.setAur v).surveys = s.surveys ∧ (s.setAur v).links = s.links ∧
    (s.setAur v).paths = s.paths ∧ (s.setAur v).groups = s.groups ∧ (s.setAur v).saps = s.saps ∧
    (s.setAur v).firn = s.firn ∧ (s.setAur v).part = s.part :=
  ⟨rfl, rfl, rfl, rfl, rfl, rfl, rfl, rfl, rfl, rfl, rfl, rfl, rfl, rfl, rfl, rfl, rfl, rfl, rfl, rfl, rfl, rfl, rfl, rfl, rfl, rfl, rfl, rfl, rfl, rfl, rfl, rfl, rfl, rfl, rfl, rfl, rfl, rfl, rfl, rfl⟩

@[simp] theorem State.setAur_again (s : State) (v w : Aurora) : (s.setAur v).setAur w = s.setAur w := rfl

@[simp] theorem State.setAur_same (s : State) : s.setAur s.aur = s := rfl

@[simp] theorem State.setZones_self (s : State) (v : List (Nat × Zone)) : (s.setZones v).zones = v := rfl

@[simp] theorem State.setZones_frame (s : State) (v : List (Nat × Zone)) :
    (s.setZones v).pending = s.pending ∧ (s.setZones v).sid = s.sid ∧ (s.setZones v).cmds = s.cmds ∧
    (s.setZones v).rings = s.rings ∧ (s.setZones v).wins = s.wins ∧ (s.setZones v).mbx = s.mbx ∧
    (s.setZones v).ev = s.ev ∧ (s.setZones v).vlog = s.vlog ∧ (s.setZones v).i2c = s.i2c ∧
    (s.setZones v).hcfg = s.hcfg ∧ (s.setZones v).leg = s.leg ∧ (s.setZones v).pcie = s.pcie ∧
    (s.setZones v).eth = s.eth ∧ (s.setZones v).clk = s.clk ∧ (s.setZones v).merid = s.merid ∧
    (s.setZones v).pol = s.pol ∧ (s.setZones v).pwr = s.pwr ∧ (s.setZones v).therm = s.therm ∧
    (s.setZones v).fw = s.fw ∧ (s.setZones v).panel = s.panel ∧ (s.setZones v).host = s.host ∧
    (s.setZones v).free = s.free ∧ (s.setZones v).rf = s.rf ∧ (s.setZones v).aur = s.aur ∧
    (s.setZones v).lanes = s.lanes ∧ (s.setZones v).tx = s.tx ∧ (s.setZones v).mon = s.mon ∧
    (s.setZones v).reg = s.reg ∧ (s.setZones v).demods = s.demods ∧ (s.setZones v).flurry = s.flurry ∧
    (s.setZones v).afs = s.afs ∧ (s.setZones v).ofdms = s.ofdms ∧ (s.setZones v).services = s.services ∧
    (s.setZones v).surveys = s.surveys ∧ (s.setZones v).links = s.links ∧ (s.setZones v).paths = s.paths ∧
    (s.setZones v).groups = s.groups ∧ (s.setZones v).saps = s.saps ∧ (s.setZones v).firn = s.firn ∧
    (s.setZones v).part = s.part :=
  ⟨rfl, rfl, rfl, rfl, rfl, rfl, rfl, rfl, rfl, rfl, rfl, rfl, rfl, rfl, rfl, rfl, rfl, rfl, rfl, rfl, rfl, rfl, rfl, rfl, rfl, rfl, rfl, rfl, rfl, rfl, rfl, rfl, rfl, rfl, rfl, rfl, rfl, rfl, rfl, rfl⟩

@[simp] theorem State.setZones_again (s : State) (v w : List (Nat × Zone)) : (s.setZones v).setZones w = s.setZones w := rfl

@[simp] theorem State.setZones_same (s : State) : s.setZones s.zones = s := rfl

@[simp] theorem State.setLanes_self (s : State) (v : List (Nat × Lane)) : (s.setLanes v).lanes = v := rfl

@[simp] theorem State.setLanes_frame (s : State) (v : List (Nat × Lane)) :
    (s.setLanes v).pending = s.pending ∧ (s.setLanes v).sid = s.sid ∧ (s.setLanes v).cmds = s.cmds ∧
    (s.setLanes v).rings = s.rings ∧ (s.setLanes v).wins = s.wins ∧ (s.setLanes v).mbx = s.mbx ∧
    (s.setLanes v).ev = s.ev ∧ (s.setLanes v).vlog = s.vlog ∧ (s.setLanes v).i2c = s.i2c ∧
    (s.setLanes v).hcfg = s.hcfg ∧ (s.setLanes v).leg = s.leg ∧ (s.setLanes v).pcie = s.pcie ∧
    (s.setLanes v).eth = s.eth ∧ (s.setLanes v).clk = s.clk ∧ (s.setLanes v).merid = s.merid ∧
    (s.setLanes v).pol = s.pol ∧ (s.setLanes v).pwr = s.pwr ∧ (s.setLanes v).therm = s.therm ∧
    (s.setLanes v).fw = s.fw ∧ (s.setLanes v).panel = s.panel ∧ (s.setLanes v).host = s.host ∧
    (s.setLanes v).free = s.free ∧ (s.setLanes v).rf = s.rf ∧ (s.setLanes v).aur = s.aur ∧
    (s.setLanes v).zones = s.zones ∧ (s.setLanes v).tx = s.tx ∧ (s.setLanes v).mon = s.mon ∧
    (s.setLanes v).reg = s.reg ∧ (s.setLanes v).demods = s.demods ∧ (s.setLanes v).flurry = s.flurry ∧
    (s.setLanes v).afs = s.afs ∧ (s.setLanes v).ofdms = s.ofdms ∧ (s.setLanes v).services = s.services ∧
    (s.setLanes v).surveys = s.surveys ∧ (s.setLanes v).links = s.links ∧ (s.setLanes v).paths = s.paths ∧
    (s.setLanes v).groups = s.groups ∧ (s.setLanes v).saps = s.saps ∧ (s.setLanes v).firn = s.firn ∧
    (s.setLanes v).part = s.part :=
  ⟨rfl, rfl, rfl, rfl, rfl, rfl, rfl, rfl, rfl, rfl, rfl, rfl, rfl, rfl, rfl, rfl, rfl, rfl, rfl, rfl, rfl, rfl, rfl, rfl, rfl, rfl, rfl, rfl, rfl, rfl, rfl, rfl, rfl, rfl, rfl, rfl, rfl, rfl, rfl, rfl⟩

@[simp] theorem State.setLanes_again (s : State) (v w : List (Nat × Lane)) : (s.setLanes v).setLanes w = s.setLanes w := rfl

@[simp] theorem State.setLanes_same (s : State) : s.setLanes s.lanes = s := rfl

@[simp] theorem State.setTx_self (s : State) (v : Tx) : (s.setTx v).tx = v := rfl

@[simp] theorem State.setTx_frame (s : State) (v : Tx) :
    (s.setTx v).pending = s.pending ∧ (s.setTx v).sid = s.sid ∧ (s.setTx v).cmds = s.cmds ∧
    (s.setTx v).rings = s.rings ∧ (s.setTx v).wins = s.wins ∧ (s.setTx v).mbx = s.mbx ∧ (s.setTx v).ev = s.ev ∧
    (s.setTx v).vlog = s.vlog ∧ (s.setTx v).i2c = s.i2c ∧ (s.setTx v).hcfg = s.hcfg ∧ (s.setTx v).leg = s.leg ∧
    (s.setTx v).pcie = s.pcie ∧ (s.setTx v).eth = s.eth ∧ (s.setTx v).clk = s.clk ∧ (s.setTx v).merid = s.merid ∧
    (s.setTx v).pol = s.pol ∧ (s.setTx v).pwr = s.pwr ∧ (s.setTx v).therm = s.therm ∧ (s.setTx v).fw = s.fw ∧
    (s.setTx v).panel = s.panel ∧ (s.setTx v).host = s.host ∧ (s.setTx v).free = s.free ∧ (s.setTx v).rf = s.rf ∧
    (s.setTx v).aur = s.aur ∧ (s.setTx v).zones = s.zones ∧ (s.setTx v).lanes = s.lanes ∧ (s.setTx v).mon = s.mon ∧
    (s.setTx v).reg = s.reg ∧ (s.setTx v).demods = s.demods ∧ (s.setTx v).flurry = s.flurry ∧
    (s.setTx v).afs = s.afs ∧ (s.setTx v).ofdms = s.ofdms ∧ (s.setTx v).services = s.services ∧
    (s.setTx v).surveys = s.surveys ∧ (s.setTx v).links = s.links ∧ (s.setTx v).paths = s.paths ∧
    (s.setTx v).groups = s.groups ∧ (s.setTx v).saps = s.saps ∧ (s.setTx v).firn = s.firn ∧
    (s.setTx v).part = s.part :=
  ⟨rfl, rfl, rfl, rfl, rfl, rfl, rfl, rfl, rfl, rfl, rfl, rfl, rfl, rfl, rfl, rfl, rfl, rfl, rfl, rfl, rfl, rfl, rfl, rfl, rfl, rfl, rfl, rfl, rfl, rfl, rfl, rfl, rfl, rfl, rfl, rfl, rfl, rfl, rfl, rfl⟩

@[simp] theorem State.setTx_again (s : State) (v w : Tx) : (s.setTx v).setTx w = s.setTx w := rfl

@[simp] theorem State.setTx_same (s : State) : s.setTx s.tx = s := rfl

@[simp] theorem State.setMon_self (s : State) (v : TxMon) : (s.setMon v).mon = v := rfl

@[simp] theorem State.setMon_frame (s : State) (v : TxMon) :
    (s.setMon v).pending = s.pending ∧ (s.setMon v).sid = s.sid ∧ (s.setMon v).cmds = s.cmds ∧
    (s.setMon v).rings = s.rings ∧ (s.setMon v).wins = s.wins ∧ (s.setMon v).mbx = s.mbx ∧ (s.setMon v).ev = s.ev ∧
    (s.setMon v).vlog = s.vlog ∧ (s.setMon v).i2c = s.i2c ∧ (s.setMon v).hcfg = s.hcfg ∧ (s.setMon v).leg = s.leg ∧
    (s.setMon v).pcie = s.pcie ∧ (s.setMon v).eth = s.eth ∧ (s.setMon v).clk = s.clk ∧
    (s.setMon v).merid = s.merid ∧ (s.setMon v).pol = s.pol ∧ (s.setMon v).pwr = s.pwr ∧
    (s.setMon v).therm = s.therm ∧ (s.setMon v).fw = s.fw ∧ (s.setMon v).panel = s.panel ∧
    (s.setMon v).host = s.host ∧ (s.setMon v).free = s.free ∧ (s.setMon v).rf = s.rf ∧ (s.setMon v).aur = s.aur ∧
    (s.setMon v).zones = s.zones ∧ (s.setMon v).lanes = s.lanes ∧ (s.setMon v).tx = s.tx ∧
    (s.setMon v).reg = s.reg ∧ (s.setMon v).demods = s.demods ∧ (s.setMon v).flurry = s.flurry ∧
    (s.setMon v).afs = s.afs ∧ (s.setMon v).ofdms = s.ofdms ∧ (s.setMon v).services = s.services ∧
    (s.setMon v).surveys = s.surveys ∧ (s.setMon v).links = s.links ∧ (s.setMon v).paths = s.paths ∧
    (s.setMon v).groups = s.groups ∧ (s.setMon v).saps = s.saps ∧ (s.setMon v).firn = s.firn ∧
    (s.setMon v).part = s.part :=
  ⟨rfl, rfl, rfl, rfl, rfl, rfl, rfl, rfl, rfl, rfl, rfl, rfl, rfl, rfl, rfl, rfl, rfl, rfl, rfl, rfl, rfl, rfl, rfl, rfl, rfl, rfl, rfl, rfl, rfl, rfl, rfl, rfl, rfl, rfl, rfl, rfl, rfl, rfl, rfl, rfl⟩

@[simp] theorem State.setMon_again (s : State) (v w : TxMon) : (s.setMon v).setMon w = s.setMon w := rfl

@[simp] theorem State.setMon_same (s : State) : s.setMon s.mon = s := rfl

@[simp] theorem State.setReg_self (s : State) (v : Reg) : (s.setReg v).reg = v := rfl

@[simp] theorem State.setReg_frame (s : State) (v : Reg) :
    (s.setReg v).pending = s.pending ∧ (s.setReg v).sid = s.sid ∧ (s.setReg v).cmds = s.cmds ∧
    (s.setReg v).rings = s.rings ∧ (s.setReg v).wins = s.wins ∧ (s.setReg v).mbx = s.mbx ∧ (s.setReg v).ev = s.ev ∧
    (s.setReg v).vlog = s.vlog ∧ (s.setReg v).i2c = s.i2c ∧ (s.setReg v).hcfg = s.hcfg ∧ (s.setReg v).leg = s.leg ∧
    (s.setReg v).pcie = s.pcie ∧ (s.setReg v).eth = s.eth ∧ (s.setReg v).clk = s.clk ∧
    (s.setReg v).merid = s.merid ∧ (s.setReg v).pol = s.pol ∧ (s.setReg v).pwr = s.pwr ∧
    (s.setReg v).therm = s.therm ∧ (s.setReg v).fw = s.fw ∧ (s.setReg v).panel = s.panel ∧
    (s.setReg v).host = s.host ∧ (s.setReg v).free = s.free ∧ (s.setReg v).rf = s.rf ∧ (s.setReg v).aur = s.aur ∧
    (s.setReg v).zones = s.zones ∧ (s.setReg v).lanes = s.lanes ∧ (s.setReg v).tx = s.tx ∧
    (s.setReg v).mon = s.mon ∧ (s.setReg v).demods = s.demods ∧ (s.setReg v).flurry = s.flurry ∧
    (s.setReg v).afs = s.afs ∧ (s.setReg v).ofdms = s.ofdms ∧ (s.setReg v).services = s.services ∧
    (s.setReg v).surveys = s.surveys ∧ (s.setReg v).links = s.links ∧ (s.setReg v).paths = s.paths ∧
    (s.setReg v).groups = s.groups ∧ (s.setReg v).saps = s.saps ∧ (s.setReg v).firn = s.firn ∧
    (s.setReg v).part = s.part :=
  ⟨rfl, rfl, rfl, rfl, rfl, rfl, rfl, rfl, rfl, rfl, rfl, rfl, rfl, rfl, rfl, rfl, rfl, rfl, rfl, rfl, rfl, rfl, rfl, rfl, rfl, rfl, rfl, rfl, rfl, rfl, rfl, rfl, rfl, rfl, rfl, rfl, rfl, rfl, rfl, rfl⟩

@[simp] theorem State.setReg_again (s : State) (v w : Reg) : (s.setReg v).setReg w = s.setReg w := rfl

@[simp] theorem State.setReg_same (s : State) : s.setReg s.reg = s := rfl

@[simp] theorem State.setDemods_self (s : State) (v : List (Nat × Demod)) : (s.setDemods v).demods = v := rfl

@[simp] theorem State.setDemods_frame (s : State) (v : List (Nat × Demod)) :
    (s.setDemods v).pending = s.pending ∧ (s.setDemods v).sid = s.sid ∧ (s.setDemods v).cmds = s.cmds ∧
    (s.setDemods v).rings = s.rings ∧ (s.setDemods v).wins = s.wins ∧ (s.setDemods v).mbx = s.mbx ∧
    (s.setDemods v).ev = s.ev ∧ (s.setDemods v).vlog = s.vlog ∧ (s.setDemods v).i2c = s.i2c ∧
    (s.setDemods v).hcfg = s.hcfg ∧ (s.setDemods v).leg = s.leg ∧ (s.setDemods v).pcie = s.pcie ∧
    (s.setDemods v).eth = s.eth ∧ (s.setDemods v).clk = s.clk ∧ (s.setDemods v).merid = s.merid ∧
    (s.setDemods v).pol = s.pol ∧ (s.setDemods v).pwr = s.pwr ∧ (s.setDemods v).therm = s.therm ∧
    (s.setDemods v).fw = s.fw ∧ (s.setDemods v).panel = s.panel ∧ (s.setDemods v).host = s.host ∧
    (s.setDemods v).free = s.free ∧ (s.setDemods v).rf = s.rf ∧ (s.setDemods v).aur = s.aur ∧
    (s.setDemods v).zones = s.zones ∧ (s.setDemods v).lanes = s.lanes ∧ (s.setDemods v).tx = s.tx ∧
    (s.setDemods v).mon = s.mon ∧ (s.setDemods v).reg = s.reg ∧ (s.setDemods v).flurry = s.flurry ∧
    (s.setDemods v).afs = s.afs ∧ (s.setDemods v).ofdms = s.ofdms ∧ (s.setDemods v).services = s.services ∧
    (s.setDemods v).surveys = s.surveys ∧ (s.setDemods v).links = s.links ∧ (s.setDemods v).paths = s.paths ∧
    (s.setDemods v).groups = s.groups ∧ (s.setDemods v).saps = s.saps ∧ (s.setDemods v).firn = s.firn ∧
    (s.setDemods v).part = s.part :=
  ⟨rfl, rfl, rfl, rfl, rfl, rfl, rfl, rfl, rfl, rfl, rfl, rfl, rfl, rfl, rfl, rfl, rfl, rfl, rfl, rfl, rfl, rfl, rfl, rfl, rfl, rfl, rfl, rfl, rfl, rfl, rfl, rfl, rfl, rfl, rfl, rfl, rfl, rfl, rfl, rfl⟩

@[simp] theorem State.setDemods_again (s : State) (v w : List (Nat × Demod)) : (s.setDemods v).setDemods w = s.setDemods w := rfl

@[simp] theorem State.setDemods_same (s : State) : s.setDemods s.demods = s := rfl

@[simp] theorem State.setFlurry_self (s : State) (v : Flurry) : (s.setFlurry v).flurry = v := rfl

@[simp] theorem State.setFlurry_frame (s : State) (v : Flurry) :
    (s.setFlurry v).pending = s.pending ∧ (s.setFlurry v).sid = s.sid ∧ (s.setFlurry v).cmds = s.cmds ∧
    (s.setFlurry v).rings = s.rings ∧ (s.setFlurry v).wins = s.wins ∧ (s.setFlurry v).mbx = s.mbx ∧
    (s.setFlurry v).ev = s.ev ∧ (s.setFlurry v).vlog = s.vlog ∧ (s.setFlurry v).i2c = s.i2c ∧
    (s.setFlurry v).hcfg = s.hcfg ∧ (s.setFlurry v).leg = s.leg ∧ (s.setFlurry v).pcie = s.pcie ∧
    (s.setFlurry v).eth = s.eth ∧ (s.setFlurry v).clk = s.clk ∧ (s.setFlurry v).merid = s.merid ∧
    (s.setFlurry v).pol = s.pol ∧ (s.setFlurry v).pwr = s.pwr ∧ (s.setFlurry v).therm = s.therm ∧
    (s.setFlurry v).fw = s.fw ∧ (s.setFlurry v).panel = s.panel ∧ (s.setFlurry v).host = s.host ∧
    (s.setFlurry v).free = s.free ∧ (s.setFlurry v).rf = s.rf ∧ (s.setFlurry v).aur = s.aur ∧
    (s.setFlurry v).zones = s.zones ∧ (s.setFlurry v).lanes = s.lanes ∧ (s.setFlurry v).tx = s.tx ∧
    (s.setFlurry v).mon = s.mon ∧ (s.setFlurry v).reg = s.reg ∧ (s.setFlurry v).demods = s.demods ∧
    (s.setFlurry v).afs = s.afs ∧ (s.setFlurry v).ofdms = s.ofdms ∧ (s.setFlurry v).services = s.services ∧
    (s.setFlurry v).surveys = s.surveys ∧ (s.setFlurry v).links = s.links ∧ (s.setFlurry v).paths = s.paths ∧
    (s.setFlurry v).groups = s.groups ∧ (s.setFlurry v).saps = s.saps ∧ (s.setFlurry v).firn = s.firn ∧
    (s.setFlurry v).part = s.part :=
  ⟨rfl, rfl, rfl, rfl, rfl, rfl, rfl, rfl, rfl, rfl, rfl, rfl, rfl, rfl, rfl, rfl, rfl, rfl, rfl, rfl, rfl, rfl, rfl, rfl, rfl, rfl, rfl, rfl, rfl, rfl, rfl, rfl, rfl, rfl, rfl, rfl, rfl, rfl, rfl, rfl⟩

@[simp] theorem State.setFlurry_again (s : State) (v w : Flurry) : (s.setFlurry v).setFlurry w = s.setFlurry w := rfl

@[simp] theorem State.setFlurry_same (s : State) : s.setFlurry s.flurry = s := rfl

@[simp] theorem State.setAfs_self (s : State) (v : List (Nat × Af)) : (s.setAfs v).afs = v := rfl

@[simp] theorem State.setAfs_frame (s : State) (v : List (Nat × Af)) :
    (s.setAfs v).pending = s.pending ∧ (s.setAfs v).sid = s.sid ∧ (s.setAfs v).cmds = s.cmds ∧
    (s.setAfs v).rings = s.rings ∧ (s.setAfs v).wins = s.wins ∧ (s.setAfs v).mbx = s.mbx ∧ (s.setAfs v).ev = s.ev ∧
    (s.setAfs v).vlog = s.vlog ∧ (s.setAfs v).i2c = s.i2c ∧ (s.setAfs v).hcfg = s.hcfg ∧ (s.setAfs v).leg = s.leg ∧
    (s.setAfs v).pcie = s.pcie ∧ (s.setAfs v).eth = s.eth ∧ (s.setAfs v).clk = s.clk ∧
    (s.setAfs v).merid = s.merid ∧ (s.setAfs v).pol = s.pol ∧ (s.setAfs v).pwr = s.pwr ∧
    (s.setAfs v).therm = s.therm ∧ (s.setAfs v).fw = s.fw ∧ (s.setAfs v).panel = s.panel ∧
    (s.setAfs v).host = s.host ∧ (s.setAfs v).free = s.free ∧ (s.setAfs v).rf = s.rf ∧ (s.setAfs v).aur = s.aur ∧
    (s.setAfs v).zones = s.zones ∧ (s.setAfs v).lanes = s.lanes ∧ (s.setAfs v).tx = s.tx ∧
    (s.setAfs v).mon = s.mon ∧ (s.setAfs v).reg = s.reg ∧ (s.setAfs v).demods = s.demods ∧
    (s.setAfs v).flurry = s.flurry ∧ (s.setAfs v).ofdms = s.ofdms ∧ (s.setAfs v).services = s.services ∧
    (s.setAfs v).surveys = s.surveys ∧ (s.setAfs v).links = s.links ∧ (s.setAfs v).paths = s.paths ∧
    (s.setAfs v).groups = s.groups ∧ (s.setAfs v).saps = s.saps ∧ (s.setAfs v).firn = s.firn ∧
    (s.setAfs v).part = s.part :=
  ⟨rfl, rfl, rfl, rfl, rfl, rfl, rfl, rfl, rfl, rfl, rfl, rfl, rfl, rfl, rfl, rfl, rfl, rfl, rfl, rfl, rfl, rfl, rfl, rfl, rfl, rfl, rfl, rfl, rfl, rfl, rfl, rfl, rfl, rfl, rfl, rfl, rfl, rfl, rfl, rfl⟩

@[simp] theorem State.setAfs_again (s : State) (v w : List (Nat × Af)) : (s.setAfs v).setAfs w = s.setAfs w := rfl

@[simp] theorem State.setAfs_same (s : State) : s.setAfs s.afs = s := rfl

@[simp] theorem State.setOfdms_self (s : State) (v : List (Nat × Ofdm)) : (s.setOfdms v).ofdms = v := rfl

@[simp] theorem State.setOfdms_frame (s : State) (v : List (Nat × Ofdm)) :
    (s.setOfdms v).pending = s.pending ∧ (s.setOfdms v).sid = s.sid ∧ (s.setOfdms v).cmds = s.cmds ∧
    (s.setOfdms v).rings = s.rings ∧ (s.setOfdms v).wins = s.wins ∧ (s.setOfdms v).mbx = s.mbx ∧
    (s.setOfdms v).ev = s.ev ∧ (s.setOfdms v).vlog = s.vlog ∧ (s.setOfdms v).i2c = s.i2c ∧
    (s.setOfdms v).hcfg = s.hcfg ∧ (s.setOfdms v).leg = s.leg ∧ (s.setOfdms v).pcie = s.pcie ∧
    (s.setOfdms v).eth = s.eth ∧ (s.setOfdms v).clk = s.clk ∧ (s.setOfdms v).merid = s.merid ∧
    (s.setOfdms v).pol = s.pol ∧ (s.setOfdms v).pwr = s.pwr ∧ (s.setOfdms v).therm = s.therm ∧
    (s.setOfdms v).fw = s.fw ∧ (s.setOfdms v).panel = s.panel ∧ (s.setOfdms v).host = s.host ∧
    (s.setOfdms v).free = s.free ∧ (s.setOfdms v).rf = s.rf ∧ (s.setOfdms v).aur = s.aur ∧
    (s.setOfdms v).zones = s.zones ∧ (s.setOfdms v).lanes = s.lanes ∧ (s.setOfdms v).tx = s.tx ∧
    (s.setOfdms v).mon = s.mon ∧ (s.setOfdms v).reg = s.reg ∧ (s.setOfdms v).demods = s.demods ∧
    (s.setOfdms v).flurry = s.flurry ∧ (s.setOfdms v).afs = s.afs ∧ (s.setOfdms v).services = s.services ∧
    (s.setOfdms v).surveys = s.surveys ∧ (s.setOfdms v).links = s.links ∧ (s.setOfdms v).paths = s.paths ∧
    (s.setOfdms v).groups = s.groups ∧ (s.setOfdms v).saps = s.saps ∧ (s.setOfdms v).firn = s.firn ∧
    (s.setOfdms v).part = s.part :=
  ⟨rfl, rfl, rfl, rfl, rfl, rfl, rfl, rfl, rfl, rfl, rfl, rfl, rfl, rfl, rfl, rfl, rfl, rfl, rfl, rfl, rfl, rfl, rfl, rfl, rfl, rfl, rfl, rfl, rfl, rfl, rfl, rfl, rfl, rfl, rfl, rfl, rfl, rfl, rfl, rfl⟩

@[simp] theorem State.setOfdms_again (s : State) (v w : List (Nat × Ofdm)) : (s.setOfdms v).setOfdms w = s.setOfdms w := rfl

@[simp] theorem State.setOfdms_same (s : State) : s.setOfdms s.ofdms = s := rfl

@[simp] theorem State.setServices_self (s : State) (v : List (Nat × Service)) : (s.setServices v).services = v := rfl

@[simp] theorem State.setServices_frame (s : State) (v : List (Nat × Service)) :
    (s.setServices v).pending = s.pending ∧ (s.setServices v).sid = s.sid ∧ (s.setServices v).cmds = s.cmds ∧
    (s.setServices v).rings = s.rings ∧ (s.setServices v).wins = s.wins ∧ (s.setServices v).mbx = s.mbx ∧
    (s.setServices v).ev = s.ev ∧ (s.setServices v).vlog = s.vlog ∧ (s.setServices v).i2c = s.i2c ∧
    (s.setServices v).hcfg = s.hcfg ∧ (s.setServices v).leg = s.leg ∧ (s.setServices v).pcie = s.pcie ∧
    (s.setServices v).eth = s.eth ∧ (s.setServices v).clk = s.clk ∧ (s.setServices v).merid = s.merid ∧
    (s.setServices v).pol = s.pol ∧ (s.setServices v).pwr = s.pwr ∧ (s.setServices v).therm = s.therm ∧
    (s.setServices v).fw = s.fw ∧ (s.setServices v).panel = s.panel ∧ (s.setServices v).host = s.host ∧
    (s.setServices v).free = s.free ∧ (s.setServices v).rf = s.rf ∧ (s.setServices v).aur = s.aur ∧
    (s.setServices v).zones = s.zones ∧ (s.setServices v).lanes = s.lanes ∧ (s.setServices v).tx = s.tx ∧
    (s.setServices v).mon = s.mon ∧ (s.setServices v).reg = s.reg ∧ (s.setServices v).demods = s.demods ∧
    (s.setServices v).flurry = s.flurry ∧ (s.setServices v).afs = s.afs ∧ (s.setServices v).ofdms = s.ofdms ∧
    (s.setServices v).surveys = s.surveys ∧ (s.setServices v).links = s.links ∧ (s.setServices v).paths = s.paths ∧
    (s.setServices v).groups = s.groups ∧ (s.setServices v).saps = s.saps ∧ (s.setServices v).firn = s.firn ∧
    (s.setServices v).part = s.part :=
  ⟨rfl, rfl, rfl, rfl, rfl, rfl, rfl, rfl, rfl, rfl, rfl, rfl, rfl, rfl, rfl, rfl, rfl, rfl, rfl, rfl, rfl, rfl, rfl, rfl, rfl, rfl, rfl, rfl, rfl, rfl, rfl, rfl, rfl, rfl, rfl, rfl, rfl, rfl, rfl, rfl⟩

@[simp] theorem State.setServices_again (s : State) (v w : List (Nat × Service)) : (s.setServices v).setServices w = s.setServices w := rfl

@[simp] theorem State.setServices_same (s : State) : s.setServices s.services = s := rfl

@[simp] theorem State.setSurveys_self (s : State) (v : List (Nat × Survey)) : (s.setSurveys v).surveys = v := rfl

@[simp] theorem State.setSurveys_frame (s : State) (v : List (Nat × Survey)) :
    (s.setSurveys v).pending = s.pending ∧ (s.setSurveys v).sid = s.sid ∧ (s.setSurveys v).cmds = s.cmds ∧
    (s.setSurveys v).rings = s.rings ∧ (s.setSurveys v).wins = s.wins ∧ (s.setSurveys v).mbx = s.mbx ∧
    (s.setSurveys v).ev = s.ev ∧ (s.setSurveys v).vlog = s.vlog ∧ (s.setSurveys v).i2c = s.i2c ∧
    (s.setSurveys v).hcfg = s.hcfg ∧ (s.setSurveys v).leg = s.leg ∧ (s.setSurveys v).pcie = s.pcie ∧
    (s.setSurveys v).eth = s.eth ∧ (s.setSurveys v).clk = s.clk ∧ (s.setSurveys v).merid = s.merid ∧
    (s.setSurveys v).pol = s.pol ∧ (s.setSurveys v).pwr = s.pwr ∧ (s.setSurveys v).therm = s.therm ∧
    (s.setSurveys v).fw = s.fw ∧ (s.setSurveys v).panel = s.panel ∧ (s.setSurveys v).host = s.host ∧
    (s.setSurveys v).free = s.free ∧ (s.setSurveys v).rf = s.rf ∧ (s.setSurveys v).aur = s.aur ∧
    (s.setSurveys v).zones = s.zones ∧ (s.setSurveys v).lanes = s.lanes ∧ (s.setSurveys v).tx = s.tx ∧
    (s.setSurveys v).mon = s.mon ∧ (s.setSurveys v).reg = s.reg ∧ (s.setSurveys v).demods = s.demods ∧
    (s.setSurveys v).flurry = s.flurry ∧ (s.setSurveys v).afs = s.afs ∧ (s.setSurveys v).ofdms = s.ofdms ∧
    (s.setSurveys v).services = s.services ∧ (s.setSurveys v).links = s.links ∧ (s.setSurveys v).paths = s.paths ∧
    (s.setSurveys v).groups = s.groups ∧ (s.setSurveys v).saps = s.saps ∧ (s.setSurveys v).firn = s.firn ∧
    (s.setSurveys v).part = s.part :=
  ⟨rfl, rfl, rfl, rfl, rfl, rfl, rfl, rfl, rfl, rfl, rfl, rfl, rfl, rfl, rfl, rfl, rfl, rfl, rfl, rfl, rfl, rfl, rfl, rfl, rfl, rfl, rfl, rfl, rfl, rfl, rfl, rfl, rfl, rfl, rfl, rfl, rfl, rfl, rfl, rfl⟩

@[simp] theorem State.setSurveys_again (s : State) (v w : List (Nat × Survey)) : (s.setSurveys v).setSurveys w = s.setSurveys w := rfl

@[simp] theorem State.setSurveys_same (s : State) : s.setSurveys s.surveys = s := rfl

@[simp] theorem State.setLinks_self (s : State) (v : Links) : (s.setLinks v).links = v := rfl

@[simp] theorem State.setLinks_frame (s : State) (v : Links) :
    (s.setLinks v).pending = s.pending ∧ (s.setLinks v).sid = s.sid ∧ (s.setLinks v).cmds = s.cmds ∧
    (s.setLinks v).rings = s.rings ∧ (s.setLinks v).wins = s.wins ∧ (s.setLinks v).mbx = s.mbx ∧
    (s.setLinks v).ev = s.ev ∧ (s.setLinks v).vlog = s.vlog ∧ (s.setLinks v).i2c = s.i2c ∧
    (s.setLinks v).hcfg = s.hcfg ∧ (s.setLinks v).leg = s.leg ∧ (s.setLinks v).pcie = s.pcie ∧
    (s.setLinks v).eth = s.eth ∧ (s.setLinks v).clk = s.clk ∧ (s.setLinks v).merid = s.merid ∧
    (s.setLinks v).pol = s.pol ∧ (s.setLinks v).pwr = s.pwr ∧ (s.setLinks v).therm = s.therm ∧
    (s.setLinks v).fw = s.fw ∧ (s.setLinks v).panel = s.panel ∧ (s.setLinks v).host = s.host ∧
    (s.setLinks v).free = s.free ∧ (s.setLinks v).rf = s.rf ∧ (s.setLinks v).aur = s.aur ∧
    (s.setLinks v).zones = s.zones ∧ (s.setLinks v).lanes = s.lanes ∧ (s.setLinks v).tx = s.tx ∧
    (s.setLinks v).mon = s.mon ∧ (s.setLinks v).reg = s.reg ∧ (s.setLinks v).demods = s.demods ∧
    (s.setLinks v).flurry = s.flurry ∧ (s.setLinks v).afs = s.afs ∧ (s.setLinks v).ofdms = s.ofdms ∧
    (s.setLinks v).services = s.services ∧ (s.setLinks v).surveys = s.surveys ∧ (s.setLinks v).paths = s.paths ∧
    (s.setLinks v).groups = s.groups ∧ (s.setLinks v).saps = s.saps ∧ (s.setLinks v).firn = s.firn ∧
    (s.setLinks v).part = s.part :=
  ⟨rfl, rfl, rfl, rfl, rfl, rfl, rfl, rfl, rfl, rfl, rfl, rfl, rfl, rfl, rfl, rfl, rfl, rfl, rfl, rfl, rfl, rfl, rfl, rfl, rfl, rfl, rfl, rfl, rfl, rfl, rfl, rfl, rfl, rfl, rfl, rfl, rfl, rfl, rfl, rfl⟩

@[simp] theorem State.setLinks_again (s : State) (v w : Links) : (s.setLinks v).setLinks w = s.setLinks w := rfl

@[simp] theorem State.setLinks_same (s : State) : s.setLinks s.links = s := rfl

@[simp] theorem State.setPaths_self (s : State) (v : List (Nat × Path)) : (s.setPaths v).paths = v := rfl

@[simp] theorem State.setPaths_frame (s : State) (v : List (Nat × Path)) :
    (s.setPaths v).pending = s.pending ∧ (s.setPaths v).sid = s.sid ∧ (s.setPaths v).cmds = s.cmds ∧
    (s.setPaths v).rings = s.rings ∧ (s.setPaths v).wins = s.wins ∧ (s.setPaths v).mbx = s.mbx ∧
    (s.setPaths v).ev = s.ev ∧ (s.setPaths v).vlog = s.vlog ∧ (s.setPaths v).i2c = s.i2c ∧
    (s.setPaths v).hcfg = s.hcfg ∧ (s.setPaths v).leg = s.leg ∧ (s.setPaths v).pcie = s.pcie ∧
    (s.setPaths v).eth = s.eth ∧ (s.setPaths v).clk = s.clk ∧ (s.setPaths v).merid = s.merid ∧
    (s.setPaths v).pol = s.pol ∧ (s.setPaths v).pwr = s.pwr ∧ (s.setPaths v).therm = s.therm ∧
    (s.setPaths v).fw = s.fw ∧ (s.setPaths v).panel = s.panel ∧ (s.setPaths v).host = s.host ∧
    (s.setPaths v).free = s.free ∧ (s.setPaths v).rf = s.rf ∧ (s.setPaths v).aur = s.aur ∧
    (s.setPaths v).zones = s.zones ∧ (s.setPaths v).lanes = s.lanes ∧ (s.setPaths v).tx = s.tx ∧
    (s.setPaths v).mon = s.mon ∧ (s.setPaths v).reg = s.reg ∧ (s.setPaths v).demods = s.demods ∧
    (s.setPaths v).flurry = s.flurry ∧ (s.setPaths v).afs = s.afs ∧ (s.setPaths v).ofdms = s.ofdms ∧
    (s.setPaths v).services = s.services ∧ (s.setPaths v).surveys = s.surveys ∧ (s.setPaths v).links = s.links ∧
    (s.setPaths v).groups = s.groups ∧ (s.setPaths v).saps = s.saps ∧ (s.setPaths v).firn = s.firn ∧
    (s.setPaths v).part = s.part :=
  ⟨rfl, rfl, rfl, rfl, rfl, rfl, rfl, rfl, rfl, rfl, rfl, rfl, rfl, rfl, rfl, rfl, rfl, rfl, rfl, rfl, rfl, rfl, rfl, rfl, rfl, rfl, rfl, rfl, rfl, rfl, rfl, rfl, rfl, rfl, rfl, rfl, rfl, rfl, rfl, rfl⟩

@[simp] theorem State.setPaths_again (s : State) (v w : List (Nat × Path)) : (s.setPaths v).setPaths w = s.setPaths w := rfl

@[simp] theorem State.setPaths_same (s : State) : s.setPaths s.paths = s := rfl

@[simp] theorem State.setGroups_self (s : State) (v : List (Nat × Group)) : (s.setGroups v).groups = v := rfl

@[simp] theorem State.setGroups_frame (s : State) (v : List (Nat × Group)) :
    (s.setGroups v).pending = s.pending ∧ (s.setGroups v).sid = s.sid ∧ (s.setGroups v).cmds = s.cmds ∧
    (s.setGroups v).rings = s.rings ∧ (s.setGroups v).wins = s.wins ∧ (s.setGroups v).mbx = s.mbx ∧
    (s.setGroups v).ev = s.ev ∧ (s.setGroups v).vlog = s.vlog ∧ (s.setGroups v).i2c = s.i2c ∧
    (s.setGroups v).hcfg = s.hcfg ∧ (s.setGroups v).leg = s.leg ∧ (s.setGroups v).pcie = s.pcie ∧
    (s.setGroups v).eth = s.eth ∧ (s.setGroups v).clk = s.clk ∧ (s.setGroups v).merid = s.merid ∧
    (s.setGroups v).pol = s.pol ∧ (s.setGroups v).pwr = s.pwr ∧ (s.setGroups v).therm = s.therm ∧
    (s.setGroups v).fw = s.fw ∧ (s.setGroups v).panel = s.panel ∧ (s.setGroups v).host = s.host ∧
    (s.setGroups v).free = s.free ∧ (s.setGroups v).rf = s.rf ∧ (s.setGroups v).aur = s.aur ∧
    (s.setGroups v).zones = s.zones ∧ (s.setGroups v).lanes = s.lanes ∧ (s.setGroups v).tx = s.tx ∧
    (s.setGroups v).mon = s.mon ∧ (s.setGroups v).reg = s.reg ∧ (s.setGroups v).demods = s.demods ∧
    (s.setGroups v).flurry = s.flurry ∧ (s.setGroups v).afs = s.afs ∧ (s.setGroups v).ofdms = s.ofdms ∧
    (s.setGroups v).services = s.services ∧ (s.setGroups v).surveys = s.surveys ∧ (s.setGroups v).links = s.links ∧
    (s.setGroups v).paths = s.paths ∧ (s.setGroups v).saps = s.saps ∧ (s.setGroups v).firn = s.firn ∧
    (s.setGroups v).part = s.part :=
  ⟨rfl, rfl, rfl, rfl, rfl, rfl, rfl, rfl, rfl, rfl, rfl, rfl, rfl, rfl, rfl, rfl, rfl, rfl, rfl, rfl, rfl, rfl, rfl, rfl, rfl, rfl, rfl, rfl, rfl, rfl, rfl, rfl, rfl, rfl, rfl, rfl, rfl, rfl, rfl, rfl⟩

@[simp] theorem State.setGroups_again (s : State) (v w : List (Nat × Group)) : (s.setGroups v).setGroups w = s.setGroups w := rfl

@[simp] theorem State.setGroups_same (s : State) : s.setGroups s.groups = s := rfl

@[simp] theorem State.setSaps_self (s : State) (v : List (Nat × Sap)) : (s.setSaps v).saps = v := rfl

@[simp] theorem State.setSaps_frame (s : State) (v : List (Nat × Sap)) :
    (s.setSaps v).pending = s.pending ∧ (s.setSaps v).sid = s.sid ∧ (s.setSaps v).cmds = s.cmds ∧
    (s.setSaps v).rings = s.rings ∧ (s.setSaps v).wins = s.wins ∧ (s.setSaps v).mbx = s.mbx ∧
    (s.setSaps v).ev = s.ev ∧ (s.setSaps v).vlog = s.vlog ∧ (s.setSaps v).i2c = s.i2c ∧
    (s.setSaps v).hcfg = s.hcfg ∧ (s.setSaps v).leg = s.leg ∧ (s.setSaps v).pcie = s.pcie ∧
    (s.setSaps v).eth = s.eth ∧ (s.setSaps v).clk = s.clk ∧ (s.setSaps v).merid = s.merid ∧
    (s.setSaps v).pol = s.pol ∧ (s.setSaps v).pwr = s.pwr ∧ (s.setSaps v).therm = s.therm ∧
    (s.setSaps v).fw = s.fw ∧ (s.setSaps v).panel = s.panel ∧ (s.setSaps v).host = s.host ∧
    (s.setSaps v).free = s.free ∧ (s.setSaps v).rf = s.rf ∧ (s.setSaps v).aur = s.aur ∧
    (s.setSaps v).zones = s.zones ∧ (s.setSaps v).lanes = s.lanes ∧ (s.setSaps v).tx = s.tx ∧
    (s.setSaps v).mon = s.mon ∧ (s.setSaps v).reg = s.reg ∧ (s.setSaps v).demods = s.demods ∧
    (s.setSaps v).flurry = s.flurry ∧ (s.setSaps v).afs = s.afs ∧ (s.setSaps v).ofdms = s.ofdms ∧
    (s.setSaps v).services = s.services ∧ (s.setSaps v).surveys = s.surveys ∧ (s.setSaps v).links = s.links ∧
    (s.setSaps v).paths = s.paths ∧ (s.setSaps v).groups = s.groups ∧ (s.setSaps v).firn = s.firn ∧
    (s.setSaps v).part = s.part :=
  ⟨rfl, rfl, rfl, rfl, rfl, rfl, rfl, rfl, rfl, rfl, rfl, rfl, rfl, rfl, rfl, rfl, rfl, rfl, rfl, rfl, rfl, rfl, rfl, rfl, rfl, rfl, rfl, rfl, rfl, rfl, rfl, rfl, rfl, rfl, rfl, rfl, rfl, rfl, rfl, rfl⟩

@[simp] theorem State.setSaps_again (s : State) (v w : List (Nat × Sap)) : (s.setSaps v).setSaps w = s.setSaps w := rfl

@[simp] theorem State.setSaps_same (s : State) : s.setSaps s.saps = s := rfl

@[simp] theorem State.setFirn_self (s : State) (v : Firn) : (s.setFirn v).firn = v := rfl

@[simp] theorem State.setFirn_frame (s : State) (v : Firn) :
    (s.setFirn v).pending = s.pending ∧ (s.setFirn v).sid = s.sid ∧ (s.setFirn v).cmds = s.cmds ∧
    (s.setFirn v).rings = s.rings ∧ (s.setFirn v).wins = s.wins ∧ (s.setFirn v).mbx = s.mbx ∧
    (s.setFirn v).ev = s.ev ∧ (s.setFirn v).vlog = s.vlog ∧ (s.setFirn v).i2c = s.i2c ∧
    (s.setFirn v).hcfg = s.hcfg ∧ (s.setFirn v).leg = s.leg ∧ (s.setFirn v).pcie = s.pcie ∧
    (s.setFirn v).eth = s.eth ∧ (s.setFirn v).clk = s.clk ∧ (s.setFirn v).merid = s.merid ∧
    (s.setFirn v).pol = s.pol ∧ (s.setFirn v).pwr = s.pwr ∧ (s.setFirn v).therm = s.therm ∧
    (s.setFirn v).fw = s.fw ∧ (s.setFirn v).panel = s.panel ∧ (s.setFirn v).host = s.host ∧
    (s.setFirn v).free = s.free ∧ (s.setFirn v).rf = s.rf ∧ (s.setFirn v).aur = s.aur ∧
    (s.setFirn v).zones = s.zones ∧ (s.setFirn v).lanes = s.lanes ∧ (s.setFirn v).tx = s.tx ∧
    (s.setFirn v).mon = s.mon ∧ (s.setFirn v).reg = s.reg ∧ (s.setFirn v).demods = s.demods ∧
    (s.setFirn v).flurry = s.flurry ∧ (s.setFirn v).afs = s.afs ∧ (s.setFirn v).ofdms = s.ofdms ∧
    (s.setFirn v).services = s.services ∧ (s.setFirn v).surveys = s.surveys ∧ (s.setFirn v).links = s.links ∧
    (s.setFirn v).paths = s.paths ∧ (s.setFirn v).groups = s.groups ∧ (s.setFirn v).saps = s.saps ∧
    (s.setFirn v).part = s.part :=
  ⟨rfl, rfl, rfl, rfl, rfl, rfl, rfl, rfl, rfl, rfl, rfl, rfl, rfl, rfl, rfl, rfl, rfl, rfl, rfl, rfl, rfl, rfl, rfl, rfl, rfl, rfl, rfl, rfl, rfl, rfl, rfl, rfl, rfl, rfl, rfl, rfl, rfl, rfl, rfl, rfl⟩

@[simp] theorem State.setFirn_again (s : State) (v w : Firn) : (s.setFirn v).setFirn w = s.setFirn w := rfl

@[simp] theorem State.setFirn_same (s : State) : s.setFirn s.firn = s := rfl

@[simp] theorem State.setPart_self (s : State) (v : Part) : (s.setPart v).part = v := rfl

@[simp] theorem State.setPart_frame (s : State) (v : Part) :
    (s.setPart v).pending = s.pending ∧ (s.setPart v).sid = s.sid ∧ (s.setPart v).cmds = s.cmds ∧
    (s.setPart v).rings = s.rings ∧ (s.setPart v).wins = s.wins ∧ (s.setPart v).mbx = s.mbx ∧
    (s.setPart v).ev = s.ev ∧ (s.setPart v).vlog = s.vlog ∧ (s.setPart v).i2c = s.i2c ∧
    (s.setPart v).hcfg = s.hcfg ∧ (s.setPart v).leg = s.leg ∧ (s.setPart v).pcie = s.pcie ∧
    (s.setPart v).eth = s.eth ∧ (s.setPart v).clk = s.clk ∧ (s.setPart v).merid = s.merid ∧
    (s.setPart v).pol = s.pol ∧ (s.setPart v).pwr = s.pwr ∧ (s.setPart v).therm = s.therm ∧
    (s.setPart v).fw = s.fw ∧ (s.setPart v).panel = s.panel ∧ (s.setPart v).host = s.host ∧
    (s.setPart v).free = s.free ∧ (s.setPart v).rf = s.rf ∧ (s.setPart v).aur = s.aur ∧
    (s.setPart v).zones = s.zones ∧ (s.setPart v).lanes = s.lanes ∧ (s.setPart v).tx = s.tx ∧
    (s.setPart v).mon = s.mon ∧ (s.setPart v).reg = s.reg ∧ (s.setPart v).demods = s.demods ∧
    (s.setPart v).flurry = s.flurry ∧ (s.setPart v).afs = s.afs ∧ (s.setPart v).ofdms = s.ofdms ∧
    (s.setPart v).services = s.services ∧ (s.setPart v).surveys = s.surveys ∧ (s.setPart v).links = s.links ∧
    (s.setPart v).paths = s.paths ∧ (s.setPart v).groups = s.groups ∧ (s.setPart v).saps = s.saps ∧
    (s.setPart v).firn = s.firn :=
  ⟨rfl, rfl, rfl, rfl, rfl, rfl, rfl, rfl, rfl, rfl, rfl, rfl, rfl, rfl, rfl, rfl, rfl, rfl, rfl, rfl, rfl, rfl, rfl, rfl, rfl, rfl, rfl, rfl, rfl, rfl, rfl, rfl, rfl, rfl, rfl, rfl, rfl, rfl, rfl, rfl⟩

@[simp] theorem State.setPart_again (s : State) (v w : Part) : (s.setPart v).setPart w = s.setPart w := rfl

@[simp] theorem State.setPart_same (s : State) : s.setPart s.part = s := rfl

end Sys2Proof.Machine
end

