-- ==== Sys2Proof/Laws/Keeps.lean ====
section
/-! SUPPORT. Laws/Keeps.lean: one relation between a state and what an operation makes of it: which units may differ, and
that every part of `Inv` is kept; its rules for updates, branches and passes over lists, and the lemmas of the operations that
write host memory, the events, the violation log and the regulatory table. The files Laws/Keeps<Family>.lean say it of
every operation of Machine/<Family>.lean. A set of units is written as a number, bit i being the i-th unit of `Field`. -/

namespace Sys2Proof.Machine

/-- The bit of a unit. -/
def Field.idx (f : Field) : Nat := f.ctorIdx

def EvOk (e : Events) : Prop := ∀ w ∈ e.urgent ++ e.windows, w.below e.nextId

theorem EvWindow.below_succ {n : Nat} {w : EvWindow} (h : w.below n) : w.below (n + 1) := ⟨h.1, Nat.lt_succ_of_lt h.2⟩

theorem EvWindow.below_new (n : Nat) {w : EvWindow} (h : w.id = n) (k : w.last = n) : w.below (n + 1) := by
  unfold EvWindow.below; omega

theorem EvOk.filter {e : Events} (p q : EvWindow → Bool) (h : EvOk e) :
    EvOk { e with urgent := e.urgent.filter p, windows := e.windows.filter q } := fun w hw =>
  h w <| List.mem_append.2 <| (List.mem_append.1 hw).imp List.mem_of_mem_filter List.mem_of_mem_filter

theorem EvOk.windows {e : Events} (q : EvWindow → Bool) (h : EvOk e) :
    EvOk { e with windows := e.windows.filter q } := fun w hw =>
  h w <| List.mem_append.2 <| (List.mem_append.1 hw).imp id List.mem_of_mem_filter

theorem EvOk.tail {e : Events} {v : EvWindow} {vs : List EvWindow} (k : e.urgent = v :: vs) (h : EvOk e) :
    EvOk { e with urgent := vs } := fun w hw =>
  h w <| List.mem_append.2 <| (List.mem_append.1 hw).imp (fun x => k ▸ List.mem_cons_of_mem _ x) id

/-- Windows that keep their numbers stay below the next one. -/
theorem EvOk.map {e : Events} {f : EvWindow → EvWindow} (hf : ∀ w, (f w).id = w.id ∧ (f w).last = w.last) (h : EvOk e) :
    EvOk { e with windows := e.windows.map f } := fun w hw => by
  rcases List.mem_append.1 hw with hw | hw
  · exact h w (List.mem_append_left _ hw)
  · obtain ⟨x, hx, rfl⟩ := List.mem_map.1 hw
    have := h x (List.mem_append_right _ hx)
    unfold EvWindow.below at *
    rw [(hf x).1, (hf x).2]
    exact this

def VlogOk (v : Vlog) : Prop := v.fill ≤ 16 ∧ v.newest < 16

def RegOk (r : Reg) : Prop := r.slots.length ≤ 16 ∧ (r.locked && r.commit) = false

/-- `t` differs from `s` at most in the units of `m`, and whatever of `Inv` held in `s` holds in `t`; a locked table stays
as it is. -/
structure Keeps (m : Nat) (s t : State) : Prop where
  same : ∀ f : Field, m.testBit f.idx = false → f.same s t
  host : Memory.wf s.host = true → Memory.wf t.host = true
  ev : EvOk s.ev → EvOk t.ev
  vlog : VlogOk s.vlog → VlogOk t.vlog
  reg : RegOk s.reg → RegOk t.reg ∧ (s.reg.locked = true → t.reg.locked = true ∧ t.reg.slots = s.reg.slots)

/-- The units of `a` are among those of `b`. -/
def Sub (a b : Nat) : Prop := a &&& b = a

/-- For two written sets the inclusion is a calculation. -/
theorem Sub.ok {a b : Nat} (h : (a &&& b == a) = true) : Sub a b := eq_of_beq h

theorem Sub.trans {a b c : Nat} (h : Sub a b) (k : Sub b c) : Sub a c := by
  unfold Sub at *
  rw [← h, Nat.and_assoc, k]

theorem Field.same_refl (s : State) (f : Field) : f.same s s := by cases f <;> rfl

theorem Field.same_trans {s t u : State} {f : Field} (h : f.same s t) (k : f.same t u) : f.same s u := by
  cases f <;> exact Eq.trans k h

theorem Sub.bit {a b : Nat} (h : Sub a b) {i : Nat} (hi : b.testBit i = false) : a.testBit i = false := by
  have e : (a &&& b).testBit i = a.testBit i := congrArg (Nat.testBit · i) h
  rw [Nat.testBit_and, hi, Bool.and_false] at e
  exact e.symm

namespace Keeps

variable {m k : Nat} {s t u : State}

theorem refl (m : Nat) (s : State) : Keeps m s s :=
  ⟨fun f _ => f.same_refl s, id, id, id, fun h => ⟨h, fun l => ⟨l, rfl⟩⟩⟩

/-- After an operation that keeps as much, as much is kept. -/
theorem and (h : Keeps m s t) (g : Keeps k t u) (hm : Sub k m) : Keeps m s u :=
  ⟨fun f hf => Field.same_trans (h.same f hf) (g.same f (hm.bit hf)), fun x => g.host (h.host x), fun x => g.ev (h.ev x),
    fun x => g.vlog (h.vlog x), fun x => ⟨(g.reg (h.reg x).1).1, fun l =>
      have a := (h.reg x).2 l
      have b := (g.reg (h.reg x).1).2 a.1
      ⟨b.1, b.2.trans a.2⟩⟩⟩

theorem foldl {α : Type} {f : State → α → State} {l : List α} (h : Keeps m s t)
    (hf : ∀ b a, Keeps m s b → Keeps m s (f b a)) : Keeps m s (l.foldl f t) := by
  induction l generalizing t with
  | nil => exact h
  | cons a l ih => exact ih (hf t a h)

theorem foldl_fst {α β : Type} {f : State × β → α → State × β} {l : List α} {p : State × β} (h : Keeps m s p.1)
    (hf : ∀ b a, Keeps m s b.1 → Keeps m s (f b a).1) : Keeps m s (l.foldl f p).1 := by
  induction l generalizing p with
  | nil => exact h
  | cons a l ih => exact ih (hf p a h)

theorem foldl_snd {α β : Type} {f : β × State → α → β × State} {l : List α} {p : β × State} (h : Keeps m s p.2)
    (hf : ∀ b a, Keeps m s b.2 → Keeps m s (f b a).2) : Keeps m s (l.foldl f p).2 := by
  induction l generalizing p with
  | nil => exact h
  | cons a l ih => exact ih (hf p a h)

theorem fst {α : Type} {p : State × α} {a : α} (h : Keeps m s p.1) (e : p = (t, a)) : Keeps m s t := by
  rw [e] at h
  exact h

theorem snd {α : Type} {p : α × State} {a : α} (h : Keeps m s p.2) (e : p = (a, t)) : Keeps m s t := by
  rw [e] at h
  exact h

end Keeps

/-- The same of a state that may be absent. -/
structure OptKeeps (m : Nat) (s : State) (o : Option State) : Prop where
  out : ∀ t, o = some t → Keeps m s t

theorem OptKeeps.of_none (m : Nat) (s : State) : OptKeeps m s none := ⟨fun _ h => nomatch h⟩

theorem OptKeeps.of_some {m : Nat} {s t : State} (h : Keeps m s t) : OptKeeps m s (some t) := ⟨fun _ e => by
  cases e
  exact h⟩

theorem OptKeeps.getD {m : Nat} {s d : State} {o : Option State} (h : OptKeeps m s o) (k : Keeps m s d) :
    Keeps m s (o.getD d) := by
  cases o with
  | none => exact k
  | some t => exact h.out t rfl

theorem OptKeeps.get {m : Nat} {s t : State} {o : Option State} (h : OptKeeps m s o) (e : o = some t) : Keeps m s t :=
  h.out t e

/-- The state that a unit's answer to a command leaves. -/
def Reply.state? : Reply → Option State
  | .deny _ _ => none
  | .done _ _ _ t => some t
  | .later _ _ _ t => some t
  | .busy t => some t

/-- The same of a unit's answer to a command. -/
structure Reply.Keeps (m : Nat) (s : State) (r : Reply) : Prop where
  out : OptKeeps m s r.state?

theorem Reply.keeps_deny (m : Nat) (s : State) (st d : Nat) : (Reply.deny st d).Keeps m s := ⟨.of_none m s⟩

theorem Reply.keeps_done {m : Nat} {s t : State} {st d : Nat} {b : Bytes} (h : Machine.Keeps m s t) :
    (Reply.done st d b t).Keeps m s := ⟨.of_some h⟩

theorem Reply.keeps_later {m : Nat} {s t : State} {st d : Nat} {b : Bytes} (h : Machine.Keeps m s t) :
    (Reply.later st d b t).Keeps m s := ⟨.of_some h⟩

theorem Reply.keeps_busy {m : Nat} {s t : State} (h : Machine.Keeps m s t) : (Reply.busy t).Keeps m s := ⟨.of_some h⟩

theorem badState_keeps (m : Nat) (s : State) : badState.Keeps m s := Reply.keeps_deny ..

theorem badParam_keeps (m : Nat) (s : State) (off : Nat) : (badParam off).Keeps m s := Reply.keeps_deny ..

theorem ok_keeps {m : Nat} {s t : State} (h : Keeps m s t) : (ok t).Keeps m s := Reply.keeps_done h

theorem okWith_keeps {m : Nat} {s t : State} {b : Bytes} (h : Keeps m s t) : (okWith b t).Keeps m s := Reply.keeps_done h

/-- The same of a step's outcome. -/
structure NextKeeps (m : Nat) (s : State) (o : Host.Outcome State Fault Refusal) : Prop where
  out : ∀ t, o = .next t → Keeps m s t

theorem NextKeeps.next {m : Nat} {s t : State} (h : Keeps m s t) : NextKeeps m s (.next t) := ⟨fun _ e => by
  cases e
  exact h⟩

/-- The same of a command, whatever its packet. -/
def CmdSpec.Keeps (k : Nat) (sp : CmdSpec) : Prop :=
  ∀ (m : Nat) (b : State) (c : Cmd) (s : State), Machine.Keeps m b s → Sub k m → Reply.Keeps m b (sp.unit c s)

/-! ## Branches -/

theorem Keeps.ite {m : Nat} {b s t : State} {c : Prop} {_ : Decidable c} (h : Keeps m b s) (k : Keeps m b t) :
    Keeps m b (if c then s else t) := by
  split <;> assumption

theorem Keeps.ite_snd {α : Type} {m : Nat} {b : State} {p q : α × State} {c : Prop} {_ : Decidable c} (h : Keeps m b p.2)
    (k : Keeps m b q.2) : Keeps m b (if c then p else q).2 := by
  split <;> assumption

theorem Keeps.ite_fst {α : Type} {m : Nat} {b : State} {p q : State × α} {c : Prop} {_ : Decidable c} (h : Keeps m b p.1)
    (k : Keeps m b q.1) : Keeps m b (if c then p else q).1 := by
  split <;> assumption

theorem OptKeeps.ite {m : Nat} {b : State} {p q : Option State} {c : Prop} {_ : Decidable c} (h : OptKeeps m b p)
    (k : OptKeeps m b q) : OptKeeps m b (if c then p else q) := by
  split <;> assumption

theorem Reply.Keeps.ite {m : Nat} {b : State} {p q : Reply} {c : Prop} {_ : Decidable c} (h : p.Keeps m b)
    (k : q.Keeps m b) : Reply.Keeps m b (if c then p else q) := by
  split <;> assumption

theorem NextKeeps.ite {m : Nat} {b : State} {p q : Host.Outcome State Fault Refusal} {c : Prop} {_ : Decidable c}
    (h : NextKeeps m b p) (k : NextKeeps m b q) : NextKeeps m b (if c then p else q) := by
  split <;> assumption

/-! ## Updates -/

theorem setPending_keeps {m : Nat} {b s : State} {v : List Instr} (h : Keeps m b s) (hm : Sub 1 m) : Keeps m b (s.setPending v) :=
  h.and ⟨fun f hf => by cases f <;> first | rfl | exact absurd hf (by decide), id, id, id, fun h => ⟨h, fun l => ⟨l, rfl⟩⟩⟩ hm

theorem setSid_keeps {m : Nat} {b s : State} {v : Sidereal} (h : Keeps m b s) (hm : Sub 2 m) : Keeps m b (s.setSid v) :=
  h.and ⟨fun f hf => by cases f <;> first | rfl | exact absurd hf (by decide), id, id, id, fun h => ⟨h, fun l => ⟨l, rfl⟩⟩⟩ hm

theorem setCmds_keeps {m : Nat} {b s : State} {v : Commands} (h : Keeps m b s) (hm : Sub 4 m) : Keeps m b (s.setCmds v) :=
  h.and ⟨fun f hf => by cases f <;> first | rfl | exact absurd hf (by decide), id, id, id, fun h => ⟨h, fun l => ⟨l, rfl⟩⟩⟩ hm

theorem setRings_keeps {m : Nat} {b s : State} {v : List (Nat × Ring)} (h : Keeps m b s) (hm : Sub 8 m) : Keeps m b (s.setRings v) :=
  h.and ⟨fun f hf => by cases f <;> first | rfl | exact absurd hf (by decide), id, id, id, fun h => ⟨h, fun l => ⟨l, rfl⟩⟩⟩ hm

theorem setWins_keeps {m : Nat} {b s : State} {v : List (Nat × Window)} (h : Keeps m b s) (hm : Sub 16 m) : Keeps m b (s.setWins v) :=
  h.and ⟨fun f hf => by cases f <;> first | rfl | exact absurd hf (by decide), id, id, id, fun h => ⟨h, fun l => ⟨l, rfl⟩⟩⟩ hm

theorem setMbx_keeps {m : Nat} {b s : State} {v : Mailbox} (h : Keeps m b s) (hm : Sub 32 m) : Keeps m b (s.setMbx v) :=
  h.and ⟨fun f hf => by cases f <;> first | rfl | exact absurd hf (by decide), id, id, id, fun h => ⟨h, fun l => ⟨l, rfl⟩⟩⟩ hm

theorem setEv_keeps {m : Nat} {b s : State} {v : Events} (h : Keeps m b s) (hm : Sub 64 m)
    (g : EvOk s.ev → EvOk v) : Keeps m b (s.setEv v) :=
  h.and ⟨fun f hf => by cases f <;> first | rfl | exact absurd hf (by decide), id, g, id, fun h => ⟨h, fun l => ⟨l, rfl⟩⟩⟩ hm

theorem setVlog_keeps {m : Nat} {b s : State} {v : Vlog} (h : Keeps m b s) (hm : Sub 128 m)
    (g : VlogOk s.vlog → VlogOk v) : Keeps m b (s.setVlog v) :=
  h.and ⟨fun f hf => by cases f <;> first | rfl | exact absurd hf (by decide), id, id, g, fun h => ⟨h, fun l => ⟨l, rfl⟩⟩⟩ hm

theorem setI2c_keeps {m : Nat} {b s : State} {v : I2c} (h : Keeps m b s) (hm : Sub 256 m) : Keeps m b (s.setI2c v) :=
  h.and ⟨fun f hf => by cases f <;> first | rfl | exact absurd hf (by decide), id, id, id, fun h => ⟨h, fun l => ⟨l, rfl⟩⟩⟩ hm

theorem setHcfg_keeps {m : Nat} {b s : State} {v : HostCfg} (h : Keeps m b s) (hm : Sub 512 m) : Keeps m b (s.setHcfg v) :=
  h.and ⟨fun f hf => by cases f <;> first | rfl | exact absurd hf (by decide), id, id, id, fun h => ⟨h, fun l => ⟨l, rfl⟩⟩⟩ hm

theorem setLeg_keeps {m : Nat} {b s : State} {v : Legacy} (h : Keeps m b s) (hm : Sub 1024 m) : Keeps m b (s.setLeg v) :=
  h.and ⟨fun f hf => by cases f <;> first | rfl | exact absurd hf (by decide), id, id, id, fun h => ⟨h, fun l => ⟨l, rfl⟩⟩⟩ hm

theorem setPcie_keeps {m : Nat} {b s : State} {v : Pcie} (h : Keeps m b s) (hm : Sub 2048 m) : Keeps m b (s.setPcie v) :=
  h.and ⟨fun f hf => by cases f <;> first | rfl | exact absurd hf (by decide), id, id, id, fun h => ⟨h, fun l => ⟨l, rfl⟩⟩⟩ hm

theorem setEth_keeps {m : Nat} {b s : State} {v : Eth} (h : Keeps m b s) (hm : Sub 4096 m) : Keeps m b (s.setEth v) :=
  h.and ⟨fun f hf => by cases f <;> first | rfl | exact absurd hf (by decide), id, id, id, fun h => ⟨h, fun l => ⟨l, rfl⟩⟩⟩ hm

theorem setClk_keeps {m : Nat} {b s : State} {v : Clocks} (h : Keeps m b s) (hm : Sub 8192 m) : Keeps m b (s.setClk v) :=
  h.and ⟨fun f hf => by cases f <;> first | rfl | exact absurd hf (by decide), id, id, id, fun h => ⟨h, fun l => ⟨l, rfl⟩⟩⟩ hm

theorem setMerid_keeps {m : Nat} {b s : State} {v : Meridian} (h : Keeps m b s) (hm : Sub 16384 m) : Keeps m b (s.setMerid v) :=
  h.and ⟨fun f hf => by cases f <;> first | rfl | exact absurd hf (by decide), id, id, id, fun h => ⟨h, fun l => ⟨l, rfl⟩⟩⟩ hm

theorem setPol_keeps {m : Nat} {b s : State} {v : Polaris} (h : Keeps m b s) (hm : Sub 32768 m) : Keeps m b (s.setPol v) :=
  h.and ⟨fun f hf => by cases f <;> first | rfl | exact absurd hf (by decide), id, id, id, fun h => ⟨h, fun l => ⟨l, rfl⟩⟩⟩ hm

theorem setPwr_keeps {m : Nat} {b s : State} {v : Power} (h : Keeps m b s) (hm : Sub 65536 m) : Keeps m b (s.setPwr v) :=
  h.and ⟨fun f hf => by cases f <;> first | rfl | exact absurd hf (by decide), id, id, id, fun h => ⟨h, fun l => ⟨l, rfl⟩⟩⟩ hm

theorem setTherm_keeps {m : Nat} {b s : State} {v : Thermal} (h : Keeps m b s) (hm : Sub 131072 m) : Keeps m b (s.setTherm v) :=
  h.and ⟨fun f hf => by cases f <;> first | rfl | exact absurd hf (by decide), id, id, id, fun h => ⟨h, fun l => ⟨l, rfl⟩⟩⟩ hm

theorem setFw_keeps {m : Nat} {b s : State} {v : Firmware} (h : Keeps m b s) (hm : Sub 262144 m) : Keeps m b (s.setFw v) :=
  h.and ⟨fun f hf => by cases f <;> first | rfl | exact absurd hf (by decide), id, id, id, fun h => ⟨h, fun l => ⟨l, rfl⟩⟩⟩ hm

theorem setPanel_keeps {m : Nat} {b s : State} {v : Panel} (h : Keeps m b s) (hm : Sub 524288 m) : Keeps m b (s.setPanel v) :=
  h.and ⟨fun f hf => by cases f <;> first | rfl | exact absurd hf (by decide), id, id, id, fun h => ⟨h, fun l => ⟨l, rfl⟩⟩⟩ hm

theorem setHost_keeps {m : Nat} {b s : State} {v : List Host.Cell} (h : Keeps m b s) (hm : Sub 1048576 m)
    (g : Memory.wf s.host = true → Memory.wf v = true) : Keeps m b (s.setHost v) :=
  h.and ⟨fun f hf => by cases f <;> first | rfl | exact absurd hf (by decide), g, id, id, fun h => ⟨h, fun l => ⟨l, rfl⟩⟩⟩ hm

theorem setFree_keeps {m : Nat} {b s : State} {v : Nat} (h : Keeps m b s) (hm : Sub 2097152 m) : Keeps m b (s.setFree v) :=
  h.and ⟨fun f hf => by cases f <;> first | rfl | exact absurd hf (by decide), id, id, id, fun h => ⟨h, fun l => ⟨l, rfl⟩⟩⟩ hm

theorem setRf_keeps {m : Nat} {b s : State} {v : Rf} (h : Keeps m b s) (hm : Sub 4194304 m) : Keeps m b (s.setRf v) :=
  h.and ⟨fun f hf => by cases f <;> first | rfl | exact absurd hf (by decide), id, id, id, fun h => ⟨h, fun l => ⟨l, rfl⟩⟩⟩ hm

theorem setAur_keeps {m : Nat} {b s : State} {v : Aurora} (h : Keeps m b s) (hm : Sub 8388608 m) : Keeps m b (s.setAur v) :=
  h.and ⟨fun f hf => by cases f <;> first | rfl | exact absurd hf (by decide), id, id, id, fun h => ⟨h, fun l => ⟨l, rfl⟩⟩⟩ hm

theorem setZones_keeps {m : Nat} {b s : State} {v : List (Nat × Zone)} (h : Keeps m b s) (hm : Sub 16777216 m) : Keeps m b (s.setZones v) :=
  h.and ⟨fun f hf => by cases f <;> first | rfl | exact absurd hf (by decide), id, id, id, fun h => ⟨h, fun l => ⟨l, rfl⟩⟩⟩ hm

theorem setLanes_keeps {m : Nat} {b s : State} {v : List (Nat × Lane)} (h : Keeps m b s) (hm : Sub 33554432 m) : Keeps m b (s.setLanes v) :=
  h.and ⟨fun f hf => by cases f <;> first | rfl | exact absurd hf (by decide), id, id, id, fun h => ⟨h, fun l => ⟨l, rfl⟩⟩⟩ hm

theorem setTx_keeps {m : Nat} {b s : State} {v : Tx} (h : Keeps m b s) (hm : Sub 67108864 m) : Keeps m b (s.setTx v) :=
  h.and ⟨fun f hf => by cases f <;> first | rfl | exact absurd hf (by decide), id, id, id, fun h => ⟨h, fun l => ⟨l, rfl⟩⟩⟩ hm

theorem setMon_keeps {m : Nat} {b s : State} {v : TxMon} (h : Keeps m b s) (hm : Sub 134217728 m) : Keeps m b (s.setMon v) :=
  h.and ⟨fun f hf => by cases f <;> first | rfl | exact absurd hf (by decide), id, id, id, fun h => ⟨h, fun l => ⟨l, rfl⟩⟩⟩ hm

theorem setReg_keeps {m : Nat} {b s : State} {v : Reg} (h : Keeps m b s) (hm : Sub 268435456 m)
    (g : RegOk s.reg → RegOk v ∧ (s.reg.locked = true → v.locked = true ∧ v.slots = s.reg.slots)) : Keeps m b (s.setReg v) :=
  h.and ⟨fun f hf => by cases f <;> first | rfl | exact absurd hf (by decide), id, id, id, g⟩ hm

theorem setDemods_keeps {m : Nat} {b s : State} {v : List (Nat × Demod)} (h : Keeps m b s) (hm : Sub 536870912 m) : Keeps m b (s.setDemods v) :=
  h.and ⟨fun f hf => by cases f <;> first | rfl | exact absurd hf (by decide), id, id, id, fun h => ⟨h, fun l => ⟨l, rfl⟩⟩⟩ hm

theorem setFlurry_keeps {m : Nat} {b s : State} {v : Flurry} (h : Keeps m b s) (hm : Sub 1073741824 m) : Keeps m b (s.setFlurry v) :=
  h.and ⟨fun f hf => by cases f <;> first | rfl | exact absurd hf (by decide), id, id, id, fun h => ⟨h, fun l => ⟨l, rfl⟩⟩⟩ hm

theorem setAfs_keeps {m : Nat} {b s : State} {v : List (Nat × Af)} (h : Keeps m b s) (hm : Sub 2147483648 m) : Keeps m b (s.setAfs v) :=
  h.and ⟨fun f hf => by cases f <;> first | rfl | exact absurd hf (by decide), id, id, id, fun h => ⟨h, fun l => ⟨l, rfl⟩⟩⟩ hm

theorem setOfdms_keeps {m : Nat} {b s : State} {v : List (Nat × Ofdm)} (h : Keeps m b s) (hm : Sub 4294967296 m) : Keeps m b (s.setOfdms v) :=
  h.and ⟨fun f hf => by cases f <;> first | rfl | exact absurd hf (by decide), id, id, id, fun h => ⟨h, fun l => ⟨l, rfl⟩⟩⟩ hm

theorem setServices_keeps {m : Nat} {b s : State} {v : List (Nat × Service)} (h : Keeps m b s) (hm : Sub 8589934592 m) : Keeps m b (s.setServices v) :=
  h.and ⟨fun f hf => by cases f <;> first | rfl | exact absurd hf (by decide), id, id, id, fun h => ⟨h, fun l => ⟨l, rfl⟩⟩⟩ hm

theorem setSurveys_keeps {m : Nat} {b s : State} {v : List (Nat × Survey)} (h : Keeps m b s) (hm : Sub 17179869184 m) : Keeps m b (s.setSurveys v) :=
  h.and ⟨fun f hf => by cases f <;> first | rfl | exact absurd hf (by decide), id, id, id, fun h => ⟨h, fun l => ⟨l, rfl⟩⟩⟩ hm

theorem setLinks_keeps {m : Nat} {b s : State} {v : Links} (h : Keeps m b s) (hm : Sub 34359738368 m) : Keeps m b (s.setLinks v) :=
  h.and ⟨fun f hf => by cases f <;> first | rfl | exact absurd hf (by decide), id, id, id, fun h => ⟨h, fun l => ⟨l, rfl⟩⟩⟩ hm

theorem setPaths_keeps {m : Nat} {b s : State} {v : List (Nat × Path)} (h : Keeps m b s) (hm : Sub 68719476736 m) : Keeps m b (s.setPaths v) :=
  h.and ⟨fun f hf => by cases f <;> first | rfl | exact absurd hf (by decide), id, id, id, fun h => ⟨h, fun l => ⟨l, rfl⟩⟩⟩ hm

theorem setGroups_keeps {m : Nat} {b s : State} {v : List (Nat × Group)} (h : Keeps m b s) (hm : Sub 137438953472 m) : Keeps m b (s.setGroups v) :=
  h.and ⟨fun f hf => by cases f <;> first | rfl | exact absurd hf (by decide), id, id, id, fun h => ⟨h, fun l => ⟨l, rfl⟩⟩⟩ hm

theorem setSaps_keeps {m : Nat} {b s : State} {v : List (Nat × Sap)} (h : Keeps m b s) (hm : Sub 274877906944 m) : Keeps m b (s.setSaps v) :=
  h.and ⟨fun f hf => by cases f <;> first | rfl | exact absurd hf (by decide), id, id, id, fun h => ⟨h, fun l => ⟨l, rfl⟩⟩⟩ hm

theorem setFirn_keeps {m : Nat} {b s : State} {v : Firn} (h : Keeps m b s) (hm : Sub 549755813888 m) : Keeps m b (s.setFirn v) :=
  h.and ⟨fun f hf => by cases f <;> first | rfl | exact absurd hf (by decide), id, id, id, fun h => ⟨h, fun l => ⟨l, rfl⟩⟩⟩ hm

theorem setPart_keeps {m : Nat} {b s : State} {v : Part} (h : Keeps m b s) (hm : Sub 1099511627776 m) : Keeps m b (s.setPart v) :=
  h.and ⟨fun f hf => by cases f <;> first | rfl | exact absurd hf (by decide), id, id, id, fun h => ⟨h, fun l => ⟨l, rfl⟩⟩⟩ hm

end Sys2Proof.Machine
end

