-- ==== Sys2Proof/Laws/KeepsOps.lean ====
section
/-! SUPPORT. Laws/KeepsOps.lean: what each operation of Machine/Ops.lean keeps. -/

set_option linter.unusedTactic false
set_option linter.unreachableTactic false
set_option linter.unusedVariables false

namespace Sys2Proof.Machine

theorem hostStore_keeps {m : Nat} {b : State} {s : State} {a1 : Nat} {a2 : Bytes} (h : Keeps m b s)
    (hm : Sub 1050624 m) : Keeps m b (hostStore s a1 a2) := by
  unfold hostStore
  exact setPcie_keeps (setHost_keeps h (Sub.trans (Sub.ok rfl) hm) fun h => memStore_wf h) (Sub.trans (Sub.ok rfl) hm)

theorem advance_keeps {m : Nat} {b : State} {s : State} {a1 : Sid} (h : Keeps m b s)
    (hm : Sub 2 m) : Keeps m b (advance s a1) := by
  unfold advance
  repeat' first
    | with_reducible assumption
    | with_reducible apply setSid_keeps
    | with_reducible apply Keeps.ite
    | (with_reducible refine Sub.trans (Sub.ok ?_) hm); rfl
    | dsimp only
    | split

theorem freeValue_keeps {m : Nat} {b : State} {s : State} (h : Keeps m b s)
    (hm : Sub 2097152 m) : Keeps m b (freeValue s).2 := by
  unfold freeValue
  repeat' first
    | with_reducible assumption
    | with_reducible apply setFree_keeps
    | (with_reducible refine Sub.trans (Sub.ok ?_) hm); rfl
    | dsimp only
    | split

theorem putRing_keeps {m : Nat} {b : State} {s : State} {a1 : Nat} {a2 : Machine.Ring} (h : Keeps m b s)
    (hm : Sub 1050632 m) : Keeps m b (putRing s a1 a2) := by
  unfold putRing
  repeat' first
    | with_reducible assumption
    | with_reducible apply hostStore_keeps
    | with_reducible apply setRings_keeps
    | (with_reducible refine Sub.trans (Sub.ok ?_) hm); rfl
    | dsimp only
    | split

theorem putInflight_keeps {m : Nat} {b : State} {s : State} {a1 a2 : Nat} {a3 : Bool} (h : Keeps m b s)
    (hm : Sub 1050624 m) : Keeps m b (putInflight s a1 a2 a3) := by
  unfold putInflight
  repeat' first
    | with_reducible assumption
    | with_reducible apply hostStore_keeps
    | with_reducible apply Keeps.ite
    | (with_reducible refine Sub.trans (Sub.ok ?_) hm); rfl
    | dsimp only
    | split

theorem raiseVector_keeps {m : Nat} {b : State} {s : State} {a1 : Nat} (h : Keeps m b s)
    (hm : Sub 2048 m) : Keeps m b (raiseVector s a1) := by
  unfold raiseVector
  repeat' first
    | with_reducible assumption
    | with_reducible apply setPcie_keeps
    | with_reducible apply Keeps.ite
    | (with_reducible refine Sub.trans (Sub.ok ?_) hm); rfl
    | dsimp only
    | split

theorem tape_keeps {m : Nat} {b : State} {s : State} {a1 : Nat} {a2 : Bytes} {a3 : Sid} (h : Keeps m b s)
    (hm : Sub 549755813888 m) : Keeps m b (tape s a1 a2 a3) := by
  unfold tape
  repeat' first
    | with_reducible assumption
    | with_reducible apply setFirn_keeps
    | with_reducible apply Keeps.ite
    | (with_reducible refine Sub.trans (Sub.ok ?_) hm); rfl
    | dsimp only
    | split

theorem raiseAt_keeps {m : Nat} {b : State} {s : State} {a1 : Sid} {a2 a3 a4 : Nat} (h : Keeps m b s)
    (hm : Sub 64 m) : Keeps m b (raiseAt s a1 a2 a3 a4) := by
  unfold raiseAt
  dsimp only
  split
  · refine setEv_keeps h (Sub.trans (Sub.ok rfl) hm) (fun h w hw => ?_)
    simp only [List.append_assoc, List.mem_append, List.mem_singleton] at hw
    rcases hw with hw | rfl | hw
    · exact EvWindow.below_succ (h w (List.mem_append_left _ hw))
    · exact EvWindow.below_new _ rfl rfl
    · exact EvWindow.below_succ (h w (List.mem_append_right _ hw))
  · split
    · refine setEv_keeps h (Sub.trans (Sub.ok rfl) hm) (fun h w hw => ?_)
      rcases List.mem_append.1 hw with hw | hw
      · exact EvWindow.below_succ (h w (List.mem_append_left _ hw))
      · obtain ⟨x, hx, rfl⟩ := List.mem_map.1 hw
        have k := h x (List.mem_append_right _ hx)
        split
        · exact ⟨Nat.le_of_lt (Nat.lt_of_le_of_lt k.1 k.2), Nat.lt_succ_self _⟩
        · exact EvWindow.below_succ k
    · refine setEv_keeps h (Sub.trans (Sub.ok rfl) hm) (fun h w hw => ?_)
      simp only [List.mem_append, List.mem_singleton] at hw
      rcases hw with hw | hw | rfl
      · exact EvWindow.below_succ (h w (List.mem_append_left _ hw))
      · exact EvWindow.below_succ (h w (List.mem_append_right _ hw))
      · exact EvWindow.below_new _ rfl rfl

theorem raise_keeps {m : Nat} {b : State} {s : State} {a1 a2 a3 : Nat} (h : Keeps m b s)
    (hm : Sub 64 m) : Keeps m b (raise s a1 a2 a3) := by
  unfold raise
  repeat' first
    | with_reducible assumption
    | with_reducible apply raiseAt_keeps
    | (with_reducible refine Sub.trans (Sub.ok ?_) hm); rfl
    | dsimp only
    | split

theorem raiseSingle_keeps {m : Nat} {b : State} {s : State} {a1 : Sid} {a2 a3 a4 : Nat} (h : Keeps m b s)
    (hm : Sub 64 m) : Keeps m b (raiseSingle s a1 a2 a3 a4) := by
  unfold raiseSingle
  refine setEv_keeps h (Sub.trans (Sub.ok rfl) hm) (fun h w hw => ?_)
  simp only [List.mem_append, List.mem_singleton] at hw
  rcases hw with hw | hw | rfl
  · exact EvWindow.below_succ (h w (List.mem_append_left _ hw))
  · exact EvWindow.below_succ (h w (List.mem_append_right _ hw))
  · exact EvWindow.below_new _ rfl rfl

theorem mbxPush_keeps {m : Nat} {b : State} {s : State} {a1 : MbxEntry} (h : Keeps m b s)
    (hm : Sub 288 m) : Keeps m b (mbxPush s a1) := by
  unfold mbxPush
  repeat' first
    | with_reducible assumption
    | with_reducible apply setMbx_keeps
    | with_reducible apply setI2c_keeps
    | with_reducible apply Keeps.ite
    | (with_reducible refine Sub.trans (Sub.ok ?_) hm); rfl
    | dsimp only
    | split

theorem postToRing_keeps {m : Nat} {b : State} {a1 : EvWindow} {s : State} {a2 : Nat} (h : Keeps m b s)
    (hm : Sub 1050632 m) : Keeps m b (postToRing a1 s a2) := by
  unfold postToRing
  repeat' first
    | with_reducible assumption
    | with_reducible apply hostStore_keeps
    | with_reducible apply putRing_keeps
    | with_reducible apply Keeps.ite
    | (with_reducible refine Sub.trans (Sub.ok ?_) hm); rfl
    | dsimp only
    | split

theorem postEvent_keeps {m : Nat} {b : State} {s : State} {a1 : EvWindow} (h : Keeps m b s)
    (hm : Sub 549756864808 m) : Keeps m b (postEvent s a1) := by
  unfold postEvent
  repeat' first
    | with_reducible assumption
    | with_reducible apply tape_keeps
    | with_reducible apply mbxPush_keeps
    | with_reducible apply postToRing_keeps
    | with_reducible apply setMbx_keeps
    | with_reducible apply Keeps.foldl
    | with_reducible apply Keeps.ite
    | (with_reducible refine Sub.trans (Sub.ok ?_) hm); rfl
    | with_reducible intro _ _ _
    | dsimp only
    | split

theorem flushFrom_keeps {m : Nat} {b : State} {s : State} {a1 : Nat} {a2 : List Nat} (h : Keeps m b s)
    (hm : Sub 549756864872 m) : Keeps m b (flushFrom s a1 a2) := by
  unfold flushFrom
  dsimp only
  refine Keeps.foldl ?_ fun _ _ k => postEvent_keeps k (Sub.trans (Sub.ok rfl) hm)
  exact setEv_keeps h (Sub.trans (Sub.ok rfl) hm) (EvOk.filter _ _)

theorem violate_keeps {m : Nat} {b : State} {s : State} {a1 a2 a3 a4 : Nat} (h : Keeps m b s)
    (hm : Sub 192 m) : Keeps m b (violate s a1 a2 a3 a4) := by
  unfold violate
  dsimp only
  refine raise_keeps ?_ (Sub.trans (Sub.ok rfl) hm)
  refine setVlog_keeps h (Sub.trans (Sub.ok rfl) hm) (fun h => ⟨Nat.min_le_left .., ?_⟩)
  show vlogNext s < 16
  unfold vlogNext
  split <;> omega

theorem padRing_keeps {m : Nat} {b : State} {s : State} {a1 a2 : Nat} (h : Keeps m b s)
    (hm : Sub 1050632 m) : Keeps m b (padRing s a1 a2) := by
  unfold padRing
  repeat' first
    | with_reducible assumption
    | with_reducible apply hostStore_keeps
    | with_reducible apply putRing_keeps
    | with_reducible apply Keeps.ite
    | (with_reducible refine Sub.trans (Sub.ok ?_) hm); rfl
    | dsimp only
    | split

theorem writeEntry_keeps {m : Nat} {b : State} {s : State} {a1 : Nat} {a2 : Bytes} (h : Keeps m b s)
    (hm : Sub 1050632 m) : OptKeeps m b (writeEntry s a1 a2) := by
  unfold writeEntry
  repeat' first
    | with_reducible assumption
    | with_reducible apply OptKeeps.of_none
    | with_reducible apply OptKeeps.of_some
    | with_reducible apply hostStore_keeps
    | with_reducible apply putRing_keeps
    | with_reducible apply OptKeeps.ite
    | with_reducible apply Keeps.ite
    | (with_reducible refine Sub.trans (Sub.ok ?_) hm); rfl
    | dsimp only
    | split

theorem endInflight_keeps {m : Nat} {b : State} {s : State} {a1 : Option (Nat × Nat)} (h : Keeps m b s)
    (hm : Sub 1050624 m) : Keeps m b (endInflight s a1) := by
  unfold endInflight
  repeat' first
    | with_reducible assumption
    | with_reducible apply putInflight_keeps
    | (with_reducible refine Sub.trans (Sub.ok ?_) hm); rfl
    | dsimp only
    | split

theorem pushEntry_keeps {m : Nat} {b : State} {s : State} {a1 : Nat} {a2 : Bytes} {a3 : Option (Nat × Nat)} (h : Keeps m b s)
    (hm : Sub 1050632 m) : Keeps m b (pushEntry s a1 a2 a3) := by
  unfold pushEntry
  split
  · exact endInflight_keeps h (Sub.trans (Sub.ok rfl) hm)
  · dsimp only
    rename_i r _
    have k : Keeps m b (if r.heldCpl.isEmpty = true then padRing s a1 a2.length else s) :=
      Keeps.ite (padRing_keeps h (Sub.trans (Sub.ok rfl) hm)) h
    split
    · rename_i e
      refine endInflight_keeps ?_ (Sub.trans (Sub.ok rfl) hm)
      refine OptKeeps.get (OptKeeps.ite (writeEntry_keeps k (Sub.trans (Sub.ok rfl) hm)) (OptKeeps.of_none ..)) e
    · exact setRings_keeps k (Sub.trans (Sub.ok rfl) hm)

theorem drainHeld_keeps {m : Nat} {b : State} {a1 : Nat} {s : State} {a2 : Nat} (h : Keeps m b s)
    (hm : Sub 1050632 m) : Keeps m b (drainHeld a1 s a2) := by
  induction a1 generalizing s with
  | zero =>
    unfold drainHeld
    repeat' first
      | with_reducible assumption
      | with_reducible apply ih
      | with_reducible apply OptKeeps.getD
      | with_reducible apply padRing_keeps
      | with_reducible apply writeEntry_keeps
      | with_reducible apply endInflight_keeps
      | with_reducible apply setRings_keeps
      | with_reducible (refine OptKeeps.get (t := _) ?_ (by assumption))
      | (with_reducible refine Sub.trans (Sub.ok ?_) hm); rfl
      | dsimp only
      | split
  | succ k ih =>
    unfold drainHeld
    repeat' first
      | with_reducible assumption
      | with_reducible apply ih
      | with_reducible apply OptKeeps.getD
      | with_reducible apply padRing_keeps
      | with_reducible apply writeEntry_keeps
      | with_reducible apply endInflight_keeps
      | with_reducible apply setRings_keeps
      | with_reducible (refine OptKeeps.get (t := _) ?_ (by assumption))
      | (with_reducible refine Sub.trans (Sub.ok ?_) hm); rfl
      | dsimp only
      | split

theorem legacyDone_keeps {m : Nat} {b : State} {s : State} {a1 : Nat} {a2 : Bytes} (h : Keeps m b s)
    (hm : Sub 1024 m) : Keeps m b (legacyDone s a1 a2) := by
  unfold legacyDone
  repeat' first
    | with_reducible assumption
    | with_reducible apply setLeg_keeps
    | with_reducible apply Keeps.ite
    | (with_reducible refine Sub.trans (Sub.ok ?_) hm); rfl
    | dsimp only
    | split

theorem postCpl_keeps {m : Nat} {b : State} {s : State} {a1 : Origin} {a2 a3 a4 a5 : Nat} {a6 : Bytes} {a7 : Sid} {a8 : Bool} (h : Keeps m b s)
    (hm : Sub 549756865832 m) : Keeps m b (postCpl s a1 a2 a3 a4 a5 a6 a7 a8) := by
  unfold postCpl
  repeat' first
    | with_reducible assumption
    | with_reducible apply tape_keeps
    | with_reducible apply mbxPush_keeps
    | with_reducible apply pushEntry_keeps
    | with_reducible apply legacyDone_keeps
    | with_reducible apply Keeps.ite
    | (with_reducible refine Sub.trans (Sub.ok ?_) hm); rfl
    | dsimp only
    | split

end Sys2Proof.Machine
end

