-- ==== Sys2Proof/Laws/KeepsUnits.lean ====
section
/-! SUPPORT. Laws/KeepsUnits.lean: what each operation of Machine/Units.lean keeps. -/

set_option linter.unusedTactic false
set_option linter.unreachableTactic false
set_option linter.unusedVariables false

namespace Sys2Proof.Machine

theorem putAnt_keeps {m : Nat} {b : State} {s : State} {a1 : Nat} {a2 : Ant} (h : Keeps m b s)
    (hm : Sub 4194304 m) : Keeps m b (putAnt s a1 a2) := by
  unfold putAnt
  repeat' first
    | with_reducible assumption
    | with_reducible apply setRf_keeps
    | (with_reducible refine Sub.trans (Sub.ok ?_) hm); rfl
    | dsimp only
    | split

theorem putZone_keeps {m : Nat} {b : State} {s : State} {a1 : Nat} {a2 : Zone} (h : Keeps m b s)
    (hm : Sub 16777216 m) : Keeps m b (putZone s a1 a2) := by
  unfold putZone
  repeat' first
    | with_reducible assumption
    | with_reducible apply setZones_keeps
    | (with_reducible refine Sub.trans (Sub.ok ?_) hm); rfl
    | dsimp only
    | split

theorem putLane_keeps {m : Nat} {b : State} {s : State} {a1 : Nat} {a2 : Lane} (h : Keeps m b s)
    (hm : Sub 33554432 m) : Keeps m b (putLane s a1 a2) := by
  unfold putLane
  repeat' first
    | with_reducible assumption
    | with_reducible apply setLanes_keeps
    | (with_reducible refine Sub.trans (Sub.ok ?_) hm); rfl
    | dsimp only
    | split

theorem putDemod_keeps {m : Nat} {b : State} {s : State} {a1 : Nat} {a2 : Demod} (h : Keeps m b s)
    (hm : Sub 536870912 m) : Keeps m b (putDemod s a1 a2) := by
  unfold putDemod
  repeat' first
    | with_reducible assumption
    | with_reducible apply setDemods_keeps
    | (with_reducible refine Sub.trans (Sub.ok ?_) hm); rfl
    | dsimp only
    | split

theorem putOfdm_keeps {m : Nat} {b : State} {s : State} {a1 : Nat} {a2 : Ofdm} (h : Keeps m b s)
    (hm : Sub 4294967296 m) : Keeps m b (putOfdm s a1 a2) := by
  unfold putOfdm
  repeat' first
    | with_reducible assumption
    | with_reducible apply setOfdms_keeps
    | (with_reducible refine Sub.trans (Sub.ok ?_) hm); rfl
    | dsimp only
    | split

theorem putSurvey_keeps {m : Nat} {b : State} {s : State} {a1 : Nat} {a2 : Survey} (h : Keeps m b s)
    (hm : Sub 17179869184 m) : Keeps m b (putSurvey s a1 a2) := by
  unfold putSurvey
  repeat' first
    | with_reducible assumption
    | with_reducible apply setSurveys_keeps
    | (with_reducible refine Sub.trans (Sub.ok ?_) hm); rfl
    | dsimp only
    | split

theorem putTap_keeps {m : Nat} {b : State} {s : State} {a1 : Nat} {a2 : Tap} (h : Keeps m b s)
    (hm : Sub 1073741824 m) : Keeps m b (putTap s a1 a2) := by
  unfold putTap
  repeat' first
    | with_reducible assumption
    | with_reducible apply setFlurry_keeps
    | (with_reducible refine Sub.trans (Sub.ok ?_) hm); rfl
    | dsimp only
    | split

theorem putFlake_keeps {m : Nat} {b : State} {s : State} {a1 : Nat} {a2 : Flake} (h : Keeps m b s)
    (hm : Sub 1073741824 m) : Keeps m b (putFlake s a1 a2) := by
  unfold putFlake
  repeat' first
    | with_reducible assumption
    | with_reducible apply setFlurry_keeps
    | (with_reducible refine Sub.trans (Sub.ok ?_) hm); rfl
    | dsimp only
    | split

theorem putAf_keeps {m : Nat} {b : State} {s : State} {a1 : Nat} {a2 : Af} (h : Keeps m b s)
    (hm : Sub 2147483648 m) : Keeps m b (putAf s a1 a2) := by
  unfold putAf
  repeat' first
    | with_reducible assumption
    | with_reducible apply setAfs_keeps
    | (with_reducible refine Sub.trans (Sub.ok ?_) hm); rfl
    | dsimp only
    | split

theorem putPath_keeps {m : Nat} {b : State} {s : State} {a1 : Nat} {a2 : Machine.Path} (h : Keeps m b s)
    (hm : Sub 68719476736 m) : Keeps m b (putPath s a1 a2) := by
  unfold putPath
  repeat' first
    | with_reducible assumption
    | with_reducible apply setPaths_keeps
    | (with_reducible refine Sub.trans (Sub.ok ?_) hm); rfl
    | dsimp only
    | split

theorem putSap_keeps {m : Nat} {b : State} {s : State} {a1 : Nat} {a2 : Sap} (h : Keeps m b s)
    (hm : Sub 274877906944 m) : Keeps m b (putSap s a1 a2) := by
  unfold putSap
  repeat' first
    | with_reducible assumption
    | with_reducible apply setSaps_keeps
    | (with_reducible refine Sub.trans (Sub.ok ?_) hm); rfl
    | dsimp only
    | split

theorem unbindRing_keeps {m : Nat} {b : State} {s : State} {a1 : Nat} (h : Keeps m b s)
    (hm : Sub 297963356160 m) : Keeps m b (unbindRing s a1) := by
  unfold unbindRing
  repeat' first
    | with_reducible assumption
    | with_reducible apply setSaps_keeps
    | with_reducible apply setSurveys_keeps
    | with_reducible apply setOfdms_keeps
    | with_reducible apply setFlurry_keeps
    | with_reducible apply setDemods_keeps
    | with_reducible apply Keeps.ite
    | (with_reducible refine Sub.trans (Sub.ok ?_) hm); rfl
    | dsimp only
    | split

theorem usedChanged_keeps {m : Nat} {b : State} {s : State} (h : Keeps m b s)
    (hm : Sub 8388608 m) : Keeps m b (usedChanged s) := by
  unfold usedChanged
  repeat' first
    | with_reducible assumption
    | with_reducible apply setAur_keeps
    | (with_reducible refine Sub.trans (Sub.ok ?_) hm); rfl
    | dsimp only
    | split

theorem latch_keeps {m : Nat} {b : State} {s : State} {a1 : Nat} {a2 : Sid} (h : Keeps m b s)
    (hm : Sub 4194304 m) : Keeps m b (latch s a1 a2) := by
  unfold latch
  repeat' first
    | with_reducible assumption
    | with_reducible apply setRf_keeps
    | (with_reducible refine Sub.trans (Sub.ok ?_) hm); rfl
    | dsimp only
    | split

theorem closeGap_keeps {m : Nat} {b : State} {s : State} {a1 : Nat} (h : Keeps m b s)
    (hm : Sub 549755813888 m) : Keeps m b (closeGap s a1) := by
  unfold closeGap
  repeat' first
    | with_reducible assumption
    | with_reducible apply setFirn_keeps
    | (with_reducible refine Sub.trans (Sub.ok ?_) hm); rfl
    | dsimp only
    | split

theorem skipRun_keeps {m : Nat} {b : State} {s : State} {a1 a2 : Nat} {a3 : ZoneRun} (h : Keeps m b s)
    (hm : Sub 549755813888 m) : Keeps m b (skipRun s a1 a2 a3) := by
  unfold skipRun
  repeat' first
    | with_reducible assumption
    | with_reducible apply setFirn_keeps
    | (with_reducible refine Sub.trans (Sub.ok ?_) hm); rfl
    | dsimp only
    | split

theorem recordZone_keeps {m : Nat} {b : State} {s : State} {a1 : Nat} {a2 : List ZoneSample} {a3 : Sid} (h : Keeps m b s)
    (hm : Sub 549755813888 m) : Keeps m b (recordZone s a1 a2 a3) := by
  unfold recordZone
  repeat' first
    | with_reducible assumption
    | with_reducible apply closeGap_keeps
    | with_reducible apply skipRun_keeps
    | with_reducible apply setFirn_keeps
    | with_reducible apply Keeps.ite
    | (with_reducible refine Sub.trans (Sub.ok ?_) hm); rfl
    | dsimp only
    | split

theorem recordBlock_keeps {m : Nat} {b : State} {s : State} {a1 a2 : Nat} {a3 : Bytes} {a4 : Sid} (h : Keeps m b s)
    (hm : Sub 549755813888 m) : Keeps m b (recordBlock s a1 a2 a3 a4) := by
  unfold recordBlock
  repeat' first
    | with_reducible assumption
    | with_reducible apply setFirn_keeps
    | with_reducible apply Keeps.ite
    | (with_reducible refine Sub.trans (Sub.ok ?_) hm); rfl
    | dsimp only
    | split

theorem firnThaws_keeps {m : Nat} {b : State} {s : State} (h : Keeps m b s)
    (hm : Sub 549755813888 m) : Keeps m b (firnThaws s) := by
  unfold firnThaws
  repeat' first
    | with_reducible assumption
    | with_reducible apply closeGap_keeps
    | with_reducible apply skipRun_keeps
    | with_reducible apply setFirn_keeps
    | with_reducible apply Keeps.foldl
    | with_reducible apply Keeps.ite
    | (with_reducible refine Sub.trans (Sub.ok ?_) hm); rfl
    | with_reducible intro _ _ _
    | dsimp only
    | split

theorem levelZone_keeps {m : Nat} {b : State} {s : State} {a1 : Nat} {a2 : List ZoneSample} (h : Keeps m b s)
    (hm : Sub 549755813888 m) : Keeps m b (levelZone s a1 a2) := by
  unfold levelZone
  repeat' first
    | with_reducible assumption
    | with_reducible apply setFirn_keeps
    | with_reducible apply Keeps.ite
    | (with_reducible refine Sub.trans (Sub.ok ?_) hm); rfl
    | dsimp only
    | split

theorem tapeSample_keeps {m : Nat} {b : State} {s : State} {a1 : Nat} {a2 a3 : Bytes} (h : Keeps m b s)
    (hm : Sub 549755813888 m) : Keeps m b (tapeSample s a1 a2 a3) := by
  unfold tapeSample
  repeat' first
    | with_reducible assumption
    | with_reducible apply tape_keeps
    | with_reducible apply Keeps.ite
    | (with_reducible refine Sub.trans (Sub.ok ?_) hm); rfl
    | dsimp only
    | split

theorem tapeGain_keeps {m : Nat} {b : State} {s : State} {a1 : Nat} {a2 : Int} (h : Keeps m b s)
    (hm : Sub 549755813888 m) : Keeps m b (tapeGain s a1 a2) := by
  unfold tapeGain
  repeat' first
    | with_reducible assumption
    | with_reducible apply tapeSample_keeps
    | with_reducible apply Keeps.ite
    | (with_reducible refine Sub.trans (Sub.ok ?_) hm); rfl
    | dsimp only
    | split

theorem tapeWord_keeps {m : Nat} {b : State} {s : State} {a1 a2 : Nat} (h : Keeps m b s)
    (hm : Sub 549755813888 m) : Keeps m b (tapeWord s a1 a2) := by
  unfold tapeWord
  repeat' first
    | with_reducible assumption
    | with_reducible apply tapeSample_keeps
    | (with_reducible refine Sub.trans (Sub.ok ?_) hm); rfl
    | dsimp only
    | split

theorem tapeCal_keeps {m : Nat} {b : State} {s : State} {a1 : Nat} (h : Keeps m b s)
    (hm : Sub 549757911040 m) : Keeps m b (tapeCal s a1) := by
  unfold tapeCal
  repeat' first
    | with_reducible assumption
    | with_reducible apply freeValue_keeps
    | with_reducible apply tape_keeps
    | with_reducible (refine Keeps.snd ?_ (by assumption))
    | with_reducible apply Keeps.ite
    | (with_reducible refine Sub.trans (Sub.ok ?_) hm); rfl
    | dsimp only
    | split

theorem tapeLatch_keeps {m : Nat} {b : State} {s : State} {a1 : Nat} (h : Keeps m b s)
    (hm : Sub 549755813888 m) : Keeps m b (tapeLatch s a1) := by
  unfold tapeLatch
  repeat' first
    | with_reducible assumption
    | with_reducible apply tape_keeps
    | with_reducible apply Keeps.foldl
    | with_reducible apply Keeps.ite
    | (with_reducible refine Sub.trans (Sub.ok ?_) hm); rfl
    | with_reducible intro _ _ _
    | dsimp only
    | split

theorem latchNow_keeps {m : Nat} {b : State} {s : State} {a1 : Nat} (h : Keeps m b s)
    (hm : Sub 549760008192 m) : Keeps m b (latchNow s a1) := by
  unfold latchNow
  repeat' first
    | with_reducible assumption
    | with_reducible apply latch_keeps
    | with_reducible apply tapeLatch_keeps
    | (with_reducible refine Sub.trans (Sub.ok ?_) hm); rfl
    | dsimp only
    | split

theorem onRecord_keeps {m : Nat} {b : State} {s : State} (h : Keeps m b s)
    (hm : Sub 2 m) : Keeps m b (onRecord s) := by
  unfold onRecord
  repeat' first
    | with_reducible assumption
    | with_reducible apply setSid_keeps
    | (with_reducible refine Sub.trans (Sub.ok ?_) hm); rfl
    | dsimp only
    | split

theorem onScale_keeps {m : Nat} {b : State} {s : State} {a1 : Nat} (h : Keeps m b s)
    (hm : Sub 2 m) : Keeps m b (onScale s a1) := by
  unfold onScale
  repeat' first
    | with_reducible assumption
    | with_reducible apply onRecord_keeps
    | with_reducible apply Keeps.ite
    | (with_reducible refine Sub.trans (Sub.ok ?_) hm); rfl
    | dsimp only
    | split

theorem offScale_keeps {m : Nat} {b : State} {s s2 : State} (h : Keeps m b s2)
    (hm : Sub 2 m) : Keeps m b (offScale s s2) := by
  unfold offScale
  repeat' first
    | with_reducible assumption
    | with_reducible apply setSid_keeps
    | (with_reducible refine Sub.trans (Sub.ok ?_) hm); rfl
    | dsimp only
    | split

end Sys2Proof.Machine
end

