-- ==== Sys2Proof/Laws/KeepsPipeline.lean ====
section
/-! SUPPORT. Laws/KeepsPipeline.lean: what each operation of Machine/Pipeline.lean keeps. -/

set_option linter.unusedTactic false
set_option linter.unreachableTactic false
set_option linter.unusedVariables false

namespace Sys2Proof.Machine

theorem putFlight_keeps {m : Nat} {b : State} {s : State} {a1 : InFlight} (h : Keeps m b s)
    (hm : Sub 4 m) : Keeps m b (putFlight s a1) := by
  unfold putFlight
  repeat' first
    | with_reducible assumption
    | with_reducible apply setCmds_keeps
    | with_reducible apply Keeps.ite
    | (with_reducible refine Sub.trans (Sub.ok ?_) hm); rfl
    | dsimp only
    | split

theorem freeHeld_keeps {m : Nat} {b : State} {s : State} {a1 : Nat} (h : Keeps m b s)
    (hm : Sub 4 m) : Keeps m b (freeHeld s a1) := by
  unfold freeHeld
  repeat' first
    | with_reducible assumption
    | with_reducible apply setCmds_keeps
    | with_reducible apply Keeps.ite
    | (with_reducible refine Sub.trans (Sub.ok ?_) hm); rfl
    | dsimp only
    | split

theorem complete1_keeps {m : Nat} {b : State} {s : State} {a1 : InFlight} {a2 a3 : Nat} {a4 : Bytes} {a5 : Sid} {a6 : Nat} (h : Keeps m b s)
    (hm : Sub 549756865900 m) : Keeps m b (complete1 s a1 a2 a3 a4 a5 a6) := by
  unfold complete1
  repeat' first
    | with_reducible assumption
    | with_reducible apply flushFrom_keeps
    | with_reducible apply postCpl_keeps
    | with_reducible apply freeHeld_keeps
    | with_reducible apply setCmds_keeps
    | with_reducible apply Keeps.ite
    | (with_reducible refine Sub.trans (Sub.ok ?_) hm); rfl
    | dsimp only
    | split

theorem dropRing_keeps {m : Nat} {b : State} {s : State} {a1 : Nat} (h : Keeps m b s)
    (hm : Sub 297964406792 m) : Keeps m b (dropRing s a1) := by
  unfold dropRing
  repeat' first
    | with_reducible assumption
    | with_reducible apply hostStore_keeps
    | with_reducible apply unbindRing_keeps
    | with_reducible apply setRings_keeps
    | (with_reducible refine Sub.trans (Sub.ok ?_) hm); rfl
    | dsimp only
    | split

theorem finishDestroy_keeps {m : Nat} {b : State} {s : State} {a1 : Nat × Machine.Ring} (h : Keeps m b s)
    (hm : Sub 847720222060 m) : Keeps m b (finishDestroy s a1) := by
  unfold finishDestroy
  repeat' first
    | with_reducible assumption
    | with_reducible apply complete1_keeps
    | with_reducible apply dropRing_keeps
    | with_reducible apply Keeps.ite
    | (with_reducible refine Sub.trans (Sub.ok ?_) hm); rfl
    | dsimp only
    | split

theorem complete_keeps {m : Nat} {b : State} {s : State} {a1 : InFlight} {a2 a3 : Nat} {a4 : Bytes} {a5 : Sid} {a6 : Nat} (h : Keeps m b s)
    (hm : Sub 847720222060 m) : Keeps m b (complete s a1 a2 a3 a4 a5 a6) := by
  unfold complete
  repeat' first
    | with_reducible assumption
    | with_reducible apply complete1_keeps
    | with_reducible apply finishDestroy_keeps
    | with_reducible apply Keeps.foldl
    | (with_reducible refine Sub.trans (Sub.ok ?_) hm); rfl
    | with_reducible intro _ _ _
    | dsimp only
    | split

theorem finishOp_keeps {m : Nat} {b : State} {s : State} {a1 a2 a3 a4 : Nat} {a5 : Bytes} {a6 : Nat} (h : Keeps m b s)
    (hm : Sub 847720222060 m) : Keeps m b (finishOp s a1 a2 a3 a4 a5 a6) := by
  unfold finishOp
  repeat' first
    | with_reducible assumption
    | with_reducible apply complete_keeps
    | (with_reducible refine Sub.trans (Sub.ok ?_) hm); rfl
    | dsimp only
    | split

theorem tapeCommand_keeps {m : Nat} {b : State} {s : State} {a1 : Cmd} (h : Keeps m b s)
    (hm : Sub 549755813888 m) : Keeps m b (tapeCommand s a1) := by
  unfold tapeCommand
  repeat' first
    | with_reducible assumption
    | with_reducible apply tape_keeps
    | (with_reducible refine Sub.trans (Sub.ok ?_) hm); rfl
    | dsimp only
    | split

theorem malformed_keeps {m : Nat} {b : State} {a1 : Cmd} {s : State} (h : Keeps m b s)
    (hm : Sub 549756866024 m) : Keeps m b (malformed a1 s) := by
  unfold malformed
  repeat' first
    | with_reducible assumption
    | with_reducible apply putRing_keeps
    | with_reducible apply violate_keeps
    | with_reducible apply postCpl_keeps
    | (with_reducible refine Sub.trans (Sub.ok ?_) hm); rfl
    | dsimp only
    | split

theorem duplicate_keeps {m : Nat} {b : State} {a1 : Cmd} {s : State} (h : Keeps m b s)
    (hm : Sub 549756866024 m) : Keeps m b (duplicate a1 s) := by
  unfold duplicate
  repeat' first
    | with_reducible assumption
    | with_reducible apply violate_keeps
    | with_reducible apply postCpl_keeps
    | (with_reducible refine Sub.trans (Sub.ok ?_) hm); rfl
    | dsimp only
    | split

theorem enter_keeps {m : Nat} {b : State} {a1 : Cmd} {s : State} (h : Keeps m b s)
    (hm : Sub 1050628 m) : Keeps m b (enter a1 s).2 := by
  unfold enter
  repeat' first
    | with_reducible assumption
    | with_reducible apply putInflight_keeps
    | with_reducible apply setCmds_keeps
    | (with_reducible refine Sub.trans (Sub.ok ?_) hm); rfl
    | dsimp only
    | split

/-! ## A command on its way -/

variable {m k : Nat} {b s : State} {sp : CmdSpec} {f : InFlight} {c : Cmd}

theorem judge_keeps (hsp : CmdSpec.Keeps k sp) (hk : Sub k m) (h : Keeps m b s) : Reply.Keeps m b (judge sp c s) := by
  unfold judge
  repeat' first
    | with_reducible apply Reply.Keeps.ite
    | exact Reply.keeps_deny ..
    | exact badState_keeps ..
    | exact hsp m b c s h hk

/-- The units that carrying a command out may change besides its own. -/
abbrev completionSet : Nat := 847720222060

/-- The units that taking a command may change besides its own. -/
abbrev hostSet : Nat := 847720238572

theorem launch_keeps (hsp : CmdSpec.Keeps k sp) (hk : Sub k m) (hm : Sub completionSet m) (h : Keeps m b s) :
    Keeps m b (launch sp f s) := by
  have hj : Reply.Keeps m b (judge sp f.cmd s) := judge_keeps hsp hk h
  unfold launch
  dsimp only
  split
  · exact complete_keeps h (Sub.trans (Sub.ok rfl) hm)
  · rename_i e
    have hs := hj.out.out _ (congrArg Reply.state? e)
    repeat' first
      | with_reducible apply Keeps.ite
      | exact putFlight_keeps h (Sub.trans (Sub.ok rfl) hm)
      | exact complete_keeps hs (Sub.trans (Sub.ok rfl) hm)
  · rename_i e
    have hs := hj.out.out _ (congrArg Reply.state? e)
    repeat' first
      | with_reducible apply Keeps.ite
      | exact putFlight_keeps h (Sub.trans (Sub.ok rfl) hm)
      | exact putFlight_keeps hs (Sub.trans (Sub.ok rfl) hm)
  · rename_i e
    have hs := hj.out.out _ (congrArg Reply.state? e)
    with_reducible apply Keeps.ite
    · exact putFlight_keeps h (Sub.trans (Sub.ok rfl) hm)
    · exact Keeps.foldl (putFlight_keeps hs (Sub.trans (Sub.ok rfl) hm)) fun _ _ g =>
        finishDestroy_keeps g (Sub.trans (Sub.ok rfl) hm)

theorem release_keeps (hsp : CmdSpec.Keeps k sp) (hk : Sub k m) (hm : Sub (completionSet ||| 16384) m) (h : Keeps m b s) :
    Keeps m b (release sp f s) := by
  unfold release
  dsimp only
  repeat' first
    | with_reducible assumption
    | with_reducible apply Keeps.ite
    | with_reducible apply launch_keeps hsp hk
    | with_reducible apply putFlight_keeps
    | with_reducible apply setCmds_keeps
    | with_reducible apply setMerid_keeps
    | with_reducible apply tapeCommand_keeps
    | (with_reducible refine Sub.trans (Sub.ok ?_) hm); rfl
    | split

theorem schedule_keeps (hsp : CmdSpec.Keeps k sp) (hk : Sub k m) (hm : Sub (completionSet ||| 16384) m) (h : Keeps m b s) :
    Keeps m b (schedule sp f s) := by
  unfold schedule
  dsimp only
  repeat' first
    | with_reducible assumption
    | with_reducible apply Keeps.ite
    | with_reducible apply release_keeps hsp hk
    | with_reducible apply complete_keeps
    | with_reducible apply putFlight_keeps
    | with_reducible apply setMerid_keeps
    | (with_reducible refine Sub.trans (Sub.ok ?_) hm); rfl
    | split

/-- The units that packets may change (`packetFields`). -/
abbrev packetSet : Nat := 1099377278462

/-- The command of an opcode, if it is one, keeps as much. -/
def SpecOk (k : Nat) (o : Option CmdSpec) : Prop := ∀ sp, o = some sp → CmdSpec.Keeps k sp

theorem SpecOk.of {o : Option CmdSpec} (h : SpecOk k o) (e : o = some sp) : CmdSpec.Keeps k sp := h sp e

theorem SpecOk.none : SpecOk k none := fun _ e => nomatch e

theorem SpecOk.some (h : CmdSpec.Keeps k sp) : SpecOk k (some sp) := fun _ e => Option.some.inj e ▸ h

theorem dispatch_keeps {o : Option CmdSpec} (ho : SpecOk k o) (hk : Sub k m) (hm : Sub hostSet m) (h : Keeps m b s) :
    Keeps m b (dispatch o f s) := by
  cases o with
  | none =>
    unfold dispatch
    exact complete_keeps (tapeCommand_keeps h (Sub.trans (Sub.ok rfl) hm)) (Sub.trans (Sub.ok rfl) hm)
  | some sp =>
    have hsp := ho sp rfl
    unfold dispatch
    dsimp only
    repeat' first
      | with_reducible assumption
      | with_reducible apply Keeps.ite
      | with_reducible apply launch_keeps hsp hk
      | with_reducible apply schedule_keeps hsp hk
      | with_reducible apply complete_keeps
      | with_reducible apply violate_keeps
      | with_reducible apply tapeCommand_keeps
      | (with_reducible refine Sub.trans (Sub.ok ?_) hm); rfl
      | split

theorem take_keeps {o : Option CmdSpec} (ho : SpecOk k o) (hk : Sub k m) (hm : Sub hostSet m) (h : Keeps m b s) :
    Keeps m b (take o c s) := by
  unfold take
  dsimp only
  repeat' first
    | with_reducible assumption
    | with_reducible apply Keeps.ite
    | with_reducible apply dispatch_keeps ho hk
    | with_reducible apply malformed_keeps
    | with_reducible apply duplicate_keeps
    | with_reducible apply putFlight_keeps
    | with_reducible apply enter_keeps
    | (with_reducible refine Sub.trans (Sub.ok ?_) hm); rfl
    | split

theorem submit_keeps {a : Args} (hsp : CmdSpec.Keeps k sp) (hk : Sub k m) (hm : Sub hostSet m) (h : Keeps m b s) :
    Keeps m b (submit sp a s) := by
  unfold submit
  exact take_keeps (fun _ e => by
    cases e
    exact hsp) hk hm h

end Sys2Proof.Machine
end

