-- ==== Sys2Proof/Laws/KeepsRings.lean ====
section
/-! SUPPORT. Laws/KeepsRings.lean: what each operation of Machine/Rings.lean keeps. -/

set_option linter.unusedTactic false
set_option linter.unreachableTactic false
set_option linter.unusedVariables false

namespace Sys2Proof.Machine

theorem ringCreateUnit_keeps {m : Nat} {b : State} {a1 : Cmd} {s : State} (h : Keeps m b s)
    (hm : Sub 1050632 m) : Reply.Keeps m b (ringCreateUnit a1 s) := by
  unfold ringCreateUnit
  repeat' first
    | with_reducible assumption
    | with_reducible apply ok_keeps
    | with_reducible apply okWith_keeps
    | with_reducible apply badState_keeps
    | with_reducible apply badParam_keeps
    | with_reducible apply Reply.keeps_deny
    | with_reducible apply Reply.keeps_done
    | with_reducible apply Reply.keeps_later
    | with_reducible apply Reply.keeps_busy
    | with_reducible apply hostStore_keeps
    | with_reducible apply putRing_keeps
    | with_reducible apply pushEntry_keeps
    | with_reducible apply Keeps.foldl
    | with_reducible apply Reply.Keeps.ite
    | with_reducible apply Keeps.ite
    | (with_reducible refine Sub.trans (Sub.ok ?_) hm); rfl
    | with_reducible intro _ _ _
    | dsimp only
    | split

theorem ringCreateSpec_keeps : CmdSpec.Keeps 1050632 ringCreateSpec := by
  intro m b c s h hm
  unfold ringCreateSpec
  repeat' first
    | with_reducible assumption
    | with_reducible apply ok_keeps
    | with_reducible apply okWith_keeps
    | with_reducible apply badState_keeps
    | with_reducible apply badParam_keeps
    | with_reducible apply Reply.keeps_deny
    | with_reducible apply Reply.keeps_done
    | with_reducible apply Reply.keeps_later
    | with_reducible apply Reply.keeps_busy
    | with_reducible apply ringCreateUnit_keeps
    | (with_reducible refine Sub.trans (Sub.ok ?_) hm); rfl
    | dsimp only
    | split

theorem consume_keeps {m : Nat} {b : State} {s : State} {a1 a2 : Nat} (h : Keeps m b s)
    (hm : Sub 1050632 m) : Keeps m b (consume s a1 a2) := by
  unfold consume
  repeat' first
    | with_reducible assumption
    | with_reducible apply putRing_keeps
    | (with_reducible refine Sub.trans (Sub.ok ?_) hm); rfl
    | dsimp only
    | split

theorem skipTail_keeps {m : Nat} {b : State} {s : State} {a1 a2 : Nat} (h : Keeps m b s)
    (hm : Sub 1050632 m) : Keeps m b (skipTail s a1 a2) := by
  unfold skipTail
  repeat' first
    | with_reducible assumption
    | with_reducible apply putRing_keeps
    | (with_reducible refine Sub.trans (Sub.ok ?_) hm); rfl
    | dsimp only
    | split

theorem abortQueued_keeps {m : Nat} {b : State} {a1 : Nat} {s : State} {a2 : Nat} (h : Keeps m b s)
    (hm : Sub 549756865832 m) : Keeps m b (abortQueued a1 s a2) := by
  induction a1 generalizing s with
  | zero =>
    unfold abortQueued
    repeat' first
      | with_reducible assumption
      | with_reducible apply ih
      | with_reducible apply postCpl_keeps
      | with_reducible apply consume_keeps
      | with_reducible apply skipTail_keeps
      | with_reducible apply Keeps.ite
      | (with_reducible refine Sub.trans (Sub.ok ?_) hm); rfl
      | dsimp only
      | split
  | succ k ih =>
    unfold abortQueued
    repeat' first
      | with_reducible assumption
      | with_reducible apply ih
      | with_reducible apply postCpl_keeps
      | with_reducible apply consume_keeps
      | with_reducible apply skipTail_keeps
      | with_reducible apply Keeps.ite
      | (with_reducible refine Sub.trans (Sub.ok ?_) hm); rfl
      | dsimp only
      | split

theorem freePlainSlot_keeps {m : Nat} {b : State} {s : State} {a1 : Origin} {a2 : Nat} (h : Keeps m b s)
    (hm : Sub 16384 m) : Keeps m b (freePlainSlot s a1 a2) := by
  unfold freePlainSlot
  repeat' first
    | with_reducible assumption
    | with_reducible apply setMerid_keeps
    | (with_reducible refine Sub.trans (Sub.ok ?_) hm); rfl
    | dsimp only
    | split

theorem abortFlight_keeps {m : Nat} {b : State} {s : State} {a1 : InFlight} (h : Keeps m b s)
    (hm : Sub 549756882284 m) : Keeps m b (abortFlight s a1) := by
  unfold abortFlight
  repeat' first
    | with_reducible assumption
    | with_reducible apply complete1_keeps
    | with_reducible apply freePlainSlot_keeps
    | with_reducible apply Keeps.ite
    | (with_reducible refine Sub.trans (Sub.ok ?_) hm); rfl
    | dsimp only
    | split

theorem ringDestroyUnit_keeps {m : Nat} {b : State} {a1 : Cmd} {s : State} (h : Keeps m b s)
    (hm : Sub 847720238444 m) : Reply.Keeps m b (ringDestroyUnit a1 s) := by
  unfold ringDestroyUnit
  repeat' first
    | with_reducible assumption
    | with_reducible apply ok_keeps
    | with_reducible apply okWith_keeps
    | with_reducible apply badState_keeps
    | with_reducible apply badParam_keeps
    | with_reducible apply Reply.keeps_deny
    | with_reducible apply Reply.keeps_done
    | with_reducible apply Reply.keeps_later
    | with_reducible apply Reply.keeps_busy
    | with_reducible apply dropRing_keeps
    | with_reducible apply abortQueued_keeps
    | with_reducible apply abortFlight_keeps
    | with_reducible apply setRings_keeps
    | with_reducible apply Keeps.foldl
    | with_reducible apply Keeps.foldl_fst
    | with_reducible apply Keeps.foldl_snd
    | with_reducible apply Reply.Keeps.ite
    | with_reducible apply Keeps.ite
    | (with_reducible refine Sub.trans (Sub.ok ?_) hm); rfl
    | with_reducible intro _ _ _
    | dsimp only
    | split

theorem ringDestroySpec_keeps : CmdSpec.Keeps 847720238444 ringDestroySpec := by
  intro m b c s h hm
  unfold ringDestroySpec
  repeat' first
    | with_reducible assumption
    | with_reducible apply ok_keeps
    | with_reducible apply okWith_keeps
    | with_reducible apply badState_keeps
    | with_reducible apply badParam_keeps
    | with_reducible apply Reply.keeps_deny
    | with_reducible apply Reply.keeps_done
    | with_reducible apply Reply.keeps_later
    | with_reducible apply Reply.keeps_busy
    | with_reducible apply ringDestroyUnit_keeps
    | (with_reducible refine Sub.trans (Sub.ok ?_) hm); rfl
    | dsimp only
    | split

theorem ringResetUnit_keeps {m : Nat} {b : State} {a1 : Cmd} {s : State} (h : Keeps m b s)
    (hm : Sub 1050632 m) : Reply.Keeps m b (ringResetUnit a1 s) := by
  unfold ringResetUnit
  repeat' first
    | with_reducible assumption
    | with_reducible apply ok_keeps
    | with_reducible apply okWith_keeps
    | with_reducible apply badState_keeps
    | with_reducible apply badParam_keeps
    | with_reducible apply Reply.keeps_deny
    | with_reducible apply Reply.keeps_done
    | with_reducible apply Reply.keeps_later
    | with_reducible apply Reply.keeps_busy
    | with_reducible apply putRing_keeps
    | with_reducible apply Reply.Keeps.ite
    | with_reducible apply Keeps.ite
    | (with_reducible refine Sub.trans (Sub.ok ?_) hm); rfl
    | dsimp only
    | split

theorem ringResetSpec_keeps : CmdSpec.Keeps 1050632 ringResetSpec := by
  intro m b c s h hm
  unfold ringResetSpec
  repeat' first
    | with_reducible assumption
    | with_reducible apply ok_keeps
    | with_reducible apply okWith_keeps
    | with_reducible apply badState_keeps
    | with_reducible apply badParam_keeps
    | with_reducible apply Reply.keeps_deny
    | with_reducible apply Reply.keeps_done
    | with_reducible apply Reply.keeps_later
    | with_reducible apply Reply.keeps_busy
    | with_reducible apply ringResetUnit_keeps
    | (with_reducible refine Sub.trans (Sub.ok ?_) hm); rfl
    | dsimp only
    | split

theorem winSetUnit_keeps {m : Nat} {b : State} {a1 : Cmd} {s : State} (h : Keeps m b s)
    (hm : Sub 16 m) : Reply.Keeps m b (winSetUnit a1 s) := by
  unfold winSetUnit
  repeat' first
    | with_reducible assumption
    | with_reducible apply ok_keeps
    | with_reducible apply okWith_keeps
    | with_reducible apply badState_keeps
    | with_reducible apply badParam_keeps
    | with_reducible apply Reply.keeps_deny
    | with_reducible apply Reply.keeps_done
    | with_reducible apply Reply.keeps_later
    | with_reducible apply Reply.keeps_busy
    | with_reducible apply setWins_keeps
    | with_reducible apply Reply.Keeps.ite
    | with_reducible apply Keeps.ite
    | (with_reducible refine Sub.trans (Sub.ok ?_) hm); rfl
    | dsimp only
    | split

theorem winSetSpec_keeps : CmdSpec.Keeps 16 winSetSpec := by
  intro m b c s h hm
  unfold winSetSpec
  repeat' first
    | with_reducible assumption
    | with_reducible apply ok_keeps
    | with_reducible apply okWith_keeps
    | with_reducible apply badState_keeps
    | with_reducible apply badParam_keeps
    | with_reducible apply Reply.keeps_deny
    | with_reducible apply Reply.keeps_done
    | with_reducible apply Reply.keeps_later
    | with_reducible apply Reply.keeps_busy
    | with_reducible apply winSetUnit_keeps
    | (with_reducible refine Sub.trans (Sub.ok ?_) hm); rfl
    | dsimp only
    | split

theorem eventWindowSetUnit_keeps {m : Nat} {b : State} {a1 : Cmd} {s : State} (h : Keeps m b s)
    (hm : Sub 64 m) : Reply.Keeps m b (eventWindowSetUnit a1 s) := by
  unfold eventWindowSetUnit
  repeat' first
    | with_reducible assumption
    | with_reducible apply ok_keeps
    | with_reducible apply okWith_keeps
    | with_reducible apply badState_keeps
    | with_reducible apply badParam_keeps
    | with_reducible apply Reply.keeps_deny
    | with_reducible apply Reply.keeps_done
    | with_reducible apply Reply.keeps_later
    | with_reducible apply Reply.keeps_busy
    | with_reducible apply setEv_keeps
    | exact id
    | exact EvOk.windows _
    | exact EvOk.tail (by assumption)
    | (with_reducible refine Sub.trans (Sub.ok ?_) hm); rfl
    | dsimp only
    | split

theorem eventWindowSetSpec_keeps : CmdSpec.Keeps 64 eventWindowSetSpec := by
  intro m b c s h hm
  unfold eventWindowSetSpec
  repeat' first
    | with_reducible assumption
    | with_reducible apply ok_keeps
    | with_reducible apply okWith_keeps
    | with_reducible apply badState_keeps
    | with_reducible apply badParam_keeps
    | with_reducible apply Reply.keeps_deny
    | with_reducible apply Reply.keeps_done
    | with_reducible apply Reply.keeps_later
    | with_reducible apply Reply.keeps_busy
    | with_reducible apply eventWindowSetUnit_keeps
    | (with_reducible refine Sub.trans (Sub.ok ?_) hm); rfl
    | dsimp only
    | split

theorem unsupported_keeps {m : Nat} {b : State} {s : State} {a1 a2 a3 : Nat} (h : Keeps m b s)
    (hm : Sub 2240 m) : Keeps m b (unsupported s a1 a2 a3) := by
  unfold unsupported
  repeat' first
    | with_reducible assumption
    | with_reducible apply violate_keeps
    | with_reducible apply setPcie_keeps
    | (with_reducible refine Sub.trans (Sub.ok ?_) hm); rfl
    | dsimp only
    | split

theorem execDoorbellWrite_keeps {m : Nat} {b : State} {a1 : BitVec 16} {a2 : BitVec 32} {a3 : List (Nat × BitVec 8)} {s : State} (h : Keeps m b s)
    (hm : Sub 1050824 m) : NextKeeps m b (execDoorbellWrite a1 a2 a3 s) := by
  unfold execDoorbellWrite
  repeat' first
    | with_reducible assumption
    | with_reducible apply NextKeeps.next
    | with_reducible apply violate_keeps
    | with_reducible apply unsupported_keeps
    | with_reducible apply setRings_keeps
    | with_reducible apply setHost_keeps
    | exact fun h => memCells_wf h
    | with_reducible apply NextKeeps.ite
    | with_reducible apply Keeps.ite
    | (with_reducible refine Sub.trans (Sub.ok ?_) hm); rfl
    | dsimp only
    | split

theorem execCompletionRingSpace_keeps {m : Nat} {b : State} {a1 : Nat} {s : State} (h : Keeps m b s)
    (hm : Sub 1050632 m) : NextKeeps m b (execCompletionRingSpace a1 s) := by
  unfold execCompletionRingSpace
  repeat' first
    | with_reducible assumption
    | with_reducible apply NextKeeps.next
    | with_reducible apply drainHeld_keeps
    | (with_reducible refine Sub.trans (Sub.ok ?_) hm); rfl
    | dsimp only
    | split

theorem execEventWindowClose_keeps {m : Nat} {b : State} {s : State} (h : Keeps m b s)
    (hm : Sub 549756864872 m) : NextKeeps m b (execEventWindowClose s) := by
  unfold execEventWindowClose
  repeat' first
    | with_reducible assumption
    | with_reducible apply NextKeeps.next
    | with_reducible apply postEvent_keeps
    | with_reducible apply setEv_keeps
    | exact id
    | exact EvOk.windows _
    | exact EvOk.tail (by assumption)
    | (with_reducible refine Sub.trans (Sub.ok ?_) hm); rfl
    | dsimp only
    | split

theorem execUrgentEventPost_keeps {m : Nat} {b : State} {s : State} (h : Keeps m b s)
    (hm : Sub 549756864872 m) : NextKeeps m b (execUrgentEventPost s) := by
  unfold execUrgentEventPost
  repeat' first
    | with_reducible assumption
    | with_reducible apply NextKeeps.next
    | with_reducible apply postEvent_keeps
    | with_reducible apply setEv_keeps
    | exact id
    | exact EvOk.windows _
    | exact EvOk.tail (by assumption)
    | with_reducible apply NextKeeps.ite
    | with_reducible apply Keeps.ite
    | (with_reducible refine Sub.trans (Sub.ok ?_) hm); rfl
    | dsimp only
    | split

theorem coverRing_keeps {m : Nat} {b : State} {s : State} {a1 : Nat} {a2 : Machine.Ring} (h : Keeps m b s)
    (hm : Sub 2056 m) : Keeps m b (coverRing s a1 a2) := by
  unfold coverRing
  repeat' first
    | with_reducible assumption
    | with_reducible apply raiseVector_keeps
    | with_reducible apply setRings_keeps
    | (with_reducible refine Sub.trans (Sub.ok ?_) hm); rfl
    | dsimp only
    | split

theorem execMsixInterrupt_keeps {m : Nat} {b : State} {a1 : Nat} {s : State} (h : Keeps m b s)
    (hm : Sub 2056 m) : NextKeeps m b (execMsixInterrupt a1 s) := by
  unfold execMsixInterrupt
  repeat' first
    | with_reducible assumption
    | with_reducible apply NextKeeps.next
    | with_reducible apply coverRing_keeps
    | with_reducible apply NextKeeps.ite
    | with_reducible apply Keeps.ite
    | (with_reducible refine Sub.trans (Sub.ok ?_) hm); rfl
    | dsimp only
    | split

theorem execModTimeExpiry_keeps {m : Nat} {b : State} {a1 : Nat} {a2 : Sid} {s : State} (h : Keeps m b s)
    (hm : Sub 2058 m) : NextKeeps m b (execModTimeExpiry a1 a2 s) := by
  unfold execModTimeExpiry
  repeat' first
    | with_reducible assumption
    | with_reducible apply NextKeeps.next
    | with_reducible apply advance_keeps
    | with_reducible apply coverRing_keeps
    | with_reducible apply NextKeeps.ite
    | with_reducible apply Keeps.ite
    | (with_reducible refine Sub.trans (Sub.ok ?_) hm); rfl
    | dsimp only
    | split

theorem execMailboxVector_keeps {m : Nat} {b : State} {s : State} (h : Keeps m b s)
    (hm : Sub 2080 m) : NextKeeps m b (execMailboxVector s) := by
  unfold execMailboxVector
  repeat' first
    | with_reducible assumption
    | with_reducible apply NextKeeps.next
    | with_reducible apply raiseVector_keeps
    | with_reducible apply setMbx_keeps
    | with_reducible apply NextKeeps.ite
    | with_reducible apply Keeps.ite
    | (with_reducible refine Sub.trans (Sub.ok ?_) hm); rfl
    | dsimp only
    | split

theorem execMsixVectorUnmask_keeps {m : Nat} {b : State} {a1 : Nat} {s : State} (h : Keeps m b s)
    (hm : Sub 2048 m) : NextKeeps m b (execMsixVectorUnmask a1 s) := by
  unfold execMsixVectorUnmask
  repeat' first
    | with_reducible assumption
    | with_reducible apply NextKeeps.next
    | with_reducible apply raiseVector_keeps
    | with_reducible apply setPcie_keeps
    | with_reducible apply NextKeeps.ite
    | with_reducible apply Keeps.ite
    | (with_reducible refine Sub.trans (Sub.ok ?_) hm); rfl
    | dsimp only
    | split

theorem loseBlock_keeps {m : Nat} {b : State} {s : State} {a1 : Nat} {a2 : Machine.Ring} (h : Keeps m b s)
    (hm : Sub 1050632 m) : Keeps m b (loseBlock s a1 a2) := by
  unfold loseBlock
  repeat' first
    | with_reducible assumption
    | with_reducible apply putRing_keeps
    | (with_reducible refine Sub.trans (Sub.ok ?_) hm); rfl
    | dsimp only
    | split

theorem ringDenied_keeps {m : Nat} {b s : State} {n off : Nat} {k : RingKind} {v : Bool} {r : Reply}
    (e : ringDenied s n off k v = some r) : Reply.Keeps m b r := by
  unfold ringDenied at e
  repeat' split at e
  all_goals first
    | simp at e; done
    | (cases e; exact Reply.keeps_deny ..)

theorem ringDenied_keeps_unless {m : Nat} {b s : State} {n off : Nat} {k : RingKind} {v : Bool} {r : Reply} {c : Prop}
    {_ : Decidable c} (e : (if c then none else ringDenied s n off k v) = some r) : Reply.Keeps m b r := by
  split at e
  · cases e
  · exact ringDenied_keeps e

theorem stopStream_keeps {m : Nat} {b : State} {s : State} {a1 : Nat} {a2 : Machine.Ring} {a3 : Nat} (h : Keeps m b s)
    (hm : Sub 1050824 m) : Keeps m b (stopStream s a1 a2 a3) := by
  unfold stopStream
  repeat' first
    | with_reducible assumption
    | with_reducible apply putRing_keeps
    | with_reducible apply violate_keeps
    | (with_reducible refine Sub.trans (Sub.ok ?_) hm); rfl
    | dsimp only
    | split

theorem returnBuf_keeps {m : Nat} {b : State} {s : State} {a1 : Nat} {a2 : Machine.Ring} {a3 : Nat} {a4 : Bool} (h : Keeps m b s)
    (hm : Sub 1050632 m) : Keeps m b (returnBuf s a1 a2 a3 a4) := by
  unfold returnBuf
  repeat' first
    | with_reducible assumption
    | with_reducible apply hostStore_keeps
    | with_reducible apply putRing_keeps
    | (with_reducible refine Sub.trans (Sub.ok ?_) hm); rfl
    | dsimp only
    | split

theorem writeBuf_keeps {m : Nat} {b : State} {s : State} {a1 : Nat} {a2 : Machine.Ring} {a3 : Bytes} (h : Keeps m b s)
    (hm : Sub 1050632 m) : Keeps m b (writeBuf s a1 a2 a3) := by
  unfold writeBuf
  repeat' first
    | with_reducible assumption
    | with_reducible apply hostStore_keeps
    | with_reducible apply putRing_keeps
    | with_reducible apply returnBuf_keeps
    | with_reducible apply Keeps.ite
    | (with_reducible refine Sub.trans (Sub.ok ?_) hm); rfl
    | dsimp only
    | split

theorem feedBytes_keeps {m : Nat} {b : State} {a1 : Bool} {a2 : Nat} {a3 : Bytes} {a4 : Nat} {s : State} (h : Keeps m b s)
    (hm : Sub 1050824 m) : Keeps m b (feedBytes a1 a2 a3 a4 s) := by
  induction a4 generalizing s with
  | zero =>
    unfold feedBytes
    repeat' first
      | with_reducible assumption
      | with_reducible apply ih
      | with_reducible apply loseBlock_keeps
      | with_reducible apply stopStream_keeps
      | with_reducible apply returnBuf_keeps
      | with_reducible apply writeBuf_keeps
      | with_reducible apply Keeps.ite
      | (with_reducible refine Sub.trans (Sub.ok ?_) hm); rfl
      | dsimp only
      | split
  | succ k ih =>
    unfold feedBytes
    repeat' first
      | with_reducible assumption
      | with_reducible apply ih
      | with_reducible apply loseBlock_keeps
      | with_reducible apply stopStream_keeps
      | with_reducible apply returnBuf_keeps
      | with_reducible apply writeBuf_keeps
      | with_reducible apply Keeps.ite
      | (with_reducible refine Sub.trans (Sub.ok ?_) hm); rfl
      | dsimp only
      | split

theorem feedRing_keeps {m : Nat} {b : State} {s : State} {a1 : Nat} {a2 : Bytes} (h : Keeps m b s)
    (hm : Sub 1050824 m) : Keeps m b (feedRing s a1 a2) := by
  unfold feedRing
  repeat' first
    | with_reducible assumption
    | with_reducible apply feedBytes_keeps
    | (with_reducible refine Sub.trans (Sub.ok ?_) hm); rfl
    | dsimp only
    | split

theorem feedBlock_keeps {m : Nat} {b : State} {s : State} {a1 : Nat} {a2 : Bytes} (h : Keeps m b s)
    (hm : Sub 1050824 m) : Keeps m b (feedBlock s a1 a2) := by
  unfold feedBlock
  repeat' first
    | with_reducible assumption
    | with_reducible apply feedBytes_keeps
    | (with_reducible refine Sub.trans (Sub.ok ?_) hm); rfl
    | dsimp only
    | split

theorem execStreamDescriptorUse_keeps {m : Nat} {b : State} {a1 a2 : Nat} {s : State} (h : Keeps m b s)
    (hm : Sub 1050824 m) : NextKeeps m b (execStreamDescriptorUse a1 a2 s) := by
  unfold execStreamDescriptorUse
  repeat' first
    | with_reducible assumption
    | with_reducible apply NextKeeps.next
    | with_reducible apply stopStream_keeps
    | with_reducible apply returnBuf_keeps
    | with_reducible apply setPcie_keeps
    | with_reducible apply NextKeeps.ite
    | with_reducible apply Keeps.ite
    | (with_reducible refine Sub.trans (Sub.ok ?_) hm); rfl
    | dsimp only
    | split

theorem execDmaError_keeps {m : Nat} {b : State} {a1 : Nat} {a2 : Sid} {s : State} (h : Keeps m b s)
    (hm : Sub 1050698 m) : NextKeeps m b (execDmaError a1 a2 s) := by
  unfold execDmaError
  repeat' first
    | with_reducible assumption
    | with_reducible apply NextKeeps.next
    | with_reducible apply advance_keeps
    | with_reducible apply putRing_keeps
    | with_reducible apply raise_keeps
    | with_reducible apply setPcie_keeps
    | (with_reducible refine Sub.trans (Sub.ok ?_) hm); rfl
    | dsimp only
    | split

theorem execPcieIslandReset_keeps {m : Nat} {b : State} {a1 : Bool} {a2 : Sid} {s : State} (h : Keeps m b s)
    (hm : Sub 18558 m) : NextKeeps m b (execPcieIslandReset a1 a2 s) := by
  unfold execPcieIslandReset
  repeat' first
    | with_reducible assumption
    | with_reducible apply NextKeeps.next
    | with_reducible apply advance_keeps
    | with_reducible apply raise_keeps
    | with_reducible apply freeHeld_keeps
    | with_reducible apply setPcie_keeps
    | with_reducible apply setMbx_keeps
    | with_reducible apply setMerid_keeps
    | with_reducible apply setRings_keeps
    | with_reducible apply setWins_keeps
    | with_reducible apply setCmds_keeps
    | with_reducible apply NextKeeps.ite
    | with_reducible apply Keeps.ite
    | (with_reducible refine Sub.trans (Sub.ok ?_) hm); rfl
    | dsimp only
    | split

theorem execPcieLinkUp_keeps {m : Nat} {b : State} {a1 a2 : Byte} {a3 : Sid} {s : State} (h : Keeps m b s)
    (hm : Sub 2099266 m) : NextKeeps m b (execPcieLinkUp a1 a2 a3 s) := by
  unfold execPcieLinkUp
  repeat' first
    | with_reducible assumption
    | with_reducible apply NextKeeps.next
    | with_reducible apply advance_keeps
    | with_reducible apply raise_keeps
    | with_reducible apply setFree_keeps
    | with_reducible apply setPcie_keeps
    | with_reducible apply NextKeeps.ite
    | with_reducible apply Keeps.ite
    | (with_reducible refine Sub.trans (Sub.ok ?_) hm); rfl
    | dsimp only
    | split

theorem sendPending_keeps {m : Nat} {b : State} {s : State} {a1 : Nat} (h : Keeps m b s)
    (hm : Sub 2048 m) : Keeps m b (sendPending s a1) := by
  unfold sendPending
  repeat' first
    | with_reducible assumption
    | with_reducible apply raiseVector_keeps
    | with_reducible apply setPcie_keeps
    | with_reducible apply Keeps.ite
    | (with_reducible refine Sub.trans (Sub.ok ?_) hm); rfl
    | dsimp only
    | split

theorem execPcieD3hot_keeps {m : Nat} {b : State} {a1 : Bool} {s : State} (h : Keeps m b s)
    (hm : Sub 2048 m) : NextKeeps m b (execPcieD3hot a1 s) := by
  unfold execPcieD3hot
  repeat' first
    | with_reducible assumption
    | with_reducible apply NextKeeps.next
    | with_reducible apply sendPending_keeps
    | with_reducible apply setPcie_keeps
    | with_reducible apply Keeps.foldl
    | with_reducible apply NextKeeps.ite
    | with_reducible apply Keeps.ite
    | (with_reducible refine Sub.trans (Sub.ok ?_) hm); rfl
    | with_reducible intro _ _ _
    | dsimp only
    | split

theorem execBar0InvalidAccess_keeps {m : Nat} {b : State} {a1 : Bool} {a2 : BitVec 16} {a3 : Nat} {s : State} (h : Keeps m b s)
    (hm : Sub 2240 m) : NextKeeps m b (execBar0InvalidAccess a1 a2 a3 s) := by
  unfold execBar0InvalidAccess
  repeat' first
    | with_reducible assumption
    | with_reducible apply NextKeeps.next
    | with_reducible apply unsupported_keeps
    | with_reducible apply NextKeeps.ite
    | with_reducible apply Keeps.ite
    | (with_reducible refine Sub.trans (Sub.ok ?_) hm); rfl
    | dsimp only
    | split

end Sys2Proof.Machine
end

