-- ==== Sys2Proof/Laws/KeepsTime.lean ====
section
/-! SUPPORT. Laws/KeepsTime.lean: what each operation of Machine/Time.lean keeps. -/

set_option linter.unusedTactic false
set_option linter.unreachableTactic false
set_option linter.unusedVariables false

namespace Sys2Proof.Machine

theorem evTimeCause_keeps {m : Nat} {b : State} {s : State} {a1 : Nat} (h : Keeps m b s)
    (hm : Sub 64 m) : Keeps m b (evTimeCause s a1) := by
  unfold evTimeCause
  repeat' first
    | with_reducible assumption
    | with_reducible apply raise_keeps
    | (with_reducible refine Sub.trans (Sub.ok ?_) hm); rfl
    | dsimp only
    | split

theorem ppsDrop_keeps {m : Nat} {b : State} {s : State} (h : Keeps m b s)
    (hm : Sub 8192 m) : Keeps m b (ppsDrop s) := by
  unfold ppsDrop
  repeat' first
    | with_reducible assumption
    | with_reducible apply setClk_keeps
    | with_reducible apply Keeps.ite
    | (with_reducible refine Sub.trans (Sub.ok ?_) hm); rfl
    | dsimp only
    | split

theorem coastRate_keeps {m : Nat} {b : State} {s : State} (h : Keeps m b s)
    (hm : Sub 8194 m) : Keeps m b (coastRate s) := by
  unfold coastRate
  repeat' first
    | with_reducible assumption
    | with_reducible apply ppsDrop_keeps
    | with_reducible apply setSid_keeps
    | (with_reducible refine Sub.trans (Sub.ok ?_) hm); rfl
    | dsimp only
    | split

theorem coast_keeps {m : Nat} {b : State} {s : State} (h : Keeps m b s)
    (hm : Sub 8258 m) : Keeps m b (coast s) := by
  unfold coast
  repeat' first
    | with_reducible assumption
    | with_reducible apply evTimeCause_keeps
    | with_reducible apply coastRate_keeps
    | with_reducible apply setSid_keeps
    | with_reducible apply Keeps.ite
    | (with_reducible refine Sub.trans (Sub.ok ?_) hm); rfl
    | dsimp only
    | split

theorem refuseStep_keeps {m : Nat} {b : State} {s : State} {a1 : Int} (h : Keeps m b s)
    (hm : Sub 8258 m) : Keeps m b (refuseStep s a1) := by
  unfold refuseStep
  repeat' first
    | with_reducible assumption
    | with_reducible apply raise_keeps
    | with_reducible apply coastRate_keeps
    | with_reducible apply setSid_keeps
    | (with_reducible refine Sub.trans (Sub.ok ?_) hm); rfl
    | dsimp only
    | split

theorem servo_keeps {m : Nat} {b : State} {s : State} {a1 : Int} (h : Keeps m b s)
    (hm : Sub 549755813890 m) : Keeps m b (servo s a1) := by
  unfold servo
  repeat' first
    | with_reducible assumption
    | with_reducible apply tape_keeps
    | with_reducible apply setSid_keeps
    | with_reducible apply Keeps.ite
    | (with_reducible refine Sub.trans (Sub.ok ?_) hm); rfl
    | dsimp only
    | split

theorem lossRestart_keeps {m : Nat} {b : State} {s : State} (h : Keeps m b s)
    (hm : Sub 2 m) : Keeps m b (lossRestart s) := by
  unfold lossRestart
  repeat' first
    | with_reducible assumption
    | with_reducible apply setSid_keeps
    | (with_reducible refine Sub.trans (Sub.ok ?_) hm); rfl
    | dsimp only
    | split

theorem toDisciplined_keeps {m : Nat} {b : State} {s : State} (h : Keeps m b s)
    (hm : Sub 2 m) : Keeps m b (toDisciplined s) := by
  unfold toDisciplined
  repeat' first
    | with_reducible assumption
    | with_reducible apply setSid_keeps
    | (with_reducible refine Sub.trans (Sub.ok ?_) hm); rfl
    | dsimp only
    | split

theorem sampleAcquiring_keeps {m : Nat} {b : State} {s : State} (h : Keeps m b s)
    (hm : Sub 66 m) : Keeps m b (sampleAcquiring s) := by
  unfold sampleAcquiring
  repeat' first
    | with_reducible assumption
    | with_reducible apply evTimeCause_keeps
    | with_reducible apply lossRestart_keeps
    | with_reducible apply toDisciplined_keeps
    | with_reducible apply setSid_keeps
    | with_reducible apply Keeps.ite
    | (with_reducible refine Sub.trans (Sub.ok ?_) hm); rfl
    | dsimp only
    | split

theorem sample_keeps {m : Nat} {b : State} {s : State} {a1 : Int} {a2 : Bool} (h : Keeps m b s)
    (hm : Sub 549755822146 m) : Keeps m b (sample s a1 a2) := by
  unfold sample
  repeat' first
    | with_reducible assumption
    | with_reducible apply refuseStep_keeps
    | with_reducible apply servo_keeps
    | with_reducible apply lossRestart_keeps
    | with_reducible apply sampleAcquiring_keeps
    | with_reducible apply setSid_keeps
    | with_reducible apply Keeps.ite
    | (with_reducible refine Sub.trans (Sub.ok ?_) hm); rfl
    | dsimp only
    | split

theorem timeSrcSetUnit_keeps {m : Nat} {b : State} {a1 : Cmd} {s : State} (h : Keeps m b s)
    (hm : Sub 2 m) : Reply.Keeps m b (timeSrcSetUnit a1 s) := by
  unfold timeSrcSetUnit
  repeat' first
    | with_reducible assumption
    | with_reducible apply ok_keeps
    | with_reducible apply okWith_keeps
    | with_reducible apply badState_keeps
    | with_reducible apply badParam_keeps
    | with_reducible apply Reply.keeps_deny
    | with_reducible apply Reply.keeps_done
    | with_reducible apply Reply.keeps_later
    | with_reducible apply Reply.keeps_busy
    | with_reducible apply lossRestart_keeps
    | with_reducible apply setSid_keeps
    | with_reducible apply Reply.Keeps.ite
    | with_reducible apply Keeps.ite
    | (with_reducible refine Sub.trans (Sub.ok ?_) hm); rfl
    | dsimp only
    | split

theorem timeSrcSetSpec_keeps : CmdSpec.Keeps 2 timeSrcSetSpec := by
  intro m b c s h hm
  unfold timeSrcSetSpec
  repeat' first
    | with_reducible assumption
    | with_reducible apply ok_keeps
    | with_reducible apply okWith_keeps
    | with_reducible apply badState_keeps
    | with_reducible apply badParam_keeps
    | with_reducible apply Reply.keeps_deny
    | with_reducible apply Reply.keeps_done
    | with_reducible apply Reply.keeps_later
    | with_reducible apply Reply.keeps_busy
    | with_reducible apply timeSrcSetUnit_keeps
    | (with_reducible refine Sub.trans (Sub.ok ?_) hm); rfl
    | dsimp only
    | split

theorem ptpSetUnit_keeps {m : Nat} {b : State} {a1 : Cmd} {s : State} (h : Keeps m b s)
    (hm : Sub 2 m) : Reply.Keeps m b (ptpSetUnit a1 s) := by
  unfold ptpSetUnit
  repeat' first
    | with_reducible assumption
    | with_reducible apply ok_keeps
    | with_reducible apply okWith_keeps
    | with_reducible apply badState_keeps
    | with_reducible apply badParam_keeps
    | with_reducible apply Reply.keeps_deny
    | with_reducible apply Reply.keeps_done
    | with_reducible apply Reply.keeps_later
    | with_reducible apply Reply.keeps_busy
    | with_reducible apply setSid_keeps
    | with_reducible apply Reply.Keeps.ite
    | with_reducible apply Keeps.ite
    | (with_reducible refine Sub.trans (Sub.ok ?_) hm); rfl
    | dsimp only
    | split

theorem ptpSetSpec_keeps : CmdSpec.Keeps 2 ptpSetSpec := by
  intro m b c s h hm
  unfold ptpSetSpec
  repeat' first
    | with_reducible assumption
    | with_reducible apply ok_keeps
    | with_reducible apply okWith_keeps
    | with_reducible apply badState_keeps
    | with_reducible apply badParam_keeps
    | with_reducible apply Reply.keeps_deny
    | with_reducible apply Reply.keeps_done
    | with_reducible apply Reply.keeps_later
    | with_reducible apply Reply.keeps_busy
    | with_reducible apply ptpSetUnit_keeps
    | (with_reducible refine Sub.trans (Sub.ok ?_) hm); rfl
    | dsimp only
    | split

theorem timeSetUnit_keeps {m : Nat} {b : State} {a1 : Cmd} {s : State} (h : Keeps m b s)
    (hm : Sub 2 m) : Reply.Keeps m b (timeSetUnit a1 s) := by
  unfold timeSetUnit
  repeat' first
    | with_reducible assumption
    | with_reducible apply ok_keeps
    | with_reducible apply okWith_keeps
    | with_reducible apply badState_keeps
    | with_reducible apply badParam_keeps
    | with_reducible apply Reply.keeps_deny
    | with_reducible apply Reply.keeps_done
    | with_reducible apply Reply.keeps_later
    | with_reducible apply Reply.keeps_busy
    | with_reducible apply setSid_keeps
    | with_reducible apply Reply.Keeps.ite
    | with_reducible apply Keeps.ite
    | (with_reducible refine Sub.trans (Sub.ok ?_) hm); rfl
    | dsimp only
    | split

theorem timeSetSpec_keeps : CmdSpec.Keeps 2 timeSetSpec := by
  intro m b c s h hm
  unfold timeSetSpec
  repeat' first
    | with_reducible assumption
    | with_reducible apply ok_keeps
    | with_reducible apply okWith_keeps
    | with_reducible apply badState_keeps
    | with_reducible apply badParam_keeps
    | with_reducible apply Reply.keeps_deny
    | with_reducible apply Reply.keeps_done
    | with_reducible apply Reply.keeps_later
    | with_reducible apply Reply.keeps_busy
    | with_reducible apply timeSetUnit_keeps
    | (with_reducible refine Sub.trans (Sub.ok ?_) hm); rfl
    | dsimp only
    | split

theorem timeAcceptStepUnit_keeps {m : Nat} {b : State} {a1 : Cmd} {s : State} (h : Keeps m b s)
    (hm : Sub 2 m) : Reply.Keeps m b (timeAcceptStepUnit a1 s) := by
  unfold timeAcceptStepUnit
  repeat' first
    | with_reducible assumption
    | with_reducible apply ok_keeps
    | with_reducible apply okWith_keeps
    | with_reducible apply badState_keeps
    | with_reducible apply badParam_keeps
    | with_reducible apply Reply.keeps_deny
    | with_reducible apply Reply.keeps_done
    | with_reducible apply Reply.keeps_later
    | with_reducible apply Reply.keeps_busy
    | with_reducible apply setSid_keeps
    | with_reducible apply Reply.Keeps.ite
    | with_reducible apply Keeps.ite
    | (with_reducible refine Sub.trans (Sub.ok ?_) hm); rfl
    | dsimp only
    | split

theorem timeAcceptStepSpec_keeps : CmdSpec.Keeps 2 timeAcceptStepSpec := by
  intro m b c s h hm
  unfold timeAcceptStepSpec
  repeat' first
    | with_reducible assumption
    | with_reducible apply ok_keeps
    | with_reducible apply okWith_keeps
    | with_reducible apply badState_keeps
    | with_reducible apply badParam_keeps
    | with_reducible apply Reply.keeps_deny
    | with_reducible apply Reply.keeps_done
    | with_reducible apply Reply.keeps_later
    | with_reducible apply Reply.keeps_busy
    | with_reducible apply timeAcceptStepUnit_keeps
    | (with_reducible refine Sub.trans (Sub.ok ?_) hm); rfl
    | dsimp only
    | split

theorem startSlew_keeps {m : Nat} {b : State} {s : State} (h : Keeps m b s)
    (hm : Sub 847720222062 m) : Keeps m b (startSlew s) := by
  unfold startSlew
  repeat' first
    | with_reducible assumption
    | with_reducible apply complete_keeps
    | with_reducible apply toDisciplined_keeps
    | with_reducible apply setSid_keeps
    | with_reducible apply Keeps.ite
    | (with_reducible refine Sub.trans (Sub.ok ?_) hm); rfl
    | dsimp only
    | split

theorem timeAdjustUnit_keeps {m : Nat} {b : State} {a1 : Cmd} {s : State} (h : Keeps m b s)
    (hm : Sub 549755822146 m) : Reply.Keeps m b (timeAdjustUnit a1 s) := by
  unfold timeAdjustUnit
  repeat' first
    | with_reducible assumption
    | with_reducible apply ok_keeps
    | with_reducible apply okWith_keeps
    | with_reducible apply badState_keeps
    | with_reducible apply badParam_keeps
    | with_reducible apply Reply.keeps_deny
    | with_reducible apply Reply.keeps_done
    | with_reducible apply Reply.keeps_later
    | with_reducible apply Reply.keeps_busy
    | with_reducible apply sample_keeps
    | with_reducible apply Reply.Keeps.ite
    | with_reducible apply Keeps.ite
    | (with_reducible refine Sub.trans (Sub.ok ?_) hm); rfl
    | dsimp only
    | split

theorem timeAdjustSpec_keeps : CmdSpec.Keeps 549755822146 timeAdjustSpec := by
  intro m b c s h hm
  unfold timeAdjustSpec
  repeat' first
    | with_reducible assumption
    | with_reducible apply ok_keeps
    | with_reducible apply okWith_keeps
    | with_reducible apply badState_keeps
    | with_reducible apply badParam_keeps
    | with_reducible apply Reply.keeps_deny
    | with_reducible apply Reply.keeps_done
    | with_reducible apply Reply.keeps_later
    | with_reducible apply Reply.keeps_busy
    | with_reducible apply timeAdjustUnit_keeps
    | (with_reducible refine Sub.trans (Sub.ok ?_) hm); rfl
    | dsimp only
    | split

theorem timeGetSpec_keeps : CmdSpec.Keeps 0 timeGetSpec := by
  intro m b c s h hm
  unfold timeGetSpec
  repeat' first
    | with_reducible assumption
    | with_reducible apply ok_keeps
    | with_reducible apply okWith_keeps
    | with_reducible apply badState_keeps
    | with_reducible apply badParam_keeps
    | with_reducible apply Reply.keeps_deny
    | with_reducible apply Reply.keeps_done
    | with_reducible apply Reply.keeps_later
    | with_reducible apply Reply.keeps_busy
    | (with_reducible refine Sub.trans (Sub.ok ?_) hm); rfl
    | dsimp only
    | split

theorem applyStep_keeps {m : Nat} {b : State} {s : State} {a1 : StepReq} (h : Keeps m b s)
    (hm : Sub 847720222062 m) : Keeps m b (applyStep s a1) := by
  unfold applyStep
  repeat' first
    | with_reducible assumption
    | with_reducible apply tape_keeps
    | with_reducible apply complete_keeps
    | with_reducible apply evTimeCause_keeps
    | with_reducible apply setSid_keeps
    | with_reducible apply Keeps.ite
    | (with_reducible refine Sub.trans (Sub.ok ?_) hm); rfl
    | dsimp only
    | split

theorem setGm_keeps {m : Nat} {b : State} {s : State} {a1 : BitVec 64} (h : Keeps m b s)
    (hm : Sub 66 m) : Keeps m b (setGm s a1) := by
  unfold setGm
  repeat' first
    | with_reducible assumption
    | with_reducible apply evTimeCause_keeps
    | with_reducible apply setSid_keeps
    | with_reducible apply Keeps.ite
    | (with_reducible refine Sub.trans (Sub.ok ?_) hm); rfl
    | dsimp only
    | split

theorem ptpSync_keeps {m : Nat} {b : State} {s : State} {a1 a2 : Int} (h : Keeps m b s)
    (hm : Sub 549755822146 m) : Keeps m b (ptpSync s a1 a2) := by
  unfold ptpSync
  repeat' first
    | with_reducible assumption
    | with_reducible apply sample_keeps
    | with_reducible apply setSid_keeps
    | with_reducible apply Keeps.foldl
    | with_reducible apply Keeps.foldl_fst
    | with_reducible apply Keeps.foldl_snd
    | with_reducible apply Keeps.ite
    | (with_reducible refine Sub.trans (Sub.ok ?_) hm); rfl
    | with_reducible intro _ _ _
    | dsimp only
    | split

theorem syncIn_keeps {m : Nat} {b : State} {s : State} {a1 a2 : Int} (h : Keeps m b s)
    (hm : Sub 549755822146 m) : Keeps m b (syncIn s a1 a2) := by
  unfold syncIn
  repeat' first
    | with_reducible assumption
    | with_reducible apply ptpSync_keeps
    | with_reducible apply setSid_keeps
    | (with_reducible refine Sub.trans (Sub.ok ?_) hm); rfl
    | dsimp only
    | split

theorem execPtpMessage_keeps {m : Nat} {b : State} {a1 : PtpMsg} {a2 : Sid} {s : State} (h : Keeps m b s)
    (hm : Sub 549755826242 m) : NextKeeps m b (execPtpMessage a1 a2 s) := by
  unfold execPtpMessage
  repeat' first
    | with_reducible assumption
    | with_reducible apply NextKeeps.next
    | with_reducible apply advance_keeps
    | with_reducible apply setGm_keeps
    | with_reducible apply syncIn_keeps
    | with_reducible apply setSid_keeps
    | with_reducible apply setEth_keeps
    | with_reducible apply NextKeeps.ite
    | with_reducible apply Keeps.ite
    | (with_reducible refine Sub.trans (Sub.ok ?_) hm); rfl
    | dsimp only
    | split

theorem execPtpBmcaRoleChange_keeps {m : Nat} {b : State} {a1 : Bool} {a2 : Byte} {a3 : BitVec 64} {a4 : Sid} {s : State} (h : Keeps m b s)
    (hm : Sub 8258 m) : NextKeeps m b (execPtpBmcaRoleChange a1 a2 a3 a4 s) := by
  unfold execPtpBmcaRoleChange
  repeat' first
    | with_reducible assumption
    | with_reducible apply NextKeeps.next
    | with_reducible apply advance_keeps
    | with_reducible apply coast_keeps
    | with_reducible apply setGm_keeps
    | with_reducible apply setSid_keeps
    | with_reducible apply NextKeeps.ite
    | with_reducible apply Keeps.ite
    | (with_reducible refine Sub.trans (Sub.ok ?_) hm); rfl
    | dsimp only
    | split

theorem execPtpMessageSend_keeps {m : Nat} {b : State} {a1 : PtpOut} {a2 : Sid} {s : State} (h : Keeps m b s)
    (hm : Sub 4098 m) : NextKeeps m b (execPtpMessageSend a1 a2 s) := by
  unfold execPtpMessageSend
  repeat' first
    | with_reducible assumption
    | with_reducible apply NextKeeps.next
    | with_reducible apply advance_keeps
    | with_reducible apply setSid_keeps
    | with_reducible apply setEth_keeps
    | with_reducible apply NextKeeps.ite
    | with_reducible apply Keeps.ite
    | (with_reducible refine Sub.trans (Sub.ok ?_) hm); rfl
    | dsimp only
    | split

theorem execPpsInEdge_keeps {m : Nat} {b : State} {a1 : Bool} {a2 : Sid} {s : State} (h : Keeps m b s)
    (hm : Sub 549755822146 m) : NextKeeps m b (execPpsInEdge a1 a2 s) := by
  unfold execPpsInEdge
  repeat' first
    | with_reducible assumption
    | with_reducible apply NextKeeps.next
    | with_reducible apply advance_keeps
    | with_reducible apply sample_keeps
    | with_reducible apply NextKeeps.ite
    | with_reducible apply Keeps.ite
    | (with_reducible refine Sub.trans (Sub.ok ?_) hm); rfl
    | dsimp only
    | split

theorem execSourceLost_keeps {m : Nat} {b : State} {s : State} (h : Keeps m b s)
    (hm : Sub 8258 m) : NextKeeps m b (execSourceLost s) := by
  unfold execSourceLost
  repeat' first
    | with_reducible assumption
    | with_reducible apply NextKeeps.next
    | with_reducible apply coast_keeps
    | with_reducible apply NextKeeps.ite
    | with_reducible apply Keeps.ite
    | (with_reducible refine Sub.trans (Sub.ok ?_) hm); rfl
    | dsimp only
    | split

theorem execSlewWithinThreshold_keeps {m : Nat} {b : State} {s : State} (h : Keeps m b s)
    (hm : Sub 66 m) : NextKeeps m b (execSlewWithinThreshold s) := by
  unfold execSlewWithinThreshold
  repeat' first
    | with_reducible assumption
    | with_reducible apply NextKeeps.next
    | with_reducible apply evTimeCause_keeps
    | with_reducible apply setSid_keeps
    | with_reducible apply NextKeeps.ite
    | with_reducible apply Keeps.ite
    | (with_reducible refine Sub.trans (Sub.ok ?_) hm); rfl
    | dsimp only
    | split

end Sys2Proof.Machine
end

