-- ==== Sys2Proof/Laws/KeepsClocks.lean ====
section
/-! SUPPORT. Laws/KeepsClocks.lean: what each operation of Machine/Clocks.lean keeps. -/

set_option linter.unusedTactic false
set_option linter.unreachableTactic false
set_option linter.unusedVariables false

namespace Sys2Proof.Machine

theorem lockAttempt_keeps {m : Nat} {b : State} {s : State} {a1 : Nat} (h : Keeps m b s)
    (hm : Sub 8192 m) : Keeps m b (lockAttempt s a1) := by
  unfold lockAttempt
  repeat' first
    | with_reducible assumption
    | with_reducible apply setClk_keeps
    | (with_reducible refine Sub.trans (Sub.ok ?_) hm); rfl
    | dsimp only
    | split

theorem freezeWords_keeps {m : Nat} {b : State} {s : State} {a1 : Bool} (h : Keeps m b s)
    (hm : Sub 8192 m) : Keeps m b (freezeWords s a1) := by
  unfold freezeWords
  repeat' first
    | with_reducible assumption
    | with_reducible apply setClk_keeps
    | with_reducible apply Keeps.ite
    | (with_reducible refine Sub.trans (Sub.ok ?_) hm); rfl
    | dsimp only
    | split

theorem gateOutputs_keeps {m : Nat} {b : State} {s : State} (h : Keeps m b s)
    (hm : Sub 8192 m) : Keeps m b (gateOutputs s) := by
  unfold gateOutputs
  repeat' first
    | with_reducible assumption
    | with_reducible apply setClk_keeps
    | with_reducible apply Keeps.ite
    | (with_reducible refine Sub.trans (Sub.ok ?_) hm); rfl
    | dsimp only
    | split

theorem loopsTick_keeps {m : Nat} {b : State} {s : State} {a1 a2 : Int} (h : Keeps m b s)
    (hm : Sub 8192 m) : Keeps m b (loopsTick s a1 a2) := by
  unfold loopsTick
  repeat' first
    | with_reducible assumption
    | with_reducible apply gateOutputs_keeps
    | with_reducible apply setClk_keeps
    | with_reducible apply Keeps.ite
    | (with_reducible refine Sub.trans (Sub.ok ?_) hm); rfl
    | dsimp only
    | split

theorem putAudio_keeps {m : Nat} {b : State} {s : State} {a1 : Nat} {a2 : AudioChannel} (h : Keeps m b s)
    (hm : Sub 8192 m) : Keeps m b (putAudio s a1 a2) := by
  unfold putAudio
  repeat' first
    | with_reducible assumption
    | with_reducible apply setClk_keeps
    | with_reducible apply Keeps.ite
    | (with_reducible refine Sub.trans (Sub.ok ?_) hm); rfl
    | dsimp only
    | split

theorem audioUse_keeps {m : Nat} {b : State} {s : State} {a1 a2 : Nat} (h : Keeps m b s)
    (hm : Sub 8192 m) : Keeps m b (audioUse s a1 a2) := by
  unfold audioUse
  repeat' first
    | with_reducible assumption
    | with_reducible apply lockAttempt_keeps
    | with_reducible apply putAudio_keeps
    | with_reducible apply Keeps.ite
    | (with_reducible refine Sub.trans (Sub.ok ?_) hm); rfl
    | dsimp only
    | split

theorem audioRelease_keeps {m : Nat} {b : State} {s : State} {a1 a2 : Nat} (h : Keeps m b s)
    (hm : Sub 8192 m) : Keeps m b (audioRelease s a1 a2) := by
  unfold audioRelease
  repeat' first
    | with_reducible assumption
    | with_reducible apply putAudio_keeps
    | with_reducible apply Keeps.ite
    | (with_reducible refine Sub.trans (Sub.ok ?_) hm); rfl
    | dsimp only
    | split

theorem txLoop_keeps {m : Nat} {b : State} {s : State} {a1 : Bool} (h : Keeps m b s)
    (hm : Sub 8192 m) : Keeps m b (txLoop s a1) := by
  unfold txLoop
  repeat' first
    | with_reducible assumption
    | with_reducible apply setClk_keeps
    | with_reducible apply Keeps.ite
    | (with_reducible refine Sub.trans (Sub.ok ?_) hm); rfl
    | dsimp only
    | split

theorem enterHoldover_keeps {m : Nat} {b : State} {s : State} {a1 : Nat} {a2 : Bool} (h : Keeps m b s)
    (hm : Sub 8258 m) : Keeps m b (enterHoldover s a1 a2) := by
  unfold enterHoldover
  repeat' first
    | with_reducible assumption
    | with_reducible apply freezeWords_keeps
    | with_reducible apply raise_keeps
    | with_reducible apply coast_keeps
    | with_reducible apply setClk_keeps
    | with_reducible apply Keeps.ite
    | (with_reducible refine Sub.trans (Sub.ok ?_) hm); rfl
    | dsimp only
    | split

theorem detectorFires_keeps {m : Nat} {b : State} {s : State} {a1 : Nat} (h : Keeps m b s)
    (hm : Sub 8258 m) : Keeps m b (detectorFires s a1) := by
  unfold detectorFires
  repeat' first
    | with_reducible assumption
    | with_reducible apply enterHoldover_keeps
    | (with_reducible refine Sub.trans (Sub.ok ?_) hm); rfl
    | dsimp only
    | split

theorem completeAll_keeps {m : Nat} {b : State} {s : State} {a1 : InFlight → Bool} {a2 : Sid} {a3 : Nat} (h : Keeps m b s)
    (hm : Sub 847720222060 m) : Keeps m b (completeAll s a1 a2 a3) := by
  unfold completeAll
  repeat' first
    | with_reducible assumption
    | with_reducible apply complete_keeps
    | with_reducible apply Keeps.foldl
    | (with_reducible refine Sub.trans (Sub.ok ?_) hm); rfl
    | with_reducible intro _ _ _
    | dsimp only
    | split

theorem mclkRestart_keeps {m : Nat} {b : State} {s : State} {a1 : Nat} {a2 : Sid} (h : Keeps m b s)
    (hm : Sub 847720230252 m) : Keeps m b (mclkRestart s a1 a2) := by
  unfold mclkRestart
  repeat' first
    | with_reducible assumption
    | with_reducible apply completeAll_keeps
    | with_reducible apply setClk_keeps
    | with_reducible apply Keeps.ite
    | (with_reducible refine Sub.trans (Sub.ok ?_) hm); rfl
    | dsimp only
    | split

theorem refSetUnit_keeps {m : Nat} {b : State} {a1 : Cmd} {s : State} (h : Keeps m b s)
    (hm : Sub 8258 m) : Reply.Keeps m b (refSetUnit a1 s) := by
  unfold refSetUnit
  repeat' first
    | with_reducible assumption
    | with_reducible apply ok_keeps
    | with_reducible apply okWith_keeps
    | with_reducible apply badState_keeps
    | with_reducible apply badParam_keeps
    | with_reducible apply Reply.keeps_deny
    | with_reducible apply Reply.keeps_done
    | with_reducible apply Reply.keeps_later
    | with_reducible apply Reply.keeps_busy
    | with_reducible apply enterHoldover_keeps
    | with_reducible apply setClk_keeps
    | with_reducible apply Reply.Keeps.ite
    | with_reducible apply Keeps.ite
    | (with_reducible refine Sub.trans (Sub.ok ?_) hm); rfl
    | dsimp only
    | split

theorem refSetSpec_keeps : CmdSpec.Keeps 8258 refSetSpec := by
  intro m b c s h hm
  unfold refSetSpec
  repeat' first
    | with_reducible assumption
    | with_reducible apply ok_keeps
    | with_reducible apply okWith_keeps
    | with_reducible apply badState_keeps
    | with_reducible apply badParam_keeps
    | with_reducible apply Reply.keeps_deny
    | with_reducible apply Reply.keeps_done
    | with_reducible apply Reply.keeps_later
    | with_reducible apply Reply.keeps_busy
    | with_reducible apply refSetUnit_keeps
    | with_reducible apply Reply.Keeps.ite
    | with_reducible apply Keeps.ite
    | (with_reducible refine Sub.trans (Sub.ok ?_) hm); rfl
    | dsimp only
    | split

theorem lockSetUnit_keeps {m : Nat} {b : State} {a1 : Cmd} {s : State} (h : Keeps m b s)
    (hm : Sub 8192 m) : Reply.Keeps m b (lockSetUnit a1 s) := by
  unfold lockSetUnit
  repeat' first
    | with_reducible assumption
    | with_reducible apply ok_keeps
    | with_reducible apply okWith_keeps
    | with_reducible apply badState_keeps
    | with_reducible apply badParam_keeps
    | with_reducible apply Reply.keeps_deny
    | with_reducible apply Reply.keeps_done
    | with_reducible apply Reply.keeps_later
    | with_reducible apply Reply.keeps_busy
    | with_reducible apply setClk_keeps
    | (with_reducible refine Sub.trans (Sub.ok ?_) hm); rfl
    | dsimp only
    | split

theorem lockSetSpec_keeps : CmdSpec.Keeps 8192 lockSetSpec := by
  intro m b c s h hm
  unfold lockSetSpec
  repeat' first
    | with_reducible assumption
    | with_reducible apply ok_keeps
    | with_reducible apply okWith_keeps
    | with_reducible apply badState_keeps
    | with_reducible apply badParam_keeps
    | with_reducible apply Reply.keeps_deny
    | with_reducible apply Reply.keeps_done
    | with_reducible apply Reply.keeps_later
    | with_reducible apply Reply.keeps_busy
    | with_reducible apply lockSetUnit_keeps
    | (with_reducible refine Sub.trans (Sub.ok ?_) hm); rfl
    | dsimp only
    | split

theorem mclkSetUnit_keeps {m : Nat} {b : State} {a1 : Cmd} {s : State} (h : Keeps m b s)
    (hm : Sub 8192 m) : Reply.Keeps m b (mclkSetUnit a1 s) := by
  unfold mclkSetUnit
  repeat' first
    | with_reducible assumption
    | with_reducible apply ok_keeps
    | with_reducible apply okWith_keeps
    | with_reducible apply badState_keeps
    | with_reducible apply badParam_keeps
    | with_reducible apply Reply.keeps_deny
    | with_reducible apply Reply.keeps_done
    | with_reducible apply Reply.keeps_later
    | with_reducible apply Reply.keeps_busy
    | with_reducible apply audioUse_keeps
    | with_reducible apply audioRelease_keeps
    | with_reducible apply setClk_keeps
    | with_reducible apply Reply.Keeps.ite
    | with_reducible apply Keeps.ite
    | (with_reducible refine Sub.trans (Sub.ok ?_) hm); rfl
    | dsimp only
    | split

theorem mclkSetSpec_keeps : CmdSpec.Keeps 8192 mclkSetSpec := by
  intro m b c s h hm
  unfold mclkSetSpec
  repeat' first
    | with_reducible assumption
    | with_reducible apply ok_keeps
    | with_reducible apply okWith_keeps
    | with_reducible apply badState_keeps
    | with_reducible apply badParam_keeps
    | with_reducible apply Reply.keeps_deny
    | with_reducible apply Reply.keeps_done
    | with_reducible apply Reply.keeps_later
    | with_reducible apply Reply.keeps_busy
    | with_reducible apply mclkSetUnit_keeps
    | (with_reducible refine Sub.trans (Sub.ok ?_) hm); rfl
    | dsimp only
    | split

theorem refoutSetUnit_keeps {m : Nat} {b : State} {a1 : Cmd} {s : State} (h : Keeps m b s)
    (hm : Sub 8192 m) : Reply.Keeps m b (refoutSetUnit a1 s) := by
  unfold refoutSetUnit
  repeat' first
    | with_reducible assumption
    | with_reducible apply ok_keeps
    | with_reducible apply okWith_keeps
    | with_reducible apply badState_keeps
    | with_reducible apply badParam_keeps
    | with_reducible apply Reply.keeps_deny
    | with_reducible apply Reply.keeps_done
    | with_reducible apply Reply.keeps_later
    | with_reducible apply Reply.keeps_busy
    | with_reducible apply setClk_keeps
    | (with_reducible refine Sub.trans (Sub.ok ?_) hm); rfl
    | dsimp only
    | split

theorem refoutSetSpec_keeps : CmdSpec.Keeps 8192 refoutSetSpec := by
  intro m b c s h hm
  unfold refoutSetSpec
  repeat' first
    | with_reducible assumption
    | with_reducible apply ok_keeps
    | with_reducible apply okWith_keeps
    | with_reducible apply badState_keeps
    | with_reducible apply badParam_keeps
    | with_reducible apply Reply.keeps_deny
    | with_reducible apply Reply.keeps_done
    | with_reducible apply Reply.keeps_later
    | with_reducible apply Reply.keeps_busy
    | with_reducible apply refoutSetUnit_keeps
    | (with_reducible refine Sub.trans (Sub.ok ?_) hm); rfl
    | dsimp only
    | split

theorem ppsoutSetUnit_keeps {m : Nat} {b : State} {a1 : Cmd} {s : State} (h : Keeps m b s)
    (hm : Sub 8192 m) : Reply.Keeps m b (ppsoutSetUnit a1 s) := by
  unfold ppsoutSetUnit
  repeat' first
    | with_reducible assumption
    | with_reducible apply ok_keeps
    | with_reducible apply okWith_keeps
    | with_reducible apply badState_keeps
    | with_reducible apply badParam_keeps
    | with_reducible apply Reply.keeps_deny
    | with_reducible apply Reply.keeps_done
    | with_reducible apply Reply.keeps_later
    | with_reducible apply Reply.keeps_busy
    | with_reducible apply setClk_keeps
    | (with_reducible refine Sub.trans (Sub.ok ?_) hm); rfl
    | dsimp only
    | split

theorem ppsoutSetSpec_keeps : CmdSpec.Keeps 8192 ppsoutSetSpec := by
  intro m b c s h hm
  unfold ppsoutSetSpec
  repeat' first
    | with_reducible assumption
    | with_reducible apply ok_keeps
    | with_reducible apply okWith_keeps
    | with_reducible apply badState_keeps
    | with_reducible apply badParam_keeps
    | with_reducible apply Reply.keeps_deny
    | with_reducible apply Reply.keeps_done
    | with_reducible apply Reply.keeps_later
    | with_reducible apply Reply.keeps_busy
    | with_reducible apply ppsoutSetUnit_keeps
    | (with_reducible refine Sub.trans (Sub.ok ?_) hm); rfl
    | dsimp only
    | split

theorem clockGetSpec_keeps : CmdSpec.Keeps 0 clockGetSpec := by
  intro m b c s h hm
  unfold clockGetSpec
  repeat' first
    | with_reducible assumption
    | with_reducible apply ok_keeps
    | with_reducible apply okWith_keeps
    | with_reducible apply badState_keeps
    | with_reducible apply badParam_keeps
    | with_reducible apply Reply.keeps_deny
    | with_reducible apply Reply.keeps_done
    | with_reducible apply Reply.keeps_later
    | with_reducible apply Reply.keeps_busy
    | (with_reducible refine Sub.trans (Sub.ok ?_) hm); rfl
    | dsimp only
    | split

theorem execReferenceLoss_keeps {m : Nat} {b : State} {a1 : Sid} {s : State} (h : Keeps m b s)
    (hm : Sub 8258 m) : NextKeeps m b (execReferenceLoss a1 s) := by
  unfold execReferenceLoss
  repeat' first
    | with_reducible assumption
    | with_reducible apply NextKeeps.next
    | with_reducible apply detectorFires_keeps
    | with_reducible apply advance_keeps
    | (with_reducible refine Sub.trans (Sub.ok ?_) hm); rfl
    | dsimp only
    | split

theorem execFrequencyJump_keeps {m : Nat} {b : State} {a1 : Int} {a2 : Sid} {s : State} (h : Keeps m b s)
    (hm : Sub 8258 m) : NextKeeps m b (execFrequencyJump a1 a2 s) := by
  unfold execFrequencyJump
  repeat' first
    | with_reducible assumption
    | with_reducible apply NextKeeps.next
    | with_reducible apply detectorFires_keeps
    | with_reducible apply advance_keeps
    | with_reducible apply NextKeeps.ite
    | with_reducible apply Keeps.ite
    | (with_reducible refine Sub.trans (Sub.ok ?_) hm); rfl
    | dsimp only
    | split

theorem execReferenceGlitch_keeps {m : Nat} {b : State} {a1 : Sid} {s : State} (h : Keeps m b s)
    (hm : Sub 8258 m) : NextKeeps m b (execReferenceGlitch a1 s) := by
  unfold execReferenceGlitch
  repeat' first
    | with_reducible assumption
    | with_reducible apply NextKeeps.next
    | with_reducible apply detectorFires_keeps
    | with_reducible apply advance_keeps
    | with_reducible apply setClk_keeps
    | with_reducible apply NextKeeps.ite
    | with_reducible apply Keeps.ite
    | (with_reducible refine Sub.trans (Sub.ok ?_) hm); rfl
    | dsimp only
    | split

theorem execReferenceReturn_keeps {m : Nat} {b : State} {s : State} (h : Keeps m b s)
    (hm : Sub 8192 m) : NextKeeps m b (execReferenceReturn s) := by
  unfold execReferenceReturn
  repeat' first
    | with_reducible assumption
    | with_reducible apply NextKeeps.next
    | with_reducible apply setClk_keeps
    | with_reducible apply NextKeeps.ite
    | with_reducible apply Keeps.ite
    | (with_reducible refine Sub.trans (Sub.ok ?_) hm); rfl
    | dsimp only
    | split

theorem execQualificationComplete_keeps {m : Nat} {b : State} {s : State} (h : Keeps m b s)
    (hm : Sub 8192 m) : NextKeeps m b (execQualificationComplete s) := by
  unfold execQualificationComplete
  repeat' first
    | with_reducible assumption
    | with_reducible apply NextKeeps.next
    | with_reducible apply setClk_keeps
    | with_reducible apply NextKeeps.ite
    | with_reducible apply Keeps.ite
    | (with_reducible refine Sub.trans (Sub.ok ?_) hm); rfl
    | dsimp only
    | split

theorem execFrequencyAcquisitionComplete_keeps {m : Nat} {b : State} {a1 : Sid} {s : State} (h : Keeps m b s)
    (hm : Sub 8194 m) : NextKeeps m b (execFrequencyAcquisitionComplete a1 s) := by
  unfold execFrequencyAcquisitionComplete
  repeat' first
    | with_reducible assumption
    | with_reducible apply NextKeeps.next
    | with_reducible apply lockAttempt_keeps
    | with_reducible apply advance_keeps
    | with_reducible apply setClk_keeps
    | with_reducible apply Keeps.foldl
    | with_reducible apply NextKeeps.ite
    | with_reducible apply Keeps.ite
    | (with_reducible refine Sub.trans (Sub.ok ?_) hm); rfl
    | with_reducible intro _ _ _
    | dsimp only
    | split

theorem tapePhase_keeps {m : Nat} {b : State} {s : State} {a1 : Nat} (h : Keeps m b s)
    (hm : Sub 549755813888 m) : Keeps m b (tapePhase s a1) := by
  unfold tapePhase
  repeat' first
    | with_reducible assumption
    | with_reducible apply tape_keeps
    | with_reducible apply Keeps.ite
    | (with_reducible refine Sub.trans (Sub.ok ?_) hm); rfl
    | dsimp only
    | split

theorem execBuildOutLock_keeps {m : Nat} {b : State} {a1 : List Int} {a2 : Sid} {s : State} (h : Keeps m b s)
    (hm : Sub 847720230254 m) : NextKeeps m b (execBuildOutLock a1 a2 s) := by
  unfold execBuildOutLock
  repeat' first
    | with_reducible assumption
    | with_reducible apply NextKeeps.next
    | with_reducible apply completeAll_keeps
    | with_reducible apply mclkRestart_keeps
    | with_reducible apply tapePhase_keeps
    | with_reducible apply advance_keeps
    | with_reducible apply raise_keeps
    | with_reducible apply setClk_keeps
    | with_reducible apply Keeps.foldl
    | with_reducible apply NextKeeps.ite
    | with_reducible apply Keeps.ite
    | (with_reducible refine Sub.trans (Sub.ok ?_) hm); rfl
    | with_reducible intro _ _ _
    | dsimp only
    | split

theorem execLoopLock_keeps {m : Nat} {b : State} {a1 : Nat} {a2 : Sid} {s : State} (h : Keeps m b s)
    (hm : Sub 847720230254 m) : NextKeeps m b (execLoopLock a1 a2 s) := by
  unfold execLoopLock
  repeat' first
    | with_reducible assumption
    | with_reducible apply NextKeeps.next
    | with_reducible apply mclkRestart_keeps
    | with_reducible apply advance_keeps
    | with_reducible apply setClk_keeps
    | with_reducible apply NextKeeps.ite
    | with_reducible apply Keeps.ite
    | (with_reducible refine Sub.trans (Sub.ok ?_) hm); rfl
    | dsimp only
    | split

theorem execAudioChannelPowerDown_keeps {m : Nat} {b : State} {a1 : Nat} {s : State} (h : Keeps m b s)
    (hm : Sub 8192 m) : NextKeeps m b (execAudioChannelPowerDown a1 s) := by
  unfold execAudioChannelPowerDown
  repeat' first
    | with_reducible assumption
    | with_reducible apply NextKeeps.next
    | with_reducible apply putAudio_keeps
    | with_reducible apply setClk_keeps
    | with_reducible apply NextKeeps.ite
    | with_reducible apply Keeps.ite
    | (with_reducible refine Sub.trans (Sub.ok ?_) hm); rfl
    | dsimp only
    | split

theorem execMclkGate_keeps {m : Nat} {b : State} {a1 : Nat} {a2 : Bool} {a3 : Sid} {s : State} (h : Keeps m b s)
    (hm : Sub 8194 m) : NextKeeps m b (execMclkGate a1 a2 a3 s) := by
  unfold execMclkGate
  repeat' first
    | with_reducible assumption
    | with_reducible apply NextKeeps.next
    | with_reducible apply advance_keeps
    | with_reducible apply setClk_keeps
    | with_reducible apply NextKeeps.ite
    | with_reducible apply Keeps.ite
    | (with_reducible refine Sub.trans (Sub.ok ?_) hm); rfl
    | dsimp only
    | split

theorem execPpsOutPulse_keeps {m : Nat} {b : State} {a1 : Bool} {a2 : Sid} {s : State} (h : Keeps m b s)
    (hm : Sub 8194 m) : NextKeeps m b (execPpsOutPulse a1 a2 s) := by
  unfold execPpsOutPulse
  repeat' first
    | with_reducible assumption
    | with_reducible apply NextKeeps.next
    | with_reducible apply advance_keeps
    | with_reducible apply setClk_keeps
    | with_reducible apply NextKeeps.ite
    | with_reducible apply Keeps.ite
    | (with_reducible refine Sub.trans (Sub.ok ?_) hm); rfl
    | dsimp only
    | split

end Sys2Proof.Machine
end

