-- ==== Sys2Proof/Laws/KeepsRf.lean ====
section
/-! SUPPORT. Laws/KeepsRf.lean: what each operation of Machine/Rf.lean keeps. -/

set_option linter.unusedTactic false
set_option linter.unreachableTactic false
set_option linter.unusedVariables false

namespace Sys2Proof.Machine

theorem evAnt_keeps {m : Nat} {b : State} {s : State} {a1 a2 : Nat} (h : Keeps m b s)
    (hm : Sub 64 m) : Keeps m b (evAnt s a1 a2) := by
  unfold evAnt
  repeat' first
    | with_reducible assumption
    | with_reducible apply raise_keeps
    | (with_reducible refine Sub.trans (Sub.ok ?_) hm); rfl
    | dsimp only
    | split

theorem antSetUnit_keeps {m : Nat} {b : State} {a1 : Cmd} {s : State} (h : Keeps m b s)
    (hm : Sub 549760008192 m) : Reply.Keeps m b (antSetUnit a1 s) := by
  unfold antSetUnit
  repeat' first
    | with_reducible assumption
    | with_reducible apply ok_keeps
    | with_reducible apply okWith_keeps
    | with_reducible apply badState_keeps
    | with_reducible apply badParam_keeps
    | with_reducible apply Reply.keeps_deny
    | with_reducible apply Reply.keeps_done
    | with_reducible apply Reply.keeps_later
    | with_reducible apply Reply.keeps_busy
    | with_reducible apply putAnt_keeps
    | with_reducible apply tapeGain_keeps
    | with_reducible apply Reply.Keeps.ite
    | with_reducible apply Keeps.ite
    | (with_reducible refine Sub.trans (Sub.ok ?_) hm); rfl
    | dsimp only
    | split

theorem antSetSpec_keeps : CmdSpec.Keeps 549760008192 antSetSpec := by
  intro m b c s h hm
  unfold antSetSpec
  repeat' first
    | with_reducible assumption
    | with_reducible apply ok_keeps
    | with_reducible apply okWith_keeps
    | with_reducible apply badState_keeps
    | with_reducible apply badParam_keeps
    | with_reducible apply Reply.keeps_deny
    | with_reducible apply Reply.keeps_done
    | with_reducible apply Reply.keeps_later
    | with_reducible apply Reply.keeps_busy
    | with_reducible apply antSetUnit_keeps
    | (with_reducible refine Sub.trans (Sub.ok ?_) hm); rfl
    | dsimp only
    | split

theorem agcAll_keeps {m : Nat} {b : State} {s : State} {a1 : TickIn} (h : Keeps m b s)
    (hm : Sub 549760008192 m) : Keeps m b (agcAll s a1) := by
  unfold agcAll
  repeat' first
    | with_reducible assumption
    | with_reducible apply tapeGain_keeps
    | with_reducible apply setRf_keeps
    | with_reducible apply Keeps.foldl
    | with_reducible apply Keeps.foldl_fst
    | with_reducible apply Keeps.foldl_snd
    | (with_reducible refine Sub.trans (Sub.ok ?_) hm); rfl
    | with_reducible intro _ _ _
    | dsimp only
    | split

theorem countSpan_keeps {m : Nat} {b : State} {s : State} {a1 : BlankSpan} {a2 : Sid} (h : Keeps m b s)
    (hm : Sub 4194304 m) : Keeps m b (countSpan s a1 a2) := by
  unfold countSpan
  repeat' first
    | with_reducible assumption
    | with_reducible apply setRf_keeps
    | with_reducible apply Keeps.ite
    | (with_reducible refine Sub.trans (Sub.ok ?_) hm); rfl
    | dsimp only
    | split

theorem endSpan_keeps {m : Nat} {b : State} {s : State} {a1 a2 : Sid} (h : Keeps m b s)
    (hm : Sub 4194304 m) : Keeps m b (endSpan s a1 a2) := by
  unfold endSpan
  repeat' first
    | with_reducible assumption
    | with_reducible apply countSpan_keeps
    | with_reducible apply setRf_keeps
    | with_reducible apply Keeps.ite
    | (with_reducible refine Sub.trans (Sub.ok ?_) hm); rfl
    | dsimp only
    | split

theorem beginSpan_keeps {m : Nat} {b : State} {s : State} {a1 a2 : Sid} (h : Keeps m b s)
    (hm : Sub 4194304 m) : Keeps m b (beginSpan s a1 a2) := by
  unfold beginSpan
  repeat' first
    | with_reducible assumption
    | with_reducible apply setRf_keeps
    | (with_reducible refine Sub.trans (Sub.ok ?_) hm); rfl
    | dsimp only
    | split

theorem blankLevel_keeps {m : Nat} {b : State} {s : State} {a1 : Bool} {a2 : Sid} (h : Keeps m b s)
    (hm : Sub 4194304 m) : Keeps m b (blankLevel s a1 a2) := by
  unfold blankLevel
  repeat' first
    | with_reducible assumption
    | with_reducible apply endSpan_keeps
    | with_reducible apply beginSpan_keeps
    | with_reducible apply setRf_keeps
    | with_reducible apply Keeps.ite
    | (with_reducible refine Sub.trans (Sub.ok ?_) hm); rfl
    | dsimp only
    | split

theorem blankSetUnit_keeps {m : Nat} {b : State} {a1 : Cmd} {s : State} (h : Keeps m b s)
    (hm : Sub 4194304 m) : Reply.Keeps m b (blankSetUnit a1 s) := by
  unfold blankSetUnit
  repeat' first
    | with_reducible assumption
    | with_reducible apply ok_keeps
    | with_reducible apply okWith_keeps
    | with_reducible apply badState_keeps
    | with_reducible apply badParam_keeps
    | with_reducible apply Reply.keeps_deny
    | with_reducible apply Reply.keeps_done
    | with_reducible apply Reply.keeps_later
    | with_reducible apply Reply.keeps_busy
    | with_reducible apply endSpan_keeps
    | with_reducible apply beginSpan_keeps
    | with_reducible apply blankLevel_keeps
    | with_reducible apply setRf_keeps
    | with_reducible apply Reply.Keeps.ite
    | with_reducible apply Keeps.ite
    | (with_reducible refine Sub.trans (Sub.ok ?_) hm); rfl
    | dsimp only
    | split

theorem blankSetSpec_keeps : CmdSpec.Keeps 4194304 blankSetSpec := by
  intro m b c s h hm
  unfold blankSetSpec
  repeat' first
    | with_reducible assumption
    | with_reducible apply ok_keeps
    | with_reducible apply okWith_keeps
    | with_reducible apply badState_keeps
    | with_reducible apply badParam_keeps
    | with_reducible apply Reply.keeps_deny
    | with_reducible apply Reply.keeps_done
    | with_reducible apply Reply.keeps_later
    | with_reducible apply Reply.keeps_busy
    | with_reducible apply blankSetUnit_keeps
    | (with_reducible refine Sub.trans (Sub.ok ?_) hm); rfl
    | dsimp only
    | split

theorem execCoexBlankChange_keeps {m : Nat} {b : State} {a1 : Bool} {a2 : Sid} {s : State} (h : Keeps m b s)
    (hm : Sub 4194306 m) : NextKeeps m b (execCoexBlankChange a1 a2 s) := by
  unfold execCoexBlankChange
  repeat' first
    | with_reducible assumption
    | with_reducible apply NextKeeps.next
    | with_reducible apply advance_keeps
    | with_reducible apply blankLevel_keeps
    | with_reducible apply setRf_keeps
    | (with_reducible refine Sub.trans (Sub.ok ?_) hm); rfl
    | dsimp only
    | split

theorem execCoexBlankTimeout_keeps {m : Nat} {b : State} {s : State} (h : Keeps m b s)
    (hm : Sub 4194368 m) : NextKeeps m b (execCoexBlankTimeout s) := by
  unfold execCoexBlankTimeout
  repeat' first
    | with_reducible assumption
    | with_reducible apply NextKeeps.next
    | with_reducible apply evAnt_keeps
    | with_reducible apply endSpan_keeps
    | with_reducible apply setRf_keeps
    | with_reducible apply NextKeeps.ite
    | with_reducible apply Keeps.ite
    | (with_reducible refine Sub.trans (Sub.ok ?_) hm); rfl
    | dsimp only
    | split

theorem execAgcOverloadWindow_keeps {m : Nat} {b : State} {a1 : Nat} {a2 : List Int} {a3 : Nat} {s : State} (h : Keeps m b s)
    (hm : Sub 549760008192 m) : NextKeeps m b (execAgcOverloadWindow a1 a2 a3 s) := by
  unfold execAgcOverloadWindow
  repeat' first
    | with_reducible assumption
    | with_reducible apply NextKeeps.next
    | with_reducible apply putAnt_keeps
    | with_reducible apply tapeGain_keeps
    | with_reducible apply NextKeeps.ite
    | with_reducible apply Keeps.ite
    | (with_reducible refine Sub.trans (Sub.ok ?_) hm); rfl
    | dsimp only
    | split

theorem execOverloadPersists_keeps {m : Nat} {b : State} {a1 : Nat} {s : State} (h : Keeps m b s)
    (hm : Sub 4194368 m) : NextKeeps m b (execOverloadPersists a1 s) := by
  unfold execOverloadPersists
  repeat' first
    | with_reducible assumption
    | with_reducible apply NextKeeps.next
    | with_reducible apply evAnt_keeps
    | with_reducible apply putAnt_keeps
    | with_reducible apply NextKeeps.ite
    | with_reducible apply Keeps.ite
    | (with_reducible refine Sub.trans (Sub.ok ?_) hm); rfl
    | dsimp only
    | split

theorem biasSetUnit_keeps {m : Nat} {b : State} {a1 : Cmd} {s : State} (h : Keeps m b s)
    (hm : Sub 6291520 m) : Reply.Keeps m b (biasSetUnit a1 s) := by
  unfold biasSetUnit
  repeat' first
    | with_reducible assumption
    | with_reducible apply ok_keeps
    | with_reducible apply okWith_keeps
    | with_reducible apply badState_keeps
    | with_reducible apply badParam_keeps
    | with_reducible apply Reply.keeps_deny
    | with_reducible apply Reply.keeps_done
    | with_reducible apply Reply.keeps_later
    | with_reducible apply Reply.keeps_busy
    | with_reducible apply evAnt_keeps
    | with_reducible apply putAnt_keeps
    | with_reducible apply setFree_keeps
    | with_reducible apply Reply.Keeps.ite
    | with_reducible apply Keeps.ite
    | (with_reducible refine Sub.trans (Sub.ok ?_) hm); rfl
    | dsimp only
    | split

theorem biasSetSpec_keeps : CmdSpec.Keeps 6291520 biasSetSpec := by
  intro m b c s h hm
  unfold biasSetSpec
  repeat' first
    | with_reducible assumption
    | with_reducible apply ok_keeps
    | with_reducible apply okWith_keeps
    | with_reducible apply badState_keeps
    | with_reducible apply badParam_keeps
    | with_reducible apply Reply.keeps_deny
    | with_reducible apply Reply.keeps_done
    | with_reducible apply Reply.keeps_later
    | with_reducible apply Reply.keeps_busy
    | with_reducible apply biasSetUnit_keeps
    | (with_reducible refine Sub.trans (Sub.ok ?_) hm); rfl
    | dsimp only
    | split

theorem biasOpens_keeps {m : Nat} {b : State} {s : State} {a1 : Nat} {a2 : Ant} {a3 : Nat} (h : Keeps m b s)
    (hm : Sub 4194368 m) : Keeps m b (biasOpens s a1 a2 a3) := by
  unfold biasOpens
  repeat' first
    | with_reducible assumption
    | with_reducible apply evAnt_keeps
    | with_reducible apply putAnt_keeps
    | with_reducible apply Keeps.ite
    | (with_reducible refine Sub.trans (Sub.ok ?_) hm); rfl
    | dsimp only
    | split

theorem execBiasFault_keeps {m : Nat} {b : State} {a1 a2 a3 : Nat} {s : State} (h : Keeps m b s)
    (hm : Sub 4194368 m) : NextKeeps m b (execBiasFault a1 a2 a3 s) := by
  unfold execBiasFault
  repeat' first
    | with_reducible assumption
    | with_reducible apply NextKeeps.next
    | with_reducible apply evAnt_keeps
    | with_reducible apply biasOpens_keeps
    | with_reducible apply putAnt_keeps
    | with_reducible apply NextKeeps.ite
    | with_reducible apply Keeps.ite
    | (with_reducible refine Sub.trans (Sub.ok ?_) hm); rfl
    | dsimp only
    | split

theorem execBiasRetry_keeps {m : Nat} {b : State} {a1 : Nat} {s : State} (h : Keeps m b s)
    (hm : Sub 4194304 m) : NextKeeps m b (execBiasRetry a1 s) := by
  unfold execBiasRetry
  repeat' first
    | with_reducible assumption
    | with_reducible apply NextKeeps.next
    | with_reducible apply putAnt_keeps
    | with_reducible apply NextKeeps.ite
    | with_reducible apply Keeps.ite
    | (with_reducible refine Sub.trans (Sub.ok ?_) hm); rfl
    | dsimp only
    | split

theorem execBiasRetryRestore_keeps {m : Nat} {b : State} {a1 : Nat} {s : State} (h : Keeps m b s)
    (hm : Sub 4194304 m) : NextKeeps m b (execBiasRetryRestore a1 s) := by
  unfold execBiasRetryRestore
  repeat' first
    | with_reducible assumption
    | with_reducible apply NextKeeps.next
    | with_reducible apply putAnt_keeps
    | with_reducible apply NextKeeps.ite
    | with_reducible apply Keeps.ite
    | (with_reducible refine Sub.trans (Sub.ok ?_) hm); rfl
    | dsimp only
    | split

theorem calDone_keeps {m : Nat} {b : State} {s : State} {a1 : Nat} {a2 : Ant} {a3 : Int} (h : Keeps m b s)
    (hm : Sub 549762105408 m) : Keeps m b (calDone s a1 a2 a3) := by
  unfold calDone
  repeat' first
    | with_reducible assumption
    | with_reducible apply evAnt_keeps
    | with_reducible apply putAnt_keeps
    | with_reducible apply tapeCal_keeps
    | with_reducible apply Keeps.ite
    | (with_reducible refine Sub.trans (Sub.ok ?_) hm); rfl
    | dsimp only
    | split

theorem abandonSpot_keeps {m : Nat} {b : State} {s : State} (h : Keeps m b s)
    (hm : Sub 4194304 m) : Keeps m b (abandonSpot s) := by
  unfold abandonSpot
  repeat' first
    | with_reducible assumption
    | with_reducible apply setRf_keeps
    | with_reducible apply Keeps.ite
    | (with_reducible refine Sub.trans (Sub.ok ?_) hm); rfl
    | dsimp only
    | split

theorem rfStatusGetSpec_keeps : CmdSpec.Keeps 0 rfStatusGetSpec := by
  intro m b c s h hm
  unfold rfStatusGetSpec
  repeat' first
    | with_reducible assumption
    | with_reducible apply ok_keeps
    | with_reducible apply okWith_keeps
    | with_reducible apply badState_keeps
    | with_reducible apply badParam_keeps
    | with_reducible apply Reply.keeps_deny
    | with_reducible apply Reply.keeps_done
    | with_reducible apply Reply.keeps_later
    | with_reducible apply Reply.keeps_busy
    | (with_reducible refine Sub.trans (Sub.ok ?_) hm); rfl
    | dsimp only
    | split

end Sys2Proof.Machine
end

