-- ==== Sys2Proof/Laws/KeepsRds.lean ====
section
/-! SUPPORT. Laws/KeepsRds.lean: what each operation of Machine/Rds.lean keeps. -/

set_option linter.unusedTactic false
set_option linter.unreachableTactic false
set_option linter.unusedVariables false

namespace Sys2Proof.Machine

theorem evTaChanges_keeps {m : Nat} {b : State} {s : State} {a1 : Nat} {a2 a3 : Rds} (h : Keeps m b s)
    (hm : Sub 64 m) : Keeps m b (evTaChanges s a1 a2 a3) := by
  unfold evTaChanges
  repeat' first
    | with_reducible assumption
    | with_reducible apply raise_keeps
    | with_reducible apply Keeps.ite
    | (with_reducible refine Sub.trans (Sub.ok ?_) hm); rfl
    | dsimp only
    | split

end Sys2Proof.Machine
end

