-- ==== Sys2Proof/Laws/KeepsDemod.lean ====
section
/-! SUPPORT. Laws/KeepsDemod.lean: what each operation of Machine/Demod.lean keeps. -/

set_option linter.unusedTactic false
set_option linter.unreachableTactic false
set_option linter.unusedVariables false

namespace Sys2Proof.Machine

theorem demodsApply_keeps {m : Nat} {b : State} {s : State} (h : Keeps m b s)
    (hm : Sub 536870912 m) : Keeps m b (demodsApply s) := by
  unfold demodsApply
  repeat' first
    | with_reducible assumption
    | with_reducible apply setDemods_keeps
    | (with_reducible refine Sub.trans (Sub.ok ?_) hm); rfl
    | dsimp only
    | split

theorem demodsTick_keeps {m : Nat} {b : State} {s : State} (h : Keeps m b s)
    (hm : Sub 536870912 m) : Keeps m b (demodsTick s) := by
  unfold demodsTick
  repeat' first
    | with_reducible assumption
    | with_reducible apply setDemods_keeps
    | (with_reducible refine Sub.trans (Sub.ok ?_) hm); rfl
    | dsimp only
    | split

theorem amSetUnit_keeps {m : Nat} {b : State} {a1 : Cmd} {s : State} (h : Keeps m b s)
    (hm : Sub 536870912 m) : Reply.Keeps m b (amSetUnit a1 s) := by
  unfold amSetUnit
  repeat' first
    | with_reducible assumption
    | with_reducible apply ok_keeps
    | with_reducible apply okWith_keeps
    | with_reducible apply badState_keeps
    | with_reducible apply badParam_keeps
    | with_reducible apply Reply.keeps_deny
    | with_reducible apply Reply.keeps_done
    | with_reducible apply Reply.keeps_later
    | with_reducible apply Reply.keeps_busy
    | with_reducible apply putDemod_keeps
    | with_reducible apply Reply.Keeps.ite
    | with_reducible apply Keeps.ite
    | (with_reducible refine Sub.trans (Sub.ok ?_) hm); rfl
    | dsimp only
    | split

theorem amSetSpec_keeps : CmdSpec.Keeps 536870912 amSetSpec := by
  intro m b c s h hm
  unfold amSetSpec
  repeat' first
    | with_reducible assumption
    | with_reducible apply ok_keeps
    | with_reducible apply okWith_keeps
    | with_reducible apply badState_keeps
    | with_reducible apply badParam_keeps
    | with_reducible apply Reply.keeps_deny
    | with_reducible apply Reply.keeps_done
    | with_reducible apply Reply.keeps_later
    | with_reducible apply Reply.keeps_busy
    | with_reducible apply amSetUnit_keeps
    | (with_reducible refine Sub.trans (Sub.ok ?_) hm); rfl
    | dsimp only
    | split

theorem fmSetUnit_keeps {m : Nat} {b : State} {a1 : Cmd} {s : State} (h : Keeps m b s)
    (hm : Sub 536870912 m) : Reply.Keeps m b (fmSetUnit a1 s) := by
  unfold fmSetUnit
  repeat' first
    | with_reducible assumption
    | with_reducible apply ok_keeps
    | with_reducible apply okWith_keeps
    | with_reducible apply badState_keeps
    | with_reducible apply badParam_keeps
    | with_reducible apply Reply.keeps_deny
    | with_reducible apply Reply.keeps_done
    | with_reducible apply Reply.keeps_later
    | with_reducible apply Reply.keeps_busy
    | with_reducible apply putDemod_keeps
    | with_reducible apply Reply.Keeps.ite
    | with_reducible apply Keeps.ite
    | (with_reducible refine Sub.trans (Sub.ok ?_) hm); rfl
    | dsimp only
    | split

theorem fmSetSpec_keeps : CmdSpec.Keeps 536870912 fmSetSpec := by
  intro m b c s h hm
  unfold fmSetSpec
  repeat' first
    | with_reducible assumption
    | with_reducible apply ok_keeps
    | with_reducible apply okWith_keeps
    | with_reducible apply badState_keeps
    | with_reducible apply badParam_keeps
    | with_reducible apply Reply.keeps_deny
    | with_reducible apply Reply.keeps_done
    | with_reducible apply Reply.keeps_later
    | with_reducible apply Reply.keeps_busy
    | with_reducible apply fmSetUnit_keeps
    | (with_reducible refine Sub.trans (Sub.ok ?_) hm); rfl
    | dsimp only
    | split

theorem qualityGetSpec_keeps : CmdSpec.Keeps 0 qualityGetSpec := by
  intro m b c s h hm
  unfold qualityGetSpec
  repeat' first
    | with_reducible assumption
    | with_reducible apply ok_keeps
    | with_reducible apply okWith_keeps
    | with_reducible apply badState_keeps
    | with_reducible apply badParam_keeps
    | with_reducible apply Reply.keeps_deny
    | with_reducible apply Reply.keeps_done
    | with_reducible apply Reply.keeps_later
    | with_reducible apply Reply.keeps_busy
    | with_reducible apply Reply.Keeps.ite
    | with_reducible apply Keeps.ite
    | (with_reducible refine Sub.trans (Sub.ok ?_) hm); rfl
    | dsimp only
    | split

theorem markRing_keeps {m : Nat} {b : State} {s : State} {a1 : Nat} {a2 : Machine.Bind} (h : Keeps m b s)
    (hm : Sub 8 m) : Keeps m b (markRing s a1 a2) := by
  unfold markRing
  repeat' first
    | with_reducible assumption
    | with_reducible apply setRings_keeps
    | (with_reducible refine Sub.trans (Sub.ok ?_) hm); rfl
    | dsimp only
    | split

theorem freeRing_keeps {m : Nat} {b : State} {s : State} {a1 : Nat} (h : Keeps m b s)
    (hm : Sub 8 m) : Keeps m b (freeRing s a1) := by
  unfold freeRing
  repeat' first
    | with_reducible assumption
    | with_reducible apply markRing_keeps
    | with_reducible apply Keeps.ite
    | (with_reducible refine Sub.trans (Sub.ok ?_) hm); rfl
    | dsimp only
    | split

theorem rdsStreamUnit_keeps {m : Nat} {b : State} {a1 : Cmd} {s : State} (h : Keeps m b s)
    (hm : Sub 1610612744 m) : Reply.Keeps m b (rdsStreamUnit a1 s) := by
  unfold rdsStreamUnit
  repeat' first
    | with_reducible assumption
    | with_reducible apply ok_keeps
    | with_reducible apply okWith_keeps
    | with_reducible apply badState_keeps
    | with_reducible apply badParam_keeps
    | with_reducible apply Reply.keeps_deny
    | with_reducible apply Reply.keeps_done
    | with_reducible apply Reply.keeps_later
    | with_reducible apply Reply.keeps_busy
    | with_reducible apply markRing_keeps
    | with_reducible apply freeRing_keeps
    | exact ringDenied_keeps (by assumption)
    | exact ringDenied_keeps_unless (by assumption)
    | with_reducible apply putDemod_keeps
    | with_reducible apply setFlurry_keeps
    | with_reducible apply Reply.Keeps.ite
    | with_reducible apply Keeps.ite
    | (with_reducible refine Sub.trans (Sub.ok ?_) hm); rfl
    | dsimp only
    | split

theorem rdsStreamSpec_keeps : CmdSpec.Keeps 1610612744 rdsStreamSpec := by
  intro m b c s h hm
  unfold rdsStreamSpec
  repeat' first
    | with_reducible assumption
    | with_reducible apply ok_keeps
    | with_reducible apply okWith_keeps
    | with_reducible apply badState_keeps
    | with_reducible apply badParam_keeps
    | with_reducible apply Reply.keeps_deny
    | with_reducible apply Reply.keeps_done
    | with_reducible apply Reply.keeps_later
    | with_reducible apply Reply.keeps_busy
    | with_reducible apply rdsStreamUnit_keeps
    | (with_reducible refine Sub.trans (Sub.ok ?_) hm); rfl
    | dsimp only
    | split

theorem rdsGetUnit_keeps {m : Nat} {b : State} {a1 : Cmd} {s : State} (h : Keeps m b s)
    (hm : Sub 0 m) : Reply.Keeps m b (rdsGetUnit a1 s) := by
  unfold rdsGetUnit
  repeat' first
    | with_reducible assumption
    | with_reducible apply ok_keeps
    | with_reducible apply okWith_keeps
    | with_reducible apply badState_keeps
    | with_reducible apply badParam_keeps
    | with_reducible apply Reply.keeps_deny
    | with_reducible apply Reply.keeps_done
    | with_reducible apply Reply.keeps_later
    | with_reducible apply Reply.keeps_busy
    | with_reducible apply Reply.Keeps.ite
    | with_reducible apply Keeps.ite
    | (with_reducible refine Sub.trans (Sub.ok ?_) hm); rfl
    | dsimp only
    | split

theorem rdsGetSpec_keeps : CmdSpec.Keeps 0 rdsGetSpec := by
  intro m b c s h hm
  unfold rdsGetSpec
  repeat' first
    | with_reducible assumption
    | with_reducible apply ok_keeps
    | with_reducible apply okWith_keeps
    | with_reducible apply badState_keeps
    | with_reducible apply badParam_keeps
    | with_reducible apply Reply.keeps_deny
    | with_reducible apply Reply.keeps_done
    | with_reducible apply Reply.keeps_later
    | with_reducible apply Reply.keeps_busy
    | with_reducible apply rdsGetUnit_keeps
    | with_reducible apply Reply.Keeps.ite
    | with_reducible apply Keeps.ite
    | (with_reducible refine Sub.trans (Sub.ok ?_) hm); rfl
    | dsimp only
    | split

theorem divTakes_keeps {m : Nat} {b : State} {s : State} {a1 : Nat} (h : Keeps m b s)
    (hm : Sub 847753776492 m) : Keeps m b (divTakes s a1) := by
  unfold divTakes
  repeat' first
    | with_reducible assumption
    | with_reducible apply complete_keeps
    | with_reducible apply putLane_keeps
    | with_reducible apply Keeps.ite
    | (with_reducible refine Sub.trans (Sub.ok ?_) hm); rfl
    | dsimp only
    | split

theorem divsTick_keeps {m : Nat} {b : State} {s : State} (h : Keeps m b s)
    (hm : Sub 847753776492 m) : Keeps m b (divsTick s) := by
  unfold divsTick
  repeat' first
    | with_reducible assumption
    | with_reducible apply divTakes_keeps
    | with_reducible apply Keeps.foldl
    | with_reducible apply Keeps.foldl_fst
    | with_reducible apply Keeps.foldl_snd
    | (with_reducible refine Sub.trans (Sub.ok ?_) hm); rfl
    | with_reducible intro _ _ _
    | dsimp only
    | split

theorem execAmCarrierLock_keeps {m : Nat} {b : State} {a1 : Nat} {a2 : List Int} {s : State} (h : Keeps m b s)
    (hm : Sub 536870912 m) : NextKeeps m b (execAmCarrierLock a1 a2 s) := by
  unfold execAmCarrierLock
  repeat' first
    | with_reducible assumption
    | with_reducible apply NextKeeps.next
    | with_reducible apply putDemod_keeps
    | with_reducible apply Keeps.foldl
    | with_reducible apply NextKeeps.ite
    | with_reducible apply Keeps.ite
    | (with_reducible refine Sub.trans (Sub.ok ?_) hm); rfl
    | with_reducible intro _ _ _
    | dsimp only
    | split

theorem execPilotLock_keeps {m : Nat} {b : State} {a1 : Nat} {a2 : List (Int × Nat)} {s : State} (h : Keeps m b s)
    (hm : Sub 536870912 m) : NextKeeps m b (execPilotLock a1 a2 s) := by
  unfold execPilotLock
  repeat' first
    | with_reducible assumption
    | with_reducible apply NextKeeps.next
    | with_reducible apply putDemod_keeps
    | with_reducible apply Keeps.foldl
    | with_reducible apply NextKeeps.ite
    | with_reducible apply Keeps.ite
    | (with_reducible refine Sub.trans (Sub.ok ?_) hm); rfl
    | with_reducible intro _ _ _
    | dsimp only
    | split

theorem demodFeed_keeps {m : Nat} {b : State} {s : State} {a1 : Nat} {a2 : List Sample} (h : Keeps m b s)
    (hm : Sub 69256347648 m) : Keeps m b (demodFeed s a1 a2) := by
  unfold demodFeed
  repeat' first
    | with_reducible assumption
    | with_reducible apply putDemod_keeps
    | with_reducible apply putPath_keeps
    | with_reducible apply Keeps.foldl
    | with_reducible apply Keeps.foldl_fst
    | with_reducible apply Keeps.foldl_snd
    | with_reducible apply Keeps.ite
    | (with_reducible refine Sub.trans (Sub.ok ?_) hm); rfl
    | with_reducible intro _ _ _
    | dsimp only
    | split

end Sys2Proof.Machine
end

