-- ==== Sys2Proof/Laws/KeepsFlurry.lean ====
section
/-! SUPPORT. Laws/KeepsFlurry.lean: what each operation of Machine/Flurry.lean keeps. -/

set_option linter.unusedTactic false
set_option linter.unreachableTactic false
set_option linter.unusedVariables false

namespace Sys2Proof.Machine

theorem evFlakeOf_keeps {m : Nat} {b : State} {s : State} {a1 a2 : Nat} (h : Keeps m b s)
    (hm : Sub 64 m) : Keeps m b (evFlakeOf s a1 a2) := by
  unfold evFlakeOf
  repeat' first
    | with_reducible assumption
    | with_reducible apply raise_keeps
    | (with_reducible refine Sub.trans (Sub.ok ?_) hm); rfl
    | dsimp only
    | split

theorem unserve_keeps {m : Nat} {b : State} {s : State} {a1 : Nat} (h : Keeps m b s)
    (hm : Sub 2147483648 m) : Keeps m b (unserve s a1) := by
  unfold unserve
  repeat' first
    | with_reducible assumption
    | with_reducible apply setAfs_keeps
    | with_reducible apply Keeps.ite
    | (with_reducible refine Sub.trans (Sub.ok ?_) hm); rfl
    | dsimp only
    | split

theorem freeFlake_keeps {m : Nat} {b : State} {s : State} {a1 : Nat} (h : Keeps m b s)
    (hm : Sub 3229614080 m) : Keeps m b (freeFlake s a1) := by
  unfold freeFlake
  repeat' first
    | with_reducible assumption
    | with_reducible apply unserve_keeps
    | with_reducible apply usedChanged_keeps
    | with_reducible apply setFlurry_keeps
    | (with_reducible refine Sub.trans (Sub.ok ?_) hm); rfl
    | dsimp only
    | split

theorem takeFlake_keeps {m : Nat} {b : State} {s : State} {a1 : Nat} {a2 : FlakeClass} {a3 a4 a5 a6 : Nat} (h : Keeps m b s)
    (hm : Sub 3229614080 m) : Keeps m b (takeFlake s a1 a2 a3 a4 a5 a6) := by
  unfold takeFlake
  repeat' first
    | with_reducible assumption
    | with_reducible apply unserve_keeps
    | with_reducible apply putFlake_keeps
    | with_reducible apply usedChanged_keeps
    | (with_reducible refine Sub.trans (Sub.ok ?_) hm); rfl
    | dsimp only
    | split

theorem serveCarrier_keeps {m : Nat} {b : State} {a1 : Nat} {s : State} {a2 : Nat × Int} (h : Keeps m b s)
    (hm : Sub 3229614080 m) : Keeps m b (serveCarrier a1 s a2) := by
  unfold serveCarrier
  repeat' first
    | with_reducible assumption
    | with_reducible apply takeFlake_keeps
    | with_reducible apply Keeps.ite
    | (with_reducible refine Sub.trans (Sub.ok ?_) hm); rfl
    | dsimp only
    | split

theorem missCarrier_keeps {m : Nat} {b : State} {a1 : Nat} {s : State} {a2 : Nat × Flake} (h : Keeps m b s)
    (hm : Sub 3229614144 m) : Keeps m b (missCarrier a1 s a2) := by
  unfold missCarrier
  repeat' first
    | with_reducible assumption
    | with_reducible apply evFlakeOf_keeps
    | with_reducible apply freeFlake_keeps
    | with_reducible apply putFlake_keeps
    | with_reducible apply Keeps.ite
    | (with_reducible refine Sub.trans (Sub.ok ?_) hm); rfl
    | dsimp only
    | split

theorem execCensus_keeps {m : Nat} {b : State} {a1 : Nat} {a2 : List (List (Nat × Nat))} {a3 : Sid} {s : State} (h : Keeps m b s)
    (hm : Sub 3229614146 m) : NextKeeps m b (execCensus a1 a2 a3 s) := by
  unfold execCensus
  repeat' first
    | with_reducible assumption
    | with_reducible apply NextKeeps.next
    | with_reducible apply serveCarrier_keeps
    | with_reducible apply missCarrier_keeps
    | with_reducible apply advance_keeps
    | with_reducible apply putTap_keeps
    | with_reducible apply Keeps.foldl
    | with_reducible apply Keeps.foldl_fst
    | with_reducible apply Keeps.foldl_snd
    | with_reducible apply NextKeeps.ite
    | with_reducible apply Keeps.ite
    | (with_reducible refine Sub.trans (Sub.ok ?_) hm); rfl
    | with_reducible intro _ _ _
    | dsimp only
    | split

theorem execProbeTimeout_keeps {m : Nat} {b : State} {a1 : Nat} {s : State} (h : Keeps m b s)
    (hm : Sub 3229614080 m) : NextKeeps m b (execProbeTimeout a1 s) := by
  unfold execProbeTimeout
  repeat' first
    | with_reducible assumption
    | with_reducible apply NextKeeps.next
    | with_reducible apply freeFlake_keeps
    | with_reducible apply putTap_keeps
    | with_reducible apply NextKeeps.ite
    | with_reducible apply Keeps.ite
    | (with_reducible refine Sub.trans (Sub.ok ?_) hm); rfl
    | dsimp only
    | split

theorem resetFlake_keeps {m : Nat} {b : State} {a1 : Nat} {s : State} {a2 : Nat × Flake} (h : Keeps m b s)
    (hm : Sub 3229614144 m) : Keeps m b (resetFlake a1 s a2) := by
  unfold resetFlake
  repeat' first
    | with_reducible assumption
    | with_reducible apply evFlakeOf_keeps
    | with_reducible apply freeFlake_keeps
    | with_reducible apply putFlake_keeps
    | with_reducible apply Keeps.ite
    | (with_reducible refine Sub.trans (Sub.ok ?_) hm); rfl
    | dsimp only
    | split

theorem dropFlake_keeps {m : Nat} {b : State} {a1 : Nat} {a2 : Bool} {s : State} {a3 : Nat × Flake} (h : Keeps m b s)
    (hm : Sub 3229614144 m) : Keeps m b (dropFlake a1 a2 s a3) := by
  unfold dropFlake
  repeat' first
    | with_reducible assumption
    | with_reducible apply evFlakeOf_keeps
    | with_reducible apply freeFlake_keeps
    | with_reducible apply Keeps.ite
    | (with_reducible refine Sub.trans (Sub.ok ?_) hm); rfl
    | dsimp only
    | split

theorem tapResets_keeps {m : Nat} {b : State} {s : State} {a1 : Nat} (h : Keeps m b s)
    (hm : Sub 3229614144 m) : Keeps m b (tapResets s a1) := by
  unfold tapResets
  repeat' first
    | with_reducible assumption
    | with_reducible apply resetFlake_keeps
    | with_reducible apply dropFlake_keeps
    | with_reducible apply putTap_keeps
    | with_reducible apply Keeps.foldl
    | with_reducible apply Keeps.ite
    | (with_reducible refine Sub.trans (Sub.ok ?_) hm); rfl
    | with_reducible intro _ _ _
    | dsimp only
    | split

theorem execTapReset_keeps {m : Nat} {b : State} {a1 : Nat} {s : State} (h : Keeps m b s)
    (hm : Sub 3229614144 m) : NextKeeps m b (execTapReset a1 s) := by
  unfold execTapReset
  repeat' first
    | with_reducible assumption
    | with_reducible apply NextKeeps.next
    | with_reducible apply tapResets_keeps
    | with_reducible apply NextKeeps.ite
    | with_reducible apply Keeps.ite
    | (with_reducible refine Sub.trans (Sub.ok ?_) hm); rfl
    | dsimp only
    | split

theorem execTapSettled_keeps {m : Nat} {b : State} {a1 : Nat} {a2 : Sid} {s : State} (h : Keeps m b s)
    (hm : Sub 1073741826 m) : NextKeeps m b (execTapSettled a1 a2 s) := by
  unfold execTapSettled
  repeat' first
    | with_reducible assumption
    | with_reducible apply NextKeeps.next
    | with_reducible apply advance_keeps
    | with_reducible apply putTap_keeps
    | with_reducible apply setFlurry_keeps
    | with_reducible apply NextKeeps.ite
    | with_reducible apply Keeps.ite
    | (with_reducible refine Sub.trans (Sub.ok ?_) hm); rfl
    | dsimp only
    | split

theorem pauseTap_keeps {m : Nat} {b : State} {a1 : Nat} {s : State} {a2 : Nat} (h : Keeps m b s)
    (hm : Sub 1073741824 m) : Keeps m b (pauseTap a1 s a2) := by
  unfold pauseTap
  repeat' first
    | with_reducible assumption
    | with_reducible apply putTap_keeps
    | with_reducible apply setFlurry_keeps
    | with_reducible apply Keeps.ite
    | (with_reducible refine Sub.trans (Sub.ok ?_) hm); rfl
    | dsimp only
    | split

theorem pauseTaps_keeps {m : Nat} {b : State} {s : State} {a1 : Nat} (h : Keeps m b s)
    (hm : Sub 1073741824 m) : Keeps m b (pauseTaps s a1) := by
  unfold pauseTaps
  repeat' first
    | with_reducible assumption
    | with_reducible apply pauseTap_keeps
    | with_reducible apply Keeps.foldl
    | (with_reducible refine Sub.trans (Sub.ok ?_) hm); rfl
    | with_reducible intro _ _ _
    | dsimp only
    | split

theorem dueTaps_keeps {m : Nat} {b : State} {s : State} {a1 : Nat} (h : Keeps m b s)
    (hm : Sub 1073741824 m) : Keeps m b (dueTaps s a1) := by
  unfold dueTaps
  repeat' first
    | with_reducible assumption
    | with_reducible apply setFlurry_keeps
    | with_reducible apply Keeps.ite
    | (with_reducible refine Sub.trans (Sub.ok ?_) hm); rfl
    | dsimp only
    | split

theorem shedFlakes_keeps {m : Nat} {b : State} {a1 : Nat} {s : State} (h : Keeps m b s)
    (hm : Sub 3229614144 m) : Keeps m b (shedFlakes a1 s) := by
  induction a1 generalizing s with
  | zero =>
    unfold shedFlakes
    repeat' first
      | with_reducible assumption
      | with_reducible apply ih
      | with_reducible apply evFlakeOf_keeps
      | with_reducible apply freeFlake_keeps
      | with_reducible apply putFlake_keeps
      | with_reducible apply Keeps.ite
      | (with_reducible refine Sub.trans (Sub.ok ?_) hm); rfl
      | dsimp only
      | split
  | succ k ih =>
    unfold shedFlakes
    repeat' first
      | with_reducible assumption
      | with_reducible apply ih
      | with_reducible apply evFlakeOf_keeps
      | with_reducible apply freeFlake_keeps
      | with_reducible apply putFlake_keeps
      | with_reducible apply Keeps.ite
      | (with_reducible refine Sub.trans (Sub.ok ?_) hm); rfl
      | dsimp only
      | split

theorem flurryShed_keeps {m : Nat} {b : State} {s : State} (h : Keeps m b s)
    (hm : Sub 3229614144 m) : Keeps m b (flurryShed s) := by
  unfold flurryShed
  repeat' first
    | with_reducible assumption
    | with_reducible apply shedFlakes_keeps
    | with_reducible apply setFlurry_keeps
    | (with_reducible refine Sub.trans (Sub.ok ?_) hm); rfl
    | dsimp only
    | split

theorem flurryRestore_keeps {m : Nat} {b : State} {s : State} (h : Keeps m b s)
    (hm : Sub 1073741824 m) : Keeps m b (flurryRestore s) := by
  unfold flurryRestore
  repeat' first
    | with_reducible assumption
    | with_reducible apply setFlurry_keeps
    | with_reducible apply Keeps.ite
    | (with_reducible refine Sub.trans (Sub.ok ?_) hm); rfl
    | dsimp only
    | split

theorem flurrySetSpec_keeps : CmdSpec.Keeps 1073741824 flurrySetSpec := by
  intro m b c s h hm
  unfold flurrySetSpec
  repeat' first
    | with_reducible assumption
    | with_reducible apply ok_keeps
    | with_reducible apply okWith_keeps
    | with_reducible apply badState_keeps
    | with_reducible apply badParam_keeps
    | with_reducible apply Reply.keeps_deny
    | with_reducible apply Reply.keeps_done
    | with_reducible apply Reply.keeps_later
    | with_reducible apply Reply.keeps_busy
    | with_reducible apply setFlurry_keeps
    | with_reducible apply Reply.Keeps.ite
    | with_reducible apply Keeps.ite
    | (with_reducible refine Sub.trans (Sub.ok ?_) hm); rfl
    | dsimp only
    | split

theorem flurryApply_keeps {m : Nat} {b : State} {s : State} (h : Keeps m b s)
    (hm : Sub 1073741824 m) : Keeps m b (flurryApply s) := by
  unfold flurryApply
  repeat' first
    | with_reducible assumption
    | with_reducible apply setFlurry_keeps
    | (with_reducible refine Sub.trans (Sub.ok ?_) hm); rfl
    | dsimp only
    | split

theorem tapSetUnit_keeps {m : Nat} {b : State} {a1 : Cmd} {s : State} (h : Keeps m b s)
    (hm : Sub 3229614144 m) : Reply.Keeps m b (tapSetUnit a1 s) := by
  unfold tapSetUnit
  repeat' first
    | with_reducible assumption
    | with_reducible apply ok_keeps
    | with_reducible apply okWith_keeps
    | with_reducible apply badState_keeps
    | with_reducible apply badParam_keeps
    | with_reducible apply Reply.keeps_deny
    | with_reducible apply Reply.keeps_done
    | with_reducible apply Reply.keeps_later
    | with_reducible apply Reply.keeps_busy
    | with_reducible apply dropFlake_keeps
    | with_reducible apply tapResets_keeps
    | with_reducible apply putTap_keeps
    | with_reducible apply Keeps.foldl
    | with_reducible apply Reply.Keeps.ite
    | with_reducible apply Keeps.ite
    | (with_reducible refine Sub.trans (Sub.ok ?_) hm); rfl
    | with_reducible intro _ _ _
    | dsimp only
    | split

theorem tapSetSpec_keeps : CmdSpec.Keeps 3229614144 tapSetSpec := by
  intro m b c s h hm
  unfold tapSetSpec
  repeat' first
    | with_reducible assumption
    | with_reducible apply ok_keeps
    | with_reducible apply okWith_keeps
    | with_reducible apply badState_keeps
    | with_reducible apply badParam_keeps
    | with_reducible apply Reply.keeps_deny
    | with_reducible apply Reply.keeps_done
    | with_reducible apply Reply.keeps_later
    | with_reducible apply Reply.keeps_busy
    | with_reducible apply tapSetUnit_keeps
    | (with_reducible refine Sub.trans (Sub.ok ?_) hm); rfl
    | dsimp only
    | split

theorem flakeAssignUnit_keeps {m : Nat} {b : State} {a1 : Cmd} {s : State} (h : Keeps m b s)
    (hm : Sub 3229614080 m) : Reply.Keeps m b (flakeAssignUnit a1 s) := by
  unfold flakeAssignUnit
  repeat' first
    | with_reducible assumption
    | with_reducible apply ok_keeps
    | with_reducible apply okWith_keeps
    | with_reducible apply badState_keeps
    | with_reducible apply badParam_keeps
    | with_reducible apply Reply.keeps_deny
    | with_reducible apply Reply.keeps_done
    | with_reducible apply Reply.keeps_later
    | with_reducible apply Reply.keeps_busy
    | with_reducible apply takeFlake_keeps
    | with_reducible apply putFlake_keeps
    | with_reducible apply Reply.Keeps.ite
    | with_reducible apply Keeps.ite
    | (with_reducible refine Sub.trans (Sub.ok ?_) hm); rfl
    | dsimp only
    | split

theorem flakeAssignSpec_keeps : CmdSpec.Keeps 3229614080 flakeAssignSpec := by
  intro m b c s h hm
  unfold flakeAssignSpec
  repeat' first
    | with_reducible assumption
    | with_reducible apply ok_keeps
    | with_reducible apply okWith_keeps
    | with_reducible apply badState_keeps
    | with_reducible apply badParam_keeps
    | with_reducible apply Reply.keeps_deny
    | with_reducible apply Reply.keeps_done
    | with_reducible apply Reply.keeps_later
    | with_reducible apply Reply.keeps_busy
    | with_reducible apply flakeAssignUnit_keeps
    | (with_reducible refine Sub.trans (Sub.ok ?_) hm); rfl
    | dsimp only
    | split

theorem flakeReleaseSpec_keeps : CmdSpec.Keeps 3229614080 flakeReleaseSpec := by
  intro m b c s h hm
  unfold flakeReleaseSpec
  repeat' first
    | with_reducible assumption
    | with_reducible apply ok_keeps
    | with_reducible apply okWith_keeps
    | with_reducible apply badState_keeps
    | with_reducible apply badParam_keeps
    | with_reducible apply Reply.keeps_deny
    | with_reducible apply Reply.keeps_done
    | with_reducible apply Reply.keeps_later
    | with_reducible apply Reply.keeps_busy
    | with_reducible apply freeFlake_keeps
    | with_reducible apply Reply.Keeps.ite
    | with_reducible apply Keeps.ite
    | (with_reducible refine Sub.trans (Sub.ok ?_) hm); rfl
    | dsimp only
    | split

theorem flakeGetSpec_keeps : CmdSpec.Keeps 0 flakeGetSpec := by
  intro m b c s h hm
  unfold flakeGetSpec
  repeat' first
    | with_reducible assumption
    | with_reducible apply ok_keeps
    | with_reducible apply okWith_keeps
    | with_reducible apply badState_keeps
    | with_reducible apply badParam_keeps
    | with_reducible apply Reply.keeps_deny
    | with_reducible apply Reply.keeps_done
    | with_reducible apply Reply.keeps_later
    | with_reducible apply Reply.keeps_busy
    | (with_reducible refine Sub.trans (Sub.ok ?_) hm); rfl
    | dsimp only
    | split

theorem censusGetSpec_keeps : CmdSpec.Keeps 0 censusGetSpec := by
  intro m b c s h hm
  unfold censusGetSpec
  repeat' first
    | with_reducible assumption
    | with_reducible apply ok_keeps
    | with_reducible apply okWith_keeps
    | with_reducible apply badState_keeps
    | with_reducible apply badParam_keeps
    | with_reducible apply Reply.keeps_deny
    | with_reducible apply Reply.keeps_done
    | with_reducible apply Reply.keeps_later
    | with_reducible apply Reply.keeps_busy
    | (with_reducible refine Sub.trans (Sub.ok ?_) hm); rfl
    | dsimp only
    | split

theorem streamGroup_keeps {m : Nat} {b : State} {s : State} {a1 : Option (Nat × Nat)} {a2 : RdsGroup} {a3 : Bytes} (h : Keeps m b s)
    (hm : Sub 1050824 m) : Keeps m b (streamGroup s a1 a2 a3) := by
  unfold streamGroup
  repeat' first
    | with_reducible assumption
    | with_reducible apply feedRing_keeps
    | with_reducible apply Keeps.ite
    | (with_reducible refine Sub.trans (Sub.ok ?_) hm); rfl
    | dsimp only
    | split

theorem laneGroup_keeps {m : Nat} {b : State} {s : State} {a1 : Nat} {a2 : RdsGroup} {a3 : Sid} (h : Keeps m b s)
    (hm : Sub 537921736 m) : Keeps m b (laneGroup s a1 a2 a3) := by
  unfold laneGroup
  repeat' first
    | with_reducible assumption
    | with_reducible apply streamGroup_keeps
    | with_reducible apply evTaChanges_keeps
    | with_reducible apply putDemod_keeps
    | (with_reducible refine Sub.trans (Sub.ok ?_) hm); rfl
    | dsimp only
    | split

theorem flakeGroup_keeps {m : Nat} {b : State} {s : State} {a1 : Nat} {a2 : RdsGroup} {a3 : Sid} (h : Keeps m b s)
    (hm : Sub 1074792648 m) : Keeps m b (flakeGroup s a1 a2 a3) := by
  unfold flakeGroup
  repeat' first
    | with_reducible assumption
    | with_reducible apply evFlakeOf_keeps
    | with_reducible apply streamGroup_keeps
    | with_reducible apply evTaChanges_keeps
    | with_reducible apply putFlake_keeps
    | with_reducible apply Keeps.ite
    | (with_reducible refine Sub.trans (Sub.ok ?_) hm); rfl
    | dsimp only
    | split

theorem laneBlockIn_keeps {m : Nat} {b : State} {a1 : Nat} {s : State} {a2 : RdsBlock} (h : Keeps m b s)
    (hm : Sub 537921736 m) : Keeps m b (laneBlockIn a1 s a2) := by
  unfold laneBlockIn
  repeat' first
    | with_reducible assumption
    | with_reducible apply laneGroup_keeps
    | with_reducible apply putDemod_keeps
    | (with_reducible refine Sub.trans (Sub.ok ?_) hm); rfl
    | dsimp only
    | split

theorem flakeBlockIn_keeps {m : Nat} {b : State} {a1 : Nat} {s : State} {a2 : RdsBlock} (h : Keeps m b s)
    (hm : Sub 1074792648 m) : Keeps m b (flakeBlockIn a1 s a2) := by
  unfold flakeBlockIn
  repeat' first
    | with_reducible assumption
    | with_reducible apply flakeGroup_keeps
    | with_reducible apply putFlake_keeps
    | (with_reducible refine Sub.trans (Sub.ok ?_) hm); rfl
    | dsimp only
    | split

theorem execRdsSyncAcquired_keeps {m : Nat} {b : State} {a1 : BitVec 16} {a2 a3 : RdsBlock} {s : State} (h : Keeps m b s)
    (hm : Sub 1611663560 m) : NextKeeps m b (execRdsSyncAcquired a1 a2 a3 s) := by
  unfold execRdsSyncAcquired
  repeat' first
    | with_reducible assumption
    | with_reducible apply NextKeeps.next
    | with_reducible apply laneBlockIn_keeps
    | with_reducible apply flakeBlockIn_keeps
    | with_reducible apply putDemod_keeps
    | with_reducible apply putFlake_keeps
    | with_reducible apply Keeps.foldl
    | with_reducible apply NextKeeps.ite
    | with_reducible apply Keeps.ite
    | (with_reducible refine Sub.trans (Sub.ok ?_) hm); rfl
    | with_reducible intro _ _ _
    | dsimp only
    | split

theorem execRdsSyncLost_keeps {m : Nat} {b : State} {a1 : BitVec 16} {s : State} (h : Keeps m b s)
    (hm : Sub 1611663560 m) : NextKeeps m b (execRdsSyncLost a1 s) := by
  unfold execRdsSyncLost
  repeat' first
    | with_reducible assumption
    | with_reducible apply NextKeeps.next
    | with_reducible apply evFlakeOf_keeps
    | with_reducible apply laneGroup_keeps
    | with_reducible apply flakeGroup_keeps
    | with_reducible apply putDemod_keeps
    | with_reducible apply putFlake_keeps
    | with_reducible apply NextKeeps.ite
    | with_reducible apply Keeps.ite
    | (with_reducible refine Sub.trans (Sub.ok ?_) hm); rfl
    | dsimp only
    | split

theorem execRdsGroup_keeps {m : Nat} {b : State} {a1 : BitVec 16} {a2 : List RdsBlock} {a3 : Sid} {s : State} (h : Keeps m b s)
    (hm : Sub 1611663562 m) : NextKeeps m b (execRdsGroup a1 a2 a3 s) := by
  unfold execRdsGroup
  repeat' first
    | with_reducible assumption
    | with_reducible apply NextKeeps.next
    | with_reducible apply laneBlockIn_keeps
    | with_reducible apply flakeBlockIn_keeps
    | with_reducible apply advance_keeps
    | with_reducible apply Keeps.foldl
    | with_reducible apply NextKeeps.ite
    | with_reducible apply Keeps.ite
    | (with_reducible refine Sub.trans (Sub.ok ?_) hm); rfl
    | with_reducible intro _ _ _
    | dsimp only
    | split

theorem tapSample_keeps {m : Nat} {b : State} {a1 : Nat} {s : State} {a2 : Nat × ZoneSample} (h : Keeps m b s)
    (hm : Sub 1073741824 m) : Keeps m b (tapSample a1 s a2) := by
  unfold tapSample
  repeat' first
    | with_reducible assumption
    | with_reducible apply putTap_keeps
    | with_reducible apply setFlurry_keeps
    | with_reducible apply Keeps.ite
    | (with_reducible refine Sub.trans (Sub.ok ?_) hm); rfl
    | dsimp only
    | split

theorem tapTakes_keeps {m : Nat} {b : State} {a1 : List (Nat × List ZoneSample)} {s : State} {a2 : Nat} (h : Keeps m b s)
    (hm : Sub 1073741824 m) : Keeps m b (tapTakes a1 s a2) := by
  unfold tapTakes
  repeat' first
    | with_reducible assumption
    | with_reducible apply tapSample_keeps
    | with_reducible apply putTap_keeps
    | with_reducible apply Keeps.foldl
    | with_reducible apply Keeps.foldl_fst
    | with_reducible apply Keeps.foldl_snd
    | with_reducible apply Keeps.ite
    | (with_reducible refine Sub.trans (Sub.ok ?_) hm); rfl
    | with_reducible intro _ _ _
    | dsimp only
    | split

end Sys2Proof.Machine
end

