-- ==== Sys2Proof/Laws/KeepsLinkTable.lean ====
section
/-! SUPPORT. Laws/KeepsLinkTable.lean: what each operation of Machine/LinkTable.lean keeps. -/

set_option linter.unusedTactic false
set_option linter.unreachableTactic false
set_option linter.unusedVariables false

namespace Sys2Proof.Machine

theorem evLinkTable_keeps {m : Nat} {b : State} {s : State} {a1 a2 : Nat} (h : Keeps m b s)
    (hm : Sub 64 m) : Keeps m b (evLinkTable s a1 a2) := by
  unfold evLinkTable
  repeat' first
    | with_reducible assumption
    | with_reducible apply raise_keeps
    | (with_reducible refine Sub.trans (Sub.ok ?_) hm); rfl
    | dsimp only
    | split

theorem storeLink_keeps {m : Nat} {b : State} {s : State} {a1 : Nat} {a2 : LinkEntry} (h : Keeps m b s)
    (hm : Sub 34359738432 m) : Keeps m b (storeLink s a1 a2) := by
  unfold storeLink
  repeat' first
    | with_reducible assumption
    | with_reducible apply evLinkTable_keeps
    | with_reducible apply setLinks_keeps
    | (with_reducible refine Sub.trans (Sub.ok ?_) hm); rfl
    | dsimp only
    | split

theorem addLink_keeps {m : Nat} {b s : State} {a1 : LinkEntry} {r : Nat × State} (h : Keeps m b s)
    (hm : Sub 34359738432 m) (e : addLink s a1 = some r) : Keeps m b r.2 := by
  unfold addLink at e
  split at e
  · cases e
    exact storeLink_keeps h (Sub.trans (Sub.ok rfl) hm)
  · split at e
    · cases e
      exact storeLink_keeps (evLinkTable_keeps h (Sub.trans (Sub.ok rfl) hm)) (Sub.trans (Sub.ok rfl) hm)
    · cases e

theorem receiveEntry_keeps {m : Nat} {b : State} {s : State} {a1 : Nat} {a2 : LinkInfo} (h : Keeps m b s)
    (hm : Sub 34359738432 m) : Keeps m b (receiveEntry s a1 a2) := by
  unfold receiveEntry
  repeat' first
    | with_reducible assumption
    | with_reducible apply evLinkTable_keeps
    | with_reducible apply storeLink_keeps
    | with_reducible refine addLink_keeps ?_ ?_ (by assumption)
    | with_reducible apply setLinks_keeps
    | (with_reducible refine Sub.trans (Sub.ok ?_) hm); rfl
    | dsimp only
    | split

theorem receiveFreq_keeps {m : Nat} {b : State} {s : State} {a1 : LinkInfo} (h : Keeps m b s)
    (hm : Sub 34359738368 m) : Keeps m b (receiveFreq s a1) := by
  unfold receiveFreq
  repeat' first
    | with_reducible assumption
    | with_reducible apply setLinks_keeps
    | with_reducible apply Keeps.ite
    | (with_reducible refine Sub.trans (Sub.ok ?_) hm); rfl
    | dsimp only
    | split

theorem receiveLink_keeps {m : Nat} {b : State} {a1 : Nat} {s : State} {a2 : LinkInfo} (h : Keeps m b s)
    (hm : Sub 34359738432 m) : Keeps m b (receiveLink a1 s a2) := by
  unfold receiveLink
  repeat' first
    | with_reducible assumption
    | with_reducible apply receiveEntry_keeps
    | with_reducible apply receiveFreq_keeps
    | with_reducible apply Keeps.ite
    | (with_reducible refine Sub.trans (Sub.ok ?_) hm); rfl
    | dsimp only
    | split

theorem removeLink_keeps {m : Nat} {b : State} {s : State} {a1 : Nat} (h : Keeps m b s)
    (hm : Sub 34359738432 m) : Keeps m b (removeLink s a1) := by
  unfold removeLink
  repeat' first
    | with_reducible assumption
    | with_reducible apply evLinkTable_keeps
    | with_reducible apply setLinks_keeps
    | (with_reducible refine Sub.trans (Sub.ok ?_) hm); rfl
    | dsimp only
    | split

theorem execLinkEntryAged_keeps {m : Nat} {b : State} {a1 : Nat} {s : State} (h : Keeps m b s)
    (hm : Sub 34359738432 m) : NextKeeps m b (execLinkEntryAged a1 s) := by
  unfold execLinkEntryAged
  repeat' first
    | with_reducible assumption
    | with_reducible apply NextKeeps.next
    | with_reducible apply removeLink_keeps
    | with_reducible apply NextKeeps.ite
    | with_reducible apply Keeps.ite
    | (with_reducible refine Sub.trans (Sub.ok ?_) hm); rfl
    | dsimp only
    | split

theorem linkAddUnit_keeps {m : Nat} {b : State} {a1 : Cmd} {s : State} (h : Keeps m b s)
    (hm : Sub 34359738432 m) : Reply.Keeps m b (linkAddUnit a1 s) := by
  unfold linkAddUnit
  repeat' first
    | with_reducible assumption
    | with_reducible apply ok_keeps
    | with_reducible apply okWith_keeps
    | with_reducible apply badState_keeps
    | with_reducible apply badParam_keeps
    | with_reducible apply Reply.keeps_deny
    | with_reducible apply Reply.keeps_done
    | with_reducible apply Reply.keeps_later
    | with_reducible apply Reply.keeps_busy
    | with_reducible refine addLink_keeps ?_ ?_ (by assumption)
    | (with_reducible refine Sub.trans (Sub.ok ?_) hm); rfl
    | dsimp only
    | split

theorem linkAddSpec_keeps : CmdSpec.Keeps 34359738432 linkAddSpec := by
  intro m b c s h hm
  unfold linkAddSpec
  repeat' first
    | with_reducible assumption
    | with_reducible apply ok_keeps
    | with_reducible apply okWith_keeps
    | with_reducible apply badState_keeps
    | with_reducible apply badParam_keeps
    | with_reducible apply Reply.keeps_deny
    | with_reducible apply Reply.keeps_done
    | with_reducible apply Reply.keeps_later
    | with_reducible apply Reply.keeps_busy
    | with_reducible apply linkAddUnit_keeps
    | (with_reducible refine Sub.trans (Sub.ok ?_) hm); rfl
    | dsimp only
    | split

theorem linkRemoveUnit_keeps {m : Nat} {b : State} {a1 : Cmd} {s : State} (h : Keeps m b s)
    (hm : Sub 34359738432 m) : Reply.Keeps m b (linkRemoveUnit a1 s) := by
  unfold linkRemoveUnit
  repeat' first
    | with_reducible assumption
    | with_reducible apply ok_keeps
    | with_reducible apply okWith_keeps
    | with_reducible apply badState_keeps
    | with_reducible apply badParam_keeps
    | with_reducible apply Reply.keeps_deny
    | with_reducible apply Reply.keeps_done
    | with_reducible apply Reply.keeps_later
    | with_reducible apply Reply.keeps_busy
    | with_reducible apply removeLink_keeps
    | with_reducible apply Keeps.foldl
    | with_reducible apply Keeps.foldl_fst
    | with_reducible apply Keeps.foldl_snd
    | with_reducible apply Reply.Keeps.ite
    | with_reducible apply Keeps.ite
    | (with_reducible refine Sub.trans (Sub.ok ?_) hm); rfl
    | with_reducible intro _ _ _
    | dsimp only
    | split

theorem linkRemoveSpec_keeps : CmdSpec.Keeps 34359738432 linkRemoveSpec := by
  intro m b c s h hm
  unfold linkRemoveSpec
  repeat' first
    | with_reducible assumption
    | with_reducible apply ok_keeps
    | with_reducible apply okWith_keeps
    | with_reducible apply badState_keeps
    | with_reducible apply badParam_keeps
    | with_reducible apply Reply.keeps_deny
    | with_reducible apply Reply.keeps_done
    | with_reducible apply Reply.keeps_later
    | with_reducible apply Reply.keeps_busy
    | with_reducible apply linkRemoveUnit_keeps
    | (with_reducible refine Sub.trans (Sub.ok ?_) hm); rfl
    | dsimp only
    | split

theorem linkGetSpec_keeps : CmdSpec.Keeps 0 linkGetSpec := by
  intro m b c s h hm
  unfold linkGetSpec
  repeat' first
    | with_reducible assumption
    | with_reducible apply ok_keeps
    | with_reducible apply okWith_keeps
    | with_reducible apply badState_keeps
    | with_reducible apply badParam_keeps
    | with_reducible apply Reply.keeps_deny
    | with_reducible apply Reply.keeps_done
    | with_reducible apply Reply.keeps_later
    | with_reducible apply Reply.keeps_busy
    | (with_reducible refine Sub.trans (Sub.ok ?_) hm); rfl
    | dsimp only
    | split

theorem linkConfigSpec_keeps : CmdSpec.Keeps 34359738368 linkConfigSpec := by
  intro m b c s h hm
  unfold linkConfigSpec
  repeat' first
    | with_reducible assumption
    | with_reducible apply ok_keeps
    | with_reducible apply okWith_keeps
    | with_reducible apply badState_keeps
    | with_reducible apply badParam_keeps
    | with_reducible apply Reply.keeps_deny
    | with_reducible apply Reply.keeps_done
    | with_reducible apply Reply.keeps_later
    | with_reducible apply Reply.keeps_busy
    | with_reducible apply setLinks_keeps
    | (with_reducible refine Sub.trans (Sub.ok ?_) hm); rfl
    | dsimp only
    | split

theorem linksApply_keeps {m : Nat} {b : State} {s : State} (h : Keeps m b s)
    (hm : Sub 34359738368 m) : Keeps m b (linksApply s) := by
  unfold linksApply
  repeat' first
    | with_reducible assumption
    | with_reducible apply setLinks_keeps
    | (with_reducible refine Sub.trans (Sub.ok ?_) hm); rfl
    | dsimp only
    | split

end Sys2Proof.Machine
end

