-- ==== Sys2Proof/Laws/KeepsOfdm.lean ====
section
/-! SUPPORT. Laws/KeepsOfdm.lean: what each operation of Machine/Ofdm.lean keeps. -/

set_option linter.unusedTactic false
set_option linter.unreachableTactic false
set_option linter.unusedVariables false

namespace Sys2Proof.Machine

theorem evEns_keeps {m : Nat} {b : State} {s : State} {a1 a2 : Nat} (h : Keeps m b s)
    (hm : Sub 64 m) : Keeps m b (evEns s a1 a2) := by
  unfold evEns
  repeat' first
    | with_reducible assumption
    | with_reducible apply raise_keeps
    | (with_reducible refine Sub.trans (Sub.ok ?_) hm); rfl
    | dsimp only
    | split

theorem evSvc_keeps {m : Nat} {b : State} {s : State} {a1 a2 a3 : Nat} (h : Keeps m b s)
    (hm : Sub 64 m) : Keeps m b (evSvc s a1 a2 a3) := by
  unfold evSvc
  repeat' first
    | with_reducible assumption
    | with_reducible apply raise_keeps
    | (with_reducible refine Sub.trans (Sub.ok ?_) hm); rfl
    | dsimp only
    | split

theorem dropService_keeps {m : Nat} {b : State} {s : State} {a1 : Nat} (h : Keeps m b s)
    (hm : Sub 8589934592 m) : Keeps m b (dropService s a1) := by
  unfold dropService
  repeat' first
    | with_reducible assumption
    | with_reducible apply setServices_keeps
    | (with_reducible refine Sub.trans (Sub.ok ?_) hm); rfl
    | dsimp only
    | split

theorem endService_keeps {m : Nat} {b : State} {s : State} {a1 a2 a3 a4 : Nat} {a5 : Option Nat} (h : Keeps m b s)
    (hm : Sub 856310156652 m) : Keeps m b (endService s a1 a2 a3 a4 a5) := by
  unfold endService
  repeat' first
    | with_reducible assumption
    | with_reducible apply evSvc_keeps
    | with_reducible apply dropService_keeps
    | with_reducible apply complete_keeps
    | (with_reducible refine Sub.trans (Sub.ok ?_) hm); rfl
    | dsimp only
    | split

theorem waitServices_keeps {m : Nat} {b : State} {s : State} {a1 : Nat} {a2 : Bool} (h : Keeps m b s)
    (hm : Sub 8589934592 m) : Keeps m b (waitServices s a1 a2) := by
  unfold waitServices
  repeat' first
    | with_reducible assumption
    | with_reducible apply setServices_keeps
    | with_reducible apply Keeps.ite
    | (with_reducible refine Sub.trans (Sub.ok ?_) hm); rfl
    | dsimp only
    | split

theorem serveOne_keeps {m : Nat} {b : State} {a1 : Nat} {a2 : MuxConfig} {s : State} {a3 : Nat × Service} (h : Keeps m b s)
    (hm : Sub 856310156652 m) : Keeps m b (serveOne a1 a2 s a3) := by
  unfold serveOne
  repeat' first
    | with_reducible assumption
    | with_reducible apply endService_keeps
    | with_reducible apply setServices_keeps
    | with_reducible apply Keeps.ite
    | (with_reducible refine Sub.trans (Sub.ok ?_) hm); rfl
    | dsimp only
    | split

theorem serveWaiting_keeps {m : Nat} {b : State} {s : State} {a1 : Nat} (h : Keeps m b s)
    (hm : Sub 856310156652 m) : Keeps m b (serveWaiting s a1) := by
  unfold serveWaiting
  repeat' first
    | with_reducible assumption
    | with_reducible apply serveOne_keeps
    | with_reducible apply Keeps.foldl
    | (with_reducible refine Sub.trans (Sub.ok ?_) hm); rfl
    | with_reducible intro _ _ _
    | dsimp only
    | split

theorem reconfOne_keeps {m : Nat} {b : State} {a1 : Nat} {a2 : Option MuxConfig} {s : State} {a3 : Nat × Service} (h : Keeps m b s)
    (hm : Sub 8589934656 m) : Keeps m b (reconfOne a1 a2 s a3) := by
  unfold reconfOne
  repeat' first
    | with_reducible assumption
    | with_reducible apply evSvc_keeps
    | with_reducible apply setServices_keeps
    | with_reducible apply Keeps.ite
    | (with_reducible refine Sub.trans (Sub.ok ?_) hm); rfl
    | dsimp only
    | split

theorem toSearching_keeps {m : Nat} {b : State} {s : State} {a1 : Nat} {a2 : Bool} (h : Keeps m b s)
    (hm : Sub 12884901888 m) : Keeps m b (toSearching s a1 a2) := by
  unfold toSearching
  repeat' first
    | with_reducible assumption
    | with_reducible apply waitServices_keeps
    | with_reducible apply putOfdm_keeps
    | with_reducible apply Keeps.ite
    | (with_reducible refine Sub.trans (Sub.ok ?_) hm); rfl
    | dsimp only
    | split

theorem ofdmRuns_keeps {m : Nat} {b : State} {s : State} {a1 : Nat} (h : Keeps m b s)
    (hm : Sub 12884901888 m) : Keeps m b (ofdmRuns s a1) := by
  unfold ofdmRuns
  repeat' first
    | with_reducible assumption
    | with_reducible apply toSearching_keeps
    | with_reducible apply Keeps.ite
    | (with_reducible refine Sub.trans (Sub.ok ?_) hm); rfl
    | dsimp only
    | split

theorem ofdmHolds_keeps {m : Nat} {b : State} {s : State} {a1 : Nat} (h : Keeps m b s)
    (hm : Sub 4294967296 m) : Keeps m b (ofdmHolds s a1) := by
  unfold ofdmHolds
  repeat' first
    | with_reducible assumption
    | with_reducible apply putOfdm_keeps
    | with_reducible apply Keeps.ite
    | (with_reducible refine Sub.trans (Sub.ok ?_) hm); rfl
    | dsimp only
    | split

theorem ofdmRetunes_keeps {m : Nat} {b : State} {s : State} {a1 : Nat} (h : Keeps m b s)
    (hm : Sub 12884901888 m) : Keeps m b (ofdmRetunes s a1) := by
  unfold ofdmRetunes
  repeat' first
    | with_reducible assumption
    | with_reducible apply toSearching_keeps
    | with_reducible apply Keeps.ite
    | (with_reducible refine Sub.trans (Sub.ok ?_) hm); rfl
    | dsimp only
    | split

theorem ofdmStops_keeps {m : Nat} {b : State} {s : State} {a1 : Nat} (h : Keeps m b s)
    (hm : Sub 856310156652 m) : Keeps m b (ofdmStops s a1) := by
  unfold ofdmStops
  repeat' first
    | with_reducible assumption
    | with_reducible apply endService_keeps
    | with_reducible apply putOfdm_keeps
    | with_reducible apply Keeps.foldl
    | with_reducible apply Keeps.foldl_fst
    | with_reducible apply Keeps.foldl_snd
    | with_reducible apply Keeps.ite
    | (with_reducible refine Sub.trans (Sub.ok ?_) hm); rfl
    | with_reducible intro _ _ _
    | dsimp only
    | split

theorem frameIn_keeps {m : Nat} {b : State} {s : State} {a1 : Nat} {a2 : List BranchFrame} (h : Keeps m b s)
    (hm : Sub 847753776492 m) : Keeps m b (frameIn s a1 a2) := by
  unfold frameIn
  repeat' first
    | with_reducible assumption
    | with_reducible apply divTakes_keeps
    | with_reducible apply putLane_keeps
    | with_reducible apply putOfdm_keeps
    | with_reducible apply Keeps.foldl
    | with_reducible apply Keeps.ite
    | (with_reducible refine Sub.trans (Sub.ok ?_) hm); rfl
    | with_reducible intro _ _ _
    | dsimp only
    | split

theorem emit_keeps {m : Nat} {b : State} {s : State} {a1 a2 a3 : Nat} {a4 : Bool} {a5 : Sid} {a6 a7 : Nat} {a8 : Bytes} (h : Keeps m b s)
    (hm : Sub 4296018120 m) : Keeps m b (emit s a1 a2 a3 a4 a5 a6 a7 a8) := by
  unfold emit
  repeat' first
    | with_reducible assumption
    | with_reducible apply feedRing_keeps
    | with_reducible apply putOfdm_keeps
    | with_reducible apply Keeps.ite
    | (with_reducible refine Sub.trans (Sub.ok ?_) hm); rfl
    | dsimp only
    | split

theorem emitFic_keeps {m : Nat} {b : State} {s : State} {a1 a2 : Nat} {a3 : Bool} {a4 : Sid} {a5 : Nat} {a6 : Bytes} (h : Keeps m b s)
    (hm : Sub 4296018120 m) : Keeps m b (emitFic s a1 a2 a3 a4 a5 a6) := by
  unfold emitFic
  repeat' first
    | with_reducible assumption
    | with_reducible apply emit_keeps
    | with_reducible apply Keeps.ite
    | (with_reducible refine Sub.trans (Sub.ok ?_) hm); rfl
    | dsimp only
    | split

theorem emitSubch_keeps {m : Nat} {b : State} {s : State} {a1 : Nat} {a2 : Sid} {a3 : MscUnit} (h : Keeps m b s)
    (hm : Sub 4296018120 m) : Keeps m b (emitSubch s a1 a2 a3) := by
  unfold emitSubch
  repeat' first
    | with_reducible assumption
    | with_reducible apply emit_keeps
    | with_reducible apply Keeps.ite
    | (with_reducible refine Sub.trans (Sub.ok ?_) hm); rfl
    | dsimp only
    | split

theorem emitPad_keeps {m : Nat} {b : State} {s : State} {a1 a2 a3 : Nat} {a4 : Bool} {a5 : Sid} {a6 a7 : Nat} {a8 : Bytes} (h : Keeps m b s)
    (hm : Sub 4296018120 m) : Keeps m b (emitPad s a1 a2 a3 a4 a5 a6 a7 a8) := by
  unfold emitPad
  repeat' first
    | with_reducible assumption
    | with_reducible apply emit_keeps
    | with_reducible apply Keeps.ite
    | (with_reducible refine Sub.trans (Sub.ok ?_) hm); rfl
    | dsimp only
    | split

theorem execOfdmNullFound_keeps {m : Nat} {b : State} {a1 : Nat} {a2 : BitVec 3} {a3 : Int} {s : State} (h : Keeps m b s)
    (hm : Sub 4294967296 m) : NextKeeps m b (execOfdmNullFound a1 a2 a3 s) := by
  unfold execOfdmNullFound
  repeat' first
    | with_reducible assumption
    | with_reducible apply NextKeeps.next
    | with_reducible apply putOfdm_keeps
    | with_reducible apply NextKeeps.ite
    | with_reducible apply Keeps.ite
    | (with_reducible refine Sub.trans (Sub.ok ?_) hm); rfl
    | dsimp only
    | split

theorem execOfdmConfirmation_keeps {m : Nat} {b : State} {a1 : Nat} {a2 a3 : Int} {a4 : Sid} {s : State} (h : Keeps m b s)
    (hm : Sub 4294967362 m) : NextKeeps m b (execOfdmConfirmation a1 a2 a3 a4 s) := by
  unfold execOfdmConfirmation
  repeat' first
    | with_reducible assumption
    | with_reducible apply NextKeeps.next
    | with_reducible apply evEns_keeps
    | with_reducible apply advance_keeps
    | with_reducible apply putOfdm_keeps
    | with_reducible apply NextKeeps.ite
    | with_reducible apply Keeps.ite
    | (with_reducible refine Sub.trans (Sub.ok ?_) hm); rfl
    | dsimp only
    | split

theorem execOfdmConfirmationFail_keeps {m : Nat} {b : State} {a1 : Nat} {s : State} (h : Keeps m b s)
    (hm : Sub 12884901888 m) : NextKeeps m b (execOfdmConfirmationFail a1 s) := by
  unfold execOfdmConfirmationFail
  repeat' first
    | with_reducible assumption
    | with_reducible apply NextKeeps.next
    | with_reducible apply toSearching_keeps
    | with_reducible apply NextKeeps.ite
    | with_reducible apply Keeps.ite
    | (with_reducible refine Sub.trans (Sub.ok ?_) hm); rfl
    | dsimp only
    | split

theorem execAcquisitionTimeout_keeps {m : Nat} {b : State} {a1 : Nat} {s : State} (h : Keeps m b s)
    (hm : Sub 4294967360 m) : NextKeeps m b (execAcquisitionTimeout a1 s) := by
  unfold execAcquisitionTimeout
  repeat' first
    | with_reducible assumption
    | with_reducible apply NextKeeps.next
    | with_reducible apply evEns_keeps
    | with_reducible apply putOfdm_keeps
    | with_reducible apply NextKeeps.ite
    | with_reducible apply Keeps.ite
    | (with_reducible refine Sub.trans (Sub.ok ?_) hm); rfl
    | dsimp only
    | split

theorem execEnsembleLost_keeps {m : Nat} {b : State} {a1 a2 : Nat} {s : State} (h : Keeps m b s)
    (hm : Sub 12884901952 m) : NextKeeps m b (execEnsembleLost a1 a2 s) := by
  unfold execEnsembleLost
  repeat' first
    | with_reducible assumption
    | with_reducible apply NextKeeps.next
    | with_reducible apply evEns_keeps
    | with_reducible apply toSearching_keeps
    | with_reducible apply NextKeeps.ite
    | with_reducible apply Keeps.ite
    | (with_reducible refine Sub.trans (Sub.ok ?_) hm); rfl
    | dsimp only
    | split

theorem execHoldoverResume_keeps {m : Nat} {b : State} {a1 : Nat} {a2 : Option Int} {s : State} (h : Keeps m b s)
    (hm : Sub 12884901952 m) : NextKeeps m b (execHoldoverResume a1 a2 s) := by
  unfold execHoldoverResume
  repeat' first
    | with_reducible assumption
    | with_reducible apply NextKeeps.next
    | with_reducible apply evEns_keeps
    | with_reducible apply toSearching_keeps
    | with_reducible apply putOfdm_keeps
    | with_reducible apply NextKeeps.ite
    | with_reducible apply Keeps.ite
    | (with_reducible refine Sub.trans (Sub.ok ?_) hm); rfl
    | dsimp only
    | split

theorem configures_keeps {m : Nat} {b : State} {s : State} {a1 : Nat} {a2 : MuxConfig} (h : Keeps m b s)
    (hm : Sub 4294967360 m) : Keeps m b (configures s a1 a2) := by
  unfold configures
  repeat' first
    | with_reducible assumption
    | with_reducible apply evEns_keeps
    | with_reducible apply putOfdm_keeps
    | (with_reducible refine Sub.trans (Sub.ok ?_) hm); rfl
    | dsimp only
    | split

theorem fibAnnounce_keeps {m : Nat} {b : State} {s : State} {a1 a2 a3 : Nat} {a4 : Bool} (h : Keeps m b s)
    (hm : Sub 4294967360 m) : Keeps m b (fibAnnounce s a1 a2 a3 a4) := by
  unfold fibAnnounce
  repeat' first
    | with_reducible assumption
    | with_reducible apply raise_keeps
    | with_reducible apply putOfdm_keeps
    | with_reducible apply Keeps.ite
    | (with_reducible refine Sub.trans (Sub.ok ?_) hm); rfl
    | dsimp only
    | split

theorem ofdmApply_keeps {m : Nat} {b : State} {s : State} {a1 : Nat} (h : Keeps m b s)
    (hm : Sub 4294967296 m) : Keeps m b (ofdmApply s a1) := by
  unfold ofdmApply
  repeat' first
    | with_reducible assumption
    | with_reducible apply putOfdm_keeps
    | (with_reducible refine Sub.trans (Sub.ok ?_) hm); rfl
    | dsimp only
    | split

theorem fibParsed_keeps {m : Nat} {b : State} {s : State} {a1 : Nat} {a2 : FibInfo} {a3 : Sid} (h : Keeps m b s)
    (hm : Sub 890669895020 m) : Keeps m b (fibParsed s a1 a2 a3) := by
  unfold fibParsed
  repeat' first
    | with_reducible assumption
    | with_reducible apply receiveLink_keeps
    | with_reducible apply serveWaiting_keeps
    | with_reducible apply configures_keeps
    | with_reducible apply fibAnnounce_keeps
    | with_reducible apply putOfdm_keeps
    | with_reducible apply Keeps.foldl
    | with_reducible apply Keeps.ite
    | (with_reducible refine Sub.trans (Sub.ok ?_) hm); rfl
    | with_reducible intro _ _ _
    | dsimp only
    | split

theorem execFibDecoded_keeps {m : Nat} {b : State} {a1 : Nat} {a2 : FibInfo} {a3 : List BranchFrame} {a4 : Sid} {s : State} (h : Keeps m b s)
    (hm : Sub 890703449582 m) : NextKeeps m b (execFibDecoded a1 a2 a3 a4 s) := by
  unfold execFibDecoded
  repeat' first
    | with_reducible assumption
    | with_reducible apply NextKeeps.next
    | with_reducible apply frameIn_keeps
    | with_reducible apply emitFic_keeps
    | with_reducible apply ofdmApply_keeps
    | with_reducible apply fibParsed_keeps
    | with_reducible apply advance_keeps
    | with_reducible apply NextKeeps.ite
    | with_reducible apply Keeps.ite
    | (with_reducible refine Sub.trans (Sub.ok ?_) hm); rfl
    | dsimp only
    | split

theorem facParsed_keeps {m : Nat} {b : State} {s : State} {a1 : Nat} {a2 : SdcInfo} (h : Keeps m b s)
    (hm : Sub 12884901952 m) : Keeps m b (facParsed s a1 a2) := by
  unfold facParsed
  repeat' first
    | with_reducible assumption
    | with_reducible apply evEns_keeps
    | with_reducible apply waitServices_keeps
    | with_reducible apply putOfdm_keeps
    | with_reducible apply Keeps.ite
    | (with_reducible refine Sub.trans (Sub.ok ?_) hm); rfl
    | dsimp only
    | split

theorem sdcParsed_keeps {m : Nat} {b : State} {s : State} {a1 : Nat} {a2 : SdcInfo} (h : Keeps m b s)
    (hm : Sub 4294967296 m) : Keeps m b (sdcParsed s a1 a2) := by
  unfold sdcParsed
  repeat' first
    | with_reducible assumption
    | with_reducible apply putOfdm_keeps
    | (with_reducible refine Sub.trans (Sub.ok ?_) hm); rfl
    | dsimp only
    | split

theorem execFacSdcDecoded_keeps {m : Nat} {b : State} {a1 : Nat} {a2 : SdcInfo} {a3 : List BranchFrame} {a4 : Sid} {s : State} (h : Keeps m b s)
    (hm : Sub 890703449582 m) : NextKeeps m b (execFacSdcDecoded a1 a2 a3 a4 s) := by
  unfold execFacSdcDecoded
  repeat' first
    | with_reducible assumption
    | with_reducible apply NextKeeps.next
    | with_reducible apply receiveLink_keeps
    | with_reducible apply serveWaiting_keeps
    | with_reducible apply frameIn_keeps
    | with_reducible apply emitFic_keeps
    | with_reducible apply configures_keeps
    | with_reducible apply ofdmApply_keeps
    | with_reducible apply facParsed_keeps
    | with_reducible apply sdcParsed_keeps
    | with_reducible apply advance_keeps
    | with_reducible apply putOfdm_keeps
    | with_reducible apply Keeps.foldl
    | with_reducible apply NextKeeps.ite
    | with_reducible apply Keeps.ite
    | (with_reducible refine Sub.trans (Sub.ok ?_) hm); rfl
    | with_reducible intro _ _ _
    | dsimp only
    | split

theorem execReconfiguration_keeps {m : Nat} {b : State} {a1 : Nat} {a2 : Sid} {s : State} (h : Keeps m b s)
    (hm : Sub 856310156654 m) : NextKeeps m b (execReconfiguration a1 a2 s) := by
  unfold execReconfiguration
  repeat' first
    | with_reducible assumption
    | with_reducible apply NextKeeps.next
    | with_reducible apply evEns_keeps
    | with_reducible apply serveWaiting_keeps
    | with_reducible apply reconfOne_keeps
    | with_reducible apply advance_keeps
    | with_reducible apply putOfdm_keeps
    | with_reducible apply Keeps.foldl
    | with_reducible apply NextKeeps.ite
    | with_reducible apply Keeps.ite
    | (with_reducible refine Sub.trans (Sub.ok ?_) hm); rfl
    | with_reducible intro _ _ _
    | dsimp only
    | split

theorem execDabAlertEnd_keeps {m : Nat} {b : State} {a1 : Nat} {a2 : BitVec 8} {a3 : Sid} {s : State} (h : Keeps m b s)
    (hm : Sub 4294967298 m) : NextKeeps m b (execDabAlertEnd a1 a2 a3 s) := by
  unfold execDabAlertEnd
  repeat' first
    | with_reducible assumption
    | with_reducible apply NextKeeps.next
    | with_reducible apply advance_keeps
    | with_reducible apply putOfdm_keeps
    | with_reducible apply NextKeeps.ite
    | with_reducible apply Keeps.ite
    | (with_reducible refine Sub.trans (Sub.ok ?_) hm); rfl
    | dsimp only
    | split

theorem execServiceTimeout_keeps {m : Nat} {b : State} {a1 a2 : Nat} {s : State} (h : Keeps m b s)
    (hm : Sub 856310156652 m) : NextKeeps m b (execServiceTimeout a1 a2 s) := by
  unfold execServiceTimeout
  repeat' first
    | with_reducible assumption
    | with_reducible apply NextKeeps.next
    | with_reducible apply endService_keeps
    | with_reducible apply NextKeeps.ite
    | with_reducible apply Keeps.ite
    | (with_reducible refine Sub.trans (Sub.ok ?_) hm); rfl
    | dsimp only
    | split

theorem firstPcm_keeps {m : Nat} {b : State} {s : State} {a1 a2 : Nat} {a3 : Service} (h : Keeps m b s)
    (hm : Sub 856310156652 m) : Keeps m b (firstPcm s a1 a2 a3) := by
  unfold firstPcm
  repeat' first
    | with_reducible assumption
    | with_reducible apply evSvc_keeps
    | with_reducible apply complete_keeps
    | with_reducible apply setServices_keeps
    | (with_reducible refine Sub.trans (Sub.ok ?_) hm); rfl
    | dsimp only
    | split

theorem writePcm_keeps {m : Nat} {b : State} {s : State} {a1 : Nat} {a2 : Bool} {a3 : List (Int × Int)} (h : Keeps m b s)
    (hm : Sub 68719476736 m) : Keeps m b (writePcm s a1 a2 a3) := by
  unfold writePcm
  repeat' first
    | with_reducible assumption
    | with_reducible apply putPath_keeps
    | with_reducible apply Keeps.ite
    | (with_reducible refine Sub.trans (Sub.ok ?_) hm); rfl
    | dsimp only
    | split

theorem takeUnit_keeps {m : Nat} {b : State} {a1 a2 : Nat} {a3 : Bool} {a4 : Service} {s : State} (h : Keeps m b s)
    (hm : Sub 856310156652 m) : Keeps m b (takeUnit a1 a2 a3 a4 s) := by
  unfold takeUnit
  repeat' first
    | with_reducible assumption
    | with_reducible apply evSvc_keeps
    | with_reducible apply firstPcm_keeps
    | with_reducible apply setServices_keeps
    | with_reducible apply Keeps.ite
    | (with_reducible refine Sub.trans (Sub.ok ?_) hm); rfl
    | dsimp only
    | split

theorem execTransportUnitDecoded_keeps {m : Nat} {b : State} {a1 a2 : Nat} {a3 : Bool} {a4 : List (Int × Int)} {a5 : Option MscUnit} {a6 : Sid} {s : State} (h : Keeps m b s)
    (hm : Sub 925029633518 m) : NextKeeps m b (execTransportUnitDecoded a1 a2 a3 a4 a5 a6 s) := by
  unfold execTransportUnitDecoded
  repeat' first
    | with_reducible assumption
    | with_reducible apply NextKeeps.next
    | with_reducible apply emitSubch_keeps
    | with_reducible apply writePcm_keeps
    | with_reducible apply takeUnit_keeps
    | with_reducible apply advance_keeps
    | with_reducible apply NextKeeps.ite
    | with_reducible apply Keeps.ite
    | (with_reducible refine Sub.trans (Sub.ok ?_) hm); rfl
    | dsimp only
    | split

theorem execDynamicLabel_keeps {m : Nat} {b : State} {a1 a2 : Nat} {a3 : Byte} {a4 a5 : Bytes} {a6 : Sid} {s : State} (h : Keeps m b s)
    (hm : Sub 4296018122 m) : NextKeeps m b (execDynamicLabel a1 a2 a3 a4 a5 a6 s) := by
  unfold execDynamicLabel
  repeat' first
    | with_reducible assumption
    | with_reducible apply NextKeeps.next
    | with_reducible apply emitPad_keeps
    | with_reducible apply advance_keeps
    | with_reducible apply NextKeeps.ite
    | with_reducible apply Keeps.ite
    | (with_reducible refine Sub.trans (Sub.ok ?_) hm); rfl
    | dsimp only
    | split

theorem execDrmTextMessage_keeps {m : Nat} {b : State} {a1 a2 : Nat} {a3 : Byte} {a4 : Bytes} {a5 : Sid} {s : State} (h : Keeps m b s)
    (hm : Sub 4296018122 m) : NextKeeps m b (execDrmTextMessage a1 a2 a3 a4 a5 s) := by
  unfold execDrmTextMessage
  repeat' first
    | with_reducible assumption
    | with_reducible apply NextKeeps.next
    | with_reducible apply emitPad_keeps
    | with_reducible apply advance_keeps
    | with_reducible apply NextKeeps.ite
    | with_reducible apply Keeps.ite
    | (with_reducible refine Sub.trans (Sub.ok ?_) hm); rfl
    | dsimp only
    | split

theorem emitMot_keeps {m : Nat} {b : State} {s : State} {a1 a2 a3 : Nat} {a4 : BitVec 16} {a5 : Sid} {a6 : Option (Bytes × Bytes)} (h : Keeps m b s)
    (hm : Sub 4296018120 m) : Keeps m b (emitMot s a1 a2 a3 a4 a5 a6) := by
  unfold emitMot
  repeat' first
    | with_reducible assumption
    | with_reducible apply emitPad_keeps
    | (with_reducible refine Sub.trans (Sub.ok ?_) hm); rfl
    | dsimp only
    | split

theorem execMotObject_keeps {m : Nat} {b : State} {a1 a2 : Nat} {a3 a4 : Bytes} {a5 : BitVec 16} {a6 a7 : Sid} {s : State} (h : Keeps m b s)
    (hm : Sub 4296018122 m) : NextKeeps m b (execMotObject a1 a2 a3 a4 a5 a6 a7 s) := by
  unfold execMotObject
  repeat' first
    | with_reducible assumption
    | with_reducible apply NextKeeps.next
    | with_reducible apply emitMot_keeps
    | with_reducible apply advance_keeps
    | with_reducible apply NextKeeps.ite
    | with_reducible apply Keeps.ite
    | (with_reducible refine Sub.trans (Sub.ok ?_) hm); rfl
    | dsimp only
    | split

theorem execMotTimeout_keeps {m : Nat} {b : State} {a1 a2 : Nat} {a3 : BitVec 16} {a4 a5 : Sid} {s : State} (h : Keeps m b s)
    (hm : Sub 4296018122 m) : NextKeeps m b (execMotTimeout a1 a2 a3 a4 a5 s) := by
  unfold execMotTimeout
  repeat' first
    | with_reducible assumption
    | with_reducible apply NextKeeps.next
    | with_reducible apply emitMot_keeps
    | with_reducible apply advance_keeps
    | with_reducible apply NextKeeps.ite
    | with_reducible apply Keeps.ite
    | (with_reducible refine Sub.trans (Sub.ok ?_) hm); rfl
    | dsimp only
    | split

theorem execOfdmWindowEnd_keeps {m : Nat} {b : State} {a1 : Nat} {a2 : OfdmMeasures} {a3 : List (Nat × ServiceMeasures)} {a4 : Sid} {s : State} (h : Keeps m b s)
    (hm : Sub 12918456322 m) : NextKeeps m b (execOfdmWindowEnd a1 a2 a3 a4 s) := by
  unfold execOfdmWindowEnd
  repeat' first
    | with_reducible assumption
    | with_reducible apply NextKeeps.next
    | with_reducible apply advance_keeps
    | with_reducible apply putLane_keeps
    | with_reducible apply putOfdm_keeps
    | with_reducible apply setServices_keeps
    | with_reducible apply NextKeeps.ite
    | with_reducible apply Keeps.ite
    | (with_reducible refine Sub.trans (Sub.ok ?_) hm); rfl
    | dsimp only
    | split

theorem ofdmSetUnit_keeps {m : Nat} {b : State} {a1 : Cmd} {s : State} (h : Keeps m b s)
    (hm : Sub 4294967296 m) : Reply.Keeps m b (ofdmSetUnit a1 s) := by
  unfold ofdmSetUnit
  repeat' first
    | with_reducible assumption
    | with_reducible apply ok_keeps
    | with_reducible apply okWith_keeps
    | with_reducible apply badState_keeps
    | with_reducible apply badParam_keeps
    | with_reducible apply Reply.keeps_deny
    | with_reducible apply Reply.keeps_done
    | with_reducible apply Reply.keeps_later
    | with_reducible apply Reply.keeps_busy
    | with_reducible apply putOfdm_keeps
    | with_reducible apply Reply.Keeps.ite
    | with_reducible apply Keeps.ite
    | (with_reducible refine Sub.trans (Sub.ok ?_) hm); rfl
    | dsimp only
    | split

theorem ofdmSetSpec_keeps : CmdSpec.Keeps 4294967296 ofdmSetSpec := by
  intro m b c s h hm
  unfold ofdmSetSpec
  repeat' first
    | with_reducible assumption
    | with_reducible apply ok_keeps
    | with_reducible apply okWith_keeps
    | with_reducible apply badState_keeps
    | with_reducible apply badParam_keeps
    | with_reducible apply Reply.keeps_deny
    | with_reducible apply Reply.keeps_done
    | with_reducible apply Reply.keeps_later
    | with_reducible apply Reply.keeps_busy
    | with_reducible apply ofdmSetUnit_keeps
    | (with_reducible refine Sub.trans (Sub.ok ?_) hm); rfl
    | dsimp only
    | split

theorem ofdmOnly_keeps {m : Nat} {b s : State} {u : Cmd → State → Reply} {c : Cmd} (h : Reply.Keeps m b (u c s)) :
    Reply.Keeps m b (ofdmOnly u c s) := by
  unfold ofdmOnly
  repeat' first
    | exact h
    | with_reducible apply Reply.Keeps.ite
    | exact badState_keeps ..
    | exact badParam_keeps ..
    | exact Reply.keeps_deny ..
    | split

theorem ensembleGetSpec_keeps : CmdSpec.Keeps 0 ensembleGetSpec := by
  intro m b c s h hm
  unfold ensembleGetSpec
  repeat' first
    | with_reducible assumption
    | with_reducible apply ok_keeps
    | with_reducible apply okWith_keeps
    | with_reducible apply badState_keeps
    | with_reducible apply badParam_keeps
    | with_reducible apply Reply.keeps_deny
    | with_reducible apply Reply.keeps_done
    | with_reducible apply Reply.keeps_later
    | with_reducible apply Reply.keeps_busy
    | with_reducible apply ofdmOnly_keeps
    | (with_reducible refine Sub.trans (Sub.ok ?_) hm); rfl
    | dsimp only
    | split

theorem serviceListGetSpec_keeps : CmdSpec.Keeps 0 serviceListGetSpec := by
  intro m b c s h hm
  unfold serviceListGetSpec
  repeat' first
    | with_reducible assumption
    | with_reducible apply ok_keeps
    | with_reducible apply okWith_keeps
    | with_reducible apply badState_keeps
    | with_reducible apply badParam_keeps
    | with_reducible apply Reply.keeps_deny
    | with_reducible apply Reply.keeps_done
    | with_reducible apply Reply.keeps_later
    | with_reducible apply Reply.keeps_busy
    | with_reducible apply ofdmOnly_keeps
    | (with_reducible refine Sub.trans (Sub.ok ?_) hm); rfl
    | dsimp only
    | split

theorem serviceStartUnit_keeps {m : Nat} {b : State} {a1 : Cmd} {s : State} (h : Keeps m b s)
    (hm : Sub 8589934592 m) : Reply.Keeps m b (serviceStartUnit a1 s) := by
  unfold serviceStartUnit
  repeat' first
    | with_reducible assumption
    | with_reducible apply ok_keeps
    | with_reducible apply okWith_keeps
    | with_reducible apply badState_keeps
    | with_reducible apply badParam_keeps
    | with_reducible apply Reply.keeps_deny
    | with_reducible apply Reply.keeps_done
    | with_reducible apply Reply.keeps_later
    | with_reducible apply Reply.keeps_busy
    | with_reducible apply setServices_keeps
    | with_reducible apply Reply.Keeps.ite
    | with_reducible apply Keeps.ite
    | (with_reducible refine Sub.trans (Sub.ok ?_) hm); rfl
    | dsimp only
    | split

theorem serviceStartSpec_keeps : CmdSpec.Keeps 8589934592 serviceStartSpec := by
  intro m b c s h hm
  unfold serviceStartSpec
  repeat' first
    | with_reducible assumption
    | with_reducible apply ok_keeps
    | with_reducible apply okWith_keeps
    | with_reducible apply badState_keeps
    | with_reducible apply badParam_keeps
    | with_reducible apply Reply.keeps_deny
    | with_reducible apply Reply.keeps_done
    | with_reducible apply Reply.keeps_later
    | with_reducible apply Reply.keeps_busy
    | with_reducible apply ofdmOnly_keeps
    | with_reducible apply serviceStartUnit_keeps
    | (with_reducible refine Sub.trans (Sub.ok ?_) hm); rfl
    | dsimp only
    | split

theorem serviceStopUnit_keeps {m : Nat} {b : State} {a1 : Cmd} {s : State} (h : Keeps m b s)
    (hm : Sub 856310156652 m) : Reply.Keeps m b (serviceStopUnit a1 s) := by
  unfold serviceStopUnit
  repeat' first
    | with_reducible assumption
    | with_reducible apply ok_keeps
    | with_reducible apply okWith_keeps
    | with_reducible apply badState_keeps
    | with_reducible apply badParam_keeps
    | with_reducible apply Reply.keeps_deny
    | with_reducible apply Reply.keeps_done
    | with_reducible apply Reply.keeps_later
    | with_reducible apply Reply.keeps_busy
    | with_reducible apply endService_keeps
    | with_reducible apply Reply.Keeps.ite
    | with_reducible apply Keeps.ite
    | (with_reducible refine Sub.trans (Sub.ok ?_) hm); rfl
    | dsimp only
    | split

theorem serviceStopSpec_keeps : CmdSpec.Keeps 856310156652 serviceStopSpec := by
  intro m b c s h hm
  unfold serviceStopSpec
  repeat' first
    | with_reducible assumption
    | with_reducible apply ok_keeps
    | with_reducible apply okWith_keeps
    | with_reducible apply badState_keeps
    | with_reducible apply badParam_keeps
    | with_reducible apply Reply.keeps_deny
    | with_reducible apply Reply.keeps_done
    | with_reducible apply Reply.keeps_later
    | with_reducible apply Reply.keeps_busy
    | with_reducible apply ofdmOnly_keeps
    | with_reducible apply serviceStopUnit_keeps
    | (with_reducible refine Sub.trans (Sub.ok ?_) hm); rfl
    | dsimp only
    | split

theorem ofdmQualityGetSpec_keeps : CmdSpec.Keeps 0 ofdmQualityGetSpec := by
  intro m b c s h hm
  unfold ofdmQualityGetSpec
  repeat' first
    | with_reducible assumption
    | with_reducible apply ok_keeps
    | with_reducible apply okWith_keeps
    | with_reducible apply badState_keeps
    | with_reducible apply badParam_keeps
    | with_reducible apply Reply.keeps_deny
    | with_reducible apply Reply.keeps_done
    | with_reducible apply Reply.keeps_later
    | with_reducible apply Reply.keeps_busy
    | with_reducible apply ofdmOnly_keeps
    | (with_reducible refine Sub.trans (Sub.ok ?_) hm); rfl
    | dsimp only
    | split

theorem recStream_keeps {m : Nat} {b : State} {a1 : List Nat} {a2 : Machine.Bind} {a3 : Ofdm → Option Nat} {a4 : Ofdm → Bool → Ofdm} {a5 : Cmd} {s : State} (h : Keeps m b s)
    (hm : Sub 4294967304 m) : Reply.Keeps m b (recStream a1 a2 a3 a4 a5 s) := by
  unfold recStream
  repeat' first
    | with_reducible assumption
    | with_reducible apply ok_keeps
    | with_reducible apply okWith_keeps
    | with_reducible apply badState_keeps
    | with_reducible apply badParam_keeps
    | with_reducible apply Reply.keeps_deny
    | with_reducible apply Reply.keeps_done
    | with_reducible apply Reply.keeps_later
    | with_reducible apply Reply.keeps_busy
    | with_reducible apply markRing_keeps
    | with_reducible apply freeRing_keeps
    | exact ringDenied_keeps (by assumption)
    | exact ringDenied_keeps_unless (by assumption)
    | with_reducible apply putOfdm_keeps
    | with_reducible apply Reply.Keeps.ite
    | with_reducible apply Keeps.ite
    | (with_reducible refine Sub.trans (Sub.ok ?_) hm); rfl
    | dsimp only
    | split

theorem ficStreamSpec_keeps : CmdSpec.Keeps 4294967304 ficStreamSpec := by
  intro m b c s h hm
  unfold ficStreamSpec
  repeat' first
    | with_reducible assumption
    | with_reducible apply ok_keeps
    | with_reducible apply okWith_keeps
    | with_reducible apply badState_keeps
    | with_reducible apply badParam_keeps
    | with_reducible apply Reply.keeps_deny
    | with_reducible apply Reply.keeps_done
    | with_reducible apply Reply.keeps_later
    | with_reducible apply Reply.keeps_busy
    | with_reducible apply ofdmOnly_keeps
    | with_reducible apply recStream_keeps
    | with_reducible apply Reply.Keeps.ite
    | with_reducible apply Keeps.ite
    | (with_reducible refine Sub.trans (Sub.ok ?_) hm); rfl
    | dsimp only
    | split

theorem padStreamSpec_keeps : CmdSpec.Keeps 4294967304 padStreamSpec := by
  intro m b c s h hm
  unfold padStreamSpec
  repeat' first
    | with_reducible assumption
    | with_reducible apply ok_keeps
    | with_reducible apply okWith_keeps
    | with_reducible apply badState_keeps
    | with_reducible apply badParam_keeps
    | with_reducible apply Reply.keeps_deny
    | with_reducible apply Reply.keeps_done
    | with_reducible apply Reply.keeps_later
    | with_reducible apply Reply.keeps_busy
    | with_reducible apply ofdmOnly_keeps
    | with_reducible apply recStream_keeps
    | with_reducible apply Reply.Keeps.ite
    | with_reducible apply Keeps.ite
    | (with_reducible refine Sub.trans (Sub.ok ?_) hm); rfl
    | dsimp only
    | split

theorem subchStreamSpec_keeps : CmdSpec.Keeps 4294967304 subchStreamSpec := by
  intro m b c s h hm
  unfold subchStreamSpec
  repeat' first
    | with_reducible assumption
    | with_reducible apply ok_keeps
    | with_reducible apply okWith_keeps
    | with_reducible apply badState_keeps
    | with_reducible apply badParam_keeps
    | with_reducible apply Reply.keeps_deny
    | with_reducible apply Reply.keeps_done
    | with_reducible apply Reply.keeps_later
    | with_reducible apply Reply.keeps_busy
    | with_reducible apply ofdmOnly_keeps
    | with_reducible apply recStream_keeps
    | with_reducible apply Reply.Keeps.ite
    | with_reducible apply Keeps.ite
    | (with_reducible refine Sub.trans (Sub.ok ?_) hm); rfl
    | dsimp only
    | split

theorem surveySetUnit_keeps {m : Nat} {b : State} {a1 : Cmd} {s : State} (h : Keeps m b s)
    (hm : Sub 17179869192 m) : Reply.Keeps m b (surveySetUnit a1 s) := by
  unfold surveySetUnit
  repeat' first
    | with_reducible assumption
    | with_reducible apply ok_keeps
    | with_reducible apply okWith_keeps
    | with_reducible apply badState_keeps
    | with_reducible apply badParam_keeps
    | with_reducible apply Reply.keeps_deny
    | with_reducible apply Reply.keeps_done
    | with_reducible apply Reply.keeps_later
    | with_reducible apply Reply.keeps_busy
    | with_reducible apply markRing_keeps
    | with_reducible apply freeRing_keeps
    | exact ringDenied_keeps (by assumption)
    | exact ringDenied_keeps_unless (by assumption)
    | with_reducible apply putSurvey_keeps
    | with_reducible apply Reply.Keeps.ite
    | with_reducible apply Keeps.ite
    | (with_reducible refine Sub.trans (Sub.ok ?_) hm); rfl
    | dsimp only
    | split

theorem surveySetSpec_keeps : CmdSpec.Keeps 17179869192 surveySetSpec := by
  intro m b c s h hm
  unfold surveySetSpec
  repeat' first
    | with_reducible assumption
    | with_reducible apply ok_keeps
    | with_reducible apply okWith_keeps
    | with_reducible apply badState_keeps
    | with_reducible apply badParam_keeps
    | with_reducible apply Reply.keeps_deny
    | with_reducible apply Reply.keeps_done
    | with_reducible apply Reply.keeps_later
    | with_reducible apply Reply.keeps_busy
    | with_reducible apply surveySetUnit_keeps
    | (with_reducible refine Sub.trans (Sub.ok ?_) hm); rfl
    | dsimp only
    | split

theorem tiiGetUnit_keeps {m : Nat} {b : State} {a1 : Cmd} {s : State} (h : Keeps m b s)
    (hm : Sub 0 m) : Reply.Keeps m b (tiiGetUnit a1 s) := by
  unfold tiiGetUnit
  repeat' first
    | with_reducible assumption
    | with_reducible apply ok_keeps
    | with_reducible apply okWith_keeps
    | with_reducible apply badState_keeps
    | with_reducible apply badParam_keeps
    | with_reducible apply Reply.keeps_deny
    | with_reducible apply Reply.keeps_done
    | with_reducible apply Reply.keeps_later
    | with_reducible apply Reply.keeps_busy
    | (with_reducible refine Sub.trans (Sub.ok ?_) hm); rfl
    | dsimp only
    | split

theorem tiiGetSpec_keeps : CmdSpec.Keeps 0 tiiGetSpec := by
  intro m b c s h hm
  unfold tiiGetSpec
  repeat' first
    | with_reducible assumption
    | with_reducible apply ok_keeps
    | with_reducible apply okWith_keeps
    | with_reducible apply badState_keeps
    | with_reducible apply badParam_keeps
    | with_reducible apply Reply.keeps_deny
    | with_reducible apply Reply.keeps_done
    | with_reducible apply Reply.keeps_later
    | with_reducible apply Reply.keeps_busy
    | with_reducible apply tiiGetUnit_keeps
    | (with_reducible refine Sub.trans (Sub.ok ?_) hm); rfl
    | dsimp only
    | split

theorem emitSurvey_keeps {m : Nat} {b : State} {s : State} {a1 a2 : Nat} {a3 : Sid} {a4 a5 : Nat} {a6 : Bytes} (h : Keeps m b s)
    (hm : Sub 17180920008 m) : Keeps m b (emitSurvey s a1 a2 a3 a4 a5 a6) := by
  unfold emitSurvey
  repeat' first
    | with_reducible assumption
    | with_reducible apply feedRing_keeps
    | with_reducible apply putSurvey_keeps
    | with_reducible apply Keeps.ite
    | (with_reducible refine Sub.trans (Sub.ok ?_) hm); rfl
    | dsimp only
    | split

theorem execSpectrumRecord_keeps {m : Nat} {b : State} {a1 : Nat} {a2 : List (List Nat)} {a3 : Sid} {s : State} (h : Keeps m b s)
    (hm : Sub 17180920010 m) : NextKeeps m b (execSpectrumRecord a1 a2 a3 s) := by
  unfold execSpectrumRecord
  repeat' first
    | with_reducible assumption
    | with_reducible apply NextKeeps.next
    | with_reducible apply emitSurvey_keeps
    | with_reducible apply advance_keeps
    | with_reducible apply putSurvey_keeps
    | with_reducible apply NextKeeps.ite
    | with_reducible apply Keeps.ite
    | (with_reducible refine Sub.trans (Sub.ok ?_) hm); rfl
    | dsimp only
    | split

theorem execImpulseResponseRecord_keeps {m : Nat} {b : State} {a1 : Nat} {a2 : List Cx} {a3 : Sid} {s : State} (h : Keeps m b s)
    (hm : Sub 17180920010 m) : NextKeeps m b (execImpulseResponseRecord a1 a2 a3 s) := by
  unfold execImpulseResponseRecord
  repeat' first
    | with_reducible assumption
    | with_reducible apply NextKeeps.next
    | with_reducible apply emitSurvey_keeps
    | with_reducible apply advance_keeps
    | with_reducible apply NextKeeps.ite
    | with_reducible apply Keeps.ite
    | (with_reducible refine Sub.trans (Sub.ok ?_) hm); rfl
    | dsimp only
    | split

theorem execTiiAverageComplete_keeps {m : Nat} {b : State} {a1 : Nat} {a2 : List TiiComb} {a3 a4 : Sid} {s : State} (h : Keeps m b s)
    (hm : Sub 17180920010 m) : NextKeeps m b (execTiiAverageComplete a1 a2 a3 a4 s) := by
  unfold execTiiAverageComplete
  repeat' first
    | with_reducible assumption
    | with_reducible apply NextKeeps.next
    | with_reducible apply emitSurvey_keeps
    | with_reducible apply advance_keeps
    | with_reducible apply putSurvey_keeps
    | with_reducible apply NextKeeps.ite
    | with_reducible apply Keeps.ite
    | (with_reducible refine Sub.trans (Sub.ok ?_) hm); rfl
    | dsimp only
    | split

theorem surveyStops_keeps {m : Nat} {b : State} {s : State} {a1 : Nat} (h : Keeps m b s)
    (hm : Sub 17179869184 m) : Keeps m b (surveyStops s a1) := by
  unfold surveyStops
  repeat' first
    | with_reducible assumption
    | with_reducible apply putSurvey_keeps
    | (with_reducible refine Sub.trans (Sub.ok ?_) hm); rfl
    | dsimp only
    | split

end Sys2Proof.Machine
end

