-- ==== Sys2Proof/Laws/KeepsLanes.lean ====
section
/-! SUPPORT. Laws/KeepsLanes.lean: what each operation of Machine/Lanes.lean keeps. -/

set_option linter.unusedTactic false
set_option linter.unreachableTactic false
set_option linter.unusedVariables false

namespace Sys2Proof.Machine

theorem markApplied_keeps {m : Nat} {b : State} {s : State} {a1 : InFlight} (h : Keeps m b s)
    (hm : Sub 4 m) : Keeps m b (markApplied s a1) := by
  unfold markApplied
  repeat' first
    | with_reducible assumption
    | with_reducible apply putFlight_keeps
    | (with_reducible refine Sub.trans (Sub.ok ?_) hm); rfl
    | dsimp only
    | split

theorem finishTunes_keeps {m : Nat} {b : State} {s : State} {a1 : Sid} (h : Keeps m b s)
    (hm : Sub 847720222060 m) : Keeps m b (finishTunes s a1) := by
  unfold finishTunes
  repeat' first
    | with_reducible assumption
    | with_reducible apply complete_keeps
    | with_reducible apply Keeps.foldl
    | (with_reducible refine Sub.trans (Sub.ok ?_) hm); rfl
    | with_reducible intro _ _ _
    | dsimp only
    | split

theorem dropLaneCmds_keeps {m : Nat} {b : State} {s : State} {a1 a2 : Nat} (h : Keeps m b s)
    (hm : Sub 847720222060 m) : Keeps m b (dropLaneCmds s a1 a2) := by
  unfold dropLaneCmds
  repeat' first
    | with_reducible assumption
    | with_reducible apply finishTunes_keeps
    | with_reducible apply complete_keeps
    | with_reducible apply Keeps.foldl
    | (with_reducible refine Sub.trans (Sub.ok ?_) hm); rfl
    | with_reducible intro _ _ _
    | dsimp only
    | split

theorem evLaneOf_keeps {m : Nat} {b : State} {s : State} {a1 a2 : Nat} (h : Keeps m b s)
    (hm : Sub 64 m) : Keeps m b (evLaneOf s a1 a2) := by
  unfold evLaneOf
  repeat' first
    | with_reducible assumption
    | with_reducible apply raise_keeps
    | (with_reducible refine Sub.trans (Sub.ok ?_) hm); rfl
    | dsimp only
    | split

theorem formBlock_keeps {m : Nat} {b : State} {s : State} {a1 a2 : Nat} (h : Keeps m b s)
    (hm : Sub 549790419144 m) : Keeps m b (formBlock s a1 a2) := by
  unfold formBlock
  repeat' first
    | with_reducible assumption
    | with_reducible apply evLaneOf_keeps
    | with_reducible apply feedBlock_keeps
    | with_reducible apply putLane_keeps
    | with_reducible apply recordBlock_keeps
    | with_reducible apply Keeps.ite
    | (with_reducible refine Sub.trans (Sub.ok ?_) hm); rfl
    | dsimp only
    | split

theorem cutBlock_keeps {m : Nat} {b : State} {s : State} {a1 : Nat} (h : Keeps m b s)
    (hm : Sub 549790419144 m) : Keeps m b (cutBlock s a1) := by
  unfold cutBlock
  repeat' first
    | with_reducible assumption
    | with_reducible apply formBlock_keeps
    | (with_reducible refine Sub.trans (Sub.ok ?_) hm); rfl
    | dsimp only
    | split

theorem resetLane_keeps {m : Nat} {b : State} {s : State} {a1 : Nat} {a2 : Bool} (h : Keeps m b s)
    (hm : Sub 549790419144 m) : Keeps m b (resetLane s a1 a2) := by
  unfold resetLane
  repeat' first
    | with_reducible assumption
    | with_reducible apply cutBlock_keeps
    | with_reducible apply putLane_keeps
    | with_reducible apply Keeps.ite
    | (with_reducible refine Sub.trans (Sub.ok ?_) hm); rfl
    | dsimp only
    | split

theorem stopLane_keeps {m : Nat} {b : State} {s : State} {a1 : Nat} (h : Keeps m b s)
    (hm : Sub 856352099820 m) : Keeps m b (stopLane s a1) := by
  unfold stopLane
  repeat' first
    | with_reducible assumption
    | with_reducible apply cutBlock_keeps
    | with_reducible apply ofdmStops_keeps
    | with_reducible apply surveyStops_keeps
    | with_reducible apply putLane_keeps
    | with_reducible apply usedChanged_keeps
    | with_reducible apply Keeps.ite
    | (with_reducible refine Sub.trans (Sub.ok ?_) hm); rfl
    | dsimp only
    | split

theorem haltLane_keeps {m : Nat} {b : State} {a1 : Nat} {s : State} {a2 : Nat} (h : Keeps m b s)
    (hm : Sub 856352099820 m) : Keeps m b (haltLane a1 s a2) := by
  unfold haltLane
  repeat' first
    | with_reducible assumption
    | with_reducible apply dropLaneCmds_keeps
    | with_reducible apply evLaneOf_keeps
    | with_reducible apply stopLane_keeps
    | (with_reducible refine Sub.trans (Sub.ok ?_) hm); rfl
    | dsimp only
    | split

theorem pauseLane_keeps {m : Nat} {b : State} {s : State} {a1 : Nat} (h : Keeps m b s)
    (hm : Sub 554085386440 m) : Keeps m b (pauseLane s a1) := by
  unfold pauseLane
  repeat' first
    | with_reducible assumption
    | with_reducible apply cutBlock_keeps
    | with_reducible apply ofdmHolds_keeps
    | with_reducible apply putLane_keeps
    | with_reducible apply Keeps.ite
    | (with_reducible refine Sub.trans (Sub.ok ?_) hm); rfl
    | dsimp only
    | split

theorem heldEffect_keeps {m : Nat} {b : State} {a1 : Nat} {s : State} {a2 : InFlight} (h : Keeps m b s)
    (hm : Sub 856352099820 m) : Keeps m b (heldEffect a1 s a2) := by
  unfold heldEffect
  repeat' first
    | with_reducible assumption
    | with_reducible apply markApplied_keeps
    | with_reducible apply dropLaneCmds_keeps
    | with_reducible apply stopLane_keeps
    | with_reducible apply ofdmRetunes_keeps
    | with_reducible apply complete_keeps
    | with_reducible apply putLane_keeps
    | with_reducible apply Keeps.ite
    | (with_reducible refine Sub.trans (Sub.ok ?_) hm); rfl
    | dsimp only
    | split

theorem resumeLane_keeps {m : Nat} {b : State} {s : State} {a1 : Nat} (h : Keeps m b s)
    (hm : Sub 856352099820 m) : Keeps m b (resumeLane s a1) := by
  unfold resumeLane
  repeat' first
    | with_reducible assumption
    | with_reducible apply resetLane_keeps
    | with_reducible apply heldEffect_keeps
    | with_reducible apply raise_keeps
    | with_reducible apply putLane_keeps
    | with_reducible apply Keeps.foldl
    | with_reducible apply Keeps.ite
    | (with_reducible refine Sub.trans (Sub.ok ?_) hm); rfl
    | with_reducible intro _ _ _
    | dsimp only
    | split

theorem freshUse_keeps {m : Nat} {b : State} {s : State} {a1 : Nat} (h : Keeps m b s)
    (hm : Sub 24159191040 m) : Keeps m b (freshUse s a1) := by
  unfold freshUse
  repeat' first
    | with_reducible assumption
    | with_reducible apply putDemod_keeps
    | with_reducible apply putOfdm_keeps
    | with_reducible apply putSurvey_keeps
    | with_reducible apply setAfs_keeps
    | with_reducible apply Keeps.ite
    | (with_reducible refine Sub.trans (Sub.ok ?_) hm); rfl
    | dsimp only
    | split

theorem releaseLane_keeps {m : Nat} {b : State} {s : State} {a1 : Nat} (h : Keeps m b s)
    (hm : Sub 24192745472 m) : Keeps m b (releaseLane s a1) := by
  unfold releaseLane
  repeat' first
    | with_reducible assumption
    | with_reducible apply freshUse_keeps
    | with_reducible apply putLane_keeps
    | (with_reducible refine Sub.trans (Sub.ok ?_) hm); rfl
    | dsimp only
    | split

theorem evAf_keeps {m : Nat} {b : State} {s : State} {a1 a2 : Nat} {a3 : Af} {a4 a5 : Bool} (h : Keeps m b s)
    (hm : Sub 64 m) : Keeps m b (evAf s a1 a2 a3 a4 a5) := by
  unfold evAf
  repeat' first
    | with_reducible assumption
    | with_reducible apply raise_keeps
    | (with_reducible refine Sub.trans (Sub.ok ?_) hm); rfl
    | dsimp only
    | split

theorem abandonSwitch_keeps {m : Nat} {b : State} {s : State} {a1 : Nat} (h : Keeps m b s)
    (hm : Sub 858499583468 m) : Keeps m b (abandonSwitch s a1) := by
  unfold abandonSwitch
  repeat' first
    | with_reducible assumption
    | with_reducible apply dropLaneCmds_keeps
    | with_reducible apply stopLane_keeps
    | with_reducible apply releaseLane_keeps
    | with_reducible apply evAf_keeps
    | with_reducible apply putAf_keeps
    | with_reducible apply Keeps.ite
    | (with_reducible refine Sub.trans (Sub.ok ?_) hm); rfl
    | dsimp only
    | split

theorem hostAbandons_keeps {m : Nat} {b : State} {s : State} {a1 : Nat} (h : Keeps m b s)
    (hm : Sub 858499583468 m) : Keeps m b (hostAbandons s a1) := by
  unfold hostAbandons
  repeat' first
    | with_reducible assumption
    | with_reducible apply abandonSwitch_keeps
    | with_reducible apply Keeps.ite
    | (with_reducible refine Sub.trans (Sub.ok ?_) hm); rfl
    | dsimp only
    | split

theorem resetZone_keeps {m : Nat} {b : State} {s : State} {a1 : Nat} (h : Keeps m b s)
    (hm : Sub 1090519040 m) : Keeps m b (resetZone s a1) := by
  unfold resetZone
  repeat' first
    | with_reducible assumption
    | with_reducible apply dueTaps_keeps
    | with_reducible apply putZone_keeps
    | (with_reducible refine Sub.trans (Sub.ok ?_) hm); rfl
    | dsimp only
    | split

theorem tapeZone_keeps {m : Nat} {b : State} {s : State} {a1 : Nat} (h : Keeps m b s)
    (hm : Sub 549755813888 m) : Keeps m b (tapeZone s a1) := by
  unfold tapeZone
  repeat' first
    | with_reducible assumption
    | with_reducible apply tapeWord_keeps
    | with_reducible apply Keeps.ite
    | (with_reducible refine Sub.trans (Sub.ok ?_) hm); rfl
    | dsimp only
    | split

theorem tapeLane_keeps {m : Nat} {b : State} {s : State} {a1 : Nat} (h : Keeps m b s)
    (hm : Sub 549755813888 m) : Keeps m b (tapeLane s a1) := by
  unfold tapeLane
  repeat' first
    | with_reducible assumption
    | with_reducible apply tapeWord_keeps
    | with_reducible apply Keeps.ite
    | (with_reducible refine Sub.trans (Sub.ok ?_) hm); rfl
    | dsimp only
    | split

theorem tapeRatio_keeps {m : Nat} {b : State} {s : State} {a1 : Nat} (h : Keeps m b s)
    (hm : Sub 549755813888 m) : Keeps m b (tapeRatio s a1) := by
  unfold tapeRatio
  repeat' first
    | with_reducible assumption
    | with_reducible apply tapeWord_keeps
    | with_reducible apply Keeps.ite
    | (with_reducible refine Sub.trans (Sub.ok ?_) hm); rfl
    | dsimp only
    | split

theorem tapeWords_keeps {m : Nat} {b : State} {s : State} (h : Keeps m b s)
    (hm : Sub 549755813888 m) : Keeps m b (tapeWords s) := by
  unfold tapeWords
  repeat' first
    | with_reducible assumption
    | with_reducible apply tapeZone_keeps
    | with_reducible apply tapeLane_keeps
    | with_reducible apply tapeRatio_keeps
    | with_reducible apply Keeps.foldl
    | with_reducible apply Keeps.ite
    | (with_reducible refine Sub.trans (Sub.ok ?_) hm); rfl
    | with_reducible intro _ _ _
    | dsimp only
    | split

theorem retuneBound_keeps {m : Nat} {b : State} {a1 : Option (Nat × Nat)} {s : State} {a2 : Nat} (h : Keeps m b s)
    (hm : Sub 856352099820 m) : Keeps m b (retuneBound a1 s a2) := by
  unfold retuneBound
  repeat' first
    | with_reducible assumption
    | with_reducible apply resetLane_keeps
    | with_reducible apply haltLane_keeps
    | with_reducible apply putLane_keeps
    | with_reducible apply Keeps.ite
    | (with_reducible refine Sub.trans (Sub.ok ?_) hm); rfl
    | dsimp only
    | split

theorem retuneZones_keeps {m : Nat} {b : State} {a1 : Option (Nat × Nat)} {s : State} {a2 : List Nat} {a3 : Nat} (h : Keeps m b s)
    (hm : Sub 856368877036 m) : Keeps m b (retuneZones a1 s a2 a3) := by
  unfold retuneZones
  repeat' first
    | with_reducible assumption
    | with_reducible apply resetZone_keeps
    | with_reducible apply tapeZone_keeps
    | with_reducible apply retuneBound_keeps
    | with_reducible apply putZone_keeps
    | with_reducible apply usedChanged_keeps
    | with_reducible apply Keeps.foldl
    | with_reducible apply Keeps.ite
    | (with_reducible refine Sub.trans (Sub.ok ?_) hm); rfl
    | with_reducible intro _ _ _
    | dsimp only
    | split

theorem disableZones_keeps {m : Nat} {b : State} {s : State} {a1 : List Nat} (h : Keeps m b s)
    (hm : Sub 1090519040 m) : Keeps m b (disableZones s a1) := by
  unfold disableZones
  repeat' first
    | with_reducible assumption
    | with_reducible apply dueTaps_keeps
    | with_reducible apply putZone_keeps
    | with_reducible apply Keeps.foldl
    | (with_reducible refine Sub.trans (Sub.ok ?_) hm); rfl
    | with_reducible intro _ _ _
    | dsimp only
    | split

theorem zoneTuneUnit_keeps {m : Nat} {b : State} {a1 : Cmd} {s : State} (h : Keeps m b s)
    (hm : Sub 0 m) : Reply.Keeps m b (zoneTuneUnit a1 s) := by
  unfold zoneTuneUnit
  repeat' first
    | with_reducible assumption
    | with_reducible apply ok_keeps
    | with_reducible apply okWith_keeps
    | with_reducible apply badState_keeps
    | with_reducible apply badParam_keeps
    | with_reducible apply Reply.keeps_deny
    | with_reducible apply Reply.keeps_done
    | with_reducible apply Reply.keeps_later
    | with_reducible apply Reply.keeps_busy
    | with_reducible apply Reply.Keeps.ite
    | with_reducible apply Keeps.ite
    | (with_reducible refine Sub.trans (Sub.ok ?_) hm); rfl
    | dsimp only
    | split

theorem zoneTuneApplies_keeps {m : Nat} {b : State} {s : State} {a1 : InFlight} (h : Keeps m b s)
    (hm : Sub 856368877036 m) : Keeps m b (zoneTuneApplies s a1) := by
  unfold zoneTuneApplies
  repeat' first
    | with_reducible assumption
    | with_reducible apply markApplied_keeps
    | with_reducible apply retuneZones_keeps
    | with_reducible apply disableZones_keeps
    | with_reducible apply complete_keeps
    | with_reducible apply Keeps.ite
    | (with_reducible refine Sub.trans (Sub.ok ?_) hm); rfl
    | dsimp only
    | split

theorem zoneTuneSpec_keeps : CmdSpec.Keeps 0 zoneTuneSpec := by
  intro m b c s h hm
  unfold zoneTuneSpec
  repeat' first
    | with_reducible assumption
    | with_reducible apply ok_keeps
    | with_reducible apply okWith_keeps
    | with_reducible apply badState_keeps
    | with_reducible apply badParam_keeps
    | with_reducible apply Reply.keeps_deny
    | with_reducible apply Reply.keeps_done
    | with_reducible apply Reply.keeps_later
    | with_reducible apply Reply.keeps_busy
    | with_reducible apply zoneTuneUnit_keeps
    | (with_reducible refine Sub.trans (Sub.ok ?_) hm); rfl
    | dsimp only
    | split

theorem zoneGetSpec_keeps : CmdSpec.Keeps 0 zoneGetSpec := by
  intro m b c s h hm
  unfold zoneGetSpec
  repeat' first
    | with_reducible assumption
    | with_reducible apply ok_keeps
    | with_reducible apply okWith_keeps
    | with_reducible apply badState_keeps
    | with_reducible apply badParam_keeps
    | with_reducible apply Reply.keeps_deny
    | with_reducible apply Reply.keeps_done
    | with_reducible apply Reply.keeps_later
    | with_reducible apply Reply.keeps_busy
    | (with_reducible refine Sub.trans (Sub.ok ?_) hm); rfl
    | dsimp only
    | split

theorem execZoneSettled_keeps {m : Nat} {b : State} {a1 : Nat} {a2 : Sid} {s : State} (h : Keeps m b s)
    (hm : Sub 847736999278 m) : NextKeeps m b (execZoneSettled a1 a2 s) := by
  unfold execZoneSettled
  repeat' first
    | with_reducible assumption
    | with_reducible apply NextKeeps.next
    | with_reducible apply finishTunes_keeps
    | with_reducible apply advance_keeps
    | with_reducible apply putZone_keeps
    | with_reducible apply NextKeeps.ite
    | with_reducible apply Keeps.ite
    | (with_reducible refine Sub.trans (Sub.ok ?_) hm); rfl
    | dsimp only
    | split

theorem configureLane_keeps {m : Nat} {b : State} {s : State} {a1 : Nat} {a2 : Bytes} {a3 : Nat} (h : Keeps m b s)
    (hm : Sub 24201134080 m) : Keeps m b (configureLane s a1 a2 a3) := by
  unfold configureLane
  repeat' first
    | with_reducible assumption
    | with_reducible apply freshUse_keeps
    | with_reducible apply putLane_keeps
    | with_reducible apply usedChanged_keeps
    | (with_reducible refine Sub.trans (Sub.ok ?_) hm); rfl
    | dsimp only
    | split

theorem laneSetUnit_keeps {m : Nat} {b : State} {a1 : Cmd} {s : State} (h : Keeps m b s)
    (hm : Sub 858499583468 m) : Reply.Keeps m b (laneSetUnit a1 s) := by
  unfold laneSetUnit
  repeat' first
    | with_reducible assumption
    | with_reducible apply ok_keeps
    | with_reducible apply okWith_keeps
    | with_reducible apply badState_keeps
    | with_reducible apply badParam_keeps
    | with_reducible apply Reply.keeps_deny
    | with_reducible apply Reply.keeps_done
    | with_reducible apply Reply.keeps_later
    | with_reducible apply Reply.keeps_busy
    | with_reducible apply releaseLane_keeps
    | with_reducible apply hostAbandons_keeps
    | with_reducible apply configureLane_keeps
    | with_reducible apply usedChanged_keeps
    | with_reducible apply Reply.Keeps.ite
    | with_reducible apply Keeps.ite
    | (with_reducible refine Sub.trans (Sub.ok ?_) hm); rfl
    | dsimp only
    | split

theorem laneSetSpec_keeps : CmdSpec.Keeps 858499583468 laneSetSpec := by
  intro m b c s h hm
  unfold laneSetSpec
  repeat' first
    | with_reducible assumption
    | with_reducible apply ok_keeps
    | with_reducible apply okWith_keeps
    | with_reducible apply badState_keeps
    | with_reducible apply badParam_keeps
    | with_reducible apply Reply.keeps_deny
    | with_reducible apply Reply.keeps_done
    | with_reducible apply Reply.keeps_later
    | with_reducible apply Reply.keeps_busy
    | with_reducible apply laneSetUnit_keeps
    | with_reducible apply Reply.Keeps.ite
    | with_reducible apply Keeps.ite
    | (with_reducible refine Sub.trans (Sub.ok ?_) hm); rfl
    | dsimp only
    | split

theorem laneTuneUnit_keeps {m : Nat} {b : State} {a1 : Cmd} {s : State} (h : Keeps m b s)
    (hm : Sub 858499583468 m) : Reply.Keeps m b (laneTuneUnit a1 s) := by
  unfold laneTuneUnit
  repeat' first
    | with_reducible assumption
    | with_reducible apply ok_keeps
    | with_reducible apply okWith_keeps
    | with_reducible apply badState_keeps
    | with_reducible apply badParam_keeps
    | with_reducible apply Reply.keeps_deny
    | with_reducible apply Reply.keeps_done
    | with_reducible apply Reply.keeps_later
    | with_reducible apply Reply.keeps_busy
    | with_reducible apply hostAbandons_keeps
    | with_reducible apply putLane_keeps
    | with_reducible apply usedChanged_keeps
    | with_reducible apply Reply.Keeps.ite
    | with_reducible apply Keeps.ite
    | (with_reducible refine Sub.trans (Sub.ok ?_) hm); rfl
    | dsimp only
    | split

theorem laneTuneSpec_keeps : CmdSpec.Keeps 858499583468 laneTuneSpec := by
  intro m b c s h hm
  unfold laneTuneSpec
  repeat' first
    | with_reducible assumption
    | with_reducible apply ok_keeps
    | with_reducible apply okWith_keeps
    | with_reducible apply badState_keeps
    | with_reducible apply badParam_keeps
    | with_reducible apply Reply.keeps_deny
    | with_reducible apply Reply.keeps_done
    | with_reducible apply Reply.keeps_later
    | with_reducible apply Reply.keeps_busy
    | with_reducible apply laneTuneUnit_keeps
    | (with_reducible refine Sub.trans (Sub.ok ?_) hm); rfl
    | dsimp only
    | split

theorem laneStartUnit_keeps {m : Nat} {b : State} {a1 : Cmd} {s : State} (h : Keeps m b s)
    (hm : Sub 0 m) : Reply.Keeps m b (laneStartUnit a1 s) := by
  unfold laneStartUnit
  repeat' first
    | with_reducible assumption
    | with_reducible apply ok_keeps
    | with_reducible apply okWith_keeps
    | with_reducible apply badState_keeps
    | with_reducible apply badParam_keeps
    | with_reducible apply Reply.keeps_deny
    | with_reducible apply Reply.keeps_done
    | with_reducible apply Reply.keeps_later
    | with_reducible apply Reply.keeps_busy
    | with_reducible apply Reply.Keeps.ite
    | with_reducible apply Keeps.ite
    | (with_reducible refine Sub.trans (Sub.ok ?_) hm); rfl
    | dsimp only
    | split

theorem laneStartSpec_keeps : CmdSpec.Keeps 0 laneStartSpec := by
  intro m b c s h hm
  unfold laneStartSpec
  repeat' first
    | with_reducible assumption
    | with_reducible apply ok_keeps
    | with_reducible apply okWith_keeps
    | with_reducible apply badState_keeps
    | with_reducible apply badParam_keeps
    | with_reducible apply Reply.keeps_deny
    | with_reducible apply Reply.keeps_done
    | with_reducible apply Reply.keeps_later
    | with_reducible apply Reply.keeps_busy
    | with_reducible apply laneStartUnit_keeps
    | (with_reducible refine Sub.trans (Sub.ok ?_) hm); rfl
    | dsimp only
    | split

theorem laneStopUnit_keeps {m : Nat} {b : State} {a1 : Cmd} {s : State} (h : Keeps m b s)
    (hm : Sub 858499583468 m) : Reply.Keeps m b (laneStopUnit a1 s) := by
  unfold laneStopUnit
  repeat' first
    | with_reducible assumption
    | with_reducible apply ok_keeps
    | with_reducible apply okWith_keeps
    | with_reducible apply badState_keeps
    | with_reducible apply badParam_keeps
    | with_reducible apply Reply.keeps_deny
    | with_reducible apply Reply.keeps_done
    | with_reducible apply Reply.keeps_later
    | with_reducible apply Reply.keeps_busy
    | with_reducible apply dropLaneCmds_keeps
    | with_reducible apply stopLane_keeps
    | with_reducible apply hostAbandons_keeps
    | with_reducible apply Reply.Keeps.ite
    | with_reducible apply Keeps.ite
    | (with_reducible refine Sub.trans (Sub.ok ?_) hm); rfl
    | dsimp only
    | split

theorem laneStopSpec_keeps : CmdSpec.Keeps 858499583468 laneStopSpec := by
  intro m b c s h hm
  unfold laneStopSpec
  repeat' first
    | with_reducible assumption
    | with_reducible apply ok_keeps
    | with_reducible apply okWith_keeps
    | with_reducible apply badState_keeps
    | with_reducible apply badParam_keeps
    | with_reducible apply Reply.keeps_deny
    | with_reducible apply Reply.keeps_done
    | with_reducible apply Reply.keeps_later
    | with_reducible apply Reply.keeps_busy
    | with_reducible apply laneStopUnit_keeps
    | (with_reducible refine Sub.trans (Sub.ok ?_) hm); rfl
    | dsimp only
    | split

theorem laneSyncUnit_keeps {m : Nat} {b : State} {a1 : Cmd} {s : State} (h : Keeps m b s)
    (hm : Sub 858499583468 m) : Reply.Keeps m b (laneSyncUnit a1 s) := by
  unfold laneSyncUnit
  repeat' first
    | with_reducible assumption
    | with_reducible apply ok_keeps
    | with_reducible apply okWith_keeps
    | with_reducible apply badState_keeps
    | with_reducible apply badParam_keeps
    | with_reducible apply Reply.keeps_deny
    | with_reducible apply Reply.keeps_done
    | with_reducible apply Reply.keeps_later
    | with_reducible apply Reply.keeps_busy
    | with_reducible apply hostAbandons_keeps
    | with_reducible apply Reply.Keeps.ite
    | with_reducible apply Keeps.ite
    | (with_reducible refine Sub.trans (Sub.ok ?_) hm); rfl
    | dsimp only
    | split

theorem laneSyncSpec_keeps : CmdSpec.Keeps 858499583468 laneSyncSpec := by
  intro m b c s h hm
  unfold laneSyncSpec
  repeat' first
    | with_reducible assumption
    | with_reducible apply ok_keeps
    | with_reducible apply okWith_keeps
    | with_reducible apply badState_keeps
    | with_reducible apply badParam_keeps
    | with_reducible apply Reply.keeps_deny
    | with_reducible apply Reply.keeps_done
    | with_reducible apply Reply.keeps_later
    | with_reducible apply Reply.keeps_busy
    | with_reducible apply laneSyncUnit_keeps
    | (with_reducible refine Sub.trans (Sub.ok ?_) hm); rfl
    | dsimp only
    | split

theorem commandReset_keeps {m : Nat} {b : State} {s : State} {a1 : Nat} (h : Keeps m b s)
    (hm : Sub 549790419144 m) : Keeps m b (commandReset s a1) := by
  unfold commandReset
  repeat' first
    | with_reducible assumption
    | with_reducible apply resetLane_keeps
    | with_reducible apply tapeRatio_keeps
    | (with_reducible refine Sub.trans (Sub.ok ?_) hm); rfl
    | dsimp only
    | split

theorem byCommand_keeps {m : Nat} {b : State} {s : State} {a1 : Nat} (h : Keeps m b s)
    (hm : Sub 33554432 m) : Keeps m b (byCommand s a1) := by
  unfold byCommand
  repeat' first
    | with_reducible assumption
    | with_reducible apply putLane_keeps
    | with_reducible apply Keeps.ite
    | (with_reducible refine Sub.trans (Sub.ok ?_) hm); rfl
    | dsimp only
    | split

theorem applyLane_keeps {m : Nat} {b : State} {s : State} {a1 : Nat} {a2 : InFlight} (h : Keeps m b s)
    (hm : Sub 856352099820 m) : Keeps m b (applyLane s a1 a2) := by
  unfold applyLane
  repeat' first
    | with_reducible assumption
    | with_reducible apply markApplied_keeps
    | with_reducible apply dropLaneCmds_keeps
    | with_reducible apply cutBlock_keeps
    | with_reducible apply stopLane_keeps
    | with_reducible apply tapeLane_keeps
    | with_reducible apply commandReset_keeps
    | with_reducible apply byCommand_keeps
    | with_reducible apply ofdmRetunes_keeps
    | with_reducible apply complete_keeps
    | with_reducible apply putLane_keeps
    | with_reducible apply usedChanged_keeps
    | with_reducible apply Keeps.ite
    | (with_reducible refine Sub.trans (Sub.ok ?_) hm); rfl
    | dsimp only
    | split

theorem applyNext_keeps {m : Nat} {b : State} {s : State} {a1 : Nat} {a2 : Bool} (h : Keeps m b s)
    (hm : Sub 856368877036 m) : OptKeeps m b (applyNext s a1 a2) := by
  unfold applyNext
  repeat' first
    | with_reducible assumption
    | with_reducible apply OptKeeps.of_none
    | with_reducible apply OptKeeps.of_some
    | with_reducible apply zoneTuneApplies_keeps
    | with_reducible apply applyLane_keeps
    | with_reducible apply complete_keeps
    | with_reducible apply putLane_keeps
    | with_reducible apply OptKeeps.ite
    | with_reducible apply Keeps.ite
    | (with_reducible refine Sub.trans (Sub.ok ?_) hm); rfl
    | dsimp only
    | split

theorem execLanePointOfEffect_keeps {m : Nat} {b : State} {a1 : BitVec 16} {a2 : Sid} {s : State} (h : Keeps m b s)
    (hm : Sub 856368877038 m) : NextKeeps m b (execLanePointOfEffect a1 a2 s) := by
  unfold execLanePointOfEffect
  repeat' first
    | with_reducible assumption
    | with_reducible apply NextKeeps.next
    | with_reducible apply OptKeeps.getD
    | with_reducible apply applyNext_keeps
    | with_reducible apply advance_keeps
    | with_reducible apply onScale_keeps
    | with_reducible apply offScale_keeps
    | with_reducible (refine OptKeeps.get (t := _) ?_ (by assumption))
    | (with_reducible refine Sub.trans (Sub.ok ?_) hm); rfl
    | dsimp only
    | split

theorem spareRuns_keeps {m : Nat} {b : State} {s : State} {a1 : Nat} (h : Keeps m b s)
    (hm : Sub 2147483648 m) : Keeps m b (spareRuns s a1) := by
  unfold spareRuns
  repeat' first
    | with_reducible assumption
    | with_reducible apply setAfs_keeps
    | with_reducible apply Keeps.ite
    | (with_reducible refine Sub.trans (Sub.ok ?_) hm); rfl
    | dsimp only
    | split

theorem execLaneSettled_keeps {m : Nat} {b : State} {a1 : BitVec 16} {a2 : Sid} {s : State} (h : Keeps m b s)
    (hm : Sub 858491194734 m) : NextKeeps m b (execLaneSettled a1 a2 s) := by
  unfold execLaneSettled
  repeat' first
    | with_reducible assumption
    | with_reducible apply NextKeeps.next
    | with_reducible apply finishTunes_keeps
    | with_reducible apply spareRuns_keeps
    | with_reducible apply ofdmRuns_keeps
    | with_reducible apply advance_keeps
    | with_reducible apply complete_keeps
    | with_reducible apply putLane_keeps
    | with_reducible apply onScale_keeps
    | with_reducible apply offScale_keeps
    | with_reducible apply Keeps.foldl
    | with_reducible apply NextKeeps.ite
    | with_reducible apply Keeps.ite
    | (with_reducible refine Sub.trans (Sub.ok ?_) hm); rfl
    | with_reducible intro _ _ _
    | dsimp only
    | split

theorem execLaneFifoFull_keeps {m : Nat} {b : State} {a1 : BitVec 16} {a2 : Nat} {s : State} (h : Keeps m b s)
    (hm : Sub 549790419144 m) : NextKeeps m b (execLaneFifoFull a1 a2 s) := by
  unfold execLaneFifoFull
  repeat' first
    | with_reducible assumption
    | with_reducible apply NextKeeps.next
    | with_reducible apply evLaneOf_keeps
    | with_reducible apply cutBlock_keeps
    | with_reducible apply putLane_keeps
    | with_reducible apply NextKeeps.ite
    | with_reducible apply Keeps.ite
    | (with_reducible refine Sub.trans (Sub.ok ?_) hm); rfl
    | dsimp only
    | split

theorem laneStreamUnit_keeps {m : Nat} {b : State} {a1 : Cmd} {s : State} (h : Keeps m b s)
    (hm : Sub 33554440 m) : Reply.Keeps m b (laneStreamUnit a1 s) := by
  unfold laneStreamUnit
  repeat' first
    | with_reducible assumption
    | with_reducible apply ok_keeps
    | with_reducible apply okWith_keeps
    | with_reducible apply badState_keeps
    | with_reducible apply badParam_keeps
    | with_reducible apply Reply.keeps_deny
    | with_reducible apply Reply.keeps_done
    | with_reducible apply Reply.keeps_later
    | with_reducible apply Reply.keeps_busy
    | with_reducible apply markRing_keeps
    | exact ringDenied_keeps (by assumption)
    | exact ringDenied_keeps_unless (by assumption)
    | with_reducible apply putLane_keeps
    | with_reducible apply Reply.Keeps.ite
    | with_reducible apply Keeps.ite
    | (with_reducible refine Sub.trans (Sub.ok ?_) hm); rfl
    | dsimp only
    | split

theorem laneStreamSpec_keeps : CmdSpec.Keeps 33554440 laneStreamSpec := by
  intro m b c s h hm
  unfold laneStreamSpec
  repeat' first
    | with_reducible assumption
    | with_reducible apply ok_keeps
    | with_reducible apply okWith_keeps
    | with_reducible apply badState_keeps
    | with_reducible apply badParam_keeps
    | with_reducible apply Reply.keeps_deny
    | with_reducible apply Reply.keeps_done
    | with_reducible apply Reply.keeps_later
    | with_reducible apply Reply.keeps_busy
    | with_reducible apply laneStreamUnit_keeps
    | (with_reducible refine Sub.trans (Sub.ok ?_) hm); rfl
    | dsimp only
    | split

theorem laneGetSpec_keeps : CmdSpec.Keeps 0 laneGetSpec := by
  intro m b c s h hm
  unfold laneGetSpec
  repeat' first
    | with_reducible assumption
    | with_reducible apply ok_keeps
    | with_reducible apply okWith_keeps
    | with_reducible apply badState_keeps
    | with_reducible apply badParam_keeps
    | with_reducible apply Reply.keeps_deny
    | with_reducible apply Reply.keeps_done
    | with_reducible apply Reply.keeps_later
    | with_reducible apply Reply.keeps_busy
    | (with_reducible refine Sub.trans (Sub.ok ?_) hm); rfl
    | dsimp only
    | split

theorem feedZone_keeps {m : Nat} {b : State} {a1 : List (Int × Bool × Bool)} {a2 : Sid} {a3 : State × List (Nat × List ZoneSample)} {a4 : Nat} (h : Keeps m b a3.1)
    (hm : Sub 549772591104 m) : Keeps m b (feedZone a1 a2 a3 a4).1 := by
  unfold feedZone
  repeat' first
    | with_reducible assumption
    | with_reducible apply putZone_keeps
    | with_reducible apply recordZone_keeps
    | with_reducible apply levelZone_keeps
    | with_reducible apply Keeps.ite_snd
    | with_reducible apply Keeps.ite_fst
    | with_reducible apply Keeps.ite
    | (with_reducible refine Sub.trans (Sub.ok ?_) hm); rfl
    | dsimp only
    | split

theorem feedAnt_keeps {m : Nat} {b : State} {a1 : List (List Int)} {a2 : Sid} {a3 : State × List (Nat × List ZoneSample)} {a4 : Nat} (h : Keeps m b a3.1)
    (hm : Sub 549776785408 m) : Keeps m b (feedAnt a1 a2 a3 a4).1 := by
  unfold feedAnt
  repeat' first
    | with_reducible assumption
    | with_reducible apply feedZone_keeps
    | with_reducible apply putAnt_keeps
    | with_reducible (refine Keeps.fst ?_ (by assumption))
    | with_reducible apply Keeps.foldl
    | with_reducible apply Keeps.foldl_fst
    | with_reducible apply Keeps.foldl_snd
    | (with_reducible refine Sub.trans (Sub.ok ?_) hm); rfl
    | with_reducible intro _ _ _
    | dsimp only
    | split

theorem laneTakes_keeps {m : Nat} {b : State} {a1 : List (Nat × List ZoneSample)} {s : State} {a2 : Nat} (h : Keeps m b s)
    (hm : Sub 69289902080 m) : Keeps m b (laneTakes a1 s a2) := by
  unfold laneTakes
  repeat' first
    | with_reducible assumption
    | with_reducible apply demodFeed_keeps
    | with_reducible apply putLane_keeps
    | with_reducible apply Keeps.foldl
    | with_reducible apply Keeps.foldl_fst
    | with_reducible apply Keeps.foldl_snd
    | with_reducible apply Keeps.ite
    | (with_reducible refine Sub.trans (Sub.ok ?_) hm); rfl
    | with_reducible intro _ _ _
    | dsimp only
    | split

theorem feed_keeps {m : Nat} {b : State} {s : State} {a1 : List (List Int)} {a2 : Sid} (h : Keeps m b s)
    (hm : Sub 620140429312 m) : Keeps m b (feed s a1 a2) := by
  unfold feed
  repeat' first
    | with_reducible assumption
    | with_reducible apply tapTakes_keeps
    | with_reducible apply feedAnt_keeps
    | with_reducible apply laneTakes_keeps
    | with_reducible (refine Keeps.fst ?_ (by assumption))
    | with_reducible apply Keeps.foldl
    | with_reducible apply Keeps.foldl_fst
    | with_reducible apply Keeps.foldl_snd
    | with_reducible apply Keeps.ite
    | (with_reducible refine Sub.trans (Sub.ok ?_) hm); rfl
    | with_reducible intro _ _ _
    | dsimp only
    | split

theorem execLaneBlock_keeps {m : Nat} {b : State} {a1 : BitVec 16} {a2 : List (List Int)} {a3 : Sid} {s : State} (h : Keeps m b s)
    (hm : Sub 620141480138 m) : NextKeeps m b (execLaneBlock a1 a2 a3 s) := by
  unfold execLaneBlock
  repeat' first
    | with_reducible assumption
    | with_reducible apply NextKeeps.next
    | with_reducible apply formBlock_keeps
    | with_reducible apply feed_keeps
    | with_reducible apply advance_keeps
    | with_reducible apply Keeps.foldl
    | with_reducible apply NextKeeps.ite
    | with_reducible apply Keeps.ite
    | (with_reducible refine Sub.trans (Sub.ok ?_) hm); rfl
    | with_reducible intro _ _ _
    | dsimp only
    | split

theorem divSetUnit_keeps {m : Nat} {b : State} {a1 : Cmd} {s : State} (h : Keeps m b s)
    (hm : Sub 33554432 m) : Reply.Keeps m b (divSetUnit a1 s) := by
  unfold divSetUnit
  repeat' first
    | with_reducible assumption
    | with_reducible apply ok_keeps
    | with_reducible apply okWith_keeps
    | with_reducible apply badState_keeps
    | with_reducible apply badParam_keeps
    | with_reducible apply Reply.keeps_deny
    | with_reducible apply Reply.keeps_done
    | with_reducible apply Reply.keeps_later
    | with_reducible apply Reply.keeps_busy
    | with_reducible apply putLane_keeps
    | with_reducible apply Reply.Keeps.ite
    | with_reducible apply Keeps.ite
    | (with_reducible refine Sub.trans (Sub.ok ?_) hm); rfl
    | dsimp only
    | split

theorem divSetSpec_keeps : CmdSpec.Keeps 33554432 divSetSpec := by
  intro m b c s h hm
  unfold divSetSpec
  repeat' first
    | with_reducible assumption
    | with_reducible apply ok_keeps
    | with_reducible apply okWith_keeps
    | with_reducible apply badState_keeps
    | with_reducible apply badParam_keeps
    | with_reducible apply Reply.keeps_deny
    | with_reducible apply Reply.keeps_done
    | with_reducible apply Reply.keeps_later
    | with_reducible apply Reply.keeps_busy
    | with_reducible apply divSetUnit_keeps
    | (with_reducible refine Sub.trans (Sub.ok ?_) hm); rfl
    | dsimp only
    | split

theorem pauseZone_keeps {m : Nat} {b : State} {s : State} {a1 : Nat} (h : Keeps m b s)
    (hm : Sub 1090519040 m) : Keeps m b (pauseZone s a1) := by
  unfold pauseZone
  repeat' first
    | with_reducible assumption
    | with_reducible apply pauseTaps_keeps
    | with_reducible apply putZone_keeps
    | (with_reducible refine Sub.trans (Sub.ok ?_) hm); rfl
    | dsimp only
    | split

theorem pauseIfAll_keeps {m : Nat} {b : State} {s : State} {a1 : Nat} (h : Keeps m b s)
    (hm : Sub 554085386440 m) : Keeps m b (pauseIfAll s a1) := by
  unfold pauseIfAll
  repeat' first
    | with_reducible assumption
    | with_reducible apply pauseLane_keeps
    | with_reducible apply Keeps.ite
    | (with_reducible refine Sub.trans (Sub.ok ?_) hm); rfl
    | dsimp only
    | split

theorem calBegins_keeps {m : Nat} {b : State} {s : State} {a1 : Nat} (h : Keeps m b s)
    (hm : Sub 555180099784 m) : Keeps m b (calBegins s a1) := by
  unfold calBegins
  repeat' first
    | with_reducible assumption
    | with_reducible apply pauseZone_keeps
    | with_reducible apply pauseIfAll_keeps
    | with_reducible apply putAnt_keeps
    | with_reducible apply Keeps.foldl
    | (with_reducible refine Sub.trans (Sub.ok ?_) hm); rfl
    | with_reducible intro _ _ _
    | dsimp only
    | split

theorem rfCalUnit_keeps {m : Nat} {b : State} {a1 : Cmd} {s : State} (h : Keeps m b s)
    (hm : Sub 555180099784 m) : Reply.Keeps m b (rfCalUnit a1 s) := by
  unfold rfCalUnit
  repeat' first
    | with_reducible assumption
    | with_reducible apply ok_keeps
    | with_reducible apply okWith_keeps
    | with_reducible apply badState_keeps
    | with_reducible apply badParam_keeps
    | with_reducible apply Reply.keeps_deny
    | with_reducible apply Reply.keeps_done
    | with_reducible apply Reply.keeps_later
    | with_reducible apply Reply.keeps_busy
    | with_reducible apply calBegins_keeps
    | with_reducible apply putAnt_keeps
    | (with_reducible refine Sub.trans (Sub.ok ?_) hm); rfl
    | dsimp only
    | split

theorem rfCalSpec_keeps : CmdSpec.Keeps 555180099784 rfCalSpec := by
  intro m b c s h hm
  unfold rfCalSpec
  repeat' first
    | with_reducible assumption
    | with_reducible apply ok_keeps
    | with_reducible apply okWith_keeps
    | with_reducible apply badState_keeps
    | with_reducible apply badParam_keeps
    | with_reducible apply Reply.keeps_deny
    | with_reducible apply Reply.keeps_done
    | with_reducible apply Reply.keeps_later
    | with_reducible apply Reply.keeps_busy
    | with_reducible apply rfCalUnit_keeps
    | (with_reducible refine Sub.trans (Sub.ok ?_) hm); rfl
    | dsimp only
    | split

theorem resumeIfAny_keeps {m : Nat} {b : State} {s : State} {a1 : Nat} (h : Keeps m b s)
    (hm : Sub 856352099820 m) : Keeps m b (resumeIfAny s a1) := by
  unfold resumeIfAny
  repeat' first
    | with_reducible assumption
    | with_reducible apply resumeLane_keeps
    | with_reducible apply Keeps.ite
    | (with_reducible refine Sub.trans (Sub.ok ?_) hm); rfl
    | dsimp only
    | split

theorem execForegroundCalComplete_keeps {m : Nat} {b : State} {a1 : Nat} {a2 : List ToneLevel} {a3 : Int} {a4 : Sid} {s : State} (h : Keeps m b s)
    (hm : Sub 856375168494 m) : NextKeeps m b (execForegroundCalComplete a1 a2 a3 a4 s) := by
  unfold execForegroundCalComplete
  repeat' first
    | with_reducible assumption
    | with_reducible apply NextKeeps.next
    | with_reducible apply resetZone_keeps
    | with_reducible apply resumeIfAny_keeps
    | with_reducible apply advance_keeps
    | with_reducible apply finishOp_keeps
    | with_reducible apply calDone_keeps
    | with_reducible apply Keeps.foldl
    | with_reducible apply NextKeeps.ite
    | with_reducible apply Keeps.ite
    | (with_reducible refine Sub.trans (Sub.ok ?_) hm); rfl
    | with_reducible intro _ _ _
    | dsimp only
    | split

theorem pauseAll_keeps {m : Nat} {b : State} {s : State} (h : Keeps m b s)
    (hm : Sub 555175905480 m) : Keeps m b (pauseAll s) := by
  unfold pauseAll
  repeat' first
    | with_reducible assumption
    | with_reducible apply pauseLane_keeps
    | with_reducible apply pauseZone_keeps
    | with_reducible apply Keeps.foldl
    | (with_reducible refine Sub.trans (Sub.ok ?_) hm); rfl
    | with_reducible intro _ _ _
    | dsimp only
    | split

theorem resumeFits_keeps {m : Nat} {b : State} {s : State} {a1 : Nat} (h : Keeps m b s)
    (hm : Sub 856352099820 m) : Keeps m b (resumeFits s a1) := by
  unfold resumeFits
  repeat' first
    | with_reducible assumption
    | with_reducible apply resumeIfAny_keeps
    | with_reducible apply Keeps.foldl
    | with_reducible apply Keeps.ite
    | (with_reducible refine Sub.trans (Sub.ok ?_) hm); rfl
    | with_reducible intro _ _ _
    | dsimp only
    | split

theorem restage_keeps {m : Nat} {b : State} {s : State} {a1 : Nat} (h : Keeps m b s)
    (hm : Sub 33554432 m) : Keeps m b (restage s a1) := by
  unfold restage
  repeat' first
    | with_reducible assumption
    | with_reducible apply putLane_keeps
    | with_reducible apply Keeps.ite
    | (with_reducible refine Sub.trans (Sub.ok ?_) hm); rfl
    | dsimp only
    | split

theorem resumeAll_keeps {m : Nat} {b : State} {s : State} (h : Keeps m b s)
    (hm : Sub 856368877036 m) : Keeps m b (resumeAll s) := by
  unfold resumeAll
  repeat' first
    | with_reducible assumption
    | with_reducible apply resetZone_keeps
    | with_reducible apply resumeFits_keeps
    | with_reducible apply restage_keeps
    | with_reducible apply Keeps.foldl
    | (with_reducible refine Sub.trans (Sub.ok ?_) hm); rfl
    | with_reducible intro _ _ _
    | dsimp only
    | split

end Sys2Proof.Machine
end

