-- ==== Sys2Proof/Laws/KeepsLink.lean ====
section
/-! SUPPORT. Laws/KeepsLink.lean: what each operation of Machine/Link.lean keeps. -/

set_option linter.unusedTactic false
set_option linter.unreachableTactic false
set_option linter.unusedVariables false

namespace Sys2Proof.Machine

theorem evAlign_keeps {m : Nat} {b : State} {s : State} {a1 a2 a3 : Nat} (h : Keeps m b s)
    (hm : Sub 64 m) : Keeps m b (evAlign s a1 a2 a3) := by
  unfold evAlign
  repeat' first
    | with_reducible assumption
    | with_reducible apply raise_keeps
    | (with_reducible refine Sub.trans (Sub.ok ?_) hm); rfl
    | dsimp only
    | split

theorem evFade_keeps {m : Nat} {b : State} {s : State} {a1 a2 : Nat} {a3 : Fade} (h : Keeps m b s)
    (hm : Sub 64 m) : Keeps m b (evFade s a1 a2 a3) := by
  unfold evFade
  repeat' first
    | with_reducible assumption
    | with_reducible apply raise_keeps
    | (with_reducible refine Sub.trans (Sub.ok ?_) hm); rfl
    | dsimp only
    | split

theorem putGroup_keeps {m : Nat} {b : State} {s : State} {a1 : Nat} {a2 : Machine.Group} (h : Keeps m b s)
    (hm : Sub 137438953472 m) : Keeps m b (putGroup s a1 a2) := by
  unfold putGroup
  repeat' first
    | with_reducible assumption
    | with_reducible apply setGroups_keeps
    | (with_reducible refine Sub.trans (Sub.ok ?_) hm); rfl
    | dsimp only
    | split

theorem setDelay_keeps {m : Nat} {b : State} {s : State} {a1 : Nat} {a2 : Int} (h : Keeps m b s)
    (hm : Sub 68719476736 m) : OptKeeps m b (setDelay s a1 a2) := by
  unfold setDelay
  repeat' first
    | with_reducible assumption
    | with_reducible apply OptKeeps.of_none
    | with_reducible apply OptKeeps.of_some
    | with_reducible apply putPath_keeps
    | with_reducible apply OptKeeps.ite
    | with_reducible apply Keeps.ite
    | (with_reducible refine Sub.trans (Sub.ok ?_) hm); rfl
    | dsimp only
    | split

theorem trackDelay_keeps {m : Nat} {b : State} {s : State} {a1 : Nat} {a2 : Int} (h : Keeps m b s)
    (hm : Sub 68719476736 m) : Keeps m b (trackDelay s a1 a2) := by
  unfold trackDelay
  repeat' first
    | with_reducible assumption
    | with_reducible apply OptKeeps.getD
    | with_reducible apply setDelay_keeps
    | with_reducible apply putPath_keeps
    | with_reducible (refine OptKeeps.get (t := _) ?_ (by assumption))
    | (with_reducible refine Sub.trans (Sub.ok ?_) hm); rfl
    | dsimp only
    | split

theorem retarget_keeps {m : Nat} {b : State} {s : State} {a1 : Nat} (h : Keeps m b s)
    (hm : Sub 68719476736 m) : Keeps m b (retarget s a1) := by
  unfold retarget
  repeat' first
    | with_reducible assumption
    | with_reducible apply putPath_keeps
    | with_reducible apply Keeps.ite
    | (with_reducible refine Sub.trans (Sub.ok ?_) hm); rfl
    | dsimp only
    | split

theorem followK_keeps {m : Nat} {b : State} {s : State} {a1 : Nat} (h : Keeps m b s)
    (hm : Sub 206158430272 m) : Keeps m b (followK s a1) := by
  unfold followK
  repeat' first
    | with_reducible assumption
    | with_reducible apply OptKeeps.getD
    | with_reducible apply evAlign_keeps
    | with_reducible apply putGroup_keeps
    | with_reducible apply setDelay_keeps
    | with_reducible (refine OptKeeps.get (t := _) ?_ (by assumption))
    | with_reducible apply Keeps.foldl
    | with_reducible apply Keeps.ite
    | (with_reducible refine Sub.trans (Sub.ok ?_) hm); rfl
    | with_reducible intro _ _ _
    | dsimp only
    | split

theorem delaysTick_keeps {m : Nat} {b : State} {s : State} (h : Keeps m b s)
    (hm : Sub 206158430272 m) : Keeps m b (delaysTick s) := by
  unfold delaysTick
  repeat' first
    | with_reducible assumption
    | with_reducible apply followK_keeps
    | with_reducible apply putPath_keeps
    | with_reducible apply Keeps.foldl
    | with_reducible apply Keeps.foldl_fst
    | with_reducible apply Keeps.foldl_snd
    | with_reducible apply Keeps.ite
    | (with_reducible refine Sub.trans (Sub.ok ?_) hm); rfl
    | with_reducible intro _ _ _
    | dsimp only
    | split

theorem execDelayChangeStart_keeps {m : Nat} {b : State} {a1 : Nat} {s : State} (h : Keeps m b s)
    (hm : Sub 68719476800 m) : NextKeeps m b (execDelayChangeStart a1 s) := by
  unfold execDelayChangeStart
  repeat' first
    | with_reducible assumption
    | with_reducible apply NextKeeps.next
    | with_reducible apply raise_keeps
    | with_reducible apply putPath_keeps
    | with_reducible apply NextKeeps.ite
    | with_reducible apply Keeps.ite
    | (with_reducible refine Sub.trans (Sub.ok ?_) hm); rfl
    | dsimp only
    | split

theorem execDelayChangeEnd_keeps {m : Nat} {b : State} {a1 : Nat} {a2 : Sid} {s : State} (h : Keeps m b s)
    (hm : Sub 206158430274 m) : NextKeeps m b (execDelayChangeEnd a1 a2 s) := by
  unfold execDelayChangeEnd
  repeat' first
    | with_reducible assumption
    | with_reducible apply NextKeeps.next
    | with_reducible apply followK_keeps
    | with_reducible apply advance_keeps
    | with_reducible apply raise_keeps
    | with_reducible apply putPath_keeps
    | with_reducible apply NextKeeps.ite
    | with_reducible apply Keeps.ite
    | (with_reducible refine Sub.trans (Sub.ok ?_) hm); rfl
    | dsimp only
    | split

theorem startSearch_keeps {m : Nat} {b : State} {s : State} {a1 a2 : Nat} (h : Keeps m b s)
    (hm : Sub 137438953472 m) : Keeps m b (startSearch s a1 a2) := by
  unfold startSearch
  repeat' first
    | with_reducible assumption
    | with_reducible apply putGroup_keeps
    | with_reducible apply Keeps.ite
    | (with_reducible refine Sub.trans (Sub.ok ?_) hm); rfl
    | dsimp only
    | split

theorem stopSearch_keeps {m : Nat} {b : State} {s : State} {a1 a2 : Nat} (h : Keeps m b s)
    (hm : Sub 137438953472 m) : Keeps m b (stopSearch s a1 a2) := by
  unfold stopSearch
  repeat' first
    | with_reducible assumption
    | with_reducible apply putGroup_keeps
    | with_reducible apply Keeps.ite
    | (with_reducible refine Sub.trans (Sub.ok ?_) hm); rfl
    | dsimp only
    | split

theorem execMemberPcmChange_keeps {m : Nat} {b : State} {a1 : Nat} {a2 : Bool} {s : State} (h : Keeps m b s)
    (hm : Sub 206158430208 m) : NextKeeps m b (execMemberPcmChange a1 a2 s) := by
  unfold execMemberPcmChange
  repeat' first
    | with_reducible assumption
    | with_reducible apply NextKeeps.next
    | with_reducible apply startSearch_keeps
    | with_reducible apply stopSearch_keeps
    | with_reducible apply putPath_keeps
    | with_reducible apply Keeps.foldl
    | with_reducible apply Keeps.foldl_fst
    | with_reducible apply Keeps.foldl_snd
    | with_reducible apply NextKeeps.ite
    | with_reducible apply Keeps.ite
    | (with_reducible refine Sub.trans (Sub.ok ?_) hm); rfl
    | with_reducible intro _ _ _
    | dsimp only
    | split

theorem invertIf_keeps {m : Nat} {b : State} {s : State} {a1 a2 : Nat} {a3 : Bool} (h : Keeps m b s)
    (hm : Sub 137438953536 m) : Keeps m b (invertIf s a1 a2 a3) := by
  unfold invertIf
  repeat' first
    | with_reducible assumption
    | with_reducible apply evAlign_keeps
    | with_reducible apply putGroup_keeps
    | with_reducible apply Keeps.ite
    | (with_reducible refine Sub.trans (Sub.ok ?_) hm); rfl
    | dsimp only
    | split

theorem putMember_keeps {m : Nat} {b : State} {s : State} {a1 a2 : Nat} {a3 : Member} (h : Keeps m b s)
    (hm : Sub 137438953472 m) : Keeps m b (putMember s a1 a2 a3) := by
  unfold putMember
  repeat' first
    | with_reducible assumption
    | with_reducible apply putGroup_keeps
    | (with_reducible refine Sub.trans (Sub.ok ?_) hm); rfl
    | dsimp only
    | split

theorem noMemory_keeps {m : Nat} {b : State} {s : State} {a1 a2 : Nat} {a3 : Member} (h : Keeps m b s)
    (hm : Sub 137438953536 m) : Keeps m b (noMemory s a1 a2 a3) := by
  unfold noMemory
  repeat' first
    | with_reducible assumption
    | with_reducible apply evAlign_keeps
    | with_reducible apply putMember_keeps
    | (with_reducible refine Sub.trans (Sub.ok ?_) hm); rfl
    | dsimp only
    | split

theorem execCoarseResult_keeps {m : Nat} {b : State} {a1 a2 : Nat} {a3 : LagMeasure} {a4 : Sid} {s : State} (h : Keeps m b s)
    (hm : Sub 206158430274 m) : NextKeeps m b (execCoarseResult a1 a2 a3 a4 s) := by
  unfold execCoarseResult
  repeat' first
    | with_reducible assumption
    | with_reducible apply NextKeeps.next
    | with_reducible apply OptKeeps.getD
    | with_reducible apply evAlign_keeps
    | with_reducible apply setDelay_keeps
    | with_reducible apply invertIf_keeps
    | with_reducible apply putMember_keeps
    | with_reducible apply noMemory_keeps
    | with_reducible apply advance_keeps
    | with_reducible (refine OptKeeps.get (t := _) ?_ (by assumption))
    | with_reducible apply NextKeeps.ite
    | with_reducible apply Keeps.ite
    | (with_reducible refine Sub.trans (Sub.ok ?_) hm); rfl
    | dsimp only
    | split

theorem alignMember_keeps {m : Nat} {b : State} {s : State} {a1 a2 : Nat} {a3 : Member} {a4 : LagResult} (h : Keeps m b s)
    (hm : Sub 206158430272 m) : Keeps m b (alignMember s a1 a2 a3 a4) := by
  unfold alignMember
  repeat' first
    | with_reducible assumption
    | with_reducible apply OptKeeps.getD
    | with_reducible apply evAlign_keeps
    | with_reducible apply setDelay_keeps
    | with_reducible apply retarget_keeps
    | with_reducible apply invertIf_keeps
    | with_reducible apply putMember_keeps
    | with_reducible apply noMemory_keeps
    | with_reducible (refine OptKeeps.get (t := _) ?_ (by assumption))
    | (with_reducible refine Sub.trans (Sub.ok ?_) hm); rfl
    | dsimp only
    | split

theorem loopMember_keeps {m : Nat} {b : State} {s : State} {a1 : Nat × Nat × LagMeasure} (h : Keeps m b s)
    (hm : Sub 206158430272 m) : Keeps m b (loopMember s a1) := by
  unfold loopMember
  repeat' first
    | with_reducible assumption
    | with_reducible apply evAlign_keeps
    | with_reducible apply trackDelay_keeps
    | with_reducible apply retarget_keeps
    | with_reducible apply invertIf_keeps
    | with_reducible apply putMember_keeps
    | with_reducible apply alignMember_keeps
    | with_reducible apply Keeps.ite
    | (with_reducible refine Sub.trans (Sub.ok ?_) hm); rfl
    | dsimp only
    | split

theorem coastMember_keeps {m : Nat} {b : State} {s : State} {a1 : Nat × Nat} (h : Keeps m b s)
    (hm : Sub 206158430208 m) : Keeps m b (coastMember s a1) := by
  unfold coastMember
  repeat' first
    | with_reducible assumption
    | with_reducible apply trackDelay_keeps
    | with_reducible apply putMember_keeps
    | with_reducible apply Keeps.ite
    | (with_reducible refine Sub.trans (Sub.ok ?_) hm); rfl
    | dsimp only
    | split

theorem coastAll_keeps {m : Nat} {b : State} {s : State} (h : Keeps m b s)
    (hm : Sub 206158430208 m) : Keeps m b (coastAll s) := by
  unfold coastAll
  repeat' first
    | with_reducible assumption
    | with_reducible apply coastMember_keeps
    | with_reducible apply Keeps.foldl
    | with_reducible apply Keeps.foldl_fst
    | with_reducible apply Keeps.foldl_snd
    | (with_reducible refine Sub.trans (Sub.ok ?_) hm); rfl
    | with_reducible intro _ _ _
    | dsimp only
    | split

theorem loopCandidate_keeps {m : Nat} {b : State} {s : State} {a1 : Nat × Nat × LagMeasure} (h : Keeps m b s)
    (hm : Sub 2147483648 m) : Keeps m b (loopCandidate s a1) := by
  unfold loopCandidate
  repeat' first
    | with_reducible assumption
    | with_reducible apply putAf_keeps
    | with_reducible apply Keeps.ite
    | (with_reducible refine Sub.trans (Sub.ok ?_) hm); rfl
    | dsimp only
    | split

theorem execAlignLoop_keeps {m : Nat} {b : State} {a1 : List (Nat × Nat × LagMeasure)} {s : State} (h : Keeps m b s)
    (hm : Sub 208305913920 m) : NextKeeps m b (execAlignLoop a1 s) := by
  unfold execAlignLoop
  repeat' first
    | with_reducible assumption
    | with_reducible apply NextKeeps.next
    | with_reducible apply loopMember_keeps
    | with_reducible apply coastAll_keeps
    | with_reducible apply loopCandidate_keeps
    | with_reducible apply Keeps.foldl
    | with_reducible apply Keeps.foldl_fst
    | with_reducible apply Keeps.foldl_snd
    | with_reducible apply NextKeeps.ite
    | with_reducible apply Keeps.ite
    | (with_reducible refine Sub.trans (Sub.ok ?_) hm); rfl
    | with_reducible intro _ _ _
    | dsimp only
    | split

theorem execHoldingTimeout_keeps {m : Nat} {b : State} {a1 a2 : Nat} {s : State} (h : Keeps m b s)
    (hm : Sub 137438953536 m) : NextKeeps m b (execHoldingTimeout a1 a2 s) := by
  unfold execHoldingTimeout
  repeat' first
    | with_reducible assumption
    | with_reducible apply NextKeeps.next
    | with_reducible apply evAlign_keeps
    | with_reducible apply putMember_keeps
    | with_reducible apply NextKeeps.ite
    | with_reducible apply Keeps.ite
    | (with_reducible refine Sub.trans (Sub.ok ?_) hm); rfl
    | dsimp only
    | split

theorem execPageReleased_keeps {m : Nat} {b : State} {s : State} (h : Keeps m b s)
    (hm : Sub 137438953472 m) : NextKeeps m b (execPageReleased s) := by
  unfold execPageReleased
  repeat' first
    | with_reducible assumption
    | with_reducible apply NextKeeps.next
    | with_reducible apply setGroups_keeps
    | with_reducible apply NextKeeps.ite
    | with_reducible apply Keeps.ite
    | (with_reducible refine Sub.trans (Sub.ok ?_) hm); rfl
    | dsimp only
    | split

theorem startFade_keeps {m : Nat} {b : State} {s : State} {a1 a2 a3 : Nat} {a4 a5 a6 : Bool} (h : Keeps m b s)
    (hm : Sub 206158430272 m) : Keeps m b (startFade s a1 a2 a3 a4 a5 a6) := by
  unfold startFade
  repeat' first
    | with_reducible assumption
    | with_reducible apply OptKeeps.getD
    | with_reducible apply evFade_keeps
    | with_reducible apply putGroup_keeps
    | with_reducible apply setDelay_keeps
    | with_reducible (refine OptKeeps.get (t := _) ?_ (by assumption))
    | with_reducible apply Keeps.ite
    | (with_reducible refine Sub.trans (Sub.ok ?_) hm); rfl
    | dsimp only
    | split

theorem wakeGroup_keeps {m : Nat} {b : State} {s : State} {a1 : Nat} {a2 : Machine.Group} (h : Keeps m b s)
    (hm : Sub 137438953472 m) : Keeps m b (wakeGroup s a1 a2) := by
  unfold wakeGroup
  repeat' first
    | with_reducible assumption
    | with_reducible apply putGroup_keeps
    | with_reducible apply Keeps.foldl
    | with_reducible apply Keeps.ite
    | (with_reducible refine Sub.trans (Sub.ok ?_) hm); rfl
    | with_reducible intro _ _ _
    | dsimp only
    | split

theorem groupWindow_keeps {m : Nat} {b : State} {s : State} {a1 : Nat} (h : Keeps m b s)
    (hm : Sub 206158430272 m) : Keeps m b (groupWindow s a1) := by
  unfold groupWindow
  repeat' first
    | with_reducible assumption
    | with_reducible apply putGroup_keeps
    | with_reducible apply startFade_keeps
    | with_reducible apply wakeGroup_keeps
    | with_reducible apply Keeps.foldl
    | with_reducible apply Keeps.foldl_fst
    | with_reducible apply Keeps.foldl_snd
    | with_reducible apply Keeps.ite
    | (with_reducible refine Sub.trans (Sub.ok ?_) hm); rfl
    | with_reducible intro _ _ _
    | dsimp only
    | split

theorem groupsAfter_keeps {m : Nat} {b : State} {s : State} {a1 : Nat} (h : Keeps m b s)
    (hm : Sub 206158430272 m) : Keeps m b (groupsAfter s a1) := by
  unfold groupsAfter
  repeat' first
    | with_reducible assumption
    | with_reducible apply groupWindow_keeps
    | with_reducible apply Keeps.foldl
    | with_reducible apply Keeps.foldl_fst
    | with_reducible apply Keeps.foldl_snd
    | (with_reducible refine Sub.trans (Sub.ok ?_) hm); rfl
    | with_reducible intro _ _ _
    | dsimp only
    | split

theorem groupsTick_keeps {m : Nat} {b : State} {s : State} (h : Keeps m b s)
    (hm : Sub 206158430272 m) : Keeps m b (groupsTick s) := by
  unfold groupsTick
  repeat' first
    | with_reducible assumption
    | with_reducible apply groupWindow_keeps
    | with_reducible apply Keeps.foldl
    | with_reducible apply Keeps.foldl_fst
    | with_reducible apply Keeps.foldl_snd
    | with_reducible apply Keeps.ite
    | (with_reducible refine Sub.trans (Sub.ok ?_) hm); rfl
    | with_reducible intro _ _ _
    | dsimp only
    | split

theorem blendNext_keeps {m : Nat} {b : State} {s : State} (h : Keeps m b s)
    (hm : Sub 206158430272 m) : Keeps m b (blendNext s) := by
  unfold blendNext
  repeat' first
    | with_reducible assumption
    | with_reducible apply putGroup_keeps
    | with_reducible apply startFade_keeps
    | with_reducible apply Keeps.foldl
    | with_reducible apply Keeps.foldl_fst
    | with_reducible apply Keeps.foldl_snd
    | with_reducible apply Keeps.ite
    | (with_reducible refine Sub.trans (Sub.ok ?_) hm); rfl
    | with_reducible intro _ _ _
    | dsimp only
    | split

theorem dissolve_keeps {m : Nat} {b : State} {s : State} {a1 : Nat} (h : Keeps m b s)
    (hm : Sub 206158430208 m) : Keeps m b (dissolve s a1) := by
  unfold dissolve
  repeat' first
    | with_reducible assumption
    | with_reducible apply retarget_keeps
    | with_reducible apply setGroups_keeps
    | (with_reducible refine Sub.trans (Sub.ok ?_) hm); rfl
    | dsimp only
    | split

theorem formGroup_keeps {m : Nat} {b : State} {s : State} {a1 : Nat} {a2 : Bytes} (h : Keeps m b s)
    (hm : Sub 206158430272 m) : Keeps m b (formGroup s a1 a2) := by
  unfold formGroup
  repeat' first
    | with_reducible assumption
    | with_reducible apply putGroup_keeps
    | with_reducible apply retarget_keeps
    | with_reducible apply followK_keeps
    | with_reducible apply startSearch_keeps
    | with_reducible apply putPath_keeps
    | with_reducible apply Keeps.foldl
    | with_reducible apply Keeps.ite
    | (with_reducible refine Sub.trans (Sub.ok ?_) hm); rfl
    | with_reducible intro _ _ _
    | dsimp only
    | split

theorem applyFollow_keeps {m : Nat} {b : State} {s : State} {a1 : Nat} {a2 : Bytes} (h : Keeps m b s)
    (hm : Sub 206158430272 m) : Keeps m b (applyFollow s a1 a2) := by
  unfold applyFollow
  repeat' first
    | with_reducible assumption
    | with_reducible apply dissolve_keeps
    | with_reducible apply formGroup_keeps
    | with_reducible apply Keeps.ite
    | (with_reducible refine Sub.trans (Sub.ok ?_) hm); rfl
    | dsimp only
    | split

theorem resolveFade_keeps {m : Nat} {b : State} {s : State} {a1 : Nat} {a2 : Machine.Group} {a3 : Fade} {a4 a5 : Bool} (h : Keeps m b s)
    (hm : Sub 1053878652268 m) : Keeps m b (resolveFade s a1 a2 a3 a4 a5) := by
  unfold resolveFade
  repeat' first
    | with_reducible assumption
    | with_reducible apply evFade_keeps
    | with_reducible apply putGroup_keeps
    | with_reducible apply applyFollow_keeps
    | with_reducible apply finishOp_keeps
    | with_reducible apply Keeps.ite
    | (with_reducible refine Sub.trans (Sub.ok ?_) hm); rfl
    | dsimp only
    | split

theorem followSetUnit_keeps {m : Nat} {b : State} {a1 : Cmd} {s : State} (h : Keeps m b s)
    (hm : Sub 1053878652268 m) : Reply.Keeps m b (followSetUnit a1 s) := by
  unfold followSetUnit
  repeat' first
    | with_reducible assumption
    | with_reducible apply ok_keeps
    | with_reducible apply okWith_keeps
    | with_reducible apply badState_keeps
    | with_reducible apply badParam_keeps
    | with_reducible apply Reply.keeps_deny
    | with_reducible apply Reply.keeps_done
    | with_reducible apply Reply.keeps_later
    | with_reducible apply Reply.keeps_busy
    | with_reducible apply putGroup_keeps
    | with_reducible apply startFade_keeps
    | with_reducible apply dissolve_keeps
    | with_reducible apply formGroup_keeps
    | with_reducible apply resolveFade_keeps
    | with_reducible apply Reply.Keeps.ite
    | with_reducible apply Keeps.ite
    | (with_reducible refine Sub.trans (Sub.ok ?_) hm); rfl
    | dsimp only
    | split

theorem followSetSpec_keeps : CmdSpec.Keeps 1053878652268 followSetSpec := by
  intro m b c s h hm
  unfold followSetSpec
  repeat' first
    | with_reducible assumption
    | with_reducible apply ok_keeps
    | with_reducible apply okWith_keeps
    | with_reducible apply badState_keeps
    | with_reducible apply badParam_keeps
    | with_reducible apply Reply.keeps_deny
    | with_reducible apply Reply.keeps_done
    | with_reducible apply Reply.keeps_later
    | with_reducible apply Reply.keeps_busy
    | with_reducible apply followSetUnit_keeps
    | (with_reducible refine Sub.trans (Sub.ok ?_) hm); rfl
    | dsimp only
    | split

theorem blendNowUnit_keeps {m : Nat} {b : State} {a1 : Cmd} {s : State} (h : Keeps m b s)
    (hm : Sub 137438953472 m) : Reply.Keeps m b (blendNowUnit a1 s) := by
  unfold blendNowUnit
  repeat' first
    | with_reducible assumption
    | with_reducible apply ok_keeps
    | with_reducible apply okWith_keeps
    | with_reducible apply badState_keeps
    | with_reducible apply badParam_keeps
    | with_reducible apply Reply.keeps_deny
    | with_reducible apply Reply.keeps_done
    | with_reducible apply Reply.keeps_later
    | with_reducible apply Reply.keeps_busy
    | with_reducible apply putGroup_keeps
    | with_reducible apply Reply.Keeps.ite
    | with_reducible apply Keeps.ite
    | (with_reducible refine Sub.trans (Sub.ok ?_) hm); rfl
    | dsimp only
    | split

theorem blendNowSpec_keeps : CmdSpec.Keeps 137438953472 blendNowSpec := by
  intro m b c s h hm
  unfold blendNowSpec
  repeat' first
    | with_reducible assumption
    | with_reducible apply ok_keeps
    | with_reducible apply okWith_keeps
    | with_reducible apply badState_keeps
    | with_reducible apply badParam_keeps
    | with_reducible apply Reply.keeps_deny
    | with_reducible apply Reply.keeps_done
    | with_reducible apply Reply.keeps_later
    | with_reducible apply Reply.keeps_busy
    | with_reducible apply blendNowUnit_keeps
    | (with_reducible refine Sub.trans (Sub.ok ?_) hm); rfl
    | dsimp only
    | split

theorem execGroupFadeEnd_keeps {m : Nat} {b : State} {a1 : Nat} {a2 : Sid} {s : State} (h : Keeps m b s)
    (hm : Sub 1053878652270 m) : NextKeeps m b (execGroupFadeEnd a1 a2 s) := by
  unfold execGroupFadeEnd
  repeat' first
    | with_reducible assumption
    | with_reducible apply NextKeeps.next
    | with_reducible apply evFade_keeps
    | with_reducible apply putGroup_keeps
    | with_reducible apply applyFollow_keeps
    | with_reducible apply advance_keeps
    | with_reducible apply finishOp_keeps
    | with_reducible apply NextKeeps.ite
    | with_reducible apply Keeps.ite
    | (with_reducible refine Sub.trans (Sub.ok ?_) hm); rfl
    | dsimp only
    | split

theorem guardHolds_keeps {m : Nat} {b : State} {s : State} {a1 a2 : Nat} (h : Keeps m b s)
    (hm : Sub 137438953536 m) : Keeps m b (guardHolds s a1 a2) := by
  unfold guardHolds
  repeat' first
    | with_reducible assumption
    | with_reducible apply evAlign_keeps
    | with_reducible apply putMember_keeps
    | (with_reducible refine Sub.trans (Sub.ok ?_) hm); rfl
    | dsimp only
    | split

theorem execFadeGuardLoss_keeps {m : Nat} {b : State} {a1 : Nat} {a2 : List (Int × Int × Int)} {s : State} (h : Keeps m b s)
    (hm : Sub 995938536940 m) : NextKeeps m b (execFadeGuardLoss a1 a2 s) := by
  unfold execFadeGuardLoss
  repeat' first
    | with_reducible assumption
    | with_reducible apply NextKeeps.next
    | with_reducible apply abandonSwitch_keeps
    | with_reducible apply evFade_keeps
    | with_reducible apply putGroup_keeps
    | with_reducible apply guardHolds_keeps
    | with_reducible apply NextKeeps.ite
    | with_reducible apply Keeps.ite
    | (with_reducible refine Sub.trans (Sub.ok ?_) hm); rfl
    | dsimp only
    | split

theorem execFadeHappening_keeps {m : Nat} {b : State} {a1 : Nat} {s : State} (h : Keeps m b s)
    (hm : Sub 1053878652268 m) : NextKeeps m b (execFadeHappening a1 s) := by
  unfold execFadeHappening
  repeat' first
    | with_reducible assumption
    | with_reducible apply NextKeeps.next
    | with_reducible apply resolveFade_keeps
    | (with_reducible refine Sub.trans (Sub.ok ?_) hm); rfl
    | dsimp only
    | split

theorem followGetSpec_keeps : CmdSpec.Keeps 0 followGetSpec := by
  intro m b c s h hm
  unfold followGetSpec
  repeat' first
    | with_reducible assumption
    | with_reducible apply ok_keeps
    | with_reducible apply okWith_keeps
    | with_reducible apply badState_keeps
    | with_reducible apply badParam_keeps
    | with_reducible apply Reply.keeps_deny
    | with_reducible apply Reply.keeps_done
    | with_reducible apply Reply.keeps_later
    | with_reducible apply Reply.keeps_busy
    | (with_reducible refine Sub.trans (Sub.ok ?_) hm); rfl
    | dsimp only
    | split

theorem blendSetSpec_keeps : CmdSpec.Keeps 68719476736 blendSetSpec := by
  intro m b c s h hm
  unfold blendSetSpec
  repeat' first
    | with_reducible assumption
    | with_reducible apply ok_keeps
    | with_reducible apply okWith_keeps
    | with_reducible apply badState_keeps
    | with_reducible apply badParam_keeps
    | with_reducible apply Reply.keeps_deny
    | with_reducible apply Reply.keeps_done
    | with_reducible apply Reply.keeps_later
    | with_reducible apply Reply.keeps_busy
    | with_reducible apply putPath_keeps
    | (with_reducible refine Sub.trans (Sub.ok ?_) hm); rfl
    | dsimp only
    | split

theorem blendApply_keeps {m : Nat} {b : State} {s : State} (h : Keeps m b s)
    (hm : Sub 68719476736 m) : Keeps m b (blendApply s) := by
  unfold blendApply
  repeat' first
    | with_reducible assumption
    | with_reducible apply retarget_keeps
    | with_reducible apply putPath_keeps
    | with_reducible apply Keeps.foldl
    | with_reducible apply Keeps.foldl_fst
    | with_reducible apply Keeps.foldl_snd
    | (with_reducible refine Sub.trans (Sub.ok ?_) hm); rfl
    | with_reducible intro _ _ _
    | dsimp only
    | split

theorem eqLoadUnit_keeps {m : Nat} {b : State} {a1 : Cmd} {s : State} (h : Keeps m b s)
    (hm : Sub 68719476736 m) : Reply.Keeps m b (eqLoadUnit a1 s) := by
  unfold eqLoadUnit
  repeat' first
    | with_reducible assumption
    | with_reducible apply ok_keeps
    | with_reducible apply okWith_keeps
    | with_reducible apply badState_keeps
    | with_reducible apply badParam_keeps
    | with_reducible apply Reply.keeps_deny
    | with_reducible apply Reply.keeps_done
    | with_reducible apply Reply.keeps_later
    | with_reducible apply Reply.keeps_busy
    | with_reducible apply putPath_keeps
    | with_reducible apply Reply.Keeps.ite
    | with_reducible apply Keeps.ite
    | (with_reducible refine Sub.trans (Sub.ok ?_) hm); rfl
    | dsimp only
    | split

theorem eqLoadSpec_keeps : CmdSpec.Keeps 68719476736 eqLoadSpec := by
  intro m b c s h hm
  unfold eqLoadSpec
  repeat' first
    | with_reducible assumption
    | with_reducible apply ok_keeps
    | with_reducible apply okWith_keeps
    | with_reducible apply badState_keeps
    | with_reducible apply badParam_keeps
    | with_reducible apply Reply.keeps_deny
    | with_reducible apply Reply.keeps_done
    | with_reducible apply Reply.keeps_later
    | with_reducible apply Reply.keeps_busy
    | with_reducible apply eqLoadUnit_keeps
    | with_reducible apply Reply.Keeps.ite
    | with_reducible apply Keeps.ite
    | (with_reducible refine Sub.trans (Sub.ok ?_) hm); rfl
    | dsimp only
    | split

theorem eqSwapUnit_keeps {m : Nat} {b : State} {a1 : Cmd} {s : State} (h : Keeps m b s)
    (hm : Sub 916439698796 m) : Reply.Keeps m b (eqSwapUnit a1 s) := by
  unfold eqSwapUnit
  repeat' first
    | with_reducible assumption
    | with_reducible apply ok_keeps
    | with_reducible apply okWith_keeps
    | with_reducible apply badState_keeps
    | with_reducible apply badParam_keeps
    | with_reducible apply Reply.keeps_deny
    | with_reducible apply Reply.keeps_done
    | with_reducible apply Reply.keeps_later
    | with_reducible apply Reply.keeps_busy
    | with_reducible apply finishOp_keeps
    | with_reducible apply putPath_keeps
    | with_reducible apply Reply.Keeps.ite
    | with_reducible apply Keeps.ite
    | (with_reducible refine Sub.trans (Sub.ok ?_) hm); rfl
    | dsimp only
    | split

theorem eqSwapSpec_keeps : CmdSpec.Keeps 916439698796 eqSwapSpec := by
  intro m b c s h hm
  unfold eqSwapSpec
  repeat' first
    | with_reducible assumption
    | with_reducible apply ok_keeps
    | with_reducible apply okWith_keeps
    | with_reducible apply badState_keeps
    | with_reducible apply badParam_keeps
    | with_reducible apply Reply.keeps_deny
    | with_reducible apply Reply.keeps_done
    | with_reducible apply Reply.keeps_later
    | with_reducible apply Reply.keeps_busy
    | with_reducible apply eqSwapUnit_keeps
    | (with_reducible refine Sub.trans (Sub.ok ?_) hm); rfl
    | dsimp only
    | split

theorem execEqSwapEffect_keeps {m : Nat} {b : State} {a1 : Nat} {a2 : Sid} {s : State} (h : Keeps m b s)
    (hm : Sub 916439698798 m) : NextKeeps m b (execEqSwapEffect a1 a2 s) := by
  unfold execEqSwapEffect
  repeat' first
    | with_reducible assumption
    | with_reducible apply NextKeeps.next
    | with_reducible apply advance_keeps
    | with_reducible apply finishOp_keeps
    | with_reducible apply putPath_keeps
    | with_reducible apply NextKeeps.ite
    | with_reducible apply Keeps.ite
    | (with_reducible refine Sub.trans (Sub.ok ?_) hm); rfl
    | dsimp only
    | split

theorem pathTakes_keeps {m : Nat} {b : State} {s : State} {a1 : Nat} (h : Keeps m b s)
    (hm : Sub 68719476736 m) : Keeps m b (pathTakes s a1) := by
  unfold pathTakes
  repeat' first
    | with_reducible assumption
    | with_reducible apply putPath_keeps
    | with_reducible apply Keeps.foldl
    | (with_reducible refine Sub.trans (Sub.ok ?_) hm); rfl
    | with_reducible intro _ _ _
    | dsimp only
    | split

theorem groupMix_keeps {m : Nat} {b : State} {s : State} {a1 : Nat × Machine.Group} (h : Keeps m b s)
    (hm : Sub 206158430208 m) : Keeps m b (groupMix s a1) := by
  unfold groupMix
  repeat' first
    | with_reducible assumption
    | with_reducible apply putGroup_keeps
    | with_reducible apply putPath_keeps
    | with_reducible apply Keeps.ite
    | (with_reducible refine Sub.trans (Sub.ok ?_) hm); rfl
    | dsimp only
    | split

theorem storeOut_keeps {m : Nat} {b : State} {a1 : Bool} {s : State} {a2 : Nat} (h : Keeps m b s)
    (hm : Sub 68719476736 m) : Keeps m b (storeOut a1 s a2) := by
  unfold storeOut
  repeat' first
    | with_reducible assumption
    | with_reducible apply putPath_keeps
    | with_reducible apply Keeps.ite
    | (with_reducible refine Sub.trans (Sub.ok ?_) hm); rfl
    | dsimp only
    | split

theorem keepOut_keeps {m : Nat} {b : State} {s : State} {a1 : Nat} (h : Keeps m b s)
    (hm : Sub 68719476736 m) : Keeps m b (keepOut s a1) := by
  unfold keepOut
  repeat' first
    | with_reducible assumption
    | with_reducible apply putPath_keeps
    | (with_reducible refine Sub.trans (Sub.ok ?_) hm); rfl
    | dsimp only
    | split

theorem pathsTick_keeps {m : Nat} {b : State} {a1 : Bool} {s : State} (h : Keeps m b s)
    (hm : Sub 206158430208 m) : Keeps m b (pathsTick a1 s) := by
  unfold pathsTick
  repeat' first
    | with_reducible assumption
    | with_reducible apply pathTakes_keeps
    | with_reducible apply groupMix_keeps
    | with_reducible apply storeOut_keeps
    | with_reducible apply keepOut_keeps
    | with_reducible apply Keeps.foldl
    | with_reducible apply Keeps.foldl_fst
    | with_reducible apply Keeps.foldl_snd
    | (with_reducible refine Sub.trans (Sub.ok ?_) hm); rfl
    | with_reducible intro _ _ _
    | dsimp only
    | split

theorem tshiftSetUnit_keeps {m : Nat} {b : State} {a1 : Cmd} {s : State} (h : Keeps m b s)
    (hm : Sub 68719476736 m) : Reply.Keeps m b (tshiftSetUnit a1 s) := by
  unfold tshiftSetUnit
  repeat' first
    | with_reducible assumption
    | with_reducible apply ok_keeps
    | with_reducible apply okWith_keeps
    | with_reducible apply badState_keeps
    | with_reducible apply badParam_keeps
    | with_reducible apply Reply.keeps_deny
    | with_reducible apply Reply.keeps_done
    | with_reducible apply Reply.keeps_later
    | with_reducible apply Reply.keeps_busy
    | with_reducible apply putPath_keeps
    | with_reducible apply Reply.Keeps.ite
    | with_reducible apply Keeps.ite
    | (with_reducible refine Sub.trans (Sub.ok ?_) hm); rfl
    | dsimp only
    | split

theorem tshiftSetSpec_keeps : CmdSpec.Keeps 68719476736 tshiftSetSpec := by
  intro m b c s h hm
  unfold tshiftSetSpec
  repeat' first
    | with_reducible assumption
    | with_reducible apply ok_keeps
    | with_reducible apply okWith_keeps
    | with_reducible apply badState_keeps
    | with_reducible apply badParam_keeps
    | with_reducible apply Reply.keeps_deny
    | with_reducible apply Reply.keeps_done
    | with_reducible apply Reply.keeps_later
    | with_reducible apply Reply.keeps_busy
    | with_reducible apply tshiftSetUnit_keeps
    | (with_reducible refine Sub.trans (Sub.ok ?_) hm); rfl
    | dsimp only
    | split

theorem tsRecords_keeps {m : Nat} {b : State} {s : State} {a1 a2 a3 : Nat} {a4 : Sid} (h : Keeps m b s)
    (hm : Sub 1050824 m) : Keeps m b (tsRecords s a1 a2 a3 a4) := by
  unfold tsRecords
  repeat' first
    | with_reducible assumption
    | with_reducible apply feedRing_keeps
    | with_reducible apply Keeps.foldl
    | (with_reducible refine Sub.trans (Sub.ok ?_) hm); rfl
    | with_reducible intro _ _ _
    | dsimp only
    | split

theorem tshiftReadUnit_keeps {m : Nat} {b : State} {a1 : Cmd} {s : State} (h : Keeps m b s)
    (hm : Sub 1050824 m) : Reply.Keeps m b (tshiftReadUnit a1 s) := by
  unfold tshiftReadUnit
  repeat' first
    | with_reducible assumption
    | with_reducible apply ok_keeps
    | with_reducible apply okWith_keeps
    | with_reducible apply badState_keeps
    | with_reducible apply badParam_keeps
    | with_reducible apply Reply.keeps_deny
    | with_reducible apply Reply.keeps_done
    | with_reducible apply Reply.keeps_later
    | with_reducible apply Reply.keeps_busy
    | with_reducible apply tsRecords_keeps
    | exact ringDenied_keeps (by assumption)
    | exact ringDenied_keeps_unless (by assumption)
    | with_reducible apply Reply.Keeps.ite
    | with_reducible apply Keeps.ite
    | (with_reducible refine Sub.trans (Sub.ok ?_) hm); rfl
    | dsimp only
    | split

theorem tshiftReadSpec_keeps : CmdSpec.Keeps 1050824 tshiftReadSpec := by
  intro m b c s h hm
  unfold tshiftReadSpec
  repeat' first
    | with_reducible assumption
    | with_reducible apply ok_keeps
    | with_reducible apply okWith_keeps
    | with_reducible apply badState_keeps
    | with_reducible apply badParam_keeps
    | with_reducible apply Reply.keeps_deny
    | with_reducible apply Reply.keeps_done
    | with_reducible apply Reply.keeps_later
    | with_reducible apply Reply.keeps_busy
    | with_reducible apply tshiftReadUnit_keeps
    | (with_reducible refine Sub.trans (Sub.ok ?_) hm); rfl
    | dsimp only
    | split

end Sys2Proof.Machine
end

