-- ==== Sys2Proof/Laws/KeepsAf.lean ====
section
/-! SUPPORT. Laws/KeepsAf.lean: what each operation of Machine/Af.lean keeps. -/

set_option linter.unusedTactic false
set_option linter.unreachableTactic false
set_option linter.unusedVariables false

namespace Sys2Proof.Machine

theorem dropAfFlake_keeps {m : Nat} {b : State} {s : State} {a1 : Option Nat} (h : Keeps m b s)
    (hm : Sub 3229614080 m) : Keeps m b (dropAfFlake s a1) := by
  unfold dropAfFlake
  repeat' first
    | with_reducible assumption
    | with_reducible apply freeFlake_keeps
    | with_reducible apply putFlake_keeps
    | with_reducible apply Keeps.ite
    | (with_reducible refine Sub.trans (Sub.ok ?_) hm); rfl
    | dsimp only
    | split

theorem requestFlake_keeps {m : Nat} {b : State} {s : State} {a1 a2 : Nat} (h : Keeps m b s)
    (hm : Sub 3229614080 m) : Keeps m b (requestFlake s a1 a2).2 := by
  unfold requestFlake
  repeat' first
    | with_reducible assumption
    | with_reducible apply takeFlake_keeps
    | with_reducible apply putFlake_keeps
    | with_reducible apply Keeps.ite_snd
    | with_reducible apply Keeps.ite_fst
    | with_reducible apply Keeps.ite
    | (with_reducible refine Sub.trans (Sub.ok ?_) hm); rfl
    | dsimp only
    | split

theorem addCand_keeps {m : Nat} {b : State} {s : State} {a1 a2 : Nat} (h : Keeps m b s)
    (hm : Sub 3229614080 m) : Keeps m b (addCand s a1 a2) := by
  unfold addCand
  repeat' first
    | with_reducible assumption
    | with_reducible apply requestFlake_keeps
    | with_reducible apply putAf_keeps
    | with_reducible (refine Keeps.snd ?_ (by assumption))
    | (with_reducible refine Sub.trans (Sub.ok ?_) hm); rfl
    | dsimp only
    | split

theorem trimCands_keeps {m : Nat} {b : State} {s : State} {a1 : Nat} (h : Keeps m b s)
    (hm : Sub 3229614080 m) : Keeps m b (trimCands s a1) := by
  unfold trimCands
  repeat' first
    | with_reducible assumption
    | with_reducible apply dropAfFlake_keeps
    | with_reducible apply putAf_keeps
    | with_reducible apply Keeps.foldl
    | (with_reducible refine Sub.trans (Sub.ok ?_) hm); rfl
    | with_reducible intro _ _ _
    | dsimp only
    | split

theorem execAfRequest_keeps {m : Nat} {b : State} {a1 a2 : Nat} {s : State} (h : Keeps m b s)
    (hm : Sub 3229614080 m) : NextKeeps m b (execAfRequest a1 a2 s) := by
  unfold execAfRequest
  repeat' first
    | with_reducible assumption
    | with_reducible apply NextKeeps.next
    | with_reducible apply addCand_keeps
    | with_reducible apply putAf_keeps
    | with_reducible apply NextKeeps.ite
    | with_reducible apply Keeps.ite
    | (with_reducible refine Sub.trans (Sub.ok ?_) hm); rfl
    | dsimp only
    | split

theorem startSpare_keeps {m : Nat} {b : State} {s : State} {a1 a2 a3 : Nat} (h : Keeps m b s)
    (hm : Sub 550327290056 m) : Keeps m b (startSpare s a1 a2 a3) := by
  unfold startSpare
  repeat' first
    | with_reducible assumption
    | with_reducible apply resetLane_keeps
    | with_reducible apply putLane_keeps
    | with_reducible apply putDemod_keeps
    | (with_reducible refine Sub.trans (Sub.ok ?_) hm); rfl
    | dsimp only
    | split

theorem beginSwitch_keeps {m : Nat} {b : State} {s : State} {a1 : Nat} {a2 : AfCand} {a3 : Bool} (h : Keeps m b s)
    (hm : Sub 552474773704 m) : Keeps m b (beginSwitch s a1 a2 a3) := by
  unfold beginSwitch
  repeat' first
    | with_reducible assumption
    | with_reducible apply startSpare_keeps
    | with_reducible apply putAf_keeps
    | with_reducible apply Keeps.ite
    | (with_reducible refine Sub.trans (Sub.ok ?_) hm); rfl
    | dsimp only
    | split

theorem afWindow_keeps {m : Nat} {b : State} {s : State} {a1 : Nat} (h : Keeps m b s)
    (hm : Sub 553556904136 m) : Keeps m b (afWindow s a1) := by
  unfold afWindow
  repeat' first
    | with_reducible assumption
    | with_reducible apply trimCands_keeps
    | with_reducible apply beginSwitch_keeps
    | with_reducible apply putAf_keeps
    | with_reducible apply Keeps.foldl
    | with_reducible apply Keeps.foldl_fst
    | with_reducible apply Keeps.foldl_snd
    | with_reducible apply Keeps.ite
    | (with_reducible refine Sub.trans (Sub.ok ?_) hm); rfl
    | with_reducible intro _ _ _
    | dsimp only
    | split

theorem execAfFadeStart_keeps {m : Nat} {b : State} {a1 : Nat} {s : State} (h : Keeps m b s)
    (hm : Sub 2147483648 m) : NextKeeps m b (execAfFadeStart a1 s) := by
  unfold execAfFadeStart
  repeat' first
    | with_reducible assumption
    | with_reducible apply NextKeeps.next
    | with_reducible apply putAf_keeps
    | with_reducible apply NextKeeps.ite
    | with_reducible apply Keeps.ite
    | (with_reducible refine Sub.trans (Sub.ok ?_) hm); rfl
    | dsimp only
    | split

theorem askFormer_keeps {m : Nat} {b : State} {s : State} {a1 a2 : Nat} (h : Keeps m b s)
    (hm : Sub 3229614080 m) : Keeps m b (askFormer s a1 a2) := by
  unfold askFormer
  repeat' first
    | with_reducible assumption
    | with_reducible apply addCand_keeps
    | with_reducible apply Keeps.ite
    | (with_reducible refine Sub.trans (Sub.ok ?_) hm); rfl
    | dsimp only
    | split

theorem shiftLag_keeps {m : Nat} {b : State} {s : State} {a1 : Nat} {a2 : Int} (h : Keeps m b s)
    (hm : Sub 206158430208 m) : Keeps m b (shiftLag s a1 a2) := by
  unfold shiftLag
  repeat' first
    | with_reducible assumption
    | with_reducible apply putGroup_keeps
    | with_reducible apply retarget_keeps
    | with_reducible apply putPath_keeps
    | (with_reducible refine Sub.trans (Sub.ok ?_) hm); rfl
    | dsimp only
    | split

theorem exchange_keeps {m : Nat} {b : State} {s : State} {a1 : Nat} {a2 : Af} (h : Keeps m b s)
    (hm : Sub 1064658013676 m) : Keeps m b (exchange s a1 a2) := by
  unfold exchange
  repeat' first
    | with_reducible assumption
    | with_reducible apply askFormer_keeps
    | with_reducible apply shiftLag_keeps
    | with_reducible apply markRing_keeps
    | with_reducible apply dropLaneCmds_keeps
    | with_reducible apply stopLane_keeps
    | with_reducible apply releaseLane_keeps
    | with_reducible apply evAf_keeps
    | with_reducible apply putLane_keeps
    | with_reducible apply putDemod_keeps
    | with_reducible apply putAf_keeps
    | with_reducible apply setAfs_keeps
    | (with_reducible refine Sub.trans (Sub.ok ?_) hm); rfl
    | dsimp only
    | split

theorem execAfSwitchComplete_keeps {m : Nat} {b : State} {a1 : Nat} {s : State} (h : Keeps m b s)
    (hm : Sub 1064658013676 m) : NextKeeps m b (execAfSwitchComplete a1 s) := by
  unfold execAfSwitchComplete
  repeat' first
    | with_reducible assumption
    | with_reducible apply NextKeeps.next
    | with_reducible apply exchange_keeps
    | with_reducible apply NextKeeps.ite
    | with_reducible apply Keeps.ite
    | (with_reducible refine Sub.trans (Sub.ok ?_) hm); rfl
    | dsimp only
    | split

theorem execAfSwitchInPlace_keeps {m : Nat} {b : State} {a1 : Nat} {a2 : Sid} {s : State} (h : Keeps m b s)
    (hm : Sub 759178463434 m) : NextKeeps m b (execAfSwitchInPlace a1 a2 s) := by
  unfold execAfSwitchInPlace
  repeat' first
    | with_reducible assumption
    | with_reducible apply NextKeeps.next
    | with_reducible apply askFormer_keeps
    | with_reducible apply shiftLag_keeps
    | with_reducible apply resetLane_keeps
    | with_reducible apply evAf_keeps
    | with_reducible apply advance_keeps
    | with_reducible apply putLane_keeps
    | with_reducible apply putAf_keeps
    | with_reducible apply usedChanged_keeps
    | with_reducible apply NextKeeps.ite
    | with_reducible apply Keeps.ite
    | (with_reducible refine Sub.trans (Sub.ok ?_) hm); rfl
    | dsimp only
    | split

theorem execAfSwitchAbandoned_keeps {m : Nat} {b : State} {a1 : Nat} {s : State} (h : Keeps m b s)
    (hm : Sub 858499583468 m) : NextKeeps m b (execAfSwitchAbandoned a1 s) := by
  unfold execAfSwitchAbandoned
  repeat' first
    | with_reducible assumption
    | with_reducible apply NextKeeps.next
    | with_reducible apply abandonSwitch_keeps
    | with_reducible apply NextKeeps.ite
    | with_reducible apply Keeps.ite
    | (with_reducible refine Sub.trans (Sub.ok ?_) hm); rfl
    | dsimp only
    | split

theorem execAfGotoTimeout_keeps {m : Nat} {b : State} {a1 : Nat} {s : State} (h : Keeps m b s)
    (hm : Sub 2147483712 m) : NextKeeps m b (execAfGotoTimeout a1 s) := by
  unfold execAfGotoTimeout
  repeat' first
    | with_reducible assumption
    | with_reducible apply NextKeeps.next
    | with_reducible apply evAf_keeps
    | with_reducible apply putAf_keeps
    | with_reducible apply NextKeeps.ite
    | with_reducible apply Keeps.ite
    | (with_reducible refine Sub.trans (Sub.ok ?_) hm); rfl
    | dsimp only
    | split

theorem afSetUnit_keeps {m : Nat} {b : State} {a1 : Cmd} {s : State} (h : Keeps m b s)
    (hm : Sub 2147483648 m) : Reply.Keeps m b (afSetUnit a1 s) := by
  unfold afSetUnit
  repeat' first
    | with_reducible assumption
    | with_reducible apply ok_keeps
    | with_reducible apply okWith_keeps
    | with_reducible apply badState_keeps
    | with_reducible apply badParam_keeps
    | with_reducible apply Reply.keeps_deny
    | with_reducible apply Reply.keeps_done
    | with_reducible apply Reply.keeps_later
    | with_reducible apply Reply.keeps_busy
    | with_reducible apply putAf_keeps
    | with_reducible apply Reply.Keeps.ite
    | with_reducible apply Keeps.ite
    | (with_reducible refine Sub.trans (Sub.ok ?_) hm); rfl
    | dsimp only
    | split

theorem afApply1_keeps {m : Nat} {b : State} {s : State} {a1 : Nat} {a2 : Bytes} (h : Keeps m b s)
    (hm : Sub 858499583468 m) : Keeps m b (afApply1 s a1 a2) := by
  unfold afApply1
  repeat' first
    | with_reducible assumption
    | with_reducible apply dropAfFlake_keeps
    | with_reducible apply abandonSwitch_keeps
    | with_reducible apply putAf_keeps
    | with_reducible apply Keeps.foldl
    | with_reducible apply Keeps.ite
    | (with_reducible refine Sub.trans (Sub.ok ?_) hm); rfl
    | with_reducible intro _ _ _
    | dsimp only
    | split

theorem afApply_keeps {m : Nat} {b : State} {s : State} (h : Keeps m b s)
    (hm : Sub 858499583468 m) : Keeps m b (afApply s) := by
  unfold afApply
  repeat' first
    | with_reducible assumption
    | with_reducible apply afApply1_keeps
    | with_reducible apply Keeps.foldl
    | with_reducible apply Keeps.foldl_fst
    | with_reducible apply Keeps.foldl_snd
    | (with_reducible refine Sub.trans (Sub.ok ?_) hm); rfl
    | with_reducible intro _ _ _
    | dsimp only
    | split

theorem afSetSpec_keeps : CmdSpec.Keeps 2147483648 afSetSpec := by
  intro m b c s h hm
  unfold afSetSpec
  repeat' first
    | with_reducible assumption
    | with_reducible apply ok_keeps
    | with_reducible apply okWith_keeps
    | with_reducible apply badState_keeps
    | with_reducible apply badParam_keeps
    | with_reducible apply Reply.keeps_deny
    | with_reducible apply Reply.keeps_done
    | with_reducible apply Reply.keeps_later
    | with_reducible apply Reply.keeps_busy
    | with_reducible apply afSetUnit_keeps
    | (with_reducible refine Sub.trans (Sub.ok ?_) hm); rfl
    | dsimp only
    | split

theorem execAnalogueWindowEnd_keeps {m : Nat} {b : State} {a1 : BitVec 16} {a2 : Measures} {a3 : Sid} {s : State} (h : Keeps m b s)
    (hm : Sub 759715334346 m) : NextKeeps m b (execAnalogueWindowEnd a1 a2 a3 s) := by
  unfold execAnalogueWindowEnd
  repeat' first
    | with_reducible assumption
    | with_reducible apply NextKeeps.next
    | with_reducible apply afWindow_keeps
    | with_reducible apply groupsAfter_keeps
    | with_reducible apply advance_keeps
    | with_reducible apply putLane_keeps
    | with_reducible apply putDemod_keeps
    | with_reducible apply putFlake_keeps
    | with_reducible apply NextKeeps.ite
    | with_reducible apply Keeps.ite
    | (with_reducible refine Sub.trans (Sub.ok ?_) hm); rfl
    | dsimp only
    | split

end Sys2Proof.Machine
end

