-- ==== Sys2Proof/Laws/KeepsSap.lean ====
section
/-! SUPPORT. Laws/KeepsSap.lean: what each operation of Machine/Sap.lean keeps. -/

set_option linter.unusedTactic false
set_option linter.unreachableTactic false
set_option linter.unusedVariables false

namespace Sys2Proof.Machine

theorem sapChannel_keeps {m : Nat} {b : State} {s : State} {a1 : Nat} {a2 : Bytes} {a3 : Bool} (h : Keeps m b s)
    (hm : Sub 8192 m) : Keeps m b (sapChannel s a1 a2 a3) := by
  unfold sapChannel
  repeat' first
    | with_reducible assumption
    | with_reducible apply audioUse_keeps
    | with_reducible apply audioRelease_keeps
    | with_reducible apply Keeps.ite
    | (with_reducible refine Sub.trans (Sub.ok ?_) hm); rfl
    | dsimp only
    | split

theorem endBlock_keeps {m : Nat} {b : State} {s : State} {a1 : Nat} (h : Keeps m b s)
    (hm : Sub 274878957768 m) : Keeps m b (endBlock s a1) := by
  unfold endBlock
  repeat' first
    | with_reducible assumption
    | with_reducible apply feedBlock_keeps
    | with_reducible apply putSap_keeps
    | with_reducible apply Keeps.ite
    | (with_reducible refine Sub.trans (Sub.ok ?_) hm); rfl
    | dsimp only
    | split

theorem markBlock_keeps {m : Nat} {b : State} {s : State} {a1 a2 : Nat} (h : Keeps m b s)
    (hm : Sub 274877906944 m) : Keeps m b (markBlock s a1 a2) := by
  unfold markBlock
  repeat' first
    | with_reducible assumption
    | with_reducible apply putSap_keeps
    | with_reducible apply Keeps.ite
    | (with_reducible refine Sub.trans (Sub.ok ?_) hm); rfl
    | dsimp only
    | split

theorem playFrame_keeps {m : Nat} {b : State} {s : State} {a1 : Nat} (h : Keeps m b s)
    (hm : Sub 274878957576 m) : Keeps m b (playFrame s a1).1 := by
  unfold playFrame
  repeat' first
    | with_reducible assumption
    | with_reducible apply putRing_keeps
    | with_reducible apply putSap_keeps
    | with_reducible apply Keeps.ite_snd
    | with_reducible apply Keeps.ite_fst
    | with_reducible apply Keeps.ite
    | (with_reducible refine Sub.trans (Sub.ok ?_) hm); rfl
    | dsimp only
    | split

theorem driveFrame_keeps {m : Nat} {b : State} {s : State} {a1 : Nat} (h : Keeps m b s)
    (hm : Sub 274878957576 m) : Keeps m b (driveFrame s a1) := by
  unfold driveFrame
  repeat' first
    | with_reducible assumption
    | with_reducible apply playFrame_keeps
    | with_reducible apply putSap_keeps
    | with_reducible (refine Keeps.fst ?_ (by assumption))
    | with_reducible apply Keeps.ite
    | (with_reducible refine Sub.trans (Sub.ok ?_) hm); rfl
    | dsimp only
    | split

theorem feedFrame_keeps {m : Nat} {b : State} {s : State} {a1 : Nat} {a2 : Option (List Bool)} (h : Keeps m b s)
    (hm : Sub 274877906944 m) : Keeps m b (feedFrame s a1 a2) := by
  unfold feedFrame
  repeat' first
    | with_reducible assumption
    | with_reducible apply putSap_keeps
    | with_reducible apply Keeps.ite
    | (with_reducible refine Sub.trans (Sub.ok ?_) hm); rfl
    | dsimp only
    | split

theorem captureFrame_keeps {m : Nat} {b : State} {s : State} {a1 : Nat} {a2 : List Bool} (h : Keeps m b s)
    (hm : Sub 274877906944 m) : Keeps m b (captureFrame s a1 a2) := by
  unfold captureFrame
  repeat' first
    | with_reducible assumption
    | with_reducible apply putSap_keeps
    | with_reducible apply Keeps.ite
    | (with_reducible refine Sub.trans (Sub.ok ?_) hm); rfl
    | dsimp only
    | split

theorem loseFrames_keeps {m : Nat} {b : State} {s : State} {a1 a2 : Nat} (h : Keeps m b s)
    (hm : Sub 274878957768 m) : Keeps m b (loseFrames s a1 a2) := by
  unfold loseFrames
  repeat' first
    | with_reducible assumption
    | with_reducible apply endBlock_keeps
    | with_reducible apply markBlock_keeps
    | with_reducible apply putSap_keeps
    | (with_reducible refine Sub.trans (Sub.ok ?_) hm); rfl
    | dsimp only
    | split

theorem supersede_keeps {m : Nat} {b : State} {s : State} {a1 a2 a3 : Nat} (h : Keeps m b s)
    (hm : Sub 847720222060 m) : Keeps m b (supersede s a1 a2 a3) := by
  unfold supersede
  repeat' first
    | with_reducible assumption
    | with_reducible apply finishOp_keeps
    | (with_reducible refine Sub.trans (Sub.ok ?_) hm); rfl
    | dsimp only
    | split

theorem supersedeAll_keeps {m : Nat} {b : State} {s : State} {a1 a2 : Nat} (h : Keeps m b s)
    (hm : Sub 847720222060 m) : Keeps m b (supersedeAll s a1 a2) := by
  unfold supersedeAll
  repeat' first
    | with_reducible assumption
    | with_reducible apply supersede_keeps
    | with_reducible apply putSap_keeps
    | with_reducible apply Keeps.ite
    | (with_reducible refine Sub.trans (Sub.ok ?_) hm); rfl
    | dsimp only
    | split

theorem sapOff_keeps {m : Nat} {b : State} {s : State} {a1 : Nat} {a2 : Bytes} (h : Keeps m b s)
    (hm : Sub 274878965960 m) : Keeps m b (sapOff s a1 a2) := by
  unfold sapOff
  repeat' first
    | with_reducible assumption
    | with_reducible apply sapChannel_keeps
    | with_reducible apply endBlock_keeps
    | with_reducible apply putSap_keeps
    | (with_reducible refine Sub.trans (Sub.ok ?_) hm); rfl
    | dsimp only
    | split

theorem sapWaits_keeps {m : Nat} {b : State} {s : State} {a1 : Nat} {a2 : Bytes} (h : Keeps m b s)
    (hm : Sub 274878965960 m) : Keeps m b (sapWaits s a1 a2) := by
  unfold sapWaits
  repeat' first
    | with_reducible assumption
    | with_reducible apply sapChannel_keeps
    | with_reducible apply endBlock_keeps
    | with_reducible apply putSap_keeps
    | (with_reducible refine Sub.trans (Sub.ok ?_) hm); rfl
    | dsimp only
    | split

theorem sapStops_keeps {m : Nat} {b : State} {s : State} {a1 : Nat} {a2 : Bytes} (h : Keeps m b s)
    (hm : Sub 274877906944 m) : Keeps m b (sapStops s a1 a2) := by
  unfold sapStops
  repeat' first
    | with_reducible assumption
    | with_reducible apply putSap_keeps
    | with_reducible apply Keeps.ite
    | (with_reducible refine Sub.trans (Sub.ok ?_) hm); rfl
    | dsimp only
    | split

theorem sapSetUnit_keeps {m : Nat} {b : State} {a1 : Cmd} {s : State} (h : Keeps m b s)
    (hm : Sub 847720230380 m) : Reply.Keeps m b (sapSetUnit a1 s) := by
  unfold sapSetUnit
  repeat' first
    | with_reducible assumption
    | with_reducible apply ok_keeps
    | with_reducible apply okWith_keeps
    | with_reducible apply badState_keeps
    | with_reducible apply badParam_keeps
    | with_reducible apply Reply.keeps_deny
    | with_reducible apply Reply.keeps_done
    | with_reducible apply Reply.keeps_later
    | with_reducible apply Reply.keeps_busy
    | with_reducible apply supersedeAll_keeps
    | with_reducible apply sapOff_keeps
    | with_reducible apply sapWaits_keeps
    | with_reducible apply sapStops_keeps
    | with_reducible apply putSap_keeps
    | with_reducible apply Reply.Keeps.ite
    | with_reducible apply Keeps.ite
    | (with_reducible refine Sub.trans (Sub.ok ?_) hm); rfl
    | dsimp only
    | split

theorem sapSetSpec_keeps : CmdSpec.Keeps 847720230380 sapSetSpec := by
  intro m b c s h hm
  unfold sapSetSpec
  repeat' first
    | with_reducible assumption
    | with_reducible apply ok_keeps
    | with_reducible apply okWith_keeps
    | with_reducible apply badState_keeps
    | with_reducible apply badParam_keeps
    | with_reducible apply Reply.keeps_deny
    | with_reducible apply Reply.keeps_done
    | with_reducible apply Reply.keeps_later
    | with_reducible apply Reply.keeps_busy
    | with_reducible apply sapSetUnit_keeps
    | with_reducible apply Reply.Keeps.ite
    | with_reducible apply Keeps.ite
    | (with_reducible refine Sub.trans (Sub.ok ?_) hm); rfl
    | dsimp only
    | split

theorem applyMasks_keeps {m : Nat} {b : State} {s : State} {a1 : Nat} {a2 : Bytes} (h : Keeps m b s)
    (hm : Sub 274878957768 m) : Keeps m b (applyMasks s a1 a2) := by
  unfold applyMasks
  repeat' first
    | with_reducible assumption
    | with_reducible apply endBlock_keeps
    | with_reducible apply markBlock_keeps
    | with_reducible apply putSap_keeps
    | (with_reducible refine Sub.trans (Sub.ok ?_) hm); rfl
    | dsimp only
    | split

theorem handshake_keeps {m : Nat} {b : State} {s : State} {a1 : Nat} (h : Keeps m b s)
    (hm : Sub 2097152 m) : Keeps m b (handshake s a1).2 := by
  unfold handshake
  repeat' first
    | with_reducible assumption
    | with_reducible apply freeValue_keeps
    | with_reducible (refine Keeps.snd ?_ (by assumption))
    | with_reducible apply Keeps.ite_snd
    | with_reducible apply Keeps.ite_fst
    | with_reducible apply Keeps.ite
    | (with_reducible refine Sub.trans (Sub.ok ?_) hm); rfl
    | dsimp only
    | split

theorem sapMaskUnit_keeps {m : Nat} {b : State} {a1 : Cmd} {s : State} (h : Keeps m b s)
    (hm : Sub 847722319212 m) : Reply.Keeps m b (sapMaskUnit a1 s) := by
  unfold sapMaskUnit
  repeat' first
    | with_reducible assumption
    | with_reducible apply ok_keeps
    | with_reducible apply okWith_keeps
    | with_reducible apply badState_keeps
    | with_reducible apply badParam_keeps
    | with_reducible apply Reply.keeps_deny
    | with_reducible apply Reply.keeps_done
    | with_reducible apply Reply.keeps_later
    | with_reducible apply Reply.keeps_busy
    | with_reducible apply supersede_keeps
    | with_reducible apply handshake_keeps
    | with_reducible apply putSap_keeps
    | with_reducible (refine Keeps.snd ?_ (by assumption))
    | with_reducible apply Reply.Keeps.ite
    | with_reducible apply Keeps.ite
    | (with_reducible refine Sub.trans (Sub.ok ?_) hm); rfl
    | dsimp only
    | split

theorem sapMaskSetSpec_keeps : CmdSpec.Keeps 847722319212 sapMaskSetSpec := by
  intro m b c s h hm
  unfold sapMaskSetSpec
  repeat' first
    | with_reducible assumption
    | with_reducible apply ok_keeps
    | with_reducible apply okWith_keeps
    | with_reducible apply badState_keeps
    | with_reducible apply badParam_keeps
    | with_reducible apply Reply.keeps_deny
    | with_reducible apply Reply.keeps_done
    | with_reducible apply Reply.keeps_later
    | with_reducible apply Reply.keeps_busy
    | with_reducible apply sapMaskUnit_keeps
    | (with_reducible refine Sub.trans (Sub.ok ?_) hm); rfl
    | dsimp only
    | split

theorem sapRouteUnit_keeps {m : Nat} {b : State} {a1 : Cmd} {s : State} (h : Keeps m b s)
    (hm : Sub 847722319212 m) : Reply.Keeps m b (sapRouteUnit a1 s) := by
  unfold sapRouteUnit
  repeat' first
    | with_reducible assumption
    | with_reducible apply ok_keeps
    | with_reducible apply okWith_keeps
    | with_reducible apply badState_keeps
    | with_reducible apply badParam_keeps
    | with_reducible apply Reply.keeps_deny
    | with_reducible apply Reply.keeps_done
    | with_reducible apply Reply.keeps_later
    | with_reducible apply Reply.keeps_busy
    | with_reducible apply supersede_keeps
    | with_reducible apply handshake_keeps
    | with_reducible apply putSap_keeps
    | with_reducible (refine Keeps.snd ?_ (by assumption))
    | with_reducible apply Reply.Keeps.ite
    | with_reducible apply Keeps.ite
    | (with_reducible refine Sub.trans (Sub.ok ?_) hm); rfl
    | dsimp only
    | split

theorem sapRouteSpec_keeps : CmdSpec.Keeps 847722319212 sapRouteSpec := by
  intro m b c s h hm
  unfold sapRouteSpec
  repeat' first
    | with_reducible assumption
    | with_reducible apply ok_keeps
    | with_reducible apply okWith_keeps
    | with_reducible apply badState_keeps
    | with_reducible apply badParam_keeps
    | with_reducible apply Reply.keeps_deny
    | with_reducible apply Reply.keeps_done
    | with_reducible apply Reply.keeps_later
    | with_reducible apply Reply.keeps_busy
    | with_reducible apply sapRouteUnit_keeps
    | (with_reducible refine Sub.trans (Sub.ok ?_) hm); rfl
    | dsimp only
    | split

theorem bindPort_keeps {m : Nat} {b : State} {s : State} {a1 : Nat} {a2 : Bytes} (h : Keeps m b s)
    (hm : Sub 274878957768 m) : Keeps m b (bindPort s a1 a2) := by
  unfold bindPort
  repeat' first
    | with_reducible assumption
    | with_reducible apply markRing_keeps
    | with_reducible apply freeRing_keeps
    | with_reducible apply endBlock_keeps
    | with_reducible apply putSap_keeps
    | with_reducible apply Keeps.ite
    | (with_reducible refine Sub.trans (Sub.ok ?_) hm); rfl
    | dsimp only
    | split

theorem sapStreamUnit_keeps {m : Nat} {b : State} {a1 : Cmd} {s : State} (h : Keeps m b s)
    (hm : Sub 274878957768 m) : Reply.Keeps m b (sapStreamUnit a1 s) := by
  unfold sapStreamUnit
  repeat' first
    | with_reducible assumption
    | with_reducible apply ok_keeps
    | with_reducible apply okWith_keeps
    | with_reducible apply badState_keeps
    | with_reducible apply badParam_keeps
    | with_reducible apply Reply.keeps_deny
    | with_reducible apply Reply.keeps_done
    | with_reducible apply Reply.keeps_later
    | with_reducible apply Reply.keeps_busy
    | exact ringDenied_keeps (by assumption)
    | exact ringDenied_keeps_unless (by assumption)
    | with_reducible apply bindPort_keeps
    | with_reducible apply Reply.Keeps.ite
    | with_reducible apply Keeps.ite
    | (with_reducible refine Sub.trans (Sub.ok ?_) hm); rfl
    | dsimp only
    | split

theorem sapStreamSpec_keeps : CmdSpec.Keeps 274878957768 sapStreamSpec := by
  intro m b c s h hm
  unfold sapStreamSpec
  repeat' first
    | with_reducible assumption
    | with_reducible apply ok_keeps
    | with_reducible apply okWith_keeps
    | with_reducible apply badState_keeps
    | with_reducible apply badParam_keeps
    | with_reducible apply Reply.keeps_deny
    | with_reducible apply Reply.keeps_done
    | with_reducible apply Reply.keeps_later
    | with_reducible apply Reply.keeps_busy
    | with_reducible apply sapStreamUnit_keeps
    | (with_reducible refine Sub.trans (Sub.ok ?_) hm); rfl
    | dsimp only
    | split

theorem sapGetSpec_keeps : CmdSpec.Keeps 0 sapGetSpec := by
  intro m b c s h hm
  unfold sapGetSpec
  repeat' first
    | with_reducible assumption
    | with_reducible apply ok_keeps
    | with_reducible apply okWith_keeps
    | with_reducible apply badState_keeps
    | with_reducible apply badParam_keeps
    | with_reducible apply Reply.keeps_deny
    | with_reducible apply Reply.keeps_done
    | with_reducible apply Reply.keeps_later
    | with_reducible apply Reply.keeps_busy
    | (with_reducible refine Sub.trans (Sub.ok ?_) hm); rfl
    | dsimp only
    | split

theorem frameSettings_keeps {m : Nat} {b : State} {s : State} {a1 : Nat} (h : Keeps m b s)
    (hm : Sub 847720222188 m) : Keeps m b (frameSettings s a1) := by
  unfold frameSettings
  repeat' first
    | with_reducible assumption
    | with_reducible apply finishOp_keeps
    | with_reducible apply applyMasks_keeps
    | with_reducible apply putSap_keeps
    | with_reducible apply Keeps.ite
    | (with_reducible refine Sub.trans (Sub.ok ?_) hm); rfl
    | dsimp only
    | split

theorem frameStop_keeps {m : Nat} {b : State} {s : State} {a1 : Nat} {a2 : Bytes} (h : Keeps m b s)
    (hm : Sub 847720230380 m) : Keeps m b (frameStop s a1 a2) := by
  unfold frameStop
  repeat' first
    | with_reducible assumption
    | with_reducible apply finishOp_keeps
    | with_reducible apply endBlock_keeps
    | with_reducible apply markBlock_keeps
    | with_reducible apply sapOff_keeps
    | with_reducible apply sapWaits_keeps
    | with_reducible apply putSap_keeps
    | with_reducible apply Keeps.ite
    | (with_reducible refine Sub.trans (Sub.ok ?_) hm); rfl
    | dsimp only
    | split

theorem slipEvent_keeps {m : Nat} {b : State} {s : State} {a1 : Nat} {a2 a3 : Bool} (h : Keeps m b s)
    (hm : Sub 64 m) : Keeps m b (slipEvent s a1 a2 a3) := by
  unfold slipEvent
  repeat' first
    | with_reducible assumption
    | with_reducible apply raise_keeps
    | (with_reducible refine Sub.trans (Sub.ok ?_) hm); rfl
    | dsimp only
    | split

theorem slipCheck_keeps {m : Nat} {b : State} {s : State} {a1 : Nat} (h : Keeps m b s)
    (hm : Sub 274877907008 m) : Keeps m b (slipCheck s a1) := by
  unfold slipCheck
  repeat' first
    | with_reducible assumption
    | with_reducible apply slipEvent_keeps
    | with_reducible apply putSap_keeps
    | with_reducible apply Keeps.ite
    | (with_reducible refine Sub.trans (Sub.ok ?_) hm); rfl
    | dsimp only
    | split

theorem driftFrame_keeps {m : Nat} {b : State} {s : State} {a1 : Nat} {a2 : Sid} (h : Keeps m b s)
    (hm : Sub 274877906944 m) : Keeps m b (driftFrame s a1 a2) := by
  unfold driftFrame
  repeat' first
    | with_reducible assumption
    | with_reducible apply putSap_keeps
    | with_reducible apply Keeps.ite
    | (with_reducible refine Sub.trans (Sub.ok ?_) hm); rfl
    | dsimp only
    | split

theorem frameEnds_keeps {m : Nat} {b : State} {s : State} {a1 : Nat} {a2 : Option (List Bool)} (h : Keeps m b s)
    (hm : Sub 274878957768 m) : Keeps m b (frameEnds s a1 a2) := by
  unfold frameEnds
  repeat' first
    | with_reducible assumption
    | with_reducible apply endBlock_keeps
    | with_reducible apply feedFrame_keeps
    | with_reducible apply captureFrame_keeps
    | with_reducible apply loseFrames_keeps
    | with_reducible apply slipCheck_keeps
    | with_reducible apply driftFrame_keeps
    | with_reducible apply putSap_keeps
    | with_reducible apply Keeps.ite
    | (with_reducible refine Sub.trans (Sub.ok ?_) hm); rfl
    | dsimp only
    | split

theorem frameBegins_keeps {m : Nat} {b : State} {s : State} {a1 : Nat} (h : Keeps m b s)
    (hm : Sub 847720230380 m) : Keeps m b (frameBegins s a1) := by
  unfold frameBegins
  repeat' first
    | with_reducible assumption
    | with_reducible apply driveFrame_keeps
    | with_reducible apply frameSettings_keeps
    | with_reducible apply frameStop_keeps
    | with_reducible apply Keeps.ite
    | (with_reducible refine Sub.trans (Sub.ok ?_) hm); rfl
    | dsimp only
    | split

theorem execSapFrameStart_keeps {m : Nat} {b : State} {a1 : Nat} {a2 : List Bool} {a3 : Sid} {s : State} (h : Keeps m b s)
    (hm : Sub 847720230382 m) : NextKeeps m b (execSapFrameStart a1 a2 a3 s) := by
  unfold execSapFrameStart
  repeat' first
    | with_reducible assumption
    | with_reducible apply NextKeeps.next
    | with_reducible apply advance_keeps
    | with_reducible apply frameEnds_keeps
    | with_reducible apply frameBegins_keeps
    | with_reducible apply NextKeeps.ite
    | with_reducible apply Keeps.ite
    | (with_reducible refine Sub.trans (Sub.ok ?_) hm); rfl
    | dsimp only
    | split

theorem evClk_keeps {m : Nat} {b : State} {s : State} {a1 a2 : Nat} {a3 : Bool} (h : Keeps m b s)
    (hm : Sub 64 m) : Keeps m b (evClk s a1 a2 a3) := by
  unfold evClk
  repeat' first
    | with_reducible assumption
    | with_reducible apply raise_keeps
    | (with_reducible refine Sub.trans (Sub.ok ?_) hm); rfl
    | dsimp only
    | split

theorem execSapClockLost_keeps {m : Nat} {b : State} {a1 a2 : Nat} {a3 : Sid} {a4 : Nat} {a5 : Sid} {s : State} (h : Keeps m b s)
    (hm : Sub 847720230382 m) : NextKeeps m b (execSapClockLost a1 a2 a3 a4 a5 s) := by
  unfold execSapClockLost
  repeat' first
    | with_reducible assumption
    | with_reducible apply NextKeeps.next
    | with_reducible apply advance_keeps
    | with_reducible apply loseFrames_keeps
    | with_reducible apply frameStop_keeps
    | with_reducible apply evClk_keeps
    | with_reducible apply putSap_keeps
    | with_reducible apply NextKeeps.ite
    | with_reducible apply Keeps.ite
    | (with_reducible refine Sub.trans (Sub.ok ?_) hm); rfl
    | dsimp only
    | split

theorem execSapGlitch_keeps {m : Nat} {b : State} {a1 : Nat} {a2 : Sid} {s : State} (h : Keeps m b s)
    (hm : Sub 274877906944 m) : NextKeeps m b (execSapGlitch a1 a2 s) := by
  unfold execSapGlitch
  repeat' first
    | with_reducible assumption
    | with_reducible apply NextKeeps.next
    | with_reducible apply putSap_keeps
    | with_reducible apply NextKeeps.ite
    | with_reducible apply Keeps.ite
    | (with_reducible refine Sub.trans (Sub.ok ?_) hm); rfl
    | dsimp only
    | split

theorem execSapFramingError_keeps {m : Nat} {b : State} {a1 : Nat} {a2 : List Bool} {a3 : Sid} {s : State} (h : Keeps m b s)
    (hm : Sub 847720230382 m) : NextKeeps m b (execSapFramingError a1 a2 a3 s) := by
  unfold execSapFramingError
  repeat' first
    | with_reducible assumption
    | with_reducible apply NextKeeps.next
    | with_reducible apply advance_keeps
    | with_reducible apply frameEnds_keeps
    | with_reducible apply frameBegins_keeps
    | with_reducible apply putSap_keeps
    | with_reducible apply NextKeeps.ite
    | with_reducible apply Keeps.ite
    | (with_reducible refine Sub.trans (Sub.ok ?_) hm); rfl
    | dsimp only
    | split

theorem execSapRateChange_keeps {m : Nat} {b : State} {a1 a2 a3 : Nat} {a4 : Sid} {s : State} (h : Keeps m b s)
    (hm : Sub 274877907010 m) : NextKeeps m b (execSapRateChange a1 a2 a3 a4 s) := by
  unfold execSapRateChange
  repeat' first
    | with_reducible assumption
    | with_reducible apply NextKeeps.next
    | with_reducible apply advance_keeps
    | with_reducible apply raise_keeps
    | with_reducible apply putSap_keeps
    | with_reducible apply NextKeeps.ite
    | with_reducible apply Keeps.ite
    | (with_reducible refine Sub.trans (Sub.ok ?_) hm); rfl
    | dsimp only
    | split

theorem execSapRetarget_keeps {m : Nat} {b : State} {a1 a2 : Nat} {a3 : Sid} {s : State} (h : Keeps m b s)
    (hm : Sub 274878957770 m) : NextKeeps m b (execSapRetarget a1 a2 a3 s) := by
  unfold execSapRetarget
  repeat' first
    | with_reducible assumption
    | with_reducible apply NextKeeps.next
    | with_reducible apply advance_keeps
    | with_reducible apply endBlock_keeps
    | with_reducible apply markBlock_keeps
    | with_reducible apply putSap_keeps
    | with_reducible apply NextKeeps.ite
    | with_reducible apply Keeps.ite
    | (with_reducible refine Sub.trans (Sub.ok ?_) hm); rfl
    | dsimp only
    | split

theorem heldStream_keeps {m : Nat} {b : State} {a1 : Nat} {s : State} {a2 : InFlight} (h : Keeps m b s)
    (hm : Sub 847720222188 m) : Keeps m b (heldStream a1 s a2) := by
  unfold heldStream
  repeat' first
    | with_reducible assumption
    | with_reducible apply complete_keeps
    | with_reducible apply bindPort_keeps
    | (with_reducible refine Sub.trans (Sub.ok ?_) hm); rfl
    | dsimp only
    | split

theorem sapRuns_keeps {m : Nat} {b : State} {s : State} {a1 : Nat} {a2 : SapState} (h : Keeps m b s)
    (hm : Sub 274877906944 m) : Keeps m b (sapRuns s a1 a2) := by
  unfold sapRuns
  repeat' first
    | with_reducible assumption
    | with_reducible apply putSap_keeps
    | (with_reducible refine Sub.trans (Sub.ok ?_) hm); rfl
    | dsimp only
    | split

theorem execSapResume_keeps {m : Nat} {b : State} {a1 : Nat} {a2 a3 : FrameSeen} {a4 : Sid} {s : State} (h : Keeps m b s)
    (hm : Sub 847720222190 m) : NextKeeps m b (execSapResume a1 a2 a3 a4 s) := by
  unfold execSapResume
  repeat' first
    | with_reducible assumption
    | with_reducible apply NextKeeps.next
    | with_reducible apply advance_keeps
    | with_reducible apply finishOp_keeps
    | with_reducible apply markBlock_keeps
    | with_reducible apply driveFrame_keeps
    | with_reducible apply loseFrames_keeps
    | with_reducible apply frameSettings_keeps
    | with_reducible apply evClk_keeps
    | with_reducible apply heldStream_keeps
    | with_reducible apply sapRuns_keeps
    | with_reducible apply putSap_keeps
    | with_reducible apply Keeps.foldl
    | with_reducible apply NextKeeps.ite
    | with_reducible apply Keeps.ite
    | (with_reducible refine Sub.trans (Sub.ok ?_) hm); rfl
    | with_reducible intro _ _ _
    | dsimp only
    | split

theorem execSapWaitingTimeout_keeps {m : Nat} {b : State} {a1 : Nat} {s : State} (h : Keeps m b s)
    (hm : Sub 847720222060 m) : NextKeeps m b (execSapWaitingTimeout a1 s) := by
  unfold execSapWaitingTimeout
  repeat' first
    | with_reducible assumption
    | with_reducible apply NextKeeps.next
    | with_reducible apply finishOp_keeps
    | with_reducible apply putSap_keeps
    | with_reducible apply NextKeeps.ite
    | with_reducible apply Keeps.ite
    | (with_reducible refine Sub.trans (Sub.ok ?_) hm); rfl
    | dsimp only
    | split

end Sys2Proof.Machine
end

