-- ==== Sys2Proof/Laws/KeepsReg.lean ====
section
/-! SUPPORT. Laws/KeepsReg.lean: what each operation of Machine/Reg.lean keeps. -/

set_option linter.unusedTactic false
set_option linter.unreachableTactic false
set_option linter.unusedVariables false

namespace Sys2Proof.Machine

theorem loadShadow_keeps {m : Nat} {b : State} {s : State} (h : Keeps m b s)
    (hm : Sub 268435456 m) : Keeps m b (loadShadow s) := by
  unfold loadShadow
  repeat' first
    | with_reducible assumption
    | with_reducible apply setReg_keeps
    | exact fun h => ⟨h, fun l => ⟨l, rfl⟩⟩
    | (with_reducible refine Sub.trans (Sub.ok ?_) hm); rfl
    | dsimp only
    | split

theorem regLoadUnit_keeps {m : Nat} {b : State} {a1 : Cmd} {s : State} (h : Keeps m b s)
    (hm : Sub 268435456 m) : Reply.Keeps m b (regLoadUnit a1 s) := by
  unfold regLoadUnit
  dsimp only
  split
  · exact badState_keeps ..
  · split
    · exact badParam_keeps ..
    · exact ok_keeps (setReg_keeps h (Sub.trans (Sub.ok rfl) hm) (fun h => ⟨h, fun l => ⟨l, rfl⟩⟩))

theorem regLoadSpec_keeps : CmdSpec.Keeps 268435456 regLoadSpec := by
  intro m b c s h hm
  unfold regLoadSpec
  repeat' first
    | with_reducible assumption
    | with_reducible apply ok_keeps
    | with_reducible apply okWith_keeps
    | with_reducible apply badState_keeps
    | with_reducible apply badParam_keeps
    | with_reducible apply Reply.keeps_deny
    | with_reducible apply Reply.keeps_done
    | with_reducible apply Reply.keeps_later
    | with_reducible apply Reply.keeps_busy
    | with_reducible apply regLoadUnit_keeps
    | with_reducible apply Reply.Keeps.ite
    | with_reducible apply Keeps.ite
    | (with_reducible refine Sub.trans (Sub.ok ?_) hm); rfl
    | dsimp only
    | split

theorem regCommitUnit_keeps {m : Nat} {b : State} {a1 : Cmd} {s : State} (h : Keeps m b s)
    (hm : Sub 268435456 m) : Reply.Keeps m b (regCommitUnit a1 s) := by
  unfold regCommitUnit
  dsimp only
  split
  · exact badState_keeps ..
  · rename_i hl
    simp only [not_or, Bool.not_eq_true] at hl
    split
    · exact Reply.keeps_deny ..
    · split
      · exact Reply.keeps_deny ..
      · split
        · exact Reply.keeps_deny ..
        · refine Reply.keeps_busy (setReg_keeps h (Sub.trans (Sub.ok rfl) hm) fun g => ⟨⟨?_, ?_⟩, fun l => ?_⟩)
          · simp only [List.length_append, List.length_cons, List.length_nil]
            omega
          · simp only [hl.1, Bool.false_and]
          · rw [hl.1] at l
            exact Bool.noConfusion l

theorem regCommitSpec_keeps : CmdSpec.Keeps 268435456 regCommitSpec := by
  intro m b c s h hm
  unfold regCommitSpec
  repeat' first
    | with_reducible assumption
    | with_reducible apply ok_keeps
    | with_reducible apply okWith_keeps
    | with_reducible apply badState_keeps
    | with_reducible apply badParam_keeps
    | with_reducible apply Reply.keeps_deny
    | with_reducible apply Reply.keeps_done
    | with_reducible apply Reply.keeps_later
    | with_reducible apply Reply.keeps_busy
    | with_reducible apply regCommitUnit_keeps
    | (with_reducible refine Sub.trans (Sub.ok ?_) hm); rfl
    | dsimp only
    | split

theorem execRegCommitComplete_keeps {m : Nat} {b : State} {a1 : Bool} {a2 : Sid} {s : State} (h : Keeps m b s)
    (hm : Sub 847988657518 m) : NextKeeps m b (execRegCommitComplete a1 a2 s) := by
  unfold execRegCommitComplete
  split
  · exact NextKeeps.next h
  · rename_i hc
    simp only [not_or, Bool.not_eq_false] at hc
    dsimp only
    have k := advance_keeps (a1 := a2) h (Sub.trans (Sub.ok rfl) hm)
    have e : (advance s a2).reg = s.reg := rfl
    have hl : RegOk s.reg → s.reg.locked = false := fun g => by
      have := g.2
      rw [hc.1, Bool.and_true] at this
      exact this
    split
    · refine NextKeeps.next (finishOp_keeps (setReg_keeps k (Sub.trans (Sub.ok rfl) hm) ?_) (Sub.trans (Sub.ok rfl) hm))
      rw [e]
      intro g
      refine ⟨⟨?_, Bool.and_false _⟩, fun l => ?_⟩
      · show (completeLast s.reg.slots).length ≤ 16
        have hlen : (completeLast s.reg.slots).length ≤ s.reg.slots.length := by
          unfold completeLast
          cases hs : s.reg.slots.getLast? with
          | none => simp
          | some x =>
            have : s.reg.slots ≠ [] := fun hn => by simp [hn] at hs
            have := List.length_pos_of_ne_nil this
            simp
            omega
        exact Nat.le_trans hlen g.1
      · rw [hl g] at l
        exact Bool.noConfusion l
    · refine NextKeeps.next (finishOp_keeps (setReg_keeps k (Sub.trans (Sub.ok rfl) hm) ?_) (Sub.trans (Sub.ok rfl) hm))
      rw [e]
      exact fun g => ⟨⟨g.1, Bool.and_false _⟩, fun l => ⟨l, rfl⟩⟩

theorem regLockUnit_keeps {m : Nat} {b : State} {a1 : Cmd} {s : State} (h : Keeps m b s)
    (hm : Sub 268435456 m) : Reply.Keeps m b (regLockUnit a1 s) := by
  unfold regLockUnit
  split
  · exact badState_keeps ..
  · rename_i hc
    split
    · exact badParam_keeps ..
    · refine ok_keeps (setReg_keeps h (Sub.trans (Sub.ok rfl) hm) fun g => ⟨⟨g.1, ?_⟩, fun _ => ⟨rfl, rfl⟩⟩)
      simpa using hc

theorem regLockSpec_keeps : CmdSpec.Keeps 268435456 regLockSpec := by
  intro m b c s h hm
  unfold regLockSpec
  repeat' first
    | with_reducible assumption
    | with_reducible apply ok_keeps
    | with_reducible apply okWith_keeps
    | with_reducible apply badState_keeps
    | with_reducible apply badParam_keeps
    | with_reducible apply Reply.keeps_deny
    | with_reducible apply Reply.keeps_done
    | with_reducible apply Reply.keeps_later
    | with_reducible apply Reply.keeps_busy
    | with_reducible apply regLockUnit_keeps
    | (with_reducible refine Sub.trans (Sub.ok ?_) hm); rfl
    | dsimp only
    | split

theorem regGetSpec_keeps : CmdSpec.Keeps 0 regGetSpec := by
  intro m b c s h hm
  unfold regGetSpec
  repeat' first
    | with_reducible assumption
    | with_reducible apply ok_keeps
    | with_reducible apply okWith_keeps
    | with_reducible apply badState_keeps
    | with_reducible apply badParam_keeps
    | with_reducible apply Reply.keeps_deny
    | with_reducible apply Reply.keeps_done
    | with_reducible apply Reply.keeps_later
    | with_reducible apply Reply.keeps_busy
    | with_reducible apply Reply.Keeps.ite
    | with_reducible apply Keeps.ite
    | (with_reducible refine Sub.trans (Sub.ok ?_) hm); rfl
    | dsimp only
    | split

end Sys2Proof.Machine
end

