-- ==== Sys2Proof/Laws/KeepsExciter.lean ====
section
/-! SUPPORT. Laws/KeepsExciter.lean: what each operation of Machine/Exciter.lean keeps. -/

set_option linter.unusedTactic false
set_option linter.unreachableTactic false
set_option linter.unusedVariables false

namespace Sys2Proof.Machine

theorem moveLevel_keeps {m : Nat} {b : State} {s : State} {a1 : Int} {a2 a3 : Sid} (h : Keeps m b s)
    (hm : Sub 67108864 m) : Keeps m b (moveLevel s a1 a2 a3) := by
  unfold moveLevel
  repeat' first
    | with_reducible assumption
    | with_reducible apply setTx_keeps
    | (with_reducible refine Sub.trans (Sub.ok ?_) hm); rfl
    | dsimp only
    | split

theorem relevel_keeps {m : Nat} {b : State} {s : State} (h : Keeps m b s)
    (hm : Sub 67108864 m) : Keeps m b (relevel s) := by
  unfold relevel
  repeat' first
    | with_reducible assumption
    | with_reducible apply moveLevel_keeps
    | with_reducible apply Keeps.ite
    | (with_reducible refine Sub.trans (Sub.ok ?_) hm); rfl
    | dsimp only
    | split

theorem startRamp_keeps {m : Nat} {b : State} {s : State} (h : Keeps m b s)
    (hm : Sub 67108864 m) : Keeps m b (startRamp s) := by
  unfold startRamp
  repeat' first
    | with_reducible assumption
    | with_reducible apply moveLevel_keeps
    | (with_reducible refine Sub.trans (Sub.ok ?_) hm); rfl
    | dsimp only
    | split

theorem fastRamp_keeps {m : Nat} {b : State} {s : State} (h : Keeps m b s)
    (hm : Sub 67108864 m) : Keeps m b (fastRamp s) := by
  unfold fastRamp
  repeat' first
    | with_reducible assumption
    | with_reducible apply moveLevel_keeps
    | with_reducible apply setTx_keeps
    | (with_reducible refine Sub.trans (Sub.ok ?_) hm); rfl
    | dsimp only
    | split

theorem stopRamp_keeps {m : Nat} {b : State} {s : State} (h : Keeps m b s)
    (hm : Sub 67108864 m) : Keeps m b (stopRamp s) := by
  unfold stopRamp
  repeat' first
    | with_reducible assumption
    | with_reducible apply moveLevel_keeps
    | with_reducible apply setTx_keeps
    | with_reducible apply Keeps.ite
    | (with_reducible refine Sub.trans (Sub.ok ?_) hm); rfl
    | dsimp only
    | split

theorem ringPlays_keeps {m : Nat} {b : State} {s : State} {a1 : Nat} (h : Keeps m b s)
    (hm : Sub 68159496 m) : Keeps m b (ringPlays s a1).1 := by
  unfold ringPlays
  repeat' first
    | with_reducible assumption
    | with_reducible apply putRing_keeps
    | with_reducible apply setTx_keeps
    | with_reducible apply Keeps.ite_snd
    | with_reducible apply Keeps.ite_fst
    | with_reducible apply Keeps.ite
    | (with_reducible refine Sub.trans (Sub.ok ?_) hm); rfl
    | dsimp only
    | split

theorem sourceTick_keeps {m : Nat} {b : State} {s : State} {a1 : HostBreak} (h : Keeps m b s)
    (hm : Sub 68159496 m) : Keeps m b (sourceTick s a1).1 := by
  unfold sourceTick
  repeat' first
    | with_reducible assumption
    | with_reducible apply ringPlays_keeps
    | with_reducible (refine Keeps.fst ?_ (by assumption))
    | with_reducible apply Keeps.ite_snd
    | with_reducible apply Keeps.ite_fst
    | with_reducible apply Keeps.ite
    | (with_reducible refine Sub.trans (Sub.ok ?_) hm); rfl
    | dsimp only
    | split

theorem programmeTick_keeps {m : Nat} {b : State} {s : State} (h : Keeps m b s)
    (hm : Sub 68159496 m) : Keeps m b (programmeTick s).1 := by
  unfold programmeTick
  repeat' first
    | with_reducible assumption
    | with_reducible apply sourceTick_keeps
    | with_reducible apply setTx_keeps
    | with_reducible (refine Keeps.fst ?_ (by assumption))
    | with_reducible apply Keeps.ite_snd
    | with_reducible apply Keeps.ite_fst
    | with_reducible apply Keeps.ite
    | (with_reducible refine Sub.trans (Sub.ok ?_) hm); rfl
    | dsimp only
    | split

theorem exciterTick_keeps {m : Nat} {b : State} {s : State} (h : Keeps m b s)
    (hm : Sub 68159496 m) : Keeps m b (exciterTick s) := by
  unfold exciterTick
  repeat' first
    | with_reducible assumption
    | with_reducible apply programmeTick_keeps
    | with_reducible apply putRing_keeps
    | with_reducible apply setTx_keeps
    | with_reducible (refine Keeps.fst ?_ (by assumption))
    | with_reducible apply Keeps.foldl
    | with_reducible apply Keeps.foldl_fst
    | with_reducible apply Keeps.foldl_snd
    | with_reducible apply Keeps.ite
    | (with_reducible refine Sub.trans (Sub.ok ?_) hm); rfl
    | with_reducible intro _ _ _
    | dsimp only
    | split

theorem emitFrame_keeps {m : Nat} {b : State} {s : State} {a1 : Nat} {a2 a3 : Bytes} (h : Keeps m b s)
    (hm : Sub 67108864 m) : Keeps m b (emitFrame s a1 a2 a3) := by
  unfold emitFrame
  repeat' first
    | with_reducible assumption
    | with_reducible apply setTx_keeps
    | (with_reducible refine Sub.trans (Sub.ok ?_) hm); rfl
    | dsimp only
    | split

theorem dueTick_keeps {m : Nat} {b : State} {s : State} (h : Keeps m b s)
    (hm : Sub 67108864 m) : Keeps m b (dueTick s) := by
  unfold dueTick
  repeat' first
    | with_reducible assumption
    | with_reducible apply setTx_keeps
    | with_reducible apply Keeps.ite
    | (with_reducible refine Sub.trans (Sub.ok ?_) hm); rfl
    | dsimp only
    | split

theorem ownFrame_keeps {m : Nat} {b : State} {s : State} {a1 : Nat} (h : Keeps m b s)
    (hm : Sub 67108864 m) : Keeps m b (ownFrame s a1) := by
  unfold ownFrame
  repeat' first
    | with_reducible assumption
    | with_reducible apply emitFrame_keeps
    | with_reducible apply setTx_keeps
    | (with_reducible refine Sub.trans (Sub.ok ?_) hm); rfl
    | dsimp only
    | split

end Sys2Proof.Machine
end

