-- ==== Sys2Proof/Laws/KeepsLodestar.lean ====
section
/-! SUPPORT. Laws/KeepsLodestar.lean: what each operation of Machine/Lodestar.lean keeps. -/

set_option linter.unusedTactic false
set_option linter.unreachableTactic false
set_option linter.unusedVariables false

namespace Sys2Proof.Machine

theorem evTxOf_keeps {m : Nat} {b : State} {s : State} {a1 a2 : Nat} (h : Keeps m b s)
    (hm : Sub 64 m) : Keeps m b (evTxOf s a1 a2) := by
  unfold evTxOf
  repeat' first
    | with_reducible assumption
    | with_reducible apply raise_keeps
    | (with_reducible refine Sub.trans (Sub.ok ?_) hm); rfl
    | dsimp only
    | split

theorem evTxCause_keeps {m : Nat} {b : State} {s : State} {a1 : Nat} (h : Keeps m b s)
    (hm : Sub 64 m) : Keeps m b (evTxCause s a1) := by
  unfold evTxCause
  repeat' first
    | with_reducible assumption
    | with_reducible apply evTxOf_keeps
    | with_reducible apply Keeps.ite
    | (with_reducible refine Sub.trans (Sub.ok ?_) hm); rfl
    | dsimp only
    | split

theorem closeDuty_keeps {m : Nat} {b : State} {s : State} (h : Keeps m b s)
    (hm : Sub 67108864 m) : Keeps m b (closeDuty s) := by
  unfold closeDuty
  repeat' first
    | with_reducible assumption
    | with_reducible apply setTx_keeps
    | with_reducible apply Keeps.ite
    | (with_reducible refine Sub.trans (Sub.ok ?_) hm); rfl
    | dsimp only
    | split

theorem tuneTo_keeps {m : Nat} {b : State} {s : State} {a1 : Nat} (h : Keeps m b s)
    (hm : Sub 75505664 m) : Keeps m b (tuneTo s a1) := by
  unfold tuneTo
  repeat' first
    | with_reducible assumption
    | with_reducible apply lockAttempt_keeps
    | with_reducible apply txLoop_keeps
    | with_reducible apply closeDuty_keeps
    | with_reducible apply usedChanged_keeps
    | with_reducible apply setTx_keeps
    | with_reducible apply Keeps.ite
    | (with_reducible refine Sub.trans (Sub.ok ?_) hm); rfl
    | dsimp only
    | split

theorem pend_keeps {m : Nat} {b : State} {s : State} (h : Keeps m b s)
    (hm : Sub 67108864 m) : Keeps m b (pend s) := by
  unfold pend
  repeat' first
    | with_reducible assumption
    | with_reducible apply setTx_keeps
    | with_reducible apply Keeps.ite
    | (with_reducible refine Sub.trans (Sub.ok ?_) hm); rfl
    | dsimp only
    | split

theorem dropPending_keeps {m : Nat} {b : State} {s : State} (h : Keeps m b s)
    (hm : Sub 67108864 m) : Keeps m b (dropPending s) := by
  unfold dropPending
  repeat' first
    | with_reducible assumption
    | with_reducible apply setTx_keeps
    | with_reducible apply Keeps.ite
    | (with_reducible refine Sub.trans (Sub.ok ?_) hm); rfl
    | dsimp only
    | split

theorem failPending_keeps {m : Nat} {b : State} {s : State} {a1 : Nat} (h : Keeps m b s)
    (hm : Sub 847787330924 m) : Keeps m b (failPending s a1) := by
  unfold failPending
  repeat' first
    | with_reducible assumption
    | with_reducible apply dropPending_keeps
    | with_reducible apply finishOp_keeps
    | (with_reducible refine Sub.trans (Sub.ok ?_) hm); rfl
    | dsimp only
    | split

theorem muteReady_keeps {m : Nat} {b : State} {s : State} {a1 : Nat} (h : Keeps m b s)
    (hm : Sub 67108928 m) : Keeps m b (muteReady s a1) := by
  unfold muteReady
  repeat' first
    | with_reducible assumption
    | with_reducible apply fastRamp_keeps
    | with_reducible apply evTxCause_keeps
    | with_reducible apply setTx_keeps
    | with_reducible apply Keeps.ite
    | (with_reducible refine Sub.trans (Sub.ok ?_) hm); rfl
    | dsimp only
    | split

theorem muteFrom_keeps {m : Nat} {b : State} {s : State} {a1 : Nat} (h : Keeps m b s)
    (hm : Sub 67108928 m) : Keeps m b (muteFrom s a1) := by
  unfold muteFrom
  repeat' first
    | with_reducible assumption
    | with_reducible apply fastRamp_keeps
    | with_reducible apply evTxCause_keeps
    | with_reducible apply setTx_keeps
    | with_reducible apply Keeps.ite
    | (with_reducible refine Sub.trans (Sub.ok ?_) hm); rfl
    | dsimp only
    | split

theorem mayResume_keeps {m : Nat} {b : State} {s : State} {a1 : Nat} (h : Keeps m b s)
    (hm : Sub 67108864 m) : Keeps m b (mayResume s a1) := by
  unfold mayResume
  repeat' first
    | with_reducible assumption
    | with_reducible apply setTx_keeps
    | with_reducible apply Keeps.ite
    | (with_reducible refine Sub.trans (Sub.ok ?_) hm); rfl
    | dsimp only
    | split

theorem txBrown_keeps {m : Nat} {b : State} {s : State} (h : Keeps m b s)
    (hm : Sub 67108928 m) : Keeps m b (txBrown s) := by
  unfold txBrown
  repeat' first
    | with_reducible assumption
    | with_reducible apply muteFrom_keeps
    | with_reducible apply setTx_keeps
    | with_reducible apply Keeps.ite
    | (with_reducible refine Sub.trans (Sub.ok ?_) hm); rfl
    | dsimp only
    | split

theorem txBrownEnds_keeps {m : Nat} {b : State} {s : State} (h : Keeps m b s)
    (hm : Sub 67108864 m) : Keeps m b (txBrownEnds s) := by
  unfold txBrownEnds
  repeat' first
    | with_reducible assumption
    | with_reducible apply mayResume_keeps
    | with_reducible apply setTx_keeps
    | with_reducible apply Keeps.ite
    | (with_reducible refine Sub.trans (Sub.ok ?_) hm); rfl
    | dsimp only
    | split

theorem txHold_keeps {m : Nat} {b : State} {s : State} (h : Keeps m b s)
    (hm : Sub 847787330924 m) : Keeps m b (txHold s) := by
  unfold txHold
  repeat' first
    | with_reducible assumption
    | with_reducible apply closeDuty_keeps
    | with_reducible apply finishOp_keeps
    | with_reducible apply setTx_keeps
    | with_reducible apply Keeps.foldl
    | (with_reducible refine Sub.trans (Sub.ok ?_) hm); rfl
    | with_reducible intro _ _ _
    | dsimp only
    | split

theorem txRelease_keeps {m : Nat} {b : State} {s : State} (h : Keeps m b s)
    (hm : Sub 67108864 m) : Keeps m b (txRelease s) := by
  unfold txRelease
  repeat' first
    | with_reducible assumption
    | with_reducible apply setTx_keeps
    | with_reducible apply Keeps.ite
    | (with_reducible refine Sub.trans (Sub.ok ?_) hm); rfl
    | dsimp only
    | split

theorem txTuneUnit_keeps {m : Nat} {b : State} {a1 : Cmd} {s : State} (h : Keeps m b s)
    (hm : Sub 847795727724 m) : Reply.Keeps m b (txTuneUnit a1 s) := by
  unfold txTuneUnit
  repeat' first
    | with_reducible assumption
    | with_reducible apply ok_keeps
    | with_reducible apply okWith_keeps
    | with_reducible apply badState_keeps
    | with_reducible apply badParam_keeps
    | with_reducible apply Reply.keeps_deny
    | with_reducible apply Reply.keeps_done
    | with_reducible apply Reply.keeps_later
    | with_reducible apply Reply.keeps_busy
    | with_reducible apply fastRamp_keeps
    | with_reducible apply tuneTo_keeps
    | with_reducible apply pend_keeps
    | with_reducible apply finishOp_keeps
    | with_reducible apply setTx_keeps
    | with_reducible apply Reply.Keeps.ite
    | with_reducible apply Keeps.ite
    | (with_reducible refine Sub.trans (Sub.ok ?_) hm); rfl
    | dsimp only
    | split

theorem txTuneSpec_keeps : CmdSpec.Keeps 847795727724 txTuneSpec := by
  intro m b c s h hm
  unfold txTuneSpec
  repeat' first
    | with_reducible assumption
    | with_reducible apply ok_keeps
    | with_reducible apply okWith_keeps
    | with_reducible apply badState_keeps
    | with_reducible apply badParam_keeps
    | with_reducible apply Reply.keeps_deny
    | with_reducible apply Reply.keeps_done
    | with_reducible apply Reply.keeps_later
    | with_reducible apply Reply.keeps_busy
    | with_reducible apply txTuneUnit_keeps
    | (with_reducible refine Sub.trans (Sub.ok ?_) hm); rfl
    | dsimp only
    | split

theorem txStartUnit_keeps {m : Nat} {b : State} {a1 : Cmd} {s : State} (h : Keeps m b s)
    (hm : Sub 67108864 m) : Reply.Keeps m b (txStartUnit a1 s) := by
  unfold txStartUnit
  repeat' first
    | with_reducible assumption
    | with_reducible apply ok_keeps
    | with_reducible apply okWith_keeps
    | with_reducible apply badState_keeps
    | with_reducible apply badParam_keeps
    | with_reducible apply Reply.keeps_deny
    | with_reducible apply Reply.keeps_done
    | with_reducible apply Reply.keeps_later
    | with_reducible apply Reply.keeps_busy
    | with_reducible apply pend_keeps
    | with_reducible apply setTx_keeps
    | with_reducible apply Reply.Keeps.ite
    | with_reducible apply Keeps.ite
    | (with_reducible refine Sub.trans (Sub.ok ?_) hm); rfl
    | dsimp only
    | split

theorem txStartSpec_keeps : CmdSpec.Keeps 67108864 txStartSpec := by
  intro m b c s h hm
  unfold txStartSpec
  repeat' first
    | with_reducible assumption
    | with_reducible apply ok_keeps
    | with_reducible apply okWith_keeps
    | with_reducible apply badState_keeps
    | with_reducible apply badParam_keeps
    | with_reducible apply Reply.keeps_deny
    | with_reducible apply Reply.keeps_done
    | with_reducible apply Reply.keeps_later
    | with_reducible apply Reply.keeps_busy
    | with_reducible apply txStartUnit_keeps
    | (with_reducible refine Sub.trans (Sub.ok ?_) hm); rfl
    | dsimp only
    | split

theorem beginStop_keeps {m : Nat} {b : State} {s : State} (h : Keeps m b s)
    (hm : Sub 67108864 m) : Keeps m b (beginStop s) := by
  unfold beginStop
  repeat' first
    | with_reducible assumption
    | with_reducible apply stopRamp_keeps
    | with_reducible apply setTx_keeps
    | (with_reducible refine Sub.trans (Sub.ok ?_) hm); rfl
    | dsimp only
    | split

theorem txStopUnit_keeps {m : Nat} {b : State} {a1 : Cmd} {s : State} (h : Keeps m b s)
    (hm : Sub 847787330924 m) : Reply.Keeps m b (txStopUnit a1 s) := by
  unfold txStopUnit
  repeat' first
    | with_reducible assumption
    | with_reducible apply ok_keeps
    | with_reducible apply okWith_keeps
    | with_reducible apply badState_keeps
    | with_reducible apply badParam_keeps
    | with_reducible apply Reply.keeps_deny
    | with_reducible apply Reply.keeps_done
    | with_reducible apply Reply.keeps_later
    | with_reducible apply Reply.keeps_busy
    | with_reducible apply evTxCause_keeps
    | with_reducible apply failPending_keeps
    | with_reducible apply beginStop_keeps
    | with_reducible apply setTx_keeps
    | (with_reducible refine Sub.trans (Sub.ok ?_) hm); rfl
    | dsimp only
    | split

theorem txStopSpec_keeps : CmdSpec.Keeps 847787330924 txStopSpec := by
  intro m b c s h hm
  unfold txStopSpec
  repeat' first
    | with_reducible assumption
    | with_reducible apply ok_keeps
    | with_reducible apply okWith_keeps
    | with_reducible apply badState_keeps
    | with_reducible apply badParam_keeps
    | with_reducible apply Reply.keeps_deny
    | with_reducible apply Reply.keeps_done
    | with_reducible apply Reply.keeps_later
    | with_reducible apply Reply.keeps_busy
    | with_reducible apply txStopUnit_keeps
    | (with_reducible refine Sub.trans (Sub.ok ?_) hm); rfl
    | dsimp only
    | split

theorem txLevelUnit_keeps {m : Nat} {b : State} {a1 : Cmd} {s : State} (h : Keeps m b s)
    (hm : Sub 67108864 m) : Reply.Keeps m b (txLevelUnit a1 s) := by
  unfold txLevelUnit
  repeat' first
    | with_reducible assumption
    | with_reducible apply ok_keeps
    | with_reducible apply okWith_keeps
    | with_reducible apply badState_keeps
    | with_reducible apply badParam_keeps
    | with_reducible apply Reply.keeps_deny
    | with_reducible apply Reply.keeps_done
    | with_reducible apply Reply.keeps_later
    | with_reducible apply Reply.keeps_busy
    | with_reducible apply relevel_keeps
    | with_reducible apply setTx_keeps
    | with_reducible apply Reply.Keeps.ite
    | with_reducible apply Keeps.ite
    | (with_reducible refine Sub.trans (Sub.ok ?_) hm); rfl
    | dsimp only
    | split

theorem txLevelSetSpec_keeps : CmdSpec.Keeps 67108864 txLevelSetSpec := by
  intro m b c s h hm
  unfold txLevelSetSpec
  repeat' first
    | with_reducible assumption
    | with_reducible apply ok_keeps
    | with_reducible apply okWith_keeps
    | with_reducible apply badState_keeps
    | with_reducible apply badParam_keeps
    | with_reducible apply Reply.keeps_deny
    | with_reducible apply Reply.keeps_done
    | with_reducible apply Reply.keeps_later
    | with_reducible apply Reply.keeps_busy
    | with_reducible apply txLevelUnit_keeps
    | (with_reducible refine Sub.trans (Sub.ok ?_) hm); rfl
    | dsimp only
    | split

theorem txFmUnit_keeps {m : Nat} {b : State} {a1 : Cmd} {s : State} (h : Keeps m b s)
    (hm : Sub 67108864 m) : Reply.Keeps m b (txFmUnit a1 s) := by
  unfold txFmUnit
  repeat' first
    | with_reducible assumption
    | with_reducible apply ok_keeps
    | with_reducible apply okWith_keeps
    | with_reducible apply badState_keeps
    | with_reducible apply badParam_keeps
    | with_reducible apply Reply.keeps_deny
    | with_reducible apply Reply.keeps_done
    | with_reducible apply Reply.keeps_later
    | with_reducible apply Reply.keeps_busy
    | exact ringDenied_keeps (by assumption)
    | exact ringDenied_keeps_unless (by assumption)
    | with_reducible apply setTx_keeps
    | with_reducible apply Reply.Keeps.ite
    | with_reducible apply Keeps.ite
    | (with_reducible refine Sub.trans (Sub.ok ?_) hm); rfl
    | dsimp only
    | split

theorem txFmSetSpec_keeps : CmdSpec.Keeps 67108864 txFmSetSpec := by
  intro m b c s h hm
  unfold txFmSetSpec
  repeat' first
    | with_reducible assumption
    | with_reducible apply ok_keeps
    | with_reducible apply okWith_keeps
    | with_reducible apply badState_keeps
    | with_reducible apply badParam_keeps
    | with_reducible apply Reply.keeps_deny
    | with_reducible apply Reply.keeps_done
    | with_reducible apply Reply.keeps_later
    | with_reducible apply Reply.keeps_busy
    | with_reducible apply txFmUnit_keeps
    | (with_reducible refine Sub.trans (Sub.ok ?_) hm); rfl
    | dsimp only
    | split

theorem txDabSetSpec_keeps : CmdSpec.Keeps 67108864 txDabSetSpec := by
  intro m b c s h hm
  unfold txDabSetSpec
  repeat' first
    | with_reducible assumption
    | with_reducible apply ok_keeps
    | with_reducible apply okWith_keeps
    | with_reducible apply badState_keeps
    | with_reducible apply badParam_keeps
    | with_reducible apply Reply.keeps_deny
    | with_reducible apply Reply.keeps_done
    | with_reducible apply Reply.keeps_later
    | with_reducible apply Reply.keeps_busy
    | with_reducible apply setTx_keeps
    | (with_reducible refine Sub.trans (Sub.ok ?_) hm); rfl
    | dsimp only
    | split

theorem txBreakinSetUnit_keeps {m : Nat} {b : State} {a1 : Cmd} {s : State} (h : Keeps m b s)
    (hm : Sub 67108864 m) : Reply.Keeps m b (txBreakinSetUnit a1 s) := by
  unfold txBreakinSetUnit
  repeat' first
    | with_reducible assumption
    | with_reducible apply ok_keeps
    | with_reducible apply okWith_keeps
    | with_reducible apply badState_keeps
    | with_reducible apply badParam_keeps
    | with_reducible apply Reply.keeps_deny
    | with_reducible apply Reply.keeps_done
    | with_reducible apply Reply.keeps_later
    | with_reducible apply Reply.keeps_busy
    | with_reducible apply setTx_keeps
    | with_reducible apply Reply.Keeps.ite
    | with_reducible apply Keeps.ite
    | (with_reducible refine Sub.trans (Sub.ok ?_) hm); rfl
    | dsimp only
    | split

theorem txBreakinSetSpec_keeps : CmdSpec.Keeps 67108864 txBreakinSetSpec := by
  intro m b c s h hm
  unfold txBreakinSetSpec
  repeat' first
    | with_reducible assumption
    | with_reducible apply ok_keeps
    | with_reducible apply okWith_keeps
    | with_reducible apply badState_keeps
    | with_reducible apply badParam_keeps
    | with_reducible apply Reply.keeps_deny
    | with_reducible apply Reply.keeps_done
    | with_reducible apply Reply.keeps_later
    | with_reducible apply Reply.keeps_busy
    | with_reducible apply txBreakinSetUnit_keeps
    | (with_reducible refine Sub.trans (Sub.ok ?_) hm); rfl
    | dsimp only
    | split

theorem txSfnUnit_keeps {m : Nat} {b : State} {a1 : Cmd} {s : State} (h : Keeps m b s)
    (hm : Sub 67108864 m) : Reply.Keeps m b (txSfnUnit a1 s) := by
  unfold txSfnUnit
  repeat' first
    | with_reducible assumption
    | with_reducible apply ok_keeps
    | with_reducible apply okWith_keeps
    | with_reducible apply badState_keeps
    | with_reducible apply badParam_keeps
    | with_reducible apply Reply.keeps_deny
    | with_reducible apply Reply.keeps_done
    | with_reducible apply Reply.keeps_later
    | with_reducible apply Reply.keeps_busy
    | with_reducible apply setTx_keeps
    | with_reducible apply Reply.Keeps.ite
    | with_reducible apply Keeps.ite
    | (with_reducible refine Sub.trans (Sub.ok ?_) hm); rfl
    | dsimp only
    | split

theorem txSfnSetSpec_keeps : CmdSpec.Keeps 67108864 txSfnSetSpec := by
  intro m b c s h hm
  unfold txSfnSetSpec
  repeat' first
    | with_reducible assumption
    | with_reducible apply ok_keeps
    | with_reducible apply okWith_keeps
    | with_reducible apply badState_keeps
    | with_reducible apply badParam_keeps
    | with_reducible apply Reply.keeps_deny
    | with_reducible apply Reply.keeps_done
    | with_reducible apply Reply.keeps_later
    | with_reducible apply Reply.keeps_busy
    | with_reducible apply txSfnUnit_keeps
    | (with_reducible refine Sub.trans (Sub.ok ?_) hm); rfl
    | dsimp only
    | split

theorem coexReview_keeps {m : Nat} {b : State} {s : State} (h : Keeps m b s)
    (hm : Sub 67108928 m) : Keeps m b (coexReview s) := by
  unfold coexReview
  repeat' first
    | with_reducible assumption
    | with_reducible apply muteFrom_keeps
    | with_reducible apply mayResume_keeps
    | with_reducible apply setTx_keeps
    | with_reducible apply Keeps.ite
    | (with_reducible refine Sub.trans (Sub.ok ?_) hm); rfl
    | dsimp only
    | split

theorem coexSetSpec_keeps : CmdSpec.Keeps 67108928 coexSetSpec := by
  intro m b c s h hm
  unfold coexSetSpec
  repeat' first
    | with_reducible assumption
    | with_reducible apply ok_keeps
    | with_reducible apply okWith_keeps
    | with_reducible apply badState_keeps
    | with_reducible apply badParam_keeps
    | with_reducible apply Reply.keeps_deny
    | with_reducible apply Reply.keeps_done
    | with_reducible apply Reply.keeps_later
    | with_reducible apply Reply.keeps_busy
    | with_reducible apply coexReview_keeps
    | with_reducible apply setTx_keeps
    | (with_reducible refine Sub.trans (Sub.ok ?_) hm); rfl
    | dsimp only
    | split

theorem txGetSpec_keeps : CmdSpec.Keeps 0 txGetSpec := by
  intro m b c s h hm
  unfold txGetSpec
  repeat' first
    | with_reducible assumption
    | with_reducible apply ok_keeps
    | with_reducible apply okWith_keeps
    | with_reducible apply badState_keeps
    | with_reducible apply badParam_keeps
    | with_reducible apply Reply.keeps_deny
    | with_reducible apply Reply.keeps_done
    | with_reducible apply Reply.keeps_later
    | with_reducible apply Reply.keeps_busy
    | (with_reducible refine Sub.trans (Sub.ok ?_) hm); rfl
    | dsimp only
    | split

theorem txMonGetSpec_keeps : CmdSpec.Keeps 0 txMonGetSpec := by
  intro m b c s h hm
  unfold txMonGetSpec
  repeat' first
    | with_reducible assumption
    | with_reducible apply ok_keeps
    | with_reducible apply okWith_keeps
    | with_reducible apply badState_keeps
    | with_reducible apply badParam_keeps
    | with_reducible apply Reply.keeps_deny
    | with_reducible apply Reply.keeps_done
    | with_reducible apply Reply.keeps_later
    | with_reducible apply Reply.keeps_busy
    | (with_reducible refine Sub.trans (Sub.ok ?_) hm); rfl
    | dsimp only
    | split

theorem taTrigger_keeps {m : Nat} {b : State} {s : State} (h : Keeps m b s)
    (hm : Sub 67108864 m) : Keeps m b (taTrigger s) := by
  unfold taTrigger
  repeat' first
    | with_reducible assumption
    | with_reducible apply setTx_keeps
    | (with_reducible refine Sub.trans (Sub.ok ?_) hm); rfl
    | dsimp only
    | split

theorem refuseBreak_keeps {m : Nat} {b : State} {s : State} {a1 : Nat} (h : Keeps m b s)
    (hm : Sub 67141696 m) : Keeps m b (refuseBreak s a1) := by
  unfold refuseBreak
  repeat' first
    | with_reducible assumption
    | with_reducible apply evTxOf_keeps
    | with_reducible apply raise_keeps
    | with_reducible apply setPol_keeps
    | with_reducible apply setTx_keeps
    | with_reducible apply Keeps.ite
    | (with_reducible refine Sub.trans (Sub.ok ?_) hm); rfl
    | dsimp only
    | split

theorem startAlertService_keeps {m : Nat} {b : State} {s : State} (h : Keeps m b s)
    (hm : Sub 856310156652 m) : Keeps m b (startAlertService s) := by
  unfold startAlertService
  repeat' first
    | with_reducible assumption
    | with_reducible apply serveWaiting_keeps
    | with_reducible apply setServices_keeps
    | with_reducible apply Keeps.ite
    | (with_reducible refine Sub.trans (Sub.ok ?_) hm); rfl
    | dsimp only
    | split

theorem dropAlertService_keeps {m : Nat} {b : State} {s : State} (h : Keeps m b s)
    (hm : Sub 8589934592 m) : Keeps m b (dropAlertService s) := by
  unfold dropAlertService
  repeat' first
    | with_reducible assumption
    | with_reducible apply dropService_keeps
    | (with_reducible refine Sub.trans (Sub.ok ?_) hm); rfl
    | dsimp only
    | split

theorem breakStarts_keeps {m : Nat} {b : State} {s : State} {a1 a2 : Nat} (h : Keeps m b s)
    (hm : Sub 847795727724 m) : Keeps m b (breakStarts s a1 a2) := by
  unfold breakStarts
  repeat' first
    | with_reducible assumption
    | with_reducible apply tuneTo_keeps
    | with_reducible apply pend_keeps
    | with_reducible apply finishOp_keeps
    | with_reducible apply setTx_keeps
    | with_reducible apply Keeps.foldl
    | with_reducible apply Keeps.ite
    | (with_reducible refine Sub.trans (Sub.ok ?_) hm); rfl
    | with_reducible intro _ _ _
    | dsimp only
    | split

theorem beginBreak_keeps {m : Nat} {b : State} {s : State} {a1 : Nat} (h : Keeps m b s)
    (hm : Sub 856385695084 m) : Keeps m b (beginBreak s a1) := by
  unfold beginBreak
  repeat' first
    | with_reducible assumption
    | with_reducible apply evTxOf_keeps
    | with_reducible apply mayResume_keeps
    | with_reducible apply refuseBreak_keeps
    | with_reducible apply startAlertService_keeps
    | with_reducible apply breakStarts_keeps
    | with_reducible apply setTx_keeps
    | with_reducible apply Keeps.ite
    | (with_reducible refine Sub.trans (Sub.ok ?_) hm); rfl
    | dsimp only
    | split

theorem endBreak_keeps {m : Nat} {b : State} {s : State} (h : Keeps m b s)
    (hm : Sub 67108928 m) : Keeps m b (endBreak s) := by
  unfold endBreak
  repeat' first
    | with_reducible assumption
    | with_reducible apply beginStop_keeps
    | with_reducible apply coexReview_keeps
    | with_reducible apply setTx_keeps
    | with_reducible apply Keeps.ite
    | (with_reducible refine Sub.trans (Sub.ok ?_) hm); rfl
    | dsimp only
    | split

theorem brkUpdate_keeps {m : Nat} {b : State} {s : State} (h : Keeps m b s)
    (hm : Sub 856385695084 m) : Keeps m b (brkUpdate s) := by
  unfold brkUpdate
  repeat' first
    | with_reducible assumption
    | with_reducible apply evTxOf_keeps
    | with_reducible apply dropAlertService_keeps
    | with_reducible apply beginBreak_keeps
    | with_reducible apply endBreak_keeps
    | with_reducible apply setTx_keeps
    | with_reducible apply Keeps.ite
    | (with_reducible refine Sub.trans (Sub.ok ?_) hm); rfl
    | dsimp only
    | split

theorem execBreakinTrigger_keeps {m : Nat} {b : State} {a1 : Nat} {a2 : Bool} {s : State} (h : Keeps m b s)
    (hm : Sub 856385695084 m) : NextKeeps m b (execBreakinTrigger a1 a2 s) := by
  unfold execBreakinTrigger
  repeat' first
    | with_reducible assumption
    | with_reducible apply NextKeeps.next
    | with_reducible apply taTrigger_keeps
    | with_reducible apply brkUpdate_keeps
    | with_reducible apply NextKeeps.ite
    | with_reducible apply Keeps.ite
    | (with_reducible refine Sub.trans (Sub.ok ?_) hm); rfl
    | dsimp only
    | split

theorem txBreakinUnit_keeps {m : Nat} {b : State} {a1 : Cmd} {s : State} (h : Keeps m b s)
    (hm : Sub 856385695084 m) : Reply.Keeps m b (txBreakinUnit a1 s) := by
  unfold txBreakinUnit
  repeat' first
    | with_reducible assumption
    | with_reducible apply ok_keeps
    | with_reducible apply okWith_keeps
    | with_reducible apply badState_keeps
    | with_reducible apply badParam_keeps
    | with_reducible apply Reply.keeps_deny
    | with_reducible apply Reply.keeps_done
    | with_reducible apply Reply.keeps_later
    | with_reducible apply Reply.keeps_busy
    | with_reducible apply refuseBreak_keeps
    | with_reducible apply brkUpdate_keeps
    | with_reducible apply setTx_keeps
    | with_reducible apply Reply.Keeps.ite
    | with_reducible apply Keeps.ite
    | (with_reducible refine Sub.trans (Sub.ok ?_) hm); rfl
    | dsimp only
    | split

theorem txBreakinSpec_keeps : CmdSpec.Keeps 856385695084 txBreakinSpec := by
  intro m b c s h hm
  unfold txBreakinSpec
  repeat' first
    | with_reducible assumption
    | with_reducible apply ok_keeps
    | with_reducible apply okWith_keeps
    | with_reducible apply badState_keeps
    | with_reducible apply badParam_keeps
    | with_reducible apply Reply.keeps_deny
    | with_reducible apply Reply.keeps_done
    | with_reducible apply Reply.keeps_later
    | with_reducible apply Reply.keeps_busy
    | with_reducible apply txBreakinUnit_keeps
    | (with_reducible refine Sub.trans (Sub.ok ?_) hm); rfl
    | dsimp only
    | split

theorem execTxPllLocked_keeps {m : Nat} {b : State} {a1 : Sid} {s : State} (h : Keeps m b s)
    (hm : Sub 847789436270 m) : NextKeeps m b (execTxPllLocked a1 s) := by
  unfold execTxPllLocked
  repeat' first
    | with_reducible assumption
    | with_reducible apply NextKeeps.next
    | with_reducible apply txLoop_keeps
    | with_reducible apply evTxCause_keeps
    | with_reducible apply advance_keeps
    | with_reducible apply freeValue_keeps
    | with_reducible apply finishOp_keeps
    | with_reducible apply setTx_keeps
    | with_reducible (refine Keeps.snd ?_ (by assumption))
    | with_reducible apply NextKeeps.ite
    | with_reducible apply Keeps.ite
    | (with_reducible refine Sub.trans (Sub.ok ?_) hm); rfl
    | dsimp only
    | split

theorem execTxTuneTimeout_keeps {m : Nat} {b : State} {s : State} (h : Keeps m b s)
    (hm : Sub 847787330924 m) : NextKeeps m b (execTxTuneTimeout s) := by
  unfold execTxTuneTimeout
  repeat' first
    | with_reducible assumption
    | with_reducible apply NextKeeps.next
    | with_reducible apply finishOp_keeps
    | with_reducible apply setTx_keeps
    | with_reducible apply NextKeeps.ite
    | with_reducible apply Keeps.ite
    | (with_reducible refine Sub.trans (Sub.ok ?_) hm); rfl
    | dsimp only
    | split

theorem execCoexWaitExpiry_keeps {m : Nat} {b : State} {s : State} (h : Keeps m b s)
    (hm : Sub 847787330924 m) : NextKeeps m b (execCoexWaitExpiry s) := by
  unfold execCoexWaitExpiry
  repeat' first
    | with_reducible assumption
    | with_reducible apply NextKeeps.next
    | with_reducible apply failPending_keeps
    | with_reducible apply NextKeeps.ite
    | with_reducible apply Keeps.ite
    | (with_reducible refine Sub.trans (Sub.ok ?_) hm); rfl
    | dsimp only
    | split

theorem execCoexGntChange_keeps {m : Nat} {b : State} {a1 : Bool} {a2 : Sid} {s : State} (h : Keeps m b s)
    (hm : Sub 67108930 m) : NextKeeps m b (execCoexGntChange a1 a2 s) := by
  unfold execCoexGntChange
  repeat' first
    | with_reducible assumption
    | with_reducible apply NextKeeps.next
    | with_reducible apply muteFrom_keeps
    | with_reducible apply mayResume_keeps
    | with_reducible apply advance_keeps
    | with_reducible apply setTx_keeps
    | with_reducible apply NextKeeps.ite
    | with_reducible apply Keeps.ite
    | (with_reducible refine Sub.trans (Sub.ok ?_) hm); rfl
    | dsimp only
    | split

theorem execTxStartSequence_keeps {m : Nat} {b : State} {a1 : Sid} {s : State} (h : Keeps m b s)
    (hm : Sub 847787330926 m) : NextKeeps m b (execTxStartSequence a1 s) := by
  unfold execTxStartSequence
  repeat' first
    | with_reducible assumption
    | with_reducible apply NextKeeps.next
    | with_reducible apply startRamp_keeps
    | with_reducible apply evTxCause_keeps
    | with_reducible apply advance_keeps
    | with_reducible apply finishOp_keeps
    | with_reducible apply setTx_keeps
    | with_reducible apply NextKeeps.ite
    | with_reducible apply Keeps.ite
    | (with_reducible refine Sub.trans (Sub.ok ?_) hm); rfl
    | dsimp only
    | split

theorem execTxStopComplete_keeps {m : Nat} {b : State} {a1 : Sid} {s : State} (h : Keeps m b s)
    (hm : Sub 847787330926 m) : NextKeeps m b (execTxStopComplete a1 s) := by
  unfold execTxStopComplete
  repeat' first
    | with_reducible assumption
    | with_reducible apply NextKeeps.next
    | with_reducible apply evTxCause_keeps
    | with_reducible apply closeDuty_keeps
    | with_reducible apply advance_keeps
    | with_reducible apply finishOp_keeps
    | with_reducible apply setTx_keeps
    | with_reducible apply NextKeeps.ite
    | with_reducible apply Keeps.ite
    | (with_reducible refine Sub.trans (Sub.ok ?_) hm); rfl
    | dsimp only
    | split

theorem execFastMute_keeps {m : Nat} {b : State} {a1 : Sid} {s : State} (h : Keeps m b s)
    (hm : Sub 67108866 m) : NextKeeps m b (execFastMute a1 s) := by
  unfold execFastMute
  repeat' first
    | with_reducible assumption
    | with_reducible apply NextKeeps.next
    | with_reducible apply closeDuty_keeps
    | with_reducible apply advance_keeps
    | with_reducible apply setTx_keeps
    | with_reducible apply NextKeeps.ite
    | with_reducible apply Keeps.ite
    | (with_reducible refine Sub.trans (Sub.ok ?_) hm); rfl
    | dsimp only
    | split

theorem execDutyLimit_keeps {m : Nat} {b : State} {a1 : Sid} {s : State} (h : Keeps m b s)
    (hm : Sub 67108930 m) : NextKeeps m b (execDutyLimit a1 s) := by
  unfold execDutyLimit
  repeat' first
    | with_reducible assumption
    | with_reducible apply NextKeeps.next
    | with_reducible apply muteReady_keeps
    | with_reducible apply advance_keeps
    | with_reducible apply NextKeeps.ite
    | with_reducible apply Keeps.ite
    | (with_reducible refine Sub.trans (Sub.ok ?_) hm); rfl
    | dsimp only
    | split

theorem execContinuousLimit_keeps {m : Nat} {b : State} {a1 : Sid} {s : State} (h : Keeps m b s)
    (hm : Sub 67108930 m) : NextKeeps m b (execContinuousLimit a1 s) := by
  unfold execContinuousLimit
  repeat' first
    | with_reducible assumption
    | with_reducible apply NextKeeps.next
    | with_reducible apply muteReady_keeps
    | with_reducible apply advance_keeps
    | with_reducible apply setTx_keeps
    | with_reducible apply NextKeeps.ite
    | with_reducible apply Keeps.ite
    | (with_reducible refine Sub.trans (Sub.ok ?_) hm); rfl
    | dsimp only
    | split

theorem packetDue_keeps {m : Nat} {b : State} {s : State} {a1 : Nat} (h : Keeps m b s)
    (hm : Sub 4096 m) : Keeps m b (packetDue s a1) := by
  unfold packetDue
  repeat' first
    | with_reducible assumption
    | with_reducible apply setEth_keeps
    | with_reducible apply Keeps.ite
    | (with_reducible refine Sub.trans (Sub.ok ?_) hm); rfl
    | dsimp only
    | split

theorem countMissing_keeps {m : Nat} {b : State} {s : State} (h : Keeps m b s)
    (hm : Sub 67108864 m) : Keeps m b (countMissing s) := by
  unfold countMissing
  repeat' first
    | with_reducible assumption
    | with_reducible apply setTx_keeps
    | (with_reducible refine Sub.trans (Sub.ok ?_) hm); rfl
    | dsimp only
    | split

theorem blankOut_keeps {m : Nat} {b : State} {s : State} (h : Keeps m b s)
    (hm : Sub 67108864 m) : Keeps m b (blankOut s) := by
  unfold blankOut
  repeat' first
    | with_reducible assumption
    | with_reducible apply setTx_keeps
    | (with_reducible refine Sub.trans (Sub.ok ?_) hm); rfl
    | dsimp only
    | split

theorem emitAgain_keeps {m : Nat} {b : State} {s : State} (h : Keeps m b s)
    (hm : Sub 67108928 m) : Keeps m b (emitAgain s) := by
  unfold emitAgain
  repeat' first
    | with_reducible assumption
    | with_reducible apply evTxCause_keeps
    | with_reducible apply setTx_keeps
    | (with_reducible refine Sub.trans (Sub.ok ?_) hm); rfl
    | dsimp only
    | split

theorem execSfnFrame_keeps {m : Nat} {b : State} {a1 : Nat} {a2 : Sid} {s : State} (h : Keeps m b s)
    (hm : Sub 67113026 m) : NextKeeps m b (execSfnFrame a1 a2 s) := by
  unfold execSfnFrame
  repeat' first
    | with_reducible assumption
    | with_reducible apply NextKeeps.next
    | with_reducible apply emitFrame_keeps
    | with_reducible apply ownFrame_keeps
    | with_reducible apply evTxCause_keeps
    | with_reducible apply mayResume_keeps
    | with_reducible apply packetDue_keeps
    | with_reducible apply countMissing_keeps
    | with_reducible apply blankOut_keeps
    | with_reducible apply emitAgain_keeps
    | with_reducible apply advance_keeps
    | with_reducible apply setTx_keeps
    | with_reducible apply NextKeeps.ite
    | with_reducible apply Keeps.ite
    | (with_reducible refine Sub.trans (Sub.ok ?_) hm); rfl
    | dsimp only
    | split

theorem execSfnCoastExpiry_keeps {m : Nat} {b : State} {a1 : Sid} {s : State} (h : Keeps m b s)
    (hm : Sub 67108930 m) : NextKeeps m b (execSfnCoastExpiry a1 s) := by
  unfold execSfnCoastExpiry
  repeat' first
    | with_reducible assumption
    | with_reducible apply NextKeeps.next
    | with_reducible apply muteFrom_keeps
    | with_reducible apply advance_keeps
    | with_reducible apply setTx_keeps
    | with_reducible apply NextKeeps.ite
    | with_reducible apply Keeps.ite
    | (with_reducible refine Sub.trans (Sub.ok ?_) hm); rfl
    | dsimp only
    | split

theorem channelGone_keeps {m : Nat} {b : State} {s : State} (h : Keeps m b s)
    (hm : Sub 847787339116 m) : Keeps m b (channelGone s) := by
  unfold channelGone
  repeat' first
    | with_reducible assumption
    | with_reducible apply txLoop_keeps
    | with_reducible apply evTxCause_keeps
    | with_reducible apply muteReady_keeps
    | with_reducible apply finishOp_keeps
    | with_reducible apply setTx_keeps
    | with_reducible apply Keeps.foldl
    | with_reducible apply Keeps.ite
    | (with_reducible refine Sub.trans (Sub.ok ?_) hm); rfl
    | with_reducible intro _ _ _
    | dsimp only
    | split

theorem execRegTableTakesEffect_keeps {m : Nat} {b : State} {s : State} (h : Keeps m b s)
    (hm : Sub 848055774572 m) : NextKeeps m b (execRegTableTakesEffect s) := by
  unfold execRegTableTakesEffect
  repeat' first
    | with_reducible assumption
    | with_reducible apply NextKeeps.next
    | with_reducible apply relevel_keeps
    | with_reducible apply evTxCause_keeps
    | with_reducible apply closeDuty_keeps
    | with_reducible apply channelGone_keeps
    | with_reducible apply loadShadow_keeps
    | with_reducible apply setTx_keeps
    | with_reducible apply NextKeeps.ite
    | with_reducible apply Keeps.ite
    | (with_reducible refine Sub.trans (Sub.ok ?_) hm); rfl
    | dsimp only
    | split

end Sys2Proof.Machine
end

