-- ==== Sys2Proof/Laws/KeepsFirn.lean ====
section
/-! SUPPORT. Laws/KeepsFirn.lean: what each operation of Machine/Firn.lean keeps. -/

set_option linter.unusedTactic false
set_option linter.unreachableTactic false
set_option linter.unusedVariables false

namespace Sys2Proof.Machine

theorem firnOff_keeps {m : Nat} {b : State} {s : State} (h : Keeps m b s)
    (hm : Sub 549755813888 m) : Keeps m b (firnOff s) := by
  unfold firnOff
  repeat' first
    | with_reducible assumption
    | with_reducible apply setFirn_keeps
    | (with_reducible refine Sub.trans (Sub.ok ?_) hm); rfl
    | dsimp only
    | split

theorem freeze_keeps {m : Nat} {b : State} {s : State} (h : Keeps m b s)
    (hm : Sub 549755813888 m) : Keeps m b (freeze s) := by
  unfold freeze
  repeat' first
    | with_reducible assumption
    | with_reducible apply setFirn_keeps
    | (with_reducible refine Sub.trans (Sub.ok ?_) hm); rfl
    | dsimp only
    | split

theorem evFirn_keeps {m : Nat} {b : State} {s : State} {a1 a2 a3 : Nat} (h : Keeps m b s)
    (hm : Sub 64 m) : Keeps m b (evFirn s a1 a2 a3) := by
  unfold evFirn
  repeat' first
    | with_reducible assumption
    | with_reducible apply raiseAt_keeps
    | (with_reducible refine Sub.trans (Sub.ok ?_) hm); rfl
    | dsimp only
    | split

theorem tapeTrigger_keeps {m : Nat} {b : State} {s : State} {a1 : Nat} {a2 : Sid} (h : Keeps m b s)
    (hm : Sub 549755813888 m) : Keeps m b (tapeTrigger s a1 a2) := by
  unfold tapeTrigger
  repeat' first
    | with_reducible assumption
    | with_reducible apply tape_keeps
    | (with_reducible refine Sub.trans (Sub.ok ?_) hm); rfl
    | dsimp only
    | split

theorem fireFirn_keeps {m : Nat} {b : State} {s : State} {a1 a2 : Nat} {a3 : Sid} (h : Keeps m b s)
    (hm : Sub 549755813952 m) : Keeps m b (fireFirn s a1 a2 a3) := by
  unfold fireFirn
  repeat' first
    | with_reducible assumption
    | with_reducible apply evFirn_keeps
    | with_reducible apply tapeTrigger_keeps
    | with_reducible apply setFirn_keeps
    | (with_reducible refine Sub.trans (Sub.ok ?_) hm); rfl
    | dsimp only
    | split

theorem firnReset_keeps {m : Nat} {b : State} {s : State} (h : Keeps m b s)
    (hm : Sub 549755813888 m) : Keeps m b (firnReset s) := by
  unfold firnReset
  repeat' first
    | with_reducible assumption
    | with_reducible apply firnOff_keeps
    | with_reducible apply freeze_keeps
    | with_reducible apply setFirn_keeps
    | with_reducible apply Keeps.ite
    | (with_reducible refine Sub.trans (Sub.ok ?_) hm); rfl
    | dsimp only
    | split

theorem firnArmUnit_keeps {m : Nat} {b : State} {a1 : Cmd} {s : State} (h : Keeps m b s)
    (hm : Sub 549755813888 m) : Reply.Keeps m b (firnArmUnit a1 s) := by
  unfold firnArmUnit
  repeat' first
    | with_reducible assumption
    | with_reducible apply ok_keeps
    | with_reducible apply okWith_keeps
    | with_reducible apply badState_keeps
    | with_reducible apply badParam_keeps
    | with_reducible apply Reply.keeps_deny
    | with_reducible apply Reply.keeps_done
    | with_reducible apply Reply.keeps_later
    | with_reducible apply Reply.keeps_busy
    | with_reducible apply setFirn_keeps
    | with_reducible apply Reply.Keeps.ite
    | with_reducible apply Keeps.ite
    | (with_reducible refine Sub.trans (Sub.ok ?_) hm); rfl
    | dsimp only
    | split

theorem firnArmSpec_keeps : CmdSpec.Keeps 549755813888 firnArmSpec := by
  intro m b c s h hm
  unfold firnArmSpec
  repeat' first
    | with_reducible assumption
    | with_reducible apply ok_keeps
    | with_reducible apply okWith_keeps
    | with_reducible apply badState_keeps
    | with_reducible apply badParam_keeps
    | with_reducible apply Reply.keeps_deny
    | with_reducible apply Reply.keeps_done
    | with_reducible apply Reply.keeps_later
    | with_reducible apply Reply.keeps_busy
    | with_reducible apply firnArmUnit_keeps
    | (with_reducible refine Sub.trans (Sub.ok ?_) hm); rfl
    | dsimp only
    | split

theorem firnTriggerUnit_keeps {m : Nat} {b : State} {a1 : Cmd} {s : State} (h : Keeps m b s)
    (hm : Sub 549755813952 m) : Reply.Keeps m b (firnTriggerUnit a1 s) := by
  unfold firnTriggerUnit
  repeat' first
    | with_reducible assumption
    | with_reducible apply ok_keeps
    | with_reducible apply okWith_keeps
    | with_reducible apply badState_keeps
    | with_reducible apply badParam_keeps
    | with_reducible apply Reply.keeps_deny
    | with_reducible apply Reply.keeps_done
    | with_reducible apply Reply.keeps_later
    | with_reducible apply Reply.keeps_busy
    | with_reducible apply fireFirn_keeps
    | with_reducible apply Reply.Keeps.ite
    | with_reducible apply Keeps.ite
    | (with_reducible refine Sub.trans (Sub.ok ?_) hm); rfl
    | dsimp only
    | split

theorem firnTriggerSpec_keeps : CmdSpec.Keeps 549755813952 firnTriggerSpec := by
  intro m b c s h hm
  unfold firnTriggerSpec
  repeat' first
    | with_reducible assumption
    | with_reducible apply ok_keeps
    | with_reducible apply okWith_keeps
    | with_reducible apply badState_keeps
    | with_reducible apply badParam_keeps
    | with_reducible apply Reply.keeps_deny
    | with_reducible apply Reply.keeps_done
    | with_reducible apply Reply.keeps_later
    | with_reducible apply Reply.keeps_busy
    | with_reducible apply firnTriggerUnit_keeps
    | (with_reducible refine Sub.trans (Sub.ok ?_) hm); rfl
    | dsimp only
    | split

theorem firnDisarmUnit_keeps {m : Nat} {b : State} {a1 : Cmd} {s : State} (h : Keeps m b s)
    (hm : Sub 847720222060 m) : Reply.Keeps m b (firnDisarmUnit a1 s) := by
  unfold firnDisarmUnit
  repeat' first
    | with_reducible assumption
    | with_reducible apply ok_keeps
    | with_reducible apply okWith_keeps
    | with_reducible apply badState_keeps
    | with_reducible apply badParam_keeps
    | with_reducible apply Reply.keeps_deny
    | with_reducible apply Reply.keeps_done
    | with_reducible apply Reply.keeps_later
    | with_reducible apply Reply.keeps_busy
    | with_reducible apply firnOff_keeps
    | with_reducible apply finishOp_keeps
    | with_reducible apply setFirn_keeps
    | (with_reducible refine Sub.trans (Sub.ok ?_) hm); rfl
    | dsimp only
    | split

theorem firnDisarmSpec_keeps : CmdSpec.Keeps 847720222060 firnDisarmSpec := by
  intro m b c s h hm
  unfold firnDisarmSpec
  repeat' first
    | with_reducible assumption
    | with_reducible apply ok_keeps
    | with_reducible apply okWith_keeps
    | with_reducible apply badState_keeps
    | with_reducible apply badParam_keeps
    | with_reducible apply Reply.keeps_deny
    | with_reducible apply Reply.keeps_done
    | with_reducible apply Reply.keeps_later
    | with_reducible apply Reply.keeps_busy
    | with_reducible apply firnDisarmUnit_keeps
    | (with_reducible refine Sub.trans (Sub.ok ?_) hm); rfl
    | dsimp only
    | split

theorem firnStreamUnit_keeps {m : Nat} {b : State} {a1 : Cmd} {s : State} (h : Keeps m b s)
    (hm : Sub 549755813896 m) : Reply.Keeps m b (firnStreamUnit a1 s) := by
  unfold firnStreamUnit
  repeat' first
    | with_reducible assumption
    | with_reducible apply ok_keeps
    | with_reducible apply okWith_keeps
    | with_reducible apply badState_keeps
    | with_reducible apply badParam_keeps
    | with_reducible apply Reply.keeps_deny
    | with_reducible apply Reply.keeps_done
    | with_reducible apply Reply.keeps_later
    | with_reducible apply Reply.keeps_busy
    | with_reducible apply markRing_keeps
    | exact ringDenied_keeps (by assumption)
    | exact ringDenied_keeps_unless (by assumption)
    | with_reducible apply setFirn_keeps
    | with_reducible apply Reply.Keeps.ite
    | with_reducible apply Keeps.ite
    | (with_reducible refine Sub.trans (Sub.ok ?_) hm); rfl
    | dsimp only
    | split

theorem firnStreamSpec_keeps : CmdSpec.Keeps 549755813896 firnStreamSpec := by
  intro m b c s h hm
  unfold firnStreamSpec
  repeat' first
    | with_reducible assumption
    | with_reducible apply ok_keeps
    | with_reducible apply okWith_keeps
    | with_reducible apply badState_keeps
    | with_reducible apply badParam_keeps
    | with_reducible apply Reply.keeps_deny
    | with_reducible apply Reply.keeps_done
    | with_reducible apply Reply.keeps_later
    | with_reducible apply Reply.keeps_busy
    | with_reducible apply firnStreamUnit_keeps
    | (with_reducible refine Sub.trans (Sub.ok ?_) hm); rfl
    | dsimp only
    | split

theorem firnGetSpec_keeps : CmdSpec.Keeps 0 firnGetSpec := by
  intro m b c s h hm
  unfold firnGetSpec
  repeat' first
    | with_reducible assumption
    | with_reducible apply ok_keeps
    | with_reducible apply okWith_keeps
    | with_reducible apply badState_keeps
    | with_reducible apply badParam_keeps
    | with_reducible apply Reply.keeps_deny
    | with_reducible apply Reply.keeps_done
    | with_reducible apply Reply.keeps_later
    | with_reducible apply Reply.keeps_busy
    | (with_reducible refine Sub.trans (Sub.ok ?_) hm); rfl
    | dsimp only
    | split

theorem putChunk_keeps {m : Nat} {b : State} {s : State} {a1 : Chunk} (h : Keeps m b s)
    (hm : Sub 549755813888 m) : Keeps m b (putChunk s a1) := by
  unfold putChunk
  repeat' first
    | with_reducible assumption
    | with_reducible apply setFirn_keeps
    | with_reducible apply Keeps.ite
    | (with_reducible refine Sub.trans (Sub.ok ?_) hm); rfl
    | dsimp only
    | split

theorem denyChunk_keeps {m : Nat} {b : State} {s : State} {a1 : Chunk} (h : Keeps m b s)
    (hm : Sub 549755813888 m) : Keeps m b (denyChunk s a1) := by
  unfold denyChunk
  repeat' first
    | with_reducible assumption
    | with_reducible apply setFirn_keeps
    | with_reducible apply Keeps.ite
    | (with_reducible refine Sub.trans (Sub.ok ?_) hm); rfl
    | dsimp only
    | split

theorem execFirnChunk_keeps {m : Nat} {b : State} {a1 : BitVec 16} {a2 : Bool} {a3 : Sid} {s : State} (h : Keeps m b s)
    (hm : Sub 549755813890 m) : NextKeeps m b (execFirnChunk a1 a2 a3 s) := by
  unfold execFirnChunk
  repeat' first
    | with_reducible assumption
    | with_reducible apply NextKeeps.next
    | with_reducible apply putChunk_keeps
    | with_reducible apply denyChunk_keeps
    | with_reducible apply advance_keeps
    | with_reducible apply setFirn_keeps
    | with_reducible apply NextKeeps.ite
    | with_reducible apply Keeps.ite
    | (with_reducible refine Sub.trans (Sub.ok ?_) hm); rfl
    | dsimp only
    | split

theorem freshCrcs_keeps {m : Nat} {b : State} {s : State} (h : Keeps m b s)
    (hm : Sub 33554432 m) : Keeps m b (freshCrcs s) := by
  unfold freshCrcs
  repeat' first
    | with_reducible assumption
    | with_reducible apply setLanes_keeps
    | (with_reducible refine Sub.trans (Sub.ok ?_) hm); rfl
    | dsimp only
    | split

theorem execFirnCheckpoint_keeps {m : Nat} {b : State} {s : State} (h : Keeps m b s)
    (hm : Sub 549789368320 m) : NextKeeps m b (execFirnCheckpoint s) := by
  unfold execFirnCheckpoint
  repeat' first
    | with_reducible assumption
    | with_reducible apply NextKeeps.next
    | with_reducible apply freshCrcs_keeps
    | with_reducible apply tape_keeps
    | with_reducible apply Keeps.foldl
    | with_reducible apply NextKeeps.ite
    | with_reducible apply Keeps.ite
    | (with_reducible refine Sub.trans (Sub.ok ?_) hm); rfl
    | with_reducible intro _ _ _
    | dsimp only
    | split

theorem levelTick_keeps {m : Nat} {b : State} {s : State} (h : Keeps m b s)
    (hm : Sub 549755813888 m) : Keeps m b (levelTick s) := by
  unfold levelTick
  repeat' first
    | with_reducible assumption
    | with_reducible apply setFirn_keeps
    | with_reducible apply Keeps.ite
    | (with_reducible refine Sub.trans (Sub.ok ?_) hm); rfl
    | dsimp only
    | split

theorem execFirnTriggerFired_keeps {m : Nat} {b : State} {a1 : Nat} {a2 : Sid} {s : State} (h : Keeps m b s)
    (hm : Sub 549755813954 m) : NextKeeps m b (execFirnTriggerFired a1 a2 s) := by
  unfold execFirnTriggerFired
  repeat' first
    | with_reducible assumption
    | with_reducible apply NextKeeps.next
    | with_reducible apply tapeTrigger_keeps
    | with_reducible apply fireFirn_keeps
    | with_reducible apply advance_keeps
    | with_reducible apply setFirn_keeps
    | (with_reducible refine Sub.trans (Sub.ok ?_) hm); rfl
    | dsimp only
    | split

theorem execFirnFrozen_keeps {m : Nat} {b : State} {a1 : Sid} {s : State} (h : Keeps m b s)
    (hm : Sub 549755813890 m) : NextKeeps m b (execFirnFrozen a1 s) := by
  unfold execFirnFrozen
  repeat' first
    | with_reducible assumption
    | with_reducible apply NextKeeps.next
    | with_reducible apply freeze_keeps
    | with_reducible apply advance_keeps
    | with_reducible apply NextKeeps.ite
    | with_reducible apply Keeps.ite
    | (with_reducible refine Sub.trans (Sub.ok ?_) hm); rfl
    | dsimp only
    | split

theorem freeFirnRing_keeps {m : Nat} {b : State} {s : State} {a1 : Machine.Bind} (h : Keeps m b s)
    (hm : Sub 8 m) : Keeps m b (freeFirnRing s a1) := by
  unfold freeFirnRing
  repeat' first
    | with_reducible assumption
    | with_reducible apply markRing_keeps
    | (with_reducible refine Sub.trans (Sub.ok ?_) hm); rfl
    | dsimp only
    | split

theorem pumpFirn_keeps {m : Nat} {b : State} {a1 a2 : Nat} {s : State} (h : Keeps m b s)
    (hm : Sub 549756864712 m) : Keeps m b (pumpFirn a1 a2 s) := by
  induction a2 generalizing s with
  | zero =>
    unfold pumpFirn
    repeat' first
      | with_reducible assumption
      | with_reducible apply ih
      | with_reducible apply stopStream_keeps
      | with_reducible apply writeBuf_keeps
      | with_reducible apply setFirn_keeps
      | with_reducible apply Keeps.ite
      | (with_reducible refine Sub.trans (Sub.ok ?_) hm); rfl
      | dsimp only
      | split
  | succ k ih =>
    unfold pumpFirn
    repeat' first
      | with_reducible assumption
      | with_reducible apply ih
      | with_reducible apply stopStream_keeps
      | with_reducible apply writeBuf_keeps
      | with_reducible apply setFirn_keeps
      | with_reducible apply Keeps.ite
      | (with_reducible refine Sub.trans (Sub.ok ?_) hm); rfl
      | dsimp only
      | split

theorem streamFirn_keeps {m : Nat} {b : State} {s : State} (h : Keeps m b s)
    (hm : Sub 549756864712 m) : Keeps m b (streamFirn s) := by
  unfold streamFirn
  repeat' first
    | with_reducible assumption
    | with_reducible apply pumpFirn_keeps
    | with_reducible apply Keeps.ite
    | (with_reducible refine Sub.trans (Sub.ok ?_) hm); rfl
    | dsimp only
    | split

theorem execFirnStreamComplete_keeps {m : Nat} {b : State} {a1 : Sid} {s : State} (h : Keeps m b s)
    (hm : Sub 847720222190 m) : NextKeeps m b (execFirnStreamComplete a1 s) := by
  unfold execFirnStreamComplete
  repeat' first
    | with_reducible assumption
    | with_reducible apply NextKeeps.next
    | with_reducible apply freeFirnRing_keeps
    | with_reducible apply streamFirn_keeps
    | with_reducible apply advance_keeps
    | with_reducible apply finishOp_keeps
    | with_reducible apply returnBuf_keeps
    | with_reducible apply NextKeeps.ite
    | with_reducible apply Keeps.ite
    | (with_reducible refine Sub.trans (Sub.ok ?_) hm); rfl
    | dsimp only
    | split

end Sys2Proof.Machine
end

