-- ==== Sys2Proof/Laws/KeepsAurora.lean ====
section
/-! SUPPORT. Laws/KeepsAurora.lean: what each operation of Machine/Aurora.lean keeps. -/

set_option linter.unusedTactic false
set_option linter.unreachableTactic false
set_option linter.unusedVariables false

namespace Sys2Proof.Machine

theorem evPlanOf_keeps {m : Nat} {b : State} {s : State} {a1 : Nat} (h : Keeps m b s)
    (hm : Sub 64 m) : Keeps m b (evPlanOf s a1) := by
  unfold evPlanOf
  repeat' first
    | with_reducible assumption
    | with_reducible apply raise_keeps
    | (with_reducible refine Sub.trans (Sub.ok ?_) hm); rfl
    | dsimp only
    | split

theorem finishRun_keeps {m : Nat} {b : State} {a1 : Bool} {s : State} {a2 a3 a4 a5 a6 : Nat} (h : Keeps m b s)
    (hm : Sub 847720222060 m) : Keeps m b (finishRun a1 s a2 a3 a4 a5 a6) := by
  unfold finishRun
  repeat' first
    | with_reducible assumption
    | with_reducible apply complete_keeps
    | with_reducible apply Keeps.foldl
    | (with_reducible refine Sub.trans (Sub.ok ?_) hm); rfl
    | with_reducible intro _ _ _
    | dsimp only
    | split

theorem tapeRate_keeps {m : Nat} {b : State} {s : State} {a1 a2 a3 : Nat} (h : Keeps m b s)
    (hm : Sub 549755813888 m) : Keeps m b (tapeRate s a1 a2 a3) := by
  unfold tapeRate
  repeat' first
    | with_reducible assumption
    | with_reducible apply tape_keeps
    | with_reducible apply setFirn_keeps
    | with_reducible apply Keeps.ite
    | (with_reducible refine Sub.trans (Sub.ok ?_) hm); rfl
    | dsimp only
    | split

theorem startPlan_keeps {m : Nat} {b : State} {s : State} {a1 : Plan} (h : Keeps m b s)
    (hm : Sub 12582976 m) : Keeps m b (startPlan s a1) := by
  unfold startPlan
  repeat' first
    | with_reducible assumption
    | with_reducible apply evPlanOf_keeps
    | with_reducible apply abandonSpot_keeps
    | with_reducible apply setAur_keeps
    | (with_reducible refine Sub.trans (Sub.ok ?_) hm); rfl
    | dsimp only
    | split

theorem applyPending_keeps {m : Nat} {b : State} {s : State} (h : Keeps m b s)
    (hm : Sub 847732804972 m) : Keeps m b (applyPending s) := by
  unfold applyPending
  repeat' first
    | with_reducible assumption
    | with_reducible apply finishRun_keeps
    | with_reducible apply startPlan_keeps
    | with_reducible apply Keeps.ite
    | (with_reducible refine Sub.trans (Sub.ok ?_) hm); rfl
    | dsimp only
    | split

theorem applyAurora_keeps {m : Nat} {b : State} {s : State} {a1 : Bytes} (h : Keeps m b s)
    (hm : Sub 847732804972 m) : Keeps m b (applyAurora s a1) := by
  unfold applyAurora
  repeat' first
    | with_reducible assumption
    | with_reducible apply applyPending_keeps
    | with_reducible apply setAur_keeps
    | (with_reducible refine Sub.trans (Sub.ok ?_) hm); rfl
    | dsimp only
    | split

theorem planEnds_keeps {m : Nat} {b : State} {s : State} (h : Keeps m b s)
    (hm : Sub 847732804972 m) : Keeps m b (planEnds s) := by
  unfold planEnds
  repeat' first
    | with_reducible assumption
    | with_reducible apply applyPending_keeps
    | with_reducible apply applyAurora_keeps
    | with_reducible apply complete_keeps
    | with_reducible apply setAur_keeps
    | with_reducible apply Keeps.foldl
    | (with_reducible refine Sub.trans (Sub.ok ?_) hm); rfl
    | with_reducible intro _ _ _
    | dsimp only
    | split

theorem auroraSetUnit_keeps {m : Nat} {b : State} {a1 : Cmd} {s : State} (h : Keeps m b s)
    (hm : Sub 847732804972 m) : Reply.Keeps m b (auroraSetUnit a1 s) := by
  unfold auroraSetUnit
  repeat' first
    | with_reducible assumption
    | with_reducible apply ok_keeps
    | with_reducible apply okWith_keeps
    | with_reducible apply badState_keeps
    | with_reducible apply badParam_keeps
    | with_reducible apply Reply.keeps_deny
    | with_reducible apply Reply.keeps_done
    | with_reducible apply Reply.keeps_later
    | with_reducible apply Reply.keeps_busy
    | with_reducible apply applyAurora_keeps
    | with_reducible apply setAur_keeps
    | with_reducible apply Reply.Keeps.ite
    | with_reducible apply Keeps.ite
    | (with_reducible refine Sub.trans (Sub.ok ?_) hm); rfl
    | dsimp only
    | split

theorem auroraSetSpec_keeps : CmdSpec.Keeps 847732804972 auroraSetSpec := by
  intro m b c s h hm
  unfold auroraSetSpec
  repeat' first
    | with_reducible assumption
    | with_reducible apply ok_keeps
    | with_reducible apply okWith_keeps
    | with_reducible apply badState_keeps
    | with_reducible apply badParam_keeps
    | with_reducible apply Reply.keeps_deny
    | with_reducible apply Reply.keeps_done
    | with_reducible apply Reply.keeps_later
    | with_reducible apply Reply.keeps_busy
    | with_reducible apply auroraSetUnit_keeps
    | (with_reducible refine Sub.trans (Sub.ok ?_) hm); rfl
    | dsimp only
    | split

theorem auroraRunUnit_keeps {m : Nat} {b : State} {a1 : Cmd} {s : State} (h : Keeps m b s)
    (hm : Sub 12582976 m) : Reply.Keeps m b (auroraRunUnit a1 s) := by
  unfold auroraRunUnit
  repeat' first
    | with_reducible assumption
    | with_reducible apply ok_keeps
    | with_reducible apply okWith_keeps
    | with_reducible apply badState_keeps
    | with_reducible apply badParam_keeps
    | with_reducible apply Reply.keeps_deny
    | with_reducible apply Reply.keeps_done
    | with_reducible apply Reply.keeps_later
    | with_reducible apply Reply.keeps_busy
    | with_reducible apply startPlan_keeps
    | with_reducible apply setAur_keeps
    | with_reducible apply Reply.Keeps.ite
    | with_reducible apply Keeps.ite
    | (with_reducible refine Sub.trans (Sub.ok ?_) hm); rfl
    | dsimp only
    | split

theorem auroraRunSpec_keeps : CmdSpec.Keeps 12582976 auroraRunSpec := by
  intro m b c s h hm
  unfold auroraRunSpec
  repeat' first
    | with_reducible assumption
    | with_reducible apply ok_keeps
    | with_reducible apply okWith_keeps
    | with_reducible apply badState_keeps
    | with_reducible apply badParam_keeps
    | with_reducible apply Reply.keeps_deny
    | with_reducible apply Reply.keeps_done
    | with_reducible apply Reply.keeps_later
    | with_reducible apply Reply.keeps_busy
    | with_reducible apply auroraRunUnit_keeps
    | (with_reducible refine Sub.trans (Sub.ok ?_) hm); rfl
    | dsimp only
    | split

theorem auroraGetSpec_keeps : CmdSpec.Keeps 0 auroraGetSpec := by
  intro m b c s h hm
  unfold auroraGetSpec
  repeat' first
    | with_reducible assumption
    | with_reducible apply ok_keeps
    | with_reducible apply okWith_keeps
    | with_reducible apply badState_keeps
    | with_reducible apply badParam_keeps
    | with_reducible apply Reply.keeps_deny
    | with_reducible apply Reply.keeps_done
    | with_reducible apply Reply.keeps_later
    | with_reducible apply Reply.keeps_busy
    | (with_reducible refine Sub.trans (Sub.ok ?_) hm); rfl
    | dsimp only
    | split

theorem execAuroraScan_keeps {m : Nat} {b : State} {a1 : List (List (List (Nat × Nat)))} {s : State} (h : Keeps m b s)
    (hm : Sub 8388608 m) : NextKeeps m b (execAuroraScan a1 s) := by
  unfold execAuroraScan
  repeat' first
    | with_reducible assumption
    | with_reducible apply NextKeeps.next
    | with_reducible apply setAur_keeps
    | with_reducible apply NextKeeps.ite
    | with_reducible apply Keeps.ite
    | (with_reducible refine Sub.trans (Sub.ok ?_) hm); rfl
    | dsimp only
    | split

theorem execSpotCalStart_keeps {m : Nat} {b : State} {a1 : Nat} {a2 : Int} {s : State} (h : Keeps m b s)
    (hm : Sub 4194304 m) : NextKeeps m b (execSpotCalStart a1 a2 s) := by
  unfold execSpotCalStart
  repeat' first
    | with_reducible assumption
    | with_reducible apply NextKeeps.next
    | with_reducible apply putAnt_keeps
    | with_reducible apply NextKeeps.ite
    | with_reducible apply Keeps.ite
    | (with_reducible refine Sub.trans (Sub.ok ?_) hm); rfl
    | dsimp only
    | split

theorem execSpotCalComplete_keeps {m : Nat} {b : State} {a1 : Nat} {a2 : List ToneLevel} {a3 : Int} {a4 : Sid} {s : State} (h : Keeps m b s)
    (hm : Sub 549762105410 m) : NextKeeps m b (execSpotCalComplete a1 a2 a3 a4 s) := by
  unfold execSpotCalComplete
  repeat' first
    | with_reducible assumption
    | with_reducible apply NextKeeps.next
    | with_reducible apply advance_keeps
    | with_reducible apply calDone_keeps
    | with_reducible apply NextKeeps.ite
    | with_reducible apply Keeps.ite
    | (with_reducible refine Sub.trans (Sub.ok ?_) hm); rfl
    | dsimp only
    | split

theorem adopt_keeps {m : Nat} {b : State} {s : State} {a1 : Plan} {a2 : Nat} (h : Keeps m b s)
    (hm : Sub 847732804972 m) : Keeps m b (adopt s a1 a2) := by
  unfold adopt
  repeat' first
    | with_reducible assumption
    | with_reducible apply evPlanOf_keeps
    | with_reducible apply finishRun_keeps
    | with_reducible apply applyPending_keeps
    | with_reducible apply setAur_keeps
    | with_reducible apply Keeps.ite
    | (with_reducible refine Sub.trans (Sub.ok ?_) hm); rfl
    | dsimp only
    | split

theorem execAuroraEvaluation_keeps {m : Nat} {b : State} {s : State} (h : Keeps m b s)
    (hm : Sub 847734902124 m) : NextKeeps m b (execAuroraEvaluation s) := by
  unfold execAuroraEvaluation
  repeat' first
    | with_reducible assumption
    | with_reducible apply NextKeeps.next
    | with_reducible apply finishRun_keeps
    | with_reducible apply adopt_keeps
    | with_reducible apply freeValue_keeps
    | with_reducible apply setAur_keeps
    | with_reducible (refine Keeps.snd ?_ (by assumption))
    | with_reducible apply NextKeeps.ite
    | with_reducible apply Keeps.ite
    | (with_reducible refine Sub.trans (Sub.ok ?_) hm); rfl
    | dsimp only
    | split

theorem stepRate_keeps {m : Nat} {b : State} {s : State} {a1 a2 : Nat} (h : Keeps m b s)
    (hm : Sub 549760016384 m) : Keeps m b (stepRate s a1 a2) := by
  unfold stepRate
  repeat' first
    | with_reducible assumption
    | with_reducible apply tapeRate_keeps
    | with_reducible apply tapeWords_keeps
    | with_reducible apply latchNow_keeps
    | with_reducible apply setClk_keeps
    | (with_reducible refine Sub.trans (Sub.ok ?_) hm); rfl
    | dsimp only
    | split

theorem execSlewStep_keeps {m : Nat} {b : State} {a1 : Nat} {a2 : Sid} {s : State} (h : Keeps m b s)
    (hm : Sub 549768404994 m) : NextKeeps m b (execSlewStep a1 a2 s) := by
  unfold execSlewStep
  repeat' first
    | with_reducible assumption
    | with_reducible apply NextKeeps.next
    | with_reducible apply stepRate_keeps
    | with_reducible apply advance_keeps
    | with_reducible apply setAur_keeps
    | with_reducible apply NextKeeps.ite
    | with_reducible apply Keeps.ite
    | (with_reducible refine Sub.trans (Sub.ok ?_) hm); rfl
    | dsimp only
    | split

theorem execSlewComplete_keeps {m : Nat} {b : State} {a1 : Sid} {s : State} (h : Keeps m b s)
    (hm : Sub 847732804974 m) : NextKeeps m b (execSlewComplete a1 s) := by
  unfold execSlewComplete
  repeat' first
    | with_reducible assumption
    | with_reducible apply NextKeeps.next
    | with_reducible apply evPlanOf_keeps
    | with_reducible apply planEnds_keeps
    | with_reducible apply advance_keeps
    | with_reducible apply setAur_keeps
    | with_reducible apply NextKeeps.ite
    | with_reducible apply Keeps.ite
    | (with_reducible refine Sub.trans (Sub.ok ?_) hm); rfl
    | dsimp only
    | split

theorem execRelockStart_keeps {m : Nat} {b : State} {a1 : Sid} {s : State} (h : Keeps m b s)
    (hm : Sub 555188496586 m) : NextKeeps m b (execRelockStart a1 s) := by
  unfold execRelockStart
  repeat' first
    | with_reducible assumption
    | with_reducible apply NextKeeps.next
    | with_reducible apply evPlanOf_keeps
    | with_reducible apply lockAttempt_keeps
    | with_reducible apply pauseAll_keeps
    | with_reducible apply advance_keeps
    | with_reducible apply abandonSpot_keeps
    | with_reducible apply setClk_keeps
    | with_reducible apply setAur_keeps
    | with_reducible apply NextKeeps.ite
    | with_reducible apply Keeps.ite
    | (with_reducible refine Sub.trans (Sub.ok ?_) hm); rfl
    | dsimp only
    | split

theorem execRelockComplete_keeps {m : Nat} {b : State} {a1 : Sid} {s : State} (h : Keeps m b s)
    (hm : Sub 856373079534 m) : NextKeeps m b (execRelockComplete a1 s) := by
  unfold execRelockComplete
  repeat' first
    | with_reducible assumption
    | with_reducible apply NextKeeps.next
    | with_reducible apply evPlanOf_keeps
    | with_reducible apply finishRun_keeps
    | with_reducible apply tapeRate_keeps
    | with_reducible apply planEnds_keeps
    | with_reducible apply tapeWords_keeps
    | with_reducible apply resumeAll_keeps
    | with_reducible apply advance_keeps
    | with_reducible apply setAur_keeps
    | with_reducible apply setClk_keeps
    | with_reducible apply NextKeeps.ite
    | with_reducible apply Keeps.ite
    | (with_reducible refine Sub.trans (Sub.ok ?_) hm); rfl
    | dsimp only
    | split

end Sys2Proof.Machine
end

