-- ==== Sys2Proof/Laws/KeepsReplay.lean ====
section
/-! SUPPORT. Laws/KeepsReplay.lean: what each operation of Machine/Replay.lean keeps. -/

set_option linter.unusedTactic false
set_option linter.unreachableTactic false
set_option linter.unusedVariables false

namespace Sys2Proof.Machine

theorem firnLoadUnit_keeps {m : Nat} {b : State} {a1 : Cmd} {s : State} (h : Keeps m b s)
    (hm : Sub 549755813896 m) : Reply.Keeps m b (firnLoadUnit a1 s) := by
  unfold firnLoadUnit
  repeat' first
    | with_reducible assumption
    | with_reducible apply ok_keeps
    | with_reducible apply okWith_keeps
    | with_reducible apply badState_keeps
    | with_reducible apply badParam_keeps
    | with_reducible apply Reply.keeps_deny
    | with_reducible apply Reply.keeps_done
    | with_reducible apply Reply.keeps_later
    | with_reducible apply Reply.keeps_busy
    | with_reducible apply markRing_keeps
    | exact ringDenied_keeps (by assumption)
    | exact ringDenied_keeps_unless (by assumption)
    | with_reducible apply setFirn_keeps
    | with_reducible apply Reply.Keeps.ite
    | with_reducible apply Keeps.ite
    | (with_reducible refine Sub.trans (Sub.ok ?_) hm); rfl
    | dsimp only
    | split

theorem firnLoadSpec_keeps : CmdSpec.Keeps 549755813896 firnLoadSpec := by
  intro m b c s h hm
  unfold firnLoadSpec
  repeat' first
    | with_reducible assumption
    | with_reducible apply ok_keeps
    | with_reducible apply okWith_keeps
    | with_reducible apply badState_keeps
    | with_reducible apply badParam_keeps
    | with_reducible apply Reply.keeps_deny
    | with_reducible apply Reply.keeps_done
    | with_reducible apply Reply.keeps_later
    | with_reducible apply Reply.keeps_busy
    | with_reducible apply firnLoadUnit_keeps
    | (with_reducible refine Sub.trans (Sub.ok ?_) hm); rfl
    | dsimp only
    | split

theorem loadFirn_keeps {m : Nat} {b : State} {s : State} {a1 : Bytes} (h : Keeps m b s)
    (hm : Sub 549755813888 m) : Keeps m b (loadFirn s a1) := by
  unfold loadFirn
  repeat' first
    | with_reducible assumption
    | with_reducible apply setFirn_keeps
    | (with_reducible refine Sub.trans (Sub.ok ?_) hm); rfl
    | dsimp only
    | split

theorem execFirnLoadComplete_keeps {m : Nat} {b : State} {a1 : Sid} {s : State} (h : Keeps m b s)
    (hm : Sub 847720222062 m) : NextKeeps m b (execFirnLoadComplete a1 s) := by
  unfold execFirnLoadComplete
  repeat' first
    | with_reducible assumption
    | with_reducible apply NextKeeps.next
    | with_reducible apply markRing_keeps
    | with_reducible apply advance_keeps
    | with_reducible apply putRing_keeps
    | with_reducible apply finishOp_keeps
    | with_reducible apply loadFirn_keeps
    | with_reducible apply setFirn_keeps
    | with_reducible apply NextKeeps.ite
    | with_reducible apply Keeps.ite
    | (with_reducible refine Sub.trans (Sub.ok ?_) hm); rfl
    | dsimp only
    | split

theorem firnReplayUnit_keeps {m : Nat} {b : State} {a1 : Cmd} {s : State} (h : Keeps m b s)
    (hm : Sub 549764202496 m) : Reply.Keeps m b (firnReplayUnit a1 s) := by
  unfold firnReplayUnit
  repeat' first
    | with_reducible assumption
    | with_reducible apply ok_keeps
    | with_reducible apply okWith_keeps
    | with_reducible apply badState_keeps
    | with_reducible apply badParam_keeps
    | with_reducible apply Reply.keeps_deny
    | with_reducible apply Reply.keeps_done
    | with_reducible apply Reply.keeps_later
    | with_reducible apply Reply.keeps_busy
    | with_reducible apply setAur_keeps
    | with_reducible apply setFirn_keeps
    | with_reducible apply Keeps.foldl
    | with_reducible apply Reply.Keeps.ite
    | with_reducible apply Keeps.ite
    | (with_reducible refine Sub.trans (Sub.ok ?_) hm); rfl
    | with_reducible intro _ _ _
    | dsimp only
    | split

theorem firnReplaySpec_keeps : CmdSpec.Keeps 549764202496 firnReplaySpec := by
  intro m b c s h hm
  unfold firnReplaySpec
  repeat' first
    | with_reducible assumption
    | with_reducible apply ok_keeps
    | with_reducible apply okWith_keeps
    | with_reducible apply badState_keeps
    | with_reducible apply badParam_keeps
    | with_reducible apply Reply.keeps_deny
    | with_reducible apply Reply.keeps_done
    | with_reducible apply Reply.keeps_later
    | with_reducible apply Reply.keeps_busy
    | with_reducible apply firnReplayUnit_keeps
    | (with_reducible refine Sub.trans (Sub.ok ?_) hm); rfl
    | dsimp only
    | split

theorem restoreSetting_keeps {m : Nat} {b : State} {s : State} {a1 : Nat × Nat × Bytes} (h : Keeps m b s)
    (hm : Sub 540666757120 m) : Keeps m b (restoreSetting s a1) := by
  unfold restoreSetting
  repeat' first
    | with_reducible assumption
    | with_reducible apply putAnt_keeps
    | with_reducible apply putLane_keeps
    | with_reducible apply putDemod_keeps
    | with_reducible apply putOfdm_keeps
    | with_reducible apply putSurvey_keeps
    | with_reducible apply putAf_keeps
    | with_reducible apply putPath_keeps
    | with_reducible apply putSap_keeps
    | with_reducible apply setGroups_keeps
    | with_reducible apply setLinks_keeps
    | with_reducible apply setFlurry_keeps
    | with_reducible apply Keeps.ite
    | (with_reducible refine Sub.trans (Sub.ok ?_) hm); rfl
    | dsimp only
    | split

theorem restoreUnit_keeps {m : Nat} {b : State} {s : State} {a1 : Nat × Bytes} (h : Keeps m b s)
    (hm : Sub 1124073472 m) : Keeps m b (restoreUnit s a1) := by
  unfold restoreUnit
  repeat' first
    | with_reducible assumption
    | with_reducible apply putZone_keeps
    | with_reducible apply putLane_keeps
    | with_reducible apply putTap_keeps
    | with_reducible apply Keeps.ite
    | (with_reducible refine Sub.trans (Sub.ok ?_) hm); rfl
    | dsimp only
    | split

theorem beginReplay_keeps {m : Nat} {b : State} {s : State} {a1 : TapeEntry} (h : Keeps m b s)
    (hm : Sub 1090439348224 m) : Keeps m b (beginReplay s a1) := by
  unfold beginReplay
  repeat' first
    | with_reducible assumption
    | with_reducible apply restoreSetting_keeps
    | with_reducible apply restoreUnit_keeps
    | with_reducible apply putLane_keeps
    | with_reducible apply setFirn_keeps
    | with_reducible apply Keeps.foldl
    | with_reducible apply Keeps.foldl_fst
    | with_reducible apply Keeps.foldl_snd
    | (with_reducible refine Sub.trans (Sub.ok ?_) hm); rfl
    | with_reducible intro _ _ _
    | dsimp only
    | split

theorem takeChunk_keeps {m : Nat} {b : State} {s : State} {a1 : Chunk} (h : Keeps m b s)
    (hm : Sub 619012161536 m) : Keeps m b (takeChunk s a1) := by
  unfold takeChunk
  repeat' first
    | with_reducible assumption
    | with_reducible apply demodFeed_keeps
    | with_reducible apply setFirn_keeps
    | (with_reducible refine Sub.trans (Sub.ok ?_) hm); rfl
    | dsimp only
    | split

theorem feedRecord_keeps {m : Nat} {b : State} {s : State} {a1 : Sid} (h : Keeps m b s)
    (hm : Sub 620119457792 m) : Keeps m b (feedRecord s a1) := by
  unfold feedRecord
  repeat' first
    | with_reducible assumption
    | with_reducible apply tapTakes_keeps
    | with_reducible apply laneTakes_keeps
    | with_reducible apply takeChunk_keeps
    | with_reducible apply setFirn_keeps
    | with_reducible apply Keeps.foldl
    | with_reducible apply Keeps.foldl_fst
    | with_reducible apply Keeps.foldl_snd
    | with_reducible apply Keeps.ite
    | (with_reducible refine Sub.trans (Sub.ok ?_) hm); rfl
    | with_reducible intro _ _ _
    | dsimp only
    | split

theorem reissue_keeps {m : Nat} {b : State} {a1 : Cmd → Option CmdSpec} {s : State} {a2 : TapeEntry} (hl : ∀ c, SpecOk packetSet (a1 c)) (h : Keeps m b s)
    (hm : Sub 1099377278462 m) : Keeps m b (reissue a1 s a2) := by
  unfold reissue
  repeat' first
    | with_reducible assumption
    | with_reducible apply enter_keeps
    | with_reducible apply take_keeps (SpecOk.some ((hl _).of (by assumption)))
    | with_reducible apply take_keeps SpecOk.none
    | with_reducible apply take_keeps (hl _)
    | with_reducible (apply release_keeps ((hl _).of (by assumption)))
    | with_reducible (refine Keeps.snd ?_ (by assumption))
    | with_reducible apply Keeps.ite
    | (with_reducible refine Sub.trans (Sub.ok ?_) hm); rfl
    | dsimp only
    | split

theorem meetCheckpoint_keeps {m : Nat} {b : State} {s : State} {a1 : TapeEntry} (h : Keeps m b s)
    (hm : Sub 550879887360 m) : Keeps m b (meetCheckpoint s a1) := by
  unfold meetCheckpoint
  repeat' first
    | with_reducible assumption
    | with_reducible apply freshCrcs_keeps
    | with_reducible apply restoreUnit_keeps
    | with_reducible apply setFirn_keeps
    | with_reducible apply Keeps.foldl
    | with_reducible apply Keeps.foldl_fst
    | with_reducible apply Keeps.foldl_snd
    | with_reducible apply Keeps.ite
    | (with_reducible refine Sub.trans (Sub.ok ?_) hm); rfl
    | with_reducible intro _ _ _
    | dsimp only
    | split

theorem applyRecorded_keeps {m : Nat} {b : State} {a1 : Cmd → Option CmdSpec} {s : State} {a2 : Nat} (hl : ∀ c, SpecOk packetSet (a1 c)) (h : Keeps m b s)
    (hm : Sub 1099377278462 m) : Keeps m b (applyRecorded a1 s a2) := by
  unfold applyRecorded
  repeat' first
    | with_reducible assumption
    | with_reducible apply OptKeeps.getD
    | with_reducible apply applyNext_keeps
    | with_reducible (refine OptKeeps.get (t := _) ?_ (by assumption))
    | with_reducible (apply launch_keeps ((hl _).of (by assumption)))
    | (with_reducible refine Sub.trans (Sub.ok ?_) hm); rfl
    | dsimp only
    | split

theorem meetEntry_keeps {m : Nat} {b : State} {a1 : Cmd → Option CmdSpec} {s : State} {a2 : TapeEntry} (hl : ∀ c, SpecOk packetSet (a1 c)) (h : Keeps m b s)
    (hm : Sub 1099377278462 m) : Keeps m b (meetEntry a1 s a2) := by
  unfold meetEntry
  repeat' first
    | with_reducible assumption
    | with_reducible apply tapeWords_keeps
    | with_reducible apply feedRecord_keeps
    | with_reducible apply reissue_keeps
    | exact hl
    | with_reducible apply meetCheckpoint_keeps
    | with_reducible apply applyRecorded_keeps
    | with_reducible apply setFirn_keeps
    | with_reducible apply setClk_keeps
    | with_reducible apply Keeps.ite
    | (with_reducible refine Sub.trans (Sub.ok ?_) hm); rfl
    | dsimp only
    | split

theorem meetTape_keeps {m : Nat} {b : State} {a1 : Cmd → Option CmdSpec} {a2 : Sid} {a3 : List TapeEntry} {s : State} (hl : ∀ c, SpecOk packetSet (a1 c)) (h : Keeps m b s)
    (hm : Sub 1099377278462 m) : Keeps m b (meetTape a1 a2 a3 s) := by
  induction a3 generalizing s with
  | nil =>
    unfold meetTape
    repeat' first
      | with_reducible assumption
      | with_reducible apply ih
      | with_reducible apply meetEntry_keeps
      | exact hl
      | with_reducible apply setFirn_keeps
      | with_reducible apply setSid_keeps
      | with_reducible apply Keeps.ite
      | (with_reducible refine Sub.trans (Sub.ok ?_) hm); rfl
      | dsimp only
      | split
  | cons x xs ih =>
    unfold meetTape
    repeat' first
      | with_reducible assumption
      | with_reducible apply ih
      | with_reducible apply meetEntry_keeps
      | exact hl
      | with_reducible apply setFirn_keeps
      | with_reducible apply setSid_keeps
      | with_reducible apply Keeps.ite
      | (with_reducible refine Sub.trans (Sub.ok ?_) hm); rfl
      | dsimp only
      | split

theorem replayTick_keeps {m : Nat} {b : State} {a1 : Cmd → Option CmdSpec} {s : State} (hl : ∀ c, SpecOk packetSet (a1 c)) (h : Keeps m b s)
    (hm : Sub 1099377278462 m) : Keeps m b (replayTick a1 s) := by
  unfold replayTick
  repeat' first
    | with_reducible assumption
    | with_reducible apply beginReplay_keeps
    | with_reducible apply feedRecord_keeps
    | with_reducible apply meetTape_keeps
    | exact hl
    | with_reducible apply onRecord_keeps
    | with_reducible apply offScale_keeps
    | with_reducible apply setSid_keeps
    | with_reducible apply Keeps.ite
    | (with_reducible refine Sub.trans (Sub.ok ?_) hm); rfl
    | dsimp only
    | split

theorem endReplay_keeps {m : Nat} {b : State} {s : State} (h : Keeps m b s)
    (hm : Sub 858516360684 m) : Keeps m b (endReplay s) := by
  unfold endReplay
  repeat' first
    | with_reducible assumption
    | with_reducible apply dropLaneCmds_keeps
    | with_reducible apply stopLane_keeps
    | with_reducible apply releaseLane_keeps
    | with_reducible apply disableZones_keeps
    | with_reducible apply setFirn_keeps
    | with_reducible apply Keeps.foldl
    | with_reducible apply Keeps.ite
    | (with_reducible refine Sub.trans (Sub.ok ?_) hm); rfl
    | with_reducible intro _ _ _
    | dsimp only
    | split

theorem execReplayCheckpoint_keeps {m : Nat} {b : State} {a1 : Sid} {s : State} (h : Keeps m b s)
    (hm : Sub 620136235010 m) : NextKeeps m b (execReplayCheckpoint a1 s) := by
  unfold execReplayCheckpoint
  repeat' first
    | with_reducible assumption
    | with_reducible apply NextKeeps.next
    | with_reducible apply advance_keeps
    | with_reducible apply feedRecord_keeps
    | with_reducible apply meetCheckpoint_keeps
    | with_reducible apply onRecord_keeps
    | with_reducible apply offScale_keeps
    | with_reducible apply setFirn_keeps
    | with_reducible apply NextKeeps.ite
    | with_reducible apply Keeps.ite
    | (with_reducible refine Sub.trans (Sub.ok ?_) hm); rfl
    | dsimp only
    | split

theorem execReplayEnd_keeps {m : Nat} {b : State} {a1 : Sid} {s : State} (h : Keeps m b s)
    (hm : Sub 858516360686 m) : NextKeeps m b (execReplayEnd a1 s) := by
  unfold execReplayEnd
  repeat' first
    | with_reducible assumption
    | with_reducible apply NextKeeps.next
    | with_reducible apply advance_keeps
    | with_reducible apply finishOp_keeps
    | with_reducible apply endReplay_keeps
    | with_reducible apply NextKeeps.ite
    | with_reducible apply Keeps.ite
    | (with_reducible refine Sub.trans (Sub.ok ?_) hm); rfl
    | dsimp only
    | split

end Sys2Proof.Machine
end

