-- ==== Sys2Proof/Laws/KeepsEth.lean ====
section
/-! SUPPORT. Laws/KeepsEth.lean: what each operation of Machine/Eth.lean keeps. -/

set_option linter.unusedTactic false
set_option linter.unreachableTactic false
set_option linter.unusedVariables false

namespace Sys2Proof.Machine

theorem putStream_keeps {m : Nat} {b : State} {s : State} {a1 : Nat} {a2 : UdpStream} (h : Keeps m b s)
    (hm : Sub 4096 m) : Keeps m b (putStream s a1 a2) := by
  unfold putStream
  repeat' first
    | with_reducible assumption
    | with_reducible apply setEth_keeps
    | (with_reducible refine Sub.trans (Sub.ok ?_) hm); rfl
    | dsimp only
    | split

theorem sent_keeps {m : Nat} {b : State} {s : State} {a1 : Nat} (h : Keeps m b s)
    (hm : Sub 4096 m) : Keeps m b (sent s a1) := by
  unfold sent
  repeat' first
    | with_reducible assumption
    | with_reducible apply setEth_keeps
    | (with_reducible refine Sub.trans (Sub.ok ?_) hm); rfl
    | dsimp only
    | split

theorem received_keeps {m : Nat} {b : State} {s : State} {a1 : Nat} (h : Keeps m b s)
    (hm : Sub 4096 m) : Keeps m b (received s a1) := by
  unfold received
  repeat' first
    | with_reducible assumption
    | with_reducible apply setEth_keeps
    | (with_reducible refine Sub.trans (Sub.ok ?_) hm); rfl
    | dsimp only
    | split

theorem streamsStart_keeps {m : Nat} {b : State} {s : State} (h : Keeps m b s)
    (hm : Sub 847720222060 m) : Keeps m b (streamsStart s) := by
  unfold streamsStart
  repeat' first
    | with_reducible assumption
    | with_reducible apply complete_keeps
    | with_reducible apply Keeps.foldl
    | (with_reducible refine Sub.trans (Sub.ok ?_) hm); rfl
    | with_reducible intro _ _ _
    | dsimp only
    | split

theorem ethSetUnit_keeps {m : Nat} {b : State} {a1 : Cmd} {s : State} (h : Keeps m b s)
    (hm : Sub 847720226156 m) : Reply.Keeps m b (ethSetUnit a1 s) := by
  unfold ethSetUnit
  repeat' first
    | with_reducible assumption
    | with_reducible apply ok_keeps
    | with_reducible apply okWith_keeps
    | with_reducible apply badState_keeps
    | with_reducible apply badParam_keeps
    | with_reducible apply Reply.keeps_deny
    | with_reducible apply Reply.keeps_done
    | with_reducible apply Reply.keeps_later
    | with_reducible apply Reply.keeps_busy
    | with_reducible apply streamsStart_keeps
    | with_reducible apply setEth_keeps
    | (with_reducible refine Sub.trans (Sub.ok ?_) hm); rfl
    | dsimp only
    | split

theorem ethSetSpec_keeps : CmdSpec.Keeps 847720226156 ethSetSpec := by
  intro m b c s h hm
  unfold ethSetSpec
  repeat' first
    | with_reducible assumption
    | with_reducible apply ok_keeps
    | with_reducible apply okWith_keeps
    | with_reducible apply badState_keeps
    | with_reducible apply badParam_keeps
    | with_reducible apply Reply.keeps_deny
    | with_reducible apply Reply.keeps_done
    | with_reducible apply Reply.keeps_later
    | with_reducible apply Reply.keeps_busy
    | with_reducible apply ethSetUnit_keeps
    | (with_reducible refine Sub.trans (Sub.ok ?_) hm); rfl
    | dsimp only
    | split

theorem udpStreamUnit_keeps {m : Nat} {b : State} {a1 : Cmd} {s : State} (h : Keeps m b s)
    (hm : Sub 4096 m) : Reply.Keeps m b (udpStreamUnit a1 s) := by
  unfold udpStreamUnit
  repeat' first
    | with_reducible assumption
    | with_reducible apply ok_keeps
    | with_reducible apply okWith_keeps
    | with_reducible apply badState_keeps
    | with_reducible apply badParam_keeps
    | with_reducible apply Reply.keeps_deny
    | with_reducible apply Reply.keeps_done
    | with_reducible apply Reply.keeps_later
    | with_reducible apply Reply.keeps_busy
    | with_reducible apply putStream_keeps
    | with_reducible apply setEth_keeps
    | with_reducible apply Reply.Keeps.ite
    | with_reducible apply Keeps.ite
    | (with_reducible refine Sub.trans (Sub.ok ?_) hm); rfl
    | dsimp only
    | split

theorem udpStreamSetSpec_keeps : CmdSpec.Keeps 4096 udpStreamSetSpec := by
  intro m b c s h hm
  unfold udpStreamSetSpec
  repeat' first
    | with_reducible assumption
    | with_reducible apply ok_keeps
    | with_reducible apply okWith_keeps
    | with_reducible apply badState_keeps
    | with_reducible apply badParam_keeps
    | with_reducible apply Reply.keeps_deny
    | with_reducible apply Reply.keeps_done
    | with_reducible apply Reply.keeps_later
    | with_reducible apply Reply.keeps_busy
    | with_reducible apply udpStreamUnit_keeps
    | with_reducible apply Reply.Keeps.ite
    | with_reducible apply Keeps.ite
    | (with_reducible refine Sub.trans (Sub.ok ?_) hm); rfl
    | dsimp only
    | split

theorem ethGetSpec_keeps : CmdSpec.Keeps 0 ethGetSpec := by
  intro m b c s h hm
  unfold ethGetSpec
  repeat' first
    | with_reducible assumption
    | with_reducible apply ok_keeps
    | with_reducible apply okWith_keeps
    | with_reducible apply badState_keeps
    | with_reducible apply badParam_keeps
    | with_reducible apply Reply.keeps_deny
    | with_reducible apply Reply.keeps_done
    | with_reducible apply Reply.keeps_later
    | with_reducible apply Reply.keeps_busy
    | (with_reducible refine Sub.trans (Sub.ok ?_) hm); rfl
    | dsimp only
    | split

theorem pcieGetSpec_keeps : CmdSpec.Keeps 0 pcieGetSpec := by
  intro m b c s h hm
  unfold pcieGetSpec
  repeat' first
    | with_reducible assumption
    | with_reducible apply ok_keeps
    | with_reducible apply okWith_keeps
    | with_reducible apply badState_keeps
    | with_reducible apply badParam_keeps
    | with_reducible apply Reply.keeps_deny
    | with_reducible apply Reply.keeps_done
    | with_reducible apply Reply.keeps_later
    | with_reducible apply Reply.keeps_busy
    | (with_reducible refine Sub.trans (Sub.ok ?_) hm); rfl
    | dsimp only
    | split

theorem linkTo_keeps {m : Nat} {b : State} {s : State} {a1 a2 : Bool} (h : Keeps m b s)
    (hm : Sub 4160 m) : Keeps m b (linkTo s a1 a2) := by
  unfold linkTo
  repeat' first
    | with_reducible assumption
    | with_reducible apply raise_keeps
    | with_reducible apply setEth_keeps
    | with_reducible apply Keeps.ite
    | (with_reducible refine Sub.trans (Sub.ok ?_) hm); rfl
    | dsimp only
    | split

theorem execSgmiiLinkChange_keeps {m : Nat} {b : State} {a1 a2 : Bool} {a3 : Sid} {s : State} (h : Keeps m b s)
    (hm : Sub 847720226158 m) : NextKeeps m b (execSgmiiLinkChange a1 a2 a3 s) := by
  unfold execSgmiiLinkChange
  repeat' first
    | with_reducible assumption
    | with_reducible apply NextKeeps.next
    | with_reducible apply streamsStart_keeps
    | with_reducible apply linkTo_keeps
    | with_reducible apply advance_keeps
    | with_reducible apply setEth_keeps
    | with_reducible apply NextKeeps.ite
    | with_reducible apply Keeps.ite
    | (with_reducible refine Sub.trans (Sub.ok ?_) hm); rfl
    | dsimp only
    | split

theorem execArpIcmpRequest_keeps {m : Nat} {b : State} {a1 : Bool} {s : State} (h : Keeps m b s)
    (hm : Sub 4096 m) : NextKeeps m b (execArpIcmpRequest a1 s) := by
  unfold execArpIcmpRequest
  repeat' first
    | with_reducible assumption
    | with_reducible apply NextKeeps.next
    | with_reducible apply sent_keeps
    | with_reducible apply received_keeps
    | with_reducible apply NextKeeps.ite
    | with_reducible apply Keeps.ite
    | (with_reducible refine Sub.trans (Sub.ok ?_) hm); rfl
    | dsimp only
    | split

theorem audioIn_keeps {m : Nat} {b : State} {s : State} {a1 : Nat} {a2 : UdpStream} {a3 : Bytes} (h : Keeps m b s)
    (hm : Sub 4096 m) : Keeps m b (audioIn s a1 a2 a3) := by
  unfold audioIn
  repeat' first
    | with_reducible assumption
    | with_reducible apply putStream_keeps
    | with_reducible apply setEth_keeps
    | with_reducible apply Keeps.ite
    | (with_reducible refine Sub.trans (Sub.ok ?_) hm); rfl
    | dsimp only
    | split

theorem sfnIn_keeps {m : Nat} {b : State} {s : State} {a1 : Nat} {a2 : UdpStream} {a3 : Bytes} (h : Keeps m b s)
    (hm : Sub 4096 m) : Keeps m b (sfnIn s a1 a2 a3) := by
  unfold sfnIn
  repeat' first
    | with_reducible assumption
    | with_reducible apply putStream_keeps
    | with_reducible apply Keeps.ite
    | (with_reducible refine Sub.trans (Sub.ok ?_) hm); rfl
    | dsimp only
    | split

theorem streamTakes_keeps {m : Nat} {b : State} {s : State} {a1 : Nat} {a2 : Bytes} (h : Keeps m b s)
    (hm : Sub 4096 m) : Keeps m b (streamTakes s a1 a2) := by
  unfold streamTakes
  repeat' first
    | with_reducible assumption
    | with_reducible apply audioIn_keeps
    | with_reducible apply sfnIn_keeps
    | with_reducible apply Keeps.ite
    | (with_reducible refine Sub.trans (Sub.ok ?_) hm); rfl
    | dsimp only
    | split

theorem discard_keeps {m : Nat} {b : State} {s : State} {a1 : Reasm} (h : Keeps m b s)
    (hm : Sub 4096 m) : Keeps m b (discard s a1) := by
  unfold discard
  repeat' first
    | with_reducible assumption
    | with_reducible apply putStream_keeps
    | with_reducible apply setEth_keeps
    | with_reducible apply Keeps.ite
    | (with_reducible refine Sub.trans (Sub.ok ?_) hm); rfl
    | dsimp only
    | split

theorem fragmentIn_keeps {m : Nat} {b : State} {s : State} {a1 : Datagram} (h : Keeps m b s)
    (hm : Sub 4096 m) : Keeps m b (fragmentIn s a1) := by
  unfold fragmentIn
  repeat' first
    | with_reducible assumption
    | with_reducible apply streamTakes_keeps
    | with_reducible apply discard_keeps
    | with_reducible apply setEth_keeps
    | with_reducible apply Keeps.ite
    | (with_reducible refine Sub.trans (Sub.ok ?_) hm); rfl
    | dsimp only
    | split

theorem execUdpDatagram_keeps {m : Nat} {b : State} {a1 : Datagram} {a2 : Sid} {s : State} (h : Keeps m b s)
    (hm : Sub 4098 m) : NextKeeps m b (execUdpDatagram a1 a2 s) := by
  unfold execUdpDatagram
  repeat' first
    | with_reducible assumption
    | with_reducible apply NextKeeps.next
    | with_reducible apply received_keeps
    | with_reducible apply streamTakes_keeps
    | with_reducible apply fragmentIn_keeps
    | with_reducible apply advance_keeps
    | with_reducible apply NextKeeps.ite
    | with_reducible apply Keeps.ite
    | (with_reducible refine Sub.trans (Sub.ok ?_) hm); rfl
    | dsimp only
    | split

theorem execReassemblyTimeout_keeps {m : Nat} {b : State} {a1 a2 : Nat} {a3 : Sid} {s : State} (h : Keeps m b s)
    (hm : Sub 4098 m) : NextKeeps m b (execReassemblyTimeout a1 a2 a3 s) := by
  unfold execReassemblyTimeout
  repeat' first
    | with_reducible assumption
    | with_reducible apply NextKeeps.next
    | with_reducible apply discard_keeps
    | with_reducible apply advance_keeps
    | with_reducible apply NextKeeps.ite
    | with_reducible apply Keeps.ite
    | (with_reducible refine Sub.trans (Sub.ok ?_) hm); rfl
    | dsimp only
    | split

theorem streamPlays_keeps {m : Nat} {b : State} {s : State} {a1 : Nat} (h : Keeps m b s)
    (hm : Sub 4096 m) : Keeps m b (streamPlays s a1) := by
  unfold streamPlays
  repeat' first
    | with_reducible assumption
    | with_reducible apply putStream_keeps
    | with_reducible apply setEth_keeps
    | with_reducible apply Keeps.ite
    | (with_reducible refine Sub.trans (Sub.ok ?_) hm); rfl
    | dsimp only
    | split

theorem streamsTick_keeps {m : Nat} {b : State} {s : State} (h : Keeps m b s)
    (hm : Sub 4096 m) : Keeps m b (streamsTick s) := by
  unfold streamsTick
  repeat' first
    | with_reducible assumption
    | with_reducible apply streamPlays_keeps
    | with_reducible apply Keeps.foldl
    | with_reducible apply Keeps.foldl_fst
    | with_reducible apply Keeps.foldl_snd
    | (with_reducible refine Sub.trans (Sub.ok ?_) hm); rfl
    | with_reducible intro _ _ _
    | dsimp only
    | split

theorem execAudioInStreamStop_keeps {m : Nat} {b : State} {a1 : Nat} {s : State} (h : Keeps m b s)
    (hm : Sub 4160 m) : NextKeeps m b (execAudioInStreamStop a1 s) := by
  unfold execAudioInStreamStop
  repeat' first
    | with_reducible assumption
    | with_reducible apply NextKeeps.next
    | with_reducible apply putStream_keeps
    | with_reducible apply raise_keeps
    | with_reducible apply NextKeeps.ite
    | with_reducible apply Keeps.ite
    | (with_reducible refine Sub.trans (Sub.ok ?_) hm); rfl
    | dsimp only
    | split

theorem execAudioOutDatagram_keeps {m : Nat} {b : State} {a1 : Nat} {a2 : Sid} {s : State} (h : Keeps m b s)
    (hm : Sub 4098 m) : NextKeeps m b (execAudioOutDatagram a1 a2 s) := by
  unfold execAudioOutDatagram
  repeat' first
    | with_reducible assumption
    | with_reducible apply NextKeeps.next
    | with_reducible apply putStream_keeps
    | with_reducible apply sent_keeps
    | with_reducible apply advance_keeps
    | with_reducible apply NextKeeps.ite
    | with_reducible apply Keeps.ite
    | (with_reducible refine Sub.trans (Sub.ok ?_) hm); rfl
    | dsimp only
    | split

theorem execSfnFramePacketSend_keeps {m : Nat} {b : State} {a1 : Nat} {a2 : Sid} {s : State} (h : Keeps m b s)
    (hm : Sub 67112962 m) : NextKeeps m b (execSfnFramePacketSend a1 a2 s) := by
  unfold execSfnFramePacketSend
  repeat' first
    | with_reducible assumption
    | with_reducible apply NextKeeps.next
    | with_reducible apply putStream_keeps
    | with_reducible apply sent_keeps
    | with_reducible apply advance_keeps
    | with_reducible apply setTx_keeps
    | with_reducible apply NextKeeps.ite
    | with_reducible apply Keeps.ite
    | (with_reducible refine Sub.trans (Sub.ok ?_) hm); rfl
    | dsimp only
    | split

end Sys2Proof.Machine
end

