-- ==== Sys2Proof/Laws/KeepsMailbox.lean ====
section
/-! SUPPORT. Laws/KeepsMailbox.lean: what each operation of Machine/Mailbox.lean keeps. -/

set_option linter.unusedTactic false
set_option linter.unreachableTactic false
set_option linter.unusedVariables false

namespace Sys2Proof.Machine

theorem regViolation_keeps {m : Nat} {b : State} {a1 : Link} {a2 a3 a4 : Nat} {s : State} (h : Keeps m b s)
    (hm : Sub 2240 m) : Keeps m b (regViolation a1 a2 a3 a4 s) := by
  unfold regViolation
  repeat' first
    | with_reducible assumption
    | with_reducible apply violate_keeps
    | with_reducible apply unsupported_keeps
    | (with_reducible refine Sub.trans (Sub.ok ?_) hm); rfl
    | dsimp only
    | split

theorem execGo_keeps {m : Nat} {b : State} {a1 : Link} {s : State} (h : Keeps m b s)
    (hm : Sub 2272 m) : NextKeeps m b (execGo a1 s) := by
  unfold execGo
  repeat' first
    | with_reducible assumption
    | with_reducible apply NextKeeps.next
    | with_reducible apply regViolation_keeps
    | with_reducible apply setMbx_keeps
    | with_reducible apply NextKeeps.ite
    | with_reducible apply Keeps.ite
    | (with_reducible refine Sub.trans (Sub.ok ?_) hm); rfl
    | dsimp only
    | split

theorem execMailboxCopy_keeps {m : Nat} {b : State} {s : State} (h : Keeps m b s)
    (hm : Sub 32 m) : NextKeeps m b (execMailboxCopy s) := by
  unfold execMailboxCopy
  repeat' first
    | with_reducible assumption
    | with_reducible apply NextKeeps.next
    | with_reducible apply setMbx_keeps
    | with_reducible apply NextKeeps.ite
    | with_reducible apply Keeps.ite
    | (with_reducible refine Sub.trans (Sub.ok ?_) hm); rfl
    | dsimp only
    | split

theorem execCplPop_keeps {m : Nat} {b : State} {a1 : Link} {s : State} (h : Keeps m b s)
    (hm : Sub 2272 m) : NextKeeps m b (execCplPop a1 s) := by
  unfold execCplPop
  repeat' first
    | with_reducible assumption
    | with_reducible apply NextKeeps.next
    | with_reducible apply regViolation_keeps
    | with_reducible apply setMbx_keeps
    | with_reducible apply NextKeeps.ite
    | with_reducible apply Keeps.ite
    | (with_reducible refine Sub.trans (Sub.ok ?_) hm); rfl
    | dsimp only
    | split

theorem execOverflowClear_keeps {m : Nat} {b : State} {a1 : Link} {s : State} (h : Keeps m b s)
    (hm : Sub 2272 m) : NextKeeps m b (execOverflowClear a1 s) := by
  unfold execOverflowClear
  repeat' first
    | with_reducible assumption
    | with_reducible apply NextKeeps.next
    | with_reducible apply regViolation_keeps
    | with_reducible apply setMbx_keeps
    | with_reducible apply NextKeeps.ite
    | with_reducible apply Keeps.ite
    | (with_reducible refine Sub.trans (Sub.ok ?_) hm); rfl
    | dsimp only
    | split

theorem execOwner_keeps {m : Nat} {b : State} {a1 : Link} {a2 : BitVec 2} {s : State} (h : Keeps m b s)
    (hm : Sub 32 m) : NextKeeps m b (execOwner a1 a2 s) := by
  unfold execOwner
  repeat' first
    | with_reducible assumption
    | with_reducible apply NextKeeps.next
    | with_reducible apply setMbx_keeps
    | (with_reducible refine Sub.trans (Sub.ok ?_) hm); rfl
    | dsimp only
    | split

theorem execVlogClear_keeps {m : Nat} {b : State} {a1 : Link} {s : State} (h : Keeps m b s)
    (hm : Sub 128 m) : NextKeeps m b (execVlogClear a1 s) := by
  unfold execVlogClear
  repeat' first
    | with_reducible assumption
    | with_reducible apply NextKeeps.next
    | with_reducible apply setVlog_keeps
    | exact id
    | exact fun h => ⟨Nat.zero_le _, h.2⟩
    | (with_reducible refine Sub.trans (Sub.ok ?_) hm); rfl
    | dsimp only
    | split

end Sys2Proof.Machine
end

