-- ==== Sys2Proof/Laws/KeepsPolaris.lean ====
section
/-! SUPPORT. Laws/KeepsPolaris.lean: what each operation of Machine/Polaris.lean keeps. -/

set_option linter.unusedTactic false
set_option linter.unreachableTactic false
set_option linter.unusedVariables false

namespace Sys2Proof.Machine

theorem evFaultOf_keeps {m : Nat} {b : State} {s : State} {a1 : Nat} (h : Keeps m b s)
    (hm : Sub 64 m) : Keeps m b (evFaultOf s a1) := by
  unfold evFaultOf
  repeat' first
    | with_reducible assumption
    | with_reducible apply raise_keeps
    | with_reducible apply Keeps.ite
    | (with_reducible refine Sub.trans (Sub.ok ?_) hm); rfl
    | dsimp only
    | split

theorem warning_keeps {m : Nat} {b : State} {s : State} {a1 : Nat} (h : Keeps m b s)
    (hm : Sub 32832 m) : Keeps m b (warning s a1) := by
  unfold warning
  repeat' first
    | with_reducible assumption
    | with_reducible apply evFaultOf_keeps
    | with_reducible apply setPol_keeps
    | (with_reducible refine Sub.trans (Sub.ok ?_) hm); rfl
    | dsimp only
    | split

theorem enterSafe_keeps {m : Nat} {b : State} {s : State} {a1 : Nat} (h : Keeps m b s)
    (hm : Sub 847787363692 m) : Keeps m b (enterSafe s a1) := by
  unfold enterSafe
  repeat' first
    | with_reducible assumption
    | with_reducible apply txHold_keeps
    | with_reducible apply setPol_keeps
    | with_reducible apply Keeps.ite
    | (with_reducible refine Sub.trans (Sub.ok ?_) hm); rfl
    | dsimp only
    | split

theorem dangerous_keeps {m : Nat} {b : State} {s : State} {a1 : Nat} {a2 : Bool} (h : Keeps m b s)
    (hm : Sub 847787363692 m) : Keeps m b (dangerous s a1 a2) := by
  unfold dangerous
  repeat' first
    | with_reducible assumption
    | with_reducible apply evFaultOf_keeps
    | with_reducible apply enterSafe_keeps
    | with_reducible apply setPol_keeps
    | with_reducible apply Keeps.ite
    | (with_reducible refine Sub.trans (Sub.ok ?_) hm); rfl
    | dsimp only
    | split

theorem polarisSetUnit_keeps {m : Nat} {b : State} {a1 : Cmd} {s : State} (h : Keeps m b s)
    (hm : Sub 32768 m) : Reply.Keeps m b (polarisSetUnit a1 s) := by
  unfold polarisSetUnit
  repeat' first
    | with_reducible assumption
    | with_reducible apply ok_keeps
    | with_reducible apply okWith_keeps
    | with_reducible apply badState_keeps
    | with_reducible apply badParam_keeps
    | with_reducible apply Reply.keeps_deny
    | with_reducible apply Reply.keeps_done
    | with_reducible apply Reply.keeps_later
    | with_reducible apply Reply.keeps_busy
    | with_reducible apply setPol_keeps
    | with_reducible apply Reply.Keeps.ite
    | with_reducible apply Keeps.ite
    | (with_reducible refine Sub.trans (Sub.ok ?_) hm); rfl
    | dsimp only
    | split

theorem polarisSetSpec_keeps : CmdSpec.Keeps 32768 polarisSetSpec := by
  intro m b c s h hm
  unfold polarisSetSpec
  repeat' first
    | with_reducible assumption
    | with_reducible apply ok_keeps
    | with_reducible apply okWith_keeps
    | with_reducible apply badState_keeps
    | with_reducible apply badParam_keeps
    | with_reducible apply Reply.keeps_deny
    | with_reducible apply Reply.keeps_done
    | with_reducible apply Reply.keeps_later
    | with_reducible apply Reply.keeps_busy
    | with_reducible apply polarisSetUnit_keeps
    | (with_reducible refine Sub.trans (Sub.ok ?_) hm); rfl
    | dsimp only
    | split

theorem polarisGetSpec_keeps : CmdSpec.Keeps 0 polarisGetSpec := by
  intro m b c s h hm
  unfold polarisGetSpec
  repeat' first
    | with_reducible assumption
    | with_reducible apply ok_keeps
    | with_reducible apply okWith_keeps
    | with_reducible apply badState_keeps
    | with_reducible apply badParam_keeps
    | with_reducible apply Reply.keeps_deny
    | with_reducible apply Reply.keeps_done
    | with_reducible apply Reply.keeps_later
    | with_reducible apply Reply.keeps_busy
    | (with_reducible refine Sub.trans (Sub.ok ?_) hm); rfl
    | dsimp only
    | split

theorem alertClearUnit_keeps {m : Nat} {b : State} {a1 : Cmd} {s : State} (h : Keeps m b s)
    (hm : Sub 32768 m) : Reply.Keeps m b (alertClearUnit a1 s) := by
  unfold alertClearUnit
  repeat' first
    | with_reducible assumption
    | with_reducible apply ok_keeps
    | with_reducible apply okWith_keeps
    | with_reducible apply badState_keeps
    | with_reducible apply badParam_keeps
    | with_reducible apply Reply.keeps_deny
    | with_reducible apply Reply.keeps_done
    | with_reducible apply Reply.keeps_later
    | with_reducible apply Reply.keeps_busy
    | with_reducible apply setPol_keeps
    | with_reducible apply Reply.Keeps.ite
    | with_reducible apply Keeps.ite
    | (with_reducible refine Sub.trans (Sub.ok ?_) hm); rfl
    | dsimp only
    | split

theorem alertClearSpec_keeps : CmdSpec.Keeps 32768 alertClearSpec := by
  intro m b c s h hm
  unfold alertClearSpec
  repeat' first
    | with_reducible assumption
    | with_reducible apply ok_keeps
    | with_reducible apply okWith_keeps
    | with_reducible apply badState_keeps
    | with_reducible apply badParam_keeps
    | with_reducible apply Reply.keeps_deny
    | with_reducible apply Reply.keeps_done
    | with_reducible apply Reply.keeps_later
    | with_reducible apply Reply.keeps_busy
    | with_reducible apply alertClearUnit_keeps
    | (with_reducible refine Sub.trans (Sub.ok ?_) hm); rfl
    | dsimp only
    | split

theorem safeReleaseUnit_keeps {m : Nat} {b : State} {a1 : Cmd} {s : State} (h : Keeps m b s)
    (hm : Sub 67141696 m) : Reply.Keeps m b (safeReleaseUnit a1 s) := by
  unfold safeReleaseUnit
  repeat' first
    | with_reducible assumption
    | with_reducible apply ok_keeps
    | with_reducible apply okWith_keeps
    | with_reducible apply badState_keeps
    | with_reducible apply badParam_keeps
    | with_reducible apply Reply.keeps_deny
    | with_reducible apply Reply.keeps_done
    | with_reducible apply Reply.keeps_later
    | with_reducible apply Reply.keeps_busy
    | with_reducible apply txRelease_keeps
    | with_reducible apply evFaultOf_keeps
    | with_reducible apply setPol_keeps
    | with_reducible apply Reply.Keeps.ite
    | with_reducible apply Keeps.ite
    | (with_reducible refine Sub.trans (Sub.ok ?_) hm); rfl
    | dsimp only
    | split

theorem safeReleaseSpec_keeps : CmdSpec.Keeps 67141696 safeReleaseSpec := by
  intro m b c s h hm
  unfold safeReleaseSpec
  repeat' first
    | with_reducible assumption
    | with_reducible apply ok_keeps
    | with_reducible apply okWith_keeps
    | with_reducible apply badState_keeps
    | with_reducible apply badParam_keeps
    | with_reducible apply Reply.keeps_deny
    | with_reducible apply Reply.keeps_done
    | with_reducible apply Reply.keeps_later
    | with_reducible apply Reply.keeps_busy
    | with_reducible apply safeReleaseUnit_keeps
    | (with_reducible refine Sub.trans (Sub.ok ?_) hm); rfl
    | dsimp only
    | split

theorem selftestRunSpec_keeps : CmdSpec.Keeps 0 selftestRunSpec := by
  intro m b c s h hm
  unfold selftestRunSpec
  repeat' first
    | with_reducible assumption
    | with_reducible apply ok_keeps
    | with_reducible apply okWith_keeps
    | with_reducible apply badState_keeps
    | with_reducible apply badParam_keeps
    | with_reducible apply Reply.keeps_deny
    | with_reducible apply Reply.keeps_done
    | with_reducible apply Reply.keeps_later
    | with_reducible apply Reply.keeps_busy
    | (with_reducible refine Sub.trans (Sub.ok ?_) hm); rfl
    | dsimp only
    | split

theorem confirm_keeps {m : Nat} {b : State} {s : State} {a1 : Nat} {a2 : Bool} {a3 : Nat} (h : Keeps m b s)
    (hm : Sub 32832 m) : Keeps m b (confirm s a1 a2 a3) := by
  unfold confirm
  repeat' first
    | with_reducible assumption
    | with_reducible apply raise_keeps
    | with_reducible apply setPol_keeps
    | with_reducible apply Keeps.ite
    | (with_reducible refine Sub.trans (Sub.ok ?_) hm); rfl
    | dsimp only
    | split

theorem mismatch_keeps {m : Nat} {b : State} {s : State} (h : Keeps m b s)
    (hm : Sub 847787363692 m) : Keeps m b (mismatch s) := by
  unfold mismatch
  repeat' first
    | with_reducible assumption
    | with_reducible apply dangerous_keeps
    | with_reducible apply setPol_keeps
    | (with_reducible refine Sub.trans (Sub.ok ?_) hm); rfl
    | dsimp only
    | split

theorem meet_keeps {m : Nat} {b : State} {s : State} {a1 : Bool} {a2 : Nat} {a3 : Bool} {a4 : Nat} (h : Keeps m b s)
    (hm : Sub 847787363692 m) : Keeps m b (meet s a1 a2 a3 a4) := by
  unfold meet
  repeat' first
    | with_reducible assumption
    | with_reducible apply confirm_keeps
    | with_reducible apply mismatch_keeps
    | with_reducible apply setPol_keeps
    | with_reducible apply Keeps.ite
    | (with_reducible refine Sub.trans (Sub.ok ?_) hm); rfl
    | dsimp only
    | split

theorem report_keeps {m : Nat} {b : State} {s : State} {a1 : Bool} {a2 : BitVec 16} {a3 : Bool} {a4 : BitVec 8} (h : Keeps m b s)
    (hm : Sub 847787363692 m) : Keeps m b (report s a1 a2 a3 a4) := by
  unfold report
  repeat' first
    | with_reducible assumption
    | with_reducible apply meet_keeps
    | with_reducible apply setPol_keeps
    | with_reducible apply setFirn_keeps
    | with_reducible apply Keeps.ite
    | (with_reducible refine Sub.trans (Sub.ok ?_) hm); rfl
    | dsimp only
    | split

theorem execAlertPrimaryReport_keeps {m : Nat} {b : State} {a1 : BitVec 16} {a2 : Bool} {a3 : BitVec 8} {a4 : Sid} {s : State} (h : Keeps m b s)
    (hm : Sub 847787363694 m) : NextKeeps m b (execAlertPrimaryReport a1 a2 a3 a4 s) := by
  unfold execAlertPrimaryReport
  repeat' first
    | with_reducible assumption
    | with_reducible apply NextKeeps.next
    | with_reducible apply advance_keeps
    | with_reducible apply report_keeps
    | (with_reducible refine Sub.trans (Sub.ok ?_) hm); rfl
    | dsimp only
    | split

theorem execAlertCheckReport_keeps {m : Nat} {b : State} {a1 : BitVec 16} {a2 : Bool} {a3 : BitVec 8} {a4 : Sid} {s : State} (h : Keeps m b s)
    (hm : Sub 847787363694 m) : NextKeeps m b (execAlertCheckReport a1 a2 a3 a4 s) := by
  unfold execAlertCheckReport
  repeat' first
    | with_reducible assumption
    | with_reducible apply NextKeeps.next
    | with_reducible apply advance_keeps
    | with_reducible apply report_keeps
    | (with_reducible refine Sub.trans (Sub.ok ?_) hm); rfl
    | dsimp only
    | split

theorem execAlertMismatchTimeout_keeps {m : Nat} {b : State} {a1 : BitVec 16} {a2 : Sid} {s : State} (h : Keeps m b s)
    (hm : Sub 847787363694 m) : NextKeeps m b (execAlertMismatchTimeout a1 a2 s) := by
  unfold execAlertMismatchTimeout
  repeat' first
    | with_reducible assumption
    | with_reducible apply NextKeeps.next
    | with_reducible apply advance_keeps
    | with_reducible apply mismatch_keeps
    | with_reducible apply setPol_keeps
    | (with_reducible refine Sub.trans (Sub.ok ?_) hm); rfl
    | dsimp only
    | split

theorem execHeartbeatCheck_keeps {m : Nat} {b : State} {a1 : Nat} {a2 : Bool} {a3 : Sid} {s : State} (h : Keeps m b s)
    (hm : Sub 847787363694 m) : NextKeeps m b (execHeartbeatCheck a1 a2 a3 s) := by
  unfold execHeartbeatCheck
  repeat' first
    | with_reducible assumption
    | with_reducible apply NextKeeps.next
    | with_reducible apply advance_keeps
    | with_reducible apply warning_keeps
    | with_reducible apply dangerous_keeps
    | with_reducible apply setPol_keeps
    | with_reducible apply NextKeeps.ite
    | with_reducible apply Keeps.ite
    | (with_reducible refine Sub.trans (Sub.ok ?_) hm); rfl
    | dsimp only
    | split

theorem execWatchdogExpiry_keeps {m : Nat} {b : State} {a1 : Sid} {s : State} (h : Keeps m b s)
    (hm : Sub 847787363694 m) : NextKeeps m b (execWatchdogExpiry a1 s) := by
  unfold execWatchdogExpiry
  repeat' first
    | with_reducible assumption
    | with_reducible apply NextKeeps.next
    | with_reducible apply advance_keeps
    | with_reducible apply dangerous_keeps
    | with_reducible apply NextKeeps.ite
    | with_reducible apply Keeps.ite
    | (with_reducible refine Sub.trans (Sub.ok ?_) hm); rfl
    | dsimp only
    | split

theorem execLockstepMismatch_keeps {m : Nat} {b : State} {a1 : Sid} {s : State} (h : Keeps m b s)
    (hm : Sub 847787363694 m) : NextKeeps m b (execLockstepMismatch a1 s) := by
  unfold execLockstepMismatch
  repeat' first
    | with_reducible assumption
    | with_reducible apply NextKeeps.next
    | with_reducible apply advance_keeps
    | with_reducible apply dangerous_keeps
    | with_reducible apply NextKeeps.ite
    | with_reducible apply Keeps.ite
    | (with_reducible refine Sub.trans (Sub.ok ?_) hm); rfl
    | dsimp only
    | split

theorem execConfigCrcCheck_keeps {m : Nat} {b : State} {a1 : BitVec 32} {a2 : Sid} {s : State} (h : Keeps m b s)
    (hm : Sub 847787363694 m) : NextKeeps m b (execConfigCrcCheck a1 a2 s) := by
  unfold execConfigCrcCheck
  repeat' first
    | with_reducible assumption
    | with_reducible apply NextKeeps.next
    | with_reducible apply advance_keeps
    | with_reducible apply dangerous_keeps
    | with_reducible apply NextKeeps.ite
    | with_reducible apply Keeps.ite
    | (with_reducible refine Sub.trans (Sub.ok ?_) hm); rfl
    | dsimp only
    | split

theorem execEccError_keeps {m : Nat} {b : State} {a1 : Nat} {a2 : Bool} {a3 : Sid} {s : State} (h : Keeps m b s)
    (hm : Sub 847787363694 m) : NextKeeps m b (execEccError a1 a2 a3 s) := by
  unfold execEccError
  repeat' first
    | with_reducible assumption
    | with_reducible apply NextKeeps.next
    | with_reducible apply advance_keeps
    | with_reducible apply warning_keeps
    | with_reducible apply dangerous_keeps
    | with_reducible apply setPol_keeps
    | with_reducible apply NextKeeps.ite
    | with_reducible apply Keeps.ite
    | (with_reducible refine Sub.trans (Sub.ok ?_) hm); rfl
    | dsimp only
    | split

theorem execRailOutOfRange_keeps {m : Nat} {b : State} {a1 : Nat} {a2 : Sid} {s : State} (h : Keeps m b s)
    (hm : Sub 847787363694 m) : NextKeeps m b (execRailOutOfRange a1 a2 s) := by
  unfold execRailOutOfRange
  repeat' first
    | with_reducible assumption
    | with_reducible apply NextKeeps.next
    | with_reducible apply advance_keeps
    | with_reducible apply dangerous_keeps
    | with_reducible apply NextKeeps.ite
    | with_reducible apply Keeps.ite
    | (with_reducible refine Sub.trans (Sub.ok ?_) hm); rfl
    | dsimp only
    | split

theorem execBallReadbackFault_keeps {m : Nat} {b : State} {a1 : Nat} {a2 : Bool} {a3 : Sid} {s : State} (h : Keeps m b s)
    (hm : Sub 847787363694 m) : NextKeeps m b (execBallReadbackFault a1 a2 a3 s) := by
  unfold execBallReadbackFault
  repeat' first
    | with_reducible assumption
    | with_reducible apply NextKeeps.next
    | with_reducible apply advance_keeps
    | with_reducible apply warning_keeps
    | with_reducible apply dangerous_keeps
    | with_reducible apply NextKeeps.ite
    | with_reducible apply Keeps.ite
    | (with_reducible refine Sub.trans (Sub.ok ?_) hm); rfl
    | dsimp only
    | split

theorem execLoopUnlock_keeps {m : Nat} {b : State} {a1 : Nat} {a2 : Sid} {s : State} (h : Keeps m b s)
    (hm : Sub 847787371886 m) : NextKeeps m b (execLoopUnlock a1 a2 s) := by
  unfold execLoopUnlock
  repeat' first
    | with_reducible assumption
    | with_reducible apply NextKeeps.next
    | with_reducible apply lockAttempt_keeps
    | with_reducible apply advance_keeps
    | with_reducible apply warning_keeps
    | with_reducible apply dangerous_keeps
    | with_reducible apply setPol_keeps
    | with_reducible apply setTx_keeps
    | with_reducible apply setClk_keeps
    | with_reducible apply NextKeeps.ite
    | with_reducible apply Keeps.ite
    | (with_reducible refine Sub.trans (Sub.ok ?_) hm); rfl
    | dsimp only
    | split

theorem testPath_keeps {m : Nat} {b : State} {s : State} (h : Keeps m b s)
    (hm : Sub 32832 m) : Keeps m b (testPath s) := by
  unfold testPath
  repeat' first
    | with_reducible assumption
    | with_reducible apply warning_keeps
    | with_reducible apply setPol_keeps
    | with_reducible apply Keeps.ite
    | (with_reducible refine Sub.trans (Sub.ok ?_) hm); rfl
    | dsimp only
    | split

theorem selftestEnds_keeps {m : Nat} {b : State} {s : State} {a1 : Bool} (h : Keeps m b s)
    (hm : Sub 847787363692 m) : Keeps m b (selftestEnds s a1) := by
  unfold selftestEnds
  repeat' first
    | with_reducible assumption
    | with_reducible apply dangerous_keeps
    | with_reducible apply setPol_keeps
    | with_reducible apply Keeps.ite
    | (with_reducible refine Sub.trans (Sub.ok ?_) hm); rfl
    | dsimp only
    | split

theorem execPeriodicSelftest_keeps {m : Nat} {b : State} {a1 : Bool} {a2 : Sid} {s : State} (h : Keeps m b s)
    (hm : Sub 847787363694 m) : NextKeeps m b (execPeriodicSelftest a1 a2 s) := by
  unfold execPeriodicSelftest
  repeat' first
    | with_reducible assumption
    | with_reducible apply NextKeeps.next
    | with_reducible apply advance_keeps
    | with_reducible apply complete_keeps
    | with_reducible apply testPath_keeps
    | with_reducible apply selftestEnds_keeps
    | with_reducible apply NextKeeps.ite
    | with_reducible apply Keeps.ite
    | (with_reducible refine Sub.trans (Sub.ok ?_) hm); rfl
    | dsimp only
    | split

theorem execSynthWindowExpiry_keeps {m : Nat} {b : State} {s : State} (h : Keeps m b s)
    (hm : Sub 847787363692 m) : NextKeeps m b (execSynthWindowExpiry s) := by
  unfold execSynthWindowExpiry
  repeat' first
    | with_reducible assumption
    | with_reducible apply NextKeeps.next
    | with_reducible apply failPending_keeps
    | with_reducible apply dangerous_keeps
    | with_reducible apply NextKeeps.ite
    | with_reducible apply Keeps.ite
    | (with_reducible refine Sub.trans (Sub.ok ?_) hm); rfl
    | dsimp only
    | split

theorem execBreakinDueCheck_keeps {m : Nat} {b : State} {a1 : Bool} {a2 : Sid} {s : State} (h : Keeps m b s)
    (hm : Sub 847787363694 m) : NextKeeps m b (execBreakinDueCheck a1 a2 s) := by
  unfold execBreakinDueCheck
  repeat' first
    | with_reducible assumption
    | with_reducible apply NextKeeps.next
    | with_reducible apply advance_keeps
    | with_reducible apply dangerous_keeps
    | with_reducible apply NextKeeps.ite
    | with_reducible apply Keeps.ite
    | (with_reducible refine Sub.trans (Sub.ok ?_) hm); rfl
    | dsimp only
    | split

theorem monReact_keeps {m : Nat} {b : State} {s : State} {a1 a2 a3 : Bool} (h : Keeps m b s)
    (hm : Sub 847787363692 m) : Keeps m b (monReact s a1 a2 a3) := by
  unfold monReact
  repeat' first
    | with_reducible assumption
    | with_reducible apply evTxCause_keeps
    | with_reducible apply muteReady_keeps
    | with_reducible apply warning_keeps
    | with_reducible apply dangerous_keeps
    | with_reducible apply Keeps.ite
    | (with_reducible refine Sub.trans (Sub.ok ?_) hm); rfl
    | dsimp only
    | split

theorem execMonitorWindow_keeps {m : Nat} {b : State} {a1 : MonitorIn} {a2 : Sid} {s : State} (h : Keeps m b s)
    (hm : Sub 847921581422 m) : NextKeeps m b (execMonitorWindow a1 a2 s) := by
  unfold execMonitorWindow
  repeat' first
    | with_reducible assumption
    | with_reducible apply NextKeeps.next
    | with_reducible apply advance_keeps
    | with_reducible apply monReact_keeps
    | with_reducible apply setMon_keeps
    | with_reducible apply NextKeeps.ite
    | with_reducible apply Keeps.ite
    | (with_reducible refine Sub.trans (Sub.ok ?_) hm); rfl
    | dsimp only
    | split

end Sys2Proof.Machine
end

