-- ==== Sys2Proof/Laws/KeepsPower.lean ====
section
/-! SUPPORT. Laws/KeepsPower.lean: what each operation of Machine/Power.lean keeps. -/

set_option linter.unusedTactic false
set_option linter.unreachableTactic false
set_option linter.unusedVariables false

namespace Sys2Proof.Machine

theorem putPwr_keeps {m : Nat} {b : State} {s : State} {a1 : Power} (h : Keeps m b s)
    (hm : Sub 65536 m) : Keeps m b (putPwr s a1) := by
  unfold putPwr
  repeat' first
    | with_reducible assumption
    | with_reducible apply setPwr_keeps
    | (with_reducible refine Sub.trans (Sub.ok ?_) hm); rfl
    | dsimp only
    | split

theorem surveysResume_keeps {m : Nat} {b : State} {s : State} (h : Keeps m b s)
    (hm : Sub 856352099820 m) : Keeps m b (surveysResume s) := by
  unfold surveysResume
  repeat' first
    | with_reducible assumption
    | with_reducible apply resumeFits_keeps
    | with_reducible apply Keeps.foldl
    | with_reducible apply Keeps.ite
    | (with_reducible refine Sub.trans (Sub.ok ?_) hm); rfl
    | with_reducible intro _ _ _
    | dsimp only
    | split

theorem surveysPause_keeps {m : Nat} {b : State} {s : State} (h : Keeps m b s)
    (hm : Sub 847753776620 m) : Keeps m b (surveysPause s) := by
  unfold surveysPause
  repeat' first
    | with_reducible assumption
    | with_reducible apply finishTunes_keeps
    | with_reducible apply pauseLane_keeps
    | with_reducible apply Keeps.foldl
    | (with_reducible refine Sub.trans (Sub.ok ?_) hm); rfl
    | with_reducible intro _ _ _
    | dsimp only
    | split

theorem reachAvalanche_keeps {m : Nat} {b : State} {s : State} {a1 : Bool} (h : Keeps m b s)
    (hm : Sub 856352165356 m) : Keeps m b (reachAvalanche s a1) := by
  unfold reachAvalanche
  repeat' first
    | with_reducible assumption
    | with_reducible apply surveysResume_keeps
    | with_reducible apply setPwr_keeps
    | (with_reducible refine Sub.trans (Sub.ok ?_) hm); rfl
    | dsimp only
    | split

theorem tryAvalanche_keeps {m : Nat} {b : State} {s : State} (h : Keeps m b s)
    (hm : Sub 856352165356 m) : Keeps m b (tryAvalanche s).2 := by
  unfold tryAvalanche
  repeat' first
    | with_reducible assumption
    | with_reducible apply reachAvalanche_keeps
    | with_reducible apply setPwr_keeps
    | with_reducible apply Keeps.ite_snd
    | with_reducible apply Keeps.ite_fst
    | with_reducible apply Keeps.ite
    | (with_reducible refine Sub.trans (Sub.ok ?_) hm); rfl
    | dsimp only
    | split

theorem resumeAvalanche_keeps {m : Nat} {b : State} {s : State} (h : Keeps m b s)
    (hm : Sub 856352165356 m) : Keeps m b (resumeAvalanche s) := by
  unfold resumeAvalanche
  repeat' first
    | with_reducible assumption
    | with_reducible apply tryAvalanche_keeps
    | with_reducible (refine Keeps.snd ?_ (by assumption))
    | with_reducible apply Keeps.ite
    | (with_reducible refine Sub.trans (Sub.ok ?_) hm); rfl
    | dsimp only
    | split

theorem finishOwner_keeps {m : Nat} {b : State} {s : State} {a1 a2 : Nat} (h : Keeps m b s)
    (hm : Sub 847720287596 m) : Keeps m b (finishOwner s a1 a2) := by
  unfold finishOwner
  repeat' first
    | with_reducible assumption
    | with_reducible apply complete_keeps
    | with_reducible apply setPwr_keeps
    | (with_reducible refine Sub.trans (Sub.ok ?_) hm); rfl
    | dsimp only
    | split

theorem leaveAvalanche_keeps {m : Nat} {b : State} {s : State} {a1 : Nat} (h : Keeps m b s)
    (hm : Sub 847720287596 m) : Keeps m b (leaveAvalanche s a1) := by
  unfold leaveAvalanche
  repeat' first
    | with_reducible assumption
    | with_reducible apply finishOwner_keeps
    | with_reducible apply setPwr_keeps
    | with_reducible apply Keeps.ite
    | (with_reducible refine Sub.trans (Sub.ok ?_) hm); rfl
    | dsimp only
    | split

theorem leaveFrost_keeps {m : Nat} {b : State} {s : State} (h : Keeps m b s)
    (hm : Sub 65536 m) : Keeps m b (leaveFrost s) := by
  unfold leaveFrost
  repeat' first
    | with_reducible assumption
    | with_reducible apply setPwr_keeps
    | with_reducible apply Keeps.ite
    | (with_reducible refine Sub.trans (Sub.ok ?_) hm); rfl
    | dsimp only
    | split

theorem withWake_keeps {m : Nat} {b : State} {s : State} {a1 : Cmd} (h : Keeps m b s)
    (hm : Sub 65536 m) : Keeps m b (withWake s a1) := by
  unfold withWake
  repeat' first
    | with_reducible assumption
    | with_reducible apply setPwr_keeps
    | (with_reducible refine Sub.trans (Sub.ok ?_) hm); rfl
    | dsimp only
    | split

theorem pwrUp_keeps {m : Nat} {b : State} {a1 : Cmd} {a2 : Bool} {s : State} (h : Keeps m b s)
    (hm : Sub 856352165356 m) : Reply.Keeps m b (pwrUp a1 a2 s) := by
  unfold pwrUp
  repeat' first
    | with_reducible assumption
    | with_reducible apply ok_keeps
    | with_reducible apply okWith_keeps
    | with_reducible apply badState_keeps
    | with_reducible apply badParam_keeps
    | with_reducible apply Reply.keeps_deny
    | with_reducible apply Reply.keeps_done
    | with_reducible apply Reply.keeps_later
    | with_reducible apply Reply.keeps_busy
    | with_reducible apply tryAvalanche_keeps
    | with_reducible apply setPwr_keeps
    | with_reducible (refine Keeps.snd ?_ (by assumption))
    | with_reducible apply Reply.Keeps.ite
    | with_reducible apply Keeps.ite
    | (with_reducible refine Sub.trans (Sub.ok ?_) hm); rfl
    | dsimp only
    | split

theorem pwrRequest_keeps {m : Nat} {b : State} {a1 : Cmd} {s : State} (h : Keeps m b s)
    (hm : Sub 856352165356 m) : Reply.Keeps m b (pwrRequest a1 s) := by
  unfold pwrRequest
  repeat' first
    | with_reducible assumption
    | with_reducible apply ok_keeps
    | with_reducible apply okWith_keeps
    | with_reducible apply badState_keeps
    | with_reducible apply badParam_keeps
    | with_reducible apply Reply.keeps_deny
    | with_reducible apply Reply.keeps_done
    | with_reducible apply Reply.keeps_later
    | with_reducible apply Reply.keeps_busy
    | with_reducible apply withWake_keeps
    | with_reducible apply pwrUp_keeps
    | with_reducible apply setPwr_keeps
    | with_reducible apply Reply.Keeps.ite
    | with_reducible apply Keeps.ite
    | (with_reducible refine Sub.trans (Sub.ok ?_) hm); rfl
    | dsimp only
    | split

theorem pwrStateUnit_keeps {m : Nat} {b : State} {a1 : Cmd} {s : State} (h : Keeps m b s)
    (hm : Sub 856352165356 m) : Reply.Keeps m b (pwrStateUnit a1 s) := by
  unfold pwrStateUnit
  repeat' first
    | with_reducible assumption
    | with_reducible apply ok_keeps
    | with_reducible apply okWith_keeps
    | with_reducible apply badState_keeps
    | with_reducible apply badParam_keeps
    | with_reducible apply Reply.keeps_deny
    | with_reducible apply Reply.keeps_done
    | with_reducible apply Reply.keeps_later
    | with_reducible apply Reply.keeps_busy
    | with_reducible apply pwrRequest_keeps
    | with_reducible apply setPwr_keeps
    | with_reducible apply Reply.Keeps.ite
    | with_reducible apply Keeps.ite
    | (with_reducible refine Sub.trans (Sub.ok ?_) hm); rfl
    | dsimp only
    | split

theorem pwrStateSetSpec_keeps : CmdSpec.Keeps 856352165356 pwrStateSetSpec := by
  intro m b c s h hm
  unfold pwrStateSetSpec
  repeat' first
    | with_reducible assumption
    | with_reducible apply ok_keeps
    | with_reducible apply okWith_keeps
    | with_reducible apply badState_keeps
    | with_reducible apply badParam_keeps
    | with_reducible apply Reply.keeps_deny
    | with_reducible apply Reply.keeps_done
    | with_reducible apply Reply.keeps_later
    | with_reducible apply Reply.keeps_busy
    | with_reducible apply pwrStateUnit_keeps
    | (with_reducible refine Sub.trans (Sub.ok ?_) hm); rfl
    | dsimp only
    | split

theorem pwrNext_keeps {m : Nat} {b : State} {a1 : Nat} {s : State} (h : Keeps m b s)
    (hm : Sub 856352165356 m) : Keeps m b (pwrNext a1 s) := by
  induction a1 generalizing s with
  | zero => exact h
  | succ k ih =>
    unfold pwrNext
    split
    · exact h
    · rename_i o os _
      with_reducible apply Keeps.ite
      · exact h
      · dsimp only
        have h1 := setPwr_keeps (v := { s.pwr with waiting := os }) h (Sub.trans (Sub.ok rfl) hm)
        split
        · exact ih h1
        · split
          · exact ih (complete_keeps h1 (Sub.trans (Sub.ok rfl) hm))
          all_goals
            rename_i e
            have h2 := OptKeeps.get (s := b) (m := m) ?_ (congrArg Reply.state? e)
            · first
                | exact h2
                | exact ih (complete_keeps h2 (Sub.trans (Sub.ok rfl) hm))
            · exact (Reply.Keeps.ite (Reply.keeps_deny ..) (pwrRequest_keeps h1 (Sub.trans (Sub.ok rfl) hm))).out

theorem settlePower_keeps {m : Nat} {b : State} {s : State} {a1 a2 : Nat} (h : Keeps m b s)
    (hm : Sub 856352165356 m) : Keeps m b (settlePower s a1 a2) := by
  unfold settlePower
  repeat' first
    | with_reducible assumption
    | with_reducible apply finishOwner_keeps
    | with_reducible apply pwrNext_keeps
    | (with_reducible refine Sub.trans (Sub.ok ?_) hm); rfl
    | dsimp only
    | split

theorem pwrGetSpec_keeps : CmdSpec.Keeps 0 pwrGetSpec := by
  intro m b c s h hm
  unfold pwrGetSpec
  repeat' first
    | with_reducible assumption
    | with_reducible apply ok_keeps
    | with_reducible apply okWith_keeps
    | with_reducible apply badState_keeps
    | with_reducible apply badParam_keeps
    | with_reducible apply Reply.keeps_deny
    | with_reducible apply Reply.keeps_done
    | with_reducible apply Reply.keeps_later
    | with_reducible apply Reply.keeps_busy
    | (with_reducible refine Sub.trans (Sub.ok ?_) hm); rfl
    | dsimp only
    | split

theorem pwrLimitSetSpec_keeps : CmdSpec.Keeps 65536 pwrLimitSetSpec := by
  intro m b c s h hm
  unfold pwrLimitSetSpec
  repeat' first
    | with_reducible assumption
    | with_reducible apply ok_keeps
    | with_reducible apply okWith_keeps
    | with_reducible apply badState_keeps
    | with_reducible apply badParam_keeps
    | with_reducible apply Reply.keeps_deny
    | with_reducible apply Reply.keeps_done
    | with_reducible apply Reply.keeps_later
    | with_reducible apply Reply.keeps_busy
    | with_reducible apply setPwr_keeps
    | (with_reducible refine Sub.trans (Sub.ok ?_) hm); rfl
    | dsimp only
    | split

theorem fwBeginUnit_keeps {m : Nat} {b : State} {a1 : Cmd} {s : State} (h : Keeps m b s)
    (hm : Sub 262144 m) : Reply.Keeps m b (fwBeginUnit a1 s) := by
  unfold fwBeginUnit
  repeat' first
    | with_reducible assumption
    | with_reducible apply ok_keeps
    | with_reducible apply okWith_keeps
    | with_reducible apply badState_keeps
    | with_reducible apply badParam_keeps
    | with_reducible apply Reply.keeps_deny
    | with_reducible apply Reply.keeps_done
    | with_reducible apply Reply.keeps_later
    | with_reducible apply Reply.keeps_busy
    | with_reducible apply setFw_keeps
    | with_reducible apply Reply.Keeps.ite
    | with_reducible apply Keeps.ite
    | (with_reducible refine Sub.trans (Sub.ok ?_) hm); rfl
    | dsimp only
    | split

theorem fwBeginSpec_keeps : CmdSpec.Keeps 262144 fwBeginSpec := by
  intro m b c s h hm
  unfold fwBeginSpec
  repeat' first
    | with_reducible assumption
    | with_reducible apply ok_keeps
    | with_reducible apply okWith_keeps
    | with_reducible apply badState_keeps
    | with_reducible apply badParam_keeps
    | with_reducible apply Reply.keeps_deny
    | with_reducible apply Reply.keeps_done
    | with_reducible apply Reply.keeps_later
    | with_reducible apply Reply.keeps_busy
    | with_reducible apply fwBeginUnit_keeps
    | (with_reducible refine Sub.trans (Sub.ok ?_) hm); rfl
    | dsimp only
    | split

theorem fwWriteUnit_keeps {m : Nat} {b : State} {a1 : Cmd} {s : State} (h : Keeps m b s)
    (hm : Sub 0 m) : Reply.Keeps m b (fwWriteUnit a1 s) := by
  unfold fwWriteUnit
  repeat' first
    | with_reducible assumption
    | with_reducible apply ok_keeps
    | with_reducible apply okWith_keeps
    | with_reducible apply badState_keeps
    | with_reducible apply badParam_keeps
    | with_reducible apply Reply.keeps_deny
    | with_reducible apply Reply.keeps_done
    | with_reducible apply Reply.keeps_later
    | with_reducible apply Reply.keeps_busy
    | with_reducible apply Reply.Keeps.ite
    | with_reducible apply Keeps.ite
    | (with_reducible refine Sub.trans (Sub.ok ?_) hm); rfl
    | dsimp only
    | split

theorem fwWriteSpec_keeps : CmdSpec.Keeps 0 fwWriteSpec := by
  intro m b c s h hm
  unfold fwWriteSpec
  repeat' first
    | with_reducible assumption
    | with_reducible apply ok_keeps
    | with_reducible apply okWith_keeps
    | with_reducible apply badState_keeps
    | with_reducible apply badParam_keeps
    | with_reducible apply Reply.keeps_deny
    | with_reducible apply Reply.keeps_done
    | with_reducible apply Reply.keeps_later
    | with_reducible apply Reply.keeps_busy
    | with_reducible apply fwWriteUnit_keeps
    | (with_reducible refine Sub.trans (Sub.ok ?_) hm); rfl
    | dsimp only
    | split

theorem fwFinishUnit_keeps {m : Nat} {b : State} {a1 : Cmd} {s : State} (h : Keeps m b s)
    (hm : Sub 262144 m) : Reply.Keeps m b (fwFinishUnit a1 s) := by
  unfold fwFinishUnit
  repeat' first
    | with_reducible assumption
    | with_reducible apply ok_keeps
    | with_reducible apply okWith_keeps
    | with_reducible apply badState_keeps
    | with_reducible apply badParam_keeps
    | with_reducible apply Reply.keeps_deny
    | with_reducible apply Reply.keeps_done
    | with_reducible apply Reply.keeps_later
    | with_reducible apply Reply.keeps_busy
    | with_reducible apply setFw_keeps
    | with_reducible apply Reply.Keeps.ite
    | with_reducible apply Keeps.ite
    | (with_reducible refine Sub.trans (Sub.ok ?_) hm); rfl
    | dsimp only
    | split

theorem fwFinishSpec_keeps : CmdSpec.Keeps 262144 fwFinishSpec := by
  intro m b c s h hm
  unfold fwFinishSpec
  repeat' first
    | with_reducible assumption
    | with_reducible apply ok_keeps
    | with_reducible apply okWith_keeps
    | with_reducible apply badState_keeps
    | with_reducible apply badParam_keeps
    | with_reducible apply Reply.keeps_deny
    | with_reducible apply Reply.keeps_done
    | with_reducible apply Reply.keeps_later
    | with_reducible apply Reply.keeps_busy
    | with_reducible apply fwFinishUnit_keeps
    | (with_reducible refine Sub.trans (Sub.ok ?_) hm); rfl
    | dsimp only
    | split

theorem fwStatusSpec_keeps : CmdSpec.Keeps 0 fwStatusSpec := by
  intro m b c s h hm
  unfold fwStatusSpec
  repeat' first
    | with_reducible assumption
    | with_reducible apply ok_keeps
    | with_reducible apply okWith_keeps
    | with_reducible apply badState_keeps
    | with_reducible apply badParam_keeps
    | with_reducible apply Reply.keeps_deny
    | with_reducible apply Reply.keeps_done
    | with_reducible apply Reply.keeps_later
    | with_reducible apply Reply.keeps_busy
    | (with_reducible refine Sub.trans (Sub.ok ?_) hm); rfl
    | dsimp only
    | split

theorem devResetSpec_keeps : CmdSpec.Keeps 65536 devResetSpec := by
  intro m b c s h hm
  unfold devResetSpec
  repeat' first
    | with_reducible assumption
    | with_reducible apply ok_keeps
    | with_reducible apply okWith_keeps
    | with_reducible apply badState_keeps
    | with_reducible apply badParam_keeps
    | with_reducible apply Reply.keeps_deny
    | with_reducible apply Reply.keeps_done
    | with_reducible apply Reply.keeps_later
    | with_reducible apply Reply.keeps_busy
    | with_reducible apply setPwr_keeps
    | (with_reducible refine Sub.trans (Sub.ok ?_) hm); rfl
    | dsimp only
    | split

theorem execFwEraseComplete_keeps {m : Nat} {b : State} {s : State} (h : Keeps m b s)
    (hm : Sub 847720484204 m) : NextKeeps m b (execFwEraseComplete s) := by
  unfold execFwEraseComplete
  repeat' first
    | with_reducible assumption
    | with_reducible apply NextKeeps.next
    | with_reducible apply finishOp_keeps
    | with_reducible apply setFw_keeps
    | with_reducible apply NextKeeps.ite
    | with_reducible apply Keeps.ite
    | (with_reducible refine Sub.trans (Sub.ok ?_) hm); rfl
    | dsimp only
    | split

theorem execFwProgramComplete_keeps {m : Nat} {b : State} {s : State} (h : Keeps m b s)
    (hm : Sub 847720484204 m) : NextKeeps m b (execFwProgramComplete s) := by
  unfold execFwProgramComplete
  repeat' first
    | with_reducible assumption
    | with_reducible apply NextKeeps.next
    | with_reducible apply complete_keeps
    | with_reducible apply setFw_keeps
    | with_reducible apply NextKeeps.ite
    | with_reducible apply Keeps.ite
    | (with_reducible refine Sub.trans (Sub.ok ?_) hm); rfl
    | dsimp only
    | split

theorem execFwVerifyComplete_keeps {m : Nat} {b : State} {a1 : Bool} {a2 : BitVec 32} {s : State} (h : Keeps m b s)
    (hm : Sub 847720484204 m) : NextKeeps m b (execFwVerifyComplete a1 a2 s) := by
  unfold execFwVerifyComplete
  repeat' first
    | with_reducible assumption
    | with_reducible apply NextKeeps.next
    | with_reducible apply finishOp_keeps
    | with_reducible apply setFw_keeps
    | with_reducible apply NextKeeps.ite
    | with_reducible apply Keeps.ite
    | (with_reducible refine Sub.trans (Sub.ok ?_) hm); rfl
    | dsimp only
    | split

theorem execFwMarkerComplete_keeps {m : Nat} {b : State} {a1 : Sid} {s : State} (h : Keeps m b s)
    (hm : Sub 847720484206 m) : NextKeeps m b (execFwMarkerComplete a1 s) := by
  unfold execFwMarkerComplete
  repeat' first
    | with_reducible assumption
    | with_reducible apply NextKeeps.next
    | with_reducible apply advance_keeps
    | with_reducible apply finishOp_keeps
    | with_reducible apply setFw_keeps
    | with_reducible apply NextKeeps.ite
    | with_reducible apply Keeps.ite
    | (with_reducible refine Sub.trans (Sub.ok ?_) hm); rfl
    | dsimp only
    | split

theorem resetDevice_keeps {m : Nat} {b : State} {s : State} {a1 : Nat} {a2 : Bool} (h : Keeps m b s)
    (hm : Sub 1099508482046 m) : Keeps m b (resetDevice s a1 a2) := by
  refine h.and ⟨fun f hf => ?_, id, fun _ _ hw => absurd hw List.not_mem_nil, fun _ => ⟨Nat.zero_le _, Nat.succ_pos 15⟩, fun g => ?_⟩ hm
  · cases f <;> first
      | rfl
      | exact absurd hf (by decide)
  · exact ⟨⟨g.1, Bool.and_false _⟩, fun l => ⟨l, rfl⟩⟩

theorem enterPermafrost_keeps {m : Nat} {b : State} {s : State} {a1 : Bool} (h : Keeps m b s)
    (hm : Sub 1099508482046 m) : Keeps m b (enterPermafrost s a1) := by
  refine h.and ⟨fun f hf => ?_, id, fun _ _ hw => absurd hw List.not_mem_nil, fun _ => ⟨Nat.zero_le _, Nat.succ_pos 15⟩, fun g => ?_⟩ hm
  · cases f <;> first
      | rfl
      | exact absurd hf (by decide)
  · exact ⟨⟨g.1, Bool.and_false _⟩, fun l => ⟨l, rfl⟩⟩

theorem wakeUp_keeps {m : Nat} {b : State} {s : State} (h : Keeps m b s)
    (hm : Sub 98304 m) : Keeps m b (wakeUp s) := by
  unfold wakeUp
  repeat' first
    | with_reducible assumption
    | with_reducible apply setPol_keeps
    | with_reducible apply setPwr_keeps
    | with_reducible apply Keeps.ite
    | (with_reducible refine Sub.trans (Sub.ok ?_) hm); rfl
    | dsimp only
    | split

theorem wakeBy_keeps {m : Nat} {b : State} {s : State} {a1 : Nat} {a2 : Int} (h : Keeps m b s)
    (hm : Sub 98304 m) : Keeps m b (wakeBy s a1 a2) := by
  unfold wakeBy
  repeat' first
    | with_reducible assumption
    | with_reducible apply leaveFrost_keeps
    | with_reducible apply wakeUp_keeps
    | with_reducible apply Keeps.ite
    | (with_reducible refine Sub.trans (Sub.ok ?_) hm); rfl
    | dsimp only
    | split

theorem execPowerOn_keeps {m : Nat} {b : State} {a1 : Nat} {a2 : Bool} {s : State} (h : Keeps m b s)
    (hm : Sub 1099508482046 m) : NextKeeps m b (execPowerOn a1 a2 s) := by
  unfold execPowerOn
  repeat' first
    | with_reducible assumption
    | with_reducible apply NextKeeps.next
    | with_reducible apply resetDevice_keeps
    | with_reducible apply setPwr_keeps
    | with_reducible apply NextKeeps.ite
    | with_reducible apply Keeps.ite
    | (with_reducible refine Sub.trans (Sub.ok ?_) hm); rfl
    | dsimp only
    | split

theorem execResetN_keeps {m : Nat} {b : State} {a1 : Nat} {a2 : Int} {s : State} (h : Keeps m b s)
    (hm : Sub 1099510579198 m) : NextKeeps m b (execResetN a1 a2 s) := by
  unfold execResetN
  repeat' first
    | with_reducible assumption
    | with_reducible apply NextKeeps.next
    | with_reducible apply resetDevice_keeps
    | with_reducible apply setFree_keeps
    | with_reducible apply NextKeeps.ite
    | with_reducible apply Keeps.ite
    | (with_reducible refine Sub.trans (Sub.ok ?_) hm); rfl
    | dsimp only
    | split

theorem execVinReset_keeps {m : Nat} {b : State} {a1 a2 : Nat} {s : State} (h : Keeps m b s)
    (hm : Sub 1099510579198 m) : NextKeeps m b (execVinReset a1 a2 s) := by
  unfold execVinReset
  repeat' first
    | with_reducible assumption
    | with_reducible apply NextKeeps.next
    | with_reducible apply resetDevice_keeps
    | with_reducible apply setPwr_keeps
    | with_reducible apply setPol_keeps
    | with_reducible apply setFree_keeps
    | with_reducible apply NextKeeps.ite
    | with_reducible apply Keeps.ite
    | (with_reducible refine Sub.trans (Sub.ok ?_) hm); rfl
    | dsimp only
    | split

theorem execBringUp_keeps {m : Nat} {b : State} {a1 : Straps} {a2 : Bool} {s : State} (h : Keeps m b s)
    (hm : Sub 74240 m) : NextKeeps m b (execBringUp a1 a2 s) := by
  unfold execBringUp
  repeat' first
    | with_reducible assumption
    | with_reducible apply NextKeeps.next
    | with_reducible apply setPwr_keeps
    | with_reducible apply setHcfg_keeps
    | with_reducible apply setClk_keeps
    | with_reducible apply NextKeeps.ite
    | with_reducible apply Keeps.ite
    | (with_reducible refine Sub.trans (Sub.ok ?_) hm); rfl
    | dsimp only
    | split

theorem buStops_keeps {m : Nat} {b : State} {s : State} {a1 : Nat} (h : Keeps m b s)
    (hm : Sub 65536 m) : Keeps m b (buStops s a1) := by
  unfold buStops
  repeat' first
    | with_reducible assumption
    | with_reducible apply setPwr_keeps
    | (with_reducible refine Sub.trans (Sub.ok ?_) hm); rfl
    | dsimp only
    | split

theorem buTime_keeps {m : Nat} {b : State} {s : State} (h : Keeps m b s)
    (hm : Sub 73986 m) : Keeps m b (buTime s) := by
  unfold buTime
  repeat' first
    | with_reducible assumption
    | with_reducible apply setI2c_keeps
    | with_reducible apply setPwr_keeps
    | with_reducible apply setSid_keeps
    | with_reducible apply setClk_keeps
    | (with_reducible refine Sub.trans (Sub.ok ?_) hm); rfl
    | dsimp only
    | split

theorem buImage_keeps {m : Nat} {b : State} {s : State} {a1 : Bool} (h : Keeps m b s)
    (hm : Sub 268763136 m) : Keeps m b (buImage s a1) := by
  unfold buImage
  repeat' first
    | with_reducible assumption
    | with_reducible apply buStops_keeps
    | with_reducible apply loadShadow_keeps
    | with_reducible apply setFw_keeps
    | with_reducible apply setPwr_keeps
    | with_reducible apply Keeps.ite
    | (with_reducible refine Sub.trans (Sub.ok ?_) hm); rfl
    | dsimp only
    | split

theorem legacyZones_keeps {m : Nat} {b : State} {s : State} (h : Keeps m b s)
    (hm : Sub 856368877036 m) : Keeps m b (legacyZones s) := by
  unfold legacyZones
  repeat' first
    | with_reducible assumption
    | with_reducible apply retuneZones_keeps
    | with_reducible apply Keeps.ite
    | (with_reducible refine Sub.trans (Sub.ok ?_) hm); rfl
    | dsimp only
    | split

theorem buActive_keeps {m : Nat} {b : State} {s : State} {a1 : List (List ToneLevel)} (h : Keeps m b s)
    (hm : Sub 856375758316 m) : Keeps m b (buActive s a1) := by
  unfold buActive
  repeat' first
    | with_reducible assumption
    | with_reducible apply resumeAvalanche_keeps
    | with_reducible apply legacyZones_keeps
    | with_reducible apply calDone_keeps
    | with_reducible apply usedChanged_keeps
    | with_reducible apply setPwr_keeps
    | with_reducible apply setPanel_keeps
    | with_reducible apply Keeps.foldl
    | (with_reducible refine Sub.trans (Sub.ok ?_) hm); rfl
    | with_reducible intro _ _ _
    | dsimp only
    | split

theorem execBringupStepComplete_keeps {m : Nat} {b : State} {a1 : Bool} {a2 : List (List ToneLevel)} {s : State} (h : Keeps m b s)
    (hm : Sub 856711605742 m) : NextKeeps m b (execBringupStepComplete a1 a2 s) := by
  unfold execBringupStepComplete
  repeat' first
    | with_reducible assumption
    | with_reducible apply NextKeeps.next
    | with_reducible apply selftestEnds_keeps
    | with_reducible apply buStops_keeps
    | with_reducible apply buTime_keeps
    | with_reducible apply buImage_keeps
    | with_reducible apply buActive_keeps
    | with_reducible apply setClk_keeps
    | with_reducible apply setPol_keeps
    | with_reducible apply setPwr_keeps
    | with_reducible apply NextKeeps.ite
    | with_reducible apply Keeps.ite
    | (with_reducible refine Sub.trans (Sub.ok ?_) hm); rfl
    | dsimp only
    | split

theorem brownOut_keeps {m : Nat} {b : State} {s : State} {a1 : Nat} (h : Keeps m b s)
    (hm : Sub 847787658604 m) : Keeps m b (brownOut s a1) := by
  unfold brownOut
  repeat' first
    | with_reducible assumption
    | with_reducible apply txBrown_keeps
    | with_reducible apply raise_keeps
    | with_reducible apply leaveAvalanche_keeps
    | with_reducible apply setFw_keeps
    | with_reducible apply setPwr_keeps
    | (with_reducible refine Sub.trans (Sub.ok ?_) hm); rfl
    | dsimp only
    | split

theorem execEvBrownoutWarn_keeps {m : Nat} {b : State} {a1 a2 : Nat} {a3 : Sid} {s : State} (h : Keeps m b s)
    (hm : Sub 847789755758 m) : NextKeeps m b (execEvBrownoutWarn a1 a2 a3 s) := by
  unfold execEvBrownoutWarn
  repeat' first
    | with_reducible assumption
    | with_reducible apply NextKeeps.next
    | with_reducible apply advance_keeps
    | with_reducible apply brownOut_keeps
    | with_reducible apply setPwr_keeps
    | with_reducible apply setFree_keeps
    | with_reducible apply NextKeeps.ite
    | with_reducible apply Keeps.ite
    | (with_reducible refine Sub.trans (Sub.ok ?_) hm); rfl
    | dsimp only
    | split

theorem execBrownoutRecovery_keeps {m : Nat} {b : State} {a1 : Nat} {a2 : Sid} {s : State} (h : Keeps m b s)
    (hm : Sub 856419536366 m) : NextKeeps m b (execBrownoutRecovery a1 a2 s) := by
  unfold execBrownoutRecovery
  repeat' first
    | with_reducible assumption
    | with_reducible apply NextKeeps.next
    | with_reducible apply txBrownEnds_keeps
    | with_reducible apply advance_keeps
    | with_reducible apply raise_keeps
    | with_reducible apply resumeAvalanche_keeps
    | with_reducible apply setFw_keeps
    | with_reducible apply setPwr_keeps
    | with_reducible apply NextKeeps.ite
    | with_reducible apply Keeps.ite
    | (with_reducible refine Sub.trans (Sub.ok ?_) hm); rfl
    | dsimp only
    | split

theorem biasRest_keeps {m : Nat} {b : State} {s : State} (h : Keeps m b s)
    (hm : Sub 4194304 m) : Keeps m b (biasRest s) := by
  unfold biasRest
  repeat' first
    | with_reducible assumption
    | with_reducible apply setRf_keeps
    | (with_reducible refine Sub.trans (Sub.ok ?_) hm); rfl
    | dsimp only
    | split

theorem biasCloses_keeps {m : Nat} {b : State} {s : State} (h : Keeps m b s)
    (hm : Sub 4194304 m) : Keeps m b (biasCloses s) := by
  unfold biasCloses
  repeat' first
    | with_reducible assumption
    | with_reducible apply setRf_keeps
    | with_reducible apply Keeps.ite
    | (with_reducible refine Sub.trans (Sub.ok ?_) hm); rfl
    | dsimp only
    | split

theorem portDown_keeps {m : Nat} {b : State} {s : State} (h : Keeps m b s)
    (hm : Sub 4160 m) : Keeps m b (portDown s) := by
  unfold portDown
  repeat' first
    | with_reducible assumption
    | with_reducible apply linkTo_keeps
    | with_reducible apply Keeps.ite
    | (with_reducible refine Sub.trans (Sub.ok ?_) hm); rfl
    | dsimp only
    | split

theorem execFrostEntryComplete_keeps {m : Nat} {b : State} {a1 : Sid} {s : State} (h : Keeps m b s)
    (hm : Sub 856373140974 m) : NextKeeps m b (execFrostEntryComplete a1 s) := by
  unfold execFrostEntryComplete
  repeat' first
    | with_reducible assumption
    | with_reducible apply NextKeeps.next
    | with_reducible apply pauseAll_keeps
    | with_reducible apply advance_keeps
    | with_reducible apply settlePower_keeps
    | with_reducible apply biasRest_keeps
    | with_reducible apply portDown_keeps
    | with_reducible apply setPwr_keeps
    | with_reducible apply NextKeeps.ite
    | with_reducible apply Keeps.ite
    | (with_reducible refine Sub.trans (Sub.ok ?_) hm); rfl
    | dsimp only
    | split

theorem execFrostExit_keeps {m : Nat} {b : State} {a1 : Sid} {s : State} (h : Keeps m b s)
    (hm : Sub 856373136878 m) : NextKeeps m b (execFrostExit a1 s) := by
  unfold execFrostExit
  repeat' first
    | with_reducible assumption
    | with_reducible apply NextKeeps.next
    | with_reducible apply resumeAll_keeps
    | with_reducible apply advance_keeps
    | with_reducible apply tryAvalanche_keeps
    | with_reducible apply settlePower_keeps
    | with_reducible apply biasCloses_keeps
    | with_reducible apply firnThaws_keeps
    | with_reducible apply setPwr_keeps
    | with_reducible (refine Keeps.snd ?_ (by assumption))
    | with_reducible apply NextKeeps.ite
    | with_reducible apply Keeps.ite
    | (with_reducible refine Sub.trans (Sub.ok ?_) hm); rfl
    | dsimp only
    | split

theorem execPermafrostEntry_keeps {m : Nat} {b : State} {s : State} (h : Keeps m b s)
    (hm : Sub 1099508482046 m) : NextKeeps m b (execPermafrostEntry s) := by
  unfold execPermafrostEntry
  repeat' first
    | with_reducible assumption
    | with_reducible apply NextKeeps.next
    | with_reducible apply enterPermafrost_keeps
    | with_reducible apply NextKeeps.ite
    | with_reducible apply Keeps.ite
    | (with_reducible refine Sub.trans (Sub.ok ?_) hm); rfl
    | dsimp only
    | split

theorem execWakeTimerExpiry_keeps {m : Nat} {b : State} {s : State} (h : Keeps m b s)
    (hm : Sub 98304 m) : NextKeeps m b (execWakeTimerExpiry s) := by
  unfold execWakeTimerExpiry
  repeat' first
    | with_reducible assumption
    | with_reducible apply NextKeeps.next
    | with_reducible apply wakeBy_keeps
    | (with_reducible refine Sub.trans (Sub.ok ?_) hm); rfl
    | dsimp only
    | split

theorem execAvalancheEntryComplete_keeps {m : Nat} {b : State} {a1 : Sid} {s : State} (h : Keeps m b s)
    (hm : Sub 856352165358 m) : NextKeeps m b (execAvalancheEntryComplete a1 s) := by
  unfold execAvalancheEntryComplete
  repeat' first
    | with_reducible assumption
    | with_reducible apply NextKeeps.next
    | with_reducible apply advance_keeps
    | with_reducible apply reachAvalanche_keeps
    | with_reducible apply settlePower_keeps
    | with_reducible apply NextKeeps.ite
    | with_reducible apply Keeps.ite
    | (with_reducible refine Sub.trans (Sub.ok ?_) hm); rfl
    | dsimp only
    | split

theorem execAvalancheExitComplete_keeps {m : Nat} {b : State} {a1 : Sid} {s : State} (h : Keeps m b s)
    (hm : Sub 856352165358 m) : NextKeeps m b (execAvalancheExitComplete a1 s) := by
  unfold execAvalancheExitComplete
  repeat' first
    | with_reducible assumption
    | with_reducible apply NextKeeps.next
    | with_reducible apply advance_keeps
    | with_reducible apply surveysPause_keeps
    | with_reducible apply settlePower_keeps
    | with_reducible apply setPwr_keeps
    | with_reducible apply NextKeeps.ite
    | with_reducible apply Keeps.ite
    | (with_reducible refine Sub.trans (Sub.ok ?_) hm); rfl
    | dsimp only
    | split

theorem evTherm_keeps {m : Nat} {b : State} {s : State} {a1 a2 : Nat} (h : Keeps m b s)
    (hm : Sub 64 m) : Keeps m b (evTherm s a1 a2) := by
  unfold evTherm
  repeat' first
    | with_reducible assumption
    | with_reducible apply raise_keeps
    | (with_reducible refine Sub.trans (Sub.ok ?_) hm); rfl
    | dsimp only
    | split

theorem boostTick_keeps {m : Nat} {b : State} {s : State} (h : Keeps m b s)
    (hm : Sub 65536 m) : Keeps m b (boostTick s) := by
  unfold boostTick
  repeat' first
    | with_reducible assumption
    | with_reducible apply setPwr_keeps
    | with_reducible apply Keeps.ite
    | (with_reducible refine Sub.trans (Sub.ok ?_) hm); rfl
    | dsimp only
    | split

theorem execBoostUnitBegin_keeps {m : Nat} {b : State} {s : State} (h : Keeps m b s)
    (hm : Sub 65600 m) : NextKeeps m b (execBoostUnitBegin s) := by
  unfold execBoostUnitBegin
  repeat' first
    | with_reducible assumption
    | with_reducible apply NextKeeps.next
    | with_reducible apply evTherm_keeps
    | with_reducible apply setPwr_keeps
    | with_reducible apply NextKeeps.ite
    | with_reducible apply Keeps.ite
    | (with_reducible refine Sub.trans (Sub.ok ?_) hm); rfl
    | dsimp only
    | split

theorem shedLane_keeps {m : Nat} {b : State} {s : State} {a1 : Nat} (h : Keeps m b s)
    (hm : Sub 856352099820 m) : Keeps m b (shedLane s a1) := by
  unfold shedLane
  repeat' first
    | with_reducible assumption
    | with_reducible apply haltLane_keeps
    | with_reducible apply putLane_keeps
    | (with_reducible refine Sub.trans (Sub.ok ?_) hm); rfl
    | dsimp only
    | split

theorem restartLane_keeps {m : Nat} {b : State} {s : State} {a1 : Nat} (h : Keeps m b s)
    (hm : Sub 549798807752 m) : Keeps m b (restartLane s a1) := by
  unfold restartLane
  repeat' first
    | with_reducible assumption
    | with_reducible apply commandReset_keeps
    | with_reducible apply putLane_keeps
    | with_reducible apply usedChanged_keeps
    | with_reducible apply Keeps.ite
    | (with_reducible refine Sub.trans (Sub.ok ?_) hm); rfl
    | dsimp only
    | split

theorem takeItem_keeps {m : Nat} {b : State} {s : State} {a1 : ShedItem} (h : Keeps m b s)
    (hm : Sub 858499649004 m) : Keeps m b (takeItem s a1) := by
  unfold takeItem
  repeat' first
    | with_reducible assumption
    | with_reducible apply flurryShed_keeps
    | with_reducible apply leaveAvalanche_keeps
    | with_reducible apply shedLane_keeps
    | with_reducible apply setFirn_keeps
    | with_reducible apply Keeps.foldl
    | (with_reducible refine Sub.trans (Sub.ok ?_) hm); rfl
    | with_reducible intro _ _ _
    | dsimp only
    | split

theorem giveItem_keeps {m : Nat} {b : State} {s : State} {a1 : ShedItem} (h : Keeps m b s)
    (hm : Sub 550872549576 m) : Keeps m b (giveItem s a1) := by
  unfold giveItem
  repeat' first
    | with_reducible assumption
    | with_reducible apply flurryRestore_keeps
    | with_reducible apply restartLane_keeps
    | with_reducible apply setFirn_keeps
    | with_reducible apply Keeps.foldl
    | (with_reducible refine Sub.trans (Sub.ok ?_) hm); rfl
    | with_reducible intro _ _ _
    | dsimp only
    | split

theorem shedOne_keeps {m : Nat} {b : State} {s : State} {a1 : Bool} (h : Keeps m b s)
    (hm : Sub 858499780076 m) : Keeps m b (shedOne s a1).2 := by
  unfold shedOne
  repeat' first
    | with_reducible assumption
    | with_reducible apply takeItem_keeps
    | with_reducible apply setTherm_keeps
    | with_reducible apply Keeps.ite_snd
    | with_reducible apply Keeps.ite_fst
    | with_reducible apply Keeps.ite
    | (with_reducible refine Sub.trans (Sub.ok ?_) hm); rfl
    | dsimp only
    | split

theorem boostBack_keeps {m : Nat} {b : State} {s s2 : State} (h : Keeps m b s2)
    (hm : Sub 856352165356 m) : Keeps m b (boostBack s s2) := by
  unfold boostBack
  repeat' first
    | with_reducible assumption
    | with_reducible apply resumeAvalanche_keeps
    | with_reducible apply Keeps.ite
    | (with_reducible refine Sub.trans (Sub.ok ?_) hm); rfl

theorem restoreOne_keeps {m : Nat} {b : State} {s : State} {a1 : Bool} (h : Keeps m b s)
    (hm : Sub 856352296428 m) : Keeps m b (restoreOne s a1).2 := by
  unfold restoreOne
  repeat' first
    | with_reducible assumption
    | with_reducible apply giveItem_keeps
    | with_reducible apply boostBack_keeps
    | with_reducible apply setTherm_keeps
    | with_reducible apply Keeps.ite_snd
    | with_reducible apply Keeps.ite_fst
    | with_reducible apply Keeps.ite
    | (with_reducible refine Sub.trans (Sub.ok ?_) hm); rfl
    | dsimp only
    | split

theorem execThermalGovernorCheck_keeps {m : Nat} {b : State} {s : State} (h : Keeps m b s)
    (hm : Sub 858499780076 m) : NextKeeps m b (execThermalGovernorCheck s) := by
  unfold execThermalGovernorCheck
  repeat' first
    | with_reducible assumption
    | with_reducible apply NextKeeps.next
    | with_reducible apply evTherm_keeps
    | with_reducible apply shedOne_keeps
    | with_reducible apply restoreOne_keeps
    | with_reducible apply setTherm_keeps
    | with_reducible (refine Keeps.snd ?_ (by assumption))
    | with_reducible apply NextKeeps.ite
    | with_reducible apply Keeps.ite
    | (with_reducible refine Sub.trans (Sub.ok ?_) hm); rfl
    | dsimp only
    | split

theorem evPower_keeps {m : Nat} {b : State} {s : State} {a1 a2 : Nat} (h : Keeps m b s)
    (hm : Sub 64 m) : Keeps m b (evPower s a1 a2) := by
  unfold evPower
  repeat' first
    | with_reducible assumption
    | with_reducible apply raise_keeps
    | (with_reducible refine Sub.trans (Sub.ok ?_) hm); rfl
    | dsimp only
    | split

theorem execPowerLimitCheck_keeps {m : Nat} {b : State} {s : State} (h : Keeps m b s)
    (hm : Sub 858499780076 m) : NextKeeps m b (execPowerLimitCheck s) := by
  unfold execPowerLimitCheck
  repeat' first
    | with_reducible assumption
    | with_reducible apply NextKeeps.next
    | with_reducible apply shedOne_keeps
    | with_reducible apply restoreOne_keeps
    | with_reducible apply evPower_keeps
    | with_reducible apply setTherm_keeps
    | with_reducible (refine Keeps.snd ?_ (by assumption))
    | with_reducible apply NextKeeps.ite
    | with_reducible apply Keeps.ite
    | (with_reducible refine Sub.trans (Sub.ok ?_) hm); rfl
    | dsimp only
    | split

theorem execThermalShutdown_keeps {m : Nat} {b : State} {a1 : Int} {s : State} (h : Keeps m b s)
    (hm : Sub 1099508482046 m) : NextKeeps m b (execThermalShutdown a1 s) := by
  unfold execThermalShutdown
  repeat' first
    | with_reducible assumption
    | with_reducible apply NextKeeps.next
    | with_reducible apply enterPermafrost_keeps
    | with_reducible apply setPol_keeps
    | with_reducible apply NextKeeps.ite
    | with_reducible apply Keeps.ite
    | (with_reducible refine Sub.trans (Sub.ok ?_) hm); rfl
    | dsimp only
    | split

theorem sense_keeps {m : Nat} {b : State} {s : State} {a1 : TickIn} (h : Keeps m b s)
    (hm : Sub 196608 m) : Keeps m b (sense s a1) := by
  unfold sense
  repeat' first
    | with_reducible assumption
    | with_reducible apply setTherm_keeps
    | with_reducible apply setPwr_keeps
    | with_reducible apply Keeps.ite
    | (with_reducible refine Sub.trans (Sub.ok ?_) hm); rfl
    | dsimp only
    | split

theorem thermalWarning_keeps {m : Nat} {b : State} {s : State} (h : Keeps m b s)
    (hm : Sub 131136 m) : Keeps m b (thermalWarning s) := by
  unfold thermalWarning
  repeat' first
    | with_reducible assumption
    | with_reducible apply evTherm_keeps
    | with_reducible apply setTherm_keeps
    | with_reducible apply Keeps.ite
    | (with_reducible refine Sub.trans (Sub.ok ?_) hm); rfl
    | dsimp only
    | split

end Sys2Proof.Machine
end

