-- ==== Sys2Proof/Laws/KeepsPanel.lean ====
section
/-! SUPPORT. Laws/KeepsPanel.lean: what each operation of Machine/Panel.lean keeps. -/

set_option linter.unusedTactic false
set_option linter.unreachableTactic false
set_option linter.unusedVariables false

namespace Sys2Proof.Machine

theorem panelSetSpec_keeps : CmdSpec.Keeps 524288 panelSetSpec := by
  intro m b c s h hm
  unfold panelSetSpec
  repeat' first
    | with_reducible assumption
    | with_reducible apply ok_keeps
    | with_reducible apply okWith_keeps
    | with_reducible apply badState_keeps
    | with_reducible apply badParam_keeps
    | with_reducible apply Reply.keeps_deny
    | with_reducible apply Reply.keeps_done
    | with_reducible apply Reply.keeps_later
    | with_reducible apply Reply.keeps_busy
    | with_reducible apply setPanel_keeps
    | (with_reducible refine Sub.trans (Sub.ok ?_) hm); rfl
    | dsimp only
    | split

theorem panelGetSpec_keeps : CmdSpec.Keeps 0 panelGetSpec := by
  intro m b c s h hm
  unfold panelGetSpec
  repeat' first
    | with_reducible assumption
    | with_reducible apply ok_keeps
    | with_reducible apply okWith_keeps
    | with_reducible apply badState_keeps
    | with_reducible apply badParam_keeps
    | with_reducible apply Reply.keeps_deny
    | with_reducible apply Reply.keeps_done
    | with_reducible apply Reply.keeps_later
    | with_reducible apply Reply.keeps_busy
    | (with_reducible refine Sub.trans (Sub.ok ?_) hm); rfl
    | dsimp only
    | split

theorem queueChange_keeps {m : Nat} {b : State} {s : State} {a1 : Nat} {a2 : Bool} (h : Keeps m b s)
    (hm : Sub 524288 m) : Keeps m b (queueChange s a1 a2) := by
  unfold queueChange
  repeat' first
    | with_reducible assumption
    | with_reducible apply setPanel_keeps
    | with_reducible apply Keeps.ite
    | (with_reducible refine Sub.trans (Sub.ok ?_) hm); rfl
    | dsimp only
    | split

theorem panelChange_keeps {m : Nat} {b : State} {s : State} {a1 a2 a3 a4 : Nat} {a5 : Bool} (h : Keeps m b s)
    (hm : Sub 622656 m) : Keeps m b (panelChange s a1 a2 a3 a4 a5) := by
  unfold panelChange
  repeat' first
    | with_reducible assumption
    | with_reducible apply raiseSingle_keeps
    | with_reducible apply queueChange_keeps
    | with_reducible apply wakeBy_keeps
    | with_reducible apply Keeps.ite
    | (with_reducible refine Sub.trans (Sub.ok ?_) hm); rfl
    | dsimp only
    | split

theorem setKey_keeps {m : Nat} {b : State} {s : State} {a1 : Nat} {a2 : Bool} (h : Keeps m b s)
    (hm : Sub 622656 m) : Keeps m b (setKey s a1 a2) := by
  unfold setKey
  repeat' first
    | with_reducible assumption
    | with_reducible apply panelChange_keeps
    | with_reducible apply setPanel_keeps
    | with_reducible apply Keeps.ite
    | (with_reducible refine Sub.trans (Sub.ok ?_) hm); rfl
    | dsimp only
    | split

theorem reportWithheld_keeps {m : Nat} {b : State} {s : State} (h : Keeps m b s)
    (hm : Sub 622656 m) : Keeps m b (reportWithheld s) := by
  unfold reportWithheld
  repeat' first
    | with_reducible assumption
    | with_reducible apply setKey_keeps
    | with_reducible apply setPanel_keeps
    | with_reducible apply Keeps.foldl
    | with_reducible apply Keeps.ite
    | (with_reducible refine Sub.trans (Sub.ok ?_) hm); rfl
    | with_reducible intro _ _ _
    | dsimp only
    | split

theorem execKeyChange_keeps {m : Nat} {b : State} {a1 : Nat} {a2 : Bool} {a3 : Sid} {s : State} (h : Keeps m b s)
    (hm : Sub 622658 m) : NextKeeps m b (execKeyChange a1 a2 a3 s) := by
  unfold execKeyChange
  repeat' first
    | with_reducible assumption
    | with_reducible apply NextKeeps.next
    | with_reducible apply advance_keeps
    | with_reducible apply raise_keeps
    | with_reducible apply setKey_keeps
    | with_reducible apply reportWithheld_keeps
    | with_reducible apply setPanel_keeps
    | with_reducible apply NextKeeps.ite
    | with_reducible apply Keeps.ite
    | (with_reducible refine Sub.trans (Sub.ok ?_) hm); rfl
    | dsimp only
    | split

theorem execPlugChange_keeps {m : Nat} {b : State} {a1 : Nat} {a2 : Bool} {a3 : Sid} {s : State} (h : Keeps m b s)
    (hm : Sub 622658 m) : NextKeeps m b (execPlugChange a1 a2 a3 s) := by
  unfold execPlugChange
  repeat' first
    | with_reducible assumption
    | with_reducible apply NextKeeps.next
    | with_reducible apply advance_keeps
    | with_reducible apply panelChange_keeps
    | with_reducible apply setPanel_keeps
    | with_reducible apply NextKeeps.ite
    | with_reducible apply Keeps.ite
    | (with_reducible refine Sub.trans (Sub.ok ?_) hm); rfl
    | dsimp only
    | split

theorem detent_keeps {m : Nat} {b : State} {s : State} {a1 : Nat} {a2 : Int} (h : Keeps m b s)
    (hm : Sub 622656 m) : Keeps m b (detent s a1 a2) := by
  unfold detent
  repeat' first
    | with_reducible assumption
    | with_reducible apply panelChange_keeps
    | with_reducible apply setPanel_keeps
    | with_reducible apply Keeps.ite
    | (with_reducible refine Sub.trans (Sub.ok ?_) hm); rfl
    | dsimp only
    | split

theorem execEncoderStep_keeps {m : Nat} {b : State} {a1 : Nat} {a2 : Int} {a3 : Sid} {s : State} (h : Keeps m b s)
    (hm : Sub 622658 m) : NextKeeps m b (execEncoderStep a1 a2 a3 s) := by
  unfold execEncoderStep
  repeat' first
    | with_reducible assumption
    | with_reducible apply NextKeeps.next
    | with_reducible apply advance_keeps
    | with_reducible apply detent_keeps
    | with_reducible apply setPanel_keeps
    | with_reducible apply NextKeeps.ite
    | with_reducible apply Keeps.ite
    | (with_reducible refine Sub.trans (Sub.ok ?_) hm); rfl
    | dsimp only
    | split

theorem postDetents_keeps {m : Nat} {b : State} {s : State} {a1 : Nat} {a2 : Int} {a3 : Sid} (h : Keeps m b s)
    (hm : Sub 64 m) : Keeps m b (postDetents s a1 a2 a3) := by
  unfold postDetents
  repeat' first
    | with_reducible assumption
    | with_reducible apply raiseSingle_keeps
    | with_reducible apply Keeps.ite
    | (with_reducible refine Sub.trans (Sub.ok ?_) hm); rfl
    | dsimp only
    | split

theorem panelApply_keeps {m : Nat} {b : State} {s : State} (h : Keeps m b s)
    (hm : Sub 524288 m) : Keeps m b (panelApply s) := by
  unfold panelApply
  repeat' first
    | with_reducible assumption
    | with_reducible apply setPanel_keeps
    | (with_reducible refine Sub.trans (Sub.ok ?_) hm); rfl
    | dsimp only
    | split

theorem panelTick_keeps {m : Nat} {b : State} {s : State} (h : Keeps m b s)
    (hm : Sub 524352 m) : Keeps m b (panelTick s) := by
  unfold panelTick
  repeat' first
    | with_reducible assumption
    | with_reducible apply raiseSingle_keeps
    | with_reducible apply postDetents_keeps
    | with_reducible apply setPanel_keeps
    | with_reducible apply Keeps.foldl
    | with_reducible apply Keeps.ite
    | (with_reducible refine Sub.trans (Sub.ok ?_) hm); rfl
    | with_reducible intro _ _ _
    | dsimp only
    | split

theorem execPtt_keeps {m : Nat} {b : State} {a1 : Bool} {a2 : Sid} {s : State} (h : Keeps m b s)
    (hm : Sub 856386284910 m) : NextKeeps m b (execPtt a1 a2 s) := by
  unfold execPtt
  repeat' first
    | with_reducible assumption
    | with_reducible apply NextKeeps.next
    | with_reducible apply brkUpdate_keeps
    | with_reducible apply advance_keeps
    | with_reducible apply panelChange_keeps
    | with_reducible apply setTx_keeps
    | with_reducible apply setPanel_keeps
    | with_reducible apply NextKeeps.ite
    | with_reducible apply Keeps.ite
    | (with_reducible refine Sub.trans (Sub.ok ?_) hm); rfl
    | dsimp only
    | split

theorem pttTick_keeps {m : Nat} {b : State} {s : State} (h : Keeps m b s)
    (hm : Sub 67633152 m) : Keeps m b (pttTick s) := by
  unfold pttTick
  repeat' first
    | with_reducible assumption
    | with_reducible apply setTx_keeps
    | with_reducible apply setPanel_keeps
    | with_reducible apply Keeps.ite
    | (with_reducible refine Sub.trans (Sub.ok ?_) hm); rfl
    | dsimp only
    | split

theorem execWakeN_keeps {m : Nat} {b : State} {a1 : Nat} {a2 : Int} {a3 : Sid} {s : State} (h : Keeps m b s)
    (hm : Sub 98370 m) : NextKeeps m b (execWakeN a1 a2 a3 s) := by
  unfold execWakeN
  repeat' first
    | with_reducible assumption
    | with_reducible apply NextKeeps.next
    | with_reducible apply advance_keeps
    | with_reducible apply raise_keeps
    | with_reducible apply wakeBy_keeps
    | with_reducible apply NextKeeps.ite
    | with_reducible apply Keeps.ite
    | (with_reducible refine Sub.trans (Sub.ok ?_) hm); rfl
    | dsimp only
    | split

theorem execIrqNUpdate_keeps {m : Nat} {b : State} {s : State} (h : Keeps m b s)
    (hm : Sub 524288 m) : NextKeeps m b (execIrqNUpdate s) := by
  unfold execIrqNUpdate
  repeat' first
    | with_reducible assumption
    | with_reducible apply NextKeeps.next
    | with_reducible apply setPanel_keeps
    | (with_reducible refine Sub.trans (Sub.ok ?_) hm); rfl
    | dsimp only
    | split

end Sys2Proof.Machine
end

