-- ==== Sys2Proof/Laws/KeepsHostLink.lean ====
section
/-! SUPPORT. Laws/KeepsHostLink.lean: what each operation of Machine/HostLink.lean keeps. -/

set_option linter.unusedTactic false
set_option linter.unreachableTactic false
set_option linter.unusedVariables false

namespace Sys2Proof.Machine

theorem endFlight_keeps {m : Nat} {b : State} {s : State} {a1 : InFlight} (h : Keeps m b s)
    (hm : Sub 847720238444 m) : Keeps m b (endFlight s a1) := by
  unfold endFlight
  repeat' first
    | with_reducible assumption
    | with_reducible apply complete_keeps
    | with_reducible apply abortFlight_keeps
    | with_reducible apply Keeps.ite
    | (with_reducible refine Sub.trans (Sub.ok ?_) hm); rfl
    | dsimp only
    | split

theorem legacyStop_keeps {m : Nat} {b : State} {s : State} {a1 : Nat} (h : Keeps m b s)
    (hm : Sub 858499583468 m) : Keeps m b (legacyStop s a1) := by
  unfold legacyStop
  repeat' first
    | with_reducible assumption
    | with_reducible apply stopLane_keeps
    | with_reducible apply abandonSwitch_keeps
    | with_reducible apply Keeps.ite
    | (with_reducible refine Sub.trans (Sub.ok ?_) hm); rfl
    | dsimp only
    | split

theorem legacyOn_keeps {m : Nat} {b : State} {s : State} (h : Keeps m b s)
    (hm : Sub 858516377580 m) : Keeps m b (legacyOn s) := by
  unfold legacyOn
  repeat' first
    | with_reducible assumption
    | with_reducible apply endFlight_keeps
    | with_reducible apply legacyStop_keeps
    | with_reducible apply legacyZones_keeps
    | with_reducible apply setHcfg_keeps
    | with_reducible apply Keeps.foldl
    | with_reducible apply Keeps.ite
    | (with_reducible refine Sub.trans (Sub.ok ?_) hm); rfl
    | with_reducible intro _ _ _
    | dsimp only
    | split

theorem legacyOff_keeps {m : Nat} {b : State} {s : State} (h : Keeps m b s)
    (hm : Sub 858499600364 m) : Keeps m b (legacyOff s) := by
  unfold legacyOff
  repeat' first
    | with_reducible assumption
    | with_reducible apply endFlight_keeps
    | with_reducible apply legacyStop_keeps
    | with_reducible apply releaseLane_keeps
    | with_reducible apply setHcfg_keeps
    | with_reducible apply setLeg_keeps
    | with_reducible apply Keeps.foldl
    | (with_reducible refine Sub.trans (Sub.ok ?_) hm); rfl
    | with_reducible intro _ _ _
    | dsimp only
    | split

theorem legEnTo_keeps {m : Nat} {b : State} {a1 : Bool} {s : State} (h : Keeps m b s)
    (hm : Sub 858516377580 m) : Keeps m b (legEnTo a1 s) := by
  unfold legEnTo
  repeat' first
    | with_reducible assumption
    | with_reducible apply legacyOn_keeps
    | with_reducible apply legacyOff_keeps
    | with_reducible apply Keeps.ite
    | (with_reducible refine Sub.trans (Sub.ok ?_) hm); rfl
    | dsimp only
    | split

theorem ctrlFailCleared_keeps {m : Nat} {b : State} {s : State} (h : Keeps m b s)
    (hm : Sub 800 m) : Keeps m b (ctrlFailCleared s) := by
  unfold ctrlFailCleared
  repeat' first
    | with_reducible assumption
    | with_reducible apply setMbx_keeps
    | with_reducible apply setHcfg_keeps
    | with_reducible apply setI2c_keeps
    | with_reducible apply Keeps.ite
    | (with_reducible refine Sub.trans (Sub.ok ?_) hm); rfl
    | dsimp only
    | split

theorem hcfgWrite_keeps {m : Nat} {b : State} {s : State} {a1 a2 : Nat} (h : Keeps m b s)
    (hm : Sub 858516377580 m) : Keeps m b (hcfgWrite s a1 a2) := by
  unfold hcfgWrite
  repeat' first
    | with_reducible assumption
    | with_reducible apply legEnTo_keeps
    | with_reducible apply ctrlFailCleared_keeps
    | with_reducible apply setHcfg_keeps
    | with_reducible apply Keeps.ite
    | (with_reducible refine Sub.trans (Sub.ok ?_) hm); rfl
    | dsimp only
    | split

theorem legacyGo_keeps {m : Nat} {b : State} {s : State} {a1 : Nat} (h : Keeps m b s)
    (hm : Sub 1024 m) : Keeps m b (legacyGo s a1) := by
  unfold legacyGo
  repeat' first
    | with_reducible assumption
    | with_reducible apply setLeg_keeps
    | (with_reducible refine Sub.trans (Sub.ok ?_) hm); rfl
    | dsimp only
    | split

theorem legacyArg_keeps {m : Nat} {b : State} {s : State} {a1 : Nat} {a2 : Byte} (h : Keeps m b s)
    (hm : Sub 1024 m) : Keeps m b (legacyArg s a1 a2) := by
  unfold legacyArg
  repeat' first
    | with_reducible assumption
    | with_reducible apply setLeg_keeps
    | (with_reducible refine Sub.trans (Sub.ok ?_) hm); rfl
    | dsimp only
    | split

theorem applyPend_keeps {m : Nat} {b : State} {s : State} {a1 : Nat × Nat × Byte} (h : Keeps m b s)
    (hm : Sub 858516377580 m) : Keeps m b (applyPend s a1) := by
  unfold applyPend
  repeat' first
    | with_reducible assumption
    | with_reducible apply hcfgWrite_keeps
    | with_reducible apply legacyGo_keeps
    | with_reducible apply legacyArg_keeps
    | with_reducible apply setI2c_keeps
    | with_reducible apply Keeps.ite
    | (with_reducible refine Sub.trans (Sub.ok ?_) hm); rfl
    | dsimp only
    | split

theorem applyPends_keeps {m : Nat} {b : State} {s : State} (h : Keeps m b s)
    (hm : Sub 858516377580 m) : Keeps m b (applyPends s) := by
  unfold applyPends
  repeat' first
    | with_reducible assumption
    | with_reducible apply applyPend_keeps
    | with_reducible apply setI2c_keeps
    | with_reducible apply Keeps.foldl
    | (with_reducible refine Sub.trans (Sub.ok ?_) hm); rfl
    | with_reducible intro _ _ _
    | dsimp only
    | split

theorem defer_keeps {m : Nat} {b : State} {a1 : Link} {s : State} {a2 a3 : Nat} {a4 : Byte} (h : Keeps m b s)
    (hm : Sub 858516377580 m) : Keeps m b (defer a1 s a2 a3 a4) := by
  unfold defer
  repeat' first
    | with_reducible assumption
    | with_reducible apply applyPend_keeps
    | with_reducible apply setI2c_keeps
    | (with_reducible refine Sub.trans (Sub.ok ?_) hm); rfl
    | dsimp only
    | split

theorem ctrlWrite_keeps {m : Nat} {b : State} {a1 : Link} {a2 : Nat} {s : State} (h : Keeps m b s)
    (hm : Sub 32 m) : Keeps m b (ctrlWrite a1 a2 s).2 := by
  unfold ctrlWrite
  repeat' first
    | with_reducible assumption
    | with_reducible apply setMbx_keeps
    | with_reducible apply Keeps.ite_snd
    | with_reducible apply Keeps.ite_fst
    | with_reducible apply Keeps.ite
    | (with_reducible refine Sub.trans (Sub.ok ?_) hm); rfl
    | dsimp only
    | split

theorem mailboxWrite_keeps {m : Nat} {b : State} {a1 : Link} {a2 : Nat} {a3 : Byte} {s : State} (h : Keeps m b s)
    (hm : Sub 32 m) : Keeps m b (mailboxWrite a1 a2 a3 s).2 := by
  unfold mailboxWrite
  repeat' first
    | with_reducible assumption
    | with_reducible apply ctrlWrite_keeps
    | with_reducible apply setMbx_keeps
    | with_reducible (refine Keeps.snd ?_ (by assumption))
    | with_reducible apply Keeps.ite_snd
    | with_reducible apply Keeps.ite_fst
    | with_reducible apply Keeps.ite
    | (with_reducible refine Sub.trans (Sub.ok ?_) hm); rfl
    | dsimp only
    | split

theorem legacyWrite_keeps {m : Nat} {b : State} {a1 : Link} {a2 : Nat} {a3 : Byte} {s : State} (h : Keeps m b s)
    (hm : Sub 858516377580 m) : Keeps m b (legacyWrite a1 a2 a3 s).2 := by
  unfold legacyWrite
  repeat' first
    | with_reducible assumption
    | with_reducible apply defer_keeps
    | with_reducible apply setLeg_keeps
    | with_reducible apply Keeps.ite_snd
    | with_reducible apply Keeps.ite_fst
    | with_reducible apply Keeps.ite
    | (with_reducible refine Sub.trans (Sub.ok ?_) hm); rfl
    | dsimp only
    | split

theorem writeByte_keeps {m : Nat} {b : State} {a1 : Link} {a2 a3 : Nat} {a4 : Byte} {s : State} (h : Keeps m b s)
    (hm : Sub 858516377580 m) : Keeps m b (writeByte a1 a2 a3 a4 s).2 := by
  unfold writeByte
  repeat' first
    | with_reducible assumption
    | with_reducible apply defer_keeps
    | with_reducible apply mailboxWrite_keeps
    | with_reducible apply legacyWrite_keeps
    | with_reducible apply Keeps.ite_snd
    | with_reducible apply Keeps.ite
    | with_reducible apply setVlog_keeps
    | exact fun g => g
    | exact fun g => ⟨Nat.zero_le _, g.2⟩
    | (with_reducible refine Sub.trans (Sub.ok ?_) hm); rfl
    | dsimp only
    | split

theorem writeBytes_keeps {m : Nat} {b : State} {a1 a2 : Nat} {a3 : Bytes} {s : State} (h : Keeps m b s)
    (hm : Sub 858516377580 m) : Keeps m b (writeBytes a1 a2 a3 s).2 := by
  induction a3 generalizing a2 s with
  | nil =>
    unfold writeBytes
    repeat' first
      | with_reducible assumption
      | with_reducible apply ih
      | with_reducible apply writeByte_keeps
      | with_reducible (refine Keeps.snd ?_ (by assumption))
      | (with_reducible refine Sub.trans (Sub.ok ?_) hm); rfl
      | dsimp only
      | split
  | cons x xs ih =>
    unfold writeBytes
    repeat' first
      | with_reducible assumption
      | with_reducible apply ih
      | with_reducible apply writeByte_keeps
      | with_reducible (refine Keeps.snd ?_ (by assumption))
      | (with_reducible refine Sub.trans (Sub.ok ?_) hm); rfl
      | dsimp only
      | split

theorem pcieWrite_keeps {m : Nat} {b : State} {a1 a2 : Nat} {a3 : Bytes} {s : State} (h : Keeps m b s)
    (hm : Sub 858516377580 m) : Keeps m b (pcieWrite a1 a2 a3 s) := by
  unfold pcieWrite
  repeat' first
    | with_reducible assumption
    | with_reducible apply writeBytes_keeps
    | with_reducible apply regViolation_keeps
    | with_reducible apply unsupported_keeps
    | with_reducible apply execDoorbellWrite_keeps
    | with_reducible apply sendPending_keeps
    | with_reducible apply setPcie_keeps
    | with_reducible (refine Keeps.snd ?_ (by assumption))
    | with_reducible (refine NextKeeps.out (o := _) ?_ _ (by assumption))
    | with_reducible apply Keeps.ite
    | (with_reducible refine Sub.trans (Sub.ok ?_) hm); rfl
    | dsimp only
    | split

theorem i2cByte_keeps {m : Nat} {b : State} {s : State} {a1 : Byte} (h : Keeps m b s)
    (hm : Sub 858516377580 m) : Keeps m b (i2cByte s a1) := by
  unfold i2cByte
  repeat' first
    | with_reducible assumption
    | with_reducible apply writeByte_keeps
    | with_reducible apply regViolation_keeps
    | with_reducible apply setI2c_keeps
    | with_reducible (refine Keeps.snd ?_ (by assumption))
    | (with_reducible refine Sub.trans (Sub.ok ?_) hm); rfl
    | dsimp only
    | split

theorem releaseSda_keeps {m : Nat} {b : State} {s : State} (h : Keeps m b s)
    (hm : Sub 256 m) : Keeps m b (releaseSda s) := by
  unfold releaseSda
  repeat' first
    | with_reducible assumption
    | with_reducible apply setI2c_keeps
    | (with_reducible refine Sub.trans (Sub.ok ?_) hm); rfl
    | dsimp only
    | split

theorem execRegisterWrite_keeps {m : Nat} {b : State} {a1 : Link} {a2 a3 : Byte} {a4 : Bytes} {s : State} (h : Keeps m b s)
    (hm : Sub 858516377580 m) : NextKeeps m b (execRegisterWrite a1 a2 a3 a4 s) := by
  unfold execRegisterWrite
  repeat' first
    | with_reducible assumption
    | with_reducible apply NextKeeps.next
    | with_reducible apply pcieWrite_keeps
    | with_reducible apply i2cByte_keeps
    | with_reducible apply Keeps.foldl
    | with_reducible apply NextKeeps.ite
    | with_reducible apply Keeps.ite
    | (with_reducible refine Sub.trans (Sub.ok ?_) hm); rfl
    | with_reducible intro _ _ _
    | dsimp only
    | split

theorem execPageSel_keeps {m : Nat} {b : State} {a1 : Byte} {s : State} (h : Keeps m b s)
    (hm : Sub 256 m) : NextKeeps m b (execPageSel a1 s) := by
  unfold execPageSel
  repeat' first
    | with_reducible assumption
    | with_reducible apply NextKeeps.next
    | with_reducible apply setI2c_keeps
    | (with_reducible refine Sub.trans (Sub.ok ?_) hm); rfl
    | dsimp only
    | split

theorem execLegEn_keeps {m : Nat} {b : State} {a1 : Link} {a2 : Bool} {s : State} (h : Keeps m b s)
    (hm : Sub 858516377580 m) : NextKeeps m b (execLegEn a1 a2 s) := by
  unfold execLegEn
  repeat' first
    | with_reducible assumption
    | with_reducible apply NextKeeps.next
    | with_reducible apply defer_keeps
    | (with_reducible refine Sub.trans (Sub.ok ?_) hm); rfl
    | dsimp only
    | split

theorem execCtrlFailClear_keeps {m : Nat} {b : State} {a1 : Link} {s : State} (h : Keeps m b s)
    (hm : Sub 858516377580 m) : NextKeeps m b (execCtrlFailClear a1 s) := by
  unfold execCtrlFailClear
  repeat' first
    | with_reducible assumption
    | with_reducible apply NextKeeps.next
    | with_reducible apply defer_keeps
    | (with_reducible refine Sub.trans (Sub.ok ?_) hm); rfl
    | dsimp only
    | split

theorem execI2cStart_keeps {m : Nat} {b : State} {s : State} (h : Keeps m b s)
    (hm : Sub 256 m) : NextKeeps m b (execI2cStart s) := by
  unfold execI2cStart
  repeat' first
    | with_reducible assumption
    | with_reducible apply NextKeeps.next
    | with_reducible apply releaseSda_keeps
    | with_reducible apply setI2c_keeps
    | (with_reducible refine Sub.trans (Sub.ok ?_) hm); rfl
    | dsimp only
    | split

theorem takeAddress_keeps {m : Nat} {b : State} {s : State} {a1 : Bool} (h : Keeps m b s)
    (hm : Sub 256 m) : Keeps m b (takeAddress s a1) := by
  unfold takeAddress
  repeat' first
    | with_reducible assumption
    | with_reducible apply setI2c_keeps
    | with_reducible apply Keeps.ite
    | (with_reducible refine Sub.trans (Sub.ok ?_) hm); rfl
    | dsimp only
    | split

theorem execI2cAddress_keeps {m : Nat} {b : State} {a1 : Byte} {s : State} (h : Keeps m b s)
    (hm : Sub 65792 m) : NextKeeps m b (execI2cAddress a1 s) := by
  unfold execI2cAddress
  repeat' first
    | with_reducible assumption
    | with_reducible apply NextKeeps.next
    | with_reducible apply takeAddress_keeps
    | with_reducible apply leaveFrost_keeps
    | with_reducible apply setI2c_keeps
    | with_reducible apply NextKeeps.ite
    | with_reducible apply Keeps.ite
    | (with_reducible refine Sub.trans (Sub.ok ?_) hm); rfl
    | dsimp only
    | split

theorem execI2cStop_keeps {m : Nat} {b : State} {s : State} (h : Keeps m b s)
    (hm : Sub 858516377580 m) : NextKeeps m b (execI2cStop s) := by
  unfold execI2cStop
  repeat' first
    | with_reducible assumption
    | with_reducible apply NextKeeps.next
    | with_reducible apply applyPends_keeps
    | with_reducible apply releaseSda_keeps
    | with_reducible apply setI2c_keeps
    | (with_reducible refine Sub.trans (Sub.ok ?_) hm); rfl
    | dsimp only
    | split

theorem execI2cRepeatedStart_keeps {m : Nat} {b : State} {s : State} (h : Keeps m b s)
    (hm : Sub 858516377580 m) : NextKeeps m b (execI2cRepeatedStart s) := by
  unfold execI2cRepeatedStart
  repeat' first
    | with_reducible assumption
    | with_reducible apply NextKeeps.next
    | with_reducible apply applyPends_keeps
    | with_reducible apply releaseSda_keeps
    | with_reducible apply setI2c_keeps
    | (with_reducible refine Sub.trans (Sub.ok ?_) hm); rfl
    | dsimp only
    | split

theorem execI2cControllerNack_keeps {m : Nat} {b : State} {s : State} (h : Keeps m b s)
    (hm : Sub 256 m) : NextKeeps m b (execI2cControllerNack s) := by
  unfold execI2cControllerNack
  repeat' first
    | with_reducible assumption
    | with_reducible apply NextKeeps.next
    | with_reducible apply setI2c_keeps
    | with_reducible apply NextKeeps.ite
    | with_reducible apply Keeps.ite
    | (with_reducible refine Sub.trans (Sub.ok ?_) hm); rfl
    | dsimp only
    | split

theorem execI2cWakeAddressMatch_keeps {m : Nat} {b : State} {a1 : Byte} {a2 : Int} {s : State} (h : Keeps m b s)
    (hm : Sub 98560 m) : NextKeeps m b (execI2cWakeAddressMatch a1 a2 s) := by
  unfold execI2cWakeAddressMatch
  repeat' first
    | with_reducible assumption
    | with_reducible apply NextKeeps.next
    | with_reducible apply takeAddress_keeps
    | with_reducible apply wakeUp_keeps
    | with_reducible apply setI2c_keeps
    | with_reducible apply NextKeeps.ite
    | with_reducible apply Keeps.ite
    | (with_reducible refine Sub.trans (Sub.ok ?_) hm); rfl
    | dsimp only
    | split

theorem execEvBusStuck_keeps {m : Nat} {b : State} {a1 : Sid} {s : State} (h : Keeps m b s)
    (hm : Sub 834 m) : NextKeeps m b (execEvBusStuck a1 s) := by
  unfold execEvBusStuck
  repeat' first
    | with_reducible assumption
    | with_reducible apply NextKeeps.next
    | with_reducible apply advance_keeps
    | with_reducible apply raise_keeps
    | with_reducible apply setHcfg_keeps
    | with_reducible apply setI2c_keeps
    | with_reducible apply NextKeeps.ite
    | with_reducible apply Keeps.ite
    | (with_reducible refine Sub.trans (Sub.ok ?_) hm); rfl
    | dsimp only
    | split

theorem execInBandRequest_keeps {m : Nat} {b : State} {s : State} (h : Keeps m b s)
    (hm : Sub 288 m) : NextKeeps m b (execInBandRequest s) := by
  unfold execInBandRequest
  repeat' first
    | with_reducible assumption
    | with_reducible apply NextKeeps.next
    | with_reducible apply setI2c_keeps
    | with_reducible apply setMbx_keeps
    | with_reducible apply NextKeeps.ite
    | with_reducible apply Keeps.ite
    | (with_reducible refine Sub.trans (Sub.ok ?_) hm); rfl
    | dsimp only
    | split

theorem execIbrCollision_keeps {m : Nat} {b : State} {s : State} (h : Keeps m b s)
    (hm : Sub 800 m) : NextKeeps m b (execIbrCollision s) := by
  unfold execIbrCollision
  repeat' first
    | with_reducible assumption
    | with_reducible apply NextKeeps.next
    | with_reducible apply releaseSda_keeps
    | with_reducible apply setMbx_keeps
    | with_reducible apply setHcfg_keeps
    | with_reducible apply NextKeeps.ite
    | with_reducible apply Keeps.ite
    | (with_reducible refine Sub.trans (Sub.ok ?_) hm); rfl
    | dsimp only
    | split

theorem execControllerWrite_keeps {m : Nat} {b : State} {a1 : CtrlResult} {s : State} (h : Keeps m b s)
    (hm : Sub 800 m) : NextKeeps m b (execControllerWrite a1 s) := by
  unfold execControllerWrite
  repeat' first
    | with_reducible assumption
    | with_reducible apply NextKeeps.next
    | with_reducible apply setHcfg_keeps
    | with_reducible apply setMbx_keeps
    | with_reducible apply setI2c_keeps
    | with_reducible apply NextKeeps.ite
    | with_reducible apply Keeps.ite
    | (with_reducible refine Sub.trans (Sub.ok ?_) hm); rfl
    | dsimp only
    | split

end Sys2Proof.Machine
end

