-- ==== Sys2Proof/Laws/KeepsSystem.lean ====
section
/-! SUPPORT. Laws/KeepsSystem.lean: what each operation of Machine/System.lean keeps. -/

set_option linter.unusedTactic false
set_option linter.unreachableTactic false
set_option linter.unusedVariables false

namespace Sys2Proof.Machine

theorem identifySpec_keeps : CmdSpec.Keeps 0 identifySpec := by
  intro m b c s h hm
  unfold identifySpec
  repeat' first
    | with_reducible assumption
    | with_reducible apply ok_keeps
    | with_reducible apply okWith_keeps
    | with_reducible apply badState_keeps
    | with_reducible apply badParam_keeps
    | with_reducible apply Reply.keeps_deny
    | with_reducible apply Reply.keeps_done
    | with_reducible apply Reply.keeps_later
    | with_reducible apply Reply.keeps_busy
    | (with_reducible refine Sub.trans (Sub.ok ?_) hm); rfl
    | dsimp only
    | split

theorem getStatusSpec_keeps : CmdSpec.Keeps 0 getStatusSpec := by
  intro m b c s h hm
  unfold getStatusSpec
  repeat' first
    | with_reducible assumption
    | with_reducible apply ok_keeps
    | with_reducible apply okWith_keeps
    | with_reducible apply badState_keeps
    | with_reducible apply badParam_keeps
    | with_reducible apply Reply.keeps_deny
    | with_reducible apply Reply.keeps_done
    | with_reducible apply Reply.keeps_later
    | with_reducible apply Reply.keeps_busy
    | (with_reducible refine Sub.trans (Sub.ok ?_) hm); rfl
    | dsimp only
    | split

theorem getCapsSpec_keeps : CmdSpec.Keeps 0 getCapsSpec := by
  intro m b c s h hm
  unfold getCapsSpec
  repeat' first
    | with_reducible assumption
    | with_reducible apply ok_keeps
    | with_reducible apply okWith_keeps
    | with_reducible apply badState_keeps
    | with_reducible apply badParam_keeps
    | with_reducible apply Reply.keeps_deny
    | with_reducible apply Reply.keeps_done
    | with_reducible apply Reply.keeps_later
    | with_reducible apply Reply.keeps_busy
    | with_reducible apply Reply.Keeps.ite
    | with_reducible apply Keeps.ite
    | (with_reducible refine Sub.trans (Sub.ok ?_) hm); rfl
    | dsimp only
    | split

theorem abortExecuting_keeps {m : Nat} {b : State} {s : State} {a1 : InFlight} (h : Keeps m b s)
    (hm : Sub 858583469548 m) : OptKeeps m b (abortExecuting s a1) := by
  unfold abortExecuting
  repeat' first
    | with_reducible assumption
    | with_reducible apply OptKeeps.of_none
    | with_reducible apply OptKeeps.of_some
    | with_reducible apply dropPending_keeps
    | with_reducible apply dropService_keeps
    | with_reducible apply endReplay_keeps
    | with_reducible apply putSap_keeps
    | with_reducible apply OptKeeps.ite
    | with_reducible apply Keeps.ite
    | (with_reducible refine Sub.trans (Sub.ok ?_) hm); rfl
    | dsimp only
    | split

theorem cmdAbortUnit_keeps {m : Nat} {b : State} {a1 : Cmd} {s : State} (h : Keeps m b s)
    (hm : Sub 858583485932 m) : Reply.Keeps m b (cmdAbortUnit a1 s) := by
  unfold cmdAbortUnit
  repeat' first
    | with_reducible assumption
    | with_reducible apply ok_keeps
    | with_reducible apply okWith_keeps
    | with_reducible apply badState_keeps
    | with_reducible apply badParam_keeps
    | with_reducible apply Reply.keeps_deny
    | with_reducible apply Reply.keeps_done
    | with_reducible apply Reply.keeps_later
    | with_reducible apply Reply.keeps_busy
    | with_reducible apply OptKeeps.getD
    | with_reducible apply complete_keeps
    | with_reducible apply abortFlight_keeps
    | with_reducible apply abortExecuting_keeps
    | with_reducible (refine OptKeeps.get (t := _) ?_ (by assumption))
    | with_reducible apply Reply.Keeps.ite
    | with_reducible apply Keeps.ite
    | (with_reducible refine Sub.trans (Sub.ok ?_) hm); rfl
    | dsimp only
    | split

theorem cmdAbortSpec_keeps : CmdSpec.Keeps 858583485932 cmdAbortSpec := by
  intro m b c s h hm
  unfold cmdAbortSpec
  repeat' first
    | with_reducible assumption
    | with_reducible apply ok_keeps
    | with_reducible apply okWith_keeps
    | with_reducible apply badState_keeps
    | with_reducible apply badParam_keeps
    | with_reducible apply Reply.keeps_deny
    | with_reducible apply Reply.keeps_done
    | with_reducible apply Reply.keeps_later
    | with_reducible apply Reply.keeps_busy
    | with_reducible apply cmdAbortUnit_keeps
    | (with_reducible refine Sub.trans (Sub.ok ?_) hm); rfl
    | dsimp only
    | split

theorem execNop_keeps {m : Nat} {b : State} {a1 : Args} {s : State} (h : Keeps m b s)
    (hm : Sub 549756866024 m) : NextKeeps m b (execNop a1 s) := by
  unfold execNop
  repeat' first
    | with_reducible assumption
    | with_reducible apply NextKeeps.next
    | with_reducible apply malformed_keeps
    | with_reducible apply NextKeeps.ite
    | with_reducible apply Keeps.ite
    | (with_reducible refine Sub.trans (Sub.ok ?_) hm); rfl
    | dsimp only
    | split

end Sys2Proof.Machine
end

