-- ==== Sys2Proof/Laws/KeepsMeridian.lean ====
section
/-! SUPPORT. Laws/KeepsMeridian.lean: what each operation of Machine/Meridian.lean keeps. -/

set_option linter.unusedTactic false
set_option linter.unreachableTactic false
set_option linter.unusedVariables false

namespace Sys2Proof.Machine

theorem evSchedOf_keeps {m : Nat} {b : State} {s : State} {a1 a2 a3 : Nat} (h : Keeps m b s)
    (hm : Sub 64 m) : Keeps m b (evSchedOf s a1 a2 a3) := by
  unfold evSchedOf
  dsimp only
  exact setEv_keeps (raise_keeps h (Sub.trans (Sub.ok rfl) hm)) (Sub.trans (Sub.ok rfl) hm)
    (EvOk.map fun w => by split <;> exact ⟨rfl, rfl⟩)

theorem putSlot_keeps {m : Nat} {b : State} {s : State} {a1 : Nat} {a2 : Option Slot} (h : Keeps m b s)
    (hm : Sub 16384 m) : Keeps m b (putSlot s a1 a2) := by
  unfold putSlot
  repeat' first
    | with_reducible assumption
    | with_reducible apply setMerid_keeps
    | (with_reducible refine Sub.trans (Sub.ok ?_) hm); rfl
    | dsimp only
    | split

theorem CmdSpec.Keeps.weaken {k l : Nat} {sp : CmdSpec} (h : CmdSpec.Keeps k sp) (hk : Sub k l) : CmdSpec.Keeps l sp :=
  fun m b c s hs hl => h m b c s hs (Sub.trans hk hl)

theorem plainSpecs_keep : ∀ p ∈ plainSpecs, CmdSpec.Keeps packetSet p := by
  unfold plainSpecs
  refine List.forall_mem_append.2 ⟨?_, ?_⟩
  · refine List.forall_mem_append.2 ⟨?_, ?_⟩
    · refine List.forall_mem_append.2 ⟨?_, ?_⟩
      · refine List.forall_mem_append.2 ⟨?_, ?_⟩
        · refine List.forall_mem_append.2 ⟨?_, ?_⟩
          · refine List.forall_mem_append.2 ⟨?_, ?_⟩
            · refine List.forall_mem_append.2 ⟨?_, ?_⟩
              · refine List.forall_mem_append.2 ⟨?_, ?_⟩
                · refine List.forall_mem_append.2 ⟨?_, ?_⟩
                  · refine List.forall_mem_append.2 ⟨?_, ?_⟩
                    · refine List.forall_mem_append.2 ⟨?_, ?_⟩
                      · refine List.forall_mem_append.2 ⟨?_, ?_⟩
                        · refine List.forall_mem_append.2 ⟨?_, ?_⟩
                          · refine List.forall_mem_cons.2 ⟨identifySpec_keeps.weaken (Sub.ok rfl), ?_⟩
                            refine List.forall_mem_cons.2 ⟨getStatusSpec_keeps.weaken (Sub.ok rfl), ?_⟩
                            refine List.forall_mem_cons.2 ⟨getCapsSpec_keeps.weaken (Sub.ok rfl), ?_⟩
                            refine List.forall_mem_cons.2 ⟨pwrStateSetSpec_keeps.weaken (Sub.ok rfl), ?_⟩
                            refine List.forall_mem_cons.2 ⟨pwrGetSpec_keeps.weaken (Sub.ok rfl), ?_⟩
                            refine List.forall_mem_cons.2 ⟨pwrLimitSetSpec_keeps.weaken (Sub.ok rfl), ?_⟩
                            exact List.forall_mem_nil _
                          · refine List.forall_mem_cons.2 ⟨ringCreateSpec_keeps.weaken (Sub.ok rfl), ?_⟩
                            refine List.forall_mem_cons.2 ⟨ringDestroySpec_keeps.weaken (Sub.ok rfl), ?_⟩
                            refine List.forall_mem_cons.2 ⟨ringResetSpec_keeps.weaken (Sub.ok rfl), ?_⟩
                            refine List.forall_mem_cons.2 ⟨winSetSpec_keeps.weaken (Sub.ok rfl), ?_⟩
                            refine List.forall_mem_cons.2 ⟨eventWindowSetSpec_keeps.weaken (Sub.ok rfl), ?_⟩
                            exact List.forall_mem_nil _
                        · refine List.forall_mem_cons.2 ⟨refSetSpec_keeps.weaken (Sub.ok rfl), ?_⟩
                          refine List.forall_mem_cons.2 ⟨lockSetSpec_keeps.weaken (Sub.ok rfl), ?_⟩
                          refine List.forall_mem_cons.2 ⟨mclkSetSpec_keeps.weaken (Sub.ok rfl), ?_⟩
                          refine List.forall_mem_cons.2 ⟨refoutSetSpec_keeps.weaken (Sub.ok rfl), ?_⟩
                          refine List.forall_mem_cons.2 ⟨ppsoutSetSpec_keeps.weaken (Sub.ok rfl), ?_⟩
                          refine List.forall_mem_cons.2 ⟨clockGetSpec_keeps.weaken (Sub.ok rfl), ?_⟩
                          refine List.forall_mem_cons.2 ⟨auroraSetSpec_keeps.weaken (Sub.ok rfl), ?_⟩
                          refine List.forall_mem_cons.2 ⟨auroraRunSpec_keeps.weaken (Sub.ok rfl), ?_⟩
                          refine List.forall_mem_cons.2 ⟨auroraGetSpec_keeps.weaken (Sub.ok rfl), ?_⟩
                          exact List.forall_mem_nil _
                      · refine List.forall_mem_cons.2 ⟨antSetSpec_keeps.weaken (Sub.ok rfl), ?_⟩
                        refine List.forall_mem_cons.2 ⟨biasSetSpec_keeps.weaken (Sub.ok rfl), ?_⟩
                        refine List.forall_mem_cons.2 ⟨rfCalSpec_keeps.weaken (Sub.ok rfl), ?_⟩
                        refine List.forall_mem_cons.2 ⟨rfStatusGetSpec_keeps.weaken (Sub.ok rfl), ?_⟩
                        refine List.forall_mem_cons.2 ⟨blankSetSpec_keeps.weaken (Sub.ok rfl), ?_⟩
                        refine List.forall_mem_cons.2 ⟨divSetSpec_keeps.weaken (Sub.ok rfl), ?_⟩
                        exact List.forall_mem_nil _
                    · refine List.forall_mem_cons.2 ⟨zoneTuneSpec_keeps.weaken (Sub.ok rfl), ?_⟩
                      refine List.forall_mem_cons.2 ⟨zoneGetSpec_keeps.weaken (Sub.ok rfl), ?_⟩
                      refine List.forall_mem_cons.2 ⟨laneSetSpec_keeps.weaken (Sub.ok rfl), ?_⟩
                      refine List.forall_mem_cons.2 ⟨laneTuneSpec_keeps.weaken (Sub.ok rfl), ?_⟩
                      refine List.forall_mem_cons.2 ⟨laneStartSpec_keeps.weaken (Sub.ok rfl), ?_⟩
                      refine List.forall_mem_cons.2 ⟨laneStopSpec_keeps.weaken (Sub.ok rfl), ?_⟩
                      refine List.forall_mem_cons.2 ⟨laneSyncSpec_keeps.weaken (Sub.ok rfl), ?_⟩
                      refine List.forall_mem_cons.2 ⟨laneStreamSpec_keeps.weaken (Sub.ok rfl), ?_⟩
                      refine List.forall_mem_cons.2 ⟨laneGetSpec_keeps.weaken (Sub.ok rfl), ?_⟩
                      exact List.forall_mem_nil _
                  · refine List.forall_mem_cons.2 ⟨amSetSpec_keeps.weaken (Sub.ok rfl), ?_⟩
                    refine List.forall_mem_cons.2 ⟨fmSetSpec_keeps.weaken (Sub.ok rfl), ?_⟩
                    refine List.forall_mem_cons.2 ⟨qualityGetSpec_keeps.weaken (Sub.ok rfl), ?_⟩
                    refine List.forall_mem_cons.2 ⟨rdsStreamSpec_keeps.weaken (Sub.ok rfl), ?_⟩
                    refine List.forall_mem_cons.2 ⟨rdsGetSpec_keeps.weaken (Sub.ok rfl), ?_⟩
                    refine List.forall_mem_cons.2 ⟨flurrySetSpec_keeps.weaken (Sub.ok rfl), ?_⟩
                    refine List.forall_mem_cons.2 ⟨tapSetSpec_keeps.weaken (Sub.ok rfl), ?_⟩
                    refine List.forall_mem_cons.2 ⟨flakeAssignSpec_keeps.weaken (Sub.ok rfl), ?_⟩
                    refine List.forall_mem_cons.2 ⟨flakeReleaseSpec_keeps.weaken (Sub.ok rfl), ?_⟩
                    refine List.forall_mem_cons.2 ⟨flakeGetSpec_keeps.weaken (Sub.ok rfl), ?_⟩
                    refine List.forall_mem_cons.2 ⟨censusGetSpec_keeps.weaken (Sub.ok rfl), ?_⟩
                    refine List.forall_mem_cons.2 ⟨afSetSpec_keeps.weaken (Sub.ok rfl), ?_⟩
                    exact List.forall_mem_nil _
                · refine List.forall_mem_cons.2 ⟨ofdmSetSpec_keeps.weaken (Sub.ok rfl), ?_⟩
                  refine List.forall_mem_cons.2 ⟨ensembleGetSpec_keeps.weaken (Sub.ok rfl), ?_⟩
                  refine List.forall_mem_cons.2 ⟨serviceListGetSpec_keeps.weaken (Sub.ok rfl), ?_⟩
                  refine List.forall_mem_cons.2 ⟨serviceStartSpec_keeps.weaken (Sub.ok rfl), ?_⟩
                  refine List.forall_mem_cons.2 ⟨serviceStopSpec_keeps.weaken (Sub.ok rfl), ?_⟩
                  refine List.forall_mem_cons.2 ⟨ofdmQualityGetSpec_keeps.weaken (Sub.ok rfl), ?_⟩
                  refine List.forall_mem_cons.2 ⟨ficStreamSpec_keeps.weaken (Sub.ok rfl), ?_⟩
                  refine List.forall_mem_cons.2 ⟨padStreamSpec_keeps.weaken (Sub.ok rfl), ?_⟩
                  refine List.forall_mem_cons.2 ⟨subchStreamSpec_keeps.weaken (Sub.ok rfl), ?_⟩
                  refine List.forall_mem_cons.2 ⟨surveySetSpec_keeps.weaken (Sub.ok rfl), ?_⟩
                  refine List.forall_mem_cons.2 ⟨tiiGetSpec_keeps.weaken (Sub.ok rfl), ?_⟩
                  exact List.forall_mem_nil _
              · refine List.forall_mem_cons.2 ⟨linkAddSpec_keeps.weaken (Sub.ok rfl), ?_⟩
                refine List.forall_mem_cons.2 ⟨linkRemoveSpec_keeps.weaken (Sub.ok rfl), ?_⟩
                refine List.forall_mem_cons.2 ⟨linkGetSpec_keeps.weaken (Sub.ok rfl), ?_⟩
                refine List.forall_mem_cons.2 ⟨linkConfigSpec_keeps.weaken (Sub.ok rfl), ?_⟩
                refine List.forall_mem_cons.2 ⟨blendSetSpec_keeps.weaken (Sub.ok rfl), ?_⟩
                refine List.forall_mem_cons.2 ⟨followSetSpec_keeps.weaken (Sub.ok rfl), ?_⟩
                refine List.forall_mem_cons.2 ⟨blendNowSpec_keeps.weaken (Sub.ok rfl), ?_⟩
                refine List.forall_mem_cons.2 ⟨followGetSpec_keeps.weaken (Sub.ok rfl), ?_⟩
                refine List.forall_mem_cons.2 ⟨eqLoadSpec_keeps.weaken (Sub.ok rfl), ?_⟩
                refine List.forall_mem_cons.2 ⟨eqSwapSpec_keeps.weaken (Sub.ok rfl), ?_⟩
                refine List.forall_mem_cons.2 ⟨tshiftSetSpec_keeps.weaken (Sub.ok rfl), ?_⟩
                refine List.forall_mem_cons.2 ⟨tshiftReadSpec_keeps.weaken (Sub.ok rfl), ?_⟩
                exact List.forall_mem_nil _
            · refine List.forall_mem_cons.2 ⟨sapSetSpec_keeps.weaken (Sub.ok rfl), ?_⟩
              refine List.forall_mem_cons.2 ⟨sapRouteSpec_keeps.weaken (Sub.ok rfl), ?_⟩
              refine List.forall_mem_cons.2 ⟨sapMaskSetSpec_keeps.weaken (Sub.ok rfl), ?_⟩
              refine List.forall_mem_cons.2 ⟨sapStreamSpec_keeps.weaken (Sub.ok rfl), ?_⟩
              refine List.forall_mem_cons.2 ⟨sapGetSpec_keeps.weaken (Sub.ok rfl), ?_⟩
              exact List.forall_mem_nil _
          · refine List.forall_mem_cons.2 ⟨txTuneSpec_keeps.weaken (Sub.ok rfl), ?_⟩
            refine List.forall_mem_cons.2 ⟨txStartSpec_keeps.weaken (Sub.ok rfl), ?_⟩
            refine List.forall_mem_cons.2 ⟨txStopSpec_keeps.weaken (Sub.ok rfl), ?_⟩
            refine List.forall_mem_cons.2 ⟨txLevelSetSpec_keeps.weaken (Sub.ok rfl), ?_⟩
            refine List.forall_mem_cons.2 ⟨txFmSetSpec_keeps.weaken (Sub.ok rfl), ?_⟩
            refine List.forall_mem_cons.2 ⟨txDabSetSpec_keeps.weaken (Sub.ok rfl), ?_⟩
            refine List.forall_mem_cons.2 ⟨txBreakinSetSpec_keeps.weaken (Sub.ok rfl), ?_⟩
            refine List.forall_mem_cons.2 ⟨txBreakinSpec_keeps.weaken (Sub.ok rfl), ?_⟩
            refine List.forall_mem_cons.2 ⟨txGetSpec_keeps.weaken (Sub.ok rfl), ?_⟩
            refine List.forall_mem_cons.2 ⟨regLoadSpec_keeps.weaken (Sub.ok rfl), ?_⟩
            refine List.forall_mem_cons.2 ⟨regCommitSpec_keeps.weaken (Sub.ok rfl), ?_⟩
            refine List.forall_mem_cons.2 ⟨regLockSpec_keeps.weaken (Sub.ok rfl), ?_⟩
            refine List.forall_mem_cons.2 ⟨regGetSpec_keeps.weaken (Sub.ok rfl), ?_⟩
            refine List.forall_mem_cons.2 ⟨coexSetSpec_keeps.weaken (Sub.ok rfl), ?_⟩
            refine List.forall_mem_cons.2 ⟨txSfnSetSpec_keeps.weaken (Sub.ok rfl), ?_⟩
            refine List.forall_mem_cons.2 ⟨txMonGetSpec_keeps.weaken (Sub.ok rfl), ?_⟩
            exact List.forall_mem_nil _
        · refine List.forall_mem_cons.2 ⟨firnArmSpec_keeps.weaken (Sub.ok rfl), ?_⟩
          refine List.forall_mem_cons.2 ⟨firnTriggerSpec_keeps.weaken (Sub.ok rfl), ?_⟩
          refine List.forall_mem_cons.2 ⟨firnDisarmSpec_keeps.weaken (Sub.ok rfl), ?_⟩
          refine List.forall_mem_cons.2 ⟨firnStreamSpec_keeps.weaken (Sub.ok rfl), ?_⟩
          refine List.forall_mem_cons.2 ⟨firnLoadSpec_keeps.weaken (Sub.ok rfl), ?_⟩
          refine List.forall_mem_cons.2 ⟨firnReplaySpec_keeps.weaken (Sub.ok rfl), ?_⟩
          refine List.forall_mem_cons.2 ⟨firnGetSpec_keeps.weaken (Sub.ok rfl), ?_⟩
          exact List.forall_mem_nil _
      · refine List.forall_mem_cons.2 ⟨polarisSetSpec_keeps.weaken (Sub.ok rfl), ?_⟩
        refine List.forall_mem_cons.2 ⟨polarisGetSpec_keeps.weaken (Sub.ok rfl), ?_⟩
        refine List.forall_mem_cons.2 ⟨alertClearSpec_keeps.weaken (Sub.ok rfl), ?_⟩
        refine List.forall_mem_cons.2 ⟨safeReleaseSpec_keeps.weaken (Sub.ok rfl), ?_⟩
        refine List.forall_mem_cons.2 ⟨selftestRunSpec_keeps.weaken (Sub.ok rfl), ?_⟩
        exact List.forall_mem_nil _
    · refine List.forall_mem_cons.2 ⟨panelSetSpec_keeps.weaken (Sub.ok rfl), ?_⟩
      refine List.forall_mem_cons.2 ⟨panelGetSpec_keeps.weaken (Sub.ok rfl), ?_⟩
      exact List.forall_mem_nil _
  · refine List.forall_mem_cons.2 ⟨ethSetSpec_keeps.weaken (Sub.ok rfl), ?_⟩
    refine List.forall_mem_cons.2 ⟨udpStreamSetSpec_keeps.weaken (Sub.ok rfl), ?_⟩
    refine List.forall_mem_cons.2 ⟨ethGetSpec_keeps.weaken (Sub.ok rfl), ?_⟩
    refine List.forall_mem_cons.2 ⟨pcieGetSpec_keeps.weaken (Sub.ok rfl), ?_⟩
    exact List.forall_mem_nil _

theorem plainSpec_keeps {op : Nat} {p : CmdSpec} (h : plainSpec op = some p) : CmdSpec.Keeps packetSet p :=
  plainSpecs_keep p (List.mem_of_find?_eq_some h)

theorem fire_keeps {m : Nat} {b : State} {a1 : Nat} {a2 : Slot} {s : State} (h : Keeps m b s)
    (hm : Sub 1099377278462 m) : Keeps m b (fire a1 a2 s) := by
  unfold fire
  repeat' first
    | with_reducible assumption
    | with_reducible apply evSchedOf_keeps
    | with_reducible apply putSlot_keeps
    | with_reducible (apply release_keeps (plainSpec_keeps (by assumption)))
    | with_reducible (apply release_keeps (specOf_keeps (by assumption)))
    | with_reducible apply Keeps.ite
    | (with_reducible refine Sub.trans (Sub.ok ?_) hm); rfl
    | dsimp only
    | split

theorem schedAddUnit_keeps {m : Nat} {b : State} {a1 : Cmd} {s : State} (h : Keeps m b s)
    (hm : Sub 1099377278462 m) : Reply.Keeps m b (schedAddUnit a1 s) := by
  unfold schedAddUnit
  repeat' first
    | with_reducible assumption
    | with_reducible apply ok_keeps
    | with_reducible apply okWith_keeps
    | with_reducible apply badState_keeps
    | with_reducible apply badParam_keeps
    | with_reducible apply Reply.keeps_deny
    | with_reducible apply Reply.keeps_done
    | with_reducible apply Reply.keeps_later
    | with_reducible apply Reply.keeps_busy
    | with_reducible apply fire_keeps
    | with_reducible apply violate_keeps
    | with_reducible apply setMerid_keeps
    | with_reducible apply Reply.Keeps.ite
    | with_reducible apply Keeps.ite
    | (with_reducible refine Sub.trans (Sub.ok ?_) hm); rfl
    | dsimp only
    | split

theorem schedAddSpec_keeps : CmdSpec.Keeps 1099377278462 schedAddSpec := by
  intro m b c s h hm
  unfold schedAddSpec
  repeat' first
    | with_reducible assumption
    | with_reducible apply ok_keeps
    | with_reducible apply okWith_keeps
    | with_reducible apply badState_keeps
    | with_reducible apply badParam_keeps
    | with_reducible apply Reply.keeps_deny
    | with_reducible apply Reply.keeps_done
    | with_reducible apply Reply.keeps_later
    | with_reducible apply Reply.keeps_busy
    | with_reducible apply schedAddUnit_keeps
    | with_reducible apply Reply.Keeps.ite
    | with_reducible apply Keeps.ite
    | (with_reducible refine Sub.trans (Sub.ok ?_) hm); rfl
    | dsimp only
    | split

theorem schedCancelUnit_keeps {m : Nat} {b : State} {a1 : Cmd} {s : State} (h : Keeps m b s)
    (hm : Sub 16384 m) : Reply.Keeps m b (schedCancelUnit a1 s) := by
  unfold schedCancelUnit
  repeat' first
    | with_reducible assumption
    | with_reducible apply ok_keeps
    | with_reducible apply okWith_keeps
    | with_reducible apply badState_keeps
    | with_reducible apply badParam_keeps
    | with_reducible apply Reply.keeps_deny
    | with_reducible apply Reply.keeps_done
    | with_reducible apply Reply.keeps_later
    | with_reducible apply Reply.keeps_busy
    | with_reducible apply putSlot_keeps
    | with_reducible apply Reply.Keeps.ite
    | with_reducible apply Keeps.ite
    | (with_reducible refine Sub.trans (Sub.ok ?_) hm); rfl
    | dsimp only
    | split

theorem schedCancelSpec_keeps : CmdSpec.Keeps 16384 schedCancelSpec := by
  intro m b c s h hm
  unfold schedCancelSpec
  repeat' first
    | with_reducible assumption
    | with_reducible apply ok_keeps
    | with_reducible apply okWith_keeps
    | with_reducible apply badState_keeps
    | with_reducible apply badParam_keeps
    | with_reducible apply Reply.keeps_deny
    | with_reducible apply Reply.keeps_done
    | with_reducible apply Reply.keeps_later
    | with_reducible apply Reply.keeps_busy
    | with_reducible apply schedCancelUnit_keeps
    | (with_reducible refine Sub.trans (Sub.ok ?_) hm); rfl
    | dsimp only
    | split

theorem schedGetSpec_keeps : CmdSpec.Keeps 0 schedGetSpec := by
  intro m b c s h hm
  unfold schedGetSpec
  repeat' first
    | with_reducible assumption
    | with_reducible apply ok_keeps
    | with_reducible apply okWith_keeps
    | with_reducible apply badState_keeps
    | with_reducible apply badParam_keeps
    | with_reducible apply Reply.keeps_deny
    | with_reducible apply Reply.keeps_done
    | with_reducible apply Reply.keeps_later
    | with_reducible apply Reply.keeps_busy
    | (with_reducible refine Sub.trans (Sub.ok ?_) hm); rfl
    | dsimp only
    | split

theorem specs_keep : ∀ p ∈ specs, CmdSpec.Keeps packetSet p := by
  unfold specs
  refine List.forall_mem_append.2 ⟨plainSpecs_keep, ?_⟩
  refine List.forall_mem_cons.2 ⟨cmdAbortSpec_keeps.weaken (Sub.ok rfl), ?_⟩
  refine List.forall_mem_cons.2 ⟨timeSrcSetSpec_keeps.weaken (Sub.ok rfl), ?_⟩
  refine List.forall_mem_cons.2 ⟨ptpSetSpec_keeps.weaken (Sub.ok rfl), ?_⟩
  refine List.forall_mem_cons.2 ⟨timeSetSpec_keeps.weaken (Sub.ok rfl), ?_⟩
  refine List.forall_mem_cons.2 ⟨timeAcceptStepSpec_keeps.weaken (Sub.ok rfl), ?_⟩
  refine List.forall_mem_cons.2 ⟨timeAdjustSpec_keeps.weaken (Sub.ok rfl), ?_⟩
  refine List.forall_mem_cons.2 ⟨timeGetSpec_keeps.weaken (Sub.ok rfl), ?_⟩
  refine List.forall_mem_cons.2 ⟨schedAddSpec_keeps.weaken (Sub.ok rfl), ?_⟩
  refine List.forall_mem_cons.2 ⟨schedCancelSpec_keeps.weaken (Sub.ok rfl), ?_⟩
  refine List.forall_mem_cons.2 ⟨schedGetSpec_keeps.weaken (Sub.ok rfl), ?_⟩
  refine List.forall_mem_cons.2 ⟨fwBeginSpec_keeps.weaken (Sub.ok rfl), ?_⟩
  refine List.forall_mem_cons.2 ⟨fwWriteSpec_keeps.weaken (Sub.ok rfl), ?_⟩
  refine List.forall_mem_cons.2 ⟨fwFinishSpec_keeps.weaken (Sub.ok rfl), ?_⟩
  refine List.forall_mem_cons.2 ⟨fwStatusSpec_keeps.weaken (Sub.ok rfl), ?_⟩
  refine List.forall_mem_cons.2 ⟨devResetSpec_keeps.weaken (Sub.ok rfl), ?_⟩
  exact List.forall_mem_nil _

theorem specOf_keeps {op : Nat} {p : CmdSpec} (h : specOf op = some p) : CmdSpec.Keeps packetSet p :=
  specs_keep p (List.mem_of_find?_eq_some h)

theorem specOf_ok {op : Nat} : SpecOk packetSet (specOf op) := fun _ h => specOf_keeps h

theorem frostEnds_keeps {m : Nat} {b : State} {s : State} (h : Keeps m b s)
    (hm : Sub 65536 m) : Keeps m b (frostEnds s) := by
  unfold frostEnds
  repeat' first
    | with_reducible assumption
    | with_reducible apply leaveFrost_keeps
    | with_reducible apply Keeps.ite
    | (with_reducible refine Sub.trans (Sub.ok ?_) hm); rfl
    | dsimp only
    | split

theorem releasePlain_keeps {m : Nat} {b : State} {a1 : Nat} {a2 : Slot} {s : State} (h : Keeps m b s)
    (hm : Sub 1099377278462 m) : Keeps m b (releasePlain a1 a2 s) := by
  unfold releasePlain
  repeat' first
    | with_reducible assumption
    | with_reducible apply putSlot_keeps
    | with_reducible (apply release_keeps (plainSpec_keeps (by assumption)))
    | with_reducible (apply release_keeps (specOf_keeps (by assumption)))
    | (with_reducible refine Sub.trans (Sub.ok ?_) hm); rfl
    | dsimp only
    | split

theorem execMeridianRelease_keeps {m : Nat} {b : State} {s : State} (h : Keeps m b s)
    (hm : Sub 1099377278462 m) : NextKeeps m b (execMeridianRelease s) := by
  unfold execMeridianRelease
  repeat' first
    | with_reducible assumption
    | with_reducible apply NextKeeps.next
    | with_reducible apply frostEnds_keeps
    | with_reducible apply releasePlain_keeps
    | with_reducible apply NextKeeps.ite
    | with_reducible apply Keeps.ite
    | (with_reducible refine Sub.trans (Sub.ok ?_) hm); rfl
    | dsimp only
    | split

theorem execSchedFiring_keeps {m : Nat} {b : State} {a1 : Nat} {s : State} (h : Keeps m b s)
    (hm : Sub 1099377278462 m) : NextKeeps m b (execSchedFiring a1 s) := by
  unfold execSchedFiring
  repeat' first
    | with_reducible assumption
    | with_reducible apply NextKeeps.next
    | with_reducible apply fire_keeps
    | with_reducible apply frostEnds_keeps
    | with_reducible apply NextKeeps.ite
    | with_reducible apply Keeps.ite
    | (with_reducible refine Sub.trans (Sub.ok ?_) hm); rfl
    | dsimp only
    | split

theorem execSampleTimedApply_keeps {m : Nat} {b : State} {a1 : Origin} {a2 : BitVec 10} {a3 : Sid} {s : State} (h : Keeps m b s)
    (hm : Sub 1099377278462 m) : NextKeeps m b (execSampleTimedApply a1 a2 a3 s) := by
  unfold execSampleTimedApply
  repeat' first
    | with_reducible assumption
    | with_reducible apply NextKeeps.next
    | with_reducible apply advance_keeps
    | with_reducible (apply launch_keeps (plainSpec_keeps (by assumption)))
    | with_reducible (apply launch_keeps (specOf_keeps (by assumption)))
    | with_reducible apply NextKeeps.ite
    | with_reducible apply Keeps.ite
    | (with_reducible refine Sub.trans (Sub.ok ?_) hm); rfl
    | dsimp only
    | split

theorem freeEnded_keeps {m : Nat} {b : State} {s : State} (h : Keeps m b s)
    (hm : Sub 16384 m) : Keeps m b (freeEnded s) := by
  unfold freeEnded
  repeat' first
    | with_reducible assumption
    | with_reducible apply setMerid_keeps
    | (with_reducible refine Sub.trans (Sub.ok ?_) hm); rfl
    | dsimp only
    | split

theorem stepSlot_keeps {m : Nat} {b : State} {s : State} {a1 : Nat × Slot} (h : Keeps m b s)
    (hm : Sub 16448 m) : Keeps m b (stepSlot s a1) := by
  unfold stepSlot
  repeat' first
    | with_reducible assumption
    | with_reducible apply evSchedOf_keeps
    | with_reducible apply putSlot_keeps
    | with_reducible apply Keeps.ite
    | (with_reducible refine Sub.trans (Sub.ok ?_) hm); rfl
    | dsimp only
    | split

theorem stepAudio_keeps {m : Nat} {b : State} {a1 : Int} {s : State} (h : Keeps m b s)
    (hm : Sub 893420310784 m) : Keeps m b (stepAudio a1 s) := by
  unfold stepAudio
  repeat' first
    | with_reducible assumption
    | with_reducible apply setTx_keeps
    | with_reducible apply setFirn_keeps
    | with_reducible apply setI2c_keeps
    | with_reducible apply setEth_keeps
    | with_reducible apply setSaps_keeps
    | with_reducible apply setPaths_keeps
    | (with_reducible refine Sub.trans (Sub.ok ?_) hm); rfl
    | dsimp only
    | split

theorem cutWindows_keeps {m : Nat} {b : State} {s : State} (h : Keeps m b s)
    (hm : Sub 1644167168 m) : Keeps m b (cutWindows s) := by
  unfold cutWindows
  repeat' first
    | with_reducible assumption
    | with_reducible apply setFlurry_keeps
    | with_reducible apply setDemods_keeps
    | with_reducible apply setLanes_keeps
    | (with_reducible refine Sub.trans (Sub.ok ?_) hm); rfl
    | dsimp only
    | split

theorem stepConsumers_keeps {m : Nat} {b : State} {a1 : Int} {s : State} (h : Keeps m b s)
    (hm : Sub 1032533850572 m) : Keeps m b (stepConsumers a1 s) := by
  unfold stepConsumers
  repeat' first
    | with_reducible assumption
    | with_reducible apply stepAudio_keeps
    | with_reducible apply cutWindows_keeps
    | with_reducible apply endBlock_keeps
    | with_reducible apply setRf_keeps
    | with_reducible apply setAur_keeps
    | with_reducible apply setZones_keeps
    | with_reducible apply setLanes_keeps
    | with_reducible apply setCmds_keeps
    | with_reducible apply setGroups_keeps
    | with_reducible apply setRings_keeps
    | with_reducible apply setClk_keeps
    | with_reducible apply setTx_keeps
    | with_reducible apply Keeps.foldl
    | with_reducible apply Keeps.foldl_fst
    | with_reducible apply Keeps.foldl_snd
    | with_reducible apply Keeps.ite
    | (with_reducible refine Sub.trans (Sub.ok ?_) hm); rfl
    | with_reducible intro _ _ _
    | dsimp only
    | split

theorem execSiderealStep_keeps {m : Nat} {b : State} {s : State} (h : Keeps m b s)
    (hm : Sub 1054008704494 m) : NextKeeps m b (execSiderealStep s) := by
  unfold execSiderealStep
  split
  · exact NextKeeps.next h
  · refine NextKeeps.next (Keeps.foldl ?_ fun _ _ k => stepSlot_keeps k (Sub.trans (Sub.ok rfl) hm))
    refine stepConsumers_keeps (applyStep_keeps ?_ (Sub.trans (Sub.ok rfl) hm)) (Sub.trans (Sub.ok rfl) hm)
    exact Keeps.foldl h fun _ _ k => cutBlock_keeps k (Sub.trans (Sub.ok rfl) hm)

end Sys2Proof.Machine
end

