-- ==== Sys2Proof/Laws/KeepsInterp.lean ====
section
/-! SUPPORT. Laws/KeepsInterp.lean: what each operation of Machine/Interp.lean keeps. -/

set_option linter.unusedTactic false
set_option linter.unreachableTactic false
set_option linter.unusedVariables false

namespace Sys2Proof.Machine

theorem legacyFail_keeps {m : Nat} {b : State} {s : State} {a1 : Nat} (h : Keeps m b s)
    (hm : Sub 1024 m) : Keeps m b (legacyFail s a1) := by
  unfold legacyFail
  repeat' first
    | with_reducible assumption
    | with_reducible apply setLeg_keeps
    | (with_reducible refine Sub.trans (Sub.ok ?_) hm); rfl
    | dsimp only
    | split

theorem legacyNext_keeps {m : Nat} {b : State} {a1 : Cmd → Option CmdSpec} {s : State} (hl : ∀ c, SpecOk packetSet (a1 c)) (h : Keeps m b s)
    (hm : Sub 1099377278462 m) : Keeps m b (legacyNext a1 s) := by
  unfold legacyNext
  repeat' first
    | with_reducible assumption
    | with_reducible apply take_keeps (SpecOk.some ((hl _).of (by assumption)))
    | with_reducible apply take_keeps SpecOk.none
    | with_reducible apply take_keeps (hl _)
    | with_reducible apply setLeg_keeps
    | with_reducible apply Keeps.ite
    | (with_reducible refine Sub.trans (Sub.ok ?_) hm); rfl
    | dsimp only
    | split

theorem legacyRun_keeps {m : Nat} {b : State} {a1 : Nat} {a2 : State → List Cmd} {s : State} (h : Keeps m b s)
    (hm : Sub 1099377278462 m) : NextKeeps m b (legacyRun a1 a2 s) := by
  unfold legacyRun
  repeat' first
    | with_reducible assumption
    | with_reducible apply NextKeeps.next
    | with_reducible apply legacyNext_keeps
    | exact fun _ => specOf_ok
    | exact specIn_ok
    | with_reducible apply setLeg_keeps
    | with_reducible apply NextKeeps.ite
    | with_reducible apply Keeps.ite
    | (with_reducible refine Sub.trans (Sub.ok ?_) hm); rfl
    | dsimp only
    | split

theorem legacyTune_keeps {m : Nat} {b : State} {a1 a2 : Nat} {a3 : State → Option (Nat × Bytes)} {s : State} (h : Keeps m b s)
    (hm : Sub 1099377278462 m) : NextKeeps m b (legacyTune a1 a2 a3 s) := by
  unfold legacyTune
  repeat' first
    | with_reducible assumption
    | with_reducible apply NextKeeps.next
    | with_reducible apply legacyFail_keeps
    | with_reducible apply legacyRun_keeps
    | with_reducible (refine NextKeeps.out (o := _) ?_ _ (by assumption))
    | with_reducible apply NextKeeps.ite
    | with_reducible apply Keeps.ite
    | (with_reducible refine Sub.trans (Sub.ok ?_) hm); rfl
    | dsimp only
    | split

theorem legacyOne_keeps {m : Nat} {b : State} {a1 a2 a3 : Nat} {a4 : Bool} {s : State} (h : Keeps m b s)
    (hm : Sub 1099377278462 m) : NextKeeps m b (legacyOne a1 a2 a3 a4 s) := by
  unfold legacyOne
  repeat' first
    | with_reducible assumption
    | with_reducible apply NextKeeps.next
    | with_reducible apply legacyRun_keeps
    | with_reducible (refine NextKeeps.out (o := _) ?_ _ (by assumption))
    | with_reducible apply NextKeeps.ite
    | with_reducible apply Keeps.ite
    | (with_reducible refine Sub.trans (Sub.ok ?_) hm); rfl
    | dsimp only
    | split

theorem execG1Identify_keeps {m : Nat} {b : State} {s : State} (h : Keeps m b s)
    (hm : Sub 1099377278462 m) : NextKeeps m b (execG1Identify s) := by
  unfold execG1Identify
  repeat' first
    | with_reducible assumption
    | with_reducible apply NextKeeps.next
    | with_reducible apply legacyOne_keeps
    | with_reducible (refine NextKeeps.out (o := _) ?_ _ (by assumption))
    | (with_reducible refine Sub.trans (Sub.ok ?_) hm); rfl
    | dsimp only
    | split

theorem execG1GetStatus_keeps {m : Nat} {b : State} {s : State} (h : Keeps m b s)
    (hm : Sub 1099377278462 m) : NextKeeps m b (execG1GetStatus s) := by
  unfold execG1GetStatus
  repeat' first
    | with_reducible assumption
    | with_reducible apply NextKeeps.next
    | with_reducible apply legacyOne_keeps
    | with_reducible (refine NextKeeps.out (o := _) ?_ _ (by assumption))
    | (with_reducible refine Sub.trans (Sub.ok ?_) hm); rfl
    | dsimp only
    | split

theorem execG1GetCaps_keeps {m : Nat} {b : State} {s : State} (h : Keeps m b s)
    (hm : Sub 1099377278462 m) : NextKeeps m b (execG1GetCaps s) := by
  unfold execG1GetCaps
  repeat' first
    | with_reducible assumption
    | with_reducible apply NextKeeps.next
    | with_reducible apply legacyOne_keeps
    | with_reducible (refine NextKeeps.out (o := _) ?_ _ (by assumption))
    | (with_reducible refine Sub.trans (Sub.ok ?_) hm); rfl
    | dsimp only
    | split

theorem execFmTune_keeps {m : Nat} {b : State} {s : State} (h : Keeps m b s)
    (hm : Sub 1099377278462 m) : NextKeeps m b (execFmTune s) := by
  unfold execFmTune
  repeat' first
    | with_reducible assumption
    | with_reducible apply NextKeeps.next
    | with_reducible apply legacyTune_keeps
    | with_reducible (refine NextKeeps.out (o := _) ?_ _ (by assumption))
    | (with_reducible refine Sub.trans (Sub.ok ?_) hm); rfl
    | dsimp only
    | split

theorem execAmTune_keeps {m : Nat} {b : State} {s : State} (h : Keeps m b s)
    (hm : Sub 1099377278462 m) : NextKeeps m b (execAmTune s) := by
  unfold execAmTune
  repeat' first
    | with_reducible assumption
    | with_reducible apply NextKeeps.next
    | with_reducible apply legacyTune_keeps
    | with_reducible (refine NextKeeps.out (o := _) ?_ _ (by assumption))
    | (with_reducible refine Sub.trans (Sub.ok ?_) hm); rfl
    | dsimp only
    | split

theorem execDabTune_keeps {m : Nat} {b : State} {s : State} (h : Keeps m b s)
    (hm : Sub 1099377278462 m) : NextKeeps m b (execDabTune s) := by
  unfold execDabTune
  repeat' first
    | with_reducible assumption
    | with_reducible apply NextKeeps.next
    | with_reducible apply legacyTune_keeps
    | with_reducible (refine NextKeeps.out (o := _) ?_ _ (by assumption))
    | (with_reducible refine Sub.trans (Sub.ok ?_) hm); rfl
    | dsimp only
    | split

theorem execDrmTune_keeps {m : Nat} {b : State} {s : State} (h : Keeps m b s)
    (hm : Sub 1099377278462 m) : NextKeeps m b (execDrmTune s) := by
  unfold execDrmTune
  repeat' first
    | with_reducible assumption
    | with_reducible apply NextKeeps.next
    | with_reducible apply legacyFail_keeps
    | with_reducible apply legacyTune_keeps
    | with_reducible (refine NextKeeps.out (o := _) ?_ _ (by assumption))
    | with_reducible apply NextKeeps.ite
    | with_reducible apply Keeps.ite
    | (with_reducible refine Sub.trans (Sub.ok ?_) hm); rfl
    | dsimp only
    | split

theorem execRxStop_keeps {m : Nat} {b : State} {s : State} (h : Keeps m b s)
    (hm : Sub 1099377278462 m) : NextKeeps m b (execRxStop s) := by
  unfold execRxStop
  repeat' first
    | with_reducible assumption
    | with_reducible apply NextKeeps.next
    | with_reducible apply legacyOne_keeps
    | with_reducible (refine NextKeeps.out (o := _) ?_ _ (by assumption))
    | (with_reducible refine Sub.trans (Sub.ok ?_) hm); rfl
    | dsimp only
    | split

theorem execFmConfig_keeps {m : Nat} {b : State} {s : State} (h : Keeps m b s)
    (hm : Sub 1099377278462 m) : NextKeeps m b (execFmConfig s) := by
  unfold execFmConfig
  repeat' first
    | with_reducible assumption
    | with_reducible apply NextKeeps.next
    | with_reducible apply legacyOne_keeps
    | with_reducible (refine NextKeeps.out (o := _) ?_ _ (by assumption))
    | (with_reducible refine Sub.trans (Sub.ok ?_) hm); rfl
    | dsimp only
    | split

theorem execAmConfig_keeps {m : Nat} {b : State} {s : State} (h : Keeps m b s)
    (hm : Sub 1099377278462 m) : NextKeeps m b (execAmConfig s) := by
  unfold execAmConfig
  repeat' first
    | with_reducible assumption
    | with_reducible apply NextKeeps.next
    | with_reducible apply legacyOne_keeps
    | with_reducible (refine NextKeeps.out (o := _) ?_ _ (by assumption))
    | (with_reducible refine Sub.trans (Sub.ok ?_) hm); rfl
    | dsimp only
    | split

theorem execSignalRead_keeps {m : Nat} {b : State} {s : State} (h : Keeps m b s)
    (hm : Sub 1099377278462 m) : NextKeeps m b (execSignalRead s) := by
  unfold execSignalRead
  repeat' first
    | with_reducible assumption
    | with_reducible apply NextKeeps.next
    | with_reducible apply legacyOne_keeps
    | with_reducible (refine NextKeeps.out (o := _) ?_ _ (by assumption))
    | with_reducible apply NextKeeps.ite
    | with_reducible apply Keeps.ite
    | (with_reducible refine Sub.trans (Sub.ok ?_) hm); rfl
    | dsimp only
    | split

theorem execRdsRead_keeps {m : Nat} {b : State} {s : State} (h : Keeps m b s)
    (hm : Sub 1099377278462 m) : NextKeeps m b (execRdsRead s) := by
  unfold execRdsRead
  repeat' first
    | with_reducible assumption
    | with_reducible apply NextKeeps.next
    | with_reducible apply legacyOne_keeps
    | with_reducible (refine NextKeeps.out (o := _) ?_ _ (by assumption))
    | (with_reducible refine Sub.trans (Sub.ok ?_) hm); rfl
    | dsimp only
    | split

theorem execEnsembleRead_keeps {m : Nat} {b : State} {s : State} (h : Keeps m b s)
    (hm : Sub 1099377278462 m) : NextKeeps m b (execEnsembleRead s) := by
  unfold execEnsembleRead
  repeat' first
    | with_reducible assumption
    | with_reducible apply NextKeeps.next
    | with_reducible apply legacyOne_keeps
    | with_reducible (refine NextKeeps.out (o := _) ?_ _ (by assumption))
    | (with_reducible refine Sub.trans (Sub.ok ?_) hm); rfl
    | dsimp only
    | split

theorem execServiceListRead_keeps {m : Nat} {b : State} {s : State} (h : Keeps m b s)
    (hm : Sub 1099377278462 m) : NextKeeps m b (execServiceListRead s) := by
  unfold execServiceListRead
  repeat' first
    | with_reducible assumption
    | with_reducible apply NextKeeps.next
    | with_reducible apply legacyOne_keeps
    | with_reducible (refine NextKeeps.out (o := _) ?_ _ (by assumption))
    | (with_reducible refine Sub.trans (Sub.ok ?_) hm); rfl
    | dsimp only
    | split

theorem execServicePlay_keeps {m : Nat} {b : State} {s : State} (h : Keeps m b s)
    (hm : Sub 1099377278462 m) : NextKeeps m b (execServicePlay s) := by
  unfold execServicePlay
  repeat' first
    | with_reducible assumption
    | with_reducible apply NextKeeps.next
    | with_reducible apply legacyOne_keeps
    | with_reducible (refine NextKeeps.out (o := _) ?_ _ (by assumption))
    | (with_reducible refine Sub.trans (Sub.ok ?_) hm); rfl
    | dsimp only
    | split

theorem execServiceHalt_keeps {m : Nat} {b : State} {s : State} (h : Keeps m b s)
    (hm : Sub 1099377278462 m) : NextKeeps m b (execServiceHalt s) := by
  unfold execServiceHalt
  repeat' first
    | with_reducible assumption
    | with_reducible apply NextKeeps.next
    | with_reducible apply legacyOne_keeps
    | with_reducible (refine NextKeeps.out (o := _) ?_ _ (by assumption))
    | (with_reducible refine Sub.trans (Sub.ok ?_) hm); rfl
    | dsimp only
    | split

theorem execG1UndefinedCode_keeps {m : Nat} {b : State} {s : State} (h : Keeps m b s)
    (hm : Sub 1024 m) : NextKeeps m b (execG1UndefinedCode s) := by
  unfold execG1UndefinedCode
  repeat' first
    | with_reducible assumption
    | with_reducible apply NextKeeps.next
    | with_reducible apply legacyFail_keeps
    | with_reducible apply NextKeeps.ite
    | with_reducible apply Keeps.ite
    | (with_reducible refine Sub.trans (Sub.ok ?_) hm); rfl
    | dsimp only
    | split

theorem countInternal_keeps {m : Nat} {b : State} {s : State} (h : Keeps m b s)
    (hm : Sub 4 m) : Keeps m b (countInternal s) := by
  unfold countInternal
  repeat' first
    | with_reducible assumption
    | with_reducible apply setCmds_keeps
    | (with_reducible refine Sub.trans (Sub.ok ?_) hm); rfl
    | dsimp only
    | split

theorem execCompletionWrite_keeps {m : Nat} {b : State} {a1 : Origin} {a2 : BitVec 10} {a3 : Bool} {a4 : Sid} {s : State} (h : Keeps m b s)
    (hm : Sub 847720222062 m) : NextKeeps m b (execCompletionWrite a1 a2 a3 a4 s) := by
  unfold execCompletionWrite
  repeat' first
    | with_reducible assumption
    | with_reducible apply NextKeeps.next
    | with_reducible apply countInternal_keeps
    | with_reducible apply advance_keeps
    | with_reducible apply complete_keeps
    | with_reducible apply NextKeeps.ite
    | with_reducible apply Keeps.ite
    | (with_reducible refine Sub.trans (Sub.ok ?_) hm); rfl
    | dsimp only
    | split

theorem CmdSpec.failing_keeps {p : CmdSpec} (h : CmdSpec.Keeps packetSet p) : CmdSpec.Keeps packetSet p.failing := by
  intro m b c s hs hm
  show Reply.Keeps m b (match p.unit c s with
    | .deny st d => .deny st d
    | _ => .done stInternal 0 [] (countInternal s))
  split
  · exact Reply.keeps_deny ..
  · exact Reply.keeps_done (countInternal_keeps hs (Sub.trans (Sub.ok rfl) hm))

theorem specIn_ok {l : List (Origin × Nat)} (c : Cmd) : SpecOk packetSet (specIn l c) := by
  intro sp e
  unfold specIn at e
  split at e
  · obtain ⟨p, hp, rfl⟩ := Option.map_eq_some_iff.1 e
    exact CmdSpec.failing_keeps (specOf_keeps hp)
  · exact specOf_keeps e

theorem tickTime_keeps {m : Nat} {b : State} {s : State} (h : Keeps m b s)
    (hm : Sub 6 m) : Keeps m b (tickTime s) := by
  unfold tickTime
  repeat' first
    | with_reducible assumption
    | with_reducible apply setCmds_keeps
    | with_reducible apply setSid_keeps
    | (with_reducible refine Sub.trans (Sub.ok ?_) hm); rfl
    | dsimp only
    | split

theorem tickEvents_keeps {m : Nat} {b : State} {s : State} (h : Keeps m b s)
    (hm : Sub 64 m) : Keeps m b (tickEvents s) := by
  unfold tickEvents
  exact setEv_keeps h (Sub.trans (Sub.ok rfl) hm) (EvOk.map fun _ => ⟨rfl, rfl⟩)

theorem eventsApply_keeps {m : Nat} {b : State} {s : State} (h : Keeps m b s)
    (hm : Sub 64 m) : Keeps m b (eventsApply s) := by
  unfold eventsApply
  repeat' first
    | with_reducible assumption
    | with_reducible apply setEv_keeps
    | exact id
    | exact EvOk.windows _
    | exact EvOk.tail (by assumption)
    | with_reducible apply Keeps.foldl
    | with_reducible apply Keeps.foldl_fst
    | with_reducible apply Keeps.foldl_snd
    | (with_reducible refine Sub.trans (Sub.ok ?_) hm); rfl
    | with_reducible intro _ _ _
    | dsimp only
    | split

theorem applySettings_keeps {m : Nat} {b : State} {s : State} (h : Keeps m b s)
    (hm : Sub 961579322860 m) : Keeps m b (applySettings s) := by
  unfold applySettings
  repeat' first
    | with_reducible assumption
    | with_reducible apply afApply_keeps
    | with_reducible apply demodsApply_keeps
    | with_reducible apply flurryApply_keeps
    | with_reducible apply eventsApply_keeps
    | with_reducible apply blendApply_keeps
    | with_reducible apply linksApply_keeps
    | with_reducible apply panelApply_keeps
    | (with_reducible refine Sub.trans (Sub.ok ?_) hm); rfl
    | dsimp only
    | split

theorem settleNext_keeps {m : Nat} {b : State} {s : State} (h : Keeps m b s)
    (hm : Sub 961579322860 m) : Keeps m b (settleNext s) := by
  unfold settleNext
  repeat' first
    | with_reducible assumption
    | with_reducible apply applySettings_keeps
    | with_reducible apply complete_keeps
    | with_reducible apply Keeps.foldl
    | (with_reducible refine Sub.trans (Sub.ok ?_) hm); rfl
    | with_reducible intro _ _ _
    | dsimp only
    | split

theorem tickUnits_keeps {m : Nat} {b : State} {a1 : TickIn} {s : State} (h : Keeps m b s)
    (hm : Sub 1099377278462 m) : Keeps m b (tickUnits a1 s) := by
  unfold tickUnits
  repeat' first
    | with_reducible assumption
    | with_reducible apply demodsTick_keeps
    | with_reducible apply divsTick_keeps
    | with_reducible apply streamsTick_keeps
    | with_reducible apply exciterTick_keeps
    | with_reducible apply dueTick_keeps
    | with_reducible apply levelTick_keeps
    | with_reducible apply streamFirn_keeps
    | with_reducible apply feed_keeps
    | with_reducible apply delaysTick_keeps
    | with_reducible apply groupsTick_keeps
    | with_reducible apply blendNext_keeps
    | with_reducible apply pathsTick_keeps
    | with_reducible apply taTrigger_keeps
    | with_reducible apply brkUpdate_keeps
    | with_reducible apply pttTick_keeps
    | with_reducible apply boostTick_keeps
    | with_reducible apply replayTick_keeps
    | exact fun _ => specOf_ok
    | exact specIn_ok
    | with_reducible apply agcAll_keeps
    | with_reducible apply latchNow_keeps
    | with_reducible apply setTx_keeps
    | with_reducible apply Keeps.ite
    | (with_reducible refine Sub.trans (Sub.ok ?_) hm); rfl
    | dsimp only
    | split

theorem launchDue_keeps {m : Nat} {b : State} {a1 : Cmd → Option CmdSpec} {s : State} {a2 : InFlight} (hl : ∀ c, SpecOk packetSet (a1 c)) (h : Keeps m b s)
    (hm : Sub 1099377278462 m) : Keeps m b (launchDue a1 s a2) := by
  unfold launchDue
  repeat' first
    | with_reducible assumption
    | with_reducible (apply launch_keeps ((hl _).of (by assumption)))
    | with_reducible apply Keeps.ite
    | (with_reducible refine Sub.trans (Sub.ok ?_) hm); rfl
    | dsimp only
    | split

theorem spend_keeps {m : Nat} {b : State} {s : State} (h : Keeps m b s)
    (hm : Sub 4 m) : Keeps m b (spend s) := by
  unfold spend
  repeat' first
    | with_reducible assumption
    | with_reducible apply setCmds_keeps
    | (with_reducible refine Sub.trans (Sub.ok ?_) hm); rfl
    | dsimp only
    | split

theorem unhold_keeps {m : Nat} {b : State} {a1 : Cmd → Option CmdSpec} {s : State} {a2 : InFlight} (hl : ∀ c, SpecOk packetSet (a1 c)) (h : Keeps m b s)
    (hm : Sub 1099377278462 m) : Keeps m b (unhold a1 s a2) := by
  unfold unhold
  repeat' first
    | with_reducible assumption
    | with_reducible apply spend_keeps
    | with_reducible apply putFlight_keeps
    | with_reducible apply dispatch_keeps (hl _)
    | with_reducible (apply launch_keeps ((hl _).of (by assumption)))
    | with_reducible apply Keeps.ite
    | (with_reducible refine Sub.trans (Sub.ok ?_) hm); rfl
    | dsimp only
    | split

theorem tickHeld_keeps {m : Nat} {b : State} {a1 : Cmd → Option CmdSpec} {a2 a3 : Nat} {s : State} (hl : ∀ c, SpecOk packetSet (a1 c)) (h : Keeps m b s)
    (hm : Sub 1099377278462 m) : Keeps m b (tickHeld a1 a2 a3 s) := by
  induction a3 generalizing s with
  | zero =>
    unfold tickHeld
    repeat' first
      | with_reducible assumption
      | with_reducible apply ih
      | with_reducible apply unhold_keeps
      | exact hl
      | with_reducible apply putFlight_keeps
      | with_reducible apply Keeps.ite
      | (with_reducible refine Sub.trans (Sub.ok ?_) hm); rfl
      | dsimp only
      | split
  | succ k ih =>
    unfold tickHeld
    repeat' first
      | with_reducible assumption
      | with_reducible apply ih
      | with_reducible apply unhold_keeps
      | exact hl
      | with_reducible apply putFlight_keeps
      | with_reducible apply Keeps.ite
      | (with_reducible refine Sub.trans (Sub.ok ?_) hm); rfl
      | dsimp only
      | split

theorem takeRing_keeps {m : Nat} {b : State} {a1 : Cmd → Option CmdSpec} {s : State} {a2 : Nat} (hl : ∀ c, SpecOk packetSet (a1 c)) (h : Keeps m b s)
    (hm : Sub 1099377278462 m) : OptKeeps m b (takeRing a1 s a2) := by
  unfold takeRing
  repeat' first
    | with_reducible assumption
    | with_reducible apply OptKeeps.of_none
    | with_reducible apply OptKeeps.of_some
    | with_reducible apply malformed_keeps
    | with_reducible apply take_keeps (SpecOk.some ((hl _).of (by assumption)))
    | with_reducible apply take_keeps SpecOk.none
    | with_reducible apply take_keeps (hl _)
    | with_reducible apply consume_keeps
    | with_reducible apply skipTail_keeps
    | with_reducible apply OptKeeps.ite
    | with_reducible apply Keeps.ite
    | (with_reducible refine Sub.trans (Sub.ok ?_) hm); rfl
    | dsimp only
    | split

theorem takeMailbox_keeps {m : Nat} {b : State} {a1 : Cmd → Option CmdSpec} {s : State} (hl : ∀ c, SpecOk packetSet (a1 c)) (h : Keeps m b s)
    (hm : Sub 1099377278462 m) : OptKeeps m b (takeMailbox a1 s) := by
  unfold takeMailbox
  repeat' first
    | with_reducible assumption
    | with_reducible apply OptKeeps.of_none
    | with_reducible apply OptKeeps.of_some
    | with_reducible apply take_keeps (SpecOk.some ((hl _).of (by assumption)))
    | with_reducible apply take_keeps SpecOk.none
    | with_reducible apply take_keeps (hl _)
    | with_reducible apply setMbx_keeps
    | with_reducible apply OptKeeps.ite
    | with_reducible apply Keeps.ite
    | (with_reducible refine Sub.trans (Sub.ok ?_) hm); rfl
    | dsimp only
    | split

theorem turn_keeps {m : Nat} {b : State} {a1 : Cmd → Option CmdSpec} {s : State} {a2 : Nat} (hl : ∀ c, SpecOk packetSet (a1 c)) (h : Keeps m b s)
    (hm : Sub 1099377278462 m) : Keeps m b (turn a1 s a2) := by
  unfold turn
  repeat' first
    | with_reducible assumption
    | with_reducible apply OptKeeps.getD
    | with_reducible apply spend_keeps
    | with_reducible apply takeRing_keeps
    | exact hl
    | with_reducible apply takeMailbox_keeps
    | with_reducible apply setCmds_keeps
    | with_reducible (refine OptKeeps.get (t := _) ?_ (by assumption))
    | with_reducible apply Keeps.ite
    | (with_reducible refine Sub.trans (Sub.ok ?_) hm); rfl
    | dsimp only
    | split

theorem rounds_keeps {m : Nat} {b : State} {a1 : Cmd → Option CmdSpec} {a2 : Nat} {a3 : List Nat} {s : State} (hl : ∀ c, SpecOk packetSet (a1 c)) (h : Keeps m b s)
    (hm : Sub 1099377278462 m) : Keeps m b (rounds a1 a2 a3 s) := by
  induction a2 generalizing s with
  | zero =>
    unfold rounds
    repeat' first
      | with_reducible assumption
      | with_reducible apply ih
      | with_reducible apply turn_keeps
      | exact hl
      | with_reducible apply Keeps.foldl
      | with_reducible apply Keeps.ite
      | (with_reducible refine Sub.trans (Sub.ok ?_) hm); rfl
      | with_reducible intro _ _ _
      | dsimp only
      | split
  | succ k ih =>
    unfold rounds
    repeat' first
      | with_reducible assumption
      | with_reducible apply ih
      | with_reducible apply turn_keeps
      | exact hl
      | with_reducible apply Keeps.foldl
      | with_reducible apply Keeps.ite
      | (with_reducible refine Sub.trans (Sub.ok ?_) hm); rfl
      | with_reducible intro _ _ _
      | dsimp only
      | split

theorem tickCommands_keeps {m : Nat} {b : State} {a1 : Cmd → Option CmdSpec} {s : State} (hl : ∀ c, SpecOk packetSet (a1 c)) (h : Keeps m b s)
    (hm : Sub 1099377278462 m) : Keeps m b (tickCommands a1 s) := by
  unfold tickCommands
  repeat' first
    | with_reducible assumption
    | with_reducible apply legacyNext_keeps
    | exact hl
    | with_reducible apply settleNext_keeps
    | with_reducible apply launchDue_keeps
    | with_reducible apply tickHeld_keeps
    | with_reducible apply rounds_keeps
    | with_reducible apply Keeps.foldl
    | (with_reducible refine Sub.trans (Sub.ok ?_) hm); rfl
    | with_reducible intro _ _ _
    | dsimp only
    | split

theorem execTick_keeps {m : Nat} {b : State} {a1 : TickIn} {s : State} (h : Keeps m b s)
    (hm : Sub 1099511627774 m) : NextKeeps m b (execTick a1 s) := by
  unfold execTick
  repeat' first
    | with_reducible assumption
    | with_reducible apply NextKeeps.next
    | with_reducible apply loopsTick_keeps
    | with_reducible apply releaseSda_keeps
    | with_reducible apply tickTime_keeps
    | with_reducible apply tickEvents_keeps
    | with_reducible apply applySettings_keeps
    | with_reducible apply tickUnits_keeps
    | with_reducible apply tickCommands_keeps
    | exact fun _ => specOf_ok
    | exact specIn_ok
    | with_reducible apply freeEnded_keeps
    | with_reducible apply panelTick_keeps
    | with_reducible apply resetDevice_keeps
    | with_reducible apply sense_keeps
    | with_reducible apply thermalWarning_keeps
    | with_reducible apply startSlew_keeps
    | with_reducible apply NextKeeps.ite
    | with_reducible apply Keeps.ite
    | (with_reducible refine Sub.trans (Sub.ok ?_) hm); rfl
    | dsimp only
    | split

end Sys2Proof.Machine
end

