-- ==== Sys2Proof/Laws/Ops.lean ====
section
/-! SUPPORT. Laws/Ops.lean: what each shared operation leaves unchanged, said once: an event touches only the events, a
violation only the log and the events, a completion only the host's memory, its ring, the mailbox and Firn's tape. -/

namespace Sys2Proof.Machine

@[simp] theorem hostStore_frame (s : State) (a : Nat) (b : Bytes) :
    (hostStore s a b).pending = s.pending ∧ (hostStore s a b).sid = s.sid ∧ (hostStore s a b).cmds = s.cmds ∧
    (hostStore s a b).rings = s.rings ∧ (hostStore s a b).wins = s.wins ∧ (hostStore s a b).mbx = s.mbx ∧
    (hostStore s a b).ev = s.ev ∧ (hostStore s a b).vlog = s.vlog ∧ (hostStore s a b).i2c = s.i2c ∧
    (hostStore s a b).hcfg = s.hcfg ∧ (hostStore s a b).leg = s.leg ∧ (hostStore s a b).eth = s.eth ∧
    (hostStore s a b).clk = s.clk ∧ (hostStore s a b).merid = s.merid ∧ (hostStore s a b).pol = s.pol ∧
    (hostStore s a b).pwr = s.pwr ∧ (hostStore s a b).therm = s.therm ∧ (hostStore s a b).fw = s.fw ∧
    (hostStore s a b).panel = s.panel ∧ (hostStore s a b).free = s.free ∧ (hostStore s a b).rf = s.rf ∧
    (hostStore s a b).aur = s.aur ∧ (hostStore s a b).zones = s.zones ∧ (hostStore s a b).lanes = s.lanes ∧
    (hostStore s a b).tx = s.tx ∧ (hostStore s a b).mon = s.mon ∧ (hostStore s a b).reg = s.reg ∧
    (hostStore s a b).demods = s.demods ∧ (hostStore s a b).flurry = s.flurry ∧ (hostStore s a b).afs = s.afs ∧
    (hostStore s a b).ofdms = s.ofdms ∧ (hostStore s a b).services = s.services ∧
    (hostStore s a b).surveys = s.surveys ∧ (hostStore s a b).links = s.links ∧ (hostStore s a b).paths = s.paths ∧
    (hostStore s a b).groups = s.groups ∧ (hostStore s a b).saps = s.saps ∧ (hostStore s a b).firn = s.firn ∧
    (hostStore s a b).part = s.part := by
  simp [hostStore]

@[simp] theorem advance_frame (s : State) (t : Sid) :
    (advance s t).pending = s.pending ∧ (advance s t).cmds = s.cmds ∧ (advance s t).rings = s.rings ∧
    (advance s t).wins = s.wins ∧ (advance s t).mbx = s.mbx ∧ (advance s t).ev = s.ev ∧ (advance s t).vlog = s.vlog ∧
    (advance s t).i2c = s.i2c ∧ (advance s t).hcfg = s.hcfg ∧ (advance s t).leg = s.leg ∧
    (advance s t).pcie = s.pcie ∧ (advance s t).eth = s.eth ∧ (advance s t).clk = s.clk ∧
    (advance s t).merid = s.merid ∧ (advance s t).pol = s.pol ∧ (advance s t).pwr = s.pwr ∧
    (advance s t).therm = s.therm ∧ (advance s t).fw = s.fw ∧ (advance s t).panel = s.panel ∧
    (advance s t).host = s.host ∧ (advance s t).free = s.free ∧ (advance s t).rf = s.rf ∧ (advance s t).aur = s.aur ∧
    (advance s t).zones = s.zones ∧ (advance s t).lanes = s.lanes ∧ (advance s t).tx = s.tx ∧
    (advance s t).mon = s.mon ∧ (advance s t).reg = s.reg ∧ (advance s t).demods = s.demods ∧
    (advance s t).flurry = s.flurry ∧ (advance s t).afs = s.afs ∧ (advance s t).ofdms = s.ofdms ∧
    (advance s t).services = s.services ∧ (advance s t).surveys = s.surveys ∧ (advance s t).links = s.links ∧
    (advance s t).paths = s.paths ∧ (advance s t).groups = s.groups ∧ (advance s t).saps = s.saps ∧
    (advance s t).firn = s.firn ∧ (advance s t).part = s.part := by
  simp [advance]

@[simp] theorem putRing_frame (s : State) (n : Nat) (r : Ring) :
    (putRing s n r).pending = s.pending ∧ (putRing s n r).sid = s.sid ∧ (putRing s n r).cmds = s.cmds ∧
    (putRing s n r).wins = s.wins ∧ (putRing s n r).mbx = s.mbx ∧ (putRing s n r).ev = s.ev ∧
    (putRing s n r).vlog = s.vlog ∧ (putRing s n r).i2c = s.i2c ∧ (putRing s n r).hcfg = s.hcfg ∧
    (putRing s n r).leg = s.leg ∧ (putRing s n r).eth = s.eth ∧ (putRing s n r).clk = s.clk ∧
    (putRing s n r).merid = s.merid ∧ (putRing s n r).pol = s.pol ∧ (putRing s n r).pwr = s.pwr ∧
    (putRing s n r).therm = s.therm ∧ (putRing s n r).fw = s.fw ∧ (putRing s n r).panel = s.panel ∧
    (putRing s n r).free = s.free ∧ (putRing s n r).rf = s.rf ∧ (putRing s n r).aur = s.aur ∧
    (putRing s n r).zones = s.zones ∧ (putRing s n r).lanes = s.lanes ∧ (putRing s n r).tx = s.tx ∧
    (putRing s n r).mon = s.mon ∧ (putRing s n r).reg = s.reg ∧ (putRing s n r).demods = s.demods ∧
    (putRing s n r).flurry = s.flurry ∧ (putRing s n r).afs = s.afs ∧ (putRing s n r).ofdms = s.ofdms ∧
    (putRing s n r).services = s.services ∧ (putRing s n r).surveys = s.surveys ∧ (putRing s n r).links = s.links ∧
    (putRing s n r).paths = s.paths ∧ (putRing s n r).groups = s.groups ∧ (putRing s n r).saps = s.saps ∧
    (putRing s n r).firn = s.firn ∧ (putRing s n r).part = s.part := by
  simp [putRing]

@[simp] theorem putRing_rings (s : State) (n : Nat) (r : Ring) : (putRing s n r).rings = mput s.rings n r := by
  simp [putRing]

@[simp] theorem putInflight_frame (s : State) (n t : Nat) (v : Bool) :
    (putInflight s n t v).pending = s.pending ∧ (putInflight s n t v).sid = s.sid ∧
    (putInflight s n t v).cmds = s.cmds ∧ (putInflight s n t v).rings = s.rings ∧
    (putInflight s n t v).wins = s.wins ∧ (putInflight s n t v).mbx = s.mbx ∧ (putInflight s n t v).ev = s.ev ∧
    (putInflight s n t v).vlog = s.vlog ∧ (putInflight s n t v).i2c = s.i2c ∧ (putInflight s n t v).hcfg = s.hcfg ∧
    (putInflight s n t v).leg = s.leg ∧ (putInflight s n t v).eth = s.eth ∧ (putInflight s n t v).clk = s.clk ∧
    (putInflight s n t v).merid = s.merid ∧ (putInflight s n t v).pol = s.pol ∧ (putInflight s n t v).pwr = s.pwr ∧
    (putInflight s n t v).therm = s.therm ∧ (putInflight s n t v).fw = s.fw ∧ (putInflight s n t v).panel = s.panel ∧
    (putInflight s n t v).free = s.free ∧ (putInflight s n t v).rf = s.rf ∧ (putInflight s n t v).aur = s.aur ∧
    (putInflight s n t v).zones = s.zones ∧ (putInflight s n t v).lanes = s.lanes ∧ (putInflight s n t v).tx = s.tx ∧
    (putInflight s n t v).mon = s.mon ∧ (putInflight s n t v).reg = s.reg ∧ (putInflight s n t v).demods = s.demods ∧
    (putInflight s n t v).flurry = s.flurry ∧ (putInflight s n t v).afs = s.afs ∧
    (putInflight s n t v).ofdms = s.ofdms ∧ (putInflight s n t v).services = s.services ∧
    (putInflight s n t v).surveys = s.surveys ∧ (putInflight s n t v).links = s.links ∧
    (putInflight s n t v).paths = s.paths ∧ (putInflight s n t v).groups = s.groups ∧
    (putInflight s n t v).saps = s.saps ∧ (putInflight s n t v).firn = s.firn ∧ (putInflight s n t v).part = s.part := by
  unfold putInflight; split <;> simp

@[simp] theorem raiseVector_frame (s : State) (v : Nat) :
    (raiseVector s v).pending = s.pending ∧ (raiseVector s v).sid = s.sid ∧ (raiseVector s v).cmds = s.cmds ∧
    (raiseVector s v).rings = s.rings ∧ (raiseVector s v).wins = s.wins ∧ (raiseVector s v).mbx = s.mbx ∧
    (raiseVector s v).ev = s.ev ∧ (raiseVector s v).vlog = s.vlog ∧ (raiseVector s v).i2c = s.i2c ∧
    (raiseVector s v).hcfg = s.hcfg ∧ (raiseVector s v).leg = s.leg ∧ (raiseVector s v).eth = s.eth ∧
    (raiseVector s v).clk = s.clk ∧ (raiseVector s v).merid = s.merid ∧ (raiseVector s v).pol = s.pol ∧
    (raiseVector s v).pwr = s.pwr ∧ (raiseVector s v).therm = s.therm ∧ (raiseVector s v).fw = s.fw ∧
    (raiseVector s v).panel = s.panel ∧ (raiseVector s v).host = s.host ∧ (raiseVector s v).free = s.free ∧
    (raiseVector s v).rf = s.rf ∧ (raiseVector s v).aur = s.aur ∧ (raiseVector s v).zones = s.zones ∧
    (raiseVector s v).lanes = s.lanes ∧ (raiseVector s v).tx = s.tx ∧ (raiseVector s v).mon = s.mon ∧
    (raiseVector s v).reg = s.reg ∧ (raiseVector s v).demods = s.demods ∧ (raiseVector s v).flurry = s.flurry ∧
    (raiseVector s v).afs = s.afs ∧ (raiseVector s v).ofdms = s.ofdms ∧ (raiseVector s v).services = s.services ∧
    (raiseVector s v).surveys = s.surveys ∧ (raiseVector s v).links = s.links ∧ (raiseVector s v).paths = s.paths ∧
    (raiseVector s v).groups = s.groups ∧ (raiseVector s v).saps = s.saps ∧ (raiseVector s v).firn = s.firn ∧
    (raiseVector s v).part = s.part := by
  unfold raiseVector; split
  · simp
  · split <;> simp

@[simp] theorem tape_frame (s : State) (k : Nat) (b : Bytes) (t : Sid) :
    (tape s k b t).pending = s.pending ∧ (tape s k b t).sid = s.sid ∧ (tape s k b t).cmds = s.cmds ∧
    (tape s k b t).rings = s.rings ∧ (tape s k b t).wins = s.wins ∧ (tape s k b t).mbx = s.mbx ∧
    (tape s k b t).ev = s.ev ∧ (tape s k b t).vlog = s.vlog ∧ (tape s k b t).i2c = s.i2c ∧
    (tape s k b t).hcfg = s.hcfg ∧ (tape s k b t).leg = s.leg ∧ (tape s k b t).pcie = s.pcie ∧
    (tape s k b t).eth = s.eth ∧ (tape s k b t).clk = s.clk ∧ (tape s k b t).merid = s.merid ∧
    (tape s k b t).pol = s.pol ∧ (tape s k b t).pwr = s.pwr ∧ (tape s k b t).therm = s.therm ∧
    (tape s k b t).fw = s.fw ∧ (tape s k b t).panel = s.panel ∧ (tape s k b t).host = s.host ∧
    (tape s k b t).free = s.free ∧ (tape s k b t).rf = s.rf ∧ (tape s k b t).aur = s.aur ∧
    (tape s k b t).zones = s.zones ∧ (tape s k b t).lanes = s.lanes ∧ (tape s k b t).tx = s.tx ∧
    (tape s k b t).mon = s.mon ∧ (tape s k b t).reg = s.reg ∧ (tape s k b t).demods = s.demods ∧
    (tape s k b t).flurry = s.flurry ∧ (tape s k b t).afs = s.afs ∧ (tape s k b t).ofdms = s.ofdms ∧
    (tape s k b t).services = s.services ∧ (tape s k b t).surveys = s.surveys ∧ (tape s k b t).links = s.links ∧
    (tape s k b t).paths = s.paths ∧ (tape s k b t).groups = s.groups ∧ (tape s k b t).saps = s.saps ∧
    (tape s k b t).part = s.part := by
  unfold tape; split <;> simp

/-- Writing the tape changes nothing of Firn but the tape. -/
@[simp] theorem tape_firn (s : State) (k : Nat) (b : Bytes) (t : Sid) :
    (tape s k b t).firn.st = s.firn.st ∧ (tape s k b t).firn.cfg = s.firn.cfg ∧
    (tape s k b t).firn.header = s.firn.header := by
  unfold tape; split <;> simp

@[simp] theorem raiseAt_frame (s : State) (t : Sid) (c u d : Nat) :
    (raiseAt s t c u d).pending = s.pending ∧ (raiseAt s t c u d).sid = s.sid ∧ (raiseAt s t c u d).cmds = s.cmds ∧
    (raiseAt s t c u d).rings = s.rings ∧ (raiseAt s t c u d).wins = s.wins ∧ (raiseAt s t c u d).mbx = s.mbx ∧
    (raiseAt s t c u d).vlog = s.vlog ∧ (raiseAt s t c u d).i2c = s.i2c ∧ (raiseAt s t c u d).hcfg = s.hcfg ∧
    (raiseAt s t c u d).leg = s.leg ∧ (raiseAt s t c u d).pcie = s.pcie ∧ (raiseAt s t c u d).eth = s.eth ∧
    (raiseAt s t c u d).clk = s.clk ∧ (raiseAt s t c u d).merid = s.merid ∧ (raiseAt s t c u d).pol = s.pol ∧
    (raiseAt s t c u d).pwr = s.pwr ∧ (raiseAt s t c u d).therm = s.therm ∧ (raiseAt s t c u d).fw = s.fw ∧
    (raiseAt s t c u d).panel = s.panel ∧ (raiseAt s t c u d).host = s.host ∧ (raiseAt s t c u d).free = s.free ∧
    (raiseAt s t c u d).rf = s.rf ∧ (raiseAt s t c u d).aur = s.aur ∧ (raiseAt s t c u d).zones = s.zones ∧
    (raiseAt s t c u d).lanes = s.lanes ∧ (raiseAt s t c u d).tx = s.tx ∧ (raiseAt s t c u d).mon = s.mon ∧
    (raiseAt s t c u d).reg = s.reg ∧ (raiseAt s t c u d).demods = s.demods ∧ (raiseAt s t c u d).flurry = s.flurry ∧
    (raiseAt s t c u d).afs = s.afs ∧ (raiseAt s t c u d).ofdms = s.ofdms ∧
    (raiseAt s t c u d).services = s.services ∧ (raiseAt s t c u d).surveys = s.surveys ∧
    (raiseAt s t c u d).links = s.links ∧ (raiseAt s t c u d).paths = s.paths ∧
    (raiseAt s t c u d).groups = s.groups ∧ (raiseAt s t c u d).saps = s.saps ∧ (raiseAt s t c u d).firn = s.firn ∧
    (raiseAt s t c u d).part = s.part := by
  unfold raiseAt; dsimp only; split
  · simp
  · split <;> simp

@[simp] theorem raise_frame (s : State) (c u d : Nat) :
    (raise s c u d).pending = s.pending ∧ (raise s c u d).sid = s.sid ∧ (raise s c u d).cmds = s.cmds ∧
    (raise s c u d).rings = s.rings ∧ (raise s c u d).wins = s.wins ∧ (raise s c u d).mbx = s.mbx ∧
    (raise s c u d).vlog = s.vlog ∧ (raise s c u d).i2c = s.i2c ∧ (raise s c u d).hcfg = s.hcfg ∧
    (raise s c u d).leg = s.leg ∧ (raise s c u d).pcie = s.pcie ∧ (raise s c u d).eth = s.eth ∧
    (raise s c u d).clk = s.clk ∧ (raise s c u d).merid = s.merid ∧ (raise s c u d).pol = s.pol ∧
    (raise s c u d).pwr = s.pwr ∧ (raise s c u d).therm = s.therm ∧ (raise s c u d).fw = s.fw ∧
    (raise s c u d).panel = s.panel ∧ (raise s c u d).host = s.host ∧ (raise s c u d).free = s.free ∧
    (raise s c u d).rf = s.rf ∧ (raise s c u d).aur = s.aur ∧ (raise s c u d).zones = s.zones ∧
    (raise s c u d).lanes = s.lanes ∧ (raise s c u d).tx = s.tx ∧ (raise s c u d).mon = s.mon ∧
    (raise s c u d).reg = s.reg ∧ (raise s c u d).demods = s.demods ∧ (raise s c u d).flurry = s.flurry ∧
    (raise s c u d).afs = s.afs ∧ (raise s c u d).ofdms = s.ofdms ∧ (raise s c u d).services = s.services ∧
    (raise s c u d).surveys = s.surveys ∧ (raise s c u d).links = s.links ∧ (raise s c u d).paths = s.paths ∧
    (raise s c u d).groups = s.groups ∧ (raise s c u d).saps = s.saps ∧ (raise s c u d).firn = s.firn ∧
    (raise s c u d).part = s.part := by
  simp [raise]

@[simp] theorem raiseSingle_frame (s : State) (t : Sid) (c u d : Nat) :
    (raiseSingle s t c u d).pending = s.pending ∧ (raiseSingle s t c u d).sid = s.sid ∧
    (raiseSingle s t c u d).cmds = s.cmds ∧ (raiseSingle s t c u d).rings = s.rings ∧
    (raiseSingle s t c u d).wins = s.wins ∧ (raiseSingle s t c u d).mbx = s.mbx ∧
    (raiseSingle s t c u d).vlog = s.vlog ∧ (raiseSingle s t c u d).i2c = s.i2c ∧
    (raiseSingle s t c u d).hcfg = s.hcfg ∧ (raiseSingle s t c u d).leg = s.leg ∧
    (raiseSingle s t c u d).pcie = s.pcie ∧ (raiseSingle s t c u d).eth = s.eth ∧
    (raiseSingle s t c u d).clk = s.clk ∧ (raiseSingle s t c u d).merid = s.merid ∧
    (raiseSingle s t c u d).pol = s.pol ∧ (raiseSingle s t c u d).pwr = s.pwr ∧
    (raiseSingle s t c u d).therm = s.therm ∧ (raiseSingle s t c u d).fw = s.fw ∧
    (raiseSingle s t c u d).panel = s.panel ∧ (raiseSingle s t c u d).host = s.host ∧
    (raiseSingle s t c u d).free = s.free ∧ (raiseSingle s t c u d).rf = s.rf ∧ (raiseSingle s t c u d).aur = s.aur ∧
    (raiseSingle s t c u d).zones = s.zones ∧ (raiseSingle s t c u d).lanes = s.lanes ∧
    (raiseSingle s t c u d).tx = s.tx ∧ (raiseSingle s t c u d).mon = s.mon ∧ (raiseSingle s t c u d).reg = s.reg ∧
    (raiseSingle s t c u d).demods = s.demods ∧ (raiseSingle s t c u d).flurry = s.flurry ∧
    (raiseSingle s t c u d).afs = s.afs ∧ (raiseSingle s t c u d).ofdms = s.ofdms ∧
    (raiseSingle s t c u d).services = s.services ∧ (raiseSingle s t c u d).surveys = s.surveys ∧
    (raiseSingle s t c u d).links = s.links ∧ (raiseSingle s t c u d).paths = s.paths ∧
    (raiseSingle s t c u d).groups = s.groups ∧ (raiseSingle s t c u d).saps = s.saps ∧
    (raiseSingle s t c u d).firn = s.firn ∧ (raiseSingle s t c u d).part = s.part := by
  simp [raiseSingle]

@[simp] theorem violate_frame (s : State) (k a l i : Nat) :
    (violate s k a l i).pending = s.pending ∧ (violate s k a l i).sid = s.sid ∧ (violate s k a l i).cmds = s.cmds ∧
    (violate s k a l i).rings = s.rings ∧ (violate s k a l i).wins = s.wins ∧ (violate s k a l i).mbx = s.mbx ∧
    (violate s k a l i).i2c = s.i2c ∧ (violate s k a l i).hcfg = s.hcfg ∧ (violate s k a l i).leg = s.leg ∧
    (violate s k a l i).pcie = s.pcie ∧ (violate s k a l i).eth = s.eth ∧ (violate s k a l i).clk = s.clk ∧
    (violate s k a l i).merid = s.merid ∧ (violate s k a l i).pol = s.pol ∧ (violate s k a l i).pwr = s.pwr ∧
    (violate s k a l i).therm = s.therm ∧ (violate s k a l i).fw = s.fw ∧ (violate s k a l i).panel = s.panel ∧
    (violate s k a l i).host = s.host ∧ (violate s k a l i).free = s.free ∧ (violate s k a l i).rf = s.rf ∧
    (violate s k a l i).aur = s.aur ∧ (violate s k a l i).zones = s.zones ∧ (violate s k a l i).lanes = s.lanes ∧
    (violate s k a l i).tx = s.tx ∧ (violate s k a l i).mon = s.mon ∧ (violate s k a l i).reg = s.reg ∧
    (violate s k a l i).demods = s.demods ∧ (violate s k a l i).flurry = s.flurry ∧ (violate s k a l i).afs = s.afs ∧
    (violate s k a l i).ofdms = s.ofdms ∧ (violate s k a l i).services = s.services ∧
    (violate s k a l i).surveys = s.surveys ∧ (violate s k a l i).links = s.links ∧
    (violate s k a l i).paths = s.paths ∧ (violate s k a l i).groups = s.groups ∧ (violate s k a l i).saps = s.saps ∧
    (violate s k a l i).firn = s.firn ∧ (violate s k a l i).part = s.part := by
  simp [violate]

@[simp] theorem mbxPush_frame (s : State) (e : MbxEntry) :
    (mbxPush s e).pending = s.pending ∧ (mbxPush s e).sid = s.sid ∧ (mbxPush s e).cmds = s.cmds ∧
    (mbxPush s e).rings = s.rings ∧ (mbxPush s e).wins = s.wins ∧ (mbxPush s e).ev = s.ev ∧
    (mbxPush s e).vlog = s.vlog ∧ (mbxPush s e).hcfg = s.hcfg ∧ (mbxPush s e).leg = s.leg ∧
    (mbxPush s e).pcie = s.pcie ∧ (mbxPush s e).eth = s.eth ∧ (mbxPush s e).clk = s.clk ∧
    (mbxPush s e).merid = s.merid ∧ (mbxPush s e).pol = s.pol ∧ (mbxPush s e).pwr = s.pwr ∧
    (mbxPush s e).therm = s.therm ∧ (mbxPush s e).fw = s.fw ∧ (mbxPush s e).panel = s.panel ∧
    (mbxPush s e).host = s.host ∧ (mbxPush s e).free = s.free ∧ (mbxPush s e).rf = s.rf ∧ (mbxPush s e).aur = s.aur ∧
    (mbxPush s e).zones = s.zones ∧ (mbxPush s e).lanes = s.lanes ∧ (mbxPush s e).tx = s.tx ∧
    (mbxPush s e).mon = s.mon ∧ (mbxPush s e).reg = s.reg ∧ (mbxPush s e).demods = s.demods ∧
    (mbxPush s e).flurry = s.flurry ∧ (mbxPush s e).afs = s.afs ∧ (mbxPush s e).ofdms = s.ofdms ∧
    (mbxPush s e).services = s.services ∧ (mbxPush s e).surveys = s.surveys ∧ (mbxPush s e).links = s.links ∧
    (mbxPush s e).paths = s.paths ∧ (mbxPush s e).groups = s.groups ∧ (mbxPush s e).saps = s.saps ∧
    (mbxPush s e).firn = s.firn ∧ (mbxPush s e).part = s.part := by
  unfold mbxPush; dsimp only; split <;> simp

@[simp] theorem postToRing_frame (w : EvWindow) (s : State) (n : Nat) :
    (postToRing w s n).pending = s.pending ∧ (postToRing w s n).sid = s.sid ∧ (postToRing w s n).cmds = s.cmds ∧
    (postToRing w s n).wins = s.wins ∧ (postToRing w s n).mbx = s.mbx ∧ (postToRing w s n).ev = s.ev ∧
    (postToRing w s n).vlog = s.vlog ∧ (postToRing w s n).i2c = s.i2c ∧ (postToRing w s n).hcfg = s.hcfg ∧
    (postToRing w s n).leg = s.leg ∧ (postToRing w s n).eth = s.eth ∧ (postToRing w s n).clk = s.clk ∧
    (postToRing w s n).merid = s.merid ∧ (postToRing w s n).pol = s.pol ∧ (postToRing w s n).pwr = s.pwr ∧
    (postToRing w s n).therm = s.therm ∧ (postToRing w s n).fw = s.fw ∧ (postToRing w s n).panel = s.panel ∧
    (postToRing w s n).free = s.free ∧ (postToRing w s n).rf = s.rf ∧ (postToRing w s n).aur = s.aur ∧
    (postToRing w s n).zones = s.zones ∧ (postToRing w s n).lanes = s.lanes ∧ (postToRing w s n).tx = s.tx ∧
    (postToRing w s n).mon = s.mon ∧ (postToRing w s n).reg = s.reg ∧ (postToRing w s n).demods = s.demods ∧
    (postToRing w s n).flurry = s.flurry ∧ (postToRing w s n).afs = s.afs ∧ (postToRing w s n).ofdms = s.ofdms ∧
    (postToRing w s n).services = s.services ∧ (postToRing w s n).surveys = s.surveys ∧
    (postToRing w s n).links = s.links ∧ (postToRing w s n).paths = s.paths ∧ (postToRing w s n).groups = s.groups ∧
    (postToRing w s n).saps = s.saps ∧ (postToRing w s n).firn = s.firn ∧ (postToRing w s n).part = s.part := by
  unfold postToRing; split
  · simp
  · split <;> simp

theorem foldl_postToRing_frame (w : EvWindow) (ns : List Nat) (s : State) :
    (ns.foldl (postToRing w) s).pending = s.pending ∧ (ns.foldl (postToRing w) s).sid = s.sid ∧
    (ns.foldl (postToRing w) s).cmds = s.cmds ∧ (ns.foldl (postToRing w) s).wins = s.wins ∧
    (ns.foldl (postToRing w) s).mbx = s.mbx ∧ (ns.foldl (postToRing w) s).ev = s.ev ∧
    (ns.foldl (postToRing w) s).vlog = s.vlog ∧ (ns.foldl (postToRing w) s).i2c = s.i2c ∧
    (ns.foldl (postToRing w) s).hcfg = s.hcfg ∧ (ns.foldl (postToRing w) s).leg = s.leg ∧
    (ns.foldl (postToRing w) s).eth = s.eth ∧ (ns.foldl (postToRing w) s).clk = s.clk ∧
    (ns.foldl (postToRing w) s).merid = s.merid ∧ (ns.foldl (postToRing w) s).pol = s.pol ∧
    (ns.foldl (postToRing w) s).pwr = s.pwr ∧ (ns.foldl (postToRing w) s).therm = s.therm ∧
    (ns.foldl (postToRing w) s).fw = s.fw ∧ (ns.foldl (postToRing w) s).panel = s.panel ∧
    (ns.foldl (postToRing w) s).free = s.free ∧ (ns.foldl (postToRing w) s).rf = s.rf ∧
    (ns.foldl (postToRing w) s).aur = s.aur ∧ (ns.foldl (postToRing w) s).zones = s.zones ∧
    (ns.foldl (postToRing w) s).lanes = s.lanes ∧ (ns.foldl (postToRing w) s).tx = s.tx ∧
    (ns.foldl (postToRing w) s).mon = s.mon ∧ (ns.foldl (postToRing w) s).reg = s.reg ∧
    (ns.foldl (postToRing w) s).demods = s.demods ∧ (ns.foldl (postToRing w) s).flurry = s.flurry ∧
    (ns.foldl (postToRing w) s).afs = s.afs ∧ (ns.foldl (postToRing w) s).ofdms = s.ofdms ∧
    (ns.foldl (postToRing w) s).services = s.services ∧ (ns.foldl (postToRing w) s).surveys = s.surveys ∧
    (ns.foldl (postToRing w) s).links = s.links ∧ (ns.foldl (postToRing w) s).paths = s.paths ∧
    (ns.foldl (postToRing w) s).groups = s.groups ∧ (ns.foldl (postToRing w) s).saps = s.saps ∧
    (ns.foldl (postToRing w) s).firn = s.firn ∧ (ns.foldl (postToRing w) s).part = s.part := by
  induction ns generalizing s with
  | nil => simp
  | cons n ns ih => simpa using ih (postToRing w s n)

@[simp] theorem postEvent_frame (s : State) (w : EvWindow) :
    (postEvent s w).pending = s.pending ∧ (postEvent s w).sid = s.sid ∧ (postEvent s w).cmds = s.cmds ∧
    (postEvent s w).wins = s.wins ∧ (postEvent s w).ev = s.ev ∧ (postEvent s w).vlog = s.vlog ∧
    (postEvent s w).hcfg = s.hcfg ∧ (postEvent s w).leg = s.leg ∧ (postEvent s w).eth = s.eth ∧
    (postEvent s w).clk = s.clk ∧ (postEvent s w).merid = s.merid ∧ (postEvent s w).pol = s.pol ∧
    (postEvent s w).pwr = s.pwr ∧ (postEvent s w).therm = s.therm ∧ (postEvent s w).fw = s.fw ∧
    (postEvent s w).panel = s.panel ∧ (postEvent s w).free = s.free ∧ (postEvent s w).rf = s.rf ∧
    (postEvent s w).aur = s.aur ∧ (postEvent s w).zones = s.zones ∧ (postEvent s w).lanes = s.lanes ∧
    (postEvent s w).tx = s.tx ∧ (postEvent s w).mon = s.mon ∧ (postEvent s w).reg = s.reg ∧
    (postEvent s w).demods = s.demods ∧ (postEvent s w).flurry = s.flurry ∧ (postEvent s w).afs = s.afs ∧
    (postEvent s w).ofdms = s.ofdms ∧ (postEvent s w).services = s.services ∧ (postEvent s w).surveys = s.surveys ∧
    (postEvent s w).links = s.links ∧ (postEvent s w).paths = s.paths ∧ (postEvent s w).groups = s.groups ∧
    (postEvent s w).saps = s.saps ∧ (postEvent s w).part = s.part := by
  unfold postEvent; dsimp only; split
  · split <;> simp
  · simp [foldl_postToRing_frame]

theorem foldl_postEvent_frame (ws : List EvWindow) (s : State) :
    (ws.foldl postEvent s).pending = s.pending ∧ (ws.foldl postEvent s).sid = s.sid ∧
    (ws.foldl postEvent s).cmds = s.cmds ∧ (ws.foldl postEvent s).wins = s.wins ∧ (ws.foldl postEvent s).ev = s.ev ∧
    (ws.foldl postEvent s).vlog = s.vlog ∧ (ws.foldl postEvent s).hcfg = s.hcfg ∧
    (ws.foldl postEvent s).leg = s.leg ∧ (ws.foldl postEvent s).eth = s.eth ∧ (ws.foldl postEvent s).clk = s.clk ∧
    (ws.foldl postEvent s).merid = s.merid ∧ (ws.foldl postEvent s).pol = s.pol ∧
    (ws.foldl postEvent s).pwr = s.pwr ∧ (ws.foldl postEvent s).therm = s.therm ∧ (ws.foldl postEvent s).fw = s.fw ∧
    (ws.foldl postEvent s).panel = s.panel ∧ (ws.foldl postEvent s).free = s.free ∧
    (ws.foldl postEvent s).rf = s.rf ∧ (ws.foldl postEvent s).aur = s.aur ∧ (ws.foldl postEvent s).zones = s.zones ∧
    (ws.foldl postEvent s).lanes = s.lanes ∧ (ws.foldl postEvent s).tx = s.tx ∧ (ws.foldl postEvent s).mon = s.mon ∧
    (ws.foldl postEvent s).reg = s.reg ∧ (ws.foldl postEvent s).demods = s.demods ∧
    (ws.foldl postEvent s).flurry = s.flurry ∧ (ws.foldl postEvent s).afs = s.afs ∧
    (ws.foldl postEvent s).ofdms = s.ofdms ∧ (ws.foldl postEvent s).services = s.services ∧
    (ws.foldl postEvent s).surveys = s.surveys ∧ (ws.foldl postEvent s).links = s.links ∧
    (ws.foldl postEvent s).paths = s.paths ∧ (ws.foldl postEvent s).groups = s.groups ∧
    (ws.foldl postEvent s).saps = s.saps ∧ (ws.foldl postEvent s).part = s.part := by
  induction ws generalizing s with
  | nil => simp
  | cons w ws ih => simpa using ih (postEvent s w)

@[simp] theorem flushFrom_frame (s : State) (k : Nat) (es : List Nat) :
    (flushFrom s k es).pending = s.pending ∧ (flushFrom s k es).sid = s.sid ∧ (flushFrom s k es).cmds = s.cmds ∧
    (flushFrom s k es).wins = s.wins ∧ (flushFrom s k es).vlog = s.vlog ∧ (flushFrom s k es).hcfg = s.hcfg ∧
    (flushFrom s k es).leg = s.leg ∧ (flushFrom s k es).eth = s.eth ∧ (flushFrom s k es).clk = s.clk ∧
    (flushFrom s k es).merid = s.merid ∧ (flushFrom s k es).pol = s.pol ∧ (flushFrom s k es).pwr = s.pwr ∧
    (flushFrom s k es).therm = s.therm ∧ (flushFrom s k es).fw = s.fw ∧ (flushFrom s k es).panel = s.panel ∧
    (flushFrom s k es).free = s.free ∧ (flushFrom s k es).rf = s.rf ∧ (flushFrom s k es).aur = s.aur ∧
    (flushFrom s k es).zones = s.zones ∧ (flushFrom s k es).lanes = s.lanes ∧ (flushFrom s k es).tx = s.tx ∧
    (flushFrom s k es).mon = s.mon ∧ (flushFrom s k es).reg = s.reg ∧ (flushFrom s k es).demods = s.demods ∧
    (flushFrom s k es).flurry = s.flurry ∧ (flushFrom s k es).afs = s.afs ∧ (flushFrom s k es).ofdms = s.ofdms ∧
    (flushFrom s k es).services = s.services ∧ (flushFrom s k es).surveys = s.surveys ∧ (flushFrom s k es).links = s.links ∧
    (flushFrom s k es).paths = s.paths ∧ (flushFrom s k es).groups = s.groups ∧ (flushFrom s k es).saps = s.saps ∧
    (flushFrom s k es).part = s.part := by
  simp [flushFrom, foldl_postEvent_frame]

theorem writeEntry_frame {s t : State} {n : Nat} {b : Bytes} (h : writeEntry s n b = some t) :
    t.pending = s.pending ∧ t.sid = s.sid ∧ t.cmds = s.cmds ∧ t.wins = s.wins ∧ t.mbx = s.mbx ∧ t.ev = s.ev ∧
    t.vlog = s.vlog ∧ t.i2c = s.i2c ∧ t.hcfg = s.hcfg ∧ t.leg = s.leg ∧ t.eth = s.eth ∧ t.clk = s.clk ∧
    t.merid = s.merid ∧ t.pol = s.pol ∧ t.pwr = s.pwr ∧ t.therm = s.therm ∧ t.fw = s.fw ∧ t.panel = s.panel ∧
    t.free = s.free ∧ t.rf = s.rf ∧ t.aur = s.aur ∧ t.zones = s.zones ∧ t.lanes = s.lanes ∧ t.tx = s.tx ∧
    t.mon = s.mon ∧ t.reg = s.reg ∧ t.demods = s.demods ∧ t.flurry = s.flurry ∧ t.afs = s.afs ∧ t.ofdms = s.ofdms ∧
    t.services = s.services ∧ t.surveys = s.surveys ∧ t.links = s.links ∧ t.paths = s.paths ∧ t.groups = s.groups ∧
    t.saps = s.saps ∧ t.firn = s.firn ∧ t.part = s.part := by
  unfold writeEntry at h
  dsimp only at h
  repeat' split at h
  all_goals first
    | (simp only [reduceCtorEq] at h)
    | (simp only [Option.some.injEq] at h; subst h; simp)

theorem eq_some_of_ite {α : Type} {c : Prop} {_ : Decidable c} {o : Option α} {x : α}
    (h : (if c then o else none) = some x) : o = some x := by
  split at h
  · exact h
  · cases h

@[simp] theorem padRing_frame (s : State) (n k : Nat) :
    (padRing s n k).pending = s.pending ∧ (padRing s n k).sid = s.sid ∧ (padRing s n k).cmds = s.cmds ∧
    (padRing s n k).wins = s.wins ∧ (padRing s n k).mbx = s.mbx ∧ (padRing s n k).ev = s.ev ∧
    (padRing s n k).vlog = s.vlog ∧ (padRing s n k).i2c = s.i2c ∧ (padRing s n k).hcfg = s.hcfg ∧
    (padRing s n k).leg = s.leg ∧ (padRing s n k).eth = s.eth ∧ (padRing s n k).clk = s.clk ∧
    (padRing s n k).merid = s.merid ∧ (padRing s n k).pol = s.pol ∧ (padRing s n k).pwr = s.pwr ∧
    (padRing s n k).therm = s.therm ∧ (padRing s n k).fw = s.fw ∧ (padRing s n k).panel = s.panel ∧
    (padRing s n k).free = s.free ∧ (padRing s n k).rf = s.rf ∧ (padRing s n k).aur = s.aur ∧
    (padRing s n k).zones = s.zones ∧ (padRing s n k).lanes = s.lanes ∧ (padRing s n k).tx = s.tx ∧
    (padRing s n k).mon = s.mon ∧ (padRing s n k).reg = s.reg ∧ (padRing s n k).demods = s.demods ∧
    (padRing s n k).flurry = s.flurry ∧ (padRing s n k).afs = s.afs ∧ (padRing s n k).ofdms = s.ofdms ∧
    (padRing s n k).services = s.services ∧ (padRing s n k).surveys = s.surveys ∧
    (padRing s n k).links = s.links ∧ (padRing s n k).paths = s.paths ∧ (padRing s n k).groups = s.groups ∧
    (padRing s n k).saps = s.saps ∧ (padRing s n k).firn = s.firn ∧ (padRing s n k).part = s.part := by
  unfold padRing; split
  · simp
  · dsimp only; split <;> simp

@[simp] theorem endInflight_frame (s : State) (e : Option (Nat × Nat)) :
    (endInflight s e).pending = s.pending ∧ (endInflight s e).sid = s.sid ∧ (endInflight s e).cmds = s.cmds ∧
    (endInflight s e).wins = s.wins ∧ (endInflight s e).mbx = s.mbx ∧ (endInflight s e).ev = s.ev ∧
    (endInflight s e).vlog = s.vlog ∧ (endInflight s e).i2c = s.i2c ∧ (endInflight s e).hcfg = s.hcfg ∧
    (endInflight s e).leg = s.leg ∧ (endInflight s e).eth = s.eth ∧ (endInflight s e).clk = s.clk ∧
    (endInflight s e).merid = s.merid ∧ (endInflight s e).pol = s.pol ∧ (endInflight s e).pwr = s.pwr ∧
    (endInflight s e).therm = s.therm ∧ (endInflight s e).fw = s.fw ∧ (endInflight s e).panel = s.panel ∧
    (endInflight s e).free = s.free ∧ (endInflight s e).rf = s.rf ∧ (endInflight s e).aur = s.aur ∧
    (endInflight s e).zones = s.zones ∧ (endInflight s e).lanes = s.lanes ∧ (endInflight s e).tx = s.tx ∧
    (endInflight s e).mon = s.mon ∧ (endInflight s e).reg = s.reg ∧ (endInflight s e).demods = s.demods ∧
    (endInflight s e).flurry = s.flurry ∧ (endInflight s e).afs = s.afs ∧ (endInflight s e).ofdms = s.ofdms ∧
    (endInflight s e).services = s.services ∧ (endInflight s e).surveys = s.surveys ∧
    (endInflight s e).links = s.links ∧ (endInflight s e).paths = s.paths ∧ (endInflight s e).groups = s.groups ∧
    (endInflight s e).saps = s.saps ∧ (endInflight s e).firn = s.firn ∧ (endInflight s e).part = s.part := by
  cases e <;> simp [endInflight]

@[simp] theorem pushEntry_frame (s : State) (n : Nat) (b : Bytes) (e : Option (Nat × Nat)) :
    (pushEntry s n b e).pending = s.pending ∧ (pushEntry s n b e).sid = s.sid ∧ (pushEntry s n b e).cmds = s.cmds ∧
    (pushEntry s n b e).wins = s.wins ∧ (pushEntry s n b e).mbx = s.mbx ∧ (pushEntry s n b e).ev = s.ev ∧
    (pushEntry s n b e).vlog = s.vlog ∧ (pushEntry s n b e).i2c = s.i2c ∧ (pushEntry s n b e).hcfg = s.hcfg ∧
    (pushEntry s n b e).leg = s.leg ∧ (pushEntry s n b e).eth = s.eth ∧ (pushEntry s n b e).clk = s.clk ∧
    (pushEntry s n b e).merid = s.merid ∧ (pushEntry s n b e).pol = s.pol ∧ (pushEntry s n b e).pwr = s.pwr ∧
    (pushEntry s n b e).therm = s.therm ∧ (pushEntry s n b e).fw = s.fw ∧ (pushEntry s n b e).panel = s.panel ∧
    (pushEntry s n b e).free = s.free ∧ (pushEntry s n b e).rf = s.rf ∧ (pushEntry s n b e).aur = s.aur ∧
    (pushEntry s n b e).zones = s.zones ∧ (pushEntry s n b e).lanes = s.lanes ∧ (pushEntry s n b e).tx = s.tx ∧
    (pushEntry s n b e).mon = s.mon ∧ (pushEntry s n b e).reg = s.reg ∧ (pushEntry s n b e).demods = s.demods ∧
    (pushEntry s n b e).flurry = s.flurry ∧ (pushEntry s n b e).afs = s.afs ∧ (pushEntry s n b e).ofdms = s.ofdms ∧
    (pushEntry s n b e).services = s.services ∧ (pushEntry s n b e).surveys = s.surveys ∧
    (pushEntry s n b e).links = s.links ∧ (pushEntry s n b e).paths = s.paths ∧ (pushEntry s n b e).groups = s.groups ∧
    (pushEntry s n b e).saps = s.saps ∧ (pushEntry s n b e).firn = s.firn ∧ (pushEntry s n b e).part = s.part := by
  unfold pushEntry
  split
  · simp
  · dsimp only
    split
    · rename_i h
      have g := writeEntry_frame (eq_some_of_ite h)
      split at g <;> simp [g]
    · split <;> simp

@[simp] theorem legacyDone_frame (s : State) (st : Nat) (r : Bytes) :
    (legacyDone s st r).pending = s.pending ∧ (legacyDone s st r).sid = s.sid ∧ (legacyDone s st r).cmds = s.cmds ∧
    (legacyDone s st r).rings = s.rings ∧ (legacyDone s st r).wins = s.wins ∧ (legacyDone s st r).mbx = s.mbx ∧
    (legacyDone s st r).ev = s.ev ∧ (legacyDone s st r).vlog = s.vlog ∧ (legacyDone s st r).i2c = s.i2c ∧
    (legacyDone s st r).hcfg = s.hcfg ∧ (legacyDone s st r).pcie = s.pcie ∧ (legacyDone s st r).eth = s.eth ∧
    (legacyDone s st r).clk = s.clk ∧ (legacyDone s st r).merid = s.merid ∧ (legacyDone s st r).pol = s.pol ∧
    (legacyDone s st r).pwr = s.pwr ∧ (legacyDone s st r).therm = s.therm ∧ (legacyDone s st r).fw = s.fw ∧
    (legacyDone s st r).panel = s.panel ∧ (legacyDone s st r).host = s.host ∧ (legacyDone s st r).free = s.free ∧
    (legacyDone s st r).rf = s.rf ∧ (legacyDone s st r).aur = s.aur ∧ (legacyDone s st r).zones = s.zones ∧
    (legacyDone s st r).lanes = s.lanes ∧ (legacyDone s st r).tx = s.tx ∧ (legacyDone s st r).mon = s.mon ∧
    (legacyDone s st r).reg = s.reg ∧ (legacyDone s st r).demods = s.demods ∧ (legacyDone s st r).flurry = s.flurry ∧
    (legacyDone s st r).afs = s.afs ∧ (legacyDone s st r).ofdms = s.ofdms ∧
    (legacyDone s st r).services = s.services ∧ (legacyDone s st r).surveys = s.surveys ∧
    (legacyDone s st r).links = s.links ∧ (legacyDone s st r).paths = s.paths ∧
    (legacyDone s st r).groups = s.groups ∧ (legacyDone s st r).saps = s.saps ∧ (legacyDone s st r).firn = s.firn ∧
    (legacyDone s st r).part = s.part := by
  unfold legacyDone; dsimp only; split
  · split <;> simp
  · simp

@[simp] theorem postCpl_frame (s : State) (o : Origin) (tag flags st d : Nat) (r : Bytes) (t : Sid) (fl : Bool) :
    (postCpl s o tag flags st d r t fl).pending = s.pending ∧ (postCpl s o tag flags st d r t fl).sid = s.sid ∧
    (postCpl s o tag flags st d r t fl).cmds = s.cmds ∧ (postCpl s o tag flags st d r t fl).wins = s.wins ∧
    (postCpl s o tag flags st d r t fl).ev = s.ev ∧ (postCpl s o tag flags st d r t fl).vlog = s.vlog ∧
    (postCpl s o tag flags st d r t fl).hcfg = s.hcfg ∧ (postCpl s o tag flags st d r t fl).eth = s.eth ∧
    (postCpl s o tag flags st d r t fl).clk = s.clk ∧ (postCpl s o tag flags st d r t fl).merid = s.merid ∧
    (postCpl s o tag flags st d r t fl).pol = s.pol ∧ (postCpl s o tag flags st d r t fl).pwr = s.pwr ∧
    (postCpl s o tag flags st d r t fl).therm = s.therm ∧ (postCpl s o tag flags st d r t fl).fw = s.fw ∧
    (postCpl s o tag flags st d r t fl).panel = s.panel ∧ (postCpl s o tag flags st d r t fl).free = s.free ∧
    (postCpl s o tag flags st d r t fl).rf = s.rf ∧ (postCpl s o tag flags st d r t fl).aur = s.aur ∧
    (postCpl s o tag flags st d r t fl).zones = s.zones ∧ (postCpl s o tag flags st d r t fl).lanes = s.lanes ∧
    (postCpl s o tag flags st d r t fl).tx = s.tx ∧ (postCpl s o tag flags st d r t fl).mon = s.mon ∧
    (postCpl s o tag flags st d r t fl).reg = s.reg ∧ (postCpl s o tag flags st d r t fl).demods = s.demods ∧
    (postCpl s o tag flags st d r t fl).flurry = s.flurry ∧ (postCpl s o tag flags st d r t fl).afs = s.afs ∧
    (postCpl s o tag flags st d r t fl).ofdms = s.ofdms ∧ (postCpl s o tag flags st d r t fl).services = s.services ∧
    (postCpl s o tag flags st d r t fl).surveys = s.surveys ∧ (postCpl s o tag flags st d r t fl).links = s.links ∧
    (postCpl s o tag flags st d r t fl).paths = s.paths ∧ (postCpl s o tag flags st d r t fl).groups = s.groups ∧
    (postCpl s o tag flags st d r t fl).saps = s.saps ∧ (postCpl s o tag flags st d r t fl).part = s.part := by
  unfold postCpl; dsimp only; split
  · simp
  · split <;> simp
  · simp
  · simp

end Sys2Proof.Machine
end

