-- ==== Sys2Proof/Laws/Pipeline.lean ====
section
/-! SUPPORT. Laws/Pipeline.lean: what taking a command does, said once: a command that is ready ends as its owning island
answers, and taking changes nothing that the island reads. -/

namespace Sys2Proof.Machine

/-! ## Taking -/

@[simp] theorem tapeCommand_frame (s : State) (c : Cmd) :
    (tapeCommand s c).pending = s.pending ∧ (tapeCommand s c).sid = s.sid ∧ (tapeCommand s c).cmds = s.cmds ∧
    (tapeCommand s c).rings = s.rings ∧ (tapeCommand s c).wins = s.wins ∧ (tapeCommand s c).mbx = s.mbx ∧
    (tapeCommand s c).ev = s.ev ∧ (tapeCommand s c).vlog = s.vlog ∧ (tapeCommand s c).i2c = s.i2c ∧
    (tapeCommand s c).hcfg = s.hcfg ∧ (tapeCommand s c).leg = s.leg ∧ (tapeCommand s c).pcie = s.pcie ∧
    (tapeCommand s c).eth = s.eth ∧ (tapeCommand s c).clk = s.clk ∧ (tapeCommand s c).merid = s.merid ∧
    (tapeCommand s c).pol = s.pol ∧ (tapeCommand s c).pwr = s.pwr ∧ (tapeCommand s c).therm = s.therm ∧
    (tapeCommand s c).fw = s.fw ∧ (tapeCommand s c).panel = s.panel ∧ (tapeCommand s c).host = s.host ∧
    (tapeCommand s c).free = s.free ∧ (tapeCommand s c).rf = s.rf ∧ (tapeCommand s c).aur = s.aur ∧
    (tapeCommand s c).zones = s.zones ∧ (tapeCommand s c).lanes = s.lanes ∧ (tapeCommand s c).tx = s.tx ∧
    (tapeCommand s c).mon = s.mon ∧ (tapeCommand s c).reg = s.reg ∧ (tapeCommand s c).demods = s.demods ∧
    (tapeCommand s c).flurry = s.flurry ∧ (tapeCommand s c).afs = s.afs ∧ (tapeCommand s c).ofdms = s.ofdms ∧
    (tapeCommand s c).services = s.services ∧ (tapeCommand s c).surveys = s.surveys ∧
    (tapeCommand s c).links = s.links ∧ (tapeCommand s c).paths = s.paths ∧ (tapeCommand s c).groups = s.groups ∧
    (tapeCommand s c).saps = s.saps ∧ (tapeCommand s c).part = s.part := by
  simp [tapeCommand]

@[simp] theorem tapeCommand_firn (s : State) (c : Cmd) :
    (tapeCommand s c).firn.st = s.firn.st ∧ (tapeCommand s c).firn.cfg = s.firn.cfg ∧
    (tapeCommand s c).firn.header = s.firn.header := by
  simp [tapeCommand]

@[simp] theorem enter_frame (c : Cmd) (s : State) :
    (enter c s).2.pending = s.pending ∧ (enter c s).2.sid = s.sid ∧ (enter c s).2.rings = s.rings ∧
    (enter c s).2.wins = s.wins ∧ (enter c s).2.mbx = s.mbx ∧ (enter c s).2.ev = s.ev ∧ (enter c s).2.vlog = s.vlog ∧
    (enter c s).2.i2c = s.i2c ∧ (enter c s).2.hcfg = s.hcfg ∧ (enter c s).2.leg = s.leg ∧ (enter c s).2.eth = s.eth ∧
    (enter c s).2.clk = s.clk ∧ (enter c s).2.merid = s.merid ∧ (enter c s).2.pol = s.pol ∧
    (enter c s).2.pwr = s.pwr ∧ (enter c s).2.therm = s.therm ∧ (enter c s).2.fw = s.fw ∧
    (enter c s).2.panel = s.panel ∧ (enter c s).2.free = s.free ∧ (enter c s).2.rf = s.rf ∧
    (enter c s).2.aur = s.aur ∧ (enter c s).2.zones = s.zones ∧ (enter c s).2.lanes = s.lanes ∧
    (enter c s).2.tx = s.tx ∧ (enter c s).2.mon = s.mon ∧ (enter c s).2.reg = s.reg ∧
    (enter c s).2.demods = s.demods ∧ (enter c s).2.flurry = s.flurry ∧ (enter c s).2.afs = s.afs ∧
    (enter c s).2.ofdms = s.ofdms ∧ (enter c s).2.services = s.services ∧ (enter c s).2.surveys = s.surveys ∧
    (enter c s).2.links = s.links ∧ (enter c s).2.paths = s.paths ∧ (enter c s).2.groups = s.groups ∧
    (enter c s).2.saps = s.saps ∧ (enter c s).2.firn = s.firn ∧ (enter c s).2.part = s.part := by
  unfold enter; cases c.a.origin <;> simp

@[simp] theorem taken_frame (sp : CmdSpec) (a : Args) (s : State) :
    (taken sp a s).pending = s.pending ∧ (taken sp a s).sid = s.sid ∧ (taken sp a s).rings = s.rings ∧
    (taken sp a s).wins = s.wins ∧ (taken sp a s).mbx = s.mbx ∧ (taken sp a s).ev = s.ev ∧
    (taken sp a s).vlog = s.vlog ∧ (taken sp a s).i2c = s.i2c ∧ (taken sp a s).hcfg = s.hcfg ∧
    (taken sp a s).leg = s.leg ∧ (taken sp a s).eth = s.eth ∧ (taken sp a s).clk = s.clk ∧
    (taken sp a s).merid = s.merid ∧ (taken sp a s).pol = s.pol ∧ (taken sp a s).pwr = s.pwr ∧
    (taken sp a s).therm = s.therm ∧ (taken sp a s).fw = s.fw ∧ (taken sp a s).panel = s.panel ∧
    (taken sp a s).free = s.free ∧ (taken sp a s).rf = s.rf ∧ (taken sp a s).aur = s.aur ∧
    (taken sp a s).zones = s.zones ∧ (taken sp a s).lanes = s.lanes ∧ (taken sp a s).tx = s.tx ∧
    (taken sp a s).mon = s.mon ∧ (taken sp a s).reg = s.reg ∧ (taken sp a s).demods = s.demods ∧
    (taken sp a s).flurry = s.flurry ∧ (taken sp a s).afs = s.afs ∧ (taken sp a s).ofdms = s.ofdms ∧
    (taken sp a s).services = s.services ∧ (taken sp a s).surveys = s.surveys ∧ (taken sp a s).links = s.links ∧
    (taken sp a s).paths = s.paths ∧ (taken sp a s).groups = s.groups ∧ (taken sp a s).saps = s.saps ∧
    (taken sp a s).part = s.part := by
  simp [taken]

@[simp] theorem taken_firn (sp : CmdSpec) (a : Args) (s : State) :
    (taken sp a s).firn.st = s.firn.st ∧ (taken sp a s).firn.cfg = s.firn.cfg ∧
    (taken sp a s).firn.header = s.firn.header := by
  simp [taken]

/-- Taking a command puts it last of those in flight and changes nothing else of them. -/
theorem enter_cmds (c : Cmd) (s : State) :
    (enter c s).2.cmds = { s.cmds with list := s.cmds.list ++ [(enter c s).1], nextSeq := s.cmds.nextSeq + 1 } := by
  unfold enter; cases c.a.origin <;> simp [putInflight]; split <;> simp [hostStore]

@[simp] theorem taken_cmds (sp : CmdSpec) (a : Args) (s : State) :
    (taken sp a s).cmds =
      { s.cmds with list := s.cmds.list ++ [flightOf sp a s], nextSeq := s.cmds.nextSeq + 1 } := by
  simp [taken, enter_cmds, flightOf]

/-! ## A command that is ready -/

theorem servedNow_of_served {s t : State} (h : t.cmds.served = s.cmds.served) (c : Cmd) :
    servedNow t c = servedNow s c := by simp [servedNow, h]

/-- A command that is ready is sent to its owning island, whose unit judges it. -/
theorem submit_launch {sp : CmdSpec} {a : Args} {s : State} (h : ready sp a s = true) :
    submit sp a s = launch sp (flightOf sp a s) (taken sp a s) ∧
      judge sp (cmdOf sp a) (taken sp a s) = sp.unit (cmdOf sp a) (taken sp a s) := by
  simp only [ready, Bool.and_eq_true, Bool.not_eq_true', decide_eq_true_eq, Bool.or_eq_true, Option.isNone_iff_eq_none] at h
  obtain ⟨⟨⟨⟨⟨⟨⟨⟨⟨⟨⟨⟨h1, h2⟩, h3⟩, h4⟩, h5⟩, h6⟩, h7⟩, h8⟩, h9⟩, h10⟩, h11⟩, h12⟩, h13⟩ := h
  have e1 : servedNow (enter (cmdOf sp a) s).2 (cmdOf sp a) = none := by
    exact (servedNow_of_served (by rw [enter_cmds]) _).trans h6
  have ei : (cmdOf sp a).immediate = true := h4
  constructor
  · have et : thawServed s sp.op = false := by simp [thawServed, h7]
    simp [submit, take, h1, Cmd.len, h2, h3, ei, show (enter (cmdOf sp a) s).1.seq = s.cmds.nextSeq from rfl, h5, e1, dispatch,
      h7]
    rw [show (enter (cmdOf sp a) s).1.cmd = cmdOf sp a from rfl]
    simp only [taken] at h9
    simp [h9, ei, flightOf, taken]
  · have e8 : ¬ (s.pwr.state = .frost ∧ servedInFrost (cmdOf sp a).unitId = false) := by
      rcases h8 with h8 | h8 <;> simp [h8]
    have e11 : legacyHolds (taken sp a s) (cmdOf sp a) = false := by simpa [legacyHolds] using h11
    have e12 : spareHolds (taken sp a s) (cmdOf sp a) = false := by simpa [spareHolds] using h12
    simp [judge, h10, e11, e12, h13]
    exact fun x y => absurd ⟨x, y⟩ e8

/-- It completes. -/
theorem submit_done {sp : CmdSpec} {a : Args} {s q : State} {st d : Nat} {r : Bytes} (h : ready sp a s = true)
    (hu : sp.unit (cmdOf sp a) (taken sp a s) = .done st d r q) :
    submit sp a s = answer sp a s st d r q := by
  obtain ⟨h1, h2⟩ := submit_launch h
  rw [h1, launch, show (flightOf sp a s).cmd = cmdOf sp a from rfl, h2, hu]
  simp [answer, show (flightOf sp a s).due = 0 from rfl]

/-- It has had its effect and its outcome is still to be reported. -/
theorem submit_later {sp : CmdSpec} {a : Args} {s q : State} {st d : Nat} {r : Bytes} (h : ready sp a s = true)
    (hu : sp.unit (cmdOf sp a) (taken sp a s) = .later st d r q) :
    submit sp a s = await sp a s st d r q := by
  obtain ⟨h1, h2⟩ := submit_launch h
  rw [h1, launch, show (flightOf sp a s).cmd = cmdOf sp a from rfl, h2, hu]
  simp [await, show (flightOf sp a s).due = 0 from rfl, show (flightOf sp a s).phase = .executing from rfl]
  rfl

/-- It is Executing. -/
theorem submit_busy {sp : CmdSpec} {a : Args} {s q : State} (h : ready sp a s = true)
    (hu : sp.unit (cmdOf sp a) (taken sp a s) = .busy q) : submit sp a s = begins sp a s q := by
  obtain ⟨h1, h2⟩ := submit_launch h
  rw [h1, launch, show (flightOf sp a s).cmd = cmdOf sp a from rfl, h2, hu]
  simp [begins, underway, show (flightOf sp a s).due = 0 from rfl, show (flightOf sp a s).phase = .executing from rfl]
  rfl

/-- It is refused there, and no unit has changed. -/
theorem submit_deny {sp : CmdSpec} {a : Args} {s : State} {st d : Nat} (h : ready sp a s = true)
    (hu : sp.unit (cmdOf sp a) (taken sp a s) = .deny st d) :
    submit sp a s = complete (taken sp a s) (flightOf sp a s) st d [] s.sid.now s.ev.nextId := by
  obtain ⟨h1, h2⟩ := submit_launch h
  rw [h1, launch, show (flightOf sp a s).cmd = cmdOf sp a from rfl, h2, hu]
  simp

theorem finishDestroy_none {s : State} {e : Nat × Ring} (h : e.2.destroying = none) : finishDestroy s e = s := by
  simp [finishDestroy, h]

/-- With no ring waiting to be destroyed the pass over the rings does nothing. -/
theorem foldl_finishDestroy {l : List (Nat × Ring)} (h : l.all (fun e => e.2.destroying.isNone) = true) (s : State) :
    l.foldl finishDestroy s = s := by
  induction l generalizing s with
  | nil => rfl
  | cons e l ih =>
    simp only [List.all_cons, Bool.and_eq_true, Option.isNone_iff_eq_none] at h
    simp [finishDestroy_none h.1, ih h.2]

/-! ## Completing -/

@[simp] theorem freeHeld_frame (s : State) (n : Nat) :
    (freeHeld s n).pending = s.pending ∧ (freeHeld s n).sid = s.sid ∧ (freeHeld s n).rings = s.rings ∧
    (freeHeld s n).wins = s.wins ∧ (freeHeld s n).mbx = s.mbx ∧ (freeHeld s n).ev = s.ev ∧
    (freeHeld s n).vlog = s.vlog ∧ (freeHeld s n).i2c = s.i2c ∧ (freeHeld s n).hcfg = s.hcfg ∧
    (freeHeld s n).leg = s.leg ∧ (freeHeld s n).pcie = s.pcie ∧ (freeHeld s n).eth = s.eth ∧
    (freeHeld s n).clk = s.clk ∧ (freeHeld s n).merid = s.merid ∧ (freeHeld s n).pol = s.pol ∧
    (freeHeld s n).pwr = s.pwr ∧ (freeHeld s n).therm = s.therm ∧ (freeHeld s n).fw = s.fw ∧
    (freeHeld s n).panel = s.panel ∧ (freeHeld s n).host = s.host ∧ (freeHeld s n).free = s.free ∧
    (freeHeld s n).rf = s.rf ∧ (freeHeld s n).aur = s.aur ∧ (freeHeld s n).zones = s.zones ∧
    (freeHeld s n).lanes = s.lanes ∧ (freeHeld s n).tx = s.tx ∧ (freeHeld s n).mon = s.mon ∧
    (freeHeld s n).reg = s.reg ∧ (freeHeld s n).demods = s.demods ∧ (freeHeld s n).flurry = s.flurry ∧
    (freeHeld s n).afs = s.afs ∧ (freeHeld s n).ofdms = s.ofdms ∧ (freeHeld s n).services = s.services ∧
    (freeHeld s n).surveys = s.surveys ∧ (freeHeld s n).links = s.links ∧ (freeHeld s n).paths = s.paths ∧
    (freeHeld s n).groups = s.groups ∧ (freeHeld s n).saps = s.saps ∧ (freeHeld s n).firn = s.firn ∧
    (freeHeld s n).part = s.part := by
  simp [freeHeld]

@[simp] theorem putFlight_frame (s : State) (f : InFlight) :
    (putFlight s f).pending = s.pending ∧ (putFlight s f).sid = s.sid ∧ (putFlight s f).rings = s.rings ∧
    (putFlight s f).wins = s.wins ∧ (putFlight s f).mbx = s.mbx ∧ (putFlight s f).ev = s.ev ∧
    (putFlight s f).vlog = s.vlog ∧ (putFlight s f).i2c = s.i2c ∧ (putFlight s f).hcfg = s.hcfg ∧
    (putFlight s f).leg = s.leg ∧ (putFlight s f).pcie = s.pcie ∧ (putFlight s f).eth = s.eth ∧
    (putFlight s f).clk = s.clk ∧ (putFlight s f).merid = s.merid ∧ (putFlight s f).pol = s.pol ∧
    (putFlight s f).pwr = s.pwr ∧ (putFlight s f).therm = s.therm ∧ (putFlight s f).fw = s.fw ∧
    (putFlight s f).panel = s.panel ∧ (putFlight s f).host = s.host ∧ (putFlight s f).free = s.free ∧
    (putFlight s f).rf = s.rf ∧ (putFlight s f).aur = s.aur ∧ (putFlight s f).zones = s.zones ∧
    (putFlight s f).lanes = s.lanes ∧ (putFlight s f).tx = s.tx ∧ (putFlight s f).mon = s.mon ∧
    (putFlight s f).reg = s.reg ∧ (putFlight s f).demods = s.demods ∧ (putFlight s f).flurry = s.flurry ∧
    (putFlight s f).afs = s.afs ∧ (putFlight s f).ofdms = s.ofdms ∧ (putFlight s f).services = s.services ∧
    (putFlight s f).surveys = s.surveys ∧ (putFlight s f).links = s.links ∧ (putFlight s f).paths = s.paths ∧
    (putFlight s f).groups = s.groups ∧ (putFlight s f).saps = s.saps ∧ (putFlight s f).firn = s.firn ∧
    (putFlight s f).part = s.part := by
  simp [putFlight]

@[simp] theorem complete1_frame (s : State) (f : InFlight) (st d : Nat) (r : Bytes) (t : Sid) (k : Nat) :
    (complete1 s f st d r t k).pending = s.pending ∧ (complete1 s f st d r t k).sid = s.sid ∧
    (complete1 s f st d r t k).wins = s.wins ∧ (complete1 s f st d r t k).vlog = s.vlog ∧
    (complete1 s f st d r t k).hcfg = s.hcfg ∧ (complete1 s f st d r t k).eth = s.eth ∧
    (complete1 s f st d r t k).clk = s.clk ∧ (complete1 s f st d r t k).merid = s.merid ∧
    (complete1 s f st d r t k).pol = s.pol ∧ (complete1 s f st d r t k).pwr = s.pwr ∧
    (complete1 s f st d r t k).therm = s.therm ∧ (complete1 s f st d r t k).fw = s.fw ∧
    (complete1 s f st d r t k).panel = s.panel ∧ (complete1 s f st d r t k).free = s.free ∧
    (complete1 s f st d r t k).rf = s.rf ∧ (complete1 s f st d r t k).aur = s.aur ∧
    (complete1 s f st d r t k).zones = s.zones ∧ (complete1 s f st d r t k).lanes = s.lanes ∧
    (complete1 s f st d r t k).tx = s.tx ∧ (complete1 s f st d r t k).mon = s.mon ∧
    (complete1 s f st d r t k).reg = s.reg ∧ (complete1 s f st d r t k).demods = s.demods ∧
    (complete1 s f st d r t k).flurry = s.flurry ∧ (complete1 s f st d r t k).afs = s.afs ∧
    (complete1 s f st d r t k).ofdms = s.ofdms ∧ (complete1 s f st d r t k).services = s.services ∧
    (complete1 s f st d r t k).surveys = s.surveys ∧ (complete1 s f st d r t k).links = s.links ∧
    (complete1 s f st d r t k).paths = s.paths ∧ (complete1 s f st d r t k).groups = s.groups ∧
    (complete1 s f st d r t k).saps = s.saps ∧ (complete1 s f st d r t k).part = s.part := by
  unfold complete1; split
  · simp
  · simp

@[simp] theorem unbindRing_frame (s : State) (n : Nat) :
    (unbindRing s n).pending = s.pending ∧ (unbindRing s n).sid = s.sid ∧ (unbindRing s n).cmds = s.cmds ∧
    (unbindRing s n).rings = s.rings ∧ (unbindRing s n).wins = s.wins ∧ (unbindRing s n).mbx = s.mbx ∧
    (unbindRing s n).ev = s.ev ∧ (unbindRing s n).vlog = s.vlog ∧ (unbindRing s n).i2c = s.i2c ∧
    (unbindRing s n).hcfg = s.hcfg ∧ (unbindRing s n).leg = s.leg ∧ (unbindRing s n).pcie = s.pcie ∧
    (unbindRing s n).eth = s.eth ∧ (unbindRing s n).clk = s.clk ∧ (unbindRing s n).merid = s.merid ∧
    (unbindRing s n).pol = s.pol ∧ (unbindRing s n).pwr = s.pwr ∧ (unbindRing s n).therm = s.therm ∧
    (unbindRing s n).fw = s.fw ∧ (unbindRing s n).panel = s.panel ∧ (unbindRing s n).host = s.host ∧
    (unbindRing s n).free = s.free ∧ (unbindRing s n).rf = s.rf ∧ (unbindRing s n).aur = s.aur ∧
    (unbindRing s n).zones = s.zones ∧ (unbindRing s n).lanes = s.lanes ∧ (unbindRing s n).tx = s.tx ∧
    (unbindRing s n).mon = s.mon ∧ (unbindRing s n).reg = s.reg ∧ (unbindRing s n).afs = s.afs ∧
    (unbindRing s n).services = s.services ∧ (unbindRing s n).links = s.links ∧ (unbindRing s n).paths = s.paths ∧
    (unbindRing s n).groups = s.groups ∧ (unbindRing s n).firn = s.firn ∧ (unbindRing s n).part = s.part := by
  simp [unbindRing]

@[simp] theorem dropRing_frame (s : State) (n : Nat) :
    (dropRing s n).pending = s.pending ∧ (dropRing s n).sid = s.sid ∧ (dropRing s n).cmds = s.cmds ∧
    (dropRing s n).wins = s.wins ∧ (dropRing s n).mbx = s.mbx ∧ (dropRing s n).ev = s.ev ∧
    (dropRing s n).vlog = s.vlog ∧ (dropRing s n).i2c = s.i2c ∧ (dropRing s n).hcfg = s.hcfg ∧
    (dropRing s n).leg = s.leg ∧ (dropRing s n).eth = s.eth ∧ (dropRing s n).clk = s.clk ∧
    (dropRing s n).merid = s.merid ∧ (dropRing s n).pol = s.pol ∧ (dropRing s n).pwr = s.pwr ∧
    (dropRing s n).therm = s.therm ∧ (dropRing s n).fw = s.fw ∧ (dropRing s n).panel = s.panel ∧
    (dropRing s n).free = s.free ∧ (dropRing s n).rf = s.rf ∧ (dropRing s n).aur = s.aur ∧
    (dropRing s n).zones = s.zones ∧ (dropRing s n).lanes = s.lanes ∧ (dropRing s n).tx = s.tx ∧
    (dropRing s n).mon = s.mon ∧ (dropRing s n).reg = s.reg ∧ (dropRing s n).afs = s.afs ∧
    (dropRing s n).services = s.services ∧ (dropRing s n).links = s.links ∧ (dropRing s n).paths = s.paths ∧
    (dropRing s n).groups = s.groups ∧ (dropRing s n).firn = s.firn ∧ (dropRing s n).part = s.part := by
  unfold dropRing; split <;> simp

@[simp] theorem finishDestroy_frame (s : State) (e : Nat × Ring) :
    (finishDestroy s e).pending = s.pending ∧ (finishDestroy s e).sid = s.sid ∧ (finishDestroy s e).wins = s.wins ∧
    (finishDestroy s e).vlog = s.vlog ∧ (finishDestroy s e).hcfg = s.hcfg ∧ (finishDestroy s e).eth = s.eth ∧
    (finishDestroy s e).clk = s.clk ∧ (finishDestroy s e).merid = s.merid ∧ (finishDestroy s e).pol = s.pol ∧
    (finishDestroy s e).pwr = s.pwr ∧ (finishDestroy s e).therm = s.therm ∧ (finishDestroy s e).fw = s.fw ∧
    (finishDestroy s e).panel = s.panel ∧ (finishDestroy s e).free = s.free ∧ (finishDestroy s e).rf = s.rf ∧
    (finishDestroy s e).aur = s.aur ∧ (finishDestroy s e).zones = s.zones ∧ (finishDestroy s e).lanes = s.lanes ∧
    (finishDestroy s e).tx = s.tx ∧ (finishDestroy s e).mon = s.mon ∧ (finishDestroy s e).reg = s.reg ∧
    (finishDestroy s e).afs = s.afs ∧ (finishDestroy s e).services = s.services ∧
    (finishDestroy s e).links = s.links ∧ (finishDestroy s e).paths = s.paths ∧
    (finishDestroy s e).groups = s.groups ∧ (finishDestroy s e).part = s.part := by
  unfold finishDestroy; split
  · simp
  · split
    · simp
    · split <;> simp

theorem foldl_finishDestroy_frame (l : List (Nat × Ring)) (s : State) :
    (l.foldl finishDestroy s).pending = s.pending ∧ (l.foldl finishDestroy s).sid = s.sid ∧
    (l.foldl finishDestroy s).wins = s.wins ∧ (l.foldl finishDestroy s).vlog = s.vlog ∧
    (l.foldl finishDestroy s).hcfg = s.hcfg ∧ (l.foldl finishDestroy s).eth = s.eth ∧
    (l.foldl finishDestroy s).clk = s.clk ∧ (l.foldl finishDestroy s).merid = s.merid ∧
    (l.foldl finishDestroy s).pol = s.pol ∧ (l.foldl finishDestroy s).pwr = s.pwr ∧
    (l.foldl finishDestroy s).therm = s.therm ∧ (l.foldl finishDestroy s).fw = s.fw ∧
    (l.foldl finishDestroy s).panel = s.panel ∧ (l.foldl finishDestroy s).free = s.free ∧
    (l.foldl finishDestroy s).rf = s.rf ∧ (l.foldl finishDestroy s).aur = s.aur ∧
    (l.foldl finishDestroy s).zones = s.zones ∧ (l.foldl finishDestroy s).lanes = s.lanes ∧
    (l.foldl finishDestroy s).tx = s.tx ∧ (l.foldl finishDestroy s).mon = s.mon ∧
    (l.foldl finishDestroy s).reg = s.reg ∧ (l.foldl finishDestroy s).afs = s.afs ∧
    (l.foldl finishDestroy s).services = s.services ∧ (l.foldl finishDestroy s).links = s.links ∧
    (l.foldl finishDestroy s).paths = s.paths ∧ (l.foldl finishDestroy s).groups = s.groups ∧
    (l.foldl finishDestroy s).part = s.part := by
  induction l generalizing s with
  | nil => simp
  | cons e l ih => simpa using ih (finishDestroy s e)

@[simp] theorem complete_frame (s : State) (f : InFlight) (st d : Nat) (r : Bytes) (t : Sid) (k : Nat) :
    (complete s f st d r t k).pending = s.pending ∧ (complete s f st d r t k).sid = s.sid ∧
    (complete s f st d r t k).wins = s.wins ∧ (complete s f st d r t k).vlog = s.vlog ∧
    (complete s f st d r t k).hcfg = s.hcfg ∧ (complete s f st d r t k).eth = s.eth ∧
    (complete s f st d r t k).clk = s.clk ∧ (complete s f st d r t k).merid = s.merid ∧
    (complete s f st d r t k).pol = s.pol ∧ (complete s f st d r t k).pwr = s.pwr ∧
    (complete s f st d r t k).therm = s.therm ∧ (complete s f st d r t k).fw = s.fw ∧
    (complete s f st d r t k).panel = s.panel ∧ (complete s f st d r t k).free = s.free ∧
    (complete s f st d r t k).rf = s.rf ∧ (complete s f st d r t k).aur = s.aur ∧
    (complete s f st d r t k).zones = s.zones ∧ (complete s f st d r t k).lanes = s.lanes ∧
    (complete s f st d r t k).tx = s.tx ∧ (complete s f st d r t k).mon = s.mon ∧
    (complete s f st d r t k).reg = s.reg ∧ (complete s f st d r t k).afs = s.afs ∧
    (complete s f st d r t k).services = s.services ∧ (complete s f st d r t k).links = s.links ∧
    (complete s f st d r t k).paths = s.paths ∧ (complete s f st d r t k).groups = s.groups ∧
    (complete s f st d r t k).part = s.part := by
  simp [complete, foldl_finishDestroy_frame]

@[simp] theorem finishOp_frame (s : State) (op tgt st d : Nat) (r : Bytes) (k : Nat) :
    (finishOp s op tgt st d r k).pending = s.pending ∧ (finishOp s op tgt st d r k).sid = s.sid ∧
    (finishOp s op tgt st d r k).wins = s.wins ∧ (finishOp s op tgt st d r k).vlog = s.vlog ∧
    (finishOp s op tgt st d r k).hcfg = s.hcfg ∧ (finishOp s op tgt st d r k).eth = s.eth ∧
    (finishOp s op tgt st d r k).clk = s.clk ∧ (finishOp s op tgt st d r k).merid = s.merid ∧
    (finishOp s op tgt st d r k).pol = s.pol ∧ (finishOp s op tgt st d r k).pwr = s.pwr ∧
    (finishOp s op tgt st d r k).therm = s.therm ∧ (finishOp s op tgt st d r k).fw = s.fw ∧
    (finishOp s op tgt st d r k).panel = s.panel ∧ (finishOp s op tgt st d r k).free = s.free ∧
    (finishOp s op tgt st d r k).rf = s.rf ∧ (finishOp s op tgt st d r k).aur = s.aur ∧
    (finishOp s op tgt st d r k).zones = s.zones ∧ (finishOp s op tgt st d r k).lanes = s.lanes ∧
    (finishOp s op tgt st d r k).tx = s.tx ∧ (finishOp s op tgt st d r k).mon = s.mon ∧
    (finishOp s op tgt st d r k).reg = s.reg ∧ (finishOp s op tgt st d r k).afs = s.afs ∧
    (finishOp s op tgt st d r k).services = s.services ∧ (finishOp s op tgt st d r k).links = s.links ∧
    (finishOp s op tgt st d r k).paths = s.paths ∧ (finishOp s op tgt st d r k).groups = s.groups ∧
    (finishOp s op tgt st d r k).part = s.part := by
  unfold finishOp; split <;> simp

/-- A completion, where no ring waits to be destroyed: only the commands in flight, the events, and the way that the
completion takes to its channel change. -/
theorem complete_quiet (s : State) (f : InFlight) (st d : Nat) (r : Bytes) (t : Sid) (k : Nat)
    (h : noneDestroying (complete1 s f st d r t k) = true) :
    (complete s f st d r t k).pending = s.pending ∧ (complete s f st d r t k).sid = s.sid ∧
    (complete s f st d r t k).wins = s.wins ∧ (complete s f st d r t k).vlog = s.vlog ∧
    (complete s f st d r t k).hcfg = s.hcfg ∧ (complete s f st d r t k).eth = s.eth ∧
    (complete s f st d r t k).clk = s.clk ∧ (complete s f st d r t k).merid = s.merid ∧
    (complete s f st d r t k).pol = s.pol ∧ (complete s f st d r t k).pwr = s.pwr ∧
    (complete s f st d r t k).therm = s.therm ∧ (complete s f st d r t k).fw = s.fw ∧
    (complete s f st d r t k).panel = s.panel ∧ (complete s f st d r t k).free = s.free ∧
    (complete s f st d r t k).rf = s.rf ∧ (complete s f st d r t k).aur = s.aur ∧
    (complete s f st d r t k).zones = s.zones ∧ (complete s f st d r t k).lanes = s.lanes ∧
    (complete s f st d r t k).tx = s.tx ∧ (complete s f st d r t k).mon = s.mon ∧
    (complete s f st d r t k).reg = s.reg ∧ (complete s f st d r t k).demods = s.demods ∧
    (complete s f st d r t k).flurry = s.flurry ∧ (complete s f st d r t k).afs = s.afs ∧
    (complete s f st d r t k).ofdms = s.ofdms ∧ (complete s f st d r t k).services = s.services ∧
    (complete s f st d r t k).surveys = s.surveys ∧ (complete s f st d r t k).links = s.links ∧
    (complete s f st d r t k).paths = s.paths ∧ (complete s f st d r t k).groups = s.groups ∧
    (complete s f st d r t k).saps = s.saps ∧ (complete s f st d r t k).part = s.part := by
  have e : complete s f st d r t k = complete1 s f st d r t k := foldl_finishDestroy h _
  rw [e]; simp

/-- The row of a host command puts its packet on its channel. -/
theorem exec_host {i : Instr} {sp : CmdSpec} {a : Args} (s : State) (h : hostCommand i = some (sp, a)) :
    exec i s = .next (submit sp a s) := by
  cases i <;> first
    | (simp only [hostCommand, Option.some.injEq, Prod.mk.injEq] at h; obtain ⟨rfl, rfl⟩ := h; rfl)
    | (simp [hostCommand] at h)

end Sys2Proof.Machine
end

