-- ==== Sys2Proof/Laws/Frames.lean ====
section
/-! SUPPORT. Laws/Frames.lean: from what an operation keeps (Laws/Keeps.lean) to the units that differ, to `Inv` and to the
locked table. -/

namespace Sys2Proof.Machine

theorem Sub.refl (m : Nat) : Sub m m := Nat.and_self m

theorem Sub.left (a b : Nat) : Sub a (a ||| b) := by
  unfold Sub
  apply Nat.eq_of_testBit_eq
  intro i
  rw [Nat.testBit_and, Nat.testBit_or]
  cases a.testBit i <;> rfl

theorem Sub.right (a b : Nat) : Sub b (a ||| b) := by
  rw [Nat.or_comm]
  exact Sub.left b a

theorem Field.mem_all (f : Field) : f ∈ Field.all := by cases f <;> decide

/-- Every unit of the set `m` is in the list. -/
def within (m : Nat) (l : List Field) : Bool := Field.all.all fun f => l.contains f || !m.testBit f.idx

variable {m k : Nat} {l : List Field} {s t : State}

theorem Keeps.only (h : Keeps m s t) (hl : within m l = true) : onlyChanges l s t := fun f hf => by
  refine h.same f ?_
  have := List.all_eq_true.1 hl f f.mem_all
  simpa [hf] using this

theorem Keeps.inv (h : Keeps m s t) (hi : Inv s) : Inv t :=
  ⟨h.host hi.1, h.ev hi.2.1, h.vlog hi.2.2.1, (h.reg hi.2.2.2).1⟩

theorem Keeps.locked (h : Keeps m s t) (hi : Inv s) (hl : s.reg.locked = true) :
    t.reg.locked = true ∧ t.reg.slots = s.reg.slots := (h.reg hi.2.2.2).2 hl

/-- A host command changes its own units and those that taking a packet may change. -/
theorem exec_host_keeps {i : Instr} {sp : CmdSpec} {a : Args} (hc : hostCommand i = some (sp, a))
    (hsp : CmdSpec.Keeps k sp) (h : exec i s = .next t) : Keeps (hostSet ||| k) s t := by
  rw [exec_host s hc] at h
  cases h
  exact submit_keeps hsp (Sub.right _ _) (Sub.left _ _) (Keeps.refl _ s)

end Sys2Proof.Machine
end

