-- ==== Sys2Proof/WellFormed.lean ====
section
/-! DEFINITION. WellFormed.lean: the operands that a row of the table can have: a packet whose `LEN` fits its field, a
channel and a unit that exist on the AGU7480 (Tables 2-1, 2-7 and 2-17). -/

namespace Sys2Proof

/-- A command ring is one of 128 (Table 2-7). -/
def Origin.wf : Origin → Bool
  | .ring n => decide (n < 128)
  | .mailbox => true
  | .legacy => true
  | .replay _ => false

/-- `LEN` is a 16-bit field (Table 2-1). -/
def Args.wf (a : Args) : Bool := a.origin.wf && decide (a.payload.length < 65536)

/-- The operands of a command are ones that the block can be given. -/
def Instr.wf : Instr → Bool
  | .nop a | .identify a | .getStatus a | .getCaps a | .cmdAbort a | .pwrStateSet a | .pwrGet a | .pwrLimitSet a
  | .ringCreate a | .ringDestroy a | .ringReset a | .winSet a | .eventWindowSet a | .refSet a | .lockSet a
  | .mclkSet a | .refoutSet a | .ppsoutSet a | .clockGet a | .auroraSet a | .auroraRun a | .auroraGet a | .antSet a
  | .biasSet a | .rfCal a | .rfStatusGet a | .blankSet a | .divSet a | .zoneTune a | .zoneGet a | .laneSet a
  | .laneTune a | .laneStart a | .laneStop a | .laneSync a | .laneStream a | .laneGet a | .amSet a | .fmSet a
  | .qualityGet a | .rdsStream a | .rdsGet a | .flurrySet a | .tapSet a | .flakeAssign a | .flakeRelease a
  | .flakeGet a | .censusGet a | .afSet a | .ofdmSet a | .ensembleGet a | .serviceListGet a | .serviceStart a
  | .serviceStop a | .ofdmQualityGet a | .ficStream a | .padStream a | .subchStream a | .surveySet a | .tiiGet a
  | .linkAdd a | .linkRemove a | .linkGet a | .linkConfig a | .blendSet a | .followSet a | .blendNow a | .followGet a
  | .eqLoad a | .eqSwapBank a | .tshiftSet a | .tshiftRead a | .sapSet a | .sapRoute a | .sapMaskSet a | .sapStream a
  | .sapGet a | .txTune a | .txStart a | .txStop a | .txLevelSet a | .txFmSet a | .txDabSet a | .txBreakinSet a
  | .txBreakin a | .txGet a | .regLoad a | .regCommit a | .regLock a | .regGet a | .coexSet a | .txSfnSet a
  | .txMonGet a | .timeSrcSet a | .ptpSet a | .timeSet a | .timeAcceptStep a | .timeAdjust a | .timeGet a
  | .schedAdd a | .schedCancel a | .schedGet a | .firnArm a | .firnTrigger a | .firnDisarm a | .firnStream a
  | .firnLoad a | .firnReplay a | .firnGet a | .polarisSet a | .polarisGet a | .alertClear a | .safeRelease a
  | .selftestRun a | .panelSet a | .panelGet a | .ethSet a | .udpStreamSet a | .ethGet a | .pcieGet a | .fwBegin a
  | .fwWrite a | .fwFinish a | .fwStatus a | .devReset a => Args.wf a
  | .doorbellWrite _ _ stores => stores.all fun e => decide (e.1 < 2 ^ 64)
  | .completionWrite o _ _ _ | .sampleTimedApply o _ _ => Origin.wf o
  | .completionRingSpace ring | .msixInterrupt ring | .modTimeExpiry ring _ | .streamDescriptorUse ring _
  | .dmaError ring _ => decide (ring < 128)
  | .udpDatagram d _ => decide (d.stream < 16)
  | .reassemblyTimeout stream _ _ | .audioInStreamStop stream | .audioOutDatagram stream _ => decide (stream < 16)
  | .loopLock loop _ | .loopUnlock loop _ => decide (loop < 5)
  | .mclkGate output _ _ => decide (output < 4)
  | .agcOverloadWindow ant _ _ | .overloadPersists ant | .biasFault ant _ _ | .biasRetry ant | .biasRetryRestore ant
  | .foregroundCalComplete ant _ _ _ | .spotCalStart ant _ | .spotCalComplete ant _ _ _ => decide (ant < 4)
  | .zoneSettled zone _ => decide (zone < 32)
  | .amCarrierLock lane _ | .pilotLock lane _ | .afRequest lane _ | .afFadeStart lane | .afSwitchComplete lane
  | .afSwitchInPlace lane _ | .afSwitchAbandoned lane | .afGotoTimeout lane | .ofdmNullFound lane _ _
  | .ofdmConfirmation lane _ _ _ | .ofdmConfirmationFail lane | .acquisitionTimeout lane | .fibDecoded lane _ _ _
  | .facSdcDecoded lane _ _ _ | .reconfiguration lane _ | .ensembleLost lane _ | .holdoverResume lane _
  | .dabAlertEnd lane _ _ | .ofdmWindowEnd lane _ _ _ | .spectrumRecord lane _ _ | .impulseResponseRecord lane _ _
  | .tiiAverageComplete lane _ _ _ => decide (lane < 32)
  | .census tap _ _ | .tapReset tap | .tapSettled tap _ => decide (tap < 4)
  | .probeTimeout flake => decide (flake < 256)
  | .serviceTimeout lane prog | .transportUnitDecoded lane prog _ _ _ _ | .dynamicLabel lane prog _ _ _ _
  | .motObject lane prog _ _ _ _ _ | .motTimeout lane prog _ _ _ | .drmTextMessage lane prog _ _ _ =>
    decide (lane < 32) && decide (prog < 24)
  | .linkEntryAged index => decide (index < 256)
  | .coarseResult head _ _ _ | .holdingTimeout head _ | .groupFadeEnd head _ | .fadeGuardLoss head _
  | .fadeHappening head => decide (head < 24)
  | .memberPcmChange path _ | .delayChangeStart path | .delayChangeEnd path _ | .eqSwapEffect path _ => decide (path < 24)
  | .sapFrameStart port _ _ | .sapClockLost port _ _ _ _ | .sapGlitch port _ | .sapFramingError port _ _
  | .sapRateChange port _ _ _ | .sapRetarget port _ _ | .sapResume port _ _ _ | .sapWaitingTimeout port => decide (port < 4)
  | .keyChange key _ _ => decide (key < 16)
  | .plugChange plug _ _ => decide (plug < 4)
  | .encoderStep encoder step _ => decide (encoder < 2) && decide (step.natAbs ≤ 1)
  | .schedFiring slot => decide (slot < 256)
  | .msixVectorUnmask vector => decide (vector < 64)
  | .g1Identify | .g1GetStatus | .g1GetCaps | .fmTune | .amTune | .dabTune | .drmTune | .rxStop | .fmConfig
  | .amConfig | .signalRead | .rdsRead | .ensembleRead | .serviceListRead | .servicePlay | .serviceHalt
  | .g1UndefinedCode | .go _ | .mailboxCopy | .cplPop _ | .overflowClear _ | .owner _ _ | .vlogClear _ | .pageSel _
  | .legEn _ _ | .ctrlFailClear _ | .registerWrite _ _ _ _ | .bar0InvalidAccess _ _ _ | .i2cStart | .i2cAddress _
  | .i2cStop | .i2cRepeatedStart | .i2cControllerNack | .i2cWakeAddressMatch _ _ | .evBusStuck _ | .inBandRequest
  | .ibrCollision | .controllerWrite _ | .tick _ | .eventWindowClose | .urgentEventPost | .mailboxVector
  | .irqNUpdate | .pcieIslandReset _ _ | .pcieLinkUp _ _ _ | .pcieD3hot _ | .sgmiiLinkChange _ _ _ | .ptpMessage _ _
  | .ptpBmcaRoleChange _ _ _ _ | .sfnFramePacketSend _ _ | .powerOn _ _ | .resetN _ _ | .vinReset _ _ | .bringUp _ _
  | .bringupStepComplete _ _ | .evBrownoutWarn _ _ _ | .brownoutRecovery _ _ | .frostEntryComplete _ | .frostExit _
  | .permafrostEntry | .wakeN _ _ _ | .wakeTimerExpiry | .avalancheEntryComplete _ | .avalancheExitComplete _
  | .boostUnitBegin | .thermalGovernorCheck | .powerLimitCheck | .thermalShutdown _ | .fwEraseComplete
  | .fwProgramComplete | .fwVerifyComplete _ _ | .fwMarkerComplete _ | .regCommitComplete _ _
  | .regTableTakesEffect | .referenceLoss _ | .referenceGlitch _ | .frequencyJump _ _ | .referenceReturn
  | .qualificationComplete | .frequencyAcquisitionComplete _ | .buildOutLock _ _ | .audioChannelPowerDown _
  | .ppsOutPulse _ _ | .coexBlankChange _ _ | .coexBlankTimeout | .auroraScan _ | .auroraEvaluation | .slewStep _ _
  | .slewComplete _ | .relockStart _ | .relockComplete _ | .lanePointOfEffect _ _ | .laneSettled _ _
  | .laneBlock _ _ _ | .laneFifoFull _ _ | .analogueWindowEnd _ _ _ | .rdsSyncAcquired _ _ _ | .rdsSyncLost _
  | .rdsGroup _ _ _ | .alignLoop _ | .pageReleased | .txPllLocked _ | .txTuneTimeout | .synthWindowExpiry
  | .coexGntChange _ _ | .coexWaitExpiry | .txStartSequence _ | .txStopComplete _ | .fastMute _ | .dutyLimit _
  | .continuousLimit _ | .monitorWindow _ _ | .sfnFrame _ _ | .sfnCoastExpiry _ | .breakinTrigger _ _ | .ptt _ _
  | .ppsInEdge _ _ | .sourceLost | .siderealStep | .slewWithinThreshold | .meridianRelease | .firnChunk _ _ _
  | .firnCheckpoint | .firnTriggerFired _ _ | .firnFrozen _ | .firnStreamComplete _ | .firnLoadComplete _
  | .replayCheckpoint _ | .replayEnd _ | .alertPrimaryReport _ _ _ _ | .alertCheckReport _ _ _ _
  | .alertMismatchTimeout _ _ | .heartbeatCheck _ _ _ | .watchdogExpiry _ | .lockstepMismatch _ | .configCrcCheck _ _
  | .eccError _ _ _ | .railOutOfRange _ _ | .ballReadbackFault _ _ _ | .breakinDueCheck _ _ | .periodicSelftest _ _
  | .arpIcmpRequest _ | .ptpMessageSend _ _ => true

end Sys2Proof
end

