-- ==== Sys2Proof/Tests/Slice0.lean ====
section
/-! SUPPORT. Tests/Slice0.lean: checks of the model by single steps on small states, ill-formed operands that the check
refuses, and for every statement that has hypotheses a state and operands that meet them (`test_witness_<statement>`).
Expected values come from the manual's tables and examples, or from a calculation by hand after them. -/

namespace Sys2Proof.Tests

open Sys2Proof.Machine

set_option Elab.async false

/-! ## Small states -/

/-- Active, 100 units past the first tick boundary. -/
def base : State :=
  { State.reset with
    sid := { Sidereal.reset with running := true, now := 20480000100, next := 40960000000, ticks := 1 }
    pwr := { Power.reset with state := .active, buStep := 10 } }

/-- A packet from the mailbox. -/
def mb (target : Nat) (payload : Bytes) : Args :=
  { origin := .mailbox, addr := 0, tag := 1, flags := 0, target := BitVec.ofNat 16 target, whn := 0, payload := payload }

/-- A packet from ring 0. -/
def rg (target : Nat) (payload : Bytes) : Args :=
  { origin := .ring 0, addr := 0x10000, tag := 1, flags := 0, target := BitVec.ofNat 16 target, whn := 0, payload := payload }

/-- `n` as a little-endian field of `k` bytes. -/
def f (k n : Nat) : Bytes := leBytes k n

/-- `RING_CREATE` payload (Table 2-8): ring, type and completion ring; 4096 bytes at 0x10000, status block at 0x20000. -/
def ringBody (n kind cpl : Nat) : Bytes :=
  [BitVec.ofNat 8 n, BitVec.ofNat 8 kind, 0, 0xFF] ++ f 4 4096 ++ f 8 0x10000 ++ f 8 0x20000 ++ f 4 0 ++
    [BitVec.ofNat 8 cpl, 0, 0, 0] ++ f 4 0 ++ zeros 4

/-- Window 0 spans 1 MiB from 0x10000 for reading and writing. -/
def winState : State := base.setWins [(0, { read := true, write := true, base := 0x10000, size := 0x100000 })]

def ring (n kind cpl : Nat) : Machine.Ring := newRing (ringBody n kind cpl)

/-- Command ring 0 with completion ring 1. -/
def ringState : State :=
  winState.setRings [(0, ring 0 1 1), (1, { ring 1 2 0xFF with base := 0x30000, statusAddr := 0x40000 })]

/-- A command in flight from the mailbox. -/
def flight (op target : Nat) (payload : Bytes) (ph : Phase) : InFlight :=
  { cmd := ⟨op, mb target payload⟩, seq := 0, phase := ph, freed := none, late := false, due := 0, bit := false, firing := none,
    begun := true, outcome := none, evs := [], since := 0 }

def withFlight (s : State) (g : InFlight) : State := s.setCmds { s.cmds with list := [g], nextSeq := 1 }

/-- An image (Table 10-3) with 64 entries (Table 10-4): FM at 98.0 MHz, DAB at 174.928 MHz, and unused ones. -/
def regImage : Bytes :=
  fit 2112 ([1, 64] ++ zeros 6 ++ f 2 100 ++ f 2 100 ++ [2, 0, 0, 0] ++ f 4 86400 ++ zeros 44 ++
    ([1, 0, 0, 0] ++ f 4 98000 ++ sleBytes 2 60 ++ f 2 750 ++ [100, 0] ++ f 2 10 ++ f 2 100 ++ f 2 2 ++ zeros 12) ++
    ([2, 0, 0, 0] ++ f 4 174928 ++ sleBytes 2 60 ++ f 2 0 ++ [100, 0] ++ f 2 10 ++ f 2 100 ++ f 2 2 ++ zeros 12))

def regState (locked : Bool) : State :=
  base.setReg { Reg.reset with locked := locked, gen := 1, image := regImage, slots := [⟨1, regImage, true⟩] }

/-! ## Witnesses: system, rings, mailbox, links -/

/-- `CMD_ABORT` of tag 1 of the mailbox. -/
def abort1 : Args := { mb 0 [0x80, 0, 1, 0] with tag := 2 }

theorem test_witness_SystemCommandsComplete :
    (channelOpen base .mailbox = true ∧ badLen .mailbox (mb 0 []).payload.length = false) ∧
    badLen .mailbox (mb 0 [1]).payload.length = true ∧
    ready identifySpec (mb 0 []) base = true ∧ ready getStatusSpec (mb 0 []) base = true ∧
    ready getCapsSpec (mb 0 [1, 0, 0, 0]) base = true ∧
    (let s := withFlight base (flight 0x0401 0x0200 [] .held)
     ready cmdAbortSpec abort1 s = true ∧
      (byTag (taken cmdAbortSpec abort1 s) (abortOrigin [0x80, 0, 1, 0]) 1).map (·.phase) = some .held) ∧
    (let s := withFlight (base.setSaps [(3, { Sap.reset with st := .clockLost })]) (flight 0x0804 0x0803 [] .executing)
     ready cmdAbortSpec abort1 s = true ∧
      ((byTag (taken cmdAbortSpec abort1 s) (abortOrigin [0x80, 0, 1, 0]) 1).map fun g =>
        decide (g.phase = .executing) && (abortExecuting (taken cmdAbortSpec abort1 s) g).isSome) = some true) := by
  decide +kernel

theorem test_witness_RingAndWindowCommandsComplete :
    (ready ringCreateSpec (mb 0 (ringBody 5 3 0xFF)) ringState = true ∧ mget ringState.rings 5 = none) ∧
    (ready ringCreateSpec (mb 0 (ringBody 0 1 1)) (ringState.setRings ringState.rings.tail) = true ∧
      mget ringState.rings.tail 0 = none ∧ (mget ringState.rings.tail 1).map (·.kind) = some .completion) ∧
    (ready ringDestroySpec (mb 0 [2, 0, 0, 0]) (ringState.setRings [(2, ring 2 3 0xFF)]) = true) ∧
    (ready ringDestroySpec (mb 0 [1, 0, 0, 0]) (ringState.setRings ringState.rings.tail) = true ∧
      ringState.rings.tail.all (fun e => decide (e.2.kind ≠ .command)) = true) ∧
    (ready ringDestroySpec (mb 0 [0, 0, 0, 0]) ringState = true ∧ (ring 0 1 1).kind = .command ∧
      (ring 0 1 1).destroying = none) ∧
    (ready ringResetSpec (mb 0 ([0, 0, 0, 0] ++ f 4 16)) (ringState.setRings [(0, { ring 0 1 1 with halted := true })]) = true ∧
      16 % granule (ring 0 1 1).kind = 0) ∧
    (ready winSetSpec (mb 0 ([0, 3, 0, 0, 0, 0, 0, 0] ++ f 8 0x1000 ++ f 8 0x1000)) winState = true ∧
      windowInUse (taken winSetSpec (mb 0 ([0, 3, 0, 0, 0, 0, 0, 0] ++ f 8 0x1000 ++ f 8 0x1000)) winState)
        { read := true, write := true, base := 0x10000, size := 0x100000 } = false) ∧
    ready eventWindowSetSpec (mb 0 [0xFF, 0xFF, 3, 0]) base = true := by decide

theorem test_witness_MailboxControlBitsAct :
    let s := base.setMbx { base.mbx with owner := 2 }
    (owns s .pcie = true ∧ s.mbx.submit = none) ∧
    ((s.setMbx { s.mbx with submit := some (zeros 128) }).mbx.submit = some (zeros 128) ∧ mbxCount s < 32) ∧
    owns s .i2c = false ∧ base.mbx.owner = 0 ∧ s.mbx.owner ≠ 0 := by decide

theorem test_witness_RegisterWritesTakeEffect :
    let s := (base.setMbx { base.mbx with owner := 2 }).setPcie { base.pcie with up := true }
    (s.pcie.up = true ∧ owns s .pcie = true ∧ s.mbx.submit = none) ∧
    (owns (s.setMbx { s.mbx with owner := 1 }) .pcie = false) ∧
    (base.setI2c { base.i2c with st := .writePtr }).i2c.st = .writePtr ∧
    ((base.setI2c { base.i2c with st := .write, page := 2, pointer := 5 }).i2c.pointer < 6) := by decide

theorem test_witness_I2cTargetAndAttentionFollowTheBus :
    let s := base.setI2c { base.i2c with st := .address }
    (s.i2c.st = .address ∧ (0xB0 : Byte).toNat / 2 = s.hcfg.i2cAddr ∧ targetAnswers s = true ∧ s.pwr.state ≠ .frost) ∧
    (0xB2 : Byte).toNat / 2 ≠ s.hcfg.i2cAddr ∧ base.i2c.pend = [] ∧
    (s.setI2c { s.i2c with pend := [(0, 0xFF, 2)] }).i2c.pend = [(0, 0xFF, 2)] ∧
    (s.setI2c { s.i2c with st := .read }).i2c.st = .read ∧
    wakes (base.setPwr { base.pwr with state := .permafrost, wakeMask := 1 }) 0 999 = true ∧
    maySignal ((base.setMbx { base.mbx with owner := 1, attn := true, queue := [⟨true, false, []⟩] }).setHcfg
      { base.hcfg with attnMode := 1 }) 1 = true ∧
    (s.setI2c { s.i2c with holding := true }).i2c.holding = true ∧
    (maySignal ((base.setMbx { base.mbx with owner := 1, attn := true, queue := [⟨true, false, []⟩] }).setHcfg
        { base.hcfg with attnMode := 2 }) 2 = true ∧
      givenUp ((base.setMbx { base.mbx with owner := 1, attn := true, queue := [⟨true, false, []⟩] }).setHcfg
        { base.hcfg with attnMode := 2 }) = false) ∧
    base.i2c.nacks + 1 < max 1 base.hcfg.ctrlRetry ∧
    (base.setI2c { base.i2c with nacks := 2 }).i2c.nacks + 1 = max 1 base.hcfg.ctrlRetry := by decide

theorem test_witness_DoorbellsAndInterruptsAct :
    let c := ring 0 1 1
    let q := { ring 1 2 0xFF with prod := 4096 }
    (mget ringState.rings 0 = some c ∧ hasPcie base = true) ∧
    (q.kind = .completion ∧ (q.prod + 2 ^ 32 - 0) % 2 ^ 32 ≤ q.size) ∧
    ((ring 3 4 0xFF).kind = .streamOut ∧ (4096 + 2 ^ 32 - (ring 3 4 0xFF).cons) % 2 ^ 32 ≤ (ring 3 4 0xFF).size ∧
      4096 % granule .streamOut = 0) ∧
    (c.kind = .command ∧ (4112 + 2 ^ 32 - c.cons) % 2 ^ 32 > c.size) ∧
    (let h := { ring 1 2 0xFF with heldCpl := [(zeros 16, none)] }
     (writeEntry (padRing (ringState.setRings [(1, h)]) 1 16) 1 (zeros 16)).isSome = true) ∧
    (let s := raise base evTime 0x0A00 1
     (dueWindow (s.setEv { s.ev with windows := s.ev.windows.map fun w => { w with left := 0 } })).isSome = true ∧
      (s.ev.windows.map (canPost s)) = [true]) ∧
    (let r := { ring 1 2 0xFF with vector := 0, uncovered := 1, modCount := 1 }
     r.vector ≠ 0xFF ∧ 0 < r.uncovered ∧ max 1 r.modCount ≤ r.uncovered ∧
      r.firstAt + r.modTime * usU ≤ (advance base 0).sid.now) ∧
    (mget base.rings 127).isNone = true ∧ (0x7FFC : BitVec 16).toNat < 0x8000 ∧
    (let s := (base.setMbx { base.mbx with signal := true, owner := 2 }).setHcfg { base.hcfg with mbxIrqEn := true }
     s.mbx.signal = true ∧ s.mbx.owner = 2 ∧ s.hcfg.mbxIrqEn = true) ∧
    (BitVec.getLsbD (1#64 <<< 63) 63 = true ∧ BitVec.getLsbD (1#64 <<< 63) 0 = false) := by decide +kernel

/-- Stream-out or stream-in ring 3 with one descriptor at 0x10000: `BUF_ADDR` 0x50000 or 0x500, `BUF_LEN` 256. -/
def streamState (kind fill adr : Nat) : State :=
  (ringState.setRings [(3, { ring 3 kind 0xFF with prod := 16, fill := fill })]).setHost
    (memCells [] [(0x10001 + adr, 5), (0x10009, 1)])

def ring3 (s : State) : Machine.Ring := mgetD s.rings 3 (ring 3 4 0xFF)

theorem test_witness_HostLinkOccurrencesAct :
    (let s := streamState 4 1 1
     s.pcie.d3 = false ∧ (ring3 s).halted = false ∧ 16 ≤ occupancy (ring3 s) ∧ (ring3 s).kind = .streamOut ∧
      0 < (ring3 s).fill) ∧
    (let s := streamState 4 0 0
     (ring3 s).fill = 0 ∧ (bufferDenied s (ring3 s)).isSome = true) ∧
    (let s := streamState 5 0 1
     (ring3 s).kind = .streamIn ∧ (descriptorDenied s (ring3 s)).isNone = true ∧
      inWindow s false (le (descriptor s (ring3 s) 0) 0 8) (le (descriptor s (ring3 s) 0) 8 4) = true) ∧
    (let s := (streamState 5 0 1).setWins []
     (descriptorDenied s (ring3 s)).isSome = true) ∧
    (5 ≤ base.pwr.buStep ∧ base.pcie.up = false ∧ hasPcie base = true) ∧ portPowered base = true := by decide +kernel

theorem test_witness_PanelInputsAreReported :
    ready panelSetSpec (mb 0x0D00 panelDefault) base = true ∧ ready panelGetSpec (mb 0x0D00 []) base = true ∧
    (base.pwr.state ≠ .off ∧ base.panel.withheld.contains 15 = false ∧ base.panel.keys.getLsbD 15 = false ∧
      phantom (keysDown base.panel ||| 2 ^ 15) 15 = false) ∧
    (let p := { base.panel with keys := 0x0013 }
     bit (byteAt p.cfg 8) 0 = false ∧ p.keys.getLsbD 5 = false ∧ phantom (keysDown p ||| 2 ^ 5) 5 = true ∧
      p.keys.getLsbD 0 = true) ∧
    ((base.setPanel { base.panel with withheld := [5] }).panel.withheld.contains 5 = true) ∧
    ((false == bit (byteAt base.panel.cfg 6) 3) = true ∧ base.panel.plugs.getLsbD 3 = false) ∧
    (let s := base.setPanel { base.panel with cfg := splice panelDefault 7 [4] }
     (s.panel.part0 + -1).natAbs < byteAt s.panel.cfg 7 ∧ (s.panel.part1 + 1).natAbs < byteAt s.panel.cfg 7) ∧
    (let s := base.setPanel { base.panel with cfg := splice panelDefault 7 [1] }
     byteAt s.panel.cfg 7 ≤ (s.panel.part0 + 1).natAbs ∧ byteAt s.panel.cfg 7 ≤ (s.panel.part1 + -1).natAbs) ∧
    base.panel.ptt ≠ true ∧ base.pwr.state = .active ∧
    (base.setPwr { base.pwr with state := .permafrost }).pwr.state = .permafrost := by decide +kernel

/-- `UDP_STREAM_SET` payload (Table 15-11): stream, kind, ports 5000, frames. -/
def udp (i kind frames depth : Nat) : Bytes :=
  [BitVec.ofNat 8 i, BitVec.ofNat 8 kind, 0, 0] ++ f 2 5000 ++ f 2 5000 ++ [0, BitVec.ofNat 8 frames, BitVec.ofNat 8 depth, 1] ++
    zeros 20

def ethState (u : UdpStream) : State :=
  base.setEth { base.eth with link := true, cfg := splice (zeros 48) 0 [2, 0, 0, 0, 0, 1, 3, 0, 10, 0, 0, 2], streams := [(15, u)] }

theorem test_witness_EthernetStreamsAct :
    ready ethSetSpec (mb 0x0F00 (zeros 48)) base = true ∧
    (ready udpStreamSetSpec (mb 0x0F00 (udp 15 0 0 0)) base = true ∧ sfnRole base = 0) ∧
    ready ethGetSpec (mb 0x0F00 []) base = true ∧ ready pcieGetSpec (mb 0x0E00 []) base = true ∧
    portUp (ethState UdpStream.reset) = true ∧
    (let u : UdpStream := { UdpStream.reset with cfg := udp 15 4 0 0 }
     let q := received (advance (ethState u) 0) 1
     (stream q 15).kind = 4 ∧ streamRuns q (stream q 15) = true ∧ forPort q (stream q 15) 0x0A000002 = true ∧
      (stream q 15).takesFrom 0x0A000001 = true) ∧
    (({ UdpStream.reset with cfg := splice (udp 15 4 0 0) 12 [10, 0, 0, 3] } : UdpStream).takesFrom 0x0A000001 = false) ∧
    (let r : Reasm := { stream := 15, ident := 7, first := 0, parts := [], total := none }
     let s := (base.setEth { base.eth with reasm := [r] }).setSid { base.sid with now := secU, next := secU + tickU }
     ((advance s 0).eth.reasm.find? fun e => decide (e.stream = 15) && decide (e.ident = 7)) = some r ∧
      r.first + 20000 * usU ≤ (advance s 0).sid.now) ∧
    (let s := ethState { UdpStream.reset with cfg := udp 15 2 0 2, active := true }
     (stream s 15).kind = 2 ∧ (stream s 15).active = true ∧ expired s (stream s 15).deadline = true) ∧
    (let s := ethState { UdpStream.reset with cfg := udp 15 1 6 0, outNo := 10 }
     (stream s 15).kind = 1 ∧ streamRuns s (stream s 15) = true ∧
      (10 + 6 - 1) * secU / 48000 ≤ (advance s 0).sid.now ∧
      (advance s 0).sid.now ≤ (10 + 6 - 1) * secU / 48000 + 500 * usU ∧
      (1 + 6 - 1) * secU / 48000 ≤ (advance s 0).sid.now) ∧
    (let s := (ethState { UdpStream.reset with cfg := udp 15 1 6 0, outNo := 10 }).setSid
       { base.sid with now := secU, next := secU + tickU }
     (10 + 6 - 1) * secU / 48000 + 500 * usU < (advance s 0).sid.now) ∧
    (let s := ((ethState { UdpStream.reset with cfg := udp 15 3 0 0 }).setReg (regState true).reg).setTx { Tx.reset with
        st := .on, entry := some 1, sfn := [1, 15] ++ zeros 14 }
     let q := advance s 0
     sfnRole q = 1 ∧ txMode q = 2 ∧ transmitting q = true ∧ (stream q (sfnStream q)).kind = 3 ∧
      streamRuns q (stream q (sfnStream q)) = true ∧ mget s.tx.ahead 10 = none ∧
      (q.sid.now : Int) + le s.tx.sfn 12 2 * 1000 * usU ≤ 10 * frameU + 65536 * les s.tx.sfn 4 4) := by
  decide +kernel

theorem test_witness_ClockCommandsComplete :
    (ready refSetSpec (mb 0 base.clk.cfg) base = true ∧ bit (byteAt base.clk.cfg 1) 0 = false) ∧
    (ready refSetSpec (mb 0 [1, 0, 0x00, 0x96, 0, 0, 0, 2]) base = true ∧ noneDestroying base = true) ∧
    ready lockSetSpec (mb 0 ([4, 5] ++ f 2 256)) base = true ∧
    (ready mclkSetSpec (mb 0 ([3, 0, 0, 0] ++ f 4 12288000 ++ zeros 4)) base = true ∧ base.clk.a48.users = []) ∧
    ready refoutSetSpec (mb 0 ([1, 0, 0, 0] ++ f 4 10000)) base = true ∧
    ready ppsoutSetSpec (mb 0 ([2, 0, 0, 0] ++ f 4 500000)) base = true ∧ ready clockGetSpec (mb 0 []) base = true := by decide

/-! ## Witnesses: clocks and time -/

def clkState (st : RefState) : State := base.setClk { base.clk with state := st }

/-- All five loops powered and near the reference, one second after reset, in a reference state. -/
def refState (st : RefState) : State :=
  (base.setSid { base.sid with now := secU, next := secU + tickU }).setClk { base.clk with state := st }

theorem test_witness_ReferenceHoldoverAndReturn :
    ((clkState .locked).clk.state = .locked ∧
      20000000 < ((30000000 : Int) - mean base.clk.refDev base.clk.refHist).natAbs ∧
      (let s := base.setClk { base.clk with state := .locked, recent := List.replicate 15 base.sid.now }
       15 ≤ (s.clk.recent.filter fun x => decide ((advance s 0).sid.now < x + 65536000000)).length)) ∧
    (base.clk.recent.filter fun x => decide ((advance base 0).sid.now < x + 65536000000)).length < 15 ∧
    (clkState .holdover).clk.state = .holdover ∧
    ((clkState .qualifying).clk.state = .qualifying ∧ expired (clkState .qualifying) (clkState .qualifying).clk.qualBy = true) ∧
    (let s := refState .acquisition
     s.clk.state = .acquisition ∧ s.clk.acqFrom + 1000 * usU ≤ (advance s 0).sid.now ∧
      ∀ l < 5, loopPowered s l = true → ((loopOf s l).dev - s.clk.refDev).natAbs < 5000) ∧
    (let s := refState .buildOut
     s.clk.state = .buildOut ∧
      ∀ l < 5, loopPowered s l = true → lockFrom s l + pdCycles s l 256 ≤ (advance s 0).sid.now) ∧
    (let s := refState .locked
     s.clk.state = .locked ∧ loopLocked s 4 = false ∧ lockFrom s 4 ≤ (advance s 0).sid.now) ∧
    (let s := base.setClk { base.clk with a48 := { powered := true, users := [], downBy := 1 } }
     (audioCh s 2).powered = true ∧ (audioCh s 2).users = [] ∧ expired s (audioCh s 2).downBy = true) ∧
    (let s := base.setClk { base.clk with mclk := [(0, ⟨true, 12288000, false⟩)], refDev := 60000000 }
     mget s.clk.mclk 0 = some ⟨true, 12288000, false⟩ ∧ loopLocked s (mclkLoop 12288000) = false ∧
      mclkBound s (mclkLoop 12288000) = false) ∧
    (let s := base.setClk { base.clk with mclk := [(0, ⟨true, 12288000, true⟩)], lock := 0x1F }
     mget s.clk.mclk 0 = some ⟨true, 12288000, true⟩ ∧ loopLocked s (mclkLoop 12288000) = true) ∧
    (let s := refState .locked
     let q := s.setClk { s.clk with ppsMode := 1 }
     (advance q 0).sid.now % secU = 0 ∧ ppsAllowed q = true ∧ q.clk.ppsHigh = false ∧ ¬0 < q.clk.ppsEnd ∧
      0 < ({ q.clk with ppsEnd := secU } : Clocks).ppsEnd ∧ secU ≤ (advance q 0).sid.now ∧
      (advance q 0).sid.now < secU + 65536000000) ∧
    (let s := base.setClk { base.clk with ppsHigh := true, ppsEnd := base.sid.now }
     s.clk.ppsHigh = true ∧ s.clk.ppsEnd ≤ (advance s 0).sid.now) := by decide +kernel

def timeState (b0 : Byte) (st : TimeState) : State :=
  base.setSid { base.sid with cfg := splice timeSrcDefault 0 [b0], st := st }

theorem test_witness_TimeCommandsComplete :
    (ready timeSrcSetSpec (mb 0x0A00 (splice timeSrcDefault 0 [1])) base = true ∧ base.sid.st = .unset) ∧
    ready timeSrcSetSpec (mb 0x0A00 timeSrcDefault) base = true ∧
    ready ptpSetSpec (mb 0x0A00 (splice ptpDefault 0 [1])) base = true ∧ ready ptpSetSpec (mb 0x0A00 ptpDefault) base = true ∧
    (ready timeSetSpec (mb 0x0A00 ([1, 0, 0, 0] ++ zeros 12)) base = true ∧ noneDestroying base = true) ∧
    ready timeAcceptStepSpec (mb 0x0A00 [1, 0, 0, 0]) (timeState 3 .refused) = true ∧
    (let a := mb 0x0A00 (zeros 8 ++ f 8 (2 ^ 24 / 3200))
     ready timeAdjustSpec a (timeState 3 .disciplined) = true ∧ timeSrc (timeState 3 .disciplined) = 3 ∧
      sidOf base.sid.now (BitVec.ofNat 64 (le a.payload 8 8)) ≤ base.sid.now ∧
      base.sid.now ≤ sidOf base.sid.now (BitVec.ofNat 64 (le a.payload 8 8)) + 3200 * tickU) ∧
    ready timeGetSpec (mb 0x0A00 []) base = true := by decide +kernel

theorem test_witness_TimeSourcesAct :
    let p := (base.setSid { base.sid with ptp := splice ptpDefault 0 [1, 0, 0, 1], cfg := splice timeSrcDefault 0 [1] }).setEth
      { base.eth with link := true, cfg := splice (zeros 48) 0 [2, 0, 0, 0, 0, 1] }
    (ptpPort p = true ∧ p.sid.group.length + 1 < byteAt p.sid.ptp 10) ∧
    (let q := p.setSid { p.sid with group := List.replicate 16 (0, 0) }
     ptpPort q = true ∧ byteAt q.sid.ptp 10 ≤ q.sid.group.length + 1) ∧
    byteAt p.sid.ptp 3 = 1 ∧ le p.eth.cfg 0 6 ≠ 0 ∧
    (let q := p.setSid { p.sid with master := true }
     ptpPort q = true ∧ q.sid.master = true ∧ le q.eth.cfg 0 6 ≠ 0) ∧
    ((timeState 2 .free).sid.running = true ∧ timeSrc (timeState 2 .free) = 2) ∧
    (timeSrc (timeState 3 .disciplined) ≠ 0 ∧ expired (timeState 3 .disciplined) (timeState 3 .disciplined).sid.lossBy = true ∧
      (timeState 3 .disciplined).sid.st = .disciplined) ∧
    (let s := (timeState 3 .disciplined).setSid { (timeState 3 .disciplined).sid with suspended := true }
     s.sid.st = .disciplined ∧ s.sid.suspended = true ∧ s.sid.offset.natAbs ≤ jumpU s) := by decide +kernel

/-! ## Witnesses: aerial inputs and Aurora -/

def antState (x : Ant) : State := base.setRf { base.rf with ants := mput base.rf.ants 3 x }

/-- `ANT_SET` payload with a mode, attenuation and gain (Table 4-10). -/
def antBody (mode att lna : Nat) : Bytes := splice antDefault 0 [BitVec.ofNat 8 mode, BitVec.ofNat 8 att, BitVec.ofNat 8 lna]

/-- Full lane 0 in a state of Table 5-11, with a use and zone 0. -/
def laneState (st : LaneState) (use : Nat) : State :=
  ((base.setLanes [(0x0300, { Lane.reset with
      st := st, cfg := splice (zeros 24) 0 [BitVec.ofNat 8 use, 1], freq := 98000000000, outRate := useRate use })]).setZones
    [(0, { Zone.reset with st := .running, freq := 100000000000 })]).setClk { base.clk with sclkHz := 3200000000 }

theorem test_witness_AerialInputCommandsComplete :
    ready antSetSpec (mb 0x0103 (antBody 0 31 30)) base = true ∧ ready antSetSpec (mb 0x0103 (antBody 2 0 0)) base = true ∧
    ready biasSetSpec (mb 0x0103 [0, 1, 255, 0, 32, 0, 0, 0]) base = true ∧
    ready biasSetSpec (mb 0x0103 [2, 25, 0, 0, 32, 0, 0, 0]) base = true ∧
    ready rfCalSpec (mb 0x0103 [1, 0, 0, 0, 0, 0, 0, 0]) base = true ∧
    ready rfCalSpec (mb 0x0103 [2, 20, 60, 0, 0, 0, 0, 0]) base = true ∧ ready rfStatusGetSpec (mb 0x0100 []) base = true ∧
    (ready blankSetSpec (mb 0x0100 [15, 2, 0, 0, 200, 0, 0, 0]) base = true ∧ bit (byteAt base.rf.blank 2) 0 = false) ∧
    (ready divSetSpec (mb 0x0300 [0, 60, 15, 0]) (laneState .stopped 3) = true ∧
      divOk (lane (laneState .stopped 3) 0x0300) [0, 60, 15, 0] = true) := by decide +kernel

theorem test_witness_AerialInputOccurrencesAct :
    (markedAt base false 3 base.sid.now = false ∧ (([] : List Int).filter (overThresh (ant base 3))).length < byteAt (ant base 3).cfg 6 ∧
      byteAt (ant base 3).cfg 6 ≤ (((List.replicate 8 (8191 : Int)).take 256).filter (overThresh (ant base 3))).length ∧
      (ant base 3).mode = 1 ∧ (ant base 3).powered = true ∧ (ant base 3).lockout ≤ 5 ∧
      5 < (ant (antState { Ant.reset with lockout := 6 }) 3).lockout) ∧
    (let s := antState { Ant.reset with g := -31, ovlRun := 32 }
     (ant s 3).g = -31 ∧ 32 ≤ (ant s 3).ovlRun ∧ (ant s 3).ovlTold = false) ∧
    (let s := antState { Ant.reset with bias := .on, biasBy := 1 }
     biasClosed (ant s 3) = true ∧ (ant s 3).bias ≠ .lowCurrent ∧ expired s (ant s 3).biasBy = true) ∧
    (let s := antState { Ant.reset with bias := .limiting, retries := 0 }
     (ant s 3).bias = .limiting ∧ (ant s 3).retries = 0) ∧
    (let s := antState { Ant.reset with bias := .limiting, retries := 1 }
     (ant s 3).bias = .limiting ∧ 0 < (ant s 3).retries) ∧
    (let s := antState { Ant.reset with bias := .retry, biasBy := 1 }
     (ant s 3).bias = .retry ∧ expired s (ant s 3).biasBy = true) ∧
    (let s := (antState { Ant.reset with calState := 2 }).setSid { base.sid with now := secU, next := secU + tickU }
     (ant s 3).calState = 2 ∧ (ant s 3).calFrom + 180000000 * 65536 ≤ (advance s 0).sid.now) ∧
    (let s := antState { Ant.reset with spotAsked := true }
     spotDue s (ant s 3) 250 = true ∧ s.aur.st = .stable ∧ fgRunning s = false ∧ ∀ e ∈ s.rf.ants, e.2.spotEnd = none) ∧
    (let s := antState { Ant.reset with spotEnd := some 1 }
     (ant s 3).spotEnd = some 1 ∧ expired s 1 = true) ∧
    (let s := base.setRf { base.rf with blankOn := true, blank := splice base.rf.blank 0 [1, 1] }
     blanking s = true ∧ expired s s.rf.blankBy = true) := by decide +kernel

def plan (hitless : Bool) : Plan := { khz := 3200000, cond := 0, pen := 0, hitless := hitless }

/-- At 3300 MHz a class B product of a signal at 314.5 MHz falls on the lane at 98 MHz, and only rates from 3297.1 MHz are
allowed: 3297.2 MHz, 2.8 MHz away, moves it by 350 kHz and clear of the window with its 250 kHz guard. -/
def planState (mode : Byte) : State :=
  let s := laneState .running 3
  let l := lane s 0x0300
  (((s.setLanes [(0x0300, { l with stages := (stageCount l.outRate 3300000000 false).getD 0 })]).setClk
    { s.clk with sclkHz := 3300000000, lockPoint := 3299800 }).setAur { s.aur with
      asked := true, cfg := splice (splice auroraDefault 0 [mode]) 14 (f 2 3199)
      strong := [{ freq := 314500, width := 0, level := 500 }, { freq := 98000, width := 200, level := -500 }] }).setSid
    { s.sid with bound := s.sid.now }

theorem test_aurora_choosePlan_auto :
    choosePlan (planState 2) = some { khz := 3297200, cond := 0, pen := 0, hitless := true } := by decide +kernel

/-- The choice does not depend on `AUR_MODE`. -/
theorem choosePlan_mode (m : Byte) : choosePlan (planState m) = choosePlan (planState 2) := by rfl

theorem test_witness_AuroraPlansAndMoves_evaluation :
    (mayEvaluate (planState 2) = true ∧ aurMode (planState 2) = 2 ∧
      choosePlan (planState 2) = some { khz := 3297200, cond := 0, pen := 0, hitless := true }) ∧
    (mayEvaluate (planState 1) = true ∧ aurMode (planState 1) = 1 ∧
      choosePlan (planState 1) = some { khz := 3297200, cond := 0, pen := 0, hitless := true }) ∧
    mayEvaluate (planState 0) = true ∧ aurMode (planState 0) = 0 :=
  ⟨⟨by decide +kernel, by decide +kernel, test_aurora_choosePlan_auto⟩,
   ⟨by decide +kernel, by decide +kernel, (choosePlan_mode 1).trans test_aurora_choosePlan_auto⟩,
   by decide +kernel, by decide +kernel⟩

theorem test_witness_AuroraPlansAndMoves :
    (ready auroraSetSpec (mb 0 auroraDefault) base = true ∧ byteAt auroraDefault 0 ≠ 0 ∧ base.aur.st = .stable) ∧
    (ready auroraSetSpec (mb 0 auroraDefault) (base.setAur { base.aur with st := .relocking }) = true) ∧
    ready auroraRunSpec (mb 0 [2, 0, 0, 0]) base = true ∧
    (let s := base.setAur { base.aur with pend := some (plan true) }
     ready auroraRunSpec (mb 0 [1, 0, 0, 0]) s = true ∧ s.aur.pend = some (plan true) ∧ s.aur.st = .stable) ∧
    (let s := base.setAur { base.aur with pend := some (plan false) }
     ready auroraRunSpec (mb 0 [1, 0, 0, 0]) s = true ∧ s.aur.pend = some (plan false)) ∧
    ready auroraGetSpec (mb 0 [4, 0, 0, 0]) base = true ∧ expired base base.aur.scanBy = true ∧
    (let s := (base.setAur { base.aur with st := .slewing, goal := 3200000 }).setClk { base.clk with sclkHz := 3200000000 }
     s.aur.st = .slewing ∧ 4096 % 4096 = 0 ∧ s.aur.slewIdx = none ∧ fsOf s = 1000 * s.aur.goal ∧ s.aur.cfgNext = none ∧
      s.aur.pend = none) ∧
    (let s := ((base.setAur { base.aur with pend := some (plan false), approved := true }).setClk
       { base.clk with state := .locked }).setSid { base.sid with bound := base.sid.now }
     s.aur.pend = some (plan false) ∧ s.aur.approved = true ∧ s.aur.st = .stable ∧ safetyOn s = false ∧
      atBoundary (advance s 0) = true ∧ s.clk.state = .locked ∧ (clkState .holdover).clk.state ≠ .locked ∧
      s.aur.deferred = false) ∧
    (let s := base.setAur { base.aur with pend := some (plan false), st := .relocking }
     s.aur.pend = some (plan false) ∧ s.aur.st = .relocking ∧ s.aur.cfgNext = none) := by decide +kernel

/-! ## Witnesses: zones, lanes, demodulators, Flurry, AF -/

/-- `LANE_SET` payload (Table 5-13): use, one zone, rate. -/
def laneBody (use zone rate : Nat) : Bytes :=
  [BitVec.ofNat 8 use, 1, 0, 0, BitVec.ofNat 8 zone, 0xFF, 0xFF, 0xFF] ++ f 4 rate ++ f 2 0 ++ zeros 10

def zoneBody (mhz en : Nat) : Bytes := f 8 (mhz * 1000000000) ++ f 4 0 ++ [BitVec.ofNat 8 en, 0, 0, 0]

theorem test_witness_ZoneAndLaneCommandsComplete :
    let lt := f 8 99000000000 ++ zeros 8
    let st := laneState .stopped 3
    let ru := laneState .running 3
    let pa := laneState .paused 3
    (ready zoneTuneSpec (mb 0x021F (zoneBody 1500 1)) base = true ∧
      zoneTuneOk (cmdOf zoneTuneSpec (mb 0x021F (zoneBody 1500 1))) base = true) ∧
    ready zoneGetSpec (mb 0x0200 []) base = true ∧
    (let h := hostAbandons (taken laneSetSpec (mb 0x0301 (laneBody 3 0 0)) st) 0x0301
     ready laneSetSpec (mb 0x0301 (laneBody 3 0 0)) st = true ∧ (lane h 0x0301).st = .idle ∧ laneDesignated h 1 = false ∧
      (stageCount (askedRate (laneBody 3 0 0)) (fsOf h) false).isSome = true ∧
      bindOk h 0x0301 (askedZones (laneBody 3 0 0)) = true ∧ rateSum h 0x0301 + askedRate (laneBody 3 0 0) ≤ 800000000) ∧
    (let h := hostAbandons (taken laneSetSpec (mb 0x0300 (zeros 24)) st) 0x0300
     ready laneSetSpec (mb 0x0300 (zeros 24)) st = true ∧ (lane h 0x0300).st = .stopped ∧ laneDesignated h 0 = false) ∧
    (ready laneTuneSpec (mb 0x0300 lt) st = true ∧ (lane st 0x0300).st = .stopped ∧
      tuneOk (le lt 0 8) (zoneCentre st (lane st 0x0300)) (lane st 0x0300).outRate = true ∧ bit (byteAt lt 8) 0 = false) ∧
    (ready laneTuneSpec (mb 0x0300 lt) ru = true ∧
      tuneOk (le lt 0 8) (zoneCentre ru (lane ru 0x0300)) (lane ru 0x0300).outRate = true) ∧
    (ready laneStartSpec (mb 0x0300 []) st = true ∧ shedRefusal st 5 = none) ∧
    (ready laneStopSpec (mb 0x0300 []) ru = true ∧ (lane ru 0x0300).live = true) ∧
    (ready laneStopSpec (mb 0x0300 []) pa = true ∧ (lane pa 0x0300).st = .paused) ∧
    (ready laneSyncSpec (mb 0x0300 []) ru = true ∧ (lane ru 0x0300).live = true) ∧
    (let s := ru.setRings [(3, ring 3 4 0xFF)]
     ready laneStreamSpec (mb 0x0300 [3, 0, 0, 0]) s = true ∧ mget s.rings 3 = some (ring 3 4 0xFF) ∧
      (ring 3 4 0xFF).kind = .streamOut ∧ (ring 3 4 0xFF).destroying = none ∧ (ring 3 4 0xFF).bind = .none ∧
      ready laneStreamSpec (mb 0x0300 [0xFF, 0, 0, 0]) s = true) ∧
    ready laneGetSpec (mb 0x0407 []) base = true := by decide +kernel

/-- A lane state 100 µs before which a command of that lane began. -/
def laneDo (st : LaneState) (op tgt : Nat) (payload : Bytes) : State :=
  withFlight ((laneState st 3).setSid { base.sid with now := secU, next := secU + tickU })
    { flight op tgt payload .executing with since := secU - 6553600000 }

theorem test_witness_LaneOccurrencesAct :
    (let s := base.setZones [(31, { Zone.reset with st := .settling })]
     (zone s 31).st = .settling ∧ zoneSettledAt s 31 ≤ (advance s 0).sid.now) ∧
    (let s := laneDo .running 0x0401 0x021F (zoneBody 1500 1)
     toZone 0x021F = true ∧ (nextEffect (onScale (advance s 0) 0x021F) (zoneCmd 0x021F)).any (fun g =>
      effectDue (onScale (advance s 0) 0x021F) g 20 true && zoneTuneOk g.cmd (onScale (advance s 0) 0x021F)) = true) ∧
    (let s := laneDo .stopped 0x0405 0x0300 []
     let u := onScale (advance s 0) 0x0300
     toLane 0x0300 = true ∧ (nextEffect u (laneCmd 0x0300 false)).any (fun g => effectDue u g 50 true && g.cmd.op == 0x0405) = true ∧
      (lane s 0x0300).st = .stopped ∧ (lane s 0x0300).zones.all (fun z => decide ((zone s z).st = .paused)) = false) ∧
    (let s := laneDo .running 0x0407 0x0300 []
     let u := onScale (advance s 0) 0x0300
     (nextEffect u (laneCmd 0x0300 false)).any (fun g => effectDue u g 50 (lane s 0x0300).out.isEmpty && g.cmd.op == 0x0407) = true ∧
      (lane s 0x0300).live = true) ∧
    (let s := laneDo .paused 0x0406 0x0300 []
     let u := onScale (advance s 0) 0x0300
     (nextEffect u (laneCmd 0x0300 false)).any (fun g => effectDue u g 50 true && g.cmd.op == 0x0406) = true ∧
      (lane s 0x0300).st = .paused) ∧
    (let s := laneDo .running 0x0404 0x0300 (f 8 99000000000 ++ zeros 8)
     let u := onScale (advance s 0) 0x0300
     (nextEffect u (laneCmd 0x0300 false)).any (fun g => effectDue u g 50 (lane s 0x0300).out.isEmpty && g.cmd.op == 0x0404) = true) ∧
    (let s := (laneState .running 3).setZones [(0, { Zone.reset with st := .settling, resetAt := base.sid.now })]
     (lane s 0x0300).st = .running ∧ zoneResets s (lane s 0x0300) = true) ∧
    (let s := laneDo .settling 0x0405 0x0300 []
     let u := onScale (advance s 0) 0x0300
     (lane s 0x0300).st = .settling ∧ sampleTime u (lane s 0x0300) (lane s 0x0300).settleLast ≤ u.sid.now) ∧
    (let s0 := laneState .running 3
     let x : Sample := { x := ⟨0, 0⟩, settle := false, blank := false, clip := false, sat := false, slew := false }
     let s := feed (s0.setLanes [(0x0300, { lane s0 0x0300 with out := List.replicate 1024 x })]) [] base.sid.now
     toLane 0x0300 = true ∧ (lane s 0x0300).live = true ∧ 0 < (lane s 0x0300).out.length / (lane s 0x0300).blkLen) ∧
    toLane 0x0200 = false := by decide +kernel

def flakeState (x : Flake) : State :=
  (laneState .running 3).setFlurry { Flurry.reset with
    taps := [(3, { Tap.reset with on := true, zone := 0, freq := 100000000000 })], flakes := [(255, { x with tap := 3, freq := 98000000 })] }

theorem test_witness_DemodulatorAndFlurryCommandsComplete :
    let am := laneState .running 2
    let fm := laneState .running 3
    let fl := flakeState { Flake.reset with st := .synced }
    (ready amSetSpec (mb 0x0300 amDefault) am = true ∧ fullUse am 0 = 2 ∧ progDenied am 0xFF 0 = false) ∧
    (ready fmSetSpec (mb 0x0300 fmDefault) fm = true ∧ fullUse fm 0 = 3 ∧ progDenied fm 0xFF 0 = false ∧ laneDesignated fm 0 = false) ∧
    ready qualityGetSpec (mb 0x0300 []) fm = true ∧
    (let s := fl.setRings [(3, ring 3 4 0xFF)]
     ready rdsStreamSpec (mb 0x05FF [3, 0, 0, 0]) s = true ∧ mget s.flurry.rings 255 = none ∧ notForRds s 3 = false) ∧
    (ready rdsGetSpec (mb 0x05FF [1, 0, 0, 0]) fl = true ∧ toFlake 0x05FF = true) ∧
    (ready flurrySetSpec (mb 0x0500 flurryDefault) base = true ∧ safeFlakes base = []) ∧
    ready tapSetSpec (mb 0x0500 ([3, 0xFF] ++ zeros 6 ++ f 8 0)) base = true ∧
    (ready tapSetSpec (mb 0x0500 ([3, 0] ++ zeros 6 ++ f 8 100000000000)) fm = true ∧ (zone fm 0).st ≠ .off ∧
      tapInZone 100000000000 (zone fm 0).freq = true) ∧
    (ready flakeAssignSpec (mb 0x05FE ([3, 0, 0, 0] ++ f 4 98000000 ++ zeros 4)) fl = true ∧ (tap fl 3).on = true ∧
      flakeDesignated fl 254 = false ∧ carrierOk fl (tap fl 3) 98000000 = true ∧ flakeShedRefusal fl 254 = none) ∧
    (ready flakeReleaseSpec (mb 0x05FF []) fl = true ∧ flakeDesignated fl 255 = false) ∧
    ready flakeGetSpec (mb 0x05FF []) fl = true ∧ ready censusGetSpec (mb 0x0500 [3, 4, 0, 0]) base = true := by decide +kernel

/-- Two blocks of zero information under the offset words A and B. -/
def rdsA : RdsBlock := { word := 0x0FC, start := 0, slew := false, blank := false }
def rdsB : RdsBlock := { word := 0x198, start := 0, slew := false, blank := false }

theorem test_witness_DemodulatorAndFlurryOccurrencesAct :
    let fm := laneState .running 3
    let noRds := { Rds.reset with sync := true, badRun := 20 }
    (fullUse (laneState .running 2) 0 = 2 ∧ (lane (laneState .running 2) 0x0300).st = .running ∧
      4800 ≤ (List.replicate 4800 (0 : Int)).length ∧ ((1500 : Int).natAbs ≤ 1500)) ∧
    (fullUse fm 0 = 3 ∧ (lane fm 0x0300).st = .running ∧ 100 * byteAt (demod fm 0).fm 4 ≤ 100 * 255) ∧
    (let s := fm.setSid { fm.sid with ticks := 32, now := 32 * tickU }
     windowDone s 32 = true ∧ toFull 0x0300 = true ∧ fullUse s 0 = 3 ∧ (lane s 0x0300).st = .running) ∧
    (let s := (flakeState { Flake.reset with st := .synced }).setSid { fm.sid with ticks := 32, now := 32 * tickU }
     windowDone s 32 = true ∧ toFlake 0x05FF = true ∧ (flake s 255).active = true) ∧
    (laneRds fm 0 = true ∧ (demod fm 0).rds.sync = false ∧ syncAt (bit (byteAt (demod fm 0).fm 3) 2) rdsA rdsB = some 0) ∧
    (let s := flakeState { Flake.reset with st := .acquiring }
     (flake s 255).st = .acquiring ∧ syncAt (bit (flake s 255).flags 2) rdsA rdsB = some 0) ∧
    (let s := fm.setDemods [(0, { Demod.reset with rds := noRds })]
     (demod s 0).rds.sync = true ∧ 20 ≤ (demod s 0).rds.badRun) ∧
    (let s := flakeState { Flake.reset with st := .synced, rds := noRds }
     (flake s 255).st = .synced ∧ 20 ≤ (flake s 255).rds.badRun) ∧
    (let s := fm.setDemods [(0, { demod fm 0 with rds := noRds })]
     laneRds s 0 = true ∧ (demod s 0).rds.sync = true) ∧
    (let s := (flakeState Flake.reset).setFlurry { (flakeState Flake.reset).flurry with
        cfg := splice flurryDefault 0 [8], taps := [(3, { Tap.reset with on := true, censusBy := 1 })] }
     (tap s 3).on = true ∧ (tap s 3).paused = false ∧ censusOn s 3 = true ∧ expired s (tap s 3).censusBy = true) ∧
    (let s := flakeState { Flake.reset with st := .acquiring, cls := .census, probeBy := 1 }
     (flake s 255).cls = .census ∧ (flake s 255).st = .acquiring ∧ (flake s 255).proven = false ∧
      expired s (flake s 255).probeBy = true) ∧
    (let s := fm.setFlurry { Flurry.reset with taps := [(3, { Tap.reset with on := true, due := true, paused := true })] }
     (tap s 3).due = true) ∧
    (let s := fm.setFlurry { Flurry.reset with taps := [(3, { Tap.reset with on := true, paused := true })] }
     (tap s 3).on = true ∧ (tap s 3).paused = true ∧ (tap s 3).due = false ∧ (zone s (tap s 3).zone).st = .running ∧
      (tap s 3).resetAt + 40 * secU / 29184000 ≤ (advance s 0).sid.now) := by decide +kernel

def afState (x : Af) (pl sp : LaneState) : State :=
  let s := laneState pl 3
  (s.setLanes (s.lanes ++ [(0x0301, { Lane.reset with st := sp, cfg := splice (zeros 24) 0 [3, 1], outRate := useRate 3 })])).setAfs [(0, x)]

theorem test_witness_AlternativeFrequencyFollowingActs :
    let cfg := splice afDefault 0 [2, 1]
    (ready afSetSpec (mb 0x0300 (splice afDefault 0 [1, 0xFF])) (laneState .running 3) = true ∧
      fullUse (laneState .running 3) 0 = 3 ∧ laneDesignated (laneState .running 3) 0 = false) ∧
    (let s := afState Af.reset .running .idle
     let b := splice afDefault 0 [2, 1]
     ready afSetSpec (mb 0x0300 b) s = true ∧ (lane s (0x0300 + byteAt b 1)).st = .idle ∧ ∀ e ∈ s.afs, e.1 = 0) ∧
    (let s := ((afState { Af.reset with cfg := splice afDefault 0 [2, 1, 8] } .running .stopped).setDemods
        [(0, { Demod.reset with rds := { Rds.reset with afList := [5] } })]).setFlurry { Flurry.reset with
          taps := [(0, { Tap.reset with on := true, zone := 0, freq := 98000000000 })] }
     (afOf s 0).mode ≠ 0 ∧ (afWanted s 0).contains 88000 = true ∧ (afOf s 0).cands.find? (fun c => c.khz == 88000) = none) ∧
    (let c : AfCand := ⟨88000, none, 0, none⟩
     ({ Af.reset with cands := [c] }.cands.find? (fun c => c.khz == 88000) = some c ∧ c.flake = none)) ∧
    (let s := (afState { Af.reset with cfg := cfg, phase := .spare (some 5) } .running .running).setDemods [(1, { Demod.reset with pilot := true })]
     (afOf s 0).phase = .spare (some 5) ∧ (lane s (0x0300 + (afOf s 0).spare)).st = .running ∧ (demod s (afOf s 0).spare).pilot = true) ∧
    (let s := afState { Af.reset with cfg := cfg, phase := .fading 1 } .running .running
     (afOf s 0).phase = .fading 1 ∧ expired s 1 = true ∧ (afOf s 0).spare < 32) ∧
    (let s := afState { Af.reset with cfg := cfg, phase := .place 1 } .running .stopped
     (afOf s 0).muted (advance s 0) = true ∧ (lane s 0x0300).st = .running) ∧
    (let s := afState { Af.reset with cfg := cfg, phase := .place 9 } .stopped .stopped
     (afOf s 0).phase ≠ .none ∧ (lane s 0x0300).st ≠ .running) ∧
    (let s := afState { Af.reset with cfg := cfg, phase := .fading 9 } .running .stopped
     (∀ b, (afOf s 0).phase ≠ .place b) ∧ (lane s (0x0300 + (afOf s 0).spare)).live = false) ∧
    (let s := afState { Af.reset with cfg := splice cfg 0 [3], gotoBy := 1 } .running .stopped
     (afOf s 0).mode = 3 ∧ (afOf s 0).phase = .none ∧ expired s (afOf s 0).gotoBy = true) := by
  refine ⟨?_, ?_, ?_, ?_, ?_, ?_, ?_, ?_, ⟨?_, ?_⟩, ?_⟩
  all_goals first | (decide +kernel) | (intro b h; cases h)

/-! ## Witnesses: links and paths -/

def entry (set : Nat) (broadcast : Bool) : LinkEntry :=
  { set := set, std := 1, origin := if broadcast then 1 else 4, ident := 0xD318, freq := 98000, ecc := 0xE0, hard := true,
    active := broadcast, ils := false, time := 0, ageBy := 1, order := 0, key := none }

def linkState (l : List (Nat × LinkEntry)) : State := base.setLinks { base.links with entries := l }

def pathState (p : Machine.Path) : State := base.setPaths [(23, p)]

def member (p : Nat) (al : Align) : Member := { Member.unused with path := p, align := al }

/-- Default group settings of Table 8-6 with mode 1 and one named member, path 4. -/
def groupBody (mode : Nat) : Bytes :=
  [BitVec.ofNat 8 mode, 0, 0, 0, 4, 0xFF, 0xFF, 20, 5, 20, 0x40, 0x06, 0xB8, 0x0B, 0x88, 0x13, 3, 60, 8, 20, 30, 1, 0, 0]

def fade (a b : Nat) (stop : Sid) : Fade :=
  { from_ := a, to_ := b, unalign := false, panic := false, byNow := false, start := 20480000000, stop := stop, reversed := false, pos := 0 }

def group (al : Align) (fd : Option Fade) : Machine.Group :=
  { cfg := groupBody 1, members := [member 23 .aligned, member 4 al, Member.unused, Member.unused], active := some 0, fade := fd,
    last := 0, fades := 0, blendTo := none, held := none }

def svc (lane : Nat) (st : SvcState) : Service :=
  { lane := lane, sid := 0xD210, comp := 0, conceal := 3, st := st, by_ := 1, info := none, errRun := 2, goodRun := 1, concealed := 0,
    meas := none, lastPcm := 0 }

def groupState (al : Align) (fd : Option Fade) : State := base.setGroups [(23, group al fd)]

/-- A correlation of one value: at lag zero, of this height in 0.0001 and with this rms in 0.01 dBFS. -/
def lagOf (r rms : Int) : LagMeasure := { first := 0, r := [r], rmsA := rms, rmsB := rms, gain := 0 }

set_option synthInstance.maxSize 4000 in
theorem test_witness_LinkAndPathCommandsComplete :
    let add := mb 0x0700 ([63, 3, 0, 0] ++ zeros 12)
    let full := linkState ((List.range 256).map fun i => (i, entry 5 (i == 255)))
    let some1 := linkState [(0xFF, entry 5 true)]
    let buf := { Machine.Path.reset with useB := true }
    (ready linkAddSpec add base = true ∧ freeLink base = some 0) ∧
    (ready linkAddSpec add full = true ∧ freeLink full = none ∧ (oldestBroadcast full).isSome = true) ∧
    (ready linkRemoveSpec (mb 0x0700 [0xFF, 0, 0, 0]) some1 = true ∧ ∃ e ∈ some1.links.entries, e.1 = 0xFF) ∧
    (ready linkRemoveSpec (mb 0x0700 [5, 1, 0, 0]) some1 = true ∧ ∃ e ∈ some1.links.entries, e.2.set = 5) ∧
    ready linkGetSpec (mb 0x0700 [0xFF, 3, 0, 0]) some1 = true ∧
    ready linkConfigSpec (mb 0x0700 [7, 0, 60, 0, 0, 0, 0, 0]) base = true ∧
    ready blendSetSpec (mb 0x0617 blendDefault) base = true ∧
    (ready followSetSpec (mb 0x0617 (groupBody 1)) base = true ∧ (namedMembers (groupBody 1)).contains 23 = false ∧
      (namedMembers (groupBody 1)).Nodup ∧ (∀ p ∈ 23 :: namedMembers (groupBody 1), memberDenied base 23 p = false) ∧
      mget base.groups 23 = none ∧ groupOf base 23 = none ∧ base.groups.length < 8 ∧
      pagesFor (max (path base 23).reserve (msUnits (le (groupBody 1) 12 2))) ≤ (path base 23).pages + freePages base) ∧
    (let s := groupState .aligned none
     ready followSetSpec (mb 0x0617 (groupBody 1)) s = true ∧ (∀ p ∈ 23 :: namedMembers (groupBody 1), memberDenied s 23 p = false) ∧
      mget s.groups 23 = some (group .aligned none)) ∧
    (let g := group .aligned (some (fade 0 1 secU))
     let s := groupState .aligned (some (fade 0 1 secU))
     ready followSetSpec (mb 0x0617 (groupBody 1)) s = true ∧ (∀ p ∈ 23 :: namedMembers (groupBody 1), memberDenied s 23 p = false) ∧
      mget s.groups 23 = some g ∧ removes g (groupBody 1) = false ∧
      (let b := splice (groupBody 1) 4 [5]
       ready followSetSpec (mb 0x0617 b) s = true ∧ (∀ p ∈ 23 :: namedMembers b, memberDenied s 23 p = false) ∧
        removes g b = true)) ∧
    (ready followSetSpec (mb 0x0617 (groupBody 0)) base = true ∧
      ready followSetSpec (mb 0x0617 (groupBody 0)) (groupState .aligned (some (fade 0 1 secU))) = true ∧
      ready followSetSpec (mb 0x0617 (groupBody 0)) (groupState .aligned none) = true ∧ (group .aligned none).active = some 0 ∧
      ({ group .aligned none with active := some 1 } : Machine.Group).active = some (0 + 1)) ∧
    (ready blendNowSpec (mb 0x0617 [1, 0, 0, 0]) (groupState .aligned none) = true ∧
      mget (groupState .aligned none).groups 23 = some (group .aligned none) ∧ (group .aligned none).blendTo = none ∧
      (group .aligned none).active ≠ some 1 ∧ ((group .aligned none).member 1).path ≠ 0xFF) ∧
    ready followGetSpec (mb 0x0617 []) base = true ∧
    (ready eqLoadSpec (mb 0x0617 ([1, 7, 1, 1] ++ zeros 44)) base = true ∧ (path base 23).useB = false ∧ (path base 23).swap = none) ∧
    (ready eqLoadSpec (mb 0x0617 ([0, 6, 2, 0] ++ zeros 84)) (pathState buf) = true ∧ (path (pathState buf) 23).useB = true ∧
      (path (pathState buf) 23).swap = none) ∧
    (ready eqSwapSpec (mb 0x0617 [1, 0, 0, 0]) base = true ∧ (1 == 1) ≠ (path base 23).useB) ∧
    (ready eqSwapSpec (mb 0x0617 [0, 0, 0, 0]) base = true ∧ (0 == 1) = (path base 23).useB) ∧
    (ready tshiftSetSpec (mb 0x0617 [128, 0, 0, 0]) base = true ∧ tsOthers base 23 + 128 ≤ 128) ∧
    (let s := (pathState { Machine.Path.reset with tsPages := 8 }).setRings [(3, ring 3 4 0xFF)]
     let b := f 8 40 ++ f 4 1 ++ [3, 0, 0, 0]
     ready tshiftReadSpec (mb 0x0617 b) s = true ∧ (path s 23).tsPages ≠ 0 ∧
      tsOldest s (path s 23) ≤ sidOf s.sid.now (BitVec.ofNat 64 (le b 0 8)) ∧
      sidOf s.sid.now (BitVec.ofNat 64 (le b 0 8)) + le b 8 4 * secU / 48000 ≤ s.sid.now ∧
      mget s.rings (byteAt b 12) = some (ring 3 4 0xFF) ∧ (ring 3 4 0xFF).kind = .streamOut ∧
      (ring 3 4 0xFF).destroying = none ∧ (ring 3 4 0xFF).bind = .none) := by decide +kernel

theorem test_witness_LinkAndPathOccurrencesAct :
    let some1 := linkState [(0xFF, entry 5 true)]
    let mv := pathState { Machine.Path.reset with kGoal := 0 }
    let on := base.setServices [(23, svc 0 .playing)]
    let late (s : State) : State := s.setSid { base.sid with now := 4 * secU, next := 4 * secU + tickU }
    let coarse := late (groupState .searching none)
    let v := nextWindow (advance coarse 0) 23 (member 4 .searching)
    let guard : List (Int × Int × Int) := List.replicate 4 (-1, 0, 0)
    (mget some1.links.entries 0xFF = some (entry 5 true) ∧ (entry 5 true).broadcast = true ∧ expired some1 (entry 5 true).ageBy = true) ∧
    ((path mv 23).changing = false ∧ (path mv 23).kGoal ≠ (path mv 23).k ∧ mget mv.groups 23 = none) ∧
    (let s := pathState { Machine.Path.reset with changing := true }
     (path s 23).changing = true ∧ changeOver (advance s 0) 23 = true) ∧
    (delivers on 23 = true ∧ (path on 23).pcm ≠ true) ∧ (delivers base 0 = false ∧ ({ Machine.Path.reset with pcm := true } : Machine.Path).pcm ≠ false) ∧
    (memberAt coarse 23 1 = some (member 4 .searching) ∧ (member 4 .searching).fine = false ∧
      v.winAt + 30 * secU / 1000 ≤ (advance coarse 0).sid.now ∧
      (judgeLag (lagOf 9000 (-6000)) 4096 (searchRange (advance coarse 0) 23) 3 (corrMin (advance coarse 0) 23) false).quiet = true ∧
      (let r := judgeLag (lagOf 9000 0) 4096 (searchRange (advance coarse 0) 23) 3 (corrMin (advance coarse 0) 23) false
       r.quiet = false ∧ r.ok = true ∧ (setDelay (advance coarse 0) v.path ((path coarse 23).k - r.lag)).isSome = true) ∧
      (let r := judgeLag { lagOf 9000 0 with first := -9000 } 4096 (searchRange (advance coarse 0) 23) 3
         (corrMin (advance coarse 0) 23) false
       r.quiet = false ∧ r.ok = true ∧
        (let full := coarse.setPaths [(0, { Machine.Path.reset with pages := 128 })]
         (setDelay (advance full 0) v.path ((path full 23).k - r.lag)).isNone = true)) ∧
      (let r := judgeLag (lagOf 100 0) 4096 (searchRange (advance coarse 0) 23) 3 (corrMin (advance coarse 0) 23) false
       r.quiet = false ∧ r.ok = false)) ∧
    (let g := (group .aligned none).setMember 1 { member 4 .aligned with fails := 2 }
     let s0 := late ((groupState .aligned none).setGroups [(23, g)])
     let s := s0.setSid { s0.sid with ticks := 3200, now := 3200 * tickU }
     let r := judgeLag (lagOf 100 0) 256 32 4 (corrMin s 23) true
     windowDone s 320 = true ∧ (memberAt (coastAll s) 23 1).map (fun v => (v.align, v.fails)) = some (.aligned, 2) ∧
      (path (coastAll s) 4).setAt + 16384 * secU / 48000 ≤ s.sid.now ∧
      (path (coastAll s) 23).setAt + 16384 * secU / 48000 ≤ s.sid.now ∧ r.quiet = false ∧ r.ok = false) ∧
    (memberAt (groupState .holding none) 23 1 = some (member 4 .holding) ∧ expired base (member 4 .holding).holdBy = true) ∧
    freePages base ≠ 0 ∧
    (let fd := fade 0 1 20480000000
     let s := groupState .aligned (some fd)
     mget s.groups 23 = some (group .aligned (some fd)) ∧ fd.stop ≤ (advance s 0).sid.now ∧ (group .aligned (some fd)).held = none) ∧
    (let s := groupState .aligned (some (fade 0 1 secU))
     guardLost s 23 guard = true ∧ (fade 0 1 secU).unalign = false ∧
      s.sid.now + s.sid.now < (fade 0 1 secU).start + (fade 0 1 secU).stop) ∧
    (let s := groupState .aligned (some (fade 0 1 20480000000))
     (fade 0 1 20480000000).start + (fade 0 1 20480000000).stop ≤ s.sid.now + s.sid.now) ∧
    (let s0 := afState { Af.reset with cfg := splice afDefault 0 [2, 1], phase := .fading 9 } .running .running
     let s := s0.setDemods [(0, { demod s0 0 with fm := splice fmDefault 0 [23] })]
     guardLost s 23 guard = true ∧ mget s.groups 23 = none ∧ afFadeOn s 23 = some 0 ∧ (afOf s 0).unalign = false) ∧
    (let s := groupState .aligned (some (fade 0 1 secU))
     let g := group .aligned (some (fade 0 1 secU))
     delivers (s.setServices [(23, svc 0 .playing)]) (g.member 1).path = false ∧
      delivers (s.setServices [(23, svc 0 .playing)]) (g.member 0).path = true ∧
      delivers (s.setServices [(4, svc 0 .playing)]) (g.member 1).path = true ∧
      delivers (s.setServices [(4, svc 0 .playing)]) (g.member 0).path = false ∧
      delivers s (g.member 1).path = false ∧ delivers s (g.member 0).path = false ∧ g.held = none) ∧
    (let s := pathState { Machine.Path.reset with swap := some true }
     (path s 23).swap = some true ∧ expired s (path s 23).swapBy = true ∧ expired s (path s 23).readyB = true ∧
      pathFading s 23 = false ∧ ((executing s 0x070A 0x0617).map (·.due)).getD 0 ≤ (advance s 0).sid.now) := by decide +kernel

/-! ## Witnesses: ensembles, services and survey analysis -/

/-- Full lane 0 of `use` Running, with an ensemble state. -/
def ensState (use : Nat) (o : Ofdm) : State := (laneState .running use).setOfdms [(0, o)]

def survState (b : Bytes) (v : Survey) : State :=
  (base.setLanes [(0x0400, { Lane.reset with st := .running, outRate := 2048000 })]).setSurveys [(0, { v with cfg := b })]

def tii : TiiEntry :=
  { main := 1, sub := 2, flags := 0, frames := 4, level := -6000, snr := 200, arrSec := 0, arrNs := 5, arrFr := 0, sigma := 1, delay := -7 }

theorem test_witness_EnsembleAndSurveyCommandsComplete :
    let dab := ensState 4 Ofdm.reset
    let drm := ensState 5 Ofdm.reset
    let sr := dab.setRings [(3, ring 3 4 0xFF)]
    let serv := dab.setServices [(23, svc 0 .playing)]
    let off := survState (zeros 16) Survey.reset
    let sv : Bytes := [2, 0xFF, 10, 0] ++ f 2 1 ++ f 2 1 ++ [1, 3] ++ f 2 400 ++ zeros 4
    (ready ofdmSetSpec (mb 0x0300 ofdmDefault) dab = true ∧ ofdmUse dab 0 = true ∧ laneDesignated dab 0 = false ∧ fullUse dab 0 ≠ 5) ∧
    (ready ofdmSetSpec (mb 0x0300 ofdmDefault) drm = true ∧ ofdmUse drm 0 = true ∧ fullUse drm 0 = 5 ∧ byteAt ofdmDefault 6 ≠ 0) ∧
    ready ensembleGetSpec (mb 0x0300 []) dab = true ∧ ready serviceListGetSpec (mb 0x0300 [0, 2, 0, 0]) dab = true ∧
    (ready serviceStartSpec (mb 0x0300 (f 4 0xD210 ++ [0, 23, 3, 0, 0, 0, 0, 0])) dab = true ∧
      progTaken dab 23 32 = false ∧ dab.services = []) ∧
    (ready serviceStopSpec (mb 0x0300 [23, 0, 0, 0]) serv = true ∧ mget serv.services 23 = some (svc 0 .playing) ∧
      (svc 0 .playing).lane = 0) ∧
    ready ofdmQualityGetSpec (mb 0x0300 [0xFF, 0, 0, 0]) dab = true ∧
    (mget sr.rings 3 = some (ring 3 4 0xFF) ∧ (ring 3 4 0xFF).kind = .streamOut ∧ (ring 3 4 0xFF).destroying = none ∧
      notForRecords sr 3 = false) ∧
    ready ficStreamSpec (mb 0x0300 [3, 7, 0, 0]) sr = true ∧ ready padStreamSpec (mb 0x0300 [0xFF, 0xFF, 0, 0]) dab = true ∧
    ready padStreamSpec (mb 0x0300 [3, 23, 0, 0]) sr = true ∧ ready subchStreamSpec (mb 0x0300 [3, 63, 1, 0]) sr = true ∧
    (ready surveySetSpec (mb 0x0400 sv) off = true ∧ byteAt sv 0 ≠ 0 ∧ byteAt sv 1 = 0xFF ∧
      (lane off 0x0400).st ≠ .idle ∧ surveyRateOk 2 (lane off 0x0400).outRate = true) ∧
    (let b := splice (splice sv 0 [1, 3, 10]) 4 (f 2 63 ++ f 2 3200)
     let s := off.setRings [(3, ring 3 4 0xFF)]
     ready surveySetSpec (mb 0x0400 b) s = true ∧ byteAt b 0 = 1 ∧ byteAt b 1 = 3 ∧ mget s.rings 3 = some (ring 3 4 0xFF) ∧
      notForRecords s 3 = false ∧ surveyTicksOk b (lane s 0x0400).outRate = true) ∧
    ready surveySetSpec (mb 0x0400 (zeros 16)) off = true ∧
    (let s := survState (zeros 16) { Survey.reset with tii := some [tii] }
     ready tiiGetSpec (mb 0x0400 [2, 0, 0, 0]) s = true ∧ (survey s 0).tii = some [tii]) := by decide +kernel

theorem test_witness_EnsembleStatesFollowReception :
    let st : EnsState → State := fun x => ensState 4 { Ofdm.reset with st := x }
    let late (s : State) : State := s.setSid { s.sid with now := 4 * secU, next := 4 * secU + tickU }
    (ofdmLive (st .searching) 0 = true ∧ (ofdm (st .searching) 0).st = .searching ∧ modeOk (st .searching) 0 0 = true ∧
      (3 : Int).natAbs ≤ offsetMax (st .searching) 0) ∧
    (ofdmLive (st .coarse) 0 = true ∧ (ofdm (st .coarse) 0).st = .coarse ∧ (3 : Int).natAbs ≤ confirmMax (st .coarse) 0 ∧
      (0 : Int) = (ofdm (st .coarse) 0).offset) ∧
    ((ofdm (st .searching) 0).acqTold = false ∧ expired (st .searching) (ofdm (st .searching) 0).acqBy = true) ∧
    (fastLive (st .synced) 0 = true ∧ fullUse (st .synced) 0 = 4) ∧
    (let s := ensState 5 { Ofdm.reset with st := .synced }
     fastLive s 0 = true ∧ fullUse s 0 ≠ 4) ∧
    (let s := ensState 4 { Ofdm.reset with st := .configured, reconf := true }
     ofdmUse s 0 = true ∧ (ofdm s 0).st = .configured ∧ (ofdm s 0).reconf = true ∧ reconfDue s 0 = true) ∧
    (ofdmLive (st .synced) 0 = true ∧ (ofdm (st .synced) 0).st = .synced ∧ refLost (st .synced) 0 4 = true) ∧
    (ofdmLive (st (.holdover 3)) 0 = true ∧ (ofdm (st (.holdover 3)) 0).st = .holdover 3 ∧ (64 : Int).natAbs ≤ 64 ∧
      64 < (65 : Int).natAbs) ∧
    (let s := late (ensState 4 { Ofdm.reset with st := .configured, alert := some 7, alarmAt := some (0, 7) })
     (ofdm s 0).alert = some (7 : BitVec 8).toNat ∧ (ofdm s 0).alarmAt = some (0, 7) ∧ 0 + 2 * secU ≤ (advance s 0).sid.now) ∧
    (let s := late (st .synced)
     ofdmLive s 0 = true ∧ (ofdm s 0).mTime + (2 * byteAt (ofdm s 0).cfg 1 - 1) * frameLen s 0 / 2 ≤ (advance s 0).sid.now) := by
  decide +kernel

theorem test_witness_ServicesPlayAndRecordsAreWritten :
    let dab : SvcState → State := fun x => (ensState 4 Ofdm.reset).setServices [(23, svc 0 x)]
    let drm := (ensState 5 Ofdm.reset).setServices [(23, svc 0 .muted)]
    (mget (dab .waiting).services 23 = some (svc 0 .waiting) ∧ (svc 0 .waiting).lane = 0 ∧ (svc 0 .waiting).st = .waiting ∧
      expired (dab .waiting) (svc 0 .waiting).by_ = true) ∧
    (mget (dab .filling).services 23 = some (svc 0 .filling) ∧ (svc 0 .filling).st ≠ .waiting ∧ ofdmLive (dab .filling) 0 = true) ∧
    (padSid (dab .playing) 0 23 = some 0xD210 ∧ fullUse (dab .playing) 0 = 4) ∧ (padSid drm 0 23 = some 0xD210 ∧ fullUse drm 0 = 5) ∧
    ((zeros 4).length ≤ 4096 ∧ 5 ≤ 0 + 30 * secU ∧ 4096 < (zeros 4097).length) ∧
    (let s := survState (splice (zeros 16) 0 [1, 0xFF, 10]) Survey.reset
     surveyRuns s 0 [1] = true ∧ expired s (survey s 0).nextBy = true) ∧
    (let s := survState (splice (zeros 16) 0 [2, 0xFF, 10, 0, 0, 0, 0, 0, 1, 3]) Survey.reset
     surveyRuns s 0 [2, 3] = true ∧ bit (byteAt (survey s 0).cfg 9) 0 = true) ∧
    (let s0 := survState (splice (zeros 16) 0 [2, 0xFF, 10, 0, 0, 0, 0, 0, 1, 3]) Survey.reset
     let s := s0.setSid { s0.sid with now := 4 * secU, next := 4 * secU + tickU }
     surveyRuns s 0 [2] = true ∧
      (survey s 0).tiiEnd + (2 * byteAt (survey s 0).cfg 8 - 1) * (48 * secU / 1000) ≤ (advance s 0).sid.now) := by
  decide +kernel

/-! ## Witnesses: serial audio ports -/

/-- `SAP_SET` payload (Table 9-9): I2S target, 32 bits, 48 kHz; `mode` 1 is slip mode. -/
def portBody (en mode : Nat) : Bytes :=
  [BitVec.ofNat 8 en, 0, 0, 2, 32, 2, BitVec.ofNat 8 mode, 0, 3, 0, 3, 0, 0, 0, 0, 0]

def portState (x : SapState) (mode : Nat) : State :=
  base.setSaps [(3, { Sap.reset with st := x, cfg := portBody 1 mode, refRate := 48000000, rate := 48000000 })]

theorem test_witness_AudioPortCommandsComplete :
    let run := portState .running 0
    let wait := portState .waiting 0
    let lost := portState .clockLost 0
    let own := splice (portBody 1 0) 2 [3]
    let route : Bytes := [0xFF, 15, 0, 0] ++ zeros 32
    (ready sapSetSpec (mb 0x0803 (portBody 0 0)) base = true ∧ (sap base 3).st = .off ∧ bit (byteAt (portBody 0 0) 0) 0 = false) ∧
    (ready sapSetSpec (mb 0x0803 (portBody 0 0)) wait = true ∧ (sap wait 3).st = .waiting) ∧
    (ready sapSetSpec (mb 0x0803 (portBody 1 1)) base = true ∧ bit (byteAt (portBody 1 1) 0) 0 = true) ∧
    (ready sapSetSpec (mb 0x0803 (portBody 1 0)) lost = true ∧ (sap lost 3).st = .clockLost ∧ bclkController (portBody 1 0) = false) ∧
    (ready sapSetSpec (mb 0x0803 own) lost = true ∧ bclkController own = true) ∧
    (ready sapSetSpec (mb 0x0803 (portBody 1 0)) run = true ∧ (sap run 3).runs = true) ∧
    (ready sapRouteSpec (mb 0x0803 route) base = true ∧ sapBuffered base 3 = false) ∧
    (ready sapRouteSpec (mb 0x0803 route) run = true ∧ sapBuffered run 3 = true) ∧
    (ready sapMaskSetSpec (mb 0x0803 [3, 0, 0, 0]) wait = true ∧ sapBuffered wait 3 = false ∧ 3 < 2 ^ (sap wait 3).slots) ∧
    (ready sapMaskSetSpec (mb 0x0803 [3, 0, 0, 0]) run = true ∧ 3 < 2 ^ (sap run 3).slots) ∧
    (let s := run.setRings [(3, ring 3 4 0xFF)]
     ready sapStreamSpec (mb 0x0803 [3, 0xFF, 0, 0]) s = true ∧ (sap s 3).st ≠ .clockLost ∧ mget s.rings 3 = some (ring 3 4 0xFF) ∧
      (ring 3 4 0xFF).kind = .streamOut ∧ (ring 3 4 0xFF).destroying = none ∧ (ring 3 4 0xFF).bind = .none) ∧
    (ready sapStreamSpec (mb 0x0803 [0xFF, 0xFF, 0, 0]) lost = true ∧ (sap lost 3).st = .clockLost) ∧
    ready sapGetSpec (mb 0x0803 []) run = true := by decide +kernel

/-- Two frames of 64 bit clocks at 48 kHz. -/
def goodSeen : FrameSeen := { bits := 64, shortest := secU / 3072000, span := secU / 48000 }

theorem test_witness_AudioPortOccurrencesAct :
    let slip := portState .running 1
    let run := portState .running 0
    let wait := portState .waiting 0
    ((sap run 3).runs = true ∧ (List.replicate 65 true).length = frameBits (sap run 3).cfg + 1 ∧ (sap run 3).stopTo = none ∧
      slipMode (sap slip 3).cfg = true) ∧
    ((sap run 3).runs = true ∧ causeHolds (advance run 0) (sap run 3) 2 0 0 = true ∧ (sap run 3).stopTo = none) ∧
    4 * 0 < 3 * (sap run 3).bitTime ∧
    ((sap run 3).dropped = false ∧ fsyncController (sap run 3).cfg = false ∧ ([] : List Bool).length ≠ frameBits (sap run 3).cfg + 1) ∧
    ((sap slip 3).st = .running ∧ (sap slip 3).departs 50000000 = true ∧ slipMode (sap slip 3).cfg = true ∧
      (sap run 3).departs 50000000 = true ∧ slipMode (sap run 3).cfg = false) ∧
    (let s0 := portState .remeasuring 0
     let s := s0.setSid { s0.sid with now := 17000 * usU, next := 17000 * usU + tickU }
     (sap s 3).st = .remeasuring ∧ (sap s 3).remeasAt + 16000 * usU ≤ (advance s 0).sid.now ∧
      (advance s 0).sid.now ≤ (sap s 3).remeasAt + 20000 * usU ∧ rateOk 48000000 = true) ∧
    (mayRun wait (sap wait 3) goodSeen goodSeen = true ∧ (sap wait 3).st = .waiting) ∧
    (let s := portState .clockLost 0
     mayRun s (sap s 3) goodSeen goodSeen = true ∧ (sap s 3).st = .clockLost) ∧
    ((sap wait 3).st = .waiting ∧ (sap wait 3).waitTold = false ∧ expired wait (sap wait 3).waitBy = true) := by
  decide +kernel

/-! ## Witnesses: the regulatory table, capture and the exciter -/

/-- The CRC-32 of the nine characters "123456789" is CBF43926 (IEEE 802.3). -/
theorem test_crc32 : crc32 [0x31, 0x32, 0x33, 0x34, 0x35, 0x36, 0x37, 0x38, 0x39] = 0xCBF43926#32 := by decide +kernel

theorem test_witness_RegulatoryTableIsCommitted :
    let staged := base.setReg { Reg.reset with staged := regImage }
    let running := base.setReg { Reg.reset with slots := [⟨1, regImage, false⟩], commit := true }
    (ready regLoadSpec (mb 0x0900 ([0, 0, 96, 0] ++ zeros 96)) base = true ∧ base.reg.locked = false) ∧
    (noneDestroying staged = true ∧ staged.reg.locked = false ∧ staged.reg.commit = false ∧ regBad (stagedImage staged) = none ∧
      staged.reg.slots.length < 16) ∧
    (ready regLockSpec (mb 0x0900 [1, 0, 0, 0]) (regState false) = true ∧ (regState false).reg.commit = false ∧
      le [1, 0, 0, 0] 0 4 = (regState false).reg.gen) ∧
    ready regGetSpec (mb 0x0900 [64, 0, 0, 0]) base = true ∧ (running.reg.commit = true ∧ running.pwr.brownout = false) := by
  decide +kernel

theorem le_leBytes_4 (v : Nat) (h : v < 2 ^ 32) : le (leBytes 4 v) 0 4 = v := by
  simp only [le, leBytes, byteAt, List.getD_cons_zero, List.getD_cons_succ, BitVec.toNat_ofNat]
  omega

/-- A `REG_COMMIT` that names the CRC-32 of the staged image. -/
theorem test_witness_RegulatoryTableIsCommitted_commit :
    let staged := base.setReg { Reg.reset with staged := regImage }
    ∃ a, ready regCommitSpec a staged = true ∧ (crc32 (stagedImage staged)).toNat = le a.payload 0 4 := by
  exact ⟨mb 0x0900 (leBytes 4 (crc32 (stagedImage (base.setReg { Reg.reset with staged := regImage }))).toNat), by decide +kernel,
    (le_leBytes_4 _ (BitVec.isLt _)).symm⟩

/-- `FIRN_ARM` payload (Table 12-6): zones 0 and 31, full lane 31, half of the share after the trigger, every trigger. -/
def armBody : Bytes :=
  f 4 0x80000001 ++ f 4 0x80000000 ++ [16, 1, 50, 0x3F] ++ f 2 1 ++ zeros 6 ++ f 2 30000 ++ [31, 1] ++ zeros 8

def firnState (x : FirnState) : State := base.setFirn { Firn.reset with st := x, cfg := armBody, header := firnHeader base }

/-- A recording with one checkpoint, in a state of Table 12-4. -/
def tapeState (x : FirnState) : State :=
  base.setFirn { Firn.reset with
    st := x, cfg := armBody, header := splice (firnHeader base) 68 [1, 0, 0, 0]
    tape := [{ kind := 11, seq := 0, time := 0, payload := zeros 16 }], tapeLen := 32 }

theorem test_witness_CaptureCommandsComplete :
    let rings (s : State) (kind : Nat) := s.setRings [(3, ring 3 kind 0xFF)]
    (ready firnArmSpec (mb 0x0B00 armBody) base = true ∧ base.firn.st = .off) ∧
    (ready firnTriggerSpec (mb 0x0B00 []) (firnState .armed) = true ∧ (firnState .armed).firn.st = .armed) ∧
    (ready firnDisarmSpec (mb 0x0B00 []) (firnState .triggered) = true ∧ (firnState .triggered).firn.st = .triggered) ∧
    (let s := rings (firnState .frozen) 4
     ready firnStreamSpec (mb 0x0B00 [3, 0, 0, 0]) s = true ∧ s.firn.st = .frozen ∧
      executing (taken firnStreamSpec (mb 0x0B00 [3, 0, 0, 0]) s) 0x0B04 0x0B00 = none ∧ mget s.rings 3 = some (ring 3 4 0xFF) ∧
      (ring 3 4 0xFF).kind = .streamOut ∧ (ring 3 4 0xFF).destroying = none ∧ (ring 3 4 0xFF).bind = .none) ∧
    (let s := rings (firnState .off) 5
     ready firnLoadSpec (mb 0x0B00 [3, 0, 0, 0]) s = true ∧ s.firn.st = .off ∧
      executing (taken firnLoadSpec (mb 0x0B00 [3, 0, 0, 0]) s) 0x0B04 0x0B00 = none ∧ mget s.rings 3 = some (ring 3 5 0xFF) ∧
      (ring 3 5 0xFF).kind = .streamIn ∧ (ring 3 5 0xFF).destroying = none ∧ (ring 3 5 0xFF).bind = .none) ∧
    (let s := rings (tapeState .loaded) 2
     let a := mb 0x0B00 (3 :: zeros 7)
     ready firnReplaySpec a s = true ∧ s.firn.st = .loaded ∧ mget s.rings 3 = some (ring 3 2 0xFF) ∧
      (ring 3 2 0xFF).kind = .completion ∧ le a.payload 4 4 < le s.firn.header 68 4 ∧
      replayTape (taken firnReplaySpec a s).firn 0 ≠ [] ∧ replayFree (taken firnReplaySpec a s) 0 = true) ∧
    ready firnGetSpec (mb 0x0B00 []) base = true := by decide +kernel

/-- A container header (Table 12-5) of this length, with its CRC-32. -/
def head (len crc : Nat) : Bytes :=
  [0x46, 0x49, 0x52, 0x4E, 1, 0xB1, 0x80, 0x74, 0, 0, 0, 0] ++ leBytes 4 crc ++ leBytes 8 len ++ zeros 104

/-- A load that has come as far as these bytes. -/
def loadState (b : Bytes) : State :=
  (base.setFirn { Firn.reset with st := .loading, rpRing := 3 }).setRings [(3, { ring 3 5 0xFF with bind := .firnIn, inData := b })]

theorem test_witness_CaptureOccurrencesAct :
    let c : Chunk := { source := 0x021F, kind := 1, flags := 0, len := 0, index := 0, time := 0, count := 0, data := [] }
    let w := (firnState .armed).setFirn { (firnState .armed).firn with wait := [c] }
    let safe (x : FirnState) : State := (firnState x).setPol { base.pol with safe := true, safeTime := 5 }
    let full := (firnState .triggered).setFirn { (firnState .triggered).firn with post := 7864320 }
    let busy : State := withFlight base (flight 0x0B04 0x0B00 [3, 0, 0, 0] .executing)
    let bound : State := busy.setRings [(3, { ring 3 4 0xFF with bind := .firnOut })]
    let held : State := bound.setFirn { bound.firn with header := zeros 128 }
    (w.firn.wait.find? (fun c => c.source == 0x021F) = some c ∧ firnRecords w = true ∧ mget w.firn.denied 0x021F = none ∧
      mget [(0x021F, c)] 0x021F = some c) ∧
    (let s := (firnState .armed).setSid { base.sid with now := 32 * tickU, bound := 32 * tickU }
     firnRecords s = true ∧ tickNo s % 32 = 0 ∧ atBoundary s = true) ∧
    (pendingTrigger (safe .armed) 5 = some (0, 5, 5) ∧ (safe .armed).firn.st = .armed ∧
      pendingTrigger (safe .triggered) 5 = some (0, 5, 5) ∧ (safe .triggered).firn.st = .triggered) ∧
    (full.firn.st = .triggered ∧ dataSize full * byteAt full.firn.cfg 10 ≤ 100 * full.firn.post) ∧
    ((executing held 0x0B04 0x0B00).isSome = true ∧
      (streamFirn (advance held 0)).firn.sent < (container (streamFirn (advance held 0)).firn).length) ∧
    ((executing busy 0x0B04 0x0B00).isSome = true ∧ firnRing (streamFirn (advance busy 0)) .firnOut = none ∧
      (container (streamFirn (advance busy 0)).firn).length ≤ (streamFirn (advance busy 0)).firn.sent) ∧
    ((container (streamFirn (advance bound 0)).firn).length ≤ (streamFirn (advance bound 0)).firn.sent ∧
      firnRing (streamFirn (advance bound 0)) .firnOut = some 3 ∧
      (mget (streamFirn (advance bound 0)).rings 3).isSome = true) ∧
    (let s := loadState (zeros 128)
     mget s.rings s.firn.rpRing = some (ring3 s) ∧ s.firn.st = .loading ∧ (ring3 s).bind = .firnIn ∧
      128 ≤ (ring3 s).inData.length ∧ (loadFault (advance s 0) (ring3 s).inData).isSome = true) ∧
    (let s := tapeState .replaying
     let q := s.setFirn { s.firn with rpTape := s.firn.tape, rpOn := true }
     q.firn.rpTape = [{ kind := 11, seq := 0, time := 0, payload := zeros 16 }] ∧ 0 ≤ (onRecord (advance q 0)).sid.now ∧
      (let e := s.setFirn { s.firn with rpOn := true }
       e.firn.st = .replaying ∧ replayOver e = true)) := by decide +kernel

set_option maxRecDepth 100000 in
/-- The headers of a whole container, and of one whose rest is still to come, with their CRC-32. -/
theorem test_witness_CaptureOccurrencesAct_load :
    (let s := loadState (head 128 0xC35E4B99)
     loadFault (advance s 0) (ring3 s).inData = none ∧ le (ring3 s).inData 16 8 ≤ (ring3 s).inData.length) ∧
    (let s := loadState (head 4096 0x55A00222)
     loadFault (advance s 0) (ring3 s).inData = none ∧ (ring3 s).inData.length < le (ring3 s).inData 16 8) := by decide +kernel

def txState (x : Tx) : State := (regState false).setTx x

/-- On the FM entry, or the DAB entry, of the image. -/
def txOn (st : TxState) (e : Nat) : Tx :=
  { Tx.reset with st := st, entry := some e, locked := true, fm := some (zeros 20), dab := some (zeros 44), paEn := st == .on }

theorem test_witness_ExciterCommandsComplete :
    let s := regState false
    let on := txState (txOn .on 0)
    let tune := mb 0x0900 [1, 0, 0, 0]
    let u (q : State) : State :=
      finishOp (taken txTuneSpec tune q) 0x0901 0x0900 stSuperseded tune.tag.toNat [] (taken txTuneSpec tune q).ev.nextId
    let brk (a : Nat) : Bytes := [8, 0, 0, 0, 0, 0, BitVec.ofNat 8 a, 20, 0, 0, 0xFF, 0, 0, 0, 0, 0]
    let sfn (role : Nat) : Bytes := [BitVec.ofNat 8 role, 15, 0, 0] ++ sleBytes 4 (-1000000) ++ [0, 0] ++ f 2 3600 ++ f 2 20 ++ [0, 0]
    let str (kind : Nat) : State := base.setEth { base.eth with streams := [(15, { UdpStream.reset with cfg := udp 15 kind 0 0 })] }
    (ready txTuneSpec tune s = true ∧ (regEntry s 1).isSome = true ∧ levelInUse s ≤ ePmax ((regEntry s 1).getD []) ∧
      (u s).tx.st = .off ∧ (u (txState (txOn .pending 0))).tx.st = .pending ∧ (u on).tx.st = .on ∧
      (u (txState (txOn .muted 0))).tx.st = .muted ∧
      [txOn .pending 0, txOn .on 0, txOn .muted 0].all (fun x => ready txTuneSpec tune (txState x) &&
        decide (levelInUse (txState x) ≤ ePmax ((regEntry s 1).getD []))) = true) ∧
    (let r := txState (txOn .ready 0)
     ready txStartSpec (mb 0x0900 []) r = true ∧ r.tx.st = .ready ∧ modeSet r = true ∧ r.tx.entry = some 0 ∧
      (regEntry r 0).isSome = true ∧ dutyDenies r 0 = false) ∧
    (ready txStopSpec (mb 0x0900 []) on = true ∧ on.tx.st = .on) ∧
    ready txStopSpec (mb 0x0900 []) (txState (txOn .pending 0)) = true ∧
    ready txStopSpec (mb 0x0900 []) (txState (txOn .muted 0)) = true ∧
    (ready txLevelSetSpec (mb 0x0900 [60, 0, 100, 0, 100, 100, 0, 0]) on = true ∧
      les [60, 0, 100, 0, 100, 100, 0, 0] 0 2 ≤ ePmax ((curEntry on).getD [])) ∧
    (let b : Bytes := [23, 2, 15, 0xFF] ++ f 2 750 ++ [75, 75, 0, 0, 30, 0] ++ zeros 8
     ready txFmSetSpec (mb 0x0900 b) on = true ∧ le b 4 2 ≤ eDev ((curEntry on).getD []) ∧ byteAt b 3 = 0xFF) ∧
    (let b : Bytes := [23, 2, 15, 3] ++ f 2 750 ++ [75, 75, 0, 0, 30, 0] ++ zeros 8
     let r := on.setRings [(3, ring 3 5 0xFF)]
     ready txFmSetSpec (mb 0x0900 b) r = true ∧ mget r.rings (byteAt b 3) = some (ring 3 5 0xFF)) ∧
    ready txDabSetSpec (mb 0x0900 ([23, 2, 0, 1, 69, 23, 0, 0] ++ zeros 36)) base = true ∧
    (ready txBreakinSetSpec (mb 0x0900 (brk 63)) base = true ∧
      ready txBreakinSetSpec (mb 0x0900 (splice (splice (brk 63) 0 [9, 5]) 10 [23])) base = true ∧ pathLane base 23 = none ∧
      mget base.services 23 = none) ∧
    (ready txSfnSetSpec (mb 0x0900 (sfn 0)) base = true ∧ txMode base ≠ 1 ∧ base.tx.st ≠ .on ∧ base.tx.st ≠ .muted) ∧
    (ready txSfnSetSpec (mb 0x0900 (sfn 1)) (str 3) = true ∧ ready txSfnSetSpec (mb 0x0900 (sfn 2)) (str 4) = true ∧
      byteAt (stream (str 3) 15).cfg 1 = 3 ∧ byteAt (stream (str 4) 15).cfg 1 = 4) ∧
    ready coexSetSpec (mb 0x0900 [15, 255, 0xE8, 3, 0, 0, 0, 0]) base = true ∧
    (let a := mb 0x0900 [1, 1, 3, 0]
     let r (rank entry : Nat) := ((txState { Tx.reset with brk := brk entry, rank := rank }).setSaps [(3, { Sap.reset with st := .running })])
     ready txBreakinSpec a (r 3 0) = true ∧ brkEn (r 3 0) 3 = true ∧ sourceConfirmed (taken txBreakinSpec a (r 3 0)) 1 3 = true ∧
      (r 3 0).tx.rank ≠ 0 ∧
      (ready txBreakinSpec a (r 0 0) = true ∧ sourceConfirmed (taken txBreakinSpec a (r 0 0)) 1 3 = true ∧
        sfnFollows (taken txBreakinSpec a (r 0 0)) = false ∧ breakDenied (taken txBreakinSpec a (r 0 0)) 3 = false) ∧
      (ready txBreakinSpec a (r 0 63) = true ∧ sourceConfirmed (taken txBreakinSpec a (r 0 63)) 1 3 = true ∧
        sfnFollows (taken txBreakinSpec a (r 0 63)) = false ∧ breakDenied (taken txBreakinSpec a (r 0 63)) 3 = true)) ∧
    (let r := txState { (txOn .on 0) with brk := brk 0, host := some ⟨1, 3⟩ }
     ready txBreakinSpec (mb 0x0900 [0, 1, 3, 0]) r = true ∧ brkEn r 3 = true ∧ r.tx.host = some ⟨1, 3⟩) ∧
    ready txGetSpec (mb 0x0900 []) base = true ∧ ready txMonGetSpec (mb 0x0900 []) base = true := by decide +kernel

set_option synthInstance.maxSize 4000 in
theorem test_witness_ExciterOccurrencesAct :
    let coex : Bytes := [5, 32, 0, 0, 0, 0, 0, 0]
    let late (s : State) : State := s.setSid { s.sid with now := secU, next := secU + tickU }
    let grid (s : State) : State := s.setSid { s.sid with now := 10 * frameU, next := 10 * frameU + tickU }
    let dab (role : Nat) (u : UdpStream) : State :=
      grid ((txState { (txOn .on 1) with sfn := [BitVec.ofNat 8 role, 15] ++ zeros 14 }).setEth
        { base.eth with streams := [(15, { u with cfg := udp 15 4 0 0 })] })
    let p : SfnPacket := { fic := [1], audio := [1], bad := false }
    (let s := late (txState { (txOn .tuning 0) with locked := false })
     s.tx.locked = false ∧ s.tx.entry ≠ none ∧ s.tx.st = .tuning ∧ s.tx.tuneLate = false ∧ lockFrom s 1 ≤ (advance s 0).sid.now ∧
      txMode s = 1) ∧
    (let s := withFlight (txState { (txOn .tuning 0) with locked := false }) (flight 0x0901 0x0900 [0, 0, 0, 0] .executing)
     s.tx.locked = false ∧ s.tx.byTune = false ∧ s.tx.tuneLate = false ∧ expired s s.tx.tuneBy = true ∧ s.tx.st = .tuning ∧
      executing s 0x0901 0x0900 ≠ none) ∧
    (let s := txState { (txOn .pending 0) with coex := coex }
     s.tx.st = .pending ∧ coexOn s = true ∧ granted s = false ∧ safetyBreak s = false ∧ expired s s.tx.coexBy = true) ∧
    (true ≠ base.tx.gnt ∧ coexOn base = false) ∧
    (let g (level : Bool) (x : Tx) : State := txState { x with coex := coex, gnt := level }
     (txOn .muted 0).gnt = false ∧ coexOn (g true (txOn .muted 0)) = true ∧ safetyBreak (g true (txOn .muted 0)) = false ∧
      granted (g true { (txOn .muted 0) with muteGrant := true }) = true ∧
      granted (g false (txOn .on 0)) = false ∧ transmitting (g false (txOn .on 0)) = true) ∧
    (let s := txState { (txOn .pending 0) with brkOwn := true }
     s.tx.st = .pending ∧ startReady (advance s 0) = true) ∧
    (let s := txState { (txOn .ready 0) with stopping := true, paEn := true }
     s.tx.stopping = true ∧ s.tx.stopAt ≤ (advance s 0).sid.now) ∧
    (let s := late (txState { (txOn .muted 0) with muteGrant := true, paEn := true })
     fastMuting s = true ∧ s.tx.muteAt + fastLen ≤ (advance s 0).sid.now) ∧
    (let s := txState { (txOn .on 0) with dutyClock := 3200 * 86400 }
     transmitting s = true ∧ s.tx.paEn = true ∧ s.tx.entry = some 0 ∧ dutyLeft s 0 = 0) ∧
    (let s := txState { (txOn .on 0) with dutyClock := 32000 }
     (curEntry s).isSome = true ∧ eCont ((curEntry s).getD []) = 10 ∧ 3200 * 10 ≤ s.tx.dutyClock - s.tx.contFrom) ∧
    (let s := dab 0 UdpStream.reset
     txMode s = 2 ∧ transmitting s = true ∧ ((advance s 0).sid.now : Int) = nullAt s 10 ∧
      s.tx.gridFrom ≤ (advance s 0).sid.now ∧ sfnRole s ≠ 2 ∧ s.tx.st = .on ∧
      (advance s 0).sid.now < (s.setTx { s.tx with gridFrom := 11 * frameU }).tx.gridFrom) ∧
    (let s := dab 2 { UdpStream.reset with frames := [(10, p)] }
     sfnRole s = 2 ∧ heldPacket (advance s 0) 10 = some p ∧ (packetDue (advance s 0) 10).tx.muteFrame = false) ∧
    (let s := dab 2 UdpStream.reset
     sfnRole s = 2 ∧ heldPacket (advance s 0) 10 = none) ∧
    (let s := (txState { (txOn .on 1) with sfn := zeros 16 }).setSid { base.sid with st := .coasting }
     txMode s = 2 ∧ s.tx.st = .on ∧ s.sid.coastFrom + le s.tx.sfn 10 2 * secU ≤ (advance s 0).sid.now) ∧
    (let s := txState { Tx.reset with brk := splice Tx.reset.brk 0 [2], ptt := true }
     (triggers (taTrigger s)).contains 2 = true ∧ transmitting s = false) ∧
    (let bnd (s : State) : State := s.setSid { base.sid with bound := base.sid.now }
     let s := bnd (base.setReg { (regState false).reg with next := true })
     let gone := bnd ((txState (txOn .on 0)).setReg { Reg.reset with next := true, gen := 1, image := regImage, slots := [⟨2, zeros 2112, true⟩] })
     let same := bnd ((txState (txOn .on 0)).setReg { (regState false).reg with next := true })
     s.reg.next = true ∧ atBoundary s = true ∧ expired s s.reg.nextBy = true ∧ curEntry s = none ∧
      (gone.reg.next = true ∧ atBoundary gone = true ∧ expired gone gone.reg.nextBy = true ∧ (curEntry gone).isSome = true ∧
        sameChannel (loadShadow gone) ((curEntry gone).getD []) = none) ∧
      (atBoundary same = true ∧ (curEntry same).isSome = true ∧ sameChannel (loadShadow same) ((curEntry same).getD []) = some 0)) := by
  decide +kernel

/-! ## Witnesses: functional safety -/

/-- Full lane 0 (`USE` 3) with `ALERT_EN` of `FM_SET`, and flake 254 fit for alerts, designated or not. -/
def alertState (lanes : Nat) (fl : Nat) : State :=
  let s := (laneState .running 3).setDemods [(0, { Demod.reset with fm := splice fmDefault 3 [0x0A] })]
  (s.setFlurry { Flurry.reset with
      cfg := splice flurryDefault 13 [255], flakes := [(254, { Flake.reset with st := .synced, flags := 1 })] }).setPol
    { Polaris.reset with cfg := splice (splice polarisDefault 0 (f 4 lanes)) 4 (f 2 fl) }

def polBody : Bytes := splice (splice polarisDefault 0 [1]) 4 (f 2 0x05FE)

def reported (r : Report) : State := let s := alertState 1 0xFFFF; s.setPol { s.pol with reports := [r] }

def safeState (cause : Nat) (resetOnly : Bool) : State :=
  base.setPol { Polaris.reset with safe := true, safeCause := cause, resetOnly := resetOnly, resetId := cause, missed := [(6, 2)] }

theorem test_witness_SafetyCommandsComplete :
    (ready polarisSetSpec (mb 0x0C00 polBody) (alertState 0 0xFFFF) = true ∧
      (List.range 32).all (fun n => !bit (le polBody 0 4) n || laneFit (alertState 0 0xFFFF) n) = true ∧
      (namedFlakes polBody).all (fun t => flakeFit (alertState 0 0xFFFF) (t - 0x0500)) = true ∧ namedFlakes polBody = [0x05FE]) ∧
    ready polarisGetSpec (mb 0x0C00 []) base = true ∧
    (ready alertClearSpec (mb 0x0C00 []) base = true ∧ alertWindow base = false) ∧
    (ready alertClearSpec (mb 0x0C00 []) (safeState 5 false) = true ∧ (safeState 5 false).pol.safe = true) ∧
    (ready safeReleaseSpec (mb 0x0C00 []) (safeState 5 false) = true ∧ stillPresent (safeState 5 false) = false ∧
      (safeState 5 false).pol.cleared = false ∧ (safeState 5 false).pol.halted = false) ∧
    ready safeReleaseSpec (mb 0x0C00 []) (base.setPol { base.pol with refusal := true }) = true ∧
    ready safeReleaseSpec (mb 0x0C00 []) (base.setPol { base.pol with thermHold := true }) = true ∧
    (ready safeReleaseSpec (mb 0x0C00 []) (safeState 5 true) = true ∧ (safeState 5 true).pol.resetOnly = true) ∧
    (ready safeReleaseSpec (mb 0x0C00 []) (safeState 3 false) = true ∧ stillPresent (safeState 3 false) = true) ∧
    (ready selftestRunSpec (mb 0x0C00 [1, 0, 0, 0]) base = true ∧ noneDestroying base = true) := by decide +kernel

set_option synthInstance.maxSize 4000 in
theorem test_witness_AlertsAreConfirmedByBothPaths :
    let heard (s : State) (src : Nat) : Prop := s.pol.halted = false ∧ s.pol.safe = false ∧ replayed (advance s 0) src = false ∧
      (toFull src = true ∨ toFlake src = true)
    let on (s : State) (src : Nat) : Bool := designated (advance s 0) src
    let r (primary start : Bool) : State := reported ⟨primary, 0x0300, start, 0xFF, 0⟩
    let none_ := alertState 1 0x05FE
    (heard none_ 0x0300 ∧ on none_ 0x0300 = true ∧ heard none_ 0x05FE ∧ on none_ 0x05FE = true ∧ none_.pol.reports = [] ∧
      dabSource (advance none_ 0) 0x0300 = false) ∧
    (heard (r true true) 0x0300 ∧ on (r true true) 0x0300 = true ∧ (r true true).pol.reports = [⟨true, 0x0300, true, 0xFF, 0⟩]) ∧
    (heard (r false true) 0x0300 ∧ on (r false true) 0x0300 = true ∧
      (r false true).pol.reports = [⟨false, 0x0300, true, 0xFF, 0⟩]) ∧
    (heard (r true false) 0x0300 ∧ on (r true false) 0x0300 = true ∧
      (r true false).pol.reports = [⟨true, 0x0300, false, 0xFF, 0⟩]) ∧
    (heard (alertState 0 0xFFFF) 0x0300 ∧ on (alertState 0 0xFFFF) 0x0300 = false) ∧
    expired (advance (r true true) 0) 0 = true := by decide +kernel

/-- Tick 32, the end of a window of 32 ticks. -/
def at32 (x : Tx) : State :=
  (txState x).setSid { base.sid with now := 32 * tickU, next := 33 * tickU, bound := 32 * tickU, ticks := 32 }

def monIn (offset : Int) : MonitorIn :=
  { offset := offset, pTxmon := -9000, adjacent := 0, devMer := 0, content := 10000, quiet := false, fibDiffers := 0, clipping := false }

set_option synthInstance.maxSize 4000 in
theorem test_witness_FindingsLeadToTheSafeState :
    let locked := base.setClk { base.clk with state := .locked, lock := 0x1F }
    (base.pol.safe = false ∧ diagnosed base = true ∧ islandRuns base 6 = true ∧ islandRuns base 16 = true) ∧
    (mgetD (base.setPol { base.pol with missed := [(6, 1)] }).pol.missed 6 0 = 1) ∧
    (driven (base.setPol { base.pol with alertN := true }) 0 = true ∧ driven base 2 = false) ∧
    (locked.clk.state = .locked ∧ loopLocked locked 4 = true ∧ loopLocked locked 3 = true ∧ safetyBreak locked = false) ∧
    (let s := at32 { (txOn .on 0) with rank := 1, dueAt := some 0 }
     s.pol.safe = false ∧ safetyBreak s = true ∧ s.tx.st = .on ∧ s.tx.dueAt = some 0 ∧ 0 + 5000 * usU ≤ (advance s 0).sid.now) ∧
    (let s := txState { (txOn .pending 0) with rank := 2, brkOwn := true, locked := false, synthBy := some 0 }
     s.pol.safe = false ∧ s.tx.brkOwn = true ∧ safetyBreak s = true ∧ synthExpired s = true) ∧
    (let s := txState { (txOn .pending 0) with locked := false, synthBy := some 0 }
     s.pol.safe = false ∧ s.tx.brkOwn = false ∧ synthExpired s = true) ∧
    (let s := base.setSid { base.sid with now := 24 * 3600 * secU, next := 24 * 3600 * secU + tickU }
     executing s 0x0C05 0x0C00 = none ∧ diagnosed s = true ∧ s.pwr.state ≠ .thaw ∧ selftestDue (advance s 0) = true) ∧
    (let s := at32 (txOn .on 0)
     (curEntry s).isSome = true ∧ windowDone s 32 = true ∧ s.tx.ramp.start + s.tx.ramp.len ≤ (advance s 0).sid.now - 32 * tickU ∧
      monBreach (advance s 0) ((curEntry s).getD []) (monIn 1000000) = true ∧
      monBreach (advance s 0) ((curEntry s).getD []) (monIn 0) = false ∧
      (s.setMon { s.mon with breaches := 1 }).mon.breaches = 1) ∧
    (let s := at32 { (txOn .on 0) with ramp := { Tx.reset.ramp with start := 0, len := 1 } }
     windowDone s 32 = true ∧ (advance s 0).sid.now - 32 * tickU < s.tx.ramp.start + s.tx.ramp.len) ∧
    (at32 (txOn .muted 0)).tx.st ≠ .on := by decide +kernel

theorem test_witness_FindingsLeadToTheSafeState_crc :
    (∃ crc : BitVec 32, crc ≠ Config.safetyCrc (safetyConfig base)) ∧ ∃ crc : BitVec 32, crc = Config.safetyCrc (safetyConfig base) :=
  ⟨⟨Config.safetyCrc (safetyConfig base) + 1, by simp⟩, _, rfl⟩

/-! ## Witnesses: power and firmware -/

def pwrState (st : PwrState) (tr : PwrTrans) : State := base.setPwr { base.pwr with state := st, trans := tr }

def fwState (x : FwState) : State :=
  base.setFw { Firmware.reset with st := x, bytes := 512, written := if x = .writing then 0 else 512, crc := crc32 [] }

set_option synthInstance.maxSize 4000 in
theorem test_witness_PowerAndFirmwareCommandsComplete :
    let req (st mask : Nat) : Args := mb 0 ([BitVec.ofNat 8 st, BitVec.ofNat 8 mask, 0, 0, 1, 0, 0, 0] ++ zeros 4)
    let can (st mask : Nat) (s : State) : Prop := ready pwrStateSetSpec (req st mask) s = true ∧ s.pwr.trans = .none
    let u (st mask : Nat) (s : State) : State := taken pwrStateSetSpec (req st mask) s
    let frost := pwrState .frost .none
    let avalanche := pwrState .avalanche .none
    let spent := base.setPwr { base.pwr with boostSpent := true }
    (can 1 15 base ∧ base.pwr.state = .active ∧ lowDenied (u 1 15 base) = none) ∧ (can 1 15 frost ∧ frost.pwr.state = .frost) ∧
    (can 0 15 base ∧ lowDenied (u 0 15 base) = none) ∧ can 3 0 base ∧ (can 3 0 frost ∧ can 4 0 frost) ∧
    (can 3 0 avalanche ∧ can 4 0 avalanche ∧ avalanche.pwr.state = .avalanche) ∧
    (can 4 0 base ∧ base.pwr.brownout = false ∧ base.pwr.boostSpent = false ∧
      shedRefusal ((u 4 0 base).setPwr { base.pwr with reqAval := true }) 3 = none) ∧
    (can 4 0 spent ∧ spent.pwr.state = .active ∧ spent.pwr.brownout = false ∧ spent.pwr.boostSpent = true ∧
      shedRefusal ((u 4 0 spent).setPwr { spent.pwr with reqAval := true }) 3 = none) ∧
    (ready pwrStateSetSpec (req 4 0) (pwrState .active .toFrost) = true ∧ (pwrState .active .toFrost).pwr.trans ≠ .none) ∧
    ready pwrGetSpec (mb 0 []) base = true ∧ ready pwrLimitSetSpec (mb 0 [40, 0, 0, 0]) base = true ∧
    (ready fwBeginSpec (mb 0 (f 4 8388608 ++ zeros 4)) base = true ∧ base.fw.st = .idle) ∧
    (ready fwWriteSpec (mb 0 (zeros 112)) (fwState .writing) = true ∧ (fwState .writing).fw.st = .writing ∧
      le (zeros 112) 0 4 = (fwState .writing).fw.written ∧
      (fwState .writing).fw.written + ((zeros 112).length - 4) ≤ (fwState .writing).fw.bytes) ∧
    (ready fwFinishSpec (mb 0 [1, 0, 0, 0]) (fwState .writing) = true) ∧ ready fwStatusSpec (mb 0 []) base = true ∧
    ready devResetSpec (mb 0 [1, 0, 0, 0]) base = true := by decide +kernel

theorem test_witness_FirmwareUpdateStepsEnd :
    let v := fwState .verifying
    ((fwState .erasing).fw.st = .erasing ∧ (fwState .erasing).fw.suspended = false) ∧
    (let s := withFlight (fwState .writing) (flight 0x0F02 0 (zeros 112) .executing)
     (executing s 0x0F02 0x0000).isSome = true ∧ s.fw.st = .writing ∧ s.fw.suspended = false) ∧
    (v.fw.st = .verifying ∧ v.fw.bytes ≤ v.fw.written ∧ crc32 v.fw.image = v.fw.crc ∧ v.fw.activate = false) ∧
    (v.setFw { v.fw with activate := true }).fw.activate = true ∧ verifyFault v.fw false = some 2 ∧
    verifyFault { v.fw with crc := 8 } true = some 1 ∧ verifyFault { v.fw with bytes := 513 } true = some 3 ∧
    ((fwState .marking).fw.st = .marking ∧ (fwState .marking).fw.suspended = false) := by decide +kernel

theorem test_witness_PowerStatesFollowTheirOccurrences :
    let bu (n : Nat) := base.setPwr { base.pwr with state := .thaw, buStep := n }
    let rests (st : PwrState) (tr : PwrTrans) : Prop :=
      (pwrState st tr).pwr.trans = tr ∧ (pwrState st tr).pwr.owner = none ∧ (pwrState st tr).pwr.waiting = [] ∧
        (pwrState st tr).pwr.reqAval = false
    ((pwrState .off .none).pwr.state = .off ∧ 2650 < 2651) ∧
    (base.pwr.state ≠ .off ∧ base.pwr.shut = false ∧ 1500 ≤ 2349 ∧ 2349 < 2350 ∧ 0 < 1500) ∧
    (let s := base.setPwr { base.pwr with state := .permafrost, shut := true }
     s.pwr.state ≠ .off ∧ s.pwr.shut = true ∧ (999 : Int) < 1000) ∧
    ((bu 2).pwr.state = .thaw ∧ (bu 2).pwr.buStep = 2) ∧ ((bu 4).pwr.buFault = 0 ∧ (bu 4).pwr.buStep = 4) ∧
    ((bu 9).pwr.buStep = 9 ∧ (bu 9).pwr.reqAval = false) ∧ (diagnosed base = true ∧ base.pwr.brownout = false) ∧
    (let s := base.setPwr { base.pwr with brownout := true }
     diagnosed s = true ∧ s.pwr.brownout = true ∧ s.pwr.reqAval = false) ∧
    rests .active .toFrost ∧ rests .frost .fromFrost ∧ rests .active .toPermafrost ∧ rests .active .toAvalanche ∧
    rests .avalanche .fromAvalanche ∧
    (let s := base.setPwr { base.pwr with state := .permafrost, wakeMask := 8 }
     s.pwr.state = .permafrost ∧ s.pwr.shut = false ∧ bit s.pwr.wakeMask 3 = true) ∧
    (let s := base.setPwr { base.pwr with state := .frost, wakeMask := 8 }
     s.pwr.state = .frost ∧ bit s.pwr.wakeMask 3 = true) := by
  decide +kernel

theorem test_witness_GovernorsShedAndRestore :
    let hot := (base.setPwr { base.pwr with tj := 1220, iin := 4000 }).setTherm { Thermal.reset with actions := [(1, .survey [0x0400])], powerAt := 9 }
    let bare := (base.setPwr { base.pwr with iin := 4000 }).setTherm { Thermal.reset with powerAt := 9 }
    let cool := (base.setSid { base.sid with ticks := 3200 }).setTherm
      { Thermal.reset with thermDem := 1, coolFrom := some 0, powerDem := 1, lowFrom := some 0, actions := [(1, .survey [])] }
    let checked (s : State) : State := s.setTherm { s.therm with powerAt := s.sid.ticks }
    let boost (n : Nat) : State := base.setPwr { base.pwr with boost := true, boostUsed := n }
    ((boost 19999).pwr.boost = true ∧ (boost 19999).pwr.brownout = false ∧ (boost 19999).pwr.boostLeft = 0 ∧
      (boost 19999).pwr.boostUsed < 20000) ∧ 20000 ≤ (boost 20000).pwr.boostUsed ∧
    (governed hot = true ∧ hot.therm.thermDem = 0 ∧ 1220 ≤ hot.pwr.tj ∧ (shedOne hot true).1 = some 1) ∧
    (governed cool = true ∧ thermalSheds cool = false ∧ 0 < cool.therm.thermDem ∧ restDue cool cool.therm.coolFrom = true) ∧
    (hot.therm.powerAt ≠ hot.sid.ticks ∧ 100 * hot.pwr.ilim ≤ hot.pwr.iin ∧ (shedOne (checked hot) false).1 = some 1) ∧
    (governed bare = true ∧ bare.therm.powerAt ≠ bare.sid.ticks ∧ 100 * bare.pwr.ilim ≤ bare.pwr.iin ∧
      (shedOne (checked bare) false).1 = none ∧ (shedOne (checked bare) false).2.therm.exhausted = false) ∧
    (cool.therm.powerAt ≠ cool.sid.ticks ∧ cool.pwr.iin < 100 * cool.pwr.ilim ∧ 0 < cool.therm.powerDem ∧
      restDue cool cool.therm.lowFrom = true) ∧
    base.pwr.state ≠ .off := by decide +kernel

/-! ## Witnesses: Meridian, the tick and legacy mode -/

/-- `SCHED_ADD` payload with an embedded `PWR_LIMIT_SET`: 3 firings, one every 32 ticks. -/
def schedBody : Bytes :=
  f 4 32 ++ f 4 3 ++ packetBytes ⟨0x0007, { mb 0 [20, 0, 0, 0] with tag := 9 }⟩

def slot (sched : Bool) (c : Cmd) (due : Sid) : Slot :=
  { sched := sched, cmd := c, seq := 0, nominal := due, due := due, period := 32, firings := 3, passed := 0, fired := 0, skipped := 0,
    late := false, sample := false }

def atSlot (i : Nat) (v : Slot) : State := base.setMerid { Meridian.reset with slots := [(i, v)] }

theorem test_witness_ScheduleCommandsComplete :
    let add := mb 0x0A00 schedBody
    let far : State := base.setSid { base.sid with next := base.sid.now + 2 * tickU }
    let at_ (fl w : Nat) : Args := { add with flags := BitVec.ofNat 6 fl, whn := BitVec.ofNat 64 w }
    let fits (a : Args) (s : State) : Bool :=
      (checkEmbedded (taken schedAddSpec a s) (embedded (cmdOf schedAddSpec a))).isNone && decide (freeSlot s = some 0)
    (ready schedAddSpec add base = true ∧ fits add base = true ∧ base.sid.now ≤ base.sid.next ∧
      base.sid.next < base.sid.now + 2 * tickU) ∧
    (ready schedAddSpec add far = true ∧ fits add far = true ∧ far.sid.now ≤ far.sid.next ∧
      far.sid.now + 2 * tickU ≤ far.sid.next) ∧
    (let a := at_ 0 2000000
     readyAt schedAddSpec a base = true ∧ fits a base = true ∧ base.sid.now + 2 * tickU ≤ sidOf base.sid.now a.whn) ∧
    (let a := at_ 0 10000
     readyAt schedAddSpec a base = true ∧ fits a base = true ∧ base.sid.now ≤ sidOf base.sid.now a.whn ∧
      sidOf base.sid.now a.whn < base.sid.now + 2 * tickU) ∧
    (let a := at_ 2 1
     readyAt schedAddSpec a base = true ∧ fits a base = true ∧ sidOf base.sid.now a.whn < base.sid.now ∧
      (cmdOf schedAddSpec a).lateOk = true) ∧
    (let s := atSlot 255 (slot true ⟨0x0007, mb 0 [20, 0, 0, 0]⟩ 0)
     ready schedCancelSpec (mb 0x0A00 [255, 0, 0, 0]) s = true ∧ (mget s.merid.slots 255).isSome = true) ∧
    (let s := atSlot 255 (slot false ⟨0x0007, mb 0 [20, 0, 0, 0]⟩ 0)
     ready schedCancelSpec (mb 0x0A00 [255, 0, 0, 0]) s = true ∧ (mget s.merid.slots 255).isSome = true) ∧
    ready schedGetSpec (mb 0x0A00 [0xFF, 0xFF, 0, 0]) base = true := by decide +kernel

theorem test_witness_ReleasesFiringsAndStepsAct :
    let c : Cmd := ⟨0x0007, mb 0 [20, 0, 0, 0]⟩
    (let s := withFlight (atSlot 255 (slot false c 0)) (flight 0x0007 0 [20, 0, 0, 0] .waiting)
     (nextRelease s).map (·.1) = some 255 ∧ (byTag (putSlot s 255 none) .mailbox 1).isSome = true ∧ (specOf 0x0007).isSome = true) ∧
    (let s := atSlot 255 (slot true c 0)
     (nextRelease s).map (·.1) = some 255 ∧ byTag s .mailbox 1 = none ∧ (plainSpec 0x0007).isSome = true) ∧
    (let s := withFlight (atSlot 255 (slot true c 0)) (flight 0x0001 0 [] .executing)
     (nextRelease s).map (·.1) = some 255 ∧ (byTag s .mailbox 1).isSome = true) ∧ nextRelease base = none ∧
    (let s := withFlight base { (flight 0x070A 0x0600 [1, 0, 0, 0] .executing) with begun := false }
     (byTag s .mailbox 1).map (fun g => (g.phase, g.begun)) = some (.executing, false) ∧
      (specOf 0x070A).map (·.sample) = some true ∧ 0 ≤ (advance s 0).sid.now) ∧
    (let s := base.setSid { base.sid with
       now := 40960000000, bound := 40960000000, ticks := 2
       stepReqs := [{ why := .timeSet, absolute := true, secOnly := false, value := 5, asked := 1, owner := none }] }
     (dueStep s).isSome = true) ∧
    (let s := withFlight base { (flight 0x0605 0x0300 [0, 0, 0, 0] .executing) with outcome := some ⟨0, 0, []⟩ }
     ((byTag s .mailbox 1).bind (·.outcome)).isSome = true ∧ ownOutcome 0x0605 = false) ∧
    (let s := withFlight base { (flight 0x0605 0x0300 [0, 0, 0, 0] .executing) with begun := false }
     (byTag s .mailbox 1).map noEffectYet = some true) := by decide +kernel

theorem test_witness_TickAdvancesTime :
    State.reset.sid.running = false ∧ base.sid.running = true ∧ (base.setPwr { base.pwr with resetPend := true }).pwr.resetPend = true ∧
    (base.pwr.resetPend = false ∧ (base.setPol { base.pol with halted := true }).pol.halted = true) ∧
    (base.pol.halted = false ∧ base.cmds.list = [] ∧ base.rings = [] ∧ base.mbx.copied = [] ∧ base.leg.seq = [] ∧
      base.firn.st ≠ .replaying) := by decide +kernel

/-- Legacy mode with a code in `L_CMD`, and an argument. -/
def legacyState (code : Nat) (arg : Bytes) : State :=
  (base.setHcfg { base.hcfg with legEn := true }).setLeg { Legacy.reset with cmd := code, start := true, arg := fit 60 arg }

theorem test_witness_GenerationOneCodesRun :
    let on (code : Nat) (arg : Bytes) : Prop :=
      let s := legacyState code arg
      (channelOpen s .legacy = true ∧ ∀ g ∈ s.cmds.list, g.cmd.a.origin ≠ .legacy) ∧
        s.hcfg.legEn = true ∧ s.leg.start = true ∧ s.leg.cmd = code
    (on 0x10 (f 4 98000) ∧ 144 ≤ le (fit 60 (f 4 98000)) 0 4 ∧ le (fit 60 (f 4 98000)) 0 4 ≤ 319800 ∧
      (lane (legacyState 0x10 (f 4 98000)) 0x0300).st = .idle) ∧
    (let s := (legacyState 0x10 (f 4 98000)).setLanes (laneState .running 3).lanes
     s.leg.start = true ∧ ¬((lane s 0x0300).st = .idle ∨ (lane s 0x0300).st = .stopped)) ∧
    319800 < le (legacyState 0x11 (f 4 319801)).leg.arg 0 4 ∧ le (legacyState 0x12 (f 4 143)).leg.arg 0 4 < 144 ∧
    (on 0x13 (f 4 1440 ++ [0, 1]) ∧ byteAt (legacyState 0x13 (f 4 1440 ++ [0, 1])).leg.arg 5 = 1) ∧
    1 < byteAt (legacyState 0x13 (f 4 1440 ++ [0, 2])).leg.arg 5 ∧ (on 0x22 [] ∧ fullUse (legacyState 0x22 []) 0 < 4) ∧
    (let s := (legacyState 0x22 []).setLanes (ensState 4 Ofdm.reset).lanes
     4 ≤ fullUse s s.leg.lane ∧ s.leg.cmd = 0x22) ∧
    [0x01, 0x02, 0x03, 0x14, 0x20, 0x21, 0x23, 0x24, 0x30, 0x31, 0x32].all (fun c => legacyCodes.contains c) = true ∧
    (on 0xFF [] ∧ 0xFF ∉ legacyCodes) := by decide +kernel

/-! ## Witnesses: rules of the whole device -/

theorem test_witness_StepRunsFrontCommand : base.pending = [] := rfl

theorem test_witness_MalformedPacketHaltsItsRing :
    (hostCommand (.identify (rg 0 [1]))).isSome = true ∧ (rg 0 [1]).origin = .ring 0 ∧ (mget ringState.rings 0).isSome = true ∧
    channelOpen ringState (.ring 0) = true ∧ badLen (.ring 0) (rg 0 [1]).payload.length = true ∧
    (let v := ringState.setRings [(0, { ring 0 1 1 with halted := true })]
     ready ringResetSpec (mb 0 (zeros 8)) v = true ∧ noneDestroying v = true ∧ mget v.rings 0 = some { ring 0 1 1 with halted := true }) := by
  decide +kernel

theorem test_witness_ChannelsAndTagsGateTaking :
    let full := base.setCmds { base.cmds with list := List.replicate 1024 (flight 0x0001 0 [] .executing) }
    let held := ringState.setRings [(0, ring 0 1 1), (1, { ring 1 2 0xFF with heldCpl := [(zeros 16, none)] })]
    let mail := base.setCmds { base.cmds with list := List.replicate 32 (flight 0x0001 0 [] .executing) }
    let stopped := ringState.setRings [(0, { ring 0 1 1 with halted := true, destroying := some (.mailbox, 5) })]
    let busy := withFlight base (flight 0x0001 0 [] .executing)
    1024 ≤ flightCount full ∧ 32 ≤ mbxCount mail ∧ (pwrState .off .none).pwr.state = .off ∧
    (pwrState .permafrost .none).pwr.state = .permafrost ∧ (base.setPol { base.pol with halted := true }).pol.halted = true ∧
    State.reset.sid.running = false ∧ (mget base.rings 127).isNone = true ∧
    ((mget stopped.rings 0).map fun r => (r.halted, r.destroying.isSome)) = some (true, true) ∧
    (((mget held.rings 0).bind fun r => mget held.rings r.cplRing).map fun q => q.heldCpl.isEmpty) = some false ∧
    (channelOpen busy .mailbox = true ∧ badLen .mailbox 0 = false ∧ (byTag busy .mailbox (mb 0 []).tag.toNat).isSome = true) ∧
    (channelOpen base .mailbox = true ∧ 112 < (mb 0 (zeros 116)).payload.length) := by decide +kernel

/-- What the owning island of a ready command makes of it, by kind. -/
def judged (sp : CmdSpec) (a : Args) (s : State) : Nat := match sp.unit (cmdOf sp a) (taken sp a s) with
  | .deny _ _ => 0
  | .done _ _ _ _ => 1
  | .later _ _ _ _ => 2
  | .busy _ => 3

theorem test_witness_ReadyCommandEndsAsItsUnitJudges :
    (ready safeReleaseSpec (mb 0x0C00 []) base = true ∧ judged safeReleaseSpec (mb 0x0C00 []) base = 0 ∧ noneDestroying base = true) ∧
    (ready identifySpec (mb 0 []) base = true ∧ judged identifySpec (mb 0 []) base = 1) ∧
    (let s := (ensState 4 Ofdm.reset).setServices [(23, svc 0 .playing)]
     ready serviceStopSpec (mb 0x0300 [23, 0, 0, 0]) s = true ∧ judged serviceStopSpec (mb 0x0300 [23, 0, 0, 0]) s = 2) ∧
    (ready selftestRunSpec (mb 0x0C00 [1, 0, 0, 0]) base = true ∧ judged selftestRunSpec (mb 0x0C00 [1, 0, 0, 0]) base = 3) ∧
    (hostCommand (.safeRelease (mb 0x0C00 []))).isSome = true := by decide +kernel

theorem test_witness_CommandBehindItsTargetIsHeld :
    let c := cmdOf pwrGetSpec { mb 0 [] with tag := 2 }
    let s := withFlight base (flight 0x0001 0 [] .executing)
    let q := base.setCmds { base.cmds with served := [(.mailbox, 0, 1)] }
    (channelOpen s .mailbox = true ∧ badLen .mailbox 0 = false ∧ (byTag s .mailbox 2).isNone = true ∧
      blocked (enter c s).2 c s.cmds.nextSeq = true) ∧
    (channelOpen q .mailbox = true ∧ blocked (enter c q).2 c q.cmds.nextSeq = false ∧ servedNow q c = some 1) ∧
    (cmdOf pwrGetSpec { mb 0 [] with flags := 1 }).unordered = true := by decide +kernel

theorem test_witness_ThawServesTwoCommands :
    let s := base.setPwr { base.pwr with state := .thaw, buStep := 9 }
    s.pwr.state = .thaw ∧ noneDestroying s = true ∧ channelOpen s .mailbox = true ∧ badLen .mailbox 0 = false ∧
    (byTag s .mailbox 1).isNone = true ∧ s.cmds.list = [] ∧ s.cmds.served = [] ∧
    (hostCommand (.pwrGet (mb 0 []))).isSome = true ∧ pwrGetSpec.op ≠ 0x0001 ∧ pwrGetSpec.op ≠ 0x0002 ∧
    (mb 0 []).payload = [] ∧ (mb 0 []).target = 0 ∧ (mb 0 []).flags = 0 := by decide +kernel

theorem test_witness_ThawServesTwoCommands_inv : Inv (base.setPwr { base.pwr with state := .thaw, buStep := 9 }) := by
  refine ⟨rfl, ?_, ⟨by decide, by decide⟩, by decide, rfl⟩
  intro w h
  cases h

theorem test_witness_FutureCommandTakesASlot :
    let a (w : BitVec 64) : Args := { mb 0 [] with whn := w }
    let full := base.setMerid { Meridian.reset with slots := (List.range 256).map fun i => (i, slot true ⟨0x0007, mb 0 [20, 0, 0, 0]⟩ 0) }
    (readyAt pwrGetSpec (a 2000000) base = true ∧ base.sid.now + 2 * tickU ≤ sidOf base.sid.now 2000000 ∧ freeSlot base = some 0) ∧
    (readyAt pwrGetSpec (a 1) base = true ∧ sidOf base.sid.now 1 < base.sid.now ∧ (cmdOf pwrGetSpec (a 1)).lateOk = false) ∧
    (readyAt pwrGetSpec (a 2000000) full = true ∧ base.sid.now ≤ sidOf base.sid.now 2000000 ∧ freeSlot full = none) ∧
    pwrGetSpec.op ≠ 0x0A10 := by decide +kernel

/-- The completion ring of `ringState`. -/
def cplRing1 : Machine.Ring := { ring 1 2 0xFF with base := 0x30000, statusAddr := 0x40000 }

theorem test_witness_CompletionsGoToTheirChannel :
    (ready safeReleaseSpec (mb 0x0C00 []) base = true ∧ judged safeReleaseSpec (mb 0x0C00 []) base = 0 ∧ noneDestroying base = true) ∧
    (ready safeReleaseSpec (rg 0x0C00 []) ringState = true ∧ judged safeReleaseSpec (rg 0x0C00 []) ringState = 0 ∧
      noneDestroying ringState = true ∧ ringState.pcie.d3 = false) ∧
    (((mget ringState.rings 0).bind fun r => mget ringState.rings r.cplRing).map fun q =>
      decide (q.size = 2 ^ 12 ∧ 12 ≤ 32 ∧ occupancy q + padOf q 16 + 16 ≤ q.size)) = some true ∧
    (∀ k < 16, outside (entryAt cplRing1 16 + k) cplRing1.statusAddr 16) ∧
    outside (inflightByte (ring 0 1 1) 1) (entryAt cplRing1 16) 16 := by
  refine ⟨by decide +kernel, by decide +kernel, by decide +kernel, ?_, ?_⟩
  · intro k hk
    have : entryAt cplRing1 16 = 0x30000 := by decide
    have : cplRing1.statusAddr = 0x40000 := by decide
    unfold outside
    omega
  · have : inflightByte (ring 0 1 1) 1 = 0x20010 := by decide
    have : entryAt cplRing1 16 = 0x30000 := by decide
    unfold outside
    omega

theorem test_witness_CompletionsGoToTheirChannel_inv : Inv base ∧ Inv ringState := by
  constructor <;> refine ⟨rfl, ?_, ⟨by decide, by decide⟩, by decide, rfl⟩ <;> intro w h <;> cases h

theorem test_witness_EventsAndViolationsAreKept :
    let s := raise base 0x0003 5 6
    (s.ev.windows.any fun w => decide (w.code = 0x0003 ∧ w.source = 5 ∧ w.edetail = 6 ∧ w.single = false ∧ 0 < w.left)) = true ∧
    isUrgent 0x0003 = false ∧ base.ev.windows = [] ∧ ((List.range 256).any isUrgent) = true ∧
    (let v := violate base 5 0 0 0
     v.vlog.any = true ∧ v.vlog.newest < 16 ∧ v.vlog.fill ≤ 16) := by decide +kernel

theorem test_witness_PacketsReadBack :
    (⟨0xFFFF, { mb 0xFFFF [1, 2] with whn := 5 }⟩ : Cmd).op < 2 ^ 16 ∧ ([1, 2] : Bytes).length < 2 ^ 16 := by decide

theorem test_witness_EachCommandChangesOnlyItsUnits : ∃ t, exec .boostUnitBegin base = .next t ∧ step base = .next base :=
  ⟨_, rfl, rfl⟩

theorem test_witness_EveryStepKeepsInv : Inv base ∧ step base = .next base :=
  ⟨test_witness_CompletionsGoToTheirChannel_inv.1, rfl⟩

theorem test_witness_LockOfTheTableIsPermanent :
    (ready regLockSpec (mb 0x0900 [1, 0, 0, 0]) (regState false) = true ∧ (regState false).reg.commit = false ∧
      le [1, 0, 0, 0] 0 4 = (regState false).reg.gen) ∧
    (ready regLockSpec (mb 0x0900 [2, 0, 0, 0]) (regState false) = true ∧ le [2, 0, 0, 0] 0 4 ≠ (regState false).reg.gen) ∧
    (let s := base.setReg { Reg.reset with commit := true }
     ready regLockSpec (mb 0x0900 [0, 0, 0, 0]) s = true ∧ s.reg.commit = true) ∧
    (ready regLoadSpec (mb 0x0900 [0, 0, 4, 0, 0, 0, 0, 0]) (regState true) = true ∧ (regState true).reg.locked = true) ∧
    ready regCommitSpec (mb 0x0900 [0, 0, 0, 0]) (regState true) = true ∧ 0 < instances (regState true).part 0x09 := by decide +kernel

theorem test_witness_LockOfTheTableIsPermanent_step :
    let s := base.setReg { Reg.reset with locked := true }
    Inv s ∧ step s = .next s ∧ s.reg.locked = true :=
  ⟨⟨rfl, fun w h => (by cases h), ⟨by decide, by decide⟩, by decide, rfl⟩, rfl, rfl⟩

theorem test_witness_UnknownUnitHasAnEmptyRecord :
    ready getCapsSpec (mb 0 [0x12, 0, 0, 0]) base = true ∧ 0x11 < byteAt [0x12, 0, 0, 0] 0 := by decide +kernel

/-! ## Ill-formed operands: one for each check of `Instr.wf` -/

theorem test_ill_formed_packets :
    Instr.wf (.identify { rg 0 [] with origin := .ring 128 }) = false ∧ Instr.wf (.identify (rg 0 [])) = true ∧
    Instr.wf (.completionWrite (.ring 128) 0 false 0) = false ∧ Instr.wf (.completionWrite (.replay 0) 0 false 0) = false ∧ Instr.wf (.sampleTimedApply (.ring 128) 0 0) = false ∧
    Instr.wf (.doorbellWrite 0 0 [(2 ^ 64, 0)]) = false ∧ Instr.wf (.doorbellWrite 0 0 [(2 ^ 64 - 1, 0)]) = true := by decide

theorem test_ill_formed_length (b : Bytes) (h : b.length = 65536) : Instr.wf (.nop (mb 0 b)) = false := by
  simp [Instr.wf, Args.wf, mb, h]

theorem test_ill_formed_hosts_links_and_clocks :
    Instr.wf (.modTimeExpiry 128 0) = false ∧ Instr.wf (.streamDescriptorUse 128 0) = false ∧ Instr.wf (.dmaError 128 0) = false ∧
    Instr.wf (.reassemblyTimeout 16 0 0) = false ∧ Instr.wf (.audioInStreamStop 16) = false ∧ Instr.wf (.loopLock 5 0) = false ∧
    Instr.wf (.mclkGate 4 true 0) = false ∧ Instr.wf (.agcOverloadWindow 4 [] 0) = false ∧ Instr.wf (.zoneSettled 32 0) = false ∧
    Instr.wf (.msixVectorUnmask 64) = false := by decide

theorem test_ill_formed_reception :
    Instr.wf (.afFadeStart 32) = false ∧ Instr.wf (.tapReset 4) = false ∧ Instr.wf (.probeTimeout 256) = false ∧
    Instr.wf (.motTimeout 32 0 0 0 0) = false ∧ Instr.wf (.motTimeout 0 24 0 0 0) = false ∧ Instr.wf (.motTimeout 31 23 0 0 0) = true ∧
    Instr.wf (.linkEntryAged 256) = false ∧ Instr.wf (.holdingTimeout 24 0) = false ∧ Instr.wf (.delayChangeStart 24) = false := by decide

theorem test_ill_formed_ports_panel_and_slots :
    Instr.wf (.sapGlitch 4 0) = false ∧ Instr.wf (.keyChange 16 true 0) = false ∧ Instr.wf (.plugChange 4 true 0) = false ∧
    Instr.wf (.encoderStep 2 1 0) = false ∧ Instr.wf (.encoderStep 1 2 0) = false ∧ Instr.wf (.encoderStep 1 (-1) 0) = true ∧
    Instr.wf (.schedFiring 256) = false := by decide

/-! ## The table's words -/

/-- No row of the table has bits. -/
theorem test_no_word_spells_a_command : decodeTableWord 16 0 = none ∧ State.withFetchWord base 16 0 = base := ⟨rfl, rfl⟩

/-! ## Worked examples of the manual -/

/-- Chapter 02, capability discovery over I²C: the 20 bytes of step 3. -/
theorem test_packet_of_capability_discovery :
    packetBytes ⟨0x0003, { mb 0 [9, 0, 0, 0] with tag := 0x2A }⟩ =
      [0x03, 0x00, 0x2A, 0x00, 0x04, 0x00, 0x00, 0x00, 0x00, 0x00, 0x00, 0x00, 0x00, 0x00, 0x00, 0x00, 0x09, 0x00, 0x00, 0x00] := by
  decide

/-- Chapter 02, capability discovery over I²C: the completion header at 1 900 000 000.25 s. -/
theorem test_completion_of_capability_discovery :
    (cplBytes 0x2A 0 stOk 0 (whenOf (1900000000 * secU + secU / 4)).toNat (zeros 64)).take 16 =
      [0x2A, 0x00, 0x00, 0x00, 0x00, 0x00, 0x40, 0x00, 0x00, 0x00, 0x40, 0x00, 0xB3, 0x3F, 0x71, 0x00] := by decide +kernel

/-- Chapter 02, capability discovery over I²C: the Lodestar record of a locked part, and that of an AGU7440. -/
theorem test_capability_record_of_lodestar :
    (capRecord (regState true) 0x09).take 11 = [0x09, 0x01, 0x01, 0x01, 0x01, 0x00, 0x00, 0x00, 0x03, 0x40, 0x01] ∧
    (capRecord { State.reset with part := .agu7440 } 0x09).take 6 = [0x09, 0x00, 0x01, 0x01, 0x00, 0x00] := by decide +kernel

/-- Chapter 05, choosing stages and ratio, at 3.200, 3.1872 and 3.300 GS/s; and the DAB lane of chapter 05's four aerials. -/
theorem test_stage_counts :
    stageCount 300000 3200000000 false = some 10 ∧ stageCount 300000 3300000000 false = some 10 ∧
    stageCount 24000 3200000000 false = some 14 ∧ stageCount 24000 3187200000 false = some 14 ∧
    stageCount 24000 3145728000 false = some 13 ∧ stageCount 50000000 3200000000 true = some 2 ∧
    stageCount 40000000 3200000000 true = some 3 ∧
    stageCount 2048000 3200000000 false = some 7 := by decide

/-- Chapter 05, four aerials on one DAB lane: the zone and lane words, and the span check. -/
theorem test_nco_words :
    ncoWord 200000000000 3200000000000 = 0x100000000000 ∧ ncoWord 27360000000 400000000000 = 19252888407009 ∧
    tuneOk 227360000000 200000000000 2048000 = true := by decide

/-- Chapter 17, legacy FM tune: sample 46 is the last that settles at 256 kS/s, and its span check. -/
theorem test_settle_count_of_fm_lane :
    settleCount 3200000000 256000 10 true = 46 ∧ tuneOk 94700000000 160000000000 256000 = true := by decide

/-- Chapter 17, legacy FM tune: the writes of step 3 and 4 send `LANE_SET` to lane 0 first, and hold three packets back. -/
theorem test_legacy_fm_tune :
    (match exec .fmTune ((legacyState 0x10 [0xEC, 0x71, 0x01, 0x00, 0x02]).setZones
        [(7, { Zone.reset with st := .running, freq := 160000000000 })]) with
     | .next t => (t.leg.seq.map fun c => (c.op, c.tgt)) == [(0x0404, 0x0300), (0x0405, 0x0300), (0x0502, 0x0300)] &&
         (lane t 0x0300).st == .stopped && (lane t 0x0300).use == 3
     | _ => false) = true := by decide +kernel

/-- Chapter 04, band III plus L-band: the second harmonic of LT at 2970.976 MHz folds to 229.024 MHz. -/
theorem test_fold : foldAt 3200000 2970976 = 229024 := by decide

/-- R99 with T = 12. -/
theorem test_gain_split :
    splitGain 12 30 = (0, 30) ∧ splitGain 12 12 = (0, 12) ∧ splitGain 12 11 = (1, 12) ∧ splitGain 12 (-19) = (31, 12) ∧
    splitGain 12 (-20) = (31, 11) ∧ splitGain 12 (-31) = (31, 0) := by decide

/-- Chapter 09, slot compaction: `IN_MASK` 0x00B5 selects 5 slots and 0x00F0 selects 4. -/
theorem test_slot_compaction : activeSlots 0x00B5 = 5 ∧ activeSlots 0x00F0 = 4 := by decide

/-- R34 and Table 2-11: one tick is 312.5 µs, 3200 of them are a second, and WHEN counts 2⁻²⁴ s. -/
theorem test_time_units : tickU * 3200 = secU ∧ whenU * 2 ^ 24 = secU := by decide

/-! ## Single steps -/

/-- R45, R46: a malformed packet halts its ring and leaves no command in flight. -/
theorem test_malformed_ring_packet :
    (match exec (.identify (rg 0 [1])) ringState with
     | .next t => ((mget t.rings 0).map (·.halted)) == some true && t.cmds.list.isEmpty && t.vlog.total == 1
     | _ => false) = true := by decide +kernel

/-- R44, step 7: `DETAIL` is the offset of the reserved field, bytes 1–3, from the start of the packet (Table 2-4). -/
theorem test_reserved_byte_is_refused :
    (match exec (.selftestRun (mb 0x0C00 [1, 0, 0, 7])) base with
     | .next t => (t.mbx.queue.map fun e => (le e.bytes 2 2, le e.bytes 4 2)) == [(stBadParam, 17)]
     | _ => false) = true := by decide +kernel

/-- R40: a `NOP` makes no completion. -/
theorem test_nop : (match exec (.nop (mb 0 [])) base with
     | .next t => t.mbx.queue.isEmpty && t.cmds.completed == base.cmds.completed
     | _ => false) = true := by decide +kernel

/-- R25: two alike occurrences are one window with count 2; another detail has its own. -/
theorem test_coalescing :
    ((raise (raise (raise base 0x0003 5 6) 0x0003 5 6) 0x0003 5 7).ev.windows.map (·.count)) = [2, 1] := by decide +kernel

/-- R313: a stop that has ramped down deasserts PA_EN. -/
theorem test_stop_complete :
    (match exec (.txStopComplete 0) (txState { (txOn .ready 0) with stopping := true, paEn := true, stopAt := 0 }) with
     | .next t => !t.tx.paEn && !t.tx.stopping
     | _ => false) = true := by decide +kernel

/-- Table 13-3, 0x04: the watchdog halts the cores, and no command is taken after it. -/
theorem test_watchdog :
    (match exec (.watchdogExpiry 0) base with
     | .next t => t.pol.halted && t.pol.safe && t.pol.safeCause == 4 && t.tx.st == .held &&
         (match exec (.identify (mb 0 [])) t with
          | .next u => u == t
          | _ => false)
     | _ => false) = true := by decide +kernel

end Sys2Proof.Tests
end

section
/-! The proofs about the system commands of group 0x00, `NOP`, the three reads and `CMD_ABORT` (O1). -/

namespace Sys2Proof.Machine

/-! ## A host command that is ready and completes -/

/-- A host command that is ready ends with the outcome that its owning island gives at once. -/
theorem exec_done {i : Instr} {sp : CmdSpec} {a : Args} {s q : State} {st d : Nat} {r : Bytes}
    (hi : hostCommand i = some (sp, a)) (hr : ready sp a s = true)
    (hu : sp.unit (cmdOf sp a) (taken sp a s) = .done st d r q) :
    exec i s = .next (answer sp a s st d r q) := by
  rw [exec_host s hi, submit_done hr hu]

/-! ## NOP (R40, R45) -/

theorem exec_nop (a : Args) (s : State) :
    exec (.nop a) s =
      .next (if channelOpen s a.origin && badLen a.origin a.payload.length then malformed ⟨0, a⟩ s else s) := rfl

theorem exec_nop_of_skipped {a : Args} {s : State}
    (h : channelOpen s a.origin = false ∨ badLen a.origin a.payload.length = false) :
    exec (.nop a) s = .next s := by
  rcases h with hclosed | hlen
  · simp [exec_nop, hclosed]
  · simp [exec_nop, hlen]

theorem exec_nop_of_badLen {a : Args} {s : State} (ho : channelOpen s a.origin = true)
    (hb : badLen a.origin a.payload.length = true) : exec (.nop a) s = .next (malformed ⟨0, a⟩ s) := by
  simp [exec_nop, ho, hb]

/-! ## What the reads see of a state in which their packet has been taken -/

/-- Bytes 0–5 of page 0x00 (Table 17-19) depend on nothing but the part; the later ones count commands and events. -/
theorem page0_take_six (s : State) :
    (page0 s).take 6 = leBytes 2 0x4843 ++ leBytes 2 s.part.id ++ [0xB1, 0x01] := rfl

theorem runningBuild_of_fw {s t : State} (h : t.fw = s.fw) : runningBuild t = runningBuild s := by
  simp [runningBuild, h]

@[simp] theorem identifyResult_taken (sp : CmdSpec) (a : Args) (s : State) :
    identifyResult (taken sp a s) = identifyResult s := by
  have hbuild : runningBuild (taken sp a s) = runningBuild s := runningBuild_of_fw (by simp)
  simp [identifyResult, page0_take_six, hbuild]

@[simp] theorem capRecord_taken (sp : CmdSpec) (a : Args) (s : State) (unit : Nat) :
    capRecord (taken sp a s) unit = capRecord s unit := by
  simp [capRecord, unitFields]

@[simp] theorem capsResult_taken (sp : CmdSpec) (a : Args) (s : State) (unit : Nat) :
    capsResult (taken sp a s) unit = capsResult s unit := by
  simp [capsResult]

/-! ## The three reads (R67, Tables 17-17 and 17-18) -/

theorem exec_identify_of_ready {a : Args} {s : State} (h : ready identifySpec a s = true) :
    exec (.identify a) s = .next (answer identifySpec a s stOk 0 (identifyResult s) (taken identifySpec a s)) := by
  have hunit : identifySpec.unit (cmdOf identifySpec a) (taken identifySpec a s) =
      .done stOk 0 (identifyResult (taken identifySpec a s)) (taken identifySpec a s) := rfl
  rw [identifyResult_taken] at hunit
  exact exec_done rfl h hunit

theorem exec_getStatus_of_ready {a : Args} {s : State} (h : ready getStatusSpec a s = true) :
    exec (.getStatus a) s =
      .next (answer getStatusSpec a s stOk 0 (statusResult (taken getStatusSpec a s)) (taken getStatusSpec a s)) :=
  exec_done rfl h rfl

theorem exec_getCaps_of_ready {a : Args} {s : State} (h : ready getCapsSpec a s = true) :
    exec (.getCaps a) s =
      .next (answer getCapsSpec a s stOk 0 (capsResult s (byteAt a.payload 0)) (taken getCapsSpec a s)) := by
  have hunit : getCapsSpec.unit (cmdOf getCapsSpec a) (taken getCapsSpec a s) =
      .done stOk 0 (capsResult (taken getCapsSpec a s) (byteAt a.payload 0)) (taken getCapsSpec a s) := rfl
  rw [capsResult_taken] at hunit
  exact exec_done rfl h hunit

/-! ## CMD_ABORT (R48, Table 2-6) -/

section Abort

variable {c : Cmd} {s q : State} {f : InFlight}

theorem cmdAbortUnit_of_not_executing (hf : byTag s (abortOrigin c.pl) (le c.pl 2 2) = some f)
    (hp : f.phase ≠ .executing) : cmdAbortUnit c s = .done stOk 0 [] (abortFlight s f) := by
  simp [cmdAbortUnit, hf, hp, ok]

theorem cmdAbortUnit_of_executing (hf : byTag s (abortOrigin c.pl) (le c.pl 2 2) = some f)
    (hp : f.phase = .executing) (hq : abortExecuting s f = some q) :
    cmdAbortUnit c s = .done stOk 0 [] (complete q f stAbortedHost 0 [] q.sid.now s.ev.nextId) := by
  simp [cmdAbortUnit, hf, hp, hq, ok]

variable {a : Args}

theorem exec_cmdAbort_of_not_executing (h : ready cmdAbortSpec a s = true)
    (hf : byTag (taken cmdAbortSpec a s) (abortOrigin a.payload) (le a.payload 2 2) = some f)
    (hp : f.phase ≠ .executing) :
    exec (.cmdAbort a) s = .next (answer cmdAbortSpec a s stOk 0 [] (abortFlight (taken cmdAbortSpec a s) f)) :=
  exec_done rfl h (cmdAbortUnit_of_not_executing hf hp)

theorem exec_cmdAbort_of_executing (h : ready cmdAbortSpec a s = true)
    (hf : byTag (taken cmdAbortSpec a s) (abortOrigin a.payload) (le a.payload 2 2) = some f)
    (hp : f.phase = .executing) (hq : abortExecuting (taken cmdAbortSpec a s) f = some q) :
    exec (.cmdAbort a) s =
      .next (answer cmdAbortSpec a s stOk 0 [] (complete q f stAbortedHost 0 [] q.sid.now s.ev.nextId)) := by
  have hev : (taken cmdAbortSpec a s).ev = s.ev := by simp
  rw [← hev]
  exact exec_done rfl h (cmdAbortUnit_of_executing hf hp hq)

end Abort

/-! ## The obligation -/

/-- Settles O1, from one rule per command: what the packet's taking changes is nothing that a read reports, so each command
ends as its unit answers. -/
theorem systemCommandsComplete : Obligations.SystemCommandsComplete := by
  unfold Obligations.SystemCommandsComplete
  intro a s
  exact ⟨exec_nop_of_skipped, exec_nop_of_badLen, exec_identify_of_ready, exec_getStatus_of_ready,
    exec_getCaps_of_ready, fun _ => exec_cmdAbort_of_not_executing, fun _ _ => exec_cmdAbort_of_executing⟩

end Sys2Proof.Machine
end

section
/-! The proof about what each row of the table may change (O56). Laws/Keeps<Family>.lean says of every row's operation which units
it may change; here those sets are compared with the lists of `mayChange`. -/

namespace Sys2Proof.Machine

/-! ## A set of units within a list -/

/-- The units of a set that are left when those of a list are taken out of it. -/
def leftOver : Nat → List Field → Nat
  | m, [] => m
  | m, f :: l => leftOver (m &&& ((2 ^ 41 - 1) ^^^ 2 ^ f.idx)) l

theorem Field.idx_lt (f : Field) : f.idx < 41 := by cases f <;> decide

theorem Field.idx_inj {f g : Field} (h : f.idx = g.idx) : f = g := by
  rw [← Field.ofNat_ctorIdx f, ← Field.ofNat_ctorIdx g]
  exact congrArg _ h

theorem testBit_leftOver {l : List Field} {f : Field} (h : f ∉ l) (m : Nat) :
    (leftOver m l).testBit f.idx = m.testBit f.idx := by
  induction l generalizing m with
  | nil => rfl
  | cons g l ih =>
    simp only [List.mem_cons, not_or] at h
    have hne : g.idx ≠ f.idx := fun e => h.1 (Field.idx_inj e).symm
    rw [leftOver, ih h.2, Nat.testBit_and, Nat.testBit_xor, Nat.testBit_two_pow_sub_one, Nat.testBit_two_pow]
    simp [f.idx_lt, hne]

/-- A set of which a list leaves nothing lies within the list. -/
theorem Keeps.onlyChanges {m : Nat} {l : List Field} {s t : State} (h : Keeps m s t) (hl : leftOver m l = 0) :
    onlyChanges l s t := fun f hf => h.same f <| by
  rw [← testBit_leftOver hf, hl, Nat.zero_testBit]

theorem NextKeeps.onlyChanges {m : Nat} {l : List Field} {s t : State} {o : Host.Outcome State Fault Refusal}
    (h : NextKeeps m s o) (hl : leftOver m l = 0) (ht : o = .next t) : Machine.onlyChanges l s t :=
  (h.out t ht).onlyChanges hl

/-! ## Every row -/

/-- The row of a host command changes the units of its command and those that taking a packet may change. -/
theorem exec_host_onlyChanges {i : Instr} {sp : CmdSpec} {a : Args} {k : Nat} {s t : State}
    (hc : hostCommand i = some (sp, a)) (hsp : CmdSpec.Keeps k sp) (hl : leftOver (hostSet ||| k) (mayChange i) = 0)
    (ht : exec i s = .next t) : onlyChanges (mayChange i) s t :=
  (exec_host_keeps hc hsp ht).onlyChanges hl

/-- Every row changes at most the units listed for it. -/
theorem exec_onlyChanges {i : Instr} {s t : State} (h : exec i s = .next t) : onlyChanges (mayChange i) s t := by
  have start (m : Nat) : Keeps m s s := .refl m s
  cases i with
  | nop _ => exact (execNop_keeps (start _) (Sub.refl _)).onlyChanges rfl h
  | identify a => exact exec_host_onlyChanges rfl identifySpec_keeps rfl h
  | getStatus a => exact exec_host_onlyChanges rfl getStatusSpec_keeps rfl h
  | getCaps a => exact exec_host_onlyChanges rfl getCapsSpec_keeps rfl h
  | cmdAbort a => exact exec_host_onlyChanges rfl cmdAbortSpec_keeps rfl h
  | pwrStateSet a => exact exec_host_onlyChanges rfl pwrStateSetSpec_keeps rfl h
  | pwrGet a => exact exec_host_onlyChanges rfl pwrGetSpec_keeps rfl h
  | pwrLimitSet a => exact exec_host_onlyChanges rfl pwrLimitSetSpec_keeps rfl h
  | ringCreate a => exact exec_host_onlyChanges rfl ringCreateSpec_keeps rfl h
  | ringDestroy a => exact exec_host_onlyChanges rfl ringDestroySpec_keeps rfl h
  | ringReset a => exact exec_host_onlyChanges rfl ringResetSpec_keeps rfl h
  | winSet a => exact exec_host_onlyChanges rfl winSetSpec_keeps rfl h
  | eventWindowSet a => exact exec_host_onlyChanges rfl eventWindowSetSpec_keeps rfl h
  | refSet a => exact exec_host_onlyChanges rfl refSetSpec_keeps rfl h
  | lockSet a => exact exec_host_onlyChanges rfl lockSetSpec_keeps rfl h
  | mclkSet a => exact exec_host_onlyChanges rfl mclkSetSpec_keeps rfl h
  | refoutSet a => exact exec_host_onlyChanges rfl refoutSetSpec_keeps rfl h
  | ppsoutSet a => exact exec_host_onlyChanges rfl ppsoutSetSpec_keeps rfl h
  | clockGet a => exact exec_host_onlyChanges rfl clockGetSpec_keeps rfl h
  | auroraSet a => exact exec_host_onlyChanges rfl auroraSetSpec_keeps rfl h
  | auroraRun a => exact exec_host_onlyChanges rfl auroraRunSpec_keeps rfl h
  | auroraGet a => exact exec_host_onlyChanges rfl auroraGetSpec_keeps rfl h
  | antSet a => exact exec_host_onlyChanges rfl antSetSpec_keeps rfl h
  | biasSet a => exact exec_host_onlyChanges rfl biasSetSpec_keeps rfl h
  | rfCal a => exact exec_host_onlyChanges rfl rfCalSpec_keeps rfl h
  | rfStatusGet a => exact exec_host_onlyChanges rfl rfStatusGetSpec_keeps rfl h
  | blankSet a => exact exec_host_onlyChanges rfl blankSetSpec_keeps rfl h
  | divSet a => exact exec_host_onlyChanges rfl divSetSpec_keeps rfl h
  | zoneTune a => exact exec_host_onlyChanges rfl zoneTuneSpec_keeps rfl h
  | zoneGet a => exact exec_host_onlyChanges rfl zoneGetSpec_keeps rfl h
  | laneSet a => exact exec_host_onlyChanges rfl laneSetSpec_keeps rfl h
  | laneTune a => exact exec_host_onlyChanges rfl laneTuneSpec_keeps rfl h
  | laneStart a => exact exec_host_onlyChanges rfl laneStartSpec_keeps rfl h
  | laneStop a => exact exec_host_onlyChanges rfl laneStopSpec_keeps rfl h
  | laneSync a => exact exec_host_onlyChanges rfl laneSyncSpec_keeps rfl h
  | laneStream a => exact exec_host_onlyChanges rfl laneStreamSpec_keeps rfl h
  | laneGet a => exact exec_host_onlyChanges rfl laneGetSpec_keeps rfl h
  | amSet a => exact exec_host_onlyChanges rfl amSetSpec_keeps rfl h
  | fmSet a => exact exec_host_onlyChanges rfl fmSetSpec_keeps rfl h
  | qualityGet a => exact exec_host_onlyChanges rfl qualityGetSpec_keeps rfl h
  | rdsStream a => exact exec_host_onlyChanges rfl rdsStreamSpec_keeps rfl h
  | rdsGet a => exact exec_host_onlyChanges rfl rdsGetSpec_keeps rfl h
  | flurrySet a => exact exec_host_onlyChanges rfl flurrySetSpec_keeps rfl h
  | tapSet a => exact exec_host_onlyChanges rfl tapSetSpec_keeps rfl h
  | flakeAssign a => exact exec_host_onlyChanges rfl flakeAssignSpec_keeps rfl h
  | flakeRelease a => exact exec_host_onlyChanges rfl flakeReleaseSpec_keeps rfl h
  | flakeGet a => exact exec_host_onlyChanges rfl flakeGetSpec_keeps rfl h
  | censusGet a => exact exec_host_onlyChanges rfl censusGetSpec_keeps rfl h
  | afSet a => exact exec_host_onlyChanges rfl afSetSpec_keeps rfl h
  | ofdmSet a => exact exec_host_onlyChanges rfl ofdmSetSpec_keeps rfl h
  | ensembleGet a => exact exec_host_onlyChanges rfl ensembleGetSpec_keeps rfl h
  | serviceListGet a => exact exec_host_onlyChanges rfl serviceListGetSpec_keeps rfl h
  | serviceStart a => exact exec_host_onlyChanges rfl serviceStartSpec_keeps rfl h
  | serviceStop a => exact exec_host_onlyChanges rfl serviceStopSpec_keeps rfl h
  | ofdmQualityGet a => exact exec_host_onlyChanges rfl ofdmQualityGetSpec_keeps rfl h
  | ficStream a => exact exec_host_onlyChanges rfl ficStreamSpec_keeps rfl h
  | padStream a => exact exec_host_onlyChanges rfl padStreamSpec_keeps rfl h
  | subchStream a => exact exec_host_onlyChanges rfl subchStreamSpec_keeps rfl h
  | surveySet a => exact exec_host_onlyChanges rfl surveySetSpec_keeps rfl h
  | tiiGet a => exact exec_host_onlyChanges rfl tiiGetSpec_keeps rfl h
  | linkAdd a => exact exec_host_onlyChanges rfl linkAddSpec_keeps rfl h
  | linkRemove a => exact exec_host_onlyChanges rfl linkRemoveSpec_keeps rfl h
  | linkGet a => exact exec_host_onlyChanges rfl linkGetSpec_keeps rfl h
  | linkConfig a => exact exec_host_onlyChanges rfl linkConfigSpec_keeps rfl h
  | blendSet a => exact exec_host_onlyChanges rfl blendSetSpec_keeps rfl h
  | followSet a => exact exec_host_onlyChanges rfl followSetSpec_keeps rfl h
  | blendNow a => exact exec_host_onlyChanges rfl blendNowSpec_keeps rfl h
  | followGet a => exact exec_host_onlyChanges rfl followGetSpec_keeps rfl h
  | eqLoad a => exact exec_host_onlyChanges rfl eqLoadSpec_keeps rfl h
  | eqSwapBank a => exact exec_host_onlyChanges rfl eqSwapSpec_keeps rfl h
  | tshiftSet a => exact exec_host_onlyChanges rfl tshiftSetSpec_keeps rfl h
  | tshiftRead a => exact exec_host_onlyChanges rfl tshiftReadSpec_keeps rfl h
  | sapSet a => exact exec_host_onlyChanges rfl sapSetSpec_keeps rfl h
  | sapRoute a => exact exec_host_onlyChanges rfl sapRouteSpec_keeps rfl h
  | sapMaskSet a => exact exec_host_onlyChanges rfl sapMaskSetSpec_keeps rfl h
  | sapStream a => exact exec_host_onlyChanges rfl sapStreamSpec_keeps rfl h
  | sapGet a => exact exec_host_onlyChanges rfl sapGetSpec_keeps rfl h
  | txTune a => exact exec_host_onlyChanges rfl txTuneSpec_keeps rfl h
  | txStart a => exact exec_host_onlyChanges rfl txStartSpec_keeps rfl h
  | txStop a => exact exec_host_onlyChanges rfl txStopSpec_keeps rfl h
  | txLevelSet a => exact exec_host_onlyChanges rfl txLevelSetSpec_keeps rfl h
  | txFmSet a => exact exec_host_onlyChanges rfl txFmSetSpec_keeps rfl h
  | txDabSet a => exact exec_host_onlyChanges rfl txDabSetSpec_keeps rfl h
  | txBreakinSet a => exact exec_host_onlyChanges rfl txBreakinSetSpec_keeps rfl h
  | txBreakin a => exact exec_host_onlyChanges rfl txBreakinSpec_keeps rfl h
  | txGet a => exact exec_host_onlyChanges rfl txGetSpec_keeps rfl h
  | regLoad a => exact exec_host_onlyChanges rfl regLoadSpec_keeps rfl h
  | regCommit a => exact exec_host_onlyChanges rfl regCommitSpec_keeps rfl h
  | regLock a => exact exec_host_onlyChanges rfl regLockSpec_keeps rfl h
  | regGet a => exact exec_host_onlyChanges rfl regGetSpec_keeps rfl h
  | coexSet a => exact exec_host_onlyChanges rfl coexSetSpec_keeps rfl h
  | txSfnSet a => exact exec_host_onlyChanges rfl txSfnSetSpec_keeps rfl h
  | txMonGet a => exact exec_host_onlyChanges rfl txMonGetSpec_keeps rfl h
  | timeSrcSet a => exact exec_host_onlyChanges rfl timeSrcSetSpec_keeps rfl h
  | ptpSet a => exact exec_host_onlyChanges rfl ptpSetSpec_keeps rfl h
  | timeSet a => exact exec_host_onlyChanges rfl timeSetSpec_keeps rfl h
  | timeAcceptStep a => exact exec_host_onlyChanges rfl timeAcceptStepSpec_keeps rfl h
  | timeAdjust a => exact exec_host_onlyChanges rfl timeAdjustSpec_keeps rfl h
  | timeGet a => exact exec_host_onlyChanges rfl timeGetSpec_keeps rfl h
  | schedAdd a => exact exec_host_onlyChanges rfl schedAddSpec_keeps rfl h
  | schedCancel a => exact exec_host_onlyChanges rfl schedCancelSpec_keeps rfl h
  | schedGet a => exact exec_host_onlyChanges rfl schedGetSpec_keeps rfl h
  | firnArm a => exact exec_host_onlyChanges rfl firnArmSpec_keeps rfl h
  | firnTrigger a => exact exec_host_onlyChanges rfl firnTriggerSpec_keeps rfl h
  | firnDisarm a => exact exec_host_onlyChanges rfl firnDisarmSpec_keeps rfl h
  | firnStream a => exact exec_host_onlyChanges rfl firnStreamSpec_keeps rfl h
  | firnLoad a => exact exec_host_onlyChanges rfl firnLoadSpec_keeps rfl h
  | firnReplay a => exact exec_host_onlyChanges rfl firnReplaySpec_keeps rfl h
  | firnGet a => exact exec_host_onlyChanges rfl firnGetSpec_keeps rfl h
  | polarisSet a => exact exec_host_onlyChanges rfl polarisSetSpec_keeps rfl h
  | polarisGet a => exact exec_host_onlyChanges rfl polarisGetSpec_keeps rfl h
  | alertClear a => exact exec_host_onlyChanges rfl alertClearSpec_keeps rfl h
  | safeRelease a => exact exec_host_onlyChanges rfl safeReleaseSpec_keeps rfl h
  | selftestRun a => exact exec_host_onlyChanges rfl selftestRunSpec_keeps rfl h
  | panelSet a => exact exec_host_onlyChanges rfl panelSetSpec_keeps rfl h
  | panelGet a => exact exec_host_onlyChanges rfl panelGetSpec_keeps rfl h
  | ethSet a => exact exec_host_onlyChanges rfl ethSetSpec_keeps rfl h
  | udpStreamSet a => exact exec_host_onlyChanges rfl udpStreamSetSpec_keeps rfl h
  | ethGet a => exact exec_host_onlyChanges rfl ethGetSpec_keeps rfl h
  | pcieGet a => exact exec_host_onlyChanges rfl pcieGetSpec_keeps rfl h
  | fwBegin a => exact exec_host_onlyChanges rfl fwBeginSpec_keeps rfl h
  | fwWrite a => exact exec_host_onlyChanges rfl fwWriteSpec_keeps rfl h
  | fwFinish a => exact exec_host_onlyChanges rfl fwFinishSpec_keeps rfl h
  | fwStatus a => exact exec_host_onlyChanges rfl fwStatusSpec_keeps rfl h
  | devReset a => exact exec_host_onlyChanges rfl devResetSpec_keeps rfl h
  | g1Identify => exact (execG1Identify_keeps (start _) (Sub.refl _)).onlyChanges rfl h
  | g1GetStatus => exact (execG1GetStatus_keeps (start _) (Sub.refl _)).onlyChanges rfl h
  | g1GetCaps => exact (execG1GetCaps_keeps (start _) (Sub.refl _)).onlyChanges rfl h
  | fmTune => exact (execFmTune_keeps (start _) (Sub.refl _)).onlyChanges rfl h
  | amTune => exact (execAmTune_keeps (start _) (Sub.refl _)).onlyChanges rfl h
  | dabTune => exact (execDabTune_keeps (start _) (Sub.refl _)).onlyChanges rfl h
  | drmTune => exact (execDrmTune_keeps (start _) (Sub.refl _)).onlyChanges rfl h
  | rxStop => exact (execRxStop_keeps (start _) (Sub.refl _)).onlyChanges rfl h
  | fmConfig => exact (execFmConfig_keeps (start _) (Sub.refl _)).onlyChanges rfl h
  | amConfig => exact (execAmConfig_keeps (start _) (Sub.refl _)).onlyChanges rfl h
  | signalRead => exact (execSignalRead_keeps (start _) (Sub.refl _)).onlyChanges rfl h
  | rdsRead => exact (execRdsRead_keeps (start _) (Sub.refl _)).onlyChanges rfl h
  | ensembleRead => exact (execEnsembleRead_keeps (start _) (Sub.refl _)).onlyChanges rfl h
  | serviceListRead => exact (execServiceListRead_keeps (start _) (Sub.refl _)).onlyChanges rfl h
  | servicePlay => exact (execServicePlay_keeps (start _) (Sub.refl _)).onlyChanges rfl h
  | serviceHalt => exact (execServiceHalt_keeps (start _) (Sub.refl _)).onlyChanges rfl h
  | g1UndefinedCode => exact (execG1UndefinedCode_keeps (start _) (Sub.refl _)).onlyChanges rfl h
  | go _ => exact (execGo_keeps (start _) (Sub.refl _)).onlyChanges rfl h
  | mailboxCopy => exact (execMailboxCopy_keeps (start _) (Sub.refl _)).onlyChanges rfl h
  | cplPop _ => exact (execCplPop_keeps (start _) (Sub.refl _)).onlyChanges rfl h
  | overflowClear _ => exact (execOverflowClear_keeps (start _) (Sub.refl _)).onlyChanges rfl h
  | owner _ _ => exact (execOwner_keeps (start _) (Sub.refl _)).onlyChanges rfl h
  | vlogClear link => exact (execVlogClear_keeps (a1 := link) (start _) (Sub.refl _)).onlyChanges rfl h
  | pageSel _ => exact (execPageSel_keeps (start _) (Sub.refl _)).onlyChanges rfl h
  | legEn _ _ => exact (execLegEn_keeps (start _) (Sub.refl _)).onlyChanges rfl h
  | ctrlFailClear _ => exact (execCtrlFailClear_keeps (start _) (Sub.refl _)).onlyChanges rfl h
  | doorbellWrite _ _ _ => exact (execDoorbellWrite_keeps (start _) (Sub.refl _)).onlyChanges rfl h
  | registerWrite _ _ _ _ => exact (execRegisterWrite_keeps (start _) (Sub.refl _)).onlyChanges rfl h
  | bar0InvalidAccess write _ size =>
    exact (execBar0InvalidAccess_keeps (a1 := write) (a3 := size) (start _) (Sub.refl _)).onlyChanges rfl h
  | i2cStart => exact (execI2cStart_keeps (start _) (Sub.refl _)).onlyChanges rfl h
  | i2cAddress _ => exact (execI2cAddress_keeps (start _) (Sub.refl _)).onlyChanges rfl h
  | i2cStop => exact (execI2cStop_keeps (start _) (Sub.refl _)).onlyChanges rfl h
  | i2cRepeatedStart => exact (execI2cRepeatedStart_keeps (start _) (Sub.refl _)).onlyChanges rfl h
  | i2cControllerNack => exact (execI2cControllerNack_keeps (start _) (Sub.refl _)).onlyChanges rfl h
  | i2cWakeAddressMatch _ _ => exact (execI2cWakeAddressMatch_keeps (start _) (Sub.refl _)).onlyChanges rfl h
  | evBusStuck _ => exact (execEvBusStuck_keeps (start _) (Sub.refl _)).onlyChanges rfl h
  | inBandRequest => exact (execInBandRequest_keeps (start _) (Sub.refl _)).onlyChanges rfl h
  | ibrCollision => exact (execIbrCollision_keeps (start _) (Sub.refl _)).onlyChanges rfl h
  | controllerWrite _ => exact (execControllerWrite_keeps (start _) (Sub.refl _)).onlyChanges rfl h
  | tick _ => exact (execTick_keeps (start _) (Sub.refl _)).onlyChanges rfl h
  | completionWrite _ _ _ _ => exact (execCompletionWrite_keeps (start _) (Sub.refl _)).onlyChanges rfl h
  | completionRingSpace _ => exact (execCompletionRingSpace_keeps (start _) (Sub.refl _)).onlyChanges rfl h
  | eventWindowClose => exact (execEventWindowClose_keeps (start _) (Sub.refl _)).onlyChanges rfl h
  | urgentEventPost => exact (execUrgentEventPost_keeps (start _) (Sub.refl _)).onlyChanges rfl h
  | msixInterrupt _ => exact (execMsixInterrupt_keeps (start _) (Sub.refl _)).onlyChanges rfl h
  | modTimeExpiry _ _ => exact (execModTimeExpiry_keeps (start _) (Sub.refl _)).onlyChanges rfl h
  | mailboxVector => exact (execMailboxVector_keeps (start _) (Sub.refl _)).onlyChanges rfl h
  | irqNUpdate => exact (execIrqNUpdate_keeps (start _) (Sub.refl _)).onlyChanges rfl h
  | streamDescriptorUse _ _ => exact (execStreamDescriptorUse_keeps (start _) (Sub.refl _)).onlyChanges rfl h
  | dmaError _ _ => exact (execDmaError_keeps (start _) (Sub.refl _)).onlyChanges rfl h
  | pcieIslandReset _ _ => exact (execPcieIslandReset_keeps (start _) (Sub.refl _)).onlyChanges rfl h
  | pcieLinkUp _ _ _ => exact (execPcieLinkUp_keeps (start _) (Sub.refl _)).onlyChanges rfl h
  | pcieD3hot _ => exact (execPcieD3hot_keeps (start _) (Sub.refl _)).onlyChanges rfl h
  | sgmiiLinkChange _ _ _ => exact (execSgmiiLinkChange_keeps (start _) (Sub.refl _)).onlyChanges rfl h
  | ptpMessage _ _ => exact (execPtpMessage_keeps (start _) (Sub.refl _)).onlyChanges rfl h
  | ptpBmcaRoleChange _ _ _ _ => exact (execPtpBmcaRoleChange_keeps (start _) (Sub.refl _)).onlyChanges rfl h
  | udpDatagram _ _ => exact (execUdpDatagram_keeps (start _) (Sub.refl _)).onlyChanges rfl h
  | reassemblyTimeout _ _ _ => exact (execReassemblyTimeout_keeps (start _) (Sub.refl _)).onlyChanges rfl h
  | audioInStreamStop _ => exact (execAudioInStreamStop_keeps (start _) (Sub.refl _)).onlyChanges rfl h
  | audioOutDatagram _ _ => exact (execAudioOutDatagram_keeps (start _) (Sub.refl _)).onlyChanges rfl h
  | sfnFramePacketSend _ _ => exact (execSfnFramePacketSend_keeps (start _) (Sub.refl _)).onlyChanges rfl h
  | powerOn _ _ => exact (execPowerOn_keeps (start _) (Sub.refl _)).onlyChanges rfl h
  | resetN _ _ => exact (execResetN_keeps (start _) (Sub.refl _)).onlyChanges rfl h
  | vinReset _ _ => exact (execVinReset_keeps (start _) (Sub.refl _)).onlyChanges rfl h
  | bringUp _ _ => exact (execBringUp_keeps (start _) (Sub.refl _)).onlyChanges rfl h
  | bringupStepComplete _ _ => exact (execBringupStepComplete_keeps (start _) (Sub.refl _)).onlyChanges rfl h
  | evBrownoutWarn _ _ _ => exact (execEvBrownoutWarn_keeps (start _) (Sub.refl _)).onlyChanges rfl h
  | brownoutRecovery _ _ => exact (execBrownoutRecovery_keeps (start _) (Sub.refl _)).onlyChanges rfl h
  | frostEntryComplete _ => exact (execFrostEntryComplete_keeps (start _) (Sub.refl _)).onlyChanges rfl h
  | frostExit _ => exact (execFrostExit_keeps (start _) (Sub.refl _)).onlyChanges rfl h
  | permafrostEntry => exact (execPermafrostEntry_keeps (start _) (Sub.refl _)).onlyChanges rfl h
  | wakeN _ _ _ => exact (execWakeN_keeps (start _) (Sub.refl _)).onlyChanges rfl h
  | wakeTimerExpiry => exact (execWakeTimerExpiry_keeps (start _) (Sub.refl _)).onlyChanges rfl h
  | avalancheEntryComplete _ => exact (execAvalancheEntryComplete_keeps (start _) (Sub.refl _)).onlyChanges rfl h
  | avalancheExitComplete _ => exact (execAvalancheExitComplete_keeps (start _) (Sub.refl _)).onlyChanges rfl h
  | boostUnitBegin => exact (execBoostUnitBegin_keeps (start _) (Sub.refl _)).onlyChanges rfl h
  | thermalGovernorCheck => exact (execThermalGovernorCheck_keeps (start _) (Sub.refl _)).onlyChanges rfl h
  | powerLimitCheck => exact (execPowerLimitCheck_keeps (start _) (Sub.refl _)).onlyChanges rfl h
  | thermalShutdown _ => exact (execThermalShutdown_keeps (start _) (Sub.refl _)).onlyChanges rfl h
  | fwEraseComplete => exact (execFwEraseComplete_keeps (start _) (Sub.refl _)).onlyChanges rfl h
  | fwProgramComplete => exact (execFwProgramComplete_keeps (start _) (Sub.refl _)).onlyChanges rfl h
  | fwVerifyComplete _ _ => exact (execFwVerifyComplete_keeps (start _) (Sub.refl _)).onlyChanges rfl h
  | fwMarkerComplete _ => exact (execFwMarkerComplete_keeps (start _) (Sub.refl _)).onlyChanges rfl h
  | regCommitComplete _ _ => exact (execRegCommitComplete_keeps (start _) (Sub.refl _)).onlyChanges rfl h
  | regTableTakesEffect => exact (execRegTableTakesEffect_keeps (start _) (Sub.refl _)).onlyChanges rfl h
  | referenceLoss _ => exact (execReferenceLoss_keeps (start _) (Sub.refl _)).onlyChanges rfl h
  | referenceGlitch _ => exact (execReferenceGlitch_keeps (start _) (Sub.refl _)).onlyChanges rfl h
  | frequencyJump _ _ => exact (execFrequencyJump_keeps (start _) (Sub.refl _)).onlyChanges rfl h
  | referenceReturn => exact (execReferenceReturn_keeps (start _) (Sub.refl _)).onlyChanges rfl h
  | qualificationComplete => exact (execQualificationComplete_keeps (start _) (Sub.refl _)).onlyChanges rfl h
  | frequencyAcquisitionComplete _ => exact (execFrequencyAcquisitionComplete_keeps (start _) (Sub.refl _)).onlyChanges rfl h
  | buildOutLock _ _ => exact (execBuildOutLock_keeps (start _) (Sub.refl _)).onlyChanges rfl h
  | loopLock _ _ => exact (execLoopLock_keeps (start _) (Sub.refl _)).onlyChanges rfl h
  | loopUnlock _ _ => exact (execLoopUnlock_keeps (start _) (Sub.refl _)).onlyChanges rfl h
  | audioChannelPowerDown _ => exact (execAudioChannelPowerDown_keeps (start _) (Sub.refl _)).onlyChanges rfl h
  | mclkGate _ _ _ => exact (execMclkGate_keeps (start _) (Sub.refl _)).onlyChanges rfl h
  | ppsOutPulse _ _ => exact (execPpsOutPulse_keeps (start _) (Sub.refl _)).onlyChanges rfl h
  | agcOverloadWindow _ _ _ => exact (execAgcOverloadWindow_keeps (start _) (Sub.refl _)).onlyChanges rfl h
  | overloadPersists _ => exact (execOverloadPersists_keeps (start _) (Sub.refl _)).onlyChanges rfl h
  | biasFault _ _ _ => exact (execBiasFault_keeps (start _) (Sub.refl _)).onlyChanges rfl h
  | biasRetry _ => exact (execBiasRetry_keeps (start _) (Sub.refl _)).onlyChanges rfl h
  | biasRetryRestore _ => exact (execBiasRetryRestore_keeps (start _) (Sub.refl _)).onlyChanges rfl h
  | coexBlankChange _ _ => exact (execCoexBlankChange_keeps (start _) (Sub.refl _)).onlyChanges rfl h
  | coexBlankTimeout => exact (execCoexBlankTimeout_keeps (start _) (Sub.refl _)).onlyChanges rfl h
  | foregroundCalComplete _ _ _ _ => exact (execForegroundCalComplete_keeps (start _) (Sub.refl _)).onlyChanges rfl h
  | spotCalStart _ _ => exact (execSpotCalStart_keeps (start _) (Sub.refl _)).onlyChanges rfl h
  | spotCalComplete _ _ _ _ => exact (execSpotCalComplete_keeps (start _) (Sub.refl _)).onlyChanges rfl h
  | auroraScan _ => exact (execAuroraScan_keeps (start _) (Sub.refl _)).onlyChanges rfl h
  | auroraEvaluation => exact (execAuroraEvaluation_keeps (start _) (Sub.refl _)).onlyChanges rfl h
  | slewStep _ _ => exact (execSlewStep_keeps (start _) (Sub.refl _)).onlyChanges rfl h
  | slewComplete _ => exact (execSlewComplete_keeps (start _) (Sub.refl _)).onlyChanges rfl h
  | relockStart _ => exact (execRelockStart_keeps (start _) (Sub.refl _)).onlyChanges rfl h
  | relockComplete _ => exact (execRelockComplete_keeps (start _) (Sub.refl _)).onlyChanges rfl h
  | zoneSettled _ _ => exact (execZoneSettled_keeps (start _) (Sub.refl _)).onlyChanges rfl h
  | lanePointOfEffect _ _ => exact (execLanePointOfEffect_keeps (start _) (Sub.refl _)).onlyChanges rfl h
  | laneSettled _ _ => exact (execLaneSettled_keeps (start _) (Sub.refl _)).onlyChanges rfl h
  | laneBlock _ _ _ => exact (execLaneBlock_keeps (start _) (Sub.refl _)).onlyChanges rfl h
  | laneFifoFull _ _ => exact (execLaneFifoFull_keeps (start _) (Sub.refl _)).onlyChanges rfl h
  | analogueWindowEnd _ _ _ => exact (execAnalogueWindowEnd_keeps (start _) (Sub.refl _)).onlyChanges rfl h
  | amCarrierLock _ _ => exact (execAmCarrierLock_keeps (start _) (Sub.refl _)).onlyChanges rfl h
  | pilotLock _ _ => exact (execPilotLock_keeps (start _) (Sub.refl _)).onlyChanges rfl h
  | rdsSyncAcquired _ _ _ => exact (execRdsSyncAcquired_keeps (start _) (Sub.refl _)).onlyChanges rfl h
  | rdsSyncLost _ => exact (execRdsSyncLost_keeps (start _) (Sub.refl _)).onlyChanges rfl h
  | rdsGroup _ _ _ => exact (execRdsGroup_keeps (start _) (Sub.refl _)).onlyChanges rfl h
  | census _ _ _ => exact (execCensus_keeps (start _) (Sub.refl _)).onlyChanges rfl h
  | probeTimeout _ => exact (execProbeTimeout_keeps (start _) (Sub.refl _)).onlyChanges rfl h
  | afRequest _ _ => exact (execAfRequest_keeps (start _) (Sub.refl _)).onlyChanges rfl h
  | afFadeStart _ => exact (execAfFadeStart_keeps (start _) (Sub.refl _)).onlyChanges rfl h
  | afSwitchComplete _ => exact (execAfSwitchComplete_keeps (start _) (Sub.refl _)).onlyChanges rfl h
  | afSwitchInPlace _ _ => exact (execAfSwitchInPlace_keeps (start _) (Sub.refl _)).onlyChanges rfl h
  | afSwitchAbandoned _ => exact (execAfSwitchAbandoned_keeps (start _) (Sub.refl _)).onlyChanges rfl h
  | afGotoTimeout _ => exact (execAfGotoTimeout_keeps (start _) (Sub.refl _)).onlyChanges rfl h
  | tapReset _ => exact (execTapReset_keeps (start _) (Sub.refl _)).onlyChanges rfl h
  | ofdmNullFound _ _ _ => exact (execOfdmNullFound_keeps (start _) (Sub.refl _)).onlyChanges rfl h
  | ofdmConfirmation _ _ _ _ => exact (execOfdmConfirmation_keeps (start _) (Sub.refl _)).onlyChanges rfl h
  | ofdmConfirmationFail _ => exact (execOfdmConfirmationFail_keeps (start _) (Sub.refl _)).onlyChanges rfl h
  | acquisitionTimeout _ => exact (execAcquisitionTimeout_keeps (start _) (Sub.refl _)).onlyChanges rfl h
  | fibDecoded _ _ _ _ => exact (execFibDecoded_keeps (start _) (Sub.refl _)).onlyChanges rfl h
  | facSdcDecoded _ _ _ _ => exact (execFacSdcDecoded_keeps (start _) (Sub.refl _)).onlyChanges rfl h
  | reconfiguration _ _ => exact (execReconfiguration_keeps (start _) (Sub.refl _)).onlyChanges rfl h
  | ensembleLost _ _ => exact (execEnsembleLost_keeps (start _) (Sub.refl _)).onlyChanges rfl h
  | holdoverResume _ _ => exact (execHoldoverResume_keeps (start _) (Sub.refl _)).onlyChanges rfl h
  | serviceTimeout _ _ => exact (execServiceTimeout_keeps (start _) (Sub.refl _)).onlyChanges rfl h
  | transportUnitDecoded _ _ _ _ _ _ => exact (execTransportUnitDecoded_keeps (start _) (Sub.refl _)).onlyChanges rfl h
  | dynamicLabel _ _ _ _ _ _ => exact (execDynamicLabel_keeps (start _) (Sub.refl _)).onlyChanges rfl h
  | motObject _ _ _ _ _ _ _ => exact (execMotObject_keeps (start _) (Sub.refl _)).onlyChanges rfl h
  | motTimeout _ _ _ _ _ => exact (execMotTimeout_keeps (start _) (Sub.refl _)).onlyChanges rfl h
  | drmTextMessage _ _ _ _ _ => exact (execDrmTextMessage_keeps (start _) (Sub.refl _)).onlyChanges rfl h
  | dabAlertEnd _ _ _ => exact (execDabAlertEnd_keeps (start _) (Sub.refl _)).onlyChanges rfl h
  | ofdmWindowEnd _ _ _ _ => exact (execOfdmWindowEnd_keeps (start _) (Sub.refl _)).onlyChanges rfl h
  | spectrumRecord _ _ _ => exact (execSpectrumRecord_keeps (start _) (Sub.refl _)).onlyChanges rfl h
  | impulseResponseRecord _ _ _ => exact (execImpulseResponseRecord_keeps (start _) (Sub.refl _)).onlyChanges rfl h
  | tiiAverageComplete _ _ _ _ => exact (execTiiAverageComplete_keeps (start _) (Sub.refl _)).onlyChanges rfl h
  | linkEntryAged _ => exact (execLinkEntryAged_keeps (start _) (Sub.refl _)).onlyChanges rfl h
  | coarseResult _ _ _ _ => exact (execCoarseResult_keeps (start _) (Sub.refl _)).onlyChanges rfl h
  | alignLoop _ => exact (execAlignLoop_keeps (start _) (Sub.refl _)).onlyChanges rfl h
  | holdingTimeout _ _ => exact (execHoldingTimeout_keeps (start _) (Sub.refl _)).onlyChanges rfl h
  | memberPcmChange _ _ => exact (execMemberPcmChange_keeps (start _) (Sub.refl _)).onlyChanges rfl h
  | pageReleased => exact (execPageReleased_keeps (start _) (Sub.refl _)).onlyChanges rfl h
  | groupFadeEnd _ _ => exact (execGroupFadeEnd_keeps (start _) (Sub.refl _)).onlyChanges rfl h
  | fadeGuardLoss _ _ => exact (execFadeGuardLoss_keeps (start _) (Sub.refl _)).onlyChanges rfl h
  | fadeHappening _ => exact (execFadeHappening_keeps (start _) (Sub.refl _)).onlyChanges rfl h
  | delayChangeStart _ => exact (execDelayChangeStart_keeps (start _) (Sub.refl _)).onlyChanges rfl h
  | delayChangeEnd _ _ => exact (execDelayChangeEnd_keeps (start _) (Sub.refl _)).onlyChanges rfl h
  | eqSwapEffect _ _ => exact (execEqSwapEffect_keeps (start _) (Sub.refl _)).onlyChanges rfl h
  | sapFrameStart _ _ _ => exact (execSapFrameStart_keeps (start _) (Sub.refl _)).onlyChanges rfl h
  | sapClockLost _ _ _ _ _ => exact (execSapClockLost_keeps (start _) (Sub.refl _)).onlyChanges rfl h
  | sapGlitch _ _ => exact (execSapGlitch_keeps (start _) (Sub.refl _)).onlyChanges rfl h
  | sapFramingError _ _ _ => exact (execSapFramingError_keeps (start _) (Sub.refl _)).onlyChanges rfl h
  | sapRateChange _ _ _ _ => exact (execSapRateChange_keeps (start _) (Sub.refl _)).onlyChanges rfl h
  | sapRetarget _ _ _ => exact (execSapRetarget_keeps (start _) (Sub.refl _)).onlyChanges rfl h
  | sapResume _ _ _ _ => exact (execSapResume_keeps (start _) (Sub.refl _)).onlyChanges rfl h
  | sapWaitingTimeout _ => exact (execSapWaitingTimeout_keeps (start _) (Sub.refl _)).onlyChanges rfl h
  | txPllLocked _ => exact (execTxPllLocked_keeps (start _) (Sub.refl _)).onlyChanges rfl h
  | txTuneTimeout => exact (execTxTuneTimeout_keeps (start _) (Sub.refl _)).onlyChanges rfl h
  | synthWindowExpiry => exact (execSynthWindowExpiry_keeps (start _) (Sub.refl _)).onlyChanges rfl h
  | coexGntChange _ _ => exact (execCoexGntChange_keeps (start _) (Sub.refl _)).onlyChanges rfl h
  | coexWaitExpiry => exact (execCoexWaitExpiry_keeps (start _) (Sub.refl _)).onlyChanges rfl h
  | txStartSequence _ => exact (execTxStartSequence_keeps (start _) (Sub.refl _)).onlyChanges rfl h
  | txStopComplete _ => exact (execTxStopComplete_keeps (start _) (Sub.refl _)).onlyChanges rfl h
  | fastMute _ => exact (execFastMute_keeps (start _) (Sub.refl _)).onlyChanges rfl h
  | dutyLimit _ => exact (execDutyLimit_keeps (start _) (Sub.refl _)).onlyChanges rfl h
  | continuousLimit _ => exact (execContinuousLimit_keeps (start _) (Sub.refl _)).onlyChanges rfl h
  | monitorWindow _ _ => exact (execMonitorWindow_keeps (start _) (Sub.refl _)).onlyChanges rfl h
  | sfnFrame _ _ => exact (execSfnFrame_keeps (start _) (Sub.refl _)).onlyChanges rfl h
  | sfnCoastExpiry _ => exact (execSfnCoastExpiry_keeps (start _) (Sub.refl _)).onlyChanges rfl h
  | breakinTrigger _ _ => exact (execBreakinTrigger_keeps (start _) (Sub.refl _)).onlyChanges rfl h
  | ptt _ _ => exact (execPtt_keeps (start _) (Sub.refl _)).onlyChanges rfl h
  | keyChange _ _ _ => exact (execKeyChange_keeps (start _) (Sub.refl _)).onlyChanges rfl h
  | plugChange _ _ _ => exact (execPlugChange_keeps (start _) (Sub.refl _)).onlyChanges rfl h
  | encoderStep _ _ _ => exact (execEncoderStep_keeps (start _) (Sub.refl _)).onlyChanges rfl h
  | ppsInEdge _ _ => exact (execPpsInEdge_keeps (start _) (Sub.refl _)).onlyChanges rfl h
  | sourceLost => exact (execSourceLost_keeps (start _) (Sub.refl _)).onlyChanges rfl h
  | siderealStep => exact (execSiderealStep_keeps (start _) (Sub.refl _)).onlyChanges rfl h
  | slewWithinThreshold => exact (execSlewWithinThreshold_keeps (start _) (Sub.refl _)).onlyChanges rfl h
  | meridianRelease => exact (execMeridianRelease_keeps (start _) (Sub.refl _)).onlyChanges rfl h
  | schedFiring _ => exact (execSchedFiring_keeps (start _) (Sub.refl _)).onlyChanges rfl h
  | sampleTimedApply _ _ _ => exact (execSampleTimedApply_keeps (start _) (Sub.refl _)).onlyChanges rfl h
  | firnChunk _ _ _ => exact (execFirnChunk_keeps (start _) (Sub.refl _)).onlyChanges rfl h
  | firnCheckpoint => exact (execFirnCheckpoint_keeps (start _) (Sub.refl _)).onlyChanges rfl h
  | firnTriggerFired _ _ => exact (execFirnTriggerFired_keeps (start _) (Sub.refl _)).onlyChanges rfl h
  | firnFrozen _ => exact (execFirnFrozen_keeps (start _) (Sub.refl _)).onlyChanges rfl h
  | firnStreamComplete _ => exact (execFirnStreamComplete_keeps (start _) (Sub.refl _)).onlyChanges rfl h
  | firnLoadComplete _ => exact (execFirnLoadComplete_keeps (start _) (Sub.refl _)).onlyChanges rfl h
  | replayCheckpoint _ => exact (execReplayCheckpoint_keeps (start _) (Sub.refl _)).onlyChanges rfl h
  | replayEnd _ => exact (execReplayEnd_keeps (start _) (Sub.refl _)).onlyChanges rfl h
  | alertPrimaryReport _ _ _ _ => exact (execAlertPrimaryReport_keeps (start _) (Sub.refl _)).onlyChanges rfl h
  | alertCheckReport _ _ _ _ => exact (execAlertCheckReport_keeps (start _) (Sub.refl _)).onlyChanges rfl h
  | alertMismatchTimeout _ _ => exact (execAlertMismatchTimeout_keeps (start _) (Sub.refl _)).onlyChanges rfl h
  | heartbeatCheck _ _ _ => exact (execHeartbeatCheck_keeps (start _) (Sub.refl _)).onlyChanges rfl h
  | watchdogExpiry _ => exact (execWatchdogExpiry_keeps (start _) (Sub.refl _)).onlyChanges rfl h
  | lockstepMismatch _ => exact (execLockstepMismatch_keeps (start _) (Sub.refl _)).onlyChanges rfl h
  | configCrcCheck _ _ => exact (execConfigCrcCheck_keeps (start _) (Sub.refl _)).onlyChanges rfl h
  | eccError _ _ _ => exact (execEccError_keeps (start _) (Sub.refl _)).onlyChanges rfl h
  | railOutOfRange _ _ => exact (execRailOutOfRange_keeps (start _) (Sub.refl _)).onlyChanges rfl h
  | ballReadbackFault _ _ _ => exact (execBallReadbackFault_keeps (start _) (Sub.refl _)).onlyChanges rfl h
  | breakinDueCheck _ _ => exact (execBreakinDueCheck_keeps (start _) (Sub.refl _)).onlyChanges rfl h
  | periodicSelftest _ _ => exact (execPeriodicSelftest_keeps (start _) (Sub.refl _)).onlyChanges rfl h
  | tapSettled _ _ => exact (execTapSettled_keeps (start _) (Sub.refl _)).onlyChanges rfl h
  | msixVectorUnmask _ => exact (execMsixVectorUnmask_keeps (start _) (Sub.refl _)).onlyChanges rfl h
  | arpIcmpRequest _ => exact (execArpIcmpRequest_keeps (start _) (Sub.refl _)).onlyChanges rfl h
  | ptpMessageSend _ _ => exact (execPtpMessageSend_keeps (start _) (Sub.refl _)).onlyChanges rfl h

/-! ## Every row answers -/

/-- A step answers a next state. -/
def Answers (o : Host.Outcome State Fault Refusal) : Prop := ∃ t, o = .next t

theorem Answers.next (t : State) : Answers (.next t) := ⟨t, rfl⟩

theorem Answers.ite {p q : Host.Outcome State Fault Refusal} {c : Prop} {_ : Decidable c} (h : Answers p) (k : Answers q) :
    Answers (if c then p else q) := by
  split <;> assumption

/-- The row of a host command submits its packet; any other row is a tree of branches each of which ends in a next state. -/
theorem exec_answers (i : Instr) (s : State) : Answers (exec i s) := by
  cases i <;> first
    | exact ⟨_, exec_host s rfl⟩
    | (dsimp only [exec]
       delta
         execNop execG1Identify execG1GetStatus execG1GetCaps execFmTune execAmTune execDabTune execDrmTune execRxStop
         execFmConfig execAmConfig execSignalRead execRdsRead execEnsembleRead execServiceListRead execServicePlay
         execServiceHalt execG1UndefinedCode execGo execMailboxCopy execCplPop execOverflowClear execOwner execVlogClear
         execPageSel execLegEn execCtrlFailClear execDoorbellWrite execRegisterWrite execBar0InvalidAccess execI2cStart
         execI2cAddress execI2cStop execI2cRepeatedStart execI2cControllerNack execI2cWakeAddressMatch execEvBusStuck
         execInBandRequest execIbrCollision execControllerWrite execTick execCompletionWrite execCompletionRingSpace
         execEventWindowClose execUrgentEventPost execMsixInterrupt execModTimeExpiry execMailboxVector execIrqNUpdate
         execStreamDescriptorUse execDmaError execPcieIslandReset execPcieLinkUp execPcieD3hot execSgmiiLinkChange execPtpMessage
         execPtpBmcaRoleChange execUdpDatagram execReassemblyTimeout execAudioInStreamStop execAudioOutDatagram
         execSfnFramePacketSend execPowerOn execResetN execVinReset execBringUp execBringupStepComplete execEvBrownoutWarn
         execBrownoutRecovery execFrostEntryComplete execFrostExit execPermafrostEntry execWakeN execWakeTimerExpiry
         execAvalancheEntryComplete execAvalancheExitComplete execBoostUnitBegin execThermalGovernorCheck execPowerLimitCheck
         execThermalShutdown execFwEraseComplete execFwProgramComplete execFwVerifyComplete execFwMarkerComplete
         execRegCommitComplete execRegTableTakesEffect execReferenceLoss execReferenceGlitch execFrequencyJump
         execReferenceReturn execQualificationComplete execFrequencyAcquisitionComplete execBuildOutLock execLoopLock
         execLoopUnlock execAudioChannelPowerDown execMclkGate execPpsOutPulse execAgcOverloadWindow execOverloadPersists
         execBiasFault execBiasRetry execBiasRetryRestore execCoexBlankChange execCoexBlankTimeout execForegroundCalComplete
         execSpotCalStart execSpotCalComplete execAuroraScan execAuroraEvaluation execSlewStep execSlewComplete execRelockStart
         execRelockComplete execZoneSettled execLanePointOfEffect execLaneSettled execLaneBlock execLaneFifoFull
         execAnalogueWindowEnd execAmCarrierLock execPilotLock execRdsSyncAcquired execRdsSyncLost execRdsGroup execCensus
         execProbeTimeout execAfRequest execAfFadeStart execAfSwitchComplete execAfSwitchInPlace execAfSwitchAbandoned
         execAfGotoTimeout execTapReset execOfdmNullFound execOfdmConfirmation execOfdmConfirmationFail execAcquisitionTimeout
         execFibDecoded execFacSdcDecoded execReconfiguration execEnsembleLost execHoldoverResume execServiceTimeout
         execTransportUnitDecoded execDynamicLabel execMotObject execMotTimeout execDrmTextMessage execDabAlertEnd
         execOfdmWindowEnd execSpectrumRecord execImpulseResponseRecord execTiiAverageComplete execLinkEntryAged execCoarseResult
         execAlignLoop execHoldingTimeout execMemberPcmChange execPageReleased execGroupFadeEnd execFadeGuardLoss
         execFadeHappening execDelayChangeStart execDelayChangeEnd execEqSwapEffect execSapFrameStart execSapClockLost
         execSapGlitch execSapFramingError execSapRateChange execSapRetarget execSapResume execSapWaitingTimeout execTxPllLocked
         execTxTuneTimeout execSynthWindowExpiry execCoexGntChange execCoexWaitExpiry execTxStartSequence execTxStopComplete
         execFastMute execDutyLimit execContinuousLimit execMonitorWindow execSfnFrame execSfnCoastExpiry execBreakinTrigger
         execPtt execKeyChange execPlugChange execEncoderStep execPpsInEdge execSourceLost execSiderealStep
         execSlewWithinThreshold execMeridianRelease execSchedFiring execSampleTimedApply execFirnChunk execFirnCheckpoint
         execFirnTriggerFired execFirnFrozen execFirnStreamComplete execFirnLoadComplete execReplayCheckpoint execReplayEnd
         execAlertPrimaryReport execAlertCheckReport execAlertMismatchTimeout execHeartbeatCheck execWatchdogExpiry
         execLockstepMismatch execConfigCrcCheck execEccError execRailOutOfRange execBallReadbackFault execBreakinDueCheck
         execPeriodicSelftest execTapSettled execMsixVectorUnmask execArpIcmpRequest execPtpMessageSend legacyTune legacyOne
         legacyRun
       repeat' first
         | with_reducible exact Answers.next _
         | with_reducible apply Answers.ite
         | split
         | dsimp only)

/-! ## The obligation -/

/-- No row changes the queue or the part. -/
theorem mayChange_keeps_queue_and_part (i : Instr) :
    (mayChange i).contains .pending = false ∧ (mayChange i).contains .part = false := by
  cases i <;> exact ⟨rfl, rfl⟩

theorem exec_pending_part {i : Instr} {s t : State} (h : exec i s = .next t) : t.pending = s.pending ∧ t.part = s.part := by
  obtain ⟨hqueue, hpart⟩ := mayChange_keeps_queue_and_part i
  exact ⟨exec_onlyChanges h .pending (by simpa using hqueue), exec_onlyChanges h .part (by simpa using hpart)⟩

/-- A step takes the front of the queue and keeps the part. -/
theorem step_pending_part {s t : State} (h : step s = .next t) : t.pending = s.pending.tail ∧ t.part = s.part := by
  cases hq : s.pending with
  | nil =>
    have hst : t = s := by simpa [step, hq] using h.symm
    subst hst
    exact ⟨by simp [hq], rfl⟩
  | cons i q =>
    rw [step, hq] at h
    exact exec_pending_part h

/-- Settles O56, from what each row's operation keeps and from each row's answering. -/
theorem eachCommandChangesOnlyItsUnits : Obligations.EachCommandChangesOnlyItsUnits := by
  unfold Obligations.EachCommandChangesOnlyItsUnits
  refine ⟨fun i s => ?_, fun s t => step_pending_part⟩
  obtain ⟨t, ht⟩ := exec_answers i s
  exact ⟨t, ht, exec_onlyChanges ht⟩

end Sys2Proof.Machine
end

section
/-! The proofs about how a host command that is ready ends (O49), with what a completion leaves of the rings: none comes to wait
for its destruction. -/

namespace Sys2Proof.Machine

/-! ## No ring comes to wait for its destruction -/

theorem all_mput {α : Type} {m : List (Nat × α)} {k : Nat} {v : α} {p : α → Bool} (hm : m.all (fun e => p e.2) = true)
    (hv : p v = true) : (mput m k v).all (fun e => p e.2) = true := by
  induction m with
  | nil => simp [mput, hv]
  | cons e m ih =>
    simp only [List.all_cons, Bool.and_eq_true] at hm
    simp only [mput]
    split
    · simp [hv, hm.1, hm.2]
    · split
      · simp [hv, hm.2]
      · simp [hm.1, ih hm.2]

theorem all_mget {α : Type} {m : List (Nat × α)} {k : Nat} {v : α} {p : α → Bool} (hm : m.all (fun e => p e.2) = true)
    (hv : mget m k = some v) : p v = true := by
  induction m with
  | nil => simp [mget] at hv
  | cons e m ih =>
    simp only [List.all_cons, Bool.and_eq_true] at hm
    simp only [mget] at hv
    split at hv
    · cases hv
      exact hm.1
    · exact ih hm.2 hv

section NoneDestroying

variable {s t : State}

theorem noneDestroying_of_rings (h : t.rings = s.rings) (hs : noneDestroying s = true) : noneDestroying t = true := by
  rwa [noneDestroying, h]

theorem destroying_eq_none {n : Nat} {r : Ring} (hs : noneDestroying s = true) (hr : mget s.rings n = some r) :
    r.destroying = none :=
  Option.isNone_iff_eq_none.1 (all_mget (p := fun r : Ring => r.destroying.isNone) hs hr)

theorem noneDestroying_setRings {n : Nat} {r : Ring} (hs : noneDestroying s = true) (hr : r.destroying = none) :
    noneDestroying (s.setRings (mput s.rings n r)) = true :=
  all_mput (p := fun r : Ring => r.destroying.isNone) hs (Option.isNone_iff_eq_none.2 hr)

theorem noneDestroying_putRing {n : Nat} {r : Ring} (hs : noneDestroying s = true) (hr : r.destroying = none) :
    noneDestroying (putRing s n r) = true :=
  noneDestroying_of_rings (by simp) (noneDestroying_setRings (n := n) hs hr)

theorem noneDestroying_hostStore {a : Nat} {b : Bytes} (hs : noneDestroying s = true) :
    noneDestroying (hostStore s a b) = true :=
  noneDestroying_of_rings (by simp) hs

theorem noneDestroying_postToRing {w : EvWindow} {n : Nat} (hs : noneDestroying s = true) :
    noneDestroying (postToRing w s n) = true := by
  unfold postToRing
  cases hr : mget s.rings n with
  | none => exact hs
  | some r =>
    have hd := destroying_eq_none hs hr
    dsimp only
    split
    · exact noneDestroying_putRing hs hd
    · exact noneDestroying_putRing (noneDestroying_hostStore hs) hd

theorem noneDestroying_foldl {α : Type} {f : State → α → State} {l : List α}
    (hf : ∀ t a, noneDestroying t = true → noneDestroying (f t a) = true) (hs : noneDestroying s = true) :
    noneDestroying (l.foldl f s) = true := by
  induction l generalizing s with
  | nil => exact hs
  | cons a l ih => exact ih (hf s a hs)

theorem noneDestroying_postEvent {w : EvWindow} (hs : noneDestroying s = true) : noneDestroying (postEvent s w) = true := by
  have htape : noneDestroying (tape s 3 (eventBytes w) w.time) = true := noneDestroying_of_rings (by simp) hs
  unfold postEvent
  dsimp only
  split
  · split
    · exact noneDestroying_of_rings (by simp) hs
    · exact noneDestroying_of_rings (by simp) hs
  · exact noneDestroying_foldl (fun _ _ => noneDestroying_postToRing) htape

theorem noneDestroying_flushFrom {mark : Nat} {evs : List Nat} (hs : noneDestroying s = true) :
    noneDestroying (flushFrom s mark evs) = true :=
  noneDestroying_foldl (fun _ _ => noneDestroying_postEvent) (noneDestroying_of_rings (by simp) hs)

theorem noneDestroying_padRing {n len : Nat} (hs : noneDestroying s = true) : noneDestroying (padRing s n len) = true := by
  unfold padRing
  cases hr : mget s.rings n with
  | none => exact hs
  | some r =>
    have hd := destroying_eq_none hs hr
    dsimp only
    split
    · exact hs
    · exact noneDestroying_putRing (noneDestroying_hostStore hs) hd

theorem noneDestroying_writeEntry {n : Nat} {b : Bytes} (hs : noneDestroying s = true) (ht : writeEntry s n b = some t) :
    noneDestroying t = true := by
  unfold writeEntry at ht
  cases hr : mget s.rings n with
  | none => simp [hr] at ht
  | some r =>
    have hd := destroying_eq_none hs hr
    simp only [hr] at ht
    split at ht
    · cases ht
    · cases ht
      exact noneDestroying_putRing (noneDestroying_hostStore hs) hd

theorem noneDestroying_endInflight {e : Option (Nat × Nat)} (hs : noneDestroying s = true) :
    noneDestroying (endInflight s e) = true := by
  cases e with
  | none => exact hs
  | some e => exact noneDestroying_of_rings (by simp [endInflight]) hs

theorem noneDestroying_pushEntry {n : Nat} {b : Bytes} {e : Option (Nat × Nat)} (hs : noneDestroying s = true) :
    noneDestroying (pushEntry s n b e) = true := by
  unfold pushEntry
  cases hr : mget s.rings n with
  | none => exact noneDestroying_endInflight hs
  | some r0 =>
    have hpad : noneDestroying (if r0.heldCpl.isEmpty then padRing s n b.length else s) = true := by
      split
      · exact noneDestroying_padRing hs
      · exact hs
    dsimp only
    generalize (if r0.heldCpl.isEmpty then padRing s n b.length else s) = u at hpad ⊢
    have hd : ((mget u.rings n).getD r0).destroying = none := by
      cases hu : mget u.rings n with
      | none => exact destroying_eq_none hs hr
      | some r => exact destroying_eq_none hpad hu
    split
    · rename_i v hv
      exact noneDestroying_endInflight (noneDestroying_writeEntry hpad (eq_some_of_ite hv))
    · exact noneDestroying_setRings hpad hd

theorem noneDestroying_postCpl {o : Origin} {tag flags st d : Nat} {r : Bytes} {t : Sid} {i : Bool}
    (hs : noneDestroying s = true) : noneDestroying (postCpl s o tag flags st d r t i) = true := by
  unfold postCpl
  dsimp only
  generalize cplBytes tag flags st d (cplTime s t) r = b
  have htape : noneDestroying (tape s 2 (b.take 16) t) = true := noneDestroying_of_rings (by simp) hs
  generalize tape s 2 (b.take 16) t = u at htape ⊢
  cases o with
  | mailbox => exact noneDestroying_of_rings (by simp) htape
  | ring n =>
    dsimp only
    split
    · exact noneDestroying_pushEntry htape
    · exact htape
  | legacy => exact noneDestroying_of_rings (by simp) htape
  | replay _ => exact noneDestroying_pushEntry htape

theorem noneDestroying_complete1 {f : InFlight} {st d : Nat} {r : Bytes} {t : Sid} {k : Nat} (hs : noneDestroying s = true) :
    noneDestroying (complete1 s f st d r t k) = true := by
  unfold complete1
  dsimp only
  split
  · exact hs
  · exact noneDestroying_postCpl (noneDestroying_flushFrom (noneDestroying_of_rings (by simp) hs))

end NoneDestroying

/-! ## The obligation -/

/-- A command that its owning island refuses leaves every unit but the commands in flight, the events and the way of the
completion to its channel as it was. -/
theorem complete_taken_quiet {sp : CmdSpec} {a : Args} {s : State} (hd : noneDestroying s = true) (st d : Nat) :
    let t := complete (taken sp a s) (flightOf sp a s) st d [] s.sid.now s.ev.nextId
    t.pending = s.pending ∧ t.sid = s.sid ∧ t.wins = s.wins ∧ t.vlog = s.vlog ∧
      t.hcfg = s.hcfg ∧ t.eth = s.eth ∧ t.clk = s.clk ∧ t.merid = s.merid ∧ t.pol = s.pol ∧ t.pwr = s.pwr ∧
      t.therm = s.therm ∧ t.fw = s.fw ∧ t.panel = s.panel ∧ t.rf = s.rf ∧ t.aur = s.aur ∧ t.zones = s.zones ∧
      t.lanes = s.lanes ∧ t.tx = s.tx ∧ t.mon = s.mon ∧ t.reg = s.reg ∧ t.demods = s.demods ∧ t.flurry = s.flurry ∧
      t.afs = s.afs ∧ t.ofdms = s.ofdms ∧ t.services = s.services ∧ t.surveys = s.surveys ∧ t.links = s.links ∧
      t.paths = s.paths ∧ t.groups = s.groups ∧ t.saps = s.saps ∧ t.part = s.part := by
  have htaken : noneDestroying (taken sp a s) = true := noneDestroying_of_rings (by simp) hd
  have hquiet := complete_quiet (taken sp a s) (flightOf sp a s) st d [] s.sid.now s.ev.nextId
    (noneDestroying_complete1 htaken)
  simp only [taken_frame] at hquiet
  simp only [hquiet, and_self]

/-- Settles O49: each answer of the owning island has its lemma in Laws/Pipeline.lean, and a refusal is a completion that
changes no unit. -/
theorem readyCommandEndsAsItsUnitJudges : Obligations.ReadyCommandEndsAsItsUnitJudges := by
  unfold Obligations.ReadyCommandEndsAsItsUnitJudges
  intro i sp a s hi hr
  rw [exec_host s hi]
  refine ⟨?deny, ?quiet, ?done, ?later, ?busy, ?underway⟩
  case deny => exact fun st d hu => congrArg _ (submit_deny hr hu)
  case quiet =>
    intro st d hd hu
    exact ⟨_, congrArg _ (submit_deny hr hu), complete_taken_quiet hd st d⟩
  case done => exact fun st d b q hu => congrArg _ (submit_done hr hu)
  case later => exact fun st d b q hu => congrArg _ (submit_later hr hu)
  case busy => exact fun q hu => congrArg _ (submit_busy hr hu)
  case underway =>
    intro q hu hq
    rw [submit_busy hr hu, begins, foldl_finishDestroy hq]

end Sys2Proof.Machine
end

section
/-! The proof about the order of the commands to one `TARGET` (O50). -/

namespace Sys2Proof.Machine

/-- A packet that passes steps 1 and 2 and is to be executed at once is Held behind an earlier command to its `TARGET`, waits
for the next tick where the `TARGET` saw a completion at this one, and else is dispatched. -/
theorem submit_immediate {sp : CmdSpec} {a : Args} {s : State} (ho : channelOpen s a.origin = true)
    (hl : badLen a.origin a.payload.length = false) (ht : byTag s a.origin a.tag.toNat = none) (hw : a.whn = 0) :
    submit sp a s =
      if blocked (enter (cmdOf sp a) s).2 (cmdOf sp a) s.cmds.nextSeq then
        putFlight (enter (cmdOf sp a) s).2 { flightOf sp a s with phase := .held }
      else
        match servedNow s (cmdOf sp a) with
        | some k => putFlight (enter (cmdOf sp a) s).2 { flightOf sp a s with phase := .held, freed := some k }
        | none => dispatch (some sp) (flightOf sp a s) (enter (cmdOf sp a) s).2 := by
  have hnow : (cmdOf sp a).immediate = true := by simp [Cmd.immediate, hw]
  have hserved : servedNow (enter (cmdOf sp a) s).2 (cmdOf sp a) = servedNow s (cmdOf sp a) :=
    servedNow_of_served (by rw [enter_cmds]) _
  have hseq : (enter (cmdOf sp a) s).1.seq = s.cmds.nextSeq := rfl
  simp only [submit, take, Cmd.len, ho, hl, ht, hnow, hseq, hserved, flightOf, Bool.true_eq_false, Bool.false_eq_true,
    Option.isSome_none, true_or, if_true, if_false] <;> rfl

theorem blocked_of_unordered {s : State} {c : Cmd} {n : Nat} (h : c.unordered = true) : blocked s c n = false := by
  simp [blocked, h]

theorem servedNow_of_unordered {s : State} {c : Cmd} (h : c.unordered = true) : servedNow s c = none := by
  simp [servedNow, h]

/-- Settles O50: the three branches of `submit_immediate`. -/
theorem commandBehindItsTargetIsHeld : Obligations.CommandBehindItsTargetIsHeld := by
  unfold Obligations.CommandBehindItsTargetIsHeld
  intro i sp a s hi ho hl ht hw
  rw [exec_host s hi, submit_immediate ho hl ht hw]
  refine ⟨?held, ?waits, ?unordered⟩
  case held =>
    intro hb
    rw [if_pos hb]
  case waits =>
    intro k hb hk
    simp only [hb, hk, Bool.false_eq_true, if_false]
  case unordered => exact fun hu => ⟨blocked_of_unordered hu, servedNow_of_unordered hu⟩

end Sys2Proof.Machine
end

section
/-! The proof about the events that wait and the violation log (O54). -/

namespace Sys2Proof.Machine

/-! ## An occurrence of an event (R24, R25) -/

/-- An occurrence joins the window: it is open, its own code, source and detail are those of the occurrence, and it is no
panel change. -/
def EvWindow.takes (w : EvWindow) (c u d : Nat) : Bool :=
  w.code == c && w.source == u && w.edetail == d && !w.single && decide (0 < w.left)

theorem EvWindow.takes_iff (w : EvWindow) (c u d : Nat) :
    w.takes c u d = true ↔ w.code = c ∧ w.source = u ∧ w.edetail = d ∧ w.single = false ∧ 0 < w.left := by
  simp [EvWindow.takes, and_assoc]

/-- The window that the first occurrence of an event opens. -/
def firstWindow (s : State) (c u d : Nat) : EvWindow :=
  { code := c, source := u, edetail := d, time := s.sid.now, count := 1, left := evTicks s c, id := s.ev.nextId,
    last := s.ev.nextId, single := false }

theorem raise_urgent {s : State} {c u d : Nat} (h : isUrgent c = true) :
    (raise s c u d).ev = { s.ev with urgent := s.ev.urgent ++ [firstWindow s c u d], nextId := s.ev.nextId + 1 } := by
  simp [raise, raiseAt, h, firstWindow]

theorem raise_merges {s : State} {c u d : Nat} (h : isUrgent c = false) (hw : s.ev.windows.any (·.takes c u d) = true) :
    (raise s c u d).ev = { s.ev with
      windows := s.ev.windows.map fun x => if x.takes c u d then { x with count := x.count + 1, last := s.ev.nextId } else x
      nextId := s.ev.nextId + 1 } := by
  unfold EvWindow.takes at hw ⊢
  simp only [raise, raiseAt, h, Bool.false_eq_true, if_false, hw, if_true, State.setEv_self]

theorem raise_opens {s : State} {c u d : Nat} (h : isUrgent c = false) (hw : s.ev.windows.any (·.takes c u d) = false) :
    (raise s c u d).ev = { s.ev with windows := s.ev.windows ++ [firstWindow s c u d], nextId := s.ev.nextId + 1 } := by
  unfold EvWindow.takes at hw
  simp only [raise, raiseAt, h, Bool.false_eq_true, if_false, hw, State.setEv_self, firstWindow]

theorem raise_nextId (s : State) (c u d : Nat) : (raise s c u d).ev.nextId = s.ev.nextId + 1 := by
  cases hu : isUrgent c with
  | true => rw [raise_urgent hu]
  | false =>
    cases hw : s.ev.windows.any (·.takes c u d) with
    | true => rw [raise_merges hu hw]
    | false => rw [raise_opens hu hw]

/-! ## The violation log (R64) -/

@[simp] theorem violate_vlog (s : State) (k a l i : Nat) :
    (violate s k a l i).vlog.newest = vlogNext s ∧ (violate s k a l i).vlog.fill = min 16 (s.vlog.fill + 1) ∧
    (violate s k a l i).vlog.any = true ∧
    (violate s k a l i).vlog.entries =
      mput s.vlog.entries (vlogNext s) ⟨a, BitVec.ofNat 64 (cplTime s s.sid.now), k, l, i⟩ := by
  simp [violate]

theorem vlogNext_of_any {s : State} (h : s.vlog.any = true) : vlogNext s = (s.vlog.newest + 1) % 16 := by
  simp [vlogNext, h]

/-- The violations of a list, one after the other. -/
theorem foldl_violate_vlog (ks : List (Nat × Nat × Nat × Nat)) {s : State} (hany : s.vlog.any = true)
    (hnew : s.vlog.newest < 16) (hfill : s.vlog.fill ≤ 16) :
    let t := ks.foldl (fun s k => violate s k.1 k.2.1 k.2.2.1 k.2.2.2) s
    t.vlog.newest = (s.vlog.newest + ks.length) % 16 ∧ t.vlog.fill = min 16 (s.vlog.fill + ks.length) := by
  induction ks generalizing s with
  | nil => exact ⟨(Nat.mod_eq_of_lt hnew).symm, (Nat.min_eq_right hfill).symm⟩
  | cons k ks ih =>
    have hrest := ih (s := violate s k.1 k.2.1 k.2.2.1 k.2.2.2) (by simp) (by simp [vlogNext_of_any hany]; omega) (by simp)
    simp only [violate_vlog, vlogNext_of_any hany] at hrest
    simp only [List.foldl_cons, List.length_cons]
    omega

/-! ## The obligation -/

/-- Settles O54: an occurrence stands alone, joins a window or opens one, and a violation takes the log's next place. -/
theorem eventsAndViolationsAreKept : Obligations.EventsAndViolationsAreKept := by
  unfold Obligations.EventsAndViolationsAreKept
  intro s c u d
  simp only [← EvWindow.takes_iff]
  refine ⟨raise_nextId s c u d, ?merged, ?opened, ?urgent, fun ks => foldl_violate_vlog ks, ?entry⟩
  case merged =>
    intro w hw htakes hu
    rw [raise_merges hu (List.any_eq_true.2 ⟨w, hw, htakes⟩)]
    exact ⟨List.length_map _, List.mem_map.2 ⟨w, hw, by rw [if_pos htakes]⟩⟩
  case opened =>
    intro hu hnone
    rw [raise_opens hu (List.any_eq_false.2 hnone), firstWindow]
  case urgent =>
    intro hu
    rw [raise_urgent hu]
    exact ⟨rfl, by simp⟩
  case entry =>
    intro k a l i
    rw [(violate_vlog ..).2.2.2]
    exact mget_mput_self ..

end Sys2Proof.Machine
end

section
/-! The proof about the diagnostics of functional safety and what their findings lead to (O36). -/

namespace Sys2Proof.Machine

/-! ## What a kept unit reads -/

theorem Keeps.pol {m : Nat} {s t : State} (h : Keeps m s t) (hm : m.testBit 15 = false) : t.pol = s.pol := h.same .pol hm

theorem Keeps.tx {m : Nat} {s t : State} (h : Keeps m s t) (hm : m.testBit 26 = false) : t.tx = s.tx := h.same .tx hm

theorem Keeps.mon {m : Nat} {s t : State} (h : Keeps m s t) (hm : m.testBit 27 = false) : t.mon = s.mon := h.same .mon hm

/-! ## The safe state (R387, R388) -/

/-- The device is in the safe state by finding `id`: FAULT_N is asserted and the exciter held with PA_EN deasserted. -/
def safeBecause (q : State) (id : Nat) : Prop :=
  q.pol.safe = true ∧ q.pol.safeCause = id ∧ q.pol.faultN = true ∧ q.tx.st = .held ∧ q.tx.paEn = false

@[simp] theorem txHold_pol (s : State) : (txHold s).pol = s.pol := (txHold_keeps (.refl _ s) (Sub.refl _)).pol rfl

theorem txHold_tx (s : State) : (txHold s).tx.st = .held ∧ (txHold s).tx.paEn = false := by
  simp [txHold]

@[simp] theorem evFaultOf_pol (s : State) (e : Nat) : (evFaultOf s e).pol = s.pol :=
  (evFaultOf_keeps (.refl _ s) (Sub.refl _)).pol rfl

theorem enterSafe_safe {s : State} (h : s.pol.safe = false) (id : Nat) : safeBecause (enterSafe s id) id := by
  simp [safeBecause, enterSafe, h, txHold_tx]

/-- A dangerous finding outside the safe state leads into it. -/
theorem dangerous_safe {s : State} (h : s.pol.safe = false) (id : Nat) (resetOnly : Bool) :
    safeBecause (dangerous s id resetOnly) id :=
  enterSafe_safe (by simp [h]) id

@[simp] theorem warning_pol (s : State) (id : Nat) :
    (warning s id).pol = { s.pol with warnings := sat 32 (s.pol.warnings + 1) } := by
  simp [warning]

/-! ## Findings of the islands, the cores, the memories, the rails and the outputs (Table 13-3) -/

section Findings

variable {s : State} {t : Sid}

/-- An island that runs and writes a heartbeat: not the wake island and not the port islands. -/
theorem heartbeat_guard {i : Nat} (hd : diagnosed s = true) (hr : islandRuns s i = true) (h1 : 1 ≤ i) (h16 : i ≤ 16)
    (hport : ¬(8 ≤ i ∧ i ≤ 11)) :
    ¬(diagnosed s = false ∨ i = 0 ∨ (8 ≤ i ∧ i ≤ 11) ∨ 16 < i ∨ islandRuns s i = false) := by
  simp only [hd, hr, Bool.true_eq_false, false_or, or_false]
  omega

theorem exec_heartbeat_written {i : Nat} (hd : diagnosed s = true) (hr : islandRuns s i = true) (h1 : 1 ≤ i) (h16 : i ≤ 16)
    (hport : ¬(8 ≤ i ∧ i ≤ 11)) :
    exec (.heartbeatCheck i true t) s =
      .next ((advance s t).setPol { s.pol with missed := mdel s.pol.missed i }) := by
  show execHeartbeatCheck i true t s = _
  rw [execHeartbeatCheck, if_neg (heartbeat_guard hd hr h1 h16 hport)]
  simp

theorem exec_heartbeat_second_miss {i : Nat} (hd : diagnosed s = true) (hr : islandRuns s i = true)
    (hi : i ∈ [1, 6, 7, 14, 15, 16]) (hm : mgetD s.pol.missed i 0 = 1) :
    exec (.heartbeatCheck i false t) s = .next (dangerous ((advance s t).setPol { s.pol with
      hbMisses := sat 32 (s.pol.hbMisses + 1), missed := mput s.pol.missed i 2 }) 0x03 false) := by
  have hrange : 1 ≤ i ∧ i ≤ 16 ∧ ¬(8 ≤ i ∧ i ≤ 11) := by
    simp only [List.mem_cons, List.not_mem_nil, or_false] at hi
    omega
  obtain ⟨h1, h16, hport⟩ := hrange
  have hdanger (u : State) : islandDanger u i = true := by
    rw [islandDanger, List.contains_iff_mem.2 hi, Bool.true_or]
  show execHeartbeatCheck i false t s = _
  rw [execHeartbeatCheck, if_neg (heartbeat_guard hd hr h1 h16 hport)]
  simp [hm, hdanger]

theorem exec_watchdogExpiry (hd : diagnosed s = true) :
    exec (.watchdogExpiry t) s = .next (dangerous (advance s t) 0x04 true) := congrArg _ (if_pos hd)

theorem exec_lockstepMismatch (hd : diagnosed s = true) :
    exec (.lockstepMismatch t) s = .next (dangerous (advance s t) 0x01 true) := congrArg _ (if_pos hd)

theorem exec_configCrcCheck_differs {crc : BitVec 32} (hd : diagnosed s = true)
    (hc : crc ≠ Config.safetyCrc (safetyConfig s)) :
    exec (.configCrcCheck crc t) s = .next (dangerous (advance s t) 0x05 true) := congrArg _ (if_pos ⟨hd, hc⟩)

theorem exec_configCrcCheck_agrees {crc : BitVec 32} (hc : crc = Config.safetyCrc (safetyConfig s)) :
    exec (.configCrcCheck crc t) s = .next s := congrArg _ (if_neg fun h => h.2 hc)

theorem ecc_guard {r : Nat} (hd : diagnosed s = true) (h1 : 1 ≤ r) (h5 : r ≤ 5) :
    ¬(diagnosed s = false ∨ r = 0 ∨ 5 < r) := by
  simp only [hd, Bool.true_eq_false, false_or]
  omega

theorem exec_eccError_corrected {r : Nat} (hd : diagnosed s = true) (h1 : 1 ≤ r) (h5 : r ≤ 5) :
    exec (.eccError r true t) s = .next ((advance s t).setPol { s.pol with eccCount := s.pol.eccCount + 1 }) := by
  show execEccError r true t s = _
  rw [execEccError, if_neg (ecc_guard hd h1 h5)]
  simp

theorem exec_eccError_hard {r : Nat} (hd : diagnosed s = true) (h1 : 1 ≤ r) (h5 : r ≤ 5) :
    exec (.eccError r false t) s =
      .next (if r = 1 ∨ r = 3 then dangerous (advance s t) 0x06 true else warning (advance s t) 0x06) := by
  show execEccError r false t s = _
  rw [execEccError, if_neg (ecc_guard hd h1 h5)]
  simp only [Bool.false_eq_true, if_false]
  split <;> rfl

theorem exec_railOutOfRange {r : Nat} (hd : diagnosed s = true) (hr : r < 4) :
    exec (.railOutOfRange r t) s = .next (dangerous (advance s t) 0x0A false) := congrArg _ (if_pos ⟨hd, hr⟩)

theorem exec_ballReadbackFault {ball : Nat} {read : Bool} (hd : diagnosed s = true) (hb : ball ≤ 2)
    (hdriven : driven s ball = !read) :
    exec (.ballReadbackFault ball read t) s =
      .next (if read then warning (advance s t) 0x0B else dangerous (advance s t) 0x0B false) := by
  have hguard : ¬(diagnosed s = false ∨ 2 < ball ∨ driven s ball = read) := by
    simp [hd, hdriven, Nat.not_lt.2 hb]
  show execBallReadbackFault ball read t s = _
  rw [execBallReadbackFault, if_neg hguard]

end Findings

/-! ## Loops that unlock (R78) -/

/-- What an unlocked loop loses: its lock bit, its present attempt, and for loop 1 the TX lock. -/
def loopLost (s : State) (l : Nat) : State :=
  let s1 := lockAttempt (s.setClk { s.clk with lock := s.clk.lock &&& ~~~(1#5 <<< l) }) l
  if l = 1 ∧ transmitting s1 = false then s1.setTx { s1.tx with locked := false } else s1

@[simp] theorem loopLost_pol (s : State) (l : Nat) : (loopLost s l).pol = s.pol := by
  unfold loopLost lockAttempt
  dsimp only
  split <;> simp

@[simp] theorem loopLost_safetyBreak (s : State) (l : Nat) : safetyBreak (loopLost s l) = safetyBreak s := by
  unfold loopLost lockAttempt safetyBreak
  dsimp only
  split <;> simp

theorem exec_loopUnlock {s : State} {t : Sid} {l : Nat} (hl : l < 5) (hc : s.clk.state = .locked) (hk : loopLocked s l = true) :
    exec (.loopUnlock l t) s = .next (
      let u := loopLost (advance s t) l
      if l = 0 ∨ l = 4 ∨ safetyBreak s = true then
        dangerous (u.setPol { s.pol with present := l :: s.pol.present }) 0x09 (l == 4)
      else warning u 0x09) := by
  have hguard : ¬(5 ≤ l ∨ s.clk.state ≠ .locked ∨ loopLocked s l = false) := by
    simp [hc, hk, Nat.not_le.2 hl]
  have hbreak : safetyBreak (loopLost (advance s t) l) = safetyBreak s := by
    rw [loopLost_safetyBreak]
    simp [safetyBreak]
  have hpol : (loopLost (advance s t) l).pol = s.pol := by simp
  show execLoopUnlock l t s = _
  rw [← hbreak, ← hpol]
  rw [execLoopUnlock, if_neg hguard]
  exact (apply_ite Host.Outcome.next _ _ _).symm

/-! ## The exciter's safety break-ins (R315, R386) -/

theorem exec_breakinDueCheck {s : State} {t d : Sid} {seen : Bool} (hb : safetyBreak s = true) (hon : s.tx.st = .on)
    (hdue : s.tx.dueAt = some d) (ht : d + 5000 * usU ≤ (advance s t).sid.now) :
    exec (.breakinDueCheck seen t) s = .next (if seen then s else dangerous (advance s t) 0x08 false) := by
  show execBreakinDueCheck seen t s = _
  cases seen <;> simp [execBreakinDueCheck, hb, hon, hdue, ht]

@[simp] theorem failPending_pol (s : State) (st : Nat) : (failPending s st).pol = s.pol :=
  (failPending_keeps (.refl _ s) (Sub.refl _)).pol rfl

theorem exec_synthWindowExpiry {s : State} (h : synthExpired s = true) :
    exec .synthWindowExpiry s = .next (
      if s.tx.brkOwn = true ∧ safetyBreak s = true then dangerous (failPending s stSynthTimeout) 0x08 false
      else failPending s stSynthTimeout) := by
  show execSynthWindowExpiry s = _
  simp [execSynthWindowExpiry, h]

/-! ## The periodic self-test (R397) -/

theorem testPath_safe (s : State) : (testPath s).pol.safe = s.pol.safe := by
  unfold testPath
  split
  · simp
  · dsimp only
    split <;> simp

theorem testPath_sid (s : State) : (testPath s).sid = s.sid := (testPath_keeps (.refl _ s) (Sub.refl _)).same .sid rfl

theorem exec_periodicSelftest {s : State} {t : Sid} (pass : Bool) (hx : executing s 0x0C05 0x0C00 = none)
    (hd : diagnosed s = true) (hp : s.pwr.state ≠ .thaw) (hdue : selftestDue (advance s t) = true) :
    exec (.periodicSelftest pass t) s = .next (selftestEnds (testPath (advance s t)) pass) := by
  have hx' : executing (advance s t) 0x0C05 0x0C00 = none := by simpa [executing, findFlight] using hx
  have hd' : diagnosed (advance s t) = true := by simpa [diagnosed] using hd
  show execPeriodicSelftest pass t s = _
  simp [execPeriodicSelftest, hx', hd', hp, hdue]

theorem selftestEnds_passed (s : State) : (selftestEnds s true).pol.lastSelftest = s.sid.now := by
  simp [selftestEnds]

theorem selftestEnds_failed {s : State} (h : s.pol.safe = false) : safeBecause (selftestEnds s false) 0x0C :=
  dangerous_safe (by simp [h]) _ _

/-! ## The monitor's windows (R323, R324) -/

@[simp] theorem dangerous_mon (s : State) (id : Nat) (r : Bool) : (dangerous s id r).mon = s.mon :=
  (dangerous_keeps (.refl _ s) (Sub.refl _)).mon rfl

@[simp] theorem warning_mon (s : State) (id : Nat) : (warning s id).mon = s.mon :=
  (warning_keeps (.refl _ s) (Sub.refl _)).mon rfl

@[simp] theorem muteReady_frame (s : State) (c : Nat) : (muteReady s c).mon = s.mon ∧ (muteReady s c).pol = s.pol :=
  have h := muteReady_keeps (a1 := c) (.refl _ s) (Sub.refl _)
  ⟨h.mon rfl, h.pol rfl⟩

@[simp] theorem evTxCause_mon (s : State) (c : Nat) : (evTxCause s c).mon = s.mon :=
  (evTxCause_keeps (.refl _ s) (Sub.refl _)).mon rfl

@[simp] theorem monReact_mon (s : State) (breach fault told : Bool) : (monReact s breach fault told).mon = s.mon :=
  (monReact_keeps (.refl _ s) (Sub.refl _)).mon rfl

/-- The second breach running is dangerous, and no warning goes before it. -/
theorem monReact_second_breach {s : State} (h : s.pol.safe = false) (h2 : s.mon.breaches = 2) (fault told : Bool) :
    safeBecause (monReact s true fault told) 0x07 := by
  have e : monReact s true fault told = dangerous (muteReady s 8) 0x07 false := by simp [monReact, h2]
  rw [e]
  exact dangerous_safe (by simp [h]) _ _

section Monitor

variable {s : State} {t : Sid} {m : MonitorIn} {e : Bytes}

theorem curEntry_advance (s : State) (t : Sid) : curEntry (advance s t) = curEntry s := by
  have hentry : regEntry (advance s t) = regEntry s := funext fun i => by simp [regEntry]
  simp [curEntry, hentry]

theorem exec_monitorWindow_unchecked (he : curEntry s = some e) (hw : windowDone s 32 = true)
    (h : s.tx.st ≠ .on ∨ (advance s t).sid.now - 32 * tickU < s.tx.ramp.start + s.tx.ramp.len) :
    exec (.monitorWindow m t) s = .next ((advance s t).setMon
      { s.mon with breaches := 0, content := 0, told := false, faults := 0 }) := by
  have hskip : (advance s t).tx.st ≠ .on ∨
      (advance s t).sid.now - 32 * tickU < (advance s t).tx.ramp.start + (advance s t).tx.ramp.len := by simpa using h
  show execMonitorWindow m t s = _
  simp only [execMonitorWindow, curEntry_advance, he, hw, Bool.true_eq_false, if_false, if_pos hskip]
  simp

/-- A window that is checked: the monitor's records count its breach, and the device reacts. -/
theorem exec_monitorWindow_checked (he : curEntry s = some e) (hw : windowDone s 32 = true) (hon : s.tx.st = .on)
    (hramp : s.tx.ramp.start + s.tx.ramp.len ≤ (advance s t).sid.now - 32 * tickU) :
    ∃ q fault told, exec (.monitorWindow m t) s =
        .next (monReact ((advance s t).setMon q) (monBreach (advance s t) e m) fault told) ∧
      q.breaches = if monBreach (advance s t) e m = true then s.mon.breaches + 1 else 0 := by
  have hcheck : ¬((advance s t).tx.st ≠ .on ∨
      (advance s t).sid.now - 32 * tickU < (advance s t).tx.ramp.start + (advance s t).tx.ramp.len) := by
    simpa [hon] using hramp
  show ∃ q fault told, execMonitorWindow m t s = _ ∧ _
  simp only [execMonitorWindow, curEntry_advance, he, hw, Bool.true_eq_false, if_false, if_neg hcheck]
  exact ⟨_, _, _, rfl, by simp⟩

end Monitor

/-! ## The obligation -/

/-- Settles O36: each row answers by one of the lemmas above, and a dangerous finding enters the safe state
(`dangerous_safe`). -/
theorem findingsLeadToTheSafeState : Obligations.FindingsLeadToTheSafeState := by
  unfold Obligations.FindingsLeadToTheSafeState
  intro s t hsafe n safeBy
  have hn : n.pol.safe = false := by simpa [n] using hsafe
  have hdanger {i : Instr} {id : Nat} {r : Bool} {u : State} (hu : u.pol.safe = false)
      (h : exec i s = .next (dangerous u id r)) : safeBy i id := ⟨_, h, dangerous_safe hu id r⟩
  refine ⟨?missed, ?written, ?watchdog, ?lockstep, ?crc, ?crcAgrees, ?eccDanger, ?eccWarning, ?eccCorrected, ?rail,
    ?ballAsserted, ?ballReleased, ?loopDanger, ?loopWarning, ?breakin, ?synth, ?selftest, ?monitor⟩
  case missed => exact fun i hd hr hi hm => hdanger (by simpa using hsafe) (exec_heartbeat_second_miss hd hr hi hm)
  case written => exact fun i => exec_heartbeat_written
  case watchdog => exact fun hd => hdanger hn (exec_watchdogExpiry hd)
  case lockstep => exact fun hd => hdanger hn (exec_lockstepMismatch hd)
  case crc => exact fun crc hd hc => hdanger hn (exec_configCrcCheck_differs hd hc)
  case crcAgrees => exact fun crc => exec_configCrcCheck_agrees
  case eccDanger =>
    intro r hd hr
    exact hdanger hn ((exec_eccError_hard hd (by omega) (by omega)).trans (congrArg _ (if_pos hr)))
  case eccWarning =>
    intro r hd hr
    exact (exec_eccError_hard hd (by omega) (by omega)).trans (congrArg _ (if_neg (by omega)))
  case eccCorrected => exact fun r => exec_eccError_corrected
  case rail => exact fun r hd hr => hdanger hn (exec_railOutOfRange hd hr)
  case ballAsserted => exact fun ball hd hb hdriven => hdanger hn (exec_ballReadbackFault hd hb hdriven)
  case ballReleased => exact fun ball hd hb hdriven => exec_ballReadbackFault hd hb hdriven
  case loopDanger =>
    intro l hl hc hk h
    exact hdanger (by simpa using hsafe) ((exec_loopUnlock hl hc hk).trans (congrArg _ (if_pos h)))
  case loopWarning =>
    intro l h1 h3 hc hk hb
    have hlesser : ¬(l = 0 ∨ l = 4 ∨ safetyBreak s = true) := by
      simp only [hb, Bool.false_eq_true, or_false]
      omega
    exact ⟨_, (exec_loopUnlock (by omega) hc hk).trans (congrArg _ (if_neg hlesser)), by simpa using hsafe, by simp⟩
  case breakin =>
    exact fun d hb hon hdue ht => ⟨hdanger hn (exec_breakinDueCheck hb hon hdue ht), exec_breakinDueCheck hb hon hdue ht⟩
  case synth =>
    intro hx
    refine ⟨fun hown hb => ?_, fun hown => ?_⟩
    · exact hdanger (by simpa using hsafe) ((exec_synthWindowExpiry hx).trans (congrArg _ (if_pos ⟨hown, hb⟩)))
    · exact (exec_synthWindowExpiry hx).trans (congrArg _ (if_neg (by simp [hown])))
  case selftest =>
    intro hx hd hp hdue
    refine ⟨⟨_, exec_periodicSelftest true hx hd hp hdue, ?_⟩, ⟨_, exec_periodicSelftest false hx hd hp hdue, ?_⟩⟩
    · rw [selftestEnds_passed, testPath_sid]
    · exact selftestEnds_failed ((testPath_safe n).trans hn)
  case monitor =>
    intro m e he hw
    refine ⟨exec_monitorWindow_unchecked he hw, fun hon hramp => ?_⟩
    obtain ⟨q, fault, told, hexec, hq⟩ := exec_monitorWindow_checked (m := m) he hw hon hramp
    have hmon (b : Bool) : (monReact (n.setMon q) b fault told).mon.breaches = q.breaches := by simp
    refine ⟨_, hexec, fun hb => (hmon _).trans (hq.trans (if_pos hb)), fun hb h1 => ?_,
      fun hb => (hmon _).trans (hq.trans (if_neg (ne_true_of_eq_false hb)))⟩
    rw [hb]
    rw [hb, if_pos rfl, h1] at hq
    obtain ⟨hsf, hcause, -⟩ := monReact_second_breach (s := n.setMon q) (by simpa using hn) (by simpa using hq) fault told
    exact ⟨hsf, hcause⟩

end Sys2Proof.Machine
end

section
/-! The proof about releases, firings, sample-timed actions, steps of Sidereal and reported outcomes (O42). -/

namespace Sys2Proof.Machine

/-! ## Releases and firings (R349–R352, R411) -/

section Releases

variable {s : State} {i : Nat} {v : Slot} {f : InFlight} {p : CmdSpec}

theorem exec_meridianRelease_plain (hn : nextRelease s = some (i, v)) (hv : v.sched = false)
    (hf : byTag (putSlot s i none) v.cmd.a.origin v.cmd.a.tag.toNat = some f) (hp : specOf v.cmd.op = some p) :
    exec .meridianRelease s = .next (release p { f with late := v.overdue s } (putSlot s i none)) := by
  show execMeridianRelease s = _
  simp only [execMeridianRelease, hn, hv, Bool.false_eq_true, if_false, releasePlain, hf, hp]

theorem exec_schedFiring_of_next (hn : nextRelease s = some (i, v)) (hv : v.sched = true) :
    exec (.schedFiring i) s = .next (fire i v s) := by
  show execSchedFiring i s = _
  simp only [execSchedFiring, hn, hv, and_self, if_true]

theorem fire_free (hf : byTag s v.cmd.a.origin v.cmd.a.tag.toNat = none) (hp : plainSpec v.cmd.op = some p) :
    fire i v s = release p (firingFlight s i v)
      (putSlot s i ({ v with fired := v.fired + 1 }.pass.resume s.sid.now)) := by
  simp only [fire, hf, hp, Option.isSome_none, Bool.false_eq_true, if_false]

theorem fire_skipped (hf : byTag s v.cmd.a.origin v.cmd.a.tag.toNat = some f) :
    fire i v s = evSchedOf (putSlot s i ({ v with skipped := v.skipped + 1 }.pass.resume s.sid.now)) 1 i 1 := by
  simp only [fire, hf, Option.isSome_some, if_true]

/-- With nothing to release, what is left is a release that Frost holds, which ends it. -/
theorem exec_release_of_none (hn : nextRelease s = none) :
    exec .meridianRelease s = .next (frostEnds s) ∧ exec (.schedFiring i) s = .next (frostEnds s) := by
  refine ⟨?_, ?_⟩
  · show execMeridianRelease s = _
    simp only [execMeridianRelease, hn]
  · show execSchedFiring i s = _
    simp only [execSchedFiring, hn]

end Releases

/-! ## Actions and outcomes that their islands report (R23, R350, R354, R487) -/

section Reports

variable {s : State} {t : Sid} {o : Origin} {tag : BitVec 10} {f : InFlight}

theorem exec_sampleTimedApply_at_sample {p : CmdSpec} (hf : byTag s o tag.toNat = some f) (hp : specOf f.cmd.op = some p)
    (hsample : p.sample = true) (hphase : f.phase = .executing) (hbegun : f.begun = false)
    (hdue : f.due ≤ (advance s t).sid.now) :
    exec (.sampleTimedApply o tag t) s = .next (launch p
      { f with late := f.late || decide (f.due + sampleStep (advance s t) f.cmd.op ≤ (advance s t).sid.now) }
      (advance s t)) := by
  show execSampleTimedApply o tag t s = _
  simp only [execSampleTimedApply, hf, hp]
  rw [if_pos ⟨hphase, hbegun, hsample, hdue⟩]

theorem exec_completionWrite_outcome {r : Outcome} (hf : byTag s o tag.toNat = some f) (hr : f.outcome = some r)
    (hown : ownOutcome f.cmd.op = false) :
    exec (.completionWrite o tag false t) s =
      .next (complete (advance s t) f r.status r.detail r.result (advance s t).sid.now s.ev.nextId) := by
  show execCompletionWrite o tag false t s = _
  simp only [execCompletionWrite, hf, hr, hown, Bool.false_eq_true, if_false, advance_frame]

theorem exec_completionWrite_internal (hf : byTag s o tag.toNat = some f) (hnone : noEffectYet f = true) :
    exec (.completionWrite o tag true t) s =
      .next (complete (countInternal (advance s t)) { f with late := false } stInternal 0 [] (advance s t).sid.now
        s.ev.nextId) := by
  show execCompletionWrite o tag true t s = _
  simp only [execCompletionWrite, hf, hnone, if_true, advance_frame]

end Reports

/-! ## Steps of Sidereal (R347, R348) -/

theorem Keeps.sid {m : Nat} {s t : State} (h : Keeps m s t) (hm : m.testBit 1 = false) : t.sid = s.sid := h.same .sid hm

theorem foldl_cutBlock_sid (l : List Nat) (s : State) : (l.foldl cutBlock s).sid = s.sid :=
  (Keeps.foldl (.refl _ s) fun _ _ h => cutBlock_keeps h (Sub.refl _)).sid rfl

theorem stepConsumers_sid (d : Int) (s : State) : (stepConsumers d s).sid = s.sid :=
  (stepConsumers_keeps (.refl _ s) (Sub.refl _)).sid rfl

theorem foldl_stepSlot_sid (l : List (Nat × Slot)) (s : State) : (l.foldl stepSlot s).sid = s.sid :=
  (Keeps.foldl (.refl _ s) fun _ _ h => stepSlot_keeps h (Sub.refl _)).sid rfl

@[simp] theorem evTimeCause_sid (s : State) (c : Nat) : (evTimeCause s c).sid = s.sid :=
  (evTimeCause_keeps (.refl _ s) (Sub.refl _)).sid rfl

theorem stepTarget_of_sid {s t : State} (h : t.sid = s.sid) (q : StepReq) : stepTarget t q = stepTarget s q := by
  simp only [stepTarget, h]

/-- A step moves Sidereal to its target, puts the next boundary at the first tick half a tick or more ahead, and is counted. -/
theorem applyStep_sid (s : State) (q : StepReq) :
    (applyStep s q).sid.now = stepTarget s q ∧
    (applyStep s q).sid.next = (stepTarget s q + tickU / 2 + tickU - 1) / tickU * tickU ∧
    (applyStep s q).sid.steps = sat 32 (s.sid.steps + 1) := by
  unfold applyStep
  dsimp only
  split <;> split <;> simp

theorem exec_siderealStep_sid {s : State} {q : StepReq} (h : dueStep s = some q) :
    ∃ u, exec .siderealStep s = .next u ∧ u.sid.now = stepTarget s q ∧
      u.sid.next = (stepTarget s q + tickU / 2 + tickU - 1) / tickU * tickU ∧ u.sid.steps = sat 32 (s.sid.steps + 1) := by
  have hcut := foldl_cutBlock_sid (s.lanes.map (·.1)) s
  have hstep := applyStep_sid ((s.lanes.map (·.1)).foldl cutBlock s) q
  rw [stepTarget_of_sid hcut, hcut] at hstep
  show ∃ u, execSiderealStep s = .next u ∧ _
  simp only [execSiderealStep, h]
  refine ⟨_, rfl, ?_⟩
  rw [foldl_stepSlot_sid, stepConsumers_sid]
  exact hstep

/-! ## The obligation -/

/-- Settles O42: one lemma for each kind of row. -/
theorem releasesFiringsAndStepsAct : Obligations.ReleasesFiringsAndStepsAct := by
  unfold Obligations.ReleasesFiringsAndStepsAct
  intro s t n
  refine ⟨?release, ?firing, ?skipped, ?frost, ?sample, ?step, ?outcome⟩
  case release => exact fun i v f p => exec_meridianRelease_plain
  case firing =>
    intro i v p hn hv hf hp
    rw [exec_schedFiring_of_next hn hv, fire_free hf hp]
  case skipped =>
    intro i v f hn hv hf
    rw [exec_schedFiring_of_next hn hv, fire_skipped hf]
  case frost => exact fun i => exec_release_of_none
  case sample => exact fun o tag f p => exec_sampleTimedApply_at_sample
  case step => exact fun q => exec_siderealStep_sid
  case outcome =>
    exact fun o tag f hf => ⟨fun r => exec_completionWrite_outcome hf, exec_completionWrite_internal hf⟩

end Sys2Proof.Machine
end

section
/-! The proof about the tick (O43). Where nothing is in flight, no ring exists, no packet waits and nothing is replayed, no
operation of a tick finds a command to complete, so that time is all that the tick's bookkeeping changes. -/

namespace Sys2Proof.Machine

/-! ## A device at rest -/

/-- Nothing is in flight, no ring exists, no packet waits and nothing is replayed; `c` and `d` are the commands and the time,
which stand still within a tick. -/
structure Idle (c : Commands) (d : Sidereal) (s : State) : Prop where
  none : c.list = []
  cmds : s.cmds = c
  now : s.sid.now = d.now
  next : s.sid.next = d.next
  ticks : s.sid.ticks = d.ticks
  rings : s.rings = []
  copied : s.mbx.copied = []
  seq : s.leg.seq = []
  firn : s.firn.st ≠ .replaying

/-- The units that `Idle` speaks of: Sidereal, the commands in flight, the rings, the mailbox, legacy mode and Firn. -/
abbrev idleSet : Nat := 549755814958

section Idle

variable {c : Commands} {d : Sidereal} {s t : State} {m : Nat}

/-- An operation that changes none of the units of `idleSet` leaves the device at rest. -/
theorem Idle.of_keeps (h : Idle c d s) (k : Keeps m s t) (hm : m &&& idleSet = 0) : Idle c d t := by
  have hbit {f : Field} (hf : idleSet.testBit f.idx = true) : m.testBit f.idx = false := by
    have e : (m &&& idleSet).testBit f.idx = false := by rw [hm, Nat.zero_testBit]
    simpa [Nat.testBit_and, hf] using e
  have hsid : t.sid = s.sid := k.same .sid (hbit (f := .sid) rfl)
  have hcmds : t.cmds = s.cmds := k.same .cmds (hbit (f := .cmds) rfl)
  have hrings : t.rings = s.rings := k.same .rings (hbit (f := .rings) rfl)
  have hmbx : t.mbx = s.mbx := k.same .mbx (hbit (f := .mbx) rfl)
  have hleg : t.leg = s.leg := k.same .leg (hbit (f := .leg) rfl)
  have hfirn : t.firn = s.firn := k.same .firn (hbit (f := .firn) rfl)
  exact ⟨h.none, hcmds.trans h.cmds, hsid ▸ h.now, hsid ▸ h.next, hsid ▸ h.ticks, hrings.trans h.rings, hmbx ▸ h.copied,
    hleg ▸ h.seq, hfirn ▸ h.firn⟩

/-- Firn may record, as long as its state stays. -/
theorem Idle.setFirn (h : Idle c d s) {f : Firn} (hf : f.st = s.firn.st) : Idle c d (s.setFirn f) :=
  ⟨h.none, h.cmds, h.now, h.next, h.ticks, h.rings, h.copied, h.seq, hf ▸ h.firn⟩

theorem Idle.setSid (h : Idle c d s) {v : Sidereal} (hnow : v.now = s.sid.now) (hnext : v.next = s.sid.next)
    (hticks : v.ticks = s.sid.ticks) : Idle c d (s.setSid v) :=
  ⟨h.none, h.cmds, hnow.trans h.now, hnext.trans h.next, hticks.trans h.ticks, h.rings, h.copied, h.seq, h.firn⟩

theorem Idle.ite {p : Prop} {_ : Decidable p} (h : Idle c d s) (k : Idle c d t) : Idle c d (if p then s else t) := by
  split <;> assumption

theorem Idle.foldl {α : Type} {f : State → α → State} (hf : ∀ s a, Idle c d s → Idle c d (f s a)) (l : List α)
    (h : Idle c d s) : Idle c d (l.foldl f s) := by
  induction l generalizing s with
  | nil => exact h
  | cons a l ih => exact ih (hf s a h)

theorem Idle.foldl_fst {α β : Type} {f : State × β → α → State × β} (hf : ∀ p a, Idle c d p.1 → Idle c d (f p a).1)
    (l : List α) {p : State × β} (h : Idle c d p.1) : Idle c d (l.foldl f p).1 := by
  induction l generalizing p with
  | nil => exact h
  | cons a l ih => exact ih (hf p a h)

/-! ### What is not there to be found -/

theorem Idle.list (h : Idle c d s) : s.cmds.list = [] := h.cmds ▸ h.none

theorem Idle.findFlight (h : Idle c d s) (p : InFlight → Bool) : findFlight s p = Option.none := by
  rw [Machine.findFlight, h.list, List.find?_nil]

theorem Idle.byTag (h : Idle c d s) (o : Origin) (tag : Nat) : byTag s o tag = Option.none := h.findFlight _

theorem Idle.executing (h : Idle c d s) (op tgt : Nat) : executing s op tgt = Option.none := h.findFlight _

theorem Idle.finishOp (h : Idle c d s) (op tgt st dt : Nat) (r : Bytes) (mark : Nat) : finishOp s op tgt st dt r mark = s := by
  rw [Machine.finishOp, h.executing]

theorem Idle.mget_rings (h : Idle c d s) (n : Nat) : mget s.rings n = Option.none := by
  rw [h.rings, mget]

/-! ### Operations that would complete a command, or write a ring, if there were one -/

theorem Idle.recordBlock (h : Idle c d s) (tgt seq : Nat) (b : Bytes) (u : Sid) : Idle c d (recordBlock s tgt seq b u) := by
  unfold Machine.recordBlock
  exact Idle.ite (h.setFirn rfl) h

theorem Idle.laneRing (h : Idle c d s) (tgt : Nat) : laneRing s tgt = Option.none := by
  rw [Machine.laneRing, h.rings, List.find?_nil, Option.map_none]

theorem Idle.putLane (h : Idle c d s) (tgt : Nat) (l : Lane) : Idle c d (putLane s tgt l) :=
  h.of_keeps (putLane_keeps (.refl _ s) (Sub.refl _)) rfl

theorem Idle.formBlock (h : Idle c d s) (tgt k : Nat) : Idle c d (formBlock s tgt k) := by
  unfold Machine.formBlock
  dsimp only
  split
  · exact h
  · rw [Idle.laneRing (c := c) (d := d)]
    all_goals
      refine Idle.recordBlock (Idle.ite ?_ (h.putLane ..)) _ _ _ _
      exact (h.putLane ..).of_keeps (evLaneOf_keeps (.refl _ _) (Sub.refl _)) rfl

theorem Idle.endService (h : Idle c d s) (n prog st dt : Nat) (cause : Option Nat) :
    Idle c d (endService s n prog st dt cause) := by
  have h1 : Idle c d (dropService s prog) := h.of_keeps (dropService_keeps (.refl _ s) (Sub.refl _)) rfl
  have hstart : startOf s n prog = Option.none := h.findFlight _
  unfold Machine.endService
  dsimp only
  rw [hstart]
  cases cause with
  | none => exact h1
  | some k => exact h1.of_keeps (evSvc_keeps (.refl _ _) (Sub.refl _)) rfl

theorem Idle.ofdmStops (h : Idle c d s) (n : Nat) : Idle c d (ofdmStops s n) := by
  unfold Machine.ofdmStops
  refine Idle.ite (Idle.foldl (fun _ _ g => g.endService ..) _ ?_) h
  exact h.of_keeps (putOfdm_keeps (.refl _ s) (Sub.refl _)) rfl

theorem Idle.stopLane (h : Idle c d s) (tgt : Nat) : Idle c d (stopLane s tgt) := by
  have hput (l : Lane) : Idle c d (Machine.putLane (cutBlock s tgt) tgt l) := Idle.putLane (h.formBlock ..) tgt l
  unfold Machine.stopLane
  refine Idle.of_keeps ?_ (usedChanged_keeps (.refl _ _) (Sub.refl _)) rfl
  exact Idle.ite ((hput _).ofdmStops _) ((hput _).of_keeps (surveyStops_keeps (.refl _ _) (Sub.refl _)) rfl)

theorem Idle.dropLaneCmds (h : Idle c d s) (tgt st : Nat) : dropLaneCmds s tgt st = s := by
  simp only [Machine.dropLaneCmds, finishTunes, h.list, List.filter_nil, List.foldl_nil]

theorem Idle.abandonSwitch (h : Idle c d s) (n : Nat) : Idle c d (abandonSwitch s n) := by
  have hend {u : State} (hu : Idle c d u) (a : Af) (tgt former : Nat) (b : Af) (i : Bool) :
      Idle c d (evAf (putAf u n a) tgt former b i true) :=
    hu.of_keeps (evAf_keeps (putAf_keeps (.refl _ u) (Sub.left _ _)) (Sub.right _ _)) rfl
  unfold Machine.abandonSwitch
  dsimp only
  split
  · exact h
  · exact hend h ..
  · have hstop := h.stopLane (0x0300 + byteAt (afOf s n).cfg 1)
    refine hend (Idle.ite h ?_) ..
    rw [hstop.dropLaneCmds]
    exact hstop.of_keeps (releaseLane_keeps (.refl _ _) (Sub.refl _)) rfl

theorem Idle.afApply1 (h : Idle c d s) (n : Nat) (b : Bytes) : Idle c d (afApply1 s n b) := by
  unfold Machine.afApply1
  refine Idle.ite (Idle.of_keeps ?_ (putAf_keeps (.refl _ _) (Sub.refl _)) rfl)
    (Idle.of_keeps (Idle.ite (h.abandonSwitch n) h) (putAf_keeps (.refl _ _) (Sub.refl _)) rfl)
  exact Idle.foldl (fun _ _ g => g.of_keeps (dropAfFlake_keeps (.refl _ _) (Sub.refl _)) rfl) _
    (Idle.ite (h.abandonSwitch n) h)

theorem Idle.afApply (h : Idle c d s) : Idle c d (afApply s) := by
  refine Idle.foldl (fun u e g => ?_) _ h
  split
  · exact g.afApply1 ..
  · exact g

/-- The settings that apply at the tick. -/
theorem Idle.applySettings (h : Idle c d s) : Idle c d (applySettings s) := by
  have hev : Idle c d (eventsApply s) := h.of_keeps (eventsApply_keeps (.refl _ _) (Sub.refl _)) rfl
  have hpanel := hev.of_keeps (panelApply_keeps (.refl _ _) (Sub.refl _)) rfl
  have hdemods := hpanel.of_keeps (demodsApply_keeps (.refl _ _) (Sub.refl _)) rfl
  have hflurry := hdemods.of_keeps (flurryApply_keeps (.refl _ _) (Sub.refl _)) rfl
  have hlinks := hflurry.afApply.of_keeps (linksApply_keeps (.refl _ _) (Sub.refl _)) rfl
  exact hlinks.of_keeps (blendApply_keeps (.refl _ _) (Sub.refl _)) rfl

/-- A slew of Sidereal that was asked for has begun; its `TIME_ACCEPT_STEP` is still to complete. -/
def slewBegun (s : State) : State :=
  let s1 := s.setSid { s.sid with slewReq := none }
  if s.sid.st = .refused then
    let s3 := toDisciplined s1
    s3.setSid { s3.sid with slewing := true, suspended := true, rPhase := slewPhase s s3.sid.offset }
  else s1

theorem Idle.slewBegun (h : Idle c d s) : Idle c d (slewBegun s) :=
  Idle.ite (h.setSid rfl rfl rfl) (h.setSid rfl rfl rfl)

theorem Idle.startSlew (h : Idle c d s) : Idle c d (startSlew s) := by
  cases hreq : s.sid.slewReq with
  | none => simpa only [Machine.startSlew, hreq] using h
  | some o =>
    have hbegun : Machine.startSlew s = Machine.slewBegun s := by
      have htag := h.slewBegun.byTag o.1 o.2
      unfold Machine.slewBegun at htag ⊢
      simp only [Machine.startSlew, hreq, htag]
    exact hbegun ▸ h.slewBegun

/-! ### The samples of a tick -/

theorem Idle.closeGap (h : Idle c d s) (src : Nat) : Idle c d (closeGap s src) := by
  unfold Machine.closeGap
  split
  · exact h.setFirn rfl
  · exact h

theorem Idle.recordZone (h : Idle c d s) (z : Nat) (ys : List ZoneSample) (u : Sid) : Idle c d (recordZone s z ys u) := by
  unfold Machine.recordZone
  refine Idle.ite h (Idle.ite (Idle.setFirn ?_ rfl) (Idle.setFirn (Idle.setFirn ?_ rfl) rfl))
  all_goals refine Idle.ite (Idle.setFirn h ?_) (Idle.closeGap (Idle.setFirn h ?_) _) <;> rfl

theorem Idle.levelZone (h : Idle c d s) (z : Nat) (ys : List ZoneSample) : Idle c d (levelZone s z ys) :=
  Idle.ite (h.setFirn rfl) h

theorem Idle.feedAnt (xs : List (List Int)) (u : Sid) {p : State × List (Nat × List ZoneSample)} (h : Idle c d p.1) (n : Nat) :
    Idle c d (feedAnt xs u p n).1 := by
  refine Idle.foldl_fst (fun q z g => ?_) _ (h.of_keeps (putAnt_keeps (.refl _ _) (Sub.refl _)) rfl)
  unfold feedZone
  dsimp only
  split
  · exact g
  · exact (Idle.recordZone (g.of_keeps (putZone_keeps (.refl _ _) (Sub.refl _)) rfl) ..).levelZone ..

theorem Idle.feed (h : Idle c d s) (xs : List (List Int)) (u : Sid) : Idle c d (feed s xs u) := by
  unfold Machine.feed
  refine Idle.ite h (Idle.foldl (fun _ _ g => g.of_keeps (tapTakes_keeps (.refl _ _) (Sub.refl _)) rfl) _ ?_)
  refine Idle.foldl (fun _ _ g => g.of_keeps (laneTakes_keeps (.refl _ _) (Sub.refl _)) rfl) _ ?_
  exact Idle.foldl_fst (fun _ n g => Idle.feedAnt xs u g n) _ h

theorem Idle.divsTick (h : Idle c d s) : Idle c d (divsTick s) := by
  refine Idle.foldl (fun u tgt g => ?_) _ h
  unfold divTakes
  dsimp only
  split
  · exact g
  · rw [(g.putLane ..).byTag]
    exact g.putLane ..

theorem Idle.replayTick (h : Idle c d s) (look : Cmd → Option CmdSpec) : replayTick look s = s := if_pos h.firn

theorem Idle.levelTick (h : Idle c d s) : Idle c d (levelTick s) := Idle.ite h (h.setFirn rfl)

theorem Idle.streamFirn (h : Idle c d s) : streamFirn s = s := by
  simp only [Machine.streamFirn, firnRing, h.rings, List.find?_nil, Option.map_none]

theorem Idle.tape (h : Idle c d s) (kind : Nat) (b : Bytes) (u : Sid) : Idle c d (tape s kind b u) :=
  Idle.ite (h.setFirn rfl) h

theorem Idle.agcAll (h : Idle c d s) (x : TickIn) : Idle c d (agcAll s x) := by
  refine Idle.foldl (fun u e g => ?_) _ (h.of_keeps (setRf_keeps (.refl _ _) (Sub.refl _)) rfl)
  exact Idle.ite (Idle.ite (g.tape ..) g) g

theorem Idle.latchNow (h : Idle c d s) (index : Nat) : Idle c d (latchNow s index) := by
  have hlatch : Idle c d (latch s index s.sid.now) := h.of_keeps (latch_keeps (.refl _ _) (Sub.refl _)) rfl
  exact Idle.ite (Idle.foldl (fun _ _ g => g.tape ..) _ hlatch) hlatch

/-! ### The exciter -/

theorem Idle.setTx (h : Idle c d s) (x : Tx) : Idle c d (s.setTx x) :=
  h.of_keeps (setTx_keeps (.refl _ _) (Sub.refl _)) rfl

theorem Idle.serveWaiting (h : Idle c d s) (n : Nat) : Idle c d (serveWaiting s n) := by
  unfold Machine.serveWaiting
  split
  · refine Idle.foldl (fun u e g => ?_) _ h
    unfold serveOne
    split
    · exact g
    · split
      · exact g
      · exact Idle.ite (g.endService ..) (Idle.ite (g.endService ..)
          (g.of_keeps (setServices_keeps (.refl _ _) (Sub.refl _)) rfl))
  · exact h

theorem Idle.startAlertService (h : Idle c d s) : Idle c d (startAlertService s) := by
  unfold Machine.startAlertService
  split
  · dsimp only
    split
    · exact Idle.serveWaiting (h.of_keeps (setServices_keeps (.refl _ _) (Sub.refl _)) rfl) _
    · exact h
  · exact h

theorem Idle.breakStarts (h : Idle c d s) (rank i : Nat) : Idle c d (breakStarts s rank i) := by
  have hend : (if rank ≤ 2 then [0x0901, 0x0902].foldl (fun q op => Machine.finishOp q op 0x0900 stSafetyHold 0 [] s.ev.nextId) s
      else s) = s := by
    split
    · simp only [List.foldl_cons, List.foldl_nil, h.finishOp]
    · rfl
  unfold Machine.breakStarts
  dsimp only
  rw [hend]
  refine Idle.of_keeps (Idle.setTx ?_ _) (pend_keeps (.refl _ _) (Sub.refl _)) rfl
  exact Idle.ite h (h.of_keeps (tuneTo_keeps (.refl _ _) (Sub.refl _)) rfl)

theorem Idle.beginBreak (h : Idle c d s) (rank : Nat) : Idle c d (beginBreak s rank) := by
  unfold Machine.beginBreak
  refine Idle.ite (h.of_keeps (refuseBreak_keeps (.refl _ _) (Sub.refl _)) rfl) ?_
  have htold (x : Tx) : Idle c d (evTxOf (s.setTx x) 0x0C rank) :=
    (h.setTx x).of_keeps (evTxOf_keeps (.refl _ _) (Sub.refl _)) rfl
  refine Idle.ite (Idle.of_keeps ?_ (mayResume_keeps (.refl _ _) (Sub.refl _)) rfl) (Idle.breakStarts ?_ _ _)
  all_goals exact Idle.ite (htold _).startAlertService (htold _)

theorem Idle.brkUpdate (h : Idle c d s) : Idle c d (brkUpdate s) := by
  unfold Machine.brkUpdate
  refine Idle.ite (h.setTx _) (Idle.ite (Idle.of_keeps ?_ (endBreak_keeps (.refl _ _) (Sub.refl _)) rfl) (Idle.beginBreak ?_ _))
  all_goals
    have htold (k : Nat) (x : Tx) : Idle c d (evTxOf (s.setTx x) 0x0D k) :=
      (h.setTx x).of_keeps (evTxOf_keeps (.refl _ _) (Sub.refl _)) rfl
    exact Idle.ite (Idle.of_keeps (Idle.ite (htold ..) (h.setTx _)) (dropAlertService_keeps (.refl _ _) (Sub.refl _)) rfl)
      (Idle.ite (htold ..) (h.setTx _))

theorem Idle.sourceTick (h : Idle c d s) (x : HostBreak) : (sourceTick s x).1 = s := by
  unfold Machine.sourceTick
  split
  · rfl
  · simp only [ringPlays, h.mget_rings]
  · rfl
  · rfl
  · rfl

/-- The source of the programme has been chosen anew. -/
def sourceChosen (s : State) : State :=
  if txSource s = s.tx.src then s else s.setTx { s.tx with src := txSource s, srcFrom := s.tx.src, fadePos := 0 }

theorem Idle.sourceChosen (h : Idle c d s) : Idle c d (sourceChosen s) := Idle.ite h (h.setTx _)

/-- The state after the programme of a tick, from the source that was chosen. -/
theorem programmeTick_fst (s : State) :
    (programmeTick s).1 =
      let s1 := sourceChosen s
      let s2 := (sourceTick s1 s1.tx.src).1
      let s3 := (sourceTick s2 s1.tx.srcFrom).1
      if 48 * byteAt s.tx.brk 7 ≤ s1.tx.fadePos then s2 else s3.setTx { s3.tx with fadePos := s1.tx.fadePos + 15 } :=
  apply_ite Prod.fst ..

theorem Idle.programmeTick (h : Idle c d s) : Idle c d (programmeTick s).1 := by
  rw [programmeTick_fst]
  dsimp only
  rw [h.sourceChosen.sourceTick, h.sourceChosen.sourceTick]
  exact Idle.ite h.sourceChosen (h.sourceChosen.setTx _)

theorem Idle.exciterTick (h : Idle c d s) : Idle c d (exciterTick s) := by
  have hline (x : Tx) : Idle c d ((Machine.programmeTick s).1.setTx x) := h.programmeTick.setTx x
  unfold Machine.exciterTick
  refine Idle.ite h ?_
  dsimp only
  split
  · simp only [(hline _).mget_rings, ite_self]
    exact (hline _).setTx _
  · exact hline _

/-! ### The tick -/

/-- The samples of a tick, what of them is recorded, and the units that work on them. -/
theorem Idle.samplesTick (h : Idle c d s) (x : TickIn) :
    Idle c d (streamsTick (groupsTick (blendNext (pathsTick x.tsDenied (delaysTick (demodsTick (Machine.agcAll (Machine.streamFirn
      (Machine.levelTick (Machine.replayTick (fun c => specOf c.op) (Machine.divsTick (Machine.feed s x.adc s.sid.now))))) x))))))) := by
  have hdivs := (h.feed x.adc s.sid.now).divsTick
  have hlevel := hdivs.levelTick
  rw [hdivs.replayTick, hlevel.streamFirn]
  have hdemods := (hlevel.agcAll x).of_keeps (demodsTick_keeps (.refl _ _) (Sub.refl _)) rfl
  have hdelays := hdemods.of_keeps (delaysTick_keeps (.refl _ _) (Sub.refl _)) rfl
  have hpaths := hdelays.of_keeps (pathsTick_keeps (a1 := x.tsDenied) (.refl _ _) (Sub.refl _)) rfl
  have hblend := hpaths.of_keeps (blendNext_keeps (.refl _ _) (Sub.refl _)) rfl
  have hgroups := hblend.of_keeps (groupsTick_keeps (.refl _ _) (Sub.refl _)) rfl
  exact hgroups.of_keeps (streamsTick_keeps (.refl _ _) (Sub.refl _)) rfl

/-- What the units do at a tick. -/
theorem Idle.tickUnits (h : Idle c d s) (x : TickIn) : Idle c d (Machine.tickUnits x s) := by
  unfold Machine.tickUnits
  refine Idle.ite ?_ h
  have hboost := (h.samplesTick x).of_keeps (boostTick_keeps (.refl _ _) (Sub.refl _)) rfl
  have hptt (y : Tx) := (hboost.setTx y).of_keeps (pttTick_keeps (.refl _ _) (Sub.refl _)) rfl
  have hta (y : Tx) := (hptt y).of_keeps (taTrigger_keeps (.refl _ _) (Sub.refl _)) rfl
  exact ((hta _).brkUpdate.exciterTick.of_keeps (dueTick_keeps (.refl _ _) (Sub.refl _)) rfl).latchNow _

/-- With no packet to take, a turn of the mailbox takes none. -/
theorem Idle.turn_mailbox (h : Idle c d s) (look : Cmd → Option CmdSpec) : turn look s 128 = s := by
  have htake : takeMailbox look s = Option.none := by rw [takeMailbox, h.copied]
  simp only [turn, if_true, htake, ite_self]

theorem Idle.turns (h : Idle c d s) : ∀ n ∈ Machine.turns s, n = 128 := by
  intro n hn
  simp only [Machine.turns, h.rings, List.filter_nil, List.map_nil, List.nil_append, List.mem_append, List.mem_filter,
    List.mem_singleton] at hn
  exact hn.elim (·.1) (·.1)

theorem Idle.foldl_turn (h : Idle c d s) (look : Cmd → Option CmdSpec) {l : List Nat} (hl : ∀ n ∈ l, n = 128) :
    l.foldl (turn look) s = s := by
  induction l with
  | nil => rfl
  | cons n l ih =>
    rw [List.foldl_cons, hl n (List.mem_cons_self ..), h.turn_mailbox]
    exact ih fun k hk => hl k (List.mem_cons_of_mem _ hk)

theorem Idle.rounds (h : Idle c d s) (look : Cmd → Option CmdSpec) (k : Nat) : Machine.rounds look k (Machine.turns s) s = s := by
  cases k with
  | zero => rfl
  | succ k => simp only [Machine.rounds, h.foldl_turn look h.turns, if_true]

theorem Idle.tickHeld (h : Idle c d s) (look : Cmd → Option CmdSpec) (start k : Nat) : Machine.tickHeld look start k s = s := by
  cases k with
  | zero => rfl
  | succ k =>
    have hfreed : nextFreed start s = Option.none := by rw [nextFreed, h.list]; rfl
    simp only [Machine.tickHeld, hfreed]

/-- With no command and no packet, the tick's commands are the settings that apply. -/
theorem Idle.tickCommands (h : Idle c d s) (look : Cmd → Option CmdSpec) :
    Machine.tickCommands look s = Machine.applySettings s := by
  have hset := h.applySettings
  have hsettle : settleNext ((s.cmds.list.filter (dueFlight s)).foldl (launchDue look) s) = Machine.applySettings s := by
    simp only [settleNext, h.list, hset.list, List.filter_nil, List.foldl_nil]
  unfold Machine.tickCommands
  dsimp only
  rw [hsettle, hset.tickHeld, hset.rounds, legacyNext, hset.seq]

/-- The units before the samples of a tick. -/
theorem Idle.beforeSamples (h : Idle c d s) (x : TickIn) :
    Idle c d (Machine.startSlew (panelTick (releaseSda (freeEnded (tickEvents (Machine.applySettings
      (loopsTick s x.ref x.xo))))))) := by
  have hloops := h.of_keeps (loopsTick_keeps (a1 := x.ref) (a2 := x.xo) (.refl _ _) (Sub.refl _)) rfl
  have hevents := hloops.applySettings.of_keeps (tickEvents_keeps (.refl _ _) (Sub.refl _)) rfl
  have hfree := hevents.of_keeps (freeEnded_keeps (.refl _ _) (Sub.refl _)) rfl
  have hsda := hfree.of_keeps (releaseSda_keeps (.refl _ _) (Sub.refl _)) rfl
  exact (hsda.of_keeps (panelTick_keeps (.refl _ _) (Sub.refl _)) rfl).startSlew

/-- The readings of the sensors are taken over. -/
theorem Idle.sensed (h : Idle c d s) (x : TickIn) : Idle c d (thermalWarning (sense s x)) := by
  have hsense := h.of_keeps (sense_keeps (a1 := x) (.refl _ _) (Sub.refl _)) rfl
  exact hsense.of_keeps (thermalWarning_keeps (.refl _ _) (Sub.refl _)) rfl

end Idle

theorem sense_readings (s : State) (x : TickIn) :
    (sense s x).pwr.tj = x.tj ∧ (sense s x).pwr.iin = x.iin ∧ (sense s x).pwr.vin = x.vin := by
  simp [sense]

/-- The boundary has been reached: its time is the present, the next lies one tick ahead. -/
theorem tickTime_sid (s : State) :
    (tickTime s).sid.now = s.sid.next ∧ (tickTime s).sid.next = s.sid.next + tickU ∧ (tickTime s).sid.ticks = s.sid.ticks + 1 :=
  ⟨rfl, rfl, rfl⟩

/-- With nothing in flight, no ring, no packet and no recorded command, a tick ends at rest, with the readings taken over. -/
theorem execTick_idle {m : TickIn} {s : State} (hrun : s.sid.running = true) (hres : s.pwr.resetPend = false)
    (hhalt : s.pol.halted = false) (h : Idle (tickTime s).cmds (tickTime s).sid (tickTime s)) :
    ∃ q, exec (.tick m) s = .next q ∧ Idle (tickTime s).cmds (tickTime s).sid q ∧
      q.pwr.tj = m.tj ∧ q.pwr.iin = m.iin ∧ q.pwr.vin = m.vin := by
  have hunits := (h.beforeSamples m).tickUnits m
  have hsensed := hunits.sensed m
  have hhalt' : (tickTime s).pol.halted = false := hhalt
  refine ⟨_, ?_, hsensed.applySettings, ?_⟩
  · show execTick m s = _
    simp only [execTick, hrun, hres, hhalt', hsensed.tickCommands]
    rfl
  · have hpwr (u : State) : (applySettings (thermalWarning u)).pwr = u.pwr :=
      ((applySettings_keeps (.refl _ _) (Sub.refl _)).same .pwr rfl).trans
        ((thermalWarning_keeps (.refl _ u) (Sub.refl _)).same .pwr rfl)
    rw [hpwr]
    exact sense_readings ..

/-! ## The obligation -/

/-- Settles O43: what a tick does is read off its definition, except that at rest nothing is completed, which is `execTick_idle`. -/
theorem tickAdvancesTime : Obligations.TickAdvancesTime := by
  unfold Obligations.TickAdvancesTime
  intro m s
  refine ⟨?stopped, ?reset, ?halted, ?rest⟩
  case stopped => exact fun hrun => if_pos hrun
  case reset =>
    intro hrun hres
    show execTick m s = _
    simp only [execTick, hrun, hres]
    rfl
  case halted =>
    intro hrun hres hhalt
    have hhalt' : (tickTime s).pol.halted = true := hhalt
    refine ⟨tickTime s, ?_, rfl, rfl, rfl, rfl⟩
    show execTick m s = _
    simp only [execTick, hrun, hres, hhalt']
    rfl
  case rest =>
    intro hrun hres hhalt hlist hrings hmbx hseq hfirn
    have hidle : Idle (tickTime s).cmds (tickTime s).sid (tickTime s) :=
      ⟨hlist, rfl, rfl, rfl, rfl, hrings, hmbx, hseq, hfirn⟩
    obtain ⟨q, hq, hend, htj, hiin, hvin⟩ := execTick_idle (m := m) hrun hres hhalt hidle
    obtain ⟨hnow, hnext, hticks⟩ := tickTime_sid s
    exact ⟨q, hq, hend.now.trans hnow, hend.next.trans hnext, hend.ticks.trans hticks, htj, hiin, hvin,
      (congrArg Commands.completed hend.cmds).trans rfl⟩

end Sys2Proof.Machine
end

section
/-! The proof that a packet is read back from its bytes as it was written (O55). -/

namespace Sys2Proof.Machine

/-! ## Little-endian numbers (R9) -/

@[simp] theorem length_leBytes (n v : Nat) : (leBytes n v).length = n := by
  induction n generalizing v with
  | zero => rfl
  | succ n ih => simp [leBytes, ih]

/-- A number that lies within the first bytes does not see what follows them. -/
theorem le_append_left {a : Bytes} (b : Bytes) {i n : Nat} (h : i + n ≤ a.length) : le (a ++ b) i n = le a i n := by
  induction n generalizing i with
  | zero => rfl
  | succ n ih =>
    have hbyte : byteAt (a ++ b) i = byteAt a i := by
      simp [byteAt, List.getElem?_append_left (show i < a.length by omega)]
    rw [le, le, hbyte, ih (by omega)]

/-- A number that lies behind the first bytes does not see them. -/
theorem le_append_right {a : Bytes} (b : Bytes) {i n : Nat} (h : a.length ≤ i) :
    le (a ++ b) i n = le b (i - a.length) n := by
  induction n generalizing i with
  | zero => rfl
  | succ n ih =>
    have hbyte : byteAt (a ++ b) i = byteAt b (i - a.length) := by
      simp [byteAt, List.getElem?_append_right h]
    rw [le, le, hbyte, ih (by omega), Nat.sub_add_comm h]

/-- A number reads as it was written, as far as its bytes hold it. -/
@[simp] theorem le_leBytes (n v : Nat) : le (leBytes n v) 0 n = v % 256 ^ n := by
  induction n generalizing v with
  | zero => simp [le, Nat.mod_one]
  | succ n ih =>
    have hfirst : byteAt (leBytes (n + 1) v) 0 = v % 256 := by simp [byteAt, leBytes]
    have hrest : le (leBytes (n + 1) v) (0 + 1) n = v / 256 % 256 ^ n := by
      rw [← ih (v / 256)]
      exact le_append_right (a := [BitVec.ofNat 8 v]) _ (Nat.le_refl 1)
    rw [le, hfirst, hrest, Nat.pow_succ', Nat.mod_mul]

/-! ## The fields of a packet (Table 2-1) -/

@[simp] theorem fit_length (b : Bytes) : fit b.length b = b := by simp [fit]

section Packet

variable (c : Cmd)

@[simp] theorem length_packetBytes : (packetBytes c).length = 16 + c.a.payload.length := by
  simp [packetBytes, Cmd.pl]
  omega

theorem packetBytes_op : le (packetBytes c) 0 2 = c.op % 2 ^ 16 := by
  simp [packetBytes, le_append_left]

/-- `TAG` and the flags share bytes 2–3. -/
theorem packetBytes_tag_flags : le (packetBytes c) 2 2 = c.a.tag.toNat + 1024 * c.a.flags.toNat := by
  have htag := c.a.tag.isLt
  have hflags := c.a.flags.isLt
  simp [packetBytes, le_append_left, le_append_right]
  omega

theorem packetBytes_len : le (packetBytes c) 4 2 = c.a.payload.length % 2 ^ 16 := by
  simp [packetBytes, le_append_left, le_append_right, Cmd.len]

theorem packetBytes_target : le (packetBytes c) 6 2 = c.a.target.toNat := by
  simp [packetBytes, le_append_left, le_append_right, Cmd.tgt, Nat.mod_eq_of_lt c.a.target.isLt]

theorem packetBytes_when : le (packetBytes c) 8 8 = c.a.whn.toNat := by
  simp [packetBytes, le_append_left, le_append_right, Nat.mod_eq_of_lt c.a.whn.isLt]

theorem packetBytes_payload : (packetBytes c).drop 16 = c.a.payload :=
  List.drop_left' (by simp)

end Packet

theorem ofNat_tag (t : BitVec 10) (f : Nat) : BitVec.ofNat 10 (t.toNat + 1024 * f) = t := by
  apply BitVec.eq_of_toNat_eq
  have := t.isLt
  simp only [BitVec.toNat_ofNat]
  omega

theorem ofNat_flags (t : BitVec 10) (f : BitVec 6) : BitVec.ofNat 6 ((t.toNat + 1024 * f.toNat) / 1024) = f := by
  apply BitVec.eq_of_toNat_eq
  have ht := t.isLt
  have hf := f.isLt
  simp only [BitVec.toNat_ofNat]
  omega

/-- Settles O55: each field of Table 2-1 reads as it was written. -/
theorem packetsReadBack : Obligations.PacketsReadBack := by
  unfold Obligations.PacketsReadBack
  intro c hop hlen
  refine ⟨?_, length_packetBytes c⟩
  simp only [packetCmd, packetBytes_op, packetBytes_tag_flags, packetBytes_len, packetBytes_target, packetBytes_when,
    packetBytes_payload, Nat.mod_eq_of_lt hop, Nat.mod_eq_of_lt hlen, ofNat_tag, ofNat_flags, fit_length, BitVec.ofNat_toNat,
    BitVec.setWidth_eq]

end Sys2Proof.Machine
end

section
/-! The proof that every step keeps `Inv` (O57), and that reset has it (O58). Laws/Keeps<Family>.lean says of every operation
that it keeps each part of `Inv`; here the rows are gathered. -/

namespace Sys2Proof.Machine

/-! ## Every row -/

/-- The command of a row is the one that a packet with its opcode finds. -/
theorem specOf_hostCommand {i : Instr} {sp : CmdSpec} {a : Args} (h : hostCommand i = some (sp, a)) :
    specOf sp.op = some sp := by
  cases i <;> cases h <;> rfl

/-- Every row keeps each part of `Inv`: a host command because its packet does, any other row because its own operation does. -/
theorem exec_keeps (i : Instr) (s : State) : ∃ m, NextKeeps m s (exec i s) := by
  have start (m : Nat) : Keeps m s s := .refl m s
  cases hc : hostCommand i with
  | some p => exact ⟨_, ⟨fun _ => exec_host_keeps (sp := p.1) (a := p.2) hc (specOf_keeps (specOf_hostCommand hc))⟩⟩
  | none =>
    cases i with
    | nop _ => exact ⟨_, execNop_keeps (start _) (Sub.refl _)⟩
    | g1Identify => exact ⟨_, execG1Identify_keeps (start _) (Sub.refl _)⟩
    | g1GetStatus => exact ⟨_, execG1GetStatus_keeps (start _) (Sub.refl _)⟩
    | g1GetCaps => exact ⟨_, execG1GetCaps_keeps (start _) (Sub.refl _)⟩
    | fmTune => exact ⟨_, execFmTune_keeps (start _) (Sub.refl _)⟩
    | amTune => exact ⟨_, execAmTune_keeps (start _) (Sub.refl _)⟩
    | dabTune => exact ⟨_, execDabTune_keeps (start _) (Sub.refl _)⟩
    | drmTune => exact ⟨_, execDrmTune_keeps (start _) (Sub.refl _)⟩
    | rxStop => exact ⟨_, execRxStop_keeps (start _) (Sub.refl _)⟩
    | fmConfig => exact ⟨_, execFmConfig_keeps (start _) (Sub.refl _)⟩
    | amConfig => exact ⟨_, execAmConfig_keeps (start _) (Sub.refl _)⟩
    | signalRead => exact ⟨_, execSignalRead_keeps (start _) (Sub.refl _)⟩
    | rdsRead => exact ⟨_, execRdsRead_keeps (start _) (Sub.refl _)⟩
    | ensembleRead => exact ⟨_, execEnsembleRead_keeps (start _) (Sub.refl _)⟩
    | serviceListRead => exact ⟨_, execServiceListRead_keeps (start _) (Sub.refl _)⟩
    | servicePlay => exact ⟨_, execServicePlay_keeps (start _) (Sub.refl _)⟩
    | serviceHalt => exact ⟨_, execServiceHalt_keeps (start _) (Sub.refl _)⟩
    | g1UndefinedCode => exact ⟨_, execG1UndefinedCode_keeps (start _) (Sub.refl _)⟩
    | go _ => exact ⟨_, execGo_keeps (start _) (Sub.refl _)⟩
    | mailboxCopy => exact ⟨_, execMailboxCopy_keeps (start _) (Sub.refl _)⟩
    | cplPop _ => exact ⟨_, execCplPop_keeps (start _) (Sub.refl _)⟩
    | overflowClear _ => exact ⟨_, execOverflowClear_keeps (start _) (Sub.refl _)⟩
    | owner _ _ => exact ⟨_, execOwner_keeps (start _) (Sub.refl _)⟩
    | vlogClear link => exact ⟨_, execVlogClear_keeps (a1 := link) (start _) (Sub.refl _)⟩
    | pageSel _ => exact ⟨_, execPageSel_keeps (start _) (Sub.refl _)⟩
    | legEn _ _ => exact ⟨_, execLegEn_keeps (start _) (Sub.refl _)⟩
    | ctrlFailClear _ => exact ⟨_, execCtrlFailClear_keeps (start _) (Sub.refl _)⟩
    | doorbellWrite _ _ _ => exact ⟨_, execDoorbellWrite_keeps (start _) (Sub.refl _)⟩
    | registerWrite _ _ _ _ => exact ⟨_, execRegisterWrite_keeps (start _) (Sub.refl _)⟩
    | bar0InvalidAccess write _ size =>
      exact ⟨_, execBar0InvalidAccess_keeps (a1 := write) (a3 := size) (start _) (Sub.refl _)⟩
    | i2cStart => exact ⟨_, execI2cStart_keeps (start _) (Sub.refl _)⟩
    | i2cAddress _ => exact ⟨_, execI2cAddress_keeps (start _) (Sub.refl _)⟩
    | i2cStop => exact ⟨_, execI2cStop_keeps (start _) (Sub.refl _)⟩
    | i2cRepeatedStart => exact ⟨_, execI2cRepeatedStart_keeps (start _) (Sub.refl _)⟩
    | i2cControllerNack => exact ⟨_, execI2cControllerNack_keeps (start _) (Sub.refl _)⟩
    | i2cWakeAddressMatch _ _ => exact ⟨_, execI2cWakeAddressMatch_keeps (start _) (Sub.refl _)⟩
    | evBusStuck _ => exact ⟨_, execEvBusStuck_keeps (start _) (Sub.refl _)⟩
    | inBandRequest => exact ⟨_, execInBandRequest_keeps (start _) (Sub.refl _)⟩
    | ibrCollision => exact ⟨_, execIbrCollision_keeps (start _) (Sub.refl _)⟩
    | controllerWrite _ => exact ⟨_, execControllerWrite_keeps (start _) (Sub.refl _)⟩
    | tick _ => exact ⟨_, execTick_keeps (start _) (Sub.refl _)⟩
    | completionWrite _ _ _ _ => exact ⟨_, execCompletionWrite_keeps (start _) (Sub.refl _)⟩
    | completionRingSpace _ => exact ⟨_, execCompletionRingSpace_keeps (start _) (Sub.refl _)⟩
    | eventWindowClose => exact ⟨_, execEventWindowClose_keeps (start _) (Sub.refl _)⟩
    | urgentEventPost => exact ⟨_, execUrgentEventPost_keeps (start _) (Sub.refl _)⟩
    | msixInterrupt _ => exact ⟨_, execMsixInterrupt_keeps (start _) (Sub.refl _)⟩
    | modTimeExpiry _ _ => exact ⟨_, execModTimeExpiry_keeps (start _) (Sub.refl _)⟩
    | mailboxVector => exact ⟨_, execMailboxVector_keeps (start _) (Sub.refl _)⟩
    | irqNUpdate => exact ⟨_, execIrqNUpdate_keeps (start _) (Sub.refl _)⟩
    | streamDescriptorUse _ _ => exact ⟨_, execStreamDescriptorUse_keeps (start _) (Sub.refl _)⟩
    | dmaError _ _ => exact ⟨_, execDmaError_keeps (start _) (Sub.refl _)⟩
    | pcieIslandReset _ _ => exact ⟨_, execPcieIslandReset_keeps (start _) (Sub.refl _)⟩
    | pcieLinkUp _ _ _ => exact ⟨_, execPcieLinkUp_keeps (start _) (Sub.refl _)⟩
    | pcieD3hot _ => exact ⟨_, execPcieD3hot_keeps (start _) (Sub.refl _)⟩
    | sgmiiLinkChange _ _ _ => exact ⟨_, execSgmiiLinkChange_keeps (start _) (Sub.refl _)⟩
    | ptpMessage _ _ => exact ⟨_, execPtpMessage_keeps (start _) (Sub.refl _)⟩
    | ptpBmcaRoleChange _ _ _ _ => exact ⟨_, execPtpBmcaRoleChange_keeps (start _) (Sub.refl _)⟩
    | udpDatagram _ _ => exact ⟨_, execUdpDatagram_keeps (start _) (Sub.refl _)⟩
    | reassemblyTimeout _ _ _ => exact ⟨_, execReassemblyTimeout_keeps (start _) (Sub.refl _)⟩
    | audioInStreamStop _ => exact ⟨_, execAudioInStreamStop_keeps (start _) (Sub.refl _)⟩
    | audioOutDatagram _ _ => exact ⟨_, execAudioOutDatagram_keeps (start _) (Sub.refl _)⟩
    | sfnFramePacketSend _ _ => exact ⟨_, execSfnFramePacketSend_keeps (start _) (Sub.refl _)⟩
    | powerOn _ _ => exact ⟨_, execPowerOn_keeps (start _) (Sub.refl _)⟩
    | resetN _ _ => exact ⟨_, execResetN_keeps (start _) (Sub.refl _)⟩
    | vinReset _ _ => exact ⟨_, execVinReset_keeps (start _) (Sub.refl _)⟩
    | bringUp _ _ => exact ⟨_, execBringUp_keeps (start _) (Sub.refl _)⟩
    | bringupStepComplete _ _ => exact ⟨_, execBringupStepComplete_keeps (start _) (Sub.refl _)⟩
    | evBrownoutWarn _ _ _ => exact ⟨_, execEvBrownoutWarn_keeps (start _) (Sub.refl _)⟩
    | brownoutRecovery _ _ => exact ⟨_, execBrownoutRecovery_keeps (start _) (Sub.refl _)⟩
    | frostEntryComplete _ => exact ⟨_, execFrostEntryComplete_keeps (start _) (Sub.refl _)⟩
    | frostExit _ => exact ⟨_, execFrostExit_keeps (start _) (Sub.refl _)⟩
    | permafrostEntry => exact ⟨_, execPermafrostEntry_keeps (start _) (Sub.refl _)⟩
    | wakeN _ _ _ => exact ⟨_, execWakeN_keeps (start _) (Sub.refl _)⟩
    | wakeTimerExpiry => exact ⟨_, execWakeTimerExpiry_keeps (start _) (Sub.refl _)⟩
    | avalancheEntryComplete _ => exact ⟨_, execAvalancheEntryComplete_keeps (start _) (Sub.refl _)⟩
    | avalancheExitComplete _ => exact ⟨_, execAvalancheExitComplete_keeps (start _) (Sub.refl _)⟩
    | boostUnitBegin => exact ⟨_, execBoostUnitBegin_keeps (start _) (Sub.refl _)⟩
    | thermalGovernorCheck => exact ⟨_, execThermalGovernorCheck_keeps (start _) (Sub.refl _)⟩
    | powerLimitCheck => exact ⟨_, execPowerLimitCheck_keeps (start _) (Sub.refl _)⟩
    | thermalShutdown _ => exact ⟨_, execThermalShutdown_keeps (start _) (Sub.refl _)⟩
    | fwEraseComplete => exact ⟨_, execFwEraseComplete_keeps (start _) (Sub.refl _)⟩
    | fwProgramComplete => exact ⟨_, execFwProgramComplete_keeps (start _) (Sub.refl _)⟩
    | fwVerifyComplete _ _ => exact ⟨_, execFwVerifyComplete_keeps (start _) (Sub.refl _)⟩
    | fwMarkerComplete _ => exact ⟨_, execFwMarkerComplete_keeps (start _) (Sub.refl _)⟩
    | regCommitComplete _ _ => exact ⟨_, execRegCommitComplete_keeps (start _) (Sub.refl _)⟩
    | regTableTakesEffect => exact ⟨_, execRegTableTakesEffect_keeps (start _) (Sub.refl _)⟩
    | referenceLoss _ => exact ⟨_, execReferenceLoss_keeps (start _) (Sub.refl _)⟩
    | referenceGlitch _ => exact ⟨_, execReferenceGlitch_keeps (start _) (Sub.refl _)⟩
    | frequencyJump _ _ => exact ⟨_, execFrequencyJump_keeps (start _) (Sub.refl _)⟩
    | referenceReturn => exact ⟨_, execReferenceReturn_keeps (start _) (Sub.refl _)⟩
    | qualificationComplete => exact ⟨_, execQualificationComplete_keeps (start _) (Sub.refl _)⟩
    | frequencyAcquisitionComplete _ => exact ⟨_, execFrequencyAcquisitionComplete_keeps (start _) (Sub.refl _)⟩
    | buildOutLock _ _ => exact ⟨_, execBuildOutLock_keeps (start _) (Sub.refl _)⟩
    | loopLock _ _ => exact ⟨_, execLoopLock_keeps (start _) (Sub.refl _)⟩
    | loopUnlock _ _ => exact ⟨_, execLoopUnlock_keeps (start _) (Sub.refl _)⟩
    | audioChannelPowerDown _ => exact ⟨_, execAudioChannelPowerDown_keeps (start _) (Sub.refl _)⟩
    | mclkGate _ _ _ => exact ⟨_, execMclkGate_keeps (start _) (Sub.refl _)⟩
    | ppsOutPulse _ _ => exact ⟨_, execPpsOutPulse_keeps (start _) (Sub.refl _)⟩
    | agcOverloadWindow _ _ _ => exact ⟨_, execAgcOverloadWindow_keeps (start _) (Sub.refl _)⟩
    | overloadPersists _ => exact ⟨_, execOverloadPersists_keeps (start _) (Sub.refl _)⟩
    | biasFault _ _ _ => exact ⟨_, execBiasFault_keeps (start _) (Sub.refl _)⟩
    | biasRetry _ => exact ⟨_, execBiasRetry_keeps (start _) (Sub.refl _)⟩
    | biasRetryRestore _ => exact ⟨_, execBiasRetryRestore_keeps (start _) (Sub.refl _)⟩
    | coexBlankChange _ _ => exact ⟨_, execCoexBlankChange_keeps (start _) (Sub.refl _)⟩
    | coexBlankTimeout => exact ⟨_, execCoexBlankTimeout_keeps (start _) (Sub.refl _)⟩
    | foregroundCalComplete _ _ _ _ => exact ⟨_, execForegroundCalComplete_keeps (start _) (Sub.refl _)⟩
    | spotCalStart _ _ => exact ⟨_, execSpotCalStart_keeps (start _) (Sub.refl _)⟩
    | spotCalComplete _ _ _ _ => exact ⟨_, execSpotCalComplete_keeps (start _) (Sub.refl _)⟩
    | auroraScan _ => exact ⟨_, execAuroraScan_keeps (start _) (Sub.refl _)⟩
    | auroraEvaluation => exact ⟨_, execAuroraEvaluation_keeps (start _) (Sub.refl _)⟩
    | slewStep _ _ => exact ⟨_, execSlewStep_keeps (start _) (Sub.refl _)⟩
    | slewComplete _ => exact ⟨_, execSlewComplete_keeps (start _) (Sub.refl _)⟩
    | relockStart _ => exact ⟨_, execRelockStart_keeps (start _) (Sub.refl _)⟩
    | relockComplete _ => exact ⟨_, execRelockComplete_keeps (start _) (Sub.refl _)⟩
    | zoneSettled _ _ => exact ⟨_, execZoneSettled_keeps (start _) (Sub.refl _)⟩
    | lanePointOfEffect _ _ => exact ⟨_, execLanePointOfEffect_keeps (start _) (Sub.refl _)⟩
    | laneSettled _ _ => exact ⟨_, execLaneSettled_keeps (start _) (Sub.refl _)⟩
    | laneBlock _ _ _ => exact ⟨_, execLaneBlock_keeps (start _) (Sub.refl _)⟩
    | laneFifoFull _ _ => exact ⟨_, execLaneFifoFull_keeps (start _) (Sub.refl _)⟩
    | analogueWindowEnd _ _ _ => exact ⟨_, execAnalogueWindowEnd_keeps (start _) (Sub.refl _)⟩
    | amCarrierLock _ _ => exact ⟨_, execAmCarrierLock_keeps (start _) (Sub.refl _)⟩
    | pilotLock _ _ => exact ⟨_, execPilotLock_keeps (start _) (Sub.refl _)⟩
    | rdsSyncAcquired _ _ _ => exact ⟨_, execRdsSyncAcquired_keeps (start _) (Sub.refl _)⟩
    | rdsSyncLost _ => exact ⟨_, execRdsSyncLost_keeps (start _) (Sub.refl _)⟩
    | rdsGroup _ _ _ => exact ⟨_, execRdsGroup_keeps (start _) (Sub.refl _)⟩
    | census _ _ _ => exact ⟨_, execCensus_keeps (start _) (Sub.refl _)⟩
    | probeTimeout _ => exact ⟨_, execProbeTimeout_keeps (start _) (Sub.refl _)⟩
    | afRequest _ _ => exact ⟨_, execAfRequest_keeps (start _) (Sub.refl _)⟩
    | afFadeStart _ => exact ⟨_, execAfFadeStart_keeps (start _) (Sub.refl _)⟩
    | afSwitchComplete _ => exact ⟨_, execAfSwitchComplete_keeps (start _) (Sub.refl _)⟩
    | afSwitchInPlace _ _ => exact ⟨_, execAfSwitchInPlace_keeps (start _) (Sub.refl _)⟩
    | afSwitchAbandoned _ => exact ⟨_, execAfSwitchAbandoned_keeps (start _) (Sub.refl _)⟩
    | afGotoTimeout _ => exact ⟨_, execAfGotoTimeout_keeps (start _) (Sub.refl _)⟩
    | tapReset _ => exact ⟨_, execTapReset_keeps (start _) (Sub.refl _)⟩
    | ofdmNullFound _ _ _ => exact ⟨_, execOfdmNullFound_keeps (start _) (Sub.refl _)⟩
    | ofdmConfirmation _ _ _ _ => exact ⟨_, execOfdmConfirmation_keeps (start _) (Sub.refl _)⟩
    | ofdmConfirmationFail _ => exact ⟨_, execOfdmConfirmationFail_keeps (start _) (Sub.refl _)⟩
    | acquisitionTimeout _ => exact ⟨_, execAcquisitionTimeout_keeps (start _) (Sub.refl _)⟩
    | fibDecoded _ _ _ _ => exact ⟨_, execFibDecoded_keeps (start _) (Sub.refl _)⟩
    | facSdcDecoded _ _ _ _ => exact ⟨_, execFacSdcDecoded_keeps (start _) (Sub.refl _)⟩
    | reconfiguration _ _ => exact ⟨_, execReconfiguration_keeps (start _) (Sub.refl _)⟩
    | ensembleLost _ _ => exact ⟨_, execEnsembleLost_keeps (start _) (Sub.refl _)⟩
    | holdoverResume _ _ => exact ⟨_, execHoldoverResume_keeps (start _) (Sub.refl _)⟩
    | serviceTimeout _ _ => exact ⟨_, execServiceTimeout_keeps (start _) (Sub.refl _)⟩
    | transportUnitDecoded _ _ _ _ _ _ => exact ⟨_, execTransportUnitDecoded_keeps (start _) (Sub.refl _)⟩
    | dynamicLabel _ _ _ _ _ _ => exact ⟨_, execDynamicLabel_keeps (start _) (Sub.refl _)⟩
    | motObject _ _ _ _ _ _ _ => exact ⟨_, execMotObject_keeps (start _) (Sub.refl _)⟩
    | motTimeout _ _ _ _ _ => exact ⟨_, execMotTimeout_keeps (start _) (Sub.refl _)⟩
    | drmTextMessage _ _ _ _ _ => exact ⟨_, execDrmTextMessage_keeps (start _) (Sub.refl _)⟩
    | dabAlertEnd _ _ _ => exact ⟨_, execDabAlertEnd_keeps (start _) (Sub.refl _)⟩
    | ofdmWindowEnd _ _ _ _ => exact ⟨_, execOfdmWindowEnd_keeps (start _) (Sub.refl _)⟩
    | spectrumRecord _ _ _ => exact ⟨_, execSpectrumRecord_keeps (start _) (Sub.refl _)⟩
    | impulseResponseRecord _ _ _ => exact ⟨_, execImpulseResponseRecord_keeps (start _) (Sub.refl _)⟩
    | tiiAverageComplete _ _ _ _ => exact ⟨_, execTiiAverageComplete_keeps (start _) (Sub.refl _)⟩
    | linkEntryAged _ => exact ⟨_, execLinkEntryAged_keeps (start _) (Sub.refl _)⟩
    | coarseResult _ _ _ _ => exact ⟨_, execCoarseResult_keeps (start _) (Sub.refl _)⟩
    | alignLoop _ => exact ⟨_, execAlignLoop_keeps (start _) (Sub.refl _)⟩
    | holdingTimeout _ _ => exact ⟨_, execHoldingTimeout_keeps (start _) (Sub.refl _)⟩
    | memberPcmChange _ _ => exact ⟨_, execMemberPcmChange_keeps (start _) (Sub.refl _)⟩
    | pageReleased => exact ⟨_, execPageReleased_keeps (start _) (Sub.refl _)⟩
    | groupFadeEnd _ _ => exact ⟨_, execGroupFadeEnd_keeps (start _) (Sub.refl _)⟩
    | fadeGuardLoss _ _ => exact ⟨_, execFadeGuardLoss_keeps (start _) (Sub.refl _)⟩
    | fadeHappening _ => exact ⟨_, execFadeHappening_keeps (start _) (Sub.refl _)⟩
    | delayChangeStart _ => exact ⟨_, execDelayChangeStart_keeps (start _) (Sub.refl _)⟩
    | delayChangeEnd _ _ => exact ⟨_, execDelayChangeEnd_keeps (start _) (Sub.refl _)⟩
    | eqSwapEffect _ _ => exact ⟨_, execEqSwapEffect_keeps (start _) (Sub.refl _)⟩
    | sapFrameStart _ _ _ => exact ⟨_, execSapFrameStart_keeps (start _) (Sub.refl _)⟩
    | sapClockLost _ _ _ _ _ => exact ⟨_, execSapClockLost_keeps (start _) (Sub.refl _)⟩
    | sapGlitch _ _ => exact ⟨_, execSapGlitch_keeps (start _) (Sub.refl _)⟩
    | sapFramingError _ _ _ => exact ⟨_, execSapFramingError_keeps (start _) (Sub.refl _)⟩
    | sapRateChange _ _ _ _ => exact ⟨_, execSapRateChange_keeps (start _) (Sub.refl _)⟩
    | sapRetarget _ _ _ => exact ⟨_, execSapRetarget_keeps (start _) (Sub.refl _)⟩
    | sapResume _ _ _ _ => exact ⟨_, execSapResume_keeps (start _) (Sub.refl _)⟩
    | sapWaitingTimeout _ => exact ⟨_, execSapWaitingTimeout_keeps (start _) (Sub.refl _)⟩
    | txPllLocked _ => exact ⟨_, execTxPllLocked_keeps (start _) (Sub.refl _)⟩
    | txTuneTimeout => exact ⟨_, execTxTuneTimeout_keeps (start _) (Sub.refl _)⟩
    | synthWindowExpiry => exact ⟨_, execSynthWindowExpiry_keeps (start _) (Sub.refl _)⟩
    | coexGntChange _ _ => exact ⟨_, execCoexGntChange_keeps (start _) (Sub.refl _)⟩
    | coexWaitExpiry => exact ⟨_, execCoexWaitExpiry_keeps (start _) (Sub.refl _)⟩
    | txStartSequence _ => exact ⟨_, execTxStartSequence_keeps (start _) (Sub.refl _)⟩
    | txStopComplete _ => exact ⟨_, execTxStopComplete_keeps (start _) (Sub.refl _)⟩
    | fastMute _ => exact ⟨_, execFastMute_keeps (start _) (Sub.refl _)⟩
    | dutyLimit _ => exact ⟨_, execDutyLimit_keeps (start _) (Sub.refl _)⟩
    | continuousLimit _ => exact ⟨_, execContinuousLimit_keeps (start _) (Sub.refl _)⟩
    | monitorWindow _ _ => exact ⟨_, execMonitorWindow_keeps (start _) (Sub.refl _)⟩
    | sfnFrame _ _ => exact ⟨_, execSfnFrame_keeps (start _) (Sub.refl _)⟩
    | sfnCoastExpiry _ => exact ⟨_, execSfnCoastExpiry_keeps (start _) (Sub.refl _)⟩
    | breakinTrigger _ _ => exact ⟨_, execBreakinTrigger_keeps (start _) (Sub.refl _)⟩
    | ptt _ _ => exact ⟨_, execPtt_keeps (start _) (Sub.refl _)⟩
    | keyChange _ _ _ => exact ⟨_, execKeyChange_keeps (start _) (Sub.refl _)⟩
    | plugChange _ _ _ => exact ⟨_, execPlugChange_keeps (start _) (Sub.refl _)⟩
    | encoderStep _ _ _ => exact ⟨_, execEncoderStep_keeps (start _) (Sub.refl _)⟩
    | ppsInEdge _ _ => exact ⟨_, execPpsInEdge_keeps (start _) (Sub.refl _)⟩
    | sourceLost => exact ⟨_, execSourceLost_keeps (start _) (Sub.refl _)⟩
    | siderealStep => exact ⟨_, execSiderealStep_keeps (start _) (Sub.refl _)⟩
    | slewWithinThreshold => exact ⟨_, execSlewWithinThreshold_keeps (start _) (Sub.refl _)⟩
    | meridianRelease => exact ⟨_, execMeridianRelease_keeps (start _) (Sub.refl _)⟩
    | schedFiring _ => exact ⟨_, execSchedFiring_keeps (start _) (Sub.refl _)⟩
    | sampleTimedApply _ _ _ => exact ⟨_, execSampleTimedApply_keeps (start _) (Sub.refl _)⟩
    | firnChunk _ _ _ => exact ⟨_, execFirnChunk_keeps (start _) (Sub.refl _)⟩
    | firnCheckpoint => exact ⟨_, execFirnCheckpoint_keeps (start _) (Sub.refl _)⟩
    | firnTriggerFired _ _ => exact ⟨_, execFirnTriggerFired_keeps (start _) (Sub.refl _)⟩
    | firnFrozen _ => exact ⟨_, execFirnFrozen_keeps (start _) (Sub.refl _)⟩
    | firnStreamComplete _ => exact ⟨_, execFirnStreamComplete_keeps (start _) (Sub.refl _)⟩
    | firnLoadComplete _ => exact ⟨_, execFirnLoadComplete_keeps (start _) (Sub.refl _)⟩
    | replayCheckpoint _ => exact ⟨_, execReplayCheckpoint_keeps (start _) (Sub.refl _)⟩
    | replayEnd _ => exact ⟨_, execReplayEnd_keeps (start _) (Sub.refl _)⟩
    | alertPrimaryReport _ _ _ _ => exact ⟨_, execAlertPrimaryReport_keeps (start _) (Sub.refl _)⟩
    | alertCheckReport _ _ _ _ => exact ⟨_, execAlertCheckReport_keeps (start _) (Sub.refl _)⟩
    | alertMismatchTimeout _ _ => exact ⟨_, execAlertMismatchTimeout_keeps (start _) (Sub.refl _)⟩
    | heartbeatCheck _ _ _ => exact ⟨_, execHeartbeatCheck_keeps (start _) (Sub.refl _)⟩
    | watchdogExpiry _ => exact ⟨_, execWatchdogExpiry_keeps (start _) (Sub.refl _)⟩
    | lockstepMismatch _ => exact ⟨_, execLockstepMismatch_keeps (start _) (Sub.refl _)⟩
    | configCrcCheck _ _ => exact ⟨_, execConfigCrcCheck_keeps (start _) (Sub.refl _)⟩
    | eccError _ _ _ => exact ⟨_, execEccError_keeps (start _) (Sub.refl _)⟩
    | railOutOfRange _ _ => exact ⟨_, execRailOutOfRange_keeps (start _) (Sub.refl _)⟩
    | ballReadbackFault _ _ _ => exact ⟨_, execBallReadbackFault_keeps (start _) (Sub.refl _)⟩
    | breakinDueCheck _ _ => exact ⟨_, execBreakinDueCheck_keeps (start _) (Sub.refl _)⟩
    | periodicSelftest _ _ => exact ⟨_, execPeriodicSelftest_keeps (start _) (Sub.refl _)⟩
    | tapSettled _ _ => exact ⟨_, execTapSettled_keeps (start _) (Sub.refl _)⟩
    | msixVectorUnmask _ => exact ⟨_, execMsixVectorUnmask_keeps (start _) (Sub.refl _)⟩
    | arpIcmpRequest _ => exact ⟨_, execArpIcmpRequest_keeps (start _) (Sub.refl _)⟩
    | ptpMessageSend _ _ => exact ⟨_, execPtpMessageSend_keeps (start _) (Sub.refl _)⟩
    | _ => nomatch hc

/-! ## The obligations -/

theorem exec_inv {i : Instr} {s t : State} (hi : Inv s) (h : exec i s = .next t) : Inv t := by
  obtain ⟨m, hm⟩ := exec_keeps i s
  exact (hm.out t h).inv hi

/-- Settles O57: an empty queue idles, and the front row keeps what the state without it has. -/
theorem everyStepKeepsInv : Obligations.EveryStepKeepsInv := by
  unfold Obligations.EveryStepKeepsInv
  intro s t hi h
  cases hq : s.pending with
  | nil =>
    have hst : t = s := by simpa [step, hq] using h.symm
    exact hst ▸ hi
  | cons i q =>
    rw [step, hq] at h
    exact exec_inv (s := s.setPending q) hi h

/-- Settles O58: nothing is stored, waits or is logged at reset. -/
theorem resetHasInv : Obligations.ResetHasInv := by
  unfold Obligations.ResetHasInv
  have hhost : State.reset.host = [] := rfl
  have hev : State.reset.ev.urgent ++ State.reset.ev.windows = [] := rfl
  refine ⟨by simp [hhost, Memory.wf], by simp [hev], ⟨by decide, by decide⟩, by decide, by decide⟩

end Sys2Proof.Machine
end

section
/-! The proofs about what reset leaves (O46) and the capability record of a unit that no part knows (O60). -/

namespace Sys2Proof.Machine

/-- Settles O46, by evaluation of the state that the model starts from. -/
theorem resetStateIsAsStated : Obligations.ResetStateIsAsStated := by
  unfold Obligations.ResetStateIsAsStated
  exact ⟨rfl, rfl, rfl, rfl, rfl, rfl, rfl, rfl, rfl, rfl, rfl, rfl, rfl, rfl, rfl, rfl, rfl, rfl, rfl, rfl, rfl⟩

/-- Above the last unit of Table 2-17 a record is the unit's ID alone (R68). -/
theorem capRecord_of_unknown (s : State) {unit : Nat} (h : 0x11 < unit) :
    capRecord s unit = BitVec.ofNat 8 unit :: zeros 63 := by
  have hout : ¬(0x01 ≤ unit ∧ unit ≤ 0x11) := by omega
  simp only [capRecord, if_neg hout]
  rfl

theorem capsResult_of_unknown (s : State) {unit : Nat} (h : 0x11 < unit) :
    capsResult s unit = BitVec.ofNat 8 unit :: zeros 63 := by
  rw [capsResult, if_neg (by omega), capRecord_of_unknown s h]

/-- Settles O60. -/
theorem unknownUnitHasAnEmptyRecord : Obligations.UnknownUnitHasAnEmptyRecord := by
  unfold Obligations.UnknownUnitHasAnEmptyRecord
  intro a s hr hu
  rw [exec_getCaps_of_ready hr, capsResult_of_unknown s hu]

end Sys2Proof.Machine
end

section
/-! The proof about the control bits of the mailbox (O3). -/

namespace Sys2Proof.Machine

section Mailbox

variable {l : Link} {s : State}

theorem owns_iff : owns s l = true ↔ s.mbx.owner.toNat = linkCode l := by simp [owns]

theorem exec_go_of_owner (ho : owns s l = true) (hs : s.mbx.submit = none) :
    exec (.go l) s = .next (s.setMbx { s.mbx with submit := some s.mbx.cmdWin }) := by
  show execGo l s = _
  simp [execGo, ho, hs]

theorem exec_mailboxCopy_of_room {p : Bytes} (hp : s.mbx.submit = some p) (hr : mbxCount s < 32) :
    exec .mailboxCopy s = .next (s.setMbx { s.mbx with submit := none, copied := s.mbx.copied ++ [p] }) := by
  show execMailboxCopy s = _
  simp [execMailboxCopy, hp, hr]

theorem exec_cplPop_of_owner (ho : owns s l = true) :
    exec (.cplPop l) s = .next (s.setMbx { s.mbx with queue := s.mbx.queue.tail }) := by
  show execCplPop l s = _
  simp [execCplPop, ho]

theorem exec_overflowClear_of_owner (ho : owns s l = true) :
    exec (.overflowClear l) s = .next (s.setMbx { s.mbx with overflow := false }) := by
  show execOverflowClear l s = _
  simp [execOverflowClear, ho]

/-- A link that is not the owner causes a violation of kind 0x04 by each of the three control bits. -/
theorem exec_control_of_not_owner (ho : owns s l = false) :
    exec (.go l) s = .next (regViolation l 0x04 1 0xF0 s) ∧ exec (.cplPop l) s = .next (regViolation l 0x04 1 0xF0 s) ∧
      exec (.overflowClear l) s = .next (regViolation l 0x04 1 0xF0 s) := by
  refine ⟨?_, ?_, ?_⟩
  · show execGo l s = _
    simp [execGo, ho]
  · show execCplPop l s = _
    simp [execCplPop, ho]
  · show execOverflowClear l s = _
    simp [execOverflowClear, ho]

/-! ## Ownership (R59, Table 2-12) -/

theorem exec_owner (l : Link) (v : BitVec 2) (s : State) :
    exec (.owner l v) s = .next (s.setMbx { s.mbx with owner := ownerAfter s.mbx.owner v l }) := rfl

/-- A write that leaves the owner as it is changes nothing. -/
theorem exec_owner_same {v : BitVec 2} (h : ownerAfter s.mbx.owner v l = s.mbx.owner) : exec (.owner l v) s = .next s := by
  rw [exec_owner, h]
  rfl

theorem ownerAfter_free (l : Link) : ownerAfter 0 (BitVec.ofNat 2 (linkCode l)) l = BitVec.ofNat 2 (linkCode l) := by
  cases l <;> rfl

theorem ownerAfter_release {cur : BitVec 2} (h : cur.toNat = linkCode l) : ownerAfter cur 0 l = 0 := by
  have hzero : (0 : BitVec 2).toNat ≠ linkCode l := by cases l <;> decide
  rw [ownerAfter, if_neg (fun k => hzero k.2), if_pos ⟨rfl, h⟩]

theorem ownerAfter_taken {cur v : BitVec 2} (hc : cur ≠ 0) (hv : v ≠ 0) : ownerAfter cur v l = cur := by
  rw [ownerAfter, if_neg (fun k => hc k.1), if_neg (fun k => hv k.1)]

theorem ownerAfter_release_other {cur : BitVec 2} (h : cur.toNat ≠ linkCode l) : ownerAfter cur 0 l = cur := by
  have hzero : (0 : BitVec 2).toNat ≠ linkCode l := by cases l <;> decide
  rw [ownerAfter, if_neg (fun k => hzero k.2), if_neg (fun k => h k.2)]

end Mailbox

/-- Settles O3: a rule for each control bit, and the four ways in which a write to `OWNER` can end. -/
theorem mailboxControlBitsAct : Obligations.MailboxControlBitsAct := by
  unfold Obligations.MailboxControlBitsAct
  intro l s
  refine ⟨exec_go_of_owner, fun p => exec_mailboxCopy_of_room, exec_cplPop_of_owner, exec_overflowClear_of_owner,
    exec_control_of_not_owner, ?taken, ?released, ?kept, ?foreign, rfl⟩
  case taken =>
    intro hfree
    rw [exec_owner, hfree, ownerAfter_free]
  case released =>
    intro ho
    rw [exec_owner, ownerAfter_release (owns_iff.1 ho)]
  case kept => exact fun v hc hv => exec_owner_same (ownerAfter_taken hc hv)
  case foreign => exact fun ho => exec_owner_same (ownerAfter_release_other (by simpa [owns] using ho))

end Sys2Proof.Machine
end

section
/-! The proof about writes to the registers (O4). -/

namespace Sys2Proof.Machine

/-! ## Over PCIe (R456, R457) -/

section Pcie

variable {s : State} {page off v : Byte}

theorem exec_registerWrite_pcie (hup : s.pcie.up = true) (data : Bytes) :
    exec (.registerWrite .pcie page off data) s = .next (pcieWrite page.toNat off.toNat data s) := by
  show execRegisterWrite .pcie page off data s = _
  rw [execRegisterWrite, if_pos hup]

/-- One byte written to a register page is never too long for its offset. -/
theorem pcieWrite_byte {p n : Nat} (hp : p < 0x40) (v : Byte) (s : State) :
    pcieWrite p n [v] s = if (writeByte .pcie p n v s).1 = 0 then (writeByte .pcie p n v s).2
      else regViolation .pcie (writeByte .pcie p n v s).1 p n s := by
  have hsize : ¬([v] = [] ∨ n % 8 + [v].length > 8) := by simp; omega
  simp only [pcieWrite, if_neg hsize, if_pos hp, writeBytes]
  obtain ⟨k, t⟩ := writeByte .pcie p n v s
  cases k <;> rfl

theorem writeByte_page2 {n : Nat} (hn : n ≤ 7 ∨ n = 9) (v : Byte) (s : State) :
    writeByte .pcie 0x02 n v s = (0, hcfgWrite s n v.toNat) := by
  have hsel : n ≠ 0xFF := by omega
  have hpage : n ≤ 0x07 ∨ n = 0x09 := hn
  simp only [writeByte, if_neg hsel, if_pos hpage, defer, applyPend, if_true]

theorem writeByte_commandWindow {l : Link} {n : Nat} (ho : owns s l = true) (hs : s.mbx.submit = none) (hn : n < 0x80)
    (v : Byte) : writeByte l 0x01 n v s = (0, s.setMbx { s.mbx with cmdWin := splice s.mbx.cmdWin n [v] }) := by
  have hsel : n ≠ 0xFF := by omega
  simp [writeByte, hsel, mailboxWrite, hn, ho, hs]

theorem writeByte_commandWindow_denied {l : Link} {n : Nat} (ho : owns s l = false) (hn : n < 0x80) (v : Byte) :
    writeByte l 0x01 n v s = (4, s) := by
  have hsel : n ≠ 0xFF := by omega
  simp [writeByte, hsel, mailboxWrite, hn, ho]

theorem exec_registerWrite_page2 (hup : s.pcie.up = true) (ho : off.toNat ≤ 7 ∨ off.toNat = 9) :
    exec (.registerWrite .pcie 0x02 off [v]) s = .next (hcfgWrite s off.toNat v.toNat) := by
  rw [exec_registerWrite_pcie hup, show (0x02 : Byte).toNat = 0x02 from rfl, pcieWrite_byte (by decide), writeByte_page2 ho,
    if_pos rfl]

theorem exec_registerWrite_commandWindow (hup : s.pcie.up = true) (ho : owns s .pcie = true) (hs : s.mbx.submit = none)
    (hoff : off.toNat < 0x80) :
    exec (.registerWrite .pcie 0x01 off [v]) s =
      .next (s.setMbx { s.mbx with cmdWin := splice s.mbx.cmdWin off.toNat [v] }) := by
  rw [exec_registerWrite_pcie hup, show (0x01 : Byte).toNat = 0x01 from rfl, pcieWrite_byte (by decide),
    writeByte_commandWindow ho hs hoff, if_pos rfl]

theorem exec_registerWrite_commandWindow_denied (hup : s.pcie.up = true) (ho : owns s .pcie = false)
    (hoff : off.toNat < 0x80) :
    exec (.registerWrite .pcie 0x01 off [v]) s = .next (regViolation .pcie 0x04 1 off.toNat s) := by
  rw [exec_registerWrite_pcie hup, show (0x01 : Byte).toNat = 0x01 from rfl, pcieWrite_byte (by decide),
    writeByte_commandWindow_denied ho hoff, if_neg (by simp)]

/-- Over PCIe `LEG_EN` takes its value at once. -/
theorem exec_legEn_pcie (e : Bool) (s : State) : exec (.legEn .pcie e) s = .next (legEnTo e s) := by
  have hbit : bit (BitVec.ofNat 8 (flag e 0)).toNat 0 = e := by cases e <;> rfl
  show Host.Outcome.next (applyPend s (0x02, 0x06, BitVec.ofNat 8 (flag e 0))) = _
  simp only [applyPend, hcfgWrite, hbit, if_true]
  rfl

theorem exec_legEn_pcie_on (s : State) : exec (.legEn .pcie true) s = .next (if s.hcfg.legEn then s else legacyOn s) := by
  rw [exec_legEn_pcie, legEnTo, if_pos rfl]

theorem exec_legEn_pcie_off (s : State) :
    exec (.legEn .pcie false) s = .next (if s.hcfg.legEn then legacyOff s else s) := by
  rw [exec_legEn_pcie, legEnTo]
  cases s.hcfg.legEn <;> simp

theorem exec_ctrlFailClear_pcie (s : State) : exec (.ctrlFailClear .pcie) s = .next (ctrlFailCleared s) := rfl

theorem ctrlFailCleared_hcfg_i2c (s : State) :
    (ctrlFailCleared s).hcfg = { s.hcfg with ctrlFail := false } ∧ (ctrlFailCleared s).i2c = { s.i2c with nacks := 0 } := by
  unfold ctrlFailCleared
  dsimp only
  split <;> simp

theorem exec_bar0InvalidAccess (w : Bool) (o : BitVec 16) (n : Nat) (h : hasPcie s = true) :
    exec (.bar0InvalidAccess w o n) s = .next (unsupported s 0x01 o.toNat 0) := by
  show execBar0InvalidAccess w o n s = _
  simp [execBar0InvalidAccess, h]

end Pcie

/-! ## Over I²C (R441) -/

section I2c

variable {s : State} {v off : Byte}

theorem exec_registerWrite_pointer (h : s.i2c.st = .writePtr) :
    exec (.registerWrite .i2c 0 0 [off]) s = .next (s.setI2c { s.i2c with st := .write, pointer := off.toNat }) := by
  show Host.Outcome.next (i2cByte s off) = _
  simp only [i2cByte, h]

theorem exec_registerWrite_i2c_page2 (h : s.i2c.st = .write) (hpage : s.i2c.page = 0x02) (hp : s.i2c.pointer ≤ 7) :
    exec (.registerWrite .i2c 0 0 [v]) s = .next (s.setI2c { s.i2c with
      pend := s.i2c.pend ++ [(0x02, s.i2c.pointer, v)], pointer := s.i2c.pointer + 1 }) := by
  have hsel : s.i2c.pointer ≠ 0xFF := by omega
  have hwrites : s.i2c.pointer ≤ 0x07 ∨ s.i2c.pointer = 0x09 := .inl hp
  have hnext : (s.i2c.pointer + 1) % 256 = s.i2c.pointer + 1 := by omega
  show Host.Outcome.next (i2cByte s v) = _
  simp only [i2cByte, h, hpage, writeByte, if_neg hsel, if_pos hwrites, defer, State.setI2c_self, State.setI2c_again, hnext]

end I2c

/-- Settles O4: a rule for each kind of write, at once over PCIe and put off to the end of the transfer over I²C. -/
theorem registerWritesTakeEffect : Obligations.RegisterWritesTakeEffect := by
  unfold Obligations.RegisterWritesTakeEffect
  intro s v off
  refine ⟨fun page data => ⟨rfl, fun hup => exec_registerWrite_pcie hup data⟩, exec_registerWrite_page2,
    exec_registerWrite_commandWindow, exec_registerWrite_commandWindow_denied, exec_registerWrite_pointer,
    exec_registerWrite_i2c_page2, rfl, ?legEn, exec_legEn_pcie_on s, exec_legEn_pcie_off s, rfl,
    ⟨_, exec_ctrlFailClear_pcie s, ctrlFailCleared_hcfg_i2c s⟩, fun w o n => exec_bar0InvalidAccess w o n⟩
  case legEn => intro e; cases e <;> rfl

end Sys2Proof.Machine
end

section
/-! The proof about the doorbells and the interrupts of the rings (O6). -/

namespace Sys2Proof.Machine

/-! ## Doorbells (R51) -/

section Doorbell

variable {s : State} {n : Nat} {v : BitVec 32} {stores : List (Nat × BitVec 8)} {r q : Ring}

/-- The state in which a doorbell word finds the rings: the host has stored what it announces. -/
def stored (s : State) (stores : List (Nat × BitVec 8)) : State := s.setHost (memCells s.host stores)

theorem toNat_doorbell (hn : n < 128) (k : Nat) (hk : k < 8) :
    (BitVec.ofNat 16 (0x8000 + k + 8 * n)).toNat = 0x8000 + k + 8 * n := by
  rw [BitVec.toNat_ofNat]
  omega

theorem exec_doorbellWrite_outside {o : BitVec 16} (hp : hasPcie s = true)
    (ho : o.toNat < 0x8000 ∨ 0x8400 ≤ o.toNat ∨ o.toNat % 4 ≠ 0) :
    exec (.doorbellWrite o v stores) s = .next (unsupported (stored s stores) 0x01 o.toNat 0) := by
  show execDoorbellWrite o v stores s = _
  simp only [execDoorbellWrite, hp, Bool.true_eq_false, if_false, if_pos ho, stored]

theorem exec_doorbellWrite_reserved (hn : n < 128) (hp : hasPcie s = true) :
    exec (.doorbellWrite (BitVec.ofNat 16 (0x8004 + 8 * n)) v stores) s = .next (stored s stores) := by
  have ho : ¬(0x8004 + 8 * n < 0x8000 ∨ 0x8400 ≤ 0x8004 + 8 * n ∨ (0x8004 + 8 * n) % 4 ≠ 0) := by omega
  have hword : (0x8004 + 8 * n) % 8 = 4 := by omega
  show execDoorbellWrite _ v stores s = _
  simp only [execDoorbellWrite, hp, Bool.true_eq_false, if_false, toNat_doorbell hn 4 (by decide), if_neg ho, if_pos hword,
    stored]

/-- A word on ring `n`'s doorbell moves the count that it reports where the ring takes it, and is a violation otherwise. -/
theorem exec_doorbellWrite_ring (hn : n < 128) (hp : hasPcie s = true) (o : Option Ring)
    (ho : ((mget s.rings n).bind fun r => ringBell r v.toNat) = o) :
    exec (.doorbellWrite (BitVec.ofNat 16 (0x8000 + 8 * n)) v stores) s =
      .next ((o.map fun r => (stored s stores).setRings (mput s.rings n r)).getD
        (violate (stored s stores) 0x06 (Config.bar0 + 0x8000 + 8 * n) 2 n)) := by
  have hin : ¬(0x8000 + 8 * n < 0x8000 ∨ 0x8400 ≤ 0x8000 + 8 * n ∨ (0x8000 + 8 * n) % 4 ≠ 0) := by omega
  have hword : ¬(0x8000 + 8 * n) % 8 = 4 := by omega
  have hring : (0x8000 + 8 * n - 0x8000) / 8 = n := by omega
  have hoff := toNat_doorbell hn 0 (by decide)
  simp only [Nat.add_zero] at hoff
  show execDoorbellWrite _ v stores s = _
  simp only [execDoorbellWrite, hp, Bool.true_eq_false, if_false, hoff, if_neg hin, if_neg hword, hring, stored,
    State.setHost_frame, ho, Nat.add_assoc]
  cases o <;> rfl

/-- On a completion or event ring the host reports how far it has read. -/
theorem ringBell_consumer (hk : r.kind = .completion ∨ r.kind = .event) (hv : v.toNat % 16 = 0)
    (hsize : (r.prod + 2 ^ 32 - v.toNat) % 2 ^ 32 ≤ r.size) :
    ringBell r v.toNat = some { r with cons := v.toNat, doorbell := v.toNat } := by
  rcases hk with hk | hk <;> simpa [ringBell, hk, granule, hv, occupancy] using hsize

/-- On any other ring it reports how far it has written. -/
theorem ringBell_producer (hc : r.kind ≠ .completion) (he : r.kind ≠ .event) (hv : v.toNat % granule r.kind = 0)
    (hsize : (v.toNat + 2 ^ 32 - r.cons) % 2 ^ 32 ≤ r.size) :
    ringBell r v.toNat = some { r with prod := v.toNat, doorbell := v.toNat } := by
  cases hk : r.kind with
  | completion => exact absurd hk hc
  | event => exact absurd hk he
  | command | streamOut | streamIn =>
    rw [hk] at hv
    simpa [ringBell, hk, hv, occupancy] using hsize

theorem ringBell_overfill (hk : r.kind = .command) (hsize : (v.toNat + 2 ^ 32 - r.cons) % 2 ^ 32 > r.size) :
    ringBell r v.toNat = none := by
  simp only [ringBell, hk]
  split
  · rfl
  · exact if_pos hsize

end Doorbell

/-! ## Held completions, events and vectors (R24, R25, R54, R55, R461) -/

section Posting

variable {s t : State} {n : Nat} {r q : Ring}

theorem exec_completionRingSpace (hr : mget s.rings n = some r) :
    exec (.completionRingSpace n) s = .next (drainHeld r.heldCpl.length s n) := by
  show execCompletionRingSpace n s = _
  simp only [execCompletionRingSpace, hr]

/-- One held entry is written, its `INFLIGHT` bit cleared, and none is held any more. -/
theorem drainHeld_one {b : Bytes} {e : Option (Nat × Nat)} (hr : mget s.rings n = some r) (hh : r.heldCpl = [(b, e)])
    (hw : writeEntry (padRing s n b.length) n b = some t) (hq : mget t.rings n = some q) :
    drainHeld 1 s n = endInflight (t.setRings (mput t.rings n { q with heldCpl := q.heldCpl.tail })) e := by
  simp only [drainHeld, hr, Option.bind_some, hh, List.head?_cons, hw, hq]

theorem exec_msixInterrupt (hr : mget s.rings n = some r) (hv : r.vector ≠ 0xFF) (hu : 0 < r.uncovered)
    (hc : max 1 r.modCount ≤ r.uncovered ∨ r.urgent = true ∨ r.modTime = 0) :
    exec (.msixInterrupt n) s = .next (coverRing s n r) := by
  show execMsixInterrupt n s = _
  simp only [execMsixInterrupt, hr, if_pos (And.intro hv (And.intro hu hc))]

theorem exec_modTimeExpiry {u : Sid} (hr : mget s.rings n = some r) (hv : r.vector ≠ 0xFF) (hu : 0 < r.uncovered)
    (hc : r.firstAt + r.modTime * usU ≤ (advance s u).sid.now) :
    exec (.modTimeExpiry n u) s = .next (coverRing (advance s u) n r) := by
  show execModTimeExpiry n u s = _
  simp only [execModTimeExpiry, hr, if_pos (And.intro hv (And.intro hu hc))]

theorem exec_eventWindowClose {w : EvWindow} (hw : dueWindow s = some w) :
    exec .eventWindowClose s =
      .next (postEvent (s.setEv { s.ev with windows := s.ev.windows.filter fun x => x.id != w.id }) w) := by
  show execEventWindowClose s = _
  simp only [execEventWindowClose, hw]

theorem exec_urgentEventPost {w : EvWindow} {ws : List EvWindow} (hu : s.ev.urgent = w :: ws) (hp : canPost s w = true) :
    exec .urgentEventPost s = .next (postEvent (s.setEv { s.ev with urgent := ws }) w) := by
  show execUrgentEventPost s = _
  simp only [execUrgentEventPost, hu, hp, if_true]

theorem exec_mailboxVector (hs : s.mbx.signal = true) (ho : s.mbx.owner = 2) (he : s.hcfg.mbxIrqEn = true) :
    exec .mailboxVector s = .next (raiseVector (s.setMbx { s.mbx with signal := false }) s.hcfg.mbxVector) := by
  show execMailboxVector s = _
  simp only [execMailboxVector, if_pos (And.intro hs (And.intro ho he))]

/-- The mask bit of a vector's table entry is cleared. -/
def unmasked (s : State) (k : Nat) : State :=
  s.setPcie { s.pcie with
    msixTable := splice s.pcie.msixTable (16 * k + 12) [BitVec.ofNat 8 (byteAt s.pcie.msixTable (16 * k + 12) / 2 * 2)] }

theorem exec_msixVectorUnmask {k : Nat} (hk : k < 64) :
    exec (.msixVectorUnmask k) s = .next (if s.pcie.pba.getLsbD k then
      raiseVector ((unmasked s k).setPcie { (unmasked s k).pcie with pba := s.pcie.pba &&& ~~~(1#64 <<< k) }) k
      else unmasked s k) := by
  show execMsixVectorUnmask k s = _
  simp only [execMsixVectorUnmask, if_neg (Nat.not_le.2 hk), unmasked, State.setPcie_self, State.setPcie_again]
  split <;> rfl

end Posting

/-! ## The obligation -/

/-- Settles O6: what a doorbell word does is what `ringBell` makes of it, and each occurrence of the rings has its rule. -/
theorem doorbellsAndInterruptsAct : Obligations.DoorbellsAndInterruptsAct := by
  unfold Obligations.DoorbellsAndInterruptsAct
  intro s n v stores hn
  refine ⟨fun r hr => ⟨?consumer, ?producer, ?overfill, exec_completionRingSpace hr, ?drain, exec_msixInterrupt hr,
      fun t hv hu hc => ?timer⟩,
    fun o hp ho => exec_doorbellWrite_outside hp ho, ?noRing, fun w => exec_eventWindowClose,
    fun w ws => exec_urgentEventPost, exec_mailboxVector, ?unmask⟩
  case consumer =>
    intro hk hv hsize hp
    exact exec_doorbellWrite_ring hn hp (some _) (by rw [hr]; exact ringBell_consumer hk hv hsize)
  case producer =>
    intro hc he hv hsize hp
    exact exec_doorbellWrite_ring hn hp (some _) (by rw [hr]; exact ringBell_producer hc he hv hsize)
  case overfill =>
    intro hk hsize hp
    exact exec_doorbellWrite_ring hn hp none (by rw [hr]; exact ringBell_overfill hk hsize)
  case drain =>
    intro b e q t hh hw hq
    rw [exec_completionRingSpace hr, hh]
    exact congrArg _ (drainHeld_one hr hh hw hq)
  case timer =>
    rw [exec_modTimeExpiry hr hv hu hc, coverRing]
    simp
  case noRing =>
    intro hp hnone
    exact ⟨exec_doorbellWrite_ring hn hp none (by rw [hnone]; rfl), exec_doorbellWrite_reserved hn hp⟩
  case unmask =>
    intro k hk
    refine ⟨fun hb => ?_, fun hb => ?_⟩
    · rw [exec_msixVectorUnmask hk, hb]; rfl
    · rw [exec_msixVectorUnmask hk, hb]; rfl

end Sys2Proof.Machine
end

section
/-! The proof about what the links to the host do on their own (O7). -/

namespace Sys2Proof.Machine

/-! ## Streams (R57, R58, Table 2-11) -/

section Streams

variable {s : State} {n k x : Nat} {r : Ring}

theorem exec_streamDescriptorUse_streamOut (hr : mget s.rings n = some r) (hd : s.pcie.d3 = false) (hh : r.halted = false)
    (ho : 16 ≤ occupancy r) (hk : r.kind = .streamOut) (hf : 0 < r.fill) :
    exec (.streamDescriptorUse n k) s = .next (returnBuf s n r r.fill r.bufGap) := by
  show execStreamDescriptorUse n k s = _
  simp [execStreamDescriptorUse, hr, hd, hh, Nat.not_lt.2 ho, hk, hf]

theorem exec_streamDescriptorUse_streamOut_denied (hr : mget s.rings n = some r) (hd : s.pcie.d3 = false)
    (hh : r.halted = false) (ho : 16 ≤ occupancy r) (hk : r.kind = .streamOut) (hf : r.fill = 0)
    (hx : bufferDenied s r = some x) : exec (.streamDescriptorUse n k) s = .next (stopStream s n r x) := by
  show execStreamDescriptorUse n k s = _
  simp [execStreamDescriptorUse, hr, hd, hh, Nat.not_lt.2 ho, hk, hf, hx]

theorem exec_streamDescriptorUse_streamIn (hr : mget s.rings n = some r) (hd : s.pcie.d3 = false) (hh : r.halted = false)
    (ho : 16 ≤ occupancy r) (hk : r.kind = .streamIn) (hx : descriptorDenied s r = none)
    (hw : inWindow s false (le (descriptor s r 0) 0 8) (le (descriptor s r 0) 8 4) = true) :
    let used := min k (le (descriptor s r 0) 8 4)
    exec (.streamDescriptorUse n k) s = .next (returnBuf (s.setPcie { s.pcie with rxBytes := s.pcie.rxBytes + used }) n
      { r with inData := r.inData ++ memBytes s.host (le (descriptor s r 0) 0 8) used } used false) := by
  show execStreamDescriptorUse n k s = _
  simp [execStreamDescriptorUse, hr, hd, hh, Nat.not_lt.2 ho, hk, hx, hw]

theorem exec_streamDescriptorUse_streamIn_denied (hr : mget s.rings n = some r) (hd : s.pcie.d3 = false)
    (hh : r.halted = false) (ho : 16 ≤ occupancy r) (hk : r.kind = .streamIn) (hx : descriptorDenied s r = some x) :
    exec (.streamDescriptorUse n k) s = .next (stopStream s n r x) := by
  show execStreamDescriptorUse n k s = _
  simp [execStreamDescriptorUse, hr, hd, hh, Nat.not_lt.2 ho, hk, hx]

end Streams

/-! ## The PCIe function and the SGMII link (R460, R462, R472) -/

section Links

variable {s : State} {t : Sid}

@[simp] theorem putRing_pcie (s : State) (n : Nat) (r : Ring) :
    (putRing s n r).pcie = { s.pcie with txBytes := s.pcie.txBytes + (statusBlock r).length } := by
  simp [putRing, hostStore]

theorem exec_dmaError {n : Nat} {r : Ring} (hr : mget s.rings n = some r) :
    ∃ q, exec (.dmaError n t) s = .next q ∧ q.rings = mput s.rings n { r with halted := true } ∧
      q.pcie.dmaErrors = sat 32 (s.pcie.dmaErrors + 1) := by
  have hr0 : mget (advance s t).rings n = some r := by simpa using hr
  refine ⟨_, show execDmaError n t s = _ by simp only [execDmaError, hr0]; rfl, ?_, ?_⟩
  · simp
  · simp

theorem exec_pcieIslandReset (down : Bool) (hp : hasPcie s = true) :
    ∃ q, exec (.pcieIslandReset down t) s = .next q ∧ q.rings = [] ∧ q.wins = [] ∧
      q.host = s.host ∧ q.pcie.flrCount = sat 32 (s.pcie.flrCount + 1) ∧ q.pcie.msixEn = false ∧
      q.pcie.up = (s.pcie.up && !down) ∧ q.mbx.owner = if s.mbx.owner = 2 then 0 else s.mbx.owner := by
  refine ⟨_, show execPcieIslandReset down t s = _ by simp only [execPcieIslandReset, hp]; rfl, ?_⟩
  simp

theorem exec_pcieLinkUp {speed width : Byte} (hb : 5 ≤ s.pwr.buStep) (hu : s.pcie.up = false) (hp : hasPcie s = true)
    (h1 : 1 ≤ speed.toNat) (h3 : speed.toNat ≤ 3) (hw1 : 1 ≤ width.toNat) (hw2 : width.toNat ≤ 2) :
    ∃ q, exec (.pcieLinkUp speed width t) s = .next q ∧ q.pcie.up = true ∧ q.pcie.speed = speed.toNat ∧
      q.pcie.width = width.toNat := by
  have hgo : ¬(s.pwr.buStep < 5 ∨ s.pcie.up = true ∨ hasPcie s = false ∨
      decide (1 ≤ speed.toNat ∧ speed.toNat ≤ 3 ∧ 1 ≤ width.toNat ∧ width.toNat ≤ 2) = false) := by
    simp [hu, hp, h1, h3, hw1, hw2]
    omega
  refine ⟨_, show execPcieLinkUp speed width t s = _ by simp only [execPcieLinkUp, if_neg hgo]; rfl, ?_⟩
  simp

theorem exec_pcieD3hot (enter : Bool) (hp : hasPcie s = true) :
    exec (.pcieD3hot enter) s = .next (if enter then s.setPcie { s.pcie with d3 := enter }
      else (List.range 64).foldl sendPending (s.setPcie { s.pcie with d3 := enter })) := by
  show execPcieD3hot enter s = _
  simp only [execPcieD3hot, hp, Bool.true_eq_false, if_false]

theorem exec_sgmiiLinkChange (up bad : Bool) (hp : portPowered s = true) :
    exec (.sgmiiLinkChange up bad t) s = .next
      (if (up && !bad) = s.eth.link then (advance s t).setEth { s.eth with speedBad := bad }
       else streamsStart (linkTo (advance s t) (up && !bad) bad)) := by
  have heth : (advance s t).eth = s.eth := by simp
  show execSgmiiLinkChange up bad t s = _
  simp only [execSgmiiLinkChange, hp, Bool.true_eq_false, if_false, heth]
  split <;> rfl

end Links

/-! ## The obligation -/

/-- Settles O7: one rule for each occurrence. -/
theorem hostLinkOccurrencesAct : Obligations.HostLinkOccurrencesAct := by
  unfold Obligations.HostLinkOccurrencesAct
  intro s t
  refine ⟨fun n k r hr hd hh ho => ⟨exec_streamDescriptorUse_streamOut hr hd hh ho,
      fun x => exec_streamDescriptorUse_streamOut_denied hr hd hh ho, exec_streamDescriptorUse_streamIn hr hd hh ho,
      fun x => exec_streamDescriptorUse_streamIn_denied hr hd hh ho⟩,
    fun n r => exec_dmaError, exec_pcieIslandReset, fun speed width => exec_pcieLinkUp,
    fun hp => ⟨exec_pcieD3hot true hp, exec_pcieD3hot false hp⟩, exec_sgmiiLinkChange, rfl⟩

end Sys2Proof.Machine
end

section
/-! The rings that completions and events leave in place, and the proof about the commands of group 0x01 (O2). -/

namespace Sys2Proof.Machine

/-! ## Rings stay -/

/-- Every ring is there still, with its status block where it was: entries and counts may have moved. -/
structure RingsStay (s t : State) : Prop where
  ring : ∀ n r, mget s.rings n = some r → ∃ q, mget t.rings n = some q ∧ q.statusAddr = r.statusAddr

namespace RingsStay

variable {s t u : State}

theorem of_rings (h : t.rings = s.rings) : RingsStay s t := ⟨fun _ r hr => ⟨r, h ▸ hr, rfl⟩⟩

theorem refl (s : State) : RingsStay s s := of_rings rfl

theorem trans (h : RingsStay s t) (k : RingsStay t u) : RingsStay s u where
  ring n r hr := by
    obtain ⟨q, hq, hqr⟩ := h.ring n r hr
    obtain ⟨p, hp, hpq⟩ := k.ring n q hq
    exact ⟨p, hp, hpq.trans hqr⟩

theorem foldl {α : Type} {f : State → α → State} (hf : ∀ s a, RingsStay s (f s a)) (l : List α) (s : State) :
    RingsStay s (l.foldl f s) := by
  induction l generalizing s with
  | nil => exact refl s
  | cons a l ih => exact (hf s a).trans (ih _)

/-- A ring that is stored takes the place of the one with its number. -/
theorem setRings {n : Nat} {r q : Ring} (hr : mget s.rings n = some r) (hq : q.statusAddr = r.statusAddr) :
    RingsStay s (s.setRings (mput s.rings n q)) where
  ring j p hp := by
    by_cases hj : j = n
    · subst hj
      rw [hr] at hp
      cases hp
      exact ⟨q, mget_mput_self .., hq⟩
    · exact ⟨p, (mget_mput_of_ne hj).trans hp, rfl⟩

theorem putRing {n : Nat} {r q : Ring} (hu : u.rings = s.rings) (hr : mget s.rings n = some r)
    (hq : q.statusAddr = r.statusAddr) : RingsStay s (putRing u n q) :=
  (setRings hr hq).trans (of_rings (by simp [hu]))

theorem postToRing (w : EvWindow) (s : State) (n : Nat) : RingsStay s (postToRing w s n) := by
  unfold Machine.postToRing
  cases hr : mget s.rings n with
  | none => exact refl s
  | some r =>
    dsimp only
    split
    · exact putRing rfl hr rfl
    · exact putRing (by simp) hr rfl

theorem postEvent (s : State) (w : EvWindow) : RingsStay s (postEvent s w) := by
  unfold Machine.postEvent
  have htape : RingsStay s (tape s 3 (eventBytes w) w.time) := of_rings (by simp)
  refine htape.trans ?_
  dsimp only
  split
  · split <;> exact of_rings (by simp)
  · exact foldl (postToRing w) _ _

theorem flushFrom (s : State) (mark : Nat) (evs : List Nat) : RingsStay s (flushFrom s mark evs) := by
  refine RingsStay.trans ?_ (foldl postEvent _ _)
  exact of_rings rfl

theorem padRing (s : State) (n len : Nat) : RingsStay s (padRing s n len) := by
  unfold Machine.padRing
  cases hr : mget s.rings n with
  | none => exact refl s
  | some r =>
    dsimp only
    split
    · exact refl s
    · exact putRing (by simp) hr rfl

theorem writeEntry {n : Nat} {b : Bytes} (h : writeEntry s n b = some t) : RingsStay s t := by
  unfold Machine.writeEntry at h
  cases hr : mget s.rings n with
  | none => simp [hr] at h
  | some r =>
    simp only [hr] at h
    split at h
    · cases h
    · cases h
      exact putRing (by simp) hr rfl

theorem endInflight (s : State) (e : Option (Nat × Nat)) : RingsStay s (endInflight s e) := by
  cases e with
  | none => exact refl s
  | some e => exact of_rings (by simp [Machine.endInflight])

theorem pushEntry (s : State) (n : Nat) (b : Bytes) (e : Option (Nat × Nat)) : RingsStay s (pushEntry s n b e) := by
  unfold Machine.pushEntry
  cases hr : mget s.rings n with
  | none => exact endInflight s e
  | some r0 =>
    have hpad : RingsStay s (if r0.heldCpl.isEmpty then Machine.padRing s n b.length else s) := by
      split
      · exact padRing s n b.length
      · exact refl s
    dsimp only
    generalize (if r0.heldCpl.isEmpty then Machine.padRing s n b.length else s) = u at hpad ⊢
    refine hpad.trans ?_
    obtain ⟨r, hr, -⟩ := hpad.ring n r0 hr
    simp only [hr, Option.getD_some]
    split
    · rename_i v hv
      exact (writeEntry (eq_some_of_ite hv)).trans (endInflight _ e)
    · exact setRings hr rfl

theorem postCpl (s : State) (o : Origin) (tag flags st d : Nat) (r : Bytes) (t : Sid) (i : Bool) :
    RingsStay s (postCpl s o tag flags st d r t i) := by
  unfold Machine.postCpl
  dsimp only
  generalize cplBytes tag flags st d (cplTime s t) r = b
  have htape : RingsStay s (tape s 2 (b.take 16) t) := of_rings (by simp)
  refine htape.trans ?_
  cases o with
  | mailbox => exact of_rings (by simp)
  | ring n =>
    dsimp only
    split
    · exact pushEntry _ _ b _
    · exact refl _
  | legacy => exact of_rings (by simp)
  | replay _ => exact pushEntry _ _ b none

theorem complete1 (s : State) (f : InFlight) (st d : Nat) (r : Bytes) (t : Sid) (k : Nat) :
    RingsStay s (complete1 s f st d r t k) := by
  unfold Machine.complete1
  dsimp only
  split
  · exact refl s
  · refine RingsStay.trans ?_ ((flushFrom _ k f.evs).trans (postCpl ..))
    exact of_rings (by simp)

theorem abortFlight (s : State) (f : InFlight) : RingsStay s (abortFlight s f) := by
  unfold Machine.abortFlight
  dsimp only
  refine RingsStay.trans (of_rings ?_) (complete1 ..)
  split <;> rfl

theorem consume (s : State) (n k : Nat) : RingsStay s (consume s n k) := by
  unfold Machine.consume
  cases hr : mget s.rings n with
  | none => exact refl s
  | some r => exact putRing (by simp) hr rfl

theorem skipTail (s : State) (n k : Nat) : RingsStay s (skipTail s n k) := by
  unfold Machine.skipTail
  cases hr : mget s.rings n with
  | none => exact refl s
  | some r => exact putRing rfl hr rfl

theorem abortQueued (k : Nat) (s : State) (n : Nat) : RingsStay s (abortQueued k s n) := by
  induction k generalizing s with
  | zero => exact refl s
  | succ k ih =>
    unfold Machine.abortQueued
    cases mget s.rings n with
    | none => exact refl s
    | some r =>
      dsimp only
      split
      · exact refl s
      · exact (skipTail s n _).trans (ih _)
      · exact (consume s n _).trans (ih _)
      · split
        · exact refl s
        · exact postCpl ..
      · exact ((consume s n _).trans (postCpl ..)).trans (ih _)

end RingsStay

/-! ## What the units of group 0x01 answer -/

section Units

variable {c : Cmd} {s : State} {r q : Ring}

theorem newRing_kind_command {b : Bytes} (h : byteAt b 1 = 1) : (newRing b).kind = .command := by
  simp [newRing, ringKind, h]

theorem newRing_kind_other {b : Bytes} (h : byteAt b 1 ≠ 1) : (newRing b).kind ≠ .command := by
  simp only [newRing, ringKind]
  split <;> simp_all

theorem ringCreateUnit_other (hn : mget s.rings (byteAt c.pl 0) = none) (hk : byteAt c.pl 1 ≠ 1) :
    ringCreateUnit c s = ok (putRing s (byteAt c.pl 0) (newRing c.pl)) := by
  simp [ringCreateUnit, hn, newRing_kind_other hk]

/-- The completions of the tags that a recovered status block holds (R66). -/
def recoverTags (s : State) (b : Bytes) : State :=
  (if bit (byteAt b 2) 0 then recoveredTags s.host (le b 16 8) else []).foldl
    (fun q t => pushEntry q (byteAt b 28) (cplBytes t 0 stAbortedReset 0 0 []) none) s

theorem ringCreateUnit_command (hn : mget s.rings (byteAt c.pl 0) = none) (hk : byteAt c.pl 1 = 1)
    (hq : mget s.rings (byteAt c.pl 28) = some q) (hc : q.kind = .completion) :
    ringCreateUnit c s = ok (hostStore (putRing (recoverTags s c.pl) (byteAt c.pl 0) (newRing c.pl)) (le c.pl 16 8 + 16)
      (zeros 128)) := by
  have hpair : mget s.rings (newRing c.pl).cplRing = some q := hq
  simp only [ringCreateUnit, hn, hpair, hc, newRing_kind_command hk, Option.isSome_none, decide_true, Bool.false_eq_true,
    Bool.true_eq_false, and_false, if_false, if_true]
  rfl

theorem ringDestroyUnit_stream (hr : mget s.rings (byteAt c.pl 0) = some r) (hk : r.kind ≠ .command)
    (hc : r.kind ≠ .completion) : ringDestroyUnit c s = ok (dropRing s (byteAt c.pl 0)) := by
  cases h : r.kind with
  | command => exact absurd h hk
  | completion => exact absurd h hc
  | event | streamOut | streamIn => simp [ringDestroyUnit, hr, h]

theorem ringDestroyUnit_completion (hr : mget s.rings (byteAt c.pl 0) = some r) (hk : r.kind = .completion)
    (hfree : ∀ e ∈ s.rings, e.2.kind = .command → e.2.cplRing ≠ byteAt c.pl 0) :
    ringDestroyUnit c s = ok (dropRing s (byteAt c.pl 0)) := by
  have hunused : s.rings.any (fun e => decide (e.2.kind = .command) && e.2.cplRing == byteAt c.pl 0) = false := by
    simpa [List.any_eq_false] using fun a b he => hfree (a, b) he
  simp [ringDestroyUnit, hr, hk, hunused]

/-- A command ring waits to be destroyed: the commands of it that are not Executing have been aborted, and it is there still. -/
theorem ringDestroyUnit_command (hr : mget s.rings (byteAt c.pl 0) = some r) (hk : r.kind = .command)
    (hd : r.destroying = none) :
    ∃ q r2, ringDestroyUnit c s = .busy q ∧ mget q.rings (byteAt c.pl 0) = some r2 ∧
      r2.destroying = some (c.a.origin, c.a.tag.toNat) := by
  have hstay (fs : List InFlight) (k : Nat) :
      RingsStay s (abortQueued k (fs.foldl abortFlight s) (byteAt c.pl 0)) :=
    (RingsStay.foldl RingsStay.abortFlight fs s).trans (RingsStay.abortQueued ..)
  simp only [ringDestroyUnit, hr, hk, hd, Option.isSome_none, Bool.false_eq_true, if_false]
  obtain ⟨r2, hr2, -⟩ := (hstay (s.cmds.list.filter _) (occupancy r + 2)).ring _ r hr
  rw [hr2]
  exact ⟨_, _, rfl, mget_mput_self .., rfl⟩

theorem ringResetUnit_halted (hr : mget s.rings (byteAt c.pl 0) = some r) (hh : r.halted = true)
    (hi : le c.pl 4 4 % granule r.kind = 0) :
    ringResetUnit c s =
      ok (putRing s (byteAt c.pl 0) { r with halted := false, prod := le c.pl 4 4, cons := le c.pl 4 4 }) := by
  simp [ringResetUnit, hr, hh, hi]

theorem winSetUnit_free (hfree : ∀ w, mget s.wins (byteAt c.pl 0) = some w → windowInUse s w = false) :
    winSetUnit c s = ok (s.setWins (if byteAt c.pl 1 = 0 then mdel s.wins (byteAt c.pl 0)
      else mput s.wins (byteAt c.pl 0) { read := bit (byteAt c.pl 1) 0, write := bit (byteAt c.pl 1) 1,
                                         base := le c.pl 8 8, size := le c.pl 16 8 })) := by
  cases hw : mget s.wins (byteAt c.pl 0) with
  | none =>
    simp only [winSetUnit, hw, Bool.false_eq_true, if_false]
    split <;> rfl
  | some w =>
    simp only [winSetUnit, hw, hfree w hw, Bool.false_eq_true, if_false]
    split <;> rfl

end Units

/-! ## The obligation -/

/-- A host command that is ready and is left Executing by its owning island. -/
theorem exec_busy {i : Instr} {sp : CmdSpec} {a : Args} {s q : State} (hi : hostCommand i = some (sp, a))
    (hr : ready sp a s = true) (hu : sp.unit (cmdOf sp a) (taken sp a s) = .busy q) : exec i s = .next (begins sp a s q) := by
  rw [exec_host s hi, submit_busy hr hu]

/-- Settles O2: taking a command leaves rings and windows as they were, so each unit answers as on the state before. -/
theorem ringAndWindowCommandsComplete : Obligations.RingAndWindowCommandsComplete := by
  unfold Obligations.RingAndWindowCommandsComplete
  intro a s
  have hrings (sp : CmdSpec) : (taken sp a s).rings = s.rings := by simp
  have hwins (sp : CmdSpec) : (taken sp a s).wins = s.wins := by simp
  refine ⟨?create, ?createCommand, ?destroy, ?destroyCompletion, ?destroyCommand, ?reset, ?window, ?eventWindow⟩
  case create =>
    intro hr hn hk
    exact exec_done rfl hr (ringCreateUnit_other ((hrings _).symm ▸ hn) hk)
  case createCommand =>
    intro q hr hn hk hq hc
    exact exec_done rfl hr (ringCreateUnit_command ((hrings _).symm ▸ hn) hk ((hrings _).symm ▸ hq) hc)
  case destroy =>
    intro r hr hn hk hc
    exact exec_done rfl hr (ringDestroyUnit_stream ((hrings _).symm ▸ hn) hk hc)
  case destroyCompletion =>
    intro r hr hn hk hfree
    exact exec_done rfl hr (ringDestroyUnit_completion ((hrings _).symm ▸ hn) hk ((hrings _).symm ▸ hfree))
  case destroyCommand =>
    intro r hr hn hk hd
    obtain ⟨q, r2, hu, hmget, hr2⟩ := ringDestroyUnit_command (c := cmdOf ringDestroySpec a)
      ((hrings ringDestroySpec).symm ▸ hn) hk hd
    exact ⟨q, r2, exec_busy rfl hr hu, hmget, hr2⟩
  case reset =>
    intro r hr hn hh hi
    exact exec_done rfl hr (ringResetUnit_halted ((hrings _).symm ▸ hn) hh hi)
  case window =>
    intro hr hfree
    rw [← hwins winSetSpec]
    exact exec_done rfl hr (winSetUnit_free ((hwins winSetSpec).symm ▸ hfree))
  case eventWindow =>
    intro hr
    have hev : (taken eventWindowSetSpec a s).ev = s.ev := by simp
    rw [← hev]
    exact exec_busy rfl hr rfl

end Sys2Proof.Machine
end

section
/-! The proofs about the gate of a channel, duplicate tags and long packets of the mailbox (O48), and about malformed packets of
a ring (O47). -/

namespace Sys2Proof.Machine

/-! ## The gate of a channel (R45, R47, R54, R56, R61) -/

section Gate

variable {i : Instr} {sp : CmdSpec} {a : Args} {s : State}

theorem exec_host_of_closed (hi : hostCommand i = some (sp, a)) (h : channelOpen s a.origin = false) : exec i s = .next s := by
  rw [exec_host s hi, submit, take, if_pos h]

theorem exec_host_of_malformed (hi : hostCommand i = some (sp, a)) (ho : channelOpen s a.origin = true)
    (hl : badLen a.origin a.payload.length = true) : exec i s = .next (malformed (cmdOf sp a) s) := by
  rw [exec_host s hi, submit, take, if_neg (by simp [ho])]
  exact congrArg _ (if_pos hl)

theorem exec_host_of_duplicate (hi : hostCommand i = some (sp, a)) (ho : channelOpen s a.origin = true)
    (hl : badLen a.origin a.payload.length = false) (ht : (byTag s a.origin a.tag.toNat).isSome = true) :
    exec i s = .next (duplicate (cmdOf sp a) s) := by
  rw [exec_host s hi, submit, take, if_neg (by simp [ho]), if_neg (by simp [Cmd.len, hl]), if_pos ht]

/-- What every channel needs: power, a running Sidereal, running cores and a place among the 1024. -/
theorem channelOpen_device {o : Origin} (h : channelOpen s o = true) :
    s.pwr.state ≠ .off ∧ s.pwr.state ≠ .permafrost ∧ s.sid.running = true ∧ s.pol.halted = false ∧ flightCount s < 1024 := by
  simp only [channelOpen, Bool.and_eq_true, decide_eq_true_eq, Bool.not_eq_true'] at h
  obtain ⟨⟨⟨⟨⟨hoff, hperma⟩, hrun⟩, hcores⟩, hcount⟩, -⟩ := h
  exact ⟨hoff, hperma, hrun, hcores, hcount⟩

theorem channelOpen_mailbox (h : channelOpen s .mailbox = true) : mbxCount s < 32 := by
  simp only [channelOpen, Bool.and_eq_true, decide_eq_true_eq] at h
  exact h.2

/-- What a command ring needs besides. -/
theorem channelOpen_ring {n : Nat} (h : channelOpen s (.ring n) = true) :
    ∃ r, mget s.rings n = some r ∧ r.kind = .command ∧ r.halted = false ∧ r.destroying = none ∧ pairFree s n = true := by
  simp only [channelOpen, Bool.and_eq_true] at h
  obtain ⟨-, hring⟩ := h
  cases hr : mget s.rings n with
  | none => simp [hr] at hring
  | some r =>
    simp only [hr, Bool.and_eq_true, decide_eq_true_eq, Bool.not_eq_true', Option.isNone_iff_eq_none] at hring
    obtain ⟨⟨⟨hkind, hhalt⟩, hdest⟩, hpair⟩ := hring
    exact ⟨r, rfl, hkind, hhalt, hdest, hpair⟩

/-- The completion ring of an open command ring holds no entry back. -/
theorem pairFree_heldCpl {n : Nat} {r q : Ring} (h : pairFree s n = true) (hr : mget s.rings n = some r)
    (hq : mget s.rings r.cplRing = some q) : q.heldCpl = [] := by
  simpa [pairFree, hr, hq] using h

end Gate

/-! ## The obligations -/

/-- Settles O48: each hindrance closes the channel, and a closed channel gives no packet. -/
theorem channelsAndTagsGateTaking : Obligations.ChannelsAndTagsGateTaking := by
  unfold Obligations.ChannelsAndTagsGateTaking
  intro i sp a s hi
  have hclosed (h : ¬channelOpen s a.origin = true) : exec i s = .next s := exec_host_of_closed hi (by simpa using h)
  refine ⟨?full, ?mailboxFull, ?power, ?cores, ?sidereal, ?noRing, ?halted, ?destroying, ?held, ?duplicate, ?long⟩
  case full => exact fun h => hclosed fun ho => by obtain ⟨-, -, -, -, hcount⟩ := channelOpen_device ho; omega
  case mailboxFull =>
    intro hm h
    refine hclosed fun ho => ?_
    have hcount := channelOpen_mailbox (hm ▸ ho)
    omega
  case power =>
    intro h
    refine hclosed fun ho => ?_
    obtain ⟨hoff, hperma, -⟩ := channelOpen_device ho
    exact h.elim hoff hperma
  case cores =>
    intro h
    refine hclosed fun ho => ?_
    obtain ⟨-, -, -, hcores, -⟩ := channelOpen_device ho
    exact absurd (h.symm.trans hcores) (by decide)
  case sidereal =>
    intro h
    refine hclosed fun ho => ?_
    obtain ⟨-, -, hrun, -⟩ := channelOpen_device ho
    exact absurd (h.symm.trans hrun) (by decide)
  case noRing =>
    intro n hn hnone
    refine hclosed fun ho => ?_
    obtain ⟨r, hr, -⟩ := channelOpen_ring (hn ▸ ho)
    exact absurd (hnone.symm.trans hr) (by simp)
  case halted =>
    intro n r hn hr h
    refine hclosed fun ho => ?_
    obtain ⟨q, hq, -, hhalt, -⟩ := channelOpen_ring (hn ▸ ho)
    cases hr.symm.trans hq
    exact absurd (h.symm.trans hhalt) (by decide)
  case destroying =>
    intro n r d hn hr h
    refine hclosed fun ho => ?_
    obtain ⟨q, hq, -, -, hdest, -⟩ := channelOpen_ring (hn ▸ ho)
    cases hr.symm.trans hq
    exact absurd (h.symm.trans hdest) (by simp)
  case held =>
    intro n r q hn hr hq h
    refine hclosed fun ho => ?_
    obtain ⟨-, -, -, -, -, hpair⟩ := channelOpen_ring (hn ▸ ho)
    exact h (pairFree_heldCpl hpair hr hq)
  case duplicate =>
    intro ho hl ht
    exact ⟨_, exec_host_of_duplicate hi ho hl ht, by simp [duplicate], by simp [duplicate], rfl⟩
  case long =>
    intro ho hm h
    have hl : badLen a.origin a.payload.length = true := by simp [badLen, hm, h]
    refine ⟨_, exec_host_of_malformed hi (hm ▸ ho) hl, ?_⟩
    simp [malformed, hm, originAddr, originLink, originInfo]

namespace MalformedRefuted

/-- A command ring of 4096 bytes whose completions go to ring 1. -/
def ring : Ring := { newRing [] with kind := .command, size := 4096, cplRing := 1 }

def args (o : Origin) (payload : Bytes) : Args :=
  { origin := o, addr := 0, tag := 1, flags := 0, target := 0, whn := 0, payload := payload }

/-- An Active device with the given rings. -/
def device (rings : List (Nat × Ring)) : State :=
  { State.reset with
    sid := { State.reset.sid with running := true }
    pwr := { State.reset.pwr with state := .active }
    rings := rings }

/-- Ring 0 runs and is paired. -/
def running : State := device [(0, ring), (1, { ring with kind := .completion })]

/-- Ring 0 stands twice in the table: halted, and behind that waiting for its destruction. -/
def twice : State := device [(0, { ring with halted := true }), (0, { ring with destroying := some (.mailbox, 5) })]

/-- `RING_RESET` of ring 0. -/
def reset : Args := args .mailbox (zeros 8)

theorem ready_reset : ready ringResetSpec reset twice = true := by decide +kernel

/-- The reset's completion ends the destruction that waits, which takes every entry of ring 0 from the table. -/
theorem reset_drops_ring : (mget (submit ringResetSpec reset twice).rings 0).isNone = true := by decide +kernel

end MalformedRefuted

open MalformedRefuted in
/-- Refutes O47: its last clause speaks of every state, those too that list a ring's number twice. Where the second entry of
the halted ring waits for its destruction (R56), the completion of `RING_RESET` ends that wait, and no ring is left that
runs. -/
theorem not_malformedPacketHaltsItsRing : ¬ Obligations.MalformedPacketHaltsItsRing := by
  unfold Obligations.MalformedPacketHaltsItsRing
  intro h
  obtain ⟨-, -, -, -, -, -, -, -, hreset⟩ :=
    h (.identify (args (.ring 0) [0])) identifySpec (args (.ring 0) [0]) running 0 ring rfl rfl rfl (by decide) (by decide)
  obtain ⟨w, hw, x, hx, -⟩ := hreset reset twice ready_reset rfl rfl
  rw [exec_host (sp := ringResetSpec) (a := reset) twice rfl] at hw
  cases hw
  simpa [hx] using reset_drops_ring

end Sys2Proof.Machine
end

section
/-! How a command with no event of its own completes; the proofs about Thaw (O51) and about the way of a completion to its
channel (O53). -/

namespace Sys2Proof.Machine

/-! ## A completion with no event before it (R34) -/

section Completing

variable {s : State} {f : InFlight}

/-- Of events that are all numbered below the next one, none is of what begins now. -/
theorem flushFrom_nextId (h : EvOk s.ev) : flushFrom s s.ev.nextId [] = s := by
  have hnone (w : EvWindow) (hw : w ∈ s.ev.urgent ++ s.ev.windows) : raisedBy s.ev.nextId [] w = false := by
    have hlast := (h w hw).2
    simp [raisedBy, hlast]
  have hout : (s.ev.urgent ++ s.ev.windows).filter (fun w => raisedBy s.ev.nextId [] w && canPost s w) = [] :=
    List.filter_eq_nil_iff.2 fun w hw => by simp [hnone w hw]
  have hurgent : s.ev.urgent.filter (fun w => !(raisedBy s.ev.nextId [] w && canPost s w)) = s.ev.urgent :=
    List.filter_eq_self.2 fun w hw => by simp [hnone w (List.mem_append_left _ hw)]
  have hwindows : s.ev.windows.filter (fun w => !(raisedBy s.ev.nextId [] w && canPost s w)) = s.ev.windows :=
    List.filter_eq_self.2 fun w hw => by simp [hnone w (List.mem_append_right _ hw)]
  simp only [flushFrom, hout, hurgent, hwindows, List.foldl_nil]
  rfl

/-- The commands in flight once `f` has left, with the Held ones that it frees (Table 2-6, R30). -/
def leftFlight (s : State) (f : InFlight) : Commands :=
  let n := s.cmds.completed
  let served := if f.cmd.unordered ∨ ¬ atBoundary s then s.cmds.served else s.cmds.served ++ [(f.cmd.a.origin, f.cmd.tgt, n)]
  (freeHeld (s.setCmds { s.cmds with
    list := s.cmds.list.filter fun g => g.seq != f.seq, completed := n + 1, served := served }) n).cmds

theorem leftFlight_alone (h : s.cmds.list = [f]) : (leftFlight s f).list = [] := by
  simp [leftFlight, freeHeld, h]

/-- Where no ring waits for its destruction, a command that raised no event leaves flight and its completion is written:
nothing else happens. -/
theorem complete_quietly (hcores : s.pol.halted = false) (hev : EvOk s.ev) (hd : noneDestroying s = true)
    (hlate : f.late = false) (hevs : f.evs = []) (st d : Nat) (r : Bytes) (t : Sid) :
    complete s f st d r t s.ev.nextId =
      postCpl (s.setCmds (leftFlight s f)) f.cmd.a.origin f.cmd.a.tag.toNat f.cmd.a.flags.toNat st d r t f.bit := by
  have hfinal : finalStatus f st d t = (st, d) := by simp [finalStatus, hlate]
  have hflush : flushFrom (s.setCmds (leftFlight s f)) s.ev.nextId [] = s.setCmds (leftFlight s f) :=
    flushFrom_nextId (s := s.setCmds (leftFlight s f)) hev
  calc complete s f st d r t s.ev.nextId
    _ = complete1 s f st d r t s.ev.nextId := foldl_finishDestroy (noneDestroying_complete1 hd) _
    _ = postCpl (flushFrom (s.setCmds (leftFlight s f)) s.ev.nextId []) f.cmd.a.origin f.cmd.a.tag.toNat
          f.cmd.a.flags.toNat (finalStatus f st d t).1 (finalStatus f st d t).2 r t f.bit := by
        rw [complete1, if_neg (by simp [hcores]), hevs]
        rfl
    _ = _ := by rw [hflush, hfinal]

/-! ## The mailbox as channel (R42, R59) -/

theorem cplTime_of {t : State} (hp : t.pwr = s.pwr) (hr : t.sid = s.sid) (u : Sid) : cplTime t u = cplTime s u := by
  simp [cplTime, hp, hr]

@[simp] theorem mbxPush_queue (s : State) (e : MbxEntry) : (mbxPush s e).mbx.queue = s.mbx.queue ++ [e] := by
  unfold mbxPush
  dsimp only
  split <;> simp

theorem postCpl_mailbox (s : State) (tag flags st d : Nat) (r : Bytes) (t : Sid) (i : Bool) :
    let p := postCpl s .mailbox tag flags st d r t i
    p.mbx.queue = s.mbx.queue ++ [⟨false, false, cplBytes tag flags st d (cplTime s t) r⟩] ∧ p.host = s.host ∧
      p.rings = s.rings := by
  simp [postCpl]

/-- A command of the mailbox completes into its queue. -/
theorem complete_mailbox (hcores : s.pol.halted = false) (hev : EvOk s.ev) (hd : noneDestroying s = true)
    (hlate : f.late = false) (hevs : f.evs = []) (ho : f.cmd.a.origin = .mailbox) (st d : Nat) (r : Bytes) (t : Sid) :
    let p := complete s f st d r t s.ev.nextId
    p.mbx.queue = s.mbx.queue ++ [⟨false, false, cplBytes f.cmd.a.tag.toNat f.cmd.a.flags.toNat st d (cplTime s t) r⟩] ∧
      p.host = s.host ∧ p.rings = s.rings ∧ (s.cmds.list = [f] → p.cmds.list = []) := by
  rw [complete_quietly hcores hev hd hlate hevs, ho]
  obtain ⟨hqueue, hhost, hrings⟩ :=
    postCpl_mailbox (s.setCmds (leftFlight s f)) f.cmd.a.tag.toNat f.cmd.a.flags.toNat st d r t f.bit
  exact ⟨hqueue, hhost, hrings, fun hl => by simpa using leftFlight_alone hl⟩

end Completing

/-! ## What taking a command leaves to its completion -/

section Taken

variable {sp : CmdSpec} {a : Args} {s : State}

theorem taken_host_mailbox (hm : a.origin = .mailbox) : (taken sp a s).host = s.host := by
  simp [taken, enter, hm]

theorem evOk_taken (h : EvOk s.ev) : EvOk (taken sp a s).ev := by simpa using h

theorem noneDestroying_taken (h : noneDestroying s = true) : noneDestroying (taken sp a s) = true :=
  noneDestroying_of_rings (by simp) h

/-- A command of the mailbox that completes at once stands last in the queue, and neither host memory nor a ring has changed. -/
theorem complete_taken_mailbox (hm : a.origin = .mailbox) (hcores : s.pol.halted = false) (hev : EvOk s.ev)
    (hd : noneDestroying s = true) (st d : Nat) (r : Bytes) :
    let p := complete (taken sp a s) (flightOf sp a s) st d r s.sid.now s.ev.nextId
    p.mbx.queue = s.mbx.queue ++
        [⟨false, false, cplBytes a.tag.toNat a.flags.toNat st d (cplTime s s.sid.now) r⟩] ∧
      p.host = s.host ∧ p.rings = s.rings ∧ (s.cmds.list = [] → p.cmds.list = []) := by
  obtain ⟨hqueue, hhost, hrings, hlist⟩ :=
    complete_mailbox (s := taken sp a s) (f := flightOf sp a s) (by simpa using hcores) (evOk_taken hev)
      (noneDestroying_taken hd) rfl rfl hm st d r s.sid.now
  have htime : cplTime (taken sp a s) s.sid.now = cplTime s s.sid.now := cplTime_of (by simp) (by simp) _
  have htaken : (taken sp a s).ev = s.ev ∧ (taken sp a s).mbx = s.mbx ∧ (taken sp a s).rings = s.rings := by simp
  obtain ⟨hev', hmbx', hrings'⟩ := htaken
  rw [hev', hmbx', htime] at hqueue
  rw [hev', taken_host_mailbox hm] at hhost
  rw [hev', hrings'] at hrings
  rw [hev'] at hlist
  exact ⟨hqueue, hhost, hrings, fun hl => hlist (by simp [hl])⟩

end Taken

/-! ## Thaw (R65) -/

section Thaw

variable {sp : CmdSpec} {a : Args} {s : State}

/-- A packet that finds nothing else in flight is dispatched, whatever its `WHEN`. -/
theorem submit_alone (ho : channelOpen s a.origin = true) (hl : badLen a.origin a.payload.length = false)
    (ht : byTag s a.origin a.tag.toNat = none) (hlist : s.cmds.list = []) (hserved : s.cmds.served = []) :
    submit sp a s = dispatch (some sp) (flightOf sp a s) (enter (cmdOf sp a) s).2 := by
  have hblocked : blocked (enter (cmdOf sp a) s).2 (cmdOf sp a) (enter (cmdOf sp a) s).1.seq = false := by
    simp [blocked, enter_cmds, hlist]
  have hnow : servedNow (enter (cmdOf sp a) s).2 (cmdOf sp a) = none := by
    simp [servedNow, enter_cmds, hserved]
  simp only [submit, take, Cmd.len, ho, hl, ht, hblocked, hnow, flightOf, Bool.true_eq_false, Bool.false_eq_true,
    Option.isSome_none, if_false, ite_self]

theorem dispatch_thaw_busy {p : CmdSpec} {f : InFlight} (hthaw : s.pwr.state = .thaw) (h1 : f.cmd.op ≠ 0x0001)
    (h2 : f.cmd.op ≠ 0x0002) :
    dispatch (some p) f s = complete (tapeCommand s f.cmd) f stBringupBusy 0 [] s.sid.now s.ev.nextId := by
  simp [dispatch, thawServed, hthaw, h1, h2]

/-- Neither legacy mode, AF following nor a replay holds the system. -/
theorem system_unheld {c : Cmd} (h : c.tgt = 0) :
    legacyHolds s c = false ∧ spareHolds s c = false ∧ replayHolds s c = false := by
  simp [legacyHolds, spareHolds, replayHolds, replayed, toFull, toZone, toLane, toSurvey, toFlake, h]

theorem identify_unchecked {c : Cmd} (htgt : c.a.target = 0) (hflags : c.a.flags = 0) (hpl : c.a.payload = []) :
    checkTarget identifySpec s c = none := by
  have hinst : ¬c.inst ≥ instances s.part c.unitId := by
    simp only [Cmd.inst, Cmd.unitId, htgt]
    cases s.part <;> decide
  rw [checkTarget, if_neg hinst]
  simp [identifySpec, toSystem, Cmd.tgt, htgt, Cmd.badFlags, hflags, Cmd.len, hpl, firstBad]

/-- `IDENTIFY` passes every check and is executed at once, whatever its `WHEN`. -/
theorem dispatch_thaw_identify {f : InFlight} (hthaw : s.pwr.state = .thaw) (hop : f.cmd.op = 0x0001)
    (hpl : f.cmd.a.payload = []) (htgt : f.cmd.a.target = 0) (hflags : f.cmd.a.flags = 0) (hdue : f.due = 0) :
    dispatch (some identifySpec) f s =
      complete (tapeCommand s f.cmd) f stOk 0 (identifyResult (tapeCommand s f.cmd)) s.sid.now s.ev.nextId := by
  have hserved : thawServed (tapeCommand s f.cmd) f.cmd.op = true := by simp [thawServed, hthaw, hop]
  have hjudge : judge identifySpec f.cmd (tapeCommand s f.cmd) =
      .done stOk 0 (identifyResult (tapeCommand s f.cmd)) (tapeCommand s f.cmd) := by
    obtain ⟨hlegacy, hspare, hreplay⟩ := system_unheld (s := tapeCommand s f.cmd) (c := f.cmd) (by simp [Cmd.tgt, htgt])
    simp [judge, hthaw, hlegacy, hspare, hreplay, identifySpec, okWith]
  simp [dispatch, hserved, identify_unchecked htgt hflags hpl, launch, hjudge, hdue]

end Thaw

/-- Settles O51: a packet that stands alone is dispatched, where Thaw refuses it or, for `IDENTIFY`, executes it. -/
theorem thawServesTwoCommands : Obligations.ThawServesTwoCommands := by
  unfold Obligations.ThawServesTwoCommands
  intro s hthaw hd
  have htime (t : Sid) : cplTime s t = 0 := by simp [cplTime, hthaw]
  have hentered (c : Cmd) : (enter c s).2.pwr.state = .thaw := by simpa using hthaw
  have hrunning {o : Origin} (ho : channelOpen s o = true) : s.pol.halted = false := by
    obtain ⟨-, -, -, hcores, -⟩ := channelOpen_device ho
    exact hcores
  refine ⟨htime, ?refused, ?identify⟩
  case refused =>
    intro i sp a hi h1 h2 hm ho hl ht hlist hserved hinv
    have hexec : exec i s = .next (complete (taken sp a s) (flightOf sp a s) stBringupBusy 0 [] s.sid.now s.ev.nextId) := by
      rw [exec_host s hi, submit_alone (hm ▸ ho) (hm ▸ hl) (hm ▸ ht) hlist hserved, dispatch_thaw_busy (hentered _) h1 h2]
      simp only [enter_frame]
      rfl
    obtain ⟨hqueue, -, -, hempty⟩ :=
      complete_taken_mailbox (sp := sp) hm (hrunning ho) hinv.2.1 hd stBringupBusy 0 []
    exact ⟨_, hexec, by rw [hqueue, htime], hempty hlist⟩
  case identify =>
    intro a hm ho hpl htgt hflags ht hlist hserved hinv
    have hl : badLen a.origin a.payload.length = false := by simp [badLen, hpl]
    have hexec : exec (.identify a) s = .next (complete (taken identifySpec a s) (flightOf identifySpec a s) stOk 0
        (identifyResult s) s.sid.now s.ev.nextId) := by
      rw [exec_host (sp := identifySpec) (a := a) s rfl, submit_alone (hm ▸ ho) hl (hm ▸ ht) hlist hserved,
        dispatch_thaw_identify (hentered _) rfl hpl htgt hflags rfl, ← identifyResult_taken identifySpec a s]
      simp only [enter_frame]
      rfl
    obtain ⟨hqueue, -⟩ :=
      complete_taken_mailbox (sp := identifySpec) hm (hrunning ho) hinv.2.1 hd stOk 0 (identifyResult s)
    exact ⟨_, hexec, by rw [hqueue, htime, hflags]; rfl⟩

end Sys2Proof.Machine
end

section
/-! The proof about where a completion goes (O53): what the writes of host memory leave alone, and how an entry that fits takes its
place in a completion ring. -/

namespace Sys2Proof.Machine

/-! ## Writes of host memory (R41, R52, R66) -/

section Writes

variable {s : State} {x : Nat}

@[simp] theorem length_statusBlock (r : Ring) : (statusBlock r).length = 16 := by
  simp [statusBlock, zeros]

theorem memRead_hostStore {a : Nat} {b : Bytes} (h : outside x a b.length) :
    memRead (hostStore s a b).host x = memRead s.host x :=
  memRead_memStore_of_outside h

theorem memRead_putRing {n : Nat} {r : Ring} (h : outside x r.statusAddr 16) :
    memRead (putRing s n r).host x = memRead s.host x := by
  rw [putRing, memRead_hostStore (by rwa [length_statusBlock])]
  rfl

theorem memRead_putInflight {n tag : Nat} {r : Ring} {v : Bool} (hr : mget s.rings n = some r) (h : x ≠ inflightByte r tag) :
    memRead (putInflight s n tag v).host x = memRead s.host x := by
  simp only [putInflight, hr]
  refine memRead_hostStore ?_
  simp only [outside, List.length_singleton]
  unfold inflightByte at h
  omega

theorem memBytes_congr {m k : List Host.Cell} {a n : Nat} (h : ∀ i < n, memRead m (a + i) = memRead k (a + i)) :
    memBytes m a n = memBytes k a n := by
  induction n generalizing a with
  | zero => rfl
  | succ n ih =>
    have hrest : ∀ i < n, memRead m (a + 1 + i) = memRead k (a + 1 + i) := fun i hi => by
      have := h (i + 1) (by omega)
      rwa [Nat.add_comm i 1, ← Nat.add_assoc] at this
    rw [memBytes, memBytes, ih hrest, show memRead m a = memRead k a from h 0 (by omega)]

end Writes

/-! ## The place of an entry (R53) -/

section Place

variable {q : Ring}

/-- What is left behind a pad begins where the ring begins. -/
theorem mod_size_after_pad {k : Nat} (hq : q.size = 2 ^ k) (hk : k ≤ 32) :
    ((q.prod + (q.size - q.prod % q.size)) % 2 ^ 32) % q.size = 0 := by
  have hpos : 0 < q.size := hq ▸ Nat.two_pow_pos k
  have hdvd : q.size ∣ 2 ^ 32 := hq ▸ Nat.pow_dvd_pow 2 hk
  rw [Nat.mod_mod_of_dvd _ hdvd, ← Nat.add_sub_assoc (Nat.le_of_lt (Nat.mod_lt _ hpos))]
  have hdiv := Nat.div_add_mod q.prod q.size
  rw [show q.prod + q.size - q.prod % q.size = q.size * (q.prod / q.size) + q.size by omega, ← Nat.mul_succ,
    Nat.mul_mod_right]

/-- The ring once the pad before an entry of `n` bytes stands in it. -/
def Ring.padded (q : Ring) (n : Nat) (t : Sid) : Ring :=
  if padOf q n = 0 then q else { q.entry t with prod := (q.prod + padOf q n) % 2 ^ 32 }

theorem Ring.padded_frame (q : Ring) (n : Nat) (t : Sid) :
    (q.padded n t).size = q.size ∧ (q.padded n t).base = q.base ∧ (q.padded n t).statusAddr = q.statusAddr ∧
      (q.padded n t).cons = q.cons ∧ (q.padded n t).heldCpl = q.heldCpl := by
  unfold Ring.padded
  split <;> exact ⟨rfl, rfl, rfl, rfl, rfl⟩

theorem padOf_cases (q : Ring) (n : Nat) :
    padOf q n = 0 ∧ (n ≤ q.size - q.prod % q.size ∨ q.size - q.prod % q.size = 0) ∨
      padOf q n = q.size - q.prod % q.size ∧ 0 < padOf q n ∧ ¬n ≤ q.size - q.prod % q.size := by
  unfold padOf
  split <;> omega

section Fits

variable {k n : Nat} (hq : q.size = 2 ^ k) (hk : k ≤ 32) (hfit : occupancy q + padOf q n + n ≤ q.size) (t : Sid)

include hq hk

theorem Ring.padded_entryAt : (q.padded n t).base + (q.padded n t).prod % (q.padded n t).size = entryAt q n := by
  unfold Ring.padded entryAt
  split
  · rfl
  · rename_i hpad
    rcases padOf_cases q n with ⟨h0, -⟩ | ⟨hroom, -, -⟩
    · exact absurd h0 hpad
    · simp only [Ring.entry, hroom, mod_size_after_pad hq hk]

include hfit

theorem Ring.padded_room : n ≤ (q.padded n t).size - (q.padded n t).prod % (q.padded n t).size := by
  have hpos : q.prod % q.size < q.size := Nat.mod_lt _ (hq ▸ Nat.two_pow_pos k)
  unfold Ring.padded
  rcases padOf_cases q n with ⟨h0, hroom⟩ | ⟨hroom, hpad, -⟩
  · rw [if_pos h0]
    omega
  · rw [if_neg (by omega)]
    simp only [Ring.entry, hroom, mod_size_after_pad hq hk]
    omega

theorem Ring.padded_occupancy : occupancy (q.padded n t) + n ≤ (q.padded n t).size := by
  have hsize : q.size ≤ 2 ^ 32 := hq ▸ Nat.pow_le_pow_right (by decide) hk
  unfold Ring.padded
  split
  · omega
  · simp only [occupancy, Ring.entry] at hfit ⊢
    omega

end Fits

theorem Ring.padded_prod (q : Ring) (n : Nat) (t : Sid) :
    ((q.padded n t).prod + n) % 2 ^ 32 = (q.prod + padOf q n + n) % 2 ^ 32 := by
  unfold Ring.padded
  split
  · rename_i h
    rw [h, Nat.add_zero]
  · exact Nat.mod_add_mod ..

end Place

/-! ## An entry that fits (R53, R54) -/

section Entry

variable {s : State} {n m tag x : Nat} {q r : Ring} {b : Bytes}

/-- The entry stands in the ring. -/
def entered (s : State) (n : Nat) (q : Ring) (b : Bytes) : State :=
  putRing (hostStore s (q.base + q.prod % q.size) b) n { q.entry s.sid.now with prod := (q.prod + b.length) % 2 ^ 32 }

theorem writeEntry_fits (hq : mget s.rings n = some q) (hd : s.pcie.d3 = false) (hroom : b.length ≤ q.size - q.prod % q.size)
    (hocc : occupancy q + b.length ≤ q.size) : writeEntry s n b = some (entered s n q b) := by
  have hgo : ¬(s.pcie.d3 = true ∨ q.size - q.prod % q.size < b.length ∨ occupancy q + b.length > q.size) := by
    simp [hd]
    omega
  simp only [writeEntry, hq, if_neg hgo, entered]

/-- A pad is written where it is needed, and then the ring is the padded one. -/
theorem padRing_fits {k : Nat} (hq : mget s.rings n = some q) (hd : s.pcie.d3 = false) (hsize : q.size = 2 ^ k)
    (hfit : occupancy q + padOf q m + m ≤ q.size) :
    mget (padRing s n m).rings n = some (q.padded m s.sid.now) ∧ (padRing s n m).pcie.d3 = false ∧
      ∀ x, outside x q.statusAddr 16 → (padOf q m ≠ 0 → outside x (q.base + q.prod % q.size) 16) →
        memRead (padRing s n m).host x = memRead s.host x := by
  have hroom : 0 < q.size - q.prod % q.size :=
    Nat.sub_pos_of_lt (Nat.mod_lt _ (hsize ▸ Nat.two_pow_pos k))
  unfold Ring.padded
  rcases padOf_cases q m with ⟨h0, hle⟩ | ⟨hpad, hpos, hlt⟩
  · have hsame : padRing s n m = s := by
      simp only [padRing, hq]
      exact if_pos (.inl (by omega))
    rw [hsame, if_pos h0]
    exact ⟨hq, hd, fun _ _ _ => rfl⟩
  · have hgo : ¬(m ≤ q.size - q.prod % q.size ∨ s.pcie.d3 = true ∨
        occupancy q + (q.size - q.prod % q.size) > q.size) := by
      simp only [hd, Bool.false_eq_true, false_or]
      omega
    have hput : padRing s n m = putRing (hostStore s (q.base + q.prod % q.size) padEntry) n
        { q.entry s.sid.now with prod := (q.prod + padOf q m) % 2 ^ 32 } := by
      simp only [padRing, hq, if_neg hgo, hpad]
    rw [hput, if_neg (by omega)]
    refine ⟨by simp, by simpa [hostStore] using hd, fun x hstatus hx => ?_⟩
    rw [memRead_putRing (by exact hstatus), memRead_hostStore]
    exact hx (by omega)

theorem pushEntry_fits {t : State} {e : Option (Nat × Nat)} {u : Ring} (hq : mget s.rings n = some q) (hheld : q.heldCpl = [])
    (hu : mget (padRing s n b.length).rings n = some u) (huheld : u.heldCpl = [])
    (hw : writeEntry (padRing s n b.length) n b = some t) :
    pushEntry s n b e = endInflight t e := by
  simp only [pushEntry, hq, hheld, hu, huheld, Option.getD_some, List.isEmpty_nil, if_true, hw]

theorem entered_rings (s : State) (n : Nat) (q : Ring) (b : Bytes) :
    ∃ x, mget (entered s n q b).rings n = some x ∧ x.prod = (q.prod + b.length) % 2 ^ 32 :=
  ⟨_, by simp only [entered, putRing_rings, mget_mput_self]; rfl, rfl⟩

theorem memRead_entered (he : outside x (q.base + q.prod % q.size) b.length) (hstatus : outside x q.statusAddr 16) :
    memRead (entered s n q b).host x = memRead s.host x := by
  rw [entered, memRead_putRing (by exact hstatus), memRead_hostStore he]

/-- What is read where an entry stands that its status block does not overlap. -/
theorem memBytes_entered (hwf : Memory.wf s.host = true)
    (hstatus : ∀ i < b.length, outside (q.base + q.prod % q.size + i) q.statusAddr 16) :
    memBytes (entered s n q b).host (q.base + q.prod % q.size) b.length = b := by
  refine Eq.trans (memBytes_congr fun i hi => ?_) (memBytes_memStore (m := s.host) hwf)
  rw [entered, memRead_putRing (by exact hstatus i hi)]
  rfl

end Entry

/-- An entry with its pad stands in a ring that has the space, and the bit of its command is cleared. -/
theorem pushEntry_placed {s : State} {n m tag k : Nat} {q r : Ring} {b : Bytes} (hq : mget s.rings n = some q)
    (hheld : q.heldCpl = []) (hd : s.pcie.d3 = false) (hsize : q.size = 2 ^ k) (hk : k ≤ 32)
    (hfit : occupancy q + padOf q b.length + b.length ≤ q.size) (hr : mget s.rings m = some r)
    (hwf : Memory.wf s.host = true) :
    let t := pushEntry s n b (some (m, tag))
    (∃ x, mget t.rings n = some x ∧ x.prod = (q.prod + padOf q b.length + b.length) % 2 ^ 32) ∧
      (∀ x, x ≠ inflightByte r tag → outside x (entryAt q b.length) b.length → outside x q.statusAddr 16 →
        (padOf q b.length ≠ 0 → outside x (q.base + q.prod % q.size) 16) → memRead t.host x = memRead s.host x) ∧
      ((∀ i < b.length, outside (entryAt q b.length + i) q.statusAddr 16) →
        outside (inflightByte r tag) (entryAt q b.length) b.length → memBytes t.host (entryAt q b.length) b.length = b) := by
  obtain ⟨hu, hud, hpad⟩ := padRing_fits hq hd hsize hfit
  obtain ⟨-, -, hstatus, -, hph⟩ := q.padded_frame b.length s.sid.now
  have hat := Ring.padded_entryAt (n := b.length) hsize hk s.sid.now
  have hw := writeEntry_fits hu hud (Ring.padded_room hsize hk hfit _) (Ring.padded_occupancy hsize hk hfit _)
  have hpush := pushEntry_fits (e := some (m, tag)) hq hheld hu (hph.trans hheld) hw
  obtain ⟨r', hr', haddr⟩ := ((RingsStay.padRing s n b.length).trans (RingsStay.writeEntry hw)).ring m r hr
  have hlast := q.padded_prod b.length s.sid.now
  have hbyte : inflightByte r' tag = inflightByte r tag := by rw [inflightByte, haddr, inflightByte]
  have huwf : Memory.wf (padRing s n b.length).host = true := (padRing_keeps (.refl _ s) (Sub.refl _)).host hwf
  rw [hpush]
  generalize padRing s n b.length = u at *
  generalize q.padded b.length s.sid.now = p at *
  refine ⟨?moved, ?frame, ?entry⟩
  case moved =>
    obtain ⟨x, hx, hprod⟩ := entered_rings u n p b
    exact ⟨x, by simpa [endInflight] using hx, hprod.trans hlast⟩
  case frame =>
    intro x hbit hentry hst hx
    refine (memRead_putInflight hr' (hbyte ▸ hbit)).trans ((memRead_entered ?_ ?_).trans (hpad x hst hx))
    · rwa [hat]
    · rwa [hstatus]
  case entry =>
    intro hst hbit
    rw [← hat] at hst hbit ⊢
    refine Eq.trans (memBytes_congr fun i hi => memRead_putInflight hr' ?_) (memBytes_entered huwf (hstatus ▸ hst))
    rw [hbyte]
    unfold outside at hbit
    omega

/-! ## The obligation -/

section Refused

variable {sp : CmdSpec} {a : Args} {s : State} {n : Nat} {r : Ring}

theorem ready_channelOpen (h : ready sp a s = true) : channelOpen s a.origin = true := by
  simp only [ready, Bool.and_eq_true, and_assoc] at h
  exact h.1

@[simp] theorem length_cplBytes_nil (tag flags st d t : Nat) : (cplBytes tag flags st d t []).length = 16 := by
  simp [cplBytes, zeros]

/-- Of host memory and the PCIe function, taking a command of a ring changes its `INFLIGHT` bit and a counter. -/
theorem taken_host_ring (hn : a.origin = .ring n) :
    (taken sp a s).host = (putInflight s n a.tag.toNat true).host ∧ (taken sp a s).pcie.d3 = s.pcie.d3 := by
  simp only [taken, tapeCommand_frame, enter, hn, putInflight, State.setCmds_frame]
  split <;> exact ⟨rfl, rfl⟩

theorem postCpl_ring (hr : mget s.rings n = some r) (tag flags st d : Nat) (b : Bytes) (t : Sid) :
    postCpl s (.ring n) tag flags st d b t true =
      pushEntry (tape s 2 ((cplBytes tag flags st d (cplTime s t) b).take 16) t) r.cplRing
        (cplBytes tag flags st d (cplTime s t) b) (some (n, tag)) := by
  have htape : mget (tape s 2 ((cplBytes tag flags st d (cplTime s t) b).take 16) t).rings n = some r := by simpa using hr
  simp only [postCpl, htape, if_true]

/-- A command of ring `n` that ends without a result pushes one entry to the paired ring; of what that depends on, the packet's
taking has changed the `INFLIGHT` bit alone. -/
theorem complete_taken_ring (hn : a.origin = .ring n) (hr : mget s.rings n = some r) (hcores : s.pol.halted = false)
    (hev : EvOk s.ev) (hd : noneDestroying s = true) (st d : Nat) :
    ∃ u : State, u.rings = s.rings ∧ u.pcie.d3 = s.pcie.d3 ∧ u.host = (putInflight s n a.tag.toNat true).host ∧
      complete (taken sp a s) (flightOf sp a s) st d [] s.sid.now s.ev.nextId =
        pushEntry u r.cplRing (cplBytes a.tag.toNat a.flags.toNat st d (cplTime s s.sid.now) []) (some (n, a.tag.toNat)) := by
  obtain ⟨hhost, hd3⟩ := taken_host_ring (sp := sp) (s := s) hn
  have hquiet := complete_quietly (s := taken sp a s) (f := flightOf sp a s) (by simpa using hcores) (evOk_taken hev)
    (noneDestroying_taken hd) rfl rfl st d [] s.sid.now
  have hbit : (flightOf sp a s).bit = true := by simp [flightOf, enter, hn]
  have hr' : mget ((taken sp a s).setCmds (leftFlight (taken sp a s) (flightOf sp a s))).rings n = some r := by simpa using hr
  have hnext : (taken sp a s).ev.nextId = s.ev.nextId := by simp
  have htime : cplTime ((taken sp a s).setCmds (leftFlight (taken sp a s) (flightOf sp a s))) s.sid.now =
      cplTime s s.sid.now := cplTime_of (by simp) (by simp) _
  rw [hnext, hbit, show (flightOf sp a s).cmd.a = a from rfl, hn, postCpl_ring hr', htime] at hquiet
  exact ⟨_, by simp, by simpa using hd3, by simpa using hhost, hquiet⟩

end Refused

/-- Settles O53: a refused command has raised no event, so of its taking and its completion only the writes of `postCpl` are
left, and `pushEntry_placed` says which they are. -/
theorem completionsGoToTheirChannel : Obligations.CompletionsGoToTheirChannel := by
  unfold Obligations.CompletionsGoToTheirChannel
  intro i sp a s st d hi hready hd hinv hdeny
  obtain ⟨hwf, hev, -⟩ := hinv
  have hopen := ready_channelOpen hready
  obtain ⟨-, -, -, hcores, -⟩ := channelOpen_device hopen
  have hexec : exec i s = .next (complete (taken sp a s) (flightOf sp a s) st d [] s.sid.now s.ev.nextId) := by
    rw [exec_host s hi, submit_deny hready hdeny]
  refine ⟨fun hm => ?mailbox, fun n r q k hn hr hq hd3 hsize hk hfit => ?ring⟩
  case mailbox =>
    obtain ⟨hqueue, hhost, hrings, -⟩ := complete_taken_mailbox (sp := sp) hm hcores hev hd st d []
    exact ⟨_, hexec, hqueue, hhost, hrings⟩
  case ring =>
    obtain ⟨u, hurings, hud3, huhost, hpush⟩ := complete_taken_ring (sp := sp) hn hr hcores hev hd st d
    obtain ⟨-, -, -, -, -, hpair⟩ := channelOpen_ring (hn ▸ hopen)
    have huwf : Memory.wf u.host = true := huhost ▸ (putInflight_keeps (.refl _ s) (Sub.refl _)).host hwf
    have hplaced := pushEntry_placed (s := u) (n := r.cplRing) (m := n) (tag := a.tag.toNat) (k := k) (q := q) (r := r)
      (b := cplBytes a.tag.toNat a.flags.toNat st d (cplTime s s.sid.now) []) (hurings ▸ hq) (pairFree_heldCpl hpair hr hq)
      (hud3.trans hd3) hsize hk (by rwa [length_cplBytes_nil]) (hurings ▸ hr) huwf
    simp only [length_cplBytes_nil] at hplaced
    obtain ⟨hprod, hframe, hentry⟩ := hplaced
    rw [← hpush] at hprod hframe hentry
    refine ⟨_, hexec, hprod, fun x hbit hat hstatus hpad => ?_, hentry⟩
    rw [hframe x hbit hat hstatus hpad, huhost, memRead_putInflight hr hbit]

end Sys2Proof.Machine
end

section
/-! The proofs about the clock commands of group 0x02 (O10). -/

namespace Sys2Proof.Machine

/-- A host command that is ready and has had its effect, which its owning island reports later. -/
theorem exec_later {i : Instr} {sp : CmdSpec} {a : Args} {s q : State} {st d : Nat} {r : Bytes}
    (hi : hostCommand i = some (sp, a)) (hr : ready sp a s = true)
    (hu : sp.unit (cmdOf sp a) (taken sp a s) = .later st d r q) : exec i s = .next (await sp a s st d r q) := by
  rw [exec_host s hi, submit_later hr hu]

theorem clk_taken (sp : CmdSpec) (a : Args) (s : State) : (taken sp a s).clk = s.clk := by simp

theorem loopLocked_taken (sp : CmdSpec) (a : Args) (s : State) (l : Nat) : loopLocked (taken sp a s) l = loopLocked s l := by
  rw [loopLocked, clk_taken, loopLocked]

/-! ## REF_SET (R71, R74) -/

/-- A `REF_SET` payload names the reference and the conditioners that are in force; `HOLD_XO` and the qualification time are
not compared. -/
def sameReference (b : Bytes) (k : Clocks) : Bool :=
  byteAt b 0 == byteAt k.cfg 0 && le b 2 2 == le k.cfg 2 2 && le b 4 3 == le k.cfg 4 3

theorem refSetUnit_of_fitted {c : Cmd} {s : State} (hx : bit (byteAt c.pl 1) 0 = true → s.clk.xtal = true) :
    refSetUnit c s =
      if sameReference c.pl s.clk then ok (s.setClk { s.clk with cfg := c.pl })
      else .busy (enterHoldover (s.setClk { s.clk with cfg := c.pl }) 0 false) := by
  have hfitted : ¬(bit (byteAt c.pl 1) 0 ∧ s.clk.xtal = false) := fun ⟨hxo, hno⟩ => by simp [hx hxo] at hno
  exact if_neg hfitted

section RefSet

variable {a : Args} {s : State}

theorem refSetSpec_unit_of_fitted (hx : bit (byteAt a.payload 1) 0 = true → s.clk.xtal = true) :
    refSetSpec.unit (cmdOf refSetSpec a) (taken refSetSpec a s) =
      if sameReference a.payload s.clk then ok ((taken refSetSpec a s).setClk { s.clk with cfg := a.payload })
      else .busy (enterHoldover ((taken refSetSpec a s).setClk { s.clk with cfg := a.payload }) 0 false) := by
  rw [← clk_taken refSetSpec a s] at hx ⊢
  exact refSetUnit_of_fitted (c := cmdOf refSetSpec a) hx

theorem exec_refSet_unchanged (hr : ready refSetSpec a s = true)
    (hx : bit (byteAt a.payload 1) 0 = true → s.clk.xtal = true) (hsame : sameReference a.payload s.clk = true) :
    exec (.refSet a) s =
      .next (answer refSetSpec a s stOk 0 [] ((taken refSetSpec a s).setClk { s.clk with cfg := a.payload })) :=
  exec_done rfl hr ((refSetSpec_unit_of_fitted hx).trans (if_pos hsame))

theorem exec_refSet_changed (hr : ready refSetSpec a s = true)
    (hx : bit (byteAt a.payload 1) 0 = true → s.clk.xtal = true) (hsame : sameReference a.payload s.clk = false) :
    exec (.refSet a) s = .next (begins refSetSpec a s
      (enterHoldover ((taken refSetSpec a s).setClk { s.clk with cfg := a.payload }) 0 false)) :=
  exec_busy rfl hr ((refSetSpec_unit_of_fitted hx).trans (if_neg (ne_true_of_eq_false hsame)))

end RefSet

/-! ## Audio channels (R76) -/

@[simp] theorem putAudio_lock (s : State) (l : Nat) (k : AudioChannel) : (putAudio s l k).clk.lock = s.clk.lock := by
  unfold putAudio
  split <;> rfl

@[simp] theorem audioCh_putAudio (s : State) (l : Nat) (k : AudioChannel) : audioCh (putAudio s l k) l = k := by
  unfold audioCh putAudio
  split <;> rfl

theorem lockAttempt_lock (s : State) (l : Nat) : (lockAttempt s l).clk.lock = s.clk.lock := rfl

theorem audioCh_lockAttempt (s : State) (l k : Nat) : audioCh (lockAttempt s l) k = audioCh s k := rfl

@[simp] theorem audioRelease_lock (s : State) (l user : Nat) : (audioRelease s l user).clk.lock = s.clk.lock := by
  unfold audioRelease
  dsimp only
  split
  · exact putAudio_lock ..
  · rfl

@[simp] theorem audioUse_lock (s : State) (l user : Nat) : (audioUse s l user).clk.lock = s.clk.lock := by
  unfold audioUse
  dsimp only
  split
  · exact putAudio_lock ..
  · rw [lockAttempt_lock, putAudio_lock]

/-- A channel that a user has selected is powered and has it among its users. -/
theorem audioCh_audioUse (s : State) (l user : Nat) :
    (audioCh (audioUse s l user) l).powered = true ∧ user ∈ (audioCh (audioUse s l user) l).users := by
  unfold audioUse
  dsimp only
  split <;> simp [audioCh_lockAttempt]

/-! ## MCLK_SET (R89, R92) -/

theorem audioCh_setMclk (s : State) (m : List (Nat × Mclk)) (l : Nat) :
    audioCh (s.setClk { s.clk with mclk := m }) l = audioCh s l := rfl

/-- Output `n` leaves the channel that it used, and where it is on uses channel `l`. -/
def mclkMoved (s : State) (n : Nat) (on : Bool) (l : Nat) : State :=
  let s1 := audioRelease (audioRelease s (5 - l) n) (if on then 5 - l else l) n
  if on then audioUse s1 l n else s1

theorem mclkMoved_lock (s : State) (n : Nat) (on : Bool) (l : Nat) : (mclkMoved s n on l).clk.lock = s.clk.lock := by
  cases on <;> simp [mclkMoved]

theorem loopLocked_mclkMoved (s : State) (n : Nat) (on : Bool) (l k : Nat) :
    loopLocked (mclkMoved s n on l) k = loopLocked s k := by
  simp only [loopLocked, mclkMoved_lock]

theorem audioCh_mclkMoved_on (s : State) (n l : Nat) :
    (audioCh (mclkMoved s n true l) l).powered = true ∧ n ∈ (audioCh (mclkMoved s n true l) l).users :=
  audioCh_audioUse ..

/-- What an `MCLK_SET` leaves. -/
def mclkSetState (b : Bytes) (s : State) : State :=
  let on := bit (byteAt b 1) 0
  let l := mclkLoop (le b 4 4)
  let u := mclkMoved s (byteAt b 0) on l
  u.setClk { u.clk with
    mclk := mput u.clk.mclk (byteAt b 0) { enabled := on, freq := le b 4 4, gated := on && !loopLocked s l } }

theorem mclkSetUnit_eq (c : Cmd) (s : State) :
    mclkSetUnit c s =
      if bit (byteAt c.pl 1) 0 = false ∨ loopLocked s (mclkLoop (le c.pl 4 4)) = true then
        .later stOk 0 [] (mclkSetState c.pl s)
      else .busy (mclkSetState c.pl s) := by
  unfold mclkSetState
  simp only [← loopLocked_mclkMoved s (byteAt c.pl 0) (bit (byteAt c.pl 1) 0) (mclkLoop (le c.pl 4 4))]
  rfl

theorem exec_mclkSet_of_ready {a : Args} {s : State} (hr : ready mclkSetSpec a s = true) :
    exec (.mclkSet a) s = .next
      (if bit (byteAt a.payload 1) 0 = false ∨ loopLocked s (mclkLoop (le a.payload 4 4)) = true then
        await mclkSetSpec a s stOk 0 [] (mclkSetState a.payload (taken mclkSetSpec a s))
      else begins mclkSetSpec a s (mclkSetState a.payload (taken mclkSetSpec a s))) := by
  have hunit := mclkSetUnit_eq (cmdOf mclkSetSpec a) (taken mclkSetSpec a s)
  rw [loopLocked_taken] at hunit
  split
  · next h => exact exec_later rfl hr (hunit.trans (if_pos h))
  · next h => exact exec_busy rfl hr (hunit.trans (if_neg h))

theorem mget_mclkSetState (b : Bytes) (s : State) :
    mget (mclkSetState b s).clk.mclk (byteAt b 0) = some
      { enabled := bit (byteAt b 1) 0, freq := le b 4 4
        gated := bit (byteAt b 1) 0 && !loopLocked s (mclkLoop (le b 4 4)) } :=
  mget_mput_self ..

theorem audioCh_mclkSetState {b : Bytes} (hon : bit (byteAt b 1) 0 = true) (s : State) :
    (audioCh (mclkSetState b s) (mclkLoop (le b 4 4))).powered = true ∧
      byteAt b 0 ∈ (audioCh (mclkSetState b s) (mclkLoop (le b 4 4))).users := by
  simp only [mclkSetState, audioCh_setMclk, hon]
  exact audioCh_mclkMoved_on s (byteAt b 0) (mclkLoop (le b 4 4))

/-! ## The other settings and the record (R77, R93–R96, Table 3-8) -/

section Settings

variable {a : Args} {s : State}

theorem exec_lockSet_of_ready (hr : ready lockSetSpec a s = true) :
    exec (.lockSet a) s = .next (answer lockSetSpec a s stOk 0 [] ((taken lockSetSpec a s).setClk { s.clk with
      lockCfg := s.clk.lockCfg.set (byteAt a.payload 0) (byteAt a.payload 1, le a.payload 2 2) })) := by
  rw [← clk_taken lockSetSpec a s]
  exact exec_done rfl hr rfl

theorem exec_refoutSet_of_ready (hr : ready refoutSetSpec a s = true) :
    exec (.refoutSet a) s = .next (await refoutSetSpec a s stOk 0 [] ((taken refoutSetSpec a s).setClk { s.clk with
      refoutOn := bit (byteAt a.payload 0) 0, refoutKhz := le a.payload 4 4 })) := by
  rw [← clk_taken refoutSetSpec a s]
  exact exec_later rfl hr rfl

theorem exec_ppsoutSet_of_ready (hr : ready ppsoutSetSpec a s = true) :
    exec (.ppsoutSet a) s = .next (answer ppsoutSetSpec a s stOk 0 [] ((taken ppsoutSetSpec a s).setClk { s.clk with
      ppsMode := byteAt a.payload 0, ppsWidth := le a.payload 4 4,
      ppsHigh := s.clk.ppsHigh && byteAt a.payload 0 != 0 })) := by
  rw [← clk_taken ppsoutSetSpec a s]
  exact exec_done rfl hr rfl

theorem clockGetResult_of_clk {t : State} (h : t.clk = s.clk) : clockGetResult t = clockGetResult s := by
  simp only [clockGetResult, mclkGated, loopOf, refPpb, h]

theorem exec_clockGet_of_ready (hr : ready clockGetSpec a s = true) :
    exec (.clockGet a) s = .next (answer clockGetSpec a s stOk 0 (clockGetResult s) (taken clockGetSpec a s)) := by
  rw [← clockGetResult_of_clk (clk_taken clockGetSpec a s)]
  exact exec_done rfl hr rfl

end Settings

/-! ## The obligation -/

/-- Settles O10: taking a command leaves the clocks as they were, so each unit answers as on the state before. -/
theorem clockCommandsComplete : Obligations.ClockCommandsComplete := by
  unfold Obligations.ClockCommandsComplete
  intro a s
  refine ⟨fun hr hx => ⟨exec_refSet_unchanged hr hx, exec_refSet_changed hr hx⟩, exec_lockSet_of_ready, ?mclk,
    exec_refoutSet_of_ready, exec_ppsoutSet_of_ready, exec_clockGet_of_ready⟩
  case mclk =>
    intro hr
    have hget := mget_mclkSetState a.payload (taken mclkSetSpec a s)
    rw [loopLocked_taken] at hget
    exact ⟨_, exec_mclkSet_of_ready hr, hget, fun hon => audioCh_mclkSetState hon _⟩

end Sys2Proof.Machine
end

section
/-! The proofs about the reference, its loops and the clock outputs (O11). -/

namespace Sys2Proof.Machine

theorem Keeps.clk {m : Nat} {s t : State} (h : Keeps m s t) (hm : m.testBit 13 = false) : t.clk = s.clk := h.same .clk hm

@[simp] theorem completeAll_clk (s : State) (p : InFlight → Bool) (t : Sid) (mark : Nat) :
    (completeAll s p t mark).clk = s.clk := (completeAll_keeps (.refl _ s) (Sub.refl _)).clk rfl

@[simp] theorem tapePhase_clk (s : State) (l : Nat) : (tapePhase s l).clk = s.clk :=
  (tapePhase_keeps (.refl _ s) (Sub.refl _)).clk rfl

/-! ## What is read of the clocks alone -/

section OfClk

variable {s t : State}

theorem audioCh_of_clk (h : t.clk = s.clk) : audioCh t = audioCh s := by
  funext l
  simp only [audioCh, h]

theorem loopPowered_of_clk (h : t.clk = s.clk) : loopPowered t = loopPowered s := by
  funext l
  simp only [loopPowered, audioCh_of_clk h, h]

theorem loopPd_of_clk (h : t.clk = s.clk) : loopPd t = loopPd s := by
  funext l
  simp only [loopPd, refKhz, loopMode, h]

theorem builtLock_of_clk (h : t.clk = s.clk) : builtLock t = builtLock s := by
  simp only [builtLock, loopPowered_of_clk h, h]

end OfClk

/-- A test of every powered loop. -/
theorem all_powered {s : State} {p : Nat → Bool} (h : ∀ l < 5, loopPowered s l = true → p l = true) :
    ((List.range 5).all fun l => !loopPowered s l || p l) = true := by
  refine List.all_eq_true.2 fun l hl => ?_
  cases hp : loopPowered s l with
  | false => rfl
  | true => exact h l (List.mem_range.1 hl) hp

/-! ## Holdover (Tables 3-3 and 3-6, R83, R84, R88) -/

@[simp] theorem freezeWords_clk (s : State) (fresh : Bool) :
    (freezeWords s fresh).clk.state = s.clk.state ∧ (freezeWords s fresh).clk.lock = s.clk.lock ∧
      (freezeWords s fresh).clk.heldLock = s.clk.heldLock ∧ (freezeWords s fresh).clk.holdCount = s.clk.holdCount ∧
      (freezeWords s fresh).clk.glitches = s.clk.glitches := ⟨rfl, rfl, rfl, rfl, rfl⟩

/-- Of the clocks, coasting may change PPS_OUT alone (R96). -/
@[simp] theorem coast_clk (s : State) :
    (coast s).clk.state = s.clk.state ∧ (coast s).clk.cause = s.clk.cause ∧ (coast s).clk.lock = s.clk.lock ∧
      (coast s).clk.heldLock = s.clk.heldLock ∧ (coast s).clk.holdCount = s.clk.holdCount ∧
      (coast s).clk.glitches = s.clk.glitches := by
  unfold coast
  split
  · simp only [evTimeCause, raise_frame, State.setSid_frame, coastRate, ppsDrop]
    split <;> exact ⟨rfl, rfl, rfl, rfl, rfl, rfl⟩
  · exact ⟨rfl, rfl, rfl, rfl, rfl, rfl⟩

/-- Clocks in holdover by `cause`, entered from the clocks `k`: from Locked the loops that were locked are remembered. -/
def heldOver (k : Clocks) (cause : Nat) (c : Clocks) : Prop :=
  c.state = .holdover ∧ c.cause = cause ∧ c.lock = 0 ∧
    c.heldLock = (if k.state = .locked then k.lock else k.heldLock) ∧ c.holdCount = sat 32 (k.holdCount + 1)

/-- What the entry to holdover that a detector causes leaves of the clocks. -/
theorem enterHoldover_heldOver (s : State) (cause : Nat) : heldOver s.clk cause (enterHoldover s cause true).clk := by
  simp [enterHoldover, heldOver]

theorem enterHoldover_glitches (s : State) (cause : Nat) :
    (enterHoldover s cause true).clk.glitches = s.clk.glitches := by
  simp [enterHoldover]

/-- A detector fires in any state of a reference that is present or on its way back. -/
theorem detectorFires_of_following {s : State} (cause : Nat)
    (h : s.clk.state = .locked ∨ s.clk.state = .qualifying ∨ s.clk.state = .acquisition ∨ s.clk.state = .buildOut) :
    detectorFires s cause = enterHoldover s cause true := by
  unfold detectorFires
  rcases h with h | h | h | h <;> rw [h]

/-- The glitches of the last millisecond before one at `t`. -/
def glitchesBefore (s : State) (t : Sid) : List Sid :=
  s.clk.recent.filter fun x => decide ((advance s t).sid.now < x + 65536000000)

section Detectors

variable {s : State} {t : Sid}

theorem exec_frequencyJump {dev : Int} (h : 20000000 < (dev - mean s.clk.refDev s.clk.refHist).natAbs) :
    exec (.frequencyJump dev t) s = .next (detectorFires (advance s t) 2) := if_pos h

theorem exec_referenceGlitch_few (h : (glitchesBefore s t).length < 15) :
    exec (.referenceGlitch t) s = .next ((advance s t).setClk { s.clk with
      glitches := sat 32 (s.clk.glitches + 1), recent := (advance s t).sid.now :: glitchesBefore s t }) := by
  have htake : (glitchesBefore s t).take 15 = glitchesBefore s t := List.take_of_length_le (by omega)
  have hfew : ¬((advance s t).sid.now :: glitchesBefore s t).length ≥ 16 := by
    rw [List.length_cons]
    omega
  show execReferenceGlitch t s = _
  unfold glitchesBefore at htake hfew ⊢
  simp only [execReferenceGlitch, advance_frame, htake, if_neg hfew]

theorem exec_referenceGlitch_burst (h : 15 ≤ (glitchesBefore s t).length) :
    exec (.referenceGlitch t) s = .next (detectorFires ((advance s t).setClk { s.clk with
      glitches := sat 32 (s.clk.glitches + 1), recent := [] }) 3) := by
  have hburst : ((advance s t).sid.now :: (glitchesBefore s t).take 15).length ≥ 16 := by
    rw [List.length_cons, List.length_take]
    omega
  show execReferenceGlitch t s = _
  unfold glitchesBefore at hburst
  simp only [execReferenceGlitch, advance_frame, if_pos hburst, State.setClk_self, State.setClk_again]

end Detectors

/-! ## The way back (R77, R85–R87) -/

theorem foldl_lockAttempt_clk (ls : List Nat) (s : State) :
    (ls.foldl lockAttempt s).clk.state = s.clk.state ∧ (ls.foldl lockAttempt s).clk.lock = s.clk.lock := by
  induction ls generalizing s with
  | nil => exact ⟨rfl, rfl⟩
  | cons l ls ih => exact ih (lockAttempt s l)

theorem mclkRestart_clk (s : State) (l : Nat) (t : Sid) :
    (mclkRestart s l t).clk.state = s.clk.state ∧ (mclkRestart s l t).clk.lock = s.clk.lock ∧
      (mclkRestart s l t).clk.loops = s.clk.loops := by
  simp [mclkRestart]

theorem loadBuildOut_getD {s : State} {l : Nat} (phases : List Int) (hl : l < 5) (hp : loopPowered s l = true) :
    ((loadBuildOut s phases).getD l PllLoop.reset).build = reduceBuildOut (phases.getD l 0) (loopPd s l) := by
  simp [loadBuildOut, hl, hp]

section WayBack

variable {s : State} {t : Sid}

theorem exec_referenceReturn (h : s.clk.state = .holdover) :
    exec .referenceReturn s =
      .next (s.setClk { s.clk with state := .qualifying, qualBy := deadline s (32 * byteAt s.clk.cfg 7) }) := if_pos h

theorem exec_qualificationComplete (h : s.clk.state = .qualifying) (hx : expired s s.clk.qualBy = true) :
    exec .qualificationComplete s = .next (s.setClk { s.clk with state := .acquisition, acqFrom := s.sid.now }) :=
  if_pos ⟨h, hx⟩

theorem exec_frequencyAcquisitionComplete (h : s.clk.state = .acquisition)
    (ht : s.clk.acqFrom + 1000 * usU ≤ (advance s t).sid.now)
    (hnear : ∀ l < 5, loopPowered s l = true → ((loopOf s l).dev - s.clk.refDev).natAbs < 5000) :
    exec (.frequencyAcquisitionComplete t) s =
      .next ((List.range 5).foldl lockAttempt ((advance s t).setClk { s.clk with state := .buildOut })) := by
  have hall := all_powered fun l hl hp => decide_eq_true (hnear l hl hp)
  have hclk : (advance s t).clk = s.clk := by simp
  rw [← hclk]
  exact if_pos ⟨h, hall, ht⟩

theorem exec_buildOutLock (phases : List Int) (h : s.clk.state = .buildOut)
    (hdone : ∀ l < 5, loopPowered s l = true → lockFrom s l + pdCycles s l 256 ≤ (advance s t).sid.now) :
    ∃ q, exec (.buildOutLock phases t) s = .next q ∧ q.clk.state = .locked ∧ q.clk.lock = builtLock (advance s t) ∧
      q.clk.loops = loadBuildOut (advance s t) phases := by
  have hall := all_powered fun l hl hp => decide_eq_true (hdone l hl hp)
  show ∃ q, execBuildOutLock phases t s = _ ∧ _
  simp only [execBuildOutLock, h, hall, ne_eq, not_true_eq_false, Bool.true_eq_false, or_self, if_false]
  refine ⟨_, rfl, ?_⟩
  split <;> split <;> simp [mclkRestart_clk]

theorem exec_loopLock {l : Nat} (hl : l < 5) (h : s.clk.state = .locked) (hk : loopLocked s l = false)
    (ht : lockFrom s l ≤ (advance s t).sid.now) (hp : l = 2 ∨ l = 3 → (audioCh s l).powered = true) :
    ∃ q, exec (.loopLock l t) s = .next q ∧ q.clk.lock = s.clk.lock ||| (1#5 <<< l) := by
  have hpowered : (if l = 2 ∨ l = 3 then (audioCh s l).powered else true) = true := by
    split
    · next hch => exact hp hch
    · rfl
  show ∃ q, execLoopLock l t s = _ ∧ _
  simp only [execLoopLock, hpowered, h, hk, ge_iff_le, Nat.not_le.2 hl, Nat.not_lt.2 ht, ne_eq, not_true_eq_false,
    Bool.true_eq_false, Bool.false_eq_true, or_self, if_false]
  refine ⟨_, rfl, ?_⟩
  split <;> simp [mclkRestart_clk]

end WayBack

/-! ## Audio channels and outputs (R76, R90, R91, R94–R96) -/

section Outputs

variable {s : State} {t : Sid}

theorem exec_audioChannelPowerDown {ch : Nat} (hch : ch = 2 ∨ ch = 3) (hp : (audioCh s ch).powered = true)
    (hu : (audioCh s ch).users = []) (hx : expired s (audioCh s ch).downBy = true) :
    ∃ q, exec (.audioChannelPowerDown ch) s = .next q ∧ (audioCh q ch).powered = false ∧
      q.clk.lock = s.clk.lock &&& ~~~(1#5 <<< ch) := by
  have hdue : (ch = 2 ∨ ch = 3) ∧ (audioCh s ch).powered ∧ (audioCh s ch).users.isEmpty ∧
      expired s (audioCh s ch).downBy := ⟨hch, hp, by rw [hu]; rfl, hx⟩
  refine ⟨_, if_pos hdue, congrArg AudioChannel.powered (audioCh_putAudio s ch _), ?_⟩
  exact congrArg (· &&& ~~~(1#5 <<< ch)) (putAudio_lock s ch _)

theorem exec_mclkGate {n : Nat} {m : Mclk} {gate : Bool} (hm : mget s.clk.mclk n = some m) (he : m.enabled = true)
    (hg : m.gated = !gate)
    (hdue : (if gate then !loopLocked s (mclkLoop m.freq) && !mclkBound s (mclkLoop m.freq)
      else loopLocked s (mclkLoop m.freq)) = true) :
    exec (.mclkGate n gate t) s =
      .next ((advance s t).setClk { s.clk with mclk := mput s.clk.mclk n { m with gated := gate } }) := by
  show execMclkGate n gate t s = _
  simp [execMclkGate, hm, he, hg, hdue]

/-- An occurrence moves Sidereal's time and leaves its state and the start of its coasting as they were. -/
theorem advance_sid (s : State) (t : Sid) :
    (advance s t).sid.st = s.sid.st ∧ (advance s t).sid.coastFrom = s.sid.coastFrom := by
  unfold advance
  split <;> exact ⟨rfl, rfl⟩

theorem ppsAllowed_advance (s : State) (t : Sid) : ppsAllowed (advance s t) = ppsAllowed s := by
  simp [ppsAllowed, advance_sid]

/-- The second at which PPS_OUT would rise comes less than 1 ms after the end of the pulse before. -/
def ppsNear (s : State) (now : Sid) : Prop := 0 < s.clk.ppsEnd ∧ s.clk.ppsEnd ≤ now ∧ now < s.clk.ppsEnd + 65536000000

theorem pps_rise_guard (hsec : (advance s t).sid.now % secU = 0) (ha : ppsAllowed s = true) (hlow : s.clk.ppsHigh = false) :
    ¬(ppsAllowed (advance s t) = false ∨ (advance s t).clk.ppsHigh ∨ (advance s t).sid.now % secU ≠ 0) := by
  simp [ppsAllowed_advance, ha, hlow, hsec]

theorem exec_ppsOutPulse_near (hsec : (advance s t).sid.now % secU = 0) (ha : ppsAllowed s = true)
    (hlow : s.clk.ppsHigh = false) (hnear : ppsNear s (advance s t).sid.now) :
    exec (.ppsOutPulse true t) s =
      .next ((advance s t).setClk { s.clk with ppsSkipped := sat 32 (s.clk.ppsSkipped + 1) }) := by
  unfold ppsNear at hnear
  show execPpsOutPulse true t s = _
  simp only [execPpsOutPulse, if_true, if_neg (pps_rise_guard hsec ha hlow)]
  simp only [advance_frame, if_pos hnear]

theorem exec_ppsOutPulse_rise (hsec : (advance s t).sid.now % secU = 0) (ha : ppsAllowed s = true)
    (hlow : s.clk.ppsHigh = false) (hfar : ¬ppsNear s (advance s t).sid.now) :
    exec (.ppsOutPulse true t) s = .next ((advance s t).setClk { s.clk with
      ppsHigh := true, ppsEnd := (advance s t).sid.now + s.clk.ppsWidth * 65536000 }) := by
  unfold ppsNear at hfar
  show execPpsOutPulse true t s = _
  simp only [execPpsOutPulse, if_true, if_neg (pps_rise_guard hsec ha hlow)]
  simp only [advance_frame, if_neg hfar]

theorem exec_ppsOutPulse_fall (hhigh : s.clk.ppsHigh = true) (hend : s.clk.ppsEnd ≤ (advance s t).sid.now) :
    exec (.ppsOutPulse false t) s = .next ((advance s t).setClk { s.clk with ppsHigh := false }) := by
  show execPpsOutPulse false t s = _
  simp [execPpsOutPulse, hhigh, hend]

end Outputs

/-! ## The obligation -/

/-- Settles O11: a detector enters holdover (`enterHoldover_clk`), and each later occurrence answers by its lemma above. -/
theorem referenceHoldoverAndReturn : Obligations.ReferenceHoldoverAndReturn := by
  unfold Obligations.ReferenceHoldoverAndReturn
  intro s t
  have hclk : (advance s t).clk = s.clk := by simp
  refine ⟨?detectors, exec_referenceGlitch_few, exec_referenceReturn, exec_qualificationComplete, ?acquired, ?built,
    fun l => exec_loopLock, fun ch => exec_audioChannelPowerDown, ?gate, ?pps, exec_ppsOutPulse_fall⟩
  case detectors =>
    intro h
    have fires (u : State) (cause : Nat) (hu : u.clk.state = s.clk.state) :
        detectorFires u cause = enterHoldover u cause true := detectorFires_of_following cause (by rwa [hu])
    let burst : State := (advance s t).setClk { s.clk with glitches := sat 32 (s.clk.glitches + 1), recent := [] }
    refine ⟨⟨_, congrArg Host.Outcome.next (fires (advance s t) 1 rfl), enterHoldover_heldOver ..⟩,
      fun dev hdev => ⟨_, (exec_frequencyJump hdev).trans (congrArg _ (fires _ 2 rfl)), enterHoldover_heldOver ..⟩,
      fun hburst => ⟨_, (exec_referenceGlitch_burst hburst).trans (congrArg _ (fires burst 3 rfl)), ?_⟩⟩
    obtain ⟨hst, hcause, -⟩ := enterHoldover_heldOver burst 3
    exact ⟨hst, hcause, enterHoldover_glitches burst 3⟩
  case acquired =>
    intro h ht hnear
    exact ⟨_, exec_frequencyAcquisitionComplete h ht hnear, foldl_lockAttempt_clk ..⟩
  case built =>
    intro phases h hdone
    obtain ⟨q, hexec, hst, hlock, hloops⟩ := exec_buildOutLock phases h hdone
    refine ⟨q, hexec, hst, hlock.trans (builtLock_of_clk hclk), fun l hl hp => ?_⟩
    rw [loopOf, hloops, ← loopPd_of_clk hclk]
    exact loadBuildOut_getD phases hl (by rwa [loopPowered_of_clk hclk])
  case gate =>
    intro n m hm he
    exact ⟨fun hg hk hb => exec_mclkGate hm he (by simpa using hg) (by simp [hk, hb]),
      fun hg hk => exec_mclkGate hm he (by simpa using hg) (by simpa using hk)⟩
  case pps =>
    exact fun hsec ha hlow => ⟨exec_ppsOutPulse_near hsec ha hlow, exec_ppsOutPulse_rise hsec ha hlow⟩

end Sys2Proof.Machine
end

section
/-! The proofs about what the exciter does on its own (O33). -/

namespace Sys2Proof.Machine

/-! ## What the exciter's operations leave of its record -/

@[simp] theorem evTxCause_tx (s : State) (c : Nat) : (evTxCause s c).tx = s.tx :=
  (evTxCause_keeps (.refl _ s) (Sub.refl _)).tx rfl

@[simp] theorem packetDue_tx (s : State) (frame : Nat) : (packetDue s frame).tx = s.tx :=
  (packetDue_keeps (.refl _ s) (Sub.refl _)).tx rfl

/-- Closing the duty interval changes the duty counters alone. -/
@[simp] theorem closeDuty_tx (s : State) :
    (closeDuty s).tx.st = s.tx.st ∧ (closeDuty s).tx.entry = s.tx.entry := by
  unfold closeDuty
  dsimp only
  split
  · split <;> exact ⟨rfl, rfl⟩
  · exact ⟨rfl, rfl⟩

@[simp] theorem moveLevel_tx (s : State) (to_ : Int) (start len : Sid) :
    (moveLevel s to_ start len).tx = { s.tx with ramp := ⟨s.tx.ramp.value start, to_, start, len⟩ } := rfl

@[simp] theorem relevel_entry (s : State) : (relevel s).tx.entry = s.tx.entry := by
  unfold relevel
  split <;> simp

/-- A transmission that a limit ends. -/
theorem muteReady_of_transmitting {s : State} (h : transmitting s = true) (cause : Nat) :
    (muteReady s cause).tx.st = .ready ∧ (muteReady s cause).tx.muteCause = cause ∧
      (muteReady s cause).tx.dutyClock = s.tx.dutyClock := by
  have hlive : s.tx.st = .on ∨ s.tx.st = .muted := by simpa [transmitting] using h
  have hclock : (if s.tx.st = .on then fastRamp s else s).tx.dutyClock = s.tx.dutyClock := by
    split <;> rfl
  simp only [muteReady, if_pos hlive, evTxCause_tx, State.setTx_self, true_and]
  exact hclock

theorem txMode_advance (s : State) (t : Sid) : txMode (advance s t) = txMode s := by
  simp only [txMode, curEntry_advance]

section Occurrences

variable {s : State} {t : Sid}

/-! ## The TX PLL (R77, R312, R314) -/

theorem exec_txPllLocked (hl : s.tx.locked = false) (he : s.tx.entry ≠ none) (hst : s.tx.st = .tuning)
    (hlate : s.tx.tuneLate = false) (ht : lockFrom s 1 ≤ (advance s t).sid.now) :
    ∃ q, exec (.txPllLocked t) s = .next q ∧ q.tx.locked = true ∧ q.tx.st = .ready ∧
      (txMode s = 1 → q.tx.delayUs = 1500) := by
  have hguard : ¬(s.tx.locked ∨ s.tx.entry.isNone ∨ transmitting s ∨ (advance s t).sid.now < lockFrom s 1) := by
    simp [hl, he, transmitting, hst, ht]
  have htx : (if txMode s = 1 then advance s t else (freeValue (advance s t)).2).tx = s.tx := by
    split <;> rfl
  show ∃ q, execTxPllLocked t s = _ ∧ _
  simp only [execTxPllLocked, if_neg hguard, txMode_advance, htx, hst, hlate, Bool.false_eq_true, false_and, if_false,
    if_true, ← apply_ite Host.Outcome.next]
  refine ⟨_, rfl, ?_⟩
  split <;> simp +contextual

theorem exec_txTuneTimeout (hl : s.tx.locked = false) (hb : s.tx.byTune = false) (hlate : s.tx.tuneLate = false)
    (hx : expired s s.tx.tuneBy = true) (hst : s.tx.st = .tuning ∨ s.tx.st = .pending)
    (he : executing s 0x0901 0x0900 ≠ none) :
    exec .txTuneTimeout s = .next (finishOp (s.setTx { s.tx with tuneLate := true }) 0x0901 0x0900 stSynthTimeout 0 []
      s.ev.nextId) :=
  if_pos ⟨hl, hb, hlate, hx, hst, Option.isSome_iff_ne_none.2 he⟩

/-! ## Coexistence (R315, R325) -/

theorem exec_coexWaitExpiry (hst : s.tx.st = .pending) (hc : coexOn s = true) (hg : granted s = false)
    (hb : safetyBreak s = false) (hx : expired s s.tx.coexBy = true) :
    exec .coexWaitExpiry s = .next (failPending s (if synthExpired s then stSynthTimeout else stCoexDenied)) :=
  if_pos ⟨hst, hc, hg, hb, hx⟩

/-- COEX_GNT has gone to `level`. -/
def withGrant (s : State) (level : Bool) : State := s.setTx { s.tx with gnt := level, gntAt := s.sid.now }

theorem exec_coexGntChange {level : Bool} (h : level ≠ s.tx.gnt) :
    exec (.coexGntChange level t) s = .next (
      let g := withGrant (advance s t) level
      if coexOn g = false ∨ safetyBreak g = true then g
      else if granted g = true then
        if g.tx.muteGrant = true then mayResume (g.setTx { g.tx with muteGrant := false }) 5 else g
      else if transmitting g = true then muteFrom (g.setTx { g.tx with muteGrant := true }) 4 else g) := by
  show execCoexGntChange level t s = _
  rw [execCoexGntChange, if_neg h]
  simp only [apply_ite Host.Outcome.next]
  rfl

/-! ## Starts and their ends (R313, R314, R322) -/

theorem exec_txStartSequence (h : s.tx.st = .pending ∨ s.tx.st = .muted) (hr : startReady (advance s t) = true) :
    ∃ q, exec (.txStartSequence t) s = .next q ∧ q.tx.st = .on ∧ q.tx.paEn = true ∧
      q.tx.since = (advance s t).sid.now ∧ q.tx.src = txSource (advance s t) := by
  have hstart : ((advance s t).tx.st = .pending ∨ (advance s t).tx.st = .muted) ∧ startReady (advance s t) := ⟨h, hr⟩
  show ∃ q, execTxStartSequence t s = _ ∧ _
  simp only [execTxStartSequence, if_pos hstart, ← apply_ite Host.Outcome.next]
  refine ⟨_, rfl, ?_⟩
  split <;> simp [startRamp]

theorem exec_txStopComplete (h : s.tx.stopping = true) (ht : s.tx.stopAt ≤ (advance s t).sid.now) :
    ∃ q, exec (.txStopComplete t) s = .next q ∧ q.tx.stopping = false ∧ q.tx.paEn = false :=
  ⟨_, if_pos ⟨h, ht⟩, by simp⟩

theorem exec_fastMute (h : fastMuting s = true) (ht : s.tx.muteAt + fastLen ≤ (advance s t).sid.now) :
    ∃ q, exec (.fastMute t) s = .next q ∧ q.tx.paEn = false ∧ q.tx.st = s.tx.st :=
  ⟨_, if_pos ⟨h, ht⟩, by simp⟩

theorem exec_dutyLimit {i : Nat} (h : transmitting s = true) (hp : s.tx.paEn = true) (he : s.tx.entry = some i)
    (hd : dutyLeft s i = 0) : exec (.dutyLimit t) s = .next (muteReady (advance s t) 6) :=
  if_pos ⟨h, hp, by simpa [he] using hd⟩

theorem exec_continuousLimit {e : Bytes} (h : transmitting s = true) (hp : s.tx.paEn = true) (he : curEntry s = some e)
    (hc : eCont e ≠ 0) (ht : 3200 * eCont e ≤ s.tx.dutyClock - s.tx.contFrom) :
    ∃ q, exec (.continuousLimit t) s = .next q ∧ q.tx.st = .ready ∧ q.tx.muteCause = 7 ∧
      q.tx.restUntil = s.tx.dutyClock + 320 * eCont e := by
  obtain ⟨hst, hcause, hclock⟩ := muteReady_of_transmitting (s := advance s t) h 7
  show ∃ q, execContinuousLimit t s = _ ∧ _
  simp only [execContinuousLimit, he, Option.map_some, Option.getD_some, h, hp, hc, ht, ne_eq, not_false_eq_true,
    and_self, if_true]
  exact ⟨_, rfl, hst, hcause, congrArg (· + 320 * eCont e) hclock⟩

/-! ## Frames (R311, R326, R327, R348) -/

section Frame

variable {frame : Nat}

/-- A null symbol of a DAB transmission, on the grid. -/
theorem sfnFrame_guard (hm : txMode s = 2) (h : transmitting s = true)
    (ht : ((advance s t).sid.now : Int) = nullAt s frame) :
    ¬(txMode s ≠ 2 ∨ transmitting s = false ∨ ((advance s t).sid.now : Int) ≠ nullAt s frame) := by
  simp [hm, h, ht]

theorem exec_sfnFrame_before_grid (hm : txMode s = 2) (h : transmitting s = true)
    (ht : ((advance s t).sid.now : Int) = nullAt s frame) (hg : (advance s t).sid.now < s.tx.gridFrom) :
    exec (.sfnFrame frame t) s = .next (blankOut (countMissing (advance s t))) :=
  (if_neg (sfnFrame_guard hm h ht)).trans (if_pos hg)

variable (hm : txMode s = 2) (h : transmitting s = true) (ht : ((advance s t).sid.now : Int) = nullAt s frame)
  (hg : s.tx.gridFrom ≤ (advance s t).sid.now)

include hm h ht hg

theorem exec_sfnFrame_own (hr : sfnRole s ≠ 2) (hon : s.tx.st = .on) :
    exec (.sfnFrame frame t) s = .next (ownFrame (advance s t) frame) :=
  (if_neg (sfnFrame_guard hm h ht)).trans <| (if_neg (Nat.not_lt.2 hg)).trans <| (if_pos hr).trans <| congrArg _ (if_pos hon)

theorem exec_sfnFrame_held {p : SfnPacket} (hr : sfnRole s = 2) (hp : heldPacket (advance s t) frame = some p)
    (hf : (packetDue (advance s t) frame).tx.muteFrame = false) :
    exec (.sfnFrame frame t) s = .next (emitFrame (packetDue (advance s t) frame) frame p.fic p.audio) := by
  refine (if_neg (sfnFrame_guard hm h ht)).trans <| (if_neg (Nat.not_lt.2 hg)).trans <| (if_neg (not_not.2 hr)).trans ?_
  simp only [hp]
  exact if_neg (ne_true_of_eq_false hf)

theorem exec_sfnFrame_missing (hr : sfnRole s = 2) (hp : heldPacket (advance s t) frame = none) :
    ∃ q, exec (.sfnFrame frame t) s = .next q ∧ q.tx.st = .muted ∧ q.tx.muteCause = 0x0A ∧ q.tx.fic = [] ∧
      q.tx.audio = [] := by
  have hgrid : ¬(advance s t).sid.now < (advance s t).tx.gridFrom := Nat.not_lt.2 hg
  have hfollows : ¬sfnRole (advance s t) ≠ 2 := not_not.2 hr
  show ∃ q, execSfnFrame frame t s = _ ∧ _
  simp only [execSfnFrame, if_neg (sfnFrame_guard hm h ht), if_neg hgrid, if_neg hfollows, hp]
  exact ⟨_, rfl, by simp [blankOut, countMissing]⟩

end Frame

theorem exec_sfnCoastExpiry (hm : txMode s = 2) (hon : s.tx.st = .on) (hc : s.sid.st = .coasting ∨ s.sid.st = .refused)
    (ht : s.sid.coastFrom + le s.tx.sfn 10 2 * secU ≤ (advance s t).sid.now) :
    exec (.sfnCoastExpiry t) s =
      .next (muteFrom ((advance s t).setTx { s.tx with muteTime := true }) 0x0B) := by
  obtain ⟨hst, hfrom⟩ := advance_sid s t
  rw [← txMode_advance s t] at hm
  rw [← hst] at hc
  rw [← hfrom] at ht
  exact if_pos ⟨hm, hon, hc, ht⟩

/-! ## Break-in triggers and a new table (R320, R328) -/

theorem exec_breakinTrigger {rank : Nat} {start : Bool} (hw : (triggers (taTrigger s)).contains rank = start)
    (h1 : 1 ≤ rank) (h4 : rank ≤ 4) (hb : transmitting s = true → atBoundary s = true) :
    exec (.breakinTrigger rank start) s = .next (brkUpdate (taTrigger s)) := by
  have hnow : ¬(transmitting (taTrigger s) ∧ atBoundary (taTrigger s) = false) := fun ⟨htx, hno⟩ =>
    Bool.false_ne_true (hno.symm.trans (hb htx))
  exact (if_pos ⟨hw, h1, h4⟩).trans (if_neg hnow)

section NewTable

variable (hn : s.reg.next = true) (hb : atBoundary s = true) (hx : expired s s.reg.nextBy = true)

include hn hb hx

theorem regTable_guard : ¬(s.reg.next = false ∨ atBoundary s = false ∨ expired s s.reg.nextBy = false) := by
  simp [hn, hb, hx]

theorem exec_regTableTakesEffect_idle (he : curEntry s = none) : exec .regTableTakesEffect s = .next (loadShadow s) := by
  refine (if_neg (regTable_guard hn hb hx)).trans ?_
  simp only [he]

theorem exec_regTableTakesEffect_gone {e : Bytes} (he : curEntry s = some e) (hc : sameChannel (loadShadow s) e = none) :
    exec .regTableTakesEffect s = .next (channelGone (closeDuty (loadShadow s))) := by
  refine (if_neg (regTable_guard hn hb hx)).trans ?_
  simp only [he, hc]

theorem exec_regTableTakesEffect_same {e : Bytes} {i : Nat} (he : curEntry s = some e)
    (hc : sameChannel (loadShadow s) e = some i) : ∃ q, exec .regTableTakesEffect s = .next q ∧ q.tx.entry = some i := by
  show ∃ q, execRegTableTakesEffect s = _ ∧ _
  simp only [execRegTableTakesEffect, if_neg (regTable_guard hn hb hx), he, hc, ← apply_ite Host.Outcome.next]
  refine ⟨_, rfl, ?_⟩
  split <;> simp

end NewTable

end Occurrences

/-! ## The obligation -/

/-- Settles O33: each occurrence answers by its lemma above; what time does not change is read of the state before. -/
theorem exciterOccurrencesAct : Obligations.ExciterOccurrencesAct := by
  unfold Obligations.ExciterOccurrencesAct
  intro s t n
  refine ⟨exec_txPllLocked, exec_txTuneTimeout, exec_coexWaitExpiry, ?grant, exec_txStartSequence, exec_txStopComplete,
    exec_fastMute, fun i => exec_dutyLimit, fun e => exec_continuousLimit, ?frames, exec_sfnCoastExpiry,
    fun rank start => exec_breakinTrigger, ?table⟩
  case grant =>
    intro level hlevel g
    rw [exec_coexGntChange hlevel]
    have hgnt : withGrant (advance s t) level = g := rfl
    have hmute : g.tx.muteGrant = s.tx.muteGrant := rfl
    simp only [hgnt]
    refine ⟨fun hoff => congrArg _ (if_pos hoff), fun hc hb hg hm => ?_, fun hc hb hg htx => ?_⟩
    · simp [hc, hb, hg, hmute, hm]
    · simp [hc, hb, hg, htx]
  case frames =>
    intro frame hm htx ht
    exact ⟨exec_sfnFrame_before_grid hm htx ht, fun hg => exec_sfnFrame_own hm htx ht hg,
      fun p hg => exec_sfnFrame_held hm htx ht hg, fun hg => exec_sfnFrame_missing hm htx ht hg⟩
  case table =>
    exact fun hn hb hx => ⟨exec_regTableTakesEffect_idle hn hb hx, fun e => exec_regTableTakesEffect_gone hn hb hx,
      fun e i => exec_regTableTakesEffect_same hn hb hx⟩

end Sys2Proof.Machine
end

section
/-! The proofs about the commands of group 0x03 to the aerial inputs, blanking and diversity (O14). -/

namespace Sys2Proof.Machine

/-! ## What is read of an aerial input and of blanking -/

section Reads

variable {s t : State}

theorem ant_of_rf (h : t.rf = s.rf) (n : Nat) : ant t n = ant s n := by
  rw [ant, h, ant]

theorem deadline_of_sid (h : t.sid = s.sid) (n : Nat) : deadline t n = deadline s n := by
  unfold deadline atBoundary
  rw [h]

theorem rfStatusResult_of (hrf : t.rf = s.rf) (hsid : t.sid = s.sid) (hclk : t.clk = s.clk) (n : Nat) :
    rfStatusResult t n = rfStatusResult s n := by
  have hblank : blankCount t n = blankCount s n := by
    simp only [blankCount, islandClocks, fsOf, ant_of_rf hrf, hrf, hsid, hclk]
  simp only [rfStatusResult, ant_of_rf hrf, hblank]

end Reads

section Taken

variable (sp : CmdSpec) (a : Args) (s : State)

theorem rf_taken : (taken sp a s).rf = s.rf := by simp

theorem sid_taken : (taken sp a s).sid = s.sid := by simp

theorem ant_taken (n : Nat) : ant (taken sp a s) n = ant s n := ant_of_rf (rf_taken sp a s) n

theorem deadline_taken (n : Nat) : deadline (taken sp a s) n = deadline s n := deadline_of_sid (sid_taken sp a s) n

theorem lane_taken (tgt : Nat) : lane (taken sp a s) tgt = lane s tgt := by
  simp only [lane, taken_frame]

end Taken

/-! ## ANT_SET (R99, R100) -/

section AntSet

variable {c : Cmd} {s : State}

theorem antSetUnit_manual (h : byteAt c.pl 0 = 0) :
    antSetUnit c s = .later stOk 0 [] (tapeGain (putAnt s c.inst
      { ant s c.inst with
        cfg := c.pl, lowTicks := 0, g := (byteAt c.pl 2 : Int) - byteAt c.pl 1, att := byteAt c.pl 1,
        lna := byteAt c.pl 2, agcSteps := if (byteAt c.pl 2 : Int) - byteAt c.pl 1 = (ant s c.inst).g
          then (ant s c.inst).agcSteps else sat 32 ((ant s c.inst).agcSteps + 1) }) c.inst (ant s c.inst).g) := by
  simp only [antSetUnit, if_pos h]

theorem antSetUnit_agc (h : byteAt c.pl 0 = 1) :
    antSetUnit c s = .later stOk 0 [] (tapeGain (putAnt s c.inst
      (Ant.setGain { ant s c.inst with cfg := c.pl, lowTicks := 0 } (ant s c.inst).g)) c.inst (ant s c.inst).g) := by
  simp only [antSetUnit, h, one_ne_zero, if_false, if_true]

theorem antSetUnit_frozen (h : byteAt c.pl 0 = 2) :
    antSetUnit c s = .later stOk 0 [] (tapeGain (putAnt s c.inst
      { ant s c.inst with cfg := c.pl, lowTicks := 0 }) c.inst (ant s c.inst).g) := by
  simp only [antSetUnit, h, OfNat.ofNat_ne_zero, OfNat.ofNat_ne_one, if_false]

end AntSet

/-! ## BIAS_SET (R105, Table 4-2) -/

section BiasSet

variable {c : Cmd} {s : State}

/-- An input whose supervision starts afresh under a `BIAS_SET`. -/
def biasAfresh (s : State) (n : Nat) (b : Bytes) : Ant :=
  { ant s n with biasCfg := b, retries := byteAt b 2, biasCur := 0, biasBy := deadline s 3200 }

theorem biasSetUnit_open (h : byteAt c.pl 0 = 0) :
    biasSetUnit c s = ok (putAnt s c.inst { biasAfresh s c.inst c.pl with bias := .off }) := if_pos h

theorem biasSetUnit_close (h : byteAt c.pl 0 ≠ 0) :
    biasSetUnit c s =
      if Config.railGood s.free (byteAt c.pl 0) = true then
        ok (putAnt (s.setFree (s.free + 1)) c.inst { biasAfresh s c.inst c.pl with bias := .on })
      else .done stBadState 0 []
        (evAnt (putAnt (s.setFree (s.free + 1)) c.inst { biasAfresh s c.inst c.pl with bias := .railAbsent }) c.inst 5) :=
  if_neg h

variable {a : Args}

theorem biasAfresh_taken (sp : CmdSpec) (a : Args) (s : State) (n : Nat) (b : Bytes) :
    biasAfresh (taken sp a s) n b = biasAfresh s n b := by
  rw [biasAfresh, ant_taken, deadline_taken, biasAfresh]

theorem exec_biasSet_open (hr : ready biasSetSpec a s = true) (h : byteAt a.payload 0 = 0) :
    exec (.biasSet a) s = .next (answer biasSetSpec a s stOk 0 [] (putAnt (taken biasSetSpec a s) (a.target.toNat % 256)
      { biasAfresh s (a.target.toNat % 256) a.payload with bias := .off })) := by
  rw [← biasAfresh_taken biasSetSpec a s]
  exact exec_done rfl hr (biasSetUnit_open h)

theorem exec_biasSet_close (hr : ready biasSetSpec a s = true) (h : byteAt a.payload 0 ≠ 0) :
    let q (bias : BiasState) : State := putAnt ((taken biasSetSpec a s).setFree (s.free + 1)) (a.target.toNat % 256)
      { biasAfresh s (a.target.toNat % 256) a.payload with bias := bias }
    exec (.biasSet a) s = .next
      (if Config.railGood s.free (byteAt a.payload 0) = true then answer biasSetSpec a s stOk 0 [] (q .on)
       else answer biasSetSpec a s stBadState 0 [] (evAnt (q .railAbsent) (a.target.toNat % 256) 5)) := by
  have hfree : (taken biasSetSpec a s).free = s.free := by simp
  have hunit := biasSetUnit_close (c := cmdOf biasSetSpec a) (s := taken biasSetSpec a s) h
  rw [biasAfresh_taken, hfree] at hunit
  intro q
  split
  · next hgood => exact exec_done rfl hr (hunit.trans (if_pos hgood))
  · next hbad => exact exec_done rfl hr (hunit.trans (if_neg hbad))

end BiasSet

/-! ## RF_CAL (R127, R128) -/

section RfCal

variable {c : Cmd} {s : State}

theorem rfCalUnit_foreground (h : byteAt c.pl 0 = 0) : rfCalUnit c s = .busy (calBegins s c.inst) := by
  simp only [rfCalUnit, h]

theorem rfCalUnit_spot (h : byteAt c.pl 0 = 1) :
    rfCalUnit c s = ok (putAnt s c.inst { ant s c.inst with spotAsked := true }) := by
  simp only [rfCalUnit, h]

theorem rfCalUnit_due (h : byteAt c.pl 0 = 2) :
    rfCalUnit c s = ok (putAnt s c.inst { ant s c.inst with
      calDtemp := byteAt c.pl 1, calPeriod := le c.pl 2 2, spotBy := deadline s (3200 * le c.pl 2 2) }) := by
  simp only [rfCalUnit, h]

end RfCal

/-! ## BLANK_SET (R137, R138) -/

section Blanking

/-- The marked spans and the inputs' counts are all that the end of a span changes. -/
theorem endSpan_rf (s : State) (t post : Sid) :
    (endSpan s t post).rf = { s.rf with ants := (endSpan s t post).rf.ants, spans := (endSpan s t post).rf.spans } := by
  unfold endSpan
  split
  · split <;> rfl
  · rfl

/-- A change of the level leaves the setting and the ball as they were. -/
theorem blankLevel_rf (s : State) (on : Bool) (t : Sid) :
    (blankLevel s on t).rf.blank = s.rf.blank ∧ (blankLevel s on t).rf.blankBall = s.rf.blankBall ∧
      (blankLevel s on t).rf.blankOn = on := by
  unfold blankLevel
  split
  · next h => exact ⟨rfl, rfl, h⟩
  · cases on with
    | true => exact ⟨rfl, rfl, rfl⟩
    | false =>
      simp only [Bool.false_eq_true, if_false, State.setRf_self, and_true]
      rw [endSpan_rf]
      exact ⟨rfl, rfl⟩

/-- `BLANK_SET` stores the setting, and what the ball's level means under it. -/
theorem blankSetUnit_ok (c : Cmd) (s : State) :
    ∃ q, blankSetUnit c s = ok q ∧ q.rf.blank = c.pl ∧ q.rf.blankOn = blankAsserted c.pl s.rf.blankBall := by
  unfold blankSetUnit
  dsimp only
  split
  · next h =>
    obtain ⟨hblanking, hon⟩ := h
    have hwas : s.rf.blankOn = true := (Bool.and_eq_true_iff.1 hblanking).1
    refine ⟨_, rfl, rfl, ?_⟩
    show (endSpan s s.sid.now 0).rf.blankOn = _
    rw [endSpan_rf, hon, ← hwas]
  · obtain ⟨hblank, -, hon⟩ := blankLevel_rf (s.setRf { s.rf with blank := c.pl }) (blankAsserted c.pl s.rf.blankBall) s.sid.now
    exact ⟨_, rfl, hblank, hon⟩

end Blanking

/-! ## DIV_SET (R136) -/

theorem divSetUnit_waits {c : Cmd} {s : State} (hi : (lane s c.tgt).st ≠ .idle) (hd : divOk (lane s c.tgt) c.pl = true) :
    divSetUnit c s =
      .busy (putLane s c.tgt { lane s c.tgt with divNext := some (c.pl, c.a.origin, c.a.tag.toNat) }) :=
  if_neg (by simp [hi, hd])

/-! ## The obligation -/

/-- Settles O14: taking a command leaves aerial inputs, blanking and lanes as they were, so each unit answers as on the state
before. -/
theorem aerialInputCommandsComplete : Obligations.AerialInputCommandsComplete := by
  unfold Obligations.AerialInputCommandsComplete
  intro a s n
  have hant (sp : CmdSpec) : ant (taken sp a s) n = ant s n := ant_taken sp a s n
  refine ⟨?manual, ?agc, ?frozen, exec_biasSet_open, exec_biasSet_close, fun hr h => exec_busy rfl hr (rfCalUnit_foreground h),
    ?spot, ?due, ?status, ?blank, ?div⟩
  case manual =>
    intro hr h
    rw [← hant antSetSpec]
    exact exec_later rfl hr (antSetUnit_manual h)
  case agc =>
    intro hr h
    rw [← hant antSetSpec]
    exact exec_later rfl hr (antSetUnit_agc h)
  case frozen =>
    intro hr h
    rw [← hant antSetSpec]
    exact exec_later rfl hr (antSetUnit_frozen h)
  case spot =>
    intro hr h
    rw [← hant rfCalSpec]
    exact exec_done rfl hr (rfCalUnit_spot h)
  case due =>
    intro hr h
    rw [← hant rfCalSpec, ← deadline_taken rfCalSpec a s]
    exact exec_done rfl hr (rfCalUnit_due h)
  case status =>
    intro hr
    rw [← rfStatusResult_of (rf_taken rfStatusGetSpec a s) (sid_taken rfStatusGetSpec a s) (clk_taken rfStatusGetSpec a s)]
    exact exec_done rfl hr rfl
  case blank =>
    intro hr
    obtain ⟨q, hunit, hblank, hon⟩ := blankSetUnit_ok (cmdOf blankSetSpec a) (taken blankSetSpec a s)
    rw [rf_taken] at hon
    exact ⟨q, exec_done rfl hr hunit, hblank, hon⟩
  case div =>
    intro hr hi hd
    rw [← lane_taken divSetSpec a s] at hi hd ⊢
    exact exec_busy rfl hr (divSetUnit_waits hi hd)

end Sys2Proof.Machine
end

section
/-! The proof about what the aerial inputs do on their own (O15). -/

namespace Sys2Proof.Machine

theorem Keeps.rf {m : Nat} {s t : State} (h : Keeps m s t) (hm : m.testBit 22 = false) : t.rf = s.rf := h.same .rf hm

@[simp] theorem ant_putAnt (s : State) (n : Nat) (x : Ant) : ant (putAnt s n x) n = x := by
  simp [ant, putAnt, mgetD]

@[simp] theorem evAnt_rf (s : State) (n cause : Nat) : (evAnt s n cause).rf = s.rf :=
  (evAnt_keeps (.refl _ s) (Sub.refl _)).rf rfl

@[simp] theorem tapeCal_rf (s : State) (n : Nat) : (tapeCal s n).rf = s.rf :=
  (tapeCal_keeps (.refl _ s) (Sub.refl _)).rf rfl

/-! ## Overload (R101, R104) -/

section Overload

variable {s : State} {n : Nat} {xs : List Int} {index : Nat}

/-- The overloaded samples of a window of input `n`. -/
def overloads (s : State) (n : Nat) (xs : List Int) : Nat := ((xs.take 256).filter (overThresh (ant s n))).length

/-- Input `n` has counted the overloaded samples of a window. -/
def clipsCounted (s : State) (n : Nat) (xs : List Int) : Ant :=
  { ant s n with clips := sat 32 ((ant s n).clips + overloads s n xs) }

/-- A window that is not marked counts its overloaded samples; with `OVL_COUNT` of them an AGC input lowers its gain, but for one
that has just done so. -/
theorem exec_agcOverloadWindow (hn : n < 4) (hm : markedAt s false n s.sid.now = false) :
    exec (.agcOverloadWindow n xs index) s = .next
      (if overloads s n xs < byteAt (ant s n).cfg 6 ∨ (ant s n).mode ≠ 1 ∨ (ant s n).powered = false then
        putAnt s n (clipsCounted s n xs)
      else if index < (ant s n).lockout then putAnt s n { clipsCounted s n xs with ovlTick := true }
      else tapeGain (putAnt s n
        (Ant.setGain { clipsCounted s n xs with ovlTick := true, lockout := index + 256 + 1024 }
          ((ant s n).g - byteAt (ant s n).cfg 7))) n (ant s n).g) := by
  show execAgcOverloadWindow n xs index s = _
  simp only [execAgcOverloadWindow, ge_iff_le, Nat.not_le.2 hn, if_false, hm, Bool.false_eq_true, apply_ite Host.Outcome.next]
  rfl

theorem agcLowers_guard (hc : byteAt (ant s n).cfg 6 ≤ overloads s n xs) (hmode : (ant s n).mode = 1)
    (hp : (ant s n).powered = true) :
    ¬(overloads s n xs < byteAt (ant s n).cfg 6 ∨ (ant s n).mode ≠ 1 ∨ (ant s n).powered = false) := by
  simp [hc, hmode, hp]

theorem exec_overloadPersists (hn : n < 4) (hg : (ant s n).g = -31) (hrun : 32 ≤ (ant s n).ovlRun)
    (htold : (ant s n).ovlTold = false) :
    exec (.overloadPersists n) s = .next (evAnt (putAnt s n { ant s n with ovlTold := true }) n 6) :=
  if_pos ⟨hn, hg, hrun, htold⟩

end Overload

/-! ## Bias (R105, R106, Table 4-2) -/

section Bias

variable {s : State} {n : Nat}

theorem biasClosed_of_limiting {x : Ant} (h : x.bias = .limiting) : biasClosed x = true := by
  simp [biasClosed, h]

/-- The present current of an input does not open its switch. -/
theorem biasFault_guard (hn : n < 4) (hc : biasClosed (ant s n) = true) (cur : Nat) :
    ¬(n ≥ 4 ∨ biasClosed { ant s n with biasCur := cur } = false) := by
  have hclosed : biasClosed { ant s n with biasCur := cur } = true := hc
  simp [hn, hclosed]

theorem exec_biasFault_current (hn : n < 4) (cur : Nat) (hc : biasClosed (ant s n) = true) :
    exec (.biasFault n 0 cur) s = .next (putAnt s n
      { ant s n with
        biasCur := cur,
        bias := if byteAt (ant s n).biasCfg 1 * 100 ≤ cur then .limiting
          else if cur < 20 ∧ (ant s n).bias = .lowCurrent then .lowCurrent else .on }) :=
  if_neg (biasFault_guard hn hc cur)

theorem exec_biasFault_opens (hn : n < 4) (cause cur : Nat) (hcause : cause = 1 ∨ cause = 2) (hl : (ant s n).bias = .limiting) :
    exec (.biasFault n cause cur) s = .next (biasOpens s n { ant s n with biasCur := cur } cause) := by
  have hguard := biasFault_guard hn (biasClosed_of_limiting hl) cur
  rcases hcause with rfl | rfl
  · exact (if_neg hguard).trans (congrArg _ (if_pos hl))
  · exact (if_neg hguard).trans (congrArg _ (if_pos hl))

theorem exec_biasFault_low (hn : n < 4) (cur : Nat) (hc : biasClosed (ant s n) = true) (hlow : (ant s n).bias ≠ .lowCurrent) :
    exec (.biasFault n 3 cur) s =
      .next (evAnt (putAnt s n { ant s n with biasCur := cur, bias := .lowCurrent }) n 3) :=
  (if_neg (biasFault_guard hn hc cur)).trans (congrArg _ (if_neg hlow))

theorem exec_biasFault_rail (hn : n < 4) (cur : Nat) (hc : biasClosed (ant s n) = true) :
    exec (.biasFault n 5 cur) s =
      .next (evAnt (putAnt s n { ant s n with biasCur := cur, bias := .railAbsent }) n 5) :=
  if_neg (biasFault_guard hn hc cur)

theorem exec_biasRetry (hn : n < 4) (hb : (ant s n).bias = .retry) (hx : expired s (ant s n).biasBy = true) :
    exec (.biasRetry n) s = .next (putAnt s n { ant s n with bias := .on, biasBy := deadline s 3200 }) :=
  if_pos ⟨hn, hb, hx⟩

theorem exec_biasRetryRestore (hn : n < 4) (hc : biasClosed (ant s n) = true) (hx : expired s (ant s n).biasBy = true) :
    exec (.biasRetryRestore n) s = .next (putAnt s n { ant s n with retries := (ant s n).retrySet }) :=
  if_pos ⟨hn, hc, hx⟩

end Bias

/-! ## Calibration (R127, R128, R130) -/

section Calibration

variable {s : State} {n : Nat} {t : Sid}

/-- A calibration that has completed leaves its corrections, its state and its temperature. -/
theorem ant_calDone (s : State) (n : Nat) (x : Ant) (temp : Int) :
    (ant (calDone s n x temp) n).cal = x.cal ∧
      (ant (calDone s n x temp) n).calState = (if calOutOfRange x = true then 3 else 1) ∧
      (ant (calDone s n x temp) n).calTemp = temp := by
  unfold calDone
  dsimp only
  split
  · rw [ant_of_rf (evAnt_rf ..), ant_putAnt]
    exact ⟨rfl, rfl, rfl⟩
  · rw [ant_of_rf (tapeCal_rf ..), ant_putAnt]
    exact ⟨rfl, rfl, rfl⟩

/-- Zones and lanes that resume leave the aerial inputs as they were. -/
theorem foldl_resetZone_rf (zs : List Nat) (s : State) : (zs.foldl resetZone s).rf = s.rf :=
  (Keeps.foldl (.refl _ s) fun _ _ h => resetZone_keeps h (Sub.refl _)).rf rfl

theorem foldl_resumeIfAny_rf (ls : List Nat) (s : State) : (ls.foldl resumeIfAny s).rf = s.rf :=
  (Keeps.foldl (.refl _ s) fun _ _ h => resumeIfAny_keeps h (Sub.refl _)).rf rfl

/-- What follows a foreground calibration leaves the aerial inputs as the calibration left them. -/
theorem exec_foregroundCalComplete (hn : n < 4) (tones : List ToneLevel) (temp : Int) (hst : (ant s n).calState = 2)
    (ht : (ant s n).calFrom + 180000000 * 65536 ≤ (advance s t).sid.now) :
    ∃ q, exec (.foregroundCalComplete n tones temp t) s = .next q ∧
      q.rf = (calDone (advance s t) n (calBuild (ant s n) tones) temp).rf := by
  show ∃ q, execForegroundCalComplete n tones temp t s = _ ∧ _
  simp only [execForegroundCalComplete, hn, hst, ht, and_self, if_true, ← apply_ite Host.Outcome.next]
  refine ⟨_, rfl, ?_⟩
  split
  · simp only [finishOp_frame]
    rfl
  · simp only [finishOp_frame, foldl_resumeIfAny_rf, foldl_resetZone_rf]
    rfl

theorem exec_spotCalStart (hn : n < 4) (temp : Int) (hd : spotDue s (ant s n) temp = true) (hst : s.aur.st = .stable)
    (hfg : fgRunning s = false) (hfree : ∀ e ∈ s.rf.ants, e.2.spotEnd = none) :
    exec (.spotCalStart n temp) s = .next (putAnt s n
      { ant s n with spotAsked := false, spotEnd := some (deadline s 32), spotOff := spotOffsets s }) := by
  have hall : (s.rf.ants.all fun e => e.2.spotEnd.isNone) = true :=
    List.all_eq_true.2 fun e he => Option.isNone_iff_eq_none.2 (hfree e he)
  exact if_pos ⟨hn, hd, hst, hfg, hall⟩

theorem exec_spotCalComplete (hn : n < 4) (tones : List ToneLevel) (temp : Int) (b : Nat) (he : (ant s n).spotEnd = some b)
    (hx : expired s b = true) :
    exec (.spotCalComplete n tones temp t) s = .next (calDone (advance s t) n
      (calDrift (ant s n) (tones.filter fun x =>
        onComb (ant s n).spotOff x.khz && x.g == (ant s n).g && tonePlaced s x.khz)) temp) := by
  show execSpotCalComplete n tones temp t s = _
  simp only [execSpotCalComplete, he, hn, hx, and_self, if_true]

end Calibration

/-! ## COEX_BLANK (R137, R139) -/

theorem exec_coexBlankChange (s : State) (t : Sid) (level : Bool) :
    ∃ q, exec (.coexBlankChange level t) s = .next q ∧ q.rf.blankBall = level ∧
      q.rf.blankOn = blankAsserted s.rf.blank level := by
  obtain ⟨-, hball, hon⟩ := blankLevel_rf ((advance s t).setRf { s.rf with blankBall := level })
    (blankAsserted s.rf.blank level) (advance s t).sid.now
  exact ⟨_, rfl, hball, hon⟩

theorem exec_coexBlankTimeout {s : State} (hb : blanking s = true) (hx : expired s s.rf.blankBy = true) :
    ∃ q, exec .coexBlankTimeout s = .next q ∧ q.rf.blankCut = true ∧ blanking q = false :=
  ⟨_, if_pos ⟨hb, hx⟩, by simp, by simp [blanking]⟩

/-! ## The obligation -/

/-- Settles O15: each occurrence answers by its lemma above. -/
theorem aerialInputOccurrencesAct : Obligations.AerialInputOccurrencesAct := by
  unfold Obligations.AerialInputOccurrencesAct
  intro s n t hn
  refine ⟨?window, exec_overloadPersists hn, exec_biasFault_current hn, ?noRetry, ?retry, exec_biasFault_low hn,
    exec_biasFault_rail hn, exec_biasRetry hn, exec_biasRetryRestore hn, ?foreground, exec_spotCalStart hn,
    exec_spotCalComplete hn, exec_coexBlankChange s t, exec_coexBlankTimeout⟩
  case window =>
    intro xs index hm
    have hexec := exec_agcOverloadWindow (xs := xs) (index := index) hn hm
    refine ⟨fun hfew => hexec.trans (congrArg _ (if_pos (.inl hfew))), fun hc hmode hp hlock => ?_,
      fun hc hmode hp hlock => ?_⟩
    · exact hexec.trans (congrArg _ ((if_neg (agcLowers_guard hc hmode hp)).trans (if_pos hlock)))
    · exact hexec.trans (congrArg _ ((if_neg (agcLowers_guard hc hmode hp)).trans (if_neg (Nat.not_lt.2 hlock))))
  case noRetry =>
    intro cause cur hcause hl hr
    exact (exec_biasFault_opens hn cause cur hcause hl).trans (congrArg _ (if_pos hr))
  case retry =>
    intro cause cur hcause hl hr
    exact (exec_biasFault_opens hn cause cur hcause hl).trans (congrArg _ (if_neg (Nat.ne_of_gt hr)))
  case foreground =>
    intro tones temp hst ht
    obtain ⟨q, hexec, hrf⟩ := exec_foregroundCalComplete hn tones temp hst ht
    obtain ⟨hcal, hstate, htemp⟩ := ant_calDone (advance s t) n (calBuild (ant s n) tones) temp
    rw [← ant_of_rf hrf] at hcal hstate htemp
    exact ⟨q, hexec, hcal, hstate, htemp⟩

end Sys2Proof.Machine
end

section
/-! The proof about the frequency planner: its commands, scans, evaluations, slews and re-locks (O16). -/

namespace Sys2Proof.Machine

theorem Keeps.aur {m : Nat} {s t : State} (h : Keeps m s t) (hm : m.testBit 23 = false) : t.aur = s.aur := h.same .aur hm

/-! ## What leaves the planner, or the clocks, as they were -/

section Left

variable (s : State)

@[simp] theorem evPlanOf_aur (kind : Nat) : (evPlanOf s kind).aur = s.aur :=
  (evPlanOf_keeps (.refl _ s) (Sub.refl _)).aur rfl

@[simp] theorem evPlanOf_clk (kind : Nat) : (evPlanOf s kind).clk = s.clk :=
  (evPlanOf_keeps (.refl _ s) (Sub.refl _)).clk rfl

@[simp] theorem abandonSpot_aur : (abandonSpot s).aur = s.aur := rfl

@[simp] theorem abandonSpot_clk : (abandonSpot s).clk = s.clk := rfl

@[simp] theorem finishRun_aur (apply : Bool) (khz cond kind pen mark : Nat) :
    (finishRun apply s khz cond kind pen mark).aur = s.aur :=
  (finishRun_keeps (.refl _ s) (Sub.refl _)).aur rfl

@[simp] theorem finishRun_clk (apply : Bool) (khz cond kind pen mark : Nat) :
    (finishRun apply s khz cond kind pen mark).clk = s.clk :=
  (finishRun_keeps (.refl _ s) (Sub.refl _)).clk rfl

@[simp] theorem tapeRate_aur (index hz cond : Nat) : (tapeRate s index hz cond).aur = s.aur :=
  (tapeRate_keeps (.refl _ s) (Sub.refl _)).aur rfl

@[simp] theorem tapeRate_clk (index hz cond : Nat) : (tapeRate s index hz cond).clk = s.clk :=
  (tapeRate_keeps (.refl _ s) (Sub.refl _)).clk rfl

@[simp] theorem tapeWords_aur : (tapeWords s).aur = s.aur := (tapeWords_keeps (.refl _ s) (Sub.refl _)).aur rfl

@[simp] theorem tapeWords_clk : (tapeWords s).clk = s.clk := (tapeWords_keeps (.refl _ s) (Sub.refl _)).clk rfl

@[simp] theorem latchNow_aur (index : Nat) : (latchNow s index).aur = s.aur :=
  (latchNow_keeps (.refl _ s) (Sub.refl _)).aur rfl

@[simp] theorem latchNow_clk (index : Nat) : (latchNow s index).clk = s.clk :=
  (latchNow_keeps (.refl _ s) (Sub.refl _)).clk rfl

@[simp] theorem pauseAll_aur : (pauseAll s).aur = s.aur := (pauseAll_keeps (.refl _ s) (Sub.refl _)).aur rfl

@[simp] theorem pauseAll_clk : (pauseAll s).clk = s.clk := (pauseAll_keeps (.refl _ s) (Sub.refl _)).clk rfl

@[simp] theorem planEnds_clk : (planEnds s).clk = s.clk := (planEnds_keeps (.refl _ s) (Sub.refl _)).clk rfl

theorem foldl_complete_aur (fs : List InFlight) (st d mark : Nat) (r : Bytes) :
    (fs.foldl (fun q f => complete q f st d r q.sid.now mark) s).aur = s.aur :=
  (Keeps.foldl (.refl _ s) fun _ _ h => complete_keeps h (Sub.refl _)).aur rfl

theorem aur_taken (sp : CmdSpec) (a : Args) : (taken sp a s).aur = s.aur := by simp

end Left

theorem lanesFit_of_lanes {s t : State} (h : t.lanes = s.lanes) (khz : Nat) : lanesFit t khz = lanesFit s khz := by
  simp only [lanesFit, setLaneList, lane, h]

/-! ## Commands (Tables 4-16 to 4-18) -/

section Commands

variable {c : Cmd} {a : Args} {s : State}

theorem auroraSetUnit_of_fitting (h : byteAt c.pl 0 ≠ 0 ∨ lanesFit s (le c.pl 8 4) = true) :
    auroraSetUnit c s =
      if s.aur.st ≠ .stable then .busy (s.setAur { s.aur with cfgNext := some c.pl }) else ok (applyAurora s c.pl) := by
  have hfits : ¬(byteAt c.pl 0 = 0 ∧ lanesFit s (le c.pl 8 4) = false) := fun ⟨hmanual, hno⟩ =>
    h.elim (· hmanual) fun hfit => Bool.false_ne_true (hno.symm.trans hfit)
  exact if_neg hfits

theorem auroraSetSpec_unit_of_fitting (h : byteAt a.payload 0 ≠ 0 ∨ lanesFit s (le a.payload 8 4) = true) :
    auroraSetSpec.unit (cmdOf auroraSetSpec a) (taken auroraSetSpec a s) =
      if s.aur.st ≠ .stable then .busy ((taken auroraSetSpec a s).setAur { s.aur with cfgNext := some a.payload })
      else ok (applyAurora (taken auroraSetSpec a s) a.payload) := by
  rw [← lanesFit_of_lanes (t := taken auroraSetSpec a s) (by simp)] at h
  rw [← aur_taken s auroraSetSpec a]
  exact auroraSetUnit_of_fitting (c := cmdOf auroraSetSpec a) h

theorem auroraRunUnit_evaluates (h : bit (byteAt c.pl 0) 0 = false) :
    auroraRunUnit c s = .busy (s.setAur { s.aur with asked := true, rescan := s.aur.rescan || bit (byteAt c.pl 0) 1 }) :=
  if_neg (ne_true_of_eq_false h)

theorem auroraRunUnit_applies {p : Plan} (h : bit (byteAt c.pl 0) 0 = true) (hp : s.aur.pend = some p) :
    auroraRunUnit c s =
      if p.hitless = true ∧ s.aur.st = .stable then
        okWith (runResult p.khz p.cond 1 p.pen) (startPlan (s.setAur { s.aur with approved := true }) p)
      else .busy (s.setAur { s.aur with approved := true }) := by
  simp only [auroraRunUnit, h, hp, if_true]

theorem auroraRunSpec_unit_applies {p : Plan} (h : bit (byteAt a.payload 0) 0 = true) (hp : s.aur.pend = some p) :
    auroraRunSpec.unit (cmdOf auroraRunSpec a) (taken auroraRunSpec a s) =
      if p.hitless = true ∧ s.aur.st = .stable then
        okWith (runResult p.khz p.cond 1 p.pen) (startPlan ((taken auroraRunSpec a s).setAur { s.aur with approved := true }) p)
      else .busy ((taken auroraRunSpec a s).setAur { s.aur with approved := true }) := by
  rw [← aur_taken s auroraRunSpec a] at hp ⊢
  exact auroraRunUnit_applies (c := cmdOf auroraRunSpec a) h hp

end Commands

/-! ## Plans (R118, R120) -/

section Plans

variable {s : State} {p : Plan}

theorem startPlan_aur (s : State) (p : Plan) :
    (startPlan s p).aur = { s.aur with
      st := .slewing, goal := p.khz, slewFrom := fsOf s, slewSteps := 0, slewIdx := none, pend := none, approved := false,
      deferred := false } := by
  simp [startPlan]

theorem applyPending_hitless (hp : s.aur.pend = some p) (ha : s.aur.approved = true) (hh : p.hitless = true)
    (hst : s.aur.st = .stable) : (applyPending s).aur = (startPlan s p).aur := by
  simp only [applyPending, hp, ha, hh, hst, and_self, if_true, finishRun_aur]

theorem applyPending_none (hp : s.aur.pend = none) : applyPending s = s := by
  simp only [applyPending, hp]

/-- A pending plan starts its slew, or the planner stays as it was. -/
theorem applyPending_aur (s : State) :
    (applyPending s).aur = s.aur ∨ ∃ p, (applyPending s).aur = (startPlan s p).aur := by
  unfold applyPending
  split
  · next p _ =>
    split
    · exact .inr ⟨p, by simp⟩
    · exact .inl rfl
  · exact .inl rfl

/-- The plans carried out and the end of the last slew are the same in two states. -/
def sameRecord (x y : Aurora) : Prop := y.plans = x.plans ∧ y.slewEnd = x.slewEnd

theorem sameRecord.trans {x y z : Aurora} (h : sameRecord x y) (k : sameRecord y z) : sameRecord x z :=
  ⟨k.1.trans h.1, k.2.trans h.2⟩

theorem applyPending_record (s : State) : sameRecord s.aur (applyPending s).aur := by
  rcases applyPending_aur s with h | ⟨p, h⟩
  · rw [h]
    exact ⟨rfl, rfl⟩
  · rw [h, startPlan_aur]
    exact ⟨rfl, rfl⟩

theorem applyAurora_record (s : State) (b : Bytes) : sameRecord s.aur (applyAurora s b).aur := by
  unfold applyAurora
  dsimp only
  split
  · exact applyPending_record (State.setAur ..)
  · exact ⟨rfl, rfl⟩

/-- The planner as a slew or re-lock that has ended leaves it, before what waited for the end takes effect. -/
def settled (s : State) : Aurora :=
  { s.aur with st := .stable, plans := sat 32 (s.aur.plans + 1), lastChg := s.sid.now, holdUntil := deadline s (le s.aur.cfg 6 2) }

/-- Where no setting and no plan waits, the planner is stable when a slew or re-lock has ended. -/
theorem planEnds_none (hc : s.aur.cfgNext = none) (hp : s.aur.pend = none) : planEnds s = s.setAur (settled s) := by
  unfold planEnds
  dsimp only
  split
  · next b hb => cases hc.symm.trans hb
  · exact applyPending_none hp

/-- The end of a slew or re-lock counts a plan. -/
theorem planEnds_record (s : State) :
    (planEnds s).aur.plans = sat 32 (s.aur.plans + 1) ∧ (planEnds s).aur.slewEnd = s.aur.slewEnd := by
  show sameRecord (settled s) (planEnds s).aur
  unfold planEnds
  refine sameRecord.trans ?_ (applyPending_record _)
  dsimp only
  split
  · rw [foldl_complete_aur]
    exact applyAurora_record (s.setAur (settled s)) _
  · exact ⟨rfl, rfl⟩

end Plans

/-! ## Scans and evaluations (R113, R114, R117, R118) -/

section Evaluation

variable {s : State} {p : Plan}

theorem exec_auroraScan (spectra : List (List (List (Nat × Nat)))) (h : s.aur.rescan = true ∨ expired s s.aur.scanBy = true) :
    ∃ q, exec (.auroraScan spectra) s = .next q ∧
      q.aur.strong = ((List.range 4).filter fun n => !markedAt s false n s.sid.now).flatMap
        (fun n => scanSignals s (spectra.getD n [])) ∧
      q.aur.rescan = false ∧ q.aur.scanBy = deadline s (le s.aur.cfg 16 2) ∧ q.aur.cfg = s.aur.cfg :=
  ⟨_, if_pos h, rfl, rfl, rfl, rfl⟩

theorem stable_of_mayEvaluate (h : mayEvaluate s = true) : s.aur.st = .stable := by
  simp only [mayEvaluate, Bool.and_eq_true, decide_eq_true_eq] at h
  obtain ⟨⟨⟨⟨⟨-, hst⟩, -⟩, -⟩, -⟩, -⟩ := h
  exact hst

/-- The state in which an evaluation adopts its plan: what asked for it is served. -/
def evaluated (s : State) : State := (freeValue s).2.setAur { s.aur with trigger := false, asked := false }

theorem exec_auroraEvaluation_keeps (hm : mayEvaluate s = true) (h : aurMode s = 0 ∨ choosePlan s = none) :
    ∃ q, exec .auroraEvaluation s = .next q ∧ q.aur = { s.aur with trigger := false, asked := false } := by
  have hnone : (if aurMode s = 0 then none else choosePlan s) = none :=
    ite_eq_left_iff.2 (or_iff_not_imp_left.1 h)
  show ∃ q, execAuroraEvaluation s = _ ∧ _
  simp only [execAuroraEvaluation, hm, Bool.true_eq_false, if_false, hnone]
  exact ⟨_, rfl, finishRun_aur ..⟩

theorem exec_auroraEvaluation_adopts (hm : mayEvaluate s = true) (h0 : aurMode s ≠ 0) (hp : choosePlan s = some p) :
    exec .auroraEvaluation s = .next (adopt (evaluated s) p s.ev.nextId) := by
  show execAuroraEvaluation s = _
  simp only [execAuroraEvaluation, hm, Bool.true_eq_false, if_false, h0, hp]
  rfl

/-- Plan `p` is adopted, before anything comes of it: the automatic modes approve what they may carry out. -/
def adopted (s : State) (p : Plan) : State :=
  s.setAur { s.aur with
    pend := some p, approved := (p.hitless && decide (2 ≤ aurMode s)) || aurMode s == 3, deferred := false }

/-- An adopted hitless plan starts its slew in an automatic mode. -/
theorem adopt_slews (hh : p.hitless = true) (hm : 2 ≤ aurMode s) (hst : s.aur.st = .stable) (mark : Nat) :
    (adopt s p mark).aur.st = .slewing ∧ (adopt s p mark).aur.goal = p.khz ∧ (adopt s p mark).aur.pend = none := by
  have hauto : (adopted s p).aur.approved = true := by simp [adopted, hh, hm]
  have hslews : adopt s p mark = applyPending (adopted s p) := if_pos ⟨hauto, hh⟩
  rw [hslews, applyPending_hitless (s := adopted s p) rfl hauto hh hst, startPlan_aur]
  exact ⟨rfl, rfl, rfl⟩

/-- A re-lock plan, and any plan where the host approves them, is left pending; the fully automatic mode approves it. -/
theorem adopt_pends (h : p.hitless = false ∨ aurMode s = 1) (mark : Nat) :
    (adopt s p mark).aur = { s.aur with pend := some p, approved := aurMode s == 3, deferred := false } := by
  have hauto : ((p.hitless && decide (2 ≤ aurMode s)) || aurMode s == 3) = (aurMode s == 3) := by
    rcases h with hh | hm
    · simp [hh]
    · simp [hm]
  have hwaits : ¬((aurMode s == 3) = true ∧ p.hitless = true) := by
    rcases h with hh | hm
    · simp [hh]
    · simp [hm]
  simp only [adopt, hauto, if_neg hwaits, finishRun_aur]
  split <;> simp

end Evaluation

/-! ## Slews (R120) -/

section Slews

variable {s : State} {t : Sid}

@[simp] theorem stepRate_aur (s : State) (index hz : Nat) : (stepRate s index hz).aur = s.aur := by
  simp [stepRate]

@[simp] theorem stepRate_clk (s : State) (index hz : Nat) : (stepRate s index hz).clk = { s.clk with sclkHz := hz } := by
  simp [stepRate]

theorem exec_slewStep {index : Nat} (hst : s.aur.st = .slewing) (hi : index % 4096 = 0)
    (hnext : ∀ i, s.aur.slewIdx = some i → i + 4096 = index) :
    exec (.slewStep index t) s = .next (stepRate ((advance s t).setAur
      { s.aur with slewSteps := s.aur.slewSteps + 1, slewIdx := some index }) index (slewRate s (s.aur.slewSteps + 1))) := by
  have hall : (s.aur.slewIdx.all fun i => i + 4096 == index) = true := by
    cases h : s.aur.slewIdx with
    | none => rfl
    | some i => exact beq_iff_eq.2 (hnext i h)
  exact if_pos ⟨hst, hi, hall⟩

theorem exec_slewComplete (hst : s.aur.st = .slewing) (hfs : fsOf s = 1000 * s.aur.goal) :
    exec (.slewComplete t) s = .next (planEnds (evPlanOf ((advance s t).setAur
      { s.aur with slewEnd := (advance s t).sid.now }) 2)) :=
  if_pos ⟨hst, hfs⟩

end Slews

/-! ## Zones and lanes that resume (R123, R167) -/

section Resume

/-- Of the planner at most the mark that its used list has changed differs (R114). -/
def onlyTrigger (s t : State) : Prop := ∃ v, t.aur = { s.aur with trigger := v }

variable {s t u : State}

theorem onlyTrigger.of_aur (h : t.aur = s.aur) : onlyTrigger s t := ⟨s.aur.trigger, h⟩

theorem onlyTrigger.trans (h : onlyTrigger s t) (k : onlyTrigger t u) : onlyTrigger s u := by
  obtain ⟨v, hv⟩ := h
  obtain ⟨w, hw⟩ := k
  exact ⟨w, by rw [hw, hv]⟩

theorem onlyTrigger.foldl {α : Type} {f : State → α → State} (hf : ∀ q x, onlyTrigger q (f q x)) (l : List α) (s : State) :
    onlyTrigger s (l.foldl f s) := by
  induction l generalizing s with
  | nil => exact .of_aur rfl
  | cons x l ih => exact (hf s x).trans (ih (f s x))

@[simp] theorem putLane_aur (s : State) (tgt : Nat) (l : Lane) : (putLane s tgt l).aur = s.aur := rfl

@[simp] theorem cutBlock_aur (s : State) (tgt : Nat) : (cutBlock s tgt).aur = s.aur :=
  (cutBlock_keeps (.refl _ s) (Sub.refl _)).aur rfl

@[simp] theorem resetLane_aur (s : State) (tgt : Nat) (withZone : Bool) : (resetLane s tgt withZone).aur = s.aur :=
  (resetLane_keeps (.refl _ s) (Sub.refl _)).aur rfl

@[simp] theorem ofdmStops_aur (s : State) (n : Nat) : (ofdmStops s n).aur = s.aur :=
  (ofdmStops_keeps (.refl _ s) (Sub.refl _)).aur rfl

@[simp] theorem ofdmRetunes_aur (s : State) (n : Nat) : (ofdmRetunes s n).aur = s.aur :=
  (ofdmRetunes_keeps (.refl _ s) (Sub.refl _)).aur rfl

@[simp] theorem surveyStops_aur (s : State) (n : Nat) : (surveyStops s n).aur = s.aur := rfl

@[simp] theorem dropLaneCmds_aur (s : State) (tgt status : Nat) : (dropLaneCmds s tgt status).aur = s.aur :=
  (dropLaneCmds_keeps (.refl _ s) (Sub.refl _)).aur rfl

@[simp] theorem markApplied_aur (s : State) (f : InFlight) : (markApplied s f).aur = s.aur := rfl

theorem stopLane_onlyTrigger (s : State) (tgt : Nat) : onlyTrigger s (stopLane s tgt) := by
  refine ⟨true, ?_⟩
  unfold stopLane usedChanged
  dsimp only
  split <;> simp

theorem heldEffect_onlyTrigger (tgt : Nat) (s : State) (f : InFlight) : onlyTrigger s (heldEffect tgt s f) := by
  unfold heldEffect
  split
  · exact (stopLane_onlyTrigger s tgt).trans (.of_aur (by simp))
  · refine .of_aur ?_
    dsimp only
    split <;> split <;> simp

theorem resumeLane_onlyTrigger (s : State) (tgt : Nat) : onlyTrigger s (resumeLane s tgt) := by
  unfold resumeLane
  dsimp only
  split
  · exact .of_aur rfl
  · refine onlyTrigger.trans (.of_aur ?_) (onlyTrigger.foldl (heldEffect_onlyTrigger tgt) _ _)
    split <;> simp

theorem resumeFits_onlyTrigger (s : State) (tgt : Nat) : onlyTrigger s (resumeFits s tgt) := by
  unfold resumeFits resumeIfAny
  dsimp only
  split
  · exact .of_aur rfl
  · split
    · exact resumeLane_onlyTrigger s tgt
    · exact .of_aur rfl

theorem foldl_resetZone_aur (zs : List Nat) (s : State) : (zs.foldl resetZone s).aur = s.aur :=
  (Keeps.foldl (.refl _ s) fun _ _ h => resetZone_keeps h (Sub.refl _)).aur rfl

theorem foldl_restage_aur (ls : List Nat) (s : State) : (ls.foldl restage s).aur = s.aur :=
  (Keeps.foldl (.refl _ s) fun _ _ h => restage_keeps h (Sub.refl _)).aur rfl

theorem resumeAll_onlyTrigger (s : State) : onlyTrigger s (resumeAll s) := by
  unfold resumeAll
  refine onlyTrigger.trans (.of_aur ?_) (onlyTrigger.foldl resumeFits_onlyTrigger _ _)
  rw [foldl_restage_aur, foldl_resetZone_aur]

end Resume

/-! ## Re-locks (R80, R123, R124) -/

section Relock

variable {s : State} {t : Sid} {p : Plan}

section Start

variable (hp : s.aur.pend = some p) (ha : s.aur.approved = true) (hh : p.hitless = false) (hst : s.aur.st = .stable)
  (hsafe : safetyOn s = false) (hb : atBoundary (advance s t) = true)

include ha hh hst hsafe hb

theorem relockStart_guard :
    ¬(s.aur.approved = false ∨ p.hitless = true ∨ s.aur.st ≠ .stable ∨ safetyOn s = true ∨ atBoundary (advance s t) = false) := by
  simp [ha, hh, hst, hsafe, hb]

include hp

theorem exec_relockStart_locked (hk : s.clk.state = .locked) :
    ∃ q, exec (.relockStart t) s = .next q ∧ q.aur.st = .relocking ∧ q.aur.goal = p.khz ∧
      q.clk.lock = s.clk.lock &&& ~~~1#5 := by
  have hlocked : ¬s.clk.state ≠ .locked := not_not.2 hk
  show ∃ q, execRelockStart t s = _ ∧ _
  simp only [execRelockStart, hp, if_neg (relockStart_guard ha hh hst hsafe hb), if_neg hlocked]
  exact ⟨_, rfl, by simp [lockAttempt], by simp [lockAttempt], by simp [lockAttempt]⟩

theorem exec_relockStart_deferred (hk : s.clk.state ≠ .locked) (hd : s.aur.deferred = false) :
    exec (.relockStart t) s = .next (evPlanOf ((advance s t).setAur { s.aur with deferred := true }) 6) := by
  show execRelockStart t s = _
  simp only [execRelockStart, hp, if_neg (relockStart_guard ha hh hst hsafe hb), if_pos hk, hd, Bool.false_eq_true, if_false]

end Start

/-- The SCLK PLL has locked at the rate of plan `p`; zones and lanes have not resumed yet. -/
def relocked (s : State) (p : Plan) : State :=
  let u := tapeRate (s.setClk { s.clk with
    sclkHz := 1000 * p.khz, lockPoint := p.khz, sclkMode := p.cond, lock := s.clk.lock ||| 1#5 }) 0 (1000 * p.khz) p.cond
  evPlanOf (u.setAur { u.aur with st := .stable, pend := none, approved := false }) 5

/-- Zones and lanes resume, but for those that Frost holds. -/
def resumed (s : State) : State := if s.pwr.state = .frost then s else resumeAll s

theorem relocked_aur (s : State) (p : Plan) :
    (relocked s p).aur = { s.aur with st := .stable, pend := none, approved := false } := by
  simp [relocked]

theorem relocked_clk (s : State) (p : Plan) :
    (relocked s p).clk = { s.clk with
      sclkHz := 1000 * p.khz, lockPoint := p.khz, sclkMode := p.cond, lock := s.clk.lock ||| 1#5 } := by
  simp [relocked]

theorem resumed_clk (s : State) : (resumed s).clk = s.clk := by
  unfold resumed
  split
  · rfl
  · exact (resumeAll_keeps (.refl _ s) (Sub.refl _)).clk rfl

theorem resumed_onlyTrigger (s : State) : onlyTrigger s (resumed s) := by
  unfold resumed
  split
  · exact .of_aur rfl
  · exact resumeAll_onlyTrigger s

theorem exec_relockComplete (hp : s.aur.pend = some p) (hst : s.aur.st = .relocking) :
    exec (.relockComplete t) s = .next (tapeWords (planEnds
      (finishRun true (resumed (relocked (advance s t) p)) p.khz p.cond 3 p.pen s.ev.nextId))) := by
  have hruns : ¬s.aur.st ≠ .relocking := not_not.2 hst
  show execRelockComplete t s = _
  simp only [execRelockComplete, hp, if_neg hruns]
  rfl

end Relock

/-! ## The obligation -/

/-- Settles O16: each command answers as its unit does on the state before, and each occurrence by its lemma above; what resumes
after a re-lock marks at most that the used list has changed (`resumeAll_onlyTrigger`). -/
theorem auroraPlansAndMoves : Obligations.AuroraPlansAndMoves := by
  unfold Obligations.AuroraPlansAndMoves
  intro a s t
  refine ⟨?set, ?evaluate, ?apply, fun hr => exec_done rfl hr rfl, exec_auroraScan, ?evaluation, ?step, ?slewEnd, ?start,
    ?relock⟩
  case set =>
    intro hr hfits
    have hunit := auroraSetSpec_unit_of_fitting hfits
    exact ⟨fun hst => exec_done rfl hr (hunit.trans (if_neg (not_not.2 hst))),
      fun hst => exec_busy rfl hr (hunit.trans (if_pos hst))⟩
  case evaluate =>
    intro hr h
    rw [← aur_taken s auroraRunSpec a]
    exact exec_busy rfl hr (auroraRunUnit_evaluates h)
  case apply =>
    intro p hr h hp
    have hunit := auroraRunSpec_unit_applies h hp
    refine ⟨fun hh hst => exec_done rfl hr (hunit.trans (if_pos ⟨hh, hst⟩)),
      fun hwaits => exec_busy rfl hr (hunit.trans (if_neg fun ⟨hh, hst⟩ => ?_))⟩
    exact hwaits.elim (fun hno => Bool.false_ne_true (hno.symm.trans hh)) (· hst)
  case evaluation =>
    intro hm
    have hst := stable_of_mayEvaluate hm
    refine ⟨exec_auroraEvaluation_keeps hm, fun p h0 hp => ⟨fun hh h2 => ?_, fun hwaits => ?_⟩⟩
    · exact ⟨_, exec_auroraEvaluation_adopts hm h0 hp, adopt_slews (s := evaluated s) hh h2 hst _⟩
    · refine ⟨_, exec_auroraEvaluation_adopts hm h0 hp, ?_⟩
      rw [adopt_pends (s := evaluated s) hwaits]
      exact ⟨hst, rfl, rfl⟩
  case step =>
    intro index hst hi hnext
    exact ⟨_, exec_slewStep hst hi hnext, by simp, by simp, by simp⟩
  case slewEnd =>
    intro hst hfs
    obtain ⟨hplans, hend⟩ := planEnds_record (evPlanOf ((advance s t).setAur { s.aur with slewEnd := (advance s t).sid.now }) 2)
    rw [evPlanOf_aur] at hplans hend
    refine ⟨_, exec_slewComplete hst hfs, hplans, hend, fun hc hp => ?_⟩
    rw [planEnds_none (by simpa using hc) (by simpa using hp)]
    rfl
  case start =>
    intro p hp ha hh hst hsafe hb
    exact ⟨exec_relockStart_locked hp ha hh hst hsafe hb, exec_relockStart_deferred hp ha hh hst hsafe hb⟩
  case relock =>
    intro p hp hst
    refine ⟨_, exec_relockComplete hp hst, ?_⟩
    simp only [tapeWords_clk, planEnds_clk, finishRun_clk, resumed_clk, relocked_clk, tapeWords_aur, true_and]
    obtain ⟨v, hv⟩ := resumed_onlyTrigger (relocked (advance s t) p)
    rw [relocked_aur] at hv
    refine ⟨by simp, fun hc => ?_⟩
    rw [planEnds_none (by simp [hv, hc]) (by simp [hv])]
    exact ⟨rfl, by simp [settled, hv]⟩

end Sys2Proof.Machine
end

section
/-! The proofs about the commands of group 0x04 to zones and lanes (O17). -/

namespace Sys2Proof.Machine

/-! ## What is read of zones and lanes -/

section Reads

variable {s t : State}

theorem zone_of_zones (h : t.zones = s.zones) : zone t = zone s := by
  funext z
  rw [zone, h, zone]

theorem lane_of_lanes (h : t.lanes = s.lanes) : lane t = lane s := by
  funext tgt
  rw [lane, h, lane]

theorem setLaneList_of_lanes (h : t.lanes = s.lanes) : setLaneList t = setLaneList s := by
  rw [setLaneList, h, setLaneList]

theorem boundTo_of_lanes (h : t.lanes = s.lanes) : boundTo t = boundTo s := by
  funext z
  rw [boundTo, setLaneList_of_lanes h, lane_of_lanes h, boundTo]

theorem boundMask_of_lanes (h : t.lanes = s.lanes) : boundMask t = boundMask s := by
  funext base n z
  rw [boundMask, boundTo_of_lanes h, boundMask]

theorem splitLane_of_lanes (h : t.lanes = s.lanes) : splitLane t = splitLane s := by
  funext zs tgt
  rw [splitLane, lane_of_lanes h, splitLane]

theorem fsOf_of_clk (h : t.clk = s.clk) : fsOf t = fsOf s := by
  rw [fsOf, h, fsOf]

theorem zoneCentre_of_zones (h : t.zones = s.zones) : zoneCentre t = zoneCentre s := by
  funext l
  unfold zoneCentre
  rw [zone_of_zones h]

theorem contributes_of_zones (h : t.zones = s.zones) : contributes t = contributes s := by
  funext l
  unfold contributes
  rw [zone_of_zones h]

theorem branches_of_zones (h : t.zones = s.zones) : branches t = branches s := by
  funext l
  rw [branches, contributes_of_zones h, branches]

theorem legacyZone_of_hcfg (h : t.hcfg = s.hcfg) : legacyZone t = legacyZone s := by
  funext z
  rw [legacyZone, h, legacyZone]

end Reads

/-! ## What the units read of a state in which their packet has been taken -/

section Taken

variable (sp : CmdSpec) (a : Args) (s : State)

theorem zones_taken : (taken sp a s).zones = s.zones := by simp

theorem lanes_taken : (taken sp a s).lanes = s.lanes := by simp

theorem zoneTuneOk_taken (c : Cmd) : zoneTuneOk c (taken sp a s) = zoneTuneOk c s := by
  have hcfg : (taken sp a s).hcfg = s.hcfg := by simp
  have hlanes := lanes_taken sp a s
  rw [zoneTuneOk, legacyZone_of_hcfg hcfg, setLaneList_of_lanes hlanes, splitLane_of_lanes hlanes, boundTo_of_lanes hlanes,
    zoneTuneOk]

theorem zoneResult_taken (z : Nat) : zoneResult (taken sp a s) z = zoneResult s z := by
  rw [zoneResult, zone_of_zones (zones_taken sp a s), boundMask_of_lanes (lanes_taken sp a s), fsOf_of_clk (clk_taken sp a s),
    zoneResult]

theorem zoneCentre_taken (l : Lane) : zoneCentre (taken sp a s) l = zoneCentre s l := by
  rw [zoneCentre_of_zones (zones_taken sp a s)]

theorem shedRefusal_taken (stage : Nat) : shedRefusal (taken sp a s) stage = shedRefusal s stage := by
  have htherm : (taken sp a s).therm = s.therm := by simp
  unfold shedRefusal shedPos
  rw [htherm]

theorem surveyBudget_taken : surveyBudget (taken sp a s) = surveyBudget s := by
  have hpwr : (taken sp a s).pwr = s.pwr := by simp
  rw [surveyBudget, hpwr, surveyBudget]

theorem laneRing_taken (tgt : Nat) : laneRing (taken sp a s) tgt = laneRing s tgt := by
  have hrings : (taken sp a s).rings = s.rings := by simp
  rw [laneRing, hrings, laneRing]

theorem laneResult_taken (tgt : Nat) : laneResult (taken sp a s) tgt = laneResult s tgt := by
  rw [laneResult, lane_taken, branches_of_zones (zones_taken sp a s), fsOf_of_clk (clk_taken sp a s), laneResult]

end Taken

/-! ## What the units of zones and lanes answer -/

section Units

variable {c : Cmd} {s : State}

theorem zoneTuneUnit_waits (h : zoneTuneOk c s = true) : zoneTuneUnit c s = .busy s := if_pos h

/-! ### `LANE_SET` of a lane that is Idle or Stopped, and not designated -/

section LaneSet

variable (hst : (lane (hostAbandons s c.tgt) c.tgt).st = .idle ∨ (lane (hostAbandons s c.tgt) c.tgt).st = .stopped)
  (hfree : toFull c.tgt = true → laneDesignated (hostAbandons s c.tgt) c.inst = false)

include hst in
theorem not_inUse :
    ¬((lane (hostAbandons s c.tgt) c.tgt).st ≠ .idle ∧ (lane (hostAbandons s c.tgt) c.tgt).st ≠ .stopped) :=
  fun ⟨hi, hs⟩ => hst.elim hi hs

include hfree in
theorem not_designated : ¬(toFull c.tgt = true ∧ laneDesignated (hostAbandons s c.tgt) c.inst = true) :=
  fun ⟨hf, hd⟩ => Bool.false_ne_true ((hfree hf).symm.trans hd)

include hst hfree

theorem laneSetUnit_release (h : byteAt c.pl 0 = 0) :
    laneSetUnit c s = ok (if (lane (hostAbandons s c.tgt) c.tgt).st = .idle then hostAbandons s c.tgt
      else usedChanged (releaseLane (hostAbandons s c.tgt) c.tgt)) := by
  simp only [laneSetUnit, if_neg (not_inUse hst), if_neg (not_designated hfree), if_pos h]

theorem laneSetUnit_configure {n : Nat} (h : byteAt c.pl 0 ≠ 0)
    (hn : stageCount (askedRate c.pl) (fsOf (hostAbandons s c.tgt)) (toSurvey c.tgt) = some n)
    (hb : bindOk (hostAbandons s c.tgt) c.tgt (askedZones c.pl) = true)
    (hsum : toFull c.tgt = true → rateSum (hostAbandons s c.tgt) c.tgt + askedRate c.pl ≤ 800000000) :
    laneSetUnit c s = ok (configureLane (hostAbandons s c.tgt) c.tgt c.pl n) := by
  have hfits : ¬(toFull c.tgt = true ∧ 800000000 < rateSum (hostAbandons s c.tgt) c.tgt + askedRate c.pl) :=
    fun ⟨hf, hlt⟩ => absurd (hsum hf) (Nat.not_le.2 hlt)
  simp only [laneSetUnit, if_neg (not_inUse hst), if_neg (not_designated hfree), if_neg h, hn, hb,
    Bool.true_eq_false, if_false, if_neg hfits]

end LaneSet

theorem live_of_hitlessOk {l : Lane} {freq : Nat} (h : hitlessOk l freq = true) : l.live = true :=
  (Bool.and_eq_true_iff.1 h).1

theorem laneTuneUnit_allowed (hi : (lane s c.tgt).st ≠ .idle)
    (hf : tuneOk (le c.pl 0 8) (zoneCentre s (lane s c.tgt)) (lane s c.tgt).outRate = true)
    (hh : hitless c = true → hitlessOk (lane s c.tgt) (le c.pl 0 8) = true) :
    laneTuneUnit c s =
      if (lane s c.tgt).st = .stopped then
        ok (usedChanged (putLane (hostAbandons s c.tgt) c.tgt { lane s c.tgt with freq := le c.pl 0 8 }))
      else .busy (hostAbandons s c.tgt) := by
  have hlive : ¬(hitless c = true ∧ (lane s c.tgt).live = false) :=
    fun ⟨h, hno⟩ => Bool.false_ne_true (hno.symm.trans (live_of_hitlessOk (hh h)))
  have hstep : ¬(hitless c = true ∧ hitlessOk (lane s c.tgt) (le c.pl 0 8) = false) :=
    fun ⟨h, hno⟩ => Bool.false_ne_true (hno.symm.trans (hh h))
  simp only [laneTuneUnit, if_neg hlive, if_neg hi, hf, Bool.true_eq_false, if_false, if_neg hstep]

theorem laneStartUnit_waits (hst : (lane s c.tgt).st = .stopped)
    (hshed : shedRefusal s (if toSurvey c.tgt then 1 else 5) = none)
    (hsum : toSurvey c.tgt = true → surveySum s + (lane s c.tgt).outRate ≤ surveyBudget s) :
    laneStartUnit c s = .busy s := by
  have hfits : ¬(toSurvey c.tgt = true ∧ surveyBudget s < surveySum s + (lane s c.tgt).outRate) :=
    fun ⟨hs, hlt⟩ => absurd (hsum hs) (Nat.not_le.2 hlt)
  simp only [laneStartUnit, hst, ne_eq, not_true_eq_false, if_false, hshed, if_neg hfits]

theorem laneStopUnit_paused (h : (lane s c.tgt).st = .paused) :
    laneStopUnit c s = ok (dropLaneCmds (stopLane (hostAbandons s c.tgt) c.tgt) c.tgt stBadState) := by
  simp [laneStopUnit, h]

theorem live_iff {l : Lane} : l.live = true ↔ l.st = .running ∨ l.st = .settling := by
  simp [Lane.live]

theorem laneStopUnit_waits (h : (lane s c.tgt).live = true) : laneStopUnit c s = .busy (hostAbandons s c.tgt) := by
  rcases live_iff.1 h with hst | hst
  · simp [laneStopUnit, hst]
  · simp [laneStopUnit, hst]

theorem laneSyncUnit_waits (h : (lane s c.tgt).live = true) : laneSyncUnit c s = .busy (hostAbandons s c.tgt) := if_pos h

/-- The ring that lane `tgt` streams to, if there is one, is bound to it no more. -/
def unstreamed (s : State) (tgt : Nat) : State :=
  match laneRing s tgt with
  | some r => markRing s r .none
  | none => s

theorem laneStreamUnit_releases (h : byteAt c.pl 0 = 0xFF) : laneStreamUnit c s = ok (unstreamed s c.tgt) := if_pos h

theorem ringDenied_free {n : Nat} {r : Ring} {k : RingKind} (hr : mget s.rings n = some r) (hk : r.kind = k)
    (hd : r.destroying = none) (off : Nat) : ringDenied s n off k false = none := by
  simp [ringDenied, hr, hk, hd]

theorem laneStreamUnit_binds {r : Ring} (h : byteAt c.pl 0 ≠ 0xFF) (hr : mget s.rings (byteAt c.pl 0) = some r)
    (hk : r.kind = .streamOut) (hd : r.destroying = none) (hb : r.bind = .none) :
    laneStreamUnit c s =
      ok (putLane (markRing (unstreamed s c.tgt) (byteAt c.pl 0) (.lane c.tgt)) c.tgt { lane s c.tgt with start := true }) := by
  have hfree := ringDenied_free hr hk hd 0
  simp only [laneStreamUnit, if_neg h, hr, hb, ne_eq, not_true_eq_false, decide_false, hfree]
  rfl

end Units

/-! ## The obligation -/

/-- Settles O17: taking a command leaves zones, lanes and rings as they were, so each unit answers as on the state before. -/
theorem zoneAndLaneCommandsComplete : Obligations.ZoneAndLaneCommandsComplete := by
  unfold Obligations.ZoneAndLaneCommandsComplete
  intro a s tgt
  have hlane (sp : CmdSpec) : lane (taken sp a s) tgt = lane s tgt := lane_taken sp a s tgt
  refine ⟨?zoneTune, ?zoneGet, ?laneSet, ?laneTune, ?laneStart, ?laneStop, ?laneSync, ?laneStream, ?laneGet⟩
  case zoneTune =>
    intro hr h
    rw [← zoneTuneOk_taken zoneTuneSpec a s] at h
    exact exec_busy rfl hr (zoneTuneUnit_waits h)
  case zoneGet =>
    intro hr
    rw [← zoneResult_taken zoneGetSpec a s]
    exact exec_done rfl hr rfl
  case laneSet =>
    intro h hr hst hfree
    exact ⟨fun h0 => exec_done rfl hr (laneSetUnit_release (c := cmdOf laneSetSpec a) hst hfree h0),
      fun n h0 hn hb hsum =>
        exec_done rfl hr (laneSetUnit_configure (c := cmdOf laneSetSpec a) hst hfree h0 hn hb hsum)⟩
  case laneTune =>
    intro hr hi hf hh
    rw [← hlane laneTuneSpec] at hi hh ⊢
    rw [← hlane laneTuneSpec, ← zoneCentre_taken laneTuneSpec a s] at hf
    have hunit := laneTuneUnit_allowed (c := cmdOf laneTuneSpec a) hi hf hh
    exact ⟨fun hst => exec_done rfl hr (hunit.trans (if_pos hst)), fun hst => exec_busy rfl hr (hunit.trans (if_neg hst))⟩
  case laneStart =>
    intro hr hst hshed hsum
    rw [← hlane laneStartSpec] at hst hsum
    rw [← surveyBudget_taken laneStartSpec a s] at hsum
    rw [← shedRefusal_taken laneStartSpec a s] at hshed
    exact exec_busy rfl hr (laneStartUnit_waits (c := cmdOf laneStartSpec a) hst hshed hsum)
  case laneStop =>
    intro hr
    rw [← hlane laneStopSpec]
    exact ⟨fun hst => exec_done rfl hr (laneStopUnit_paused (c := cmdOf laneStopSpec a) hst),
      fun hl => exec_busy rfl hr (laneStopUnit_waits (c := cmdOf laneStopSpec a) hl)⟩
  case laneSync =>
    intro hr hl
    rw [← hlane laneSyncSpec] at hl
    exact exec_busy rfl hr (laneSyncUnit_waits (c := cmdOf laneSyncSpec a) hl)
  case laneStream =>
    intro hr
    rw [← hlane laneStreamSpec, ← laneRing_taken laneStreamSpec a s]
    refine ⟨fun h => exec_done rfl hr (laneStreamUnit_releases (c := cmdOf laneStreamSpec a) h), fun r h hg hk hd hb => ?_⟩
    have htaken : mget (taken laneStreamSpec a s).rings (byteAt a.payload 0) = some r := by simpa using hg
    exact exec_done rfl hr (laneStreamUnit_binds (c := cmdOf laneStreamSpec a) h htaken hk hd hb)
  case laneGet =>
    intro hr
    rw [← laneResult_taken laneGetSpec a s]
    exact exec_done rfl hr rfl

end Sys2Proof.Machine
end

section
/-! The proof about what zones and lanes do at their samples (O18). -/

namespace Sys2Proof.Machine

/-! ## What leaves zones and lanes as they were -/

section Left

variable {m : Nat} {s t : State}

theorem Keeps.zone (h : Keeps m s t) (hm : m.testBit 24 = false) : zone t = zone s := zone_of_zones (h.same .zones hm)

theorem Keeps.lane (h : Keeps m s t) (hm : m.testBit 25 = false) : lane t = lane s := lane_of_lanes (h.same .lanes hm)

variable (s)

@[simp] theorem advance_zone (u : Sid) : zone (advance s u) = zone s := zone_of_zones (by simp)

@[simp] theorem onScale_zone (tgt : Nat) : zone (onScale s tgt) = zone s :=
  (onScale_keeps (.refl _ s) (Sub.refl _)).zone rfl

@[simp] theorem offScale_zone (q : State) : zone (offScale s q) = zone q := rfl

@[simp] theorem finishTunes_zone (d : Sid) : zone (finishTunes s d) = zone s :=
  (finishTunes_keeps (.refl _ s) (Sub.refl _)).zone rfl

@[simp] theorem complete_zone (f : InFlight) (st d : Nat) (r : Bytes) (u : Sid) (mark : Nat) :
    zone (complete s f st d r u mark) = zone s := zone_of_zones (by simp)

@[simp] theorem markApplied_zone (f : InFlight) : zone (markApplied s f) = zone s := rfl

@[simp] theorem tapeZone_zone (z : Nat) : zone (tapeZone s z) = zone s :=
  (tapeZone_keeps (.refl _ s) (Sub.refl _)).zone rfl

@[simp] theorem dueTaps_zone (z : Nat) : zone (dueTaps s z) = zone s := rfl

@[simp] theorem usedChanged_zone : zone (usedChanged s) = zone s := rfl

theorem foldl_retuneBound_zone (mark : Option (Nat × Nat)) (ls : List Nat) :
    zone (ls.foldl (retuneBound mark) s) = zone s :=
  (Keeps.foldl (.refl _ s) fun _ _ h => retuneBound_keeps h (Sub.refl _)).zone rfl

@[simp] theorem advance_lane (u : Sid) : lane (advance s u) = lane s := lane_of_lanes (by simp)

@[simp] theorem onScale_lane (tgt : Nat) : lane (onScale s tgt) = lane s :=
  (onScale_keeps (.refl _ s) (Sub.refl _)).lane rfl

@[simp] theorem offScale_lane (q : State) : lane (offScale s q) = lane q := rfl

@[simp] theorem finishTunes_lane (d : Sid) : lane (finishTunes s d) = lane s :=
  (finishTunes_keeps (.refl _ s) (Sub.refl _)).lane rfl

@[simp] theorem complete_lane (f : InFlight) (st d : Nat) (r : Bytes) (u : Sid) (mark : Nat) :
    lane (complete s f st d r u mark) = lane s := lane_of_lanes (by simp)

@[simp] theorem foldl_complete_lane (fs : List InFlight) (d : Sid) :
    lane (fs.foldl (fun q f => complete q f stOk 0 [] d q.ev.nextId) s) = lane s :=
  (Keeps.foldl (.refl _ s) fun _ _ h => complete_keeps h (Sub.refl _)).lane rfl

@[simp] theorem dropLaneCmds_lane (tgt status : Nat) : lane (dropLaneCmds s tgt status) = lane s :=
  (dropLaneCmds_keeps (.refl _ s) (Sub.refl _)).lane rfl

@[simp] theorem markApplied_lane (f : InFlight) : lane (markApplied s f) = lane s := rfl

@[simp] theorem usedChanged_lane : lane (usedChanged s) = lane s := rfl

@[simp] theorem tapeLane_lane (tgt : Nat) : lane (tapeLane s tgt) = lane s :=
  (tapeLane_keeps (.refl _ s) (Sub.refl _)).lane rfl

@[simp] theorem tapeRatio_lane (tgt : Nat) : lane (tapeRatio s tgt) = lane s :=
  (tapeRatio_keeps (.refl _ s) (Sub.refl _)).lane rfl

@[simp] theorem evLaneOf_lane (tgt cause : Nat) : lane (evLaneOf s tgt cause) = lane s :=
  (evLaneOf_keeps (.refl _ s) (Sub.refl _)).lane rfl

@[simp] theorem recordBlock_lane (tgt seq : Nat) (b : Bytes) (u : Sid) :
    lane (recordBlock s tgt seq b u) = lane s :=
  (recordBlock_keeps (.refl _ s) (Sub.refl _)).lane rfl

@[simp] theorem feedBlock_lane (n : Nat) (b : Bytes) : lane (feedBlock s n b) = lane s :=
  (feedBlock_keeps (.refl _ s) (Sub.refl _)).lane rfl

@[simp] theorem ofdmStops_lane (n : Nat) : lane (ofdmStops s n) = lane s :=
  (ofdmStops_keeps (.refl _ s) (Sub.refl _)).lane rfl

@[simp] theorem surveyStops_lane (n : Nat) : lane (surveyStops s n) = lane s := rfl

@[simp] theorem ofdmRetunes_lane (n : Nat) : lane (ofdmRetunes s n) = lane s :=
  (ofdmRetunes_keeps (.refl _ s) (Sub.refl _)).lane rfl

@[simp] theorem ofdmRuns_lane (n : Nat) : lane (ofdmRuns s n) = lane s :=
  (ofdmRuns_keeps (.refl _ s) (Sub.refl _)).lane rfl

@[simp] theorem spareRuns_lane (n : Nat) : lane (spareRuns s n) = lane s := rfl

@[simp] theorem cutBlock_sid (tgt : Nat) : (cutBlock s tgt).sid = s.sid := (cutBlock_keeps (.refl _ s) (Sub.refl _)).sid rfl

theorem cutBlock_fsOf (tgt : Nat) : fsOf (cutBlock s tgt) = fsOf s :=
  fsOf_of_clk ((cutBlock_keeps (.refl _ s) (Sub.refl _)).clk rfl)

theorem commandReset_sid (tgt : Nat) : (commandReset s tgt).sid = s.sid :=
  (commandReset_keeps (.refl _ s) (Sub.refl _)).sid rfl

theorem commandReset_fsOf (tgt : Nat) : fsOf (commandReset s tgt) = fsOf s :=
  fsOf_of_clk ((commandReset_keeps (.refl _ s) (Sub.refl _)).clk rfl)

end Left

@[simp] theorem zone_putZone_self (s : State) (z : Nat) (v : Zone) : zone (putZone s z v) z = v := by
  simp [zone, putZone, mgetD]

theorem zone_putZone_of_ne {z y : Nat} (h : y ≠ z) (s : State) (v : Zone) : zone (putZone s z v) y = zone s y := by
  simp [zone, putZone, mgetD, mget_mput_of_ne h]

@[simp] theorem lane_putLane_self (s : State) (tgt : Nat) (l : Lane) : lane (putLane s tgt l) tgt = l := by
  simp [lane, putLane, mgetD]

/-! ## Zones (R157, R158, R164) -/

section Zones

variable {s : State} {t : Sid} {f : InFlight}

theorem exec_zoneSettled {z : Nat} (hz : z < 32) (hst : (zone s z).st = .settling)
    (hdue : zoneSettledAt s z ≤ (advance s t).sid.now) :
    exec (.zoneSettled z t) s =
      .next (finishTunes (putZone (advance s t) z { zone s z with st := .running }) (zoneSettledAt s z)) :=
  if_pos ⟨hz, hst, hdue⟩

/-- A pass over zones leaves each zone that it meets as its step does, where no step undoes that of another zone. -/
theorem foldl_zone {g : State → Nat → State} {P : Zone → Prop} (hself : ∀ q z, P (zone (g q z) z))
    (hother : ∀ q z y, y ≠ z → zone (g q z) y = zone q y) (zs : List Nat) (s : State) :
    ∀ y, y ∈ zs ∨ P (zone s y) → P (zone (zs.foldl g s) y) := by
  induction zs generalizing s with
  | nil => exact fun y h => h.resolve_left List.not_mem_nil
  | cons z zs ih =>
    refine fun y h => ih (g s z) y ?_
    by_cases hy : y = z
    · exact .inr (hy ▸ hself s z)
    · rw [hother s z y hy]
      exact h.imp_left fun hmem => (List.mem_cons.1 hmem).resolve_left hy

theorem zone_resetZone_freq (s : State) (z : Nat) : (zone (resetZone s z) z).freq = (zone s z).freq := by
  simp [resetZone]

theorem zone_resetZone_of_ne {z y : Nat} (h : y ≠ z) (s : State) : zone (resetZone s z) y = zone s y := by
  simp [resetZone, zone_putZone_of_ne h]

/-- A retune tunes every zone of the gang, be it held or not. -/
theorem retuneZones_freq (mark : Option (Nat × Nat)) (s : State) (zs : List Nat) (freq : Nat) :
    ∀ z ∈ zs, (zone (retuneZones mark s zs freq) z).freq = freq := by
  intro z hz
  unfold retuneZones
  rw [usedChanged_zone, foldl_retuneBound_zone]
  refine foldl_zone (P := fun v => v.freq = freq) (fun q x => ?_) (fun q x y h => ?_) zs s z (.inl hz)
  · split
    · simp
    · simp [zone_resetZone_freq]
  · split
    · exact zone_putZone_of_ne h ..
    · simp [zone_resetZone_of_ne h, zone_putZone_of_ne h]

theorem disableZones_st (s : State) (zs : List Nat) : ∀ z ∈ zs, (zone (disableZones s zs) z).st = .off := fun z hz =>
  foldl_zone (P := fun v => v.st = .off) (fun q x => by simp) (fun q x y h => by simp [zone_putZone_of_ne h]) zs s z (.inl hz)

theorem zoneTuneApplies_gang (h : zoneTuneOk f.cmd s = true) :
    ∀ z ∈ gang f.cmd,
      if bit (byteAt f.cmd.pl 12) 0 = true then (zone (zoneTuneApplies s f) z).freq = le f.cmd.pl 0 8
      else (zone (zoneTuneApplies s f) z).st = .off := by
  intro z hz
  have hok : ¬zoneTuneOk f.cmd s = false := ne_false_of_eq_true h
  unfold zoneTuneApplies
  rw [if_neg hok]
  split
  · rw [markApplied_zone]
    exact retuneZones_freq _ _ _ _ z hz
  · rw [complete_zone]
    exact disableZones_st s _ z hz

theorem applyNext_zone {tgt : Nat} (hz : toZone tgt = true) (hf : nextEffect s (zoneCmd tgt) = some f)
    (hdue : effectDue s f 20 true = true) : applyNext s tgt false = some (zoneTuneApplies s f) := by
  simp only [applyNext, hz, if_true, hf, hdue, Bool.or_true]

theorem exec_lanePointOfEffect {target : BitVec 16} {q : State}
    (h : applyNext (onScale (advance s t) target.toNat) target.toNat false = some q) :
    exec (.lanePointOfEffect target t) s = .next (offScale (advance s t) q) := by
  show execLanePointOfEffect target t s = _
  simp only [execLanePointOfEffect, h]

end Zones

/-! ## Blocks (R161, R162) -/

section Blocks

variable {s : State} {tgt k : Nat}

/-- What a block leaves of its lane: all that is not of blocks and of the samples that wait for them. -/
structure SameSetting (l m : Lane) : Prop where
  st : m.st = l.st
  freq : m.freq = l.freq
  stages : m.stages = l.stages
  outRate : m.outRate = l.outRate
  settleLast : m.settleLast = l.settleLast
  suppressed : m.suppressed = l.suppressed
  resets : m.resets = l.resets
  resetAt : m.resetAt = l.resetAt

theorem SameSetting.refl (l : Lane) : SameSetting l l := ⟨rfl, rfl, rfl, rfl, rfl, rfl, rfl, rfl⟩

/-- `m` is lane `l` after a block of `k` samples: it takes the oldest that wait, and its number from the sequence. -/
structure Formed (k : Nat) (l m : Lane) : Prop extends SameSetting l m where
  out : m.out = l.out.drop k
  blkSeq : m.blkSeq = (l.blkSeq + 1) % 2 ^ 32

theorem Formed.of_streamed {c : Prop} {_ : Decidable c} {l : Lane} {q : State} (h : Formed k l (lane q tgt)) :
    Formed k l (lane (if c then putLane q tgt { lane q tgt with start := false } else q) tgt) := by
  split
  · rw [lane_putLane_self]
    exact ⟨⟨h.st, h.freq, h.stages, h.outRate, h.settleLast, h.suppressed, h.resets, h.resetAt⟩, h.out, h.blkSeq⟩
  · exact h

theorem formBlock_formed (h : (lane s tgt).out.take k ≠ []) : Formed k (lane s tgt) (lane (formBlock s tgt k) tgt) := by
  unfold formBlock
  dsimp only
  rw [if_neg h]
  split
  · rw [recordBlock_lane, apply_ite lane, evLaneOf_lane, ite_self, lane_putLane_self]
    exact ⟨⟨rfl, rfl, rfl, rfl, rfl, rfl, rfl, rfl⟩, rfl, rfl⟩
  · refine Formed.of_streamed ?_
    rw [feedBlock_lane, recordBlock_lane, apply_ite lane, evLaneOf_lane, ite_self, lane_putLane_self]
    exact ⟨⟨rfl, rfl, rfl, rfl, rfl, rfl, rfl, rfl⟩, rfl, rfl⟩

theorem formBlock_nil (h : (lane s tgt).out.take k = []) : formBlock s tgt k = s := if_pos h

theorem cutBlock_setting (s : State) (tgt : Nat) : SameSetting (lane s tgt) (lane (cutBlock s tgt) tgt) := by
  unfold cutBlock
  by_cases h : (lane s tgt).out.take (lane s tgt).out.length = []
  · rw [formBlock_nil h]
    exact .refl _
  · exact (formBlock_formed h).toSameSetting

/-- `n` blocks of `k` samples each are formed. -/
def formBlocks (s : State) (tgt k n : Nat) : State := (List.range n).foldl (fun q _ => formBlock q tgt k) s

theorem formBlocks_succ (s : State) (tgt k n : Nat) :
    formBlocks s tgt k (n + 1) = formBlock (formBlocks s tgt k n) tgt k := by
  simp [formBlocks, List.range_succ]

/-- Blocks that the waiting samples fill take them in order, and are numbered in sequence. -/
theorem formBlocks_lane (hk : 0 < k) (n : Nat) (hn : n * k ≤ (lane s tgt).out.length) :
    (lane (formBlocks s tgt k n) tgt).out = (lane s tgt).out.drop (n * k) ∧
      (0 < n → (lane (formBlocks s tgt k n) tgt).blkSeq = ((lane s tgt).blkSeq + n) % 2 ^ 32) := by
  induction n with
  | zero => exact ⟨by simp [formBlocks], fun h => absurd h (Nat.lt_irrefl 0)⟩
  | succ n ih =>
    rw [Nat.succ_mul] at hn ⊢
    obtain ⟨hout, hseq⟩ := ih (by omega)
    have hfull : (lane (formBlocks s tgt k n) tgt).out.take k ≠ [] := by
      rw [hout, Ne, ← List.length_eq_zero_iff, List.length_take, List.length_drop]
      omega
    have hblock := formBlock_formed hfull
    rw [formBlocks_succ, hblock.out, hblock.blkSeq]
    refine ⟨by rw [hout, List.drop_drop], fun _ => ?_⟩
    cases n with
    | zero => rfl
    | succ n => rw [hseq n.succ_pos, Nat.mod_add_mod, Nat.add_assoc]

theorem blkLen_pos (l : Lane) : 0 < l.blkLen := by
  unfold Lane.blkLen
  split
  · decide
  · next h => exact Nat.pos_of_ne_zero h

theorem exec_laneBlock_feeds {target : BitVec 16} {xs : List (List Int)} {t : Sid}
    (h : toLane target.toNat = false ∨ (lane (feed (advance s t) xs (advance s t).sid.now) target.toNat).live = false) :
    exec (.laneBlock target xs t) s = .next (feed (advance s t) xs (advance s t).sid.now) :=
  if_pos h

theorem exec_laneBlock_forms {target : BitVec 16} {xs : List (List Int)} {t : Sid} (hl : toLane target.toNat = true)
    (hlive : (lane (feed (advance s t) xs (advance s t).sid.now) target.toNat).live = true) :
    let fed := feed (advance s t) xs (advance s t).sid.now
    let l := lane fed target.toNat
    exec (.laneBlock target xs t) s = .next (formBlocks fed target.toNat l.blkLen (l.out.length / l.blkLen)) := by
  have hgoes : ¬(toLane target.toNat = false ∨
      (lane (feed (advance s t) xs (advance s t).sid.now) target.toNat).live = false) := by
    simp [hl, hlive]
  intro fed l
  show execLaneBlock target xs t s = _
  rw [execLaneBlock, if_neg hgoes, Nat.max_eq_right (blkLen_pos _)]
  rfl

end Blocks

/-! ## Resets (R157–R160, R165) -/

section Resets

variable {s : State} {tgt : Nat}

theorem settleHb_le (n : Nat) (withZone : Bool) : settleHb n withZone ≤ settleHb n true := by
  unfold settleHb
  split <;> cases withZone <;> decide

/-- The zone-and-lane column of Table 5-7 is never below the other. -/
theorem settleCount_le (fs out n : Nat) (withZone : Bool) : settleCount fs out n withZone ≤ settleCount fs out n true := by
  have hhb := settleHb_le n withZone
  unfold settleCount
  gcongr

@[simp] theorem resetLane_st (s : State) (tgt : Nat) (withZone : Bool) :
    (lane (resetLane s tgt withZone) tgt).st = .settling := by
  simp [resetLane]

theorem resetLane_freq (s : State) (tgt : Nat) (withZone : Bool) :
    (lane (resetLane s tgt withZone) tgt).freq = (lane s tgt).freq := by
  simp [resetLane, Lane.suppress, (cutBlock_setting s tgt).freq]

theorem resetLane_outRate (s : State) (tgt : Nat) (withZone : Bool) :
    (lane (resetLane s tgt withZone) tgt).outRate = (lane s tgt).outRate := by
  simp [resetLane, Lane.suppress, (cutBlock_setting s tgt).outRate]

theorem resetLane_resetAt (s : State) (tgt : Nat) (withZone : Bool) :
    (lane (resetLane s tgt withZone) tgt).resetAt = s.sid.now := by
  simp [resetLane]

theorem resetLane_stages (s : State) (tgt : Nat) (withZone : Bool) :
    (lane (resetLane s tgt withZone) tgt).stages =
      (stageCount (lane s tgt).outRate (fsOf s) (toSurvey tgt)).getD (lane s tgt).stages := by
  simp [resetLane, (cutBlock_setting s tgt).outRate, (cutBlock_setting s tgt).stages, cutBlock_fsOf]

theorem justReset_cutBlock (s : State) (tgt : Nat) :
    justReset (cutBlock s tgt) (lane (cutBlock s tgt) tgt) = justReset s (lane s tgt) := by
  have h := cutBlock_setting s tgt
  rw [justReset, cutBlock_sid, h.st, h.resetAt, h.resets, justReset]

/-- A Running lane makes one reset more and has no settling samples left to count. -/
theorem resetLane_running (h : (lane s tgt).st = .running) (withZone : Bool) :
    let r := lane (resetLane s tgt withZone) tgt
    r.resets = (lane s tgt).resets + 1 ∧ r.settleLast = settleCount (fsOf s) (lane s tgt).outRate r.stages withZone ∧
      r.suppressed = sat 32 (lane s tgt).suppressed := by
  have hcut := cutBlock_setting s tgt
  have hnew : justReset (cutBlock s tgt) (lane (cutBlock s tgt) tgt) = false := by
    rw [justReset_cutBlock]
    simp [justReset, h]
  have hnone : settledSoFar (cutBlock s tgt) (lane (cutBlock s tgt) tgt) = 0 := by
    simp [settledSoFar, hcut.st, h]
  refine ⟨?_, ?_, ?_⟩
  · simp [resetLane, hnew, hcut.resets]
  · simp [resetLane, hnew, hcut.outRate, hcut.stages, cutBlock_fsOf]
  · simp [resetLane, hnew, hnone, Lane.suppress, hcut.suppressed]

/-- A lane that resets again at the zone sample of its reset makes that reset still. -/
theorem resetLane_again (h : justReset s (lane s tgt) = true) (withZone : Bool) :
    let r := lane (resetLane s tgt withZone) tgt
    r.resets = (lane s tgt).resets ∧
      r.settleLast = max (settleCount (fsOf s) (lane s tgt).outRate r.stages withZone) (lane s tgt).settleLast ∧
      r.suppressed = sat 32 (lane s tgt).suppressed := by
  have hcut := cutBlock_setting s tgt
  have hagain := (justReset_cutBlock s tgt).trans h
  refine ⟨?_, ?_, ?_⟩
  · simp [resetLane, hagain, Lane.suppress, hcut.resets]
  · simp [resetLane, hagain, hcut.outRate, hcut.stages, hcut.settleLast, cutBlock_fsOf]
  · simp [resetLane, hagain, Lane.suppress, hcut.suppressed]

theorem sat_sat (w v : Nat) : sat w (sat w v) = sat w v := by
  unfold sat
  omega

theorem lane_commandReset (s : State) (tgt : Nat) :
    lane (commandReset s tgt) tgt = lane (resetLane s tgt (zoneResets s (lane s tgt))) tgt := by
  rw [commandReset, tapeRatio_lane]

theorem justReset_commandReset (h : (lane s tgt).st = .running) :
    justReset (commandReset s tgt) (lane (commandReset s tgt) tgt) = true := by
  simp [justReset, lane_commandReset, commandReset_sid, resetLane_resetAt, (resetLane_running h _).1]

/-- A lane command and a zone that reset a Running lane at one zone sample make one reset of it, with the zone-and-lane
column (R165). -/
theorem reset_joint (h : (lane s tgt).st = .running) :
    let one := lane (commandReset s tgt) tgt
    let both := lane (resetLane (commandReset s tgt) tgt true) tgt
    let settles := settleCount (fsOf s) (lane s tgt).outRate one.stages true
    one.resets = (lane s tgt).resets + 1 ∧ both.resets = one.resets ∧ both.stages = one.stages ∧ both.resetAt = s.sid.now ∧
      (zoneResets s (lane s tgt) = true → one.settleLast = settles) ∧ both.settleLast = settles ∧
      both.suppressed = sat 32 (lane s tgt).suppressed := by
  obtain ⟨hresets, hsettle, hsupp⟩ := resetLane_running h (zoneResets s (lane s tgt))
  obtain ⟨hresets2, hsettle2, hsupp2⟩ := resetLane_again (justReset_commandReset h) true
  have hrate := resetLane_outRate s tgt (zoneResets s (lane s tgt))
  have hstages : (lane (resetLane (commandReset s tgt) tgt true) tgt).stages = (lane (commandReset s tgt) tgt).stages := by
    rw [resetLane_stages, lane_commandReset, hrate, commandReset_fsOf, resetLane_stages]
    cases stageCount (lane s tgt).outRate (fsOf s) (toSurvey tgt) <;> rfl
  rw [hstages, commandReset_fsOf] at hsettle2
  rw [← lane_commandReset] at hresets hsettle hsupp hrate
  rw [hrate] at hsettle2
  intro one both settles
  refine ⟨hresets, hresets2, hstages, ?_, fun hz => ?_, ?_, ?_⟩
  · exact (resetLane_resetAt ..).trans (congrArg _ (commandReset_sid s tgt))
  · rw [hsettle, hz]
  · rw [hsettle2, hsettle]
    exact Nat.max_eq_left (settleCount_le ..)
  · rw [hsupp2, hsupp, sat_sat]

end Resets

/-! ## The points of effect of lane commands (R164, Table 5-11) -/

section Commands

variable {s : State} {tgt : Nat} {f : InFlight}

/-- A lane at the point of effect of a command, with the block in progress ended where the command is sample-timed. -/
def atEffect (s : State) (tgt : Nat) (f : InFlight) : State := if f.due = 0 then s else cutBlock s tgt

theorem atEffect_setting (s : State) (tgt : Nat) (f : InFlight) : SameSetting (lane s tgt) (lane (atEffect s tgt f) tgt) := by
  unfold atEffect
  split
  · exact .refl _
  · exact cutBlock_setting s tgt

/-- A lane with a new frequency, as Aurora and the tape are told of it. -/
def retuned (s : State) (tgt freq : Nat) : State :=
  tapeLane (usedChanged (putLane s tgt { lane s tgt with freq := freq })) tgt

@[simp] theorem lane_retuned (s : State) (tgt freq : Nat) :
    lane (retuned s tgt freq) tgt = { lane s tgt with freq := freq } := by
  simp [retuned]

/-- A lane whose next block names the command (R37). -/
def changedBy (s : State) (tgt : Nat) (c : Cmd) : State := putLane s tgt { lane s tgt with change := some (changeOf c) }

@[simp] theorem lane_changedBy (s : State) (tgt : Nat) (c : Cmd) :
    lane (changedBy s tgt c) tgt = { lane s tgt with change := some (changeOf c) } := by
  simp [changedBy]

@[simp] theorem byCommand_st (s : State) (tgt : Nat) : (lane (byCommand s tgt) tgt).st = (lane s tgt).st := by
  unfold byCommand
  split
  · rw [lane_putLane_self]
  · rfl

@[simp] theorem byCommand_freq (s : State) (tgt : Nat) : (lane (byCommand s tgt) tgt).freq = (lane s tgt).freq := by
  unfold byCommand
  split
  · rw [lane_putLane_self]
  · rfl

theorem stopLane_st (s : State) (tgt : Nat) : (lane (stopLane s tgt) tgt).st = .stopped := by
  unfold stopLane
  dsimp only
  split
  · simp
  · simp

/-! ### What the commands do to their lane -/

/-- A start and a synchronising reset make the lane settle. -/
theorem applyLane_settles (hop : f.cmd.op = 0x0405 ∨ f.cmd.op = 0x0407) : (lane (applyLane s tgt f) tgt).st = .settling := by
  have happly : applyLane s tgt f =
      markApplied (changedBy (usedChanged (byCommand (commandReset (atEffect s tgt f) tgt) tgt)) tgt f.cmd) f := by
    rcases hop with hop | hop
    · simp only [applyLane, hop]
      rfl
    · simp only [applyLane, hop]
      rfl
  simp [happly, lane_commandReset]

theorem applyLane_stops (hop : f.cmd.op = 0x0406) : (lane (applyLane s tgt f) tgt).st = .stopped := by
  simp only [applyLane, hop]
  rw [dropLaneCmds_lane, complete_lane, stopLane_st]

/-- A new frequency that is not hitless makes the lane settle. -/
theorem applyLane_retunes (hop : f.cmd.op = 0x0404) (hh : ¬hitless f.cmd = true) :
    (lane (applyLane s tgt f) tgt).freq = le f.cmd.pl 0 8 ∧ (lane (applyLane s tgt f) tgt).st = .settling := by
  have happly : applyLane s tgt f =
      let r := retuned (atEffect s tgt f) tgt (le f.cmd.pl 0 8)
      markApplied (changedBy (byCommand (commandReset
        (if toFull tgt then ofdmRetunes r (tgt - 0x0300) else r) tgt) tgt) tgt f.cmd) f := by
    simp only [applyLane, hop, if_neg hh]
    rfl
  rw [happly]
  simp [lane_commandReset, resetLane_freq, apply_ite lane]

/-- A hitless one leaves its state as it is. -/
theorem applyLane_retunes_hitless (hop : f.cmd.op = 0x0404) (hh : hitless f.cmd = true) :
    (lane (applyLane s tgt f) tgt).freq = le f.cmd.pl 0 8 ∧ (lane (applyLane s tgt f) tgt).st = (lane s tgt).st := by
  have happly : applyLane s tgt f =
      let r := retuned (atEffect s tgt f) tgt (le f.cmd.pl 0 8)
      if (lane (atEffect s tgt f) tgt).st = .running then
        complete (changedBy r tgt f.cmd) f stOk 0 [] r.sid.now r.ev.nextId
      else markApplied (changedBy (byCommand r tgt) tgt f.cmd) f := by
    simp only [applyLane, hop, if_pos hh]
    rfl
  rw [happly]
  dsimp only
  split
  · simp [(atEffect_setting s tgt f).st]
  · simp [(atEffect_setting s tgt f).st]

/-! ### Which command applies -/

theorem not_zone_of_lane (h : toLane tgt = true) : toZone tgt = false := by
  simp only [toLane, toFull, toSurvey, Bool.or_eq_true, decide_eq_true_eq] at h
  simp only [toZone, decide_eq_false_iff_not]
  omega

/-- What a lane's state admits: any command where it has output, a stop in a pause, a start where it is Stopped. -/
theorem admitted {l : Lane} {op : Nat}
    (h : l.live = true ∨ (l.st = .paused ∧ op = 0x0406) ∨ (l.st = .stopped ∧ op = 0x0405)) :
    ¬(l.st = .paused ∧ op ≠ 0x0406) ∧ l.st ≠ .idle ∧ ¬(l.st = .stopped ∧ op ≠ 0x0405) := by
  rcases h with hlive | ⟨hst, hop⟩ | ⟨hst, hop⟩
  · rcases live_iff.1 hlive with hst | hst
    · simp [hst]
    · simp [hst]
  · simp [hst, hop]
  · simp [hst, hop]

/-- A command that its lane's state admits, and whose zones are not all held, applies at its point of effect. -/
theorem applyNext_lane (hl : toLane tgt = true) (hf : nextEffect s (laneCmd tgt false) = some f)
    (hdue : effectDue s f 50 ((lane s tgt).live = false || (lane s tgt).out.isEmpty) = true)
    (hmay : (lane s tgt).live = true ∨ ((lane s tgt).st = .paused ∧ f.cmd.op = 0x0406) ∨
      ((lane s tgt).st = .stopped ∧ f.cmd.op = 0x0405))
    (hzones : f.cmd.op = 0x0405 → ((lane s tgt).zones.all fun z => decide ((zone s z).st = .paused)) = false) :
    applyNext s tgt false = some (applyLane s tgt f) := by
  obtain ⟨hpaused, hidle, hstopped⟩ := admitted hmay
  have hgoes : ¬(toLane tgt = false ∨ ((lane s tgt).st = .paused ∧ f.cmd.op ≠ 0x0406) ∨ (lane s tgt).st = .idle ∨
      (false || effectDue s f 50 ((lane s tgt).live = false || (lane s tgt).out.isEmpty)) = false) := by
    rw [hl, hdue]
    rintro (h | h | h | h)
    · exact Bool.false_ne_true h.symm
    · exact hpaused h
    · exact hidle h
    · exact Bool.false_ne_true h.symm
  have hstarts : ¬(f.cmd.op = 0x0405 ∧ ((lane s tgt).zones.all fun z => decide ((zone s z).st = .paused)) = true) :=
    fun ⟨hop, hall⟩ => Bool.false_ne_true ((hzones hop).symm.trans hall)
  simp only [applyNext, not_zone_of_lane hl, Bool.false_eq_true, if_false, hf, if_neg hgoes, if_neg hstarts, if_neg hstopped]

end Commands

/-! ## Output sample S (R159, R160, R173) -/

theorem exec_laneSettled {s : State} {target : BitVec 16} {t : Sid} (hl : toLane target.toNat = true)
    (hst : (lane s target.toNat).st = .settling)
    (hdue : sampleTime (onScale (advance s t) target.toNat) (lane s target.toNat) (lane s target.toNat).settleLast ≤
      (onScale (advance s t) target.toNat).sid.now) :
    ∃ q, exec (.laneSettled target t) s = .next q ∧ lane q target.toNat =
      { (lane s target.toNat).suppress (if (lane s target.toNat).showSettle then 0 else (lane s target.toNat).settleLast) with
        st := .running, lastSync := firstDelivered (onScale (advance s t) target.toNat) (lane s target.toNat) } := by
  have hgoes : ¬(toLane target.toNat = false ∨ (lane s target.toNat).st ≠ .settling ∨
      (onScale (advance s t) target.toNat).sid.now <
        sampleTime (onScale (advance s t) target.toNat) (lane s target.toNat) (lane s target.toNat).settleLast) := by
    simp [hl, hst, hdue]
  show ∃ q, execLaneSettled target t s = _ ∧ _
  simp only [execLaneSettled, onScale_lane, advance_lane, if_neg hgoes]
  refine ⟨_, rfl, ?_⟩
  split
  · simp
  · simp

/-! ## The obligation -/

/-- Settles O18: each occurrence by its lemma above, on the time scale of its lane; completions, tape and events leave zones
and lanes as they were. -/
theorem laneOccurrencesAct : Obligations.LaneOccurrencesAct := by
  unfold Obligations.LaneOccurrencesAct
  intro s target t tgt s1 u
  have hlane : lane u = lane s := (onScale_lane ..).trans (advance_lane ..)
  have hzone : zone u = zone s := (onScale_zone ..).trans (advance_zone ..)
  refine ⟨?zoneSettled, ?gang, ?command, reset_joint, ?settled, ?blocks, fun lost hl hst => if_pos ⟨hl, hst⟩⟩
  case zoneSettled =>
    intro z hz hst hdue
    exact ⟨_, exec_zoneSettled hz hst hdue, by simp⟩
  case gang =>
    intro f hz hf hdue hok
    exact ⟨_, exec_lanePointOfEffect (applyNext_zone hz hf hdue), zoneTuneApplies_gang hok⟩
  case command =>
    intro f hl hf hdue hmay hzones
    rw [← hlane] at hdue hmay hzones ⊢
    rw [← hzone] at hzones
    refine ⟨_, exec_lanePointOfEffect (applyNext_lane hl hf hdue hmay hzones), applyLane_settles, applyLane_stops,
      fun hop => ?_⟩
    by_cases hh : hitless f.cmd = true
    · rw [if_pos hh]
      exact applyLane_retunes_hitless hop hh
    · rw [if_neg hh]
      exact applyLane_retunes hop hh
  case settled =>
    intro hl hst hdue
    obtain ⟨q, hexec, hq⟩ := exec_laneSettled hl hst hdue
    exact ⟨q, hexec, by rw [hq], by rw [hq], by rw [hq]; rfl⟩
  case blocks =>
    intro xs fed blocks
    refine ⟨exec_laneBlock_feeds, fun hl hlive => ⟨_, exec_laneBlock_forms hl hlive, ?_⟩⟩
    exact formBlocks_lane (blkLen_pos _) blocks (Nat.div_mul_le_self ..)

end Sys2Proof.Machine
end

section
/-! The proofs about the commands of group 0x05 to demodulators and Flurry (O19). -/

namespace Sys2Proof.Machine

/-! ## What is read of demodulators, of Flurry and of AF following -/

section Reads

variable {s t : State}

theorem demod_of_demods (h : t.demods = s.demods) : demod t = demod s := by
  funext n
  rw [demod, h, demod]

theorem flake_of_flurry (h : t.flurry = s.flurry) : flake t = flake s := by
  funext n
  rw [flake, h, flake]

theorem tap_of_taps (h : t.flurry.taps = s.flurry.taps) : tap t = tap s := by
  funext n
  rw [tap, h, tap]

theorem fullUse_of_lanes (h : t.lanes = s.lanes) : fullUse t = fullUse s := by
  funext n
  rw [fullUse, lane_of_lanes h, fullUse]

theorem laneProg_of (hl : t.lanes = s.lanes) (hd : t.demods = s.demods) : laneProg t = laneProg s := by
  funext n
  unfold laneProg
  rw [lane_of_lanes hl, demod_of_demods hd]

theorem pathLane_of (hl : t.lanes = s.lanes) (hd : t.demods = s.demods) : pathLane t = pathLane s := by
  funext p
  rw [pathLane, laneProg_of hl hd, lane_of_lanes hl, pathLane]

theorem laneDesignated_of_pol (h : t.pol = s.pol) : laneDesignated t = laneDesignated s := by
  funext n
  rw [laneDesignated, safeLanes, h, laneDesignated, safeLanes]

theorem safeFlakes_of_pol (h : t.pol = s.pol) : safeFlakes t = safeFlakes s := by
  rw [safeFlakes, h, safeFlakes]

theorem carrierOk_of_flurry (h : t.flurry = s.flurry) : carrierOk t = carrierOk s := by
  funext tp freq
  rw [carrierOk, h, carrierOk]

theorem holder_of_flurry (h : t.flurry = s.flurry) : holder t = holder s := by
  funext freq
  rw [holder, h, holder]

theorem carrierKnown_of_flurry (h : t.flurry = s.flurry) : carrierKnown t = carrierKnown s := by
  funext tp freq
  unfold carrierKnown
  rw [holder_of_flurry h, flake_of_flurry h, tap_of_taps (congrArg _ h)]

theorem censusEntry_of_flurry (h : t.flurry = s.flurry) : censusEntry t = censusEntry s := by
  funext tp e
  rw [censusEntry, holder_of_flurry h, carrierKnown_of_flurry h, censusEntry]

theorem censusResult_of_flurry (h : t.flurry = s.flurry) : censusResult t = censusResult s := by
  funext tp maxEnt first
  unfold censusResult
  rw [tap_of_taps (congrArg _ h), censusEntry_of_flurry h]

end Reads

section Stored

variable (s : State) (n : Nat)

@[simp] theorem demod_putDemod_self (d : Demod) : demod (putDemod s n d) n = d := by
  simp [demod, putDemod, mgetD]

@[simp] theorem flake_putFlake_self (f : Flake) : flake (putFlake s n f) n = f := by
  simp [flake, putFlake, mgetD]

@[simp] theorem tap_putTap_self (k : Tap) : tap (putTap s n k) n = k := by
  simp [tap, putTap, mgetD]

@[simp] theorem afOf_putAf_self (x : Af) : afOf (putAf s n x) n = x := by
  simp [afOf, putAf, mgetD]

end Stored

theorem mget_mdel_self {α : Type} (m : List (Nat × α)) (k : Nat) : mget (mdel m k) k = none := by
  unfold mdel
  induction m with
  | nil => rfl
  | cons e m ih =>
    by_cases h : e.1 = k
    · simpa [h] using ih
    · simpa [h, mget] using ih

/-! ## What the units read of a state in which their packet has been taken -/

section Taken

variable (sp : CmdSpec) (a : Args) (s : State)

theorem rings_taken : (taken sp a s).rings = s.rings := by simp

theorem demods_taken : (taken sp a s).demods = s.demods := by simp

theorem flurry_taken : (taken sp a s).flurry = s.flurry := by simp

theorem pol_taken : (taken sp a s).pol = s.pol := by simp

theorem demod_taken : demod (taken sp a s) = demod s := demod_of_demods (demods_taken sp a s)

theorem flake_taken : flake (taken sp a s) = flake s := flake_of_flurry (flurry_taken sp a s)

theorem tap_taken : tap (taken sp a s) = tap s := tap_of_taps (congrArg _ (flurry_taken sp a s))

theorem zone_taken : zone (taken sp a s) = zone s := zone_of_zones (zones_taken sp a s)

theorem fullUse_taken : fullUse (taken sp a s) = fullUse s := fullUse_of_lanes (lanes_taken sp a s)

theorem laneDesignated_taken : laneDesignated (taken sp a s) = laneDesignated s := laneDesignated_of_pol (pol_taken sp a s)

theorem safeFlakes_taken : safeFlakes (taken sp a s) = safeFlakes s := safeFlakes_of_pol (pol_taken sp a s)

theorem flakeDesignated_taken : flakeDesignated (taken sp a s) = flakeDesignated s := by
  funext n
  rw [flakeDesignated, safeFlakes_taken, flakeDesignated]

theorem carrierOk_taken : carrierOk (taken sp a s) = carrierOk s := carrierOk_of_flurry (flurry_taken sp a s)

theorem progDenied_taken : progDenied (taken sp a s) = progDenied s := by
  have hservices : (taken sp a s).services = s.services := by simp
  have htx : (taken sp a s).tx = s.tx := by simp
  funext p n
  unfold progDenied progTaken brkProg
  rw [pathLane_of (lanes_taken sp a s) (demods_taken sp a s), hservices, htx]

theorem notForRds_taken : notForRds (taken sp a s) = notForRds s := by
  funext n
  simp [notForRds, laneRingUsed, recRingUsed, sapRingUsed]

theorem qualityResult_taken : qualityResult (taken sp a s) = qualityResult s := by
  have hstate : demodState (taken sp a s) = demodState s := by
    funext n
    unfold demodState
    rw [demod_taken, lane_of_lanes (lanes_taken sp a s)]
  funext n
  unfold qualityResult
  rw [hstate, demod_taken, lane_of_lanes (lanes_taken sp a s)]

theorem rdsOf_taken : rdsOf (taken sp a s) = rdsOf s := by
  funext tgt
  rw [rdsOf, demod_taken, flake_taken, rdsOf]

theorem flakeShedRefusal_taken : flakeShedRefusal (taken sp a s) = flakeShedRefusal s := by
  funext n
  rw [flakeShedRefusal, flake_taken, activeFlakes, flurry_taken, shedRefusal_taken, flakeShedRefusal, activeFlakes]

theorem flakeResult_taken : flakeResult (taken sp a s) = flakeResult s := by
  funext n
  rw [flakeResult, flake_taken, flakeResult]

theorem censusResult_taken : censusResult (taken sp a s) = censusResult s := censusResult_of_flurry (flurry_taken sp a s)

end Taken

/-! ## What the units of demodulators answer -/

section Demods

variable {c : Cmd} {s : State}

theorem amSetUnit_waits (hu : fullUse s c.inst = 2) (hp : progDenied s (byteAt c.pl 0) c.inst = false) :
    amSetUnit c s = .busy (putDemod s c.inst { demod s c.inst with amNext := some c.pl }) := by
  simp [amSetUnit, hu, hp]

theorem fmSetUnit_waits (hu : fullUse s c.inst = 3) (hp : progDenied s (byteAt c.pl 0) c.inst = false)
    (ha : laneDesignated s c.inst = true → bit (byteAt c.pl 3) 3 = true) :
    fmSetUnit c s = .busy (putDemod s c.inst { demod s c.inst with fmNext := some c.pl }) := by
  have hkept : ¬(laneDesignated s c.inst = true ∧ bit (byteAt c.pl 3) 3 = false) :=
    fun ⟨hd, hoff⟩ => Bool.false_ne_true (hoff.symm.trans (ha hd))
  simp [fmSetUnit, hu, hp, hkept]

theorem rdsGetUnit_reads (hu : toFull c.tgt = true → fullUse s c.inst = 3) :
    rdsGetUnit c s =
      okWith (if byteAt c.pl 0 = 0 then rdsPart0 (rdsOf s c.tgt) else rdsPart1 (rdsOf s c.tgt)) s :=
  if_neg fun ⟨hf, hne⟩ => hne (hu hf)

end Demods

/-! ### `RDS_STREAM` (R191, Table 6-9) -/

section RdsStream

variable {s : State} {c : Cmd}

/-- The ring and `RFILT` that the lane or flake of a `TARGET` names for its RDS records. -/
def rdsRingOf (s : State) (tgt : Nat) : Option (Nat × Nat) :=
  if toFull tgt = true then (demod s (tgt % 256)).rdsRing else mget s.flurry.rings (tgt % 256)

/-- They are changed. -/
def nameRdsRing (s : State) (tgt : Nat) (v : Option (Nat × Nat)) : State :=
  if toFull tgt = true then putDemod s (tgt % 256) { demod s (tgt % 256) with rdsRing := v }
  else s.setFlurry { s.flurry with rings := match v with
    | some x => mput s.flurry.rings (tgt % 256) x
    | none => mdel s.flurry.rings (tgt % 256) }

/-- They are changed, and the ring named before goes free where no other unit names it. -/
def renameRdsRing (s : State) (tgt : Nat) (v : Option (Nat × Nat)) : State :=
  match rdsRingOf s tgt with
  | some o => freeRing (nameRdsRing s tgt v) o.1
  | none => nameRdsRing s tgt v

/-- The ring and `RFILT` of the payload, none for ring 0xFF. -/
def askedRdsRing (b : Bytes) : Option (Nat × Nat) :=
  if byteAt b 0 = 0xFF then none else some (byteAt b 0, byteAt b 1)

theorem rdsRingOf_nameRdsRing (s : State) (tgt : Nat) (v : Option (Nat × Nat)) : rdsRingOf (nameRdsRing s tgt v) tgt = v := by
  unfold rdsRingOf nameRdsRing
  split
  · rw [demod_putDemod_self]
  · cases v with
    | none => exact mget_mdel_self ..
    | some x => exact mget_mput_self ..

theorem nameRdsRing_rings (s : State) (tgt : Nat) (v : Option (Nat × Nat)) : (nameRdsRing s tgt v).rings = s.rings := by
  unfold nameRdsRing
  split
  · rfl
  · rfl

theorem rdsRingOf_of {t : State} (hd : t.demods = s.demods) (hf : t.flurry = s.flurry) (tgt : Nat) :
    rdsRingOf t tgt = rdsRingOf s tgt := by
  rw [rdsRingOf, demod_of_demods hd, hf, rdsRingOf]

/-- A ring's mark is all that `markRing` changes. -/
theorem markRing_units (s : State) (n : Nat) (b : Bind) :
    (markRing s n b).demods = s.demods ∧ (markRing s n b).flurry = s.flurry := by
  unfold markRing
  split
  · exact ⟨rfl, rfl⟩
  · exact ⟨rfl, rfl⟩

theorem freeRing_units (s : State) (n : Nat) :
    (freeRing s n).demods = s.demods ∧ (freeRing s n).flurry = s.flurry := by
  unfold freeRing
  split
  · exact ⟨rfl, rfl⟩
  · exact markRing_units ..

theorem mget_markRing_self {n : Nat} {r : Ring} (h : mget s.rings n = some r) (b : Bind) :
    mget (markRing s n b).rings n = some { r with bind := b } := by
  simp [markRing, h]

theorem markRing_ring {n k : Nat} (h : (mget s.rings k).isSome = true) (b : Bind) :
    (mget (markRing s n b).rings k).isSome = true := by
  unfold markRing
  split
  · by_cases hk : k = n
    · simp [hk]
    · simpa [mget_mput_of_ne hk] using h
  · exact h

theorem freeRing_ring {n k : Nat} (h : (mget s.rings k).isSome = true) : (mget (freeRing s n).rings k).isSome = true := by
  unfold freeRing
  split
  · exact h
  · exact markRing_ring h _

theorem rdsRingOf_renameRdsRing (s : State) (tgt : Nat) (v : Option (Nat × Nat)) :
    rdsRingOf (renameRdsRing s tgt v) tgt = v := by
  unfold renameRdsRing
  split
  · obtain ⟨hd, hf⟩ := freeRing_units (nameRdsRing s tgt v) _
    rw [rdsRingOf_of hd hf, rdsRingOf_nameRdsRing]
  · exact rdsRingOf_nameRdsRing ..

theorem renameRdsRing_ring {k : Nat} (h : (mget s.rings k).isSome = true) (tgt : Nat) (v : Option (Nat × Nat)) :
    (mget (renameRdsRing s tgt v).rings k).isSome = true := by
  rw [← nameRdsRing_rings s tgt v] at h
  unfold renameRdsRing
  split
  · exact freeRing_ring h
  · exact h

theorem rdsStreamUnit_eq (hu : toFull c.tgt = true → fullUse s c.inst = 3) :
    rdsStreamUnit c s =
      if byteAt c.pl 0 = 0xFF then ok (renameRdsRing s c.tgt (askedRdsRing c.pl))
      else match ringDenied s (byteAt c.pl 0) 0 .streamOut (notForRds s (byteAt c.pl 0)) with
        | some r => r
        | none => ok (markRing (renameRdsRing s c.tgt (askedRdsRing c.pl)) (byteAt c.pl 0) (.rds c.tgt)) :=
  if_neg fun ⟨hf, hne⟩ => hne (hu hf)

/-- A lane or flake takes a ring that is free for RDS records, or lets go of its own. -/
theorem rdsStreamUnit_binds (hu : toFull c.tgt = true → fullUse s c.inst = 3)
    (hring : byteAt c.pl 0 ≠ 0xFF → ∃ r, mget s.rings (byteAt c.pl 0) = some r ∧ r.kind = .streamOut ∧ r.destroying = none ∧
      notForRds s (byteAt c.pl 0) = false) :
    ∃ q, rdsStreamUnit c s = ok q ∧ rdsRingOf q c.tgt = askedRdsRing c.pl ∧
      (byteAt c.pl 0 ≠ 0xFF → ∃ r, mget q.rings (byteAt c.pl 0) = some r ∧ r.bind = .rds c.tgt) := by
  rw [rdsStreamUnit_eq hu]
  by_cases hn : byteAt c.pl 0 = 0xFF
  · exact ⟨_, if_pos hn, rdsRingOf_renameRdsRing .., fun h => absurd hn h⟩
  · obtain ⟨r, hr, hk, hd, hfree⟩ := hring hn
    obtain ⟨r2, hr2⟩ := Option.isSome_iff_exists.1
      (renameRdsRing_ring (Option.isSome_iff_exists.2 ⟨r, hr⟩) c.tgt (askedRdsRing c.pl))
    obtain ⟨hdemods, hflurry⟩ :=
      markRing_units (renameRdsRing s c.tgt (askedRdsRing c.pl)) (byteAt c.pl 0) (.rds c.tgt)
    refine ⟨_, ?_, ?_, fun _ => ⟨_, mget_markRing_self hr2 _, rfl⟩⟩
    · rw [if_neg hn, hfree, ringDenied_free hr hk hd]
    · rw [rdsRingOf_of hdemods hflurry, rdsRingOf_renameRdsRing]

end RdsStream

/-! ## What Flurry answers -/

section Flurry

variable {c : Cmd} {s : State}

theorem flurrySetUnit_waits (h : ∀ t ∈ safeFlakes s, t - 0x0500 < byteAt c.pl 13) :
    flurrySetSpec.unit c s = .busy (s.setFlurry { s.flurry with cfgNext := some c.pl }) := by
  have hpool : ¬((safeFlakes s).any fun t => decide (byteAt c.pl 13 ≤ t - 0x0500)) = true := by
    simpa using h
  exact if_neg hpool

theorem tapSetUnit_disables (h : byteAt c.pl 1 = 0xFF) :
    tapSetUnit c s = ok (s.flurry.flakes.foldl (dropFlake (byteAt c.pl 0) false)
      (putTap s (byteAt c.pl 0) { tap s (byteAt c.pl 0) with on := false, paused := false, due := false })) := if_pos h

theorem tapSetUnit_tunes (h : byteAt c.pl 1 ≠ 0xFF) (hon : (zone s (byteAt c.pl 1)).st ≠ .off)
    (hspan : tapInZone (le c.pl 8 8) (zone s (byteAt c.pl 1)).freq = true) :
    tapSetUnit c s = ok (tapResets (putTap s (byteAt c.pl 0)
      { tap s (byteAt c.pl 0) with
        on := true, zone := byteAt c.pl 1, freq := le c.pl 8 8, due := false,
        paused := (tap s (byteAt c.pl 0)).paused || decide ((zone s (byteAt c.pl 1)).st = .paused),
        occupied := [], noRds := [], censusBy := deadline s (le s.flurry.cfg 4 2) }) (byteAt c.pl 0)) := by
  simp only [tapSetUnit, if_neg h, if_neg hon, hspan, Bool.true_eq_false, if_false]

theorem flakeAssignUnit_takes (hon : (tap s (byteAt c.pl 0)).on = true)
    (hsafe : flakeDesignated s c.inst = true → bit (byteAt c.pl 1) 0 = true)
    (hok : carrierOk s (tap s (byteAt c.pl 0)) (le c.pl 4 4) = true) (hshed : flakeShedRefusal s c.inst = none) :
    let f := takeFlake s c.inst .pinned (byteAt c.pl 0) (le c.pl 4 4) (byteAt c.pl 1) 0
    flakeAssignUnit c s = .later stOk 0 []
      (if (tap s (byteAt c.pl 0)).paused = true then putFlake f c.inst { flake f c.inst with st := .paused } else f) := by
  have hkept : ¬(flakeDesignated s c.inst = true ∧ bit (byteAt c.pl 1) 0 = false) :=
    fun ⟨hd, hoff⟩ => Bool.false_ne_true (hoff.symm.trans (hsafe hd))
  simp only [flakeAssignUnit, hon, hkept, hok, hshed, Bool.true_eq_false, or_self, if_false]

theorem flakeReleaseUnit_frees (h : flakeDesignated s c.inst = false) :
    flakeReleaseSpec.unit c s = ok (freeFlake s c.inst) := if_neg (ne_true_of_eq_false h)

theorem freeFlake_flakes (s : State) (n : Nat) : (freeFlake s n).flurry.flakes = mdel s.flurry.flakes n := rfl

theorem flake_takeFlake (s : State) (n : Nat) (cls : FlakeClass) (tp freq flags ln : Nat) :
    flake (takeFlake s n cls tp freq flags ln) n =
      { Flake.reset with st := .acquiring, cls := cls, tap := tp, freq := freq, flags := flags, lane := ln,
                         probeBy := deadline s (32 * byteAt s.flurry.cfg 3) } :=
  flake_putFlake_self ..

end Flurry

/-! ## The obligation -/

/-- Settles O19: taking a command leaves lanes, demodulators, Flurry and rings as they were, so each unit answers as on the
state before. -/
theorem demodulatorAndFlurryCommandsComplete : Obligations.DemodulatorAndFlurryCommandsComplete := by
  unfold Obligations.DemodulatorAndFlurryCommandsComplete
  intro a s n
  refine ⟨?amSet, ?fmSet, ?qualityGet, ?rdsStream, ?rdsGet, ?flurrySet, ?tapOff, ?tapSet, ?flakeAssign, ?flakeRelease,
    ?flakeGet, ?censusGet⟩
  case amSet =>
    intro hr hu hp
    rw [← fullUse_taken amSetSpec a] at hu
    rw [← progDenied_taken amSetSpec a] at hp
    rw [← demod_taken amSetSpec a]
    exact exec_busy rfl hr (amSetUnit_waits (c := cmdOf amSetSpec a) hu hp)
  case fmSet =>
    intro hr hu hp ha
    rw [← fullUse_taken fmSetSpec a] at hu
    rw [← progDenied_taken fmSetSpec a] at hp
    rw [← laneDesignated_taken fmSetSpec a] at ha
    rw [← demod_taken fmSetSpec a]
    exact exec_busy rfl hr (fmSetUnit_waits (c := cmdOf fmSetSpec a) hu hp ha)
  case qualityGet =>
    intro hr hu
    rw [← fullUse_taken qualityGetSpec a] at hu
    rw [← qualityResult_taken qualityGetSpec a]
    exact exec_done rfl hr (if_pos hu)
  case rdsStream =>
    intro hr hu hring v
    rw [← fullUse_taken rdsStreamSpec a] at hu
    rw [← notForRds_taken rdsStreamSpec a, ← rings_taken rdsStreamSpec a] at hring
    obtain ⟨q, hunit, hnames, hbind⟩ := rdsStreamUnit_binds (c := cmdOf rdsStreamSpec a) hu hring
    refine ⟨q, exec_done rfl hr hunit, ?_, hbind⟩
    split
    · next hf => exact (if_pos hf).symm.trans hnames
    · next hf => exact (if_neg hf).symm.trans hnames
  case rdsGet =>
    intro hr hu
    rw [← fullUse_taken rdsGetSpec a] at hu
    rw [← rdsOf_taken rdsGetSpec a]
    exact exec_done rfl hr (rdsGetUnit_reads (c := cmdOf rdsGetSpec a) hu)
  case flurrySet =>
    intro hr hpool
    rw [← safeFlakes_taken flurrySetSpec a] at hpool
    rw [← flurry_taken flurrySetSpec a]
    exact exec_busy rfl hr (flurrySetUnit_waits (c := cmdOf flurrySetSpec a) hpool)
  case tapOff =>
    intro hr hoff
    rw [← flurry_taken tapSetSpec a, ← tap_taken tapSetSpec a]
    exact exec_done rfl hr (tapSetUnit_disables (c := cmdOf tapSetSpec a) hoff)
  case tapSet =>
    intro hr hz hon hspan
    rw [← zone_taken tapSetSpec a] at hon hspan ⊢
    rw [← flurry_taken tapSetSpec a, ← tap_taken tapSetSpec a, ← deadline_taken tapSetSpec a]
    exact exec_done rfl hr (tapSetUnit_tunes (c := cmdOf tapSetSpec a) hz hon hspan)
  case flakeAssign =>
    intro hr hon hsafe hok hshed f
    rw [← tap_taken flakeAssignSpec a] at hon hok ⊢
    rw [← flakeDesignated_taken flakeAssignSpec a] at hsafe
    rw [← carrierOk_taken flakeAssignSpec a] at hok
    rw [← flakeShedRefusal_taken flakeAssignSpec a] at hshed
    have hunit := flakeAssignUnit_takes (c := cmdOf flakeAssignSpec a) hon hsafe hok hshed
    have hflake : flake f n = _ := flake_takeFlake ..
    refine ⟨by rw [hflake], by rw [hflake], by rw [hflake], fun hp => ?_, fun hp => ?_⟩
    · exact exec_later rfl hr (hunit.trans (congrArg (Reply.later stOk 0 []) (if_neg (ne_true_of_eq_false hp))))
    · exact exec_later rfl hr (hunit.trans (congrArg (Reply.later stOk 0 []) (if_pos hp)))
  case flakeRelease =>
    intro hr hfree
    rw [← flakeDesignated_taken flakeReleaseSpec a] at hfree
    rw [← flurry_taken flakeReleaseSpec a]
    exact ⟨_, exec_done rfl hr (flakeReleaseUnit_frees (c := cmdOf flakeReleaseSpec a) hfree), freeFlake_flakes ..⟩
  case flakeGet =>
    intro hr
    rw [← flakeResult_taken flakeGetSpec a]
    exact exec_done rfl hr rfl
  case censusGet =>
    intro hr
    rw [← censusResult_taken censusGetSpec a]
    exact exec_done rfl hr rfl

end Sys2Proof.Machine
end

section
/-! The proof about what demodulators, taps and flakes do on their own (O20). -/

namespace Sys2Proof.Machine

/-! ## What leaves demodulators, flakes and taps as they were -/

section Left

variable {m : Nat} {s t : State}

theorem Keeps.demod (h : Keeps m s t) (hm : m.testBit 29 = false) : demod t = demod s :=
  demod_of_demods (h.same .demods hm)

theorem Keeps.flurry (h : Keeps m s t) (hm : m.testBit 30 = false) : t.flurry = s.flurry := h.same .flurry hm

theorem Keeps.flake (h : Keeps m s t) (hm : m.testBit 30 = false) : flake t = flake s := flake_of_flurry (h.flurry hm)

variable (s)

@[simp] theorem streamGroup_demod (b : Option (Nat × Nat)) (g : RdsGroup) (record : Bytes) :
    demod (streamGroup s b g record) = demod s :=
  (streamGroup_keeps (.refl _ s) (Sub.refl _)).demod rfl

@[simp] theorem streamGroup_flake (b : Option (Nat × Nat)) (g : RdsGroup) (record : Bytes) :
    flake (streamGroup s b g record) = flake s :=
  (streamGroup_keeps (.refl _ s) (Sub.refl _)).flake rfl

@[simp] theorem evTaChanges_demod (source : Nat) (r r' : Rds) : demod (evTaChanges s source r r') = demod s :=
  (evTaChanges_keeps (.refl _ s) (Sub.refl _)).demod rfl

@[simp] theorem evTaChanges_flake (source : Nat) (r r' : Rds) : flake (evTaChanges s source r r') = flake s :=
  (evTaChanges_keeps (.refl _ s) (Sub.refl _)).flake rfl

@[simp] theorem evFlakeOf_flurry (n cause : Nat) : (evFlakeOf s n cause).flurry = s.flurry :=
  (evFlakeOf_keeps (.refl _ s) (Sub.refl _)).flurry rfl

@[simp] theorem evFlakeOf_flake (n cause : Nat) : flake (evFlakeOf s n cause) = flake s :=
  flake_of_flurry (evFlakeOf_flurry ..)

end Left

/-- No `TARGET` is both a flake and a full lane. -/
theorem not_full_of_flake {tgt : Nat} (h : toFlake tgt = true) : ¬toFull tgt = true := by
  simp only [toFlake, decide_eq_true_eq] at h
  simp only [toFull, decide_eq_true_eq]
  omega

/-! ## Locks (R178, R182) -/

section Locks

/-- Samples within the lock limits count one by one, and what each of them leaves is left by the last. -/
theorem foldl_inside {α : Type} {step : Demod → α → Demod} {inside : α → Prop} {P Q : Demod → Prop}
    (hQP : ∀ d, Q d → P d) (hstep : ∀ d e, P d → inside e → Q (step d e) ∧ (step d e).inRun = d.inRun + 1)
    (es : List α) (hne : es ≠ []) (d : Demod) (hd : P d) (hes : ∀ e ∈ es, inside e) :
    Q (es.foldl step d) ∧ (es.foldl step d).inRun = d.inRun + es.length := by
  induction es generalizing d with
  | nil => exact absurd rfl hne
  | cons e es ih =>
    obtain ⟨he, hrest⟩ := List.forall_mem_cons.1 hes
    obtain ⟨hq, hrun⟩ := hstep d e hd he
    by_cases hlast : es = []
    · subst hlast
      exact ⟨hq, hrun⟩
    · obtain ⟨hq2, hrun2⟩ := ih hlast (step d e) (hQP _ hq) hrest
      exact ⟨hq2, by simp only [List.foldl_cons, List.length_cons, hrun2, hrun]; omega⟩

variable {d : Demod}

theorem carrierErr_inside {e : Int} (h : e.natAbs ≤ 1500) :
    (4800 ≤ (d.carrierErr e).inRun → (d.carrierErr e).carrier = true) ∧ (d.carrierErr e).inRun = d.inRun + 1 := by
  have hrun : (d.carrierErr e).inRun = d.inRun + 1 := if_pos h
  exact ⟨fun hlong => if_pos hlong, hrun⟩

theorem pilotErr_inside {e : Int × Nat} (h : e.1.natAbs ≤ 1000) (hpilot : 100 * byteAt d.fm 4 ≤ e.2) :
    (2048 ≤ (d.pilotErr e).inRun → (d.pilotErr e).pilot = true) ∧ (d.pilotErr e).inRun = d.inRun + 1 := by
  have hrun : (d.pilotErr e).inRun = d.inRun + 1 := if_pos ⟨h, decide_eq_false (Nat.not_lt.2 hpilot)⟩
  exact ⟨fun hlong => if_pos hlong, hrun⟩

/-- 4800 lane samples within ±15° lock the carrier PLL. -/
theorem foldl_carrierErr_locks {errors : List Int} (hlong : 4800 ≤ errors.length) (h : ∀ e ∈ errors, e.natAbs ≤ 1500) :
    (errors.foldl Demod.carrierErr d).carrier = true := by
  have hne : errors ≠ [] := List.ne_nil_of_length_pos (by omega)
  obtain ⟨hlock, hrun⟩ := foldl_inside (step := Demod.carrierErr)
    (inside := fun e => e.natAbs ≤ 1500) (P := fun _ => True) (Q := fun x => 4800 ≤ x.inRun → x.carrier = true)
    (fun _ _ => trivial) (fun _ _ _ he => carrierErr_inside he) errors hne d trivial h
  exact hlock (by omega)

/-- 2048 multiplex samples within ±10°, with a pilot of at least `PILOT_MIN`, lock the pilot PLL. -/
theorem foldl_pilotErr_locks {errors : List (Int × Nat)} (hlong : 2048 ≤ errors.length)
    (h : ∀ e ∈ errors, e.1.natAbs ≤ 1000 ∧ 100 * byteAt d.fm 4 ≤ e.2) :
    (errors.foldl Demod.pilotErr d).pilot = true := by
  have hne : errors ≠ [] := List.ne_nil_of_length_pos (by omega)
  have hstep (x : Demod) (e : Int × Nat) (hx : x.fm = d.fm) (he : e.1.natAbs ≤ 1000 ∧ 100 * byteAt d.fm 4 ≤ e.2) :
      ((x.pilotErr e).fm = d.fm ∧ (2048 ≤ (x.pilotErr e).inRun → (x.pilotErr e).pilot = true)) ∧
        (x.pilotErr e).inRun = x.inRun + 1 := by
    obtain ⟨hlock, hrun⟩ := pilotErr_inside (d := x) he.1 (hx.symm ▸ he.2)
    exact ⟨⟨hx, hlock⟩, hrun⟩
  obtain ⟨⟨-, hlock⟩, hrun⟩ := foldl_inside (P := fun x => x.fm = d.fm)
    (Q := fun x => x.fm = d.fm ∧ (2048 ≤ x.inRun → x.pilot = true)) (fun _ hx => hx.1) hstep errors hne d rfl h
  exact hlock (by omega)

end Locks

/-! ## The end of a window (R184, R198) -/

section Window

variable {s : State} {source : BitVec 16} {m : Measures} {t : Sid}

theorem exec_analogueWindowEnd_lane (hw : windowDone s 32 = true) (hf : toFull source.toNat = true)
    (hu : fullUse s (source.toNat % 256) = 2 ∨ fullUse s (source.toNat % 256) = 3)
    (hst : (lane s source.toNat).st = .running) :
    let k := source.toNat % 256
    let s1 := advance s t
    let d := demod s1 k
    let l := lane s1 source.toNat
    let w := markMeasures s1 (laneConv s1 k) (l.freq / 1000000) (100 * byteAt l.cfg 3) d.window.level d.rds
      (d.window.measures (fullUse s k != 3) d.carrier m)
    exec (.analogueWindowEnd source m t) s = .next (groupsAfter (afWindow
      (putDemod (putLane s1 source.toNat { l with window := LevelWindow.reset }) k
        { d with
          meas := some w, q := if fullUse s k = 3 then fmQuality d.fm w else 0, qTime := s1.sid.now,
          window := AudioWindow.reset }) k) k) := by
  have hruns : toFull source.toNat = true ∧
      (fullUse s (source.toNat % 256) = 2 ∨ fullUse s (source.toNat % 256) = 3) ∧ (lane s source.toNat).st = .running :=
    ⟨hf, hu, hst⟩
  show execAnalogueWindowEnd source m t s = _
  simp only [execAnalogueWindowEnd, hw, Bool.true_eq_false, if_false, if_pos hruns, beq_iff_eq]
  rfl

/-- The measures of a flake's window (R198), invalid while the flake is Paused. -/
def flakeMeasures (s : State) (f : Flake) (m : Measures) : Measures :=
  let k := tap s f.tap
  let lvl : LevelWindow := { f.window.level with power := f.window.level.power / 256 }
  let w := markMeasures s (k.zone / 8) (f.freq / 1000) (tapGain k f.freq) lvl f.rds (f.window.measures false false m)
  let w1 : Measures := if lvl.count = 0 then w else { w with adjUp := adjacent f.adj 1, adjLo := adjacent f.adj 2, pilot := 0 }
  { w1 with invalid := w1.invalid || decide (f.st = .paused) }

theorem exec_analogueWindowEnd_flake (hw : windowDone s 32 = true) (hf : toFlake source.toNat = true)
    (hactive : (flake s (source.toNat % 256)).active = true) :
    let k := source.toNat % 256
    let f := flake s k
    exec (.analogueWindowEnd source m t) s = .next (putFlake (advance s t) k
      { f with meas := some (flakeMeasures (advance s t) f m), mtime := (advance s t).sid.now, window := AudioWindow.reset,
               adj := [0, 0, 0] }) := by
  have hw' : ¬windowDone s 32 = false := ne_false_of_eq_true hw
  exact (if_neg hw').trans ((if_neg fun h => not_full_of_flake hf h.1).trans (if_pos ⟨hf, hactive⟩))

theorem AudioWindow.measures_invalid (w : AudioWindow) (am locked : Bool) (m : Measures) :
    (w.measures am locked m).invalid = m.invalid := by
  unfold AudioWindow.measures
  dsimp only
  split
  · rfl
  · split
    · rfl
    · rfl

theorem flakeMeasures_invalid (s : State) (f : Flake) (m : Measures) :
    (flakeMeasures s f m).invalid =
      (m.invalid || levelInvalid { f.window.level with power := f.window.level.power / 256 } || decide (f.st = .paused)) := by
  rw [← AudioWindow.measures_invalid f.window false false m]
  unfold flakeMeasures
  dsimp only
  split
  · rfl
  · rfl

end Window

/-! ## Groups leave the count of losses as it was (R187–R190) -/

section SyncLoss

variable (r : Rds) (g : RdsGroup)

@[simp] theorem Rds.recv_syncLoss (item v : Nat) : (r.recv item v).syncLoss = r.syncLoss := by
  unfold Rds.recv
  split
  · rfl
  · rfl

@[simp] theorem Rds.recvAf_syncLoss (x y : Nat) : (r.recvAf x y).syncLoss = r.syncLoss := by
  unfold Rds.recvAf
  dsimp only
  split_ifs
  all_goals rfl

@[simp] theorem Rds.recvCommon_syncLoss (tick : Nat) : (r.recvCommon g tick).syncLoss = r.syncLoss := by
  simp [Rds.recvCommon, apply_ite Rds.syncLoss]

@[simp] theorem Rds.recv0_syncLoss : (r.recv0 g).syncLoss = r.syncLoss := by
  simp [Rds.recv0, apply_ite Rds.syncLoss]

@[simp] theorem Rds.recv2_syncLoss : (r.recv2 g).syncLoss = r.syncLoss := by
  simp [Rds.recv2, Rds.clearText, apply_ite Rds.syncLoss]

@[simp] theorem Rds.recv4_syncLoss (t : Sid) : (r.recv4 g t).syncLoss = r.syncLoss := by
  simp [Rds.recv4, apply_ite Rds.syncLoss]

@[simp] theorem Rds.recvItems_syncLoss (t : Sid) : (r.recvItems g t).syncLoss = r.syncLoss := by
  unfold Rds.recvItems
  dsimp only
  split
  all_goals simp [apply_ite Rds.syncLoss]

@[simp] theorem Rds.traffic_syncLoss : (r.traffic g).syncLoss = r.syncLoss := by
  simp [Rds.traffic, apply_ite Rds.syncLoss]

@[simp] theorem Rds.eon_syncLoss : (r.eon g).syncLoss = r.syncLoss := by
  simp [Rds.eon, apply_ite Rds.syncLoss]

@[simp] theorem Rds.group_syncLoss (source : Nat) (t : Sid) (tick : Nat) (alertEn taRep : Bool) :
    (r.group source g t tick alertEn taRep).syncLoss = r.syncLoss := by
  simp [Rds.group, Rds.alarm, apply_ite Rds.syncLoss]

end SyncLoss

/-! ## Synchronisation of RDS (R187, Table 6-5) -/

section Sync

variable {s : State} {source : BitVec 16}

theorem exec_rdsSyncAcquired_lane {b0 b1 : RdsBlock} {p : Nat} (hf : toFull source.toNat = true)
    (hr : laneRds s (source.toNat % 256) = true) (hno : (demod s (source.toNat % 256)).rds.sync = false)
    (hp : syncAt (bit (byteAt (demod s (source.toNat % 256)).fm 3) 2) b0 b1 = some p) :
    let k := source.toNat % 256
    exec (.rdsSyncAcquired source b0 b1) s = .next (laneBlockIn k (laneBlockIn k
      (putDemod s k { demod s k with rds := (demod s k).rds.acquire p }) b0) b1) := by
  have hruns : toFull source.toNat = true ∧ laneRds s (source.toNat % 256) = true ∧
      (demod s (source.toNat % 256)).rds.sync = false := ⟨hf, hr, hno⟩
  show execRdsSyncAcquired source b0 b1 s = _
  simp only [execRdsSyncAcquired, if_pos hruns, hp]
  rfl

theorem exec_rdsSyncAcquired_flake {b0 b1 : RdsBlock} {p : Nat} (hf : toFlake source.toNat = true)
    (hst : (flake s (source.toNat % 256)).st = .acquiring)
    (hp : syncAt (bit (flake s (source.toNat % 256)).flags 2) b0 b1 = some p) :
    let k := source.toNat % 256
    exec (.rdsSyncAcquired source b0 b1) s = .next (flakeBlockIn k (flakeBlockIn k
      (putFlake s k { flake s k with st := .synced, proven := true, rds := (flake s k).rds.acquire p }) b0) b1) := by
  have hlane := not_full_of_flake hf
  show execRdsSyncAcquired source b0 b1 s = _
  simp only [execRdsSyncAcquired, hlane, hf, hst, hp, and_self, if_true]
  rfl

/-- The group under way of a full lane ends where it stands. -/
def endLaneGroup (s : State) (n : Nat) : State :=
  match (demod s n).rds.begun with
  | some b => laneGroup s n (demod s n).rds.part b
  | none => s

/-- The group under way of a flake ends where it stands. -/
def endFlakeGroup (s : State) (n : Nat) : State :=
  match (flake s n).rds.begun with
  | some b => flakeGroup s n (flake s n).rds.part b
  | none => s

theorem laneGroup_syncLoss (s : State) (n : Nat) (g : RdsGroup) (t : Sid) :
    (demod (laneGroup s n g t) n).rds.syncLoss = (demod s n).rds.syncLoss := by
  simp [laneGroup]

theorem flakeGroup_syncLoss (s : State) (n : Nat) (g : RdsGroup) (t : Sid) :
    (flake (flakeGroup s n g t) n).rds.syncLoss = (flake s n).rds.syncLoss := by
  unfold flakeGroup
  dsimp only
  split
  · split
    · simp
    · simp
  · simp

theorem endLaneGroup_syncLoss (s : State) (n : Nat) :
    (demod (endLaneGroup s n) n).rds.syncLoss = (demod s n).rds.syncLoss := by
  unfold endLaneGroup
  split
  · exact laneGroup_syncLoss ..
  · rfl

theorem endFlakeGroup_syncLoss (s : State) (n : Nat) :
    (flake (endFlakeGroup s n) n).rds.syncLoss = (flake s n).rds.syncLoss := by
  unfold endFlakeGroup
  split
  · exact flakeGroup_syncLoss ..
  · rfl

theorem exec_rdsSyncLost_lane (hf : toFull source.toNat = true) (hs : (demod s (source.toNat % 256)).rds.sync = true)
    (hbad : 20 ≤ (demod s (source.toNat % 256)).rds.badRun) :
    let k := source.toNat % 256
    let s1 := endLaneGroup s k
    exec (.rdsSyncLost source) s = .next (putDemod s1 k { demod s1 k with rds := (demod s1 k).rds.lose }) :=
  if_pos ⟨hf, hs, hbad⟩

/-- A flake that has lost synchronisation, with the event of a pinned or AF flake. -/
def flakeLoses (s : State) (n : Nat) : State :=
  let f := flake s n
  let lost := putFlake s n { f with st := .acquiring, rds := f.rds.lose }
  if f.cls = .census then lost else evFlakeOf lost n 1

theorem flake_flakeLoses (s : State) (n : Nat) :
    flake (flakeLoses s n) n = { flake s n with st := .acquiring, rds := (flake s n).rds.lose } := by
  unfold flakeLoses
  dsimp only
  split
  · simp
  · simp

theorem exec_rdsSyncLost_flake (hf : toFlake source.toNat = true) (hst : (flake s (source.toNat % 256)).st = .synced)
    (hbad : 20 ≤ (flake s (source.toNat % 256)).rds.badRun) :
    let k := source.toNat % 256
    exec (.rdsSyncLost source) s = .next (flakeLoses (endFlakeGroup s k) k) :=
  (if_neg fun h => not_full_of_flake hf h.1).trans (if_pos ⟨hf, hst, hbad⟩)

end Sync

/-! ## Censuses, probes and taps (R194, R199–R201) -/

section Taps

variable {s : State} {n : Nat} {t : Sid}

/-- A pass whose steps leave the taps as they were leaves them so. -/
theorem foldl_taps {α : Type} {f : State → α → State} (hf : ∀ q e, (f q e).flurry.taps = q.flurry.taps) (l : List α)
    (s : State) : (l.foldl f s).flurry.taps = s.flurry.taps := by
  induction l generalizing s with
  | nil => rfl
  | cons e l ih => exact (ih (f s e)).trans (hf s e)

theorem freeFlake_taps (s : State) (n : Nat) : (freeFlake s n).flurry.taps = s.flurry.taps := rfl

theorem takeFlake_taps (s : State) (n : Nat) (cls : FlakeClass) (tp freq flags ln : Nat) :
    (takeFlake s n cls tp freq flags ln).flurry.taps = s.flurry.taps := rfl

theorem putFlake_taps (s : State) (n : Nat) (f : Flake) : (putFlake s n f).flurry.taps = s.flurry.taps := rfl

theorem missCarrier_taps (tp : Nat) (s : State) (e : Nat × Flake) : (missCarrier tp s e).flurry.taps = s.flurry.taps := by
  unfold missCarrier
  split_ifs
  · rfl
  · exact putFlake_taps ..
  · rw [evFlakeOf_flurry, freeFlake_taps]
  · exact putFlake_taps ..

theorem serveCarrier_taps (tp : Nat) (s : State) (e : Nat × Int) : (serveCarrier tp s e).flurry.taps = s.flurry.taps := by
  unfold serveCarrier
  split
  · rfl
  · split
    · exact takeFlake_taps ..
    · split
      · split
        · exact takeFlake_taps ..
        · rfl
      · rfl

/-- The tap as a census leaves it. -/
def censused (s : State) (k : Tap) (spectra : List (List (Nat × Nat))) : Tap :=
  { k with
    occupied := occupiedOf s k spectra
    time := s.sid.now
    noRds := (k.noRds.map fun e => (e.1, e.2 - 1)).filter fun e => decide (0 < e.2)
    censusBy := deadline s (le s.flurry.cfg 4 2) }

theorem exec_census {spectra : List (List (Nat × Nat))} (hn : n < 4) (hon : (tap s n).on = true)
    (hp : (tap s n).paused = false) (hc : censusOn s n = true) (hdue : expired s (tap s n).censusBy = true) :
    let stored := putTap (advance s t) n (censused (advance s t) (tap s n) spectra)
    exec (.census n spectra t) s = .next (((occupiedOf (advance s t) (tap s n) spectra).foldl (fun l e => byPower e l) []).foldl
      (serveCarrier n) (stored.flurry.flakes.foldl (missCarrier n) stored)) := by
  have hgoes : ¬(n ≥ 4 ∨ (tap s n).on = false ∨ (tap s n).paused = true ∨ censusOn s n = false ∨
      expired s (tap s n).censusBy = false) := by
    simp [hn, hon, hp, hc, hdue]
  exact if_neg hgoes

theorem exec_tapSettled (hn : n < 4) (hon : (tap s n).on = true) (hp : (tap s n).paused = true)
    (hdue : (tap s n).due = false) (hrun : (zone s (tap s n).zone).st ≠ .paused) (htuned : (zone s (tap s n).zone).st ≠ .off)
    (hlong : (tap s n).resetAt + 40 * secU / 29184000 ≤ (advance s t).sid.now) :
    let q := putTap (advance s t) n { tap s n with paused := false }
    exec (.tapSettled n t) s = .next (q.setFlurry { q.flurry with flakes := s.flurry.flakes.map fun e =>
      if e.2.tap = n ∧ e.2.st = .paused then (e.1, { e.2 with st := .acquiring }) else e }) :=
  if_pos ⟨hn, hon, hp, hdue, hrun, htuned, hlong⟩

end Taps

/-! ## The obligation -/

/-- Settles O20: each occurrence by its lemma above; events, streams and the passes over flakes leave demodulators and taps as
they were. -/
theorem demodulatorAndFlurryOccurrencesAct : Obligations.DemodulatorAndFlurryOccurrencesAct := by
  unfold Obligations.DemodulatorAndFlurryOccurrencesAct
  intro s source n t src k s1
  refine ⟨?carrier, ?pilot, fun m => exec_analogueWindowEnd_lane, ?flakeWindow, fun b0 b1 p => exec_rdsSyncAcquired_lane,
    fun b0 b1 p => exec_rdsSyncAcquired_flake, ?laneLoses, ?flakeLoses, fun blocks hf hr hs => if_pos ⟨hf, hr, hs⟩,
    ?flakeGroup, ?census, ?probe, fun hn hdue => if_pos ⟨hn, hdue⟩, ?settled⟩
  case carrier =>
    intro errors hn hu hst
    exact ⟨_, if_pos ⟨hn, hu, hst⟩, demod_putDemod_self .., fun hlong h =>
      (congrArg _ (demod_putDemod_self ..)).trans (foldl_carrierErr_locks hlong h)⟩
  case pilot =>
    intro errors hn hu hst
    exact ⟨_, if_pos ⟨hn, hu, hst⟩, demod_putDemod_self .., fun hlong h =>
      (congrArg _ (demod_putDemod_self ..)).trans (foldl_pilotErr_locks hlong h)⟩
  case flakeWindow =>
    intro m hw hf hactive
    refine ⟨_, exec_analogueWindowEnd_flake hw hf hactive, ?_⟩
    rw [flake_putFlake_self]
    refine ⟨rfl, rfl, rfl, _, rfl, fun hp => ?_, fun hi => ?_⟩
    · rw [flakeMeasures_invalid, decide_eq_true hp, Bool.or_true]
    · rw [flakeMeasures_invalid, hi, Bool.true_or, Bool.true_or]
  case laneLoses =>
    intro hf hs hbad
    refine ⟨_, exec_rdsSyncLost_lane hf hs hbad, ?_⟩
    rw [demod_putDemod_self, ← endLaneGroup_syncLoss]
    exact ⟨rfl, rfl, rfl⟩
  case flakeLoses =>
    intro hf hst hbad
    refine ⟨_, exec_rdsSyncLost_flake hf hst hbad, ?_⟩
    rw [flake_flakeLoses, ← endFlakeGroup_syncLoss]
    exact ⟨rfl, rfl, rfl⟩
  case flakeGroup =>
    intro blocks hf hst
    exact (if_neg fun h => not_full_of_flake hf h.1).trans (if_pos ⟨hf, hst⟩)
  case census =>
    intro spectra hn hon hp hc hdue
    refine ⟨_, exec_census hn hon hp hc hdue, ?_⟩
    rw [tap_of_taps (foldl_taps (serveCarrier_taps n) ..), tap_of_taps (foldl_taps (missCarrier_taps n) ..), tap_putTap_self]
    rfl
  case probe =>
    intro hn hcls hst hproven hdue
    exact if_pos ⟨hn, hcls, hst, hproven, hdue⟩
  case settled =>
    intro hn hon hp hdue hrun htuned hlong
    refine ⟨_, exec_tapSettled hn hon hp hdue hrun htuned hlong, tap_putTap_self .., fun e he htap hst => ?_⟩
    exact List.mem_map.2 ⟨e, he, if_pos ⟨htap, hst⟩⟩

end Sys2Proof.Machine
end

section
/-! The proof about the following of alternative frequencies (O21). -/

namespace Sys2Proof.Machine

/-! ## What leaves AF following as it was -/

section Left

variable {m : Nat} {s t : State}

theorem afOf_of_afs (h : t.afs = s.afs) : afOf t = afOf s := by
  funext n
  rw [afOf, h, afOf]

theorem Keeps.afOf (h : Keeps m s t) (hm : m.testBit 31 = false) : afOf t = afOf s := afOf_of_afs (h.same .afs hm)

theorem Keeps.lanes (h : Keeps m s t) (hm : m.testBit 25 = false) : t.lanes = s.lanes := h.same .lanes hm

variable (s)

@[simp] theorem evAf_afOf (tgt former : Nat) (a : Af) (inPlace abandoned : Bool) :
    afOf (evAf s tgt former a inPlace abandoned) = afOf s :=
  (evAf_keeps (.refl _ s) (Sub.refl _)).afOf rfl

@[simp] theorem evAf_lane (tgt former : Nat) (a : Af) (inPlace abandoned : Bool) :
    lane (evAf s tgt former a inPlace abandoned) = lane s :=
  (evAf_keeps (.refl _ s) (Sub.refl _)).lane rfl

@[simp] theorem shiftLag_afOf (p : Nat) (d : Int) : afOf (shiftLag s p d) = afOf s :=
  (shiftLag_keeps (.refl _ s) (Sub.refl _)).afOf rfl

@[simp] theorem shiftLag_lane (p : Nat) (d : Int) : lane (shiftLag s p d) = lane s :=
  (shiftLag_keeps (.refl _ s) (Sub.refl _)).lane rfl

@[simp] theorem askFormer_lane (n khz : Nat) : lane (askFormer s n khz) = lane s :=
  (askFormer_keeps (.refl _ s) (Sub.refl _)).lane rfl

@[simp] theorem putAf_lane (n : Nat) (x : Af) : lane (putAf s n x) = lane s := rfl

end Left

/-! ## Requests leave the phase of a switch as it was (R202) -/

section Phase

variable (s : State)

theorem mget_map_snd {α : Type} (f : α → α) (l : List (Nat × α)) (k : Nat) :
    mget (l.map fun e => (e.1, f e.2)) k = (mget l k).map f := by
  induction l with
  | nil => rfl
  | cons e l ih =>
    by_cases h : e.1 = k
    · simp [mget, h]
    · simpa [mget, h] using ih

/-- AF following with no candidate on flake `i`. -/
def unserved (i : Nat) (a : Af) : Af :=
  { a with cands := a.cands.map fun c => if c.flake = some i then { c with flake := none, run := 0 } else c }

theorem unserve_afs (i : Nat) : (unserve s i).afs = s.afs.map fun e => (e.1, unserved i e.2) := rfl

@[simp] theorem unserve_phase (i n : Nat) : (afOf (unserve s i) n).phase = (afOf s n).phase := by
  simp only [afOf, mgetD, unserve_afs, mget_map_snd]
  cases mget s.afs n with
  | none => rfl
  | some x => rfl

@[simp] theorem takeFlake_phase (i : Nat) (cls : FlakeClass) (tp freq flags ln n : Nat) :
    (afOf (takeFlake s i cls tp freq flags ln) n).phase = (afOf s n).phase := unserve_phase s i n

@[simp] theorem putFlake_phase (i : Nat) (f : Flake) (n : Nat) : (afOf (putFlake s i f) n).phase = (afOf s n).phase := rfl

theorem requestFlake_phase (m khz n : Nat) : (afOf (requestFlake s m khz).2 n).phase = (afOf s n).phase := by
  unfold requestFlake
  split
  · rfl
  · dsimp only
    split
    · split
      · simp
      · split
        · simp
        · split
          · simp
          · rfl
    · split
      · simp
      · split
        · simp
        · rfl

theorem addCand_phase (n khz : Nat) : (afOf (addCand s n khz) n).phase = (afOf s n).phase := by
  unfold addCand
  rw [afOf_putAf_self]
  exact requestFlake_phase ..

@[simp] theorem askFormer_phase (n khz : Nat) : (afOf (askFormer s n khz) n).phase = (afOf s n).phase := by
  unfold askFormer
  split
  · exact addCand_phase ..
  · rfl

end Phase

/-! ## `AF_SET` (Table 6-13) -/

section AfSet

variable {s : State} {c : Cmd}

/-- A setting of AF following names spare `sp`. -/
def claimsSpare (sp : Nat) (b : Bytes) : Bool := byteAt b 0 != 0 && byteAt b 1 == sp

/-- Another lane than `n` has spare `sp`, or has asked for it. -/
def spareTaken (s : State) (n sp : Nat) : Bool :=
  s.afs.any fun e => e.1 != n && (claimsSpare sp e.2.cfg || (e.2.next.map (claimsSpare sp)).getD false)

/-- Lane `n` has spare `sp` already. -/
def spareMine (s : State) (n sp : Nat) : Bool := (afOf s n).mode != 0 && (afOf s n).spare == sp

theorem afSetUnit_eq (c : Cmd) (s : State) :
    afSetUnit c s =
      if fullUse s c.inst ≠ 3 ∨ (laneDesignated s c.inst = true ∧ byteAt c.pl 0 ≠ 0) ∨
          (byteAt c.pl 1 ≠ 0xFF ∧ byteAt c.pl 0 ≠ 0 ∧ spareMine s c.inst (byteAt c.pl 1) = false ∧
            ((lane s (0x0300 + byteAt c.pl 1)).st ≠ .idle ∨ spareTaken s c.inst (byteAt c.pl 1) = true)) then badState
      else .busy (putAf s c.inst { afOf s c.inst with next := some c.pl }) := rfl

theorem claimsSpare_false {sp : Nat} {b : Bytes} (h : byteAt b 0 = 0 ∨ byteAt b 1 ≠ sp) : claimsSpare sp b = false := by
  rcases h with h | h
  · simp [claimsSpare, h]
  · simp [claimsSpare, h]

theorem spareTaken_false {n sp : Nat}
    (h : ∀ e ∈ s.afs, e.1 ≠ n → (byteAt e.2.cfg 0 = 0 ∨ byteAt e.2.cfg 1 ≠ sp) ∧
      ∀ b, e.2.next = some b → byteAt b 0 = 0 ∨ byteAt b 1 ≠ sp) : spareTaken s n sp = false := by
  refine List.any_eq_false.2 fun e he hclaim => ?_
  obtain ⟨hother, hnames⟩ := Bool.and_eq_true_iff.1 hclaim
  obtain ⟨hcfg, hnext⟩ := h e he (bne_iff_ne.1 hother)
  rw [claimsSpare_false hcfg, Bool.false_or] at hnames
  cases hb : e.2.next with
  | none => simp [hb] at hnames
  | some b => simp [hb, claimsSpare_false (hnext b hb)] at hnames

/-- The spare may be one that is not wanted, the lane's own, or Idle and no other lane's (R210). -/
theorem afSetUnit_waits (hu : fullUse s c.inst = 3) (hsafe : laneDesignated s c.inst = true → byteAt c.pl 0 = 0)
    (hspare : byteAt c.pl 0 = 0 ∨ byteAt c.pl 1 = 0xFF ∨
      ((afOf s c.inst).mode ≠ 0 ∧ (afOf s c.inst).spare = byteAt c.pl 1) ∨
      ((lane s (0x0300 + byteAt c.pl 1)).st = .idle ∧ ∀ e ∈ s.afs, e.1 ≠ c.inst →
        (byteAt e.2.cfg 0 = 0 ∨ byteAt e.2.cfg 1 ≠ byteAt c.pl 1) ∧
          ∀ b, e.2.next = some b → byteAt b 0 = 0 ∨ byteAt b 1 ≠ byteAt c.pl 1)) :
    afSetUnit c s = .busy (putAf s c.inst { afOf s c.inst with next := some c.pl }) := by
  rw [afSetUnit_eq]
  refine if_neg ?_
  rintro (hne | ⟨hd, hon⟩ | ⟨hsp, hon, hmine, hused⟩)
  · exact hne hu
  · exact hon (hsafe hd)
  · rcases hspare with hoff | hnone | ⟨hmode, hown⟩ | ⟨hidle, hfree⟩
    · exact hon hoff
    · exact hsp hnone
    · simp [spareMine, hmode, hown] at hmine
    · rcases hused with hbusy | htaken
      · exact hbusy hidle
      · exact Bool.false_ne_true ((spareTaken_false hfree).symm.trans htaken)

end AfSet

/-! ## The occurrences of a switch (R207–R211) -/

section Switch

variable {s : State} {n : Nat} {t : Sid}

theorem exec_afRequest_wanted {khz : Nat} (hn : n < 32) (hmode : (afOf s n).mode ≠ 0)
    (hw : (afWanted s n).contains khz = true) :
    exec (.afRequest n khz) s =
      match (afOf s n).cands.find? fun c => c.khz == khz with
      | some c => if c.flake.isSome = true then .next s
          else .next (addCand (putAf s n { afOf s n with cands := (afOf s n).cands.filter fun x => x.khz != khz }) n khz)
      | none => .next (addCand s n khz) := by
  have hgoes : ¬(n ≥ 32 ∨ (afOf s n).mode = 0 ∨ (afWanted s n).contains khz = false) := by
    simp only [hw, Bool.true_eq_false, or_false, not_or]
    exact ⟨Nat.not_le.2 hn, hmode⟩
  exact if_neg hgoes

theorem exec_afFadeStart {b : Nat} (hn : n < 32) (hphase : (afOf s n).phase = .spare (some b))
    (hst : (lane s (0x0300 + (afOf s n).spare)).st = .running)
    (hready : (demod s (afOf s n).spare).pilot = true ∨ (demod s n).pilot = false ∨
      bit (byteAt (demod s n).fm 3) 0 = true ∨ expired s b = true) :
    exec (.afFadeStart n) s = .next (putAf s n
      { afOf s n with phase := .fading (deadline s (msTicks (path s (laneProg s n)).fadeMs)) }) := by
  show execAfFadeStart n s = _
  simp only [execAfFadeStart, hphase]
  refine if_pos ⟨hn, hst, ?_⟩
  simpa only [Bool.or_eq_true, beq_iff_eq, or_assoc] using hready

theorem exec_afSwitchComplete {b : Nat} (hn : n < 32) (hphase : (afOf s n).phase = .fading b) (hdue : expired s b = true)
    (hspare : (afOf s n).spare < 32) : exec (.afSwitchComplete n) s = .next (exchange s n (afOf s n)) := by
  show execAfSwitchComplete n s = _
  simp only [execAfSwitchComplete, hphase]
  exact if_pos ⟨hn, hdue, hspare⟩

theorem exec_afSwitchInPlace (hn : n < 32) (hm : (afOf s n).muted (advance s t) = true)
    (hst : (lane s (0x0300 + n)).st = .running) :
    ∃ q, exec (.afSwitchInPlace n t) s = .next q ∧ (lane q (0x0300 + n)).freq = (afOf s n).target * 1000000 ∧
      (afOf q n).phase = .none := by
  refine ⟨_, if_pos ⟨hn, hm, hst⟩, ?_, ?_⟩
  · simp [resetLane_freq]
  · simp

/-- The spare of a switch by spare has left Settling and Running. -/
def spareGone (s : State) (n : Nat) : Bool :=
  match (afOf s n).phase with
  | .place _ => false
  | _ => !(lane s (0x0300 + (afOf s n).spare)).live

theorem spareGone_of (hphase : ∀ b, (afOf s n).phase ≠ .place b)
    (hgone : (lane s (0x0300 + (afOf s n).spare)).live = false) : spareGone s n = true := by
  unfold spareGone
  split
  · next b h => exact absurd h (hphase b)
  · rw [hgone, Bool.not_false]

theorem exec_afSwitchAbandoned (hn : n < 32) (hphase : (afOf s n).phase ≠ .none)
    (h : (lane s (0x0300 + n)).st ≠ .running ∨ spareGone s n = true) :
    exec (.afSwitchAbandoned n) s = .next (abandonSwitch s n) := if_pos ⟨hn, hphase, h⟩

end Switch

/-! ## The obligation -/

/-- Settles O21: taking a command leaves lanes and AF following as they were, and each occurrence by its lemma above. -/
theorem alternativeFrequencyFollowingActs : Obligations.AlternativeFrequencyFollowingActs := by
  unfold Obligations.AlternativeFrequencyFollowingActs
  intro a s n t k spare
  refine ⟨?afSet, ?request, fun b => exec_afFadeStart, fun b => exec_afSwitchComplete, exec_afSwitchInPlace, ?abandoned,
    ?gaveUp⟩
  case afSet =>
    intro hr hu hsafe hspare
    have hafs : (taken afSetSpec a s).afs = s.afs := by simp
    rw [← fullUse_taken afSetSpec a] at hu
    rw [← laneDesignated_taken afSetSpec a] at hsafe
    rw [← afOf_of_afs hafs] at hspare ⊢
    rw [← lane_taken afSetSpec a, ← hafs] at hspare
    exact exec_busy rfl hr (afSetUnit_waits (c := cmdOf afSetSpec a) hu hsafe hspare)
  case request =>
    intro khz hn hmode hw
    rw [exec_afRequest_wanted hn hmode hw]
    refine ⟨fun hnone => by rw [hnone], fun c hc hfree => ?_⟩
    rw [hc]
    exact if_neg (by simp [hfree])
  case abandoned =>
    intro hn hphase h
    exact exec_afSwitchAbandoned hn hphase (h.imp_right fun ⟨hno, hgone⟩ => spareGone_of hno hgone)
  case gaveUp =>
    intro hn hmode hphase hdue
    refine ⟨_, if_pos ⟨hn, hmode, hphase, hdue⟩, ?_, (evAf_keeps (.refl _ _) (Sub.refl _)).lanes rfl⟩
    rw [evAf_afOf, afOf_putAf_self]
    rfl

end Sys2Proof.Machine
end

section
/-! The proofs about the commands of group 0x06 to ensembles, services, record streams and survey analysis (O24). -/

namespace Sys2Proof.Machine

/-! ## What is read of ensembles, services and survey analysis -/

section Reads

variable {s t : State}

theorem ofdm_of_ofdms (h : t.ofdms = s.ofdms) : ofdm t = ofdm s := by
  funext n
  rw [ofdm, h, ofdm]

theorem survey_of_surveys (h : t.surveys = s.surveys) : survey t = survey s := by
  funext n
  rw [survey, h, survey]

end Reads

section Stored

variable (s : State) (n : Nat)

@[simp] theorem ofdm_putOfdm_self (o : Ofdm) : ofdm (putOfdm s n o) n = o := by
  simp [ofdm, putOfdm, mgetD]

@[simp] theorem survey_putSurvey_self (v : Survey) : survey (putSurvey s n v) n = v := by
  simp [survey, putSurvey, mgetD]

@[simp] theorem markRing_ofdm (b : Bind) : ofdm (markRing s n b) = ofdm s :=
  ofdm_of_ofdms ((markRing_keeps (.refl _ s) (Sub.refl _)).same .ofdms rfl)

@[simp] theorem freeRing_ofdm : ofdm (freeRing s n) = ofdm s :=
  ofdm_of_ofdms ((freeRing_keeps (.refl _ s) (Sub.refl _)).same .ofdms rfl)

@[simp] theorem markRing_survey (b : Bind) : survey (markRing s n b) = survey s :=
  survey_of_surveys ((markRing_keeps (.refl _ s) (Sub.refl _)).same .surveys rfl)

@[simp] theorem freeRing_survey : survey (freeRing s n) = survey s :=
  survey_of_surveys ((freeRing_keeps (.refl _ s) (Sub.refl _)).same .surveys rfl)

end Stored

/-! ## Rings for records (R254) -/

section Rings

variable {s : State} {n : Nat}

/-- Ring `n` is a stream-out ring that is free for records; 0xFF asks for no ring. -/
def AskedRingFree (s : State) (n : Nat) : Prop :=
  n ≠ 0xFF → ∃ r, mget s.rings n = some r ∧ r.kind = .streamOut ∧ r.destroying = none ∧ notForRecords s n = false

theorem AskedRingFree.not_denied (h : AskedRingFree s n) (hn : n ≠ 0xFF) (off : Nat) :
    ringDenied s n off .streamOut (notForRecords s n) = none := by
  obtain ⟨r, hr, hk, hd, hfree⟩ := h hn
  rw [hfree, ringDenied_free hr hk hd]

theorem AskedRingFree.ring (h : AskedRingFree s n) (hn : n ≠ 0xFF) : (mget s.rings n).isSome = true := by
  obtain ⟨r, hr, -⟩ := h hn
  exact Option.isSome_iff_exists.2 ⟨r, hr⟩

theorem markRing_bind (h : (mget s.rings n).isSome = true) (b : Bind) :
    ∃ r, mget (markRing s n b).rings n = some r ∧ r.bind = b := by
  obtain ⟨r, hr⟩ := Option.isSome_iff_exists.1 h
  exact ⟨_, mget_markRing_self hr b, rfl⟩

end Rings

/-! ## What the units read of a state in which their packet has been taken -/

section Taken

variable (sp : CmdSpec) (a : Args) (s : State)

theorem services_taken : (taken sp a s).services = s.services := by simp

theorem ofdm_taken : ofdm (taken sp a s) = ofdm s := ofdm_of_ofdms (by simp)

theorem survey_taken : survey (taken sp a s) = survey s := survey_of_surveys (by simp)

theorem ofdmUse_taken : ofdmUse (taken sp a s) = ofdmUse s := by
  funext n
  rw [ofdmUse, fullUse_taken, ofdmUse]

theorem fastLive_taken : fastLive (taken sp a s) = fastLive s := by
  funext n
  rw [fastLive, ofdmLive, ofdmUse_taken, lane_taken, ofdm_taken, fastLive, ofdmLive]

theorem svcTicks_taken : svcTicks (taken sp a s) = svcTicks s := by
  funext n
  rw [svcTicks, ofdm_taken, fullUse_taken, svcTicks]

theorem progTaken_taken : progTaken (taken sp a s) = progTaken s := by
  have htx : (taken sp a s).tx = s.tx := by simp
  funext p n
  unfold progTaken brkProg
  rw [pathLane_of (lanes_taken sp a s) (demods_taken sp a s), services_taken, htx]

theorem notForRecords_taken : notForRecords (taken sp a s) = notForRecords s := by
  funext n
  simp [notForRecords, laneRingUsed, rdsRingUsed, sapRingUsed]

theorem askedRingFree_taken (n : Nat) : AskedRingFree (taken sp a s) n ↔ AskedRingFree s n := by
  rw [AskedRingFree, rings_taken, notForRecords_taken, AskedRingFree]

theorem ensembleResult_taken : ensembleResult (taken sp a s) = ensembleResult s := by
  funext n
  rw [ensembleResult, ofdm_taken, fullUse_taken, ensembleResult]

theorem serviceListResult_taken : serviceListResult (taken sp a s) = serviceListResult s := by
  have hentry : serviceEntry (taken sp a s) = serviceEntry s := by
    funext n i
    rw [serviceEntry, playingOn, services_taken, serviceEntry, playingOn]
  funext n first maxEnt
  rw [serviceListResult, ofdm_taken, hentry, serviceListResult]

theorem ofdmQualityResult_taken : ofdmQualityResult (taken sp a s) = ofdmQualityResult s := by
  funext n prog
  rw [ofdmQualityResult, ofdm_taken, services_taken, ofdmQualityResult]

end Taken

/-! ## What the units of ensembles and services answer -/

section Ensembles

variable {c : Cmd} {s : State}

theorem ofdmSetUnit_takes (hu : ofdmUse s c.inst = true)
    (hsafe : laneDesignated s c.inst = true → bit (byteAt c.pl 0) 0 = true)
    (hmodes : fullUse s c.inst = 5 → byteAt c.pl 6 ≠ 0) :
    ofdmSetUnit c s = ok (putOfdm s c.inst
      (if fastLive s c.inst = true then { ofdm s c.inst with cfgNext := some c.pl }
        else { ofdm s c.inst with cfg := c.pl, cfgNext := none })) := by
  have hkept : ¬(ofdmUse s c.inst = false ∨ (laneDesignated s c.inst = true ∧ bit (byteAt c.pl 0) 0 = false)) := by
    rintro (hno | ⟨hd, hoff⟩)
    · exact Bool.false_ne_true (hno.symm.trans hu)
    · exact Bool.false_ne_true (hoff.symm.trans (hsafe hd))
  have hmode : ¬(fullUse s c.inst = 5 ∧ byteAt c.pl 6 = 0) := fun ⟨h5, h0⟩ => hmodes h5 h0
  rw [ofdmSetUnit, if_neg hkept, if_neg hmode]
  split
  · rfl
  · rfl

/-- A path that nothing feeds takes a service that the lane has not started yet. -/
theorem serviceStartUnit_waits (hfree : progTaken s (byteAt c.pl 5) 32 = false)
    (hnew : ∀ e ∈ s.services, e.2.lane = c.inst → e.2.sid ≠ le c.pl 0 4) :
    serviceStartUnit c s = .busy (s.setServices (mput s.services (byteAt c.pl 5)
      { lane := c.inst, sid := le c.pl 0 4, comp := byteAt c.pl 4, conceal := byteAt c.pl 6, st := .waiting,
        by_ := deadline s (svcTicks s c.inst), info := none, errRun := 0, goodRun := 0, concealed := 0, meas := none,
        lastPcm := 0 })) := by
  have hstarted : ¬(s.services.any fun e => e.2.lane == c.inst && e.2.sid == le c.pl 0 4) = true := by
    simpa using fun j v hv => hnew (j, v) hv
  simp only [serviceStartUnit, hfree, Bool.false_eq_true, if_false, if_neg hstarted]

theorem serviceStopUnit_ends {v : Service} (hv : mget s.services (byteAt c.pl 0) = some v) (hl : v.lane = c.inst) :
    serviceStopUnit c s = .later stOk 0 [] (endService s c.inst (byteAt c.pl 0) stAbortedHost 0 none) := by
  simp only [serviceStopUnit, hv, if_pos hl]

/-! ### A lane that demodulates OFDM serves its commands (R252) -/

variable (hu : ofdmUse s c.inst = true)
include hu

theorem ensembleGetSpec_unit : ensembleGetSpec.unit c s = okWith (ensembleResult s c.inst) s := if_pos hu

theorem serviceListGetSpec_unit :
    serviceListGetSpec.unit c s = okWith (serviceListResult s c.inst (byteAt c.pl 0) (byteAt c.pl 1)) s := if_pos hu

theorem serviceStartSpec_unit : serviceStartSpec.unit c s = serviceStartUnit c s := if_pos hu

theorem serviceStopSpec_unit : serviceStopSpec.unit c s = serviceStopUnit c s := if_pos hu

theorem ofdmQualityGetSpec_unit :
    ofdmQualityGetSpec.unit c s = okWith (ofdmQualityResult s c.inst (byteAt c.pl 0)) s := if_pos hu

theorem ficStreamSpec_unit :
    ficStreamSpec.unit c s = recStream [1, 2, 3] (.fic c.inst) (fun o => o.fic.map (·.1))
      (fun o b => { o with fic := if b then some (byteAt c.pl 0, byteAt c.pl 1) else none }) c s := if_pos hu

theorem padStreamSpec_unit :
    padStreamSpec.unit c s = recStream [0x10, 0x11, 0x12] (.pad (byteAt c.pl 1)) (fun o => o.pad.map (·.1))
      (fun o b => { o with pad := if b then some (byteAt c.pl 0, byteAt c.pl 1) else none }) c s := if_pos hu

theorem subchStreamSpec_unit :
    subchStreamSpec.unit c s = recStream [4, 5, 6] (.subch c.inst) (fun o => o.subch.map (·.1))
      (fun o b => { o with subch := if b then some (byteAt c.pl 0, byteAt c.pl 1, byteAt c.pl 2) else none }) c s :=
  if_pos hu

end Ensembles

/-! ## Record streams (R254) -/

section RecordStreams

variable {s : State} {c : Cmd}

/-- The demodulator `o` becomes `x`, except that of its records those of `kinds` are counted anew. -/
def countedAnew (kinds : List Nat) (o x : Ofdm) : Ofdm :=
  { x with recSeq := o.recSeq.filter fun e => !kinds.contains e.1, recGap := o.recGap.filter fun k => !kinds.contains k }

/-- Lane `n` becomes `x`, and `old`, the ring that it named before, goes free where no other unit names it. -/
def renameRecRing (s : State) (n : Nat) (kinds : List Nat) (old : Option Nat) (x : Ofdm) : State :=
  let stored := putOfdm s n (countedAnew kinds (ofdm s n) x)
  match old with
  | some k => freeRing stored k
  | none => stored

variable {kinds : List Nat} {mark : Bind} {old : Ofdm → Option Nat} {set : Ofdm → Bool → Ofdm}

theorem ofdm_renameRecRing (s : State) (n : Nat) (kinds : List Nat) (old : Option Nat) (x : Ofdm) :
    ofdm (renameRecRing s n kinds old x) n = countedAnew kinds (ofdm s n) x := by
  unfold renameRecRing
  dsimp only
  split
  · rw [freeRing_ofdm, ofdm_putOfdm_self]
  · exact ofdm_putOfdm_self ..

theorem renameRecRing_ring {k : Nat} (h : (mget s.rings k).isSome = true) (n : Nat) (kinds : List Nat)
    (old : Option Nat) (x : Ofdm) : (mget (renameRecRing s n kinds old x).rings k).isSome = true := by
  unfold renameRecRing
  dsimp only
  split
  · exact freeRing_ring h
  · exact h

/-- The lane as a stream command stores its binding. -/
def withBinding (c : Cmd) (s : State) (set : Ofdm → Bool → Ofdm) : Ofdm := set (ofdm s c.inst) (byteAt c.pl 0 != 0xFF)

theorem recStream_eq (c : Cmd) (s : State) :
    recStream kinds mark old set c s =
      let q := renameRecRing s c.inst kinds (old (ofdm s c.inst)) (withBinding c s set)
      if byteAt c.pl 0 = 0xFF then ok q
      else match ringDenied s (byteAt c.pl 0) 0 .streamOut (notForRecords s (byteAt c.pl 0)) with
        | some r => r
        | none => ok (markRing q (byteAt c.pl 0) mark) := rfl

/-- A lane takes a ring that is free for its records, or lets go of its own. -/
theorem recStream_binds (hring : AskedRingFree s (byteAt c.pl 0)) :
    ∃ q, recStream kinds mark old set c s = ok q ∧
      ofdm q c.inst = countedAnew kinds (ofdm s c.inst) (withBinding c s set) ∧
      (byteAt c.pl 0 ≠ 0xFF → ∃ r, mget q.rings (byteAt c.pl 0) = some r ∧ r.bind = mark) := by
  rw [recStream_eq]
  by_cases hn : byteAt c.pl 0 = 0xFF
  · exact ⟨_, if_pos hn, ofdm_renameRecRing .., fun h => absurd hn h⟩
  · refine ⟨markRing (renameRecRing s c.inst kinds (old (ofdm s c.inst)) (withBinding c s set)) (byteAt c.pl 0) mark,
      ?_, ?_, fun _ => markRing_bind (renameRecRing_ring (hring.ring hn) ..) mark⟩
    · simp only [if_neg hn, hring.not_denied hn]
    · rw [markRing_ofdm, ofdm_renameRecRing]

/-- A stream command of a lane that demodulates OFDM binds its ring, or lets go of its own. -/
theorem exec_recStream {i : Instr} {sp : CmdSpec} {a : Args} (hi : hostCommand i = some (sp, a)) (hr : ready sp a s = true)
    (hunit : sp.unit (cmdOf sp a) (taken sp a s) = recStream kinds mark old set (cmdOf sp a) (taken sp a s))
    (hring : AskedRingFree s (byteAt a.payload 0)) :
    ∃ q, exec i s = .next (answer sp a s stOk 0 [] q) ∧
      ofdm q (a.target.toNat % 256) =
        countedAnew kinds (ofdm s (a.target.toNat % 256)) (withBinding (cmdOf sp a) s set) ∧
      (byteAt a.payload 0 ≠ 0xFF → ∃ r, mget q.rings (byteAt a.payload 0) = some r ∧ r.bind = mark) := by
  rw [← askedRingFree_taken sp a] at hring
  rw [withBinding, ← ofdm_taken sp a s]
  obtain ⟨q, hq, hofdm, hbind⟩ := recStream_binds (c := cmdOf sp a) hring
  exact ⟨q, exec_done hi hr (hunit.trans hq), hofdm, hbind⟩

/-- A binding stored where a ring is asked for, none where it is 0xFF. -/
theorem ite_bne_eq_ite_eq {α : Type} (n k : Nat) (x : α) :
    (if (n != k) = true then some x else none) = if n = k then none else some x := by
  by_cases h : n = k
  · simp [h]
  · simp [h]

end RecordStreams

/-! ## Survey analysis (R247, Table 7-14, R251) -/

section Surveys

variable {c : Cmd} {s : State}

/-- A survey lane has taken a setting: its analysis begins anew, and the ring of the analysis before goes free where no other
unit names it. -/
def surveyTakes (c : Cmd) (s : State) (cfg : Bytes) : State :=
  let stored := putSurvey s c.inst
    { Survey.reset with cfg := cfg, nextBy := deadline s (le c.pl 6 2), tiiEnd := s.sid.now }
  if byteAt (survey s c.inst).cfg 0 ≠ 0 ∧ byteAt (survey s c.inst).cfg 1 ≠ 0xFF then
    freeRing stored (byteAt (survey s c.inst).cfg 1)
  else stored

theorem survey_surveyTakes (c : Cmd) (s : State) (cfg : Bytes) :
    survey (surveyTakes c s cfg) c.inst =
      { Survey.reset with cfg := cfg, nextBy := deadline s (le c.pl 6 2), tiiEnd := s.sid.now } := by
  unfold surveyTakes
  dsimp only
  split
  · rw [freeRing_survey, survey_putSurvey_self]
  · exact survey_putSurvey_self ..

theorem surveyTakes_ring {k : Nat} (h : (mget s.rings k).isSome = true) (c : Cmd) (cfg : Bytes) :
    (mget (surveyTakes c s cfg).rings k).isSome = true := by
  unfold surveyTakes
  dsimp only
  split
  · exact freeRing_ring h
  · exact h

theorem surveySetUnit_ends (h : byteAt c.pl 0 = 0) : surveySetUnit c s = ok (surveyTakes c s (splice c.pl 1 [0xFF])) := by
  simp only [surveySetUnit, surveyTakes, h, beq_self_eq_true, if_true]

section Starts

variable (hon : byteAt c.pl 0 ≠ 0) (hst : (lane s c.tgt).st ≠ .idle)
  (hrate : surveyRateOk (byteAt c.pl 0) (lane s c.tgt).outRate = true)
  (hticks : byteAt c.pl 0 = 1 → surveyTicksOk c.pl (lane s c.tgt).outRate = true)

include hticks in
theorem not_tooShort : ¬(byteAt c.pl 0 = 1 ∧ surveyTicksOk c.pl (lane s c.tgt).outRate = false) :=
  fun ⟨h1, hno⟩ => Bool.false_ne_true (hno.symm.trans (hticks h1))

include hst hrate in
theorem not_unsuited : ¬((lane s c.tgt).st = .idle ∨ surveyRateOk (byteAt c.pl 0) (lane s c.tgt).outRate = false) :=
  not_or.2 ⟨hst, ne_false_of_eq_true hrate⟩

include hon hst hrate hticks

theorem surveySetUnit_unstreamed (hn : byteAt c.pl 1 = 0xFF) :
    surveySetUnit c s = .later stOk 0 [] (surveyTakes c s c.pl) := by
  simp only [surveySetUnit, surveyTakes, beq_eq_false_iff_ne.2 hon, Bool.false_eq_true, if_false,
    if_neg (not_unsuited hst hrate), if_neg (not_tooShort hticks), if_pos hn]

theorem surveySetUnit_streamed (hn : byteAt c.pl 1 ≠ 0xFF) (hring : AskedRingFree s (byteAt c.pl 1)) :
    surveySetUnit c s = .later stOk 0 [] (markRing (surveyTakes c s c.pl) (byteAt c.pl 1) (.survey c.inst)) := by
  simp only [surveySetUnit, surveyTakes, beq_eq_false_iff_ne.2 hon, Bool.false_eq_true, if_false,
    if_neg (not_unsuited hst hrate), if_neg (not_tooShort hticks), if_neg hn, hring.not_denied hn]

/-- A survey lane that has a rate suited to its analysis takes it, and the ring for its records, if it asks for one. -/
theorem surveySetUnit_starts (hring : AskedRingFree s (byteAt c.pl 1)) :
    ∃ q, surveySetUnit c s = .later stOk 0 [] q ∧
      survey q c.inst = { Survey.reset with cfg := c.pl, nextBy := deadline s (le c.pl 6 2), tiiEnd := s.sid.now } ∧
      (byteAt c.pl 1 ≠ 0xFF → ∃ r, mget q.rings (byteAt c.pl 1) = some r ∧ r.bind = .survey c.inst) := by
  by_cases hn : byteAt c.pl 1 = 0xFF
  · exact ⟨_, surveySetUnit_unstreamed hon hst hrate hticks hn, survey_surveyTakes .., fun h => absurd hn h⟩
  · refine ⟨_, surveySetUnit_streamed hon hst hrate hticks hn hring, ?_, fun _ => ?_⟩
    · rw [markRing_survey, survey_surveyTakes]
    · exact markRing_bind (surveyTakes_ring (hring.ring hn) c c.pl) _

end Starts

theorem tiiGetUnit_reads {es : List TiiEntry} (h : (survey s c.inst).tii = some es) :
    tiiGetUnit c s = okWith (leBytes 1 es.length ++ leBytes 1 (es.take (byteAt c.pl 0)).length ++ zeros 6 ++
      leBytes 8 (whenOf (survey s c.inst).tiiEnd).toNat ++ ((es.take (byteAt c.pl 0)).map tiiBytes).flatten) s := by
  simp only [tiiGetUnit, h]

end Surveys

/-! ## The obligation -/

/-- Settles O24: taking a command leaves lanes, ensembles, services, surveys and rings as they were, so each unit answers as on
the state before. -/
theorem ensembleAndSurveyCommandsComplete : Obligations.EnsembleAndSurveyCommandsComplete := by
  unfold Obligations.EnsembleAndSurveyCommandsComplete
  intro a s n b ringFree
  have huse (sp : CmdSpec) (h : ofdmUse s n = true) : ofdmUse (taken sp a s) (cmdOf sp a).inst = true := by
    rwa [ofdmUse_taken]
  refine ⟨?ofdmSet, ?ensembleGet, ?listGet, ?start, ?stop, ?qualityGet, ?fic, ?pad, ?subch, ?surveySet, ?surveyOff,
    ?tiiGet⟩
  case ofdmSet =>
    intro hr hu hsafe hmodes
    rw [← laneDesignated_taken ofdmSetSpec a] at hsafe
    rw [← fullUse_taken ofdmSetSpec a] at hmodes
    rw [← ofdm_taken ofdmSetSpec a, ← fastLive_taken ofdmSetSpec a]
    exact exec_done rfl hr (ofdmSetUnit_takes (c := cmdOf ofdmSetSpec a) (huse ofdmSetSpec hu) hsafe hmodes)
  case ensembleGet =>
    intro hr hu
    rw [← ensembleResult_taken ensembleGetSpec a]
    exact exec_done rfl hr (ensembleGetSpec_unit (huse ensembleGetSpec hu))
  case listGet =>
    intro hr hu
    rw [← serviceListResult_taken serviceListGetSpec a]
    exact exec_done rfl hr (serviceListGetSpec_unit (huse serviceListGetSpec hu))
  case start =>
    intro hr hu hfree hnew
    rw [← progTaken_taken serviceStartSpec a] at hfree
    rw [← services_taken serviceStartSpec a] at hnew ⊢
    rw [← deadline_taken serviceStartSpec a, ← svcTicks_taken serviceStartSpec a]
    exact exec_busy rfl hr ((serviceStartSpec_unit (huse serviceStartSpec hu)).trans
      (serviceStartUnit_waits (c := cmdOf serviceStartSpec a) hfree hnew))
  case stop =>
    intro v hr hu hv hl
    rw [← services_taken serviceStopSpec a] at hv
    exact exec_later rfl hr ((serviceStopSpec_unit (huse serviceStopSpec hu)).trans
      (serviceStopUnit_ends (c := cmdOf serviceStopSpec a) hv hl))
  case qualityGet =>
    intro hr hu
    rw [← ofdmQualityResult_taken ofdmQualityGetSpec a]
    exact exec_done rfl hr (ofdmQualityGetSpec_unit (huse ofdmQualityGetSpec hu))
  case fic =>
    intro hr hu hring
    obtain ⟨q, hexec, hofdm, hbind⟩ :=
      exec_recStream (i := .ficStream a) rfl hr (ficStreamSpec_unit (huse ficStreamSpec hu)) hring
    exact ⟨q, hexec, (congrArg Ofdm.fic hofdm).trans (ite_bne_eq_ite_eq ..), hbind⟩
  case pad =>
    intro hr hu hring
    obtain ⟨q, hexec, hofdm, hbind⟩ :=
      exec_recStream (i := .padStream a) rfl hr (padStreamSpec_unit (huse padStreamSpec hu)) hring
    exact ⟨q, hexec, (congrArg Ofdm.pad hofdm).trans (ite_bne_eq_ite_eq ..), hbind⟩
  case subch =>
    intro hr hu hring
    obtain ⟨q, hexec, hofdm, hbind⟩ :=
      exec_recStream (i := .subchStream a) rfl hr (subchStreamSpec_unit (huse subchStreamSpec hu)) hring
    exact ⟨q, hexec, (congrArg Ofdm.subch hofdm).trans (ite_bne_eq_ite_eq ..), hbind⟩
  case surveySet =>
    intro hr hon hst hrate hticks hring
    rw [← lane_taken surveySetSpec a] at hst hrate hticks
    rw [← deadline_taken surveySetSpec a, ← sid_taken surveySetSpec a]
    obtain ⟨q, hunit, hsurvey, hbind⟩ := surveySetUnit_starts (c := cmdOf surveySetSpec a) hon hst hrate hticks
      ((askedRingFree_taken ..).2 hring)
    exact ⟨q, exec_later rfl hr hunit, hsurvey, hbind⟩
  case surveyOff =>
    intro hr hoff
    rw [← deadline_taken surveySetSpec a, ← sid_taken surveySetSpec a]
    exact ⟨_, exec_done rfl hr (surveySetUnit_ends (c := cmdOf surveySetSpec a) hoff), survey_surveyTakes ..⟩
  case tiiGet =>
    intro es hr htii
    rw [← survey_taken tiiGetSpec a] at htii ⊢
    exact exec_done rfl hr (tiiGetUnit_reads (c := cmdOf tiiGetSpec a) htii)

end Sys2Proof.Machine
end

section
/-! The refutation about ensemble states (O25). -/

namespace Sys2Proof.Machine

/-- The state that a reconfiguration of lane `n` leaves (Table 7-3, R228). -/
def reconfigured (s : State) (n : Nat) (t : Sid) : State :=
  let o := ofdm s n
  let s1 := advance s t
  let s2 := evEns (putOfdm s1 n
    { o with config := o.next.orElse fun _ => o.config, next := none, reconf := false, confTime := s1.sid.now }) n 3
  serveWaiting (s2.services.foldl (reconfOne n o.next) s2) n

theorem exec_reconfiguration {s : State} {n : Nat} {t : Sid} (hn : n < 32) (hu : ofdmUse s n = true)
    (hst : (ofdm s n).st = .configured) (hr : (ofdm s n).reconf = true) (hdue : reconfDue s n = true) :
    exec (.reconfiguration n t) s = .next (reconfigured s n t) := if_pos ⟨hn, hu, hst, hr, hdue⟩

namespace ReconfigurationRefuted

/-- A service with conditional access. -/
def info : ServiceInfo :=
  { sid := 0xD210, comp := 0, kind := 2, subch := 0, bitrate := 0, prot := 0, ca := true, announce := false, label := [],
    clusters := [] }

/-- A DAB lane in Configured whose multiplex reconfigures and whose FIC records go to ring 3. -/
def ensemble : Ofdm :=
  { Ofdm.reset with
    st := .configured, config := some { eid := 0, label := [], nSubch := 1, services := [info] }, reconf := true,
    fic := some (3, 0) }

/-- The service waits on path 5. -/
def service : Service :=
  { lane := 0, sid := 0xD210, comp := 0, conceal := 1, st := .waiting, by_ := 0, info := none, errRun := 0, goodRun := 0,
    concealed := 0, meas := none, lastPcm := 0 }

/-- Its `SERVICE_START`, from the mailbox, is outstanding. -/
def start : InFlight :=
  { cmd := ⟨0x0604, { origin := .mailbox, addr := 0, tag := 1, flags := 0, target := 0x0300, whn := 0,
                      payload := leBytes 4 0xD210 ++ [0, 5, 1, 0, 0, 0, 0, 0] }⟩
    seq := 0, phase := .executing, freed := none, late := false, due := 0, bit := false, firing := none, begun := true,
    outcome := none, evs := [], since := 0 }

/-- A stream-out ring that waits for its destruction. -/
def dying : Ring := { newRing [] with kind := .streamOut, destroying := some (.mailbox, 9) }

def device : State :=
  { State.reset with
    cmds := { State.reset.cmds with list := [start] }
    rings := [(3, dying)]
    lanes := [(0x0300, { Lane.reset with st := .running, cfg := [4] })]
    ofdms := [(0, ensemble)]
    services := [(5, service)] }

theorem reconfigures : ofdmUse device 0 = true ∧ reconfDue device 0 = true := by decide +kernel

theorem ofdm_device : ofdm device 0 = ensemble := rfl

/-- The start of a service with conditional access ends at the reconfiguration (R232), its completion ends the destruction that
waits (R56), and the destroyed ring is bound to the lane no more. -/
theorem binding_lost : (ofdm (reconfigured device 0 0) 0).fic.isNone = true := by decide +kernel

end ReconfigurationRefuted

open ReconfigurationRefuted in
/-- Refutes O25: its clause of reconfiguration gives every field of the demodulator, in every state, those too in which a ring
that its records go to waits for its destruction (in a run only command rings wait so, R56). Where the reconfiguration lets a
`SERVICE_START` complete, that completion ends the wait and takes the lane's binding away. -/
theorem not_ensembleStatesFollowReception : ¬ Obligations.EnsembleStatesFollowReception := by
  unfold Obligations.EnsembleStatesFollowReception
  intro h
  obtain ⟨-, -, -, -, -, -, hreconf, -⟩ := h device 0 0
  obtain ⟨huse, hdue⟩ := reconfigures
  obtain ⟨q, hq, hofdm⟩ := hreconf (by decide) huse (by rw [ofdm_device]; rfl) (by rw [ofdm_device]; rfl) hdue
  rw [exec_reconfiguration (by decide) huse (by rw [ofdm_device]; rfl) (by rw [ofdm_device]; rfl) hdue] at hq
  cases hq
  have hlost := binding_lost
  rw [hofdm] at hlost
  exact absurd hlost (by decide)

end Sys2Proof.Machine
end

section
/-! The proof about services, PAD records and the records of survey analysis (O26). -/

namespace Sys2Proof.Machine

/-! ## What leaves services and time as they were -/

section Left

variable {s t : State}

theorem advance_sid_of (h : t.sid = s.sid) (u : Sid) : (advance t u).sid = (advance s u).sid := by
  simp [advance, h]

variable (s)

theorem emitSubch_services (n : Nat) (te : Sid) (u : MscUnit) : (emitSubch s n te u).services = s.services :=
  (emitSubch_keeps (.refl _ s) (Sub.refl _)).same .services rfl

theorem emitSubch_sid (n : Nat) (te : Sid) (u : MscUnit) : (emitSubch s n te u).sid = s.sid :=
  (emitSubch_keeps (.refl _ s) (Sub.refl _)).sid rfl

@[simp] theorem evSvc_services (n cause prog : Nat) : (evSvc s n cause prog).services = s.services :=
  (evSvc_keeps (.refl _ s) (Sub.refl _)).same .services rfl

@[simp] theorem writePcm_services (prog : Nat) (errored : Bool) (pcm : List (Int × Int)) :
    (writePcm s prog errored pcm).services = s.services :=
  (writePcm_keeps (.refl _ s) (Sub.refl _)).same .services rfl

@[simp] theorem feedRing_survey (n : Nat) (b : Bytes) : survey (feedRing s n b) = survey s :=
  survey_of_surveys ((feedRing_keeps (.refl _ s) (Sub.refl _)).same .surveys rfl)

end Left

/-! ## Transport units (R232, R236, Table 7-7) -/

section Units

variable {s : State} {n prog : Nat} {v : Service}

theorem firstPcm_services (s : State) (n prog : Nat) (v : Service) :
    (firstPcm s n prog v).services =
      mput s.services prog { v with st := .playing, errRun := 0, goodRun := 0, lastPcm := s.sid.now } := by
  unfold firstPcm
  dsimp only
  split
  · simp
  · simp

/-- What a transport unit that is decoded by `now` makes of a service that is not Waiting. -/
def Service.afterUnit (v : Service) (errored : Bool) (now : Sid) : Service :=
  if v.st = .filling then
    if errored = true then v else { v with st := .playing, errRun := 0, goodRun := 0, lastPcm := now }
  else if v.st = .playing then
    if errored = true then
      { v with st := if v.conceal ≤ v.errRun + 1 then .muted else .playing, errRun := v.errRun + 1, goodRun := 0,
               concealed := sat 32 (v.concealed + 1), lastPcm := now }
    else { v with errRun := 0, lastPcm := now }
  else if errored = true then { v with goodRun := 0, concealed := sat 32 (v.concealed + 1), lastPcm := now }
  else if 1 ≤ v.goodRun then { v with st := .playing, errRun := 0, goodRun := 0, lastPcm := now }
  else { v with goodRun := v.goodRun + 1, lastPcm := now }

theorem takeUnit_service (hv : mget s.services prog = some v) (hwaits : v.st ≠ .waiting) (errored : Bool) :
    mget (takeUnit n prog errored v s).services prog = some (v.afterUnit errored s.sid.now) := by
  unfold takeUnit Service.afterUnit
  cases hst : v.st with
  | waiting => exact absurd hst hwaits
  | filling =>
    cases errored with
    | true => exact hv
    | false => simp [firstPcm_services]
  | playing =>
    cases errored with
    | true =>
      by_cases hmutes : v.conceal ≤ v.errRun + 1
      · simp [hmutes]
      · simp [hmutes]
    | false => simp
  | muted =>
    cases errored with
    | true => simp
    | false =>
      by_cases hplays : 1 ≤ v.goodRun
      · simp [hplays]
      · simp [hplays]

/-- The record that the MSC stream takes of a transport unit, if it has one. -/
def streamUnit (s : State) (n : Nat) (te : Sid) : Option MscUnit → State
  | some u => emitSubch s n te u
  | none => s

theorem streamUnit_services (s : State) (n : Nat) (te : Sid) (unit : Option MscUnit) :
    (streamUnit s n te unit).services = s.services := by
  cases unit with
  | none => rfl
  | some u => exact emitSubch_services ..

theorem streamUnit_sid (s : State) (n : Nat) (te : Sid) (unit : Option MscUnit) : (streamUnit s n te unit).sid = s.sid := by
  cases unit with
  | none => rfl
  | some u => exact emitSubch_sid ..

theorem exec_transportUnitDecoded {t : Sid} {errored : Bool} {pcm : List (Int × Int)} {unit : Option MscUnit}
    (hv : mget s.services prog = some v) (hl : v.lane = n) (hlive : ofdmLive s n = true) :
    let s0 := streamUnit (advance s t) n t unit
    exec (.transportUnitDecoded n prog errored pcm unit t) s = .next (if v.st = .waiting then s0
      else writePcm (takeUnit n prog errored v (advance s0 (t + decodeDelay v))) prog errored pcm) := by
  have hruns : ¬ofdmLive s n = false := ne_false_of_eq_true hlive
  show execTransportUnitDecoded n prog errored pcm unit t s = _
  simp only [execTransportUnitDecoded, if_neg hruns, hv, hl, ne_eq, not_true_eq_false, false_or]
  split_ifs
  · rfl
  · rfl

/-- What becomes of a service that is not Waiting depends on the unit and on when it is decoded. -/
theorem exec_transportUnitDecoded_service {t : Sid} {errored : Bool} {pcm : List (Int × Int)} {unit : Option MscUnit}
    (hv : mget s.services prog = some v) (hl : v.lane = n) (hlive : ofdmLive s n = true) (hst : v.st ≠ .waiting) :
    ∃ q, exec (.transportUnitDecoded n prog errored pcm unit t) s = .next q ∧ mget q.services prog =
      some (v.afterUnit errored (advance (advance s t) (t + decodeDelay v)).sid.now) := by
  refine ⟨_, (exec_transportUnitDecoded hv hl hlive).trans (congrArg _ (if_neg hst)), ?_⟩
  have hservice : mget (advance (streamUnit (advance s t) n t unit) (t + decodeDelay v)).services prog = some v := by
    simpa [streamUnit_services] using hv
  rw [writePcm_services, takeUnit_service hservice hst, advance_sid_of (streamUnit_sid ..)]

end Units

/-! ## Labels, texts and objects (R238–R240) -/

section Pad

variable {s : State} {n prog sid : Nat} {t : Sid} (hsid : padSid s n prog = some sid)
include hsid

theorem exec_dynamicLabel (hu : fullUse s n = 4) (charset : Byte) (label tags : Bytes) :
    exec (.dynamicLabel n prog charset label tags t) s =
      .next (emitPad (advance s t) n prog 0x10 false t sid 0 (labelPayload charset label tags)) := by
  show execDynamicLabel n prog charset label tags t s = _
  simp only [execDynamicLabel, hsid, if_pos hu]

theorem exec_drmTextMessage (hu : fullUse s n = 5 ∨ fullUse s n = 6) (charset : Byte) (label : Bytes) :
    exec (.drmTextMessage n prog charset label t) s =
      .next (emitPad (advance s t) n prog 0x12 false t sid 0 (labelPayload charset label [])) := by
  show execDrmTextMessage n prog charset label t s = _
  simp only [execDrmTextMessage, hsid, if_pos hu]

variable {header body : Bytes} {tid : BitVec 16} {first : Sid}

theorem exec_motObject (hu : fullUse s n = 4) :
    exec (.motObject n prog header body tid first t) s = .next (emitMot (advance s t) n prog sid tid t
      (if header.length ≤ 4096 ∧ body.length ≤ 262144 ∧ t ≤ first + 30 * secU then some (header, body) else none)) := by
  show execMotObject n prog header body tid first t s = _
  simp only [execMotObject, hsid, if_pos hu, Bool.and_eq_true, decide_eq_true_eq, and_assoc]

theorem exec_motTimeout (hu : fullUse s n = 4) (hlate : first + 30 * secU ≤ t) :
    exec (.motTimeout n prog tid first t) s = .next (emitMot (advance s t) n prog sid tid t none) := by
  show execMotTimeout n prog tid first t s = _
  simp only [execMotTimeout, hsid, if_pos (And.intro hu hlate)]

end Pad

/-! ## Records of survey analysis (R248–R251) -/

section Surveys

variable {s : State} {n : Nat} {t : Sid}

/-- A record changes nothing of an analysis but its own sequence. -/
theorem emitSurvey_analysis (s : State) (n kind : Nat) (t : Sid) (aux aux2 : Nat) (payload : Bytes) :
    (survey (emitSurvey s n kind t aux aux2 payload) n).tiiEnd = (survey s n).tiiEnd ∧
      (survey (emitSurvey s n kind t aux aux2 payload) n).tii = (survey s n).tii := by
  unfold emitSurvey
  dsimp only
  split
  · exact ⟨rfl, rfl⟩
  · simp

/-- The survey lane with a TII analysis that is complete. -/
def withTii (s : State) (n : Nat) (combs : List TiiComb) (window : Sid) (now : Sid) : Survey :=
  let found := tiiDetected (le (survey s n).cfg 10 2) combs
  { survey s n with
    tii := some (found.map (tiiEntryOf (byteAt (survey s n).cfg 8) window ((found.head?.map (tiiArrival window)).getD 0)))
    tiiEnd := now }

theorem exec_tiiAverageComplete {combs : List TiiComb} {window : Sid} (hruns : surveyRuns s n [2] = true)
    (hlong : (survey s n).tiiEnd + (2 * byteAt (survey s n).cfg 8 - 1) * (48 * secU / 1000) ≤ (advance s t).sid.now) :
    ∃ q, exec (.tiiAverageComplete n combs window t) s = .next q ∧
      (survey q n).tiiEnd = (withTii s n combs window (advance s t).sid.now).tiiEnd ∧
      (survey q n).tii = (withTii s n combs window (advance s t).sid.now).tii := by
  refine ⟨_, if_pos ⟨hruns, hlong⟩, ?_⟩
  split
  · obtain ⟨hend, htii⟩ := emitSurvey_analysis
      (putSurvey (advance s t) n (withTii s n combs window (advance s t).sid.now)) n 0x22 (advance s t).sid.now _ 0 _
    rw [survey_putSurvey_self] at hend htii
    exact ⟨hend, htii⟩
  · rw [survey_putSurvey_self]
    exact ⟨rfl, rfl⟩

end Surveys

/-! ## The obligation -/

/-- Settles O26: a service that waits is left alone by transport units and every other one takes them
(`Service.afterUnit`); each record by its lemma above. -/
theorem servicesPlayAndRecordsAreWritten : Obligations.ServicesPlayAndRecordsAreWritten := by
  unfold Obligations.ServicesPlayAndRecordsAreWritten
  intro s n prog t s1
  refine ⟨?timeout, ?unit, fun _ charset label tags hsid hu => exec_dynamicLabel hsid hu charset label tags,
    fun _ charset label hsid hu => exec_drmTextMessage hsid hu charset label, ?object,
    fun _ _ _ hsid hu hlate => exec_motTimeout hsid hu hlate, fun _ hruns hdue => if_pos ⟨hruns, hdue⟩,
    fun _ hruns hon => if_pos ⟨hruns, hon⟩, fun _ _ hruns hlong => exec_tiiAverageComplete hruns hlong⟩
  case timeout =>
    intro v hv hl hst hdue
    show execServiceTimeout n prog s = _
    simp only [execServiceTimeout, hv, if_pos (And.intro hl (And.intro hst hdue))]
  case unit =>
    intro v errored pcm unit hv hl hlive now
    refine ⟨fun hst => ?_, exec_transportUnitDecoded_service hv hl hlive⟩
    rw [exec_transportUnitDecoded hv hl hlive, if_pos hst]
    rfl
  case object =>
    intro sid header body tid first hsid hu
    refine ⟨fun hh hb ht => ?_, fun hbad => ?_⟩
    · rw [exec_motObject hsid hu, if_pos ⟨hh, hb, ht⟩]
      rfl
    · rw [exec_motObject hsid hu, if_neg fun ⟨hh, hb, ht⟩ => hbad.elim hh.not_gt (·.elim hb.not_gt ht.not_gt)]
      rfl

end Sys2Proof.Machine
end

section
/-! The proofs about the commands of the link table and of programme paths, groups 0x07 and 0x08 (O22). -/

namespace Sys2Proof.Machine

/-! ## What is read of the link table, of paths and of groups -/

section Reads

variable {s t : State}

theorem path_of_paths (h : t.paths = s.paths) : path t = path s := by
  funext p
  rw [path, h, path]

theorem groupOf_of_groups (h : t.groups = s.groups) : groupOf t = groupOf s := by
  funext p
  rw [groupOf, h, groupOf]

theorem freePages_of_paths (h : t.paths = s.paths) : freePages t = freePages s := by
  rw [freePages, h, freePages]

end Reads

/-! ## What the units read of a state in which their packet has been taken -/

section Taken

variable (sp : CmdSpec) (a : Args) (s : State)

theorem links_taken : (taken sp a s).links = s.links := by simp

theorem groups_taken : (taken sp a s).groups = s.groups := by simp

theorem paths_taken : (taken sp a s).paths = s.paths := by simp

theorem path_taken : path (taken sp a s) = path s := path_of_paths (paths_taken sp a s)

theorem groupOf_taken : groupOf (taken sp a s) = groupOf s := groupOf_of_groups (groups_taken sp a s)

theorem freePages_taken : freePages (taken sp a s) = freePages s := freePages_of_paths (paths_taken sp a s)

theorem freeLink_taken : freeLink (taken sp a s) = freeLink s := by
  rw [freeLink, links_taken, freeLink]

theorem oldestBroadcast_taken : oldestBroadcast (taken sp a s) = oldestBroadcast s := by
  rw [oldestBroadcast, links_taken, oldestBroadcast]

theorem linkResult_taken : linkResult (taken sp a s) = linkResult s := by
  funext first maxEnt
  rw [linkResult, links_taken, linkResult]

theorem pathLane_taken : pathLane (taken sp a s) = pathLane s := pathLane_of (lanes_taken sp a s) (demods_taken sp a s)

theorem delivers_taken : delivers (taken sp a s) = delivers s := by
  funext p
  unfold delivers
  rw [services_taken, pathLane_taken, lane_of_lanes (lanes_taken sp a s)]

theorem feedLane_taken : feedLane (taken sp a s) = feedLane s := by
  funext p
  unfold feedLane
  rw [services_taken, pathLane_taken]

theorem pathStd_taken : pathStd (taken sp a s) = pathStd s := by
  funext p
  unfold pathStd
  rw [feedLane_taken, fullUse_taken]

theorem pathIdent_taken : pathIdent (taken sp a s) = pathIdent s := by
  funext p
  unfold pathIdent
  rw [services_taken, pathLane_taken, demod_taken]

theorem linkMatches_taken : linkMatches (taken sp a s) = linkMatches s := by
  funext p e
  unfold linkMatches
  rw [pathStd_taken, pathIdent_taken, feedLane_taken, lane_of_lanes (lanes_taken sp a s)]

theorem hardLinked_taken : hardLinked (taken sp a s) = hardLinked s := by
  funext p q
  rw [hardLinked, links_taken, linkMatches_taken, hardLinked]

theorem memberQ_taken : memberQ (taken sp a s) = memberQ s := by
  funext g p
  unfold memberQ
  rw [delivers_taken, services_taken, ofdm_taken, pathLane_taken, demod_taken]

theorem memberDenied_taken : memberDenied (taken sp a s) = memberDenied s := by
  funext h p
  unfold memberDenied
  rw [pathStd_taken, groups_taken, groupOf_taken]

theorem followResult_taken : followResult (taken sp a s) = followResult s := by
  have hrecord : memberRecord (taken sp a s) = memberRecord s := by
    funext h g m
    rw [memberRecord, memberQ_taken, hardLinked_taken, path_taken, memberRecord]
  funext h
  unfold followResult groupState
  rw [groups_taken, path_taken, hrecord]

theorem tsOthers_taken : tsOthers (taken sp a s) = tsOthers s := by
  funext p
  rw [tsOthers, paths_taken, tsOthers]

theorem tsOldest_taken : tsOldest (taken sp a s) = tsOldest s := by
  funext v
  rw [tsOldest, sid_taken, tsOldest]

end Taken

/-! ## The link table (R260, R287) -/

section LinkTable

variable {c : Cmd} {s : State}

theorem addLink_free {i : Nat} (hi : freeLink s = some i) (e : LinkEntry) : addLink s e = some (i, storeLink s i e) := by
  simp only [addLink, hi]

theorem addLink_full {o : Nat × LinkEntry} (hfull : freeLink s = none) (ho : oldestBroadcast s = some o) (e : LinkEntry) :
    addLink s e = some (o.1, storeLink (evLinkTable s 3 0) o.1 e) := by
  simp only [addLink, hfull, ho]

/-- The entry that a `LINK_ADD` makes. -/
def hostLink (b : Bytes) (now : Sid) : LinkEntry :=
  { set := byteAt b 0, std := byteAt b 1, origin := 4, ident := le b 4 4, freq := le b 8 4, ecc := byteAt b 3,
    hard := bit (byteAt b 2) 0, active := false, ils := false, time := now, ageBy := 0, order := 0, key := none }

theorem linkAddUnit_stores {i : Nat} {q : State} (h : addLink s (hostLink c.pl s.sid.now) = some (i, q)) :
    linkAddUnit c s = okWith (leBytes 4 i) q := by
  rw [hostLink] at h
  simp only [linkAddUnit, h]

/-- Something that is held is named. -/
theorem map_filter_isEmpty {α β : Type} {l : List α} {p : α → Bool} {f : α → β} (h : ∃ e ∈ l, p e = true) :
    ((l.filter p).map f).isEmpty = false := by
  obtain ⟨e, he, hp⟩ := h
  exact List.isEmpty_eq_false_iff_exists_mem.2 ⟨f e, List.mem_map_of_mem (List.mem_filter.2 ⟨he, hp⟩)⟩

theorem linkRemoveUnit_entry (hone : bit (byteAt c.pl 1) 0 = false) (hheld : ∃ e ∈ s.links.entries, e.1 = byteAt c.pl 0) :
    linkRemoveUnit c s =
      ok (((s.links.entries.filter fun e => e.1 == byteAt c.pl 0).map (·.1)).foldl removeLink s) := by
  have hnamed : ((s.links.entries.filter fun e => e.1 == byteAt c.pl 0).map (·.1)).isEmpty = false :=
    map_filter_isEmpty (by simpa only [beq_iff_eq] using hheld)
  simp only [linkRemoveUnit, hone, hnamed, Bool.false_eq_true, if_false]

theorem linkRemoveUnit_set (hset : bit (byteAt c.pl 1) 0 = true) (hheld : ∃ e ∈ s.links.entries, e.2.set = byteAt c.pl 0) :
    linkRemoveUnit c s =
      ok (((s.links.entries.filter fun e => e.2.set == byteAt c.pl 0).map (·.1)).foldl removeLink s) := by
  have hnamed : ((s.links.entries.filter fun e => e.2.set == byteAt c.pl 0).map (·.1)).isEmpty = false :=
    map_filter_isEmpty (by simpa only [beq_iff_eq] using hheld)
  simp only [linkRemoveUnit, hset, hnamed, Bool.false_eq_true, if_false, if_true]

end LinkTable

/-! ## Follow groups (R274, R276, Table 8-4) -/

section Follow

variable {c : Cmd} {s : State}

/-- Member `m` of a group is not the head and is not named by a setting. -/
def notNamed (g : Machine.Group) (b : Bytes) (m : Nat) : Bool := m != 0 && !(namedMembers b).contains (g.member m).path

/-- How the head of a group takes a setting that names paths which may be members. -/
def headTakes (s : State) (h : Nat) (b : Bytes) (g : Machine.Group) : Reply :=
  match g.fade with
  | none => ok (formGroup s h b)
  | some f =>
    if removes g b then
      ok (resolveFade (putGroup s h { g with cfg := b }) h { g with cfg := b } f (notNamed g b f.to_) (notNamed g b f.from_))
    else .busy (putGroup s h { g with held := some b })

section Takes

variable {h : Nat} {b : Bytes} {g : Machine.Group} {f : Fade}

theorem headTakes_unfaded (hf : g.fade = none) : headTakes s h b g = ok (formGroup s h b) := by
  simp only [headTakes, hf]

theorem headTakes_waits (hf : g.fade = some f) (hkept : removes g b = false) :
    headTakes s h b g = .busy (putGroup s h { g with held := some b }) := by
  simp only [headTakes, hf, hkept, Bool.false_eq_true, if_false]

theorem headTakes_removes (hf : g.fade = some f) (hgone : removes g b = true) :
    headTakes s h b g =
      ok (resolveFade (putGroup s h { g with cfg := b }) h { g with cfg := b } f (notNamed g b f.to_)
        (notNamed g b f.from_)) := by
  simp only [headTakes, hf, hgone, if_true]

end Takes

section On

variable (hon : byteAt c.pl 0 ≠ 0) (hself : (namedMembers c.pl).contains c.inst = false) (hdup : (namedMembers c.pl).Nodup)
  (hfree : ∀ p ∈ c.inst :: namedMembers c.pl, memberDenied s c.inst p = false)

include hself hdup hfree in
/-- A setting that names paths which may be members is not refused for them. -/
theorem members_accepted :
    ¬((c.inst :: namedMembers c.pl).any (memberDenied s c.inst) = true ∨ (namedMembers c.pl).contains c.inst = true ∨
      ¬(namedMembers c.pl).Nodup) := by
  rintro (hdenied | hnamed | htwice)
  · obtain ⟨p, hp, hd⟩ := List.any_eq_true.1 hdenied
    exact Bool.false_ne_true ((hfree p hp).symm.trans hd)
  · exact Bool.false_ne_true (hself.symm.trans hnamed)
  · exact htwice hdup

include hon hself hdup hfree

/-- A path of no group forms one, where there are fewer than 8 and its head has the pages. -/
theorem followSetUnit_forms (hnone : mget s.groups c.inst = none) (hno : groupOf s c.inst = none)
    (hroom : s.groups.length < 8)
    (hpages : pagesFor (max (path s c.inst).reserve (msUnits (le c.pl 12 2))) ≤ (path s c.inst).pages + freePages s) :
    followSetUnit c s = ok (formGroup s c.inst c.pl) := by
  simp only [followSetUnit, hnone, hno, if_neg hon, Option.isSome_none, Bool.false_eq_true, and_false, or_false,
    if_neg (members_accepted hself hdup hfree), not_le.2 hroom, not_lt.2 hpages, if_false]

/-- The head of a group has passed the checks of a setting that names paths which may be members. -/
theorem followSetUnit_head {g : Machine.Group} (hg : mget s.groups c.inst = some g) :
    followSetUnit c s = headTakes s c.inst c.pl g := by
  simp only [followSetUnit, hg, if_neg hon, Option.isNone_some, Bool.false_eq_true, false_and, or_false,
    if_neg (members_accepted hself hdup hfree), if_false]
  rfl

end On

section Off

variable (hoff : byteAt c.pl 0 = 0)
include hoff

theorem followSetUnit_idle (hnone : mget s.groups c.inst = none) : followSetUnit c s = ok s := by
  simp only [followSetUnit, hnone, if_pos hoff]

variable {g : Machine.Group} (hg : mget s.groups c.inst = some g)
include hg

theorem followSetUnit_fading (hf : g.fade.isSome = true) :
    followSetUnit c s = .busy (putGroup s c.inst { g with held := some c.pl }) := by
  simp only [followSetUnit, hg, if_pos hoff, if_pos hf]

variable (hf : g.fade = none)
include hf

theorem followSetUnit_fadesHome {m : Nat} (hm : g.active = some (m + 1)) :
    followSetUnit c s = .busy (startFade (putGroup s c.inst { g with held := some c.pl }) c.inst (m + 1) 0
      (decide ((g.member (m + 1)).align ≠ .aligned)) false false) := by
  simp only [followSetUnit, hg, if_pos hoff, hf, Option.isSome_none, Bool.false_eq_true, if_false, hm]

theorem followSetUnit_dissolves (hm : g.active = some 0 ∨ g.active = none) : followSetUnit c s = ok (dissolve s c.inst) := by
  rcases hm with hm | hm <;>
    simp only [followSetUnit, hg, if_pos hoff, hf, Option.isSome_none, Bool.false_eq_true, if_false, hm]

end Off

theorem blendNowUnit_waits {g : Machine.Group} (hg : mget s.groups c.inst = some g) (hf : g.fade = none)
    (hb : g.blendTo = none) (hother : g.active ≠ some (byteAt c.pl 0)) (hused : (g.member (byteAt c.pl 0)).path ≠ 0xFF)
    (hal : bit (byteAt c.pl 1) 0 = false ∨ byteAt c.pl 0 = 0 ∨ (g.member (byteAt c.pl 0)).align = .aligned) :
    blendNowUnit c s = .busy (putGroup s c.inst { g with blendTo := some (byteAt c.pl 0) }) := by
  have hlined : ¬(bit (byteAt c.pl 1) 0 = true ∧ byteAt c.pl 0 ≠ 0 ∧ (g.member (byteAt c.pl 0)).align ≠ .aligned) := by
    rintro ⟨hasked, hmember, hno⟩
    rcases hal with h | h | h
    · exact Bool.false_ne_true (h.symm.trans hasked)
    · exact hmember h
    · exact hno h
  simp only [blendNowUnit, hg, hf, hb, hother, hused, hlined, Option.isSome_none, Bool.false_eq_true, or_self, if_false]

end Follow

/-! ## Equaliser banks (R282, R283) and the time-shift store (R286) -/

section Paths

variable {c : Cmd} {s : State}

/-- A bank takes the pre-gain and the sections of an `EQ_LOAD`. -/
def Bank.load (k : Bank) (b : Bytes) : Bank :=
  { k with pre := if bit (byteAt b 3) 0 then le b 4 4 else k.pre, secs := loadSecs b k.secs }

theorem eqLoadUnit_bankB (hto : byteAt c.pl 0 = 1) (huse : (path s c.inst).useB = false)
    (hswap : (path s c.inst).swap ≠ some true) :
    eqLoadUnit c s = ok (putPath s c.inst
      { path s c.inst with bankB := (path s c.inst).bankB.load c.pl, readyB := deadline s 32 }) := by
  have hidle : ¬((byteAt c.pl 0 == 1) = (path s c.inst).useB ∨ (path s c.inst).swap = some (byteAt c.pl 0 == 1)) := by
    simp [hto, huse, hswap]
  rw [eqLoadUnit, if_neg hidle]
  simp only [hto]
  rfl

theorem eqLoadUnit_bankA (hto : byteAt c.pl 0 = 0) (huse : (path s c.inst).useB = true)
    (hswap : (path s c.inst).swap ≠ some false) :
    eqLoadUnit c s = ok (putPath s c.inst
      { path s c.inst with bankA := (path s c.inst).bankA.load c.pl, readyA := deadline s 32 }) := by
  have hidle : ¬((byteAt c.pl 0 == 1) = (path s c.inst).useB ∨ (path s c.inst).swap = some (byteAt c.pl 0 == 1)) := by
    simp [hto, huse, hswap]
  rw [eqLoadUnit, if_neg hidle]
  simp only [hto]
  rfl

/-- A swap that is pending gives way to the one that command `c` asks for. -/
def swapReplaced (c : Cmd) (s : State) : State :=
  match (path s c.inst).swap with
  | some _ => finishOp s 0x070A c.tgt stSuperseded c.a.tag.toNat [] s.ev.nextId
  | none => s

theorem eqSwapUnit_waits (h : (byteAt c.pl 0 == 1) ≠ (path s c.inst).useB) :
    eqSwapUnit c s = .busy (putPath (swapReplaced c s) c.inst
      { path (swapReplaced c s) c.inst with swap := some (byteAt c.pl 0 == 1), swapBy := deadline s 1 }) :=
  if_neg h

theorem eqSwapUnit_inUse (h : (byteAt c.pl 0 == 1) = (path s c.inst).useB) :
    eqSwapUnit c s = ok (putPath (swapReplaced c s) c.inst { path (swapReplaced c s) c.inst with swap := none }) :=
  if_pos h

theorem tshiftSetUnit_takes (h : tsOthers s c.inst + byteAt c.pl 0 ≤ 128) :
    tshiftSetUnit c s = ok (putPath s c.inst
      { path s c.inst with
        tsPages := byteAt c.pl 0, tsFrom := if (path s c.inst).tsPages = 0 then s.sid.now else (path s c.inst).tsFrom
        store := (path s c.inst).store.take (16384 * byteAt c.pl 0) }) := if_neg h.not_gt

theorem tshiftReadUnit_reads {from_ : Sid} (hfrom : sidOf s.sid.now (BitVec.ofNat 64 (le c.pl 0 8)) = from_) {r : Ring}
    (hpages : (path s c.inst).tsPages ≠ 0) (hold : tsOldest s (path s c.inst) ≤ from_)
    (hnew : from_ + le c.pl 8 4 * secU / 48000 ≤ s.sid.now) (hr : mget s.rings (byteAt c.pl 12) = some r)
    (hk : r.kind = .streamOut) (hd : r.destroying = none) (hb : r.bind = .none) :
    tshiftReadUnit c s = .later stOk 0 [] (tsRecords s c.inst (byteAt c.pl 12) (le c.pl 8 4) from_) := by
  simp only [tshiftReadUnit, hfrom, if_neg (not_or.2 ⟨hpages, hold.not_gt⟩), if_neg hnew.not_gt, hr, hb, ne_eq,
    not_true_eq_false, decide_false, ringDenied_free hr hk hd]

end Paths

/-! ## The obligation -/

/-- Settles O22: taking a command leaves the link table, paths, groups and what feeds them as they were, so each unit answers as
on the state before. -/
theorem linkAndPathCommandsComplete : Obligations.LinkAndPathCommandsComplete := by
  unfold Obligations.LinkAndPathCommandsComplete
  intro a s h b
  refine ⟨?addFree, ?addFull, ?removeEntry, ?removeSet, ?linkGet, ?linkConfig, ?blendSet, ?followOn, ?followOff, ?blendNow,
    ?followGet, ?loadB, ?loadA, ?swap, ?shiftSet, ?shiftRead⟩
  case addFree =>
    intro i hr hi
    rw [← freeLink_taken linkAddSpec a] at hi
    rw [← sid_taken linkAddSpec a]
    exact exec_done rfl hr (linkAddUnit_stores (c := cmdOf linkAddSpec a) (addLink_free hi _))
  case addFull =>
    intro o hr hfull ho
    rw [← freeLink_taken linkAddSpec a] at hfull
    rw [← oldestBroadcast_taken linkAddSpec a] at ho
    rw [← sid_taken linkAddSpec a]
    exact exec_done rfl hr (linkAddUnit_stores (c := cmdOf linkAddSpec a) (addLink_full hfull ho _))
  case removeEntry =>
    intro hr hone hheld
    rw [← links_taken linkRemoveSpec a] at hheld ⊢
    exact exec_done rfl hr (linkRemoveUnit_entry (c := cmdOf linkRemoveSpec a) hone hheld)
  case removeSet =>
    intro hr hset hheld
    rw [← links_taken linkRemoveSpec a] at hheld ⊢
    exact exec_done rfl hr (linkRemoveUnit_set (c := cmdOf linkRemoveSpec a) hset hheld)
  case linkGet =>
    intro hr
    rw [← linkResult_taken linkGetSpec a]
    exact exec_done rfl hr rfl
  case linkConfig =>
    intro hr
    rw [← links_taken linkConfigSpec a]
    exact exec_busy rfl hr rfl
  case blendSet =>
    intro hr
    rw [← path_taken blendSetSpec a]
    exact exec_busy rfl hr rfl
  case followOn =>
    intro hr hon hself hdup hfree
    rw [← memberDenied_taken followSetSpec a] at hfree
    have hhead {g : Machine.Group} (hg : mget s.groups h = some g) :
        followSetUnit (cmdOf followSetSpec a) (taken followSetSpec a s) = headTakes (taken followSetSpec a s) h b g :=
      followSetUnit_head (c := cmdOf followSetSpec a) hon hself hdup hfree (by rwa [groups_taken])
    refine ⟨fun hnone hno hroom hpages => ?_, fun g hg hf => ?_, fun g f hg hf hkept => ?_, fun g f hg hf hgone => ?_⟩
    · rw [← groups_taken followSetSpec a] at hnone hroom
      rw [← groupOf_taken followSetSpec a] at hno
      rw [← path_taken followSetSpec a, ← freePages_taken followSetSpec a] at hpages
      exact exec_done rfl hr (followSetUnit_forms (c := cmdOf followSetSpec a) hon hself hdup hfree hnone hno hroom hpages)
    · exact exec_done rfl hr ((hhead hg).trans (headTakes_unfaded hf))
    · exact exec_busy rfl hr ((hhead hg).trans (headTakes_waits hf hkept))
    · exact exec_done rfl hr ((hhead hg).trans (headTakes_removes hf hgone))
  case followOff =>
    intro hr hoff
    rw [← groups_taken followSetSpec a]
    exact ⟨fun hnone => exec_done rfl hr (followSetUnit_idle (c := cmdOf followSetSpec a) hoff hnone),
      fun g hg hf => exec_busy rfl hr (followSetUnit_fading (c := cmdOf followSetSpec a) hoff hg hf),
      fun g m hg hf hm => exec_busy rfl hr (followSetUnit_fadesHome (c := cmdOf followSetSpec a) hoff hg hf hm),
      fun g hg hf hm => exec_done rfl hr (followSetUnit_dissolves (c := cmdOf followSetSpec a) hoff hg hf hm)⟩
  case blendNow =>
    intro g hr hg hf hb hother hused hal
    rw [← groups_taken blendNowSpec a] at hg
    exact exec_busy rfl hr (blendNowUnit_waits (c := cmdOf blendNowSpec a) hg hf hb hother hused hal)
  case followGet =>
    intro hr
    rw [← followResult_taken followGetSpec a]
    exact exec_done rfl hr rfl
  case loadB =>
    intro hr hto huse hswap
    rw [← path_taken eqLoadSpec a] at huse hswap ⊢
    rw [← deadline_taken eqLoadSpec a]
    exact exec_done rfl hr (eqLoadUnit_bankB (c := cmdOf eqLoadSpec a) hto huse hswap)
  case loadA =>
    intro hr hto huse hswap
    rw [← path_taken eqLoadSpec a] at huse hswap ⊢
    rw [← deadline_taken eqLoadSpec a]
    exact exec_done rfl hr (eqLoadUnit_bankA (c := cmdOf eqLoadSpec a) hto huse hswap)
  case swap =>
    intro hr
    rw [← path_taken eqSwapSpec a, ← deadline_taken eqSwapSpec a]
    exact ⟨fun hne => exec_busy rfl hr (eqSwapUnit_waits (c := cmdOf eqSwapSpec a) hne),
      fun heq => exec_done rfl hr (eqSwapUnit_inUse (c := cmdOf eqSwapSpec a) heq)⟩
  case shiftSet =>
    intro hr hfits
    rw [← tsOthers_taken tshiftSetSpec a] at hfits
    rw [← path_taken tshiftSetSpec a, ← sid_taken tshiftSetSpec a]
    exact exec_done rfl hr (tshiftSetUnit_takes (c := cmdOf tshiftSetSpec a) hfits)
  case shiftRead =>
    intro r hr hpages hold hnew hring hk hd hb
    rw [← tsOldest_taken tshiftReadSpec a] at hold
    rw [← path_taken tshiftReadSpec a] at hpages hold
    rw [← sid_taken tshiftReadSpec a] at hold hnew ⊢
    rw [← rings_taken tshiftReadSpec a] at hring
    exact exec_later rfl hr (tshiftReadUnit_reads (c := cmdOf tshiftReadSpec a) rfl hpages hold hnew hring hk hd hb)

end Sys2Proof.Machine
end

section
/-! The proof about what the link table and programme paths do on their own (O23). -/

namespace Sys2Proof.Machine

/-! ## What leaves paths and groups as they were -/

section Left

variable {s t : State}

theorem memberAt_of_groups (h : t.groups = s.groups) : memberAt t = memberAt s := by
  funext p m
  unfold memberAt
  rw [h]

theorem corrMin_of_groups (h : t.groups = s.groups) : corrMin t = corrMin s := by
  funext p
  rw [corrMin, h, corrMin]

variable (s)

@[simp] theorem path_putPath_self (p : Nat) (v : Machine.Path) : path (putPath s p v) p = v := by
  simp [path, putPath, mgetD]

theorem mget_putGroup_self (h : Nat) (g : Machine.Group) : mget (putGroup s h g).groups h = some g := mget_mput_self ..

@[simp] theorem advance_path (u : Sid) : path (advance s u) = path s := path_of_paths (by simp)

theorem advance_memberAt (u : Sid) : memberAt (advance s u) = memberAt s := memberAt_of_groups (by simp)

@[simp] theorem finishOp_path (op tgt st d : Nat) (r : Bytes) (k : Nat) : path (finishOp s op tgt st d r k) = path s :=
  path_of_paths (by simp)

theorem finishOp_groups (op tgt st d : Nat) (r : Bytes) (k : Nat) : (finishOp s op tgt st d r k).groups = s.groups := by simp

@[simp] theorem evFade_groups (h cause : Nat) (f : Fade) : (evFade s h cause f).groups = s.groups :=
  (evFade_keeps (.refl _ s) (Sub.refl _)).same .groups rfl

theorem retarget_groups (h : Nat) : (retarget s h).groups = s.groups :=
  (retarget_keeps (.refl _ s) (Sub.refl _)).same .groups rfl

theorem trackDelay_groups (p : Nat) (d : Int) : (trackDelay s p d).groups = s.groups :=
  (trackDelay_keeps (.refl _ s) (Sub.refl _)).same .groups rfl

theorem coastAll_sid : (coastAll s).sid = s.sid := (coastAll_keeps (.refl _ s) (Sub.refl _)).sid rfl

end Left

/-! ## The link table and changes of K (R260, R264) -/

section Delays

variable {s : State} {h : Nat} {t : Sid}

theorem exec_linkEntryAged {e : LinkEntry} (he : mget s.links.entries h = some e) (hb : e.broadcast = true)
    (hold : expired s e.ageBy = true) : exec (.linkEntryAged h) s = .next (removeLink s h) := by
  show execLinkEntryAged h s = _
  simp only [execLinkEntryAged, he, if_pos (And.intro hb hold)]

theorem exec_delayChangeStart (hh : h < 24) (hidle : (path s h).changing = false) (hgoal : (path s h).kGoal ≠ (path s h).k)
    (hfade : ∀ g, mget s.groups h = some g → g.fade = none) :
    exec (.delayChangeStart h) s = .next (raise (putPath s h
      { path s h with changing := true, deferred := false, kFrom := (path s h).k, kTick := s.sid.ticks })
      evBlend (0x0600 + h) 8) := by
  have hno : ((mget s.groups h).map fun g => g.fade.isSome).getD false = false := by
    cases hg : mget s.groups h with
    | none => rfl
    | some g => simp [hfade g hg]
  exact if_pos ⟨hh, hidle, hgoal, hno⟩

theorem exec_delayChangeEnd (hh : h < 24) (hchanging : (path s h).changing = true)
    (hover : changeOver (advance s t) h = true) :
    exec (.delayChangeEnd h t) s = .next (raise (followK (putPath (advance s t) h
      { path s h with changing := false, k := (path s h).kGoal }) h) evBlend (0x0600 + h) 9) := by
  rw [← advance_path s t] at hchanging ⊢
  exact if_pos ⟨hh, hchanging, hover⟩

end Delays

/-! ## Members and their sources (R273, Table 8-2) -/

section Sources

variable {s : State}

theorem foldl_startSearch_path (s : State) (h : Nat) (l : List Nat) :
    path (l.foldl (fun q m => startSearch q h m) s) = path s :=
  path_of_paths ((Keeps.foldl (.refl _ s) fun _ _ hq => startSearch_keeps hq (Sub.refl _)).same .paths rfl)

theorem foldl_stopSearch_path (s : State) (h : Nat) (l : List Nat) :
    path (l.foldl (fun q m => stopSearch q h m) s) = path s :=
  path_of_paths ((Keeps.foldl (.refl _ s) fun _ _ hq => stopSearch_keeps hq (Sub.refl _)).same .paths rfl)

/-- Members that start or stop to search leave every path as it was. -/
theorem exec_memberPcmChange {p : Nat} {on : Bool} (hp : p < 24) (hsource : delivers s p = on) (hnew : (path s p).pcm ≠ on) :
    ∃ q, exec (.memberPcmChange p on) s = .next q ∧ path q p = { path s p with pcm := on } := by
  have hgoes : ¬(p ≥ 24 ∨ delivers s p ≠ on ∨ (path s p).pcm = on) := by
    simp only [hsource, hnew, ne_eq, not_true_eq_false, or_self, or_false]
    exact hp.not_ge
  show ∃ q, execMemberPcmChange p on s = .next q ∧ _
  rw [execMemberPcmChange, if_neg hgoes]
  dsimp only
  split
  · exact ⟨_, rfl, path_putPath_self ..⟩
  · split
    · exact ⟨_, rfl, by rw [foldl_startSearch_path, path_putPath_self]⟩
    · exact ⟨_, rfl, by rw [foldl_stopSearch_path, path_putPath_self]⟩

end Sources

/-! ## Coarse search (R267, R268) -/

section Coarse

variable {s : State} {h m : Nat} {v : Member} {r : LagResult}

/-! The start of a window is a variable in the first two of these: with the model's own term in its place the kernel compares
the members field by field and unfolds its seconds to a unary number. -/

theorem Member.align_winAt (v : Member) (now : Sid) : ({ v with winAt := now } : Member).align = v.align := rfl

theorem Member.fine_winAt (v : Member) (now : Sid) : ({ v with winAt := now } : Member).fine = v.fine := rfl

theorem nextWindow_align (s : State) (h : Nat) (v : Member) : (nextWindow s h v).align = v.align := v.align_winAt _

theorem nextWindow_fine (s : State) (h : Nat) (v : Member) : (nextWindow s h v).fine = v.fine := v.fine_winAt _

/-- A coarse window of member `v` has filled and its correlation is judged. -/
def coarseJudged (s : State) (h m : Nat) (v : Member) (r : LagResult) : Host.Outcome State Fault Refusal :=
  if r.quiet then .next (putMember s h m v)
  else if r.ok then
    match setDelay s v.path ((path s h).k - r.lag) with
    | none => .next (noMemory s h m v)
    | some s1 => .next (invertIf (putMember s1 h m
        { v with fine := true, lag := r.lag, corr := r.corr, coarse := 0, told := false }) h m r.negative)
  else if 3 ≤ v.coarse + 1 ∧ v.told = false then
    .next (evAlign (putMember s h m { v with coarse := v.coarse + 1, told := true }) h m 0x14)
  else .next (putMember s h m { v with coarse := v.coarse + 1 })

theorem exec_coarseResult {v0 : Member} {t : Sid} {lm : LagMeasure} (hv0 : memberAt s h m = some v0)
    (hv : nextWindow (advance s t) h v0 = v)
    (hr : judgeLag lm 4096 (searchRange (advance s t) h) 3 (corrMin (advance s t) h) false = r)
    (hal : v.align = .searching) (hfine : v.fine = false) (hdue : v.winAt + 30 * secU / 1000 ≤ (advance s t).sid.now) :
    exec (.coarseResult h m lm t) s = coarseJudged (advance s t) h m v r := by
  have hfull : ¬(v.align ≠ .searching ∨ v.fine = true ∨ (advance s t).sid.now < v.winAt + 30 * secU / 1000) := by
    rintro (hno | hmeasured | hearly)
    · exact hno hal
    · exact Bool.false_ne_true (hfine.symm.trans hmeasured)
    · exact hdue.not_gt hearly
  rw [← advance_memberAt s t] at hv0
  show execCoarseResult h m lm t s = _
  cases hd : setDelay (advance s t) v.path ((path (advance s t) h).k - r.lag) <;>
    simp only [execCoarseResult, hv0, hv, hr, if_neg hfull, coarseJudged, hd]

theorem coarseJudged_quiet (hq : r.quiet = true) : coarseJudged s h m v r = .next (putMember s h m v) := if_pos hq

variable (hq : r.quiet = false)
include hq

theorem coarseJudged_accepted {s2 : State} (hok : r.ok = true) (hd : setDelay s v.path ((path s h).k - r.lag) = some s2) :
    coarseJudged s h m v r = .next (invertIf (putMember s2 h m
      { v with fine := true, lag := r.lag, corr := r.corr, coarse := 0, told := false }) h m r.negative) := by
  simp only [coarseJudged, hq, hok, hd, Bool.false_eq_true, if_false, if_true]

theorem coarseJudged_noMemory (hok : r.ok = true) (hd : setDelay s v.path ((path s h).k - r.lag) = none) :
    coarseJudged s h m v r = .next (noMemory s h m v) := by
  simp only [coarseJudged, hq, hok, hd, Bool.false_eq_true, if_false, if_true]

theorem coarseJudged_rejected (hok : r.ok = false) :
    coarseJudged s h m v r = .next (if 3 ≤ v.coarse + 1 ∧ v.told = false
      then evAlign (putMember s h m { v with coarse := v.coarse + 1, told := true }) h m 0x14
      else putMember s h m { v with coarse := v.coarse + 1 }) := by
  simp only [coarseJudged, hq, hok, Bool.false_eq_true, if_false]
  exact (apply_ite ..).symm

end Coarse

/-! ## The loop and Holding (R269, R270) -/

section Loop

variable {s : State}

@[simp] theorem corrMin_putMember (s : State) (h m : Nat) (v : Member) : corrMin (putMember s h m v) = corrMin s := by
  funext k
  unfold putMember
  split
  · next g hg =>
    by_cases hk : k = h
    · rw [hk, corrMin, mget_putGroup_self, corrMin, hg]
      rfl
    · rw [corrMin, putGroup, State.setGroups_self, mget_mput_of_ne hk, corrMin]
  · rfl

theorem corrMin_coastMember (s : State) (e : Nat × Nat) : corrMin (coastMember s e) = corrMin s := by
  unfold coastMember
  split
  · rfl
  · split
    · rw [corrMin_of_groups (trackDelay_groups ..), corrMin_putMember]
    · rfl

/-- Coasting moves lags and delays, never a setting. -/
theorem corrMin_coastAll (s : State) : corrMin (coastAll s) = corrMin s :=
  List.foldlRecOn (motive := fun q => corrMin q = corrMin s) _ _ rfl fun _ hq _ _ =>
    List.foldlRecOn (motive := fun p => corrMin p = corrMin s) _ _ hq fun _ hp _ _ => (corrMin_coastMember ..).trans hp

/-- The third failure in a row takes an Aligned member to Holding. -/
theorem loopMember_third_failure {h m : Nat} {lm : LagMeasure} {v : Member} (hv : memberAt s h m = some v)
    (hal : v.align = .aligned) (hown : (path s v.path).setAt + 16384 * secU / 48000 ≤ s.sid.now)
    (hhead : (path s h).setAt + 16384 * secU / 48000 ≤ s.sid.now)
    (hq : (judgeLag lm 256 32 4 (corrMin s h) true).quiet = false)
    (hok : (judgeLag lm 256 32 4 (corrMin s h) true).ok = false) (hfails : v.fails = 2) :
    loopMember s (h, m, lm) = evAlign (putMember s h m
      { v with align := .holding, fails := 3, holdBy := deadline s 3200 }) h m 0x11 := by
  have hwhole : ¬(s.sid.now - 16384 * secU / 48000 < (path s v.path).setAt ∨
      s.sid.now - 16384 * secU / 48000 < (path s h).setAt) :=
    not_or.2 ⟨(Nat.le_sub_of_add_le hown).not_gt, (Nat.le_sub_of_add_le hhead).not_gt⟩
  simp only [loopMember, hv, if_neg hwhole, hal, hq, hok, hfails, Bool.false_eq_true, if_false, if_true, and_self, le_refl]

theorem exec_alignLoop (hw : windowDone s 320 = true) (ms : List (Nat × Nat × LagMeasure)) :
    exec (.alignLoop ms) s =
      .next (ms.foldl (fun q e => if e.2.1 < 4 then loopMember q e else loopCandidate q e) (coastAll s)) := if_pos hw

theorem exec_alignLoop_member (hw : windowDone s 320 = true) {m : Nat} (hm : m < 4) (h : Nat) (lm : LagMeasure) :
    exec (.alignLoop [(h, m, lm)]) s = .next (loopMember (coastAll s) (h, m, lm)) := by
  rw [exec_alignLoop hw, List.foldl_cons, List.foldl_nil, if_pos hm]

theorem exec_holdingTimeout {h m : Nat} {v : Member} (hv : memberAt s h m = some v) (hal : v.align = .holding)
    (hdue : expired s v.holdBy = true) :
    exec (.holdingTimeout h m) s = .next (evAlign (putMember s h m (v.search s.sid.now)) h m 0x12) := by
  show execHoldingTimeout h m s = _
  simp only [execHoldingTimeout, hv, if_pos (And.intro hal hdue)]

end Loop

/-! ## Fades (R278–R280, Table 8-4) -/

section Fades

variable {s : State} {h : Nat} {g : Machine.Group} {f : Fade}

/-- A group whose fade `f` has ended. -/
def afterFade (s : State) (g : Machine.Group) (f : Fade) : Machine.Group :=
  { g with fade := none, active := some f.to_, last := s.sid.ticks, fades := g.fades + 1, held := none }

/-- The fade of a group has ended and a `BLEND_NOW` has completed with it; what waited is still to follow. -/
def fadeEnded (s : State) (h : Nat) (g : Machine.Group) (f : Fade) : State :=
  finishOp (evFade (putGroup s h (afterFade s g f)) h 2 f) 0x0707 (0x0600 + h) stOk 0 [] s.ev.nextId

theorem mget_fadeEnded (s : State) (h : Nat) (g : Machine.Group) (f : Fade) :
    mget (fadeEnded s h g f).groups h = some (afterFade s g f) := by
  simp [fadeEnded, mget_putGroup_self]

theorem mget_dissolve (s : State) (h : Nat) : mget (dissolve s h).groups h = none := by
  rw [dissolve, retarget_groups, State.setGroups_self, mget_mdel_self]

section Ends

variable {t : Sid} (hg : mget s.groups h = some g) (hf : g.fade = some f) (hdue : f.stop ≤ (advance s t).sid.now)
include hg hf hdue

theorem exec_groupFadeEnd_alone (hheld : g.held = none) :
    exec (.groupFadeEnd h t) s = .next (fadeEnded (advance s t) h g f) := by
  show execGroupFadeEnd h t s = _
  simp only [execGroupFadeEnd, hg, hf, if_neg hdue.not_gt, hheld]
  rfl

theorem exec_groupFadeEnd_held {b : Bytes} (hheld : g.held = some b) :
    exec (.groupFadeEnd h t) s = .next (finishOp (applyFollow (fadeEnded (advance s t) h g f) h b) 0x0706 (0x0600 + h)
      stOk 0 [] (advance s t).ev.nextId) := by
  show execGroupFadeEnd h t s = _
  simp only [execGroupFadeEnd, hg, hf, if_neg hdue.not_gt, hheld]
  rfl

/-- The new member is active, and a group whose end waited for the fade is gone. -/
theorem exec_groupFadeEnd :
    ∃ q, exec (.groupFadeEnd h t) s = .next q ∧
      (g.held = none → mget q.groups h = some (afterFade (advance s t) g f)) ∧
      (∀ b, g.held = some b → byteAt b 0 = 0 → mget q.groups h = none) := by
  cases hheld : g.held with
  | none => exact ⟨_, exec_groupFadeEnd_alone hg hf hdue hheld, fun _ => mget_fadeEnded .., fun _ hb => nomatch hb⟩
  | some b =>
    refine ⟨_, exec_groupFadeEnd_held hg hf hdue hheld, nofun, fun b' hb hoff => ?_⟩
    cases hb
    rw [applyFollow, if_pos hoff, finishOp_groups, mget_dissolve]

end Ends

section Guard

variable {ticks : List (Int × Int × Int)} (hlost : guardLost s h ticks = true)
include hlost

/-- Correlation is lost in an aligned fade: it turns round or completes, and the incoming member holds. -/
theorem exec_fadeGuardLoss_group (hg : mget s.groups h = some g) (hf : g.fade = some f) (hal : f.unalign = false) :
    exec (.fadeGuardLoss h ticks) s = .next (guardHolds
      (if s.sid.now + s.sid.now < f.start + f.stop then evFade (putGroup s h { g with fade := some (reverseFade s f) }) h 3 f
        else evFade s h 4 f) h f.to_) := by
  show execFadeGuardLoss h ticks s = _
  simp only [execFadeGuardLoss, hlost, hg, Option.bind_some, hf, hal, Bool.true_eq_false, Bool.false_eq_true, if_false]

/-- Where no group fades, it is lost in a switch of AF following. -/
theorem exec_fadeGuardLoss_switch {n : Nat} (hno : ∀ g, mget s.groups h = some g → g.fade = none)
    (hn : afFadeOn s h = some n) (hal : (afOf s n).unalign = false) :
    exec (.fadeGuardLoss h ticks) s = .next (abandonSwitch s n) := by
  have hfade : (mget s.groups h).bind (·.fade) = none := Option.bind_eq_none_iff.2 hno
  show execFadeGuardLoss h ticks s = _
  simp only [execFadeGuardLoss, hlost, hfade, hn, hal, Bool.true_eq_false, Bool.false_eq_true, if_false]

end Guard

theorem exec_fadeHappening (hg : mget s.groups h = some g) (hf : g.fade = some f) :
    exec (.fadeHappening h) s =
      .next (resolveFade s h g f (!delivers s (g.member f.to_).path) (!delivers s (g.member f.from_).path)) := by
  show execFadeHappening h s = _
  simp only [execFadeHappening, hg, Option.bind_some, hf]

theorem resolveFade_inGone (s : State) (h : Nat) (g : Machine.Group) (f : Fade) :
    resolveFade s h g f true false = evFade (putGroup s h { g with fade := some (reverseFade s f) }) h 5 f := by
  simp only [resolveFade, Bool.false_eq_true, and_false, if_false, if_true]

theorem resolveFade_outGone (s : State) (h : Nat) (g : Machine.Group) (f : Fade) :
    resolveFade s h g f false true = evFade (putGroup s h
      { g with fade := some { f with stop := min f.stop (s.sid.now + 5 * 1000000 * 65536) } }) h 6 f := by
  simp only [resolveFade, Bool.false_eq_true, false_and, if_false, if_true]

/-- With both members gone and no setting waiting, the group is muted. -/
theorem mget_resolveFade_bothGone (s : State) (h : Nat) (f : Fade) (hheld : g.held = none) :
    mget (resolveFade s h g f true true).groups h = some { g with fade := none, active := none } := by
  simp [resolveFade, hheld, mget_putGroup_self]

end Fades

/-! ## Bank swaps (R283, R284) -/

theorem exec_eqSwapEffect {s : State} {p : Nat} {t : Sid} {b : Bool} (hp : p < 24) (hswap : (path s p).swap = some b)
    (hby : expired s (path s p).swapBy = true)
    (hready : expired s (if b then (path s p).readyB else (path s p).readyA) = true) (hfading : pathFading s p = false)
    (hdue : ((executing s 0x070A (0x0600 + p)).map (·.due)).getD 0 ≤ (advance s t).sid.now) :
    ∃ q, exec (.eqSwapEffect p t) s = .next q ∧ path q p = { path s p with useB := b, swap := none, bankFade := 64 } := by
  show ∃ q, execEqSwapEffect p t s = .next q ∧ _
  simp only [execEqSwapEffect, hswap]
  refine ⟨_, if_pos ⟨hp, hby, hready, hdue, hfading⟩, ?_⟩
  rw [finishOp_path, path_putPath_self, advance_path]

/-! ## The obligation -/

/-- Settles O23: each occurrence by its lemma above; what time does not change is read of the state before. -/
theorem linkAndPathOccurrencesAct : Obligations.LinkAndPathOccurrencesAct := by
  unfold Obligations.LinkAndPathOccurrencesAct
  intro s h m t s1
  refine ⟨fun _ => exec_linkEntryAged, exec_delayChangeStart, exec_delayChangeEnd, fun _ => exec_memberPcmChange, ?coarse,
    exec_alignLoop, ?holding, fun _ => exec_holdingTimeout, fun hpages => if_neg hpages, fun _ _ => exec_groupFadeEnd, ?guard,
    fun _ _ hlost => exec_fadeGuardLoss_switch hlost, ?happening, fun _ => exec_eqSwapEffect⟩
  case coarse =>
    intro lm v0 hv hal hfine v r hdue
    have hexec : exec (.coarseResult h m lm t) s = coarseJudged s1 h m v r :=
      exec_coarseResult hv rfl rfl ((nextWindow_align s1 h v0).trans hal) ((nextWindow_fine s1 h v0).trans hfine) hdue
    rw [hexec, ← advance_path s t]
    exact ⟨coarseJudged_quiet, fun s2 hq hok hd => coarseJudged_accepted hq hok hd, coarseJudged_noMemory,
      coarseJudged_rejected⟩
  case holding =>
    intro lm v hw hm hv hal hown hhead r hq hok hfails
    rw [← coastAll_sid] at hown hhead
    simp only [r, ← corrMin_coastAll s] at hq hok
    rw [exec_alignLoop_member hw hm, loopMember_third_failure hv hal hown hhead hq hok hfails,
      deadline_of_sid (coastAll_sid s)]
  case guard =>
    intro g f ticks hlost hg hf hal
    rw [exec_fadeGuardLoss_group hlost hg hf hal]
    exact ⟨fun hbefore => by rw [if_pos hbefore], fun hafter => by rw [if_neg hafter.not_gt]⟩
  case happening =>
    intro g f hg hf
    rw [exec_fadeHappening hg hf]
    refine ⟨fun hin hout => ?_, fun hin hout => ?_, fun hin hout hheld => ?_⟩
    · rw [hin, hout, Bool.not_false, Bool.not_true, resolveFade_inGone]
    · rw [hin, hout, Bool.not_false, Bool.not_true, resolveFade_outGone]
    · rw [hin, hout, Bool.not_false]
      exact ⟨_, rfl, mget_resolveFade_bothGone s h f hheld⟩

end Sys2Proof.Machine
end

section
/-! The proofs about the commands of group 0x08 to the serial audio ports (O27). -/

namespace Sys2Proof.Machine

/-! ## What is read and stored of a port -/

theorem sap_of_saps {s t : State} (h : t.saps = s.saps) : sap t = sap s := by
  funext n
  rw [sap, h, sap]

theorem Keeps.sap {m : Nat} {s t : State} (h : Keeps m s t) (hm : m.testBit 38 = false) : sap t = sap s :=
  sap_of_saps (h.same .saps hm)

@[simp] theorem sap_putSap_self (s : State) (n : Nat) (p : Sap) : sap (putSap s n p) n = p := by
  simp [sap, putSap, mgetD]

section Taken

variable (sp : CmdSpec) (a : Args) (s : State)

theorem sap_taken : sap (taken sp a s) = sap s := sap_of_saps (by simp)

theorem sapBuffered_taken : sapBuffered (taken sp a s) = sapBuffered s := by
  funext n
  rw [sapBuffered, sap_taken, sapBuffered]

theorem sapResult_taken : sapResult (taken sp a s) = sapResult s := by
  funext n
  rw [sapResult, sap_taken, sid_taken, sapResult]

end Taken

/-! ## What a completion leaves of a port (R56) -/

/-- What moves a port, from one frame to the next: `q` has it as `p` has. -/
structure SameRun (p q : Sap) : Prop where
  st : q.st = p.st
  last : q.last = p.last
  rate : q.rate = p.rate
  waitTold : q.waitTold = p.waitTold
  dropped : q.dropped = p.dropped
  slipDrop : q.slipDrop = p.slipDrop
  slipRep : q.slipRep = p.slipRep

/-- The settings in force, the stop that is under way and the places of the FIFOs are the same too. -/
structure SameFrame (p q : Sap) : Prop extends SameRun p q where
  cfg : q.cfg = p.cfg
  stopTo : q.stopTo = p.stopTo
  rd : q.rd = p.rd
  inWr : q.inWr = p.inWr

theorem SameRun.trans {p q r : Sap} (h : SameRun p q) (k : SameRun q r) : SameRun p r where
  st := k.st.trans h.st
  last := k.last.trans h.last
  rate := k.rate.trans h.rate
  waitTold := k.waitTold.trans h.waitTold
  dropped := k.dropped.trans h.dropped
  slipDrop := k.slipDrop.trans h.slipDrop
  slipRep := k.slipRep.trans h.slipRep

namespace SameFrame

variable {p q r : Sap} {n : Nat}

theorem refl (p : Sap) : SameFrame p p := ⟨⟨rfl, rfl, rfl, rfl, rfl, rfl, rfl⟩, rfl, rfl, rfl, rfl⟩

theorem of_eq (h : q = p) : SameFrame p q := h ▸ .refl p

theorem trans (h : SameFrame p q) (k : SameFrame q r) : SameFrame p r where
  toSameRun := h.toSameRun.trans k.toSameRun
  cfg := k.cfg.trans h.cfg
  stopTo := k.stopTo.trans h.stopTo
  rd := k.rd.trans h.rd
  inWr := k.inWr.trans h.inWr

theorem foldl {α : Type} {f : State → α → State} (hf : ∀ s a, SameFrame (sap s n) (sap (f s a) n)) (l : List α) (s : State) :
    SameFrame (sap s n) (sap (l.foldl f s) n) := by
  induction l generalizing s with
  | nil => exact .refl _
  | cons a l ih => exact (hf s a).trans (ih _)

end SameFrame

/-- Port `p` without ring `k`, which was destroyed. -/
def Sap.without (k : Nat) (p : Sap) : Sap := { p with cap := unring k id p.cap, play := unring k id p.play }

theorem Sap.without_port (k : Nat) (p : Sap) : SameFrame p (p.without k) :=
  ⟨⟨rfl, rfl, rfl, rfl, rfl, rfl, rfl⟩, rfl, rfl, rfl, rfl⟩

theorem unbindRing_saps (s : State) (k : Nat) : (unbindRing s k).saps = s.saps.map fun e => (e.1, e.2.without k) := rfl

theorem sap_unbindRing (s : State) (k n : Nat) : sap (unbindRing s k) n = (sap s n).without k := by
  rw [sap, mgetD, unbindRing_saps, mget_map_snd, sap, mgetD]
  cases mget s.saps n with
  | none => rfl
  | some p => rfl

theorem dropRing_port (s : State) (k n : Nat) : SameFrame (sap s n) (sap (dropRing s k) n) := by
  unfold dropRing
  split
  · exact .refl _
  · rw [sap_unbindRing]
    exact Sap.without_port ..

theorem sap_complete1 (s : State) (f : InFlight) (st d : Nat) (r : Bytes) (t : Sid) (k : Nat) :
    sap (complete1 s f st d r t k) = sap s :=
  (complete1_keeps (.refl _ s) (Sub.refl _)).sap rfl

theorem finishDestroy_port (n : Nat) (s : State) (e : Nat × Machine.Ring) :
    SameFrame (sap s n) (sap (finishDestroy s e) n) := by
  unfold finishDestroy
  split
  · exact .refl _
  · split
    · exact .refl _
    · split
      · exact dropRing_port ..
      · exact sap_complete1 s _ _ _ _ _ _ ▸ dropRing_port _ _ n

theorem complete_port (s : State) (f : InFlight) (st d : Nat) (r : Bytes) (t : Sid) (k n : Nat) :
    SameFrame (sap s n) (sap (complete s f st d r t k) n) :=
  sap_complete1 s f st d r t k ▸ SameFrame.foldl (finishDestroy_port n) _ _

theorem finishOp_port (s : State) (op tgt st d : Nat) (r : Bytes) (k n : Nat) :
    SameFrame (sap s n) (sap (finishOp s op tgt st d r k) n) := by
  unfold finishOp
  split
  · exact complete_port ..
  · exact .refl _

/-! ## Settings (R289, R303, R307, Table 9-7) -/

section Settings

variable {c : Cmd} {s : State}

theorem supersede_port (s : State) (op n tag : Nat) : SameFrame (sap s n) (sap (supersede s op n tag) n) := finishOp_port ..

/-- Whatever a `SAP_SET` supersedes, the port stays in its state. -/
theorem supersedeAll_st (s : State) (n tag : Nat) : (sap (supersedeAll s n tag) n).st = (sap s n).st := by
  have hsup {b : Bool} (op : Nat) (q : State) : (sap (if b then supersede q op n tag else q) n).st = (sap q n).st := by
    split
    · exact (supersede_port ..).st
    · rfl
  unfold supersedeAll
  rw [sap_putSap_self]
  exact (supersede_port ..).st.trans ((hsup _ _).trans (hsup _ _))

theorem sapSetUnit_off_disabled (hst : (sap s c.inst).st = .off) (hen : bit (byteAt c.pl 0) 0 = false) :
    let u := supersedeAll s c.inst c.a.tag.toNat
    sapSetUnit c s = ok (putSap u c.inst { sap u c.inst with cfg := c.pl }) := by
  rw [← supersedeAll_st s _ c.a.tag.toNat] at hst
  simp [sapSetUnit, hst, hen]

theorem sapSetUnit_disables (hst : (sap s c.inst).st = .waiting ∨ (sap s c.inst).st = .clockLost)
    (hen : bit (byteAt c.pl 0) 0 = false) : sapSetUnit c s = ok (sapOff (supersedeAll s c.inst c.a.tag.toNat) c.inst c.pl) := by
  rw [← supersedeAll_st s _ c.a.tag.toNat] at hst
  rcases hst with hst | hst
  · simp [sapSetUnit, hst, hen]
  · simp [sapSetUnit, hst, hen]

theorem sapSetUnit_waits (hst : (sap s c.inst).st = .off ∨ (sap s c.inst).st = .waiting ∨
    ((sap s c.inst).st = .clockLost ∧ bclkController c.pl = true)) (hen : bit (byteAt c.pl 0) 0 = true) :
    sapSetUnit c s = .busy (sapWaits (supersedeAll s c.inst c.a.tag.toNat) c.inst c.pl) := by
  rw [← supersedeAll_st s _ c.a.tag.toNat] at hst
  rcases hst with hst | hst | ⟨hst, hctl⟩
  · simp [sapSetUnit, hst, hen]
  · simp [sapSetUnit, hst, hen]
  · simp [sapSetUnit, hst, hen, hctl]

theorem sapSetUnit_clockLost_stops (hst : (sap s c.inst).st = .clockLost) (hen : bit (byteAt c.pl 0) 0 = true)
    (hext : bclkController c.pl = false) :
    sapSetUnit c s = .busy (sapStops (supersedeAll s c.inst c.a.tag.toNat) c.inst c.pl) := by
  rw [← supersedeAll_st s _ c.a.tag.toNat] at hst
  simp [sapSetUnit, hst, hen, hext]

theorem Sap.runs_iff {p : Sap} : p.runs = true ↔ p.st = .running ∨ p.st = .remeasuring := by
  simp [Sap.runs]

theorem sapSetUnit_stops (hruns : (sap s c.inst).runs = true) :
    sapSetUnit c s = .busy (sapStops (supersedeAll s c.inst c.a.tag.toNat) c.inst c.pl) := by
  rw [Sap.runs_iff, ← supersedeAll_st s _ c.a.tag.toNat] at hruns
  rcases hruns with hst | hst
  · simp [sapSetUnit, hst]
  · simp [sapSetUnit, hst]

end Settings

/-! ## Routes and masks (R302) -/

section Buffered

variable {c : Cmd} {s : State}

/-- The handshake has begun, and a setting of opcode `op` that waited is superseded. -/
def handed (c : Cmd) (s : State) (op : Nat) (held : Option Bytes) : State :=
  if held.isSome then supersede (handshake s c.inst).2 op c.inst c.a.tag.toNat else (handshake s c.inst).2

theorem sapRouteUnit_now (h : sapBuffered s c.inst = false) :
    sapRouteUnit c s = ok (putSap s c.inst { sap s c.inst with route := c.pl }) := if_pos h

theorem sapRouteUnit_waits (h : sapBuffered s c.inst = true) :
    let u := handed c s 0x0802 (sap s c.inst).routePend
    sapRouteUnit c s =
      .busy (putSap u c.inst { sap u c.inst with routePend := some c.pl, routeFrom := (handshake s c.inst).1 }) :=
  if_neg (by simp [h])

theorem sapMaskUnit_of_slots (hin : le c.pl 0 2 < 2 ^ (sap s c.inst).slots) (hout : le c.pl 2 2 < 2 ^ (sap s c.inst).slots) :
    let u := handed c s 0x0803 (sap s c.inst).maskPend
    sapMaskUnit c s = if sapBuffered s c.inst = false then
        ok (putSap s c.inst { sap s c.inst with cfg := splice (sap s c.inst).cfg 8 c.pl })
      else .busy (putSap u c.inst { sap u c.inst with maskPend := some c.pl, maskFrom := (handshake s c.inst).1 }) :=
  (if_neg hin.not_ge).trans (if_neg hout.not_ge)

end Buffered

/-! ## Rings of a port (R307, R308) -/

section Streams

variable {c : Cmd} {s : State} {n v : Nat} {k : RingKind} {d : Bind}

/-- Ring `v` is one of kind `k` that carries nothing else than `d`; 0xFF asks for no ring. -/
def PortRingFree (s : State) (v : Nat) (k : RingKind) (d : Bind) : Prop :=
  v = 0xFF ∨ ∃ r, mget s.rings v = some r ∧ r.kind = k ∧ r.destroying = none ∧ (r.bind = .none ∨ r.bind = d)

theorem portRingTaken_of_bind {r : Machine.Ring} (hr : mget s.rings v = some r) (hb : r.bind = .none ∨ r.bind = d) :
    portRingTaken s n v d = false := by
  rcases hb with hb | hb
  · simp [portRingTaken, hr, hb]
  · simp [portRingTaken, hr, hb]

theorem PortRingFree.not_denied (h : PortRingFree s v k d) (i : Nat) :
    (if v = 0xFF then none else ringDenied s v i k (portRingTaken s n v d)) = none := by
  rcases h with hnone | ⟨r, hr, hk, hd, hb⟩
  · rw [if_pos hnone]
  · rw [portRingTaken_of_bind hr hb, ringDenied_free hr hk hd, ite_self]

theorem sapStreamUnit_free (hcap : PortRingFree s (byteAt c.pl 0) .streamOut (.sapCapture c.inst))
    (hplay : PortRingFree s (byteAt c.pl 1) .streamIn (.sapPlay c.inst)) :
    sapStreamUnit c s = if (sap s c.inst).st = .clockLost then .busy s else ok (bindPort s c.inst c.pl) := by
  unfold sapStreamUnit
  simp only [hcap.not_denied, hplay.not_denied]

end Streams

/-! ## The obligation -/

/-- Settles O27: taking a command leaves ports and rings as they were, so each unit answers as on the state before. -/
theorem audioPortCommandsComplete : Obligations.AudioPortCommandsComplete := by
  unfold Obligations.AudioPortCommandsComplete
  intro a s
  refine ⟨?set, ?route, ?masks, ?stream, ?get⟩
  case set =>
    intro hr
    rw [← sap_taken sapSetSpec a s]
    exact ⟨fun hst hen => exec_done rfl hr (sapSetUnit_off_disabled (c := cmdOf sapSetSpec a) hst hen),
      fun hst hen => exec_done rfl hr (sapSetUnit_disables (c := cmdOf sapSetSpec a) hst hen),
      fun hst hen => exec_busy rfl hr (sapSetUnit_waits (c := cmdOf sapSetSpec a) hst hen),
      fun hst hen hext => exec_busy rfl hr (sapSetUnit_clockLost_stops (c := cmdOf sapSetSpec a) hst hen hext),
      fun hruns => exec_busy rfl hr (sapSetUnit_stops (c := cmdOf sapSetSpec a) hruns)⟩
  case route =>
    intro hr
    rw [← sapBuffered_taken sapRouteSpec a s, ← sap_taken sapRouteSpec a s]
    exact ⟨fun hnow => exec_done rfl hr (sapRouteUnit_now (c := cmdOf sapRouteSpec a) hnow),
      fun hheld => exec_busy rfl hr (sapRouteUnit_waits (c := cmdOf sapRouteSpec a) hheld)⟩
  case masks =>
    intro hr hin hout
    rw [← sap_taken sapMaskSetSpec a s] at hin hout ⊢
    rw [← sapBuffered_taken sapMaskSetSpec a s]
    have hunit := sapMaskUnit_of_slots (c := cmdOf sapMaskSetSpec a) hin hout
    exact ⟨fun hnow => exec_done rfl hr (hunit.trans (if_pos hnow)),
      fun hheld => exec_busy rfl hr (hunit.trans (if_neg (ne_false_of_eq_true hheld)))⟩
  case stream =>
    intro hr hcap hplay
    rw [← rings_taken sapStreamSpec a s] at hcap hplay
    rw [← sap_taken sapStreamSpec a s]
    have hunit := sapStreamUnit_free (c := cmdOf sapStreamSpec a) hcap hplay
    exact ⟨fun hst => exec_done rfl hr (hunit.trans (if_neg hst)), fun hst => exec_busy rfl hr (hunit.trans (if_pos hst))⟩
  case get =>
    intro hr
    rw [← sapResult_taken sapGetSpec a s]
    exact exec_done rfl hr rfl

end Sys2Proof.Machine
end

section
/-! The proofs about what happens on the serial audio ports: frames, slips and clock supervision (O28). -/

namespace Sys2Proof.Machine

/-! ## What the operations of a frame leave of a port (R299–R302, Table 9-6) -/

section Operations

variable (s : State) (n : Nat)

theorem advance_sap (t : Sid) : sap (advance s t) = sap s := sap_of_saps (by simp)

theorem raise_sap (c u d : Nat) : sap (raise s c u d) = sap s := (raise_keeps (.refl _ s) (Sub.refl _)).sap rfl

theorem raise_sid (c u d : Nat) : (raise s c u d).sid = s.sid := (raise_keeps (.refl _ s) (Sub.refl _)).sid rfl

theorem evClk_sap (k cause : Nat) (resumed : Bool) : sap (evClk s k cause resumed) = sap s := raise_sap ..

theorem slipEvent_sap (k : Nat) (drop input : Bool) : sap (slipEvent s k drop input) = sap s := raise_sap ..

theorem feedBlock_sap (k : Nat) (b : Bytes) : sap (feedBlock s k b) = sap s :=
  (feedBlock_keeps (.refl _ s) (Sub.refl _)).sap rfl

theorem endBlock_sid : (endBlock s n).sid = s.sid := (endBlock_keeps (.refl _ s) (Sub.refl _)).sid rfl

theorem endBlock_port : SameFrame (sap s n) (sap (endBlock s n) n) := by
  unfold endBlock
  dsimp only
  split
  · exact .refl _
  · split
    · exact .refl _
    · rw [feedBlock_sap, sap_putSap_self]
      exact ⟨⟨rfl, rfl, rfl, rfl, rfl, rfl, rfl⟩, rfl, rfl, rfl, rfl⟩

theorem markBlock_port (i : Nat) : SameFrame (sap s n) (sap (markBlock s n i) n) := by
  rw [markBlock, sap_putSap_self]
  exact ⟨⟨rfl, rfl, rfl, rfl, rfl, rfl, rfl⟩, rfl, rfl, rfl, rfl⟩

theorem loseFrames_port (k : Nat) : SameFrame (sap s n) (sap (loseFrames s n k) n) := by
  refine ((endBlock_port s n).trans (markBlock_port _ n 1)).trans ?_
  rw [loseFrames, sap_putSap_self]
  exact ⟨⟨rfl, rfl, rfl, rfl, rfl, rfl, rfl⟩, rfl, rfl, rfl, rfl⟩

theorem feedFrame_port (sdi : Option (List Bool)) : SameFrame (sap s n) (sap (feedFrame s n sdi) n) := by
  unfold feedFrame
  dsimp only
  rw [sap_putSap_self]
  exact ⟨⟨rfl, rfl, rfl, rfl, rfl, rfl, rfl⟩, rfl, rfl, rfl, rfl⟩

theorem captureFrame_port (sdi : List Bool) : SameFrame (sap s n) (sap (captureFrame s n sdi) n) := by
  unfold captureFrame
  dsimp only
  split
  · exact .refl _
  · rw [sap_putSap_self]
    exact ⟨⟨rfl, rfl, rfl, rfl, rfl, rfl, rfl⟩, rfl, rfl, rfl, rfl⟩

theorem playFrame_port : SameFrame (sap s n) (sap (playFrame s n).1 n) := by
  unfold playFrame
  dsimp only
  split
  · exact .refl _
  · split
    · rw [sap_putSap_self]
      exact ⟨⟨rfl, rfl, rfl, rfl, rfl, rfl, rfl⟩, rfl, rfl, rfl, rfl⟩
    · rw [sap_putSap_self]
      exact ⟨⟨rfl, rfl, rfl, rfl, rfl, rfl, rfl⟩, rfl, rfl, rfl, rfl⟩

theorem driveFrame_port : SameFrame (sap s n) (sap (driveFrame s n) n) := by
  refine (playFrame_port s n).trans ?_
  rw [driveFrame, sap_putSap_self]
  exact ⟨⟨rfl, rfl, rfl, rfl, rfl, rfl, rfl⟩, rfl, rfl, rfl, rfl⟩

/-- New masks change the settings in force, and not what moves the port. -/
theorem applyMasks_run (b : Bytes) : SameRun (sap s n) (sap (applyMasks s n b) n) := by
  refine ((endBlock_port s n).trans (markBlock_port _ n 2)).toSameRun.trans ?_
  rw [applyMasks, sap_putSap_self]
  exact ⟨rfl, rfl, rfl, rfl, rfl, rfl, rfl⟩

end Operations

/-! ## Rings that a held `SAP_STREAM` binds (R307) -/

section Held

variable (s : State) (n : Nat)

/-- The ring that a port named loses its mark. -/
def freeNamed (s : State) : Option Nat → State
  | some r => freeRing s r
  | none => s

/-- The ring that a port names now is marked. -/
def markNamed (s : State) (o : Option Nat) (v : Bind) : State :=
  match o with
  | some r => markRing s r v
  | none => s

theorem freeNamed_sap (o : Option Nat) : sap (freeNamed s o) = sap s := by
  cases o with
  | some r => exact (freeRing_keeps (.refl _ s) (Sub.refl _)).sap rfl
  | none => rfl

theorem markNamed_sap (o : Option Nat) (v : Bind) : sap (markNamed s o v) = sap s := by
  cases o with
  | some r => exact (markRing_keeps (.refl _ s) (Sub.refl _)).sap rfl
  | none => rfl

/-- The ring that a byte of `SAP_STREAM` names. -/
def ringNamed (v : Nat) : Option Nat := if v = 0xFF then none else some v

/-- A new capture ring ends the block in progress. -/
def blockLeft (s : State) (n : Nat) (b : Bytes) : State := if (sap s n).cap = ringNamed (byteAt b 0) then s else endBlock s n

/-- Binding rings names them in the port's record and marks them. -/
theorem bindPort_eq (b : Bytes) : ∃ p, SameFrame (sap (blockLeft s n b) n) p ∧
    bindPort s n b = markNamed (markNamed (freeNamed (freeNamed (putSap (blockLeft s n b) n p) (sap s n).cap) (sap s n).play)
      (ringNamed (byteAt b 0)) (.sapCapture n)) (ringNamed (byteAt b 1)) (.sapPlay n) := by
  refine ⟨_, ?same, rfl⟩
  exact ⟨⟨rfl, rfl, rfl, rfl, rfl, rfl, rfl⟩, rfl, rfl, rfl, rfl⟩

theorem bindPort_port (b : Bytes) : SameFrame (sap s n) (sap (bindPort s n b) n) := by
  obtain ⟨p, hp, hbind⟩ := bindPort_eq s n b
  have hleft : SameFrame (sap s n) (sap (blockLeft s n b) n) := by
    unfold blockLeft
    split
    · exact .refl _
    · exact endBlock_port s n
  rw [hbind, markNamed_sap, markNamed_sap, freeNamed_sap, freeNamed_sap, sap_putSap_self]
  exact hleft.trans hp

theorem heldStream_port (f : InFlight) : SameFrame (sap s n) (sap (heldStream n s f) n) :=
  (bindPort_port s n _).trans (complete_port ..)

end Held

/-! ## A frame ends (R299, R305, Table 9-6) -/

section Ends

variable (s : State) (n : Nat)

theorem SameFrame.timed {p q : Sap} (h : SameFrame p q) (now : Sid) (rate : Nat) :
    SameFrame { p with last := now, dropped := false, rate := rate } { q with last := now, dropped := false, rate := rate } :=
  ⟨⟨h.st, rfl, rfl, h.waitTold, rfl, h.slipDrop, h.slipRep⟩, h.cfg, h.stopTo, h.rd, h.inWr⟩

/-- The frame in progress is fed, and captured or dropped. -/
def frameTaken (s : State) (n : Nat) (sdi : Option (List Bool)) : State :=
  match sdi with
  | some b => captureFrame (feedFrame s n sdi) n b
  | none => loseFrames (feedFrame s n sdi) n 1

/-- The frame start is noted, and a full capture block ends. -/
def frameNoted (s : State) (n : Nat) (sdi : Option (List Bool)) : State :=
  let q := sap (frameTaken s n sdi) n
  let u := putSap (frameTaken s n sdi) n
    { q with
      last := s.sid.now, dropped := false
      rate := if (sap s n).last < s.sid.now then 1000 * secU / (s.sid.now - (sap s n).last) else q.rate }
  if q.blkFrames ≤ q.pFrames then endBlock u n else u

theorem frameEnds_eq (sdi : Option (List Bool)) :
    frameEnds s n sdi = if slipMode (sap s n).cfg then slipCheck (frameNoted s n sdi) n
      else driftFrame (frameNoted s n sdi) n (s.sid.now - (sap s n).last) := rfl

theorem frameTaken_port (sdi : Option (List Bool)) : SameFrame (sap s n) (sap (frameTaken s n sdi) n) := by
  refine (feedFrame_port s n sdi).trans ?_
  cases sdi with
  | some b => exact captureFrame_port ..
  | none => exact loseFrames_port ..

theorem frameTaken_sid (sdi : Option (List Bool)) : (frameTaken s n sdi).sid = s.sid := by
  cases sdi with
  | some b => exact (captureFrame_keeps (feedFrame_keeps (.refl _ s) (Sub.refl _)) (Sub.refl _)).sid rfl
  | none => exact (loseFrames_keeps (feedFrame_keeps (.refl _ s) (Sub.ok rfl)) (Sub.refl _)).sid rfl

theorem frameNoted_port (sdi : Option (List Bool)) : ∃ rate, SameFrame
    { sap s n with last := s.sid.now, dropped := false, rate := rate } (sap (frameNoted s n sdi) n) := by
  have hnoted (rate : Nat) : SameFrame { sap s n with last := s.sid.now, dropped := false, rate := rate }
      (sap (putSap (frameTaken s n sdi) n
        { sap (frameTaken s n sdi) n with last := s.sid.now, dropped := false, rate := rate }) n) := by
    rw [sap_putSap_self]
    exact (frameTaken_port s n sdi).timed ..
  unfold frameNoted
  dsimp only
  split
  · exact ⟨_, (hnoted _).trans (endBlock_port ..)⟩
  · exact ⟨_, hnoted _⟩

theorem frameNoted_sid (sdi : Option (List Bool)) : (frameNoted s n sdi).sid = s.sid := by
  unfold frameNoted
  dsimp only
  split
  · exact (endBlock_sid ..).trans (frameTaken_sid ..)
  · exact frameTaken_sid ..

/-- What a slip or a drift leaves of a port: its state, its last frame start and the stop that is under way. -/
structure SameStart (p q : Sap) : Prop where
  st : q.st = p.st
  last : q.last = p.last
  dropped : q.dropped = p.dropped
  stopTo : q.stopTo = p.stopTo

theorem driftFrame_port (span : Sid) : SameStart (sap s n) (sap (driftFrame s n span) n) := by
  unfold driftFrame
  dsimp only
  split
  · rw [sap_putSap_self]
    exact ⟨rfl, rfl, rfl, rfl⟩
  · split
    · rw [sap_putSap_self]
      exact ⟨rfl, rfl, rfl, rfl⟩
    · exact ⟨rfl, rfl, rfl, rfl⟩

/-- `q` is port `p` after its FIFOs have been checked at time `now`: at 6 frames or more one is dropped, at 2 or fewer one is
repeated. -/
structure Slipped (now : Sid) (p q : Sap) : Prop extends SameStart p q where
  slipDrop : q.slipDrop = sat 32 (p.slipDrop + (if 6 ≤ (sampleNo now : Int) - (p.rd + 1 : Nat) then 1 else 0) +
    (if 6 ≤ ((p.inWr + 1 : Nat) : Int) - sampleNo now then 1 else 0))
  slipRep : q.slipRep = sat 32 (p.slipRep + (if (sampleNo now : Int) - (p.rd + 1 : Nat) ≤ 2 then 1 else 0) +
    (if ((p.inWr + 1 : Nat) : Int) - sampleNo now ≤ 2 then 1 else 0))

theorem flag_decide_zero (c : Prop) [Decidable c] : flag (decide c) 0 = if c then 1 else 0 := by
  simp [flag]

theorem slipCheck_port : Slipped s.sid.now (sap s n) (sap (slipCheck s n) n) := by
  unfold slipCheck
  dsimp only
  rw [apply_ite sap, slipEvent_sap, ite_self, apply_ite sap, slipEvent_sap, ite_self, sap_putSap_self]
  simp only [flag_decide_zero]
  exact ⟨⟨rfl, rfl, rfl, rfl⟩, rfl, rfl⟩

/-- The frame that ends leaves the port in its state; in slip mode its FIFOs are then checked. -/
theorem frameEnds_port (sdi : Option (List Bool)) : ∃ rate,
    let p := { sap s n with last := s.sid.now, dropped := false, rate := rate }
    SameStart p (sap (frameEnds s n sdi) n) ∧
      (slipMode (sap s n).cfg = true → Slipped s.sid.now p (sap (frameEnds s n sdi) n)) := by
  obtain ⟨rate, hnoted⟩ := frameNoted_port s n sdi
  refine ⟨rate, ?_⟩
  rw [frameEnds_eq]
  by_cases hslip : slipMode (sap s n).cfg = true
  · have hchecked := slipCheck_port (frameNoted s n sdi) n
    rw [if_pos hslip]
    rw [frameNoted_sid] at hchecked
    have hslipped : Slipped s.sid.now { sap s n with last := s.sid.now, dropped := false, rate := rate }
        (sap (slipCheck (frameNoted s n sdi) n) n) := {
      st := hchecked.st.trans hnoted.st
      last := hchecked.last.trans hnoted.last
      dropped := hchecked.dropped.trans hnoted.dropped
      stopTo := hchecked.stopTo.trans hnoted.stopTo
      slipDrop := by rw [hchecked.slipDrop, hnoted.slipDrop, hnoted.rd, hnoted.inWr]
      slipRep := by rw [hchecked.slipRep, hnoted.slipRep, hnoted.rd, hnoted.inWr] }
    exact ⟨hslipped.toSameStart, fun _ => hslipped⟩
  · have hdrift := driftFrame_port (frameNoted s n sdi) n (s.sid.now - (sap s n).last)
    rw [if_neg hslip]
    exact ⟨⟨hdrift.st.trans hnoted.st, hdrift.last.trans hnoted.last, hdrift.dropped.trans hnoted.dropped,
      hdrift.stopTo.trans hnoted.stopTo⟩, fun h => absurd h hslip⟩

end Ends

/-! ## A frame begins (R302) -/

section Begins

variable (s : State) (n : Nat)

/-- Masks that wait for this frame start apply. -/
def masksAtFrame (s : State) (n mark : Nat) : State :=
  match (sap s n).maskPend with
  | some b => if s.sid.now < (sap s n).maskFrom then s else finishOp (applyMasks s n b) 0x0803 (sapTgt n) stOk 0 [] mark
  | none => s

/-- A route that waits for this frame start applies. -/
def routeAtFrame (s : State) (n mark : Nat) : State :=
  match (sap s n).routePend with
  | some b =>
    if s.sid.now < (sap s n).routeFrom then s
    else finishOp (putSap s n { sap s n with route := b, routePend := none }) 0x0802 (sapTgt n) stOk 0 [] mark
  | none => s

theorem frameSettings_eq : frameSettings s n = routeAtFrame (masksAtFrame s n s.ev.nextId) n s.ev.nextId := rfl

theorem masksAtFrame_run (mark : Nat) : SameRun (sap s n) (sap (masksAtFrame s n mark) n) := by
  unfold masksAtFrame
  split
  · split
    · exact (SameFrame.refl _).toSameRun
    · exact (applyMasks_run ..).trans (finishOp_port ..).toSameRun
  · exact (SameFrame.refl _).toSameRun

theorem routeAtFrame_run (mark : Nat) : SameRun (sap s n) (sap (routeAtFrame s n mark) n) := by
  unfold routeAtFrame
  split
  · split
    · exact (SameFrame.refl _).toSameRun
    · refine SameRun.trans ?_ (finishOp_port ..).toSameRun
      rw [sap_putSap_self]
      exact ⟨rfl, rfl, rfl, rfl, rfl, rfl, rfl⟩
  · exact (SameFrame.refl _).toSameRun

theorem frameSettings_run : SameRun (sap s n) (sap (frameSettings s n) n) :=
  frameSettings_eq s n ▸ (masksAtFrame_run ..).trans (routeAtFrame_run ..)

variable {s n}

/-- Where no stop is under way, pending settings apply and the frame goes out. -/
theorem frameBegins_run (h : (sap s n).stopTo = none) : SameRun (sap s n) (sap (frameBegins s n) n) := by
  simp only [frameBegins, h]
  exact (frameSettings_run s n).trans (driveFrame_port ..).toSameRun

end Begins

/-! ## Frame starts and disturbances (R291, R299, R304, Table 9-6) -/

section Disturbed

variable {s : State} {n : Nat} {t : Sid}

theorem exec_sapFrameStart {sdi : List Bool} (hn : n < 4) (hruns : (sap s n).runs = true)
    (hlen : (sap s n).dropped = true ∨ sdi.length = frameBits (sap s n).cfg + 1) :
    exec (.sapFrameStart n sdi t) s =
      .next (frameBegins (frameEnds (advance s t) n (if (sap s n).dropped = true then none else some sdi)) n) := by
  refine if_neg ?_
  rintro (hge | hstill | ⟨hkept, hne⟩)
  · exact hn.not_ge hge
  · exact Bool.false_ne_true (hstill.symm.trans hruns)
  · exact hlen.elim (fun hdropped => Bool.false_ne_true (hkept.symm.trans hdropped)) hne

theorem exec_sapClockLost {cause mhz : Nat} {edge : Sid} (hn : n < 4) (hruns : (sap s n).runs = true)
    (hcause : causeHolds (advance s t) (sap s n) cause edge mhz = true) (hgo : (sap s n).stopTo = none) :
    ∃ q, exec (.sapClockLost n cause edge mhz t) s = .next q ∧ (sap q n).st = .clockLost ∧ (sap q n).cause = cause ∧
      (sap q n).losses = sat 32 ((sap s n).losses + 1) := by
  rw [← advance_sap s t] at hruns hcause hgo ⊢
  have hguard : ¬(n ≥ 4 ∨ (sap (advance s t) n).runs = false ∨
      causeHolds (advance s t) (sap (advance s t) n) cause edge mhz = false) := by
    simp [hn, hruns, hcause]
  show ∃ q, execSapClockLost n cause edge mhz t s = .next q ∧ _
  simp only [execSapClockLost, if_neg hguard, hgo]
  refine ⟨_, rfl, ?_⟩
  rw [evClk_sap, sap_putSap_self]
  exact ⟨rfl, rfl, rfl⟩

theorem exec_sapGlitch {period : Sid} (hn : n < 4) (hruns : (sap s n).runs = true) (hshort : 4 * period < 3 * (sap s n).bitTime) :
    exec (.sapGlitch n period) s =
      .next (putSap s n { sap s n with glitches := sat 32 ((sap s n).glitches + 1), dropped := true }) :=
  if_pos ⟨hn, hruns, hshort⟩

theorem exec_sapFramingError {sdi : List Bool} (hn : n < 4) (hruns : (sap s n).runs = true) (hkept : (sap s n).dropped = false)
    (hext : fsyncController (sap s n).cfg = false) (hlen : sdi.length ≠ frameBits (sap s n).cfg + 1) :
    exec (.sapFramingError n sdi t) s = .next (frameBegins (frameEnds
      (putSap (advance s t) n { sap s n with frameErr := sat 32 ((sap s n).frameErr + 1) }) n none) n) :=
  if_pos ⟨hn, hruns, hkept, hext, hlen⟩

end Disturbed

/-! ## Rates (R304, R305) -/

section Rates

variable {s : State} {n : Nat} {t : Sid} {first second : Nat}

/-- The new rate is noted and told of. -/
def rateTold (s : State) (n rate : Nat) : State :=
  raise (putSap s n { sap s n with rate := rate }) evRateChanged (sapTgt n) (sat 16 (rate / 10000))

theorem exec_sapRateChange (hn : n < 4) (hst : (sap s n).st = .running) (h1 : (sap s n).departs first = true)
    (h2 : (sap s n).departs second = true) :
    let u := rateTold (advance s t) n second
    exec (.sapRateChange n first second t) s = if slipMode (sap s n).cfg = true then .next u
      else .next (putSap u n
        { sap u n with st := .remeasuring, remeasAt := u.sid.now, oldRate := (sap s n).refRate, drift := 0 }) := by
  unfold rateTold
  rw [advance_sap]
  exact if_neg (by simp [hn, hst, h1, h2])

theorem rateTold_sap (rate : Nat) : sap (rateTold s n rate) n = { sap s n with rate := rate } := by
  rw [rateTold, raise_sap, sap_putSap_self]

theorem rateTold_sid (rate : Nat) : (rateTold s n rate).sid = s.sid := raise_sid ..

theorem exec_sapRetarget {mhz : Nat} (hn : n < 4) (hst : (sap s n).st = .remeasuring)
    (hfrom : (sap s n).remeasAt + 16000 * usU ≤ (advance s t).sid.now)
    (hto : (advance s t).sid.now ≤ (sap s n).remeasAt + 20000 * usU) (hrate : rateOk mhz = true) :
    ∃ q, exec (.sapRetarget n mhz t) s = .next q ∧ (sap q n).st = .running ∧ (sap q n).refRate = mhz ∧
      (sap q n).fadeTo = (advance s t).sid.now + fiveMs := by
  refine ⟨_, if_pos ⟨hn, hst, hfrom, hto, hrate⟩, ?_⟩
  rw [sap_putSap_self]
  exact ⟨rfl, rfl, rfl⟩

end Rates

/-! ## A port that waits, and one whose clock was lost (R306, R307, Table 9-7) -/

section Resumes

variable {s : State} {n : Nat} {t : Sid} {f g : FrameSeen}

theorem sapRuns_port (s : State) (n : Nat) (st : SapState) : (sap (sapRuns s n st) n).st = st ∧
    (sap (sapRuns s n st) n).rate = (sap s n).rate ∧ (sap (sapRuns s n st) n).waitTold = false := by
  rw [sapRuns, sap_putSap_self]
  exact ⟨rfl, rfl, rfl⟩

theorem exec_sapResume_waiting (hn : n < 4) (hrun : mayRun s (sap s n) f g = true) (hst : (sap s n).st = .waiting) :
    ∃ q, exec (.sapResume n f g t) s = .next q ∧ (sap q n).st = .running ∧ (sap q n).rate = (sap s n).refRate ∧
      (sap q n).waitTold = false := by
  have hguard : ¬(n ≥ 4 ∨ mayRun s (sap s n) f g = false) := by simp [hn, hrun]
  show ∃ q, execSapResume n f g t s = .next q ∧ _
  simp only [execSapResume, if_neg hguard, hst]
  refine ⟨_, rfl, ?_⟩
  have hout (v : State) (mark : Nat) : SameFrame (sap v n) (sap (driveFrame (if (sap s n).waitTold = true then
      evClk (markBlock v n 0) n (sap s n).cause true
    else finishOp (markBlock v n 0) 0x0801 (sapTgt n) stOk 0 [] mark) n) n) := by
    refine (markBlock_port v n 0).trans (SameFrame.trans ?_ (driveFrame_port ..))
    split
    · rw [evClk_sap]
      exact .refl _
    · exact finishOp_port ..
  obtain ⟨hrunning, hrate, htold⟩ := sapRuns_port _ n .running
  rw [sap_putSap_self] at hrate
  exact ⟨(hout _ _).st.trans hrunning, (hout _ _).rate.trans hrate, (hout _ _).waitTold.trans htold⟩

theorem exec_sapResume_clockLost (hn : n < 4) (hrun : mayRun s (sap s n) f g = true) (hst : (sap s n).st = .clockLost) :
    ∃ q, exec (.sapResume n f g t) s = .next q ∧
      (sap q n).st = if (sap s n).afresh = true then .remeasuring else .running := by
  have hguard : ¬(n ≥ 4 ∨ mayRun s (sap s n) f g = false) := by simp [hn, hrun]
  show ∃ q, execSapResume n f g t s = .next q ∧ _
  simp only [execSapResume, if_neg hguard, hst]
  refine ⟨_, rfl, ?_⟩
  have htold (v : State) : SameFrame (sap v n) (sap (evClk (markBlock v n 0) n (sap s n).cause true) n) := by
    rw [evClk_sap]
    exact markBlock_port ..
  have hheld := SameFrame.foldl (n := n) (f := heldStream n) fun q a => heldStream_port q n a
  have hout (v : State) (l : List InFlight) :=
    ((htold v).toSameRun.trans (frameSettings_run ..)).trans ((hheld l _).trans (driveFrame_port ..)).toSameRun
  exact (hout _ _).st.trans (sapRuns_port ..).1

theorem exec_sapWaitingTimeout (hn : n < 4) (hst : (sap s n).st = .waiting) (htold : (sap s n).waitTold = false)
    (hby : expired s (sap s n).waitBy = true) :
    exec (.sapWaitingTimeout n) s = .next (finishOp (putSap s n { sap s n with waitTold := true }) 0x0801 (sapTgt n)
      stBadState 1 [] s.ev.nextId) :=
  if_pos ⟨hn, hst, htold, hby⟩

end Resumes

/-! ## The obligation -/

/-- Settles O28: each occurrence by its lemma above; what time does not change of a port is read of the state before. -/
theorem audioPortOccurrencesAct : Obligations.AudioPortOccurrencesAct := by
  unfold Obligations.AudioPortOccurrencesAct
  intro s n t hn s1 p
  refine ⟨?start, fun _ _ _ => exec_sapClockLost hn, fun _ => exec_sapGlitch hn, fun _ => exec_sapFramingError hn, ?rate,
    fun _ => exec_sapRetarget hn,
    fun _ _ hrun => ⟨exec_sapResume_waiting hn hrun, exec_sapResume_clockLost hn hrun⟩, exec_sapWaitingTimeout hn⟩
  case start =>
    intro sdi hruns hlen
    refine ⟨_, exec_sapFrameStart hn hruns hlen, rfl, fun hgo => ?_⟩
    obtain ⟨rate, hstart, hslips⟩ := frameEnds_port s1 n (if p.dropped = true then none else some sdi)
    rw [advance_sap] at hstart hslips
    have hbegun := frameBegins_run (hstart.stopTo.trans hgo)
    refine ⟨hbegun.last.trans hstart.last, hbegun.dropped.trans hstart.dropped, hbegun.st.trans hstart.st, fun hslip => ?_⟩
    exact ⟨hbegun.slipDrop.trans (hslips hslip).slipDrop, hbegun.slipRep.trans (hslips hslip).slipRep⟩
  case rate =>
    intro first second hst h1 h2
    have hexec := exec_sapRateChange (t := t) hn hst h1 h2
    have hold : rateTold s1 n second = raise (putSap s1 n { p with rate := second }) evRateChanged (sapTgt n)
        (sat 16 (second / 10000)) := by rw [rateTold, advance_sap]
    refine ⟨fun hslip => hexec.trans ((if_pos hslip).trans (congrArg _ hold)), fun hresampled => ?_⟩
    refine ⟨_, hexec.trans (if_neg (ne_true_of_eq_false hresampled)), ?_⟩
    rw [sap_putSap_self, rateTold_sap, rateTold_sid, advance_sap]

end Sys2Proof.Machine
end

section
/-! The proofs about the regulatory table: how its commands end, and that its lock is permanent (O29, O59). -/

namespace Sys2Proof.Machine

section Taken

variable (sp : CmdSpec) (a : Args) (s : State)

theorem ev_taken : (taken sp a s).ev = s.ev := by simp

theorem reg_taken : (taken sp a s).reg = s.reg := by simp

theorem stagedImage_taken : stagedImage (taken sp a s) = stagedImage s := by
  rw [stagedImage, reg_taken, stagedImage]

theorem regGetResult_taken : regGetResult (taken sp a s) = regGetResult s := by
  funext part
  rw [regGetResult, reg_taken, regGetResult]

end Taken

/-- A host command that is ready and is refused by its owning island. -/
theorem exec_deny {i : Instr} {sp : CmdSpec} {a : Args} {s : State} {st d : Nat} (hi : hostCommand i = some (sp, a))
    (hr : ready sp a s = true) (hu : sp.unit (cmdOf sp a) (taken sp a s) = .deny st d) :
    exec i s = .next (answer sp a s st d [] (taken sp a s)) := by
  rw [exec_host s hi, submit_deny hr hu, answer, ev_taken, ite_self]

/-! ## The units (R319, R321, R332) -/

section Units

variable {c : Cmd} {s : State}

theorem regLoadUnit_stages (hl : s.reg.locked = false) (hfits : c.a.origin = .mailbox → le c.pl 2 2 ≤ 96) :
    regLoadUnit c s = ok (s.setReg { s.reg with staged := splice (stagedImage s) (le c.pl 0 2) (c.pl.drop 4) }) := by
  have hsize : ¬(c.a.origin = .mailbox ∧ 96 < le c.pl 2 2) := fun ⟨hmbx, hbig⟩ => (hfits hmbx).not_gt hbig
  simp only [regLoadUnit, hl, if_neg hsize, Bool.false_eq_true, if_false]

theorem regLoadUnit_locked (hl : s.reg.locked = true) : regLoadUnit c s = badState := if_pos hl

theorem regCommitUnit_begins (hl : s.reg.locked = false) (hc : s.reg.commit = false)
    (hcrc : (crc32 (stagedImage s)).toNat = le c.pl 0 4) (hok : regBad (stagedImage s) = none)
    (hfree : s.reg.slots.length < 16) :
    regCommitUnit c s = .busy (s.setReg { s.reg with
      slots := s.reg.slots ++ [⟨((bestCopy s.reg.slots).map (·.gen)).getD 0 + 1, stagedImage s, false⟩], commit := true }) := by
  simp only [regCommitUnit, hl, hc, hcrc, hok, if_neg hfree.not_ge, Bool.false_eq_true, or_self, ne_eq, not_true_eq_false,
    if_false]

theorem regCommitUnit_locked (hl : s.reg.locked = true) : regCommitUnit c s = badState := if_pos (.inl hl)

theorem regLockUnit_committing (hc : s.reg.commit = true) : regLockUnit c s = badState := if_pos hc

section Idle

variable (hc : s.reg.commit = false)
include hc

theorem regLockUnit_locks (hg : le c.pl 0 4 = s.reg.gen) : regLockUnit c s = ok (s.setReg { s.reg with locked := true }) :=
  (if_neg (ne_true_of_eq_false hc)).trans (if_neg (not_not.2 hg))

theorem regLockUnit_other_generation (hg : le c.pl 0 4 ≠ s.reg.gen) : regLockUnit c s = badParam 0 :=
  (if_neg (ne_true_of_eq_false hc)).trans (if_pos hg)

end Idle

end Units

/-! ## The commands and the end of a commit -/

theorem exec_regLock_of_generation {a : Args} {s : State} (hr : ready regLockSpec a s = true) (hc : s.reg.commit = false)
    (hg : le a.payload 0 4 = s.reg.gen) :
    exec (.regLock a) s =
      .next (answer regLockSpec a s stOk 0 [] ((taken regLockSpec a s).setReg { s.reg with locked := true })) := by
  rw [← reg_taken regLockSpec a s] at hc hg ⊢
  exact exec_done rfl hr (regLockUnit_locks (c := cmdOf regLockSpec a) hc hg)

/-- How a commit under way ends at the marker (R319). -/
theorem exec_regCommitComplete {s : State} (hc : s.reg.commit = true) (hb : s.pwr.brownout = false) (t : Sid) :
    (∃ q, exec (.regCommitComplete true t) s = .next q ∧ q.reg = { s.reg with
      slots := completeLast s.reg.slots, commit := false, last := 1, next := true, nextBy := (advance s t).sid.ticks + 1 }) ∧
    ∃ q, exec (.regCommitComplete false t) s = .next q ∧ q.reg = { s.reg with commit := false, last := 2 } := by
  have hruns : ¬(s.reg.commit = false ∨ s.pwr.brownout) := by simp [hc, hb]
  exact ⟨⟨_, (if_neg hruns).trans (if_pos rfl), by simp⟩, ⟨_, (if_neg hruns).trans (if_neg Bool.false_ne_true), by simp⟩⟩

/-- Byte 10 of the exciter's record is the lock marker (Table 2-17). -/
theorem capRecord_locked {s : State} (hl : s.reg.locked = true) (hn : 0 < instances s.part 0x09) :
    byteAt (capRecord s 0x09) 10 = 1 := by
  simp [capRecord, unitFields, hn.ne', hl, byteAt, fit, leBytes, flag]

/-! ## What a step leaves of a locked table (R321) -/

/-- A step is a row of the table on the state without it, or nothing. -/
theorem step_cases {s t : State} (h : step s = .next t) : t = s ∨ ∃ i q, exec i (s.setPending q) = .next t := by
  cases hq : s.pending with
  | nil => exact .inl (by simpa [step, hq] using h.symm)
  | cons i q =>
    rw [step, hq] at h
    exact .inr ⟨i, q, h⟩

theorem step_keeps_locked {s t : State} (hi : Inv s) (h : step s = .next t) (hl : s.reg.locked = true) :
    t.reg.locked = true ∧ t.reg.slots = s.reg.slots := by
  rcases step_cases h with rfl | ⟨i, q, hexec⟩
  · exact ⟨hl, rfl⟩
  · obtain ⟨m, hm⟩ := exec_keeps i (s.setPending q)
    exact (hm.out t hexec).locked hi hl

/-! ## The obligations -/

/-- Settles O59: the units refuse a locked table, and what every row keeps of the table (Laws/Keeps<Family>.lean) holds its lock
and its copies. -/
theorem lockOfTheTableIsPermanent : Obligations.LockOfTheTableIsPermanent := by
  unfold Obligations.LockOfTheTableIsPermanent
  refine ⟨fun a s => ⟨exec_regLock_of_generation, ?other, ?committing, ?load, ?commit, capRecord_locked⟩,
    fun s t => step_keeps_locked⟩
  case other =>
    intro hr hc hg
    rw [← reg_taken regLockSpec a] at hc hg
    exact exec_deny rfl hr (regLockUnit_other_generation (c := cmdOf regLockSpec a) hc hg)
  case committing =>
    intro hr hc
    rw [← reg_taken regLockSpec a] at hc
    exact exec_deny rfl hr (regLockUnit_committing hc)
  case load =>
    intro hr hl
    rw [← reg_taken regLoadSpec a] at hl
    exact exec_deny rfl hr (regLoadUnit_locked hl)
  case commit =>
    intro hr hl
    rw [← reg_taken regCommitSpec a] at hl
    exact exec_deny rfl hr (regCommitUnit_locked hl)

/-- Settles O29: taking a command leaves the table as it was, so each unit answers as on the state before. -/
theorem regulatoryTableIsCommitted : Obligations.RegulatoryTableIsCommitted := by
  unfold Obligations.RegulatoryTableIsCommitted
  intro a s t b
  refine ⟨?load, ?commit, exec_regLock_of_generation, ?get, fun hc hb => (exec_regCommitComplete hc hb t).1,
    fun hc hb => (exec_regCommitComplete hc hb t).2⟩
  case load =>
    intro hr hl hfits
    rw [← reg_taken regLoadSpec a] at hl ⊢
    rw [← stagedImage_taken regLoadSpec a]
    exact exec_done rfl hr (regLoadUnit_stages (c := cmdOf regLoadSpec a) hl hfits)
  case commit =>
    intro hr hl hc hcrc hok hfree
    rw [← reg_taken regCommitSpec a] at hl hc hfree ⊢
    rw [← stagedImage_taken regCommitSpec a] at hcrc hok ⊢
    exact exec_busy rfl hr (regCommitUnit_begins (c := cmdOf regCommitSpec a) hl hc hcrc hok hfree)
  case get =>
    intro hr
    rw [← regGetResult_taken regGetSpec a]
    exact exec_done rfl hr rfl

end Sys2Proof.Machine
end

section
/-! The proofs about the commands of group 0x09 to the exciter (O32). -/

namespace Sys2Proof.Machine

/-! ## What is read of the exciter and of its regulatory entry -/

section Reads

variable {s t : State}

theorem regEntry_of_reg (h : t.reg = s.reg) : regEntry t = regEntry s := by
  funext i
  rw [regEntry, h, regEntry]

theorem curEntry_of (hx : t.tx = s.tx) (hr : t.reg = s.reg) : curEntry t = curEntry s := by
  rw [curEntry, hx, regEntry_of_reg hr, curEntry]

theorem txMode_of (hx : t.tx = s.tx) (hr : t.reg = s.reg) : txMode t = txMode s := by
  rw [txMode, curEntry_of hx hr, txMode]

theorem levelInUse_of (hx : t.tx = s.tx) (hr : t.reg = s.reg) : levelInUse t = levelInUse s := by
  unfold levelInUse
  rw [hx, curEntry_of hx hr]

theorem modeSet_of (hx : t.tx = s.tx) (hr : t.reg = s.reg) : modeSet t = modeSet s := by
  unfold modeSet
  rw [hx, txMode_of hx hr]

theorem dutyDenies_of (hx : t.tx = s.tx) (hr : t.reg = s.reg) : dutyDenies t = dutyDenies s := by
  funext i
  unfold dutyDenies dutyLeft dutyUsed
  rw [hx, hr, regEntry_of_reg hr]

theorem brkEn_of_tx (h : t.tx = s.tx) : brkEn t = brkEn s := by
  funext i
  rw [brkEn, h, brkEn]

theorem brkProg_of_tx (h : t.tx = s.tx) : brkProg t = brkProg s := by
  rw [brkProg, h, brkProg]

end Reads

section Taken

variable (sp : CmdSpec) (a : Args) (s : State)

theorem tx_taken : (taken sp a s).tx = s.tx := by simp

theorem eth_taken : (taken sp a s).eth = s.eth := by simp

theorem mon_taken : (taken sp a s).mon = s.mon := by simp

theorem regEntry_taken : regEntry (taken sp a s) = regEntry s := regEntry_of_reg (reg_taken sp a s)

theorem curEntry_taken : curEntry (taken sp a s) = curEntry s := curEntry_of (tx_taken sp a s) (reg_taken sp a s)

theorem txMode_taken : txMode (taken sp a s) = txMode s := txMode_of (tx_taken sp a s) (reg_taken sp a s)

theorem levelInUse_taken : levelInUse (taken sp a s) = levelInUse s := levelInUse_of (tx_taken sp a s) (reg_taken sp a s)

theorem modeSet_taken : modeSet (taken sp a s) = modeSet s := modeSet_of (tx_taken sp a s) (reg_taken sp a s)

theorem dutyDenies_taken : dutyDenies (taken sp a s) = dutyDenies s := dutyDenies_of (tx_taken sp a s) (reg_taken sp a s)

theorem brkEn_taken : brkEn (taken sp a s) = brkEn s := brkEn_of_tx (tx_taken sp a s)

theorem brkProg_taken : brkProg (taken sp a s) = brkProg s := brkProg_of_tx (tx_taken sp a s)

end Taken

/-! ## Tuning (R312, R316, R322) -/

section Tune

variable {c : Cmd} {s : State} {e : Bytes}

/-- The `TX_TUNE` that is outstanding gives way to `c`. -/
def tuneReplaced (c : Cmd) (s : State) : State := finishOp s 0x0901 0x0900 stSuperseded c.a.tag.toNat [] s.ev.nextId

/-- The TX PLL has 64 ticks from now on to lock. -/
def withLockWindow (s : State) : State := s.setTx { s.tx with tuneBy := deadline s 64, tuneLate := false }

/-- The exciter has turned to the entry that `c` names. -/
def newlyTuned (c : Cmd) (s : State) : State := withLockWindow (tuneTo (tuneReplaced c s) (byteAt c.pl 0))

variable (he : regEntry s (byteAt c.pl 0) = some e) (hl : levelInUse s ≤ ePmax e)
include he hl

theorem txTuneUnit_pending (hst : (tuneReplaced c s).tx.st = .pending) :
    txTuneUnit c s = .busy ((newlyTuned c s).setTx
      { (newlyTuned c s).tx with synthBy := some (deadline (newlyTuned c s) 64) }) := by
  simp only [tuneReplaced] at hst
  simp only [txTuneUnit, he, if_neg hl.not_gt, hst]
  rfl

theorem txTuneUnit_on (hst : (tuneReplaced c s).tx.st = .on) :
    txTuneUnit c s = .busy (pend ((fastRamp (newlyTuned c s)).setTx
      { (fastRamp (newlyTuned c s)).tx.clearMutes with byTune := true })) := by
  simp only [tuneReplaced] at hst
  simp only [txTuneUnit, he, if_neg hl.not_gt, hst, if_true]
  rfl

theorem txTuneUnit_muted (hst : (tuneReplaced c s).tx.st = .muted) :
    txTuneUnit c s = .busy (pend ((newlyTuned c s).setTx { (newlyTuned c s).tx.clearMutes with byTune := true })) := by
  simp only [tuneReplaced] at hst
  simp only [txTuneUnit, he, if_neg hl.not_gt, hst, reduceCtorEq, if_false]
  rfl

theorem txTuneUnit_idle (hp : (tuneReplaced c s).tx.st ≠ .pending) (ho : (tuneReplaced c s).tx.st ≠ .on)
    (hm : (tuneReplaced c s).tx.st ≠ .muted) :
    txTuneUnit c s = .busy ((newlyTuned c s).setTx { (newlyTuned c s).tx with st := .tuning }) := by
  simp only [tuneReplaced] at hp ho hm
  simp only [txTuneUnit, he, if_neg hl.not_gt]
  rfl

end Tune

/-! ## Starts and stops (R313–R315, R317, R322) -/

section Transmission

variable {c : Cmd} {s : State}

theorem txStartUnit_pends {i : Nat} {e : Bytes} (hst : s.tx.st = .tuning ∨ s.tx.st = .ready) (hm : modeSet s = true)
    (hi : s.tx.entry = some i) (he : regEntry s i = some e) (hd : dutyDenies s i = false) :
    txStartUnit c s = .busy (pend (s.setTx { s.tx with byTune := false, brkOwn := false })) := by
  have hidle : ¬(s.tx.st ≠ .tuning ∧ s.tx.st ≠ .ready) := fun ⟨hnt, hnr⟩ => hst.elim hnt hnr
  simp only [txStartUnit, if_neg hidle, hm, hi, he, hd, Option.isNone_some, Bool.true_eq_false, Bool.false_eq_true, or_self,
    if_false]

theorem txStopUnit_on (hst : s.tx.st = .on) : txStopUnit c s = .busy (beginStop s) := by
  simp only [txStopUnit, hst]

theorem txStopUnit_pending (hst : s.tx.st = .pending) : txStopUnit c s = ok (failPending s stAbortedHost) := by
  simp only [txStopUnit, hst]

theorem txStopUnit_muted (hst : s.tx.st = .muted) :
    txStopUnit c s = ok (evTxCause (s.setTx
      { s.tx.clearMutes with st := .ready, req := s.tx.req && s.tx.paEn, rank := 0, brkOwn := false }) 2) := by
  simp only [txStopUnit, hst]

end Transmission

/-! ## Settings (R322, R326, R329, Tables 10-8 to 10-10) -/

section Settings

variable {c : Cmd} {s : State}

theorem txLevelUnit_takes (h : ∀ e, curEntry s = some e → les c.pl 0 2 ≤ ePmax e) :
    txLevelUnit c s = ok (relevel (s.setTx { s.tx with level := c.pl })) := by
  refine if_neg ?_
  cases he : curEntry s with
  | none => simp
  | some e => simpa using h e he

/-- In FM mode there is an entry in use. -/
theorem curEntry_of_txMode (hm : txMode s = 1) : ∃ e, curEntry s = some e := by
  cases he : curEntry s with
  | none => simp [txMode, he] at hm
  | some e => exact ⟨e, rfl⟩

/-- Ring `n` is a stream-in ring that nothing uses. -/
def InRingFree (s : State) (n : Nat) : Prop :=
  ∃ r, mget s.rings n = some r ∧ r.kind = .streamIn ∧ r.destroying = none ∧ r.bind = .none

theorem txFmUnit_takes (hdev : txMode s = 1 → ∀ e, curEntry s = some e → le c.pl 4 2 ≤ eDev e)
    (hring : byteAt c.pl 3 = 0xFF ∨ InRingFree s (byteAt c.pl 3)) :
    txFmUnit c s = ok (s.setTx { s.tx with fm := some c.pl }) := by
  have hallowed : ¬(txMode s = 1 ∧ ((curEntry s).map eDev).getD 0 < le c.pl 4 2) := by
    rintro ⟨hm, hbig⟩
    obtain ⟨e, he⟩ := curEntry_of_txMode hm
    rw [he] at hbig
    exact (hdev hm e he).not_gt hbig
  rcases hring with hnone | ⟨r, hr, hk, hd, hb⟩
  · simp only [txFmUnit, if_neg hallowed, if_pos hnone]
  · simp only [txFmUnit, if_neg hallowed, hr, hb, ne_eq, not_true_eq_false, decide_false, ringDenied_free hr hk hd, ite_self]

theorem txBreakinSetUnit_takes
    (h : bit (byteAt c.pl 0) 0 = true → byteAt c.pl 1 = 5 → byteAt c.pl 10 ≠ 0xFF → pathLane s (byteAt c.pl 10) = none ∧
      (mget s.services (byteAt c.pl 10) = none ∨ brkProg s = some (byteAt c.pl 10))) :
    txBreakinSetUnit c s = ok (s.setTx { s.tx with brk := c.pl }) := by
  refine if_neg ?_
  rintro ⟨hreserves, hfed⟩
  simp only [Bool.and_eq_true, beq_iff_eq, bne_iff_ne] at hreserves
  obtain ⟨⟨halert, hkind⟩, hprog⟩ := hreserves
  obtain ⟨hlane, hservice⟩ := h halert hkind hprog
  rcases hservice with hservice | hours
  · simp [hlane, hservice] at hfed
  · simp [hlane, hours] at hfed

/-- Stream `n` carries datagrams of `kind`. -/
def StreamIs (s : State) (n kind : Nat) : Prop := ∃ v, mget s.eth.streams n = some v ∧ byteAt v.cfg 1 = kind

theorem txSfnUnit_takes (hm : txMode s ≠ 1) (ho : s.tx.st ≠ .on) (hmu : s.tx.st ≠ .muted)
    (hhead : byteAt c.pl 0 = 1 → StreamIs s (byteAt c.pl 1) 3)
    (hfollower : byteAt c.pl 0 = 2 → StreamIs s (byteAt c.pl 1) 4) :
    txSfnUnit c s = ok (s.setTx { s.tx with sfn := c.pl }) := by
  have hkind {k : Nat} (h : StreamIs s (byteAt c.pl 1) k) :
      ((mget s.eth.streams (byteAt c.pl 1)).map fun u => byteAt u.cfg 1).getD 0 = k := by
    obtain ⟨v, hv, hk⟩ := h
    simpa [hv] using hk
  refine (if_neg (by simp [hm, ho, hmu])).trans (if_neg ?_)
  rintro (⟨hrole, hno⟩ | ⟨hrole, hno⟩)
  · exact hno (hkind (hhead hrole))
  · exact hno (hkind (hfollower hrole))

end Settings

/-! ## Commanded break-in (R328–R331) -/

section Breakin

variable {c : Cmd} {s : State} (hen : brkEn s 3 = true)
include hen

/-- The host holds its trigger with the source that `c` names. -/
def hostHeld (c : Cmd) (s : State) : State := s.setTx { s.tx with host := some ⟨byteAt c.pl 1, byteAt c.pl 2⟩ }

section Start

variable (hstart : bit (byteAt c.pl 0) 0 = true) (hsrc : sourceConfirmed s (byteAt c.pl 1) (byteAt c.pl 2) = true)
include hstart hsrc

/-- With a confirmed source a start stands behind a trigger that is followed already, or is judged by the table. -/
theorem txBreakinUnit_confirmed :
    txBreakinUnit c s =
      if s.tx.rank ≠ 0 ∨ sfnFollows s then ok (hostHeld c s)
      else if breakDenied s 3 then .done stRegLimit 0 [] (refuseBreak s 3)
      else ok (if transmitting (hostHeld c s) then hostHeld c s else brkUpdate (hostHeld c s)) :=
  (if_neg (ne_false_of_eq_true hen)).trans <| (if_pos hstart).trans <| if_neg (ne_false_of_eq_true hsrc)

theorem txBreakinUnit_behind (hr : s.tx.rank ≠ 0) : txBreakinUnit c s = ok (hostHeld c s) :=
  (txBreakinUnit_confirmed hen hstart hsrc).trans (if_pos (.inl hr))

variable (hr : s.tx.rank = 0) (hf : sfnFollows s = false)
include hr hf

theorem txBreakinUnit_judged :
    txBreakinUnit c s =
      if breakDenied s 3 then .done stRegLimit 0 [] (refuseBreak s 3)
      else ok (if transmitting (hostHeld c s) then hostHeld c s else brkUpdate (hostHeld c s)) :=
  (txBreakinUnit_confirmed hen hstart hsrc).trans (if_neg (by simp [hr, hf]))

theorem txBreakinUnit_denied (hd : breakDenied s 3 = true) :
    txBreakinUnit c s = .done stRegLimit 0 [] (refuseBreak s 3) :=
  (txBreakinUnit_judged hen hstart hsrc hr hf).trans (if_pos hd)

theorem txBreakinUnit_starts (hd : breakDenied s 3 = false) :
    txBreakinUnit c s = ok (if transmitting (hostHeld c s) then hostHeld c s else brkUpdate (hostHeld c s)) :=
  (txBreakinUnit_judged hen hstart hsrc hr hf).trans (if_neg (ne_true_of_eq_false hd))

end Start

theorem txBreakinUnit_ends {h : HostBreak} (hend : bit (byteAt c.pl 0) 0 = false) (hheld : s.tx.host = some h) :
    let x := s.setTx { s.tx with host := none }
    txBreakinUnit c s = ok (if transmitting x then x else brkUpdate x) := by
  simp only [txBreakinUnit, hen, hend, hheld, Option.isNone_some, Bool.true_eq_false, Bool.false_eq_true, if_false]

end Breakin

/-! ## The obligation -/

/-- Settles O32: taking a command leaves the exciter, its table and what feeds it as they were, so each unit answers as on the
state before. -/
theorem exciterCommandsComplete : Obligations.ExciterCommandsComplete := by
  unfold Obligations.ExciterCommandsComplete
  intro a s b u v w
  refine ⟨?tune, ?start, ?stopOn, ?stopPending, ?stopMuted, ?level, ?fm, ?dab, ?breakinSet, ?sfn, ?coex, ?breakinStart,
    ?breakinEnd, fun hr => exec_done rfl hr rfl, ?monitor⟩
  case tune =>
    have hu : u = tuneReplaced (cmdOf txTuneSpec a) (taken txTuneSpec a s) := rfl
    have hv : v = tuneTo (tuneReplaced (cmdOf txTuneSpec a) (taken txTuneSpec a s)) (byteAt b 0) := rfl
    have hw : w = newlyTuned (cmdOf txTuneSpec a) (taken txTuneSpec a s) := congrArg withLockWindow hv
    rw [hu, hw]
    intro e hr he hl
    rw [← regEntry_taken txTuneSpec a] at he
    rw [← levelInUse_taken txTuneSpec a] at hl
    exact ⟨fun hst => exec_busy rfl hr (txTuneUnit_pending (c := cmdOf txTuneSpec a) he hl hst),
      fun hst => exec_busy rfl hr (txTuneUnit_on (c := cmdOf txTuneSpec a) he hl hst),
      fun hst => exec_busy rfl hr (txTuneUnit_muted (c := cmdOf txTuneSpec a) he hl hst),
      fun hp ho hm => exec_busy rfl hr (txTuneUnit_idle (c := cmdOf txTuneSpec a) he hl hp ho hm)⟩
  case start =>
    intro i e hr hst hm hi he hd
    rw [← tx_taken txStartSpec a s] at hst hi ⊢
    rw [← modeSet_taken txStartSpec a] at hm
    rw [← regEntry_taken txStartSpec a] at he
    rw [← dutyDenies_taken txStartSpec a] at hd
    exact exec_busy rfl hr (txStartUnit_pends (c := cmdOf txStartSpec a) hst hm hi he hd)
  case stopOn =>
    intro hr hst
    rw [← tx_taken txStopSpec a s] at hst
    exact exec_busy rfl hr (txStopUnit_on (c := cmdOf txStopSpec a) hst)
  case stopPending =>
    intro hr hst
    rw [← tx_taken txStopSpec a s] at hst
    exact exec_done rfl hr (txStopUnit_pending (c := cmdOf txStopSpec a) hst)
  case stopMuted =>
    intro hr hst
    rw [← tx_taken txStopSpec a s] at hst ⊢
    exact exec_done rfl hr (txStopUnit_muted (c := cmdOf txStopSpec a) hst)
  case level =>
    intro hr hmax
    rw [← curEntry_taken txLevelSetSpec a] at hmax
    rw [← tx_taken txLevelSetSpec a s]
    exact exec_done rfl hr (txLevelUnit_takes (c := cmdOf txLevelSetSpec a) hmax)
  case fm =>
    intro hr hdev hring
    rw [← txMode_taken txFmSetSpec a, ← curEntry_taken txFmSetSpec a] at hdev
    rw [← rings_taken txFmSetSpec a] at hring
    rw [← tx_taken txFmSetSpec a s]
    exact exec_done rfl hr (txFmUnit_takes (c := cmdOf txFmSetSpec a) hdev hring)
  case dab =>
    intro hr
    rw [← tx_taken txDabSetSpec a s]
    exact exec_done rfl hr rfl
  case breakinSet =>
    intro hr hfree
    rw [← pathLane_taken txBreakinSetSpec a, ← services_taken txBreakinSetSpec a, ← brkProg_taken txBreakinSetSpec a] at hfree
    rw [← tx_taken txBreakinSetSpec a s]
    exact exec_done rfl hr (txBreakinSetUnit_takes (c := cmdOf txBreakinSetSpec a) hfree)
  case sfn =>
    intro hr hm ho hmu hhead hfollower
    rw [← txMode_taken txSfnSetSpec a] at hm
    rw [← eth_taken txSfnSetSpec a] at hhead hfollower
    rw [← tx_taken txSfnSetSpec a s] at ho hmu ⊢
    exact exec_done rfl hr (txSfnUnit_takes (c := cmdOf txSfnSetSpec a) hm ho hmu hhead hfollower)
  case coex =>
    intro hr
    rw [← tx_taken coexSetSpec a s]
    exact exec_done rfl hr rfl
  case breakinStart =>
    intro hr hen hstart hsrc
    rw [← brkEn_taken txBreakinSpec a] at hen
    rw [← tx_taken txBreakinSpec a s]
    exact ⟨fun hrank => exec_done rfl hr (txBreakinUnit_behind (c := cmdOf txBreakinSpec a) hen hstart hsrc hrank),
      fun hrank hf => ⟨fun hd => exec_done rfl hr (txBreakinUnit_denied (c := cmdOf txBreakinSpec a) hen hstart hsrc hrank hf hd),
        fun hd => exec_done rfl hr (txBreakinUnit_starts (c := cmdOf txBreakinSpec a) hen hstart hsrc hrank hf hd)⟩⟩
  case breakinEnd =>
    intro h hr hen hend hheld
    rw [← brkEn_taken txBreakinSpec a] at hen
    rw [← tx_taken txBreakinSpec a s] at hheld ⊢
    exact exec_done rfl hr (txBreakinUnit_ends (c := cmdOf txBreakinSpec a) hen hend hheld)
  case monitor =>
    intro hr
    rw [← mon_taken txMonGetSpec a s]
    exact exec_done rfl hr rfl

end Sys2Proof.Machine
end

section
/-! The proofs about the commands of group 0x0A that set and read Sidereal (O12). -/

namespace Sys2Proof.Machine

/-! ## What is read of Sidereal -/

section Reads

variable {s t : State} (h : t.sid = s.sid)
include h

theorem timeSrc_of_sid : timeSrc t = timeSrc s := by
  rw [timeSrc, h, timeSrc]

theorem timeGetResult_of_sid : timeGetResult t = timeGetResult s := by
  simp only [timeGetResult, coastSeconds, timeSrc, h]

end Reads

section Taken

variable (sp : CmdSpec) (a : Args) (s : State)

theorem timeSrc_taken : timeSrc (taken sp a s) = timeSrc s := timeSrc_of_sid (sid_taken sp a s)

theorem timeGetResult_taken : timeGetResult (taken sp a s) = timeGetResult s := timeGetResult_of_sid (sid_taken sp a s)

end Taken

/-! ## The units (R340, R344, R345, R357) -/

section Units

variable {c : Cmd} {s : State}

/-- The state of Sidereal after a `TIME_SRC_SET` that names source `src` (Table 11-3). -/
def sourceTaken (s : State) (src : Nat) : TimeState :=
  if src = 0 then (if s.sid.valid then .free else .unset)
  else if s.sid.st = .unset ∨ s.sid.st = .free ∨ src ≠ timeSrc s then .acquiring else s.sid.st

theorem timeSrcSetUnit_takes (c : Cmd) (s : State) :
    ∃ q, timeSrcSetUnit c s = ok q ∧ q.sid.cfg = c.pl ∧ q.sid.st = sourceTaken s (byteAt c.pl 0) := by
  refine ⟨_, rfl, ?_⟩
  simp only [lossRestart, State.setSid_self, sourceTaken]
  by_cases hnone : byteAt c.pl 0 = 0
  · simp [hnone]
  · by_cases hsame : byteAt c.pl 0 = timeSrc s
    · rw [hsame] at hnone
      cases s.sid.st <;> simp [hnone, hsame]
    · cases s.sid.st <;> simp [hnone, hsame]

theorem timeSetUnit_waits (h : (byteAt c.pl 0 == 1) = true ∨ timeSrc s ≠ 2 ∨ le c.pl 4 4 = 0) :
    timeSetUnit c s = .busy (s.setSid { s.sid with
      stepReqs := s.sid.stepReqs ++ [⟨.timeSet, !(byteAt c.pl 0 == 1), !(byteAt c.pl 0 == 1) && timeSrc s == 2,
        if byteAt c.pl 0 == 1 then les c.pl 8 8 else ((le c.pl 8 8 * secU + le c.pl 4 4 * 65536 : Nat) : Int),
        s.sid.ticks, some (c.a.origin, c.a.tag.toNat)⟩] }) := by
  have hfits : ¬((byteAt c.pl 0 == 1) = false ∧ timeSrc s = 2 ∧ le c.pl 4 4 ≠ 0) := by
    rintro ⟨habs, hpps, hns⟩
    simp [habs, hpps, hns] at h
  exact if_neg hfits

theorem timeAcceptStepUnit_waits (h : s.sid.st = .refused) :
    timeAcceptStepUnit c s = .busy (s.setSid
      (if bit (byteAt c.pl 0) 0 then { s.sid with slewReq := some (c.a.origin, c.a.tag.toNat) }
       else { s.sid with
         stepReqs := s.sid.stepReqs ++ [⟨.accept, false, false, 0, s.sid.ticks, some (c.a.origin, c.a.tag.toNat)⟩] })) := by
  rw [timeAcceptStepUnit, if_neg (not_not.2 h)]
  split <;> rfl

theorem ptpSetUnit_eq (c : Cmd) (s : State) :
    ptpSetUnit c s = ok (s.setSid
      (if byteAt c.pl 0 = 0 then
         { s.sid with ptp := splice s.sid.ptp 0 [0], portState := 0, master := false, group := [] }
       else { s.sid with ptp := c.pl, portState := 4, master := false, group := [] })) := by
  rw [ptpSetUnit]
  split <;> rfl

theorem timeAdjustSpec_unit (c : Cmd) (s : State) : timeAdjustSpec.unit c s = timeAdjustUnit c s := by
  rw [timeAdjustSpec]

theorem timeAdjustUnit_samples (hsrc : timeSrc s = 3)
    (hpast : sidOf s.sid.now (BitVec.ofNat 64 (le c.pl 8 8)) ≤ s.sid.now)
    (hrecent : s.sid.now ≤ sidOf s.sid.now (BitVec.ofNat 64 (le c.pl 8 8)) + 3200 * tickU) :
    timeAdjustUnit c s =
      .done (if (sample s (les c.pl 0 8) true).sid.st = .refused then stTimeRefused else stOk) 0 []
        (sample s (les c.pl 0 8) true) := by
  have hintime : ¬(s.sid.now < sidOf s.sid.now (BitVec.ofNat 64 (le c.pl 8 8)) ∨
      sidOf s.sid.now (BitVec.ofNat 64 (le c.pl 8 8)) + 3200 * tickU < s.sid.now) :=
    not_or.2 ⟨hpast.not_gt, hrecent.not_gt⟩
  simp only [timeAdjustUnit, if_neg hintime, if_neg (not_not.2 hsrc)]
  split <;> rfl

end Units

/-! ## The obligation -/

/-- Settles O12: taking a command leaves Sidereal as it was, so each unit answers as on the state before. -/
theorem timeCommandsComplete : Obligations.TimeCommandsComplete := by
  unfold Obligations.TimeCommandsComplete
  intro a s
  refine ⟨?src, ?ptp, ?set, ?accept, ?adjust, ?get⟩
  case src =>
    intro hr
    obtain ⟨q, hu, hcfg, hst⟩ := timeSrcSetUnit_takes (cmdOf timeSrcSetSpec a) (taken timeSrcSetSpec a s)
    refine ⟨q, exec_done rfl hr hu, hcfg, hst.trans ?_⟩
    rw [sourceTaken, sid_taken, timeSrc_taken]
    rfl
  case ptp =>
    intro hr
    rw [← sid_taken ptpSetSpec a s]
    exact exec_done rfl hr (ptpSetUnit_eq (cmdOf ptpSetSpec a) _)
  case set =>
    intro hr rel ns h
    rw [← timeSrc_taken timeSetSpec a s] at h
    have hu := timeSetUnit_waits (c := cmdOf timeSetSpec a) h
    rw [timeSrc_taken, sid_taken] at hu
    exact exec_busy rfl hr hu
  case accept =>
    intro hr h
    rw [← sid_taken timeAcceptStepSpec a s] at h ⊢
    exact exec_busy rfl hr (timeAcceptStepUnit_waits (c := cmdOf timeAcceptStepSpec a) h)
  case adjust =>
    intro hr hsrc hpast hrecent
    rw [← timeSrc_taken timeAdjustSpec a s] at hsrc
    rw [← sid_taken timeAdjustSpec a s] at hpast hrecent
    exact exec_done rfl hr ((timeAdjustSpec_unit ..).trans
      (timeAdjustUnit_samples (c := cmdOf timeAdjustSpec a) hsrc hpast hrecent))
  case get =>
    intro hr
    rw [← timeGetResult_taken timeGetSpec a s]
    exact exec_done rfl hr rfl

end Sys2Proof.Machine
end

section
/-! The proofs about the sources of Sidereal (O13). -/

namespace Sys2Proof.Machine

/-! ## What an occurrence at a time leaves of Sidereal -/

section Left

variable (s : State)

/-- Only the present, and the cycles that it has counted, move with time. -/
@[simp] theorem advance_sid_frame (t : Sid) :
    (advance s t).sid.cfg = s.sid.cfg ∧ (advance s t).sid.ptp = s.sid.ptp ∧ (advance s t).sid.master = s.sid.master ∧
    (advance s t).sid.portState = s.sid.portState ∧ (advance s t).sid.gm = s.sid.gm ∧ (advance s t).sid.utc = s.sid.utc ∧
    (advance s t).sid.pathDelay = s.sid.pathDelay ∧ (advance s t).sid.syncTook = s.sid.syncTook ∧
    (advance s t).sid.reqSent = s.sid.reqSent ∧ (advance s t).sid.classSent = s.sid.classSent ∧
    (advance s t).sid.origin = s.sid.origin ∧ (advance s t).sid.group = s.sid.group ∧
    (advance s t).sid.isSet = s.sid.isSet ∧ (advance s t).sid.st = s.sid.st := by
  unfold advance
  split <;> simp [Sidereal.goTo]

@[simp] theorem ppsDrop_sid : (ppsDrop s).sid = s.sid := by
  unfold ppsDrop
  split <;> rfl

theorem heldRate_of_sid {t : State} (h : t.sid = s.sid) : heldRate t = heldRate s := by
  simp only [heldRate, h]

theorem clockClass_advance (t : Sid) : clockClass (advance s t) = clockClass s := by
  simp [clockClass]

end Left

/-! ## Coasting and samples (R342–R346) -/

section Samples

variable {s : State}

theorem coast_from_source (h : s.sid.st = .disciplined ∨ s.sid.st = .acquiring) :
    (coast s).sid.st = .coasting ∧ (coast s).sid.rPhase = 0 ∧ (coast s).sid.rFreq = heldRate s ∧
      (coast s).sid.coastFrom = s.sid.now := by
  rw [coast, if_pos h.symm]
  simp [coastRate, heldRate_of_sid s (ppsDrop_sid s)]

theorem coast_port (s : State) :
    (coast s).sid.master = s.sid.master ∧ (coast s).sid.portState = s.sid.portState ∧ (coast s).sid.gm = s.sid.gm := by
  unfold coast
  split <;> simp [coastRate]

@[simp] theorem lossRestart_group (s : State) : (lossRestart s).sid.group = s.sid.group := rfl

@[simp] theorem servo_group (s : State) (o : Int) : (servo s o).sid.group = s.sid.group := rfl

@[simp] theorem refuseStep_group (s : State) (o : Int) : (refuseStep s o).sid.group = s.sid.group := by
  simp [refuseStep, coastRate]

@[simp] theorem sampleAcquiring_group (s : State) : (sampleAcquiring s).sid.group = s.sid.group := by
  unfold sampleAcquiring
  dsimp only
  split
  · simp
  · split <;> simp [toDisciplined]

/-- A coasting Sidereal takes samples again once the reference is locked (Table 11-3). -/
def coastEnds (s : State) : State :=
  if s.sid.st = .coasting ∧ s.clk.state = .locked ∧ ¬ (timeSrc s = 1 ∧ s.sid.master) then
    s.setSid { s.sid with st := .acquiring, good := 0, inRow := 0 }
  else s

@[simp] theorem coastEnds_group (s : State) : (coastEnds s).sid.group = s.sid.group := by
  unfold coastEnds
  split <;> rfl

/-- An outlier is counted, and refused where it stands alone or is the last of the `n` that confirm it (R344). -/
def outlierSampled (s : State) (o : Int) (n : Nat) (single : Bool) : State :=
  let u := s.setSid { s.sid with outliers := sat 16 (s.sid.outliers + 1), inRow := s.sid.inRow + 1, good := 0 }
  if single ∨ n ≤ u.sid.inRow then refuseStep u o else u

@[simp] theorem outlierSampled_group (s : State) (o : Int) (n : Nat) (single : Bool) :
    (outlierSampled s o n single).sid.group = s.sid.group := by
  unfold outlierSampled
  dsimp only
  split <;> simp

/-- What a sample does where Sidereal follows its source (R343, R344, R346). -/
def followed (s : State) (o : Int) (n : Nat) (outlier single : Bool) : State :=
  match s.sid.st with
  | .acquiring | .disciplined =>
    if outlier then outlierSampled s o n single
    else if s.sid.st = .acquiring then sampleAcquiring s
    else (lossRestart (servo s o)).setSid { (lossRestart (servo s o)).sid with inRow := 0 }
  | _ => s

@[simp] theorem followed_group (s : State) (o : Int) (n : Nat) (outlier single : Bool) :
    (followed s o n outlier single).sid.group = s.sid.group := by
  unfold followed
  split
  · split_ifs <;> simp
  · split_ifs <;> simp
  · rfl

/-- An offset beyond the threshold, where Sidereal is set and the test is not suspended (R344). -/
def isOutlier (s : State) (o : Int) : Bool := s.sid.isSet && !s.sid.suspended && decide (jumpU s < o.natAbs)

theorem sample_eq (s : State) (o : Int) (single : Bool) :
    sample s o single =
      let u := s.setSid { s.sid with offset := o }
      let v := followed (coastEnds u) o (jumpConfirm u) (isOutlier u o) single
      v.setSid { v.sid with lastSample := if isOutlier u o then v.sid.lastSample else v.sid.now } := rfl

@[simp] theorem sample_group (s : State) (o : Int) (single : Bool) : (sample s o single).sid.group = s.sid.group := by
  simp [sample_eq]

end Samples

/-! ## PTP messages that arrive (R339, R341, R342, R464) -/

section Arrivals

variable {s : State} {t : Sid}

/-- A message has come to the port at `t` and is counted. -/
def messageCame (s : State) (t : Sid) : State :=
  (advance s t).setEth { s.eth with rxFrames := sat 32 (s.eth.rxFrames + 1) }

/-- An event message has come, and is stamped. -/
def eventCame (s : State) (t : Sid) : State :=
  (messageCame s t).setEth { (messageCame s t).eth with tsRx := sat 32 (s.eth.tsRx + 1) }

theorem messageCame_eq (s : State) (t : Sid) :
    messageCame s t = (advance s t).setEth { (advance s t).eth with rxFrames := sat 32 ((advance s t).eth.rxFrames + 1) } := by
  simp [messageCame]

theorem eventCame_eq (s : State) (t : Sid) :
    eventCame s t =
      (messageCame s t).setEth { (messageCame s t).eth with tsRx := sat 32 ((messageCame s t).eth.tsRx + 1) } := by
  simp [eventCame, messageCame]

theorem stampIn_eventCame (s : State) (t : Sid) : stampIn (eventCame s t) = stampIn (advance s t) := by
  simp [stampIn, eventCame, messageCame]

variable (hp : ptpPort s = true)
include hp

theorem port_takes : ¬ptpPort s = false := by simp [hp]

theorem exec_ptpMessage_sync (o c : Int) :
    exec (.ptpMessage (.sync o c) t) s = .next (syncIn (eventCame s t) o c) := by
  rw [eventCame_eq, messageCame_eq]
  exact if_neg (port_takes hp)

theorem exec_ptpMessage_delayResp (r c : Int) :
    exec (.ptpMessage (.delayResp r c) t) s = .next
      (if byteAt s.sid.ptp 0 == 2 then messageCame s t
       else (messageCame s t).setSid { (messageCame s t).sid with
         pathDelay := ((advance s t).sid.syncTook + (r - (advance s t).sid.reqSent - c)) / 2 }) := by
  rw [messageCame_eq]
  exact if_neg (port_takes hp)

theorem exec_ptpMessage_pdelayResp (d c : Int) :
    exec (.ptpMessage (.pdelayResp d c) t) s = .next
      (if byteAt s.sid.ptp 0 == 2 then (eventCame s t).setSid { (eventCame s t).sid with
         pathDelay := (stampIn (advance s t) - (advance s t).sid.reqSent - d - c) / 2 }
       else eventCame s t) := by
  rw [eventCame_eq, messageCame_eq]
  exact if_neg (port_takes hp)

theorem exec_ptpMessage_announce (gm : BitVec 64) (utc : BitVec 16) :
    exec (.ptpMessage (.announce gm utc) t) s =
      .next (setGm ((messageCame s t).setSid { (messageCame s t).sid with utc := utc.toNat }) gm) := by
  rw [messageCame_eq]
  exact if_neg (port_takes hp)

theorem exec_ptpMessage_other (event : Bool) :
    exec (.ptpMessage (.other event) t) s = .next (if event then eventCame s t else messageCame s t) := by
  rw [eventCame_eq, messageCame_eq]
  exact if_neg (port_takes hp)

end Arrivals

theorem setGm_sid (s : State) (gm : BitVec 64) : (setGm s gm).sid = { s.sid with gm := gm } := by
  unfold setGm
  split
  · next h => rw [h]
  · simp

theorem ptpSync_of_few {s : State} {o delay : Int} (h : s.sid.group.length + 1 < byteAt s.sid.ptp 10) :
    ptpSync s o delay = s.setSid { s.sid with group := s.sid.group ++ [(delay, o)] } := by
  simp [ptpSync, h]

theorem ptpSync_of_last {s : State} {o delay : Int} (h : byteAt s.sid.ptp 10 ≤ s.sid.group.length + 1) :
    (ptpSync s o delay).sid.group = [] := by
  simp only [ptpSync, List.length_append, List.length_singleton, if_neg h.not_gt]
  split <;> simp

theorem syncIn_eth (s : State) (o c : Int) : (syncIn s o c).eth = s.eth :=
  (syncIn_keeps (.refl _ s) (Sub.refl _)).same .eth rfl

/-! ## Roles and messages that are sent (R341, R342, R463, R464) -/

section Sends

variable {s : State} {t : Sid} (hp : ptpPort s = true)
include hp

theorem exec_ptpBmcaRoleChange {m : Bool} (hm : m = true → byteAt s.sid.ptp 3 = 1) (ps : Byte) (gm : BitVec 64) :
    ∃ q, exec (.ptpBmcaRoleChange m ps gm t) s = .next q ∧ q.sid.master = m ∧ q.sid.portState = ps.toNat ∧ q.sid.gm = gm := by
  have hrole : ¬(ptpPort s = false ∨ (m = true ∧ byteAt s.sid.ptp 3 ≠ 1)) :=
    not_or.2 ⟨port_takes hp, fun ⟨hmaster, hslave⟩ => hslave (hm hmaster)⟩
  refine ⟨_, if_neg hrole, ?_⟩
  dsimp only
  split
  · simp [coast_port, setGm_sid]
  · simp [setGm_sid]

/-- The port has sent a message. -/
def messageSent (s : State) (t : Sid) : State :=
  (advance s t).setEth { s.eth with txFrames := sat 32 (s.eth.txFrames + 1) }

/-- The port has sent an event message, which is stamped. -/
def eventSent (s : State) (t : Sid) : State :=
  (messageSent s t).setEth { (messageSent s t).eth with tsTx := sat 32 (s.eth.tsTx + 1) }

/-- What sending a message leaves (R342, R464). -/
def afterSend (s : State) (t : Sid) : PtpOut → State
  | .sync => (eventSent s t).setSid { (eventSent s t).sid with origin := stampOut (advance s t) }
  | .delayReq => (eventSent s t).setSid { (eventSent s t).sid with reqSent := stampOut (advance s t) }
  | .announce => (messageSent s t).setSid { (messageSent s t).sid with classSent := clockClass (advance s t) }
  | .other event => if event then eventSent s t else messageSent s t

theorem exec_ptpMessageSend {m : PtpOut} (ha : le s.eth.cfg 0 6 ≠ 0)
    (hm : m = .sync ∨ m = .announce → s.sid.master = true) :
    exec (.ptpMessageSend m t) s = .next (afterSend s t m) := by
  have hmay : ¬(ptpPort s = false ∨ le s.eth.cfg 0 6 = 0 ∨ ((m = .sync ∨ m = .announce) ∧ s.sid.master = false)) := by
    rintro (hno | hno | ⟨hsent, hslave⟩)
    · exact port_takes hp hno
    · exact ha hno
    · exact Bool.false_ne_true (hslave.symm.trans (hm hsent))
  refine (if_neg hmay).trans ?_
  cases m <;> simp [afterSend, eventSent, messageSent]

end Sends

theorem afterSend_frame (s : State) (t : Sid) (m : PtpOut) :
    (afterSend s t m).eth.txFrames = sat 32 (s.eth.txFrames + 1) ∧
      (afterSend s t m).sid.origin = (if m = .sync then stampOut (advance s t) else s.sid.origin) ∧
      (afterSend s t m).sid.reqSent = (if m = .delayReq then stampOut (advance s t) else s.sid.reqSent) ∧
      (afterSend s t m).sid.classSent = (if m = .announce then clockClass s else s.sid.classSent) := by
  cases m with
  | other event => cases event <;> simp [afterSend, eventSent, messageSent]
  | announce => simp [afterSend, messageSent, clockClass_advance]
  | _ => simp [afterSend, eventSent, messageSent]

/-! ## The other sources (R338, R339, R345, R346) -/

theorem exec_ppsInEdge {s : State} (hrun : s.sid.running = true) (hsrc : timeSrc s = 2) (t : Sid) :
    exec (.ppsInEdge (ppsFalling s) t) s =
      .next (sample (advance s t) (ppsOffset ((tenPs t : Int) - ppsDelay s)) false) :=
  if_neg (by simp [hrun, hsrc])

theorem exec_sourceLost {s : State} (hsrc : timeSrc s ≠ 0) (hx : expired s s.sid.lossBy = true) :
    exec .sourceLost s = .next (coast s) := if_pos ⟨hsrc, hx⟩

theorem exec_slewWithinThreshold {s : State} (hst : s.sid.st = .disciplined) (hsus : s.sid.suspended = true)
    (ho : s.sid.offset.natAbs ≤ jumpU s) :
    exec .slewWithinThreshold s = .next (evTimeCause (s.setSid { s.sid with suspended := false }) 0x04) :=
  if_pos ⟨hst, hsus, ho⟩

/-! ## The obligation -/

/-- Settles O13: what a port counts of a message, and what time moves on, leaves what each occurrence reads of Sidereal. -/
theorem timeSourcesAct : Obligations.TimeSourcesAct := by
  unfold Obligations.TimeSourcesAct
  intro s t
  refine ⟨fun hp => ⟨?sync, ?last, ?delay, ?pdelay, ?announce, ?other, fun m ps gm hm => exec_ptpBmcaRoleChange hp hm ps gm,
    fun m ha hm => ⟨_, exec_ptpMessageSend hp ha hm, afterSend_frame s t m⟩⟩, fun hrun hsrc => exec_ppsInEdge hrun hsrc t,
    fun hsrc hx hst => ⟨_, exec_sourceLost hsrc hx, coast_from_source hst⟩, exec_slewWithinThreshold⟩
  case sync =>
    intro o c hfew
    refine ⟨_, exec_ptpMessage_sync hp o c, ?_⟩
    rw [syncIn, ptpSync_of_few (by simpa [eventCame, messageCame] using hfew), stampIn_eventCame]
    simp [eventCame, messageCame, ptpAsym]
  case last =>
    intro o c hlast
    refine ⟨_, exec_ptpMessage_sync hp o c, ptpSync_of_last (by simpa [eventCame, messageCame] using hlast), ?_⟩
    rw [syncIn_eth]
    rfl
  case delay =>
    intro r c
    refine ⟨_, exec_ptpMessage_delayResp hp r c, ?_⟩
    by_cases hpeer : byteAt s.sid.ptp 0 = 2 <;> simp [hpeer, messageCame]
  case pdelay =>
    intro d c
    refine ⟨_, exec_ptpMessage_pdelayResp hp d c, ?_⟩
    by_cases hpeer : byteAt s.sid.ptp 0 = 2 <;> simp [hpeer, eventCame, messageCame]
  case announce =>
    intro gm utc
    exact ⟨_, exec_ptpMessage_announce hp gm utc, by simp [setGm_sid], by simp [setGm_sid]⟩
  case other =>
    intro event
    refine ⟨_, exec_ptpMessage_other hp event, ?_⟩
    cases event <;> simp [eventCame, messageCame]

end Sys2Proof.Machine
end

section
/-! The proofs about commands with a future `WHEN` and about the schedule commands of group 0x0A (O41, O52). -/

namespace Sys2Proof.Machine

section Taken

variable (sp : CmdSpec) (a : Args) (s : State)

theorem merid_taken : (taken sp a s).merid = s.merid := by simp

theorem freeSlot_taken : freeSlot (taken sp a s) = freeSlot s := by
  simp [freeSlot]

theorem schedResult_taken : schedResult (taken sp a s) = schedResult s := by
  funext i
  rw [schedResult, merid_taken, schedResult]

end Taken

/-! ## A command that goes to Meridian (R44, R349, R353) -/

section Scheduled

variable {sp : CmdSpec} {a : Args} {s : State}

/-- A packet with a non-zero `WHEN` that passes steps 1 to 9 goes to Meridian; a `SCHED_ADD` is executed at once (R351). -/
theorem submit_at (h : readyAt sp a s = true) :
    submit sp a s = if sp.op = 0x0A10 then launch sp (flightOf sp a s) (taken sp a s)
      else schedule sp (flightOf sp a s) (taken sp a s) := by
  simp only [readyAt, Bool.and_eq_true, Bool.not_eq_true', Option.isNone_iff_eq_none, decide_eq_true_eq, bne_iff_ne, ne_eq] at h
  obtain ⟨⟨⟨⟨⟨hopen, hlen⟩, htag⟩, hwhn⟩, hawake⟩, hchecks⟩ := h
  have hlater : (cmdOf sp a).immediate = false := beq_eq_false_iff_ne.2 hwhn
  have hthaw : thawServed s sp.op = false := by simp [thawServed, hawake]
  have htake : submit sp a s = dispatch (some sp) (flightOf sp a s) (enter (cmdOf sp a) s).2 := by
    simp [submit, take, Cmd.len, hopen, hlen, htag, flightOf, show (⟨sp.op, a⟩ : Cmd) = cmdOf sp a from rfl, hlater, hthaw]
  have hflight : (flightOf sp a s).cmd = cmdOf sp a := rfl
  have hpacket : tapeCommand (enter (cmdOf sp a) s).2 (cmdOf sp a) = taken sp a s := rfl
  have hnotThaw : thawServed (taken sp a s) sp.op = false := by simp [thawServed, hawake]
  simp [htake, dispatch, hflight, hpacket, hchecks, hlater, hnotThaw, hawake, show (cmdOf sp a).op = sp.op from rfl]

/-- The slot that a command takes (R349). -/
def plainSlot (sp : CmdSpec) (a : Args) (s : State) (w : Sid) : Slot :=
  { sched := false, cmd := cmdOf sp a, seq := s.merid.nextSeq, nominal := w, due := w, period := 0, firings := 1, passed := 0,
    fired := 0, skipped := 0, late := false, sample := sp.sample }

theorem schedule_waits {f : InFlight} {w : Sid} {k : Nat} (hw : sidOf s.sid.now f.cmd.a.whn = w) (hf : f.late = false)
    (hahead : s.sid.now + 2 * tickU ≤ w) (hfree : freeSlot s = some k) :
    schedule sp f s = (putFlight s { f with phase := .waiting, due := w }).setMerid { s.merid with
      nextSeq := s.merid.nextSeq + 1
      slots := mput s.merid.slots k
        { sched := false, cmd := f.cmd, seq := s.merid.nextSeq, nominal := w, due := w, period := 0, firings := 1, passed := 0,
          fired := 0, skipped := 0, late := false, sample := sp.sample } } := by
  have hnotPast : ¬w < s.sid.now := Nat.not_lt.2 (le_of_add_le_left hahead)
  have hnotSoon : ¬(s.sid.now ≤ w ∧ w < s.sid.now + 2 * tickU) := fun h => hahead.not_gt h.2
  simp only [schedule, hw, hfree, hnotPast, hnotSoon, hf, decide_false, false_and, if_false]

theorem schedule_past {f : InFlight} (hpast : sidOf s.sid.now f.cmd.a.whn < s.sid.now) (hlate : f.cmd.lateOk = false) :
    schedule sp f s =
      complete s f stLate (lateness s.sid.now (sidOf s.sid.now f.cmd.a.whn)) [] s.sid.now s.ev.nextId :=
  if_pos ⟨hpast, hlate⟩

theorem schedule_full {f : InFlight} (hw : s.sid.now ≤ sidOf s.sid.now f.cmd.a.whn) (hfull : freeSlot s = none) :
    schedule sp f s = complete s f stNoResource 0 [] s.sid.now s.ev.nextId := by
  have hnotPast : ¬(sidOf s.sid.now f.cmd.a.whn < s.sid.now ∧ f.cmd.lateOk = false) := fun h => hw.not_gt h.1
  simp only [schedule, if_neg hnotPast, hfull]

/-- A command with a `WHEN` that is not a `SCHED_ADD`. -/
theorem exec_at {i : Instr} (hi : hostCommand i = some (sp, a)) (h : readyAt sp a s = true) (hop : sp.op ≠ 0x0A10) :
    exec i s = .next (schedule sp (flightOf sp a s) (taken sp a s)) := by
  rw [exec_host s hi, submit_at h, if_neg hop]

end Scheduled

/-- Settles O52: what remains of its `WHEN` and of the slots decides how Meridian takes the command. -/
theorem futureCommandTakesASlot : Obligations.FutureCommandTakesASlot := by
  unfold Obligations.FutureCommandTakesASlot
  intro i sp a s hi h hop w
  have hsid := sid_taken sp a s
  have hev := ev_taken sp a s
  have hslots := freeSlot_taken sp a s
  rw [exec_at hi h hop]
  refine ⟨?waits, ?past, ?full⟩
  case waits =>
    intro k hahead hfree
    rw [schedule_waits (w := w) (k := k) (by rw [hsid]; rfl) rfl (by rwa [hsid]) (by rwa [hslots])]
    simp
    rfl
  case past =>
    intro hpast hlate
    rw [schedule_past (by rwa [hsid]) hlate, hsid, hev]
    rfl
  case full =>
    intro hw hfull
    rw [schedule_full (by rwa [hsid]) (by rwa [hslots]), hsid, hev]

/-- What is executed at once has no `WHEN`. -/
theorem ready_immediate {sp : CmdSpec} {a : Args} {s : State} (h : ready sp a s = true) : (cmdOf sp a).immediate = true := by
  simp only [ready, Bool.and_eq_true] at h
  obtain ⟨⟨⟨⟨⟨⟨⟨⟨⟨⟨_, hwhn⟩, _⟩, _⟩, _⟩, _⟩, _⟩, _⟩, _⟩, _⟩, _⟩ := h
  exact hwhn

theorem readyAt_later {sp : CmdSpec} {a : Args} {s : State} (h : readyAt sp a s = true) : (cmdOf sp a).immediate = false := by
  simp only [readyAt, Bool.and_eq_true] at h
  obtain ⟨⟨⟨_, hwhn⟩, _⟩, _⟩ := h
  exact beq_eq_false_iff_ne.2 (bne_iff_ne.1 hwhn)

/-! ## SCHED_ADD (R349, R351, R353, R354) -/

section SchedAdd

variable {c : Cmd} {s : State}

/-- The first firing of a `SCHED_ADD`: the next tick boundary, or its `WHEN`. -/
def firstFiring (c : Cmd) (s : State) : Sid := if c.immediate then s.sid.next else sidOf s.sid.now c.a.whn

/-- The slot that a `SCHED_ADD` enters. -/
def schedSlot (c : Cmd) (s : State) (nominal due : Sid) (late : Bool) : Slot :=
  { sched := true, cmd := embedded c, seq := s.merid.nextSeq, nominal := nominal, due := due, period := le c.pl 0 4,
    firings := le c.pl 4 4, passed := 0, fired := 0, skipped := 0, late := late,
    sample := ((plainSpec (embedded c).op).map (·.sample)).getD false }

/-- Slot `i` is taken by `v`. -/
def slotEntered (s : State) (i : Nat) (v : Slot) : State :=
  s.setMerid { s.merid with nextSeq := s.merid.nextSeq + 1, slots := mput s.merid.slots i v }

variable {i : Nat} {w : Sid} (hw : firstFiring c s = w) (he : checkEmbedded s (embedded c) = none) (hi : freeSlot s = some i)
include hw he hi

theorem schedAddUnit_ahead (h : s.sid.now + 2 * tickU ≤ w) :
    schedAddUnit c s = okWith (leBytes 4 i) (slotEntered s i (schedSlot c s w w false)) := by
  have hnotPast : ¬w < s.sid.now := Nat.not_lt.2 (le_of_add_le_left h)
  have hnotSoon : ¬(s.sid.now ≤ w ∧ w < s.sid.now + 2 * tickU) := fun hsoon => h.not_gt hsoon.2
  rw [firstFiring] at hw
  simp only [schedAddUnit, he, hw, hi, hnotPast, hnotSoon, decide_false, false_and, if_false]
  rfl

theorem schedAddUnit_soon (h : s.sid.now ≤ w) (hsoon : w < s.sid.now + 2 * tickU) :
    schedAddUnit c s =
      okWith (leBytes 4 i) (fire i (schedSlot c s w w false) (slotEntered s i (schedSlot c s w w false))) := by
  rw [firstFiring] at hw
  simp only [schedAddUnit, he, hw, hi, h.not_gt, h, hsoon, decide_false, false_and, and_self, if_false, if_true]
  rfl

theorem schedAddUnit_late (h : w < s.sid.now) (hlate : c.lateOk = true) :
    schedAddUnit c s = okWith (leBytes 4 i) (slotEntered s i (schedSlot c s w s.sid.next true)) := by
  rw [firstFiring] at hw
  simp only [schedAddUnit, he, hw, hi, h, hlate, h.not_ge, decide_true, and_false, false_and, Bool.true_eq_false, if_false,
    if_true]
  rfl

end SchedAdd

/-- The target of a packet that passes step 6 is one that its command accepts. -/
theorem target_of_checkTarget {sp : CmdSpec} {s : State} {c : Cmd} (h : checkTarget sp s c = none) : sp.target c.tgt = true := by
  by_contra hno
  rw [Bool.not_eq_true] at hno
  rw [checkTarget] at h
  split at h
  · cases h
  · cases h

section Commands

variable {a : Args} {s : State}

/-- Meridian's own commands are served in every state of the device that is awake. -/
theorem judge_schedAdd {c : Cmd} (h : toTime c.tgt = true) : judge schedAddSpec c s = schedAddUnit c s := by
  have htgt : c.tgt = 0x0A00 := by simpa [toTime] using h
  have hserved : servedInFrost c.unitId = true := by simp [servedInFrost, Cmd.unitId, show c.a.target.toNat = 0x0A00 from htgt]
  simp [judge, hserved, schedAddSpec, legacyHolds, spareHolds, replayHolds, replayed, toFull, toZone, toLane, toSurvey, toFlake,
    htgt]

theorem exec_schedAdd_at {b : Bytes} {q : State} (h : readyAt schedAddSpec a s = true)
    (hu : schedAddUnit (cmdOf schedAddSpec a) (taken schedAddSpec a s) = okWith b q) :
    exec (.schedAdd a) s = .next (answer schedAddSpec a s stOk 0 b q) := by
  have hchecks : checkTarget schedAddSpec (taken schedAddSpec a s) (cmdOf schedAddSpec a) = none := by
    simpa using (Bool.and_eq_true_iff.1 h).2
  have hjudge := (judge_schedAdd (s := taken schedAddSpec a s) (target_of_checkTarget hchecks)).trans hu
  have hop : schedAddSpec.op = 0x0A10 := rfl
  have hcmd : (flightOf schedAddSpec a s).cmd = cmdOf schedAddSpec a := rfl
  rw [exec_host (i := .schedAdd a) s rfl, submit_at h, if_pos hop, launch, hcmd, hjudge]
  simp [okWith, answer, show (flightOf schedAddSpec a s).due = 0 from rfl]

end Commands

/-! ## SCHED_CANCEL (R356) -/

section Cancel

variable {c : Cmd} {s : State} {v : Slot} (hv : mget s.merid.slots (le c.pl 0 2) = some v)
include hv

theorem schedCancelUnit_entry (hs : v.sched = true) : schedCancelUnit c s = ok (putSlot s (le c.pl 0 2) none) := by
  simp only [schedCancelUnit, hv, hs, if_true]

theorem schedCancelUnit_plain (hs : v.sched = false) : schedCancelUnit c s = badState := by
  simp only [schedCancelUnit, hv, hs, Bool.false_eq_true, if_false]

end Cancel

/-! ## The obligation -/

/-- Settles O41: taking a command leaves Sidereal and Meridian's slots as they were, so each unit answers as on the state
before. -/
theorem scheduleCommandsComplete : Obligations.ScheduleCommandsComplete := by
  unfold Obligations.ScheduleCommandsComplete
  intro a s u e v kept w
  have hsid : u.sid = s.sid := sid_taken schedAddSpec a s
  have hmerid : u.merid = s.merid := merid_taken schedAddSpec a s
  have hslots : freeSlot u = freeSlot s := freeSlot_taken schedAddSpec a s
  have hslot (n d : Sid) (l : Bool) : schedSlot (cmdOf schedAddSpec a) u n d l =
      { v with nominal := n, due := d, late := l } := by
    rw [schedSlot, hmerid]
    rfl
  have hentered (i : Nat) (x : Slot) : slotEntered u i x = kept i x := by
    rw [slotEntered, hmerid]
  refine ⟨?boundary, ?whn, ?cancel, ?plain, ?get⟩
  case boundary =>
    intro i hr he hi hnow
    have hw : firstFiring (cmdOf schedAddSpec a) u = s.sid.next := by
      rw [firstFiring, ready_immediate hr, if_pos rfl, hsid]
    rw [← hslots] at hi
    refine ⟨fun hsoon => ?_, fun hahead => ?_⟩
    · have hu := schedAddUnit_soon hw he hi (by rwa [hsid]) (by rwa [hsid])
      rw [hslot, hentered] at hu
      exact exec_done rfl hr hu
    · have hu := schedAddUnit_ahead hw he hi (by rwa [hsid])
      rw [hslot, hentered] at hu
      exact exec_done rfl hr hu
  case whn =>
    intro i hr he hi x
    have hw : firstFiring (cmdOf schedAddSpec a) u = w := by
      rw [firstFiring, readyAt_later hr, if_neg Bool.false_ne_true, hsid]
    rw [← hslots] at hi
    refine ⟨fun hahead => ?_, fun hnow hsoon => ?_, fun hpast hlate => ?_⟩
    · have hu := schedAddUnit_ahead hw he hi (by rwa [hsid])
      rw [hslot, hentered] at hu
      exact exec_schedAdd_at hr hu
    · have hu := schedAddUnit_soon hw he hi (by rwa [hsid]) (by rwa [hsid])
      rw [hslot, hentered] at hu
      exact exec_schedAdd_at hr hu
    · have hu := schedAddUnit_late hw he hi (by rwa [hsid]) hlate
      rw [hslot, hentered, hsid] at hu
      exact exec_schedAdd_at hr hu
  case cancel =>
    intro v hr hv hs
    rw [← merid_taken schedCancelSpec a s] at hv
    exact exec_done rfl hr (schedCancelUnit_entry (c := cmdOf schedCancelSpec a) hv hs)
  case plain =>
    intro v hr hv hs
    rw [← merid_taken schedCancelSpec a s] at hv
    exact exec_deny rfl hr (schedCancelUnit_plain (c := cmdOf schedCancelSpec a) hv hs)
  case get =>
    intro hr
    rw [← schedResult_taken schedGetSpec a s]
    exact exec_done rfl hr rfl

end Sys2Proof.Machine
end

section
/-! The proofs about the commands of group 0x0B, capture and replay (O30). -/

namespace Sys2Proof.Machine

/-! ## Streaming and loading (R374, R375) -/

section Rings

variable {c : Cmd} {s : State} {n : Nat} {k : RingKind} {r : Machine.Ring}

/-- Ring `n` is one of kind `k` that nothing uses. -/
theorem ringDenied_unbound (hr : mget s.rings n = some r) (hk : r.kind = k) (hd : r.destroying = none) (hb : r.bind = .none)
    (off : Nat) : ringDenied s n off k (ringBound s n) = none := by
  have hfree : ringBound s n = false := by simp [ringBound, hr, hb]
  rw [hfree, ringDenied_free hr hk hd]

theorem firnStreamUnit_begins (hst : s.firn.st = .frozen) (hx : executing s 0x0B04 0x0B00 = none)
    (hden : ringDenied s (byteAt c.pl 0) 0 .streamOut (ringBound s (byteAt c.pl 0)) = none) :
    firnStreamUnit c s = .busy ((markRing s (byteAt c.pl 0) .firnOut).setFirn { s.firn with sent := 0 }) := by
  simp only [firnStreamUnit, hst, hx, hden, ne_eq, not_true_eq_false, Option.isSome_none, Bool.false_eq_true, or_self, if_false]

theorem firnLoadUnit_begins (hst : s.firn.st = .off ∨ s.firn.st = .frozen ∨ s.firn.st = .loaded)
    (hx : executing s 0x0B04 0x0B00 = none)
    (hden : ringDenied s (byteAt c.pl 0) 0 .streamIn (ringBound s (byteAt c.pl 0)) = none) :
    firnLoadUnit c s = .busy ((markRing s (byteAt c.pl 0) .firnIn).setFirn
      { Firn.reset with st := .loading, shed := s.firn.shed, rpRing := byteAt c.pl 0 }) := by
  have hmay : ¬((s.firn.st ≠ .off ∧ s.firn.st ≠ .frozen ∧ s.firn.st ≠ .loaded) ∨
      (executing s 0x0B04 0x0B00).isSome = true) := by
    rintro (⟨h1, h2, h3⟩ | h)
    · exact hst.elim h1 fun h => h.elim h2 h3
    · simp [hx] at h
  simp only [firnLoadUnit, if_neg hmay, hden]

end Rings

/-! ## The recording (R367, R376) -/

section Recording

variable {c : Cmd} {s : State}

theorem firnArmUnit_arms (h : s.firn.st = .off) :
    firnArmUnit c s = ok (s.setFirn { Firn.reset with
      st := .armed, cfg := c.pl, shed := s.firn.shed, rates := [(s.sid.now, fsOf s / 1000, s.clk.sclkMode)] }) :=
  if_neg (not_not.2 h)

theorem firnTriggerUnit_fires (h : s.firn.st = .armed) :
    firnTriggerUnit c s = ok (fireFirn s 1 0 (s.sid.next - tickU)) := if_neg (not_not.2 h)

theorem firnDisarmUnit_releases (h : s.firn.st = .armed ∨ s.firn.st = .triggered ∨ s.firn.st = .frozen ∨ s.firn.st = .loaded) :
    firnDisarmUnit c s = ok (finishOp (s.setFirn { Firn.reset with shed := s.firn.shed }) 0x0B04 0x0B00 stBadState 0 []
      s.ev.nextId) := by
  rcases h with h | h | h | h <;> simp only [firnDisarmUnit, h] <;> rfl

/-- What a replay begins with (R376): the merged tape and the chunks from its start, and the first plan of the header waiting. -/
def replayBegun (c : Cmd) (s : State) : State :=
  let f := s.firn
  let tape := replayTape f (le c.pl 4 4)
  let start := (tape.head?.map (·.time)).getD 0
  (s.setFirn { f with
    st := .replaying, rpRing := byteAt c.pl 0, rpFrom := le c.pl 4 4, rpAlerts := 0, bad := 0, firstBad := 0, rpOn := false
    rpTape := tape, rpRuns := [], rpGaps := []
    rpChunks := (f.chunks.foldl (fun acc x => insertChunk x acc) []).filter fun x => decide (start ≤ x.time) }).setAur
  { s.aur with pend := some ⟨le f.header 60 4, byteAt f.header 64, 0, false⟩, approved := true }

theorem firnReplayUnit_begins {r : Machine.Ring} (hst : s.firn.st = .loaded) (hr : mget s.rings (byteAt c.pl 0) = some r)
    (hk : r.kind = .completion) (hfrom : le c.pl 4 4 < le s.firn.header 68 4) (htape : replayTape s.firn (le c.pl 4 4) ≠ [])
    (hfree : replayFree s (le c.pl 4 4) = true) : firnReplayUnit c s = .busy (replayBegun c s) := by
  have hfits : ¬(le s.firn.header 68 4 ≤ le c.pl 4 4 ∨ replayTape s.firn (le c.pl 4 4) = []) := not_or.2 ⟨hfrom.not_ge, htape⟩
  simp only [firnReplayUnit, hst, hr, hk, if_neg hfits, hfree, ne_eq, not_true_eq_false, Bool.true_eq_false, if_false]
  rfl

end Recording

/-! ## The obligation -/

section Taken

variable (sp : CmdSpec) (a : Args) (s : State)

theorem fsOf_taken : fsOf (taken sp a s) = fsOf s := by
  simp [fsOf]

theorem firnState_taken : (taken sp a s).firn.st = s.firn.st := (taken_firn sp a s).1

theorem firnHeader_taken : (taken sp a s).firn.header = s.firn.header := (taken_firn sp a s).2.2

end Taken

/-- Settles O30: taking a command leaves the state of Firn, the header that it holds and the rings as they were, so each unit
answers as on the state before. -/
theorem captureCommandsComplete : Obligations.CaptureCommandsComplete := by
  unfold Obligations.CaptureCommandsComplete
  intro a s b
  refine ⟨?arm, ?trigger, ?disarm, ?stream, ?load, ?replay, fun hr => exec_done rfl hr rfl⟩
  case arm =>
    intro hr hst
    rw [← firnState_taken firnArmSpec a] at hst
    rw [← sid_taken firnArmSpec a s, ← fsOf_taken firnArmSpec a, ← clk_taken firnArmSpec a s]
    exact exec_done rfl hr (firnArmUnit_arms (c := cmdOf firnArmSpec a) hst)
  case trigger =>
    intro hr hst
    rw [← firnState_taken firnTriggerSpec a] at hst
    rw [← sid_taken firnTriggerSpec a s]
    exact exec_done rfl hr (firnTriggerUnit_fires (c := cmdOf firnTriggerSpec a) hst)
  case disarm =>
    intro hr hst
    rw [← firnState_taken firnDisarmSpec a] at hst
    rw [← ev_taken firnDisarmSpec a s]
    exact exec_done rfl hr (firnDisarmUnit_releases (c := cmdOf firnDisarmSpec a) hst)
  case stream =>
    intro r hr hst hx hring hk hd hb
    rw [← firnState_taken firnStreamSpec a] at hst
    rw [← rings_taken firnStreamSpec a] at hring
    exact exec_busy rfl hr (firnStreamUnit_begins (c := cmdOf firnStreamSpec a) hst hx (ringDenied_unbound hring hk hd hb 0))
  case load =>
    intro r hr hst hx hring hk hd hb
    rw [← firnState_taken firnLoadSpec a] at hst
    rw [← rings_taken firnLoadSpec a] at hring
    exact exec_busy rfl hr (firnLoadUnit_begins (c := cmdOf firnLoadSpec a) hst hx (ringDenied_unbound hring hk hd hb 0))
  case replay =>
    intro r hr hst hring hk hfrom htape hfree
    rw [← firnState_taken firnReplaySpec a] at hst
    rw [← rings_taken firnReplaySpec a] at hring
    rw [← firnHeader_taken firnReplaySpec a] at hfrom ⊢
    have hu := firnReplayUnit_begins (c := cmdOf firnReplaySpec a) hst hring hk hfrom htape hfree
    exact ⟨_, exec_busy rfl hr hu, rfl, rfl, rfl, rfl, rfl, rfl, rfl⟩

end Sys2Proof.Machine
end

section
/-! PROOF. The occurrences of Firn (O31): chunks, checkpoints, triggers, the stream, a load and a replay. -/

namespace Sys2Proof.Machine

/-! ## A completion tapes, and changes nothing else of the record -/

/-- What an entry on the tape leaves of the recording. -/
def firnLook (s : State) : FirnState × Bytes × Bytes := (s.firn.st, s.firn.cfg, s.firn.header)

theorem firnLook_of_firn {s q : State} (h : q.firn = s.firn) : firnLook q = firnLook s := by
  rw [firnLook, h, firnLook]

@[simp] theorem tape_firnLook (s : State) (k : Nat) (b : Bytes) (t : Sid) : firnLook (tape s k b t) = firnLook s := by
  simp [firnLook]

theorem foldl_postToRing_firn (w : EvWindow) (ns : List Nat) (s : State) : (ns.foldl (postToRing w) s).firn = s.firn := by
  induction ns generalizing s with
  | nil => rfl
  | cons n ns ih => rw [List.foldl_cons, ih]; simp

@[simp] theorem postEvent_firnLook (s : State) (w : EvWindow) : firnLook (postEvent s w) = firnLook s := by
  refine Eq.trans ?_ (tape_firnLook s 3 (eventBytes w) w.time)
  unfold postEvent
  dsimp only
  split
  · split
    · rfl
    · exact firnLook_of_firn (by simp)
  · exact firnLook_of_firn (foldl_postToRing_firn ..)

theorem foldl_postEvent_firnLook (ws : List EvWindow) (s : State) : firnLook (ws.foldl postEvent s) = firnLook s := by
  induction ws generalizing s with
  | nil => rfl
  | cons w ws ih => rw [List.foldl_cons, ih, postEvent_firnLook]

@[simp] theorem flushFrom_firnLook (s : State) (mark : Nat) (evs : List Nat) :
    firnLook (flushFrom s mark evs) = firnLook s := by
  unfold flushFrom
  exact foldl_postEvent_firnLook ..

@[simp] theorem postCpl_firnLook (s : State) (o : Origin) (tag flags st d : Nat) (r : Bytes) (t : Sid) (fl : Bool) :
    firnLook (postCpl s o tag flags st d r t fl) = firnLook s := by
  refine Eq.trans ?_ (tape_firnLook s 2 ((cplBytes tag flags st d (cplTime s t) r).take 16) t)
  unfold postCpl
  dsimp only
  generalize tape s 2 _ t = q
  cases o with
  | ring n =>
    dsimp only
    cases mget q.rings n with
    | some w => exact firnLook_of_firn (by simp)
    | none => rfl
  | mailbox => exact firnLook_of_firn (by simp)
  | legacy => exact firnLook_of_firn (by simp)
  | replay i => exact firnLook_of_firn (by simp)

@[simp] theorem complete1_firnLook (s : State) (f : InFlight) (st d : Nat) (r : Bytes) (t : Sid) (mark : Nat) :
    firnLook (complete1 s f st d r t mark) = firnLook s := by
  unfold complete1
  split
  · rfl
  · simp only [postCpl_firnLook, flushFrom_firnLook]
    exact firnLook_of_firn (by simp)

theorem dropRing_firn (s : State) (n : Nat) : (dropRing s n).firn = s.firn := by
  simp

@[simp] theorem finishDestroy_firnLook (s : State) (e : Nat × Ring) : firnLook (finishDestroy s e) = firnLook s := by
  unfold finishDestroy
  split
  · rfl
  · split
    · rfl
    · split
      · exact firnLook_of_firn (by simp)
      · exact (firnLook_of_firn (dropRing_firn ..)).trans (complete1_firnLook ..)

theorem foldl_finishDestroy_firnLook (l : List (Nat × Ring)) (s : State) : firnLook (l.foldl finishDestroy s) = firnLook s := by
  induction l generalizing s with
  | nil => rfl
  | cons e l ih => rw [List.foldl_cons, ih, finishDestroy_firnLook]

@[simp] theorem finishOp_firnLook (s : State) (op tgt st d : Nat) (r : Bytes) (mark : Nat) :
    firnLook (finishOp s op tgt st d r mark) = firnLook s := by
  unfold finishOp
  split
  · exact (foldl_finishDestroy_firnLook ..).trans (complete1_firnLook ..)
  · rfl

section Finished

variable (s : State) (op tgt st d : Nat) (r : Bytes) (mark : Nat)

@[simp] theorem finishOp_firnState : (finishOp s op tgt st d r mark).firn.st = s.firn.st :=
  congrArg Prod.fst (finishOp_firnLook s op tgt st d r mark)

@[simp] theorem finishOp_firnHeader : (finishOp s op tgt st d r mark).firn.header = s.firn.header :=
  congrArg (·.2.2) (finishOp_firnLook s op tgt st d r mark)

end Finished

/-! ## The rows -/

section Rows

variable {s : State} {t : Sid}

theorem setFirn_firn (q : State) (f : Firn) : (q.setFirn f).firn = f := rfl

theorem freeFirnRing_none {b : Bind} (h : firnRing s b = none) : freeFirnRing s b = s := by
  rw [freeFirnRing, h]

section Chunk

variable {source : BitVec 16} {c : Chunk} (hwait : s.firn.wait.find? (fun c => c.source == source.toNat) = some c)
  (hrec : firnRecords s = true)

include hwait hrec

theorem execFirnChunk_denied : execFirnChunk source true t s =
    .next (denyChunk ((advance s t).setFirn { s.firn with wait := s.firn.wait.erase c }) c) := by
  simp only [execFirnChunk, hwait, hrec, Bool.true_eq_false, if_false, if_true]

theorem execFirnChunk_stored (hgap : mget s.firn.denied source.toNat = none) : execFirnChunk source false t s =
    .next (putChunk ((advance s t).setFirn { s.firn with wait := s.firn.wait.erase c }) c) := by
  simp only [execFirnChunk, hwait, hrec, hgap, Bool.true_eq_false, Bool.false_eq_true, if_false, setFirn_firn]

theorem execFirnChunk_gapStored {g : Chunk} (hgap : mget s.firn.denied source.toNat = some g) :
    execFirnChunk source false t s = .next (putChunk (putChunk ((advance s t).setFirn
      { s.firn with wait := s.firn.wait.erase c, denied := mdel s.firn.denied source.toNat }) g) c) := by
  simp only [execFirnChunk, hwait, hrec, hgap, Bool.true_eq_false, Bool.false_eq_true, if_false, setFirn_firn]
  rfl

end Chunk

section Trigger

variable {cause i n : Nat} {u : Sid} (hp : pendingTrigger s cause = some (i, u, n))

include hp

theorem execFirnTriggerFired_armed (hst : s.firn.st = .armed) : execFirnTriggerFired cause t s =
    .next (fireFirn ((advance s t).setFirn { s.firn with seen := mput s.firn.seen cause n }) cause i u) := by
  simp only [execFirnTriggerFired, hp, hst]

theorem execFirnTriggerFired_triggered (hst : s.firn.st = .triggered) : execFirnTriggerFired cause t s =
    .next (tapeTrigger ((advance s t).setFirn { s.firn with seen := mput s.firn.seen cause n }) cause u) := by
  simp only [execFirnTriggerFired, hp, hst]

end Trigger

section Stream

variable (hrun : (executing s 0x0B04 0x0B00).isSome = true)

theorem execFirnStreamComplete_goesOn
    (hleft : (streamFirn (advance s t)).firn.sent < (container (streamFirn (advance s t)).firn).length) :
    execFirnStreamComplete t s = .next (streamFirn (advance s t)) :=
  if_neg fun h => hleft.not_ge h.2

variable (hall : (container (streamFirn (advance s t)).firn).length ≤ (streamFirn (advance s t)).firn.sent)

include hrun hall

theorem execFirnStreamComplete_unringed (hring : firnRing (streamFirn (advance s t)) .firnOut = none) :
    execFirnStreamComplete t s = .next (finishOp (streamFirn (advance s t)) 0x0B04 0x0B00 stOk 0 []
      (streamFirn (advance s t)).ev.nextId) := by
  refine (if_pos ⟨hrun, hall⟩).trans ?_
  simp only [hring, freeFirnRing_none hring]

theorem execFirnStreamComplete_ringed {n : Nat} {r : Ring} (hring : firnRing (streamFirn (advance s t)) .firnOut = some n)
    (hr : mget (streamFirn (advance s t)).rings n = some r) :
    let w := streamFirn (advance s t)
    let u := if 0 < r.fill then returnBuf w n r r.fill r.bufGap else w
    execFirnStreamComplete t s = .next (finishOp (freeFirnRing u .firnOut) 0x0B04 0x0B00 stOk 0 [] u.ev.nextId) := by
  refine (if_pos ⟨hrun, hall⟩).trans ?_
  simp only [hring, hr]

end Stream

section Load

variable {r : Ring} (hr : mget s.rings s.firn.rpRing = some r) (hst : s.firn.st = .loading) (hb : r.bind = .firnIn)
  (hlen : 128 ≤ r.inData.length)

/-- The ring of a load, with its first bytes consumed, is free again. -/
def loadRingFreed (s : State) (n : Nat) (r : Ring) (used : Nat) : State :=
  markRing (putRing s n { r with inData := r.inData.drop used }) n .none

include hst hb hlen

theorem load_judged : ¬(s.firn.st ≠ .loading ∨ r.bind ≠ .firnIn ∨ r.inData.length < 128) := by
  simp [hst, hb, hlen]

include hr

theorem execFirnLoadComplete_refused {e : Nat × Nat} (hf : loadFault (advance s t) r.inData = some e) :
    execFirnLoadComplete t s = .next (finishOp ((loadRingFreed (advance s t) s.firn.rpRing r r.inData.length).setFirn
      { Firn.reset with shed := s.firn.shed }) 0x0B05 0x0B00 e.1 e.2 [] (advance s t).ev.nextId) := by
  simp only [execFirnLoadComplete, hr, if_neg (load_judged hst hb hlen), hf]
  rfl

theorem execFirnLoadComplete_waits (hf : loadFault (advance s t) r.inData = none) (hpart : r.inData.length < le r.inData 16 8) :
    execFirnLoadComplete t s = .next s := by
  simp only [execFirnLoadComplete, hr, if_neg (load_judged hst hb hlen), hf, if_pos hpart]

theorem execFirnLoadComplete_loads (hf : loadFault (advance s t) r.inData = none)
    (hwhole : le r.inData 16 8 ≤ r.inData.length) : execFirnLoadComplete t s =
      .next (finishOp (loadFirn (loadRingFreed (advance s t) s.firn.rpRing r (le r.inData 16 8)) r.inData) 0x0B05 0x0B00 stOk 0 []
        (advance s t).ev.nextId) := by
  simp only [execFirnLoadComplete, hr, if_neg (load_judged hst hb hlen), hf, if_neg hwhole.not_gt]
  rfl

end Load

/-- The state at a recorded checkpoint that is met, off the recorded time scale again. -/
def checkpointMet (s : State) (t : Sid) (e : TapeEntry) (es : List TapeEntry) : State :=
  let q := meetCheckpoint (feedRecord (onRecord (advance s t)) e.time) e
  offScale (advance s t) (q.setFirn { q.firn with rpTape := es })

theorem execReplayCheckpoint_met {e : TapeEntry} {es : List TapeEntry} (htape : s.firn.rpTape = e :: es)
    (h : s.firn.st = .replaying ∧ s.firn.rpOn = true ∧ e.kind = 11 ∧ e.time ≤ (onRecord (advance s t)).sid.now) :
    execReplayCheckpoint t s = .next (checkpointMet s t e es) := by
  simp only [execReplayCheckpoint, htape, if_pos h]
  rfl

section Met

variable (e : TapeEntry) (es : List TapeEntry)

theorem offScale_sid (q : State) : (offScale s q).sid = s.sid := rfl

theorem checkpointMet_tape : (checkpointMet s t e es).firn.rpTape = es := rfl

theorem meetCheckpoint_gaps (q : State) : (meetCheckpoint q e).firn.rpGaps = [] := rfl

theorem checkpointMet_gaps : (checkpointMet s t e es).firn.rpGaps = [] :=
  meetCheckpoint_gaps e (feedRecord (onRecord (advance s t)) e.time)

theorem checkpointMet_sid : (checkpointMet s t e es).sid = (advance s t).sid := by
  rw [checkpointMet]
  exact offScale_sid _

end Met

end Rows

/-- Settles O31: each row's equation in the case that the clause names; a completion leaves the state and the header of Firn. -/
theorem captureOccurrencesAct : Obligations.CaptureOccurrencesAct := by
  unfold Obligations.CaptureOccurrencesAct
  intro s source t src s1
  refine ⟨fun c hwait hrec => ⟨execFirnChunk_denied hwait hrec, execFirnChunk_stored hwait hrec,
      fun g hgap => execFirnChunk_gapStored hwait hrec hgap⟩, fun hrec htick hbound => if_pos ⟨hrec, htick, hbound⟩,
    fun cause i u n hp => ⟨execFirnTriggerFired_armed hp, execFirnTriggerFired_triggered hp⟩,
    fun hst hfull => if_pos ⟨hst, hfull⟩,
    fun hrun => ⟨execFirnStreamComplete_goesOn, execFirnStreamComplete_unringed hrun,
      fun n r hall hring hr => execFirnStreamComplete_ringed hrun hall hring hr⟩,
    ?load, ?checkpoint, fun hst hover => if_pos ⟨hst, hover⟩⟩
  case load =>
    intro r hr hst hb hlen
    refine ⟨fun e hf => ⟨_, execFirnLoadComplete_refused hr hst hb hlen hf, ?_⟩,
      execFirnLoadComplete_waits hr hst hb hlen, fun hf hwhole => ⟨_, execFirnLoadComplete_loads hr hst hb hlen hf hwhole, ?_⟩⟩
    · rw [finishOp_firnState]; rfl
    · rw [finishOp_firnState, finishOp_firnHeader]; exact ⟨rfl, rfl⟩
  case checkpoint =>
    intro e es htape hst hon hk hdue
    exact ⟨_, execReplayCheckpoint_met htape ⟨hst, hon, hk, hdue⟩, checkpointMet_tape e es, checkpointMet_gaps e es, checkpointMet_sid e es⟩

end Sys2Proof.Machine
end

section
/-! PROOF. The generation-1 codes (O44), and a step on the queue of commands (O45). -/

namespace Sys2Proof.Machine

/-- Settles O45: a step reads the front of the queue alone. -/
theorem stepRunsFrontCommand : Obligations.StepRunsFrontCommand := by
  unfold Obligations.StepRunsFrontCommand
  refine ⟨fun c q s => rfl, fun s hempty => ?_⟩
  rw [step, hempty]

/-! ## A code's own row -/

section Codes

variable {s : State} {code : Nat} {c : Cmd} {cs : List Cmd} {seq : State → List Cmd}

/-- A code stands in `L_CMD` and waits (R498). -/
def CodeWaits (s : State) (code : Nat) : Prop := s.hcfg.legEn = true ∧ s.leg.start = true ∧ s.leg.cmd = code

/-- The channel of legacy mode takes a packet, and none of it is in flight. -/
def LegacyFree (s : State) : Prop := channelOpen s .legacy = true ∧ ∀ f ∈ s.cmds.list, f.cmd.a.origin ≠ .legacy

/-- The state after the first packet of a sequence is sent. -/
def codeRuns (s : State) (c : Cmd) (cs : List Cmd) : State :=
  take (specOf c.op) c (s.setLeg { s.leg with start := false, seq := cs })

theorem legacyNext_sends (look : Cmd → Option CmdSpec) {q : State} (hseq : q.leg.seq = c :: cs) (hfree : LegacyFree q) :
    legacyNext look q = take (look c) c (q.setLeg { q.leg with seq := cs }) := by
  obtain ⟨hopen, hnone⟩ := hfree
  have hidle : ¬(channelOpen q .legacy = false ∨ q.cmds.list.any fun f => decide (f.cmd.a.origin = .legacy)) := by
    simpa [hopen] using hnone
  rw [legacyNext, hseq]
  exact if_neg hidle

theorem legacyRun_sends (hfree : LegacyFree s) (hon : CodeWaits s code) (hseq : seq s = c :: cs) :
    legacyRun code seq s = .next (codeRuns s c cs) := by
  have hnext := legacyNext_sends (fun c => specOf c.op) (q := s.setLeg { s.leg with start := false, seq := seq s }) hseq hfree
  exact (if_pos hon).trans (congrArg Host.Outcome.next hnext)

variable {op n use : Nat} {set : State → Option (Nat × Bytes)}

theorem legacyOne_sends (onLane : Bool) (hfree : LegacyFree s) (hon : CodeWaits s code) : legacyOne code op n onLane s =
    .next (codeRuns s (legacyPacket op (if onLane then legacyTarget s else 0) (fit n s.leg.arg)) []) :=
  legacyRun_sends hfree hon rfl

/-- `LANE_SET` of a tune code, with the zone of its lane (Table 17-24). -/
def tuneSets (s : State) (use : Nat) : Cmd := legacyPacket 0x0403 (legacyTarget s)
  ([BitVec.ofNat 8 use, 1, 0, 0, if s.leg.lane = 0 then 7 else 15, 0xFF, 0xFF, 0xFF] ++ zeros 16)

/-- `LANE_TUNE` and `LANE_START` of a tune code. -/
def tuneStarts (s : State) : List Cmd :=
  [legacyPacket 0x0404 (legacyTarget s) (leBytes 8 (le s.leg.arg 0 4 * 1000000) ++ zeros 8),
   legacyPacket 0x0405 (legacyTarget s) []]

/-- The set command of a tune code's demodulator, where it has one. -/
def tuneExtra (s : State) (set : Option (Nat × Bytes)) : List Cmd :=
  set.toList.map fun e => legacyPacket e.1 (legacyTarget s) e.2

theorem tuneSeq_eq (set : Option (Nat × Bytes)) : tuneSeq use set s =
    (if (lane s (legacyTarget s)).st = .idle ∨ (lane s (legacyTarget s)).st = .stopped then []
      else [legacyPacket 0x0406 (legacyTarget s) []]) ++ (tuneSets s use :: tuneStarts s ++ tuneExtra s set) := by
  have hzone : leBytes 1 (if s.leg.lane = 0 then 7 else 15) = [if s.leg.lane = 0 then 7#8 else 15#8] := by split <;> rfl
  unfold tuneSeq
  dsimp only
  rw [hzone]
  cases set <;> simp [tuneSets, tuneStarts, tuneExtra, leBytes]

/-- Where a tune code's sequence begins: at `LANE_SET`, or at the `LANE_STOP` of a lane in use, or nowhere. -/
theorem legacyTune_runs (hfree : LegacyFree s) (hon : CodeWaits s code) :
    let khz := le s.leg.arg 0 4
    let atRest := (lane s (legacyTarget s)).st = .idle ∨ (lane s (legacyTarget s)).st = .stopped
    (144 ≤ khz → khz ≤ 319800 → atRest →
      legacyTune code use set s = .next (codeRuns s (tuneSets s use) (tuneStarts s ++ tuneExtra s (set s)))) ∧
    (144 ≤ khz → khz ≤ 319800 → ¬atRest → legacyTune code use set s = .next (codeRuns s
      (legacyPacket 0x0406 (legacyTarget s) []) (tuneSets s use :: tuneStarts s ++ tuneExtra s (set s)))) ∧
    (khz < 144 ∨ 319800 < khz → legacyTune code use set s = .next (legacyFail s stBadParam)) := by
  intro khz atRest
  have hin (hlo : 144 ≤ khz) (hhi : khz ≤ 319800) : legacyTune code use set s = legacyRun code (fun q => tuneSeq use (set q) q) s :=
    if_neg fun h => absurd (decide_eq_true (And.intro hlo hhi)) (ne_true_of_eq_false h.2.2.2)
  refine ⟨fun hlo hhi hrest => ?_, fun hlo hhi hrest => ?_, fun hout => ?_⟩
  · refine (hin hlo hhi).trans (legacyRun_sends hfree hon ?_)
    rw [tuneSeq_eq, if_pos hrest]
    rfl
  · refine (hin hlo hhi).trans (legacyRun_sends hfree hon ?_)
    rw [tuneSeq_eq, if_neg hrest]
    rfl
  · obtain ⟨hen, hstart, hcmd⟩ := hon
    exact if_pos ⟨hen, hstart, hcmd, decide_eq_false fun h => hout.elim h.1.not_gt h.2.not_gt⟩

end Codes

/-- Settles O44: the row of a code sends the first packet of the code's sequence, which Table 17-24 gives. -/
theorem generationOneCodesRun : Obligations.GenerationOneCodesRun := by
  unfold Obligations.GenerationOneCodesRun
  intro s free on t khz runs sends fails sets tunes atRest tuned hfree
  refine ⟨legacyOne_sends false hfree, legacyOne_sends false hfree, legacyOne_sends false hfree,
    legacyTune_runs hfree, legacyTune_runs hfree, legacyTune_runs hfree, ?drm, ?drmMode, legacyOne_sends true hfree, legacyOne_sends true hfree,
    legacyOne_sends true hfree, ?quality, ?ofdmQuality, legacyOne_sends true hfree, legacyOne_sends true hfree,
    legacyOne_sends true hfree, legacyOne_sends true hfree, legacyOne_sends true hfree, ?undefined⟩
  case drm =>
    intro hon hmode
    have hrow : execDrmTune s = legacyTune 0x13 (if byteAt s.leg.arg 5 = 0 then 5 else 6) (fun _ => none) s :=
      if_neg fun h => hmode.not_gt h.2.2.2
    obtain ⟨hrest, hbusy, hout⟩ := legacyTune_runs hfree hon
    exact ⟨fun hlo hhi h => hrow.trans (hrest hlo hhi h), fun hlo hhi h => hrow.trans (hbusy hlo hhi h),
      fun h => hrow.trans (hout h)⟩
  case drmMode =>
    intro hon hmode
    obtain ⟨hen, hstart, hcmd⟩ := hon
    exact if_pos ⟨hen, hstart, hcmd, hmode⟩
  case quality =>
    intro hon huse
    exact (if_neg huse.not_ge).trans (legacyOne_sends true hfree hon)
  case ofdmQuality =>
    intro hon huse
    exact (if_pos huse).trans (legacyOne_sends true hfree hon)
  case undefined =>
    intro hen hstart hcode
    exact if_pos ⟨hen, hstart, by simpa using hcode⟩

end Sys2Proof.Machine
end

section
/-! PROOF. The safety commands (O34). -/

namespace Sys2Proof.Machine

/-! ## The units -/

section Units

variable {c : Cmd} {s : State}

theorem polarisSetUnit_stores (hlanes : ∀ n < 32, bit (le c.pl 0 4) n = true → laneFit s n = true)
    (hflakes : ∀ t ∈ namedFlakes c.pl, flakeFit s (t - 0x0500) = true) :
    polarisSetUnit c s = ok (s.setPol { s.pol with cfg := c.pl }) := by
  refine if_pos ⟨List.all_eq_true.2 fun n hn => ?_, List.all_eq_true.2 hflakes⟩
  cases hb : bit (le c.pl 0 4) n with
  | false => rfl
  | true => exact hlanes n (List.mem_range.1 hn) hb

theorem alertClearUnit_clears (h : s.pol.safe = true ∨ alertWindow s = false) : alertClearUnit c s =
    ok (s.setPol { s.pol with alertN := false, held := false, cleared := s.pol.cleared || s.pol.safe }) :=
  if_neg fun hwin => h.elim (ne_true_of_eq_false hwin.1) (ne_false_of_eq_true hwin.2)

/-- The state of Polaris once `SAFE_RELEASE` has released what it held (R385, R390, R392). -/
def polReleased (p : Polaris) : Polaris :=
  { p with
    safe := false, refusal := false, thermHold := false, faultN := p.selfFail, present := []
    alertN := if p.safe && p.cleared then p.heldLevel else p.alertN, held := p.held || (p.safe && p.cleared), cleared := false }

section Safe

variable (hsafe : s.pol.safe = true)

include hsafe

theorem safeReleaseUnit_leaves (honly : s.pol.resetOnly = false) (hgone : stillPresent s = false) : safeReleaseUnit c s =
    ok (evFaultOf (txRelease (s.setPol (polReleased s.pol))) (s.pol.safeCause + 2 ^ 11)) := by
  simp only [safeReleaseUnit, hsafe, honly, hgone, Bool.true_eq_false, Bool.false_eq_true, false_and, and_false, if_false, if_true,
    polReleased]

theorem safeReleaseUnit_resetOnly (honly : s.pol.resetOnly = true) :
    safeReleaseUnit c s = .deny stBadState s.pol.resetId := by
  simp only [safeReleaseUnit, hsafe, honly, Bool.true_eq_false, false_and, and_self, if_false, if_true]

theorem safeReleaseUnit_stands (honly : s.pol.resetOnly = false) (hstill : stillPresent s = true) :
    safeReleaseUnit c s = .deny stBadState s.pol.safeCause := by
  simp only [safeReleaseUnit, hsafe, honly, hstill, Bool.true_eq_false, Bool.false_eq_true, false_and, and_false, and_self, if_false,
    if_true]

end Safe

theorem safeReleaseUnit_releases (hsafe : s.pol.safe = false) (hheld : s.pol.refusal = true ∨ s.pol.thermHold = true) :
    safeReleaseUnit c s = ok (evFaultOf (s.setPol (polReleased s.pol)) (s.pol.safeCause + 2 ^ 11)) := by
  have hsome : ¬(s.pol.refusal = false ∧ s.pol.thermHold = false) := fun h =>
    hheld.elim (ne_true_of_eq_false h.1) (ne_true_of_eq_false h.2)
  simp only [safeReleaseUnit, hsafe, hsome, Bool.false_eq_true, true_and, false_and, if_false, polReleased]

end Units

/-! ## What taking a command leaves of the safety path -/

section Taken

variable (sp : CmdSpec) (a : Args) (s : State)

theorem laneFit_taken (n : Nat) : laneFit (taken sp a s) n = laneFit s n := by
  unfold laneFit
  rw [demod_taken, afOf_of_afs (s := s) (by simp), lane_taken, ofdm_taken]

theorem flakeFit_taken (n : Nat) : flakeFit (taken sp a s) n = flakeFit s n := by
  unfold flakeFit
  rw [flake_taken, flurry_taken]

theorem alertWindow_taken : alertWindow (taken sp a s) = alertWindow s := by
  rw [alertWindow, pol_taken, alertWindow]

theorem islandDanger_taken : islandDanger (taken sp a s) = islandDanger s := by
  funext i
  unfold islandDanger antSafe zoneSafe safeTaps
  rw [laneDesignated_taken, safeFlakes_taken, lane_of_lanes (lanes_taken sp a s), flake_taken, tap_taken]

theorem stillPresent_taken : stillPresent (taken sp a s) = stillPresent s := by
  unfold stillPresent loopLocked
  rw [pol_taken, clk_taken, islandDanger_taken]

end Taken

/-- Settles O34: taking a command leaves Polaris, the sources and the loops as they were, so the units answer as on the state
before. -/
theorem safetyCommandsComplete : Obligations.SafetyCommandsComplete := by
  unfold Obligations.SafetyCommandsComplete
  intro a s
  refine ⟨?set, fun hr => exec_done rfl hr rfl, ?clear, ?leave, ?release, ?resetOnly, ?stands, fun hr => exec_busy rfl hr rfl⟩
  case set =>
    intro hr hlanes hflakes
    rw [← pol_taken polarisSetSpec a s]
    exact exec_done rfl hr (polarisSetUnit_stores (c := cmdOf polarisSetSpec a)
      (fun n hn hb => (laneFit_taken ..).trans (hlanes n hn hb)) fun t ht => (flakeFit_taken ..).trans (hflakes t ht))
  case clear =>
    intro hr h
    rw [← alertWindow_taken alertClearSpec a] at h
    rw [← pol_taken alertClearSpec a s] at h ⊢
    exact exec_done rfl hr (alertClearUnit_clears (c := cmdOf alertClearSpec a) h)
  case leave =>
    intro hr hsafe honly hgone
    rw [← stillPresent_taken safeReleaseSpec a] at hgone
    rw [← pol_taken safeReleaseSpec a s] at hsafe honly ⊢
    have hu := safeReleaseUnit_leaves (c := cmdOf safeReleaseSpec a) hsafe honly hgone
    simp only [polReleased, hsafe, Bool.true_and] at hu
    exact exec_done rfl hr hu
  case release =>
    intro hr hsafe hheld
    rw [← pol_taken safeReleaseSpec a s] at hsafe hheld ⊢
    have hu := safeReleaseUnit_releases (c := cmdOf safeReleaseSpec a) hsafe hheld
    simp only [polReleased, hsafe, Bool.false_and, Bool.or_false, Bool.false_eq_true, if_false] at hu
    exact exec_done rfl hr hu
  case resetOnly =>
    intro hr hsafe honly
    rw [← pol_taken safeReleaseSpec a s] at hsafe honly ⊢
    exact exec_deny rfl hr (safeReleaseUnit_resetOnly (c := cmdOf safeReleaseSpec a) hsafe honly)
  case stands =>
    intro hr hsafe honly hstill
    rw [← stillPresent_taken safeReleaseSpec a] at hstill
    rw [← pol_taken safeReleaseSpec a s] at hsafe honly ⊢
    exact exec_deny rfl hr (safeReleaseUnit_stands (c := cmdOf safeReleaseSpec a) hsafe honly hstill)

end Sys2Proof.Machine
end

section
/-! PROOF. Alerts and their two paths (O35). -/

namespace Sys2Proof.Machine

/-! ## A report -/

section Report

variable {s : State} {source : BitVec 16} {subch : BitVec 8} {primary start : Bool}

/-- Polaris hears reports of a source: it runs outside the safe state, and the source is a full lane or a flake that is not
replayed. -/
def AlertHeard (s : State) (src : Nat) : Prop :=
  s.pol.halted = false ∧ s.pol.safe = false ∧ replayed s src = false ∧ (toFull src = true ∨ toFlake src = true)

/-- The subchannel that a report of a source counts for. -/
def alertSub (s : State) (src : Nat) (subch : BitVec 8) : Nat := if dabSource s src then subch.toNat else 0xFF

/-- A candidate is counted. -/
def candidateCounted (s : State) : State := s.setPol { s.pol with candidates := sat 32 (s.pol.candidates + 1) }

/-- A candidate of a source that is not designated is counted. -/
def ignoredCounted (s : State) : State := s.setPol { s.pol with ignored := sat 32 (s.pol.ignored + 1) }

theorem AlertHeard.passes {src : Nat} (h : AlertHeard s src) :
    ¬(s.pol.halted = true ∨ (toFull src = false ∧ toFlake src = false)) := by
  obtain ⟨hrun, -, -, htgt⟩ := h
  rintro (hhalt | ⟨hfull, hflake⟩)
  · exact absurd hhalt (ne_true_of_eq_false hrun)
  · exact htgt.elim (ne_true_of_eq_false hfull) (ne_true_of_eq_false hflake)

theorem report_designated (h : AlertHeard s source.toNat) (hdes : designated s source.toNat = true) :
    report s primary source start subch = meet (if primary && start then candidateCounted s else s) primary source.toNat start
      (alertSub s source.toNat subch) := by
  have hconfirms : (s.pol.safe && start) = false := by rw [h.2.1, Bool.false_and]
  simp only [report, if_neg h.passes, h.2.2.1, hdes, hconfirms, Bool.false_eq_true, Bool.true_eq_false, if_false]
  rfl

theorem report_ignored (h : AlertHeard s source.toNat) (hdes : designated s source.toNat = false) :
    report s true source true subch = ignoredCounted s := by
  simp only [report, if_neg h.passes, h.2.2.1, hdes, Bool.false_eq_true, Bool.and_self, if_false, if_true]
  rfl

end Report

/-! ## A report meets that of the other path, or waits -/

section Meet

variable {s : State} {primary start : Bool} {src sub d : Nat}

theorem meet_waits (h : s.pol.reports = []) : meet s primary src start sub =
    s.setPol { s.pol with reports := [⟨primary, src, start, sub, deadline s 160⟩] } := by
  rw [meet, h]
  rfl

theorem meet_alike (h : s.pol.reports = [⟨!primary, src, start, sub, d⟩]) :
    meet s primary src start sub = confirm (s.setPol { s.pol with reports := [] }) src start sub := by
  simp [meet, h]

theorem meet_differs {was : Bool} (h : s.pol.reports = [⟨!primary, src, was, sub, d⟩]) (hne : was ≠ start) :
    meet s primary src start sub = mismatch (s.setPol { s.pol with reports := [] }) := by
  simp [meet, h, hne]

variable (s src sub) in
/-- What a confirmed start leaves: the alert is open and ALERT_N asserted. -/
theorem confirm_start : (confirm s src true sub).pol.alertN = true ∧ (confirm s src true sub).pol.reports = s.pol.reports ∧
    (src, sub) ∈ (confirm s src true sub).pol.openAlerts ∧
    (confirm s src true sub).pol.confirmed = sat 32 (s.pol.confirmed + 1) ∧
    (confirm s src true sub).pol.safe = s.pol.safe := by
  simp [confirm]

theorem confirm_end :
    (src, sub) ∉ (confirm s src false sub).pol.openAlerts ∧ (confirm s src false sub).pol.reports = s.pol.reports := by
  simp [confirm]

theorem mismatch_safe (h : s.pol.safe = false) : (mismatch s).pol.safe = true ∧ (mismatch s).pol.safeCause = 0x02 :=
  have hsafe := dangerous_safe (s := s.setPol { s.pol with mismatches := sat 32 (s.pol.mismatches + 1) }) h 0x02 false
  ⟨hsafe.1, hsafe.2.1⟩

theorem mismatch_counted (h : s.pol.safe = false) : (mismatch s).pol.mismatches = sat 32 (s.pol.mismatches + 1) := by
  simp [mismatch, dangerous, enterSafe, h]

theorem execAlertMismatchTimeout_differs {source : BitVec 16} {t : Sid} {on : Bool}
    (hrep : (advance s t).pol.reports = [⟨on, source.toNat, true, sub, d⟩]) (hdue : expired (advance s t) d = true) :
    execAlertMismatchTimeout source t s =
      .next (mismatch ((advance s t).setPol { (advance s t).pol with reports := [] })) := by
  have hfind : (advance s t).pol.reports.find? (fun r => r.source == source.toNat && expired (advance s t) r.deadline) =
      some ⟨on, source.toNat, true, sub, d⟩ := by
    rw [hrep]
    exact List.find?_cons_of_pos (by simp [hdue])
  simp only [execAlertMismatchTimeout, hfind]
  rw [hrep, List.erase_cons_head]

end Meet

/-- Settles O35: a report of a heard source meets that of the other path or waits for it. -/
theorem alertsAreConfirmedByBothPaths : Obligations.AlertsAreConfirmedByBothPaths := by
  unfold Obligations.AlertsAreConfirmedByBothPaths
  intro s source start subch t src n sub heard
  have hpol : n.pol = s.pol := by simp [n]
  have hheard (h : heard) : AlertHeard n src := by rwa [AlertHeard, hpol]
  have hprimary (h : heard) (hdes : designated n src = true) :
      exec (.alertPrimaryReport source true subch t) s = .next (meet (candidateCounted n) true src true sub) :=
    congrArg Host.Outcome.next (report_designated (hheard h) hdes)
  have hcheck (h : heard) (hdes : designated n src = true) (on : Bool) :
      exec (.alertCheckReport source on subch t) s = .next (meet n false src on sub) :=
    congrArg Host.Outcome.next (report_designated (hheard h) hdes)
  rw [← hpol]
  refine ⟨?startByCheck, ?startByPrimary, ?ends, ?primaryWaits, ?checkWaits, ?differs, ?ignored, ?timeout⟩
  case startByCheck =>
    intro d h hdes hrep
    obtain ⟨halert, hreports, hopen, hcount, hsafe⟩ := confirm_start (n.setPol { n.pol with reports := [] }) src sub
    exact ⟨_, (hcheck h hdes true).trans (congrArg _ (meet_alike hrep)), halert, hreports, hopen, hcount,
      hsafe.trans (hheard h).2.1⟩
  case startByPrimary =>
    intro d h hdes hrep
    let u := candidateCounted n
    obtain ⟨halert, hreports, hopen, hcount, hsafe⟩ := confirm_start (u.setPol { u.pol with reports := [] }) src sub
    exact ⟨_, (hprimary h hdes).trans (congrArg _ (meet_alike hrep)), halert, hreports, hopen, hcount,
      hsafe.trans (hheard h).2.1⟩
  case ends =>
    intro d h hdes hrep
    exact ⟨_, (hcheck h hdes false).trans (congrArg _ (meet_alike hrep)), confirm_end ..⟩
  case primaryWaits =>
    intro h hdes hrep
    exact ⟨_, (hprimary h hdes).trans (congrArg _ (meet_waits hrep)), rfl, rfl, rfl⟩
  case checkWaits =>
    intro h hdes hrep
    exact ⟨_, (hcheck h hdes start).trans (congrArg _ (meet_waits hrep)), rfl, rfl⟩
  case differs =>
    intro d h hdes hrep
    have hsafe : (n.setPol { n.pol with reports := [] }).pol.safe = false := (hheard h).2.1
    obtain ⟨hin, hcause⟩ := mismatch_safe hsafe
    exact ⟨_, (hcheck h hdes true).trans (congrArg _ (meet_differs hrep Bool.false_ne_true)), hin, hcause, mismatch_counted hsafe⟩
  case ignored =>
    intro h hdes
    exact congrArg Host.Outcome.next (report_ignored (hheard h) hdes)
  case timeout =>
    intro d hsafe hrep hdue
    exact ⟨_, execAlertMismatchTimeout_differs hrep hdue, mismatch_safe hsafe⟩

end Sys2Proof.Machine
end

section
/-! PROOF. The power and firmware commands (O37) and the steps of an update (O38). -/

namespace Sys2Proof.Machine

/-! ## `PWR_STATE_SET` (R409, R412, R530) -/

section Request

variable {c : Cmd} {s : State}

theorem pwrStateUnit_held (h : s.pwr.trans ≠ .none) :
    pwrStateUnit c s = .busy (s.setPwr { s.pwr with waiting := s.pwr.waiting ++ [cmdKey c] }) :=
  if_neg h

variable (htrans : s.pwr.trans = .none)

include htrans

theorem pwrStateUnit_request : pwrStateUnit c s = pwrRequest c s := if_pos htrans

theorem pwrStateUnit_up {b : Bool} (h : byteAt c.pl 0 = if b then 4 else 3) : pwrStateUnit c s = pwrUp c b s := by
  rw [pwrStateUnit_request htrans, pwrRequest, h]
  cases b <;> rfl

theorem pwrStateUnit_frost (h : byteAt c.pl 0 = 1) (hst : s.pwr.state = .frost) : pwrStateUnit c s = ok s := by
  rw [pwrStateUnit_request htrans, pwrRequest, h]
  exact if_pos hst

theorem pwrStateUnit_toFrost (h : byteAt c.pl 0 = 1) (hst : s.pwr.state ≠ .frost) (hlow : lowDenied s = none) :
    pwrStateUnit c s = .busy (s.setPwr { s.pwr with
      wakeMask := byteAt c.pl 1, wakeS := le c.pl 4 4, trans := .toFrost, owner := some (cmdKey c) }) := by
  rw [pwrStateUnit_request htrans, pwrRequest, h]
  refine (if_neg hst).trans ?_
  rw [hlow]
  rfl

theorem pwrStateUnit_toPermafrost (h : byteAt c.pl 0 = 0) (hlow : lowDenied s = none) :
    pwrStateUnit c s = ok (s.setPwr { s.pwr with wakeMask := byteAt c.pl 1, wakeS := le c.pl 4 4, trans := .toPermafrost }) := by
  rw [pwrStateUnit_request htrans, pwrRequest, h]
  simp only [hlow]
  rfl

end Request

section Up

variable {c : Cmd} {s : State} {b : Bool}

theorem pwrUp_fromFrost (hst : s.pwr.state = .frost) : pwrUp c b s =
    .busy (s.setPwr { s.pwr with reqAval := b, trans := .fromFrost, owner := some (cmdKey c) }) := by
  unfold pwrUp
  dsimp only
  split
  next => rfl
  next h => cases hst.symm.trans h
  next h _ => exact absurd hst h

theorem pwrUp_active (hst : s.pwr.state = .active) : pwrUp c false s = ok (s.setPwr { s.pwr with reqAval := false }) := by
  unfold pwrUp
  dsimp only
  split
  next h => cases hst.symm.trans h
  next h => cases hst.symm.trans h
  next => rfl

theorem pwrUp_fromAvalanche (hst : s.pwr.state = .avalanche) : pwrUp c false s =
    .busy (s.setPwr { s.pwr with reqAval := false, trans := .fromAvalanche, owner := some (cmdKey c) }) := by
  unfold pwrUp
  dsimp only
  split
  next h => cases hst.symm.trans h
  next => rfl
  next h => exact absurd hst h

theorem pwrUp_avalanche (hst : s.pwr.state = .avalanche) : pwrUp c true s = ok (s.setPwr { s.pwr with reqAval := true }) := by
  unfold pwrUp
  dsimp only
  split
  next h => cases hst.symm.trans h
  next => rfl
  next h => exact absurd hst h

section Avalanche

variable (hvin : s.pwr.brownout = false) (hshed : shedRefusal s 3 = none)

include hvin hshed

theorem tryAvalanche_begins (hleft : s.pwr.boostSpent = false) :
    tryAvalanche s = (none, s.setPwr { s.pwr with trans := .toAvalanche }) := by
  rw [tryAvalanche, if_neg (ne_true_of_eq_false hvin), hshed]
  exact if_neg (ne_true_of_eq_false hleft)

theorem tryAvalanche_withoutBoost (hspent : s.pwr.boostSpent = true) :
    tryAvalanche s = (some (stOk, 1), reachAvalanche s false) := by
  rw [tryAvalanche, if_neg (ne_true_of_eq_false hvin), hshed]
  exact if_pos hspent

end Avalanche

section Tries

variable (hst : s.pwr.state = .active)

include hst

theorem pwrUp_tryBegins {q : State} (htry : tryAvalanche (s.setPwr { s.pwr with reqAval := true }) = (none, q)) :
    pwrUp c true s = .busy (q.setPwr { q.pwr with owner := some (cmdKey c) }) := by
  unfold pwrUp
  dsimp only
  split
  next h => cases hst.symm.trans h
  next h => cases hst.symm.trans h
  next => rw [if_pos rfl, htry]

theorem pwrUp_tryEnds {q : State} {st d : Nat}
    (htry : tryAvalanche (s.setPwr { s.pwr with reqAval := true }) = (some (st, d), q)) :
    pwrUp c true s = .done st d [] q := by
  unfold pwrUp
  dsimp only
  split
  next h => cases hst.symm.trans h
  next h => cases hst.symm.trans h
  next => rw [if_pos rfl, htry]

variable (hvin : s.pwr.brownout = false) (hshed : shedRefusal (s.setPwr { s.pwr with reqAval := true }) 3 = none)

include hvin hshed

theorem pwrUp_toAvalanche (hleft : s.pwr.boostSpent = false) : pwrUp c true s =
    .busy (s.setPwr { s.pwr with reqAval := true, trans := .toAvalanche, owner := some (cmdKey c) }) :=
  pwrUp_tryBegins hst (tryAvalanche_begins (s := s.setPwr { s.pwr with reqAval := true }) hvin hshed hleft)

theorem pwrUp_withoutBoost (hspent : s.pwr.boostSpent = true) : pwrUp c true s =
    .done stOk 1 [] (reachAvalanche (s.setPwr { s.pwr with reqAval := true }) false) :=
  pwrUp_tryEnds hst (tryAvalanche_withoutBoost (s := s.setPwr { s.pwr with reqAval := true }) hvin hshed hspent)

end Tries

end Up

/-! ## Firmware -/

section Update

variable {c : Cmd} {s : State}

theorem fwBeginUnit_erases (h : s.fw.st = .idle) : fwBeginUnit c s = .busy (s.setFw { s.fw.setBuild 0 with
    st := .erasing, bytes := le c.pl 0 4, crc := BitVec.ofNat 32 (le c.pl 4 4), written := 0, image := [], activate := false
    suspended := s.pwr.brownout }) :=
  if_neg (not_not_intro h)

theorem fwWriteUnit_takes (h : s.fw.st = .writing) (hat : le c.pl 0 4 = s.fw.written)
    (hfits : s.fw.written + (c.pl.length - 4) ≤ s.fw.bytes) : fwWriteUnit c s = .busy s := by
  rw [fwWriteUnit, if_neg (not_not_intro h), if_neg (not_not_intro hat)]
  exact if_neg hfits.not_gt

theorem fwFinishUnit_verifies (h : s.fw.st = .writing) :
    fwFinishUnit c s = .busy (s.setFw { s.fw with st := .verifying, activate := bit (byteAt c.pl 0) 0 }) :=
  if_neg (not_not_intro h)

theorem execFwProgramComplete_writes {f : InFlight} (hrun : executing s 0x0F02 0x0000 = some f) (hst : s.fw.st = .writing)
    (hgoes : s.fw.suspended = false ∨ f.cmd.len ≤ 260) : execFwProgramComplete s =
      .next (complete (s.setFw { s.fw with written := s.fw.written + (f.cmd.len - 4), image := s.fw.image ++ f.cmd.pl.drop 4 }) f
        stOk 0 [] s.sid.now s.ev.nextId) := by
  rw [execFwProgramComplete, hrun]
  refine if_neg ?_
  rintro (hno | ⟨hsusp, hlong⟩)
  · exact hno hst
  · rcases hgoes with hrun | hshort
    · exact absurd hsusp (ne_true_of_eq_false hrun)
    · omega

theorem setBuild_activate (f : Firmware) (build : BitVec 32) : (f.setBuild build).activate = f.activate := by
  unfold Firmware.setBuild
  split <;> rfl

section Verify

variable {build : BitVec 32}

variable (hst : s.fw.st = .verifying)

include hst

theorem execFwVerifyComplete_refuses {good : Bool} {d : Nat} (hfault : verifyFault s.fw good = some d) :
    execFwVerifyComplete good build s = .next (finishOp (s.setFw { s.fw with st := .idle, last := 3, lastTime := s.sid.now })
      0x0F03 0x0000 stBadState d [] s.ev.nextId) := by
  rw [execFwVerifyComplete, if_neg (not_not_intro hst), hfault]

variable (hfault : verifyFault s.fw true = none)

include hfault

theorem execFwVerifyComplete_ends (hact : s.fw.activate = false) : execFwVerifyComplete true build s =
    .next (finishOp (s.setFw { s.fw.setBuild build with st := .idle, last := 1, lastTime := s.sid.now })
      0x0F03 0x0000 stOk 0 [] s.ev.nextId) := by
  rw [execFwVerifyComplete, if_neg (not_not_intro hst), hfault]
  exact if_neg (ne_true_of_eq_false ((setBuild_activate ..).trans hact))

theorem execFwVerifyComplete_goesOn (hact : s.fw.activate = true) : execFwVerifyComplete true build s =
    .next (s.setFw { s.fw.setBuild build with st := .marking, newBuild := build, suspended := s.pwr.brownout }) := by
  rw [execFwVerifyComplete, if_neg (not_not_intro hst), hfault]
  exact if_pos ((setBuild_activate ..).trans hact)

end Verify

theorem verifyFault_none (hall : s.fw.bytes ≤ s.fw.written) (hcrc : crc32 s.fw.image = s.fw.crc) :
    verifyFault s.fw true = none := by
  rw [verifyFault, if_neg hall.not_gt, if_neg (not_not_intro hcrc)]
  exact if_neg Bool.true_eq_false.mp

end Update

/-! ## What taking a command leaves -/

section Taken

variable (sp : CmdSpec) (a : Args) (s : State)

theorem pwr_taken : (taken sp a s).pwr = s.pwr := by simp

theorem fw_taken : (taken sp a s).fw = s.fw := by simp

end Taken

/-! ## The obligations -/

/-- Settles O37: a request is answered by the state that no transition holds, which taking it leaves as it was. -/
theorem powerAndFirmwareCommandsComplete : Obligations.PowerAndFirmwareCommandsComplete := by
  unfold Obligations.PowerAndFirmwareCommandsComplete
  intro a s b u key
  refine ⟨?request, ?held, fun hr => exec_done rfl hr rfl, ?limit, ?begins, ?writes, ?finishes, ?status, ?reset⟩
  case request =>
    rw [← pwr_taken pwrStateSetSpec a s]
    intro hr htrans
    have hup (x : Bool) (h : byteAt b 0 = if x then 4 else 3) : pwrStateUnit (cmdOf pwrStateSetSpec a) u = pwrUp _ x u :=
      pwrStateUnit_up htrans h
    refine ⟨fun h hst => exec_done rfl hr (pwrStateUnit_frost htrans h hst),
      fun h hst hlow => exec_busy rfl hr (pwrStateUnit_toFrost htrans h hst hlow),
      fun h hlow => exec_done rfl hr (pwrStateUnit_toPermafrost htrans h hlow),
      fun h hst => exec_done rfl hr ((hup false h).trans (pwrUp_active hst)), ?fromFrost,
      fun h hst => exec_busy rfl hr ((hup false h).trans (pwrUp_fromAvalanche hst)),
      fun h hst => exec_done rfl hr ((hup true h).trans (pwrUp_avalanche hst)), ?toAvalanche, ?withoutBoost⟩
    case fromFrost =>
      rintro (h | h) hst
      · rw [decide_eq_false (h.trans_ne (by decide))]
        exact exec_busy rfl hr ((hup false h).trans (pwrUp_fromFrost hst))
      · rw [decide_eq_true h]
        exact exec_busy rfl hr ((hup true h).trans (pwrUp_fromFrost hst))
    case toAvalanche =>
      intro h hst hvin hleft hshed
      exact exec_busy rfl hr ((hup true h).trans (pwrUp_toAvalanche hst hvin hshed hleft))
    case withoutBoost =>
      intro h hst hvin hspent hshed
      exact exec_done rfl hr ((hup true h).trans (pwrUp_withoutBoost hst hvin hshed hspent))
  case held =>
    rw [← pwr_taken pwrStateSetSpec a s]
    exact fun hr htrans => exec_busy rfl hr (pwrStateUnit_held htrans)
  case limit =>
    rw [← pwr_taken pwrLimitSetSpec a s]
    exact fun hr => exec_done rfl hr rfl
  case begins =>
    intro hr hst
    rw [← pwr_taken fwBeginSpec a s]
    rw [← fw_taken fwBeginSpec a s] at hst ⊢
    exact exec_busy rfl hr (fwBeginUnit_erases (c := cmdOf fwBeginSpec a) hst)
  case writes =>
    intro hr hst hat hfits
    rw [← fw_taken fwWriteSpec a s] at hst hat hfits
    exact exec_busy rfl hr (fwWriteUnit_takes (c := cmdOf fwWriteSpec a) hst hat hfits)
  case finishes =>
    intro hr hst
    rw [← fw_taken fwFinishSpec a s] at hst ⊢
    exact exec_busy rfl hr (fwFinishUnit_verifies (c := cmdOf fwFinishSpec a) hst)
  case status =>
    intro hr
    rw [← fw_taken fwStatusSpec a s]
    exact exec_done rfl hr rfl
  case reset =>
    intro hr
    rw [← pwr_taken devResetSpec a s]
    exact exec_done rfl hr rfl

/-- Settles O38: each step's row in the case that the clause names; a completion leaves the firmware record. -/
theorem firmwareUpdateStepsEnd : Obligations.FirmwareUpdateStepsEnd := by
  unfold Obligations.FirmwareUpdateStepsEnd
  intro s t
  refine ⟨fun hst hrun => if_pos ⟨hst, hrun⟩, fun f => execFwProgramComplete_writes,
    fun build hst hall hcrc => ?verified, fun build good d hst hfault => execFwVerifyComplete_refuses hst hfault, fun hst hrun => ?marked⟩
  case verified =>
    have hgood := verifyFault_none hall hcrc
    refine ⟨fun hact => ⟨_, execFwVerifyComplete_ends hst hgood hact, ?_⟩, fun hact =>
      ⟨_, execFwVerifyComplete_goesOn hst hgood hact, rfl, rfl⟩⟩
    simp
  case marked =>
    refine ⟨_, if_pos ⟨hst, hrun⟩, ?_⟩
    simp

end Sys2Proof.Machine
end

section
/-! PROOF. The boost budget, the governors and the thermal shutdown (O40). -/

namespace Sys2Proof.Machine

section Governors

variable {s : State}

section Boost

variable (hbudget : s.pwr.boost = true ∨ s.pwr.trans = .toAvalanche) (hvin : s.pwr.brownout = false) (hleft : s.pwr.boostLeft = 0)

include hbudget hvin hleft

theorem boost_unitDue :
    ¬((s.pwr.boost = false ∧ s.pwr.trans ≠ .toAvalanche) ∨ s.pwr.brownout = true ∨ 0 < s.pwr.boostLeft) := by
  rintro (⟨hno, htrans⟩ | hlow | hrest)
  · exact hbudget.elim (ne_true_of_eq_false hno) htrans
  · exact absurd hlow (ne_true_of_eq_false hvin)
  · exact absurd hleft hrest.ne'

theorem execBoostUnitBegin_begins (hused : s.pwr.boostUsed < 20000) : execBoostUnitBegin s =
    .next (s.setPwr { s.pwr with boostUsed := s.pwr.boostUsed + 1, boostLeft := boostUnit }) :=
  (if_neg (boost_unitDue hbudget hvin hleft)).trans (if_pos hused)

theorem execBoostUnitBegin_spent (hused : 20000 ≤ s.pwr.boostUsed) : execBoostUnitBegin s =
    .next (evTherm (s.setPwr { s.pwr with boostSpent := true, boost := false }) 6 0) :=
  (if_neg (boost_unitDue hbudget hvin hleft)).trans (if_neg hused.not_gt)

end Boost

section Governed

variable (hgov : governed s = true)

include hgov

theorem execThermalGovernorCheck_sheds {st : Nat} {q : State} (hnone : s.therm.thermDem = 0) (hhot : 1220 ≤ s.pwr.tj)
    (hshed : shedOne s true = (some st, q)) : execThermalGovernorCheck s = .next (evTherm (q.setTherm
      { q.therm with lastAct := s.sid.ticks, lastTj := s.pwr.tj, lastCheck := s.sid.ticks }) 3 st) := by
  have hsheds : thermalSheds s = true := by simp [thermalSheds, hnone, hhot]
  simp only [execThermalGovernorCheck, hgov, hsheds, hshed, hnone, Bool.true_eq_false, if_false, if_true, decide_true, Bool.true_or]
  rfl

theorem execThermalGovernorCheck_restores (hcalm : thermalSheds s = false) (hdem : 0 < s.therm.thermDem)
    (hrest : restDue s s.therm.coolFrom = true) : execThermalGovernorCheck s = .next (evTherm ((restoreOne s true).2.setTherm
      { (restoreOne s true).2.therm with coolFrom := some s.sid.ticks }) 4 (restoreOne s true).1) := by
  simp only [execThermalGovernorCheck, hgov, hcalm, hdem, hrest, Bool.true_eq_false, Bool.false_eq_true, if_false, and_self, if_true]

variable (hfirst : s.therm.powerAt ≠ s.sid.ticks)

include hfirst

theorem power_checked : ¬(governed s = false ∨ s.therm.powerAt = s.sid.ticks) :=
  not_or.2 ⟨ne_false_of_eq_true hgov, hfirst⟩

section Over

variable (hover : 100 * s.pwr.ilim ≤ s.pwr.iin) {q : State}

include hover

theorem execPowerLimitCheck_sheds {st : Nat}
    (hshed : shedOne (s.setTherm { s.therm with powerAt := s.sid.ticks }) false = (some st, q)) :
    execPowerLimitCheck s = .next (evPower q 1 st) := by
  refine (if_neg (power_checked hgov hfirst)).trans ((if_pos hover).trans ?_)
  simp only [hshed]

theorem execPowerLimitCheck_exhausted
    (hshed : shedOne (s.setTherm { s.therm with powerAt := s.sid.ticks }) false = (none, q)) (htold : q.therm.exhausted = false) :
    execPowerLimitCheck s = .next (evPower (q.setTherm { q.therm with exhausted := true }) 3 0) := by
  refine (if_neg (power_checked hgov hfirst)).trans ((if_pos hover).trans ?_)
  simp only [hshed, htold, Bool.false_eq_true, if_false]

end Over

theorem execPowerLimitCheck_restores (hunder : s.pwr.iin < 100 * s.pwr.ilim) (hdem : 0 < s.therm.powerDem)
    (hrest : restDue s s.therm.lowFrom = true) : execPowerLimitCheck s = .next (evPower ((restoreOne s false).2.setTherm
      { (restoreOne s false).2.therm with lowFrom := some s.sid.ticks }) 2 (restoreOne s false).1) :=
  (if_neg (power_checked hgov hfirst)).trans ((if_neg hunder.not_ge).trans (if_pos ⟨hdem, hrest⟩))

end Governed

theorem execThermalShutdown_shuts {tj : Int} (hon : s.pwr.state ≠ .off) (hhot : 1350 ≤ tj) :
    execThermalShutdown tj s = .next (enterPermafrost (s.setPol { s.pol with thermHold := true }) true) :=
  if_neg (not_or.2 ⟨hon, hhot.not_gt⟩)

end Governors

/-- Settles O40: each governor's row in the case that the clause names. -/
theorem governorsShedAndRestore : Obligations.GovernorsShedAndRestore := by
  unfold Obligations.GovernorsShedAndRestore
  intro s
  exact ⟨fun hbudget hvin hleft => ⟨execBoostUnitBegin_begins hbudget hvin hleft, execBoostUnitBegin_spent hbudget hvin hleft⟩,
    fun st q hgov => execThermalGovernorCheck_sheds hgov, fun hgov => execThermalGovernorCheck_restores hgov,
    fun hgov hfirst => ⟨fun st q hover hshed => execPowerLimitCheck_sheds hgov hfirst hover hshed,
      fun q hover hshed => execPowerLimitCheck_exhausted hgov hfirst hover hshed,
      execPowerLimitCheck_restores hgov hfirst⟩,
    fun tj hon hhot => execThermalShutdown_shuts hon hhot⟩

end Sys2Proof.Machine
end

section
/-! PROOF. The Ethernet port and its streams (O9). -/

namespace Sys2Proof.Machine

/-! ## What the port and its streams read of the state -/

section Reads

variable {s q : State}

theorem stream_of_eth (h : q.eth = s.eth) : stream q = stream s := by
  funext i
  rw [stream, h, stream]

theorem portSends_of (hpart : q.part = s.part) (hpwr : q.pwr = s.pwr) (heth : q.eth = s.eth) : portSends q = portSends s := by
  unfold portSends portUp portPowered
  rw [hpart, hpwr, heth]

theorem streamRuns_of (hpart : q.part = s.part) (hpwr : q.pwr = s.pwr) (heth : q.eth = s.eth) : streamRuns q = streamRuns s := by
  funext u
  rw [streamRuns, portSends_of hpart hpwr heth, heth, streamRuns]

theorem ethRecord_of (hpart : q.part = s.part) (hpwr : q.pwr = s.pwr) (heth : q.eth = s.eth) : ethRecord q = ethRecord s := by
  unfold ethRecord streamsOn
  rw [streamRuns_of hpart hpwr heth, stream_of_eth heth, heth]

variable (s)

theorem ethRecord_taken (sp : CmdSpec) (a : Args) : ethRecord (taken sp a s) = ethRecord s :=
  ethRecord_of (by simp) (by simp) (eth_taken sp a s)

theorem stream_advance (t : Sid) : stream (advance s t) = stream s := stream_of_eth (by simp)

theorem streamRuns_advance (t : Sid) : streamRuns (advance s t) = streamRuns s := streamRuns_of (by simp) (by simp) (by simp)

theorem stream_sent_put (i n : Nat) (u : UdpStream) : stream (sent (putStream s i u) n) i = u := by
  simp [stream, sent, putStream, mgetD]

end Reads

/-! ## `UDP_STREAM_SET` (R465, R471) -/

/-- A stream is replaced by a new setting, with nothing of it in reassembly. -/
def streamReplaced (s : State) (b : Bytes) : State := s.setEth { s.eth with
  streams := mput s.eth.streams (byteAt b 0) { UdpStream.reset with cfg := b }
  reasm := s.eth.reasm.filter fun e => e.stream != byteAt b 0 }

theorem udpStreamUnit_replaces {c : Cmd} {s : State}
    (hfree : ¬(sfnRole s ≠ 0 ∧ sfnStream s = byteAt c.pl 0 ∧ (s.tx.st = .on ∨ s.tx.st = .muted))) :
    let u : UdpStream := { UdpStream.reset with cfg := c.pl }
    udpStreamUnit c s = if u.kind = 0 ∨ streamRuns (streamReplaced s c.pl) u = true then ok (streamReplaced s c.pl)
      else .busy (streamReplaced s c.pl) :=
  if_neg hfree

/-! ## The rows -/

section Rows

variable {s : State} {t : Sid}

theorem execArpIcmpRequest_up {icmp : Bool} (hup : portUp s = true) : execArpIcmpRequest icmp s =
    .next (if portSends s = true ∧ (icmp = false ∨ bit (byteAt s.eth.cfg 6) 3 = true) then sent (received s 1) 1
      else received s 1) :=
  if_neg (ne_false_of_eq_true hup)

section Datagram

variable {d : Datagram} (hup : portUp s = true) (hlen : d.data.length + 28 ≤ 1522)

include hup hlen

theorem datagram_received : ¬(portUp s = false ∨ 1522 < d.data.length + 28) :=
  not_or.2 ⟨ne_false_of_eq_true hup, hlen.not_gt⟩

theorem execUdpDatagram_accepted (hi : d.stream < 16)
    (hkind : (stream (received (advance s t) 1) d.stream).kind = 2 ∨ (stream (received (advance s t) 1) d.stream).kind = 4)
    (hruns : streamRuns (received (advance s t) 1) (stream (received (advance s t) 1) d.stream) = true)
    (hport : forPort (received (advance s t) 1) (stream (received (advance s t) 1) d.stream) d.dest = true)
    (hfrom : (stream (received (advance s t) 1) d.stream).takesFrom d.source = true) : execUdpDatagram d t s =
      .next (if d.offset = 0 ∧ d.last = true then streamTakes (received (advance s t) 1) d.stream d.data
        else fragmentIn (received (advance s t) 1) d) := by
  refine (if_neg (datagram_received hup hlen)).trans (if_neg ?_)
  rintro (hbig | ⟨h2, h4⟩ | hno | hno | hno)
  · exact hi.not_ge hbig
  · exact hkind.elim h2 h4
  · exact absurd hruns (ne_true_of_eq_false hno)
  · exact absurd hport (ne_true_of_eq_false hno)
  · exact absurd hfrom (ne_true_of_eq_false hno)

theorem execUdpDatagram_foreign (hfrom : (stream (received (advance s t) 1) d.stream).takesFrom d.source = false) :
    execUdpDatagram d t s = .next (received (advance s t) 1) :=
  (if_neg (datagram_received hup hlen)).trans (if_pos (.inr (.inr (.inr (.inr hfrom)))))

end Datagram

theorem execReassemblyTimeout_discards {i ident : Nat} {r : Reasm}
    (hr : ((advance s t).eth.reasm.find? fun e => decide (e.stream = i) && decide (e.ident = ident)) = some r)
    (hdue : r.first + 20000 * usU ≤ (advance s t).sid.now) :
    execReassemblyTimeout i ident t s = .next (discard (advance s t) r) := by
  rw [execReassemblyTimeout]
  simp only [hr, if_pos hdue]

end Rows

/-! ## Datagrams sent (R467, R470) -/

section Sent

variable {s : State} {t : Sid} {i : Nat}

theorem length_pairBytes (x : Int × Int) : (pairBytes x).length = 8 := by
  simp [pairBytes, sleBytes]

theorem length_pairs (n : Nat) (f : Nat → Int × Int) : ((List.range n).flatMap fun k => pairBytes (f k)).length = 8 * n := by
  simp [List.length_flatMap, length_pairBytes, Nat.mul_comm]

/-- The number of the next sample that an audio-out stream sends. -/
def outFirst (s : State) (t : Sid) (i : Nat) : Nat :=
  if (stream s i).outNo = 0 then sampleNo (advance s t).sid.now + 1 else (stream s i).outNo

/-- The output time of the last sample of its datagram. -/
def outLast (s : State) (t : Sid) (i : Nat) : Nat := (outFirst s t i + byteAt (stream s i).cfg 9 - 1) * secU / 48000

/-- The sample pairs of its datagram: those that the path has put out, else zeros. -/
def outPairs (s : State) (t : Sid) (i : Nat) : Bytes :=
  (List.range (byteAt (stream s i).cfg 9)).flatMap fun k => pairBytes
    ((((path (advance s t) (byteAt (stream s i).cfg 8)).past.find? fun x => sampleNo x.time == outFirst s t i + k).map fun x =>
      (x.left, x.right)).getD (0, 0))

/-- An audio-out stream once its datagram is sent. -/
def outStream (s : State) (t : Sid) (i : Nat) : UdpStream :=
  let u := stream s i
  let n := byteAt u.cfg 9
  { u with
    seq := (u.seq + 1) % 2 ^ 32, gap := false, outNo := outFirst s t i + n
    sent := streamHeader i u (flag u.gap 1) u.seq (outFirst s t i * secU / 48000) (8 * n) n ++ outPairs s t i }

section AudioOut

variable (hkind : (stream s i).kind = 1) (hruns : streamRuns s (stream s i) = true)

include hkind hruns

theorem audioOut_runs : ¬((stream s i).kind ≠ 1 ∨ streamRuns s (stream s i) = false) :=
  not_or.2 ⟨not_not_intro hkind, ne_false_of_eq_true hruns⟩

theorem execAudioOutDatagram_late (hlate : outLast s t i + 500 * usU < (advance s t).sid.now) : execAudioOutDatagram i t s =
    .next (putStream (advance s t) i { stream s i with gap := true, outNo := outFirst s t i + byteAt (stream s i).cfg 9 }) := by
  unfold execAudioOutDatagram
  simp only [stream_advance, streamRuns_advance]
  refine (if_neg (audioOut_runs hkind hruns)).trans ((if_neg (Nat.not_lt.2 (Nat.le_of_add_right_le hlate.le))).trans (if_pos hlate))

theorem execAudioOutDatagram_sends (hdue : outLast s t i ≤ (advance s t).sid.now)
    (hin : (advance s t).sid.now ≤ outLast s t i + 500 * usU) : execAudioOutDatagram i t s =
      .next (sent (putStream (advance s t) i (outStream s t i)) (framesOf (stream s i) (8 * byteAt (stream s i).cfg 9))) := by
  unfold execAudioOutDatagram
  simp only [stream_advance, streamRuns_advance]
  exact (if_neg (audioOut_runs hkind hruns)).trans ((if_neg (Nat.not_lt.2 hdue)).trans (if_neg (Nat.not_lt.2 hin)))

end AudioOut

/-- The state after a head has sent a frame packet: the frame kept for its emission, and both fragments sent. -/
def frameSent (q : State) (frame : Nat) (time : Int) : State :=
  let u := stream q (sfnStream q)
  let a := frameFic q frame
  let b := frameAudio q
  let h (frag len : Nat) : Bytes := streamHeader (sfnStream q) u frag (frame % 2 ^ 32) time.toNat len 0
  sent (putStream (q.setTx { q.tx with ahead := mput q.tx.ahead frame (a, b) }) (sfnStream q)
    { u with seq := frame % 2 ^ 32, sent := h 0 a.length ++ a ++ h 1 b.length ++ b }) (framesOf u a.length + framesOf u b.length)

theorem frameSent_seq (q : State) (frame : Nat) (time : Int) :
    (stream (frameSent q frame time) (sfnStream q)).seq = frame % 2 ^ 32 := by
  rw [frameSent, stream_sent_put]

theorem frameSent_frames (q : State) (frame : Nat) (time : Int) : (frameSent q frame time).eth.txFrames =
    sat 32 (q.eth.txFrames + (framesOf (stream q (sfnStream q)) (frameFic q frame).length +
      framesOf (stream q (sfnStream q)) (frameAudio q).length)) := by
  simp [frameSent, sent, putStream]

end Sent

/-- Settles O9: a command leaves the port as it was until its unit acts; each row's equation gives the rest. -/
theorem ethernetStreamsAct : Obligations.EthernetStreamsAct := by
  unfold Obligations.EthernetStreamsAct
  intro a s t
  refine ⟨?ethSet, ?udpSet, ?ethGet, fun hr => exec_done rfl hr rfl, fun icmp => execArpIcmpRequest_up,
    fun d hup hlen => ⟨execUdpDatagram_accepted hup hlen, execUdpDatagram_foreign hup hlen⟩,
    fun i ident r => execReassemblyTimeout_discards, fun i hkind hon hdue => if_pos ⟨hkind, hon, hdue⟩, ?audioOut, ?frame⟩
  case ethSet =>
    intro hr
    rw [← eth_taken ethSetSpec a s]
    exact exec_done rfl hr rfl
  case udpSet =>
    intro hr hfree
    rw [sfnRole, sfnStream, ← tx_taken udpStreamSetSpec a s] at hfree
    rw [← eth_taken udpStreamSetSpec a s]
    intro u q
    have hu := udpStreamUnit_replaces (c := cmdOf udpStreamSetSpec a) hfree
    by_cases hdone : u.kind = 0 ∨ streamRuns q u = true
    · rw [if_pos hdone]
      exact exec_done rfl hr (hu.trans (if_pos hdone))
    · rw [if_neg hdone]
      exact exec_busy rfl hr (hu.trans (if_neg hdone))
  case ethGet =>
    intro hr
    rw [← ethRecord_taken s ethGetSpec a]
    exact exec_done rfl hr rfl
  case audioOut =>
    intro i hkind hruns
    exact ⟨execAudioOutDatagram_late hkind hruns, fun hdue hin => ⟨_, outPairs s t i, execAudioOutDatagram_sends hkind hruns hdue hin,
      stream_sent_put .., length_pairs .., by simp [sent, putStream]⟩⟩
  case frame =>
    intro frame q time hrole hmode htx hkind hruns hnew hlead
    have hkept : (mget q.tx.ahead frame).isNone = true := Option.isNone_iff_eq_none.2 hnew
    exact ⟨frameSent q frame time, if_pos ⟨hrole, hmode, htx, hkind, hruns, hkept, hlead⟩, mget_mput_self ..,
      frameSent_seq .., frameSent_frames ..⟩

end Sys2Proof.Machine
end

section
/-! PROOF. The panel inputs (O8). -/

namespace Sys2Proof.Machine

/-! ## A debounced change -/

section Change

variable (s : State)

theorem leaveFrost_panel : (leaveFrost s).panel = s.panel := by
  unfold leaveFrost
  split <;> rfl

theorem wakeBy_panel (i : Nat) (tj : Int) : (wakeBy s i tj).panel = s.panel := by
  unfold wakeBy
  split
  · rfl
  · split
    · exact leaveFrost_panel s
    · rfl

/-- A change moves nothing of the panel but the queue of changes. -/
theorem panelChange_panel (kind input value bitNo : Nat) (single : Bool) : ∃ queue dropped,
    (panelChange s kind input value bitNo single).panel = { s.panel with queue := queue, dropped := dropped } := by
  have hposted (first : Bool) (d : Nat) : ∃ queue dropped,
      (if panelQueues s then queueChange s d first
        else if single then raiseSingle s s.sid.now evPanel 0x0D00 d else s).panel =
          { s.panel with queue := queue, dropped := dropped } := by
    split
    · exact ⟨_, _, rfl⟩
    · exact ⟨s.panel.queue, s.panel.dropped, by split <;> rfl⟩
  obtain ⟨queue, dropped, h⟩ := hposted (bit (le s.panel.cfg 0 3) bitNo && wakes s 2 0) (panelDetail kind input value)
  refine ⟨queue, dropped, Eq.trans ?_ h⟩
  unfold panelChange
  dsimp only
  split
  · exact wakeBy_panel ..
  · rfl

end Change

/-! ## Keys and plugs (R474, R475) -/

section Keys

variable {s : State} {t : Sid} {k : Nat}

theorem setKey_keys (down : Bool) : (setKey s k down).panel.keys =
    if down then s.panel.keys ||| 1#16 <<< k else s.panel.keys &&& ~~~(1#16 <<< k) := by
  obtain ⟨queue, dropped, h⟩ := panelChange_panel (s.setPanel { s.panel with
    keys := if down then s.panel.keys ||| 1#16 <<< k else s.panel.keys &&& ~~~(1#16 <<< k) }) 0 k (if down then 1 else 0) k true
  exact congrArg Panel.keys h

/-- A key that is off its state in the debounced input is taken note of. -/
theorem key_changes {down : Bool} (hon : s.pwr.state ≠ .off) (hk : k < 16)
    (hdiff : (s.panel.withheld.contains k || s.panel.keys.getLsbD k) ≠ down) :
    ¬(s.pwr.state = .off ∨ 16 ≤ k ∨ (s.panel.withheld.contains k || s.panel.keys.getLsbD k) = down) :=
  not_or.2 ⟨hon, not_or.2 ⟨hk.not_ge, hdiff⟩⟩

/-- The state with a withheld press taken note of. -/
def keyWithheld (s : State) (k : Nat) : State :=
  let q := s.setPanel { s.panel with withheld := s.panel.withheld ++ [k] }
  if panelQueues q then q else raise q evPanel 0x0D00 (panelDetail 5 k 0)

theorem keyWithheld_panel : (keyWithheld s k).panel = { s.panel with withheld := s.panel.withheld ++ [k] } := by
  unfold keyWithheld
  dsimp only
  split
  · rfl
  · simp

variable (hon : s.pwr.state ≠ .off) (hk : k < 16)

include hon hk

section Press

variable (hfree : s.panel.withheld.contains k = false) (hup : s.panel.keys.getLsbD k = false)

include hfree hup

theorem execKeyChange_press (hsure : bit (byteAt s.panel.cfg 8) 0 = true ∨ phantom (keysDown s.panel ||| 2 ^ k) k = false) :
    execKeyChange k true t s = .next (setKey (advance s t) k true) := by
  refine (if_neg (key_changes hon hk (by rw [hfree, hup]; decide))).trans ((if_pos rfl).trans (if_neg ?_))
  rintro ⟨hno, hph⟩
  exact hsure.elim (ne_true_of_eq_false hno) (ne_false_of_eq_true hph)

theorem execKeyChange_withholds (hdet : bit (byteAt s.panel.cfg 8) 0 = false)
    (hph : phantom (keysDown s.panel ||| 2 ^ k) k = true) :
    execKeyChange k true t s = .next (keyWithheld (advance s t) k) :=
  (if_neg (key_changes hon hk (by rw [hfree, hup]; decide))).trans ((if_pos rfl).trans (if_pos ⟨hdet, hph⟩))

end Press

theorem execKeyChange_release (hfree : s.panel.withheld.contains k = false) (hdown : s.panel.keys.getLsbD k = true) :
    execKeyChange k false t s = .next (reportWithheld (setKey (advance s t) k false)) := by
  refine (if_neg (key_changes hon hk (by rw [hfree, hdown]; decide))).trans ((if_neg Bool.false_ne_true).trans ?_)
  rw [hfree]
  rfl

theorem execKeyChange_releaseWithheld (hheld : s.panel.withheld.contains k = true) : execKeyChange k false t s =
    .next (reportWithheld ((advance s t).setPanel { s.panel with withheld := s.panel.withheld.erase k })) := by
  refine (if_neg (key_changes hon hk (by rw [hheld, Bool.true_or]; decide))).trans ((if_neg Bool.false_ne_true).trans ?_)
  rw [hheld]
  rfl

end Keys

section Plugs

variable {s : State} {t : Sid} {p : Nat} {high : Bool}

/-- The plugs once plug `p` is in or out. -/
def plugsAfter (s : State) (p : Nat) (inserted : Bool) : BitVec 4 :=
  if inserted then s.panel.plugs ||| 1#4 <<< p else s.panel.plugs &&& ~~~(1#4 <<< p)

theorem execPlugChange_changes (hon : s.pwr.state ≠ .off) (hp : p < 4)
    (hdiff : s.panel.plugs.getLsbD p ≠ (high == bit (byteAt s.panel.cfg 6) p)) : ∃ q, execPlugChange p high t s = .next q ∧
      q.panel.plugs = plugsAfter s p (high == bit (byteAt s.panel.cfg 6) p) := by
  let inserted := high == bit (byteAt s.panel.cfg 6) p
  obtain ⟨queue, dropped, h⟩ := panelChange_panel ((advance s t).setPanel { s.panel with plugs := plugsAfter s p inserted })
    2 p (if inserted then 1 else 0) (18 + p) true
  exact ⟨_, if_neg (not_or.2 ⟨hon, not_or.2 ⟨hp.not_ge, hdiff⟩⟩), congrArg Panel.plugs h⟩

end Plugs

/-! ## Encoders (R476) -/

section Encoders

variable {s : State} {t : Sid} {e : Nat} {d : Int}

theorem detent_first : (detent s 0 d).panel.enc0 = s.panel.enc0 + BitVec.ofInt 16 d ∧ (detent s 0 d).panel.part0 = 0 := by
  unfold detent
  dsimp only
  split
  all_goals
    obtain ⟨queue, dropped, h⟩ := panelChange_panel (State.setPanel s _) 1 0 (d % 256).toNat (16 + 0) false
    exact ⟨congrArg Panel.enc0 h, congrArg Panel.part0 h⟩

theorem detent_second : (detent s 1 d).panel.enc1 = s.panel.enc1 + BitVec.ofInt 16 d ∧ (detent s 1 d).panel.part1 = 0 := by
  unfold detent
  dsimp only
  split
  all_goals
    obtain ⟨queue, dropped, h⟩ := panelChange_panel (State.setPanel s _) 1 1 (d % 256).toNat (16 + 1) false
    exact ⟨congrArg Panel.enc1 h, congrArg Panel.part1 h⟩

variable (hon : s.pwr.state ≠ .off)

include hon

theorem execEncoderStep_invalid (he : e < 2) : execEncoderStep e 0 t s =
    .next ((advance s t).setPanel { s.panel with encErrs := sat 32 (s.panel.encErrs + 1) }) :=
  (if_neg (not_or.2 ⟨hon, not_or.2 ⟨he.not_ge, by decide⟩⟩)).trans (if_pos rfl)

variable (hd : d.natAbs = 1)

include hd

theorem execEncoderStep_moves (he : e < 2) : execEncoderStep e d t s =
    let v := (if e = 0 then s.panel.part0 else s.panel.part1) + d
    if byteAt s.panel.cfg 7 ≤ v.natAbs then .next (detent (advance s t) e d)
    else .next ((advance s t).setPanel (if e = 0 then { s.panel with part0 := v } else { s.panel with part1 := v })) :=
  (if_neg (not_or.2 ⟨hon, not_or.2 ⟨he.not_ge, by omega⟩⟩)).trans (if_neg (by rintro rfl; simp at hd))

end Encoders

/-! ## PTT and WAKE_N (R477, R481) -/

section Trigger

variable {s : State} {t : Sid}

theorem brkUpdate_panel (q : State) : (brkUpdate q).panel = q.panel :=
  (brkUpdate_keeps (.refl _ q) (Sub.refl _)).same .panel rfl

theorem execPtt_changes {pressed : Bool} (hon : s.pwr.state ≠ .off) (hdiff : s.panel.ptt ≠ pressed) :
    ∃ q, execPtt pressed t s = .next q ∧ q.panel.ptt = pressed ∧ q.panel.pttFree = (pressed && !brkEn s 1) := by
  let u := (advance s t).setPanel { s.panel with ptt := pressed, pttFree := pressed && !brkEn s 1 }
  let v := u.setTx { u.tx with ptt := pressed && brkEn u 1 && pttConfirmed u }
  let w := if governed v ∧ transmitting v = false then brkUpdate v else v
  have hw : w.panel = u.panel := by
    by_cases h : governed v ∧ transmitting v = false
    · exact (congrArg State.panel (if_pos h)).trans (brkUpdate_panel v)
    · exact (congrArg State.panel (if_neg h)).trans rfl
  obtain ⟨queue, dropped, h⟩ := panelChange_panel w 3 16 (if pressed then 1 else 0) 22 true
  rw [hw] at h
  exact ⟨_, if_neg (not_or.2 ⟨hon, hdiff⟩), congrArg Panel.ptt h, congrArg Panel.pttFree h⟩

theorem execWakeN_told {us : Nat} {tj : Int} (hus : 1000 ≤ us) (hst : s.pwr.state = .active ∨ s.pwr.state = .frost) :
    execWakeN us tj t s = .next (wakeBy (raise (advance s t) evPanel 0x0D00 (panelDetail 4 17 0)) 1 tj) := by
  unfold execWakeN
  rcases hst with h | h <;> simp [h, hus.not_gt]

theorem execWakeN_permafrost {us : Nat} {tj : Int} (hus : 1000 ≤ us) (hst : s.pwr.state = .permafrost) :
    execWakeN us tj t s = .next (wakeBy s 1 tj) := by
  simp [execWakeN, hst, hus.not_gt]

end Trigger

theorem panel_taken (sp : CmdSpec) (a : Args) (s : State) : (taken sp a s).panel = s.panel := by simp

/-- Settles O8: the row of each input in the case that the clause names; a change keeps the panel but for its queue. -/
theorem panelInputsAreReported : Obligations.PanelInputsAreReported := by
  unfold Obligations.PanelInputsAreReported
  intro a s t
  refine ⟨?set, ?get, ?keys, fun k hk hon hheld => execKeyChange_releaseWithheld hon hk hheld,
    fun p hp high hon hdiff => execPlugChange_changes hon hp hdiff, fun e he hon => execEncoderStep_invalid hon he, ?encoders,
    fun pressed => execPtt_changes, fun us tj => execWakeN_told, fun us tj => execWakeN_permafrost⟩
  case set =>
    intro hr
    rw [← panel_taken panelSetSpec a s]
    exact exec_busy rfl hr rfl
  case get =>
    intro hr
    rw [← panel_taken panelGetSpec a s]
    exact exec_done rfl hr rfl
  case keys =>
    intro k hk hon hfree
    refine ⟨fun hup hsure => ⟨_, execKeyChange_press hon hk hfree hup hsure, setKey_keys true⟩,
      fun hup hdet hph => ⟨_, execKeyChange_withholds hon hk hfree hup hdet hph, ?_, ?_⟩,
      fun hdown => ⟨_, execKeyChange_release hon hk hfree hdown, rfl⟩⟩
    · rw [keyWithheld_panel]; rfl
    · rw [keyWithheld_panel]; rfl
  case encoders =>
    intro d hon hd
    refine ⟨fun hpart => ?_, fun hwhole => ?_, fun hpart => ?_, fun hwhole => ?_⟩
    · exact (execEncoderStep_moves hon hd Nat.zero_lt_two).trans (if_neg hpart.not_ge)
    · exact ⟨_, (execEncoderStep_moves hon hd Nat.zero_lt_two).trans (if_pos hwhole), detent_first⟩
    · exact (execEncoderStep_moves hon hd Nat.one_lt_two).trans (if_neg hpart.not_ge)
    · exact ⟨_, (execEncoderStep_moves hon hd Nat.one_lt_two).trans (if_pos hwhole), detent_second⟩

end Sys2Proof.Machine
end

section
/-! PROOF. The I²C target and its calls for attention (O5). -/

namespace Sys2Proof.Machine

/-! ## The target (Table 15-3) -/

section Target

variable {s : State} {b : Byte}

theorem execI2cAddress_own (hst : s.i2c.st = .address) (hown : b.toNat / 2 = s.hcfg.i2cAddr) (hanswers : targetAnswers s = true) :
    let q := takeAddress (s.setI2c { s.i2c with met := true }) (bit b.toNat 0)
    execI2cAddress b s = .next (if s.pwr.state = .frost ∧ bit s.pwr.wakeMask 0 = true then leaveFrost q else q) :=
  (if_neg (not_not_intro hst)).trans (if_neg (not_or.2 ⟨not_not_intro hown, ne_false_of_eq_true hanswers⟩))

theorem execI2cAddress_other (hst : s.i2c.st = .address) (hother : b.toNat / 2 ≠ s.hcfg.i2cAddr ∨ targetAnswers s = false) :
    execI2cAddress b s = .next (s.setI2c { s.i2c with st := .ignore }) :=
  (if_neg (not_not_intro hst)).trans (if_pos hother)

/-- A page selection that waits is applied by the STOP (R441). -/
theorem execI2cStop_page {p : Nat} {v : Byte} (hpend : s.i2c.pend = [(p, 0xFF, v)]) : execI2cStop s =
    .next (s.setI2c { s.i2c with st := .idle, holding := false, pend := [], page := v.toNat }) := by
  have happly : applyPends (releaseSda s) = s.setI2c { s.i2c with holding := false, pend := [], page := v.toNat } := by
    unfold applyPends
    rw [show (releaseSda s).i2c.pend = [(p, 0xFF, v)] from hpend]
    rfl
  rw [execI2cStop, happly]
  rfl

theorem takeAddress_i2c (read : Bool) : (takeAddress s read).i2c.stretch = s.i2c.stretch ∧
    (takeAddress s read).i2c.page = s.i2c.page ∧ (takeAddress s read).i2c.pointer = s.i2c.pointer ∧
    (takeAddress s read).i2c.st = if read then .read else .writePtr := by
  cases read <;> exact ⟨rfl, rfl, rfl, rfl⟩

theorem execEvBusStuck_idles {t : Sid} (hidle : s.i2c.st ≠ .idle) (hignore : s.i2c.st ≠ .ignore) :
    ∃ q, execEvBusStuck t s = .next q ∧ q.i2c = { s.i2c with st := .idle, pend := [], holding := false } ∧
      q.hcfg = { s.hcfg with stuck := sat 32 (s.hcfg.stuck + 1) } :=
  ⟨_, if_neg (not_or.2 ⟨hidle, hignore⟩), by simp, by simp⟩

end Target

/-! ## Calls for attention (R450–R453) -/

section Attention

variable {s : State} (hmay : maySignal s 2 = true)

include hmay

theorem controller_writes (hgoes : givenUp s = false) : ¬(maySignal s 2 = false ∨ givenUp s = true) :=
  not_or.2 ⟨ne_false_of_eq_true hmay, ne_true_of_eq_false hgoes⟩

/-- The notification after an address that was not acknowledged. -/
def ctrlNacked (s : State) : State := s.setI2c { s.i2c with nacks := s.i2c.nacks + 1, lastReq := s.sid.now, met := false }

theorem execControllerWrite_retries (hleft : s.i2c.nacks + 1 < max 1 s.hcfg.ctrlRetry) :
    execControllerWrite .nack s = .next (ctrlNacked s) := by
  have hgoes : givenUp s = false := decide_eq_false ((Nat.lt_succ_self _).trans hleft).not_ge
  have hmore : givenUp (ctrlNacked s) = false := decide_eq_false hleft.not_ge
  exact (if_neg (controller_writes hmay hgoes)).trans (if_neg (ne_true_of_eq_false hmore))

theorem execControllerWrite_givesUp (hlast : s.i2c.nacks + 1 = max 1 s.hcfg.ctrlRetry) : execControllerWrite .nack s =
    .next (((ctrlNacked s).setHcfg { s.hcfg with ctrlFail := true }).setMbx { s.mbx with attn := false }) := by
  have hgoes : givenUp s = false := decide_eq_false (Nat.not_le_of_lt (hlast ▸ Nat.lt_succ_self _))
  have hend : givenUp (ctrlNacked s) = true := decide_eq_true hlast.ge
  exact (if_neg (controller_writes hmay hgoes)).trans (if_pos hend)

end Attention

/-- Settles O5: each row of Table 15-3 and of the calls for attention in the case that the clause names. -/
theorem i2cTargetAndAttentionFollowTheBus : Obligations.I2cTargetAndAttentionFollowTheBus := by
  unfold Obligations.I2cTargetAndAttentionFollowTheBus
  intro s
  refine ⟨rfl, fun b => execI2cAddress_own, fun b => execI2cAddress_other, ⟨rfl, rfl⟩, fun p v => execI2cStop_page,
    fun hread => if_pos hread, fun b tj hown hwakes => ⟨_, if_pos ⟨hown, hwakes⟩, takeAddress_i2c _⟩,
    fun t => execEvBusStuck_idles, fun hmay => if_pos hmay, fun hheld => if_pos hheld,
    fun hmay hgoes => if_neg (controller_writes hmay hgoes), fun hmay hgoes => if_neg (controller_writes hmay hgoes),
    execControllerWrite_retries, execControllerWrite_givesUp⟩

end Sys2Proof.Machine
end
